-- ==== Sys2Proof/Word.lean ====
section
/-!
DEFINITION. The word types of the XDN-7256, and the one shape in which the model holds sparse data.
-/
namespace Sys2Proof

/-- A byte. -/
abbrev Byte := BitVec 8

/-- The native word of the part: 64 bits (R1, R5). -/
abbrev Word := BitVec 64

/-- Sparse data by number: pairs of a number and a value, the numbers strictly rising. A number that is
not listed has the default of the operation that reads it (Machine/Ops.lean), so that equal contents are
equal lists. -/
abbrev SMap (α : Type) := List (Nat × α)

/-- An instant in sub-ticks: 1/16 of a 625 ps tick (R6, R24). -/
abbrev SubTick := Nat

end Sys2Proof
end

