-- ==== Sys2Proof/Syntax.lean ====
section
/-!
DEFINITION. The commands: one constructor per row of spec/opcode_table.json, with the operands the model
gives it. An operand `t` is the tick at which the step happens; operands that name an instance are bounded by
the number of instances; an operand that carries a measurement, a sample or the result of arithmetic that the
spec does not fix stands for whatever the outside, or the part, produces there (notes/assumptions/1).
-/
namespace Sys2Proof

/-- The supply voltages of the HBM rails in mV at an instant: VHBM_PP, VHBM_CORE, VHBM_IO (R67). -/
structure HbmRails where
  pp : Nat
  core : Nat
  io : Nat
  deriving DecidableEq, Repr

/-- Where a rail stands against its warn window (R72). -/
inductive Zone | below | within | above
  deriving DecidableEq, Repr

/-- One access to a bank: the agent's code (R425), its direction, the word, the data of a write, and whether the word
read is found uncorrectable (R424). -/
structure BankAcc where
  agent : BitVec 7
  write : Bool
  word : Fin 131072
  data : Word
  unc : Bool
  deriving DecidableEq, Repr

/-- The ECC outcome of the program word, the X word and the Y word a bundle reads: 0 clean, 1 corrected,
2 uncorrectable (R446). -/
structure CoreEcc where
  p : Fin 3
  x : Fin 3
  y : Fin 3
  deriving DecidableEq, Repr

/-- What a hop of the fabric carries (R527, R531): the samples of a context into its view and transform; its view samples, or its frames and
stored traces, to the acquisition controller; its traces to density units, masks and jobs; register accesses of a page; the memory accesses
of the BAR2 window. -/
inductive HopKind where
  | samples | raw | frames | points | page | bar2
  deriving DecidableEq, Repr

/-- One stream over a hop: `id` is the context or the page. -/
structure HopUse where
  kind : HopKind
  id : Fin 4096
  deriving DecidableEq, Repr

/-- A word on a hop with its 8 parity bits, one per byte (R528). -/
structure FabWord where
  data : Word
  par : BitVec 8
  deriving DecidableEq, Repr

/-- A command entry of a ring (R328): opcode, FORCE, SGL, a non-zero reserved flag, CID, DPTR, DLEN, P0 to P4. -/
structure SvcCmd where
  opc : BitVec 8
  force : Bool
  sgl : Bool
  reserved : Bool
  cid : BitVec 16
  dptr : Word
  dlen : BitVec 32
  p0 : Word
  p1 : Word
  p2 : Word
  p3 : Word
  p4 : Word
  deriving DecidableEq, Repr

/-- The Ethernet part of the board configuration for one port (R365, R493): MAC, IPv4, IPv6, lane polarities. -/
structure EthBoard where
  mac : BitVec 48
  ip4 : BitVec 32
  ip6Hi : Word
  ip6Lo : Word
  pol : BitVec 16
  deriving DecidableEq, Repr

/-- The board configuration in boot flash (R128, R133, R493). -/
structure BoardCfg where
  refHz : BitVec 32
  resumeLead : BitVec 8
  hostIsolate : Bool
  warmResume : Bool
  eth : List EthBoard
  deriving DecidableEq, Repr

/-- A firmware image as R497 judges it: a missing MAGIC or a BODY_LEN out of range, its VERSION and SVN, whether its
signature and its body digest verify, and BODY_DIGEST. -/
structure FwImage where
  blank : Bool
  version : BitVec 32
  svn : BitVec 32
  signed : Bool
  digestOk : Bool
  digest : List Word
  deriving DecidableEq, Repr

/-- One measured band of the VCO (R104): the FCLK-branch counts over one checker window at the lowest and the highest tuning voltage,
and the die temperature in °C. -/
structure BandCount where
  lo : Nat
  hi : Nat
  temp : BitVec 8
  deriving DecidableEq, Repr

/-- One section of an epoch image (R481, R482): its table entry, and its content by word (8 bytes; 4 bytes in a WINDOW
or PALETTE section), where a word not listed is 0. -/
structure ImgSection where
  kind : BitVec 16
  first : BitVec 16
  count : BitVec 32
  offset : Word
  length : Word
  words : SMap Nat
  deriving DecidableEq, Repr

/-- An epoch image (R481): the header's fields and the sections. -/
structure EpochImage where
  magic : Word
  format : BitVec 32
  sections : BitVec 32
  length : Word
  digest : List Word
  secs : List ImgSection
  deriving DecidableEq, Repr

/-- One slice's estimate of GAIN and SKEW in their register units (R177 to R187). -/
structure IcEst where
  gain : Int
  skew : Int
  deriving DecidableEq, Repr

/-- A converter sample of one frame of a link (R147, R148): converter, sample within the frame, the code in its low N
bits, and the control bits. -/
structure LaneSample where
  conv : Fin 64
  samp : Fin 16
  code : BitVec 16
  cs : BitVec 3
  deriving DecidableEq, Repr

/-- A request to a pseudo-channel (R398, R399, R410, R414, R415): its class, direction, capture address and
length; whether serving it activates its row; the corrections the stack reports; the interface retries it takes, and
whether it still fails after them; the byte, from its start, that a burst reported uncorrectable holds. -/
structure MemReq where
  cls : Fin 64
  write : Bool
  addr : Nat
  len : Nat
  act : Bool
  corr : Nat
  retries : Fin 4
  failed : Bool
  unc : Option Nat
  deriving DecidableEq, Repr

/-- One entry of a recorder member list (R339): port, downstream port, NSID. -/
structure RecMemberId where
  port : BitVec 8
  down : BitVec 8
  nsid : BitVec 32
  deriving DecidableEq, Repr

/-- A volume header with a correct CRC as read from a member (R340). -/
structure VolHeader where
  seq : Nat
  setId : Word
  wrap : Bool
  next : BitVec 32
  recordings : BitVec 32
  deriving DecidableEq, Repr

/-- What REC_OPEN finds at a member (R338, R339, R364): the namespace is usable; its LBA count; its volume header; its chunks whose
index entries read STATE 0; the generation at which its root port runs. -/
structure RecFound where
  usable : Bool
  lbas : Nat
  hdr : Option VolHeader
  free : Nat
  speed : BitVec 4
  deriving DecidableEq, Repr

/-- The descriptor of a stream slot (R348). -/
structure StreamDesc where
  slot : BitVec 8
  ports : BitVec 8
  ipv6 : Bool
  vlanTag : Bool
  vlan : BitVec 16
  payload : BitVec 16
  mac : BitVec 48
  ip : BitVec 128
  srcPort : BitVec 16
  dstPort : BitVec 16
  dscp : Byte
  ttl : Byte
  moduleId : Byte
  rfRef : Word
  ctxPeriod : BitVec 32
  deriving DecidableEq, Repr

/-- A context packet (R347): the data stream that it describes, as context and content (0 raw, 1 spectral). -/
structure CtxPacket where
  ctx : Fin 1024
  content : Fin 2
  deriving DecidableEq, Repr

/-- The block of PTP_CFG (R353). -/
structure PtpConfig where
  src : Byte
  role : Byte
  port : Byte
  transport : Byte
  domain : Byte
  prio1 : Byte
  prio2 : Byte
  mode : Byte
  logSync : Byte
  logAnnounce : Byte
  deadband : BitVec 32
  deriving DecidableEq, Repr

/-- A received IEEE 1588 message (R350): Sync and Follow_Up with the master's time of the Sync, and whether a Follow_Up is to come;
Delay_Req with the words that name its sender; Delay_Resp with the time at which the master received the request; Announce with the
grandmaster and the steps removed. Times are in 2^-16 ns, corrections applied. -/
inductive PtpMsg
  | sync (t1 : Int) (twoStep : Bool)
  | followUp (t1 : Int)
  | delayReq (sender : List Nat)
  | delayResp (t4 : Int)
  | announce (gm : Word) (steps : BitVec 16)
  deriving DecidableEq, Repr

/-- A received Ethernet frame (R344): PTP, with its destination address; an ARP request or an IPv6 neighbour solicitation, with the
address that it asks for and its sender's addresses; or any other frame. -/
inductive EthFrame
  | ptp (dst : BitVec 48)
  | arp (target sender : BitVec 32) (mac : BitVec 48)
  | neighbour (target sender : BitVec 128) (mac : BitVec 48)
  | other
  deriving DecidableEq, Repr

/-- One entry of a housekeeping sequence (R512). -/
structure HkEntry where
  input : Fin 64
  rot : Bool
  order : Fin 8
  decM1 : BitVec 16
  avgM1 : Byte
  deriving DecidableEq, Repr

/-- A word of the trigger network received with a parity error at an input of a unit, 8 for its arming source: the value
and the stamp as received (R287). -/
structure ParWord where
  idx : Fin 9
  val : Bool
  stamp : SubTick
  deriving DecidableEq, Repr

/-- The ECC outcome of a mask segment word that a trace reads (R270): mask, segment, corrected or uncorrectable. -/
structure SegErr where
  mask : Fin 2
  seg : Fin 4096
  unc : Bool
  deriving DecidableEq, Repr

/-- The commands of the part (spec/opcode_table.json), in the table's order. -/
inductive Instr
  /-- REGISTER_WRITE (R35): A BAR0 write to a register field that has no row of its own takes effect as one
    64-bit write, or is ignored and flagged. -/
  | registerWrite (t : Nat) (off : BitVec 24) (len : Nat) (data : Nat)
  /-- BAR0_FLAGGED_READ (R35): A BAR0 read of the wrong width or alignment, or to an unmapped page, returns 0
    and is flagged. -/
  | bar0FlaggedRead (t : Nat) (off : BitVec 24) (len : Nat)
  /-- BAR0_BURST_REQUEST (R36): A BAR0 request of up to 64 bytes is performed as ascending 64-bit accesses; a
    larger request completes with Completer Abort. -/
  | bar0BurstRequest (t : Nat) (write : Bool) (off : BitVec 24) (bytes : List Byte)
  /-- BAR0_HOLD_TIMEOUT (R109): A BAR0 access held for 5 ms while clocks are gated or before READY completes
    with Completer Abort. -/
  | bar0HoldTimeout (t : Nat)
  /-- ACC_ERR_LOG_CLEAR (R37): Writing 1 to ACC_ERR_LOG.VALID clears the log and arms it for the next flagged
    access. -/
  | accErrLogClear (t : Nat)
  /-- PG_ENABLE (R42): A write of PG_CTL.EN enables a block, or stops it at its stopping point. -/
  | pgEnable (t : Nat) (page : Fin 4096) (en : Bool)
  /-- BLOCK_STOP (R44): After EN is written 0, EN_ACT falls when the block reaches its stopping point. -/
  | blockStop (t : Nat) (page : Fin 4096)
  /-- PG_SRST (R42): Writing 1 to PG_CTL.SRST starts a block reset of the page. -/
  | pgSrst (t : Nat) (page : Fin 4096)
  /-- BLOCK_RESET_DONE (R50): A block reset completes, and SRST and SRST_BUSY clear. -/
  | blockResetDone (t : Nat) (page : Fin 4096)
  /-- PSTATE_REQUEST (R144): A write of PG_CTL.PSTATE requests a power state, and PSTATE_BUSY sets. -/
  | pstateRequest (t : Nat) (page : Fin 4096) (ps : Fin 4)
  /-- PSTATE_DONE (R144): A power-state change completes, including any clear or self-calibration it includes;
    PSTATE_ACT takes the new state. -/
  | pstateDone (t : Nat) (page : Fin 4096)
  /-- EV_PEND_CLEAR (R46): A W1C of EV_PEND clears latched event bits, unless a transition falls in the same
    FCLK. -/
  | evPendClear (t : Nat) (page : Fin 4096) (mask same : Word)
  /-- EV_EN_WRITE (R45): A write of EV_EN enables forwarding, and forwards at once any bit that is already
    pending. -/
  | evEnWrite (t : Nat) (page : Fin 4096) (en : Word)
  /-- SHADOW_COMMIT (R47): Writing SH_CTL.COMMIT requests that a shadow group apply at its next apply point. -/
  | shadowCommit (t : Nat) (page : Fin 4096) (groups : BitVec 8)
  /-- SHADOW_ABORT (R47): Writing SH_CTL.ABORT cancels a group's pending commit. -/
  | shadowAbort (t : Nat) (page : Fin 4096) (groups : BitVec 8)
  /-- SHADOW_APPLY (R48): At an apply point the block copies all shadows of each committing group in one FCLK.
    -/
  | shadowApply (t : Nat) (page : Fin 4096)
  /-- RAIL_UP (R66): A supply rail reaches 90 % of its nominal voltage, and the sequence monitor checks the
    ordering. -/
  | railUp (us : Nat) (rail : Fin 9) (full : Bool) (hbm : HbmRails)
  /-- RAIL_DOWN (R66): A supply rail falls below 10 % of its nominal voltage. -/
  | railDown (us : Nat) (rail : Fin 9) (below : Bool) (hbm : HbmRails)
  /-- RAIL_MISSING (R69): A rail that is not up 100 ms after VDD_IO is reported as the RAIL_MISSING status. -/
  | railMissing (us : Nat) (hbm : HbmRails)
  /-- POR_N_RELEASE (R68): The board releases POR_N; it takes effect once every rail has been up for 2 ms. -/
  | porNRelease (us : Nat)
  /-- POR_N_ASSERT (R135): POR_N held low for 10 µs raises a cold reset. -/
  | porNAssert (us : Nat)
  /-- COLD_START (R127): The internal reset is released, and the cold start begins on the holdover oscillator.
    -/
  | coldStart (us : Nat)
  /-- AVS_SET (R64): About 2 ms after the reset release, the module sends the fused core voltage target over
    AVSBus. -/
  | avsSet (us : Nat)
  /-- AVS_POLL (R64): Every 100 µs the module reads the core voltage and current over AVSBus into CORE_TELEM. -/
  | avsPoll (t : Nat) (mv : BitVec 16) (da : BitVec 16) (failed : Bool)
  /-- AVS_FAIL (R65): A core voltage not confirmed within 10 ms of the command stops start-up with cause
    AVS_FAIL. -/
  | avsFail (us : Nat)
  /-- RAIL_WARN (R72): A rail that leaves its ±4 % warn window for 1 µs raises its UV or OV warn event. -/
  | railWarn (t : Nat) (rail : Fin 9) (zone : Zone)
  /-- RAIL_FAULT (R72): A rail that leaves its ±8 % fault window for 10 µs causes a protective reset with cause
    RUNTIME_UV or RUNTIME_OV. -/
  | railFault (t : Nat) (rail : Fin 9) (above : Bool)
  /-- THERM_TRIP (R73): A die above 115 °C for 1 ms fires the analogue trip, and a protective reset follows. -/
  | thermTrip (t : Nat)
  /-- SHORT_DETECT (R79): A pad mismatch that persists 1 µs on TRIG_OUT or PROT_OUT records a short and disables
    the driver. -/
  | shortDetect (t : Nat) (j : Fin 16) (padHigh : Bool)
  /-- SHORT_RETRY (R81): Every 10 ms after a detection the driver re-enables and checks again, or re-reads a
    released pad. -/
  | shortRetry (t : Nat) (j : Fin 16) (padHigh : Bool)
  /-- RETRY_NOW (R97): Writing OUT_FLT_CTL.RETRY_NOW runs an output's retry at once and restarts its schedule.
    -/
  | retryNow (t : Nat) (mask : BitVec 16) (padHigh : BitVec 16)
  /-- OUT_FLT_DET_DISABLE (R97): Writing 0 to OUT_FLT_CTL.DET_EN stops detection on an output, clears its fault
    and re-enables its driver. -/
  | outFltDetDisable (t : Nat) (mask : BitVec 16)
  /-- OW_START (R88): Writing OW_CTL.START starts one open-wire pass over MASK. -/
  | owStart (t : Nat)
  /-- OW_PERIODIC_PASS (R88): Every PERIOD × 10 ms an open-wire pass over MASK starts. -/
  | owPeriodicPass (t : Nat)
  /-- OW_PIN_TEST (R84): The test sources 1 µA into one pin for 2 µs and marks it open if it rose more than 120
    mV. -/
  | owPinTest (t : Nat) (pin : Fin 24) (riseMv : Nat)
  /-- SEQ_STAT_CLEAR (R93): Writing PWR.SEQ_STAT.CLEAR clears CAUSE, FAULT_SEEN and PD_ORDER. -/
  | seqStatClear (t : Nat)
  /-- SMB_READ_SEQ_STAT (R98): SMBus command 0x01 returns PWR.SEQ_STAT. -/
  | smbReadSeqStat
  /-- SMB_READ_RAIL_STAT (R98): SMBus command 0x02 returns PWR.RAIL_STAT. -/
  | smbReadRailStat
  /-- SMB_READ_CORE_TELEM (R98): SMBus command 0x03 returns PWR.CORE_TELEM, or 0 before start. -/
  | smbReadCoreTelem
  /-- SMB_READ_OUT_FLT_STAT (R98): SMBus command 0x04 returns TIO.OUT_FLT_STAT, or 0 before start. -/
  | smbReadOutFltStat
  /-- SMB_ALERT_RELEASE (R98): SMBus command 0x0F releases ALERT_N. -/
  | smbAlertRelease (data : Byte)
  /-- SMB_SEQ_CLEAR (R98): SMBus command 0x10 acts as a write of PWR.SEQ_STAT.CLEAR. -/
  | smbSeqClear (data : Byte)
  /-- SMB_ALERT_RESPONSE (R98): The sideband answers the SMBus Alert Response Address while ALERT_N is asserted.
    -/
  | smbAlertResponse
  /-- SMB_UNKNOWN_COMMAND (R98): Any other SMBus command is answered with a NACK of the command byte. -/
  | smbUnknownCommand (cmd : Byte)
  /-- REF_LOST (R100): D holdover samples with no REFCLK edge declare reference loss and gate the outputs. -/
  | refLost (t : Nat) (samples : List (BitVec 4))
  /-- REF_PRESENT (R100): REFCLK edges continuing for 1 ms mark the reference present again. -/
  | refPresent (t : Nat) (periods : Nat)
  /-- RELOCK (R124): Writing CLK.PLL_CTL.RELOCK gates the outputs and starts a lock. -/
  | relock (t : Nat)
  /-- PHASE_LOCK_DETECT (R106): Phase error within ±50 ps for 256 REFCLK periods reports lock, and the frequency
    check starts. -/
  | phaseLockDetect (t : Nat)
  /-- FREQUENCY_CHECK_DONE (R106): Two checker windows end; outputs within ±0.1 % pass, and otherwise the next
    band is tried. -/
  | frequencyCheckDone (t : Nat) (w1 : List Nat) (w2 : List Nat)
  /-- SYSREF_WAIT_EXPIRY (R106): No SYSREF edge arrives within SYSREF_WAIT at step 4, and the lock fails with
    cause 4. -/
  | sysrefWaitExpiry (t : Nat)
  /-- RELEASED (R106): All divided outputs are released together on a REFCLK edge, and RELEASED is raised. -/
  | released (t : Nat)
  /-- LOCK_LOST (R107): Phase error beyond ±1 ns for 8 periods while released gates every output within 50 ns.
    -/
  | lockLost (t : Nat)
  /-- BAND_CAL (R104): Writing CLK.PLL_CTL.BAND_CAL gates the outputs and starts measuring all 64 bands. -/
  | bandCal (t : Nat)
  /-- BAND_CAL_DONE (R104): The band table is complete, BAND_CAL_DONE is raised and a lock starts. -/
  | bandCalDone (t : Nat) (bands : List BandCount)
  /-- LOCK_RETRY (R110): With AUTO_RELOCK set, a failed lock is retried every 10 ms. -/
  | lockRetry (t : Nat)
  /-- GATE_HOLD_CLEAR (R124): Writing 0 to PLL_CTL.GATE_HOLD releases the outputs at step 5 of the lock. -/
  | gateHoldClear (t : Nat)
  /-- FTRIM_WRITE (R112): A write of CLK.FTRIM.TARGET sets the trim target, stored clamped to ±200 ppm. -/
  | ftrimWrite (t : Nat) (target : BitVec 32) (slew : BitVec 17)
  /-- TRIM_STEP (R112): Every 1 µs the active trim moves toward the target by at most SLEW. -/
  | trimStep (t : Nat)
  /-- SYSREF_EDGE (R117): A SYSREF edge is ignored, measured, or aligns the dividers and timebase, as MODE and
    ARM select. -/
  | sysrefEdge (t : Nat) (phaseErr : BitVec 16) (pulses : Option (Nat × Nat)) (falling : Bool)
  /-- SYSREF_ARM (R117): Writing SYSREF_CTL.ARM arms one alignment. -/
  | sysrefArm (t : Nat)
  /-- TIMEBASE_SNAP (R125): Writing TMB.SNAP.TAKE captures the tick count and its PTP time at one tick. -/
  | timebaseSnap (t : Nat)
  /-- ROM_VERIFY_DONE (R497): The ROM finishes checking a firmware slot and boots it, tries the other slot, or
    enters recovery. -/
  | romVerifyDone (t : Nat) (slot : Fin 2) (flash : Option FwImage) (board : BoardCfg) (bands : Option (List
      Word))
  /-- PCIE_LINK_TRAINED (R128): The host endpoint finishes link training, and configuration space answers. -/
  | pcieLinkTrained (t : Nat) (speed : Fin 6) (width : Fin 17)
  /-- HBM_START_TRAINING_DONE (R128): Start-up training of all HBM channels ends, and failed channels are taken
    out of service. -/
  | hbmStartTrainingDone (t : Nat) (failed : Word)
  /-- BANK_CLEAR_DONE (R145): A bank woken from OFF finishes its 82 µs hardware clear. -/
  | bankClearDone (t : Nat) (b : Fin 64) (ok : Bool)
  /-- BOOT_READY (R128): Start-up reaches step 9: READY is set, the default sequence starts and BOOT_READY is
    raised. -/
  | bootReady (t : Nat)
  /-- RST_N_ASSERT (R136): RST_N low for 100 holdover periods starts a warm reset. -/
  | rstNAssert (t periods : Nat)
  /-- PCIE_HOT_RESET (R135): A PCIe hot reset is a warm reset, or resets only the endpoint under HOST_ISOLATE.
    -/
  | pcieHotReset (t : Nat)
  /-- PE_PERST_N_ASSERT (R135): PE_PERST_N low is a warm reset, or resets only the endpoint under HOST_ISOLATE.
    -/
  | pePerstNAssert (t : Nat)
  /-- LANE_CDR_LOCK (R150): An enabled lane acquires clock-and-data recovery. -/
  | laneCdrLock (t : Nat) (lane : Fin 224)
  /-- BLOCK_LOCK (R150): 64 consecutive valid sync headers give block lock, inverting the receiver if they
    arrive inverted. -/
  | blockLock (t : Nat) (lane : Fin 224) (inverted : Bool)
  /-- EMB_LOCK (R150): The second end-of-extended-multiblock marker gives extended-multiblock lock. -/
  | embLock (t : Nat) (lane : Fin 224)
  /-- BLOCK_LOCK_LOST (R150): 16 invalid sync headers within 64 lose block lock, and the lane returns to step 2.
    -/
  | blockLockLost (t : Nat) (lane : Fin 224)
  /-- EMB_LOCK_LOST (R150): 4 consecutive misplaced markers lose extended-multiblock lock. -/
  | embLockLost (t : Nat) (lane : Fin 224)
  /-- RELEASE_POINT (R155): At its release point a link releases an extended multiblock from all lanes, or goes
    down on a late lane. -/
  | releasePoint (t : Nat) (l : Fin 64) (margins : List (Option Nat))
  /-- LINK_WD_EXPIRY (R168): No release for LINK_WD FCLK takes the link down. -/
  | linkWdExpiry (t : Nat) (l : Fin 64)
  /-- ELASTIC_BUFFER_OVERFLOW (R168): A lane's elastic buffer overflows, BUF_ERR sets and the link goes down. -/
  | elasticBufferOverflow (t : Nat) (lane : Fin 224)
  /-- MULTIBLOCK_RECEIVE (R168): A multiblock's FEC or CRC-12 result corrects it, flags it, or discards the
    frames it carries. -/
  | multiblockReceive (t : Nat) (l : Fin 64) (j : Fin 16) (release : Nat) (mb : Fin 32) (result : Fin 4) (errs :
      Nat)
  /-- FRAME_DELIVERY (R567): A released frame's samples are delivered to their slots at their delivery instant.
    -/
  | frameDelivery (t : Nat) (l : Fin 64) (frame : List LaneSample) (fclk drained0 drained1 : Nat)
  /-- OVERRANGE_EPISODE_END (R167): An overrange episode ends after OVR_GAP clean samples or 2^24 samples, and
    OVERRANGE records are written. -/
  | overrangeEpisodeEnd (t : Nat) (slot : Fin 256)
  /-- LANE_CNT_CLEAR (R172): Writing LQD.CNT_CLR clears a lane's FEC_CORR, CRC_ERR and MARGIN. -/
  | laneCntClear (t : Nat) (q : Fin 28) (mask : BitVec 8)
  /-- LINK_ERR_CLEAR (R173): Writing LNK.ERR_CLR clears ERR_CNT and DOWN_CNT. -/
  | linkErrClear (t : Nat) (l : Fin 64)
  /-- SLOT_CLEAR (R174): Writing SLT.SLT_CLR clears OVR_CNT and FIFO_MAX. -/
  | slotClear (t : Nat) (n : Fin 256)
  /-- TIER0_UPDATE (R178): Every 2^20 slice samples tier 0 moves each coefficient toward its estimate within its
    slew and bound. -/
  | tier0Update (t : Nat) (slot : Fin 256) (est : List IcEst)
  /-- CAL_TIER1 (R183): Service command 0x28 requests a tier-1 run on a bonded input, completing when the run
    ends. -/
  | calTier1 (t : Nat) (r : Fin 4)
  /-- T1_RUN_START (R184): Once no capture holds it back, a tier-1 run starts, withholds output and halts tier
    0. -/
  | t1RunStart (t : Nat) (slot : Fin 256)
  /-- T1_WINDOW1_END (R184): After 2^25 slice samples window 1's estimate is complete, and window 2 starts. -/
  | t1Window1End (t : Nat) (slot : Fin 256) (est : List IcEst)
  /-- T1_WINDOW2_END (R187): Window 2 ends, the acceptance test runs, output resumes, and CAL_TIER1 leaps and
    CALIBRATION records are written. -/
  | t1Window2End (t : Nat) (slot : Fin 256) (est : List IcEst)
  /-- T1_WAIT_EXPIRY (R189): A run still held back T1_WAIT seconds after its request proceeds as if forced. -/
  | t1WaitExpiry (t : Nat) (slot : Fin 256)
  /-- FRAME_READY (R205): A frame's last sample enters the pipeline's input store, and the frame queues or is
    dropped. -/
  | frameReady (t : Nat) (c : Fin 1024)
  /-- PIPELINE_READ_END (R212): A pipeline read ends, and the oldest ready frame starts. -/
  | pipelineReadEnd (t : Nat) (p : Fin 64) (corr : Nat) (bad : List (Fin 65536))
  /-- FRAME_EMIT (R210): The lead pipeline emits a frame's bins and traces to storage, density units and masks.
    -/
  | frameEmit (t : Nat) (c : Fin 1024) (segErr : List SegErr)
  /-- OVERLOAD_CLEAR (R214): After 1,024 FCLK with no drop, the OVERLOAD event's RAW falls. -/
  | overloadClear (t : Nat) (p : Fin 64)
  /-- XFP_CLR (R232): Writing XFP_CLR clears DROP_CNT, WIN_CORR and PEAK_LOAD. -/
  | xfpClr (t : Nat) (p : Fin 64)
  /-- XFP_LOAD_UPDATE (R232): Every 2^16 FCLK the pipeline updates its sliding LOAD average. -/
  | xfpLoadUpdate (t : Nat) (p : Fin 64)
  /-- CONTEXT_SWITCH (R216): At its switch point a context's transform, view and bindings take the new epoch's
    settings. -/
  | contextSwitch (t : Nat) (c : Fin 1024)
  /-- DENSITY_TRACE_ACCEPT (R243): At a trace's first point the lead unit checks every unit for room and accepts
    the trace. -/
  | densityTraceAccept (t : Nat) (u : Fin 16)
  /-- DENSITY_UPDATE (R238): A trace's points leave the input FIFO and increment their cells, and the regions
    are evaluated. -/
  | densityUpdate (t : Nat) (u : Fin 16) (unc : List (Fin 4 × Fin 262144))
  /-- DECAY_PASS_START (R244): After PERIOD traces a decay pass starts, or is held, or is discarded. -/
  | decayPassStart (t : Nat) (u : Fin 16) (unc : List (Fin 4 × Fin 262144))
  /-- DECAY_PASS_END (R244): A decay pass finishes its 16,384 FCLK sweep, and any held pass starts. -/
  | decayPassEnd (t : Nat) (u : Fin 16) (unc : List (Fin 4 × Fin 262144))
  /-- DENSITY_CLEAR (R246): Writing DEN_CTL.CLEAR clears the binding's plane in one FCLK and restarts the decay
    count. -/
  | densityClear (t : Nat) (u : Fin 16)
  /-- DEN_CLR (R263): Writing DEN_CLR clears TRACES, SKIPS, DECAY_MISS, SAT_INC and UNC. -/
  | denClr (t : Nat) (u : Fin 16)
  /-- TMP_READOUT_START (R253): A tone-mapper job falls due by its period or a head's frame start, and its
    readout starts. -/
  | tmpReadoutStart (t : Nat) (j : Fin 32) (unc : List (Fin 4 × Fin 262144))
  /-- TMP_FLIP (R256): A readout's writes complete, CUR moves to the new buffer and FLIP is raised. -/
  | tmpFlip (t : Nat) (j : Fin 32)
  /-- TMP_WRITE_ERR (R257): A tone-mapper write completed with an error ends the readout, and WRITE_ERR is
    raised. -/
  | tmpWriteErr (t : Nat) (j : Fin 32)
  /-- LEVEL_SOURCE_TRANSITION (R271): A tapped sample crosses a level source's threshold, and the source changes
    or pulses. -/
  | levelSourceTransition (t : Nat) (c : Fin 1024) (l : Fin 2)
  /-- TRIG_IN_EDGE (R272): A TRIG_IN pin changes and enters its persistence filter; a change shorter than the
    filter is counted as a glitch. -/
  | trigInEdge (t : Nat) (k : Fin 4) (level : Bool) (stamp : SubTick)
  /-- TRIG_IN_ACCEPT (R272): A TRIG_IN change that persists for FILTER FCLK changes the source, stamped at its
    first edge. -/
  | trigInAccept (t : Nat) (k : Fin 4)
  /-- SCHED_PULSE (R274): An armed schedule timer pulses at SCHED_TICK, late if needed, and advances or disarms.
    -/
  | schedPulse (t : Nat) (n : Fin 16)
  /-- TRU_INPUT_CHANGE (R275): A trigger unit's inputs change, its condition is evaluated, and a qualified event
    is processed. -/
  | truInputChange (t : Nat) (u : Fin 64) (par : List ParWord)
  /-- TRU_STRETCH_END (R275): A stretched pulse input falls after STRETCH FCLK. -/
  | truStretchEnd (t : Nat) (u : Fin 64)
  /-- TRU_PRIME_EXPIRE (R277): A sequence's priming window ends after WINDOW ticks without a completing event.
    -/
  | truPrimeExpire (t : Nat) (u : Fin 64)
  /-- TRU_HOLDOFF_END (R278): A trigger unit's tick hold-off ends. -/
  | truHoldoffEnd (t : Nat) (u : Fin 64)
  /-- TRU_FORCE (R280): Writing TRU_CTL.FORCE fires an enabled unit once, bypassing its logic, and starts a
    hold-off. -/
  | truForce (t : Nat) (u : Fin 64)
  /-- TRU_CLR (R294): Writing TRU_CTL.CLR clears FIRE_CNT, SUSPECT_CNT and HOLD_IGN. -/
  | truClr (t : Nat) (u : Fin 64)
  /-- TRU_RESET_STATE (R294): Writing TRU_CTL.RESET_STATE clears the count, the priming and the hold-off. -/
  | truResetState (t : Nat) (u : Fin 64)
  /-- COINC_GROUP_CLOSE (R284): A coincidence group closes COINC_WAIT FCLK after its first firing, and its
    TRIGGER records are queued. -/
  | coincGroupClose (t : Nat) (full : Bool)
  /-- TRIG_OUT_WIDTH_END (R289): A TRIG_OUT or Deltan line pulse ends after WIDTH FCLK. -/
  | trigOutWidthEnd (t : Nat) (line : Fin 22)
  /-- POUT_CLR (R289): Writing POUT_CLR releases a latched PROT_OUT whose source is inactive. -/
  | poutClr (t : Nat) (mask : BitVec 8)
  /-- TRN_CLR (R295): Writing TRN_CLR clears TRN_STAT. -/
  | trnClr (t : Nat)
  /-- FREE_RUN_TRIGGER (R282): In free-run mode the capture triggers once its eve window is full and the hold-
    off has passed. -/
  | freeRunTrigger (t : Nat) (c : Fin 1024)
  /-- CAP_ARM (R300): Writing CAP_CTL.ARM requests arming, which enters EVE_FILL, HELD or fails with ARM_ERR. -/
  | capArm (t : Nat) (c : Fin 1024)
  /-- CAP_DISARM (R302): Writing CAP_CTL.DISARM ends a capture in POST, or returns an armed capture to IDLE. -/
  | capDisarm (t : Nat) (c : Fin 1024)
  /-- CAP_RELEASE (R307): Writing CAP_CTL.RELEASE ends a freeze, restarting a ring or returning an eve+post
    region to IDLE. -/
  | capRelease (t : Nat) (c : Fin 1024)
  /-- EVE_FULL (R300): CAP_EVE samples written since arming move the capture to ARMED. -/
  | eveFull (t : Nat) (c : Fin 1024)
  /-- CAPTURE_END (R302): A capture ends on its post window or truncation, and a CAPTURE_END record is written.
    -/
  | captureEnd (t : Nat) (c : Fin 1024)
  /-- HELD_REARM (R304): A HELD arming proceeds once every drain has read the previous capture. -/
  | heldRearm (t : Nat) (c : Fin 1024)
  /-- STREAM_WRITE_RESUME (R304): Writing resumes at a stride boundary once free space reaches 1/16 of the area.
    -/
  | streamWriteResume (t : Nat) (c : Fin 1024)
  /-- BACKPRESSURE_END (R308): The write buffer falls below 75 %, the discard ends and the leap is written. -/
  | backpressureEnd (t : Nat) (c : Fin 1024) (drained0 drained1 : Nat)
  /-- RECORD_QUEUE_FREE (R315): A freed record-queue entry lets an open MEMORY_BACKPRESSURE leap be queued. -/
  | recordQueueFree (t : Nat) (c : Fin 1024)
  /-- ACCT_SNAPSHOT (R317): Writing SNAP_CTL.TAKE copies a context's capture-path counters into its ACCT
    registers. -/
  | acctSnapshot (t : Nat) (c : Fin 1024)
  /-- ACQ_CLR (R321): Writing ACQ_CLR clears REC_STAT.PEAK, DROPPED and BUF_STAT.PEAK. -/
  | acqClr (t : Nat)
  /-- RING_DOORBELL (R326): A write of RING_DB.SQ_TAIL announces new commands on a ring. -/
  | ringDoorbell (t : Nat) (r : Fin 4) (tail : BitVec 12)
  /-- CQ_HEAD_RELEASE (R326): A write of RING_DB.CQ_HEAD releases completion slots. -/
  | cqHeadRelease (t : Nat) (r : Fin 4) (head : BitVec 12)
  /-- COMMAND_FETCH (R326): The firmware fetches the next command entry in ring order. -/
  | commandFetch (t : Nat) (r : Fin 4) (cmd : Option SvcCmd)
  /-- COMPLETION_WRITE (R329): The firmware writes a completion into a released slot and raises the ring's
    event. -/
  | completionWrite (t : Nat) (r : Fin 4)
  /-- GET_INFO (R331): Service command 0x01 writes the information block. -/
  | getInfo (t : Nat) (r : Fin 4)
  /-- LOAD_EPOCH (R484): Service command 0x02 starts loading an epoch image into STAGED. -/
  | loadEpoch (t : Nat) (r : Fin 4)
  /-- LOAD_EPOCH_DONE (R484): The image read, checks and link alignment end, and STAGED becomes valid or the
    image is refused. -/
  | loadEpochDone (t : Nat) (img : Option EpochImage) (digestOk : Bool) (noPath : Option (Fin 4096))
  /-- SCHEDULE_EQUINOX (R486): Service command 0x03 schedules, replaces or cancels an equinox, optionally
    announcing it. -/
  | scheduleEquinox (t : Nat) (r : Fin 4)
  /-- REVERT_EPOCH (R492): Service command 0x04 schedules a swap of LIVE and PRIOR. -/
  | revertEpoch (t : Nat) (r : Fin 4)
  /-- ATTEST (R500): Service command 0x05 starts building and signing an attestation report. -/
  | attest (t : Nat) (r : Fin 4)
  /-- ATTEST_DONE (R500): The attestation report is signed and written, and the command completes. -/
  | attestDone (t : Nat) (sig cert : List Byte)
  /-- FW_STAGE (R498): Service command 0x06 checks a firmware image and starts programming the slot not running.
    -/
  | fwStage (t : Nat) (r : Fin 4) (img : FwImage)
  /-- FW_STAGE_DONE (R498): The slot is programmed and re-verified, and STAGED_OK sets or STORAGE_ERROR
    completes. -/
  | fwStageDone (t : Nat) (ok : Bool)
  /-- FW_ACTIVATE (R499): Service command 0x07 verifies the staged slot, writes the selector, advances the fuse
    and restarts the service controller. -/
  | fwActivate (t : Nat) (r : Fin 4) (flash : Option FwImage)
  /-- SERVICE_RESTART (R333): Service command 0x3F restarts the service controller. -/
  | serviceRestart (t : Nat) (r : Fin 4)
  /-- SERVICE_RESTART_READY (R333): Restarted firmware reaches READY, aborts commands it had fetched and
    continues from the retained head. -/
  | serviceRestartReady (t : Nat)
  /-- GET_HEALTH (R544): Service command 0x08 writes the health block. -/
  | getHealth (t : Nat) (r : Fin 4)
  /-- REC_OPEN (R339): Service command 0x10 starts binding a recorder handle to a set of namespaces. -/
  | recOpen (t : Nat) (r : Fin 4) (members : List RecMemberId)
  /-- REC_OPEN_DONE (R339): The set is formatted or its headers are read, and REC_OPEN completes. -/
  | recOpenDone (t : Nat) (h : Fin 16) (found : List RecFound) (newId : Word)
  /-- REC_START (R330): Service command 0x11 starts a recording now or at a given tick. -/
  | recStart (t : Nat) (r : Fin 4)
  /-- REC_SCHEDULED_START (R330): A recording's start tick arrives, and its drain starts. -/
  | recScheduledStart (t : Nat) (h : Fin 16)
  /-- REC_STOP (R342): Service command 0x12 stops a recording now or at a given tick. -/
  | recStop (t : Nat) (r : Fin 4)
  /-- REC_STOP_DONE (R342): After a successful Flush on every member, REC_STOP completes with its counts. -/
  | recStopDone (t : Nat) (h : Fin 16)
  /-- REC_CLOSE (R342): Service command 0x13 closes a handle after flushing every member. -/
  | recClose (t : Nat) (r : Fin 4)
  /-- NET_STREAM_CFG (R348): Service command 0x18 loads a stopped stream slot from its descriptor. -/
  | netStreamCfg (t : Nat) (r : Fin 4) (desc : StreamDesc)
  /-- NET_STREAM_CTL (R330): Service command 0x19 starts or stops a stream slot now or at a tick. -/
  | netStreamCtl (t : Nat) (r : Fin 4)
  /-- PTP_CFG (R353): Service command 0x20 configures the time service. -/
  | ptpCfg (t : Nat) (r : Fin 4) (cfg : PtpConfig)
  /-- PTP_STATUS (R353): Service command 0x21 writes the time-service status block. -/
  | ptpStatus (t : Nat) (r : Fin 4)
  /-- MIGRATE_STATUS (R420): Service command 0x30 returns the state of the active or last rank migration. -/
  | migrateStatus (t : Nat) (r : Fin 4)
  /-- FAILMAP_READ (R420): Service command 0x31 writes the fail map. -/
  | failmapRead (t : Nat) (r : Fin 4)
  /-- HK_SEQUENCE (R512): Service command 0x38 sets, or stops, the firmware's housekeeping sequence. -/
  | hkSequence (t : Nat) (r : Fin 4) (entries : List HkEntry)
  /-- SELFTEST (R330): Service command 0x39 starts the selected self-tests while no context runs. -/
  | selftest (t : Nat) (r : Fin 4)
  /-- SELFTEST_DONE (R330): The self-tests end, and the command completes with the failed-test mask. -/
  | selftestDone (t : Nat) (failed : Word)
  /-- INVALID_OPCODE (R332): A command with an undefined opcode completes with INVALID_OPCODE. -/
  | invalidOpcode (t : Nat) (r : Fin 4)
  /-- BAR2_READ (R325): A BAR2 read returns capture memory, poisoned data, or Completer Abort beyond capacity.
    -/
  | bar2Read (t off len : Nat)
  /-- BAR2_WRITE (R325): A BAR2 write stores data and clears poison, or is dropped whole beyond capacity. -/
  | bar2Write (t off : Nat) (bytes : List Byte)
  /-- BAR2_RESIZE (R325): A resize through the Resizable BAR capability applies from the next access. -/
  | bar2Resize (t : Nat) (log2 : Nat)
  /-- NVME_CMD_COMPLETE (R342): An NVMe command completes, advancing the chunk write of data, header and index
    entry. -/
  | nvmeCmdComplete (t : Nat) (h m : Fin 16)
  /-- NVME_CMD_TIMEOUT (R343): An NVMe command exceeds CMD_TO and is retried. -/
  | nvmeCmdTimeout (t : Nat) (h m : Fin 16)
  /-- RECORDER_FLUSH (R342): At least once per second the volume header is rewritten and a Flush is issued to
    every member. -/
  | recorderFlush (t : Nat) (h : Fin 16)
  /-- RECORDER_PROGRESS_WD (R343): A handle's 2 s progress watchdog expires while no retry is pending. -/
  | recorderProgressWd (t : Nat) (h : Fin 16)
  /-- DRAIN_READ (R334): A binding's drain reads the next data from its drain ring or capture region. -/
  | drainRead (t : Nat) (c : Fin 1024) (str : Bool) (kind : Fin 3) (n : Nat)
  /-- VITA_PACKET_SEND (R345): A stream slot sends a VITA 49.2 data packet. -/
  | vitaPacketSend (t : Nat) (slot : Fin 64) (kind : Fin 3)
  /-- ALMANAC_PACKET_TIMEOUT (R345): An almanac packet is sent 100 µs after its first record. -/
  | almanacPacketTimeout (t : Nat) (slot : Fin 64)
  /-- CONTEXT_PACKET_PERIOD (R347): A context packet is sent every CTX_PERIOD. -/
  | contextPacketPeriod (t : Nat) (slot : Fin 64) (stream : CtxPacket)
  /-- ETH_LINK_DOWN (R348): An Ethernet link is lost, and its drains stay in place. -/
  | ethLinkDown (t : Nat) (p : Fin 2)
  /-- ETH_LINK_UP (R348): An Ethernet link returns, and sending resumes. -/
  | ethLinkUp (t : Nat) (p : Fin 2)
  /-- ETH_RX_FRAME (R344): A received frame is accepted as PTP, ARP or neighbour discovery, or discarded and
    counted. -/
  | ethRxFrame (t : Nat) (p : Fin 2) (frame : EthFrame)
  /-- PTP_MESSAGE_RX (R350): An IEEE 1588 event message is stamped in hardware and processed by the time
    service. -/
  | ptpMessageRx (t : Nat) (p : Fin 2) (sub : Fin 16) (msg : PtpMsg) (portState : Byte) (locked : Bool)
  /-- PTP_SERVO_COMMIT (R351): At most once a second the servo commits a new offset when the error exceeds
    DEADBAND. -/
  | ptpServoCommit (t : Nat) (change : Int) (trim : BitVec 32)
  /-- PTP_MASTER_LOSS (R351): On loss of the master the servo enters holdover and raises TIME_FAULT. -/
  | ptpMasterLoss (t : Nat)
  /-- DELTAN_SECOND_SEND (R357): The source sends a SECOND frame at each tick that is a multiple of
    1,600,000,000. -/
  | deltanSecondSend (t : Nat)
  /-- DELTAN_SECOND_RX (R358): A follower stamps a SECOND frame and updates DLB_OFS. -/
  | deltanSecondRx (t : Nat) (seq : Byte) (rp : SubTick) (tick : Word) (sec : BitVec 48) (ns : BitVec 32) (frac
      : BitVec 16) (flags : BitVec 32) (crcOk : Bool) (inverted : Bool)
  /-- DELTAN_ANSWER_SEND (R357): A follower sends ANSWER in its slot after the SECOND frame. -/
  | deltanAnswerSend (t : Nat)
  /-- DELTAN_ANSWER_RX (R357): The source stamps an ANSWER and computes that follower's delay. -/
  | deltanAnswerRx (t : Nat) (p : Fin 32) (a : SubTick) (crcOk inverted : Bool)
  /-- DELTAN_DELAY_SEND (R357): The source sends the four DELAY frames in slots 33 to 36. -/
  | deltanDelaySend (t : Nat) (j : Fin 4)
  /-- DELTAN_DELAY_RX (R359): A follower takes its delay from a DELAY frame, and is marked REVERSED if so
    flagged. -/
  | deltanDelayRx (t : Nat) (j : Fin 4) (delays : List (BitVec 24)) (reversed crcOk : Bool)
  /-- DELTAN_ANNOUNCE_SEND (R360): The source sends ANNOUNCE three times, 100 µs apart. -/
  | deltanAnnounceSend (t : Nat)
  /-- DELTAN_ANNOUNCE_RX (R360): A follower with ACCEPT_ANN schedules the announced equinox if its STAGED epoch
    matches, then sends ACK. -/
  | deltanAnnounceRx (t : Nat) (number : BitVec 32) (tick : Word) (last crcOk : Bool)
  /-- DELTAN_ACK_RX (R360): The source records a follower's ACK. -/
  | deltanAckRx (t : Nat) (p : Fin 32) (number : BitVec 32) (accepted crcOk : Bool)
  /-- DELTAN_ACK_WINDOW_CLOSE (R360): 132 µs after the last ANNOUNCE the window closes, and SCHEDULE_EQUINOX
    completes. -/
  | deltanAckWindowClose (t : Nat)
  /-- TC_LOST (R359): A follower that misses three SECOND frames clears TC_LOCK and holds its offset. -/
  | tcLost (t : Nat)
  /-- DELTAN_TRIGGER_EDGE (R358): A Deltan trigger-line edge is stamped at the pad, compensated and passed to
    the trigger units. -/
  | deltanTriggerEdge (t : Nat) (k : Fin 6) (level : Bool) (sub : Fin 16)
  /-- DLB_MEASURE (R366): Writing DLB_CTL.MEASURE schedules an extra delay measurement. -/
  | dlbMeasure (t : Nat)
  /-- PCI_CLR (R362): Writing PCI_CLR clears BAR2_STAT, AER_CNT and RETRAIN_CNT. -/
  | pciClr (t : Nat)
  /-- NVP_CLR (R364): Writing NVP_CLR clears NVP_CNT. -/
  | nvpClr (t : Nat) (p : Fin 4)
  /-- ETH_CLR (R365): Writing ETH_CLR clears FEC_UNC, TX_PKTS and RX_DISC. -/
  | ethClr (t : Nat) (p : Fin 2)
  /-- PCIE_LINK_DOWN (R362): The host endpoint's link goes down, and LINK_DOWN is raised. -/
  | pcieLinkDown (t : Nat)
  /-- FRAME_START (R368): At a head's frame start it applies commits, takes job buffers, advances FRAME and
    latches its buffers. -/
  | frameStart (t : Nat) (h : Fin 2)
  /-- LINE_FETCH (R379): A layer's line data is requested from capture memory. -/
  | lineFetch (t : Nat) (h : Fin 2) (l : Fin 4) (line : Fin 2160)
  /-- UNDERRUN (R380): A pixel is due without its data, and the rest of the frame goes out black. -/
  | underrun (t : Nat) (h : Fin 2) (line : Fin 2160) (x : Fin 3840)
  /-- TAG_CHANGED (R391): A guard-tag re-read differs, and the layer shows its fill colour for the rest of the
    frame. -/
  | tagChanged (t : Nat) (h : Fin 2) (l : Fin 4) (line : Fin 2160)
  /-- HPD_CHANGE (R371): An HPD change passing the 0.25 ms filter is an IRQ or an unplug, and HPD is raised. -/
  | hpdChange (t : Nat) (h : Fin 2) (level lostLock : Bool)
  /-- LINK_TRAIN_ATTEMPT (R371): The head starts a DisplayPort training attempt at the configured rate and
    lanes. -/
  | linkTrainAttempt (t : Nat) (h : Fin 2) (sinkRate : Fin 4) (sinkLanes : Fin 3)
  /-- LINK_TRAIN_DONE (R371): A training attempt succeeds or fails; after 5 failures FAILED sets and LINK_FAIL
    is raised. -/
  | linkTrainDone (t : Nat) (h : Fin 2) (ok : Bool)
  /-- LINK_TRAIN_RETRY (R371): A failed link is tried again every 1 s. -/
  | linkTrainRetry (t : Nat) (h : Fin 2)
  /-- HEAD_RETRAIN (R393): Writing HEAD_CTL.RETRAIN starts link training. -/
  | headRetrain (t : Nat) (h : Fin 2)
  /-- HEAD_CLR (R393): Writing HEAD_CTL.CLR clears UNDERRUN_CNT, DEFER_CNT, GAMMA_REJ and RETRAIN_CNT. -/
  | headClr (t : Nat) (h : Fin 2)
  /-- AUX_GO (R372): Writing AUX_CTL.GO starts an AUX transaction, waiting for training to end if needed. -/
  | auxGo (t : Nat) (h : Fin 2) (i2c read : Bool) (lenM1 : Fin 16) (addr : BitVec 20)
  /-- AUX_DONE (R372): An AUX transaction completes, and RESULT gives its outcome. -/
  | auxDone (t : Nat) (h : Fin 2) (result : Fin 4) (data : List Byte)
  /-- GAMMA_DATA_WRITE (R378): A write of GAMMA_DATA loads a gamma entry, or is rejected if the bank is in use.
    -/
  | gammaDataWrite (t : Nat) (h : Fin 2) (v : BitVec 10)
  /-- TE_EDGE (R385): An active DP_TE edge persisting TE_FILTER FCLK after VFP starts VSYNC and is stamped. -/
  | teEdge (t : Nat) (h : Fin 2) (edge : Nat)
  /-- TE_MISSING (R385): No TE edge comes within TE_TIMEOUT, and the head continues with VSYNC. -/
  | teMissing (t : Nat) (h : Fin 2)
  /-- MEMORY_REQUEST (R399): A pseudo-channel picks and serves a request under the class arbitration order. -/
  | memoryRequest (t : Nat) (pc : Fin 128) (new : List MemReq) (pick : Fin 32)
  /-- REFRESH_DUE (R401): A refresh falls due and is issued or postponed. -/
  | refreshDue (t : Nat) (pc : Fin 128)
  /-- SELF_REFRESH_ENTRY (R404): A channel idle for IDLE_SR µs enters self-refresh. -/
  | selfRefreshEntry (t : Nat) (ch : Fin 64)
  /-- FREQ_GO (R406): Writing MST.FREQ_CTL.GO requests a switch to the stack's inactive timing set. -/
  | freqGo (t : Nat) (st : Fin 4) (sync : Fin 4)
  /-- FREQ_SWITCH_START (R406): At once or at the named head's frame start, the stack holds requests and starts
    the switch. -/
  | freqSwitchStart (t : Nat) (st : Fin 4)
  /-- FREQ_DONE (R406): The switch completes, held requests are released, and FREQ_DONE is raised. -/
  | freqDone (t : Nat) (st : Fin 4)
  /-- ROW_THROTTLE_END (R409): A row-disturbance throttle ends at the end of the following refresh window. -/
  | rowThrottleEnd (t : Nat) (ch : Fin 64) (cls : Fin 64)
  /-- PERIODIC_TRAINING (R410): Every TRAIN_PERIOD ms a channel is retrained in turn. -/
  | periodicTraining (t : Nat) (ch : Fin 64)
  /-- ERROR_TRAINING (R410): More than ERR_TH retries within 1 ms start an error training of the channel. -/
  | errorTraining (t : Nat) (ch : Fin 64)
  /-- TRAINING_DONE (R411): An error or block training ends, returning the channel to service. -/
  | trainingDone (t : Nat) (ch : Fin 64) (ok : Bool)
  /-- MIGRATION_STEP (R416): One 4 KiB granule is copied to the spare rank and journalled. -/
  | migrationStep (t : Nat) (ch : Fin 64)
  /-- MCH_CLR (R422): Writing MCH_CLR clears ERR_CNT, TRAIN_STAT counts, FLAGS, POISON_RD and OVF. -/
  | mchClr (t : Nat) (ch : Fin 64)
  /-- XLATE_ADDR (R423): A write of MST.XLATE_ADDR translates a capture address into XLATE_RES. -/
  | xlateAddr (t : Nat) (st : Fin 4) (addr : Word)
  /-- BANK_HANDOVER (R427): A write of BNK_OWN starts a handover, refusing the old owner's unaccepted accesses.
    -/
  | bankHandover (t : Nat) (b : Fin 64) (owner agent : BitVec 7)
  /-- HANDOVER_DONE (R427): Accepted accesses complete, the new owner and agent take effect, and BUSY clears. -/
  | handoverDone (t : Nat) (b : Fin 64)
  /-- BANK_ACCESS (R430): A sub-array serves port A and port B accesses under arbitration, or refuses them. -/
  | bankAccess (t : Nat) (b : Fin 64) (pa pb : Option BankAcc)
  /-- BANK_STARVE_LIMIT (R432): A port-B wait reaching STARVE_LIMIT sets STARVE and raises PORT_B. -/
  | bankStarveLimit (t : Nat) (b : Fin 64)
  /-- DEPOSIT_RECORD (R433): The transform deposit writes a frame record into the bank ring, or skips it without
    staging room. -/
  | depositRecord (t : Nat) (b : Fin 64)
  /-- SPILL_GO (R435): Writing SPILL_CTL.GO starts copying density rows into the bank. -/
  | spillGo (t : Nat) (b : Fin 64) (unit : Fin 16) (nrowsM1 row0 : Fin 1024) (dst : Fin 131072)
  /-- SPILL_DONE (R435): The spill writes its last row, or ends at a refused row. -/
  | spillDone (t : Nat) (b : Fin 64)
  /-- DMA_GO (R436): Writing DMA_CTL.GO starts a DMA transfer. -/
  | dmaGo (t : Nat) (d : Fin 16)
  /-- DMA_ABORT (R437): Writing DMA_CTL.ABORT stops a transfer after the words in flight. -/
  | dmaAbort (t : Nat) (d : Fin 16)
  /-- DMA_DONE (R437): A transfer ends with its STATUS, and DONE and possibly ERROR are raised. -/
  | dmaDone (t : Nat) (d : Fin 16) (inFlight : Nat)
  /-- BNK_CLR (R439): Writing BNK_CLR clears STARVE_CNT, STARVE_MAX, COLL_CNT and DROPS. -/
  | bnkClr (t : Nat) (b : Fin 64)
  /-- NOP (R466): A bundle with no operation and no moves executes. -/
  | opNop (t : Nat) (n : Fin 64) (ecc : CoreEcc)
  /-- ADD (R466): ADD writes ga + gb to gd, optionally setting flags. -/
  | opAdd (t : Nat) (n : Fin 64) (ecc : CoreEcc)
  /-- SUB (R466): SUB writes ga − gb to gd, optionally setting flags. -/
  | opSub (t : Nat) (n : Fin 64) (ecc : CoreEcc)
  /-- AND (R466): AND writes ga & gb to gd. -/
  | opAnd (t : Nat) (n : Fin 64) (ecc : CoreEcc)
  /-- OR (R466): OR writes ga | gb to gd. -/
  | opOr (t : Nat) (n : Fin 64) (ecc : CoreEcc)
  /-- XOR (R466): XOR writes ga ^ gb to gd. -/
  | opXor (t : Nat) (n : Fin 64) (ecc : CoreEcc)
  /-- ANDN (R466): ANDN writes ga & ~gb to gd. -/
  | opAndn (t : Nat) (n : Fin 64) (ecc : CoreEcc)
  /-- CMP (R467): CMP sets the flags from ga − gb. -/
  | opCmp (t : Nat) (n : Fin 64) (ecc : CoreEcc)
  /-- SHL (R466): SHL shifts ga left logically by n. -/
  | opShl (t : Nat) (n : Fin 64) (ecc : CoreEcc)
  /-- SHR (R466): SHR shifts ga right logically by n. -/
  | opShr (t : Nat) (n : Fin 64) (ecc : CoreEcc)
  /-- SAR (R466): SAR shifts ga right arithmetically by n. -/
  | opSar (t : Nat) (n : Fin 64) (ecc : CoreEcc)
  /-- MIN (R466): MIN writes the signed minimum of ga and gb. -/
  | opMin (t : Nat) (n : Fin 64) (ecc : CoreEcc)
  /-- MAX (R466): MAX writes the signed maximum of ga and gb. -/
  | opMax (t : Nat) (n : Fin 64) (ecc : CoreEcc)
  /-- TST (R467): TST sets T from bit n of ga. -/
  | opTst (t : Nat) (n : Fin 64) (ecc : CoreEcc)
  /-- SEL (R466): SEL writes ga or gb to gd according to a condition. -/
  | opSel (t : Nat) (n : Fin 64) (ecc : CoreEcc)
  /-- ADDI (R466): ADDI writes ga plus a signed immediate to gd. -/
  | opAddi (t : Nat) (n : Fin 64) (ecc : CoreEcc)
  /-- CMPI (R467): CMPI sets the flags from ga minus an immediate. -/
  | opCmpi (t : Nat) (n : Fin 64) (ecc : CoreEcc)
  /-- ANDI (R466): ANDI writes ga & immediate to gd. -/
  | opAndi (t : Nat) (n : Fin 64) (ecc : CoreEcc)
  /-- ORI (R466): ORI writes ga | immediate to gd. -/
  | opOri (t : Nat) (n : Fin 64) (ecc : CoreEcc)
  /-- CADD (R466): CADD adds each 32-bit half, wrapping or saturating. -/
  | opCadd (t : Nat) (n : Fin 64) (ecc : CoreEcc)
  /-- CSUB (R466): CSUB subtracts each 32-bit half. -/
  | opCsub (t : Nat) (n : Fin 64) (ecc : CoreEcc)
  /-- CSAR (R466): CSAR shifts each half right by n, rounded half up. -/
  | opCsar (t : Nat) (n : Fin 64) (ecc : CoreEcc)
  /-- CONJ (R466): CONJ negates the Q half of a complex word. -/
  | opConj (t : Nat) (n : Fin 64) (ecc : CoreEcc)
  /-- EXT (R452): EXT extracts 32 bits of an accumulator half at shift s, rounded and optionally saturated. -/
  | opExt (t : Nat) (n : Fin 64) (ecc : CoreEcc)
  /-- ACLD (R466): ACLD loads an accumulator from the halves of ga. -/
  | opAcld (t : Nat) (n : Fin 64) (ecc : CoreEcc)
  /-- ACCLR (R466): ACCLR clears the selected accumulators or their OVF bits. -/
  | opAcclr (t : Nat) (n : Fin 64) (ecc : CoreEcc)
  /-- GETA (R466): GETA copies an address register into gd. -/
  | opGeta (t : Nat) (n : Fin 64) (ecc : CoreEcc)
  /-- PUTA (R466): PUTA writes an address register from ga. -/
  | opPuta (t : Nat) (n : Fin 64) (ecc : CoreEcc)
  /-- CMUL (R468): CMUL loads an accumulator with a complex product. -/
  | opCmul (t : Nat) (n : Fin 64) (ecc : CoreEcc)
  /-- CMAC (R468): CMAC adds a complex product to an accumulator. -/
  | opCmac (t : Nat) (n : Fin 64) (ecc : CoreEcc)
  /-- CJMUL (R468): CJMUL loads an accumulator with a conjugate complex product. -/
  | opCjmul (t : Nat) (n : Fin 64) (ecc : CoreEcc)
  /-- CJMAC (R468): CJMAC adds a conjugate complex product to an accumulator. -/
  | opCjmac (t : Nat) (n : Fin 64) (ecc : CoreEcc)
  /-- QMAC (R468): QMAC adds the sum of four real products to acc.r. -/
  | opQmac (t : Nat) (n : Fin 64) (ecc : CoreEcc)
  /-- MAXI (R453): MAXI keeps the larger value and its index in an accumulator. -/
  | opMaxi (t : Nat) (n : Fin 64) (ecc : CoreEcc)
  /-- MINI (R453): MINI keeps the smaller value and its index in an accumulator. -/
  | opMini (t : Nat) (n : Fin 64) (ecc : CoreEcc)
  /-- LD (R471): A load move reads a register from X or Y space with address update. -/
  | opLd (t : Nat) (n : Fin 64) (ecc : CoreEcc)
  /-- ST (R471): A store move writes a register to X or Y space with address update. -/
  | opSt (t : Nat) (n : Fin 64) (ecc : CoreEcc)
  /-- MOV (R471): MOV copies one register to another. -/
  | opMov (t : Nat) (n : Fin 64) (ecc : CoreEcc)
  /-- PLOAD (R471): PLOAD reads a word of the active program bank into a register. -/
  | opPload (t : Nat) (n : Fin 64) (ecc : CoreEcc)
  /-- LI (R475): A long-immediate bundle writes a sign-extended 48-bit value to a register. -/
  | opLi (t : Nat) (n : Fin 64) (ecc : CoreEcc)
  /-- CNOP (R473): A control no-op executes. -/
  | opCnop (t : Nat) (n : Fin 64) (ecc : CoreEcc)
  /-- BR (R473): BR continues at its target after two delay slots when its condition holds. -/
  | opBr (t : Nat) (n : Fin 64) (ecc : CoreEcc)
  /-- CALL (R473): CALL branches like BR and writes the return address to g31. -/
  | opCall (t : Nat) (n : Fin 64) (ecc : CoreEcc)
  /-- JR (R473): JR branches to the address held in gs. -/
  | opJr (t : Nat) (n : Fin 64) (ecc : CoreEcc)
  /-- LOOP (R454): LOOP pushes a hardware loop level with an immediate count. -/
  | opLoop (t : Nat) (n : Fin 64) (ecc : CoreEcc)
  /-- LOOPR (R454): LOOPR pushes a hardware loop level with the count from gs. -/
  | opLoopr (t : Nat) (n : Fin 64) (ecc : CoreEcc)
  /-- BREAK (R474): BREAK pops the innermost loop level when its condition holds. -/
  | opBreak (t : Nat) (n : Fin 64) (ecc : CoreEcc)
  /-- RETI (R455): RETI restores st and continues at ipc after two delay slots. -/
  | opReti (t : Nat) (n : Fin 64) (ecc : CoreEcc)
  /-- WAIT (R455): WAIT stops fetching until an enabled interrupt source pends. -/
  | opWait (t : Nat) (n : Fin 64) (ecc : CoreEcc)
  /-- SETIE (R473): SETIE sets or clears IE. -/
  | opSetie (t : Nat) (n : Fin 64) (ecc : CoreEcc)
  /-- ILLEGAL (R476): An illegal bundle executes as a no-op and raises exception ILLEGAL. -/
  | opIllegal (t : Nat) (n : Fin 64) (ecc : CoreEcc)
  /-- INTERRUPT_ENTRY (R455): At an allowed bundle boundary the core saves pc and st, clears IE and LSP and
    fetches the vector. -/
  | interruptEntry (t : Nat) (n : Fin 64)
  /-- WINDOW_LOAD_ARRIVE (R444): A bank-window load's data arrives 8 CCLK after issue, ending any stall on it.
    -/
  | windowLoadArrive (t : Nat) (n : Fin 64)
  /-- TIMER_COMPARE (R448): The tick reaches TMR_CMP while TMR_EN is 1, and TMR pends. -/
  | timerCompare (t : Nat) (n : Fin 64)
  /-- IRQ_CTL_WRITE (R448): A store to IRQ_CTL sets enables and clears PEND bits written with 1. -/
  | irqCtlWrite (t : Nat) (n : Fin 64) (ecc : CoreEcc)
  /-- EVQ_READ (R448): A load from EVQ removes and returns the oldest event routed to the core. -/
  | evqRead (t : Nat) (n : Fin 64) (ecc : CoreEcc)
  /-- BNK_SEL_WRITE (R448): A store to BNK_SEL changes the bank seen through the window from the third bundle
    after. -/
  | bnkSelWrite (t : Nat) (n : Fin 64) (ecc : CoreEcc)
  /-- BNK_OWN_WR (R448): A core's store to BNK_OWN_WR writes a bank's BNK_OWN if the core owns it, or is counted
    as refused. -/
  | bnkOwnWr (t : Nat) (n : Fin 64) (ecc : CoreEcc)
  /-- BNK_OWN_RD (R448): A store of a bank number to BNK_OWN_RD makes a later load return that bank's BNK_OWN.
    -/
  | bnkOwnRd (t : Nat) (n : Fin 64) (ecc : CoreEcc)
  /-- TRIG_GO (R456): A store to TRIG_GO raises the core's software trigger source with its stamp. -/
  | trigGo (t : Nat) (n : Fin 64) (ecc : CoreEcc)
  /-- USER_GO (R457): A store to USER_GO stages a USER record, or drops it when staging is full. -/
  | userGo (t : Nat) (n : Fin 64) (ecc : CoreEcc)
  /-- USER_RECORD_WRITE (R457): The acquisition controller writes a staged USER record to the named context's
    almanac. -/
  | userRecordWrite (t : Nat) (n : Fin 64)
  /-- MBX_IN_READ (R448): A core's load of MBX_IN returns the host's word and clears PEND of MBX. -/
  | mbxInRead (t : Nat) (n : Fin 64) (ecc : CoreEcc)
  /-- MBX_OUT_STORE (R448): A core's store to MBX_OUT copies the word to SCR.MBX_OUT and raises NOTIFY. -/
  | mbxOutStore (t : Nat) (n : Fin 64) (ecc : CoreEcc)
  /-- NOTIFY (R448): A core's store to NOTIFY copies the word to SCR.NOTE and raises NOTIFY. -/
  | notify (t : Nat) (n : Fin 64) (ecc : CoreEcc)
  /-- MBX_IN_WRITE (R462): A host write of SCR.MBX_IN pends MBX in the core. -/
  | mbxInWrite (t : Nat) (n : Fin 64) (v : Word)
  /-- SCR_HALT (R462): Writing SCR_CTL.HALT halts the core at the next allowed boundary. -/
  | scrHalt (t : Nat) (n : Fin 64)
  /-- SCR_RESUME (R462): Writing SCR_CTL.RESUME continues a halted core. -/
  | scrResume (t : Nat) (n : Fin 64)
  /-- SCR_STEP (R462): Writing SCR_CTL.STEP runs one bundle of a halted core. -/
  | scrStep (t : Nat) (n : Fin 64) (ecc : CoreEcc)
  /-- DBG_DATA_ACCESS (R462): An access to DBG_DATA reads or writes the addressed word of a halted core. -/
  | dbgDataAccess (t : Nat) (n : Fin 64) (write : Bool) (v : Word)
  /-- SCR_CLR (R462): Writing SCR_CLR clears SCR_CNT, ECC_CNT and USR_STAT. -/
  | scrClr (t : Nat) (n : Fin 64)
  /-- EQUINOX (R487): At the equinox tick the slots rotate, SWITCHING sets and EQUINOX is raised. -/
  | equinox (t : Nat) (alt : List (Fin 64 × BitVec 8))
  /-- BLOCK_SWITCH (R487): A block reaches its own switch point after the equinox tick and takes the new epoch's
    configuration. -/
  | blockSwitch (t : Nat) (page : Fin 4096) (stamp : SubTick)
  /-- EQUINOX_COMPLETE (R488): The last block switches, SWITCHING clears and LAST_DONE takes the tick. -/
  | equinoxComplete (t : Nat)
  /-- PROBATION_PASS (R490): Probation ends without failure, PASSED sets and PROBATION_PASS is raised. -/
  | probationPass (t : Nat)
  /-- CONV_GO (R507): Writing CONV_CTL.GO starts a single or continuous conversion. -/
  | convGo (t : Nat)
  /-- CONV_STOP (R507): Writing CONV_CTL.STOP ends continuous conversion after the current result. -/
  | convStop (t : Nat)
  /-- HK_CONVERSION_RESULT (R507): A settled result is written to CONV_DATA and LAST, and temperatures are
    updated. -/
  | hkConversionResult (t : Nat) (raw : Int) (overload : Bool) (temp : BitVec 16)
  /-- CAL_GO (R509): Writing CAL_CTL.GO starts a self-calibration, aborting any conversion. -/
  | calGo (t : Nat)
  /-- HK_CAL_DONE (R509): The calibration ends and writes factors, or loads nominal ones and raises CAL_FAIL. -/
  | hkCalDone (t : Nat) (ofs : Int) (gain : Nat)
  /-- HK_SEQUENCE_FRAME (R512): Each P0 µs the firmware runs a sequence frame of fixed and rotating conversions.
    -/
  | hkSequenceFrame (t : Nat)
  /-- CMP_CROSSING (R518): CMP_IN crosses a threshold, a half switches, and the window and latched output
    update. -/
  | cmpCrossing (t : Nat) (k : Fin 16) (uv : Int) (stamp : SubTick)
  /-- RAMP_PERIOD_RESET (R517): A ramp's period timer resets it, clearing LATCH 2 outputs and starting blanking.
    -/
  | rampPeriodReset (t : Nat) (r : Fin 8)
  /-- CMP_BLANK_END (R519): Blanking ends after BLANK_FCLK, and w takes the halves' state at once. -/
  | cmpBlankEnd (t : Nat) (k : Fin 16)
  /-- CMP_ENABLE_BLANK_END (R521): The 1 µs enable blanking ends, and each half resolves or is marked
    unresolved. -/
  | cmpEnableBlankEnd (t : Nat) (k : Fin 16)
  /-- CMP_LATCH_CLEAR (R520): Writing CMP_LATCH clears a LATCH 1 output unless w is still 1. -/
  | cmpLatchClear (t : Nat) (mask : BitVec 16)
  /-- FABRIC_PARITY_ERROR (R529): A receiver finds a parity error, discards the word and those after it, and
    requests a replay. -/
  | fabricParityError (t : Nat) (h : Fin 64) (j : Fin 8) (words : List Word) (got : FabWord)
  /-- REPLAY_RESULT (R529): A replay completes and succeeds, or fails and requests another. -/
  | replayResult (t : Nat) (h : Fin 64) (j : Fin 8) (got : FabWord) (uses : List HopUse)
  /-- HOP_RETRAIN_DONE (R531): A hop retrain succeeds and traffic resumes, or after 3 failures the hop is out of
    service. -/
  | hopRetrainDone (t : Nat) (h : Fin 64) (j : Fin 8) (ok : Bool)
  /-- RETRAIN_NOW (R532): Writing FAB_CTL.RETRAIN_NOW retrains an out-of-service hop once. -/
  | retrainNow (t : Nat) (h : Fin 64) (mask : BitVec 8)
  /-- INJECT (R549): Writing INJECT.GO corrupts the parity of COUNT transmissions of one word on a hop. -/
  | inject (t : Nat) (h : Fin 64) (count : Fin 4) (mask : BitVec 8)
  /-- FAB_CLR (R549): Writing FAB_CTL.CLR clears PAR_CNT and FAIL_CNT. -/
  | fabClr (t : Nat) (h : Fin 64)
  /-- STREAM_WD_EXPIRY (R536): A stream delivers no word for STREAM_WD FCLK; a FABRIC_FAULT is reported unless
    it is a consequent. -/
  | streamWdExpiry (t : Nat) (path : List (Fin 64 × Fin 8)) (use : HopUse)
  /-- VEC_ARM (R539): Writing EVA VEC_ARM re-arms an MSI-X vector, sending it at once if an event is still
    pending. -/
  | vecArm (t : Nat) (v : Fin 256)
  /-- ROUTE_WRITE (R538): A write of an EVA ROUTE entry sets an event's route for its next forwarding. -/
  | routeWrite (t : Nat) (id : Fin 2048) (route : BitVec 16)
  /-- SC_WDOG (R541): The service-controller watchdog expires, raises SC_WDOG and causes a service restart. -/
  | scWdog (t : Nat)
  /-- SC_WD_KICK (R548): A write of VGL.SC_WD.KICK from the service controller restarts the watchdog timeout. -/
  | scWdKick (t : Nat) (fromService : Bool)
  /-- THERM_STALE (R541): A thermal sensor's latest conversion becomes older than 100 ms, and THERM_STALE is
    raised. -/
  | thermStale (t : Nat) (sensor : Fin 12)
  /-- HC_UPDATE (R542): Every millisecond each health counter updates NOW and raises its event or fails
    probation if a limit is crossed. -/
  | hcUpdate (t : Nat)
  /-- AV_CLR (R548): Writing AV_CLR clears AV_LOST of the selected context and reduces AV_TOTAL. -/
  | avClr (t : Nat)
  /-- WARM_RESET_RELEASE (R135): RST_N, PE_PERST_N or a PCIe hot reset is released, and the warm start proceeds:
    ROM verification, HBM self-refresh exit and the run toward READY. -/
  | warmResetRelease (t : Nat)
  /-- REC_SCHEDULED_STOP (R330): The stop tick given in REC_STOP.P1 arrives, and the recording's drain stops at
    it. -/
  | recScheduledStop (t : Nat) (h : Fin 16)
  /-- STREAM_SCHEDULED_START_STOP (R330): The tick given in NET_STREAM_CTL.P1 arrives, and the stream slot
    starts or stops. -/
  | streamScheduledStartStop (t : Nat) (slot : Fin 64)
  /-- BAR2_READ_HOLD_TIMEOUT (R411): A BAR2 read held for 5 ms by a retraining channel completes with Completer
    Abort. -/
  | bar2ReadHoldTimeout (t : Nat)
  /-- T1_HOLD_EXPIRY (R182): T1_HOLD seconds after a tier-1 run ends, automatic causes are no longer suppressed,
    and a temperature or bounds cause still present raises a request. -/
  | t1HoldExpiry (t : Nat) (slot : Fin 256)
  /-- PTP_MESSAGE_SEND (R350): At its log sync and log announce intervals the time service sends Sync,
    Follow_Up, Announce or Delay_Req messages, stamped in hardware. -/
  | ptpMessageSend (t : Nat) (p : Fin 2) (kind : Fin 4) (sub : Fin 16)
  /-- ROOT_PORT_LINK_DOWN (R364): A recorder root port's PCIe link goes down, and NVP LINK_DOWN is raised at
    fault severity. -/
  | rootPortLinkDown (t : Nat) (p : Fin 4)
  deriving DecidableEq, Repr

end Sys2Proof
end

