-- ==== Sys2Proof/Decode.lean ====
section
/-!
DEFINITION. The words of the opcode table. No row of spec/opcode_table.json has bits or operand fields, so no word spells a command
(notes/assumptions/7).
-/
namespace Sys2Proof

/-- The command that the low `nbits` bits of `w` spell: none, since the table gives no row an encoding. -/
def decodeTableWord (_nbits _w : Nat) : Option Instr := none

end Sys2Proof
end

