-- ==== Sys2Proof/Config.lean ====
section
/-!
DEFINITION. What one module fixes (fuses, ROM, board, fabric wiring) and the values that the spec leaves
open. Each constant is opaque: nothing in Lean can evaluate it, so no statement rests on a value of it.
-/
namespace Sys2Proof.Config

/-- A value that the spec calls undefined or does not state: the n-th free value of a run (notes/assumptions/3). -/
opaque freeValue : Nat → Nat

/-- What the compensating FIR of the decimation chain gives (R195): the n-th free value of a run, for a decimation by 2^k and the last
outputs of the CIC, newest first; I and Q in units of 2^-32. -/
opaque chainValue : (n k : Nat) → List (Int × Int) → Int × Int

/-- How far the transform's value for a bin, or for a point of a trace, lies from the exact one, within the bounds of R224: the n-th free
value of a run, the index, and which of its parts. -/
opaque transformError : (n index part : Nat) → Nat

/-- The fused core voltage target in mV (R64, R95). -/
opaque fusedTargetMv : Nat

/-- The anti-rollback counter as fused when the module was delivered (R502). -/
opaque fusedSvn : Nat

/-- The boot ROM version (R502). -/
opaque romVersion : Nat

/-- 1 where the identity key is present and its self-test passes (R502). -/
opaque idKeyOk : Nat

/-- The slot that the ROM of this module ran last, 0 A or 1 B (R502). -/
opaque romSlot : Nat

/-- 1 where the root digest is fused (R502). -/
opaque rootFused : Nat

/-- The VERSION of the firmware running (R502). -/
opaque fwVersion : Nat

/-- The SEQ of the selector copy in use, as stored in boot flash (R497, R502). -/
opaque selectorSeq : Nat

/-- The selector copy in use, as stored in boot flash (R497, R502). -/
opaque selectorCopy : Nat

/-- The slot that the selector names, as stored in boot flash (R497, R502). -/
opaque selectorSlot : Nat

/-- VERSION, SVN and word i of BODY_DIGEST of firmware slot x as delivered (R495, R502). -/
opaque slotVersion : Nat → Nat
opaque slotSvn : Nat → Nat
opaque slotDigest : Nat → Nat → Nat

/-- Byte i of the module serial number (R331, R500). -/
opaque serial : Nat → Nat

/-- Byte i of the SM3 digest of the identity certificate (R500). -/
opaque certDigest : Nat → Nat

/-- PG_ID.FEATURES of page p, where the spec gives no value (R39). -/
opaque pageFeatures : Nat → Nat

/-- 1 where the board configuration enables spare ranks (R396, R423). -/
opaque sparesEnabled : Nat

/-- Word i of the SM3 digest of the root public key (R502). -/
opaque rootDigest : Nat → Nat

/-- Word i of the SM3 digest of the identity public key (R502). -/
opaque idDigest : Nat → Nat

/-- The output hops that router h has (R527, R549). -/
opaque hopPresent : Nat → Nat

/-- The real-time hops of router h (R527, R549). -/
opaque hopRealtime : Nat → Nat

end Sys2Proof.Config
end

