-- ==== Sys2Proof/Machine/RegMapA.lean ====
section
/-!
DEFINITION. The register fields of BAR0 (pages GLB to CTX of the page map): one named constant per field of the
register tables of spec/ (offset within the page, top bit, bottom bit, access type, reset value, and whether
the field is writable while the LIVE epoch uses the page). A register that the spec gives as an array
takes its index i; a field that the spec packs several times into one word takes its position j.
-/
namespace Sys2Proof.Machine

/-- The access types of R10. -/
inductive Acc | ro | rw | w1c | w1s | wo | rws
  deriving DecidableEq, Repr

/-- One register field (R9, R10): its register's offset in the page, its bit range [hi:lo] (R5), its access
type, its reset value, and whether it is live-writable, that is whether a write takes effect while
PG_STAT.IN_EPOCH is 1 (R25, R201). -/
structure Fld where
  off : Nat
  hi : Nat
  lo : Nat
  acc : Acc
  rst : Nat
  live : Bool
  deriving DecidableEq, Repr

/-- The width of a field in bits. -/
def Fld.width (f : Fld) : Nat := f.hi - f.lo + 1

namespace Reg

/-! GLB fields of R37 (02_register_pages.md). -/
def GLB_ACC_ERR_LOG_COUNT : Fld := ⟨0x100, 47, 32, .ro, 0, true⟩
def GLB_ACC_ERR_LOG_VALID : Fld := ⟨0x100, 31, 31, .w1c, 0, true⟩
def GLB_ACC_ERR_LOG_KIND : Fld := ⟨0x100, 26, 24, .ro, 0, true⟩
def GLB_ACC_ERR_LOG_OFFSET : Fld := ⟨0x100, 23, 0, .ro, 0, true⟩

/-! GLB fields of R133 (05_startup_reset.md). -/
def GLB_BOOT_STAT_WARM_CNT : Fld := ⟨0x108, 47, 40, .ro, 0, true⟩
def GLB_BOOT_STAT_LAST_RESET : Fld := ⟨0x108, 39, 36, .ro, 0, true⟩
def GLB_BOOT_STAT_FAIL_CODE : Fld := ⟨0x108, 31, 24, .ro, 0, true⟩
def GLB_BOOT_STAT_FAIL_DETAIL : Fld := ⟨0x108, 23, 16, .ro, 0, true⟩
def GLB_BOOT_STAT_STEP : Fld := ⟨0x108, 15, 8, .ro, 0, true⟩
def GLB_BOOT_STAT_FAILED : Fld := ⟨0x108, 2, 2, .ro, 0, true⟩
def GLB_BOOT_STAT_SLOT : Fld := ⟨0x108, 1, 1, .ro, 0, true⟩
def GLB_BOOT_STAT_READY : Fld := ⟨0x108, 0, 0, .ro, 0, true⟩
def GLB_BOOT_CTL_RESUME_LEAD : Fld := ⟨0x110, 39, 32, .rws, 0x14, true⟩
def GLB_BOOT_CTL_HOST_ISOLATE : Fld := ⟨0x110, 1, 1, .rws, 0, true⟩
def GLB_BOOT_CTL_WARM_RESUME : Fld := ⟨0x110, 0, 0, .rws, 0, true⟩

/-! CLK fields of R124 (04_clocks_timebase.md). -/
def CLK_REF_CFG_AUTO_RELOCK : Fld := ⟨0x100, 32, 32, .rw, 1, true⟩
def CLK_REF_CFG_REF_HZ : Fld := ⟨0x100, 31, 0, .rw, 0x5f5e100, true⟩
def CLK_PLL_CTL_GATE_HOLD : Fld := ⟨0x108, 2, 2, .rw, 1, true⟩
def CLK_PLL_CTL_BAND_CAL : Fld := ⟨0x108, 1, 1, .w1s, 0, true⟩
def CLK_PLL_CTL_RELOCK : Fld := ⟨0x108, 0, 0, .w1s, 0, true⟩
def CLK_PLL_STAT_RELEASE_CNT : Fld := ⟨0x110, 63, 32, .ro, 0, true⟩
def CLK_PLL_STAT_FAIL_CAUSE : Fld := ⟨0x110, 31, 28, .ro, 0, true⟩
def CLK_PLL_STAT_GATE_CAUSE : Fld := ⟨0x110, 27, 24, .ro, 0, true⟩
def CLK_PLL_STAT_BAND_ACT : Fld := ⟨0x110, 13, 8, .ro, 0, true⟩
def CLK_PLL_STAT_REF_PRESENT : Fld := ⟨0x110, 2, 2, .ro, 0, true⟩
def CLK_PLL_STAT_GATED : Fld := ⟨0x110, 1, 1, .ro, 1, true⟩
def CLK_PLL_STAT_LOCKED : Fld := ⟨0x110, 0, 0, .ro, 0, true⟩
def CLK_FTRIM_SLEW : Fld := ⟨0x118, 48, 32, .rws, 0x186a0, true⟩
def CLK_FTRIM_TARGET : Fld := ⟨0x118, 31, 0, .rws, 0, true⟩
def CLK_FTRIM_ACT_ACT : Fld := ⟨0x120, 31, 0, .ro, 0, true⟩
def CLK_FCHK_FCLK_ERR : Fld := ⟨0x128, 47, 32, .ro, 0, true⟩
def CLK_FCHK_GATE_REF : Fld := ⟨0x128, 15, 0, .rw, 0x1000, true⟩
def CLK_KEEP_INC_INC : Fld := ⟨0x130, 39, 0, .ro, 0x1000000000, true⟩
def CLK_JESD_DIV_D_ACT : Fld := ⟨0x138, 24, 16, .ro, 0x10, true⟩
def CLK_JESD_DIV_D : Fld := ⟨0x138, 8, 0, .rw, 0x10, true⟩
def CLK_SYSREF_CTL_SYSREF_WAIT : Fld := ⟨0x140, 39, 32, .rw, 0xa, true⟩
def CLK_SYSREF_CTL_EDGE_SEL : Fld := ⟨0x140, 7, 6, .rw, 0, true⟩
def CLK_SYSREF_CTL_MODE : Fld := ⟨0x140, 5, 4, .rw, 0, true⟩
def CLK_SYSREF_CTL_TB_ALIGN : Fld := ⟨0x140, 3, 3, .rw, 0, true⟩
def CLK_SYSREF_CTL_AUTO_REARM : Fld := ⟨0x140, 2, 2, .rw, 1, true⟩
def CLK_SYSREF_CTL_ARM : Fld := ⟨0x140, 0, 0, .w1s, 0, true⟩
def CLK_SYSREF_STAT_SEEN_CNT : Fld := ⟨0x148, 63, 32, .ro, 0, true⟩
def CLK_SYSREF_STAT_PHASE_ERR : Fld := ⟨0x148, 31, 16, .ro, 0, true⟩
def CLK_SYSREF_STAT_REF_INV : Fld := ⟨0x148, 2, 2, .ro, 0, true⟩
def CLK_SYSREF_STAT_POL_UNRES : Fld := ⟨0x148, 1, 1, .ro, 0, true⟩
def CLK_SYSREF_STAT_POL_INV : Fld := ⟨0x148, 0, 0, .ro, 0, true⟩
def CLK_BAND_VALID (i : Nat) : Fld := ⟨0x400 + 8 * i, 63, 63, .rw, 0, true⟩
def CLK_BAND_F_HI_KHZ (i : Nat) : Fld := ⟨0x400 + 8 * i, 55, 32, .rw, 0, true⟩
def CLK_BAND_TEMP_C (i : Nat) : Fld := ⟨0x400 + 8 * i, 31, 24, .rw, 0, true⟩
def CLK_BAND_F_LO_KHZ (i : Nat) : Fld := ⟨0x400 + 8 * i, 23, 0, .rw, 0, true⟩

/-! TMB fields of R125 (04_clocks_timebase.md). -/
def TMB_TB_NOW_TICKS : Fld := ⟨0x100, 63, 0, .ro, 0, true⟩
def TMB_TB_ALIGN_VAL_VAL : Fld := ⟨0x108, 63, 0, .rw, 0, true⟩
def TMB_PTP_SEC_SEC : Fld := ⟨0x110, 47, 0, .rw, 0, true⟩
def TMB_PTP_NS_NS : Fld := ⟨0x118, 47, 16, .rw, 0, true⟩
def TMB_PTP_NS_FRAC : Fld := ⟨0x118, 15, 0, .rw, 0, true⟩
def TMB_SNAP_TAKE : Fld := ⟨0x120, 0, 0, .w1s, 0, true⟩
def TMB_SNAP_TICK_TICKS : Fld := ⟨0x128, 63, 0, .ro, 0, true⟩
def TMB_SNAP_SEC_SEC : Fld := ⟨0x130, 47, 0, .ro, 0, true⟩
def TMB_SNAP_NS_NS_FRAC : Fld := ⟨0x138, 47, 0, .ro, 0, true⟩
def TMB_KEEP_STAT_LAST_GAP : Fld := ⟨0x140, 63, 32, .ro, 0, true⟩
def TMB_KEEP_STAT_HOLDOVER : Fld := ⟨0x140, 1, 1, .ro, 0, true⟩
def TMB_KEEP_STAT_ACTIVE : Fld := ⟨0x140, 0, 0, .ro, 0, true⟩

/-! PWR fields of R93 (03_module_power.md). -/
def PWR_SEQ_STAT_FAULT_COUNT : Fld := ⟨0x100, 47, 32, .ro, 0, true⟩
def PWR_SEQ_STAT_CLEAR : Fld := ⟨0x100, 8, 8, .wo, 0, true⟩
def PWR_SEQ_STAT_ALERT : Fld := ⟨0x100, 6, 6, .ro, 0, true⟩
def PWR_SEQ_STAT_PD_ORDER : Fld := ⟨0x100, 5, 5, .ro, 0, true⟩
def PWR_SEQ_STAT_FAULT_SEEN : Fld := ⟨0x100, 4, 4, .ro, 0, true⟩
def PWR_SEQ_STAT_CAUSE : Fld := ⟨0x100, 3, 0, .ro, 0, true⟩

/-! PWR fields of R94 (03_module_power.md). -/
def PWR_RAIL_STAT_OV : Fld := ⟨0x108, 40, 32, .ro, 0, true⟩
def PWR_RAIL_STAT_UV : Fld := ⟨0x108, 24, 16, .ro, 0, true⟩
def PWR_RAIL_STAT_IN_TOL : Fld := ⟨0x108, 8, 0, .ro, 0, true⟩

/-! PWR fields of R95 (03_module_power.md). -/
def PWR_CORE_AVS_AVS_OK : Fld := ⟨0x110, 32, 32, .ro, 0, true⟩
def PWR_CORE_AVS_SET_MV : Fld := ⟨0x110, 31, 16, .ro, 0x2ee, true⟩
def PWR_CORE_AVS_TARGET_MV : Fld := ⟨0x110, 15, 0, .ro, Config.fusedTargetMv, true⟩
def PWR_CORE_TELEM_I_DA : Fld := ⟨0x118, 31, 16, .ro, 0, true⟩
def PWR_CORE_TELEM_V_MV : Fld := ⟨0x118, 15, 0, .ro, 0, true⟩
def PWR_CORE_ILIM_IWARN : Fld := ⟨0x120, 15, 0, .rw, 0xe10, true⟩

/-! HKA fields of R525 (19_housekeeping.md). -/
def HKA_CONV_CFG_MODE : Fld := ⟨0x100, 48, 48, .rw, 0, true⟩
def HKA_CONV_CFG_AVG_M1 : Fld := ⟨0x100, 39, 32, .rw, 0, true⟩
def HKA_CONV_CFG_DEC_M1 : Fld := ⟨0x100, 31, 16, .rw, 0xfff, true⟩
def HKA_CONV_CFG_ORDER : Fld := ⟨0x100, 10, 8, .rw, 4, true⟩
def HKA_CONV_CFG_INPUT : Fld := ⟨0x100, 5, 0, .rw, 0, true⟩
def HKA_CONV_CTL_STOP : Fld := ⟨0x108, 1, 1, .wo, 0, true⟩
def HKA_CONV_CTL_GO : Fld := ⟨0x108, 0, 0, .w1s, 0, true⟩
def HKA_CONV_DATA_NEW : Fld := ⟨0x110, 63, 63, .w1c, 0, true⟩
def HKA_CONV_DATA_OVR : Fld := ⟨0x110, 62, 62, .ro, 0, true⟩
def HKA_CONV_DATA_ABORTED : Fld := ⟨0x110, 61, 61, .ro, 0, true⟩
def HKA_CONV_DATA_RECOVERY : Fld := ⟨0x110, 60, 60, .ro, 0, true⟩
def HKA_CONV_DATA_INPUT : Fld := ⟨0x110, 53, 48, .ro, 0, true⟩
def HKA_CONV_DATA_CODE : Fld := ⟨0x110, 23, 0, .ro, 0, true⟩
def HKA_CONV_TICK_TICK : Fld := ⟨0x118, 63, 0, .ro, 0, true⟩
def HKA_HKA_STAT_HOST_REFUSED : Fld := ⟨0x120, 31, 16, .ro, 0, true⟩
def HKA_HKA_STAT_CAL_NOMINAL : Fld := ⟨0x120, 4, 4, .ro, 0, true⟩
def HKA_HKA_STAT_CAL_VALID : Fld := ⟨0x120, 3, 3, .ro, 0, true⟩
def HKA_HKA_STAT_SEQ_RUN : Fld := ⟨0x120, 2, 2, .ro, 0, true⟩
def HKA_HKA_STAT_CAL_BUSY : Fld := ⟨0x120, 1, 1, .ro, 0, true⟩
def HKA_HKA_STAT_BUSY : Fld := ⟨0x120, 0, 0, .ro, 0, true⟩
def HKA_CAL_CTL_DEC_M1 : Fld := ⟨0x128, 31, 16, .rw, 0xfff, true⟩
def HKA_CAL_CTL_ORDER : Fld := ⟨0x128, 10, 8, .rw, 4, true⟩
def HKA_CAL_CTL_GO : Fld := ⟨0x128, 0, 0, .w1s, 0, true⟩
def HKA_CAL_OFS_OFFSET : Fld := ⟨0x130, 23, 0, .rws, 0, true⟩
def HKA_CAL_GAIN_GAIN : Fld := ⟨0x138, 31, 0, .rws, 0x40000000, true⟩
def HKA_TEMP_VALID (i : Nat) : Fld := ⟨0x180 + 8 * i, 63, 63, .ro, 0, true⟩
def HKA_TEMP_STALE (i : Nat) : Fld := ⟨0x180 + 8 * i, 62, 62, .ro, 0, true⟩
def HKA_TEMP_OVR_SKIPPED (i : Nat) : Fld := ⟨0x180 + 8 * i, 61, 61, .ro, 0, true⟩
def HKA_TEMP_AGE_MS (i : Nat) : Fld := ⟨0x180 + 8 * i, 47, 32, .ro, 0, true⟩
def HKA_TEMP_TEMP_C (i : Nat) : Fld := ⟨0x180 + 8 * i, 15, 0, .ro, 0, true⟩
def HKA_LAST_VALID (i : Nat) : Fld := ⟨0x200 + 8 * i, 63, 63, .ro, 0, true⟩
def HKA_LAST_OVR (i : Nat) : Fld := ⟨0x200 + 8 * i, 62, 62, .ro, 0, true⟩
def HKA_LAST_RECOVERY (i : Nat) : Fld := ⟨0x200 + 8 * i, 61, 61, .ro, 0, true⟩
def HKA_LAST_CODE (i : Nat) : Fld := ⟨0x200 + 8 * i, 55, 32, .ro, 0, true⟩
def HKA_LAST_TICK_LO (i : Nat) : Fld := ⟨0x200 + 8 * i, 31, 0, .ro, 0, true⟩

/-! CMP fields of R88 (03_module_power.md). -/
def CMP_OW_CTL_PERIOD : Fld := ⟨0x700, 39, 32, .rw, 0, true⟩
def CMP_OW_CTL_START : Fld := ⟨0x700, 24, 24, .w1s, 0, true⟩
def CMP_OW_CTL_MASK : Fld := ⟨0x700, 23, 0, .rw, 0, true⟩

/-! CMP fields of R89 (03_module_power.md). -/
def CMP_OW_STAT_PASS_SEQ : Fld := ⟨0x708, 55, 48, .ro, 0, true⟩
def CMP_OW_STAT_DONE : Fld := ⟨0x708, 47, 24, .ro, 0, true⟩
def CMP_OW_STAT_OPEN : Fld := ⟨0x708, 23, 0, .ro, 0, true⟩

/-! CMP fields of R526 (19_housekeeping.md). -/
def CMP_CMP_CFG_EN (i : Nat) : Fld := ⟨0x100 + 8 * i, 63, 63, .rw, 0, false⟩
def CMP_CMP_CFG_OUT_SEL (i : Nat) : Fld := ⟨0x100 + 8 * i, 62, 61, .rw, 0, false⟩
def CMP_CMP_CFG_LATCH (i : Nat) : Fld := ⟨0x100 + 8 * i, 60, 59, .rw, 0, false⟩
def CMP_CMP_CFG_HYST (i : Nat) : Fld := ⟨0x100 + 8 * i, 58, 54, .rw, 0, false⟩
def CMP_CMP_CFG_LCLR_RAMP (i : Nat) : Fld := ⟨0x100 + 8 * i, 53, 51, .rw, 0, false⟩
def CMP_CMP_CFG_BLANK_SRC (i : Nat) : Fld := ⟨0x100 + 8 * i, 49, 48, .rw, 0, false⟩
def CMP_CMP_CFG_BLANK_FCLK (i : Nat) : Fld := ⟨0x100 + 8 * i, 47, 32, .rw, 0, false⟩
def CMP_CMP_CFG_HI_RAMP_EN (i : Nat) : Fld := ⟨0x100 + 8 * i, 31, 31, .rw, 0, false⟩
def CMP_CMP_CFG_HI_RAMP (i : Nat) : Fld := ⟨0x100 + 8 * i, 30, 28, .rw, 0, false⟩
def CMP_CMP_CFG_HI_RAMP_SUB (i : Nat) : Fld := ⟨0x100 + 8 * i, 27, 27, .rw, 0, false⟩
def CMP_CMP_CFG_LO_RAMP_EN (i : Nat) : Fld := ⟨0x100 + 8 * i, 23, 23, .rw, 0, false⟩
def CMP_CMP_CFG_LO_RAMP (i : Nat) : Fld := ⟨0x100 + 8 * i, 22, 20, .rw, 0, false⟩
def CMP_CMP_CFG_LO_RAMP_SUB (i : Nat) : Fld := ⟨0x100 + 8 * i, 19, 19, .rw, 0, false⟩
def CMP_CMP_DAC_HI (i : Nat) : Fld := ⟨0x180 + 8 * i, 27, 16, .rw, 0xfff, true⟩
def CMP_CMP_DAC_LO (i : Nat) : Fld := ⟨0x180 + 8 * i, 11, 0, .rw, 0, true⟩
def CMP_RAMP_CFG_EN (i : Nat) : Fld := ⟨0x200 + 16 * i, 63, 63, .rw, 0, false⟩
def CMP_RAMP_CFG_RESET_SRC (i : Nat) : Fld := ⟨0x200 + 16 * i, 62, 61, .rw, 0, false⟩
def CMP_RAMP_CFG_RESET_CMP (i : Nat) : Fld := ⟨0x200 + 16 * i, 59, 56, .rw, 0, false⟩
def CMP_RAMP_CFG_LIMIT (i : Nat) : Fld := ⟨0x200 + 16 * i, 43, 32, .rw, 0, false⟩
def CMP_RAMP_CFG_SLOPE (i : Nat) : Fld := ⟨0x200 + 16 * i, 23, 0, .rw, 0, false⟩
def CMP_RAMP_PER_PERIOD (i : Nat) : Fld := ⟨0x208 + 16 * i, 31, 0, .rw, 0, false⟩
def CMP_CMP_STAT_OUT : Fld := ⟨0x300, 15, 0, .ro, 0, true⟩
def CMP_CMP_LATCH_LAT : Fld := ⟨0x308, 15, 0, .w1c, 0, true⟩
def CMP_CMP_LVL_UNRES_LO : Fld := ⟨0x310, 63, 48, .ro, 0, true⟩
def CMP_CMP_LVL_UNRES_HI : Fld := ⟨0x310, 47, 32, .ro, 0, true⟩
def CMP_CMP_LVL_LO_NOW : Fld := ⟨0x310, 31, 16, .ro, 0, true⟩
def CMP_CMP_LVL_HI_NOW : Fld := ⟨0x310, 15, 0, .ro, 0, true⟩
def CMP_DAC_CHK_FAIL : Fld := ⟨0x318, 15, 0, .rw, 0, true⟩

/-! EVA fields of R547 (20_reliability.md). -/
def EVA_SUM_GROUP : Fld := ⟨0x100, 31, 0, .ro, 0, true⟩
def EVA_SEV_Q_ID : Fld := ⟨0x110, 10, 0, .rw, 0, true⟩
def EVA_SEV_R_EN : Fld := ⟨0x118, 5, 5, .ro, 0, true⟩
def EVA_SEV_R_PEND : Fld := ⟨0x118, 4, 4, .ro, 0, true⟩
def EVA_SEV_R_RAW : Fld := ⟨0x118, 3, 3, .ro, 0, true⟩
def EVA_SEV_R_SEV : Fld := ⟨0x118, 2, 0, .ro, 0, true⟩
def EVA_VEC_ARM_ARM (i : Nat) : Fld := ⟨0x180 + 8 * i, 63, 0, .w1s, 0xffffffffffffffff, true⟩
def EVA_ROUTE_R (i j : Nat) : Fld := ⟨0x400 + 8 * i, 16 * j + 15, 16 * j, .rw, 0, true⟩

/-! SEC fields of R502 (18_epochs_security.md). -/
def SEC_SEC_STAT_FW_SVN : Fld := ⟨0x100, 63, 56, .ro, Config.fusedSvn, true⟩
def SEC_SEC_STAT_ROM_VER : Fld := ⟨0x100, 47, 32, .ro, Config.romVersion, true⟩
def SEC_SEC_STAT_ID_KEY_OK : Fld := ⟨0x100, 3, 3, .ro, Config.idKeyOk, true⟩
def SEC_SEC_STAT_STAGED_OK : Fld := ⟨0x100, 2, 2, .ro, 0, true⟩
def SEC_SEC_STAT_RUN_SLOT : Fld := ⟨0x100, 1, 1, .ro, Config.romSlot, true⟩
def SEC_SEC_STAT_ROOT_FUSED : Fld := ⟨0x100, 0, 0, .ro, Config.rootFused, true⟩
def SEC_FW_VER_OTHER : Fld := ⟨0x108, 63, 32, .ro, 0, true⟩
def SEC_FW_VER_RUNNING : Fld := ⟨0x108, 31, 0, .ro, Config.fwVersion, true⟩
def SEC_SEL_STAT_SEQ : Fld := ⟨0x110, 63, 32, .ro, Config.selectorSeq, true⟩
def SEC_SEL_STAT_COPY : Fld := ⟨0x110, 1, 1, .ro, Config.selectorCopy, true⟩
def SEC_SEL_STAT_SLOT : Fld := ⟨0x110, 0, 0, .ro, Config.selectorSlot, true⟩
def SEC_SEC_CNT_ATTESTS : Fld := ⟨0x160, 63, 32, .ro, 0, true⟩
def SEC_SEC_CNT_VERIFY_FAIL : Fld := ⟨0x160, 31, 0, .ro, 0, true⟩
def SEC_ROOT_DIG_WORD (i : Nat) : Fld := ⟨0x120 + 8 * i, 63, 0, .ro, (Config.rootDigest i), true⟩
def SEC_ID_DIG_WORD (i : Nat) : Fld := ⟨0x140 + 8 * i, 63, 0, .ro, (Config.idDigest i), true⟩

/-! EPO fields of R501 (18_epochs_security.md). -/
def EPO_EPO_LIVE_NUMBER : Fld := ⟨0x100, 31, 0, .ro, 0, true⟩
def EPO_EPO_PRIOR_VALID : Fld := ⟨0x108, 63, 63, .ro, 0, true⟩
def EPO_EPO_PRIOR_FAILED : Fld := ⟨0x108, 62, 62, .ro, 0, true⟩
def EPO_EPO_PRIOR_NUMBER : Fld := ⟨0x108, 31, 0, .ro, 0, true⟩
def EPO_EPO_STAGED_VALID : Fld := ⟨0x110, 63, 63, .ro, 0, true⟩
def EPO_EPO_STAGED_LOADING : Fld := ⟨0x110, 62, 62, .ro, 0, true⟩
def EPO_EPO_STAGED_NUMBER : Fld := ⟨0x110, 31, 0, .ro, 0, true⟩
def EPO_EPO_HWM_HWM : Fld := ⟨0x118, 31, 0, .ro, 0, true⟩
def EPO_EQX_TICK_TICK : Fld := ⟨0x120, 63, 0, .ro, 0, true⟩
def EPO_EQX_STAT_PENDING : Fld := ⟨0x128, 63, 63, .ro, 0, true⟩
def EPO_EQX_STAT_REVERT : Fld := ⟨0x128, 62, 62, .ro, 0, true⟩
def EPO_EQX_STAT_AUTO : Fld := ⟨0x128, 61, 61, .ro, 0, true⟩
def EPO_EQX_STAT_ANNOUNCED : Fld := ⟨0x128, 60, 60, .ro, 0, true⟩
def EPO_EQX_STAT_FROM_DELTAN : Fld := ⟨0x128, 59, 59, .ro, 0, true⟩
def EPO_EQX_STAT_SWITCHING : Fld := ⟨0x128, 58, 58, .ro, 0, true⟩
def EPO_LAST_EQX_TICK : Fld := ⟨0x130, 63, 0, .ro, 0, true⟩
def EPO_LAST_DONE_TICK : Fld := ⟨0x138, 63, 0, .ro, 0, true⟩
def EPO_PROB_CFG_PROB_MS : Fld := ⟨0x140, 63, 32, .rws, 0x7d0, true⟩
def EPO_PROB_CFG_LEAP_MAX : Fld := ⟨0x140, 31, 16, .rws, 0, true⟩
def EPO_PROB_CFG_LEAP_CAUSES : Fld := ⟨0x140, 15, 7, .rws, 0xf, true⟩
def EPO_PROB_CFG_CRIT : Fld := ⟨0x140, 4, 1, .rws, 0xf, true⟩
def EPO_PROB_CFG_EN : Fld := ⟨0x140, 0, 0, .rws, 1, true⟩
def EPO_PROB_STAT_REMAIN_MS : Fld := ⟨0x148, 63, 32, .ro, 0, true⟩
def EPO_PROB_STAT_FAIL_CRIT : Fld := ⟨0x148, 23, 16, .ro, 0, true⟩
def EPO_PROB_STAT_FAILED : Fld := ⟨0x148, 2, 2, .ro, 0, true⟩
def EPO_PROB_STAT_PASSED : Fld := ⟨0x148, 1, 1, .ro, 0, true⟩
def EPO_PROB_STAT_ACTIVE : Fld := ⟨0x148, 0, 0, .ro, 0, true⟩
def EPO_DIG_LIVE_WORD (i : Nat) : Fld := ⟨0x180 + 8 * i, 63, 0, .ro, 0, true⟩
def EPO_DIG_PRIOR_WORD (i : Nat) : Fld := ⟨0x1a0 + 8 * i, 63, 0, .ro, 0, true⟩
def EPO_DIG_STAGED_WORD (i : Nat) : Fld := ⟨0x1c0 + 8 * i, 63, 0, .ro, 0, true⟩

/-! SVC fields of R363 (12_services.md). -/
def SVC_RING_BASE_ADDR (i : Nat) : Fld := ⟨0x100 + 32 * i, 63, 0, .rws, 0, true⟩
def SVC_RING_CFG_EN (i : Nat) : Fld := ⟨0x108 + 32 * i, 63, 63, .rws, 0, true⟩
def SVC_RING_CFG_SIZE (i : Nat) : Fld := ⟨0x108 + 32 * i, 12, 0, .rws, 0x10, true⟩
def SVC_CQ_BASE_ADDR (i : Nat) : Fld := ⟨0x110 + 32 * i, 63, 0, .rws, 0, true⟩
def SVC_RING_DB_CQ_HEAD (i : Nat) : Fld := ⟨0x118 + 32 * i, 27, 16, .rws, 0, true⟩
def SVC_RING_DB_SQ_TAIL (i : Nat) : Fld := ⟨0x118 + 32 * i, 11, 0, .rws, 0, true⟩
def SVC_SVC_STAT_UPTIME : Fld := ⟨0x200, 63, 32, .ro, 0, true⟩
def SVC_SVC_STAT_RESTARTS : Fld := ⟨0x200, 31, 16, .ro, 0, true⟩
def SVC_SVC_STAT_RUNNING : Fld := ⟨0x200, 3, 0, .ro, 0, true⟩

/-! VGL fields of R548 (20_reliability.md). -/
def VGL_SC_WD_TIMEOUT_MS : Fld := ⟨0x100, 31, 16, .rws, 0x1f4, true⟩
def VGL_SC_WD_KICK : Fld := ⟨0x100, 1, 1, .wo, 0, true⟩
def VGL_SC_WD_EN : Fld := ⟨0x100, 0, 0, .rws, 1, true⟩
def VGL_STREAM_WD_TIMEOUT : Fld := ⟨0x108, 31, 0, .rw, 0x3e80, true⟩
def VGL_FLOG_WCNT_CNT : Fld := ⟨0x180, 63, 0, .ro, 0, true⟩
def VGL_FLOG_IDX_IDX : Fld := ⟨0x188, 5, 0, .rw, 0, true⟩
def VGL_FLOG_DATA0_WORD0 : Fld := ⟨0x190, 63, 0, .ro, 0, true⟩
def VGL_FLOG_DATA1_WORD1 : Fld := ⟨0x198, 63, 0, .ro, 0, true⟩
def VGL_AV_SEL_CTX : Fld := ⟨0x1a0, 9, 0, .rw, 0, true⟩
def VGL_AV_LOST_TICKS : Fld := ⟨0x1a8, 63, 0, .ro, 0, true⟩
def VGL_AV_BUDGET_TICKS : Fld := ⟨0x1b0, 63, 0, .rws, 0xbbf81e000, true⟩
def VGL_AV_TOTAL_TICKS : Fld := ⟨0x1b8, 63, 0, .ro, 0, true⟩
def VGL_AV_OVER_COUNT : Fld := ⟨0x1c0, 10, 0, .ro, 0, true⟩
def VGL_AV_CLR_CLR : Fld := ⟨0x1c8, 0, 0, .wo, 0, true⟩
def VGL_HC_CFG_EN (i : Nat) : Fld := ⟨0x200 + 16 * i, 63, 63, .rw, (if i < 4 then 1 else 0), true⟩
def VGL_HC_CFG_SRC (i : Nat) : Fld := ⟨0x200 + 16 * i, 55, 48, .rw, ([11, 12, 3, 8].getD i 0), true⟩
def VGL_HC_CFG_ARG (i : Nat) : Fld := ⟨0x200 + 16 * i, 47, 32, .rw, (if i = 3 then 3 else 0), true⟩
def VGL_HC_CFG_WINDOW_MS (i : Nat) : Fld := ⟨0x200 + 16 * i, 31, 0, .rw, (if i = 2 ∨ i = 3 then 1000 else 0), true⟩
def VGL_HC_LIM_PROB_LIMIT (i : Nat) : Fld := ⟨0x208 + 16 * i, 63, 32, .rw, ([0xFFFFFFFF, 0xFFFFFFFF, 0,
    0xFFFFFFFF].getD i 0), true⟩
def VGL_HC_LIM_LIMIT (i : Nat) : Fld := ⟨0x208 + 16 * i, 31, 0, .rw, ([950, 900].getD i 0), true⟩
def VGL_HC_VAL_PEAK (i : Nat) : Fld := ⟨0x300 + 8 * i, 63, 32, .ro, 0, true⟩
def VGL_HC_VAL_NOW (i : Nat) : Fld := ⟨0x300 + 8 * i, 31, 0, .ro, 0, true⟩

/-! LNK fields of R173 (06_ingest.md). -/
def LNK_LINK_CFG_RBD : Fld := ⟨0x100, 59, 50, .rw, 0, false⟩
def LNK_LINK_CFG_LEMC_K_M1 : Fld := ⟨0x100, 49, 40, .rw, 0x3f, false⟩
def LNK_LINK_CFG_OFFSET_BIN : Fld := ⟨0x100, 34, 34, .rw, 0, false⟩
def LNK_LINK_CFG_OVR_CB : Fld := ⟨0x100, 33, 32, .rw, 0, false⟩
def LNK_LINK_CFG_OVR_CB_EN : Fld := ⟨0x100, 31, 31, .rw, 0, false⟩
def LNK_LINK_CFG_CRC_ACTION : Fld := ⟨0x100, 30, 30, .rw, 1, false⟩
def LNK_LINK_CFG_CHECK : Fld := ⟨0x100, 29, 28, .rw, 1, false⟩
def LNK_LINK_CFG_SUBCLASS : Fld := ⟨0x100, 27, 26, .rw, 1, false⟩
def LNK_LINK_CFG_E_M1 : Fld := ⟨0x100, 25, 21, .rw, 0, false⟩
def LNK_LINK_CFG_CS : Fld := ⟨0x100, 20, 19, .rw, 0, false⟩
def LNK_LINK_CFG_NP16 : Fld := ⟨0x100, 18, 18, .rw, 1, false⟩
def LNK_LINK_CFG_N_M1 : Fld := ⟨0x100, 17, 14, .rw, 0xf, false⟩
def LNK_LINK_CFG_S_M1 : Fld := ⟨0x100, 13, 10, .rw, 0, false⟩
def LNK_LINK_CFG_M_M1 : Fld := ⟨0x100, 9, 4, .rw, 0, false⟩
def LNK_LINK_CFG_L_M1 : Fld := ⟨0x100, 3, 0, .rw, 0, false⟩
def LNK_LANE_MAP0_PHYS (j : Nat) : Fld := ⟨0x108, 8 * j + 7, 8 * j, .rw, 0xff, false⟩
def LNK_LANE_MAP1_PHYS (j : Nat) : Fld := ⟨0x110, 8 * j + 7, 8 * j, .rw, 0xff, false⟩
def LNK_TS_ADJ_ADJ : Fld := ⟨0x118, 63, 0, .rw, 0, false⟩
def LNK_LINK_WD_WD : Fld := ⟨0x120, 31, 0, .rw, 0x3e80, false⟩
def LNK_LINK_STAT_F : Fld := ⟨0x128, 63, 52, .ro, 0, false⟩
def LNK_LINK_STAT_DOWN_CNT : Fld := ⟨0x128, 51, 36, .ro, 0, false⟩
def LNK_LINK_STAT_STATE : Fld := ⟨0x128, 19, 16, .ro, 0, false⟩
def LNK_LINK_STAT_NONDET : Fld := ⟨0x128, 15, 15, .ro, 0, false⟩
def LNK_ERR_CNT_CRC_CNT : Fld := ⟨0x130, 63, 32, .ro, 0, false⟩
def LNK_ERR_CNT_FEC_UNC_CNT : Fld := ⟨0x130, 31, 0, .ro, 0, false⟩
def LNK_ERR_CLR_CLR : Fld := ⟨0x138, 0, 0, .wo, 0, false⟩
def LNK_MAP_VALID (i : Nat) : Fld := ⟨0x200 + 8 * i, 63, 63, .rw, 0, false⟩
def LNK_MAP_Q (i : Nat) : Fld := ⟨0x200 + 8 * i, 62, 62, .rw, 0, false⟩
def LNK_MAP_SLOT (i : Nat) : Fld := ⟨0x200 + 8 * i, 23, 16, .rw, 0, false⟩
def LNK_MAP_CONV (i : Nat) : Fld := ⟨0x200 + 8 * i, 9, 4, .rw, 0, false⟩
def LNK_MAP_SAMP (i : Nat) : Fld := ⟨0x200 + 8 * i, 3, 0, .rw, 0, false⟩

/-! LQD fields of R172 (06_ingest.md). -/
def LQD_QUAD_CFG_LANE_EN : Fld := ⟨0x100, 39, 32, .rw, 0, false⟩
def LQD_QUAD_CFG_RATE_KBPS : Fld := ⟨0x100, 24, 0, .rw, 0, false⟩
def LQD_LANE_CTL_POL_INV : Fld := ⟨0x108, 15, 8, .rw, 0, false⟩
def LQD_LANE_CTL_POL_AUTO : Fld := ⟨0x108, 7, 0, .rw, 0xff, false⟩
def LQD_LANE_STAT_FEC_CORR (i : Nat) : Fld := ⟨0x110 + 8 * i, 63, 48, .ro, 0, false⟩
def LQD_LANE_STAT_CRC_ERR (i : Nat) : Fld := ⟨0x110 + 8 * i, 47, 32, .ro, 0, false⟩
def LQD_LANE_STAT_MARGIN (i : Nat) : Fld := ⟨0x110 + 8 * i, 23, 16, .ro, 0, false⟩
def LQD_LANE_STAT_FEC_UNC (i : Nat) : Fld := ⟨0x110 + 8 * i, 7, 7, .w1c, 0, false⟩
def LQD_LANE_STAT_BUF_ERR (i : Nat) : Fld := ⟨0x110 + 8 * i, 6, 6, .w1c, 0, false⟩
def LQD_LANE_STAT_LATE (i : Nat) : Fld := ⟨0x110 + 8 * i, 5, 5, .w1c, 0, false⟩
def LQD_LANE_STAT_POL_INV_ACT (i : Nat) : Fld := ⟨0x110 + 8 * i, 4, 4, .ro, 0, false⟩
def LQD_LANE_STAT_EMB_LOCK (i : Nat) : Fld := ⟨0x110 + 8 * i, 2, 2, .ro, 0, false⟩
def LQD_LANE_STAT_BLOCK_LOCK (i : Nat) : Fld := ⟨0x110 + 8 * i, 1, 1, .ro, 0, false⟩
def LQD_LANE_STAT_UP (i : Nat) : Fld := ⟨0x110 + 8 * i, 0, 0, .ro, 0, false⟩
def LQD_CNT_CLR_CLR : Fld := ⟨0x150, 7, 0, .wo, 0, false⟩

/-! SLT fields of R174 (06_ingest.md). -/
def SLT_SLT_CFG_OVR_GAP : Fld := ⟨0x100, 31, 16, .rw, 0x40, false⟩
def SLT_SLT_CFG_OVR_CODE : Fld := ⟨0x100, 4, 4, .rw, 0, false⟩
def SLT_SLT_CFG_CPLX : Fld := ⟨0x100, 3, 3, .rw, 0, false⟩
def SLT_SLT_CFG_BOND_LOG2 : Fld := ⟨0x100, 2, 0, .rw, 0, false⟩
def SLT_SMP_PHASE_PHASE : Fld := ⟨0x110, 63, 0, .rw, 0, false⟩
def SLT_SLT_STAT_OVR_CNT : Fld := ⟨0x118, 63, 32, .ro, 0, false⟩
def SLT_SLT_STAT_FIFO_MAX : Fld := ⟨0x118, 31, 24, .ro, 0, false⟩
def SLT_SLT_STAT_SRC_LINK : Fld := ⟨0x118, 15, 8, .ro, 0, false⟩
def SLT_SLT_STAT_OVERFLOW : Fld := ⟨0x118, 2, 2, .w1c, 0, false⟩
def SLT_SLT_STAT_OVR_NOW : Fld := ⟨0x118, 1, 1, .ro, 0, false⟩
def SLT_SLT_STAT_ACTIVE : Fld := ⟨0x118, 0, 0, .ro, 0, false⟩
def SLT_SLT_CLR_CLR : Fld := ⟨0x120, 0, 0, .wo, 0, false⟩

/-! SLT fields of R126 (04_clocks_timebase.md). -/
def SLT_SMP_PERIOD_PERIOD : Fld := ⟨0x108, 63, 0, .rw, 0x100000000, false⟩

/-! CTX fields of R201 (07_conditioning.md). -/
def CTX_SRC_CFG_SLOT : Fld := ⟨0x100, 7, 0, .rw, 0, false⟩
def CTX_VIEW_CFG_OUT_SHIFT : Fld := ⟨0x108, 35, 32, .rw, 0, false⟩
def CTX_VIEW_CFG_DEC_LOG2 : Fld := ⟨0x108, 20, 16, .rw, 0, false⟩
def CTX_VIEW_CFG_MODE : Fld := ⟨0x108, 9, 8, .rw, 0, false⟩
def CTX_NCO_FTW_FTW : Fld := ⟨0x110, 47, 0, .rw, 0, false⟩
def CTX_NCO_PHASE_PHASE : Fld := ⟨0x118, 47, 0, .rw, 0, false⟩
def CTX_VIEW_STAT_SAT_CNT : Fld := ⟨0x120, 63, 32, .ro, 0, false⟩
def CTX_VIEW_PERIOD_PERIOD : Fld := ⟨0x128, 63, 0, .ro, 0, false⟩
def CTX_IC_CFG_T1_WAIT : Fld := ⟨0x180, 63, 56, .rw, 0, false⟩
def CTX_IC_CFG_T1_HOLD : Fld := ⟨0x180, 55, 48, .rw, 0xa, false⟩
def CTX_IC_CFG_TEMP_DELTA : Fld := ⟨0x180, 39, 32, .rw, 0x32, false⟩
def CTX_IC_CFG_MIN_LEVEL : Fld := ⟨0x180, 31, 24, .rw, 0x32, false⟩
def CTX_IC_CFG_T1_AT_START : Fld := ⟨0x180, 3, 3, .rw, 1, false⟩
def CTX_IC_CFG_BOUND_AUTO : Fld := ⟨0x180, 2, 2, .rw, 1, false⟩
def CTX_IC_CFG_T0_EN : Fld := ⟨0x180, 1, 1, .rw, 1, false⟩
def CTX_IC_CFG_IC_EN : Fld := ⟨0x180, 0, 0, .rw, 0, false⟩
def CTX_IC_BOUND_SKEW_BOUND : Fld := ⟨0x188, 47, 32, .rw, 0x7d0, false⟩
def CTX_IC_BOUND_GAIN_BOUND : Fld := ⟨0x188, 31, 16, .rw, 0xfa, false⟩
def CTX_IC_BOUND_OFS_BOUND : Fld := ⟨0x188, 15, 0, .rw, 0x40, false⟩
def CTX_IC_SLEW_SKEW_SLEW : Fld := ⟨0x190, 47, 32, .rw, 1, false⟩
def CTX_IC_SLEW_GAIN_SLEW : Fld := ⟨0x190, 31, 16, .rw, 0x400, false⟩
def CTX_IC_SLEW_OFS_SLEW : Fld := ⟨0x190, 15, 0, .rw, 4, false⟩
def CTX_IC_INIT_GAIN (i : Nat) : Fld := ⟨0x200 + 8 * i, 63, 40, .rw, 0, false⟩
def CTX_IC_INIT_SKEW (i : Nat) : Fld := ⟨0x200 + 8 * i, 39, 24, .rw, 0, false⟩
def CTX_IC_INIT_OFFSET (i : Nat) : Fld := ⟨0x200 + 8 * i, 15, 0, .rw, 0, false⟩
def CTX_IC_STAT_RUNS : Fld := ⟨0x300, 63, 48, .ro, 0, false⟩
def CTX_IC_STAT_REJECTS : Fld := ⟨0x300, 47, 32, .ro, 0, false⟩
def CTX_IC_STAT_ABANDONS : Fld := ⟨0x300, 31, 16, .ro, 0, false⟩
def CTX_IC_STAT_STATE : Fld := ⟨0x300, 15, 12, .ro, 0, false⟩
def CTX_IC_STAT_LAST_RESULT : Fld := ⟨0x300, 11, 8, .ro, 0, false⟩
def CTX_IC_STAT_LAST_CAUSE : Fld := ⟨0x300, 7, 4, .ro, 0, false⟩
def CTX_IC_STAT_T0_FROZEN : Fld := ⟨0x300, 3, 3, .ro, 0, false⟩
def CTX_IC_STAT_BOUND_HIT : Fld := ⟨0x300, 2, 2, .ro, 0, false⟩
def CTX_IC_STAT_FORCED : Fld := ⟨0x300, 1, 1, .ro, 0, false⟩
def CTX_IC_STAT_PENDING : Fld := ⟨0x300, 0, 0, .ro, 0, false⟩
def CTX_IC_TEMP_REF_TEMP : Fld := ⟨0x308, 47, 32, .ro, 0, false⟩
def CTX_IC_TEMP_NOW_TEMP : Fld := ⟨0x308, 15, 0, .ro, 0, false⟩
def CTX_IC_LAST_DIFF_GAIN_DIFF : Fld := ⟨0x310, 63, 48, .ro, 0, false⟩
def CTX_IC_LAST_DIFF_SKEW_DIFF : Fld := ⟨0x310, 47, 32, .ro, 0, false⟩
def CTX_IC_LAST_DIFF_OFS_DIFF : Fld := ⟨0x310, 31, 16, .ro, 0, false⟩
def CTX_IC_LAST_DIFF_WORST : Fld := ⟨0x310, 3, 0, .ro, 0, false⟩

/-! CTX fields of R231 (08_transform.md). -/
def CTX_XF_CFG_PIPE_M1 : Fld := ⟨0x400, 31, 28, .rw, 0, false⟩
def CTX_XF_CFG_HDR : Fld := ⟨0x400, 24, 24, .rw, 0, false⟩
def CTX_XF_CFG_PWR_FMT : Fld := ⟨0x400, 20, 20, .rw, 0, false⟩
def CTX_XF_CFG_KIND : Fld := ⟨0x400, 18, 16, .rw, 0, false⟩
def CTX_XF_CFG_HOP_LOG2 : Fld := ⟨0x400, 11, 8, .rw, 2, false⟩
def CTX_XF_CFG_NLOG2 : Fld := ⟨0x400, 4, 0, .rw, 0xa, false⟩
def CTX_XF_PIPES0_PIPE (j : Nat) : Fld := ⟨0x408, 8 * j + 5, 8 * j, .rw, 0, false⟩
def CTX_XF_PIPES1_PIPE (j : Nat) : Fld := ⟨0x410, 8 * j + 5, 8 * j, .rw, 0, false⟩
def CTX_XF_WIN_SYM : Fld := ⟨0x418, 16, 16, .rw, 0, false⟩
def CTX_XF_WIN_BASE : Fld := ⟨0x418, 15, 0, .rw, 0, false⟩
def CTX_XF_SCALE_GAIN_DB : Fld := ⟨0x420, 31, 16, .ro, 0, false⟩
def CTX_XF_SCALE_DB_OFFSET : Fld := ⟨0x420, 15, 0, .rw, 0, true⟩
def CTX_TRC_CFG_EN (i : Nat) : Fld := ⟨0x440 + 8 * i, 63, 63, .rw, 0, false⟩
def CTX_TRC_CFG_STORE (i : Nat) : Fld := ⟨0x440 + 8 * i, 62, 62, .rw, 0, false⟩
def CTX_TRC_CFG_FMT (i : Nat) : Fld := ⟨0x440 + 8 * i, 61, 61, .rw, 0, false⟩
def CTX_TRC_CFG_AVG (i : Nat) : Fld := ⟨0x440 + 8 * i, 60, 59, .rw, 0, false⟩
def CTX_TRC_CFG_AVG_LOG2 (i : Nat) : Fld := ⟨0x440 + 8 * i, 52, 48, .rw, 0, false⟩
def CTX_TRC_CFG_DET (i : Nat) : Fld := ⟨0x440 + 8 * i, 42, 40, .rw, 0, false⟩
def CTX_TRC_CFG_TLOG2 (i : Nat) : Fld := ⟨0x440 + 8 * i, 36, 32, .rw, 8, false⟩
def CTX_TRC_CFG_BLOG2 (i : Nat) : Fld := ⟨0x440 + 8 * i, 27, 24, .rw, 0, false⟩
def CTX_TRC_CFG_BIN_START (i : Nat) : Fld := ⟨0x440 + 8 * i, 15, 0, .rw, 0, false⟩
def CTX_XF_STAT_DROPS : Fld := ⟨0x480, 63, 32, .ro, 0, false⟩
def CTX_XF_STAT_LAST_EXP : Fld := ⟨0x480, 31, 24, .ro, 0, false⟩
def CTX_XF_FRAMES_FRAMES : Fld := ⟨0x488, 63, 0, .ro, 0, false⟩

/-! CTX fields of R293 (10_trigger.md). -/
def CTX_TRG_CFG_MODE : Fld := ⟨0x500, 63, 62, .rw, 0, false⟩
def CTX_TRG_CFG_UNIT_EN : Fld := ⟨0x500, 61, 61, .rw, 0, false⟩
def CTX_TRG_CFG_UNIT : Fld := ⟨0x500, 53, 48, .rw, 0, false⟩
def CTX_TRG_CFG_STOP_MASK : Fld := ⟨0x500, 0, 0, .rw, 0, false⟩
def CTX_TRG_HOLD_HOLD : Fld := ⟨0x508, 47, 0, .rw, 0, false⟩
def CTX_MASK_CFG_EN (i : Nat) : Fld := ⟨0x510 + 8 * i, 63, 63, .rw, 0, false⟩
def CTX_MASK_CFG_SENSE (i : Nat) : Fld := ⟨0x510 + 8 * i, 62, 62, .rw, 0, false⟩
def CTX_MASK_CFG_TRC (i : Nat) : Fld := ⟨0x510 + 8 * i, 61, 60, .rw, 0, false⟩
def CTX_MASK_CFG_MIN_PTS (i : Nat) : Fld := ⟨0x510 + 8 * i, 47, 32, .rw, 1, false⟩
def CTX_MASK_CFG_NSEG_M1 (i : Nat) : Fld := ⟨0x510 + 8 * i, 27, 16, .rw, 0, false⟩
def CTX_MASK_CFG_BASE (i : Nat) : Fld := ⟨0x510 + 8 * i, 13, 0, .rw, 0, false⟩
def CTX_LVL_CFG_EN (i : Nat) : Fld := ⟨0x520 + 8 * i, 63, 63, .rw, 0, false⟩
def CTX_LVL_CFG_TAP (i : Nat) : Fld := ⟨0x520 + 8 * i, 62, 62, .rw, 0, false⟩
def CTX_LVL_CFG_SEL (i : Nat) : Fld := ⟨0x520 + 8 * i, 61, 60, .rw, 0, false⟩
def CTX_LVL_CFG_MODE (i : Nat) : Fld := ⟨0x520 + 8 * i, 59, 57, .rw, 0, false⟩
def CTX_LVL_CFG_HYST (i : Nat) : Fld := ⟨0x520 + 8 * i, 31, 16, .rw, 0, false⟩
def CTX_LVL_CFG_THRESH (i : Nat) : Fld := ⟨0x520 + 8 * i, 15, 0, .rw, 0, false⟩
def CTX_MASK_STAT_VIOL_TRACES : Fld := ⟨0x530, 63, 32, .ro, 0, false⟩
def CTX_MASK_STAT_VIOL : Fld := ⟨0x530, 1, 0, .ro, 0, false⟩

/-! CTX fields of R320 (11_acquisition.md). -/
def CTX_CAP_CFG_MODE : Fld := ⟨0x600, 63, 62, .rw, 0, false⟩
def CTX_CAP_CFG_POLICY : Fld := ⟨0x600, 61, 60, .rw, 0, false⟩
def CTX_CAP_CFG_RAW_EN : Fld := ⟨0x600, 59, 59, .rw, 0, false⟩
def CTX_CAP_CFG_AUTO_ARM : Fld := ⟨0x600, 58, 58, .rw, 0, false⟩
def CTX_SPEC_CFG_SPEC_EN : Fld := ⟨0x608, 63, 63, .rw, 0, false⟩
def CTX_CAP_EVE_EVE : Fld := ⟨0x610, 31, 0, .rw, 0, false⟩
def CTX_CAP_POST_POST : Fld := ⟨0x618, 39, 0, .rw, 0, false⟩
def CTX_RAW_BASE_ADDR : Fld := ⟨0x620, 63, 0, .rw, 0, false⟩
def CTX_RAW_SIZE_GRAN : Fld := ⟨0x628, 31, 0, .rw, 0, false⟩
def CTX_SPEC_BASE_ADDR : Fld := ⟨0x630, 63, 0, .rw, 0, false⟩
def CTX_SPEC_SIZE_GRAN : Fld := ⟨0x638, 31, 0, .rw, 0, false⟩
def CTX_ALM_BASE_ADDR : Fld := ⟨0x640, 63, 0, .rw, 0, false⟩
def CTX_ALM_SIZE_GRAN : Fld := ⟨0x648, 31, 0, .rw, 0, false⟩
def CTX_CAP_CTL_RELEASE : Fld := ⟨0x650, 2, 2, .wo, 0, false⟩
def CTX_CAP_CTL_DISARM : Fld := ⟨0x650, 1, 1, .wo, 0, false⟩
def CTX_CAP_CTL_ARM : Fld := ⟨0x650, 0, 0, .wo, 0, false⟩
def CTX_CAP_STAT_CAP_SEQ : Fld := ⟨0x658, 47, 32, .ro, 0, false⟩
def CTX_CAP_STAT_ARM_ERR : Fld := ⟨0x658, 15, 8, .ro, 0, false⟩
def CTX_CAP_STAT_STATE : Fld := ⟨0x658, 2, 0, .ro, 0, false⟩
def CTX_CAP_START_RAW_W : Fld := ⟨0x660, 63, 0, .ro, 0, false⟩
def CTX_SPEC_START_SPEC_W : Fld := ⟨0x668, 63, 0, .ro, 0, false⟩
def CTX_RAW_WCNT_CNT : Fld := ⟨0x670, 63, 0, .ro, 0, false⟩
def CTX_SPEC_WCNT_CNT : Fld := ⟨0x678, 63, 0, .ro, 0, false⟩
def CTX_ALM_WCNT_CNT : Fld := ⟨0x680, 63, 0, .ro, 0, false⟩
def CTX_ACCT_DELIV_CNT : Fld := ⟨0x688, 63, 0, .ro, 0, false⟩
def CTX_ACCT_LEAP_CNT : Fld := ⟨0x690, 63, 0, .ro, 0, false⟩
def CTX_ACCT_SDELIV_CNT : Fld := ⟨0x698, 63, 0, .ro, 0, false⟩
def CTX_ACCT_SLEAP_CNT : Fld := ⟨0x6a0, 63, 0, .ro, 0, false⟩
def CTX_ACCT_TICK_TICK : Fld := ⟨0x6a8, 63, 0, .ro, 0, false⟩

/-! CTX fields of R334 (12_services.md). -/
def CTX_REC_BIND_EN : Fld := ⟨0x700, 63, 63, .rw, 0, false⟩
def CTX_REC_BIND_CONTENT : Fld := ⟨0x700, 62, 61, .rw, 0, false⟩
def CTX_REC_BIND_HANDLE : Fld := ⟨0x700, 51, 48, .rw, 0, false⟩
def CTX_STR_BIND_EN : Fld := ⟨0x708, 63, 63, .rw, 0, false⟩
def CTX_STR_BIND_CONTENT : Fld := ⟨0x708, 62, 61, .rw, 0, false⟩
def CTX_STR_BIND_SLOT : Fld := ⟨0x708, 53, 48, .rw, 0, false⟩
def CTX_DRN_RAW_BASE_ADDR : Fld := ⟨0x710, 63, 0, .rw, 0, false⟩
def CTX_DRN_RAW_SIZE_GRAN : Fld := ⟨0x718, 31, 0, .rw, 0, false⟩
def CTX_DRN_SPEC_BASE_ADDR : Fld := ⟨0x720, 63, 0, .rw, 0, false⟩
def CTX_DRN_SPEC_SIZE_GRAN : Fld := ⟨0x728, 31, 0, .rw, 0, false⟩
def CTX_DRN_REC_RD_CNT : Fld := ⟨0x730, 63, 0, .ro, 0, false⟩
def CTX_DRN_STR_RD_CNT : Fld := ⟨0x738, 63, 0, .ro, 0, false⟩

/-! CTX fields of R201 (07_conditioning.md). -/
def CTX_IC_ACT_GAIN (i : Nat) : Fld := ⟨0x280 + 8 * i, 63, 40, .ro, 0, false⟩
def CTX_IC_ACT_SKEW (i : Nat) : Fld := ⟨0x280 + 8 * i, 39, 24, .ro, 0, false⟩
def CTX_IC_ACT_OFFSET (i : Nat) : Fld := ⟨0x280 + 8 * i, 15, 0, .ro, 0, false⟩

end Reg

/-- Every field of a GLB page past its header. -/
def glbFields : List Fld :=
  [Reg.GLB_ACC_ERR_LOG_COUNT, Reg.GLB_ACC_ERR_LOG_VALID, Reg.GLB_ACC_ERR_LOG_KIND, Reg.GLB_ACC_ERR_LOG_OFFSET,
      Reg.GLB_BOOT_STAT_WARM_CNT, Reg.GLB_BOOT_STAT_LAST_RESET, Reg.GLB_BOOT_STAT_FAIL_CODE,
      Reg.GLB_BOOT_STAT_FAIL_DETAIL, Reg.GLB_BOOT_STAT_STEP, Reg.GLB_BOOT_STAT_FAILED, Reg.GLB_BOOT_STAT_SLOT,
      Reg.GLB_BOOT_STAT_READY, Reg.GLB_BOOT_CTL_RESUME_LEAD, Reg.GLB_BOOT_CTL_HOST_ISOLATE,
      Reg.GLB_BOOT_CTL_WARM_RESUME]

/-- Every field of a CLK page past its header. -/
def clkFields : List Fld :=
  [Reg.CLK_REF_CFG_AUTO_RELOCK, Reg.CLK_REF_CFG_REF_HZ, Reg.CLK_PLL_CTL_GATE_HOLD, Reg.CLK_PLL_CTL_BAND_CAL,
      Reg.CLK_PLL_CTL_RELOCK, Reg.CLK_PLL_STAT_RELEASE_CNT, Reg.CLK_PLL_STAT_FAIL_CAUSE,
      Reg.CLK_PLL_STAT_GATE_CAUSE, Reg.CLK_PLL_STAT_BAND_ACT, Reg.CLK_PLL_STAT_REF_PRESENT, Reg.CLK_PLL_STAT_GATED,
      Reg.CLK_PLL_STAT_LOCKED, Reg.CLK_FTRIM_SLEW, Reg.CLK_FTRIM_TARGET, Reg.CLK_FTRIM_ACT_ACT,
      Reg.CLK_FCHK_FCLK_ERR, Reg.CLK_FCHK_GATE_REF, Reg.CLK_KEEP_INC_INC, Reg.CLK_JESD_DIV_D_ACT,
      Reg.CLK_JESD_DIV_D, Reg.CLK_SYSREF_CTL_SYSREF_WAIT, Reg.CLK_SYSREF_CTL_EDGE_SEL, Reg.CLK_SYSREF_CTL_MODE,
      Reg.CLK_SYSREF_CTL_TB_ALIGN, Reg.CLK_SYSREF_CTL_AUTO_REARM, Reg.CLK_SYSREF_CTL_ARM,
      Reg.CLK_SYSREF_STAT_SEEN_CNT, Reg.CLK_SYSREF_STAT_PHASE_ERR, Reg.CLK_SYSREF_STAT_REF_INV,
      Reg.CLK_SYSREF_STAT_POL_UNRES, Reg.CLK_SYSREF_STAT_POL_INV] ++
  (List.range 64).flatMap (fun i => [Reg.CLK_BAND_VALID i, Reg.CLK_BAND_F_HI_KHZ i, Reg.CLK_BAND_TEMP_C i,
      Reg.CLK_BAND_F_LO_KHZ i])

/-- Every field of a TMB page past its header. -/
def tmbFields : List Fld :=
  [Reg.TMB_TB_NOW_TICKS, Reg.TMB_TB_ALIGN_VAL_VAL, Reg.TMB_PTP_SEC_SEC, Reg.TMB_PTP_NS_NS, Reg.TMB_PTP_NS_FRAC,
      Reg.TMB_SNAP_TAKE, Reg.TMB_SNAP_TICK_TICKS, Reg.TMB_SNAP_SEC_SEC, Reg.TMB_SNAP_NS_NS_FRAC,
      Reg.TMB_KEEP_STAT_LAST_GAP, Reg.TMB_KEEP_STAT_HOLDOVER, Reg.TMB_KEEP_STAT_ACTIVE]

/-- Every field of a PWR page past its header. -/
def pwrFields : List Fld :=
  [Reg.PWR_SEQ_STAT_FAULT_COUNT, Reg.PWR_SEQ_STAT_CLEAR, Reg.PWR_SEQ_STAT_ALERT, Reg.PWR_SEQ_STAT_PD_ORDER,
      Reg.PWR_SEQ_STAT_FAULT_SEEN, Reg.PWR_SEQ_STAT_CAUSE, Reg.PWR_RAIL_STAT_OV, Reg.PWR_RAIL_STAT_UV,
      Reg.PWR_RAIL_STAT_IN_TOL, Reg.PWR_CORE_AVS_AVS_OK, Reg.PWR_CORE_AVS_SET_MV, Reg.PWR_CORE_AVS_TARGET_MV,
      Reg.PWR_CORE_TELEM_I_DA, Reg.PWR_CORE_TELEM_V_MV, Reg.PWR_CORE_ILIM_IWARN]

/-- Every field of a HKA page past its header. -/
def hkaFields : List Fld :=
  [Reg.HKA_CONV_CFG_MODE, Reg.HKA_CONV_CFG_AVG_M1, Reg.HKA_CONV_CFG_DEC_M1, Reg.HKA_CONV_CFG_ORDER,
      Reg.HKA_CONV_CFG_INPUT, Reg.HKA_CONV_CTL_STOP, Reg.HKA_CONV_CTL_GO, Reg.HKA_CONV_DATA_NEW,
      Reg.HKA_CONV_DATA_OVR, Reg.HKA_CONV_DATA_ABORTED, Reg.HKA_CONV_DATA_RECOVERY, Reg.HKA_CONV_DATA_INPUT,
      Reg.HKA_CONV_DATA_CODE, Reg.HKA_CONV_TICK_TICK, Reg.HKA_HKA_STAT_HOST_REFUSED, Reg.HKA_HKA_STAT_CAL_NOMINAL,
      Reg.HKA_HKA_STAT_CAL_VALID, Reg.HKA_HKA_STAT_SEQ_RUN, Reg.HKA_HKA_STAT_CAL_BUSY, Reg.HKA_HKA_STAT_BUSY,
      Reg.HKA_CAL_CTL_DEC_M1, Reg.HKA_CAL_CTL_ORDER, Reg.HKA_CAL_CTL_GO, Reg.HKA_CAL_OFS_OFFSET,
      Reg.HKA_CAL_GAIN_GAIN] ++
  (List.range 12).flatMap (fun i => [Reg.HKA_TEMP_VALID i, Reg.HKA_TEMP_STALE i, Reg.HKA_TEMP_OVR_SKIPPED i,
      Reg.HKA_TEMP_AGE_MS i, Reg.HKA_TEMP_TEMP_C i]) ++
  (List.range 64).flatMap (fun i => [Reg.HKA_LAST_VALID i, Reg.HKA_LAST_OVR i, Reg.HKA_LAST_RECOVERY i,
      Reg.HKA_LAST_CODE i, Reg.HKA_LAST_TICK_LO i])

/-- Every field of a CMP page past its header. -/
def cmpFields : List Fld :=
  [Reg.CMP_OW_CTL_PERIOD, Reg.CMP_OW_CTL_START, Reg.CMP_OW_CTL_MASK, Reg.CMP_OW_STAT_PASS_SEQ, Reg.CMP_OW_STAT_DONE,
      Reg.CMP_OW_STAT_OPEN] ++
  (List.range 16).flatMap (fun i => [Reg.CMP_CMP_CFG_EN i, Reg.CMP_CMP_CFG_OUT_SEL i, Reg.CMP_CMP_CFG_LATCH i,
      Reg.CMP_CMP_CFG_HYST i, Reg.CMP_CMP_CFG_LCLR_RAMP i, Reg.CMP_CMP_CFG_BLANK_SRC i, Reg.CMP_CMP_CFG_BLANK_FCLK
      i, Reg.CMP_CMP_CFG_HI_RAMP_EN i, Reg.CMP_CMP_CFG_HI_RAMP i, Reg.CMP_CMP_CFG_HI_RAMP_SUB i,
      Reg.CMP_CMP_CFG_LO_RAMP_EN i, Reg.CMP_CMP_CFG_LO_RAMP i, Reg.CMP_CMP_CFG_LO_RAMP_SUB i, Reg.CMP_CMP_DAC_HI i,
      Reg.CMP_CMP_DAC_LO i]) ++
  (List.range 8).flatMap (fun i => [Reg.CMP_RAMP_CFG_EN i, Reg.CMP_RAMP_CFG_RESET_SRC i, Reg.CMP_RAMP_CFG_RESET_CMP
      i, Reg.CMP_RAMP_CFG_LIMIT i, Reg.CMP_RAMP_CFG_SLOPE i, Reg.CMP_RAMP_PER_PERIOD i]) ++
  [Reg.CMP_CMP_STAT_OUT, Reg.CMP_CMP_LATCH_LAT, Reg.CMP_CMP_LVL_UNRES_LO, Reg.CMP_CMP_LVL_UNRES_HI,
      Reg.CMP_CMP_LVL_LO_NOW, Reg.CMP_CMP_LVL_HI_NOW, Reg.CMP_DAC_CHK_FAIL]

/-- Every field of a EVA page past its header. -/
def evaFields : List Fld :=
  [Reg.EVA_SUM_GROUP, Reg.EVA_SEV_Q_ID, Reg.EVA_SEV_R_EN, Reg.EVA_SEV_R_PEND, Reg.EVA_SEV_R_RAW, Reg.EVA_SEV_R_SEV] ++
  (List.range 4).flatMap (fun i => [Reg.EVA_VEC_ARM_ARM i]) ++
  (List.range 256).flatMap (fun i => (List.range 4).map (fun j => Reg.EVA_ROUTE_R i j))

/-- Every field of a SEC page past its header. -/
def secFields : List Fld :=
  [Reg.SEC_SEC_STAT_FW_SVN, Reg.SEC_SEC_STAT_ROM_VER, Reg.SEC_SEC_STAT_ID_KEY_OK, Reg.SEC_SEC_STAT_STAGED_OK,
      Reg.SEC_SEC_STAT_RUN_SLOT, Reg.SEC_SEC_STAT_ROOT_FUSED, Reg.SEC_FW_VER_OTHER, Reg.SEC_FW_VER_RUNNING,
      Reg.SEC_SEL_STAT_SEQ, Reg.SEC_SEL_STAT_COPY, Reg.SEC_SEL_STAT_SLOT, Reg.SEC_SEC_CNT_ATTESTS,
      Reg.SEC_SEC_CNT_VERIFY_FAIL] ++
  (List.range 4).flatMap (fun i => [Reg.SEC_ROOT_DIG_WORD i, Reg.SEC_ID_DIG_WORD i])

/-- Every field of a EPO page past its header. -/
def epoFields : List Fld :=
  [Reg.EPO_EPO_LIVE_NUMBER, Reg.EPO_EPO_PRIOR_VALID, Reg.EPO_EPO_PRIOR_FAILED, Reg.EPO_EPO_PRIOR_NUMBER,
      Reg.EPO_EPO_STAGED_VALID, Reg.EPO_EPO_STAGED_LOADING, Reg.EPO_EPO_STAGED_NUMBER, Reg.EPO_EPO_HWM_HWM,
      Reg.EPO_EQX_TICK_TICK, Reg.EPO_EQX_STAT_PENDING, Reg.EPO_EQX_STAT_REVERT, Reg.EPO_EQX_STAT_AUTO,
      Reg.EPO_EQX_STAT_ANNOUNCED, Reg.EPO_EQX_STAT_FROM_DELTAN, Reg.EPO_EQX_STAT_SWITCHING, Reg.EPO_LAST_EQX_TICK,
      Reg.EPO_LAST_DONE_TICK, Reg.EPO_PROB_CFG_PROB_MS, Reg.EPO_PROB_CFG_LEAP_MAX, Reg.EPO_PROB_CFG_LEAP_CAUSES,
      Reg.EPO_PROB_CFG_CRIT, Reg.EPO_PROB_CFG_EN, Reg.EPO_PROB_STAT_REMAIN_MS, Reg.EPO_PROB_STAT_FAIL_CRIT,
      Reg.EPO_PROB_STAT_FAILED, Reg.EPO_PROB_STAT_PASSED, Reg.EPO_PROB_STAT_ACTIVE] ++
  (List.range 4).flatMap (fun i => [Reg.EPO_DIG_LIVE_WORD i, Reg.EPO_DIG_PRIOR_WORD i, Reg.EPO_DIG_STAGED_WORD i])

/-- Every field of a SVC page past its header. -/
def svcFields : List Fld :=
  (List.range 4).flatMap (fun i => [Reg.SVC_RING_BASE_ADDR i, Reg.SVC_RING_CFG_EN i, Reg.SVC_RING_CFG_SIZE i,
      Reg.SVC_CQ_BASE_ADDR i, Reg.SVC_RING_DB_CQ_HEAD i, Reg.SVC_RING_DB_SQ_TAIL i]) ++
  [Reg.SVC_SVC_STAT_UPTIME, Reg.SVC_SVC_STAT_RESTARTS, Reg.SVC_SVC_STAT_RUNNING]

/-- Every field of a VGL page past its header. -/
def vglFields : List Fld :=
  [Reg.VGL_SC_WD_TIMEOUT_MS, Reg.VGL_SC_WD_KICK, Reg.VGL_SC_WD_EN, Reg.VGL_STREAM_WD_TIMEOUT, Reg.VGL_FLOG_WCNT_CNT,
      Reg.VGL_FLOG_IDX_IDX, Reg.VGL_FLOG_DATA0_WORD0, Reg.VGL_FLOG_DATA1_WORD1, Reg.VGL_AV_SEL_CTX,
      Reg.VGL_AV_LOST_TICKS, Reg.VGL_AV_BUDGET_TICKS, Reg.VGL_AV_TOTAL_TICKS, Reg.VGL_AV_OVER_COUNT,
      Reg.VGL_AV_CLR_CLR] ++
  (List.range 16).flatMap (fun i => [Reg.VGL_HC_CFG_EN i, Reg.VGL_HC_CFG_SRC i, Reg.VGL_HC_CFG_ARG i,
      Reg.VGL_HC_CFG_WINDOW_MS i, Reg.VGL_HC_LIM_PROB_LIMIT i, Reg.VGL_HC_LIM_LIMIT i, Reg.VGL_HC_VAL_PEAK i,
      Reg.VGL_HC_VAL_NOW i])

/-- Every field of a LNK page past its header. -/
def lnkFields : List Fld :=
  [Reg.LNK_LINK_CFG_RBD, Reg.LNK_LINK_CFG_LEMC_K_M1, Reg.LNK_LINK_CFG_OFFSET_BIN, Reg.LNK_LINK_CFG_OVR_CB,
      Reg.LNK_LINK_CFG_OVR_CB_EN, Reg.LNK_LINK_CFG_CRC_ACTION, Reg.LNK_LINK_CFG_CHECK, Reg.LNK_LINK_CFG_SUBCLASS,
      Reg.LNK_LINK_CFG_E_M1, Reg.LNK_LINK_CFG_CS, Reg.LNK_LINK_CFG_NP16, Reg.LNK_LINK_CFG_N_M1,
      Reg.LNK_LINK_CFG_S_M1, Reg.LNK_LINK_CFG_M_M1, Reg.LNK_LINK_CFG_L_M1] ++
  (List.range 8).flatMap (fun j => [Reg.LNK_LANE_MAP0_PHYS j, Reg.LNK_LANE_MAP1_PHYS j]) ++
  [Reg.LNK_TS_ADJ_ADJ, Reg.LNK_LINK_WD_WD, Reg.LNK_LINK_STAT_F, Reg.LNK_LINK_STAT_DOWN_CNT, Reg.LNK_LINK_STAT_STATE,
      Reg.LNK_LINK_STAT_NONDET, Reg.LNK_ERR_CNT_CRC_CNT, Reg.LNK_ERR_CNT_FEC_UNC_CNT, Reg.LNK_ERR_CLR_CLR] ++
  (List.range 64).flatMap (fun i => [Reg.LNK_MAP_VALID i, Reg.LNK_MAP_Q i, Reg.LNK_MAP_SLOT i, Reg.LNK_MAP_CONV i,
      Reg.LNK_MAP_SAMP i])

/-- Every field of a LQD page past its header. -/
def lqdFields : List Fld :=
  [Reg.LQD_QUAD_CFG_LANE_EN, Reg.LQD_QUAD_CFG_RATE_KBPS, Reg.LQD_LANE_CTL_POL_INV, Reg.LQD_LANE_CTL_POL_AUTO] ++
  (List.range 8).flatMap (fun i => [Reg.LQD_LANE_STAT_FEC_CORR i, Reg.LQD_LANE_STAT_CRC_ERR i,
      Reg.LQD_LANE_STAT_MARGIN i, Reg.LQD_LANE_STAT_FEC_UNC i, Reg.LQD_LANE_STAT_BUF_ERR i, Reg.LQD_LANE_STAT_LATE
      i, Reg.LQD_LANE_STAT_POL_INV_ACT i, Reg.LQD_LANE_STAT_EMB_LOCK i, Reg.LQD_LANE_STAT_BLOCK_LOCK i,
      Reg.LQD_LANE_STAT_UP i]) ++
  [Reg.LQD_CNT_CLR_CLR]

/-- Every field of a SLT page past its header. -/
def sltFields : List Fld :=
  [Reg.SLT_SLT_CFG_OVR_GAP, Reg.SLT_SLT_CFG_OVR_CODE, Reg.SLT_SLT_CFG_CPLX, Reg.SLT_SLT_CFG_BOND_LOG2,
      Reg.SLT_SMP_PHASE_PHASE, Reg.SLT_SLT_STAT_OVR_CNT, Reg.SLT_SLT_STAT_FIFO_MAX, Reg.SLT_SLT_STAT_SRC_LINK,
      Reg.SLT_SLT_STAT_OVERFLOW, Reg.SLT_SLT_STAT_OVR_NOW, Reg.SLT_SLT_STAT_ACTIVE, Reg.SLT_SLT_CLR_CLR,
      Reg.SLT_SMP_PERIOD_PERIOD]

/-- Every field of a CTX page past its header. -/
def ctxFields : List Fld :=
  [Reg.CTX_SRC_CFG_SLOT, Reg.CTX_VIEW_CFG_OUT_SHIFT, Reg.CTX_VIEW_CFG_DEC_LOG2, Reg.CTX_VIEW_CFG_MODE,
      Reg.CTX_NCO_FTW_FTW, Reg.CTX_NCO_PHASE_PHASE, Reg.CTX_VIEW_STAT_SAT_CNT, Reg.CTX_VIEW_PERIOD_PERIOD,
      Reg.CTX_IC_CFG_T1_WAIT, Reg.CTX_IC_CFG_T1_HOLD, Reg.CTX_IC_CFG_TEMP_DELTA, Reg.CTX_IC_CFG_MIN_LEVEL,
      Reg.CTX_IC_CFG_T1_AT_START, Reg.CTX_IC_CFG_BOUND_AUTO, Reg.CTX_IC_CFG_T0_EN, Reg.CTX_IC_CFG_IC_EN,
      Reg.CTX_IC_BOUND_SKEW_BOUND, Reg.CTX_IC_BOUND_GAIN_BOUND, Reg.CTX_IC_BOUND_OFS_BOUND,
      Reg.CTX_IC_SLEW_SKEW_SLEW, Reg.CTX_IC_SLEW_GAIN_SLEW, Reg.CTX_IC_SLEW_OFS_SLEW] ++
  (List.range 16).flatMap (fun i => [Reg.CTX_IC_INIT_GAIN i, Reg.CTX_IC_INIT_SKEW i, Reg.CTX_IC_INIT_OFFSET i]) ++
  [Reg.CTX_IC_STAT_RUNS, Reg.CTX_IC_STAT_REJECTS, Reg.CTX_IC_STAT_ABANDONS, Reg.CTX_IC_STAT_STATE,
      Reg.CTX_IC_STAT_LAST_RESULT, Reg.CTX_IC_STAT_LAST_CAUSE, Reg.CTX_IC_STAT_T0_FROZEN, Reg.CTX_IC_STAT_BOUND_HIT,
      Reg.CTX_IC_STAT_FORCED, Reg.CTX_IC_STAT_PENDING, Reg.CTX_IC_TEMP_REF_TEMP, Reg.CTX_IC_TEMP_NOW_TEMP,
      Reg.CTX_IC_LAST_DIFF_GAIN_DIFF, Reg.CTX_IC_LAST_DIFF_SKEW_DIFF, Reg.CTX_IC_LAST_DIFF_OFS_DIFF,
      Reg.CTX_IC_LAST_DIFF_WORST, Reg.CTX_XF_CFG_PIPE_M1, Reg.CTX_XF_CFG_HDR, Reg.CTX_XF_CFG_PWR_FMT,
      Reg.CTX_XF_CFG_KIND, Reg.CTX_XF_CFG_HOP_LOG2, Reg.CTX_XF_CFG_NLOG2] ++
  (List.range 8).flatMap (fun j => [Reg.CTX_XF_PIPES0_PIPE j, Reg.CTX_XF_PIPES1_PIPE j]) ++
  [Reg.CTX_XF_WIN_SYM, Reg.CTX_XF_WIN_BASE, Reg.CTX_XF_SCALE_GAIN_DB, Reg.CTX_XF_SCALE_DB_OFFSET] ++
  (List.range 4).flatMap (fun i => [Reg.CTX_TRC_CFG_EN i, Reg.CTX_TRC_CFG_STORE i, Reg.CTX_TRC_CFG_FMT i,
      Reg.CTX_TRC_CFG_AVG i, Reg.CTX_TRC_CFG_AVG_LOG2 i, Reg.CTX_TRC_CFG_DET i, Reg.CTX_TRC_CFG_TLOG2 i,
      Reg.CTX_TRC_CFG_BLOG2 i, Reg.CTX_TRC_CFG_BIN_START i]) ++
  [Reg.CTX_XF_STAT_DROPS, Reg.CTX_XF_STAT_LAST_EXP, Reg.CTX_XF_FRAMES_FRAMES, Reg.CTX_TRG_CFG_MODE,
      Reg.CTX_TRG_CFG_UNIT_EN, Reg.CTX_TRG_CFG_UNIT, Reg.CTX_TRG_CFG_STOP_MASK, Reg.CTX_TRG_HOLD_HOLD] ++
  (List.range 2).flatMap (fun i => [Reg.CTX_MASK_CFG_EN i, Reg.CTX_MASK_CFG_SENSE i, Reg.CTX_MASK_CFG_TRC i,
      Reg.CTX_MASK_CFG_MIN_PTS i, Reg.CTX_MASK_CFG_NSEG_M1 i, Reg.CTX_MASK_CFG_BASE i, Reg.CTX_LVL_CFG_EN i,
      Reg.CTX_LVL_CFG_TAP i, Reg.CTX_LVL_CFG_SEL i, Reg.CTX_LVL_CFG_MODE i, Reg.CTX_LVL_CFG_HYST i,
      Reg.CTX_LVL_CFG_THRESH i]) ++
  [Reg.CTX_MASK_STAT_VIOL_TRACES, Reg.CTX_MASK_STAT_VIOL, Reg.CTX_CAP_CFG_MODE, Reg.CTX_CAP_CFG_POLICY,
      Reg.CTX_CAP_CFG_RAW_EN, Reg.CTX_CAP_CFG_AUTO_ARM, Reg.CTX_SPEC_CFG_SPEC_EN, Reg.CTX_CAP_EVE_EVE,
      Reg.CTX_CAP_POST_POST, Reg.CTX_RAW_BASE_ADDR, Reg.CTX_RAW_SIZE_GRAN, Reg.CTX_SPEC_BASE_ADDR,
      Reg.CTX_SPEC_SIZE_GRAN, Reg.CTX_ALM_BASE_ADDR, Reg.CTX_ALM_SIZE_GRAN, Reg.CTX_CAP_CTL_RELEASE,
      Reg.CTX_CAP_CTL_DISARM, Reg.CTX_CAP_CTL_ARM, Reg.CTX_CAP_STAT_CAP_SEQ, Reg.CTX_CAP_STAT_ARM_ERR,
      Reg.CTX_CAP_STAT_STATE, Reg.CTX_CAP_START_RAW_W, Reg.CTX_SPEC_START_SPEC_W, Reg.CTX_RAW_WCNT_CNT,
      Reg.CTX_SPEC_WCNT_CNT, Reg.CTX_ALM_WCNT_CNT, Reg.CTX_ACCT_DELIV_CNT, Reg.CTX_ACCT_LEAP_CNT,
      Reg.CTX_ACCT_SDELIV_CNT, Reg.CTX_ACCT_SLEAP_CNT, Reg.CTX_ACCT_TICK_TICK, Reg.CTX_REC_BIND_EN,
      Reg.CTX_REC_BIND_CONTENT, Reg.CTX_REC_BIND_HANDLE, Reg.CTX_STR_BIND_EN, Reg.CTX_STR_BIND_CONTENT,
      Reg.CTX_STR_BIND_SLOT, Reg.CTX_DRN_RAW_BASE_ADDR, Reg.CTX_DRN_RAW_SIZE_GRAN, Reg.CTX_DRN_SPEC_BASE_ADDR] ++
  [Reg.CTX_DRN_SPEC_SIZE_GRAN, Reg.CTX_DRN_REC_RD_CNT, Reg.CTX_DRN_STR_RD_CNT] ++
  (List.range 16).flatMap (fun i => [Reg.CTX_IC_ACT_GAIN i, Reg.CTX_IC_ACT_SKEW i, Reg.CTX_IC_ACT_OFFSET i])

end Sys2Proof.Machine
end

