-- ==== Sys2Proof/Machine/RegMapB.lean ====
section
/-!
DEFINITION. The register fields of BAR0 (pages XFP to FAB of the page map): one named constant per field of the
    register
tables of spec/ (offset within the page, top bit, bottom bit, access type, reset value, and whether
the field is writable while the LIVE epoch uses the page). A register that the spec gives as an array
takes its index i; a field that the spec packs several times into one word takes its position j.
-/
namespace Sys2Proof.Machine

namespace Reg

/-! XFP fields of R232 (08_transform.md). -/
def XFP_XFP_STAT_DROP_CNT : Fld := ⟨0x100, 63, 32, .ro, 0, true⟩
def XFP_XFP_STAT_NCTX : Fld := ⟨0x100, 31, 24, .ro, 0, true⟩
def XFP_XFP_STAT_WIN_CORR : Fld := ⟨0x100, 23, 16, .ro, 0, true⟩
def XFP_XFP_STAT_WIN_UNC : Fld := ⟨0x100, 0, 0, .w1c, 0, true⟩
def XFP_XFP_LOAD_PEAK_LOAD : Fld := ⟨0x108, 47, 32, .ro, 0, true⟩
def XFP_XFP_LOAD_LOAD : Fld := ⟨0x108, 15, 0, .ro, 0, true⟩
def XFP_XFP_CLR_CLR : Fld := ⟨0x110, 0, 0, .wo, 0, true⟩
def XFP_WIN_RD_ADDR : Fld := ⟨0x118, 15, 0, .rw, 0, true⟩
def XFP_WIN_RD_DATA_UNC : Fld := ⟨0x120, 32, 32, .ro, 0, true⟩
def XFP_WIN_RD_DATA_COEF : Fld := ⟨0x120, 31, 0, .ro, 0, true⟩
def XFP_ASSIGN_VALID (i : Nat) : Fld := ⟨0x200 + 8 * i, 63, 63, .ro, 0, true⟩
def XFP_ASSIGN_POS (i : Nat) : Fld := ⟨0x200 + 8 * i, 43, 40, .ro, 0, true⟩
def XFP_ASSIGN_CTX (i : Nat) : Fld := ⟨0x200 + 8 * i, 9, 0, .ro, 0, true⟩

/-! DEN fields of R263 (09_density.md). -/
def DEN_DEN_CFG_BIND : Fld := ⟨0x100, 63, 63, .rw, 0, false⟩
def DEN_DEN_CFG_GANG : Fld := ⟨0x100, 62, 62, .rw, 0, false⟩
def DEN_DEN_CFG_CTX : Fld := ⟨0x100, 57, 48, .rw, 0, false⟩
def DEN_DEN_CFG_TRC : Fld := ⟨0x100, 47, 46, .rw, 0, false⟩
def DEN_DEN_CFG_CLAMP : Fld := ⟨0x100, 45, 45, .rw, 0, false⟩
def DEN_DEN_CFG_ROW_LOG2 : Fld := ⟨0x100, 39, 36, .rw, 6, false⟩
def DEN_DEN_CFG_CDEC_LOG2 : Fld := ⟨0x100, 35, 32, .rw, 0, false⟩
def DEN_DEN_CFG_FLOOR_DB : Fld := ⟨0x100, 15, 0, .rw, 0x8000, false⟩
def DEN_DECAY_CFG_MODE : Fld := ⟨0x108, 63, 62, .rw, 0, false⟩
def DEN_DECAY_CFG_D : Fld := ⟨0x108, 51, 48, .rw, 4, false⟩
def DEN_DECAY_CFG_SUB : Fld := ⟨0x108, 47, 32, .rw, 1, false⟩
def DEN_DECAY_CFG_PERIOD : Fld := ⟨0x108, 31, 0, .rw, 0x10000, false⟩
def DEN_DEN_CTL_CLEAR : Fld := ⟨0x110, 0, 0, .wo, 0, false⟩
def DEN_DEN_STAT_TRACES : Fld := ⟨0x118, 63, 32, .ro, 0, false⟩
def DEN_DEN_STAT_SKIPS : Fld := ⟨0x118, 31, 16, .ro, 0, false⟩
def DEN_DEN_STAT_DECAY_MISS : Fld := ⟨0x118, 15, 8, .ro, 0, false⟩
def DEN_DEN_STAT_SAT_SEEN : Fld := ⟨0x118, 1, 1, .ro, 0, false⟩
def DEN_DEN_STAT_ACTIVE : Fld := ⟨0x118, 0, 0, .ro, 0, false⟩
def DEN_DEN_CNT_SAT_INC : Fld := ⟨0x120, 63, 32, .ro, 0, false⟩
def DEN_DEN_CNT_UNC : Fld := ⟨0x120, 31, 16, .ro, 0, false⟩
def DEN_DEN_CLR_CLR : Fld := ⟨0x128, 0, 0, .wo, 0, false⟩
def DEN_RGN_BOX_COL_HI (i : Nat) : Fld := ⟨0x140 + 16 * i, 59, 48, .rw, 0, false⟩
def DEN_RGN_BOX_COL_LO (i : Nat) : Fld := ⟨0x140 + 16 * i, 43, 32, .rw, 0, false⟩
def DEN_RGN_BOX_ROW_HI (i : Nat) : Fld := ⟨0x140 + 16 * i, 25, 16, .rw, 0, false⟩
def DEN_RGN_BOX_ROW_LO (i : Nat) : Fld := ⟨0x140 + 16 * i, 9, 0, .rw, 0, false⟩
def DEN_RGN_TRIG_EN (i : Nat) : Fld := ⟨0x148 + 16 * i, 63, 63, .rw, 0, false⟩
def DEN_RGN_TRIG_MODE (i : Nat) : Fld := ⟨0x148 + 16 * i, 62, 62, .rw, 0, false⟩
def DEN_RGN_TRIG_THRESH (i : Nat) : Fld := ⟨0x148 + 16 * i, 15, 0, .rw, 1, true⟩

/-! TMP fields of R264 (09_density.md). -/
def TMP_PAL_RD_ADDR : Fld := ⟨0x100, 11, 0, .rw, 0, true⟩
def TMP_PAL_RD_DATA_CB : Fld := ⟨0x108, 25, 16, .ro, 0, false⟩
def TMP_PAL_RD_DATA_CR : Fld := ⟨0x108, 9, 0, .ro, 0, false⟩
def TMP_TMP_STAT_FLIPS : Fld := ⟨0x110, 63, 32, .ro, 0, false⟩
def TMP_TMP_STAT_MISSED : Fld := ⟨0x110, 31, 16, .ro, 0, false⟩
def TMP_TMP_STAT_DEFERS : Fld := ⟨0x110, 15, 0, .ro, 0, false⟩
def TMP_JOB_CFG_EN (i : Nat) : Fld := ⟨0x200 + 64 * i, 63, 63, .rw, 0, false⟩
def TMP_JOB_CFG_KIND (i : Nat) : Fld := ⟨0x200 + 64 * i, 59, 58, .rw, 0, false⟩
def TMP_JOB_CFG_SYNC (i : Nat) : Fld := ⟨0x200 + 64 * i, 57, 56, .rw, 0, false⟩
def TMP_JOB_CFG_PAL (i : Nat) : Fld := ⟨0x200 + 64 * i, 55, 54, .rw, 0, false⟩
def TMP_JOB_CFG_PLANAR (i : Nat) : Fld := ⟨0x200 + 64 * i, 53, 53, .rw, 0, false⟩
def TMP_JOB_CFG_HREP (i : Nat) : Fld := ⟨0x200 + 64 * i, 51, 48, .rw, 0, false⟩
def TMP_JOB_CFG_VREP (i : Nat) : Fld := ⟨0x200 + 64 * i, 47, 46, .rw, 0, false⟩
def TMP_JOB_CFG_TRC_MODE (i : Nat) : Fld := ⟨0x200 + 64 * i, 41, 40, .rw, 0, false⟩
def TMP_JOB_SRC_ROW_LOG2 (i : Nat) : Fld := ⟨0x208 + 64 * i, 43, 40, .rw, 6, false⟩
def TMP_JOB_SRC_CDEC_LOG2 (i : Nat) : Fld := ⟨0x208 + 64 * i, 39, 36, .rw, 0, false⟩
def TMP_JOB_SRC_DEN_SEL (i : Nat) : Fld := ⟨0x208 + 64 * i, 35, 32, .rw, 0, false⟩
def TMP_JOB_SRC_TRC (i : Nat) : Fld := ⟨0x208 + 64 * i, 31, 30, .rw, 0, false⟩
def TMP_JOB_SRC_CTX (i : Nat) : Fld := ⟨0x208 + 64 * i, 25, 16, .rw, 0, false⟩
def TMP_JOB_SRC_FLOOR_DB (i : Nat) : Fld := ⟨0x208 + 64 * i, 15, 0, .rw, 0x8000, false⟩
def TMP_JOB_PERIOD_PERIOD (i : Nat) : Fld := ⟨0x210 + 64 * i, 31, 0, .rw, 0x196e6ab, false⟩
def TMP_JOB_YMAP_Y_ZERO (i : Nat) : Fld := ⟨0x218 + 64 * i, 57, 48, .rw, 0, false⟩
def TMP_JOB_YMAP_Y_OFS (i : Nat) : Fld := ⟨0x218 + 64 * i, 41, 32, .rw, 0x40, false⟩
def TMP_JOB_YMAP_Y_SLOPE (i : Nat) : Fld := ⟨0x218 + 64 * i, 15, 0, .rw, 0x3bf, false⟩
def TMP_JOB_BUF0_ADDR (i : Nat) : Fld := ⟨0x220 + 64 * i, 63, 0, .rw, 0, false⟩
def TMP_JOB_BUF1_ADDR (i : Nat) : Fld := ⟨0x228 + 64 * i, 63, 0, .rw, 0, false⟩
def TMP_JOB_GEOM_H (i : Nat) : Fld := ⟨0x230 + 64 * i, 47, 32, .rw, 0x200, false⟩
def TMP_JOB_GEOM_PITCH (i : Nat) : Fld := ⟨0x230 + 64 * i, 15, 0, .rw, 0x1000, false⟩
def TMP_JOB_STAT_GEN (i : Nat) : Fld := ⟨0x238 + 64 * i, 63, 32, .ro, 0, false⟩
def TMP_JOB_STAT_MISSED (i : Nat) : Fld := ⟨0x238 + 64 * i, 31, 24, .ro, 0, false⟩
def TMP_JOB_STAT_DEFERS (i : Nat) : Fld := ⟨0x238 + 64 * i, 23, 16, .ro, 0, false⟩
def TMP_JOB_STAT_VALID (i : Nat) : Fld := ⟨0x238 + 64 * i, 2, 2, .ro, 0, false⟩
def TMP_JOB_STAT_BUSY (i : Nat) : Fld := ⟨0x238 + 64 * i, 1, 1, .ro, 0, false⟩
def TMP_JOB_STAT_CUR (i : Nat) : Fld := ⟨0x238 + 64 * i, 0, 0, .ro, 0, false⟩

/-! TRU fields of R294 (10_trigger.md). -/
def TRU_TRU_CFG_EN : Fld := ⟨0x100, 63, 63, .rw, 0, false⟩
def TRU_TRU_CFG_SEQ_EN : Fld := ⟨0x100, 62, 62, .rw, 0, false⟩
def TRU_TRU_CFG_HOLD_MODE : Fld := ⟨0x100, 61, 61, .rw, 0, false⟩
def TRU_TRU_CFG_HOME_EN : Fld := ⟨0x100, 60, 60, .rw, 0, false⟩
def TRU_TRU_CFG_HOME_CTX : Fld := ⟨0x100, 41, 32, .rw, 0, false⟩
def TRU_TRU_CFG_STRETCH : Fld := ⟨0x100, 7, 0, .rw, 0, false⟩
def TRU_IN_SEL0_IN (j : Nat) : Fld := ⟨0x108, 16 * j + 15, 16 * j, .rw, 0x1fff, false⟩
def TRU_IN_SEL1_IN (j : Nat) : Fld := ⟨0x110, 16 * j + 15, 16 * j, .rw, 0x1fff, false⟩
def TRU_TT_TT (i : Nat) : Fld := ⟨0x118 + 8 * i, 63, 0, .rw, 0, false⟩
def TRU_SEQ_CFG_A_SEL : Fld := ⟨0x138, 63, 48, .rw, 0x1fff, false⟩
def TRU_SEQ_CFG_WINDOW : Fld := ⟨0x138, 31, 0, .rw, 0, false⟩
def TRU_CNT_CFG_COUNT_WIN : Fld := ⟨0x140, 63, 32, .rw, 0, false⟩
def TRU_CNT_CFG_COUNT_M1 : Fld := ⟨0x140, 15, 0, .rw, 0, false⟩
def TRU_HOLD_HOLD : Fld := ⟨0x148, 47, 0, .rw, 0, false⟩
def TRU_TRU_STAT_FIRE_CNT : Fld := ⟨0x150, 63, 32, .ro, 0, false⟩
def TRU_TRU_STAT_SUSPECT_CNT : Fld := ⟨0x150, 31, 16, .ro, 0, false⟩
def TRU_TRU_STAT_HOLDING : Fld := ⟨0x150, 3, 3, .ro, 0, false⟩
def TRU_TRU_STAT_PRIMED : Fld := ⟨0x150, 2, 2, .ro, 0, false⟩
def TRU_TRU_STAT_C : Fld := ⟨0x150, 1, 1, .ro, 0, false⟩
def TRU_TRU_STAT_ACTIVE : Fld := ⟨0x150, 0, 0, .ro, 0, false⟩
def TRU_TRU_CNT_HOLD_IGN : Fld := ⟨0x158, 63, 32, .ro, 0, false⟩
def TRU_TRU_CNT_CNT_NOW : Fld := ⟨0x158, 16, 0, .ro, 0, false⟩
def TRU_LAST_FIRE_TICK : Fld := ⟨0x160, 63, 0, .ro, 0, false⟩
def TRU_LAST_INFO_SRC : Fld := ⟨0x168, 28, 16, .ro, 0, false⟩
def TRU_LAST_INFO_FORCED : Fld := ⟨0x168, 5, 5, .ro, 0, false⟩
def TRU_LAST_INFO_SUSPECT : Fld := ⟨0x168, 4, 4, .ro, 0, false⟩
def TRU_LAST_INFO_SUB : Fld := ⟨0x168, 3, 0, .ro, 0, false⟩
def TRU_TRU_CTL_CLR : Fld := ⟨0x170, 2, 2, .wo, 0, false⟩
def TRU_TRU_CTL_FORCE : Fld := ⟨0x170, 1, 1, .wo, 0, false⟩
def TRU_TRU_CTL_RESET_STATE : Fld := ⟨0x170, 0, 0, .wo, 0, false⟩

/-! ACQ fields of R321 (11_acquisition.md). -/
def ACQ_BUF_STAT_PEAK : Fld := ⟨0x100, 47, 32, .ro, 0, true⟩
def ACQ_BUF_STAT_NOW : Fld := ⟨0x100, 15, 0, .ro, 0, true⟩
def ACQ_SNAP_CTL_TAKE : Fld := ⟨0x108, 16, 16, .w1s, 0, true⟩
def ACQ_SNAP_CTL_CTX : Fld := ⟨0x108, 9, 0, .rw, 0, true⟩
def ACQ_SNAP_STAT_DONE : Fld := ⟨0x110, 63, 63, .ro, 0, true⟩
def ACQ_SNAP_STAT_OPEN : Fld := ⟨0x110, 62, 62, .ro, 0, true⟩
def ACQ_REC_STAT_DROPPED : Fld := ⟨0x118, 63, 32, .ro, 0, true⟩
def ACQ_REC_STAT_PEAK : Fld := ⟨0x118, 15, 0, .ro, 0, true⟩
def ACQ_ACQ_CLR_CLR : Fld := ⟨0x120, 0, 0, .wo, 0, true⟩
def ACQ_CEND_MAP_CTX (i : Nat) : Fld := ⟨0x200 + 8 * i, 63, 0, .w1c, 0, true⟩
def ACQ_ARM_MAP_CTX (i : Nat) : Fld := ⟨0x280 + 8 * i, 63, 0, .w1c, 0, true⟩
def ACQ_MSTOP_MAP_CTX (i : Nat) : Fld := ⟨0x300 + 8 * i, 63, 0, .w1c, 0, true⟩
def ACQ_CAL_MAP_CTX (i : Nat) : Fld := ⟨0x380 + 8 * i, 63, 0, .w1c, 0, true⟩

/-! TRN fields of R295 (10_trigger.md). -/
def TRN_TIN_CFG_FILTER (i : Nat) : Fld := ⟨0x100 + 8 * i, 15, 8, .rw, 0, false⟩
def TRN_TIN_CFG_INV (i : Nat) : Fld := ⟨0x100 + 8 * i, 1, 1, .rw, 0, false⟩
def TRN_TIN_CFG_EN (i : Nat) : Fld := ⟨0x100 + 8 * i, 0, 0, .rw, 0, false⟩
def TRN_TOUT_CFG_EN (i : Nat) : Fld := ⟨0x120 + 8 * i, 63, 63, .rw, 0, false⟩
def TRN_TOUT_CFG_MODE (i : Nat) : Fld := ⟨0x120 + 8 * i, 62, 62, .rw, 0, false⟩
def TRN_TOUT_CFG_INV (i : Nat) : Fld := ⟨0x120 + 8 * i, 61, 61, .rw, 0, false⟩
def TRN_TOUT_CFG_SRC (i : Nat) : Fld := ⟨0x120 + 8 * i, 44, 32, .rw, 0x1fff, false⟩
def TRN_TOUT_CFG_WIDTH (i : Nat) : Fld := ⟨0x120 + 8 * i, 15, 0, .rw, 0x10, false⟩
def TRN_POUT_CFG_EN (i : Nat) : Fld := ⟨0x160 + 8 * i, 63, 63, .rw, 0, false⟩
def TRN_POUT_CFG_LATCH (i : Nat) : Fld := ⟨0x160 + 8 * i, 62, 62, .rw, 0, false⟩
def TRN_POUT_CFG_SRC (i : Nat) : Fld := ⟨0x160 + 8 * i, 44, 32, .rw, 0x1fff, false⟩
def TRN_DLT_SRC_EN (i : Nat) : Fld := ⟨0x1a0 + 8 * i, 63, 63, .rw, 0, false⟩
def TRN_DLT_SRC_SRC (i : Nat) : Fld := ⟨0x1a0 + 8 * i, 44, 32, .rw, 0x1fff, false⟩
def TRN_DLT_SRC_WIDTH (i : Nat) : Fld := ⟨0x1a0 + 8 * i, 15, 0, .rw, 0x10, false⟩
def TRN_SCHED_TICK_TICK (i : Nat) : Fld := ⟨0x200 + 16 * i, 63, 0, .rw, 0, true⟩
def TRN_SCHED_CFG_ARM (i : Nat) : Fld := ⟨0x208 + 16 * i, 63, 63, .rw, 0, true⟩
def TRN_SCHED_CFG_LATE (i : Nat) : Fld := ⟨0x208 + 16 * i, 62, 62, .w1c, 0, false⟩
def TRN_SCHED_CFG_PERIOD (i : Nat) : Fld := ⟨0x208 + 16 * i, 47, 0, .rw, 0, true⟩
def TRN_REC_CFG_COINC_WAIT : Fld := ⟨0x300, 15, 0, .rw, 0x40, false⟩
def TRN_TRN_STAT_PAR_CNT : Fld := ⟨0x308, 63, 32, .ro, 0, false⟩
def TRN_TRN_STAT_REC_LOST : Fld := ⟨0x308, 31, 16, .ro, 0, false⟩
def TRN_TRN_STAT_TIN_GLITCH : Fld := ⟨0x308, 15, 8, .ro, 0, false⟩
def TRN_TRN_STAT_MASK_CORR : Fld := ⟨0x308, 7, 0, .ro, 0, false⟩
def TRN_POUT_CLR_CLR : Fld := ⟨0x310, 7, 0, .wo, 0, false⟩
def TRN_TRN_CLR_CLR : Fld := ⟨0x318, 0, 0, .wo, 0, false⟩
def TRN_MASK_RD_PIPE : Fld := ⟨0x320, 21, 16, .rw, 0, true⟩
def TRN_MASK_RD_ADDR : Fld := ⟨0x320, 13, 0, .rw, 0, true⟩
def TRN_MASK_RD_DATA_SEG : Fld := ⟨0x328, 63, 0, .ro, 0, false⟩

/-! SCR fields of R462 (16_signal_cores.md). -/
def SCR_SCR_CTL_STEP : Fld := ⟨0x100, 2, 2, .w1s, 0, false⟩
def SCR_SCR_CTL_RESUME : Fld := ⟨0x100, 1, 1, .w1s, 0, false⟩
def SCR_SCR_CTL_HALT : Fld := ⟨0x100, 0, 0, .w1s, 0, false⟩
def SCR_SCR_STAT_HALT_CAUSE : Fld := ⟨0x108, 63, 48, .ro, 0, false⟩
def SCR_SCR_STAT_IN_HANDLER : Fld := ⟨0x108, 37, 37, .ro, 0, false⟩
def SCR_SCR_STAT_IE : Fld := ⟨0x108, 36, 36, .ro, 0, false⟩
def SCR_SCR_STAT_LSP : Fld := ⟨0x108, 34, 32, .ro, 0, false⟩
def SCR_SCR_STAT_PC : Fld := ⟨0x108, 28, 16, .ro, 0, false⟩
def SCR_SCR_STAT_ACT_BANK : Fld := ⟨0x108, 4, 4, .ro, 0, false⟩
def SCR_SCR_STAT_STATE : Fld := ⟨0x108, 3, 0, .ro, 0, false⟩
def SCR_SCR_CFG_EN : Fld := ⟨0x110, 63, 63, .rw, 0, false⟩
def SCR_SCR_CFG_ENTRY : Fld := ⟨0x110, 12, 0, .rw, 0, false⟩
def SCR_EXC_LOG_COUNT : Fld := ⟨0x118, 63, 48, .ro, 0, false⟩
def SCR_EXC_LOG_VALID : Fld := ⟨0x118, 31, 31, .w1c, 0, false⟩
def SCR_EXC_LOG_ADDR : Fld := ⟨0x118, 28, 16, .ro, 0, false⟩
def SCR_EXC_LOG_CAUSE : Fld := ⟨0x118, 7, 0, .ro, 0, false⟩
def SCR_MBX_IN_DATA : Fld := ⟨0x120, 63, 0, .rw, 0, true⟩
def SCR_MBX_OUT_DATA : Fld := ⟨0x128, 63, 0, .ro, 0, false⟩
def SCR_NOTE_DATA : Fld := ⟨0x130, 63, 0, .ro, 0, false⟩
def SCR_USR_STAT_USER_SENT : Fld := ⟨0x138, 63, 32, .ro, 0, false⟩
def SCR_USR_STAT_USER_DROP : Fld := ⟨0x138, 31, 24, .ro, 0, false⟩
def SCR_USR_STAT_USER_BADCTX : Fld := ⟨0x138, 23, 16, .ro, 0, false⟩
def SCR_USR_STAT_TRIG_CNT : Fld := ⟨0x138, 15, 0, .ro, 0, false⟩
def SCR_SCR_CNT_BUNDLES : Fld := ⟨0x140, 63, 32, .ro, 0, false⟩
def SCR_SCR_CNT_STALLS : Fld := ⟨0x140, 31, 16, .ro, 0, false⟩
def SCR_SCR_CNT_OWN_REFUSED : Fld := ⟨0x140, 15, 8, .ro, 0, false⟩
def SCR_SCR_CNT_EVQ_LOST : Fld := ⟨0x140, 7, 0, .ro, 0, false⟩
def SCR_ECC_CNT_P_CORR : Fld := ⟨0x148, 63, 48, .ro, 0, false⟩
def SCR_ECC_CNT_X_CORR : Fld := ⟨0x148, 47, 32, .ro, 0, false⟩
def SCR_ECC_CNT_Y_CORR : Fld := ⟨0x148, 31, 16, .ro, 0, false⟩
def SCR_DBG_ADDR_SPACE : Fld := ⟨0x150, 63, 60, .rw, 0, true⟩
def SCR_DBG_ADDR_ADDR : Fld := ⟨0x150, 17, 0, .rw, 0, true⟩
def SCR_DBG_DATA_DATA : Fld := ⟨0x158, 63, 0, .rw, 0, true⟩
def SCR_SCR_CLR_CLR : Fld := ⟨0x160, 0, 0, .wo, 0, false⟩

/-! BNK fields of R439 (15_banks.md). -/
def BNK_BNK_OWN_OWN_ERR : Fld := ⟨0x100, 32, 32, .ro, 0, true⟩
def BNK_BNK_OWN_BUSY : Fld := ⟨0x100, 31, 31, .ro, 0, true⟩
def BNK_BNK_OWN_B_AGENT_ACT : Fld := ⟨0x100, 30, 24, .ro, 0x7f, true⟩
def BNK_BNK_OWN_B_AGENT : Fld := ⟨0x100, 22, 16, .rw, 0x7f, true⟩
def BNK_BNK_OWN_OWNER_ACT : Fld := ⟨0x100, 14, 8, .ro, 0x7f, true⟩
def BNK_BNK_OWN_OWNER : Fld := ⟨0x100, 6, 0, .rw, 0x7f, true⟩
def BNK_BNK_STAT_STARVE_CNT : Fld := ⟨0x108, 63, 32, .ro, 0, true⟩
def BNK_BNK_STAT_STARVE_MAX : Fld := ⟨0x108, 31, 16, .ro, 0, true⟩
def BNK_BNK_STAT_COLL_CNT : Fld := ⟨0x108, 15, 8, .ro, 0, true⟩
def BNK_BNK_STAT_COLL : Fld := ⟨0x108, 2, 2, .w1c, 0, true⟩
def BNK_BNK_STAT_STARVE : Fld := ⟨0x108, 1, 1, .w1c, 0, true⟩
def BNK_BNK_STAT_CLEARING : Fld := ⟨0x108, 0, 0, .ro, 0, true⟩
def BNK_BNK_CFG_STARVE_LIMIT : Fld := ⟨0x110, 15, 0, .rw, 0x400, true⟩
def BNK_BNK_ERR_VALID : Fld := ⟨0x118, 63, 63, .w1c, 0, true⟩
def BNK_BNK_ERR_PORT : Fld := ⟨0x118, 62, 62, .ro, 0, true⟩
def BNK_BNK_ERR_WRITE : Fld := ⟨0x118, 61, 61, .ro, 0, true⟩
def BNK_BNK_ERR_REQ : Fld := ⟨0x118, 54, 48, .ro, 0, true⟩
def BNK_BNK_ERR_COUNT : Fld := ⟨0x118, 47, 32, .ro, 0, true⟩
def BNK_BNK_ERR_WORD : Fld := ⟨0x118, 16, 0, .ro, 0, true⟩
def BNK_DEP_CFG_EN : Fld := ⟨0x120, 63, 63, .rw, 0, false⟩
def BNK_DEP_CFG_WHAT : Fld := ⟨0x120, 62, 61, .rw, 0, false⟩
def BNK_DEP_CFG_EVERY_LOG2 : Fld := ⟨0x120, 55, 52, .rw, 0, false⟩
def BNK_DEP_CFG_CTX : Fld := ⟨0x120, 49, 40, .rw, 0, false⟩
def BNK_DEP_RING_LEN : Fld := ⟨0x128, 49, 32, .rw, 0, false⟩
def BNK_DEP_RING_BASE : Fld := ⟨0x128, 16, 0, .rw, 0, false⟩
def BNK_DEP_STAT_WCNT : Fld := ⟨0x130, 63, 32, .ro, 0, true⟩
def BNK_DEP_STAT_DROPS : Fld := ⟨0x130, 31, 0, .ro, 0, true⟩
def BNK_SPILL_CTL_GO : Fld := ⟨0x138, 63, 63, .w1s, 0, true⟩
def BNK_SPILL_CTL_UNIT : Fld := ⟨0x138, 59, 56, .rw, 0, true⟩
def BNK_SPILL_CTL_NROWS_M1 : Fld := ⟨0x138, 41, 32, .rw, 0, true⟩
def BNK_SPILL_CTL_ROW0 : Fld := ⟨0x138, 29, 20, .rw, 0, true⟩
def BNK_SPILL_CTL_DST : Fld := ⟨0x138, 16, 0, .rw, 0, true⟩
def BNK_BNK_CLR_CLR : Fld := ⟨0x140, 0, 0, .wo, 0, true⟩

/-! DMA fields of R440 (15_banks.md). -/
def DMA_DMA_SRC_BANK_SEL : Fld := ⟨0x100, 63, 63, .rw, 0, true⟩
def DMA_DMA_SRC_BANK : Fld := ⟨0x100, 53, 48, .rw, 0, true⟩
def DMA_DMA_SRC_ADDR : Fld := ⟨0x100, 37, 0, .rw, 0, true⟩
def DMA_DMA_DST_BANK_SEL : Fld := ⟨0x108, 63, 63, .rw, 0, true⟩
def DMA_DMA_DST_BANK : Fld := ⟨0x108, 53, 48, .rw, 0, true⟩
def DMA_DMA_DST_ADDR : Fld := ⟨0x108, 37, 0, .rw, 0, true⟩
def DMA_DMA_LEN_WORDS : Fld := ⟨0x110, 17, 0, .rw, 1, true⟩
def DMA_DMA_CTL_ABORT : Fld := ⟨0x118, 1, 1, .w1s, 0, true⟩
def DMA_DMA_CTL_GO : Fld := ⟨0x118, 0, 0, .w1s, 0, true⟩
def DMA_DMA_STAT_COLL_CNT : Fld := ⟨0x120, 63, 32, .ro, 0, true⟩
def DMA_DMA_STAT_STATUS : Fld := ⟨0x120, 31, 28, .ro, 0, true⟩
def DMA_DMA_STAT_COLLISION : Fld := ⟨0x120, 27, 27, .ro, 0, true⟩
def DMA_DMA_STAT_DONE : Fld := ⟨0x120, 26, 26, .ro, 0, true⟩
def DMA_DMA_STAT_COLL_IDX : Fld := ⟨0x120, 16, 0, .ro, 0, true⟩
def DMA_DMA_XFER_TRANSFERS : Fld := ⟨0x128, 63, 32, .ro, 0, true⟩
def DMA_DMA_XFER_WORDS_DONE : Fld := ⟨0x128, 17, 0, .ro, 0, true⟩

/-! MCH fields of R422 (14_memory.md). -/
def MCH_MCH_STAT_RANK_OOS : Fld := ⟨0x100, 27, 24, .ro, 0, true⟩
def MCH_MCH_STAT_POSTPONED : Fld := ⟨0x100, 19, 16, .ro, 0, true⟩
def MCH_MCH_STAT_MIGRATING : Fld := ⟨0x100, 5, 5, .ro, 0, true⟩
def MCH_MCH_STAT_SPARE_USED : Fld := ⟨0x100, 4, 4, .ro, 0, true⟩
def MCH_MCH_STAT_REFRESH_2X : Fld := ⟨0x100, 3, 3, .ro, 0, true⟩
def MCH_MCH_STAT_STATE : Fld := ⟨0x100, 2, 0, .ro, 0, true⟩
def MCH_RANK_MAP_LR (j : Nat) : Fld := ⟨0x108, 2 * j + 1, 2 * j, .ro, j, true⟩
def MCH_ERR_CNT_CORR : Fld := ⟨0x110, 63, 32, .ro, 0, true⟩
def MCH_ERR_CNT_RETRY : Fld := ⟨0x110, 31, 16, .ro, 0, true⟩
def MCH_ERR_CNT_UNC : Fld := ⟨0x110, 15, 0, .ro, 0, true⟩
def MCH_ERR_LOG_GRAN : Fld := ⟨0x118, 63, 38, .ro, 0, true⟩
def MCH_ERR_LOG_BURST : Fld := ⟨0x118, 31, 25, .ro, 0, true⟩
def MCH_ERR_LOG_PC : Fld := ⟨0x118, 24, 24, .ro, 0, true⟩
def MCH_ERR_LOG_SID : Fld := ⟨0x118, 23, 22, .ro, 0, true⟩
def MCH_ERR_LOG_KIND : Fld := ⟨0x118, 21, 20, .ro, 0, true⟩
def MCH_ERR_LOG_WORDS : Fld := ⟨0x118, 19, 16, .ro, 0, true⟩
def MCH_ERR_LOG_VALID : Fld := ⟨0x118, 0, 0, .w1c, 0, true⟩
def MCH_MIG_JOURNAL_ACTIVE : Fld := ⟨0x120, 63, 63, .rws, 0, false⟩
def MCH_MIG_JOURNAL_FROM_SID : Fld := ⟨0x120, 59, 58, .rws, 0, false⟩
def MCH_MIG_JOURNAL_TO_SID : Fld := ⟨0x120, 57, 56, .rws, 0, false⟩
def MCH_MIG_JOURNAL_STEPS : Fld := ⟨0x120, 17, 0, .rws, 0, false⟩
def MCH_TRAIN_STAT_PERIODIC : Fld := ⟨0x128, 63, 32, .ro, 0, true⟩
def MCH_TRAIN_STAT_FULL : Fld := ⟨0x128, 31, 16, .ro, 0, true⟩
def MCH_TRAIN_STAT_LAST : Fld := ⟨0x128, 1, 0, .ro, 0, true⟩
def MCH_ACT_STAT_FLAGS : Fld := ⟨0x130, 63, 48, .ro, 0, true⟩
def MCH_ACT_STAT_CLASS : Fld := ⟨0x130, 45, 40, .ro, 0, true⟩
def MCH_ACT_STAT_PC : Fld := ⟨0x130, 39, 39, .ro, 0, true⟩
def MCH_ACT_STAT_SID : Fld := ⟨0x130, 38, 37, .ro, 0, true⟩
def MCH_ACT_STAT_BANK : Fld := ⟨0x130, 36, 31, .ro, 0, true⟩
def MCH_ACT_STAT_ROW : Fld := ⟨0x130, 16, 0, .ro, 0, true⟩
def MCH_POISON_STAT_POISON_RD : Fld := ⟨0x138, 63, 32, .ro, 0, true⟩
def MCH_POISON_STAT_OVF : Fld := ⟨0x138, 16, 16, .ro, 0, true⟩
def MCH_POISON_STAT_ENTRIES : Fld := ⟨0x138, 12, 0, .ro, 0, true⟩
def MCH_MCH_CLR_CLR : Fld := ⟨0x140, 0, 0, .wo, 0, true⟩

/-! MST fields of R423 (14_memory.md). -/
def MST_MST_CFG_SPARES : Fld := ⟨0x100, 63, 63, .ro, Config.sparesEnabled, true⟩
def MST_MST_CFG_TRAIN_PERIOD : Fld := ⟨0x100, 47, 32, .rw, 0x64, true⟩
def MST_MST_CFG_ERR_TH : Fld := ⟨0x100, 31, 24, .rw, 0x40, true⟩
def MST_MST_CFG_IDLE_SR : Fld := ⟨0x100, 15, 0, .rw, 0x40, true⟩
def MST_REFRESH_CFG_T_LO : Fld := ⟨0x108, 47, 32, .ro, 0x334, true⟩
def MST_REFRESH_CFG_T_HI : Fld := ⟨0x108, 31, 16, .ro, 0x352, true⟩
def MST_REFRESH_CFG_POSTPONE_MAX : Fld := ⟨0x108, 3, 0, .rw, 8, true⟩
def MST_ROWH_CFG_THROT_ACT : Fld := ⟨0x110, 47, 32, .rw, 0x10, true⟩
def MST_ROWH_CFG_ACT_THRESH : Fld := ⟨0x110, 31, 0, .rw, 0x800, true⟩
def MST_FREQ_CTL_SYNC : Fld := ⟨0x118, 5, 4, .rw, 0, true⟩
def MST_FREQ_CTL_GO : Fld := ⟨0x118, 0, 0, .w1s, 0, true⟩
def MST_TSET_A_DIV : Fld := ⟨0x120, 3, 0, .rw, 4, true⟩
def MST_TSET_B_DIV : Fld := ⟨0x128, 3, 0, .rw, 8, true⟩
def MST_FREQ_STAT_LAST_STALL : Fld := ⟨0x130, 63, 48, .ro, 0, true⟩
def MST_FREQ_STAT_RATE_MBPS : Fld := ⟨0x130, 47, 32, .ro, 0x1900, true⟩
def MST_FREQ_STAT_BUSY : Fld := ⟨0x130, 1, 1, .ro, 0, true⟩
def MST_FREQ_STAT_ACT_SET : Fld := ⟨0x130, 0, 0, .ro, 0, true⟩
def MST_TEMP_STALE : Fld := ⟨0x138, 16, 16, .ro, 0, true⟩
def MST_TEMP_TEMP : Fld := ⟨0x138, 15, 0, .ro, 0, true⟩
def MST_XLATE_ADDR_ADDR : Fld := ⟨0x180, 63, 0, .rw, 0, true⟩
def MST_XLATE_RES_HOLE : Fld := ⟨0x188, 63, 63, .ro, 0, true⟩
def MST_XLATE_RES_BEYOND : Fld := ⟨0x188, 62, 62, .ro, 0, true⟩
def MST_XLATE_RES_CHANNEL : Fld := ⟨0x188, 61, 56, .ro, 0, true⟩
def MST_XLATE_RES_PC : Fld := ⟨0x188, 55, 55, .ro, 0, true⟩
def MST_XLATE_RES_LRANK : Fld := ⟨0x188, 54, 53, .ro, 0, true⟩
def MST_XLATE_RES_SID : Fld := ⟨0x188, 52, 51, .ro, 0, true⟩
def MST_XLATE_RES_BANK : Fld := ⟨0x188, 50, 45, .ro, 0, true⟩
def MST_XLATE_RES_ROW : Fld := ⟨0x188, 44, 28, .ro, 0, true⟩
def MST_XLATE_RES_GRAN : Fld := ⟨0x188, 16, 0, .ro, 0, true⟩
def MST_CLASS_THROTTLED (i : Nat) : Fld := ⟨0x200 + 8 * i, 63, 63, .ro, 0, true⟩
def MST_CLASS_THROT_CNT (i : Nat) : Fld := ⟨0x200 + 8 * i, 47, 32, .ro, 0, true⟩
def MST_CLASS_MIN_SHARE (s i : Nat) : Fld := ⟨0x200 + 8 * i, 15, 8, .rw, (if 16 * s + i = 43 then 8 else 0), true⟩
def MST_CLASS_WEIGHT (i : Nat) : Fld := ⟨0x200 + 8 * i, 7, 0, .rw, 0x10, true⟩

/-! DSP fields of R393 (13_display.md). -/
def DSP_TIM_H_HBP : Fld := ⟨0x100, 63, 48, .rw, 0x28, true⟩
def DSP_TIM_H_HSYNC : Fld := ⟨0x100, 47, 32, .rw, 0x20, true⟩
def DSP_TIM_H_HFP : Fld := ⟨0x100, 31, 16, .rw, 8, true⟩
def DSP_TIM_H_HACTIVE : Fld := ⟨0x100, 15, 0, .rw, 0xf00, true⟩
def DSP_TIM_V_VBP : Fld := ⟨0x108, 63, 48, .rw, 6, true⟩
def DSP_TIM_V_VSYNC : Fld := ⟨0x108, 47, 32, .rw, 8, true⟩
def DSP_TIM_V_VFP : Fld := ⟨0x108, 31, 16, .rw, 0x30, true⟩
def DSP_TIM_V_VACTIVE : Fld := ⟨0x108, 15, 0, .rw, 0x870, true⟩
def DSP_TIM_CFG_TE_MODE : Fld := ⟨0x110, 63, 63, .rw, 0, true⟩
def DSP_TIM_CFG_TE_POL : Fld := ⟨0x110, 62, 62, .rw, 0, true⟩
def DSP_TIM_CFG_HS_POL : Fld := ⟨0x110, 61, 61, .rw, 0, true⟩
def DSP_TIM_CFG_VS_POL : Fld := ⟨0x110, 60, 60, .rw, 0, true⟩
def DSP_TIM_CFG_TE_TIMEOUT : Fld := ⟨0x110, 47, 32, .rw, 0x9c4, true⟩
def DSP_TIM_CFG_TE_FILTER : Fld := ⟨0x110, 7, 0, .rw, 0x10, true⟩
def DSP_PCLK_DIV_I : Fld := ⟨0x118, 40, 32, .rw, 0x18, true⟩
def DSP_PCLK_DIV_F : Fld := ⟨0x118, 23, 0, .rw, 0x7e03c7, true⟩
def DSP_LINK_CFG_LANE_INV : Fld := ⟨0x120, 19, 16, .rw, 0, true⟩
def DSP_LINK_CFG_BPC10 : Fld := ⟨0x120, 8, 8, .rw, 0, true⟩
def DSP_LINK_CFG_LANES : Fld := ⟨0x120, 5, 4, .rw, 2, true⟩
def DSP_LINK_CFG_RATE : Fld := ⟨0x120, 1, 0, .rw, 3, true⟩
def DSP_CSC_R_CR : Fld := ⟨0x140, 47, 32, .rw, 0x1cc5, true⟩
def DSP_CSC_R_CB : Fld := ⟨0x140, 31, 16, .rw, 0, true⟩
def DSP_CSC_R_Y : Fld := ⟨0x140, 15, 0, .rw, 0x12af, true⟩
def DSP_CSC_G_CR : Fld := ⟨0x148, 47, 32, .rw, 0xf773, true⟩
def DSP_CSC_G_CB : Fld := ⟨0x148, 31, 16, .rw, 0xfc94, true⟩
def DSP_CSC_G_Y : Fld := ⟨0x148, 15, 0, .rw, 0x12af, true⟩
def DSP_CSC_B_CR : Fld := ⟨0x150, 47, 32, .rw, 0, true⟩
def DSP_CSC_B_CB : Fld := ⟨0x150, 31, 16, .rw, 0x21e6, true⟩
def DSP_CSC_B_Y : Fld := ⟨0x150, 15, 0, .rw, 0x12af, true⟩
def DSP_CSC_OFS_CR : Fld := ⟨0x158, 42, 32, .rw, 0x600, true⟩
def DSP_CSC_OFS_CB : Fld := ⟨0x158, 26, 16, .rw, 0x600, true⟩
def DSP_CSC_OFS_Y : Fld := ⟨0x158, 10, 0, .rw, 0x7c0, true⟩
def DSP_BG_Y : Fld := ⟨0x160, 29, 20, .rw, 0x40, true⟩
def DSP_BG_CB : Fld := ⟨0x160, 19, 10, .rw, 0x200, true⟩
def DSP_BG_CR : Fld := ⟨0x160, 9, 0, .rw, 0x200, true⟩
def DSP_GAMMA_CFG_BYPASS : Fld := ⟨0x168, 1, 1, .rw, 1, true⟩
def DSP_GAMMA_CFG_SEL : Fld := ⟨0x168, 0, 0, .rw, 0, true⟩
def DSP_GAMMA_IDX_BANK : Fld := ⟨0x180, 12, 12, .rw, 0, true⟩
def DSP_GAMMA_IDX_CH : Fld := ⟨0x180, 11, 10, .rw, 0, true⟩
def DSP_GAMMA_IDX_ENTRY : Fld := ⟨0x180, 9, 0, .rw, 0, true⟩
def DSP_GAMMA_DATA_VALUE : Fld := ⟨0x188, 9, 0, .wo, 0, true⟩
def DSP_FRAME_CNT_FLIP_FRAME : Fld := ⟨0x190, 63, 32, .ro, 0, true⟩
def DSP_FRAME_CNT_FRAME : Fld := ⟨0x190, 31, 0, .ro, 0, true⟩
def DSP_FRAME_TICK_TICK : Fld := ⟨0x198, 63, 0, .ro, 0, true⟩
def DSP_FLIP_TICK_TICK : Fld := ⟨0x1a0, 63, 0, .ro, 0, true⟩
def DSP_TE_TICK_TICK : Fld := ⟨0x1a8, 63, 0, .ro, 0, true⟩
def DSP_HEAD_STAT_UNDERRUN_CNT : Fld := ⟨0x1b0, 63, 32, .ro, 0, true⟩
def DSP_HEAD_STAT_DEFER_CNT : Fld := ⟨0x1b0, 31, 16, .ro, 0, true⟩
def DSP_HEAD_STAT_GAMMA_REJ : Fld := ⟨0x1b0, 4, 4, .ro, 0, true⟩
def DSP_HEAD_STAT_TE_WAIT : Fld := ⟨0x1b0, 3, 3, .ro, 0, true⟩
def DSP_HEAD_STAT_BLANKING : Fld := ⟨0x1b0, 2, 2, .ro, 0, true⟩
def DSP_HEAD_STAT_VIDEO : Fld := ⟨0x1b0, 1, 1, .ro, 0, true⟩
def DSP_COMMIT_LOG_APPLY_FRAME : Fld := ⟨0x1b8, 63, 32, .ro, 0, true⟩
def DSP_COMMIT_LOG_REFUSE_CODE : Fld := ⟨0x1b8, 31, 24, .ro, 0, true⟩
def DSP_COMMIT_LOG_GROUPS : Fld := ⟨0x1b8, 23, 16, .ro, 0, true⟩
def DSP_COMMIT_LOG_LATE : Fld := ⟨0x1b8, 15, 8, .ro, 0, true⟩
def DSP_COMMIT_LOG_EPOCH : Fld := ⟨0x1b8, 1, 1, .ro, 0, true⟩
def DSP_COMMIT_LOG_REFUSED : Fld := ⟨0x1b8, 0, 0, .ro, 0, true⟩
def DSP_MODE_STAT_RESUME_FRAME : Fld := ⟨0x1c0, 63, 32, .ro, 0, true⟩
def DSP_MODE_STAT_BLANK_FRAMES : Fld := ⟨0x1c0, 15, 0, .ro, 0, true⟩
def DSP_LINK_STAT_RETRAIN_CNT : Fld := ⟨0x1c8, 63, 48, .ro, 0, true⟩
def DSP_LINK_STAT_LANES_ACT : Fld := ⟨0x1c8, 6, 5, .ro, 0, true⟩
def DSP_LINK_STAT_RATE_ACT : Fld := ⟨0x1c8, 4, 3, .ro, 0, true⟩
def DSP_LINK_STAT_FAILED : Fld := ⟨0x1c8, 2, 2, .ro, 0, true⟩
def DSP_LINK_STAT_TRAINED : Fld := ⟨0x1c8, 1, 1, .ro, 0, true⟩
def DSP_LINK_STAT_HPD : Fld := ⟨0x1c8, 0, 0, .ro, 0, true⟩
def DSP_LAYER_FAULT_FRAME : Fld := ⟨0x1d0, 63, 32, .ro, 0, true⟩
def DSP_LAYER_FAULT_LINE : Fld := ⟨0x1d0, 27, 16, .ro, 0, true⟩
def DSP_LAYER_FAULT_CAUSE : Fld := ⟨0x1d0, 9, 8, .ro, 0, true⟩
def DSP_LAYER_FAULT_LAYER : Fld := ⟨0x1d0, 1, 0, .ro, 0, true⟩
def DSP_HEAD_CTL_RETRAIN : Fld := ⟨0x1d8, 1, 1, .w1s, 0, true⟩
def DSP_HEAD_CTL_CLR : Fld := ⟨0x1d8, 0, 0, .wo, 0, true⟩
def DSP_AUX_CTL_GO : Fld := ⟨0x1e0, 63, 63, .w1s, 0, true⟩
def DSP_AUX_CTL_I2C : Fld := ⟨0x1e0, 62, 62, .rw, 0, true⟩
def DSP_AUX_CTL_READ : Fld := ⟨0x1e0, 61, 61, .rw, 0, true⟩
def DSP_AUX_CTL_LEN_M1 : Fld := ⟨0x1e0, 59, 56, .rw, 0, true⟩
def DSP_AUX_CTL_RESULT : Fld := ⟨0x1e0, 55, 54, .ro, 0, true⟩
def DSP_AUX_CTL_ADDR : Fld := ⟨0x1e0, 19, 0, .rw, 0, true⟩
def DSP_AUX_DATA0_DATA : Fld := ⟨0x1e8, 63, 0, .rw, 0, true⟩
def DSP_AUX_DATA1_DATA : Fld := ⟨0x1f0, 63, 0, .rw, 0, true⟩
def DSP_L_CFG_EN (i : Nat) : Fld := ⟨0x200 + 64 * i, 63, 63, .rw, 0, true⟩
def DSP_L_CFG_GUARD (i : Nat) : Fld := ⟨0x200 + 64 * i, 62, 62, .rw, 0, true⟩
def DSP_L_CFG_SRC (i : Nat) : Fld := ⟨0x200 + 64 * i, 61, 61, .rw, 0, true⟩
def DSP_L_CFG_JOB (i : Nat) : Fld := ⟨0x200 + 64 * i, 60, 56, .rw, 0, true⟩
def DSP_L_CFG_FMT (i : Nat) : Fld := ⟨0x200 + 64 * i, 51, 48, .rw, 0, true⟩
def DSP_L_CFG_PLANAR (i : Nat) : Fld := ⟨0x200 + 64 * i, 43, 43, .rw, 0, true⟩
def DSP_L_CFG_ALPHA (i : Nat) : Fld := ⟨0x200 + 64 * i, 39, 32, .rw, 0xff, true⟩
def DSP_L_POS_Y0 (i : Nat) : Fld := ⟨0x208 + 64 * i, 27, 16, .rw, 0, true⟩
def DSP_L_POS_X0 (i : Nat) : Fld := ⟨0x208 + 64 * i, 11, 0, .rw, 0, true⟩
def DSP_L_SIZE_H (i : Nat) : Fld := ⟨0x210 + 64 * i, 27, 16, .rw, 0, true⟩
def DSP_L_SIZE_W (i : Nat) : Fld := ⟨0x210 + 64 * i, 11, 0, .rw, 0, true⟩
def DSP_L_BUF_ADDR (i : Nat) : Fld := ⟨0x218 + 64 * i, 63, 0, .rw, 0, true⟩
def DSP_L_PLANE_CB_OFS (i : Nat) : Fld := ⟨0x220 + 64 * i, 63, 32, .rw, 0, true⟩
def DSP_L_PLANE_Y_OFS (i : Nat) : Fld := ⟨0x220 + 64 * i, 31, 0, .rw, 0x1000, true⟩
def DSP_L_PLANE2_CR_OFS (i : Nat) : Fld := ⟨0x228 + 64 * i, 31, 0, .rw, 0, true⟩
def DSP_L_PITCH_C_PITCH (i : Nat) : Fld := ⟨0x230 + 64 * i, 31, 16, .rw, 0, true⟩
def DSP_L_PITCH_Y_PITCH (i : Nat) : Fld := ⟨0x230 + 64 * i, 15, 0, .rw, 0, true⟩
def DSP_L_FILL_Y (i : Nat) : Fld := ⟨0x238 + 64 * i, 29, 20, .rw, 0x40, true⟩
def DSP_L_FILL_CB (i : Nat) : Fld := ⟨0x238 + 64 * i, 19, 10, .rw, 0x200, true⟩
def DSP_L_FILL_CR (i : Nat) : Fld := ⟨0x238 + 64 * i, 9, 0, .rw, 0x200, true⟩
def DSP_L_RETIRE_FRAME (i : Nat) : Fld := ⟨0x300 + 8 * i, 63, 32, .ro, 0, true⟩
def DSP_L_RETIRE_SEQ (i : Nat) : Fld := ⟨0x300 + 8 * i, 31, 28, .ro, 0, true⟩
def DSP_L_RETIRE_GRAN (i : Nat) : Fld := ⟨0x300 + 8 * i, 25, 0, .ro, 0, true⟩

/-! PCI fields of R362 (12_services.md). -/
def PCI_LINK_STAT_RETRAIN_CNT : Fld := ⟨0x100, 63, 32, .ro, 0, true⟩
def PCI_LINK_STAT_WIDTH : Fld := ⟨0x100, 20, 16, .ro, 0, true⟩
def PCI_LINK_STAT_UP : Fld := ⟨0x100, 8, 8, .ro, 0, true⟩
def PCI_LINK_STAT_SPEED : Fld := ⟨0x100, 3, 0, .ro, 0, true⟩
def PCI_BAR2_MAP_BASE : Fld := ⟨0x108, 63, 30, .rw, 0, true⟩
def PCI_BAR2_STAT_POISON_CNT : Fld := ⟨0x110, 63, 32, .ro, 0, true⟩
def PCI_BAR2_STAT_RANGE_CNT : Fld := ⟨0x110, 31, 0, .ro, 0, true⟩
def PCI_AER_CNT_CORR : Fld := ⟨0x118, 63, 32, .ro, 0, true⟩
def PCI_AER_CNT_UNCORR : Fld := ⟨0x118, 31, 0, .ro, 0, true⟩
def PCI_PCI_CLR_CLR : Fld := ⟨0x120, 0, 0, .wo, 0, true⟩

/-! NVP fields of R364 (12_services.md). -/
def NVP_NVP_STAT_NS_CNT : Fld := ⟨0x100, 31, 24, .ro, 0, true⟩
def NVP_NVP_STAT_CTRL_CNT : Fld := ⟨0x100, 23, 16, .ro, 0, true⟩
def NVP_NVP_STAT_SPEED : Fld := ⟨0x100, 11, 8, .ro, 0, true⟩
def NVP_NVP_STAT_UP : Fld := ⟨0x100, 0, 0, .ro, 0, true⟩
def NVP_NVP_CNT_RETRIES : Fld := ⟨0x108, 63, 32, .ro, 0, true⟩
def NVP_NVP_CNT_TIMEOUTS : Fld := ⟨0x108, 31, 0, .ro, 0, true⟩
def NVP_NVP_BW_WR_MBPS : Fld := ⟨0x110, 31, 0, .ro, 0, true⟩
def NVP_NVP_CFG_RETRY_MAX : Fld := ⟨0x118, 19, 16, .rw, 3, true⟩
def NVP_NVP_CFG_CMD_TO : Fld := ⟨0x118, 15, 0, .rw, 0xfa, true⟩
def NVP_NVP_CLR_CLR : Fld := ⟨0x120, 0, 0, .wo, 0, true⟩

/-! ETH fields of R365 (12_services.md). -/
def ETH_ETH_MAC_MAC : Fld := ⟨0x100, 47, 0, .rw, 0, true⟩
def ETH_ETH_IP4_IP4 : Fld := ⟨0x108, 31, 0, .rw, 0, true⟩
def ETH_ETH_IP6_HI_IP6 : Fld := ⟨0x110, 63, 0, .rw, 0, true⟩
def ETH_ETH_IP6_LO_IP6 : Fld := ⟨0x118, 63, 0, .rw, 0, true⟩
def ETH_LANE_POL_TX_INV : Fld := ⟨0x120, 15, 8, .rw, 0, true⟩
def ETH_LANE_POL_RX_INV : Fld := ⟨0x120, 7, 0, .rw, 0, true⟩
def ETH_ETH_STAT_FEC_UNC : Fld := ⟨0x128, 63, 32, .ro, 0, true⟩
def ETH_ETH_STAT_UP : Fld := ⟨0x128, 0, 0, .ro, 0, true⟩
def ETH_TX_PKTS_CNT : Fld := ⟨0x130, 63, 0, .ro, 0, true⟩
def ETH_RX_DISC_CNT : Fld := ⟨0x138, 63, 0, .ro, 0, true⟩
def ETH_ETH_CLR_CLR : Fld := ⟨0x140, 0, 0, .wo, 0, true⟩

/-! DLB fields of R366 (12_services.md). -/
def DLB_DLB_CFG_EN : Fld := ⟨0x100, 63, 63, .rw, 0, false⟩
def DLB_DLB_CFG_SOURCE : Fld := ⟨0x100, 62, 62, .rw, 0, false⟩
def DLB_DLB_CFG_TERM_EN : Fld := ⟨0x100, 61, 61, .rw, 0, false⟩
def DLB_DLB_CFG_SYSREF_SRC : Fld := ⟨0x100, 60, 60, .rw, 0, false⟩
def DLB_DLB_CFG_SR_DRIVE : Fld := ⟨0x100, 59, 59, .rw, 0, false⟩
def DLB_DLB_CFG_ACCEPT_ANN : Fld := ⟨0x100, 58, 58, .rw, 0, false⟩
def DLB_DLB_CFG_POS : Fld := ⟨0x100, 4, 0, .rw, 0, false⟩
def DLB_DLB_DRV_DRV (j : Nat) : Fld := ⟨0x108, 5 * j + 4, 5 * j, .rw, 0, false⟩
def DLB_DLB_STAT_SEC_CNT : Fld := ⟨0x110, 63, 32, .ro, 0, false⟩
def DLB_DLB_STAT_POL_INV : Fld := ⟨0x110, 23, 16, .ro, 0, false⟩
def DLB_DLB_STAT_REVERSED : Fld := ⟨0x110, 1, 1, .ro, 0, false⟩
def DLB_DLB_STAT_TC_LOCK : Fld := ⟨0x110, 0, 0, .ro, 0, false⟩
def DLB_DLB_OFS_OFS : Fld := ⟨0x118, 63, 0, .ro, 0, false⟩
def DLB_DLB_CTL_MEASURE : Fld := ⟨0x120, 0, 0, .wo, 0, false⟩
def DLB_DLB_DELAY_VALID (i : Nat) : Fld := ⟨0x200 + 8 * i, 63, 63, .ro, 0, false⟩
def DLB_DLB_DELAY_DELAY (i : Nat) : Fld := ⟨0x200 + 8 * i, 23, 0, .ro, 0, false⟩

/-! TIO fields of R97 (03_module_power.md). -/
def TIO_OUT_FLT_STAT_DISABLED : Fld := ⟨0x800, 47, 32, .ro, 0, true⟩
def TIO_OUT_FLT_STAT_KIND : Fld := ⟨0x800, 31, 0, .ro, 0, true⟩
def TIO_OUT_FLT_CTL_RETRY_NOW : Fld := ⟨0x808, 47, 32, .w1s, 0, true⟩
def TIO_OUT_FLT_CTL_RETRY_EN : Fld := ⟨0x808, 31, 16, .rw, 0xffff, true⟩
def TIO_OUT_FLT_CTL_DET_EN : Fld := ⟨0x808, 15, 0, .rw, 0xffff, true⟩
def TIO_OUT_FLT_CNT_CNT : Fld := ⟨0x810, 63, 0, .ro, 0, true⟩

/-! FAB fields of R549 (20_reliability.md). -/
def FAB_HOP_STAT_FAILED : Fld := ⟨0x100, 63, 56, .ro, 0, true⟩
def FAB_HOP_STAT_OOS : Fld := ⟨0x100, 55, 48, .ro, 0, true⟩
def FAB_HOP_STAT_PRESENT (h : Nat) : Fld := ⟨0x100, 47, 40, .ro, (Config.hopPresent h), true⟩
def FAB_HOP_STAT_REALTIME (h : Nat) : Fld := ⟨0x100, 39, 32, .ro, (Config.hopRealtime h), true⟩
def FAB_HOP_STAT_ALT_USE : Fld := ⟨0x100, 7, 0, .ro, 0, true⟩
def FAB_PAR_CNT_PARITY : Fld := ⟨0x108, 63, 32, .ro, 0, true⟩
def FAB_PAR_CNT_REPLAYS : Fld := ⟨0x108, 31, 0, .ro, 0, true⟩
def FAB_FAIL_CNT_HOP_FAILS : Fld := ⟨0x110, 63, 48, .ro, 0, true⟩
def FAB_FAIL_CNT_RETRAINS : Fld := ⟨0x110, 47, 32, .ro, 0, true⟩
def FAB_LAST_FAIL_TICK : Fld := ⟨0x118, 63, 0, .ro, 0, true⟩
def FAB_FAB_CTL_CLR : Fld := ⟨0x120, 16, 16, .wo, 0, true⟩
def FAB_FAB_CTL_RETRAIN_NOW : Fld := ⟨0x120, 15, 8, .w1s, 0, true⟩
def FAB_INJECT_COUNT : Fld := ⟨0x128, 9, 8, .rw, 0, true⟩
def FAB_INJECT_GO : Fld := ⟨0x128, 7, 0, .w1s, 0, true⟩

end Reg

/-- Every field of a XFP page past its header. -/
def xfpFields : List Fld :=
  [Reg.XFP_XFP_STAT_DROP_CNT, Reg.XFP_XFP_STAT_NCTX, Reg.XFP_XFP_STAT_WIN_CORR, Reg.XFP_XFP_STAT_WIN_UNC,
      Reg.XFP_XFP_LOAD_PEAK_LOAD, Reg.XFP_XFP_LOAD_LOAD, Reg.XFP_XFP_CLR_CLR, Reg.XFP_WIN_RD_ADDR,
      Reg.XFP_WIN_RD_DATA_UNC, Reg.XFP_WIN_RD_DATA_COEF] ++
  (List.range 16).flatMap (fun i => [Reg.XFP_ASSIGN_VALID i, Reg.XFP_ASSIGN_POS i, Reg.XFP_ASSIGN_CTX i])

/-- Every field of a DEN page past its header. -/
def denFields : List Fld :=
  [Reg.DEN_DEN_CFG_BIND, Reg.DEN_DEN_CFG_GANG, Reg.DEN_DEN_CFG_CTX, Reg.DEN_DEN_CFG_TRC, Reg.DEN_DEN_CFG_CLAMP,
      Reg.DEN_DEN_CFG_ROW_LOG2, Reg.DEN_DEN_CFG_CDEC_LOG2, Reg.DEN_DEN_CFG_FLOOR_DB, Reg.DEN_DECAY_CFG_MODE,
      Reg.DEN_DECAY_CFG_D, Reg.DEN_DECAY_CFG_SUB, Reg.DEN_DECAY_CFG_PERIOD, Reg.DEN_DEN_CTL_CLEAR,
      Reg.DEN_DEN_STAT_TRACES, Reg.DEN_DEN_STAT_SKIPS, Reg.DEN_DEN_STAT_DECAY_MISS, Reg.DEN_DEN_STAT_SAT_SEEN,
      Reg.DEN_DEN_STAT_ACTIVE, Reg.DEN_DEN_CNT_SAT_INC, Reg.DEN_DEN_CNT_UNC, Reg.DEN_DEN_CLR_CLR] ++
  (List.range 4).flatMap (fun i => [Reg.DEN_RGN_BOX_COL_HI i, Reg.DEN_RGN_BOX_COL_LO i, Reg.DEN_RGN_BOX_ROW_HI i,
      Reg.DEN_RGN_BOX_ROW_LO i, Reg.DEN_RGN_TRIG_EN i, Reg.DEN_RGN_TRIG_MODE i, Reg.DEN_RGN_TRIG_THRESH i])

/-- Every field of a TMP page past its header. -/
def tmpFields : List Fld :=
  [Reg.TMP_PAL_RD_ADDR, Reg.TMP_PAL_RD_DATA_CB, Reg.TMP_PAL_RD_DATA_CR, Reg.TMP_TMP_STAT_FLIPS,
      Reg.TMP_TMP_STAT_MISSED, Reg.TMP_TMP_STAT_DEFERS] ++
  (List.range 32).flatMap (fun i => [Reg.TMP_JOB_CFG_EN i, Reg.TMP_JOB_CFG_KIND i, Reg.TMP_JOB_CFG_SYNC i,
      Reg.TMP_JOB_CFG_PAL i, Reg.TMP_JOB_CFG_PLANAR i, Reg.TMP_JOB_CFG_HREP i, Reg.TMP_JOB_CFG_VREP i,
      Reg.TMP_JOB_CFG_TRC_MODE i, Reg.TMP_JOB_SRC_ROW_LOG2 i, Reg.TMP_JOB_SRC_CDEC_LOG2 i, Reg.TMP_JOB_SRC_DEN_SEL
      i, Reg.TMP_JOB_SRC_TRC i, Reg.TMP_JOB_SRC_CTX i, Reg.TMP_JOB_SRC_FLOOR_DB i, Reg.TMP_JOB_PERIOD_PERIOD i,
      Reg.TMP_JOB_YMAP_Y_ZERO i, Reg.TMP_JOB_YMAP_Y_OFS i, Reg.TMP_JOB_YMAP_Y_SLOPE i, Reg.TMP_JOB_BUF0_ADDR i,
      Reg.TMP_JOB_BUF1_ADDR i, Reg.TMP_JOB_GEOM_H i, Reg.TMP_JOB_GEOM_PITCH i, Reg.TMP_JOB_STAT_GEN i,
      Reg.TMP_JOB_STAT_MISSED i, Reg.TMP_JOB_STAT_DEFERS i, Reg.TMP_JOB_STAT_VALID i, Reg.TMP_JOB_STAT_BUSY i,
      Reg.TMP_JOB_STAT_CUR i])

/-- Every field of a TRU page past its header. -/
def truFields : List Fld :=
  [Reg.TRU_TRU_CFG_EN, Reg.TRU_TRU_CFG_SEQ_EN, Reg.TRU_TRU_CFG_HOLD_MODE, Reg.TRU_TRU_CFG_HOME_EN,
      Reg.TRU_TRU_CFG_HOME_CTX, Reg.TRU_TRU_CFG_STRETCH] ++
  (List.range 4).flatMap (fun j => [Reg.TRU_IN_SEL0_IN j, Reg.TRU_IN_SEL1_IN j]) ++
  (List.range 4).flatMap (fun i => [Reg.TRU_TT_TT i]) ++
  [Reg.TRU_SEQ_CFG_A_SEL, Reg.TRU_SEQ_CFG_WINDOW, Reg.TRU_CNT_CFG_COUNT_WIN, Reg.TRU_CNT_CFG_COUNT_M1,
      Reg.TRU_HOLD_HOLD, Reg.TRU_TRU_STAT_FIRE_CNT, Reg.TRU_TRU_STAT_SUSPECT_CNT, Reg.TRU_TRU_STAT_HOLDING,
      Reg.TRU_TRU_STAT_PRIMED, Reg.TRU_TRU_STAT_C, Reg.TRU_TRU_STAT_ACTIVE, Reg.TRU_TRU_CNT_HOLD_IGN,
      Reg.TRU_TRU_CNT_CNT_NOW, Reg.TRU_LAST_FIRE_TICK, Reg.TRU_LAST_INFO_SRC, Reg.TRU_LAST_INFO_FORCED,
      Reg.TRU_LAST_INFO_SUSPECT, Reg.TRU_LAST_INFO_SUB, Reg.TRU_TRU_CTL_CLR, Reg.TRU_TRU_CTL_FORCE,
      Reg.TRU_TRU_CTL_RESET_STATE]

/-- Every field of a ACQ page past its header. -/
def acqFields : List Fld :=
  [Reg.ACQ_BUF_STAT_PEAK, Reg.ACQ_BUF_STAT_NOW, Reg.ACQ_SNAP_CTL_TAKE, Reg.ACQ_SNAP_CTL_CTX, Reg.ACQ_SNAP_STAT_DONE,
      Reg.ACQ_SNAP_STAT_OPEN, Reg.ACQ_REC_STAT_DROPPED, Reg.ACQ_REC_STAT_PEAK, Reg.ACQ_ACQ_CLR_CLR] ++
  (List.range 16).flatMap (fun i => [Reg.ACQ_CEND_MAP_CTX i, Reg.ACQ_ARM_MAP_CTX i, Reg.ACQ_MSTOP_MAP_CTX i,
      Reg.ACQ_CAL_MAP_CTX i])

/-- Every field of a TRN page past its header. -/
def trnFields : List Fld :=
  (List.range 4).flatMap (fun i => [Reg.TRN_TIN_CFG_FILTER i, Reg.TRN_TIN_CFG_INV i, Reg.TRN_TIN_CFG_EN i]) ++
  (List.range 8).flatMap (fun i => [Reg.TRN_TOUT_CFG_EN i, Reg.TRN_TOUT_CFG_MODE i, Reg.TRN_TOUT_CFG_INV i,
      Reg.TRN_TOUT_CFG_SRC i, Reg.TRN_TOUT_CFG_WIDTH i, Reg.TRN_POUT_CFG_EN i, Reg.TRN_POUT_CFG_LATCH i,
      Reg.TRN_POUT_CFG_SRC i]) ++
  (List.range 6).flatMap (fun i => [Reg.TRN_DLT_SRC_EN i, Reg.TRN_DLT_SRC_SRC i, Reg.TRN_DLT_SRC_WIDTH i]) ++
  (List.range 16).flatMap (fun i => [Reg.TRN_SCHED_TICK_TICK i, Reg.TRN_SCHED_CFG_ARM i, Reg.TRN_SCHED_CFG_LATE i,
      Reg.TRN_SCHED_CFG_PERIOD i]) ++
  [Reg.TRN_REC_CFG_COINC_WAIT, Reg.TRN_TRN_STAT_PAR_CNT, Reg.TRN_TRN_STAT_REC_LOST, Reg.TRN_TRN_STAT_TIN_GLITCH,
      Reg.TRN_TRN_STAT_MASK_CORR, Reg.TRN_POUT_CLR_CLR, Reg.TRN_TRN_CLR_CLR, Reg.TRN_MASK_RD_PIPE,
      Reg.TRN_MASK_RD_ADDR, Reg.TRN_MASK_RD_DATA_SEG]

/-- Every field of a SCR page past its header. -/
def scrFields : List Fld :=
  [Reg.SCR_SCR_CTL_STEP, Reg.SCR_SCR_CTL_RESUME, Reg.SCR_SCR_CTL_HALT, Reg.SCR_SCR_STAT_HALT_CAUSE,
      Reg.SCR_SCR_STAT_IN_HANDLER, Reg.SCR_SCR_STAT_IE, Reg.SCR_SCR_STAT_LSP, Reg.SCR_SCR_STAT_PC,
      Reg.SCR_SCR_STAT_ACT_BANK, Reg.SCR_SCR_STAT_STATE, Reg.SCR_SCR_CFG_EN, Reg.SCR_SCR_CFG_ENTRY,
      Reg.SCR_EXC_LOG_COUNT, Reg.SCR_EXC_LOG_VALID, Reg.SCR_EXC_LOG_ADDR, Reg.SCR_EXC_LOG_CAUSE,
      Reg.SCR_MBX_IN_DATA, Reg.SCR_MBX_OUT_DATA, Reg.SCR_NOTE_DATA, Reg.SCR_USR_STAT_USER_SENT,
      Reg.SCR_USR_STAT_USER_DROP, Reg.SCR_USR_STAT_USER_BADCTX, Reg.SCR_USR_STAT_TRIG_CNT, Reg.SCR_SCR_CNT_BUNDLES,
      Reg.SCR_SCR_CNT_STALLS, Reg.SCR_SCR_CNT_OWN_REFUSED, Reg.SCR_SCR_CNT_EVQ_LOST, Reg.SCR_ECC_CNT_P_CORR,
      Reg.SCR_ECC_CNT_X_CORR, Reg.SCR_ECC_CNT_Y_CORR, Reg.SCR_DBG_ADDR_SPACE, Reg.SCR_DBG_ADDR_ADDR,
      Reg.SCR_DBG_DATA_DATA, Reg.SCR_SCR_CLR_CLR]

/-- Every field of a BNK page past its header. -/
def bnkFields : List Fld :=
  [Reg.BNK_BNK_OWN_OWN_ERR, Reg.BNK_BNK_OWN_BUSY, Reg.BNK_BNK_OWN_B_AGENT_ACT, Reg.BNK_BNK_OWN_B_AGENT,
      Reg.BNK_BNK_OWN_OWNER_ACT, Reg.BNK_BNK_OWN_OWNER, Reg.BNK_BNK_STAT_STARVE_CNT, Reg.BNK_BNK_STAT_STARVE_MAX,
      Reg.BNK_BNK_STAT_COLL_CNT, Reg.BNK_BNK_STAT_COLL, Reg.BNK_BNK_STAT_STARVE, Reg.BNK_BNK_STAT_CLEARING,
      Reg.BNK_BNK_CFG_STARVE_LIMIT, Reg.BNK_BNK_ERR_VALID, Reg.BNK_BNK_ERR_PORT, Reg.BNK_BNK_ERR_WRITE,
      Reg.BNK_BNK_ERR_REQ, Reg.BNK_BNK_ERR_COUNT, Reg.BNK_BNK_ERR_WORD, Reg.BNK_DEP_CFG_EN, Reg.BNK_DEP_CFG_WHAT,
      Reg.BNK_DEP_CFG_EVERY_LOG2, Reg.BNK_DEP_CFG_CTX, Reg.BNK_DEP_RING_LEN, Reg.BNK_DEP_RING_BASE,
      Reg.BNK_DEP_STAT_WCNT, Reg.BNK_DEP_STAT_DROPS, Reg.BNK_SPILL_CTL_GO, Reg.BNK_SPILL_CTL_UNIT,
      Reg.BNK_SPILL_CTL_NROWS_M1, Reg.BNK_SPILL_CTL_ROW0, Reg.BNK_SPILL_CTL_DST, Reg.BNK_BNK_CLR_CLR]

/-- Every field of a DMA page past its header. -/
def dmaFields : List Fld :=
  [Reg.DMA_DMA_SRC_BANK_SEL, Reg.DMA_DMA_SRC_BANK, Reg.DMA_DMA_SRC_ADDR, Reg.DMA_DMA_DST_BANK_SEL,
      Reg.DMA_DMA_DST_BANK, Reg.DMA_DMA_DST_ADDR, Reg.DMA_DMA_LEN_WORDS, Reg.DMA_DMA_CTL_ABORT, Reg.DMA_DMA_CTL_GO,
      Reg.DMA_DMA_STAT_COLL_CNT, Reg.DMA_DMA_STAT_STATUS, Reg.DMA_DMA_STAT_COLLISION, Reg.DMA_DMA_STAT_DONE,
      Reg.DMA_DMA_STAT_COLL_IDX, Reg.DMA_DMA_XFER_TRANSFERS, Reg.DMA_DMA_XFER_WORDS_DONE]

/-- Every field of a MCH page past its header. -/
def mchFields : List Fld :=
  [Reg.MCH_MCH_STAT_RANK_OOS, Reg.MCH_MCH_STAT_POSTPONED, Reg.MCH_MCH_STAT_MIGRATING, Reg.MCH_MCH_STAT_SPARE_USED,
      Reg.MCH_MCH_STAT_REFRESH_2X, Reg.MCH_MCH_STAT_STATE] ++
  (List.range 4).flatMap (fun j => [Reg.MCH_RANK_MAP_LR j]) ++
  [Reg.MCH_ERR_CNT_CORR, Reg.MCH_ERR_CNT_RETRY, Reg.MCH_ERR_CNT_UNC, Reg.MCH_ERR_LOG_GRAN, Reg.MCH_ERR_LOG_BURST,
      Reg.MCH_ERR_LOG_PC, Reg.MCH_ERR_LOG_SID, Reg.MCH_ERR_LOG_KIND, Reg.MCH_ERR_LOG_WORDS, Reg.MCH_ERR_LOG_VALID,
      Reg.MCH_MIG_JOURNAL_ACTIVE, Reg.MCH_MIG_JOURNAL_FROM_SID, Reg.MCH_MIG_JOURNAL_TO_SID,
      Reg.MCH_MIG_JOURNAL_STEPS, Reg.MCH_TRAIN_STAT_PERIODIC, Reg.MCH_TRAIN_STAT_FULL, Reg.MCH_TRAIN_STAT_LAST,
      Reg.MCH_ACT_STAT_FLAGS, Reg.MCH_ACT_STAT_CLASS, Reg.MCH_ACT_STAT_PC, Reg.MCH_ACT_STAT_SID,
      Reg.MCH_ACT_STAT_BANK, Reg.MCH_ACT_STAT_ROW, Reg.MCH_POISON_STAT_POISON_RD, Reg.MCH_POISON_STAT_OVF,
      Reg.MCH_POISON_STAT_ENTRIES, Reg.MCH_MCH_CLR_CLR]

/-- Every field of a MST page past its header. -/
def mstFields (s : Nat) : List Fld :=
  [Reg.MST_MST_CFG_SPARES, Reg.MST_MST_CFG_TRAIN_PERIOD, Reg.MST_MST_CFG_ERR_TH, Reg.MST_MST_CFG_IDLE_SR,
      Reg.MST_REFRESH_CFG_T_LO, Reg.MST_REFRESH_CFG_T_HI, Reg.MST_REFRESH_CFG_POSTPONE_MAX,
      Reg.MST_ROWH_CFG_THROT_ACT, Reg.MST_ROWH_CFG_ACT_THRESH, Reg.MST_FREQ_CTL_SYNC, Reg.MST_FREQ_CTL_GO,
      Reg.MST_TSET_A_DIV, Reg.MST_TSET_B_DIV, Reg.MST_FREQ_STAT_LAST_STALL, Reg.MST_FREQ_STAT_RATE_MBPS,
      Reg.MST_FREQ_STAT_BUSY, Reg.MST_FREQ_STAT_ACT_SET, Reg.MST_TEMP_STALE, Reg.MST_TEMP_TEMP,
      Reg.MST_XLATE_ADDR_ADDR, Reg.MST_XLATE_RES_HOLE, Reg.MST_XLATE_RES_BEYOND, Reg.MST_XLATE_RES_CHANNEL,
      Reg.MST_XLATE_RES_PC, Reg.MST_XLATE_RES_LRANK, Reg.MST_XLATE_RES_SID, Reg.MST_XLATE_RES_BANK,
      Reg.MST_XLATE_RES_ROW, Reg.MST_XLATE_RES_GRAN] ++
  (List.range 16).flatMap (fun i => [Reg.MST_CLASS_THROTTLED i, Reg.MST_CLASS_THROT_CNT i, Reg.MST_CLASS_MIN_SHARE s
      i, Reg.MST_CLASS_WEIGHT i])

/-- Every field of a DSP page past its header. -/
def dspFields : List Fld :=
  [Reg.DSP_TIM_H_HBP, Reg.DSP_TIM_H_HSYNC, Reg.DSP_TIM_H_HFP, Reg.DSP_TIM_H_HACTIVE, Reg.DSP_TIM_V_VBP,
      Reg.DSP_TIM_V_VSYNC, Reg.DSP_TIM_V_VFP, Reg.DSP_TIM_V_VACTIVE, Reg.DSP_TIM_CFG_TE_MODE,
      Reg.DSP_TIM_CFG_TE_POL, Reg.DSP_TIM_CFG_HS_POL, Reg.DSP_TIM_CFG_VS_POL, Reg.DSP_TIM_CFG_TE_TIMEOUT,
      Reg.DSP_TIM_CFG_TE_FILTER, Reg.DSP_PCLK_DIV_I, Reg.DSP_PCLK_DIV_F, Reg.DSP_LINK_CFG_LANE_INV,
      Reg.DSP_LINK_CFG_BPC10, Reg.DSP_LINK_CFG_LANES, Reg.DSP_LINK_CFG_RATE, Reg.DSP_CSC_R_CR, Reg.DSP_CSC_R_CB,
      Reg.DSP_CSC_R_Y, Reg.DSP_CSC_G_CR, Reg.DSP_CSC_G_CB, Reg.DSP_CSC_G_Y, Reg.DSP_CSC_B_CR, Reg.DSP_CSC_B_CB,
      Reg.DSP_CSC_B_Y, Reg.DSP_CSC_OFS_CR, Reg.DSP_CSC_OFS_CB, Reg.DSP_CSC_OFS_Y, Reg.DSP_BG_Y, Reg.DSP_BG_CB,
      Reg.DSP_BG_CR, Reg.DSP_GAMMA_CFG_BYPASS, Reg.DSP_GAMMA_CFG_SEL, Reg.DSP_GAMMA_IDX_BANK, Reg.DSP_GAMMA_IDX_CH,
      Reg.DSP_GAMMA_IDX_ENTRY] ++
  [Reg.DSP_GAMMA_DATA_VALUE, Reg.DSP_FRAME_CNT_FLIP_FRAME, Reg.DSP_FRAME_CNT_FRAME, Reg.DSP_FRAME_TICK_TICK,
      Reg.DSP_FLIP_TICK_TICK, Reg.DSP_TE_TICK_TICK, Reg.DSP_HEAD_STAT_UNDERRUN_CNT, Reg.DSP_HEAD_STAT_DEFER_CNT,
      Reg.DSP_HEAD_STAT_GAMMA_REJ, Reg.DSP_HEAD_STAT_TE_WAIT, Reg.DSP_HEAD_STAT_BLANKING, Reg.DSP_HEAD_STAT_VIDEO,
      Reg.DSP_COMMIT_LOG_APPLY_FRAME, Reg.DSP_COMMIT_LOG_REFUSE_CODE, Reg.DSP_COMMIT_LOG_GROUPS,
      Reg.DSP_COMMIT_LOG_LATE, Reg.DSP_COMMIT_LOG_EPOCH, Reg.DSP_COMMIT_LOG_REFUSED, Reg.DSP_MODE_STAT_RESUME_FRAME,
      Reg.DSP_MODE_STAT_BLANK_FRAMES, Reg.DSP_LINK_STAT_RETRAIN_CNT, Reg.DSP_LINK_STAT_LANES_ACT,
      Reg.DSP_LINK_STAT_RATE_ACT, Reg.DSP_LINK_STAT_FAILED, Reg.DSP_LINK_STAT_TRAINED, Reg.DSP_LINK_STAT_HPD,
      Reg.DSP_LAYER_FAULT_FRAME, Reg.DSP_LAYER_FAULT_LINE, Reg.DSP_LAYER_FAULT_CAUSE, Reg.DSP_LAYER_FAULT_LAYER,
      Reg.DSP_HEAD_CTL_RETRAIN, Reg.DSP_HEAD_CTL_CLR, Reg.DSP_AUX_CTL_GO, Reg.DSP_AUX_CTL_I2C, Reg.DSP_AUX_CTL_READ,
      Reg.DSP_AUX_CTL_LEN_M1, Reg.DSP_AUX_CTL_RESULT, Reg.DSP_AUX_CTL_ADDR, Reg.DSP_AUX_DATA0_DATA,
      Reg.DSP_AUX_DATA1_DATA] ++
  (List.range 4).flatMap (fun i => [Reg.DSP_L_CFG_EN i, Reg.DSP_L_CFG_GUARD i, Reg.DSP_L_CFG_SRC i,
      Reg.DSP_L_CFG_JOB i, Reg.DSP_L_CFG_FMT i, Reg.DSP_L_CFG_PLANAR i, Reg.DSP_L_CFG_ALPHA i, Reg.DSP_L_POS_Y0 i,
      Reg.DSP_L_POS_X0 i, Reg.DSP_L_SIZE_H i, Reg.DSP_L_SIZE_W i, Reg.DSP_L_BUF_ADDR i, Reg.DSP_L_PLANE_CB_OFS i,
      Reg.DSP_L_PLANE_Y_OFS i, Reg.DSP_L_PLANE2_CR_OFS i, Reg.DSP_L_PITCH_C_PITCH i, Reg.DSP_L_PITCH_Y_PITCH i,
      Reg.DSP_L_FILL_Y i, Reg.DSP_L_FILL_CB i, Reg.DSP_L_FILL_CR i, Reg.DSP_L_RETIRE_FRAME i, Reg.DSP_L_RETIRE_SEQ
      i, Reg.DSP_L_RETIRE_GRAN i])

/-- Every field of a PCI page past its header. -/
def pciFields : List Fld :=
  [Reg.PCI_LINK_STAT_RETRAIN_CNT, Reg.PCI_LINK_STAT_WIDTH, Reg.PCI_LINK_STAT_UP, Reg.PCI_LINK_STAT_SPEED,
      Reg.PCI_BAR2_MAP_BASE, Reg.PCI_BAR2_STAT_POISON_CNT, Reg.PCI_BAR2_STAT_RANGE_CNT, Reg.PCI_AER_CNT_CORR,
      Reg.PCI_AER_CNT_UNCORR, Reg.PCI_PCI_CLR_CLR]

/-- Every field of a NVP page past its header. -/
def nvpFields : List Fld :=
  [Reg.NVP_NVP_STAT_NS_CNT, Reg.NVP_NVP_STAT_CTRL_CNT, Reg.NVP_NVP_STAT_SPEED, Reg.NVP_NVP_STAT_UP,
      Reg.NVP_NVP_CNT_RETRIES, Reg.NVP_NVP_CNT_TIMEOUTS, Reg.NVP_NVP_BW_WR_MBPS, Reg.NVP_NVP_CFG_RETRY_MAX,
      Reg.NVP_NVP_CFG_CMD_TO, Reg.NVP_NVP_CLR_CLR]

/-- Every field of a ETH page past its header. -/
def ethFields : List Fld :=
  [Reg.ETH_ETH_MAC_MAC, Reg.ETH_ETH_IP4_IP4, Reg.ETH_ETH_IP6_HI_IP6, Reg.ETH_ETH_IP6_LO_IP6,
      Reg.ETH_LANE_POL_TX_INV, Reg.ETH_LANE_POL_RX_INV, Reg.ETH_ETH_STAT_FEC_UNC, Reg.ETH_ETH_STAT_UP,
      Reg.ETH_TX_PKTS_CNT, Reg.ETH_RX_DISC_CNT, Reg.ETH_ETH_CLR_CLR]

/-- Every field of a DLB page past its header. -/
def dlbFields : List Fld :=
  [Reg.DLB_DLB_CFG_EN, Reg.DLB_DLB_CFG_SOURCE, Reg.DLB_DLB_CFG_TERM_EN, Reg.DLB_DLB_CFG_SYSREF_SRC,
      Reg.DLB_DLB_CFG_SR_DRIVE, Reg.DLB_DLB_CFG_ACCEPT_ANN, Reg.DLB_DLB_CFG_POS] ++
  (List.range 6).flatMap (fun j => [Reg.DLB_DLB_DRV_DRV j]) ++
  [Reg.DLB_DLB_STAT_SEC_CNT, Reg.DLB_DLB_STAT_POL_INV, Reg.DLB_DLB_STAT_REVERSED, Reg.DLB_DLB_STAT_TC_LOCK,
      Reg.DLB_DLB_OFS_OFS, Reg.DLB_DLB_CTL_MEASURE] ++
  (List.range 32).flatMap (fun i => [Reg.DLB_DLB_DELAY_VALID i, Reg.DLB_DLB_DELAY_DELAY i])

/-- Every field of a TIO page past its header. -/
def tioFields : List Fld :=
  [Reg.TIO_OUT_FLT_STAT_DISABLED, Reg.TIO_OUT_FLT_STAT_KIND, Reg.TIO_OUT_FLT_CTL_RETRY_NOW,
      Reg.TIO_OUT_FLT_CTL_RETRY_EN, Reg.TIO_OUT_FLT_CTL_DET_EN, Reg.TIO_OUT_FLT_CNT_CNT]

/-- Every field of a FAB page past its header. -/
def fabFields (h : Nat) : List Fld :=
  [Reg.FAB_HOP_STAT_FAILED, Reg.FAB_HOP_STAT_OOS, Reg.FAB_HOP_STAT_PRESENT h, Reg.FAB_HOP_STAT_REALTIME h,
      Reg.FAB_HOP_STAT_ALT_USE, Reg.FAB_PAR_CNT_PARITY, Reg.FAB_PAR_CNT_REPLAYS, Reg.FAB_FAIL_CNT_HOP_FAILS,
      Reg.FAB_FAIL_CNT_RETRAINS, Reg.FAB_LAST_FAIL_TICK, Reg.FAB_FAB_CTL_CLR, Reg.FAB_FAB_CTL_RETRAIN_NOW,
      Reg.FAB_INJECT_COUNT, Reg.FAB_INJECT_GO]

end Sys2Proof.Machine
end

