-- ==== Sys2Proof/Machine/State.lean ====
section
/-!
DEFINITION. The state of the part as plain data: the register file by field, and per chapter of spec/ the
state that the registers do not show. Every structure's field defaults are its values after power-on reset.
-/
namespace Sys2Proof.Machine

/-- The 33 block types of the page map (R51). -/
inductive Blk
  | glb | clk | tmb | pwr | hka | cmp | eva | sec | epo | svc | vgl | lnk | lqd | dlb | tio | pci | slt
  | ctx | xfp | den | tmp | acq | trn | tru | scr | bnk | dma | mch | mst | dsp | nvp | eth | fab
  deriving DecidableEq, Repr

/-- The four severities of R537. -/
inductive Sev | info | warn | fault | fatal
  deriving DecidableEq, Repr

/-- What ends a run with a fault. The model has no fault of its own: every command of the table completes,
is answered with a status the spec names, or changes nothing (notes/assumptions/2). -/
inductive Fault
  deriving DecidableEq, Repr

/-- What the model refuses. -/
inductive Refusal
  /-- Raised by an arm of exec whose command has no meaning yet. Safe: nothing is proved about it. -/
  | notModelled (mnemonic : String)
  deriving DecidableEq, Repr

/-- What leaves the part, newest first in State.out: the model's own record of the answers, messages, pins
and packets that the commands cause (notes/assumptions/4). -/
inductive Output
  /-- A read completion on the host link: the bytes read, lowest address first (R35, R325). -/
  | hostRead (bytes : List Nat)
  /-- A read completion that reports poisoned data (R325). -/
  | hostPoison (len : Nat)
  /-- A request completed with Completer Abort (R36, R109, R325). -/
  | completerAbort
  /-- One MSI-X message (R539). -/
  | msix (vector : Nat)
  /-- Bytes written to host memory by the service firmware (R329, R331, R500, R544). -/
  | hostWrite (addr : Nat) (bytes : List Nat)
  /-- A completion entry written to ring r: status, command identifier, SQ head, phase, results, tick (R329). -/
  | completion (ring slot status cid sqHead phase res0 res1 tick : Nat)
  /-- A value sent to the core voltage regulator, in mV (R64). -/
  | avsSet (mv : Nat)
  /-- An SMBus block read answered with eight bytes, least significant first, or a byte accepted, refused, or the alert address
  (R98). -/
  | smbRead (bytes : List Nat)
  | smbAck
  | smbNack
  | smbAlertAddress
  /-- A DLT frame sent on the Deltan bus: its kind and its words (R357). -/
  | deltan (kind : Nat) (words : List Nat)
  /-- A packet sent on Ethernet port p for a stream slot, or by the time service (R345, R350). -/
  | packet (port slot : Nat) (words : List Nat)
  /-- A command to an NVMe member: member, opcode, first block, data words (R342). -/
  | nvme (member op lba : Nat) (words : List Nat)
  /-- A DisplayPort AUX transaction on head h (R372). -/
  | aux (head : Nat) (words : List Nat)
  /-- One line of pixels sent by head h: the frame, the line, one number per pixel (R376). -/
  | pixels (head frame line : Nat) (px : List Nat)
  /-- What an access on port A (0) or B (1) of a bank is answered with: the word read, or none for an error response
  (R429, R430). -/
  | bankAnswer (bank port : Nat) (val : Option Nat)
  /-- An event handled by the service firmware (R538, target 3, and R537). -/
  | serviceEvent (id : Nat)
  deriving DecidableEq, Repr

/-- A BAR0 access that waits for the clocks or for READY (R109, R129): a write of `data`, or a read. -/
structure Held where
  write : Bool
  off : Nat
  len : Nat
  data : Nat
  /-- When it was held (R109, R129). -/
  at_ : Int := 0
  deriving DecidableEq, Repr

/-- What the page headers hold beyond their registers (R42 to R48, R143, R382). -/
structure PageSt where
  /-- BAR0 accesses held, oldest first. -/
  held : List Held := []
  /-- Pages whose SRST waits for a power-state change (R143). -/
  srstHeld : List Nat := []
  /-- Pages whose PSTATE waits for a block reset (R143). -/
  pstateHeld : List Nat := []
  /-- Pages and groups whose pending commit was written after the guard: 8 × page + group (R382). -/
  lateCommit : List Nat := []
  /-- By page: the tick at which EN was last written 1 while the block did not run, and that at which it was last written 0
  while it ran (R44). -/
  enAt : SMap Nat := []
  stopAt : SMap Nat := []
  /-- By page: the tick at which the power-state change in progress started (R144). -/
  psAt : SMap Nat := []
  /-- By page in IDLE or RETAIN: the tick at which its clocks stopped (R42, R144). -/
  lowAt : SMap Nat := []
  /-- Shadow fields written in one tick (R48): the tick, and by field's place the value before. -/
  shTick : Nat := 0
  shOld : SMap Nat := []
  deriving DecidableEq, Repr

/-- The event aggregator beyond its registers (R538 to R540). MSI-X enable and masks belong to the PCIe
capability of the endpoint. -/
structure EvSt where
  msixEnable : Bool := true
  /-- Vectors masked in the MSI-X table. -/
  msixMasked : List Nat := []
  /-- MSI-X pending bits set. -/
  msixPending : List Nat := []
  /-- Events raised since cold start at info, warn, fault and fatal severity (R544). -/
  raised : List Nat := [0, 0, 0, 0]
  deriving DecidableEq, Repr

/-- One entry of the fault log (R543). -/
structure FlogEntry where
  causeId : Nat
  linkId : Nat
  conseq : Bool
  sev : Nat
  id : Nat
  tick : Nat
  deriving DecidableEq, Repr

/-- One occurrence that a health counter may count (R542): source code, argument, tick. -/
structure Occ where
  src : Nat
  arg : Nat
  tick : Nat
  deriving DecidableEq, Repr

/-- One output hop of a router (R527 to R532). -/
structure HopSt where
  /-- Replays requested for the error present; 0 while no replay is pending. -/
  replays : Nat := 0
  /-- A retrain is in progress. -/
  retraining : Bool := false
  /-- Retrains that failed in succession. -/
  failed : Nat := 0
  /-- The cause ID of the last failure (R534). -/
  cause : Nat := 0
  /-- The tick at which the last outage ended. -/
  outageEnd : Option Nat := none
  /-- Transmissions of one word still to be corrupted by INJECT (R549). -/
  inject : Nat := 0
  /-- The replay buffer while an error is being repaired: the words not acknowledged, the one in error first (R528, R529). -/
  buf : List FabWord := []
  /-- The streams whose content is lost while the hop is failed or out of service (R531, R532). -/
  uses : List HopUse := []
  deriving DecidableEq, Repr

/-- Fabric integrity and the vigil (R527 to R549). -/
structure RelSt where
  hop : SMap HopSt := []
  /-- The next 16-bit cause ID (R534). -/
  nextCause : Nat := 1
  /-- The fault log, by index (R543). -/
  flog : SMap FlogEntry := []
  occ : List Occ := []
  /-- Health counters whose event was raised and whose NOW has not fallen again (R542). -/
  hcOver : List Nat := []
  /-- Lost output per context, in ticks (R545), and the contexts whose AVAIL_BUDGET was raised. -/
  avLost : SMap Nat := []
  avRaised : List Nat := []
  /-- Counted leap records and their samples by cause, on capture paths since cold start (R566). -/
  leapRecs : SMap Nat := []
  leapSamples : SMap Nat := []
  /-- Fabric replays and hop failures since cold start (R544). -/
  replays : Nat := 0
  hopFails : Nat := 0
  /-- The millisecond of the tick counter in which the health counters were last updated (R542). -/
  hcAt : Nat := 0
  /-- The tick of the last KICK (R541). -/
  scKick : Nat := 0
  /-- Sensors whose staleness was reported (R541). -/
  stale : List Nat := []
  deriving DecidableEq, Repr

/-- The record that the sequence monitor keeps while VDD_IO is up, and the rails (R66 to R74, R93). -/
structure PwrSt where
  /-- Bit i: rail i is up (at or above 90 % of nominal). -/
  up : Nat := 0
  /-- Bit i: rail i is down (below 10 % of nominal). -/
  down : Nat := 0x1FF
  /-- The microsecond at which rail i last came up. -/
  upAt : SMap Nat := []
  /-- The latched SEQ_FAULT, the last cause, FAULT_SEEN, PD_ORDER, ALERT and the fault count. -/
  seqFault : Bool := false
  cause : Nat := 0
  faultSeen : Bool := false
  pdOrder : Bool := false
  alert : Bool := false
  faultCount : Nat := 0
  /-- RAIL_MISSING status (R69). -/
  missing : Bool := false
  /-- VDD_CORE is up and VDD_SRAM has not come up since: the microsecond after which it is late (R67, R69). -/
  sramDue : Option Nat := none
  /-- The last change of a rail was a fall: a power-down is in progress, or was the last (R71, R93). -/
  falling : Bool := false
  /-- Bit i: rail i is within its warn window; above it (R72, R94). A rail in neither mask is below it. -/
  inTol : Nat := 0
  ov : Nat := 0
  /-- The board holds POR_N high. -/
  porHigh : Bool := false
  /-- A protective reset waits for POR_N to be held low and released (R74). -/
  protHold : Bool := false
  /-- The internal reset is released: the dies run. -/
  started : Bool := false
  /-- What caused the last cold reset, as BOOT_STAT.LAST_RESET codes it (R133). -/
  lastReset : Nat := 0
  deriving DecidableEq, Repr

/-- The TRIG_OUT and PROT_OUT drivers and the open-wire test beyond their registers (R79 to R89). -/
structure TioSt where
  /-- Bit j: the output's logical value (for PROT_OUT, 1 is asserted). -/
  level : Nat := 0
  /-- Bit j: the value that the router gives output j; `level` follows it while TIO is ON (R144). -/
  want : Nat := 0
  /-- Bit j: the pad of output j was last seen high (R79, R81). -/
  pads : Nat := 0
  /-- The tick at which the driven level or the drive of output j last changed (R79). -/
  changeAt : SMap Nat := []
  /-- The tick at which the next retry of output j is due (R81). -/
  retryAt : SMap Nat := []
  /-- An open-wire pass is in progress (R88). -/
  owPass : Bool := false
  /-- Pins of the pass still to be tested, ascending. -/
  owTodo : List Nat := []
  /-- An OPEN bit rose in this pass. -/
  owRose : Bool := false
  /-- The tick at which the test of the first of those pins starts (R84), and that of the next periodic pass (R88). -/
  owAt : Nat := 0
  owNextAt : Nat := 0
  deriving DecidableEq, Repr

/-- A command that the firmware has fetched, with its ring and the head after its fetch (R326, R329). -/
structure SvcEntry where
  ring : Nat
  head : Nat
  cmd : SvcCmd
  deriving DecidableEq, Repr

/-- A completion that waits for a released slot (R326, R329). -/
structure SvcCompl where
  ring : Nat
  cid : Nat
  head : Nat
  status : Nat
  res0 : Nat
  res1 : Nat
  deriving DecidableEq, Repr

/-- One ring beyond its registers, retained across a service restart (R329, R333). -/
structure RingSt where
  /-- The fetch head, the completion tail, and the completion phase. -/
  head : Nat := 0
  tail : Nat := 0
  phase : Nat := 1
  deriving DecidableEq, Repr

/-- The service controller's commands (R326 to R333). -/
structure SvcSt where
  ring : SMap RingSt := []
  /-- Fetched and not yet taken up, oldest first; deferred and outstanding; completions to be written. -/
  fetched : List SvcEntry := []
  deferred : List SvcEntry := []
  compl : List SvcCompl := []
  /-- FW_ACTIVATE or SERVICE_RESTART that completes after the restart (R333). -/
  restart : Option SvcEntry := none
  /-- The firmware is restarting. -/
  restarting : Bool := false
  /-- The status that FW_ACTIVATE completes with where the restart rejects its slot (R499). -/
  restartStatus : Nat := 0
  /-- The image that FW_STAGE is programming (R498). -/
  staging : Option FwImage := none
  /-- SCHEDULE_EQUINOX with ANNOUNCE waits for its window (R360): the command, ANNOUNCE frames sent, the tick of the last,
  followers that have accepted. -/
  announce : Option SvcEntry := none
  annSent : Nat := 0
  annAt : Nat := 0
  annAck : Nat := 0
  deriving DecidableEq, Repr

/-- A leap that is still open on a path (R312): its cause and the stamp of its first sample. -/
structure OpenLeap where
  cause : Nat
  start : SubTick
  est : Bool := false
  deriving DecidableEq, Repr

/-- The region description that a capture was armed under, or that a ring runs under (R296, R305). -/
structure CapDesc where
  mode : Nat := 0
  policy : Nat := 0
  rawEn : Bool := false
  specEn : Bool := false
  eve : Nat := 0
  post : Nat := 0
  rawBase : Nat := 0
  rawBytes : Nat := 0
  specBase : Nat := 0
  specBytes : Nat := 0
  /-- The holes that its areas are laid around (R413). -/
  laid : List Nat := []
  /-- Bytes of one view sample, bytes of one spectral record, view samples per record. -/
  sampleBytes : Nat := 2
  recBytes : Nat := 0
  stride : Nat := 1
  deriving DecidableEq, Repr

/-- An item of a drain's source that has not been read (R345): 0 raw or 1 spectral, its stamp, the span to the next one, overranged, in a
hole, its bytes, for a stream in network byte order. -/
structure DrainItem where
  kind : Nat
  stamp : SubTick
  step : SubTick
  ovr : Bool
  hole : Bool
  bytes : List Byte
  deriving DecidableEq, Repr

/-- A piece of what a capture path has elapsed (R299): `n` view samples from stamp `start` on, delivered (one sample, at place `w` of the raw
area) or covered by a leap. -/
structure CapSeg where
  start : SubTick
  n : Nat
  leap : Bool
  w : Nat
  deriving DecidableEq, Repr

/-- One drain's place in its context's data (R334 to R336): raw samples, spectral records and almanac records read,
and whether it is stopped. -/
structure DrainPos where
  raw : Nat := 0
  spec : Nat := 0
  alm : Nat := 0
  running : Bool := false
  /-- The next record copied carries LOST_BEFORE (R314). -/
  lost : Bool := false
  /-- Records of this binding's almanac copy that have not left it: LOCAL leaps, and the end of a ring that an equinox
  replaced (R314, R336). -/
  copy : List (List Nat) := []
  /-- Data was skipped before the next item; the stamps with which the next sample and record follow the last ones (R345). -/
  gap : Bool := false
  nextRaw : Option SubTick := none
  nextSpec : Option SubTick := none
  /-- Where the drain stops: samples, spectral records, almanac records (R335). -/
  stop : Option (Nat × Nat × Nat) := none
  /-- The stamps of the samples and of the records that it has not read, oldest first, by their numbers, and whether each is overranged. -/
  rawAt : List (Nat × SubTick × Bool) := []
  specAt : List (Nat × SubTick × Bool) := []
  /-- What it has not read of a source that an equinox replaced (R25, R314). -/
  rest : List DrainItem := []
  deriving DecidableEq, Repr

/-- The capture path and the almanac of one context beyond its registers (R296 to R317). -/
structure AcqCtx where
  running : Bool := false
  /-- The almanac ring in force: base address and bytes (R314). -/
  almBase : Nat := 0
  almBytes : Nat := 0
  /-- The next record carries LOST_BEFORE (R315). -/
  lostBefore : Bool := false
  /-- Trigger records lost before the next one (R285). -/
  trigLost : Nat := 0
  /-- Entries of the record queue that this context occupies: unreserved, then its reserved four (R315). -/
  queued : Nat := 0
  reserved : Nat := 0
  /-- The leaps open on the capture path: unflagged, and of spectral scope. -/
  openRaw : Option OpenLeap := none
  openSpec : Option OpenLeap := none
  /-- CLOCK records of releases that wait for the first sample delivered after them (R115): cause, start and length of the gating, and
  whether the reference was lost in it. -/
  clockDue : List (Nat × Nat × Nat × Bool) := []
  /-- The capture-path counters that R317 copies: delivered and leap samples, raw and spectral. -/
  deliv : Nat := 0
  leap : Nat := 0
  sdeliv : Nat := 0
  sleap : Nat := 0
  /-- The stamp of the last view sample delivered or covered by a leap. -/
  last : SubTick := 0
  /-- The first sample of the running interval has been delivered. -/
  begun : Bool := false
  /-- The stamp of the last sample that the counters of R317 count. -/
  acct : SubTick := 0
  /-- The capture in progress: its description; what has elapsed since arming, or in the present interval of a ring, newest first; the
  spectral records since then, as number, first stamp and samples, newest first; the leaps of spectral scope since then, as first stamp and
  samples. -/
  desc : CapDesc := {}
  trail : List CapSeg := []
  recs : List (Nat × SubTick × Nat) := []
  specLeaps : List (SubTick × Nat) := []
  /-- The trigger stamp; the stamp from which on samples and records belong to the capture, or to the interval of the ring; the post samples
  elapsed; the reason that ends the capture before its post window does. -/
  trigger : Option SubTick := none
  capFrom : SubTick := 0
  postGot : Nat := 0
  eveShort : Bool := false
  ending : Option Nat := none
  /-- SPEC_START waits for the first record of the capture. -/
  specWait : Bool := false
  /-- RAW_WCNT and SPEC_WCNT at the end of the last capture, which a drain reads up to under STREAM (R304). -/
  capEndRaw : Nat := 0
  capEndSpec : Nat := 0
  /-- Data is discarded under STREAM, or because the write buffer is full, or because the reserved record-queue entries
  are occupied (R304, R308, R315). -/
  streamStop : Bool := false
  bufStop : Bool := false
  recStop : Bool := false
  /-- A ring frozen under R307: the stamp of the last sample written. -/
  frozenAt : Option SubTick := none
  /-- Logical ranks that were holes at the context's last switch, as 4 × channel + rank: its areas are laid over the other
  granules (R413). -/
  laid : List Nat := []
  /-- The stride being delivered is discarded because its bytes lie in an unavailable granule, and the spans so discarded
  (R411). -/
  hbmStop : Bool := false
  hbmSpans : List (SubTick × SubTick) := []
  /-- The strides being delivered are discarded (R304, R308, R315), and the spans so discarded. -/
  discarding : Bool := false
  stopSpans : List (SubTick × SubTick) := []
  /-- A released ring writes its MASK_VIOLATION record with the next sample (R307). -/
  releasing : Bool := false
  /-- The hold-off of the free-run trigger mode ends at this stamp (R282). -/
  freeAfter : SubTick := 0
  /-- A mask has violated since arming (R283). -/
  violated : Bool := false
  /-- Samples and records written to the drain ring, and the places of the recorder's and the streamer's drain. -/
  drnRaw : Nat := 0
  drnSpec : Nat := 0
  /-- The first stamps under the epochs that the context has run under, with their numbers, newest first (R341); and the overranged samples
  delivered (R347). -/
  epochs : List (SubTick × Nat) := []
  ovrs : Nat := 0
  /-- The stamp from which the drain ring now loses data to unavailable granules, and the spans of stamps lost so, newest first; a span in
  progress ends at 0 (R411). -/
  drnLost : Option SubTick := none
  drnSpans : List (SubTick × SubTick) := []
  recDrain : DrainPos := {}
  strDrain : DrainPos := {}
  deriving DecidableEq, Repr

/-- The acquisition controller (R308, R315, R317). -/
structure AcqSt where
  ctx : SMap AcqCtx := []
  /-- Bytes waiting in the write buffer of die 0 and die 1 (R308). -/
  buf0 : Nat := 0
  buf1 : Nat := 0
  deriving DecidableEq, Repr

/-- A result on its way to a core register (R449, R477): the bundle time from which it is seen, the register (the
numbers of R464; 100 + N and 104 + N stand for acN.r and acN.i whole, 108 for the OVF bits to set, 109 for those to
clear, 110 for flags as 256 × mask + values, 111 for the bank of the window, 112 for BNK_OWN_RD), the value. -/
structure PendWrite where
  due : Nat
  reg : Nat
  val : Nat
  deriving DecidableEq, Repr

/-- A bank-window load in flight (R444): destination, data, the CCLK at which it arrives, and whether a later write
to its destination has taken its place (R477). -/
structure WinLoad where
  reg : Nat
  val : Nat
  due : Nat
  dead : Bool
  deriving DecidableEq, Repr

/-- A staged USER record (R457): context, words A, B and C, stamp. -/
structure UserRec where
  ctx : Nat
  a : Nat
  b : Nat
  c : Nat
  stamp : SubTick
  deriving DecidableEq, Repr

/-- One signal core (R441 to R462). Registers hold the architectural values; results in flight stand beside them. -/
structure CoreSt where
  g : Vector (BitVec 64) 32 := Vector.replicate 32 0
  acr : Vector (BitVec 72) 4 := Vector.replicate 4 0
  aci : Vector (BitVec 72) 4 := Vector.replicate 4 0
  p : Vector (BitVec 18) 8 := Vector.replicate 8 0
  m : Vector (BitVec 18) 8 := Vector.replicate 8 0
  l : Vector (BitVec 18) 8 := Vector.replicate 8 0
  lc : Vector (BitVec 32) 4 := Vector.replicate 4 0
  ls : Vector (BitVec 13) 4 := Vector.replicate 4 0
  le : Vector (BitVec 13) 4 := Vector.replicate 4 0
  st : BitVec 16 := 0
  ipc : BitVec 13 := 0
  istat : BitVec 16 := 0
  pc : BitVec 13 := 0
  /-- Delay slots still to execute, and where execution continues after them when the branch was taken. -/
  slots : Nat := 0
  target : Option (BitVec 13) := none
  /-- Bundle times passed, without stalls, and CCLK passed, with them (R449, R477). -/
  idx : Nat := 0
  cyc : Nat := 0
  /-- The tick at which `cyc` would have been 0, had the core run without a pause until now (R105, R449). -/
  base : Nat := 0
  pend : List PendWrite := []
  loads : List WinLoad := []
  /-- X and Y data memory, and the two program banks. -/
  x : SMap Word := []
  y : SMap Word := []
  prog0 : SMap Word := []
  prog1 : SMap Word := []
  /-- The active program bank. -/
  act : Bool := false
  /-- The loop cache (R447): the start and end of the loop it holds, and whether its body has been taken. -/
  cache : Option (BitVec 13 × BitVec 13) := none
  cacheFull : Bool := false
  /-- SCR_STAT.STATE, HALT_CAUSE and IN_HANDLER (R462). -/
  state : Nat := 0
  haltCause : Nat := 0
  inHandler : Bool := false
  /-- A HALT request that waits for an allowed boundary (R462). -/
  haltReq : Bool := false
  /-- The control area (R448). -/
  tmrCmp : Word := 0
  irqEn : BitVec 4 := 1
  irqPend : BitVec 4 := 0
  tmrEn : Bool := false
  evq : List Nat := []
  ecause : Word := 0
  /-- BNK_SEL as stored, and the bank that the window uses. -/
  bnkSel : BitVec 6 := 0
  bnkUse : BitVec 6 := 0
  bnkOwnRd : BitVec 6 := 0
  trigTick : Word := 0
  userCtx : BitVec 10 := 0
  userA : BitVec 32 := 0
  userB : BitVec 60 := 0
  userC : Word := 0
  userTick : Word := 0
  stage : List UserRec := []
  deriving DecidableEq, Repr

/-- A word that the deposit or the spill has staged for a bank (R434, R435): the agent's code, its place, the word, and whether it ends a
record. -/
structure PortWord where
  agent : Nat
  word : Nat
  data : Word
  last : Bool
  deriving DecidableEq, Repr

/-- A density spill in progress (R435): the unit, its place in the local plane and the first word written, the words in all, the FCLK of
its first read, the counts read so far, and those of them that no word holds yet. -/
structure SpillJob where
  unit : Nat
  row0 : Nat
  dst : Nat
  total : Nat
  from_ : Nat
  done : Nat := 0
  cells : List Nat := []
  deriving DecidableEq, Repr

/-- The scratchpad banks, the deposit, the spills and the DMA engines beyond their registers (R424 to R440). -/
structure BankSt where
  /-- Word w of bank b, at 131072 × b + w. -/
  words : SMap Word := []
  /-- FCLK for which the port-B access of bank b has waited without a break (R432), and the banks whose wait has been
  reported. -/
  wait : SMap Nat := []
  waitSaid : List Nat := []
  /-- Banks found unavailable at start-up (R128). -/
  unavailable : List Nat := []
  /-- The highest poison status seen by the running transfer of engine d, and an ABORT written. -/
  dmaPoison : List Nat := []
  /-- The number after that of the frame last deposited in bank b (R433). -/
  deposited : SMap Nat := []
  dmaAbort : List Nat := []
  /-- The tick at which the running transfer of engine d began (R436). -/
  dmaAt : SMap Nat := []
  /-- Words staged for port B of bank b, oldest first, the first FCLK in which the next of them is presented, and the spills in progress
  (R430, R434, R435). -/
  staged : SMap (List PortWord) := []
  portAt : SMap Nat := []
  spill : SMap SpillJob := []
  /-- Accesses of bank b that wait for a handover to end, as port and access, oldest first (R427). -/
  held : SMap (List (Nat × BankAcc)) := []
  deriving DecidableEq, Repr


/-- A rank migration, active or the last one (R416, R420): channel, failed and spare SID, the tick of its start. -/
structure MigInfo where
  chan : Nat
  from_ : Nat
  to_ : Nat
  start : Nat
  deriving DecidableEq, Repr

/-- A BAR2 read that waits for its channel (R411): capture address, length, the tick of its arrival. -/
structure HeldRead where
  addr : Nat
  len : Nat
  at_ : Nat := 0
  deriving DecidableEq, Repr

/-- A request in the queue of its pseudo-channel (R395, R399): its place in the order of arrival, and the request. -/
structure QueuedReq where
  seq : Nat
  req : MemReq
  deriving DecidableEq, Repr

/-- Capture memory and its controller beyond their registers (R395 to R423). -/
structure MemSt where
  /-- The bytes of capture memory. -/
  bytes : SMap Byte := []
  /-- Channels that the in-service list of this cold start omits (R397, R413). -/
  omitted : List Nat := []
  /-- Poison marks by 32-byte burst: a bit per poisoned word (R418). -/
  poison : SMap Nat := []
  /-- Activations of each row in the current refresh window, and the classes of its last 64, newest first; the tick at
  which each stack's window began (R401, R408). -/
  acts : SMap Nat := []
  recent : SMap (List Nat) := []
  winStart : SMap Nat := []
  /-- The tick at which the throttle of class k on channel c ends, at 64 × c + k (R408, R409), and the ticks of a throttled
  class's activations by 64 × pseudo-channel + class. -/
  throttle : SMap Nat := []
  actAt : SMap (List Nat) := []
  /-- The request queue of each pseudo-channel, oldest first, and the requests taken so far; the tick until which the
  pseudo-channel transfers or refreshes, and the tick of its next refresh (R395, R399, R401). -/
  queue : SMap (List QueuedReq) := []
  reqSeq : Nat := 0
  busy : SMap Nat := []
  refAt : SMap Nat := []
  /-- Bytes delivered to each class as (tick, bytes), by 64 × pseudo-channel + class; the deficits of the round robin and
  the class whose turn it is (R399). -/
  share : SMap (List (Nat × Nat)) := []
  deficit : SMap Nat := []
  turn : SMap Nat := []
  /-- Postponed refreshes of each pseudo-channel (R402). -/
  postponed : SMap Nat := []
  /-- Per channel: the ticks of its interface retries, newest first, of its last request, and of its last periodic
  training (R404, R410). -/
  retries : SMap (List Nat) := []
  lastReq : SMap Nat := []
  trainAt : SMap Nat := []
  /-- Stacks whose pin-rate switch has reached its start point, those that are switching, and the tick at which each switch
  began (R406). -/
  freqReady : List Nat := []
  switching : List Nat := []
  switchAt : SMap Nat := []
  /-- The active or last migration, and whether copying is paused by a service restart (R140, R420). -/
  mig : Option MigInfo := none
  migPaused : Bool := false
  /-- Channels whose step in progress still ends in that pause (R140). -/
  migLast : List Nat := []
  /-- BAR2 reads held, oldest first, and the log2 of the window size (R325, R411). -/
  held : List HeldRead := []
  bar2Log2 : Nat := 30
  deriving DecidableEq, Repr


/-- Epochs beyond their registers: what probation was started with (R490, R501), and what the slots hold. -/
structure EpoSt where
  /-- The criteria, leap limit and leap causes of the probation in progress, and the tick at which it ends: later by each
  gated interval. -/
  crit : Nat := 0
  leapMax : Nat := 0
  leapCauses : Nat := 0
  probEnd : Nat := 0
  /-- Counted leap records written since probation started. -/
  leaps : Nat := 0
  /-- The images in LIVE, PRIOR and STAGED; none is the empty epoch, or an empty slot (R478 to R480). -/
  live : Option EpochImage := none
  prior : Option EpochImage := none
  staged : Option EpochImage := none
  /-- A LOAD_EPOCH waits for its blocks: the command, and the image once it has passed every check (R146, R484). -/
  load : Option SvcEntry := none
  /-- The tick at which the image in hand had passed every check and the links it adds were started (R484). -/
  checked : Option Nat := none
  /-- The pages that have not switched yet at the equinox in progress, the epoch it left, and whether it is a revert
  (R487, R488). -/
  todo : List Nat := []
  old : Option EpochImage := none
  oldNum : Nat := 0
  revert : Bool := false
  /-- The tick of the reset assertion of the resume in progress (R139). -/
  resume : Option Nat := none
  /-- Inputs that have appeared in the LIVE epoch, by base slot (R181), which a T1_AT_START has served. -/
  inputs : List Nat := []
  deriving DecidableEq, Repr


/-- One entry of the fail map (R420): kind 1 a rank replaced by the spare, 2 a rank out of service with no spare, 3 a
channel out of service; channel, failed SID, spare SID, PTP seconds. -/
structure FailEntry where
  kind : Nat
  chan : Nat
  sid : Nat
  spare : Nat
  secs : Nat
  deriving DecidableEq, Repr

/-- The boot flash and the fuses, which no reset clears (R137, R493 to R502). -/
structure FlashSt where
  /-- The fail map and its sequence number (R412, R415, R419, R420). -/
  failMap : List FailEntry := []
  failSeq : Nat := 0
  /-- Firmware images programmed since delivery, by slot (R498). -/
  slots : SMap FwImage := []
  /-- The anti-rollback counter, where it has been advanced since delivery (R142, R499). -/
  svn : Option Nat := none
  /-- The selector copy in use, where one has been written since delivery: slot, SEQ, copy (R494). -/
  sel : Option (Nat × Nat × Nat) := none
  deriving DecidableEq, Repr

/-- Start-up and warm reset beyond BOOT_STAT (R127 to R139). -/
structure BootSt where
  /-- The core voltage target has been sent over AVSBus (R64). -/
  avsSent : Bool := false
  /-- The microsecond at which it was sent (R65). -/
  avsAt : Nat := 0
  /-- The host endpoint has trained (R128 step 2). -/
  linkUp : Bool := false
  /-- Steps 6, 7 and 8 of R128 that have ended: bit 0, 1, 2. -/
  done : Nat := 0
  /-- Banks whose clear of step 8 has ended. -/
  cleared : List Nat := []
  /-- Slots that the ROM has rejected in this start-up, with their reasons (R128, R133). -/
  rejected : List (Nat × Nat) := []
  /-- The ROM has booted a slot in this start-up. -/
  verified : Bool := false
  /-- Lock retries made in this start-up (R128 step 5). -/
  lockTries : Nat := 0
  /-- A warm reset is asserted and not yet released. -/
  warmHeld : Bool := false
  /-- The present start-up is a warm one. -/
  warm : Bool := false
  /-- The tick at which the last warm reset was asserted, until the contexts resume. -/
  warmAt : Option Nat := none
  /-- The contexts that the last warm reset stopped (R138, R139). -/
  stopped : List Nat := []
  /-- The tick of the last READY (R330). -/
  readyAt : Nat := 0
  deriving DecidableEq, Repr

/-- The root PLL, the keeper and the reference beyond their registers (R99 to R120). -/
structure ClkSt where
  /-- The step of R106 in progress: 0 no lock, 1 acquiring, 2 frequency check, 4 waiting for SYSREF, 5 waiting for the
  release, 9 measuring bands (R104). -/
  phase : Nat := 0
  /-- Bands that this lock has tried. -/
  tried : List Nat := []
  /-- The tick counter counts: the outputs have been released since cold reset (R130). -/
  counting : Bool := false
  /-- The count with which it starts (R130). -/
  startAt : Nat := 0
  /-- The tick at which the gating in progress began, and whether the reference was lost in it (R114). -/
  gateAt : Nat := 0
  gateHoldover : Bool := false
  /-- The keeper, while it carries the timebase (R114): the tick from which its present source counts, the fraction in units of 2^-32
  tick that was left then, and its increment per edge in units of 2^-32 tick. -/
  keep : Option (Nat × Nat × Nat) := none
  /-- When the step in progress began (R106). -/
  phaseAt : Nat := 0
  /-- A failed lock waits for its retry, due then (R110, R128). -/
  retryAt : Option Nat := none
  /-- REF_HZ as the last lock took it (R99, R113), and the feedback divider in units of 2^-32 (R101). -/
  hz : Nat := 100000000
  div : Nat := 0
  /-- When the active trim last moved (R112). -/
  trimAt : Nat := 0
  deriving DecidableEq, Repr

/-- One link beyond its registers (R150 to R171). -/
structure LnkSt where
  /-- The tick B of the last release point, and the frames of that extended multiblock delivered since. -/
  base : Nat := 0
  frame : Nat := 0
  /-- An extended multiblock is released and being delivered. -/
  busy : Bool := false
  /-- In subclass 0: a release point since the link's start, from which its LEMC counts (R158). -/
  origin : Option Nat := none
  /-- The arrival margins of the last releases, newest first, per logical lane (R155). -/
  margins : List (List Nat) := []
  /-- Frame ranges that a multiblock's fault removes or flags CRC: the release point of its extended multiblock, first and last frame
  (R168, R170). -/
  drop : List (Nat × Nat × Nat) := []
  crc : List (Nat × Nat × Nat) := []
  /-- The link is down only because of clock gating (R173). -/
  gatedOnly : Bool := false
  /-- The cause ID of the lane fault that took the link down; 0 where none did (R534). -/
  cause : Nat := 0
  /-- The tick from which its watchdog counts, and that of its last recovery (R168, R534). -/
  wdFrom : Nat := 0
  upAt : Option Nat := none
  /-- The link delivers from its first release point at or after this tick (R171); 2^64 until its equinox for a link that
  LOAD_EPOCH starts (R484). -/
  fromTick : Nat := 0
  /-- That release point, once it has come. -/
  firstAt : Option Nat := none
  deriving DecidableEq, Repr

/-- One sample in a slot (R148, R159): I and Q, overranged, CRC mismatch; the release point and the frame that it belongs to, and its
stamp in units of 2^-32 tick (R156). -/
structure SlotSample where
  i : BitVec 16
  q : BitVec 16
  ovr : Bool
  crc : Bool
  b : Nat
  k : Nat
  fine : Nat
  deriving DecidableEq, Repr

/-- One frame of a slot that waits for the other slices (R162): its link, release point and frame; removed by a multiblock's fault; its
sample, where it is not lost. -/
structure WaitEntry where
  link : Nat
  b : Nat
  k : Nat
  drop : Bool
  smp : Option SlotSample
  deriving DecidableEq, Repr

/-- One slot (R162, R164, R165): its frames that wait; and, in the first slot of a source, the FIFO that all its slices share: the values
held, whether it discards, and the last frame that it judged. -/
structure SlotSt where
  wait : List WaitEntry := []
  occ : Nat := 0
  discarding : Bool := false
  judged : Option (Nat × Nat) := none
  deriving DecidableEq, Repr

/-- An overrange episode of a source (R167): the stamp of its first overranged sample, the samples since (it included),
the samples to its last overranged one, the overranged samples, and the clean samples since. -/
structure Episode where
  first : SubTick
  len : Nat
  lastOvr : Nat
  count : Nat
  clean : Nat
  deriving DecidableEq, Repr

/-- One view sample: its stamp, I and Q, and its marks (R220): bit 0 overranged, bit 1 CRC mismatch, bit 2 built from both sides of a gap. -/
structure ViewSample where
  stamp : SubTick
  i : Int
  q : Int
  mark : Nat
  deriving DecidableEq, Repr

/-- The settings of a view (R192 to R198): the source slot, MODE, k, OUT_SHIFT, FTW, PHASE; the source's SMP_PERIOD and slices, and whether it
is complex. -/
structure ViewSet where
  slot : Nat
  mode : Nat
  dec : Nat
  shift : Nat
  ftw : Nat
  phase : Nat
  per : Nat
  slices : Nat
  complex : Bool
  deriving DecidableEq, Repr

/-- The chain of a view (R192 to R199, R568). -/
structure ViewChain where
  /-- The equinox from which the source samples are counted (R193), and the stamp from which the view takes them (R568). -/
  eqx : Nat := 0
  from_ : SubTick := 0
  /-- The stamp of the anchor and its number, once it has come. -/
  anchor : Option (SubTick × Nat) := none
  /-- The number of the last source sample, and its stamp in units of 2^-32 tick. -/
  n : Nat := 0
  at_ : Nat := 0
  /-- The five integrators and the five combs of the CIC, and the last outputs of the CIC, newest first (R195): I and Q in units of
  2^-32. -/
  ints : List (Int × Int) := []
  combs : List (Int × Int) := []
  fir : List (Int × Int) := []
  /-- The marks of the source samples since the last output: bit 0 overranged, bit 1 CRC mismatch. -/
  mark : Nat := 0
  /-- Outputs still to come that are built from both sides of a gap, or partly from the zero memory (R199, R568). -/
  span : Nat := 0
  deriving DecidableEq, Repr

/-- A context's view. -/
structure ViewSt where
  cur : ViewChain := {}
  /-- The view before an equinox that changed it, with its settings, while the last frames of the old grid still need its samples
  (R216). -/
  old : Option (ViewSet × ViewChain) := none
  /-- A loss that restarts the grid has ended; the next view sample starts a grid (R204). -/
  gap : Bool := false
  /-- View samples from the switch point on, oldest first, which wait for the switch; and the source frames from the equinox tick on, which a
  changed view will take (R216, R487, R568). -/
  held : List ViewSample := []
  ahead : List (List SlotSample) := []
  deriving DecidableEq, Repr

/-- Sample ingest and views beyond their registers. -/
structure IngSt where
  /-- Lanes with clock-and-data recovery (R150), and the tick at which each lane last gained extended-multiblock lock (R169). -/
  cdr : List Nat := []
  lockAt : SMap Nat := []
  link : SMap LnkSt := []
  /-- The tick at which the LEMC dividers last restarted (R153). -/
  lemcAt : Nat := 0
  slot : SMap SlotSt := []
  /-- By source slot: the stamp of its last frame, in units of 2^-32 tick. -/
  srcAt : SMap Nat := []
  /-- Overrange episodes in progress, by source slot. -/
  epi : SMap Episode := []
  view : SMap ViewSt := []
  deriving DecidableEq, Repr

/-- One slice's coefficients (R175): GAIN, SKEW and OFFSET in their register units. -/
structure IcCoef where
  gain : Int := 0
  skew : Int := 0
  ofs : Int := 0
  deriving DecidableEq, Repr

/-- One slice over an estimation span (R177, R179): its samples, their sum and the sum of their squares. -/
structure IcAcc where
  n : Nat := 0
  sum : Int := 0
  sq : Nat := 0
  deriving DecidableEq, Repr

/-- One corrected input, by its base slot (R178 to R191). -/
structure IcSt where
  /-- The cause of the run requested or in progress, and the tick of its request. -/
  cause : Nat := 0
  reqAt : Nat := 0
  /-- The tick of the run's start, and the stamp of the first sample withheld in units of 2^-32 tick, once it has come. -/
  start : Nat := 0
  from_ : Option Nat := none
  /-- The coefficients in force when the run started, and those of the last accepted run (R180). -/
  saved : List IcCoef := []
  ref : List IcCoef := []
  /-- By slice: what tier 0, or the window in progress, has seen; and what window 1 saw. -/
  acc : List IcAcc := []
  acc1 : List IcAcc := []
  /-- Window 1's estimate, once it is complete: per slice, and whether the slice was below MIN_LEVEL. -/
  est1 : List (IcCoef × Bool) := []
  /-- Source frames that wait in the corrector's delay line for the end of the test (R184), oldest first. -/
  line : List (List SlotSample) := []
  /-- The tick at which T1_HOLD has passed since the last run's end (R181); none where no hold runs. -/
  holdTo : Option Nat := none
  /-- A temperature or bounds cause is present (R182). -/
  tempCause : Bool := false
  boundsCause : Bool := false
  /-- Corrector settings of a new epoch that wait for the end of a run, as page, field and value (R190). -/
  later : List (Nat × Fld × Nat) := []
  /-- The read-only registers of the input while no context shows them, in the order of their fields (R201). -/
  shown : List Nat := []
  deriving DecidableEq, Repr


/-- A buffer that a frame reads (R389): the layer, the address, and 64 × job + 32 × buffer where it is a job's. -/
structure Latch where
  layer : Nat
  addr : Nat
  job : Option Nat
  deriving DecidableEq, Repr

/-- One display head beyond its registers (R367 to R391). -/
structure DspHead where
  /-- The buffers that the present frame latched, and the guard tags as first read in it, by layer. -/
  latched : List Latch := []
  tag : SMap Nat := []
  /-- Layers that show their fill colour in this frame, each from a line on (R377). -/
  fill : List (Nat × Nat) := []
  /-- The line store: the pixels of line y of layer l at 4096 × l + y, each Y × 2^20 + Cb × 2^10 + Cr. -/
  lines : SMap (List Nat) := []
  /-- The next active line to be sent; the frame is aborted (R380), blank (R387), overlaps link training (R388). -/
  sent : Nat := 0
  aborted : Bool := false
  blank : Bool := false
  unlinked : Bool := false
  /-- The frame at which a timing-mode change in progress began (R387). -/
  modeFrom : Option Nat := none
  /-- That change waits for the link to be trained. -/
  modeTrain : Bool := false
  /-- The clocks have been released since the last frame start (R388); an epoch image waits for the frame start (R384). -/
  regate : Bool := false
  image : Bool := false
  /-- A training attempt runs; failed attempts in succession; the tick of the last failure. -/
  training : Bool := false
  attempts : Nat := 0
  failedAt : Nat := 0
  /-- The tick at which the attempt in progress started; a failed link waits for its next try (R371). -/
  trainAt : Nat := 0
  waiting : Bool := false
  /-- The tick at which DP_HPD last fell (R371). -/
  hpdFell : Nat := 0
  /-- An AUX transaction waits for training to end (R372). -/
  auxWait : Bool := false
  /-- The tick at which VSYNC was started in a TE-synchronised frame (R385). -/
  vsync : Option Nat := none
  /-- When the present frame started, in units of 2^-27 tick, once the raster runs (R369). -/
  startAt : Option Nat := none
  /-- The gamma tables: entry e of channel c of bank b at 4096 × b + 1024 × c + e (R378). -/
  gamma : SMap Nat := []
  deriving DecidableEq, Repr


/-- One member of a recorder set (R339, R340): its identity, whether it has failed, its LBA and chunk counts, its allocation
cursor, HDR_SEQ, and its free chunks. -/
structure RecMember where
  id : RecMemberId
  failed : Bool := false
  lbas : Nat := 0
  chunks : Nat := 0
  next : Nat := 0
  hdrSeq : Nat := 0
  free : Nat := 0
  deriving DecidableEq, Repr

/-- A chunk in the writing (R341): context, kind (1 raw, 2 spectral, 3 almanac), member and chunk number, CHUNK_SEQ,
FIRST_INDEX, FIRST_TICK and LAST_TICK, its items and its data so far, epoch, RECORD_BYTES, PREV_CRC, recording, LAST,
REWRITTEN. -/
structure RecChunk where
  ctx : Nat
  kind : Nat
  mem : Nat
  num : Nat
  seq : Nat := 0
  firstIndex : Nat
  firstTick : Nat
  lastTick : Nat
  data : List Byte := []
  epoch : Nat
  recBytes : Nat
  prev : Nat := 0
  number : Nat
  last : Bool := false
  rewritten : Bool := false
  deriving DecidableEq, Repr

/-- An NVMe command outstanding (R342, R343): the member, what it does (0 chunk data, 1 chunk header, 2 index entry with
STATE 2, 3 volume header, 4 Flush, 5 Deallocate, 6 index entry with STATE 1), the chunk, its NVMe opcode, first LBA and bytes, its retries
so far, the tick of its last issue. -/
structure NvmeCmd where
  mem : Nat
  kind : Nat
  chunk : Nat
  op : Nat
  lba : Nat
  data : List Nat
  tries : Nat
  at_ : Nat
  deriving DecidableEq, Repr

/-- One recorder handle (R339 to R343). -/
structure RecHandle where
  opened : Bool := false
  setId : Nat := 0
  wrap : Bool := false
  format : Bool := false
  members : List RecMember := []
  /-- Recordings started in the set, and the number of the one in progress. -/
  recordings : Nat := 0
  number : Nat := 0
  running : Bool := false
  /-- The stop has come: the drains read what was written before it. -/
  ending : Bool := false
  /-- Start and stop ticks that have not come. -/
  startAt : Option Nat := none
  stopAt : Option Nat := none
  /-- REC_OPEN, REC_STOP and REC_CLOSE that have not completed. -/
  opening : Option SvcEntry := none
  stopping : Option SvcEntry := none
  closing : Option SvcEntry := none
  /-- The set is full under STOP policy (R339); no member remains (R343). -/
  full : Bool := false
  broken : Bool := false
  /-- Chunks being filled, by 4 × context + kind, and full ones being written, by number of arrival. -/
  fill : SMap RecChunk := []
  writing : SMap RecChunk := []
  nextId : Nat := 0
  /-- By kind of the recording in progress: chunks so far, and the HDR_CRC of the last. By 4 × context + kind: items so far. -/
  seqs : SMap Nat := []
  prevs : SMap Nat := []
  items : SMap Nat := []
  /-- By kind: the member whose turn it is. -/
  turn : SMap Nat := []
  cmds : List NvmeCmd := []
  /-- Flushes have been asked for, and the members whose Flush has succeeded since. -/
  flushing : Bool := false
  flushed : List Nat := []
  written : Nat := 0
  samples : Nat := 0
  /-- The tick of the last progress, and of the last failure of a member with its cause ID (R343, R534). -/
  progress : Nat := 0
  failAt : Option Nat := none
  cause : Nat := 0
  deriving DecidableEq, Repr

/-- One item that a stream slot has drained and not sent (R345): context, kind (0 raw, 1 spectral), stamp, bytes, whether it
does not follow its predecessor, whether a leap lies before it, over-range. -/
structure StrItem where
  ctx : Nat
  kind : Nat
  stamp : SubTick
  bytes : List Byte
  brk : Bool
  loss : Bool
  ovr : Bool
  deriving DecidableEq, Repr

/-- One stream slot (R345 to R348). Data streams are numbered 2 × context + content. -/
structure StrSlot where
  desc : Option StreamDesc := none
  running : Bool := false
  /-- A start and a stop whose tick has not come (R330). -/
  startAt : Option Nat := none
  stopAt : Option Nat := none
  items : List StrItem := []
  /-- Almanac records not sent, with their context, and the tick at which the first of them was drained. -/
  alm : List (Nat × List Nat) := []
  almAt : Nat := 0
  /-- The packet count, and the port whose turn it is. -/
  count : Nat := 0
  turn : Nat := 0
  /-- Data streams whose context packet is due; by data stream, the tick and the fields of the last one. -/
  ctxDue : List Nat := []
  ctxAt : SMap Nat := []
  lastCtx : SMap (List Nat) := []
  /-- By context: its overranged samples up to the last context packet of each data stream (R347). -/
  ovrAt : SMap Nat := []
  deriving DecidableEq, Repr

/-- The recorder and the streamer. -/
structure NetSt where
  rec_ : SMap RecHandle := []
  str : SMap StrSlot := []
  /-- Bytes written through root port i, as (i, tick, bytes), newest first (R364). -/
  wrote : List (Nat × Nat × Nat) := []
  /-- The usable namespaces that have been found (R364). -/
  seen : List RecMemberId := []
  deriving DecidableEq, Repr

/-- The Deltan bus beyond its registers (R354 to R361). -/
structure DlbSt where
  /-- The source: SEQ and tick of the last SECOND frame sent. -/
  seq : Nat := 0
  sentT : Option Nat := none
  /-- The lowest position marked REVERSED (R359). -/
  marked : Option Nat := none
  /-- An extra measurement has been asked for (R366). -/
  measure : Bool := false
  /-- A follower: its stamp of the last SECOND, that frame's tick, and whether an answer is still to be sent. -/
  rp : SubTick := 0
  rxT : Nat := 0
  rxSeen : Bool := false
  owe : Bool := false
  /-- The source's offset as the last SECOND gave it: seconds, ns, fraction (R358). -/
  off : Nat × Nat × Nat := (0, 0, 0)
  /-- By trigger line: the ticks of the edges of the last 1 ms, newest first (R355). -/
  edges : SMap (List Nat) := []
  deriving DecidableEq, Repr


/-- The time service beyond its registers (R349 to R353). -/
structure PtpSt where
  /-- TIME_SRC of PTP_CFG: 0 none, and the rest of its block. -/
  src : Nat := 0
  cfg : Option PtpConfig := none
  /-- The status that PTP_STATUS returns. -/
  portState : Nat := 0
  servo : Nat := 0
  gm : Nat := 0
  steps : Nat := 0
  offset : Int := 0
  delay : Int := 0
  /-- The tick of the last commit of an offset. -/
  commitAt : Option Nat := none
  /-- PTP times in 2^-16 ns (R350): a Sync's arrival whose Follow_Up is to come; the last Sync's way from the master, departure to
  arrival; the departure of a Delay_Req that has not been answered. -/
  syncAt : Option Int := none
  fromMaster : Option Int := none
  reqAt : Option Int := none
  /-- By 4 × port + message: the tick of the last one sent; by port: the stamp of a Sync whose Follow_Up is owed. -/
  sentAt : SMap Nat := []
  owed : SMap SubTick := []
  deriving DecidableEq, Repr

/-- The housekeeping converter beyond its registers (R503 to R515). -/
structure HkSt where
  /-- CONV_CFG as read at GO: input, ORDER, DEC − 1, AVG − 1, continuous. -/
  input : Nat := 0
  order : Nat := 4
  decM1 : Nat := 4095
  avgM1 : Nat := 0
  cont : Bool := false
  /-- STOP has been written. -/
  stop : Bool := false
  /-- The earliest tick at which the conversion or the calibration in progress has its next result. -/
  dueAt : Nat := 0
  /-- The tick at which the conversion in progress started, or starts when the open-wire test of its pin ends (R87). -/
  startAt : Nat := 0
  /-- The last result was overranged: the next conversion starts after recovery. -/
  recover : Bool := false
  /-- The conversion in progress started after recovery. -/
  recovery : Bool := false
  /-- A calibration uses the reset settings (R144, R509). -/
  wakeCal : Bool := false
  /-- The tick of the last reading of each sensor. -/
  readAt : SMap Nat := []
  /-- The sequence in force (R512): entries, frame period in µs, rotating entries per frame, the next rotating entry, the
  conversions left in the present frame, the tick at which the next frame is due, a frame that is late, a calibration due. -/
  seq : List HkEntry := []
  period : Nat := 0
  rotN : Nat := 0
  rotAt : Nat := 0
  todo : List HkEntry := []
  frameAt : Nat := 0
  late : Bool := false
  calDue : Bool := false
  /-- The conversions that follow that calibration before the frames go on (R513). -/
  again : List HkEntry := []
  /-- The comparators whose LO threshold read back wrong, as a mask (R524). -/
  dacLo : Nat := 0
  deriving DecidableEq, Repr

/-- One ramp (R517): its value with 16 fraction bits and the comparator time of that value, and the comparator time from which
its period counts. -/
structure RampSt where
  val : Int := 0
  at_ : Nat := 0
  since : Nat := 0
  deriving DecidableEq, Repr

/-- One comparator beyond its registers (R518 to R521), in comparator time: its input in µV; the ends of its blanking and of
its enable blanking; w. -/
structure CmpCh where
  uv : Int := 0
  blankTo : Nat := 0
  enTo : Nat := 0
  enabling : Bool := false
  w : Bool := false
  deriving DecidableEq, Repr

/-- The window comparators. Comparator time is the tick counter less the ticks of gated intervals (R523). -/
structure CmpSt where
  off : Nat := 0
  ramp : SMap RampSt := []
  ch : SMap CmpCh := []
  deriving DecidableEq, Repr


/-- A change on its way to an input of a trigger unit (R275, R277): the tick at which the unit samples it, the input (8 is
the arming source A), a pulse or the end of its stretch, the value, the stamp. -/
structure TruChg where
  at_ : Nat
  idx : Nat
  pulse : Bool
  fall : Bool
  val : Bool
  stamp : SubTick
  /-- A mask trace that read an uncorrectable segment caused it (R270). -/
  bad : Bool
  deriving DecidableEq, Repr

/-- One input of a trigger unit as sampled (R275): the source's value, with a pulse as held, its stamp, and whether it is
held from a word with a parity error (R287). -/
structure TruIn where
  val : Bool := false
  stamp : SubTick := 0
  bad : Bool := false
  deriving DecidableEq, Repr

/-- One trigger unit beyond its registers (R275 to R279). -/
structure TruSt where
  /-- Inputs 0 to 7. -/
  inp : List TruIn := List.replicate 8 {}
  /-- The arming source, and the tick at which it primed the unit. -/
  arm : TruIn := {}
  primeAt : Nat := 0
  /-- The stamp tick of the first counted event. -/
  first : Nat := 0
  /-- The last tick of a hold-off in ticks, and the events still to be ignored. -/
  holdTo : Nat := 0
  holdLeft : Nat := 0
  /-- Changes on their way, earliest first. -/
  chg : List TruChg := []
  deriving DecidableEq, Repr

/-- One firing in a coincidence group (R284): unit, completing source code and SIG, flags, the contexts that took it as
their trigger point. -/
structure Firing where
  unit : Nat
  code : Nat
  sig : Nat
  suspect : Bool
  forced : Bool
  caps : List Nat
  deriving DecidableEq, Repr

/-- A coincidence group that has not closed: its stamp, the tick at which its first firing reached the collector, its
firings. -/
structure CoincGroup where
  stamp : SubTick
  at_ : Nat
  firings : List Firing
  deriving DecidableEq, Repr

/-- A change of a source on the trigger network (R266, R286): the tick at which it reaches the units, the source and its signal, a pulse or
a level's value, the stamp; `bad` where a mask trace that read an uncorrectable segment caused it (R270). It is kept until it has left
the router (R289). -/
structure NetEvt where
  at_ : Nat
  code : Nat
  sig : Nat
  pulse : Bool
  val : Bool
  stamp : SubTick
  bad : Bool
  deriving DecidableEq, Repr

/-- A transition that a level source has found (R271): the FCLK in which its sample leaves the view stage, a pulse or the level's value, the
sample's stamp. -/
structure LvlEvt where
  at_ : Nat
  pulse : Bool
  val : Bool
  stamp : SubTick
  deriving DecidableEq, Repr

/-- A level source (R271): the level of modes 0 and 1, whether RISE and FALL have cleared, the FCLK of the last transition reported, the
level reported last, and the transitions still in the view stage. -/
structure LvlSt where
  told : Bool := false
  todo : List LvlEvt := []
  level : Bool := false
  clrRise : Bool := false
  clrFall : Bool := false
  at_ : Nat := 0
  /-- A leap has passed since the last sample. -/
  leapt : Bool := false
  deriving DecidableEq, Repr

/-- One TRIG_IN pin (R272): its level, the level accepted last, and the change inside its filter with its tick and stamp. -/
structure TinSt where
  raw : Bool := false
  acc : Bool := false
  chg : Option (Nat × SubTick) := none
  deriving DecidableEq, Repr

/-- The trigger network beyond its registers (R265 to R295). -/
structure TrgSt where
  /-- Output pulses in progress, by line: 0 to 7 TRIG_OUT, 8 to 15 PROT_OUT, 16 to 21 Deltan trigger lines; the tick at which
  each ends. -/
  lineEnd : SMap Nat := []
  /-- Changes of sources on the network, earliest first. -/
  net : List NetEvt := []
  /-- By schedule timer, the tick of the write that armed it or moved it (R274). -/
  schedAt : SMap Nat := []
  /-- The level sources that are 1, by source code (R265, R266). -/
  src : SMap Nat := []
  unit : SMap TruSt := []
  groups : List CoincGroup := []
  /-- Level sources, by 2 × context + number. -/
  lvl : SMap LvlSt := []
  tin : SMap TinSt := []
  /-- Masks that judge their next trace as if the previous one had not violated, by 2 × context + mask (R270). -/
  fresh : List Nat := []
  /-- Mask stores: segment word a of pipeline p at 16384 × p + a (R267, R268). -/
  store : SMap Nat := []
  deriving DecidableEq, Repr

/-- One frame that has become ready and has not been emitted (R205 to R212). -/
structure XfFrame where
  /-- Its number since the context's start, its number on its grid, its first sample's stamp, its samples, oldest first, and the marks of
  those. -/
  seq : Nat
  grid : Nat
  start : SubTick
  data : List (Int × Int)
  marks : Nat
  /-- The pipeline it goes to, N, the hop, E of R221. -/
  pipe : Nat
  n : Nat
  hop : Nat
  exp : Int
  /-- 0 waiting, 1 being read, 2 read; the ticks at which it became ready and at which its read started. -/
  phase : Nat
  at_ : Nat
  readAt : Nat := 0
  /-- The window words that its read found uncorrectable, and DB_OFFSET as its magnitude stage takes it; it opens a grid. -/
  bad : List Nat := []
  offset : Int := 0
  opens : Bool
  /-- It belongs to the settings that follow the switch point (R216). -/
  new : Bool
  /-- The period of its view, and its order: 0 a real view, 1 a complex one in natural order, 2 a zoom (R206). -/
  per : Nat
  order : Nat
  deriving DecidableEq, Repr

/-- A run of dropped frames whose leap is not written (R215): its first frame's number and stride, the strides, and the
view samples of one. -/
structure DropRun where
  seq : Nat
  start : SubTick
  strides : Nat
  hop : Nat
  /-- The view period of its frames. -/
  per : Nat
  deriving DecidableEq, Repr

/-- The averaging of one trace (R227): the block in progress as its number, its first frame's stamp, its frames, the number of its last
frame, flags and strides, and whether the grid restarted since the last trace emitted. -/
structure AvgSt where
  blk : Nat := 0
  start : SubTick := 0
  frames : Nat := 0
  last : Nat := 0
  flags : Nat := 0
  strides : Nat := 0
  restarted : Bool := false
  /-- By point, with 16 fraction bits: the exponential average, or the sum over the block; empty where none has begun. The DB_OFFSET of the
  last frame. -/
  acc : List Int := []
  offset : Int := 0
  deriving DecidableEq, Repr

/-- What the transform emitted last for a context (R220): a frame's, or a stored trace's, number, EXP, flags and stamp; for a frame its complex
bins as R219 packs them and its power bins in dB, for stored traces their bytes (R433). -/
structure Emitted where
  seq : Nat
  exp : Nat
  flags : Nat
  start : SubTick
  bins : List Nat := []
  db : List Nat := []
  body : List Byte := []
  deriving DecidableEq, Repr

/-- A grid of frames (R204). -/
structure XfGrid where
  /-- The number, since the context's start, of its frame 0, and the number on the grid of the next frame to become ready. -/
  seq0 : Nat
  next : Nat := 0
  /-- The view samples that it has taken, and those that a frame may still need, newest first. -/
  got : Nat := 0
  hist : List ViewSample := []
  /-- The ticks at which the last samples of the next frames leave the view stage, earliest first (R176, R290). -/
  full : List Nat := []
  /-- N, the hop, the view's period and its order (R206). -/
  n : Nat
  hop : Nat
  per : Nat
  order : Nat
  /-- The sample at which it ends: no frame starts there or later (R216). -/
  stop : Option Nat := none
  /-- No frame has been kept since it restarted the grid before it (R227). -/
  opens : Bool
  deriving DecidableEq, Repr

/-- One context's transform beyond its registers (R203 to R229). -/
structure XfCtx where
  /-- The number, since the context's start, of the first frame of the next grid. -/
  seq : Nat := 0
  /-- The grid in progress, and the one before the switch point while its last frames are not all ready (R216). -/
  cur : Option XfGrid := none
  prev : Option XfGrid := none
  /-- The context has passed the switch point at which it stops (R216, R488). -/
  ending : Bool := false
  /-- Frames ready and not emitted, in frame order. -/
  frames : List XfFrame := []
  runs : List DropRun := []
  avg : SMap AvgSt := []
  /-- Field values that take effect with the first frame of the new grid, as page, field and value (R216, R247, R288). -/
  next : List (Nat × Fld × Nat) := []
  /-- Masks 0 and 1 and level sources 2 and 3 that the switch changes (R288). -/
  renewed : List Nat := []
  /-- The last frame emitted, and the last traces stored, which a deposit may take (R433). -/
  out : Option Emitted := none
  outT : Option Emitted := none
  deriving DecidableEq, Repr

/-- One pipeline beyond its registers (R207 to R214): when it last dropped a frame, the points read in each of the last 2^16-FCLK
intervals, newest first, the running one at the head, and the tick at which that one began. -/
structure XfPipe where
  lastDrop : Nat := 0
  reads : List Nat := []
  loadAt : Nat := 0
  deriving DecidableEq, Repr

/-- The transform array. -/
structure XfSt where
  ctx : SMap XfCtx := []
  pipe : SMap XfPipe := []
  /-- Window stores: word a of pipeline p at 65536 × p + a, and the words that are uncorrectable (R207, R209). -/
  win : SMap Nat := []
  winBad : List Nat := []
  deriving DecidableEq, Repr

/-- A density trace (R235): the stamp of its first frame's first sample, and its points. -/
structure DenTrace where
  stamp : SubTick
  pts : List Int
  deriving DecidableEq, Repr

/-- One density unit beyond its registers (R234 to R250). Binding-wide parts are the lead unit's. -/
structure DenUnit where
  /-- The counters that are not 0, by row × row length + local column. -/
  cells : SMap Nat := []
  /-- Points in the input FIFO, as of tick `at_`. -/
  occ : Nat := 0
  at_ : Nat := 0
  /-- Traces that have reached the unit, and those accepted, oldest first. -/
  arr : List DenTrace := []
  acc : List DenTrace := []
  /-- Traces since the last pass fell due, passes due, a pass running, a pass held (R244, R245). -/
  count : Nat := 0
  due : Nat := 0
  run : Bool := false
  held : Bool := false
  /-- The tick at which the pass that is running started (R244). -/
  passAt : Nat := 0
  /-- Traces received since the last clear (R255). -/
  since : Nat := 0
  deriving DecidableEq, Repr

/-- One tone-mapper job beyond its registers (R251 to R260). -/
structure TmpJob where
  gen : Nat := 0
  /-- The tick at which the next readout falls due under SYNC 0; a head's frame start has made one fall due. -/
  next : Nat := 0
  due : Bool := false
  /-- The tick at which the readout in progress started, its header word 2, and NO_DATA. -/
  started : Nat := 0
  traces : Nat := 0
  noData : Bool := false
  /-- The deferral of the readout pending has been counted. -/
  deferred : Bool := false
  /-- A trace job's value per column, and the traces received since the last readout (R260). -/
  v : List Int := []
  got : Nat := 0
  /-- The readout in progress: its unit, columns and rows; the tick from which its cells are read, four in each, and the counts read so far, from
  the top row down; or a trace image's values (R253, R256). -/
  unit : Nat := 0
  cols : Nat := 0
  rows : Nat := 0
  from_ : Nat := 0
  cells : List Nat := []
  img : List Int := []
  /-- Words that the job's readout is to find uncorrectable, as unit of the gang and word (R234). -/
  bad : List (Nat × Nat) := []
  deriving DecidableEq, Repr

/-- The tone mapper (R251 to R264). -/
structure TmpSt where
  job : SMap TmpJob := []
  /-- The job being read out, and those that wait, in the order in which they fell due. -/
  run : Option Nat := none
  wait : List Nat := []
  /-- Buffers that a head has taken and not retired: 64 × job + 32 × buffer + head (R257). -/
  taken : List Nat := []
  /-- The palette store: Cb × 1024 + Cr of entry e of palette p at 1024 × p + e (R259). -/
  pal : SMap Nat := []
  deriving DecidableEq, Repr

/-- The state of the part. -/
structure State where
  /-- The register fields whose value differs from their reset value, by page, offset and bottom bit; the active
  copies of shadowed fields stand 2^40 above (Machine/Ops.lean). -/
  rf : SMap Nat := []
  /-- The tick counter (R121). -/
  tick : Nat := 0
  /-- The time since the internal reset was released, in units of 625 ps, until the tick counter starts (R127, R130). -/
  upTime : Nat := 0
  page : PageSt := {}
  ev : EvSt := {}
  rel : RelSt := {}
  pwr : PwrSt := {}
  tio : TioSt := {}
  acq : AcqSt := {}
  core : SMap CoreSt := []
  bank : BankSt := {}
  mem : MemSt := {}
  epo : EpoSt := {}
  trg : TrgSt := {}
  xf : XfSt := {}
  den : SMap DenUnit := []
  tmp : TmpSt := {}
  dsp : SMap DspHead := []
  ptp : PtpSt := {}
  flash : FlashSt := {}
  boot : BootSt := {}
  clk : ClkSt := {}
  ing : IngSt := {}
  svc : SvcSt := {}
  ic : SMap IcSt := []
  net : NetSt := {}
  dlb : DlbSt := {}
  hk : HkSt := {}
  cmp : CmpSt := {}
  /-- The commands that wait, first in, first out. -/
  pending : List Instr := []
  /-- What has left the part, newest first (the model's own record). -/
  out : List Output := []
  /-- Free values used so far (the model's own counter). -/
  freeCnt : Nat := 0
  deriving DecidableEq, Repr

/-- The part right after power-on reset, before any rail is up. -/
def State.reset : State := {}

end Sys2Proof.Machine
end

