-- ==== Sys2Proof/Machine/Ops.lean ====
section
/-!
DEFINITION. The named operations that every command is built from: sparse maps, register fields, the tick
counter, free values, outputs and the bytes of capture memory.
-/
namespace Sys2Proof.Machine

/-! Sparse maps. -/

/-- The value listed for key `k`, if any. -/
def smFind {α : Type} (k : Nat) : SMap α → Option α
  | [] => none
  | (j, v) :: m => if j = k then some v else smFind k m

/-- `m` with key `k` not listed. -/
def smErase {α : Type} (k : Nat) (m : SMap α) : SMap α := m.filter (fun x => x.1 != k)

/-- `m` with key `k` listed with `v`, in its place of the rising order. -/
def smInsert {α : Type} (k : Nat) (v : α) : SMap α → SMap α
  | [] => [(k, v)]
  | (j, w) :: m =>
    if j = k then (k, v) :: m else if k < j then (k, v) :: (j, w) :: m else (j, w) :: smInsert k v m

/-- The value at `k`, where an unlisted key has `d`. -/
def smGet {α : Type} (d : α) (k : Nat) (m : SMap α) : α := (smFind k m).getD d

/-- `m` with `v` at `k`, where an unlisted key has `d`: writing `d` removes the entry. -/
def smSet {α : Type} [DecidableEq α] (d : α) (k : Nat) (v : α) (m : SMap α) : SMap α :=
  if v = d then smErase k m else smInsert k v m

/-- Every key of `m` is above `k`. -/
def smAbove {α : Type} (k : Nat) (m : SMap α) : Prop := ∀ p ∈ m, k < p.1

/-- The canonical form: keys strictly rising, and no value equal to what an unlisted key has. -/
def smWf {α : Type} [DecidableEq α] (d : α) : SMap α → Bool
  | [] => true
  | [(_, v)] => v ≠ d
  | (j, v) :: (k, w) :: m => v ≠ d && j < k && smWf d ((k, w) :: m)

/-! Bits and counters. -/

/-- Bit `i` of `n`. -/
def bit (n i : Nat) : Nat := n / 2 ^ i % 2

/-- `n` with bit `i` set. -/
def setBit (n i : Nat) : Nat := if n.testBit i then n else n + 2 ^ i

/-- `n` with bit `i` clear. -/
def clrBit (n i : Nat) : Nat := if n.testBit i then n - 2 ^ i else n

/-- `n` with bit `i` at `b`. -/
def putBit (n i : Nat) (b : Bool) : Nat := if b then setBit n i else clrBit n i

/-- Bits [hi:lo] of `n` (R5). -/
def bits (n hi lo : Nat) : Nat := n / 2 ^ lo % 2 ^ (hi - lo + 1)

/-- The `w`-bit part of `n` from bit `lo` on. -/
def part (n lo w : Nat) : Nat := n / 2 ^ lo % 2 ^ w

/-- `n` with its `w`-bit part from bit `lo` on at `v`. -/
def setPart (n lo w v : Nat) : Nat := n - part n lo w * 2 ^ lo + v % 2 ^ w * 2 ^ lo

/-- `n` read as a signed number of `w` bits. -/
def signed (w n : Nat) : Int := if n % 2 ^ w < 2 ^ (w - 1) then (n % 2 ^ w : Nat) else (n % 2 ^ w : Nat) - (2 ^ w : Nat)

/-- The `w`-bit number that stands for the integer `i`. -/
def unsigned (w : Nat) (i : Int) : Nat := (i % (2 ^ w : Nat)).toNat

/-- `i` limited to [lo, hi]. -/
def clampInt (lo hi i : Int) : Int := if i < lo then lo else if hi < i then hi else i

/-- A decision as a bit. -/
def b2n (b : Bool) : Nat := if b then 1 else 0

/-- The bits below `n` at which `w` is 1, rising. -/
def bitsOf (n w : Nat) : List Nat := (List.range n).filter (fun i => w.testBit i)

/-! Register fields. -/

/-- Where field `f` of page `p` stands in the register file. -/
def fkey (p : Nat) (f : Fld) : Nat := (p * 4096 + f.off) * 64 + f.lo

/-- Where the active copy of a shadowed field stands (R47). -/
def akey (p : Nat) (f : Fld) : Nat := 2 ^ 40 + fkey p f

/-- The value of field `f` of page `p`. -/
def State.rd (s : State) (p : Nat) (f : Fld) : Nat := smGet f.rst (fkey p f) s.rf

/-- `s` with field `f` of page `p` at `v`, cut to the field's width. -/
def State.wr (s : State) (p : Nat) (f : Fld) (v : Nat) : State :=
  { s with rf := smSet f.rst (fkey p f) (v % 2 ^ f.width) s.rf }

/-- The active copy of a shadowed field (R47). -/
def State.rdA (s : State) (p : Nat) (f : Fld) : Nat := smGet f.rst (akey p f) s.rf

/-- `s` with the active copy of a shadowed field at `v`. -/
def State.wrA (s : State) (p : Nat) (f : Fld) (v : Nat) : State :=
  { s with rf := smSet f.rst (akey p f) (v % 2 ^ f.width) s.rf }

/-- Field `f` of page `p` read as a signed number. -/
def State.rdS (s : State) (p : Nat) (f : Fld) : Int := signed f.width (s.rd p f)

/-- Field `f` of page `p` written with a signed number. -/
def State.wrS (s : State) (p : Nat) (f : Fld) (i : Int) : State := s.wr p f (unsigned f.width i)

/-- A field that counts and stays at its largest value (R37, R172 and others, "saturating"). -/
def State.bumpSat (s : State) (p : Nat) (f : Fld) (n : Nat) : State :=
  s.wr p f (min (s.rd p f + n) (2 ^ f.width - 1))

/-- A field that counts modulo its width. -/
def State.bump (s : State) (p : Nat) (f : Fld) (n : Nat) : State := s.wr p f (s.rd p f + n)

/-- A field that holds the highest value seen. -/
def State.peak (s : State) (p : Nat) (f : Fld) (v : Nat) : State :=
  if s.rd p f < v then s.wr p f v else s

/-- Several fields of one page written in turn. -/
def State.wrs (s : State) (p : Nat) (l : List (Fld × Nat)) : State := l.foldl (fun t x => t.wr p x.1 x.2) s

/-- Field `f` of page `p` is 1. -/
def State.on (s : State) (p : Nat) (f : Fld) : Bool := s.rd p f == 1

/-! Time, free values, outputs. -/

/-- The edges that the keeper `k` has counted by tick `t` (R114): its tick of origin, the fraction left there, its increment. -/
def keepEdges (k : Nat × Nat × Nat) (t : Nat) : Nat := ((t + 1 - k.1) * 2 ^ 32 - 1 - k.2.1) / k.2.2

/-- The keeper's count after those edges, in units of 2^-32 tick beyond its origin. -/
def keepSum (k : Nat × Nat × Nat) (t : Nat) : Nat := k.2.1 + keepEdges k t * k.2.2

/-- The tick counter at tick `t`, while the keeper carries it: it moves by the increment at each edge, and carries the fraction. -/
def keepTick (k : Nat × Nat × Nat) (t : Nat) : Nat := k.1 + keepSum k t / 2 ^ 32

/-- The time carried forward to tick `t`: the tick counter never steps backward (R120, R121), the keeper carries it while the clocks
are gated (R114), and it holds its reset value until the first release (R130); before that, `t` counts from the release of the
internal reset. -/
def State.advance (s : State) (t : Nat) : State :=
  if s.clk.counting then
    { s with tick := max s.tick (match s.clk.keep with
      | none => t
      | some k => keepTick k t) }
  else { s with upTime := max s.upTime t }

/-- The time now: the tick counter's, or before the first release the time since the internal reset was released. -/
def State.now (s : State) : Nat := if s.clk.counting then s.tick else s.upTime

/-- `s` with one more output. -/
def State.emit (s : State) (o : Output) : State := { s with out := o :: s.out }

/-- The next free value, and `s` with it used up (notes/assumptions/3). -/
def State.free (s : State) : Nat × State := (Config.freeValue s.freeCnt, { s with freeCnt := s.freeCnt + 1 })

/-! Capture memory, byte by byte (R5: little-endian words). -/

/-- What a byte of capture memory reads as where nothing has been written (notes/assumptions/5). -/
def memDefault : Byte := 0

/-- The byte at capture address `a`. -/
def State.byteAt (s : State) (a : Nat) : Byte := smGet memDefault a s.mem.bytes

/-- `s` with byte `b` at capture address `a`. -/
def State.setByte (s : State) (a : Nat) (b : Byte) : State :=
  { s with mem := { s.mem with bytes := smSet memDefault a b s.mem.bytes } }

/-- `n` bytes from capture address `a`, lowest first. -/
def State.readBytes (s : State) (a n : Nat) : List Byte := (List.range n).map (fun i => s.byteAt (a + i))

/-- `s` with bytes `l` from capture address `a` on. -/
def State.writeBytes (s : State) (a : Nat) : List Byte → State
  | [] => s
  | b :: l => (s.setByte a b).writeBytes (a + 1) l

/-- The `n` bytes of a number, least significant first. -/
def leBytes : Nat → Nat → List Byte
  | 0, _ => []
  | n + 1, v => BitVec.ofNat 8 v :: leBytes n (v / 256)

/-- The number that bytes spell, least significant first. -/
def ofLeBytes : List Byte → Nat
  | [] => 0
  | b :: l => b.toNat + 256 * ofLeBytes l

/-- The `n`-byte number at capture address `a`. -/
def State.readNat (s : State) (a n : Nat) : Nat := ofLeBytes (s.readBytes a n)

/-- `s` with the `n`-byte number `v` at capture address `a`. -/
def State.writeNat (s : State) (a n v : Nat) : State := s.writeBytes a (leBytes n v)

/-- 64-bit words written from capture address `a` on. -/
def State.writeWords (s : State) (a : Nat) (ws : List Nat) : State := s.writeBytes a (ws.flatMap (leBytes 8))

/-! Repeated work. -/

/-- `f` applied for each element of `l` in turn. -/
def State.each {α : Type} (s : State) (l : List α) (f : State → α → State) : State := l.foldl f s

/-- `f s` where `b` holds, else `s`. -/
def State.when (s : State) (b : Bool) (f : State → State) : State := if b then f s else s

end Sys2Proof.Machine
end

