-- ==== Sys2Proof/Machine/PageMap.lean ====
section
/-!
DEFINITION. The page map of BAR0 (R51), the fields of the common page header (R38 to R48), what each page type
supports (R40, R144), and the events of every page with their severities.
-/
namespace Sys2Proof.Machine

/-- The stepping as an ASCII letter: A, the only one that R2 lists (R2, R39, R331). -/
def stepping : Nat := 0x41

/-- One row of the page map (R51): first page, pages, block, BLOCK_TYPE, events per instance, first event ID. -/
structure PageRow where
  first : Nat
  count : Nat
  blk : Blk
  code : Nat
  events : Nat
  evFirst : Nat
  deriving DecidableEq, Repr

/-- The page map (R51). -/
def pageRows : List PageRow :=
  [⟨0x000, 1, .glb, 0x0001, 16, 0x000⟩, ⟨0x001, 1, .clk, 0x0002, 16, 0x010⟩,
   ⟨0x002, 1, .tmb, 0x0003, 8, 0x020⟩, ⟨0x003, 1, .pwr, 0x0004, 24, 0x028⟩,
   ⟨0x004, 1, .hka, 0x0005, 16, 0x040⟩, ⟨0x005, 1, .cmp, 0x0006, 64, 0x050⟩,
   ⟨0x006, 2, .eva, 0x0007, 8, 0x090⟩, ⟨0x008, 1, .sec, 0x0008, 16, 0x0A0⟩,
   ⟨0x009, 1, .epo, 0x0009, 16, 0x0B0⟩, ⟨0x00A, 1, .svc, 0x000A, 16, 0x0C0⟩,
   ⟨0x00B, 1, .vgl, 0x000B, 48, 0x0D0⟩, ⟨0x010, 64, .lnk, 0x0010, 4, 0x100⟩,
   ⟨0x050, 28, .lqd, 0x0011, 8, 0x200⟩, ⟨0x8B0, 1, .dlb, 0x0063, 8, 0x2E0⟩,
   ⟨0x8C0, 1, .tio, 0x0064, 16, 0x2E8⟩, ⟨0x890, 1, .pci, 0x0060, 8, 0x2F8⟩,
   ⟨0x080, 256, .slt, 0x0012, 1, 0x300⟩, ⟨0x200, 1024, .ctx, 0x0020, 0, 0⟩,
   ⟨0x600, 64, .xfp, 0x0021, 2, 0x400⟩, ⟨0x640, 16, .den, 0x0022, 4, 0x480⟩,
   ⟨0x650, 1, .tmp, 0x0023, 8, 0x4C0⟩, ⟨0x6C0, 1, .acq, 0x0025, 48, 0x4C8⟩,
   ⟨0x6C1, 1, .trn, 0x0026, 8, 0x4F8⟩, ⟨0x680, 64, .tru, 0x0024, 2, 0x500⟩,
   ⟨0x700, 64, .scr, 0x0030, 2, 0x580⟩, ⟨0x740, 64, .bnk, 0x0031, 2, 0x600⟩,
   ⟨0x780, 16, .dma, 0x0032, 4, 0x680⟩, ⟨0x800, 64, .mch, 0x0040, 2, 0x6C0⟩,
   ⟨0x840, 4, .mst, 0x0041, 8, 0x740⟩, ⟨0x880, 2, .dsp, 0x0050, 16, 0x760⟩,
   ⟨0x891, 4, .nvp, 0x0061, 8, 0x780⟩, ⟨0x8A0, 2, .eth, 0x0062, 16, 0x7A0⟩,
   ⟨0x900, 64, .fab, 0x0070, 1, 0x7C0⟩]

/-- The row of the page map that holds page `p`, if it is mapped (R35, R51). -/
def pageRow (p : Nat) : Option PageRow := pageRows.find? (fun r => r.first ≤ p && p < r.first + r.count)

/-- The first page of a block's row, and with it the page of its instance `i` (R51). -/
def firstPage : Blk → Nat
  | .glb => 0x000 | .clk => 0x001 | .tmb => 0x002 | .pwr => 0x003 | .hka => 0x004 | .cmp => 0x005
  | .eva => 0x006 | .sec => 0x008 | .epo => 0x009 | .svc => 0x00A | .vgl => 0x00B | .lnk => 0x010
  | .lqd => 0x050 | .dlb => 0x8B0 | .tio => 0x8C0 | .pci => 0x890 | .slt => 0x080 | .ctx => 0x200
  | .xfp => 0x600 | .den => 0x640 | .tmp => 0x650 | .acq => 0x6C0 | .trn => 0x6C1 | .tru => 0x680
  | .scr => 0x700 | .bnk => 0x740 | .dma => 0x780 | .mch => 0x800 | .mst => 0x840 | .dsp => 0x880
  | .nvp => 0x891 | .eth => 0x8A0 | .fab => 0x900

/-- The page of instance `i` of block `b`. -/
def pg (b : Blk) (i : Nat) : Nat := firstPage b + i

/-! The common page header (R38). -/
namespace Reg

def PG_CTL_PSTATE (rst : Nat) : Fld := ⟨0x010, 5, 4, .rw, rst, true⟩
def PG_CTL_SRST : Fld := ⟨0x010, 1, 1, .w1s, 0, true⟩
def PG_CTL_EN (rst : Nat) : Fld := ⟨0x010, 0, 0, .rw, rst, true⟩
def PG_STAT_CTL_REFUSED : Fld := ⟨0x018, 9, 9, .ro, 0, true⟩
def PG_STAT_IN_EPOCH : Fld := ⟨0x018, 8, 8, .ro, 0, true⟩
def PG_STAT_PSTATE_BUSY : Fld := ⟨0x018, 6, 6, .ro, 0, true⟩
def PG_STAT_PSTATE_ACT (rst : Nat) : Fld := ⟨0x018, 5, 4, .ro, rst, true⟩
def PG_STAT_SRST_BUSY : Fld := ⟨0x018, 1, 1, .ro, 0, true⟩
def PG_STAT_EN_ACT (rst : Nat) : Fld := ⟨0x018, 0, 0, .ro, rst, true⟩
def EV_RAW : Fld := ⟨0x020, 63, 0, .ro, 0, true⟩
def EV_PEND : Fld := ⟨0x028, 63, 0, .w1c, 0, true⟩
def EV_EN : Fld := ⟨0x030, 63, 0, .rw, 0, true⟩
def SH_CTL_RD_ACTIVE : Fld := ⟨0x040, 16, 16, .rw, 0, true⟩
def SH_CTL_ABORT : Fld := ⟨0x040, 15, 8, .w1s, 0, true⟩
def SH_CTL_COMMIT : Fld := ⟨0x040, 7, 0, .w1s, 0, true⟩
def SH_STAT_APPLY_SEQ : Fld := ⟨0x048, 31, 16, .ro, 0, true⟩
def SH_STAT_LATE : Fld := ⟨0x048, 15, 8, .ro, 0, true⟩
def SH_STAT_DROPPED : Fld := ⟨0x048, 7, 0, .ro, 0, true⟩

end Reg

/-- The always-on pages (R41). -/
def alwaysOn : Blk → Bool
  | .glb | .clk | .tmb | .pwr | .eva | .sec | .epo | .svc | .vgl | .pci => true
  | _ => false

/-- PG_CAP.PSTATE_MASK: bit s is 1 where power state s is supported, 0 ON, 1 IDLE, 2 RETAIN, 3 OFF (R40, R144). -/
def pstateMask : Blk → Nat
  | .glb | .clk | .tmb | .pwr | .eva | .sec | .epo | .svc | .vgl | .pci | .slt | .ctx | .mst | .fab => 0b0001
  | .xfp | .den | .tru | .tmp | .scr | .dma | .bnk => 0b1111
  | .lnk | .lqd | .mch | .dsp | .nvp | .eth | .acq | .trn | .tio | .dlb | .hka | .cmp => 0b1011

/-- The block of page `p`; an unmapped page has none. -/
def blkOf (p : Nat) : Option Blk := (pageRow p).map PageRow.blk

/-- The instance number of page `p`. -/
def instOf (p : Nat) : Nat := match pageRow p with
  | some r => p - r.first
  | none => 0

/-- The reset value of EN in page `p` (R41). -/
def enRst (p : Nat) : Nat := match blkOf p with
  | some b => b2n (alwaysOn b)
  | none => 0

/-- The reset value of PSTATE in page `p` (R42): ON where ON alone is supported, else OFF. -/
def psRst (p : Nat) : Nat := match blkOf p with
  | some b => if pstateMask b = 1 then 0 else 3
  | none => 0

/-- EN of page `p`. -/
def State.en (s : State) (p : Nat) : Nat := s.rd p (Reg.PG_CTL_EN (enRst p))
def State.setEn (s : State) (p v : Nat) : State := s.wr p (Reg.PG_CTL_EN (enRst p)) v
/-- The block stops where a boundary of its own lets it (R44, R487); any other block stops once what it had accepted is complete, within
32 FCLK. A DMA engine's transfer ends as if aborted (R437). -/
def stopsAtBoundary : Blk → Bool
  | .lnk | .lqd | .slt | .ctx | .xfp | .den | .tmp | .dsp | .dma => true
  | _ => false

/-- EN_ACT of page `p` (R44): 1 while the block runs. It rises in the FCLK after EN is written 1, and has fallen 32 FCLK after EN is written 0
in a block with no boundary of its own. -/
def State.enAct (s : State) (p : Nat) : Nat :=
  let r := s.rd p (Reg.PG_STAT_EN_ACT (enRst p))
  if !s.clk.counting then r
  else if s.en p = 1 then (match smFind p s.page.enAt with
    | some t => if s.tick ≤ t then 0 else r
    | none => r)
  else if ((blkOf p).map stopsAtBoundary).getD true then r
  else match smFind p s.page.stopAt with
    | some t => if t + 32 < s.tick then 0 else r
    | none => r
def State.setEnAct (s : State) (p v : Nat) : State := s.wr p (Reg.PG_STAT_EN_ACT (enRst p)) v
/-- EN of page `p` is written 1 (R42, R44). -/
def State.enable (s : State) (p : Nat) : State :=
  let s := if s.enAct p = 1 then s else { s with page := { s.page with enAt := smInsert p s.tick s.page.enAt } }
  (s.setEn p 1).setEnAct p 1
/-- EN of page `p` is written 0 (R42, R44). -/
def State.disable (s : State) (p : Nat) : State :=
  let s := if s.en p = 0 then s else { s with page := { s.page with stopAt := smInsert p s.tick s.page.stopAt } }
  s.setEn p 0
/-- The power state requested for page `p`. -/
def State.pstate (s : State) (p : Nat) : Nat := s.rd p (Reg.PG_CTL_PSTATE (psRst p))
def State.setPstate (s : State) (p v : Nat) : State := s.wr p (Reg.PG_CTL_PSTATE (psRst p)) v
/-- The power state in force in page `p` (R44). -/
def State.pstateAct (s : State) (p : Nat) : Nat := s.rd p (Reg.PG_STAT_PSTATE_ACT (psRst p))
def State.setPstateAct (s : State) (p v : Nat) : State := s.wr p (Reg.PG_STAT_PSTATE_ACT (psRst p)) v
/-- The block of page `p` runs: it is enabled, and its power state is ON (R42, R44). -/
def State.runs (s : State) (p : Nat) : Bool := s.enAct p == 1 && s.pstateAct p == 0
/-- The LIVE epoch uses page `p` (R43). -/
def State.inEpoch (s : State) (p : Nat) : Bool := s.on p Reg.PG_STAT_IN_EPOCH

/-- Shadow commit groups of a page type (R47, R122, R381). -/
def shGroups : Blk → Nat
  | .tmb => 1 | .dsp => 3 | _ => 0

/-- The shadow group of a register, if it is shadowed (R122, R381). -/
def shadowGroup (b : Blk) (off : Nat) : Option Nat :=
  match b with
  | .tmb => if off = 0x110 ∨ off = 0x118 then some 0 else none
  | .dsp =>
    if 0x200 ≤ off ∧ off < 0x300 then some 0
    else if off = 0x100 ∨ off = 0x108 ∨ off = 0x110 ∨ off = 0x118 ∨ off = 0x120 then some 1
    else if 0x140 ≤ off ∧ off ≤ 0x168 then some 2 else none
  | _ => none

/-- PG_CAP.LIVE_WR: the page's chapter marks fields of it live-writable (R40). -/
def liveWr : Blk → Nat
  | .glb | .tmb | .pwr | .sec | .eth | .tio => 0
  | _ => 1

/-- Every field of a page of block `b`, instance `i`, past the header. -/
def blkFields (b : Blk) (i : Nat) : List Fld :=
  match b with
  | .glb => glbFields | .clk => clkFields | .tmb => tmbFields | .pwr => pwrFields | .hka => hkaFields
  | .cmp => cmpFields | .eva => evaFields | .sec => secFields | .epo => epoFields | .svc => svcFields
  | .vgl => vglFields | .lnk => lnkFields | .lqd => lqdFields | .dlb => dlbFields | .tio => tioFields
  | .pci => pciFields | .slt => sltFields | .ctx => ctxFields | .xfp => xfpFields | .den => denFields
  | .tmp => tmpFields | .acq => acqFields | .trn => trnFields | .tru => truFields | .scr => scrFields
  | .bnk => bnkFields | .dma => dmaFields | .mch => mchFields | .mst => mstFields i | .dsp => dspFields
  | .nvp => nvpFields | .eth => ethFields | .fab => fabFields i

/-- The fields of page `p` that lie in the register at `off`. -/
def fieldsAt (p off : Nat) : List Fld :=
  match pageRow p with
  | some r => (blkFields r.blk (p - r.first)).filter (fun f => f.off == off)
  | none => []

/-! Events. -/

/-- The page map row whose event IDs hold `id` (R51). -/
def evRow (id : Nat) : Option PageRow :=
  pageRows.find? (fun r => r.evFirst ≤ id && id < r.evFirst + r.count * r.events)

/-- The page that event `id` belongs to (R45, R51). -/
def evPage (id : Nat) : Nat := match evRow id with
  | some r => r.first + (id - r.evFirst) / r.events
  | none => 0

/-- The bit of event `id` in its page's event registers (R45). -/
def evBit (id : Nat) : Nat := match evRow id with
  | some r => (id - r.evFirst) % r.events
  | none => 0

/-- EV_BASE.EV_FIRST of page `p` (R45, R51). -/
def evFirstOf (p : Nat) : Nat := match pageRow p with
  | some r => if r.events = 0 then 0 else r.evFirst + (p - r.first) * r.events
  | none => 0

/-- EV_BASE.EV_COUNT of page `p`. -/
def evCountOf (p : Nat) : Nat := match pageRow p with
  | some r => r.events
  | none => 0

/-- The severities of a page type's events, from event 0 on; a reserved ID has none. -/
def sevList : Blk → List (Option Sev)
  | .glb => [some .warn, some .info, some .fatal, some .info, some .warn, some .warn]
  | .clk => [some .warn, some .warn, some .info, some .fault, some .warn, some .info, some .warn, some .info,
             some .info, some .info]
  | .tmb => [some .warn, some .info, some .warn, some .warn, some .info, some .warn]
  | .pwr => List.replicate 21 (some .warn)
  | .hka => [some .info, some .warn, some .info, some .warn, some .info, some .warn, some .warn, some .warn]
  | .cmp => List.replicate 16 (some .info) ++ List.replicate 17 (some .warn)
  | .eva => [some .info, some .warn, some .warn]
  | .sec => [some .info, some .warn, some .info, some .info, some .warn, some .info, some .fault]
  | .epo => [some .info, some .warn, some .info, some .info, some .fault, some .warn, some .warn, some .info]
  | .svc => [some .info, some .info, some .info, some .info, some .warn, some .warn, some .warn, some .info,
             some .warn]
  | .vgl => [some .fault, some .warn, some .fault, some .warn] ++ List.replicate 12 none ++
            List.replicate 16 (some .warn)
  | .lnk => List.replicate 4 (some .warn)
  | .lqd => List.replicate 8 (some .warn)
  | .dlb => [some .warn, some .info, some .fault, some .info, some .info, some .fault, some .warn]
  | .tio => List.replicate 8 (some .warn) ++ List.replicate 8 (some .fault)
  | .pci => [some .fault, some .warn, some .info, some .fault, some .warn, some .fault, some .info]
  | .slt => [some .warn]
  | .ctx => []
  | .xfp => [some .warn, some .fault]
  | .den => [some .warn, some .info, some .warn, some .fault]
  | .tmp => [some .warn, some .info, some .warn, some .fault]
  | .acq => [some .info, some .warn, some .warn, some .warn, some .info, some .warn, some .warn, some .warn]
  | .trn => [some .warn, some .warn, some .info]
  | .tru => [some .info, some .warn]
  | .scr => [some .fault, some .info]
  | .bnk => [some .warn, some .warn]
  | .dma => [some .info, some .warn, some .warn]
  | .mch => [some .fault, some .fault]
  | .mst => [some .warn, some .info, some .warn, some .info, some .warn, some .info, some .fault]
  | .dsp => [some .warn, some .info, some .info, some .warn, some .info, some .info, some .warn, some .warn,
             some .fault, some .info, some .fault, some .warn]
  | .nvp => [some .fault, some .fault, some .fault, some .warn, some .warn, some .warn]
  | .eth => [some .fault, some .warn, some .info, some .info, some .warn, some .warn]
  | .fab => [some .fault]

/-- The severity of event `id`; reserved IDs have none (R537). -/
def sevOf (id : Nat) : Option Sev := match evRow id with
  | some r => ((sevList r.blk)[(id - r.evFirst) % r.events]?).join
  | none => none

/-- The code of a severity (R542, R547). -/
def Sev.code : Sev → Nat
  | .info => 1 | .warn => 2 | .fault => 3 | .fatal => 4

/-- The ID of event `k` of instance `i` of block `b` (R51). -/
def evId (b : Blk) (i k : Nat) : Nat := match pageRows.find? (fun r => r.blk == b) with
  | some r => r.evFirst + i * r.events + k
  | none => 0

end Sys2Proof.Machine
end

