-- ==== Sys2Proof/Machine/Events.lean ====
section
/-!
DEFINITION. Raising events: latching, forwarding to the targets of the route table, severities, the fault log, and
the probation criterion that watches fault events (R45, R46, R490, R491, R534, R537 to R543).
-/
namespace Sys2Proof.Machine

/-- The part of a core that other blocks reach. -/
def State.coreAt (s : State) (n : Nat) : CoreSt := smGet {} n s.core
def State.setCore (s : State) (n : Nat) (c : CoreSt) : State := { s with core := smSet {} n c s.core }

/-- One occurrence that health counters of source `src` count (R542). -/
def State.occur (s : State) (src arg : Nat) : State :=
  { s with rel := { s.rel with occ := ⟨src, arg, s.tick⟩ :: s.rel.occ } }

/-- The next cause ID of the vigil: 16 bits, in sequence, never 0 (R534). -/
def nextCauseId (n : Nat) : Nat := if n + 1 = 65536 then 1 else n + 1

/-- `s` with a fresh cause ID taken (R534). -/
def State.takeCause (s : State) : Nat × State :=
  (s.rel.nextCause, { s with rel := { s.rel with nextCause := nextCauseId s.rel.nextCause } })

/-- One more entry of the fault log (R543). -/
def State.logFault (s : State) (e : FlogEntry) : State :=
  let n := s.rd (pg .vgl 0) Reg.VGL_FLOG_WCNT_CNT
  ({ s with rel := { s.rel with flog := smInsert (n % 64) e s.rel.flog } }).bump (pg .vgl 0) Reg.VGL_FLOG_WCNT_CNT 1

/-- The events that a lower mechanism of R535 raises for its own fault, and that take a cause ID (R534): hop failure,
lane faults and CRC-12 or FEC errors of a link, lock lost and reference lost, HBM uncorrectable error and error training, NVMe retry, DisplayPort retrain,
and the service-controller watchdog. -/
def isLower (id : Nat) : Bool :=
  match evRow id with
  | some r =>
    let k := (id - r.evFirst) % r.events
    match r.blk with
    | .fab => k == 0 | .lqd => true | .lnk => k == 2 | .clk => k == 0 || k == 1 | .mch => k == 0 | .mst => k == 2
    | .nvp => k == 3 | .dsp => k == 7 | .vgl => k == 0 | _ => false
  | none => false

/-- What a severity brings whatever the route (R537): the count since cold start, health-counter source 8, the fault
log and, for a fatal event, the service controller. -/
def State.severity (s : State) (id : Nat) : State :=
  match sevOf id with
  | none => s
  | some v =>
    let s := { s with ev := { s.ev with
      raised := s.ev.raised.set (v.code - 1) (s.ev.raised.getD (v.code - 1) 0 + 1) } }
    let s := s.occur 8 v.code
    let cs := if isLower id then s.takeCause else (0, s)
    let s := cs.2
    let s := s.when (3 ≤ v.code) (fun s => s.logFault ⟨cs.1, 0, false, v.code, id, s.tick⟩)
    s.when (v.code == 4) (fun s => s.emit (.serviceEvent id))

/-- The route entry of event `id` (R538). -/
def State.route (s : State) (id : Nat) : Nat :=
  s.rd (pg .eva (id / 1024)) (Reg.EVA_ROUTE_R (id % 1024 / 4) (id % 4))

/-- Event `id` is forwarded and pending: PEND and EV_EN are 1 and its route is enabled (R538, R547). -/
def State.forwarded (s : State) (id : Nat) : Bool :=
  (s.rd (evPage id) Reg.EV_PEND).testBit (evBit id) && (s.rd (evPage id) Reg.EV_EN).testBit (evBit id)

/-- The level of IRQ_N[k]: low while any event routed to it is forwarded and pending (R538). -/
def State.irqLow (s : State) (k : Nat) : Bool :=
  (List.range 2048).any (fun id =>
    s.forwarded id && bit (s.route id) 15 == 1 && bits (s.route id) 14 12 == 1 && bits (s.route id) 7 0 == k)

/-- Event `id` enters core `n`'s EVQ, or is lost to a full queue (R448, R538). -/
def State.evqPush (s : State) (n id : Nat) : State :=
  let c := s.coreAt n
  if c.evq.length < 16 then
    s.setCore n { c with evq := c.evq ++ [id], irqPend := c.irqPend ||| 0b0010 }
  else s.bumpSat (pg .scr n) Reg.SCR_SCR_CNT_EVQ_LOST 1

/-- Vector `v` is armed (R539). -/
def State.vecArmed (s : State) (v : Nat) : Bool := (s.rd (pg .eva 0) (Reg.EVA_VEC_ARM_ARM (v / 64))).testBit (v % 64)

/-- Vector `v` armed or disarmed (R539). -/
def State.setVecArmed (s : State) (v : Nat) (b : Bool) : State :=
  s.wr (pg .eva 0) (Reg.EVA_VEC_ARM_ARM (v / 64))
    (putBit (s.rd (pg .eva 0) (Reg.EVA_VEC_ARM_ARM (v / 64))) (v % 64) b)

/-- A message of vector `v` can be sent: MSI-X is enabled and the vector is not masked (R539). -/
def State.msixOpen (s : State) (v : Nat) : Bool := s.ev.msixEnable && !(s.ev.msixMasked.contains v)

/-- The message of vector `v`, sent once, which disarms the vector; a blocked vector sets its pending bit
(R539). -/
def State.msixSend (s : State) (v : Nat) : State :=
  if s.msixOpen v then (s.setVecArmed v false).emit (.msix v)
  else { s with ev := { s.ev with msixPending := v :: s.ev.msixPending.erase v } }

/-- The tick at which a pulse that starts now on Deltan line `k` ends (R538, R540). -/
def State.deltanPulse (s : State) (k : Nat) : State :=
  let stop := max (smGet 0 (16 + k) s.trg.lineEnd) (s.tick + s.rd (pg .trn 0) (Reg.TRN_DLT_SRC_WIDTH k))
  { s with trg := { s.trg with lineEnd := smInsert (16 + k) stop s.trg.lineEnd } }

/-- Event `id` as forwarded once to the target of its route (R538 to R540), and the events that the forwarding
itself raises. -/
def State.deliver (s : State) (id : Nat) : State × List Nat :=
  let r := s.route id
  let x := bits r 7 0
  if bit r 15 = 0 then (s, [])
  else match bits r 14 12 with
    | 0 =>
      if s.vecArmed x then (s.msixSend x, if s.msixOpen x then [] else [evId .eva (id / 1024) 0]) else (s, [])
    | 2 => if x < 64 then (s.evqPush x id, []) else (s, [])
    | 3 => (s.emit (.serviceEvent id), [])
    | 4 =>
      if s.rd (pg .dlb 0) (Reg.DLB_DLB_DRV_DRV x) = s.rd (pg .dlb 0) Reg.DLB_DLB_CFG_POS then (s.deltanPulse x, [])
      else (s, [evId .eva (id / 1024) 1])
    | _ => (s, [])

/-- Bit of event `id` in its page's EV_PEND set. -/
def State.setPend (s : State) (id : Nat) : State :=
  s.wr (evPage id) Reg.EV_PEND (setBit (s.rd (evPage id) Reg.EV_PEND) (evBit id))

/-- One 0-to-1 transition of event `id` (R45, R537, R538): its severity's consequences, its PEND bit, and, where
that makes PEND and EV_EN both 1, its forwarding. The events that a forwarding raises follow, `n` deep. -/
def State.transit : Nat → State → Nat → State
  | 0, s, _ => s
  | n + 1, s, id =>
    let was := s.forwarded id
    let s := (s.severity id).setPend id
    if s.forwarded id && !was then
      let d := s.deliver id
      d.2.foldl (fun s e => State.transit n s e) d.1
    else s

/-- Probation ends with a failure of criterion `c`, where one is active: the flags, the revert equinox 1.6e6 ticks
on, and PROBATION_FAIL (R491). -/
def State.failProbation (s : State) (c : Nat) : State :=
  if s.on (pg .epo 0) Reg.EPO_PROB_STAT_ACTIVE && s.epo.crit.testBit (c - 1) then
    (s.wrs (pg .epo 0)
      [(Reg.EPO_PROB_STAT_ACTIVE, 0), (Reg.EPO_PROB_STAT_FAILED, 1), (Reg.EPO_PROB_STAT_FAIL_CRIT, c),
       (Reg.EPO_EQX_TICK_TICK, s.tick + 1600000), (Reg.EPO_EQX_STAT_PENDING, 1), (Reg.EPO_EQX_STAT_REVERT, 1),
       (Reg.EPO_EQX_STAT_AUTO, 1), (Reg.EPO_EQX_STAT_ANNOUNCED, 0), (Reg.EPO_EQX_STAT_FROM_DELTAN, 0)]).transit 4
      (evId .epo 0 4)
  else s

/-- Criterion 2 of probation: a fault- or fatal-class event raised by a page that the LIVE epoch uses (R490). -/
def State.judge (s : State) (id : Nat) : State :=
  if 3 ≤ ((sevOf id).map Sev.code).getD 0 && s.inEpoch (evPage id) then s.failProbation 2 else s

/-- Event `id` raised as a momentary source: one transition, unless its level is 1 already (R45, R46). -/
def State.raise (s : State) (id : Nat) : State :=
  if (s.rd (evPage id) Reg.EV_RAW).testBit (evBit id) then s else (s.transit 4 id).judge id

/-- The level of event `id` (EV_RAW) taken to `b`: a rise is one transition (R45, R46). -/
def State.setRaw (s : State) (id : Nat) (b : Bool) : State :=
  let w := s.rd (evPage id) Reg.EV_RAW
  let s' := s.wr (evPage id) Reg.EV_RAW (putBit w (evBit id) b)
  if b && !w.testBit (evBit id) then (s'.transit 4 id).judge id else s'

/-- Event `k` of instance `i` of block `b` raised. -/
def State.event (s : State) (b : Blk) (i k : Nat) : State := s.raise (evId b i k)

/-- Event `k` of instance `i` of block `b` raised where `c` holds. -/
def State.eventIf (s : State) (c : Bool) (b : Blk) (i k : Nat) : State := if c then s.event b i k else s

/-! Health counters (R542). -/

/-- The highest valid temperature among these sensors, 0.1 °C. -/
def State.hottest (s : State) (l : List Nat) : Int :=
  (l.filter (fun k => s.on (pg .hka 0) (Reg.HKA_TEMP_VALID k))).foldl
    (fun m k => max m (s.rdS (pg .hka 0) (Reg.HKA_TEMP_TEMP_C k))) (-32768)

/-- An occurrence that counter source `src` with argument `arg` counts (R542). -/
def Occ.counts (o : Occ) (src arg : Nat) : Bool :=
  o.src == src && match src with
    | 1 => arg.testBit (o.arg - 1)
    | 8 => bits arg 2 0 ≤ o.arg
    | _ => true

/-- The present value of health counter `n` (R542). -/
def State.hcNow (s : State) (n : Nat) : Int :=
  let p := pg .vgl 0
  let src := s.rd p (Reg.VGL_HC_CFG_SRC n)
  let noReading (v : Int) : Int := if v = -32768 then 0 else v
  match src with
  | 11 => noReading (s.hottest (List.range 8))
  | 12 => noReading (s.hottest [8, 9, 10, 11])
  | 13 => s.rd (pg .pwr 0) Reg.PWR_CORE_TELEM_I_DA
  | _ =>
    if src = 0 ∨ 15 < src then 0
    else
      let w := max 1 (s.rd p (Reg.VGL_HC_CFG_WINDOW_MS n)) * 1600000
      ((s.rel.occ.filter (fun o => o.counts src (s.rd p (Reg.VGL_HC_CFG_ARG n)) && s.tick < o.tick + w)).length : Nat)

/-- Health counter `n` updated (R542): NOW, PEAK, its event once per crossing, criterion 4 of probation. -/
def State.hcUpdate (s : State) (n : Nat) : State :=
  let p := pg .vgl 0
  if !s.on p (Reg.VGL_HC_CFG_EN n) then s
  else
    let v := s.hcNow n
    let s := s.wrS p (Reg.VGL_HC_VAL_NOW n) v
    let s := if s.rdS p (Reg.VGL_HC_VAL_PEAK n) < v then s.wrS p (Reg.VGL_HC_VAL_PEAK n) v else s
    let above := (s.rd p (Reg.VGL_HC_LIM_LIMIT n) : Int) < v
    let was := s.rel.hcOver.contains n
    let s := { s with rel := { s.rel with hcOver := if above then n :: s.rel.hcOver.erase n else s.rel.hcOver.erase n } }
    let s := s.eventIf (above && !was) .vgl 0 (16 + n)
    let lim := s.rd p (Reg.VGL_HC_LIM_PROB_LIMIT n)
    if lim != 2 ^ 32 - 1 && (lim : Int) < v then s.failProbation 4 else s

/-- The level counters follow their sources (R542). -/
def State.hcLevels (s : State) : State :=
  s.each ((List.range 16).filter (fun n => [11, 12, 13].contains (s.rd (pg .vgl 0) (Reg.VGL_HC_CFG_SRC n)))) State.hcUpdate

end Sys2Proof.Machine
end

