-- ==== Sys2Proof/Machine/PageOps.lean ====
section
/-!
DEFINITION. The rules every page shares: the access error log, the pages that wait while the clocks are gated, writes
of PG_CTL, the event registers and shadow commits (R35 to R50, R109, R129, R143).
-/
namespace Sys2Proof.Machine

/-- A flagged access of kind `kind` at BAR0 offset `off` (R35, R37): the first since a clear is logged, each counts,
and ACCESS_ERROR is raised. -/
def State.accErr (s : State) (kind off : Nat) : State :=
  let s := s.when (s.rd (pg .glb 0) Reg.GLB_ACC_ERR_LOG_VALID == 0) (fun s => s.wrs (pg .glb 0)
    [(Reg.GLB_ACC_ERR_LOG_VALID, 1), (Reg.GLB_ACC_ERR_LOG_KIND, kind), (Reg.GLB_ACC_ERR_LOG_OFFSET, off / 8 * 8)])
  (s.bumpSat (pg .glb 0) Reg.GLB_ACC_ERR_LOG_COUNT 1).event .glb 0 0

/-- The access error log cleared and armed (R37). -/
def State.accErrClear (s : State) : State :=
  s.wrs (pg .glb 0) [(Reg.GLB_ACC_ERR_LOG_VALID, 0), (Reg.GLB_ACC_ERR_LOG_KIND, 0),
    (Reg.GLB_ACC_ERR_LOG_OFFSET, 0), (Reg.GLB_ACC_ERR_LOG_COUNT, 0)]

/-- The clock outputs are gated (R109). -/
def State.gated (s : State) : Bool := s.on (pg .clk 0) Reg.CLK_PLL_STAT_GATED
/-- The block of page `p` runs now: its clocks are not gated (R109). -/
def State.working (s : State) (p : Nat) : Bool := s.runs p && !s.gated

/-- READY is 1 (R128). -/
def State.ready (s : State) : Bool := s.on (pg .glb 0) Reg.GLB_BOOT_STAT_READY

/-- The service controller runs commands (R109, R128, R333): READY, not restarting, and its clock, SCLK, not gated. -/
def State.serviceRuns (s : State) : Bool := s.ready && !s.svc.restarting && !s.gated

/-- Start-up has reached step 9 (R128, R129). -/
def State.startedUp (s : State) : Bool := s.rd (pg .glb 0) Reg.GLB_BOOT_STAT_STEP == 9

/-- BAR0 serves page `p` at once: GLB, CLK, TMB and PWR always, any other page from step 9 on while the clocks run
(R109, R129). -/
def State.bar0Open (s : State) (p : Nat) : Bool := p < 4 || (s.startedUp && !s.gated)

/-- `s` with one more access held (R109, R129). -/
def State.hold (s : State) (h : Held) : State := { s with page := { s.page with held := s.page.held ++ [{ h with at_ := s.now }] } }

/-- What `k` and `n` name is lost: it crosses a hop that is failed or out of service (R531, R532). -/
def State.cutOff (s : State) (k : HopKind) (n : Nat) : Bool :=
  s.rel.hop.any (fun x => x.2.uses.any (fun u => u.kind == k && u.id.val == n))

/-- A 64-bit BAR0 write of `data` to page `p` at `off`, whose effect is `f`: it takes effect, or it is held until the
clocks run and start-up has ended (R35, R109, R129). -/
def State.hosted (s : State) (p off data : Nat) (f : State → State) : State :=
  if !s.bar0Open p then s.hold { write := true, off := p * 4096 + off, len := 8, data := data }
  else if s.cutOff .page p then s else f s

/-- Page `p` is mapped (R35, R51). -/
def mapped (p : Nat) : Bool := (pageRow p).isSome

/-- The effect `f` of a write to a mapped page; a write to any other page is flagged with kind 0b011 (R35). -/
def State.onPage (s : State) (p off : Nat) (f : State → State) : State :=
  if mapped p then f s else s.accErr 0b011 (p * 4096 + off)

/-- The page is always on (R41). -/
def pageAlwaysOn (p : Nat) : Bool := match blkOf p with
  | some b => alwaysOn b
  | none => false

/-- The power states that page `p` supports (R40, R144). -/
def pageMask (p : Nat) : Nat := match blkOf p with
  | some b => pstateMask b
  | none => 0

/-- A rank migration is in progress on channel `i` (R414, R423). -/
def State.migrating (s : State) (i : Nat) : Bool :=
  blkOf i == some .mch && s.on i Reg.MCH_MCH_STAT_MIGRATING

/-- A write of PG_CTL with these fields is refused (R42, R43, R419): a power state outside PSTATE_MASK; for a block
of the LIVE epoch, a clear of EN, an SRST or a power state other than ON; an SRST of a channel whose rank
migrates. -/
def State.ctlRefused (s : State) (p en srst ps : Nat) : Bool :=
  !(pageMask p).testBit ps ||
  (s.inEpoch p && ((en == 0 && !pageAlwaysOn p) || (srst == 1 && !pageAlwaysOn p) || ps != 0)) ||
  (srst == 1 && s.migrating p)

/-- SRST accepted (R42, R143): held while a power-state change is in progress, else the block reset starts. -/
def State.startSrst (s : State) (p : Nat) : State :=
  let s := s.wr p Reg.PG_CTL_SRST 1
  if s.on p Reg.PG_STAT_PSTATE_BUSY then
    { s with page := { s.page with srstHeld := p :: s.page.srstHeld.erase p } }
  else s.wr p Reg.PG_STAT_SRST_BUSY 1

/-- A power-state change starts (R144). -/
def State.pstateGo (s : State) (p : Nat) : State :=
  ({ s with page := { s.page with psAt := smInsert p s.tick s.page.psAt } }).wr p Reg.PG_STAT_PSTATE_BUSY 1

/-- A power state requested (R143, R144): held while a block reset is in progress, else the change starts. A request
for the state in force, with no change in progress, completes as it is written. -/
def State.startPstate (s : State) (p ps : Nat) : State :=
  let busy := s.on p Reg.PG_STAT_PSTATE_BUSY
  let s := s.setPstate p ps
  if s.on p Reg.PG_STAT_SRST_BUSY then
    { s with page := { s.page with pstateHeld := p :: s.page.pstateHeld.erase p } }
  else if s.pstateAct p = ps && !busy then s
  else s.pstateGo p

/-- A power-state change ends (R143, R144): the state asked for is in force, and an SRST held meanwhile starts. -/
def State.pstateEnd (s : State) (p : Nat) : State :=
  let s := (s.setPstateAct p (s.pstate p)).wr p Reg.PG_STAT_PSTATE_BUSY 0
  if s.page.srstHeld.contains p then
    ({ s with page := { s.page with srstHeld := s.page.srstHeld.erase p } }).wr p Reg.PG_STAT_SRST_BUSY 1
  else s

/-- A block reset ends (R42, R143): a power state asked for meanwhile takes effect. -/
def State.srstEnd (s : State) (p : Nat) : State :=
  let s := (s.wr p Reg.PG_CTL_SRST 0).wr p Reg.PG_STAT_SRST_BUSY 0
  if s.page.pstateHeld.contains p then
    let s := { s with page := { s.page with pstateHeld := s.page.pstateHeld.erase p } }
    if s.pstateAct p != s.pstate p then s.pstateGo p else s
  else s

/-- The level of the DOWN event of link `l` (R173): its page's EN is 1 and its link is not UP, unless only the gating holds it down. -/
def State.downEvent (s : State) (l : Nat) : State :=
  s.setRaw (evId .lnk l 0) (s.en (pg .lnk l) == 1 && s.rd (pg .lnk l) Reg.LNK_LINK_STAT_STATE != 4 &&
    !(smGet {} l s.ing.link).gatedOnly)

/-- A 64-bit write of PG_CTL of the mapped page `p` (R42, R43). -/
def State.pgCtlWrite (s : State) (p en srst ps : Nat) : State :=
  if s.ctlRefused p en srst ps then (s.wr p Reg.PG_STAT_CTL_REFUSED 1).accErr 0b101 (p * 4096 + 0x010)
  else
    let s := s.wr p Reg.PG_STAT_CTL_REFUSED 0
    let s := if pageAlwaysOn p then s else if en = 1 then s.enable p else s.disable p
    let s := if blkOf p = some .lnk then s.downEvent (instOf p) else s
    let s := s.when (ps != s.pstate p) (fun s => s.startPstate p ps)
    s.when (srst == 1 && !pageAlwaysOn p && !s.on p Reg.PG_CTL_SRST) (fun s => s.startSrst p)

/-- The word of a PG_CTL write. -/
def pgCtlWord (en srst ps : Nat) : Nat := en + 2 * srst + 16 * ps

/-- The bits of EV_PEND, EV_EN and EV_RAW that page `p` has (R45). -/
def evMask (p : Nat) : Nat := 2 ^ evCountOf p - 1

/-- A write of 1 bits to EV_PEND of page `p`; a bit whose source makes a transition in the same FCLK (in `same`) stays
set (R45, R46). -/
def State.evPendWrite (s : State) (p mask same : Nat) : State :=
  s.wr p Reg.EV_PEND ((s.rd p Reg.EV_PEND) &&& (2 ^ 64 - 1 - (mask &&& (2 ^ 64 - 1 - same))))

/-- Event `id` forwarded once, with the events that the forwarding raises (R538). -/
def State.forwardNow (s : State) (id : Nat) : State :=
  let d := s.deliver id
  d.2.foldl (fun s e => s.raise e) d.1

/-- A write of EV_EN of page `p` (R45): a pending bit that it enables is forwarded at once. -/
def State.evEnWrite (s : State) (p en : Nat) : State :=
  let old := s.rd p Reg.EV_EN
  let new := en &&& evMask p
  (s.wr p Reg.EV_EN new).each (bitsOf 64 (s.rd p Reg.EV_PEND &&& new &&& (2 ^ 64 - 1 - old)))
    (fun s k => s.forwardNow (evFirstOf p + k))

/-- The shadow of a field as an apply point of this FCLK takes it: a write of the same FCLK waits for the next commit (R48). -/
def State.shadow (s : State) (p : Nat) (f : Fld) : Nat :=
  if s.page.shTick = s.tick then smGet (s.rd p f) (fkey p f) s.page.shOld else s.rd p f

/-- A write of SH_CTL.ABORT (R47). -/
def State.shAbort (s : State) (p groups : Nat) : State :=
  let s := s.wr p Reg.SH_CTL_COMMIT (s.rd p Reg.SH_CTL_COMMIT &&& (2 ^ 8 - 1 - groups))
  { s with page := { s.page with lateCommit := s.page.lateCommit.filter (fun x => !(x / 8 == p && groups.testBit (x % 8))) } }

/-- A write of ACC_ERR_LOG.VALID with 1 (R37). -/
def execAccErrLogClear (t : Nat) (s : State) : Host.Outcome State Fault Refusal :=
  .next ((s.advance t).accErrClear)

/-- BAR0_HOLD_TIMEOUT (R109, R129): an access held for 5 ms completes with Completer Abort. -/
def execBar0HoldTimeout (t : Nat) (s : State) : Host.Outcome State Fault Refusal :=
  let s := s.advance t
  match s.page.held with
  | [] => .next s
  | h :: l => .next (if (s.now : Int) < h.at_ + 8000000 then s else ({ s with page := { s.page with held := l } }).emit .completerAbort)

/-- EV_PEND_CLEAR (R45, R46). -/
def execEvPendClear (t : Nat) (page : Fin 4096) (mask same : Word) (s : State) : Host.Outcome State Fault Refusal :=
  .next ((s.advance t).hosted page 0x028 mask.toNat
    (fun s => s.onPage page 0x028 (fun s => s.evPendWrite page mask.toNat same.toNat)))

/-- EV_EN_WRITE (R45). -/
def execEvEnWrite (t : Nat) (page : Fin 4096) (en : Word) (s : State) : Host.Outcome State Fault Refusal :=
  .next ((s.advance t).hosted page 0x030 en.toNat
    (fun s => s.onPage page 0x030 (fun s => s.evEnWrite page en.toNat)))

/-- SHADOW_ABORT (R47). -/
def execShadowAbort (t : Nat) (page : Fin 4096) (groups : BitVec 8) (s : State) : Host.Outcome State Fault Refusal :=
  let s := s.advance t
  .next (s.hosted page 0x040 (s.rd page Reg.SH_CTL_RD_ACTIVE * 2 ^ 16 + 256 * groups.toNat)
    (fun s => s.onPage page 0x040 (fun s => s.shAbort page groups.toNat)))

end Sys2Proof.Machine
end

