-- ==== Sys2Proof/Machine/MemMap.lean ====
section
/-!
DEFINITION. The address map of capture memory: the in-service list, translation, holes, and areas laid around holes (R396,
R397, R412, R413, R419).
-/
namespace Sys2Proof.Machine

/-- Where a capture address lies (R397): global channel, pseudo-channel, logical rank, granule within the rank. -/
structure MemLoc where
  chan : Nat
  pc : Nat
  lrank : Nat
  gran : Nat
  deriving DecidableEq, Repr

/-- Entry i of the full in-service list (R397): global channel and pseudo-channel. -/
def fullEntry (i : Nat) : Nat × Nat := (16 * (i % 4) + i / 8, i / 4 % 2)

/-- The in-service list (R397): the full list less the channels omitted at this cold start. -/
def State.inService (s : State) : List (Nat × Nat) :=
  ((List.range 128).map fullEntry).filter (fun e => !s.mem.omitted.contains e.1)

/-- The logical ranks in the address space (R396): three with spares enabled, else four. -/
def logicalRanks : Nat := if Config.sparesEnabled = 1 then 3 else 4

/-- Granules in a rank of a pseudo-channel (R397). -/
def rankGranules : Nat := 98304

/-- Capture address `a` translated (R397); none beyond the address space. -/
def State.locate (s : State) (a : Nat) : Option MemLoc :=
  let l := s.inService
  let g := a / 4096
  if l.isEmpty then none
  else
    let n := g / l.length
    if logicalRanks ≤ n / rankGranules then none
    else (l[g % l.length]?).map (fun e => ⟨e.1, e.2, n / rankGranules, n % rankGranules⟩)

/-- Bank, first row of the granule (R397). -/
def MemLoc.bank (x : MemLoc) : Nat := x.gran % 48
def MemLoc.row (x : MemLoc) : Nat := 4 * (x.gran / 48)

/-- STATE of channel `c` (R422). -/
def State.chanState (s : State) (c : Nat) : Nat := s.rd (pg .mch c) Reg.MCH_MCH_STAT_STATE

/-- The physical SID of logical rank `r` of channel `c` (R396, R422). -/
def State.sidOf (s : State) (c r : Nat) : Nat := s.rd (pg .mch c) (Reg.MCH_RANK_MAP_LR r)

/-- Logical rank `r` of channel `c` is a hole (R412, R419): its channel, or its rank without a spare, is out of service. -/
def State.rankHole (s : State) (c r : Nat) : Bool :=
  let p := pg .mch c
  let sid := s.sidOf c r
  s.chanState c == 5 || ((s.rd p Reg.MCH_MCH_STAT_RANK_OOS).testBit sid &&
    !(s.on p Reg.MCH_MCH_STAT_MIGRATING && s.rd p Reg.MCH_MIG_JOURNAL_FROM_SID == sid))

/-- The granule of address `a` is a hole. -/
def State.hole (s : State) (a : Nat) : Bool := match s.locate a with
  | some x => s.rankHole x.chan x.lrank
  | none => false

/-- The granule of address `a` is unavailable (R411, R412): a hole, or in a channel that is being retrained. -/
def State.unavailable (s : State) (a : Nat) : Bool := match s.locate a with
  | some x => s.rankHole x.chan x.lrank || s.chanState x.chan == 4
  | none => false

/-- Address `a` lies beyond usable capacity (R325, R412): outside the address space, or in a hole. -/
def State.beyond (s : State) (a : Nat) : Bool := match s.locate a with
  | some x => s.rankHole x.chan x.lrank
  | none => true

/-- Some channel or rank is out of service or being retrained. -/
def State.anyHole (s : State) : Bool :=
  (List.range 64).any (fun c => s.chanState c == 4 || s.chanState c == 5 || s.rd (pg .mch c) Reg.MCH_MCH_STAT_RANK_OOS != 0)

/-- The start of each granule that the `n` bytes from `a` on touch. -/
def granules (a n : Nat) : List Nat :=
  if n = 0 then [] else (List.range ((a + n - 1) / 4096 - a / 4096 + 1)).map (fun i => (a / 4096 + i) * 4096)

/-- Some byte of a span satisfies `f`, which is the same over a granule. -/
def anyGranule (a n : Nat) (f : Nat → Bool) : Bool := (granules a n).any f

/-- Granule number `k` of those from address `base` on that `skip` leaves out (R413); `fuel` bounds the search. -/
def State.laidGranule (s : State) (skip : List Nat) : Nat → Nat → Nat → Nat
  | 0, base, k => base + 4096 * k
  | fuel + 1, base, k =>
    let out := match s.locate base with
      | some x => skip.contains (4 * x.chan + x.lrank)
      | none => false
    if out then s.laidGranule skip fuel (base + 4096) k
    else if k = 0 then base else s.laidGranule skip fuel (base + 4096) (k - 1)

/-- The capture address of byte `off` of an area at `base` that is laid over the granules outside `skip` (R413). -/
def State.areaAddr (s : State) (skip : List Nat) (base off : Nat) : Nat :=
  if skip.isEmpty then base + off else s.laidGranule skip (off / 4096 * 2 + 256) base (off / 4096) + off % 4096

/-- The bytes of an area of `n` bytes at `base` that are left outside `skip`. -/
def State.areaBytes (s : State) (skip : List Nat) (base n : Nat) : Nat :=
  if skip.isEmpty then n
  else n - 4096 * ((granules base n).filter (fun a => match s.locate a with
    | some x => skip.contains (4 * x.chan + x.lrank)
    | none => false)).length

/-- The poisoned words that the `n` bytes from `a` touch, by word number. -/
def State.poisonWords (s : State) (a n : Nat) : List Nat :=
  if n = 0 then []
  else
    (s.mem.poison.filter (fun x => a / 32 ≤ x.1 && x.1 ≤ (a + n - 1) / 32)).flatMap (fun x =>
      (bitsOf 4 x.2).filterMap (fun w => if a / 8 ≤ 4 * x.1 + w && 4 * x.1 + w ≤ (a + n - 1) / 8 then some (4 * x.1 + w) else none))

/-- A read of the `n` bytes from `a` meets poison (R418). -/
def State.poisoned (s : State) (a n : Nat) : Bool := !(s.poisonWords a n).isEmpty

end Sys2Proof.Machine
end

