-- ==== Sys2Proof/Machine/Router.lean ====
section
/-!
DEFINITION. The trigger network and the router: source values and pulses on their way to the trigger units and to the outputs, and the
outputs (R265, R266, R275, R286 to R289).
-/
namespace Sys2Proof.Machine

/-- Trigger unit `u` beyond its registers. -/
def State.tru (s : State) (u : Nat) : TruSt := smGet {} u s.trg.unit
def State.setTru (s : State) (u : Nat) (x : TruSt) : State :=
  { s with trg := { s.trg with unit := smSet {} u x s.trg.unit } }

/-- Unit `u` is enabled in the LIVE epoch (R294). -/
def State.truActive (s : State) (u : Nat) : Bool := s.on (pg .tru u) Reg.TRU_TRU_STAT_ACTIVE

/-- Unit `u` evaluates: it is enabled, and its page runs (R42, R288). -/
def State.truRuns (s : State) (u : Nat) : Bool := s.truActive u && s.working (pg .tru u)

/-- The input selector `i` of unit `u`, 8 for the arming source (R294): source code, SIG, INV. -/
def State.truSel (s : State) (u i : Nat) : Nat × Nat × Bool :=
  let w := if i < 4 then s.rd (pg .tru u) (Reg.TRU_IN_SEL0_IN i)
    else if i < 8 then s.rd (pg .tru u) (Reg.TRU_IN_SEL1_IN (i - 4)) else s.rd (pg .tru u) Reg.TRU_SEQ_CFG_A_SEL
  (part w 0 13, part w 13 2, w.testBit 15)

/-- The inputs of unit `u` that select signal `sig` of source `code`. -/
def State.truTaps (s : State) (u code sig : Nat) : List Nat :=
  (List.range 9).filter (fun i => let x := s.truSel u i; x.1 == code && x.2.1 == sig)

/-- A change added in its place of the rising order. -/
def addChg (x : TruChg) : List TruChg → List TruChg
  | [] => [x]
  | y :: l => if y.at_ ≤ x.at_ then y :: addChg x l else x :: y :: l

/-- A change on the network as an input of a unit takes it. -/
def NetEvt.chg (e : NetEvt) (i : Nat) : TruChg := ⟨e.at_, i, e.pulse, false, e.val, e.stamp, e.bad⟩

/-- A change of a source on its way to unit `u`, at the inputs that select it. -/
def State.toUnit (s : State) (u : Nat) (e : NetEvt) : State :=
  s.each (s.truTaps u e.code e.sig) (fun s i =>
    let x := s.tru u
    s.setTru u { x with chg := addChg (e.chg i) x.chg })

/-- A change added in its place of the rising order. -/
def addNet (x : NetEvt) : List NetEvt → List NetEvt
  | [] => [x]
  | y :: l => if y.at_ ≤ x.at_ then y :: addNet x l else x :: y :: l

/-- A change of a source on its way to every unit that selects it, and to the router. -/
def State.send (s : State) (e : NetEvt) : State :=
  let s := s.each ((List.range 64).filter s.truRuns) (fun s u => s.toUnit u e)
  { s with trg := { s.trg with net := addNet e s.trg.net } }

/-! The outputs (R289). -/

/-- The outputs follow from tick `t` the values that the router gives them (R289); each driver's check is suspended from a change of its
level (R79). -/
def State.outSync (s : State) (t : Nat) : State :=
  let moved := (List.range 16).filter (fun j => s.tio.level.testBit j != s.tio.want.testBit j)
  { s with tio := { s.tio with level := s.tio.want, changeAt := moved.foldl (fun m j => smInsert j t m) s.tio.changeAt } }

/-- The router gives output `j` of TIO (0 to 7 TRIG_OUT, 8 to 15 PROT_OUT) the value `b` at tick `t`. In IDLE the outputs hold their levels;
in OFF, TRIG_OUT is low and PROT_OUT released (R144). -/
def State.setOut (s : State) (j : Nat) (b : Bool) (t : Nat) : State :=
  let s := { s with tio := { s.tio with want := putBit s.tio.want j b } }
  if s.pstateAct (pg .tio 0) = 0 then s.outSync t else s

/-- A pulse on line `k` ends at tick `stop`. -/
def State.setLine (s : State) (k stop : Nat) : State :=
  { s with trg := { s.trg with lineEnd := smInsert k stop s.trg.lineEnd } }

/-- TRIG_OUT[k] is active, or not, from tick `t` on (R289). -/
def State.toutDrive (s : State) (k : Nat) (active : Bool) (t : Nat) : State :=
  s.setOut k (s.on (pg .trn 0) (Reg.TRN_TOUT_CFG_EN k) && (active.xor (s.on (pg .trn 0) (Reg.TRN_TOUT_CFG_INV k)))) t

/-- A change of source `code` leaves the router at tick `t`: `rise` for a rise or a pulse. -/
def State.routeOut (s : State) (code t : Nat) (pulse rise val : Bool) : State :=
  let p := pg .trn 0
  let s := s.each (List.range 8) (fun s k =>
    if !s.on p (Reg.TRN_TOUT_CFG_EN k) || s.rd p (Reg.TRN_TOUT_CFG_SRC k) != code then s
    else if s.on p (Reg.TRN_TOUT_CFG_MODE k) then s.toutDrive k val t
    else if rise then (s.setLine k (t + s.rd p (Reg.TRN_TOUT_CFG_WIDTH k))).toutDrive k true t else s)
  let s := s.each (List.range 8) (fun s k =>
    if !s.on p (Reg.TRN_POUT_CFG_EN k) || s.rd p (Reg.TRN_POUT_CFG_SRC k) != code then s
    else if s.on p (Reg.TRN_POUT_CFG_LATCH k) then (if rise then s.setOut (8 + k) true t else s)
    else if pulse then (s.setLine (8 + k) (t + 1)).setOut (8 + k) true t
    else s.setOut (8 + k) val t)
  s.each (List.range 6) (fun s k =>
    if s.on p (Reg.TRN_DLT_SRC_EN k) && s.rd p (Reg.TRN_DLT_SRC_SRC k) == code && rise then
      s.setLine (16 + k) (t + s.rd p (Reg.TRN_DLT_SRC_WIDTH k)) else s)

/-- The router's latency in FCLK (R289). -/
def routerLatency : Nat := 4

/-- The pulse on `line` ends at tick `t` (R289). -/
def State.lineOver (s : State) (line t : Nat) : State :=
  let s := { s with trg := { s.trg with lineEnd := smErase line s.trg.lineEnd } }
  if line < 8 then s.toutDrive line false t else if line < 16 then s.setOut line false t else s

/-- The pulse in progress that ends first, as line and tick. -/
def State.firstEnd (s : State) : Option (Nat × Nat) :=
  s.trg.lineEnd.foldl (fun m y => match m with
    | none => some y
    | some z => if y.2 < z.2 then some y else some z) none

/-- What the router does next by tick `t`: the first change that leaves it, or the first pulse that ends; nothing while TRN does not run. -/
def State.routerStep (s : State) (t : Nat) : State :=
  let ends (s : State) (by_ : Nat) : State := match s.firstEnd with
    | some (k, stop) => if stop ≤ by_ then s.lineOver k stop else s
    | none => s
  match s.trg.net with
  | [] => ends s t
  | e :: l =>
    let out := e.at_ + routerLatency
    match s.firstEnd with
    | some (k, stop) =>
      if stop < out && stop ≤ t then s.lineOver k stop
      else if out ≤ t then
        let s := { s with trg := { s.trg with net := l } }
        if e.sig = 0 then s.routeOut e.code out e.pulse (e.pulse || e.val) e.val else s
      else s
    | none =>
      if out ≤ t then
        let s := { s with trg := { s.trg with net := l } }
        if e.sig = 0 then s.routeOut e.code out e.pulse (e.pulse || e.val) e.val else s
      else s

/-- The outputs as they stand at tick `t` (R289): every change that has left the router by then has been taken, and every pulse that has
ended by then is over. They are brought up to date by the commands that concern them (notes/assumptions/175). -/
def State.routerTo (s : State) (t : Nat) : State :=
  if s.gated || !s.runs (pg .trn 0) then s
  else s.each (List.range (23 * (s.trg.net.length + 1))) (fun s _ => s.routerStep t)

/-! Sources (R265, R266, R288). -/

/-- The value of level source `code`, as it last changed. -/
def State.srcLevel (s : State) (code : Nat) : Bool := smGet 0 code s.trg.src == 1

/-- The value of level source `code` that the network carries at tick `t`. -/
def State.srcNow (s : State) (code t : Nat) : Bool :=
  match s.trg.net.find? (fun e => e.code == code && !e.pulse && decide (t < e.at_)) with
  | some e => !e.val
  | none => s.srcLevel code

/-- Level source `code` takes value `v` at tick `t`, with the stamp of the transition; it reaches the units `lat` FCLK
later. While the clocks are gated only the value is kept. -/
def State.sourceLevel (s : State) (code : Nat) (v : Bool) (t lat : Nat) (stamp : SubTick) (bad : Bool := false) : State :=
  if s.srcLevel code = v then s
  else
    let s := { s with trg := { s.trg with src := smSet 0 code (b2n v) s.trg.src } }
    if s.gated then s else s.send ⟨t + lat, code, 0, false, v, stamp, bad⟩

/-- Signal `sig` of source `code` pulses at tick `t` (R266). -/
def State.sourcePulse (s : State) (code sig t lat : Nat) (stamp : SubTick) (bad : Bool := false) : State :=
  if s.gated then s else s.send ⟨t + lat, code, sig, true, true, stamp, bad⟩

end Sys2Proof.Machine
end

