-- ==== Sys2Proof/Machine/Power.lean ====
section
/-!
DEFINITION. The sequence monitor, cold reset, the adaptive core voltage, the output short detection, the open-wire
test and the SMBus sideband (R64 to R98).
-/
namespace Sys2Proof.Machine

/-! The sequence monitor. -/

/-- The SEQ_STAT fields loaded from the monitor's record (R93), and RAIL_STAT, which follows the rails while the monitor is
powered (R94, R98). While the RAIL_MISSING status stands and no fault is
held, CAUSE shows it (R69; notes/assumptions/12). -/
def State.monSync (s : State) : State :=
  let seen (m : Nat) : Nat := if s.pwr.up.testBit 2 then m else 0
  s.wrs (pg .pwr 0)
    [(Reg.PWR_RAIL_STAT_IN_TOL, seen s.pwr.inTol), (Reg.PWR_RAIL_STAT_OV, seen s.pwr.ov),
     (Reg.PWR_RAIL_STAT_UV, seen (0x1FF - s.pwr.inTol - s.pwr.ov)),
     (Reg.PWR_SEQ_STAT_FAULT_COUNT, s.pwr.faultCount), (Reg.PWR_SEQ_STAT_ALERT, b2n s.pwr.alert),
     (Reg.PWR_SEQ_STAT_PD_ORDER, b2n s.pwr.pdOrder), (Reg.PWR_SEQ_STAT_FAULT_SEEN, b2n s.pwr.faultSeen),
     (Reg.PWR_SEQ_STAT_CAUSE, if s.pwr.faultSeen || !s.pwr.missing then s.pwr.cause else 0x9)]

/-- The part after a cold reset (R135, R137): everything at its reset value but the monitor's record, the boot flash
and the fuses; `last` is the LAST_RESET code. A protective reset is the cause of the gating that it starts with (R107, R124,
notes/assumptions/159). -/
def State.coldReset (s : State) (last : Nat) : State :=
  (fun (s : State) => if last = 2 then s.wr (pg .clk 0) Reg.CLK_PLL_STAT_GATE_CAUSE 4 else s)
  ({ State.reset with
      pwr := { s.pwr with started := false, lastReset := last }
      flash := s.flash, pending := s.pending, out := s.out, freeCnt := s.freeCnt }).monSync

/-- The monitor latches cause `c` (R69): the dies are held in reset and ALERT_N is asserted. `hold` says whether the
fault clears with the rails (R70), or waits for POR_N (R74). -/
def State.latchFault (s : State) (c : Nat) (hold : Bool) : State :=
  let p := { s.pwr with
    seqFault := s.pwr.seqFault || !hold, protHold := s.pwr.protHold || hold, cause := c, faultSeen := true
    alert := true, faultCount := min (s.pwr.faultCount + 1) 0xFFFF }
  let s := { s with pwr := p }
  if s.pwr.started then s.coldReset (if hold then 2 else s.pwr.lastReset) else s.monSync

/-- A protective reset with cause `c` (R74). -/
def State.protReset (s : State) (c : Nat) : State := if s.pwr.started then s.latchFault c true else s

/-- Rail `i` is up; rail `i` is down (R66). -/
def PwrSt.isUp (p : PwrSt) (i : Nat) : Bool := p.up.testBit i
def PwrSt.isDown (p : PwrSt) (i : Nat) : Bool := p.down.testBit i
/-- When rail `i` last came up. -/
def PwrSt.upSince (p : PwrSt) (i : Nat) : Nat := smGet 0 i p.upAt

/-- VHBM_PP ≥ VHBM_CORE ≥ VHBM_IO is broken by more than 50 mV (R67, R69). -/
def hbmBroken (h : HbmRails) : Bool := h.pp + 50 < h.core || h.core + 50 < h.io

/-- The ordering condition that the monitor finds broken at microsecond `us`, as rail `i` comes up, in the record `p` that
already holds the rail as up (`i` is 9 where none comes up; R67, R69); 0 for none. Of several the lowest code counts
(notes/assumptions/145). Rails: 0 VDD_CORE, 1 VDD_SRAM, 2 VDD_IO, 3 AVDD_SER, 4 AVTT,
5 AVDD_18, 6 VHBM_CORE, 7 VHBM_IO, 8 VHBM_PP (PWR page). -/
def seqCause (p : PwrSt) (us i : Nat) (h : HbmRails) : Nat :=
  if (i = 2 ∨ i = 5) ∧ p.isUp 2 ∧ p.isUp 5 ∧ us > p.upSince (7 - i) + 2000 then 0x1
  else if p.isUp 0 ∧ ((i = 0 ∧ ¬(p.isUp 2 ∧ p.isUp 5)) ∨ i = 2) then 0x2
  else if p.isUp 1 ∧ (i = 1 ∨ i = 2) ∧ ¬p.isUp 0 then 0x3
  else if p.sramDue.any (fun d => decide (d < us)) then 0x4
  else if p.isUp 3 ∧ (i = 3 ∨ i = 2) ∧ ¬p.isUp 1 then 0x5
  else if p.isUp 4 ∧ (i = 4 ∨ i = 2) ∧ ¬p.isUp 3 then 0x6
  else if i = 2 ∧ ¬(p.isDown 6 ∧ p.isDown 7 ∧ p.isDown 8) then 0x7
  else if hbmBroken h then 0x8
  else 0

/-- The monitor, which VDD_IO powers, checks the order of R67 at microsecond `us`, with rail `i` just up (9: none). -/
def State.monCheck (s : State) (us i : Nat) (hbm : HbmRails) : State :=
  let c := seqCause s.pwr us i hbm
  let late (s : State) : State :=
    { s with pwr := { s.pwr with sramDue := if s.pwr.sramDue.any (fun d => decide (d < us)) || i == 1 then none else s.pwr.sramDue } }
  late (if s.pwr.isUp 2 && c != 0 && !s.pwr.seqFault && !s.pwr.falling then s.latchFault c false else s.monSync)

/-- Rail `i` at the end of a rise at microsecond `us`: above 10 % of nominal, and where `full` holds at 90 % (R66). -/
def PwrSt.rise (p : PwrSt) (us i : Nat) (full : Bool) : PwrSt :=
  let p := { p with down := clrBit p.down i, falling := false, inTol := clrBit p.inTol i, ov := clrBit p.ov i }
  if full then
    let p := { p with up := setBit p.up i, upAt := smInsert i us p.upAt }
    { p with missing := p.missing && p.up != 0x1FF, sramDue := if i = 0 && !p.isUp 1 then some (us + 5000) else p.sramDue }
  else p

/-- RAIL_UP (R66, R69): a rail reaches 90 % of nominal, or, where `full` is false, rises above 10 %. -/
def execRailUp (us : Nat) (rail : Fin 9) (full : Bool) (hbm : HbmRails) (s : State) : Host.Outcome State Fault Refusal :=
  .next ({ s with pwr := s.pwr.rise us rail full }.monCheck us (if full then rail else 9) hbm)

/-- The rails that follow rail `i` in the order of R67. -/
def railFollowers : Nat → List Nat
  | 0 => [1] | 1 => [3] | 3 => [4] | 5 => [0] | _ => []

/-- Rail `i` falls below 90 % of nominal, and, where `below` holds, below 10 % (R66, R71). PD_ORDER tells of the last power-down
(R93): a new one starts with the first fall after a rise. -/
def PwrSt.fall (p : PwrSt) (i : Nat) (below : Bool) (hbm : HbmRails) : PwrSt :=
  let order := p.isUp 2 && i != 2 && ((p.isUp i && (railFollowers i).any (fun j => !p.isDown j)) || hbmBroken hbm)
  { p with
    up := clrBit p.up i, down := if below then setBit p.down i else p.down, upAt := if below then smErase i p.upAt else p.upAt
    pdOrder := if p.isUp 2 then (p.falling && p.pdOrder) || order else p.pdOrder, falling := true
    sramDue := if i = 0 then none else p.sramDue, inTol := clrBit p.inTol i, ov := clrBit p.ov i, lastReset := 0 }

/-- RAIL_DOWN (R66, R70, R71): a rail falls below 90 % of nominal, and, where `below` holds, below 10 %. Losing a rail is a
cold reset (R135). VDD_IO going down ends the monitor's record, the wait for POR_N of R74 included (notes/assumptions/146). A
latched SEQ_FAULT clears at the fall that finds every rail other than VDD_IO and AVDD_18 down (notes/assumptions/147). -/
def execRailDown (_us : Nat) (rail : Fin 9) (below : Bool) (hbm : HbmRails) (s : State) :
    Host.Outcome State Fault Refusal :=
  let p := s.pwr.fall rail below hbm
  let off := [0, 1, 3, 4, 6, 7, 8].all (fun j => p.isDown j)
  let p := if p.isDown 2 then
      { up := p.up, down := p.down, upAt := p.upAt, porHigh := p.porHigh, started := p.started, inTol := p.inTol, ov := p.ov }
    else { p with seqFault := p.seqFault && !off }
  let s := { s with pwr := p }
  .next (if p.started then s.coldReset 0 else s.monSync)

/-- RAIL_MISSING (R69): the monitor looks at microsecond `us`. A rail that is not up 100 ms after VDD_IO is a status, which
clears by itself when the rail comes up; an ordering condition found broken latches SEQ_FAULT. -/
def execRailMissing (us : Nat) (hbm : HbmRails) (s : State) : Host.Outcome State Fault Refusal :=
  let p := s.pwr
  .next (if p.isUp 2 then
    { s with pwr := { p with missing := p.missing || (p.up != 0x1FF && decide (p.upSince 2 + 100000 ≤ us)) } }.monCheck us 9 hbm
  else s)

/-- POR_N_RELEASE (R68, R74). -/
def execPorNRelease (_us : Nat) (s : State) : Host.Outcome State Fault Refusal :=
  .next { s with pwr := { s.pwr with porHigh := true, protHold := s.pwr.protHold && s.pwr.porHigh } }

/-- POR_N_ASSERT (R74, R135): POR_N has been held low for 10 µs, which is a cold reset. -/
def execPorNAssert (_us : Nat) (s : State) : Host.Outcome State Fault Refusal :=
  let s := { s with pwr := { s.pwr with porHigh := false } }
  .next (if s.pwr.started then s.coldReset 1 else s)

/-- The internal reset can be released at microsecond `us` (R68, R69, R74): every rail has been up for 2 ms, POR_N is
high, and no fault is held. -/
def PwrSt.canStart (p : PwrSt) (us : Nat) : Bool :=
  !p.started && p.up == 0x1FF && p.upAt.all (fun x => x.2 + 2000 ≤ us) && p.porHigh && !p.seqFault && !p.protHold

/-- COLD_START (R96, R127, R128): ROM verification and the host endpoint start. -/
def execColdStart (us : Nat) (s : State) : Host.Outcome State Fault Refusal :=
  .next (if s.pwr.canStart us then
    let s := s.coldReset s.pwr.lastReset
    let s := { s with pwr := { s.pwr with started := true } }
    let s := s.wrs (pg .glb 0) [(Reg.GLB_BOOT_STAT_LAST_RESET, s.pwr.lastReset), (Reg.GLB_BOOT_STAT_STEP, 3)]
    s.eventIf (s.pwr.faultSeen || s.pwr.pdOrder) .pwr 0 20
  else s)

/-- AVS_SET (R64): the fused target is sent once. -/
def execAvsSet (us : Nat) (s : State) : Host.Outcome State Fault Refusal :=
  .next (if s.pwr.started && !s.boot.avsSent then
    let mv := s.rd (pg .pwr 0) Reg.PWR_CORE_AVS_TARGET_MV
    (({ s with boot := { s.boot with avsSent := true, avsAt := us } }).wr (pg .pwr 0) Reg.PWR_CORE_AVS_SET_MV mv).emit (.avsSet mv)
  else s)

/-- `a` and `b` differ by at most `d`. -/
def within (a b d : Nat) : Bool := a ≤ b + d && b ≤ a + d

/-- AVS_POLL (R64, R75, R95, R96): once the target has been sent, the regulator's voltage and current are read back, or the
transaction fails. AVS_ERR holds from a failed transaction or a readback off the setpoint to the next good one
(notes/assumptions/148). -/
def execAvsPoll (t : Nat) (mv da : BitVec 16) (failed : Bool) (s : State) : Host.Outcome State Fault Refusal :=
  let s := s.advance t
  let p := pg .pwr 0
  .next (if !s.pwr.started || !s.boot.avsSent then s
    else if failed then s.setRaw (evId .pwr 0 19) true
    else
      let near := within mv.toNat (s.rd p Reg.PWR_CORE_AVS_SET_MV) 5
      let ok := s.on p Reg.PWR_CORE_AVS_AVS_OK
      let s := s.wrs p [(Reg.PWR_CORE_TELEM_V_MV, mv.toNat), (Reg.PWR_CORE_TELEM_I_DA, da.toNat),
        (Reg.PWR_CORE_AVS_AVS_OK, b2n (ok || near))]
      let s := s.setRaw (evId .pwr 0 19) (ok && !near)
      (s.setRaw (evId .pwr 0 18) (min (s.rd p Reg.PWR_CORE_ILIM_IWARN) 3800 < da.toNat)).hcLevels)

/-- AVS_FAIL (R65): 10 ms after the command the target has not read back, and start-up stops with cause AVS_FAIL. -/
def execAvsFail (us : Nat) (s : State) : Host.Outcome State Fault Refusal :=
  .next (if s.pwr.started && s.boot.avsSent && !s.on (pg .pwr 0) Reg.PWR_CORE_AVS_AVS_OK && s.boot.avsAt + 10000 ≤ us then
    s.latchFault 0xD false
  else s)

/-- RAIL_WARN (R72, R94, R96): where a rail stands against its warn window from now on. The monitor follows it at all times; the
events belong to a module that runs. -/
def execRailWarn (t : Nat) (rail : Fin 9) (zone : Zone) (s : State) : Host.Outcome State Fault Refusal :=
  let s := s.advance t
  let s := { s with pwr := { s.pwr with
    inTol := putBit s.pwr.inTol rail (zone == Zone.within), ov := putBit s.pwr.ov rail (zone == Zone.above) } }
  let s := s.monSync
  .next (if !s.pwr.started then s
    else (s.setRaw (evId .pwr 0 rail) (zone == Zone.below)).setRaw (evId .pwr 0 (9 + rail)) (zone == Zone.above))

/-- RAIL_FAULT (R72, R74). -/
def execRailFault (t : Nat) (_rail : Fin 9) (above : Bool) (s : State) : Host.Outcome State Fault Refusal :=
  .next ((s.advance t).protReset (if above then 0xB else 0xA))

/-- THERM_TRIP (R73, R74). -/
def execThermTrip (t : Nat) (s : State) : Host.Outcome State Fault Refusal := .next ((s.advance t).protReset 0xC)

/-! Shorts on TRIG_OUT and PROT_OUT. -/

/-- The short that output `j` shows at logical level `high` with its pad at `pad` (R79): 0 none, 1 to ground, 2 to
1.8 V. A PROT_OUT that is asserted sinks its pad. -/
def shortKind (j : Nat) (high pad : Bool) : Nat :=
  if j < 8 then (if high && !pad then 1 else if !high && pad then 2 else 0)
  else (if high && pad then 2 else if !high && !pad then 1 else 0)

/-- 10 ms in ticks (R81); the 50 ns for which the check is suspended and its filter of 1 µs (R79). -/
def retryTicks : Nat := 16000000
def shortCheckTicks : Nat := 80 + 1600

/-- The fault of output `j` set to `kind`, as found by a check that ends `after` ticks from now; the driver is off where the fault
was found with it on (R79, R80). The next retry is due 10 ms after it (R81). -/
def State.setShort (s : State) (j kind : Nat) (high : Bool) (after : Nat) : State :=
  let p := pg .tio 0
  let s := { s with tio := { s.tio with
    retryAt := if kind = 0 then smErase j s.tio.retryAt else smInsert j (s.tick + after + retryTicks) s.tio.retryAt } }
  let s := s.wrs p
    [(Reg.TIO_OUT_FLT_STAT_KIND, setPart (s.rd p Reg.TIO_OUT_FLT_STAT_KIND) (2 * j) 2 kind),
     (Reg.TIO_OUT_FLT_STAT_DISABLED, putBit (s.rd p Reg.TIO_OUT_FLT_STAT_DISABLED) j (kind != 0 && (j < 8 || high)))]
  s.setRaw (evId .tio 0 j) (kind != 0)

/-- The present fault of output `j`. -/
def State.shortOf (s : State) (j : Nat) : Nat := part (s.rd (pg .tio 0) Reg.TIO_OUT_FLT_STAT_KIND) (2 * j) 2

/-- The pad of output `j` seen at level `pad`. -/
def State.seePad (s : State) (j : Nat) (pad : Bool) : State :=
  { s with tio := { s.tio with pads := putBit s.tio.pads j pad } }

/-- One retry of output `j` at its logical level (R81). A driver that was off is enabled again, and its check ends 1.05 µs later;
the pad is the one that this check sees (notes/assumptions/149). -/
def State.shortRetry (s : State) (j : Nat) : State :=
  let high := s.tio.level.testBit j
  let off := (s.rd (pg .tio 0) Reg.TIO_OUT_FLT_STAT_DISABLED).testBit j
  if s.shortOf j = 0 then s
  else
    let s := if off then { s with tio := { s.tio with changeAt := smInsert j s.tick s.tio.changeAt } } else s
    s.setShort j (shortKind j high (s.tio.pads.testBit j)) high (if off then shortCheckTicks else 0)

/-- SHORT_DETECT (R79, R80): a mismatch has held for 1 µs, no part of it within 50 ns of a change of the driven level. -/
def execShortDetect (t : Nat) (j : Fin 16) (padHigh : Bool) (s : State) : Host.Outcome State Fault Refusal :=
  let s := ((s.advance t).routerTo t).seePad j padHigh
  let p := pg .tio 0
  let high := s.tio.level.testBit j
  let kind := shortKind j high padHigh
  .next (if s.tick < smGet 0 j s.tio.changeAt + (if (smFind j.val s.tio.changeAt).isSome then shortCheckTicks else 0) then s
    else if kind = 0 || s.shortOf j != 0 || !(s.rd p Reg.TIO_OUT_FLT_CTL_DET_EN).testBit j then s
    else
      let c := s.rd p Reg.TIO_OUT_FLT_CNT_CNT
      (s.wr p Reg.TIO_OUT_FLT_CNT_CNT (setPart c (4 * j) 4 (min 15 (part c (4 * j) 4 + 1)))).setShort j kind high 0)

/-- SHORT_RETRY (R81, R97): the retry of output `j` that its 10 ms schedule has due. -/
def execShortRetry (t : Nat) (j : Fin 16) (padHigh : Bool) (s : State) : Host.Outcome State Fault Refusal :=
  let s := ((s.advance t).routerTo t).seePad j padHigh
  .next (if (s.rd (pg .tio 0) Reg.TIO_OUT_FLT_CTL_RETRY_EN).testBit j && decide (smGet 0 j s.tio.retryAt ≤ s.tick) then s.shortRetry j
    else s)

/-- RETRY_NOW (R97): the retries run at once, with the pads as operand `padHigh` gives them; their schedules restart from them. -/
def execRetryNow (t : Nat) (mask padHigh : BitVec 16) (s : State) : Host.Outcome State Fault Refusal :=
  let s := ((s.advance t).routerTo t).each (bitsOf 16 mask.toNat) (fun s j => s.seePad j (padHigh.getLsbD j))
  let p := pg .tio 0
  .next (s.hosted p 0x808
    (mask.toNat * 2 ^ 32 + s.rd p Reg.TIO_OUT_FLT_CTL_RETRY_EN * 2 ^ 16 + s.rd p Reg.TIO_OUT_FLT_CTL_DET_EN)
    (fun s => s.each (bitsOf 16 mask.toNat) State.shortRetry))

/-- DET_EN written with `en` (R97): an output whose detection stops loses its fault. -/
def State.detEnWrite (s : State) (en : Nat) : State :=
  (s.wr (pg .tio 0) Reg.TIO_OUT_FLT_CTL_DET_EN en).each ((List.range 16).filter (fun j => !en.testBit j))
    (fun s j => s.setShort j 0 false 0)

/-- OUT_FLT_DET_DISABLE (R97). -/
def execOutFltDetDisable (t : Nat) (mask : BitVec 16) (s : State) : Host.Outcome State Fault Refusal :=
  let s := s.advance t
  let p := pg .tio 0
  let en := s.rd p Reg.TIO_OUT_FLT_CTL_DET_EN &&& (0xFFFF - mask.toNat)
  .next (s.hosted p 0x808 (s.rd p Reg.TIO_OUT_FLT_CTL_RETRY_EN * 2 ^ 16 + en)
    (fun s => s.detEnWrite en))

/-! Open sense wires. -/

/-- The end of an open-wire pass (R88, R89). -/
def State.owEnd (s : State) : State :=
  let p := pg .cmp 0
  let rose := s.tio.owRose
  let s := { s with tio := { s.tio with owPass := false, owTodo := [], owRose := false } }
  ((s.bump p Reg.CMP_OW_STAT_PASS_SEQ 1).wr p Reg.CMP_OW_CTL_START 0).eventIf rose .cmp 0 32

/-- An open-wire pass over MASK starts (R84, R88); one in progress goes on. A pass over no pin ends at once, and PASS_SEQ counts it
(notes/assumptions/150). -/
def State.owBegin (s : State) (byStart : Bool) : State :=
  if s.tio.owPass then s
  else
    let p := pg .cmp 0
    let todo := bitsOf 24 (s.rd p Reg.CMP_OW_CTL_MASK)
    let s := { s with tio := { s.tio with owPass := true, owTodo := todo, owRose := false, owAt := s.tick } }
    let s := s.wrs p [(Reg.CMP_OW_STAT_DONE, 0), (Reg.CMP_OW_CTL_START, b2n byStart)]
    if todo.isEmpty then s.owEnd else s

/-- OW_START (R88). -/
def execOwStart (t : Nat) (s : State) : Host.Outcome State Fault Refusal :=
  let s := s.advance t
  let p := pg .cmp 0
  .next (s.hosted p 0x700 (s.rd p Reg.CMP_OW_CTL_PERIOD * 2 ^ 32 + 2 ^ 24 + s.rd p Reg.CMP_OW_CTL_MASK)
    (fun s => s.owBegin true))

/-- The tick of the next periodic pass, PERIOD × 10 ms from now (R88). -/
def State.owSchedule (s : State) : State :=
  { s with tio := { s.tio with owNextAt := s.tick + s.rd (pg .cmp 0) Reg.CMP_OW_CTL_PERIOD * 16000000 } }

/-- OW_PERIODIC_PASS (R88). -/
def execOwPeriodicPass (t : Nat) (s : State) : Host.Outcome State Fault Refusal :=
  let s := s.advance t
  .next (if s.rd (pg .cmp 0) Reg.CMP_OW_CTL_PERIOD = 0 || s.tick < s.tio.owNextAt then s else s.owSchedule.owBegin false)

/-- How long the test of one pin drives it, and how long it waits before the next, in ticks (R84). -/
def owTicks : Nat := 3200

/-- The conversion in progress is of the HK_IN input that pin `i` of the open-wire test names (R87). -/
def State.owShared (s : State) (i : Nat) : Bool :=
  16 ≤ i && s.on (pg .hka 0) Reg.HKA_HKA_STAT_BUSY && s.hk.input == 40 + i

/-- The test of pin `i` waits for a conversion of the same input that started before the test's end (R87). -/
def State.owBlocked (s : State) (i : Nat) : Bool := s.owShared i && decide (s.hk.startAt < s.tio.owAt + owTicks)

/-- A conversion of converter input `k` that is requested now starts now, or, where the open-wire test of that input is in progress,
when the test ends (R87). -/
def State.owFree (s : State) (k : Nat) : Nat :=
  match s.tio.owTodo with
  | i :: _ => if 16 ≤ i && k == 40 + i && decide (s.tio.owAt ≤ s.tick) then max s.tick (s.tio.owAt + owTicks) else s.tick
  | [] => s.tick

/-- The conversion in progress ends: a test that waited for it starts (R87). -/
def State.owConvEnd (s : State) : State :=
  match s.tio.owTodo with
  | i :: _ => if s.owBlocked i then { s with tio := { s.tio with owAt := max s.tio.owAt s.tick } } else s
  | [] => s

/-- The test of pin `i` ends now: a conversion of the same input that waited for it starts (R87). -/
def State.owTestEnd (s : State) (i : Nat) : State :=
  if s.owShared i && decide (s.hk.startAt < s.tick) then
    { s with hk := { s.hk with startAt := s.tick, dueAt := s.hk.dueAt + (s.tick - s.hk.startAt) } }
  else s

/-- OW_PIN_TEST (R84, R87, R89): the test of the next pin of the pass, in ascending order, ends; the rise of its voltage in mV. -/
def execOwPinTest (t : Nat) (pin : Fin 24) (riseMv : Nat) (s : State) : Host.Outcome State Fault Refusal :=
  let s := s.advance t
  let p := pg .cmp 0
  match s.tio.owTodo with
  | [] => .next s
  | i :: rest =>
    .next (if i ≠ pin.val || s.tick < s.tio.owAt + owTicks || s.owBlocked i then s
      else
        let s := s.owTestEnd i
        let isOpen := 120 < riseMv
        let was := (s.rd p Reg.CMP_OW_STAT_OPEN).testBit i
        let s := s.wrs p [(Reg.CMP_OW_STAT_OPEN, putBit (s.rd p Reg.CMP_OW_STAT_OPEN) i isOpen),
          (Reg.CMP_OW_STAT_DONE, setBit (s.rd p Reg.CMP_OW_STAT_DONE) i)]
        let s := { s with tio := { s.tio with owTodo := rest, owRose := s.tio.owRose || (isOpen && !was), owAt := s.tick + owTicks } }
        if rest.isEmpty then s.owEnd else s)

/-! SEQ_STAT.CLEAR and the SMBus sideband. -/

/-- CAUSE, FAULT_SEEN and PD_ORDER cleared in the monitor and in SEQ_STAT (R93). -/
def State.seqClear (s : State) : State :=
  { s with pwr := { s.pwr with cause := 0, faultSeen := false, pdOrder := false } }.monSync

/-- SEQ_STAT_CLEAR (R93). -/
def execSeqStatClear (t : Nat) (s : State) : Host.Outcome State Fault Refusal :=
  .next ((s.advance t).hosted (pg .pwr 0) 0x100 0x100 State.seqClear)

/-- The sideband is powered (R98): VDD_IO is up. -/
def State.sideband (s : State) (f : State → State) : State := if s.pwr.isUp 2 then f s else s

/-- The word of SEQ_STAT (R93). -/
def State.seqStatWord (s : State) : Nat :=
  let p := pg .pwr 0
  s.rd p Reg.PWR_SEQ_STAT_FAULT_COUNT * 2 ^ 32 + s.rd p Reg.PWR_SEQ_STAT_ALERT * 2 ^ 6 +
    s.rd p Reg.PWR_SEQ_STAT_PD_ORDER * 2 ^ 5 + s.rd p Reg.PWR_SEQ_STAT_FAULT_SEEN * 2 ^ 4 +
    s.rd p Reg.PWR_SEQ_STAT_CAUSE

/-- The word of RAIL_STAT (R94). -/
def State.railStatWord (s : State) : Nat :=
  let p := pg .pwr 0
  s.rd p Reg.PWR_RAIL_STAT_OV * 2 ^ 32 + s.rd p Reg.PWR_RAIL_STAT_UV * 2 ^ 16 + s.rd p Reg.PWR_RAIL_STAT_IN_TOL

/-- The eight bytes of a block read, least significant first (R98). -/
def smbBytes (w : Nat) : List Nat := (leBytes 8 w).map BitVec.toNat

/-- SMB_READ_SEQ_STAT (R98). -/
def execSmbReadSeqStat (s : State) : Host.Outcome State Fault Refusal :=
  .next (s.sideband (fun s => s.emit (.smbRead (smbBytes s.seqStatWord))))

/-- SMB_READ_RAIL_STAT (R98). -/
def execSmbReadRailStat (s : State) : Host.Outcome State Fault Refusal :=
  .next (s.sideband (fun s => s.emit (.smbRead (smbBytes s.railStatWord))))

/-- SMB_READ_CORE_TELEM (R98): 0 until the module has started. -/
def execSmbReadCoreTelem (s : State) : Host.Outcome State Fault Refusal :=
  let p := pg .pwr 0
  .next (s.sideband (fun s => s.emit (.smbRead (smbBytes (if s.pwr.started then
    s.rd p Reg.PWR_CORE_TELEM_I_DA * 2 ^ 16 + s.rd p Reg.PWR_CORE_TELEM_V_MV else 0)))))

/-- SMB_READ_OUT_FLT_STAT (R98): 0 until the module has started. -/
def execSmbReadOutFltStat (s : State) : Host.Outcome State Fault Refusal :=
  let p := pg .tio 0
  .next (s.sideband (fun s => s.emit (.smbRead (smbBytes (if s.pwr.started then
    s.rd p Reg.TIO_OUT_FLT_STAT_DISABLED * 2 ^ 32 + s.rd p Reg.TIO_OUT_FLT_STAT_KIND else 0)))))

/-- SMB_ALERT_RELEASE (R98): command 0x0F with data 0x01; other data has no effect (notes/assumptions/13). -/
def execSmbAlertRelease (data : Byte) (s : State) : Host.Outcome State Fault Refusal :=
  .next (s.sideband (fun s =>
    (if data = 1 then { s with pwr := { s.pwr with alert := false } }.monSync else s).emit .smbAck))

/-- SMB_SEQ_CLEAR (R98): command 0x10 with data 0x01; other data has no effect (notes/assumptions/13). -/
def execSmbSeqClear (data : Byte) (s : State) : Host.Outcome State Fault Refusal :=
  .next (s.sideband (fun s => (if data = 1 then s.seqClear else s).emit .smbAck))

/-- SMB_ALERT_RESPONSE (R98). -/
def execSmbAlertResponse (s : State) : Host.Outcome State Fault Refusal :=
  .next (s.sideband (fun s => if s.pwr.alert then s.emit .smbAlertAddress else s))

/-- SMB_UNKNOWN_COMMAND (R98): any command byte but 0x01 to 0x04, 0x0F and 0x10 is answered with a NACK. -/
def execSmbUnknownCommand (cmd : Byte) (s : State) : Host.Outcome State Fault Refusal :=
  .next (s.sideband (fun s =>
    if cmd.toNat ∈ [0x01, 0x02, 0x03, 0x04, 0x0F, 0x10] then s else s.emit .smbNack))

end Sys2Proof.Machine
end

