-- ==== Sys2Proof/Machine/Almanac.lean ====
section
/-!
DEFINITION. The almanac: records, leaps, their accounting and the record queue (R309 to R317, R545, R566).
-/
namespace Sys2Proof.Machine

/-- The acquisition state of context `c`. -/
def State.actx (s : State) (c : Nat) : AcqCtx := smGet {} c s.acq.ctx
def State.setActx (s : State) (c : Nat) (a : AcqCtx) : State :=
  { s with acq := { s.acq with ctx := smSet {} c a s.acq.ctx } }

/-- The running contexts, rising. -/
def State.running (s : State) : List Nat := (s.acq.ctx.filter (fun x => x.2.running)).map Prod.fst

/-! Availability (R545). -/

/-- The contexts whose AV_LOST exceeds AV_BUDGET. -/
def State.avOver (s : State) : List Nat :=
  (s.rel.avLost.filter (fun x => s.rd (pg .vgl 0) Reg.VGL_AV_BUDGET_TICKS < x.2)).map Prod.fst

/-- `ticks` of lost output charged to context `c`; AVAIL_BUDGET is raised once as the budget is exceeded. -/
def State.charge (s : State) (c ticks : Nat) : State :=
  let v := smGet 0 c s.rel.avLost + ticks
  let s := { s with rel := { s.rel with avLost := smSet 0 c v s.rel.avLost } }
  let s := s.bump (pg .vgl 0) Reg.VGL_AV_TOTAL_TICKS ticks
  if s.rd (pg .vgl 0) Reg.VGL_AV_BUDGET_TICKS < v && !s.rel.avRaised.contains c then
    ({ s with rel := { s.rel with avRaised := c :: s.rel.avRaised } }).event .vgl 0 3
  else s

/-! Records. -/

/-- Word 0 of a record (R309). -/
def recHead (kind : Nat) (spec est lost loc : Bool) (kflags c low : Nat) : Nat :=
  kind * 2 ^ 56 + b2n spec * 2 ^ 55 + b2n est * 2 ^ 54 + b2n lost * 2 ^ 53 + b2n loc * 2 ^ 52 + kflags % 16 * 2 ^ 48 +
    c % 1024 * 2 ^ 38 + low % 2 ^ 38

/-- Entries of the record queue in use: unreserved, and in all (R315). -/
def State.queueOpen (s : State) : Nat := (s.acq.ctx.map (fun x => x.2.queued)).sum
def State.queueAll (s : State) : Nat := (s.acq.ctx.map (fun x => x.2.queued + x.2.reserved)).sum

/-- The unreserved entries of the record queue (R315): 16,384 less 4 per context. -/
def queueUnreserved : Nat := 16384 - 4 * 1024

/-- The kinds that may use only the unreserved part (R315): TRIGGER, OVERRANGE, MASK_VIOLATION, CALIBRATION, LINK,
USER. -/
def droppable (kind : Nat) : Bool := [0x01, 0x03, 0x04, 0x06, 0x07, 0x0A].contains kind

/-- The number of the next record of context `c`, from `n` on, whose slot is not in a hole (R413): `fuel` granules at
most are passed. -/
def State.almSlot (s : State) (a : AcqCtx) : Nat → Nat → Nat
  | 0, n => n
  | fuel + 1, n =>
    let x := s.areaAddr a.laid a.almBase (n * 32 % a.almBytes)
    if s.anyHole && s.hole x then s.almSlot a fuel ((n / 128 + 1) * 128) else n

/-- One record of context `c` placed in its almanac ring (R314). The queue entry it takes is freed by
RECORD_QUEUE_FREE (notes/assumptions/14). -/
def State.placeRecord (s : State) (c : Nat) (words : List Nat) : State :=
  let a := s.actx c
  let n := s.rd (pg .ctx c) Reg.CTX_ALM_WCNT_CNT
  let n := if a.almBytes = 0 then n else s.almSlot a 128 n
  let s := if a.almBytes = 0 then s else s.writeWords (s.areaAddr a.laid a.almBase (n * 32 % a.almBytes)) words
  s.wr (pg .ctx c) Reg.CTX_ALM_WCNT_CNT (n + 1)

/-- A record that falls due for context `c` (R309, R314, R315): `kind`, scope, flags, word 0 below the context, words
1 to 3. A context that does not run writes none. -/
def State.record (s : State) (c kind : Nat) (spec est : Bool) (kflags low w1 w2 w3 : Nat) : State :=
  let a := s.actx c
  if !a.running then s
  else
    let room := s.queueOpen < queueUnreserved
    if droppable kind && !room then
      ((s.setActx c { a with lostBefore := true }).bumpSat (pg .acq 0) Reg.ACQ_REC_STAT_DROPPED 1).event .acq 0 7
    else
      let b := if room then { a with queued := a.queued + 1 } else { a with reserved := min 4 (a.reserved + 1) }
      let s := s.setActx c { b with lostBefore := false }
      let s := s.peak (pg .acq 0) Reg.ACQ_REC_STAT_PEAK s.queueAll
      s.placeRecord c [recHead kind spec est a.lostBefore false kflags c low, w1 % 2 ^ 64, w2 % 2 ^ 64, w3 % 2 ^ 64]

/-! Leaps. -/

/-- The view sample period of context `c`, in ticks as 32.32 (R198). -/
def State.viewPeriod (s : State) (c : Nat) : Nat := s.rd (pg .ctx c) Reg.CTX_VIEW_PERIOD_PERIOD

/-- The view samples of context `c` in a span of `len` sub-ticks, rounded. -/
def State.samplesIn (s : State) (c len : Nat) : Nat :=
  let p := s.viewPeriod c * 16
  if p = 0 then 0 else (len * 2 ^ 32 + p / 2) / p

/-- The capture path of context `c` carries spectral content (R229). -/
def State.hasSpec (s : State) (c : Nat) : Bool :=
  s.rd (pg .ctx c) Reg.CTX_CAP_CFG_MODE != 0 && s.on (pg .ctx c) Reg.CTX_SPEC_CFG_SPEC_EN &&
    s.rd (pg .ctx c) Reg.CTX_XF_CFG_KIND != 0

/-- The code that stands, while a leap is open, for a FABRIC_FAULT behind the transform, which does not restart the grid and is written to
the scope of its hop alone (R311, R531); the record's code is the low 4 bits, 9. -/
def lateFault : Nat := 25

/-- The counted record of a loss (R566): of spectral scope for TRANSFORM_OVERLOAD, the one record of a loss written to one scope alone,
unflagged for every other. -/
def counted (cause : Nat) (spec : Bool) : Bool := if cause = 3 then spec else if cause = lateFault then true else !spec

/-- What a counted leap record on a capture path adds: the availability charge (R545), the totals per cause (R566),
health counter source 1 (R542) and criterion 1 of probation (R490). -/
def State.countLeap (s : State) (c cause ticks samples : Nat) : State :=
  let s := if cause = 5 then s else s.charge c ticks
  let s := { s with rel := { s.rel with
    leapRecs := smSet 0 cause (smGet 0 cause s.rel.leapRecs + 1) s.rel.leapRecs
    leapSamples := smSet 0 cause (smGet 0 cause s.rel.leapSamples + samples) s.rel.leapSamples } }
  let s := s.occur 1 cause
  if s.on (pg .epo 0) Reg.EPO_PROB_STAT_ACTIVE && s.epo.leapCauses.testBit (cause - 1) then
    let s := { s with epo := { s.epo with leaps := s.epo.leaps + 1 } }
    if s.epo.leapMax < s.epo.leaps then s.failProbation 1 else s
  else s

/-- The sub-ticks of `n` view samples of context `c`, rounded. -/
def spanOver (per n : Nat) : SubTick := (n * per * 16 + 2 ^ 31) / 2 ^ 32
def State.nearSpan (s : State) (c n : Nat) : SubTick := spanOver (s.viewPeriod c) n

/-- The hysteresis of the level sources of context `c` is cleared by a leap (R271). -/
def State.levelLeap (s : State) (c : Nat) : State :=
  s.each [0, 1] (fun s l => if s.on (pg .ctx c) (Reg.CTX_LVL_CFG_EN l) then
    { s with trg := { s.trg with lvl := smInsert (2 * c + l) { smGet {} (2 * c + l) s.trg.lvl with leapt := true } s.trg.lvl } }
    else s)

/-- The causes that restart the grid (R311). FABRIC_FAULT does where the hop lies before the transform array. -/
def restartsGrid (cause : Nat) : Bool := [1, 2, 6, 7, 9].contains cause

/-- The stamp of the last view sample of context `c` once a leap covers those from `start` on. The leaps of a decimated view's source lie
on the stamps of the source, D_k earlier than its view samples (R185, R196). -/
def State.leapLast (s : State) (c cause : Nat) (start len : SubTick) (samples : Nat) : SubTick :=
  let a := s.actx c
  if restartsGrid cause && s.rd (pg .ctx c) Reg.CTX_VIEW_CFG_DEC_LOG2 != 0 then a.last + s.nearSpan c samples
  else max a.last (start + len - s.nearSpan c 1)

/-- View samples that the raw area holds; records that the spectral area holds (R297, R298). -/
def CapDesc.rawCap (d : CapDesc) : Nat := if d.sampleBytes = 0 then 0 else d.rawBytes / d.sampleBytes
def CapDesc.specCap (d : CapDesc) : Nat := if d.recBytes = 0 then 0 else d.specBytes / d.recBytes

/-- The capacity C of a region in view samples (R297). -/
def CapDesc.cap (d : CapDesc) : Nat :=
  match d.rawEn, d.specEn with
  | true, true => min d.rawCap (d.specCap * d.stride)
  | true, false => d.rawCap
  | false, true => d.specCap * d.stride
  | false, false => 0

/-- The elapsed samples of a piece that are stamped at or after `T`, with view period `per`. -/
def CapSeg.since (g : CapSeg) (per : Nat) (T : SubTick) : Nat :=
  if T ≤ g.start then g.n
  else if !g.leap || per = 0 then 0
  else g.n - min g.n (((T - g.start) * 2 ^ 32 + 16 * per - 1) / (16 * per))

/-- The samples delivered in the capture (R310, R316), policy TRUNCATE's measure too (R303). -/
def AcqCtx.delivered (a : AcqCtx) : Nat := (a.trail.filter (fun g => !g.leap && a.capFrom ≤ g.start)).length

/-- The capture in POST still takes samples (R299, R302, R303). -/
def AcqCtx.postOpen (a : AcqCtx) : Bool :=
  a.postGot < a.desc.post && a.ending.isNone && !(a.desc.policy == 2 && a.desc.cap ≤ a.delivered)

/-- A leap of context `c`, with its capture in state `st`, in the counts of its capture path (R316, R317): a ring counts all but those of a
frozen interval; a capture those inside it, up to its last post sample. -/
def AcqCtx.takeLeap (a : AcqCtx) (st per : Nat) (spec : Bool) (start len : SubTick) (samples : Nat) : AcqCtx :=
  let stop := start + len - spanOver per 1
  if spec then
    let a := if st = 1 ∨ st = 2 then { a with specLeaps := (start, samples) :: a.specLeaps } else a
    if (st = 6 && !a.releasing) || (st = 3 && a.capFrom ≤ start) then { a with sleap := a.sleap + samples } else a
  else
    let g : CapSeg := ⟨start, samples, true, 0⟩
    if st = 6 && !a.releasing then { a with trail := g :: a.trail, leap := a.leap + samples, acct := max a.acct stop }
    else if st = 1 ∨ st = 2 then { a with trail := g :: a.trail }
    else if st = 3 && a.postOpen then
      let post := g.since per (a.trigger.getD 0)
      let n := min post (a.desc.post - a.postGot)
      { a with trail := g :: a.trail, postGot := a.postGot + n, leap := a.leap + (g.since per a.capFrom - post) + n
               acct := max a.acct (start + spanOver per (samples - post + n - 1)) }
    else a

/-- A LEAP record of context `c` on its capture path (R310, R311), from stamp `start` over `len` sub-ticks; a leap of no
length is not written. -/
def State.writeLeap (s : State) (c cause : Nat) (spec est : Bool) (start len : SubTick) (samples : Nat) : State :=
  if len = 0 || !(s.actx c).running then s
  else
    let s := s.levelLeap c
    let s := s.record c 0x02 spec est 0 (cause % 16) (start / 16) (len / 16 * 2 ^ 8 + len % 16 * 2 ^ 4 + start % 16) samples
    let a := s.actx c
    let a := if spec && cause = 3 && !s.hasSpec c then a
      else a.takeLeap (s.rd (pg .ctx c) Reg.CTX_CAP_STAT_STATE) (s.viewPeriod c) spec start len samples
    let a := if spec then a else { a with last := s.leapLast c cause start len samples }
    let s := s.setActx c a
    let s := if counted cause spec then s.countLeap c (cause % 16) (len / 16) samples else s
    s.event .acq 0 4

/-- Where a cause acts on the data path, earliest first (R312): gating, link, slot FIFO, fabric, conditioning,
transform, the fabric behind it, memory and write buffer, drain. -/
def causeRank : Nat → Nat
  | 6 => 0 | 2 => 1 | 1 => 2 | 9 => 3 | 7 => 4 | 3 => 5 | 25 => 6 | 8 => 7 | 4 => 8 | _ => 9

/-- The open leap of a scope ends before stamp `stop` and is written (R312); one that would be empty is not. -/
def State.endLeap (s : State) (c : Nat) (spec : Bool) (stop : SubTick) : State :=
  let a := s.actx c
  match (if spec then a.openSpec else a.openRaw) with
  | none => s
  | some l =>
    let s := s.setActx c (if spec then { a with openSpec := none } else { a with openRaw := none })
    s.writeLeap c l.cause spec l.est l.start (stop - l.start) (s.samplesIn c (stop - l.start))

/-- A loss of `cause` begins at stamp `start` on one scope of the capture path (R312): an open leap of an earlier cause
goes on, one of a later cause ends there. -/
def State.openLeap (s : State) (c : Nat) (spec : Bool) (cause : Nat) (start : SubTick) (est : Bool) : State :=
  let a := s.actx c
  if !a.running then s
  else
    match (if spec then a.openSpec else a.openRaw) with
    | some l =>
      if causeRank l.cause ≤ causeRank cause then s
      else
        let s := s.endLeap c spec start
        let a := s.actx c
        s.setActx c (if spec then { a with openSpec := some ⟨cause, start, est⟩ }
          else { a with openRaw := some ⟨cause, start, est⟩ })
    | none => s.setActx c (if spec then { a with openSpec := some ⟨cause, start, est⟩ }
        else { a with openRaw := some ⟨cause, start, est⟩ })

/-- A closed span lost on one scope at once (R312): one before an open leap stands beside it; else an open leap of an earlier cause covers
it, and one of a later cause ends before it and goes on after it. -/
def State.loseSpan (s : State) (c : Nat) (spec : Bool) (cause : Nat) (start len : SubTick) (samples : Nat) : State :=
  let a := s.actx c
  match (if spec then a.openSpec else a.openRaw) with
  | some l =>
    if start + len ≤ l.start then s.writeLeap c cause spec false start len samples
    else if causeRank l.cause ≤ causeRank cause then
      s.writeLeap c cause spec false start (l.start - start) (s.samplesIn c (l.start - start))
    else
      let s := (s.endLeap c spec start).writeLeap c cause spec false start len samples
      let a := s.actx c
      let l := some ⟨l.cause, start + len, l.est⟩
      s.setActx c (if spec then { a with openSpec := l } else { a with openRaw := l })
  | none => s.writeLeap c cause spec false start len samples

/-- The transform of context `c` beyond its registers. -/
def State.xfc (s : State) (c : Nat) : XfCtx := smGet {} c s.xf.ctx
def State.setXfc (s : State) (c : Nat) (x : XfCtx) : State :=
  { s with xf := { s.xf with ctx := smSet {} c x s.xf.ctx } }

/-- The TRANSFORM_OVERLOAD leap of a run of dropped frames (R215): exactly their strides, of spectral scope. -/
def State.writeRun (s : State) (c : Nat) (r : DropRun) : State :=
  s.loseSpan c true 3 r.start (spanOver r.per (r.strides * r.hop)) (r.strides * r.hop)

/-- The runs of dropped frames before frame `seq` are written (R215). -/
def State.writeRuns (s : State) (c seq : Nat) : State :=
  let x := s.xfc c
  (s.setXfc c { x with runs := x.runs.filter (fun r => seq ≤ r.seq) }).each (x.runs.filter (fun r => r.seq < seq))
    (fun s r => s.writeRun c r)

/-- A run with no frame after it on its grid is written at once, as a loss that restarts the grid begins, or at an equinox
(R215). -/
def State.flushRuns (s : State) (c : Nat) : State :=
  let x := s.xfc c
  let open_ (r : DropRun) := x.frames.all (fun f => f.seq < r.seq)
  (s.setXfc c { x with runs := x.runs.filter (fun r => !open_ r) }).each (x.runs.filter open_) (fun s r => s.writeRun c r)

/-- The stamp of sample `k` of a grid: as it was delivered, or as the view's period gives it. -/
def XfGrid.stamp (g : XfGrid) (k : Nat) : SubTick :=
  match g.hist[g.got - 1 - k]?, g.hist with
  | some y, z :: _ => if k < g.got then y.stamp else z.stamp + spanOver g.per (k + 1 - g.got)
  | _, _ => 0

/-- The first frame of a grid whose last sample the grid has not taken (R205). -/
def XfGrid.short (g : XfGrid) : Nat := max g.next (if g.got < g.n then 0 else (g.got - g.n) / max 1 g.hop + 1)

/-- Frames of a grid before its end have still to become ready (R216). -/
def XfGrid.more (g : XfGrid) : Bool := match g.stop with
  | some q => decide (g.next * g.hop < q)
  | none => true

/-- The last frames before the switch point of context `c` take samples from another source than the one that it has now (R216). -/
def State.prevApart (s : State) (c : Nat) : Bool := match (smGet {} c s.ing.view).old with
  | some (w, _) => w.slot != s.rd (pg .ctx c) Reg.CTX_SRC_CFG_SLOT
  | none => false

/-- The stride of the first frame of context `c` that a loss from stamp `start` on prevents (R229). -/
def State.lostStride (s : State) (c : Nat) (start : SubTick) : SubTick :=
  let x := s.xfc c
  match (x.prev.filter (fun g => g.more && !s.prevApart c)).orElse (fun _ => x.cur) with
  | some g => if g.short * g.hop < g.got then g.stamp (g.short * g.hop) else start
  | none => start

/-- The frames of the grid before the switch point that a loss prevents (R216): the frames after them move up by as many numbers. -/
def State.prevCut (s : State) (c : Nat) : State :=
  let x := s.xfc c
  match x.prev, x.cur with
  | some g, some h =>
    let k := h.seq0 - (g.seq0 + g.next)
    let low := g.seq0 + g.next
    s.setXfc c { x with
      prev := none, cur := some { h with seq0 := low }
      frames := x.frames.map (fun f => if low ≤ f.seq then { f with seq := f.seq - k } else f)
      runs := x.runs.map (fun r => if low ≤ r.seq then { r with seq := r.seq - k } else r) }
  | some g, none => s.setXfc c { x with prev := none, seq := g.seq0 + g.next }
  | none, _ => s

/-- The frames before the switch point of context `c` that cannot complete are lost to `cause` (R216, R229): their strides form one leap of
spectral scope. -/
def State.prevLost (s : State) (c cause : Nat) : State :=
  match (s.xfc c).prev with
  | none => s
  | some g =>
    let k := g.short * g.hop
    let stop := g.stop.getD g.got
    let s := s.flushRuns c
    let s := if k < stop && s.hasSpec c then s.loseSpan c true cause (g.stamp k) (g.stamp stop - g.stamp k) (stop - k) else s
    s.prevCut c

/-- A loss of `cause` begins at stamp `start` in context `c`: unflagged, and, where the capture path carries spectral
content, of spectral scope from the first frame that the loss prevents (R229, R311). -/
def State.lose (s : State) (c cause : Nat) (start : SubTick) (est : Bool) : State :=
  if (s.xfc c).ending then (if restartsGrid cause then s.prevLost c cause else s)
  else
  let s := if restartsGrid cause then s.flushRuns c else s
  let from_ := if restartsGrid cause then s.lostStride c start else start
  let s := s.openLeap c false cause start est
  let s := if s.hasSpec c then s.openLeap c true cause from_ est else s
  if restartsGrid cause && !s.prevApart c then s.prevCut c else s

/-- The losses of context `c` that end as the sample stamped `stop` is delivered are written. -/
def State.regain (s : State) (c : Nat) (stop : SubTick) : State := (s.endLeap c false stop).endLeap c true stop

/-- The view of context `c` beyond its registers. -/
def State.view (s : State) (c : Nat) : ViewSt := smGet {} c s.ing.view
def State.setView (s : State) (c : Nat) (v : ViewSt) : State := { s with ing := { s.ing with view := smSet {} c v s.ing.view } }

/-- The losses of context `c` that restart the grid have ended: the next view sample starts a grid, and 67 of those of a decimated view
are built from both sides of the gap (R199, R204). -/
def State.gapEnd (s : State) (c : Nat) : State :=
  let v := s.view c
  let span := if s.rd (pg .ctx c) Reg.CTX_VIEW_CFG_DEC_LOG2 = 0 then 0 else 67
  s.setView c { v with gap := true, cur := { v.cur with span := span } }

/-- A loss behind the transform of context `c` ends before stamp `stop` (R531). -/
def State.faultEnd (s : State) (c : Nat) (spec : Bool) (stop : SubTick) : State :=
  match (if spec then (s.actx c).openSpec else (s.actx c).openRaw) with
  | some l => if l.cause = lateFault then s.endLeap c spec stop else s
  | none => s

/-! The other kinds. -/

/-- A CLOCK record of context `c` (R310). -/
def State.clockRecord (s : State) (c : Nat) (holdover : Bool) (subtype cause w1 w2 w3 : Nat) : State :=
  s.record c 0x09 false false (b2n holdover * 8) (cause * 16 + subtype) w1 w2 w3

/-- The clocks are released: a CLOCK record is due in context `c` (R115): GATE_CAUSE, the gated ticks, and whether the reference was
lost. -/
def State.clockDue (s : State) (c cause gap : Nat) (hold : Bool) : State :=
  let a := s.actx c
  s.setActx c { a with clockDue := a.clockDue ++ [(cause, s.clk.gateAt, gap, hold)] }

/-- The CLOCK records due in context `c` are written (R115, R310); the bound of 2 % of R114 is rounded up to a whole tick
(notes/assumptions/157). -/
def State.clockWrite (s : State) (c : Nat) : State :=
  let l := (s.actx c).clockDue
  (s.setActx c { s.actx c with clockDue := [] }).each l (fun s x =>
    s.clockRecord c x.2.2.2 1 x.1 x.2.1 (x.2.2.1 * 2 ^ 8) (if x.2.2.2 then (x.2.2.1 + 49) / 50 else 0))

/-- The reference is lost in a gated interval: the CLOCK_LOSS leaps open in context `c` carry EST (R114). -/
def State.clockEst (s : State) (c : Nat) : State :=
  let a := s.actx c
  let mark (o : Option OpenLeap) : Option OpenLeap := o.map (fun l => if l.cause = 6 then { l with est := true } else l)
  s.setActx c { a with openRaw := mark a.openRaw, openSpec := mark a.openSpec }

/-- An EPOCH record of context `c` (R310); `flags` are RESET, START, STOP and REVERT, from bit 3 down. -/
def State.epochRecord (s : State) (c flags new prev : Nat) (stamp : SubTick) (w3 : Nat) : State :=
  s.record c 0x05 false false flags new (stamp / 16) (prev * 2 ^ 32 + stamp % 16) w3

/-- A LINK record of context `c` (R310). -/
def State.linkRecord (s : State) (c : Nat) (nondet : Bool) (link nM1 st : Nat) (stamp : SubTick) (lanes : Nat) : State :=
  s.record c 0x07 false false (b2n nondet * 8) (link * 2 ^ 8 + nM1 * 2 ^ 4 + st) (stamp / 16) (lanes * 2 ^ 32 + stamp % 16) 0

end Sys2Proof.Machine
end

