-- ==== Sys2Proof/Machine/XfLayout.lean ====
section
/-!
DEFINITION. What a context's view and transform settings say about sizes: view samples, frames, traces and stored
records (R31, R192, R204, R206, R218 to R228, R297).
-/
namespace Sys2Proof.Machine

/-- The source slot of context `c` (R201). -/
def State.srcSlot (s : State) (c : Nat) : Nat := s.rd (pg .ctx c) Reg.CTX_SRC_CFG_SLOT

/-- The slots of the source that starts at slot `n` (R161, R201): a bonded group from its base slot, else the slot
alone (notes/assumptions/17). -/
def State.srcSlots (s : State) (n : Nat) : List Nat :=
  let b := s.rd (pg .slt n) Reg.SLT_SLT_CFG_BOND_LOG2
  if 1 ≤ b ∧ b ≤ 4 ∧ n % 2 ^ b = 0 then (List.range (2 ^ b)).map (fun i => n + i) else [n]

/-- The running contexts whose source takes slot `n`. -/
def State.ctxsOnSlot (s : State) (n : Nat) : List Nat :=
  s.running.filter (fun c => (s.srcSlots (s.srcSlot c)).contains n)

/-- The stamp of the view sample that follows the last one of context `c`. -/
def State.nextStamp (s : State) (c : Nat) : SubTick :=
  (s.actx c).last + (s.viewPeriod c * 16 + 2 ^ 31) / 2 ^ 32

/-- Slot `n` carries complex samples (R158). -/
def State.slotComplex (s : State) (n : Nat) : Bool := s.on (pg .slt n) Reg.SLT_SLT_CFG_CPLX

/-- The view of context `c` is complex (R192). -/
def State.viewComplex (s : State) (c : Nat) : Bool :=
  s.rd (pg .ctx c) Reg.CTX_VIEW_CFG_MODE != 0 || s.slotComplex (s.srcSlot c)

/-- Bytes of one view sample in capture memory (R31, R296). -/
def State.viewBytes (s : State) (c : Nat) : Nat := if s.viewComplex c then 4 else 2

/-- N of context `c` (R203). -/
def State.xfN (s : State) (c : Nat) : Nat := 2 ^ s.rd (pg .ctx c) Reg.CTX_XF_CFG_NLOG2

/-- The hop of context `c`, in view samples (R204). -/
def State.xfHop (s : State) (c : Nat) : Nat := s.xfN c / 2 ^ s.rd (pg .ctx c) Reg.CTX_XF_CFG_HOP_LOG2

/-- Bins per frame of context `c` (R206). -/
def State.xfBins (s : State) (c : Nat) : Nat := if s.viewComplex c then s.xfN c else s.xfN c / 2

/-- The traces of context `c` that are enabled and stored, ascending (R225). -/
def State.storedTraces (s : State) (c : Nat) : List Nat :=
  (List.range 4).filter (fun i => s.on (pg .ctx c) (Reg.CTX_TRC_CFG_EN i) && s.on (pg .ctx c) (Reg.CTX_TRC_CFG_STORE i))

/-- Points of trace `i` of context `c` (R225). -/
def State.tracePoints (s : State) (c i : Nat) : Nat := 2 ^ s.rd (pg .ctx c) (Reg.CTX_TRC_CFG_TLOG2 i)

/-- Bytes of trace `i` in a record: 2 per point in dB, 4 in linear magnitude (R219). -/
def State.traceBytes (s : State) (c i : Nat) : Nat :=
  s.tracePoints c i * (if s.rd (pg .ctx c) (Reg.CTX_TRC_CFG_FMT i) = 0 then 2 else 4)

/-- Bytes of one stored record of context `c` (R218, R219, R228). -/
def State.specRecBytes (s : State) (c : Nat) : Nat :=
  let p := pg .ctx c
  let head := 8 * s.rd p Reg.CTX_XF_CFG_HDR
  let traces := ((s.storedTraces c).map (fun i => s.traceBytes c i)).sum
  match s.rd p Reg.CTX_XF_CFG_KIND with
  | 1 => head + 8 * s.xfBins c
  | 2 => head + s.xfBins c * (if s.rd p Reg.CTX_XF_CFG_PWR_FMT = 0 then 2 else 4)
  | 3 => head + traces
  | 4 => (head + traces + 63) / 64 * 64
  | _ => 0

/-- The stored traces are block averages (R227): the exponent a of 2^a frames per record, else 0. -/
def State.blockLog2 (s : State) (c : Nat) : Nat :=
  if s.rd (pg .ctx c) Reg.CTX_XF_CFG_KIND < 3 then 0
  else match s.storedTraces c with
    | i :: _ => if s.rd (pg .ctx c) (Reg.CTX_TRC_CFG_AVG i) = 2 then s.rd (pg .ctx c) (Reg.CTX_TRC_CFG_AVG_LOG2 i) else 0
    | [] => 0

/-- The stride of context `c` (R297): view samples per stored record. -/
def State.xfStride (s : State) (c : Nat) : Nat := s.xfHop c * 2 ^ s.blockLog2 c

/-- The region description of context `c` as its registers hold it (R296, R305). -/
def State.capDesc (s : State) (c : Nat) : CapDesc :=
  let p := pg .ctx c
  { mode := s.rd p Reg.CTX_CAP_CFG_MODE, policy := s.rd p Reg.CTX_CAP_CFG_POLICY
    rawEn := s.on p Reg.CTX_CAP_CFG_RAW_EN, specEn := s.on p Reg.CTX_SPEC_CFG_SPEC_EN
    eve := s.rd p Reg.CTX_CAP_EVE_EVE, post := s.rd p Reg.CTX_CAP_POST_POST
    rawBase := s.rd p Reg.CTX_RAW_BASE_ADDR
    rawBytes := s.areaBytes (s.actx c).laid (s.rd p Reg.CTX_RAW_BASE_ADDR) (s.rd p Reg.CTX_RAW_SIZE_GRAN * 4096)
    specBase := s.rd p Reg.CTX_SPEC_BASE_ADDR
    specBytes := s.areaBytes (s.actx c).laid (s.rd p Reg.CTX_SPEC_BASE_ADDR) (s.rd p Reg.CTX_SPEC_SIZE_GRAN * 4096)
    laid := (s.actx c).laid
    sampleBytes := s.viewBytes c, recBytes := s.specRecBytes c, stride := s.xfStride c }

end Sys2Proof.Machine
end

