-- ==== Sys2Proof/Machine/Acquisition.lean ====
section
/-!
DEFINITION. The acquisition controller: arming, triggered captures, overflow policies, continuous rings, the write
buffer and the accounting snapshot (R296 to R321).
-/
namespace Sys2Proof.Machine

/-- CAP_STAT.STATE of context `c` (R300). -/
def State.capState (s : State) (c : Nat) : Nat := s.rd (pg .ctx c) Reg.CTX_CAP_STAT_STATE

/-- The running contexts on the input at slot `n`. -/
def State.inputCtxs (s : State) (n : Nat) : List Nat := s.running.filter (fun c => s.srcSlot c == n)

/-- An eve+post capture sourced from input `n` is armed (R189). -/
def State.inputArmed (s : State) (n : Nat) : Bool :=
  (s.inputCtxs n).any (fun c => (s.actx c).desc.mode == 1 && [1, 2, 3].contains (s.capState c))

/-- PENDING of the input of context `c` (R189, R201): a requested run is held back. -/
def State.pendSync (s : State) (c : Nat) : State :=
  if s.rd (pg .ctx c) Reg.CTX_IC_STAT_STATE ≠ 2 then s
  else
    let n := s.srcSlot c
    let v := b2n (!s.on (pg .ctx c) Reg.CTX_IC_STAT_FORCED && s.inputArmed n)
    s.each (s.inputCtxs n) (fun s e => s.wr (pg .ctx e) Reg.CTX_IC_STAT_PENDING v)

/-- CAP_STAT.STATE of context `c` changes, and with it what holds back a tier-1 run of its input. -/
def State.setCapState (s : State) (c v : Nat) : State := (s.wr (pg .ctx c) Reg.CTX_CAP_STAT_STATE v).pendSync c

/-- The bit of context `c` set in a context map of ACQ (R321). -/
def State.setMap (s : State) (f : Nat → Fld) (c : Nat) : State :=
  s.wr (pg .acq 0) (f (c / 64)) (setBit (s.rd (pg .acq 0) (f (c / 64))) (c % 64))

/-- The context's bindings to the recorder and to a stream slot (R334). -/
def State.recBound (s : State) (c : Nat) : Bool := s.on (pg .ctx c) Reg.CTX_REC_BIND_EN
def State.strBound (s : State) (c : Nat) : Bool := s.on (pg .ctx c) Reg.CTX_STR_BIND_EN

/-- A binding of context `c` carries raw (0) or spectral (1) content. -/
def State.bindsContent (s : State) (c kind : Nat) (str : Bool) : Bool :=
  let p := pg .ctx c
  if str then s.strBound c && bit (s.rd p Reg.CTX_STR_BIND_CONTENT) kind == 1
  else s.recBound c && bit (s.rd p Reg.CTX_REC_BIND_CONTENT) kind == 1

/-- The drains that run and carry this content. -/
def State.drainsOf (s : State) (c kind : Nat) : List DrainPos :=
  let a := s.actx c
  (if s.bindsContent c kind false && a.recDrain.running then [a.recDrain] else []) ++
    (if s.bindsContent c kind true && a.strDrain.running then [a.strDrain] else [])

/-- A bound drain has not yet read the whole previous capture of a STREAM region (R304). -/
def State.drainBusy (s : State) (c : Nat) : Bool :=
  let a := s.actx c
  a.desc.policy == 1 && ((s.drainsOf c 0).any (fun d => d.raw < a.capEndRaw || !d.rest.isEmpty) ||
    (s.drainsOf c 1).any (fun d => d.spec < a.capEndSpec || !d.rest.isEmpty))

/-- A tier-1 run of the context's input is pending or in progress (R189). -/
def State.tier1Busy (s : State) (c : Nat) : Bool := [2, 3, 4].contains (s.rd (pg .ctx c) Reg.CTX_IC_STAT_STATE)

/-- A failed arming (R303). -/
def State.armFail (s : State) (c err : Nat) : State :=
  ((s.wr (pg .ctx c) Reg.CTX_CAP_STAT_ARM_ERR err).setMap Reg.ACQ_ARM_MAP_CTX c).event .acq 0 1

/-- An arming accepted (R300): EVE_FILL, or HELD while a tier-1 run is pending or a drain reads the previous capture. -/
def State.startArm (s : State) (c : Nat) : State :=
  if s.tier1Busy c || s.drainBusy c then s.setCapState c 4
  else
    let a := s.actx c
    (s.setActx c { a with
      desc := s.capDesc c, trail := [], recs := [], specLeaps := [], trigger := none, capFrom := 0, postGot := 0, eveShort := false
      ending := none, specWait := false, violated := false }).setCapState c 1

/-- Arming requested for context `c` (R300, R303; the order of the errors is notes/assumptions/15). In states 1 to 4 it
has no effect. -/
def State.arm (s : State) (c : Nat) : State :=
  let d := s.capDesc c
  let st := s.capState c
  if !(s.actx c).running then s.armFail c 0x04
  else if d.mode ≠ 1 then s.armFail c 0x03
  else if 1 ≤ st ∧ st ≤ 4 then s
  else if st = 5 then s.armFail c 0x02
  else if d.policy = 0 ∧ d.cap < d.eve + d.post then s.armFail c 0x01
  else s.startArm c

/-- View samples elapsed since arming (R300). -/
def AcqCtx.elapsed (a : AcqCtx) : Nat := (a.trail.map CapSeg.n).sum

/-- A leap still open in context `c`, as far as it lies before stamp `T`. -/
def AcqCtx.openBefore (a : AcqCtx) (per : Nat) (T : SubTick) : List CapSeg := match a.openRaw with
  | some l => if l.start < T && per != 0 then [⟨l.start, ((T - l.start) * 2 ^ 32 + 8 * per) / (16 * per), true, 0⟩] else []
  | none => []

/-- The eve window (R299, R301): of the pieces `l` before the trigger sample, newest first, the last `want` elapsed samples, among them at
most `room` delivered ones that are not overwritten: how many there are, and the stamp of the first. -/
def eveWalk (per : Nat) : List CapSeg → Nat → Nat → Nat × Option SubTick
  | [], _, _ => (0, none)
  | g :: l, want, room =>
    if want = 0 || (!g.leap && room = 0) then (0, none)
    else
      let k := min g.n want
      let r := eveWalk per l (want - k) (if g.leap then room else room - 1)
      (k + r.1, r.2.orElse (fun _ => some (g.start + spanOver per (g.n - k))))

/-- The stamp of the elapsed sample that `drop` others of `l`, newest first, follow. -/
def lastStamp (per : Nat) : List CapSeg → Nat → SubTick
  | [], _ => 0
  | g :: l, drop => if drop < g.n then g.start + spanOver per (g.n - 1 - drop) else lastStamp per l (drop - g.n)

/-- The stamp of the last sample of the capture in POST of context `c`, as far as it has come (R299). -/
def AcqCtx.capLast (a : AcqCtx) (per : Nat) : SubTick := lastStamp per a.trail (a.postGot - a.desc.post)

/-- What the capture counts as a trigger fixes where it begins (R316, R317): its samples delivered and leapt so far, raw and spectral. -/
def AcqCtx.counted (a : AcqCtx) (per : Nat) : AcqCtx :=
  let stop := a.capLast per
  let mine := a.trail.filter (fun g => !g.leap && a.capFrom ≤ g.start && g.start ≤ stop)
  let leaps := (a.trail.filter CapSeg.leap).map (fun g => g.since per a.capFrom - g.since per (stop + 1))
  let recs := a.recs.filter (fun r => a.capFrom ≤ r.2.1 && r.2.1 ≤ stop)
  let sl := a.specLeaps.filter (fun l => a.capFrom ≤ l.1 && l.1 ≤ stop)
  { a with deliv := a.deliv + mine.length, leap := a.leap + leaps.sum, sdeliv := a.sdeliv + (recs.map (fun r => r.2.2)).sum
           sleap := a.sleap + (sl.map Prod.snd).sum, acct := max a.acct stop }

/-- The trigger point at stamp `T` reaches the capture of context `c` (R299, R301): the eve window is fixed, short where its samples are not
all held, and what has elapsed at or after `T` belongs to the post window. The capture's records are those that begin inside it. -/
def State.takeTrigger (s : State) (c : Nat) (T : SubTick) : State :=
  let a := s.actx c
  let per := s.viewPeriod c
  let post := (a.trail.map (fun g => g.since per T)).sum
  let room := a.desc.cap - (a.trail.filter (fun g => !g.leap && T ≤ g.start)).length
  let before := a.openBefore per T ++
    (a.trail.map (fun g => { g with n := g.n - g.since per T })).filter (fun g => g.n != 0)
  let eve := eveWalk per before a.desc.eve room
  let start := eve.2.getD T
  let w := s.rd (pg .ctx c) Reg.CTX_RAW_WCNT_CNT
  let v := s.rd (pg .ctx c) Reg.CTX_SPEC_WCNT_CNT
  let first := (a.trail.filter (fun g => !g.leap && start ≤ g.start)).getLast?
  let rec1 := (a.recs.filter (fun r => start ≤ r.2.1)).getLast?
  let s := s.setActx c (AcqCtx.counted { a with
    trigger := some T, capFrom := start, postGot := post, eveShort := eve.1 < a.desc.eve, specWait := rec1.isNone } per)
  (s.wrs (pg .ctx c) [(Reg.CTX_CAP_START_RAW_W, (first.map CapSeg.w).getD w),
    (Reg.CTX_SPEC_START_SPEC_W, (rec1.map Prod.fst).getD v)]).setCapState c 3

/-- The eve window of context `c` is full (R300). -/
def State.eveFull (s : State) (c : Nat) : Bool :=
  s.capState c == 2 || (s.capState c == 1 && decide ((s.actx c).desc.eve ≤ (s.actx c).elapsed))

/-- A trigger point that reaches context `c` in trigger mode `mode` is accepted (R282, R301): ARMED always, EVE_FILL in
single and mask-test-stop modes. -/
def State.accepts (s : State) (c mode : Nat) : Bool := s.eveFull c || (s.capState c == 1 && (mode == 1 || mode == 3))

/-- The spectral records that begin at or before stamp `last` have all been stored, or covered by leaps (R299, R302). -/
def State.recordsDone (s : State) (c : Nat) (last : SubTick) : Bool :=
  let x := s.xfc c
  let grid (o : Option XfGrid) : Bool := o.all (fun g => !g.more || decide (last < g.stamp (g.next * g.hop)))
  !(s.actx c).desc.specEn || (x.frames.all (fun f => decide (last < f.start)) && grid x.prev && grid x.cur &&
    x.avg.all (fun y => y.2.frames == 0 || decide (last < y.2.start) || !(s.storedTraces c).contains y.1) &&
    (s.actx c).openSpec.all (fun l => decide (last < l.start)))

/-- A capture of context `c` ends with REASON `reason` (R300, R302): its record, its map bit, its event, and the next
state under the trigger mode (R282, R283). -/
def State.endCapture (s : State) (c reason : Nat) : State :=
  let a := s.actx c
  let d := a.desc
  let T := a.trigger.getD a.last
  let last := a.capLast (s.viewPeriod c)
  let postShort := d.mode == 1 && a.postGot < d.post
  let s := s.record c 0x08 false false (b2n a.eveShort * 8 + b2n postShort * 4) (d.eve * 2 ^ 6 + reason * 2 ^ 2)
    (T / 16) (d.post * 2 ^ 24 + T % 16) (match a.trigger with
      | some _ => (a.trail.filter (fun g => !g.leap && a.capFrom ≤ g.start && g.start ≤ last)).length
      | none => 0)
  let mode := s.rd (pg .ctx c) Reg.CTX_TRG_CFG_MODE
  let s := s.setActx c { s.actx c with
    capEndRaw := s.rd (pg .ctx c) Reg.CTX_RAW_WCNT_CNT, capEndSpec := s.rd (pg .ctx c) Reg.CTX_SPEC_WCNT_CNT
    trigger := none, ending := none, freeAfter := last + 16 * s.rd (pg .ctx c) Reg.CTX_TRG_HOLD_HOLD }
  let s := (s.bump (pg .ctx c) Reg.CTX_CAP_STAT_CAP_SEQ 1).setMap Reg.ACQ_CEND_MAP_CTX c
  let s := s.event .acq 0 0
  if reason = 4 ∨ (mode = 3 ∧ reason < 2) then s.setCapState c 5
  else
    let s := s.setCapState c 0
    if reason < 2 ∧ (mode = 0 ∨ mode = 2) then s.arm c else s

/-- The capture of context `c` in POST takes no more samples: it ends with REASON `reason`, once its last records are stored (R302). -/
def State.closeCapture (s : State) (c reason : Nat) : State :=
  let a := s.actx c
  if s.recordsDone c (a.capLast (s.viewPeriod c)) then s.endCapture c reason else s.setActx c { a with ending := some reason }

/-- The capture of context `c` stops at an equinox (R302, R305): a capture in EVE_FILL, ARMED or POST ends with REASON 2; where `wait` holds,
one in POST once its last records are stored. -/
def State.stopCapture (s : State) (c : Nat) (wait : Bool) : State :=
  if wait && s.capState c = 3 then s.closeCapture c 2
  else if [1, 2, 3].contains (s.capState c) then s.endCapture c 2 else s.setCapState c 0

/-! Writing. -/

/-- Die 1 buffers the writes of context `c` (R308; notes/assumptions/16). -/
def State.onDie1 (s : State) (c : Nat) : Bool := 128 ≤ s.srcSlot c

/-- Occupancy of the write buffer that context `c` uses. -/
def State.bufOf (s : State) (c : Nat) : Nat := if s.onDie1 c then s.acq.buf1 else s.acq.buf0

/-- BUF_STAT from the occupancies, in 1/1,024 of 16 MiB (R321). -/
def State.bufStat (s : State) : State :=
  let now := max s.acq.buf0 s.acq.buf1 * 1024 / 2 ^ 24
  (s.wr (pg .acq 0) Reg.ACQ_BUF_STAT_NOW now).peak (pg .acq 0) Reg.ACQ_BUF_STAT_PEAK now

/-- `n` bytes of context `c` enter its write buffer. -/
def State.bufAdd (s : State) (c n : Nat) : State :=
  (if s.onDie1 c then { s with acq := { s.acq with buf1 := s.acq.buf1 + n } }
    else { s with acq := { s.acq with buf0 := s.acq.buf0 + n } }).bufStat

/-- The write buffers drain into capture memory by these bytes. -/
def State.bufDrain (s : State) (n0 n1 : Nat) : State :=
  ({ s with acq := { s.acq with buf0 := s.acq.buf0 - n0, buf1 := s.acq.buf1 - n1 } }).bufStat

/-- A reason to discard the data of a context holds (R304, R308, R315). -/
def AcqCtx.stopped (a : AcqCtx) : Bool := a.streamStop || a.bufStop || a.recStop

/-- The view samples of a stride of context `c`, the hop or the block of its records, and 1 where no transform runs (R204, R297); and whether
the sample that its grid has just taken begins one. -/
def State.strideLen (s : State) (c : Nat) : Nat := match (s.xfc c).cur with
  | some g => max 1 (g.hop * 2 ^ s.blockLog2 c)
  | none => 1
def State.atStride (s : State) (c : Nat) : Bool := match (s.xfc c).cur with
  | some g => (g.got - 1) % s.strideLen c == 0
  | none => true

/-- The stored records still to come of the strides of context `c` that began before the next sample (R218, R227): the blocks of the frames in
flight, and of those that wait for samples. -/
def State.recordsDue (s : State) (c : Nat) : Nat := match (s.xfc c).cur with
  | none => 0
  | some g =>
    let b := 2 ^ s.blockLog2 c
    let now := (g.got - 1) / g.hop
    (((s.xfc c).frames.map XfFrame.grid ++ (List.range (now - g.next)).map (fun k => g.next + k)).map (fun k => k / b)
      |>.filter (fun k => decide (k < now / b))).dedup.length

/-- Free view samples in a STREAM region in POST (R304): in each area, from the oldest byte of the capture that a drain bound to it has not
read; the records of the strides already taken are still to come. -/
def State.streamFree (s : State) (c : Nat) : Nat :=
  let p := pg .ctx c
  let d := (s.actx c).desc
  let free (kind first written cap : Nat) (pos : DrainPos → Nat) : Nat :=
    let oldest := (s.drainsOf c kind).foldl (fun m x => min m (max (pos x) first)) written
    cap - (written - oldest)
  let raw := free 0 (s.rd p Reg.CTX_CAP_START_RAW_W) (s.rd p Reg.CTX_RAW_WCNT_CNT) d.rawCap DrainPos.raw
  let spec := free 1 (s.rd p Reg.CTX_SPEC_START_SPEC_W) (s.rd p Reg.CTX_SPEC_WCNT_CNT) d.specCap DrainPos.spec
  min (if d.rawEn then raw else d.cap) (if d.specEn then (spec - s.recordsDue c) * d.stride else d.cap)

/-- At a stride boundary, from the sample stamped `stamp` on, the controller starts or stops discarding the data of context `c`
(R304, R308, R315): the record queue first, then the write buffer, then the STREAM policy. -/
def State.checkStop (s : State) (c : Nat) (stamp : SubTick) : State :=
  let a := s.actx c
  if !s.atStride c || (a.discarding && a.stopped) then s
  else
    let s := if a.discarding then
        let spans := match a.stopSpans with
          | (b, _) :: l => (b, stamp) :: l
          | [] => []
        (s.setActx c { a with discarding := false, stopSpans := spans }).regain c stamp
      else s
    let a := s.actx c
    let stop (f : AcqCtx → AcqCtx) (cause : Nat) : State :=
      (s.setActx c { f a with discarding := true, stopSpans := (stamp, 0) :: a.stopSpans }).lose c cause stamp false
    if 4 ≤ a.reserved then stop (fun a => { a with recStop := true }) 0x04
    else if 2 ^ 24 ≤ s.bufOf c then (stop (fun a => { a with bufStop := true }) 0x04).event .acq 0 6
    else if a.desc.policy = 1 && a.desc.mode = 1 && s.capState c = 3 && s.streamFree c < s.strideLen c then
      (stop (fun a => { a with streamStop := true }) 0x05).event .acq 0 5
    else s

/-- Bytes `off` to `off + n` of an area of `size` bytes at `base` touch an unavailable granule; offsets wrap at `size` (R411). -/
def State.areaLost (s : State) (laid : List Nat) (base size off n : Nat) : Bool :=
  size != 0 && anyGranule (off % size) n (fun o => s.unavailable (s.areaAddr laid base (o % size)))

/-- The raw or spectral bytes of the stride that begins with the next sample of context `c` touch an unavailable granule of its
region (R411). -/
def State.strideLost (s : State) (c : Nat) : Bool :=
  let d := (s.actx c).desc
  let w := s.rd (pg .ctx c) Reg.CTX_RAW_WCNT_CNT
  let v := s.rd (pg .ctx c) Reg.CTX_SPEC_WCNT_CNT + s.recordsDue c
  let spec := d.specEn && d.recBytes != 0 && d.recBytes ≤ d.specBytes
  let stride := if d.specEn then s.strideLen c else 1
  s.anyHole &&
    ((d.rawEn && s.areaLost d.laid d.rawBase d.rawBytes (w * d.sampleBytes) (stride * d.sampleBytes)) ||
    (spec && s.areaLost d.laid d.specBase (d.specCap * d.recBytes) (v * d.recBytes) d.recBytes))

/-- At a stride boundary, the stride that begins with the sample stamped `stamp` is discarded where its bytes lie in an
unavailable granule; consecutive ones form one HBM_RETRAIN leap (R411). -/
def State.checkHbm (s : State) (c : Nat) (stamp : SubTick) : State :=
  let a := s.actx c
  if !(if a.desc.specEn then s.atStride c else true) then s
  else
    let lost := s.strideLost c
    if lost && !a.hbmStop then
      (s.setActx c { a with hbmStop := true, hbmSpans := (stamp, 0) :: a.hbmSpans }).lose c 0x08 stamp false
    else if !lost && a.hbmStop then
      let spans := match a.hbmSpans with
        | (b, _) :: l => (b, stamp) :: l
        | [] => []
      let s := s.setActx c { a with hbmStop := false, hbmSpans := spans }
      if a.discarding then s else s.regain c stamp
    else s

/-- A sample in an unavailable granule: its place in the area is passed (R411; notes/assumptions/20). -/
def State.skipRaw (s : State) (c : Nat) : State :=
  if (s.actx c).desc.rawEn then s.bump (pg .ctx c) Reg.CTX_RAW_WCNT_CNT 1 else s

/-- The capture region of context `c` is what its drains read (R18, R334): a continuous ring, or a STREAM region. -/
def State.drainsRegion (s : State) (c : Nat) : Bool :=
  let m := s.rd (pg .ctx c) Reg.CTX_CAP_CFG_MODE
  m == 2 || (m == 1 && (s.actx c).desc.mode == 1 && (s.actx c).desc.policy == 1)

/-- The drains of context `c` that run and carry this content note item `idx` of their source (R345): its stamp, and whether it is
overranged. -/
def State.drainNote (s : State) (c kind idx : Nat) (stamp : SubTick) (ovr : Bool) : State :=
  let put (d : DrainPos) (on : Bool) : DrainPos :=
    if !on || !d.running then d
    else if kind = 0 then { d with rawAt := d.rawAt.filter (fun y => y.1 < idx) ++ [(idx, stamp, ovr)] }
    else { d with specAt := d.specAt.filter (fun y => y.1 < idx) ++ [(idx, stamp, ovr)] }
  let a := s.actx c
  s.setActx c { a with recDrain := put a.recDrain (s.bindsContent c kind false), strDrain := put a.strDrain (s.bindsContent c kind true) }

/-- The bindings of context `c` read this content from a drain ring of their own (R18, R334). -/
def State.ownRing (s : State) (c kind : Nat) : Bool :=
  (s.bindsContent c kind false || s.bindsContent c kind true) && !s.drainsRegion c

/-- One view sample, stamped `stamp`, delivered at place `w` of the raw area, in the counts of a capture path in state `st` (R316, R317). -/
def AcqCtx.takeOne (a : AcqCtx) (st : Nat) (stamp : SubTick) (w : Nat) : AcqCtx :=
  let b := { a with trail := ⟨stamp, 1, false, w⟩ :: a.trail }
  let count (b : AcqCtx) : AcqCtx := { b with deliv := b.deliv + 1, acct := max b.acct stamp }
  if st = 6 then count (if a.trail.isEmpty then { b with capFrom := stamp } else b)
  else if st = 3 then count { b with postGot := b.postGot + 1 }
  else b

/-- One view sample written to the raw area (R298). -/
def State.storeRaw (s : State) (c : Nat) (stamp : SubTick) (bytes : List Byte) (ovr : Bool) : State :=
  let a := s.actx c
  let d := a.desc
  let w := s.rd (pg .ctx c) Reg.CTX_RAW_WCNT_CNT
  let s := s.setActx c (a.takeOne (s.capState c) stamp w)
  if d.rawEn && d.rawBytes != 0 then
    let s := if s.drainsRegion c then s.drainNote c 0 w stamp ovr else s
    ((s.writeBytes (s.areaAddr d.laid d.rawBase (w * d.sampleBytes % d.rawBytes)) bytes).bump (pg .ctx c)
      Reg.CTX_RAW_WCNT_CNT 1).bufAdd c bytes.length
  else s

/-- A LOCAL leap of `cause` in both bindings' almanac copies of context `c` (R309, R310, R314, R336): unflagged, and also of
spectral scope where the binding carries spectral content; `recOnly`, `strOnly` choose the bindings. -/
def State.localLeap (s : State) (c cause : Nat) (start len : SubTick) (samples : Nat) (toRec toStr : Bool) : State :=
  let p := pg .ctx c
  let line (spec : Bool) : List Nat := [recHead 0x02 spec false false true 0 c cause, start / 16 % 2 ^ 64,
    (len / 16 * 2 ^ 8 + len % 16 * 2 ^ 4 + start % 16) % 2 ^ 64, samples]
  let put (d : DrainPos) (content : Nat) : DrainPos :=
    { d with copy := d.copy ++ (if bit content 1 = 1 then [line false, line true] else [line false]) }
  let a := s.actx c
  if len = 0 then s
  else s.setActx c { a with
    recDrain := if toRec then put a.recDrain (s.rd p Reg.CTX_REC_BIND_CONTENT) else a.recDrain
    strDrain := if toStr then put a.strDrain (s.rd p Reg.CTX_STR_BIND_CONTENT) else a.strDrain }

/-- The bytes of the raw area of context `c`'s drain ring, and of its spectral area. -/
def State.ringRaw (s : State) (c : Nat) : Nat :=
  let p := pg .ctx c
  s.areaBytes (s.actx c).laid (s.rd p Reg.CTX_DRN_RAW_BASE_ADDR) (s.rd p Reg.CTX_DRN_RAW_SIZE_GRAN * 4096)
def State.ringSpec (s : State) (c : Nat) : Nat :=
  let p := pg .ctx c
  s.areaBytes (s.actx c).laid (s.rd p Reg.CTX_DRN_SPEC_BASE_ADDR) (s.rd p Reg.CTX_DRN_SPEC_SIZE_GRAN * 4096)

/-- The raw or spectral bytes of the stride that begins with the next sample of context `c` touch an unavailable granule of its drain
ring (R411). -/
def State.ringStrideLost (s : State) (c : Nat) : Bool :=
  let p := pg .ctx c
  let a := s.actx c
  let rb := s.specRecBytes c
  let stride := if s.ownRing c 1 then s.strideLen c else 1
  s.anyHole &&
    ((s.ownRing c 0 && s.areaLost a.laid (s.rd p Reg.CTX_DRN_RAW_BASE_ADDR) (s.ringRaw c) (a.drnRaw * s.viewBytes c)
      (stride * s.viewBytes c)) ||
    (s.ownRing c 1 && rb != 0 && s.areaLost a.laid (s.rd p Reg.CTX_DRN_SPEC_BASE_ADDR) (s.ringSpec c / rb * rb)
      ((a.drnSpec + s.recordsDue c) * rb) rb))

/-- The drain ring of context `c` loses no more data from stamp `stamp` on: the HBM_RETRAIN leap of its bindings' paths ends (R411). -/
def State.ringKept (s : State) (c : Nat) (stamp : SubTick) : State :=
  let a := s.actx c
  match a.drnLost with
  | none => s
  | some b =>
    (s.setActx c { a with drnLost := none, drnSpans := (b, stamp) :: a.drnSpans.drop 1 }).localLeap c 0x08 b (stamp - b)
      (s.samplesIn c (stamp - b)) (s.recBound c && a.recDrain.running) (s.strBound c && a.strDrain.running)

/-- At a stride boundary, the stride that begins with the sample stamped `stamp` is discarded from both areas of the drain ring where its
bytes lie in an unavailable granule; consecutive ones form one HBM_RETRAIN leap on the bindings' paths (R411). -/
def State.checkRing (s : State) (c : Nat) (stamp : SubTick) : State :=
  let a := s.actx c
  if !(s.ownRing c 0 || s.ownRing c 1) || (s.ownRing c 1 && !s.atStride c) then s
  else
    if !s.ringStrideLost c then s.ringKept c stamp
    else if a.drnLost.isNone then s.setActx c { a with drnLost := some stamp, drnSpans := (stamp, 0) :: a.drnSpans }
    else s

/-- The drain ring of context `c` takes its view sample stamped `stamp` (R18, R308, R334); the place of one that is discarded is passed
(R411; notes/assumptions/20). -/
def State.drainRaw (s : State) (c : Nat) (stamp : SubTick) (bytes : List Byte) (ovr : Bool) : State :=
  let size := s.ringRaw c
  if s.ownRing c 0 && size != 0 then
    let a := s.actx c
    let x := s.areaAddr a.laid (s.rd (pg .ctx c) Reg.CTX_DRN_RAW_BASE_ADDR) (a.drnRaw * s.viewBytes c % size)
    if a.drnLost.isSome then s.setActx c { a with drnRaw := a.drnRaw + 1 }
    else
      let s := (s.drainNote c 0 a.drnRaw stamp ovr).writeBytes x bytes
      (s.setActx c { s.actx c with drnRaw := a.drnRaw + 1 }).bufAdd c bytes.length
  else s

/-- A released ring restarts with the sample stamped `stamp` (R307): the MASK_VIOLATION record with RELEASE. -/
def State.ringRestart (s : State) (c : Nat) (stamp : SubTick) : State :=
  let a := s.actx c
  if a.releasing then
    let s := s.setActx c { a with releasing := false, frozenAt := none, trail := [], violated := false }
    s.record c 0x04 false false 8 (s.rd (pg .ctx c) Reg.CTX_TRG_CFG_STOP_MASK * 2 ^ 32) (stamp / 16) (stamp % 16)
      ((a.frozenAt.getD 0) / 16)
  else s

/-- One view sample of context `c`, stamped `stamp`, reaches the acquisition controller (R298 to R308). -/
def State.takeSample (s : State) (c : Nat) (stamp : SubTick) (bytes : List Byte) (ovr : Bool) : State :=
  if !(s.actx c).running then s
  else if s.cutOff .raw c then
    (s.openLeap c false lateFault stamp false).setActx c
      { (s.openLeap c false lateFault stamp false).actx c with begun := true, last := max (s.actx c).last stamp }
  else
    let s := (s.faultEnd c false stamp).ringRestart c stamp
    let writes := [1, 2, 3, 6].contains (s.capState c)
    let s := if writes || s.ownRing c 0 || s.ownRing c 1 || (s.actx c).discarding then s.checkStop c stamp else s
    let s := if writes then s.checkHbm c stamp else s
    let s := if (s.actx c).discarding then s else s.checkRing c stamp
    let a := s.actx c
    let st := s.capState c
    let s := s.setActx c { a with begun := true, last := max a.last stamp }
    if a.discarding then s
    else
      let s := if ovr then s.setActx c { s.actx c with ovrs := a.ovrs + 1 } else s
      let s := s.drainRaw c stamp bytes ovr
      if [1, 2, 6].contains st || (st == 3 && a.postOpen) then (if a.hbmStop then s.skipRaw c else s.storeRaw c stamp bytes ovr)
      else s

/-- A span list holds stamp `q`; its spans are from a stamp to before another, or to no end yet (0). -/
def inSpans (l : List (SubTick × SubTick)) (q : SubTick) : Bool := l.any (fun x => x.1 ≤ q && (x.2 == 0 || q < x.2))

/-- The drain ring of context `c` takes a stored record (R18, R308, R334); the place of one whose stride is discarded is passed (R411). -/
def State.drainSpec (s : State) (c : Nat) (start : SubTick) (bytes : List Byte) (ovr : Bool) : State :=
  let p := pg .ctx c
  let size := s.ringSpec c
  let rb := bytes.length
  if s.ownRing c 1 && rb != 0 && rb ≤ size then
    let a := s.actx c
    if inSpans a.drnSpans start then s.setActx c { a with drnSpec := a.drnSpec + 1 }
    else
    let s := (s.drainNote c 1 a.drnSpec start ovr).writeBytes
      (s.areaAddr a.laid (s.rd p Reg.CTX_DRN_SPEC_BASE_ADDR) (a.drnSpec * rb % (size / rb * rb))) bytes
    (s.setActx c { s.actx c with drnSpec := a.drnSpec + 1 }).bufAdd c rb
  else s

/-- A record that begins at stamp `start` belongs to what context `c` writes now (R299, R302, R307): to the interval of a ring, or to the areas of
a capture up to its last sample. -/
def State.takesRecord (s : State) (c : Nat) (start : SubTick) : Bool :=
  let a := s.actx c
  match s.capState c with
  | 1 | 2 => true
  | 3 => a.postOpen || decide (start ≤ a.capLast (s.viewPeriod c))
  | 6 => !a.trail.isEmpty && decide (a.capFrom ≤ start)
  | _ => false

/-- Record number `w` of context `c`, from stamp `start` on, which covers `samples` view samples, in the counts of its capture path (R229, R316,
R317); `lost` says that its place is unavailable (R411). -/
def State.countRecord (s : State) (c w : Nat) (start : SubTick) (samples : Nat) (lost : Bool) : State :=
  let a := s.actx c
  let st := s.capState c
  let inside := st == 6 || (st == 3 && decide (a.capFrom ≤ start))
  let s := if st = 3 && inside && a.specWait then s.wr (pg .ctx c) Reg.CTX_SPEC_START_SPEC_W w else s
  s.setActx c { a with
    recs := if lost then a.recs else (w, start, samples) :: a.recs
    sdeliv := a.sdeliv + (if lost || !inside then 0 else samples), specWait := a.specWait && !(st = 3 && inside) }

/-- One stored record of context `c`, from stamp `start` on, that covers `samples` view samples, reaches the acquisition controller (R218, R229,
R298): one whose stride is discarded goes nowhere (R304, R308). -/
def State.takeRecord (s : State) (c : Nat) (start : SubTick) (samples : Nat) (bytes : List Byte) (ovr : Bool) : State :=
  if !(s.actx c).running || bytes.isEmpty then s
  else if s.cutOff .frames c then s.openLeap c true lateFault start false
  else if inSpans (s.actx c).stopSpans start then s.faultEnd c true start
  else
    let s := s.faultEnd c true start
    let old (x : SubTick × SubTick) : Bool := x.2 == 0 || start < x.2
    let s := s.drainSpec c start bytes ovr
    let a := s.actx c
    let s := s.setActx c { a with
      stopSpans := a.stopSpans.filter old
      hbmSpans := a.hbmSpans.filter old
      drnSpans := a.drnSpans.filter old }
    let d := a.desc
    if !s.takesRecord c start then s
    else
      let w := s.rd (pg .ctx c) Reg.CTX_SPEC_WCNT_CNT
      let lost := inSpans a.hbmSpans start
      let s := s.countRecord c w start samples lost
      if d.specEn && d.recBytes != 0 && d.recBytes ≤ d.specBytes then
        let off := w * d.recBytes % (d.specCap * d.recBytes)
        let s := if s.drainsRegion c && !lost then s.drainNote c 1 w start ovr else s
        let s := s.bump (pg .ctx c) Reg.CTX_SPEC_WCNT_CNT 1
        if lost then s
        else (s.each bytes.zipIdx (fun s x => s.setByte (s.areaAddr d.laid d.specBase (off + x.2)) x.1)).bufAdd c bytes.length
      else s

/-! The commands. -/

/-- A write of CAP_CTL of context `c` (R300, R302, R307). -/
def State.capCtl (s : State) (c w : Nat) : State :=
  let s := if w.testBit 0 then s.arm c else s
  let s := if w.testBit 1 then
      (match s.capState c with
      | 3 => s.closeCapture c 3
      | 1 | 2 | 4 => s.setCapState c 0
      | _ => s)
    else s
  if w.testBit 2 && s.capState c = 5 then
    let a := s.actx c
    if a.desc.mode = 2 then (s.setActx c { a with releasing := true }).setCapState c 6 else s.setCapState c 0
  else s

/-- CAP_ARM (R300, R303). -/
def execCapArm (t : Nat) (c : Fin 1024) (s : State) : Host.Outcome State Fault Refusal :=
  .next ((s.advance t).hosted (pg .ctx c) 0x650 1 (fun s => s.capCtl c 1))

/-- CAP_DISARM (R302). -/
def execCapDisarm (t : Nat) (c : Fin 1024) (s : State) : Host.Outcome State Fault Refusal :=
  .next ((s.advance t).hosted (pg .ctx c) 0x650 2 (fun s => s.capCtl c 2))

/-- CAP_RELEASE (R300, R307). -/
def execCapRelease (t : Nat) (c : Fin 1024) (s : State) : Host.Outcome State Fault Refusal :=
  .next ((s.advance t).hosted (pg .ctx c) 0x650 4 (fun s => s.capCtl c 4))

/-- EVE_FULL (R300): CAP_EVE samples have been written since arming. -/
def execEveFull (t : Nat) (c : Fin 1024) (s : State) : Host.Outcome State Fault Refusal :=
  let s := s.advance t
  .next (if s.capState c = 1 && s.eveFull c then s.setCapState c 2 else s)

/-- The trigger sample of the free-run mode (R282): the first delivered view sample after a full eve window that the hold-off has let pass. The
pieces `l` are newest first, `n` samples have elapsed before their end. -/
def freeSample (eve : Nat) (after : SubTick) : List CapSeg → Nat → Option SubTick
  | [], _ => none
  | g :: l, n =>
    (freeSample eve after l (n - g.n)).orElse (fun _ => if !g.leap && eve + g.n ≤ n && after ≤ g.start then some g.start else none)

/-- FREE_RUN_TRIGGER (R282): the trigger sample has come, once the eve window is full and the hold-off has passed. -/
def execFreeRunTrigger (t : Nat) (c : Fin 1024) (s : State) : Host.Outcome State Fault Refusal :=
  let s := s.advance t
  let a := s.actx c
  .next (if s.rd (pg .ctx c) Reg.CTX_TRG_CFG_MODE ≠ 0 || !s.eveFull c then s
    else match freeSample a.desc.eve a.freeAfter a.trail a.elapsed with
      | some T => s.takeTrigger c T
      | none => s)

/-- CAPTURE_END (R302, R303): the post window is complete, TRUNCATE has reached the region's end, or the capture has been ended before; its last
record is stored. -/
def execCaptureEnd (t : Nat) (c : Fin 1024) (s : State) : Host.Outcome State Fault Refusal :=
  let s := s.advance t
  let a := s.actx c
  .next (if s.capState c = 3 && !a.postOpen && s.recordsDone c (a.capLast (s.viewPeriod c)) then
    s.endCapture c (a.ending.getD (if a.desc.post ≤ a.postGot then 0 else 1)) else s)

/-- HELD_REARM (R189, R300, R304). -/
def execHeldRearm (t : Nat) (c : Fin 1024) (s : State) : Host.Outcome State Fault Refusal :=
  let s := s.advance t
  .next (if s.capState c = 4 then s.startArm c else s)

/-- STREAM_WRITE_RESUME (R304): free space has reached 1/16 of the area; writing resumes at the next stride boundary. -/
def execStreamWriteResume (t : Nat) (c : Fin 1024) (s : State) : Host.Outcome State Fault Refusal :=
  let s := s.advance t
  .next (if (s.actx c).streamStop && (s.actx c).desc.cap ≤ 16 * s.streamFree c then
    s.setActx c { s.actx c with streamStop := false } else s)

/-- BACKPRESSURE_END (R308): the write buffers have drained by these bytes, and the context's is below 75 %; writing resumes at the next
stride boundary. -/
def execBackpressureEnd (t : Nat) (c : Fin 1024) (drained0 drained1 : Nat) (s : State) : Host.Outcome State Fault Refusal :=
  let s := (s.advance t).bufDrain drained0 drained1
  .next (if (s.actx c).bufStop && s.bufOf c * 4 < 3 * 2 ^ 24 then s.setActx c { s.actx c with bufStop := false } else s)

/-- RECORD_QUEUE_FREE (R315): a queue entry of context `c` is free again, its reserved ones first; where they were all occupied, its data
is taken again from the next stride boundary on. -/
def execRecordQueueFree (t : Nat) (c : Fin 1024) (s : State) : Host.Outcome State Fault Refusal :=
  let s := s.advance t
  let a := s.actx c
  let a := if 0 < a.reserved then { a with reserved := a.reserved - 1 } else { a with queued := a.queued - 1 }
  .next (s.setActx c { a with recStop := a.recStop && decide (4 ≤ a.reserved) })

/-- SNAP_CTL.TAKE for context `c` (R317). -/
def State.acctSnap (s : State) (c : Nat) : State :=
  let a := s.actx c
  let s := s.wrs (pg .ctx c) [(Reg.CTX_ACCT_DELIV_CNT, a.deliv), (Reg.CTX_ACCT_LEAP_CNT, a.leap),
    (Reg.CTX_ACCT_SDELIV_CNT, a.sdeliv), (Reg.CTX_ACCT_SLEAP_CNT, a.sleap), (Reg.CTX_ACCT_TICK_TICK, a.acct / 16)]
  s.wrs (pg .acq 0) [(Reg.ACQ_SNAP_CTL_CTX, c), (Reg.ACQ_SNAP_STAT_DONE, 1),
    (Reg.ACQ_SNAP_STAT_OPEN, b2n (a.openRaw.isSome || a.openSpec.isSome))]

/-- ACCT_SNAPSHOT (R317). -/
def execAcctSnapshot (t : Nat) (c : Fin 1024) (s : State) : Host.Outcome State Fault Refusal :=
  .next ((s.advance t).hosted (pg .acq 0) 0x108 (2 ^ 16 + c) (fun s => s.acctSnap c))

/-- A write of ACQ_CLR (R321). -/
def State.acqClr (s : State) : State :=
  s.wrs (pg .acq 0) [(Reg.ACQ_REC_STAT_PEAK, 0), (Reg.ACQ_REC_STAT_DROPPED, 0), (Reg.ACQ_BUF_STAT_PEAK, 0)]

/-- ACQ_CLR (R321). -/
def execAcqClr (t : Nat) (s : State) : Host.Outcome State Fault Refusal :=
  .next ((s.advance t).hosted (pg .acq 0) 0x120 1 State.acqClr)

end Sys2Proof.Machine
end

