-- ==== Sys2Proof/Machine/Image.lean ====
section
/-!
DEFINITION. Epoch images as data: the fields and the store words that an image configures, and whether two images
differ in a page or a store (R480 to R483).
-/
namespace Sys2Proof.Machine

/-- The page of the tone mapper. -/
abbrev tmpPage : Nat := 0x650

/-- The blocks whose pages a REGS section may name (R482). -/
def imgBlk : Blk → Bool
  | .lnk | .lqd | .slt | .ctx | .xfp | .den | .tmp | .tru | .trn | .acq | .scr | .bnk | .dma | .dsp | .mst | .dlb | .tio
  | .eva | .vgl | .cmp => true
  | _ => false

/-- The fields of page `p` that an image sets: every field that software may write, and in an MST page the CLASS registers
only, where class 43's MIN_SHARE is fixed (R398, R482). -/
def imgFields (p : Nat) : List Fld := match pageRow p with
  | some r =>
    if imgBlk r.blk then
      (blkFields r.blk (p - r.first)).filter (fun f => (f.acc == .rw || f.acc == .rws) && 0x100 ≤ f.off &&
        (r.blk != .mst || 0x200 ≤ f.off) && !(p == pg .mst 2 && f == Reg.MST_CLASS_MIN_SHARE 2 11))
    else []
  | none => []

/-- The REGS section of an image that names page `p` (R482). -/
def imgRegs (img : Option EpochImage) (p : Nat) : Option ImgSection := img.bind (fun i =>
  i.secs.find? (fun x => x.kind == 1 && x.first.toNat ≤ p && p < x.first.toNat + x.count.toNat))

/-- The value that an image gives field `f` of page `p`; the reset value where no section names the page (R482, R483). -/
def imgField (img : Option EpochImage) (p : Nat) (f : Fld) : Nat := match imgRegs img p with
  | some x => part (smGet 0 ((p - x.first.toNat) * 480 + (f.off - 0x100) / 8) x.words) f.lo f.width
  | none => f.rst

/-- An image names the page of context `c`, which is what makes the context run (R20, R481; notes/assumptions/30). -/
def imgRuns (img : Option EpochImage) (c : Nat) : Bool := (imgRegs img (pg .ctx c)).isSome

/-- Bytes of one word of a section. -/
def secWord (kind : Nat) : Nat := if kind = 2 ∨ kind = 4 then 4 else 8

/-- The sections of a kind for one store: a pipeline, a lead pipeline, a palette or a core. -/
def imgSecs (img : Option EpochImage) (kind unit : Nat) : List ImgSection := match img with
  | some i => i.secs.filter (fun x => x.kind.toNat == kind && x.first.toNat == unit)
  | none => []

/-- Where a section's first word stands in its store: COUNT for windows and masks (R482). -/
def secBase (x : ImgSection) : Nat := if x.kind = 2 ∨ x.kind = 3 then x.count.toNat else 0

/-- Words that a section holds. -/
def secLen (x : ImgSection) : Nat := x.length.toNat / secWord x.kind.toNat

/-- Word `a` of a store as an image gives it; 0 where no section gives it (R482, R483). -/
def imgWord (img : Option EpochImage) (kind unit a : Nat) : Nat :=
  match (imgSecs img kind unit).find? (fun x => secBase x ≤ a && a < secBase x + secLen x) with
  | some x => smGet 0 (a - secBase x) x.words % 2 ^ (8 * secWord kind)
  | none => 0

/-- A whole store as an image gives it, by word. -/
def imgStore (img : Option EpochImage) (kind unit : Nat) : SMap Nat :=
  ((imgSecs img kind unit).flatMap (fun x => (x.words.filter (fun w => w.1 < secLen x)).map
    (fun w => (secBase x + w.1, w.2 % 2 ^ (8 * secWord kind))))).foldl (fun m w => smSet 0 w.1 w.2 m) []

/-- The initial values of g registers that an image gives core `n` (R458, R482). -/
def imgGregs (img : Option EpochImage) (n : Nat) : List (Nat × Nat) := (imgSecs img 6 n).flatMap (fun x =>
  (bitsOf 32 x.count.toNat).zipIdx.map (fun y => (y.1, smGet 0 y.2 x.words % 2 ^ 64)))

/-- The part of a table of stores that belongs to one store of `size` words, replaced by `l`. -/
def storeReplace (size unit : Nat) (l m : SMap Nat) : SMap Nat :=
  l.foldl (fun m w => smSet 0 (size * unit + w.1) w.2 m) (m.filter (fun w => w.1 / size != unit))

/-- The configuration of page `p` differs between two images, as loaded (R483). -/
def pageChanged (old new : Option EpochImage) (p : Nat) : Bool :=
  (imgFields p).any (fun f => imgField old p f != imgField new p f)

/-- A store differs between two images. -/
def storeChanged (old new : Option EpochImage) (kind unit : Nat) : Bool := imgStore old kind unit != imgStore new kind unit

/-- The pages that REGS sections of an image name, and those that its store sections reach (R146, R482). -/
def imgPages (img : Option EpochImage) : List Nat := match img with
  | none => []
  | some i => (i.secs.flatMap (fun x => match x.kind.toNat with
      | 1 => (List.range x.count.toNat).map (fun k => x.first.toNat + k)
      | 2 | 3 => [pg .xfp x.first.toNat]
      | 4 => [pg .tmp 0]
      | 5 | 6 => [pg .scr x.first.toNat]
      | _ => [])).eraseDups

/-- Field `f` of page `p` as the LIVE image gives it while the page has not switched, else as its register holds it. -/
def State.liveRd (s : State) (p : Nat) (f : Fld) : Nat := if s.epo.todo.contains p then imgField s.epo.live p f else s.rd p f

/-- Page `p` loaded from an image, field by field (R483). -/
def State.loadPage (s : State) (img : Option EpochImage) (p : Nat) : State :=
  s.each (imgFields p) (fun s f => s.wr p f (imgField img p f))

/-- 20 log10 of a gain of `sum` in units of 2^-31, in 1/256 dB, rounded half up (R208): the largest code n with
10^((2n - 1) / 10240) at most the gain. -/
def gainDb (sum : Nat) : Int :=
  let fits (n : Int) : Bool :=
    if 1 ≤ n then 10 ^ (2 * n - 1).toNat * 2 ^ (31 * 10240) ≤ sum ^ 10240
    else 2 ^ (31 * 10240) ≤ sum ^ 10240 * 10 ^ (1 - 2 * n).toNat
  (List.range 16).foldl (fun n i => if fits (n + 2 ^ (15 - i)) then n + 2 ^ (15 - i) else n) (-32768)

end Sys2Proof.Machine
end

