-- ==== Sys2Proof/Machine/Fixed.lean ====
section
/-!
DEFINITION. Arithmetic with fractions: rounding, saturation, and the functions of real numbers that the data path uses, in fixed point with
many more bits than any result keeps (R175, R187, R193, R206, R222, R223).
-/
namespace Sys2Proof.Machine

/-- `n / d` rounded half up to a whole number. -/
def roundDiv (n : Int) (d : Nat) : Int := (2 * n + d) / (2 * d : Nat)

/-- Saturation to a signed number of 16 bits, and whether it changed the value. -/
def sat16 (v : Int) : BitVec 16 := BitVec.ofInt 16 (clampInt (-32768) 32767 v)
def satHit (v : Int) : Bool := v < -32768 || 32767 < v

/-- One in fixed point: 2^96. -/
def one96 : Int := 2 ^ 96

/-- π in units of 2^-96. -/
def pi96 : Int := 248902613312231085230521944622

/-- The alternating series t − t·x²/((j+1)(j+2)) + …, `n` terms, in units of 2^-96. -/
def series96 (x2 : Int) : Nat → Nat → Int → Int
  | 0, _, _ => 0
  | n + 1, j, t => t - series96 x2 n (j + 2) (t * x2 / one96 / ((j + 1) * (j + 2) : Nat))

/-- The cosine and the sine of `num` / 2^`bits` turns, in units of 2^-96; exact at the quarter turns. -/
def cosSin (num bits : Nat) : Int × Int :=
  let quarter := 2 ^ bits / 4
  let r := num % 2 ^ bits
  let x := pi96 * ((r % quarter : Nat) : Int) / ((2 * quarter : Nat) : Int)
  let c := series96 (x * x / one96) 24 0 one96
  let s := series96 (x * x / one96) 24 1 x
  match r / quarter with
  | 0 => (c, s)
  | 1 => (-s, c)
  | 2 => (-c, -s)
  | _ => (s, -c)

/-- The bits of log2 of `m` (in units of 2^-96, from 1 to below 2) after the point, `n` of them, as one number. -/
def logBits : Nat → Nat → Nat
  | 0, _ => 0
  | n + 1, m =>
    let q := m * m / 2 ^ 96
    if 2 ^ 97 ≤ q then 2 ^ n + logBits n (q / 2) else logBits n q

/-- log2 of `num` / `den`, both above 0, in units of 2^-48, rounded down. -/
def log2Fix (num den : Nat) : Int :=
  let e : Int := (num.log2 : Int) - den.log2
  let m := num * 2 ^ (96 + den.log2) / (den * 2 ^ num.log2)
  if m < 2 ^ 96 then (e - 1) * 2 ^ 48 + logBits 48 (2 * m) else e * 2 ^ 48 + logBits 48 m

/-- 20 · log10 of `num` / `den`, both above 0, in units of 0.001 dB and 2^-48 of it. -/
def milliDb (num den : Nat) : Int := log2Fix num den * 1694648220374559672 / 2 ^ 48

/-- `b`^`e` in units of 2^-128, where `b` is in those units and `e` is below 2^`n`. -/
def powFix (b : Nat) : Nat → Nat → Nat
  | 0, _ => 2 ^ 128
  | n + 1, e =>
    let h := powFix b n (e / 2)
    let q := h * h / 2 ^ 128
    if e % 2 = 1 then q * b / 2 ^ 128 else q

/-- The factor of `e` thousandths of a dB, for `e` below 2^16, in units of 2^-128: 10^(e / 20000). -/
def dbFactor (e : Nat) : Nat := powFix 340321545631477103522720778300543964893 16 e

/-- The factor of `e` times 2^-20 dB, for `e` below 2^29, in units of 2^-128. -/
def dbFine (e : Nat) : Nat := powFix 340282404282519717230021110955306877275 29 e

/-- The whole square root of `n`, rounded down: bit `k - 1` and those below it tried in turn. -/
def isqrt (n : Nat) : Nat → Nat → Nat
  | 0, r => r
  | k + 1, r => if (r + 2 ^ k) * (r + 2 ^ k) ≤ n then isqrt n k (r + 2 ^ k) else isqrt n k r

/-- The square root of `n` rounded half up, for `n` below 2^160. -/
def sqrtRound (n : Nat) : Nat := (isqrt (4 * n) 81 0 + 1) / 2

end Sys2Proof.Machine
end

