-- ==== Sys2Proof/Machine/SvcBase.lean ====
section
/-!
DEFINITION. What every service command shares: fetching, deferring and completing (R326 to R333).
-/
namespace Sys2Proof.Machine

/-- The statuses of R332. -/
inductive SvcStatus
  | success | invalidOpcode | invalidParam | wrongState | busy | aborted | hostDmaError | imageRefused | digestMismatch
  | signatureInvalid | rollback | tickPast | noStaged | calRejected | calAbandoned | storageError | setFull | notFound
  | unsupported | netDown | selftestFail | timeout
  deriving DecidableEq, Repr

/-- The code of a status (R332). -/
def SvcStatus.code : SvcStatus → Nat
  | .success => 0x00 | .invalidOpcode => 0x01 | .invalidParam => 0x02 | .wrongState => 0x03 | .busy => 0x04
  | .aborted => 0x05 | .hostDmaError => 0x06 | .imageRefused => 0x07 | .digestMismatch => 0x08
  | .signatureInvalid => 0x09 | .rollback => 0x0A | .tickPast => 0x0B | .noStaged => 0x0C | .calRejected => 0x0D
  | .calAbandoned => 0x0E | .storageError => 0x0F | .setFull => 0x10 | .notFound => 0x11 | .unsupported => 0x12
  | .netDown => 0x13 | .selftestFail => 0x14 | .timeout => 0x15

/-- Ring `r` beyond its registers. -/
def State.ring (s : State) (r : Nat) : RingSt := smGet {} r s.svc.ring
def State.setRing (s : State) (r : Nat) (x : RingSt) : State :=
  { s with svc := { s.svc with ring := smSet {} r x s.svc.ring } }

/-- The oldest command that ring `r` has fetched, where `p` holds of its opcode, and `s` with it taken up; the firmware
takes none up while it restarts or its clock is gated (R109). -/
def State.svcTakeIf (s : State) (r : Nat) (p : Nat → Bool) : Option (SvcEntry × State) :=
  if s.svc.restarting || s.gated then none
  else match s.svc.fetched.find? (fun e => e.ring == r) with
    | some e => if p e.cmd.opc.toNat then
        some (e, { s with svc := { s.svc with fetched := s.svc.fetched.erase e } }) else none
    | none => none

/-- The oldest command that ring `r` has fetched, where its opcode is `opc`. -/
def State.svcTake (s : State) (r opc : Nat) : Option (SvcEntry × State) := s.svcTakeIf r (fun o => o == opc)

/-- Command `e` completes (R329): its completion waits for a released slot. -/
def State.complete (s : State) (e : SvcEntry) (st : SvcStatus) (res0 res1 : Nat) : State :=
  { s with svc := { s.svc with
    compl := s.svc.compl ++ [⟨e.ring, e.cmd.cid.toNat, e.head, st.code, res0 % 2 ^ 64, res1 % 2 ^ 64⟩]
    deferred := s.svc.deferred.erase e } }

/-- Command `e` is accepted as deferred (R327), or completes with BUSY where its ring already has 16. -/
def State.defer (s : State) (e : SvcEntry) : Bool × State :=
  if (s.svc.deferred.filter (fun x => x.ring == e.ring)).length < 16 then
    (true, { s with svc := { s.svc with deferred := s.svc.deferred ++ [e] } })
  else (false, s.complete e .busy 0 0)

/-- The oldest outstanding deferred command with this opcode. -/
def State.outstanding (s : State) (opc : Nat) : Option SvcEntry :=
  s.svc.deferred.find? (fun e => e.cmd.opc.toNat == opc)

/-- A command at once: `f` gives its status, its results and the state after it. -/
def State.atOnce (s : State) (r opc : Nat) (f : State → SvcEntry → SvcStatus × Nat × Nat × State) : State :=
  match s.svcTake r opc with
  | none => s
  | some (e, s) => let x := f s e; x.2.2.2.complete e x.1 x.2.1 x.2.2.1

end Sys2Proof.Machine
end

