-- ==== Sys2Proof/Machine/Conditioning.lean ====
section
/-!
DEFINITION. The interleave corrector: its estimates, tier 0, tier 1, its triggers, its acceptance test and what ends it (R177 to R191).
-/
namespace Sys2Proof.Machine

/-- The corrected input at base slot `n`, beyond its registers. -/
def State.input (s : State) (n : Nat) : IcSt := smGet {} n s.ic
def State.setInput (s : State) (n : Nat) (x : IcSt) : State := { s with ic := smSet {} n x s.ic }

/-! The samples of a source. -/

/-- A stamp in units of 2^-32 tick, rounded half up to a sub-tick (R156). -/
def fineStamp (x : Nat) : SubTick := (x * 16 + 2 ^ 31) / 2 ^ 32

/-- SMP_PERIOD of slot `n` (R126). -/
def State.slotPer (s : State) (n : Nat) : Nat := s.rd (pg .slt n) Reg.SLT_SMP_PERIOD_PERIOD

/-- The slices of input `n`. -/
def State.slices (s : State) (n : Nat) : Nat := 2 ^ s.rd (pg .slt n) Reg.SLT_SLT_CFG_BOND_LOG2

/-- The first frame of source `n` that follows its last one and is not delivered before tick `t`, as the stamp of its first sample in
units of 2^-32 tick (R156, R567). -/
def State.srcNext (s : State) (n t : Nat) : Option Nat :=
  (smFind n s.ing.srcAt).map (fun x =>
    let y := x + s.slotPer n
    let link := s.rd (pg .slt n) Reg.SLT_SLT_STAT_SRC_LINK
    let due := y + s.rd (pg .lnk link) Reg.LNK_TS_ADJ_ADJ - s.rd (pg .slt n) Reg.SLT_SMP_PHASE_PHASE
    let late := t * 2 ^ 32 - due
    if s.slotPer n = 0 then y else y + (late + s.slotPer n - 1) / s.slotPer n * s.slotPer n)

/-- The stamp of the first source sample that a loss beginning now takes from context `c` (R115, R170). -/
def State.lossStart (s : State) (c : Nat) : SubTick := match s.srcNext (s.srcSlot c) s.tick with
  | some x => max (fineStamp x) (s.view c).cur.from_
  | none => s.nextStamp c

/-! The input's registers. -/

/-- The context whose registers set the corrector of input `n`: the lowest one running with IC_EN (R201: every context
on one input shows the same). -/
def State.icCtx (s : State) (n : Nat) : Option Nat :=
  (s.inputCtxs n).find? (fun c => s.on (pg .ctx c) Reg.CTX_IC_CFG_IC_EN)

/-- A corrector register of input `n`, and a write of it in every context on the input (R201). -/
def State.icRd (s : State) (n : Nat) (f : Fld) : Nat := match s.icCtx n with
  | some c => s.rd (pg .ctx c) f
  | none => 0
def State.icWr (s : State) (n : Nat) (f : Fld) (v : Nat) : State :=
  s.each (s.inputCtxs n) (fun s c => s.wr (pg .ctx c) f v)
def State.icWrs (s : State) (n : Nat) (l : List (Fld × Nat)) : State := s.each l (fun s x => s.icWr n x.1 x.2)

/-- The active coefficients of input `n` (IC_ACT), and their write. -/
def State.icAct (s : State) (n : Nat) : List IcCoef := match s.icCtx n with
  | none => []
  | some c => (List.range (s.slices n)).map (fun i => ⟨s.rdS (pg .ctx c) (Reg.CTX_IC_ACT_GAIN i),
      s.rdS (pg .ctx c) (Reg.CTX_IC_ACT_SKEW i), s.rdS (pg .ctx c) (Reg.CTX_IC_ACT_OFFSET i)⟩)
def State.setIcAct (s : State) (n : Nat) (l : List IcCoef) : State :=
  s.each ((List.range l.length).zip l) (fun s x => s.icWrs n
    [(Reg.CTX_IC_ACT_GAIN x.1, unsigned 24 x.2.gain), (Reg.CTX_IC_ACT_SKEW x.1, unsigned 16 x.2.skew),
     (Reg.CTX_IC_ACT_OFFSET x.1, unsigned 16 x.2.ofs)])

/-- The highest valid temperature among the thermal sensors of the die that holds input `n` (R181, R515), in 0.1 °C. -/
def State.inputTemp (s : State) (n : Nat) : Option Int :=
  ((List.range 4).map (fun i => if n < 128 then i else i + 4)).foldl (fun o i =>
    if !s.on (pg .hka 0) (Reg.HKA_TEMP_VALID i) then o
    else
      let v := s.rdS (pg .hka 0) (Reg.HKA_TEMP_TEMP_C i)
      match o with
      | none => some v
      | some w => some (max v w)) none

/-- The resolution of the converter that feeds input `n`, in bits (R148). -/
def State.inputBits (s : State) (n : Nat) : Nat :=
  s.rd (pg .lnk (s.rd (pg .slt n) Reg.SLT_SLT_STAT_SRC_LINK % 64)) Reg.LNK_LINK_CFG_N_M1 + 1

/-- The output of the input of context `c` is withheld by a tier-1 run (R184, R185). -/
def State.withheld (s : State) (c : Nat) : Bool := [3, 4].contains (s.rd (pg .ctx c) Reg.CTX_IC_STAT_STATE)

/-! Requests. -/

/-- T1_HOLD has not passed since the last run of input `n` (R181). -/
def State.t1Holding (s : State) (n : Nat) : Bool := (s.input n).holdTo.any (fun h => decide (s.tick < h))

/-- A tier-1 request for input `n` (R181, R188, R189): it joins a run that is pending or in progress; an automatic cause
is suppressed while T1_HOLD runs, and discarded during a run. -/
def State.t1Request (s : State) (n cause : Nat) (forced : Bool) : State :=
  let st := s.icRd n Reg.CTX_IC_STAT_STATE
  if (s.icCtx n).isNone then s
  else if st ≥ 2 then
    if st = 2 && forced then s.icWrs n [(Reg.CTX_IC_STAT_FORCED, 1), (Reg.CTX_IC_STAT_PENDING, 0)] else s
  else if (cause = 2 ∨ cause = 3) && s.t1Holding n then s
  else
    let s := s.setInput n { s.input n with cause := cause, reqAt := s.tick }
    s.icWrs n [(Reg.CTX_IC_STAT_STATE, 2), (Reg.CTX_IC_STAT_FORCED, b2n forced),
      (Reg.CTX_IC_STAT_PENDING, b2n (!forced && s.inputArmed n))]

/-- The temperature cause of input `n` evaluated (R181). -/
def State.tempCheck (s : State) (n : Nat) : State :=
  match s.icCtx n, s.inputTemp n with
  | some _, some v =>
    let s := s.icWr n Reg.CTX_IC_TEMP_NOW_TEMP (unsigned 16 v)
    let d := s.icRd n Reg.CTX_IC_CFG_TEMP_DELTA
    let r := signed 16 (s.icRd n Reg.CTX_IC_TEMP_REF_TEMP)
    let hit := d != 0 && ((d : Int) < v - r || (d : Int) < r - v)
    let s := s.setInput n { s.input n with tempCause := hit }
    if hit then s.t1Request n 2 false else s
  | _, _ => s

/-- The age of sensor `k`'s reading exceeds 100 ms (R23, R515, R525). -/
def State.tempStale (s : State) (k : Nat) : Bool :=
  s.on (pg .hka 0) (Reg.HKA_TEMP_VALID k) && smGet 0 k s.hk.readAt + 160000000 < s.tick

/-- A thermal sensor of the die that holds input `n` has no conversion of the last 100 ms (R23, R190). -/
def State.inputStale (s : State) (n : Nat) : Bool :=
  ((List.range 4).map (fun i => if n < 128 then i else i + 4)).any s.tempStale

/-! What the slices show. -/

/-- A slice's statistics with one more sample. -/
def IcAcc.add (a : IcAcc) (x : BitVec 16) : IcAcc :=
  ⟨a.n + 1, a.sum + x.toInt, a.sq + x.toInt.natAbs * x.toInt.natAbs⟩

/-- The slices' statistics with one more sample each. -/
def accFrame (l : List IcAcc) (xs : List (BitVec 16)) : List IcAcc :=
  (List.range xs.length).zip xs |>.map (fun y => (l.getD y.1 {}).add y.2)

/-- The samples of each slice in an estimation span. -/
def accCount (l : List IcAcc) : Nat := (l.headD {}).n

/-- The slice's RMS is below MIN_LEVEL (R177, R179): `ml` dB below an RMS of 2^15 (notes/assumptions/164). Both sides are raised to the
tenth power. -/
def IcAcc.low (a : IcAcc) (ml : Nat) : Bool := a.sq ^ 10 * 10 ^ ml < (a.n * 2 ^ 30) ^ 10

/-- The offset of a slice, the mean of its samples, in 1/16 LSB (R177). -/
def IcAcc.ofs (a : IcAcc) : Int := roundDiv (16 * a.sum) a.n

/-- Estimates relative to their mean over all slices (R177). -/
def centred (l : List Int) : List Int := l.map (fun x => x - roundDiv l.sum l.length)

/-- The estimates of input `n` over a span, slice by slice, with whether the slice was below MIN_LEVEL: gains and skews as the signal
gives them, held at a mean of 0; offsets from the samples (R177, R179). -/
def State.icEstimate (s : State) (n : Nat) (acc : List IcAcc) (est : List IcEst) : List (IcCoef × Bool) :=
  let g := centred (est.map IcEst.gain)
  let k := centred (est.map IcEst.skew)
  let ml := s.icRd n Reg.CTX_IC_CFG_MIN_LEVEL
  (List.range (s.slices n)).map (fun i =>
    let a := acc.getD i {}
    (⟨g.getD i 0, k.getD i 0, a.ofs⟩, a.low ml))

/-! Tier 0. -/

/-- A coefficient moved from `v` toward `e` by at most `slew`. -/
def slewTo (v e : Int) (slew : Nat) : Int := v + clampInt (-(slew : Int)) slew (e - v)

/-- The GAIN coefficients at `mdb` thousandths of a dB below and above the coefficient `g` (R180). -/
def gainBounds (g : Int) (mdb : Nat) : Int × Int :=
  let f := (2 ^ 24 + g).toNat
  let x := dbFactor mdb
  (((f * 2 ^ 128 + x - 1) / x : Nat) - 2 ^ 24, (f * x / 2 ^ 128 : Nat) - 2 ^ 24)

/-- TIER0_UPDATE (R177 to R180): 2^20 samples of every slice have passed; `est` are the estimates of gain and skew. -/
def execTier0Update (t : Nat) (slot : Fin 256) (est : List IcEst) (s : State) : Host.Outcome State Fault Refusal :=
  let s := s.advance t
  let n := slot.val
  let x := s.input n
  .next (if (s.icCtx n).isNone || s.icRd n Reg.CTX_IC_CFG_T0_EN = 0 || s.icRd n Reg.CTX_IC_STAT_STATE ≥ 3 || accCount x.acc < 2 ^ 20 ||
        s.gated then s
    else
      let act := s.icAct n
      let sk : Int := s.icRd n Reg.CTX_IC_BOUND_SKEW_BOUND
      let ob : Int := s.icRd n Reg.CTX_IC_BOUND_OFS_BOUND * 2 ^ (16 - s.inputBits n) * 16
      let all := s.icEstimate n x.acc est
      let new := (act.zip all).zip (List.range act.length) |>.map (fun y =>
        let a := y.1.1; let e := y.1.2.1; let r := x.ref.getD y.2 {}
        let gb := gainBounds r.gain (s.icRd n Reg.CTX_IC_BOUND_GAIN_BOUND)
        let c : IcCoef := ⟨clampInt gb.1 gb.2 e.gain, clampInt (r.skew - sk) (r.skew + sk) e.skew,
          clampInt (r.ofs - ob) (r.ofs + ob) e.ofs⟩
        let hit := c.gain != e.gain || c.skew != e.skew || c.ofs != e.ofs
        if y.1.2.2 then (a, false)
        else ((⟨slewTo a.gain c.gain (s.icRd n Reg.CTX_IC_SLEW_GAIN_SLEW), slewTo a.skew c.skew (s.icRd n Reg.CTX_IC_SLEW_SKEW_SLEW),
          slewTo a.ofs c.ofs (s.icRd n Reg.CTX_IC_SLEW_OFS_SLEW)⟩ : IcCoef), hit))
      let hit := new.any Prod.snd
      let s := s.setIcAct n (new.map Prod.fst)
      let s := s.icWrs n [(Reg.CTX_IC_STAT_T0_FROZEN, b2n (all.any Prod.snd)), (Reg.CTX_IC_STAT_BOUND_HIT, b2n hit)]
      let s := s.setInput n { s.input n with boundsCause := hit, acc := [] }
      if hit && s.icRd n Reg.CTX_IC_CFG_BOUND_AUTO = 1 then s.t1Request n 3 false else s)

/-! The run. -/

/-- The CAL_TIER1 commands that ask for input `n` (R188). -/
def State.calCmds (s : State) (n : Nat) : List SvcEntry :=
  s.svc.deferred.filter (fun e => e.cmd.opc.toNat == 0x28 && e.cmd.p0.toNat % 256 == n)

/-- The run of input `n` ends with LAST_RESULT `result` before the sample stamped `stop` (R182, R185 to R188, R190, R191): leaps, records,
event, commands, the settings that waited for it, and the hold-off. -/
def State.t1End (s : State) (n result : Nat) (worst gd sd od : Nat) (stop : SubTick) : State :=
  let x := s.input n
  let done := result ≤ 4
  let forced := s.icRd n Reg.CTX_IC_STAT_FORCED
  let temp := unsigned 16 ((s.inputTemp n).getD 0)
  let s := s.each (s.inputCtxs n) (fun s c =>
    let s := if x.from_.isSome then (s.regain c (max stop (s.view c).cur.from_)).gapEnd c else s
    let s := s.record c 0x06 false false (forced * 8) (temp * 2 ^ 22 + x.cause * 2 ^ 8 + result * 2 ^ 4 + worst)
      (stop / 16) (gd * 2 ^ 48 + sd * 2 ^ 32 + od * 2 ^ 16 + n * 2 ^ 4) x.start
    let s := if result = 1 then s else s.setMap Reg.ACQ_CAL_MAP_CTX c
    if result = 1 then s
    else if done then s.bumpSat (pg .ctx c) Reg.CTX_IC_STAT_REJECTS 1 else s.bumpSat (pg .ctx c) Reg.CTX_IC_STAT_ABANDONS 1)
  let s := s.eventIf (result != 1) .acq 0 3
  let s := s.icWrs n [(Reg.CTX_IC_STAT_STATE, 1), (Reg.CTX_IC_STAT_LAST_RESULT, result), (Reg.CTX_IC_STAT_FORCED, 0),
    (Reg.CTX_IC_STAT_PENDING, 0)]
  let s := if done then s.icWrs n [(Reg.CTX_IC_TEMP_REF_TEMP, temp), (Reg.CTX_IC_LAST_DIFF_GAIN_DIFF, gd),
    (Reg.CTX_IC_LAST_DIFF_SKEW_DIFF, sd), (Reg.CTX_IC_LAST_DIFF_OFS_DIFF, od), (Reg.CTX_IC_LAST_DIFF_WORST, worst)] else s
  let hold := s.icRd n Reg.CTX_IC_CFG_T1_HOLD
  let s := s.each x.later (fun s y => s.wr y.1 y.2.1 y.2.2)
  let s := s.setInput n { s.input n with
    holdTo := if hold = 0 then none else some (s.tick + hold * 1600000000), from_ := none, est1 := [], acc := [], acc1 := []
    line := [], later := [] }
  let st := if result = 1 then SvcStatus.success else if done then SvcStatus.calRejected else SvcStatus.calAbandoned
  s.each (s.calCmds n) (fun s e => s.complete e st (result + 16 * x.cause) 0)

/-- A run in progress on input `n` is abandoned with LAST_RESULT `result` (R186, R190, R191): the coefficients in force when it
started return; its leaps end before stamp `stop`; its record shows what IC_LAST_DIFF holds. -/
def State.t1Abandon (s : State) (n result : Nat) (stop : SubTick) : State :=
  if [3, 4].contains (s.icRd n Reg.CTX_IC_STAT_STATE) then
    (s.setIcAct n (s.input n).saved).t1End n result (s.icRd n Reg.CTX_IC_LAST_DIFF_WORST) (s.icRd n Reg.CTX_IC_LAST_DIFF_GAIN_DIFF)
      (s.icRd n Reg.CTX_IC_LAST_DIFF_SKEW_DIFF) (s.icRd n Reg.CTX_IC_LAST_DIFF_OFS_DIFF) stop
  else s

/-- A run in progress on input `n` is abandoned as its source is lost now (R116, R190): its leaps end before the first sample lost. -/
def State.t1Lost (s : State) (n result : Nat) : State :=
  s.t1Abandon n result (match s.srcNext n s.tick with
    | some x => fineStamp x
    | none => 16 * s.tick)

/-- CAL_TIER1 (R181, R183, R188): service command 0x28 on ring `r`. -/
def execCalTier1 (t : Nat) (r : Fin 4) (s : State) : Host.Outcome State Fault Refusal :=
  let s := s.advance t
  match s.svcTake r 0x28 with
  | none => .next s
  | some (e, s) =>
    let n := e.cmd.p0.toNat % 256
    .next (if (s.icCtx n).isNone then s.complete e .invalidParam 0 0
      else
        let d := s.defer e
        if d.1 then d.2.t1Request n 1 e.cmd.force else d.2)

/-- T1_RUN_START (R184, R189): the run of the input at `slot` starts with its next slice-0 sample, once no capture holds it back. -/
def execT1RunStart (t : Nat) (slot : Fin 256) (s : State) : Host.Outcome State Fault Refusal :=
  let s := s.advance t
  let n := slot.val
  .next (if s.icRd n Reg.CTX_IC_STAT_STATE ≠ 2 || (s.icRd n Reg.CTX_IC_STAT_FORCED = 0 && s.inputArmed n) || s.gated then s
    else
      let s := s.setInput n { s.input n with start := s.tick, from_ := none, saved := s.icAct n, est1 := [], acc := [], acc1 := [] }
      let s := s.each (s.inputCtxs n) (fun s c => s.bumpSat (pg .ctx c) Reg.CTX_IC_STAT_RUNS 1)
      s.icWrs n [(Reg.CTX_IC_STAT_STATE, 3), (Reg.CTX_IC_STAT_PENDING, 0), (Reg.CTX_IC_STAT_LAST_CAUSE, (s.input n).cause)])

/-- The samples of every slice in one window (R184). -/
def windowLen : Nat := 2 ^ 25

/-- Window 1 of input `n` is over: its statistics stand apart from those of window 2. -/
def State.windowSplit (s : State) (n : Nat) : State :=
  let x := s.input n
  if x.acc1.isEmpty && windowLen ≤ accCount x.acc then s.setInput n { x with acc1 := x.acc, acc := [] } else s

/-- T1_WINDOW1_END (R184): `est` are window 1's estimates of gain and skew. -/
def execT1Window1End (t : Nat) (slot : Fin 256) (est : List IcEst) (s : State) : Host.Outcome State Fault Refusal :=
  let s := (s.advance t).windowSplit slot
  let n := slot.val
  let x := s.input n
  .next (if s.icRd n Reg.CTX_IC_STAT_STATE ≠ 3 || x.acc1.isEmpty || s.gated then s
    else (s.setInput n { x with est1 := s.icEstimate n x.acc1 est }).icWr n Reg.CTX_IC_STAT_STATE 4)

/-- A gain coefficient is within ±1.5 dB (R187): its factor lies between 10^-0.075 and 10^0.075. -/
def gainInRange (g : Int) : Bool :=
  841395141645195091152741893800 * 2 ^ 24 ≤ (2 ^ 24 + g) * 10 ^ 30 &&
    (2 ^ 24 + g) * 10 ^ 30 ≤ 1188502227437018437730122464892 * 2 ^ 24

/-- Two gain coefficients agree within 0.02 dB (R187): the ratio of their factors is at most 10^0.001. -/
def gainAgree (a b : Int) : Bool :=
  (2 ^ 24 + a) * 10 ^ 30 ≤ (2 ^ 24 + b) * 1002305238077899671915404889328 &&
    (2 ^ 24 + b) * 10 ^ 30 ≤ (2 ^ 24 + a) * 1002305238077899671915404889328

/-- Every coefficient of an estimate lies in its range (R187): ±1.5 dB, ±8,000 fs, ±2,047 LSB in units of 1/16 LSB. -/
def icInRange (c : IcCoef) : Bool :=
  gainInRange c.gain && (-8000 ≤ c.skew && c.skew ≤ 8000) && (-32752 ≤ c.ofs && c.ofs ≤ 32752)

/-- The mean of two estimates, rounded half up. -/
def icMean (a b : Int) : Int := (a + b + 1) / 2

/-- The result of the acceptance test of R187 over both windows, slice by slice, for a converter of `bits` bits: 1 accepted, 2
REJECT_DISAGREE, 3 REJECT_RANGE, 4 REJECT_LOW_SIGNAL. -/
def icResult (bits : Nat) (l : List ((IcCoef × Bool) × (IcCoef × Bool))) : Nat :=
  if l.any (fun x => !icInRange x.1.1 || !icInRange x.2.1) then 3
  else if l.any (fun x => x.1.2 || x.2.2) then 4
  else if l.any (fun x => !gainAgree x.1.1.gain x.2.1.gain || 50 < (x.1.1.skew - x.2.1.skew).natAbs ||
      4 * 2 ^ (16 - bits) * 16 < (x.1.1.ofs - x.2.1.ofs).natAbs) then 2
  else 1

/-- The gain disagreement of two estimates, in 0.001 dB and 2^-48 of it (R187). -/
def gainDiff (a b : Int) : Nat := (milliDb (2 ^ 24 + a).toNat (2 ^ 24 + b).toNat).natAbs

/-- How far two estimates of a slice disagree (R187): the largest of its three differences, each over its tolerance, in units of
2^-48. -/
def icMiss (bits : Nat) (a b : IcCoef) : Nat :=
  max (gainDiff a.gain b.gain / 20) (max ((a.skew - b.skew).natAbs * 2 ^ 48 / 50)
    ((a.ofs - b.ofs).natAbs * 2 ^ 48 / (4 * 2 ^ (16 - bits) * 16)))

/-- The worst slice (R187): of those that disagree alike, the lowest (notes/assumptions/165). -/
def icWorst (bits : Nat) (l : List ((IcCoef × Bool) × (IcCoef × Bool))) : Nat :=
  (((List.range l.length).zip l).foldl (fun (w : Nat × Nat) x =>
    let d := icMiss bits x.2.1.1 x.2.2.1
    if w.2 < d then (x.1, d) else w) (0, 0)).1

/-- T1_WAIT_EXPIRY (R189): T1_WAIT seconds have passed since the request of a run that is still held back. -/
def execT1WaitExpiry (t : Nat) (slot : Fin 256) (s : State) : Host.Outcome State Fault Refusal :=
  let s := s.advance t
  let n := slot.val
  let wait := s.icRd n Reg.CTX_IC_CFG_T1_WAIT
  .next (if s.icRd n Reg.CTX_IC_STAT_STATE = 2 && wait ≠ 0 && decide ((s.input n).reqAt + wait * 1600000000 ≤ s.tick) then
    s.icWrs n [(Reg.CTX_IC_STAT_FORCED, 1), (Reg.CTX_IC_STAT_PENDING, 0)] else s)

/-- T1_HOLD_EXPIRY (R181, R182, R190): T1_HOLD seconds have passed since the end of the last run; automatic causes are no longer
suppressed, and one still present raises a request, the temperature cause only from conversions that are not stale. -/
def execT1HoldExpiry (t : Nat) (slot : Fin 256) (s : State) : Host.Outcome State Fault Refusal :=
  let s := s.advance t
  let n := slot.val
  .next (if (s.input n).holdTo.isNone || s.t1Holding n then s
    else
      let s := s.setInput n { s.input n with holdTo := none }
      let s := if s.inputStale n then s else s.tempCheck n
      if (s.input n).boundsCause && s.icRd n Reg.CTX_IC_CFG_BOUND_AUTO = 1 then s.t1Request n 3 false else s)

end Sys2Proof.Machine
end

