-- ==== Sys2Proof/Machine/SwitchPoint.lean ====
section
/-!
DEFINITION. Where a context's switch to a new epoch lies among its view samples (R29, R216, R487, R568).
-/
namespace Sys2Proof.Machine

/-- The image of LIVE, the image that it replaced, and the tick of the equinox in progress. -/
def State.liveImg (s : State) : Option EpochImage := s.epo.live
def State.oldImg (s : State) : Option EpochImage := s.epo.old
def State.eqxTick (s : State) : Nat := s.rd (pg .epo 0) Reg.EPO_LAST_EQX_TICK

/-! What the images say of a context. -/

/-- The slots of the source of context `c` under an image, and the links that feed them. -/
def imgSlots (img : Option EpochImage) (c : Nat) : List Nat :=
  let n := imgField img (pg .ctx c) Reg.CTX_SRC_CFG_SLOT
  let b := imgField img (pg .slt n) Reg.SLT_SLT_CFG_BOND_LOG2
  if 1 ≤ b ∧ b ≤ 4 ∧ n % 2 ^ b = 0 then (List.range (2 ^ b)).map (fun i => n + i) else [n]
def imgFeeds (img : Option EpochImage) (slots : List Nat) : List Nat :=
  (List.range 64).filter (fun l => (imgRegs img (pg .lnk l)).isSome && (List.range 64).any (fun e =>
    imgField img (pg .lnk l) (Reg.LNK_MAP_VALID e) == 1 && slots.contains (imgField img (pg .lnk l) (Reg.LNK_MAP_SLOT e))))

/-- The values that an image gives the fields of context `c` that satisfy `g`. -/
def ctxVals (img : Option EpochImage) (c : Nat) (g : Fld → Bool) : List Nat :=
  ((imgFields (pg .ctx c)).filter g).map (fun f => imgField img (pg .ctx c) f)

/-- What decides the view of context `c` (R192 to R198). -/
def viewKey (img : Option EpochImage) (c : Nat) : List Nat :=
  let p := pg .slt (imgField img (pg .ctx c) Reg.CTX_SRC_CFG_SLOT)
  ctxVals img c (fun f => 0x100 ≤ f.off && f.off ≤ 0x118) ++ [imgField img p Reg.SLT_SLT_CFG_BOND_LOG2,
    imgField img p Reg.SLT_SLT_CFG_CPLX, imgField img p Reg.SLT_SMP_PERIOD_PERIOD]

/-! When the transform runs. -/

/-- Field `f` of page `p`, and a field of context `c`, under the settings that follow its switch point (`new`), or as its register holds it (R216). -/
def State.newRd (s : State) (c : Nat) (new : Bool) (p : Nat) (f : Fld) : Nat :=
  match (if new then (s.xfc c).next.find? (fun y => y.1 == p && y.2.1 == f) else none) with
  | some y => y.2.2
  | none => s.rd p f
def State.xfRd (s : State) (c : Nat) (new : Bool) (f : Fld) : Nat := s.newRd c new (pg .ctx c) f

/-- The transform of context `c` runs (R29). -/
def State.xfRuns (s : State) (c : Nat) (new : Bool) : Bool :=
  let job (f : Nat → Fld) (j : Nat) := if new then s.liveRd tmpPage (f j) else s.rd tmpPage (f j)
  s.xfRd c new Reg.CTX_XF_CFG_KIND != 0 ||
    (List.range 16).any (fun u => s.newRd c new (pg .den u) Reg.DEN_DEN_CFG_BIND == 1 &&
      s.newRd c new (pg .den u) Reg.DEN_DEN_CFG_CTX == c) ||
    [0, 1].any (fun m => s.xfRd c new (Reg.CTX_MASK_CFG_EN m) == 1) ||
    (List.range 32).any (fun j => job Reg.TMP_JOB_CFG_EN j == 1 && job Reg.TMP_JOB_CFG_KIND j == 1 && job Reg.TMP_JOB_SRC_CTX j == c)

/-! The switch point. -/

/-- A loss that restarts the grid of context `c` is open (R204, R216). -/
def State.restartOpen (s : State) (c : Nat) : Bool :=
  let a := s.actx c
  let f (o : Option OpenLeap) : Bool := match o with
    | some l => restartsGrid l.cause
    | none => false
  f a.openRaw || f a.openSpec

/-- The slots and links of context `c` under LIVE have switched (R487). -/
def State.sourceReady (s : State) (c : Nat) : Bool :=
  let slots := imgSlots s.liveImg c
  slots.all (fun n => !s.epo.todo.contains (pg .slt n)) &&
    (imgFeeds s.liveImg slots).all (fun l => !s.epo.todo.contains (pg .lnk l))

/-- The switch of context `c`, which runs, is still to come, and its source, where LIVE runs it, has switched. -/
def State.switching (s : State) (c : Nat) : Bool :=
  s.epo.todo.contains (pg .ctx c) && (s.actx c).running && !(s.xfc c).ending && (!imgRuns s.liveImg c || s.sourceReady c)

/-- Context `c`, which does not run, starts at the equinox in progress. -/
def State.starting (s : State) (c : Nat) : Bool :=
  s.epo.todo.contains (pg .ctx c) && !(s.actx c).running && imgRuns s.liveImg c

/-- The source that context `c` had before the equinox in progress delivers no more (R171): LIVE does not have one of its slots or bonds it
otherwise, or one of its links does not feed it any more, and that page has switched. -/
def State.sourceGone (s : State) (c : Nat) : Bool :=
  let slots := imgSlots s.oldImg c
  let feeds := imgFeeds s.oldImg slots
  let live := imgFeeds s.liveImg slots
  let bond (img : Option EpochImage) (n : Nat) := (imgField img (pg .slt n) Reg.SLT_SLT_CFG_BOND_LOG2, (imgRegs img (pg .slt n)).isSome)
  slots.any (fun n => bond s.oldImg n != bond s.liveImg n && !s.epo.todo.contains (pg .slt n)) ||
    feeds.any (fun l => !live.contains l && !s.epo.todo.contains (pg .lnk l))

/-- The equinox in progress changes the view of context `c` (R568). -/
def State.viewChanges (s : State) (c : Nat) : Bool :=
  imgRuns s.oldImg c && imgRuns s.liveImg c && viewKey s.oldImg c != viewKey s.liveImg c

/-- The view sample of context `c` stamped `stamp`, its next one, lies at the switch point or after it (R216, R487): the first frame start on
the grid at or after the equinox tick; after a loss that restarts the grid, or where no transform runs, the first sample then. -/
def State.atSwitch (s : State) (c : Nat) (stamp : SubTick) : Bool :=
  let v := s.view c
  s.switching c && (!v.held.isEmpty || (decide (16 * s.eqxTick ≤ stamp) && (v.gap || !(s.actx c).begun ||
    (match (s.xfc c).cur with
    | some g => g.got % max 1 g.hop == 0
    | none => true))))

end Sys2Proof.Machine
end

