-- ==== Sys2Proof/Machine/Levels.lean ====
section
/-!
DEFINITION. The level sources of a context: what each tapped sample does to its hysteresis, and the transitions that follow (R271).
-/
namespace Sys2Proof.Machine

/-- The value at or above, and at or below, the threshold, and the two clearing conditions (R271). For the power, `value` is |x|², and the
thresholds are squared; no power lies at or below a negative threshold. -/
def levelTests (power : Bool) (value : Int) (thresh : Int) (hyst : Nat) : Bool × Bool × Bool × Bool :=
  if power then
    (thresh * thresh ≤ value, value ≤ thresh * thresh, hyst ≤ thresh && value ≤ (thresh - hyst) * (thresh - hyst),
      (thresh + hyst) * (thresh + hyst) ≤ value)
  else (thresh ≤ value, value ≤ thresh, value ≤ thresh - hyst, thresh + hyst ≤ value)

/-- A level source's hysteresis after one sample, and whether it rises and whether it falls past its threshold. -/
def LvlSt.sample (x : LvlSt) (mode : Nat) (w : Bool × Bool × Bool × Bool) : LvlSt × Bool × Bool :=
  let level := if mode = 0 then (if w.1 then true else if w.2.2.1 then false else x.level)
    else (if w.2.1 then true else if w.2.2.2 then false else x.level)
  -- EITHER clears RISE and FALL on the same side (R271)
  let rise := x.clrRise && w.1
  let fall := x.clrFall && w.2.1
  ({ x with level := level, clrRise := w.2.2.1 || (x.clrRise && !rise)
            clrFall := (if mode = 4 then w.2.2.1 else w.2.2.2) || (x.clrFall && !fall) }, rise, fall)

/-- The FCLK that a sample takes through the corrector and a passthrough view (R176). -/
def viewLatency : Nat := 8

/-- Level source `l` of context `c` meets a tapped sample (R271): of several transitions in one FCLK the first is reported. -/
def State.levelStep (s : State) (c l : Nat) (i q : Int) (stamp : SubTick) : State :=
  let p := pg .ctx c
  let k := 2 * c + l
  let mode := s.rd p (Reg.CTX_LVL_CFG_MODE l)
  let sel := s.rd p (Reg.CTX_LVL_CFG_SEL l)
  let power := sel == 2
  let thr : Int := if power then (s.rd p (Reg.CTX_LVL_CFG_THRESH l) : Nat) else s.rdS p (Reg.CTX_LVL_CFG_THRESH l)
  let hyst := s.rd p (Reg.CTX_LVL_CFG_HYST l)
  let value := if power then i * i + q * q else if sel = 1 then q else i
  let x := smGet {} k s.trg.lvl
  let x := if x.leapt then { (x.sample mode (levelTests power (if power then thr * thr else thr) thr hyst)).1 with
      leapt := false, clrRise := hyst = 0, clrFall := hyst = 0 } else x
  let y := x.sample mode (levelTests power value thr hyst)
  let pulse := mode = 2 ∧ y.2.1 ∨ mode = 3 ∧ y.2.2 ∨ mode = 4 ∧ (y.2.1 ∨ y.2.2)
  let news : Bool := if mode < 2 then y.1.level != x.told else pulse
  let at_ := s.tick + viewLatency
  let z := if news && x.at_ != at_ then
      { y.1 with at_ := at_, told := if mode < 2 then y.1.level else x.told, todo := y.1.todo ++ [⟨at_, decide (2 ≤ mode), y.1.level, stamp⟩] }
    else y.1
  { s with trg := { s.trg with lvl := smSet {} k z s.trg.lvl } }

/-- A sample of context `c` at tap `tap`, 0 the source's and 1 the view's, meets the level sources on it. -/
def State.levelTap (s : State) (c tap : Nat) (i q : Int) (stamp : SubTick) : State :=
  s.each [0, 1] (fun s l =>
    if s.on (pg .ctx c) (Reg.CTX_LVL_CFG_EN l) && s.rd (pg .ctx c) (Reg.CTX_LVL_CFG_TAP l) == tap then s.levelStep c l i q stamp else s)

/-- A transition of level source `k` leaves the view stage: it reaches the units 2 FCLK later (R271). -/
def State.levelSend (s : State) (k : Nat) (e : LvlEvt) : State :=
  if e.pulse then s.sourcePulse (0x800 + k) 0 e.at_ 2 e.stamp else s.sourceLevel (0x800 + k) e.val e.at_ 2 e.stamp

/-- LEVEL_SOURCE_TRANSITION (R271): the next transition of level source `l` of context `c` has left the view stage. -/
def execLevelSourceTransition (t : Nat) (c : Fin 1024) (l : Fin 2) (s : State) : Host.Outcome State Fault Refusal :=
  let s := s.advance t
  let k := 2 * c.val + l.val
  let x := smGet {} k s.trg.lvl
  match x.todo with
  | [] => .next s
  | e :: r =>
    .next (if s.gated || t < e.at_ then s
      else ({ s with trg := { s.trg with lvl := smSet {} k { x with todo := r } s.trg.lvl } }).levelSend k e)

/-- Level source `l` of context `c` starts afresh at tick `t`, as 0 (R288); the transitions before it stand. -/
def State.levelEnd (s : State) (c l t : Nat) : State :=
  let k := 2 * c + l
  let todo := (smGet {} k s.trg.lvl).todo
  let s := { s with trg := { s.trg with lvl := smErase k s.trg.lvl } }
  (s.each todo (fun s e => s.levelSend k e)).sourceLevel (0x800 + k) false t 0 (16 * t)

/-- The transitions still in the view stage are lost as the clocks stop (R109). -/
def State.levelsLost (s : State) : State :=
  let cut (y : Nat × LvlSt) : Nat × LvlSt :=
    let todo := y.2.todo.filter (fun e => decide (e.at_ ≤ s.tick))
    (y.1, { y.2 with todo := todo, told := ((todo.getLast?).map LvlEvt.val).getD (s.srcLevel (0x800 + y.1)) })
  { s with trg := { s.trg with lvl := s.trg.lvl.map cut } }

end Sys2Proof.Machine
end

