-- ==== Sys2Proof/Machine/Views.lean ====
section
/-!
DEFINITION. What conditioning does to the samples: the corrector's data path, the windows of a tier-1 run, mixing, decimation, and the
delivery of view samples (R175, R184, R190 to R199, R204, R220, R568).
-/
namespace Sys2Proof.Machine

/-- The stamp of a slot sample (R156). -/
def sampleStamp (x : SlotSample) : SubTick := fineStamp x.fine

/-- The marks of a slot sample: overranged, CRC mismatch (R220). -/
def sampleMark (x : SlotSample) : Nat := b2n x.ovr + 2 * b2n x.crc

/-- A free value that may be any whole number (notes/assumptions/3). -/
def State.freeInt (s : State) : Int × State :=
  let (v, t) := s.free
  (if v % 2 = 0 then (v / 2 : Nat) else -((v / 2 : Nat) : Int) - 1, t)

/-! View samples delivered. -/

/-- The bytes of a view sample (R31, R296): I, and Q where the view is complex. -/
def viewSampleBytes (complex : Bool) (y : ViewSample) : List Byte :=
  leBytes 2 (unsigned 16 y.i) ++ (if complex then leBytes 2 (unsigned 16 y.q) else [])

/-- A grid takes one more view sample at tick `t`; those that no frame needs any more are forgotten. A frame that it completes is ready when
it has left the view stage (R205, R290). -/
def XfGrid.take (g : XfGrid) (y : ViewSample) (t : Nat) : XfGrid :=
  let got := g.got + 1
  { g with got := got, hist := (y :: g.hist).take (max 1 (got - g.next * g.hop))
           full := if g.n ≤ got && (got - g.n) % max 1 g.hop == 0 then g.full ++ [t + viewLatency] else g.full }

/-- The number, since the start of context `c`, of the frame that follows those of its grid. -/
def State.seqNext (s : State) (c : Nat) : Nat := match (s.xfc c).cur with
  | some g => g.seq0 + g.next
  | none => (s.xfc c).seq

/-- A new grid of context `c` with no sample yet (R204): `restart` says that it restarts one. -/
def State.gridNew (s : State) (c : Nat) (restart : Bool) : XfGrid :=
  let new := !(s.xfc c).next.isEmpty
  let n := 2 ^ s.xfRd c new Reg.CTX_XF_CFG_NLOG2
  { seq0 := s.seqNext c, n := n, hop := n / 2 ^ s.xfRd c new Reg.CTX_XF_CFG_HOP_LOG2, per := s.viewPeriod c
    order := if s.rd (pg .ctx c) Reg.CTX_VIEW_CFG_MODE = 2 then 2 else b2n (s.viewComplex c), opens := restart }

/-- One view sample enters the input store of the transform of context `c` (R204, R216): `fresh` says that it is the origin of a grid. -/
def State.gridTake (s : State) (c : Nat) (y : ViewSample) (fresh restart : Bool) : State :=
  let x := s.xfc c
  let prev := x.prev.map (fun g => g.take y s.tick)
  if !s.xfRuns c (!x.next.isEmpty) then s.setXfc c { x with prev := prev }
  else
    let g := if fresh then s.gridNew c restart else x.cur.getD (s.gridNew c (x.seq != 0))
    s.setXfc c { x with prev := prev, cur := some (g.take y s.tick) }

/-- One view sample of context `c` delivered (R115, R170, R204, R220, R304): the first one, and the first after a loss that
restarted the grid, is the origin of a grid. -/
def State.viewTake (s : State) (c : Nat) (y : ViewSample) : State :=
  let v := s.view c
  let fresh := v.gap || !(s.actx c).begun
  let s := if fresh then s.setView c { v with gap := false } else s
  ((s.levelTap c 1 y.i y.q y.stamp).gridTake c y fresh (v.gap || (s.xfc c).cur.isSome)).takeSample c y.stamp (viewSampleBytes (s.viewComplex c) y) (y.mark.testBit 0)

/-- One view sample that only the last frames of an old grid of context `c` still take (R216, R488). -/
def State.prevTake (s : State) (c : Nat) (y : ViewSample) : State :=
  let x := s.xfc c
  s.setXfc c { x with prev := x.prev.map (fun g => g.take y s.tick) }

/-- One view sample of context `c`: from the switch point on it waits for the switch; past the one at which the context stops, only the last
frames take it (R216, R487, R488). -/
def State.viewDeliver (s : State) (c : Nat) (y : ViewSample) : State :=
  if (s.xfc c).ending then s.prevTake c y
  else if s.atSwitch c y.stamp then s.setView c { s.view c with held := (s.view c).held ++ [y] }
  else s.viewTake c y

/-! Mixing and decimation. -/

/-- The settings of the view of context `c`. -/
def State.viewSet (s : State) (c : Nat) : ViewSet :=
  let p := pg .ctx c
  let n := s.srcSlot c
  { slot := n, mode := s.rd p Reg.CTX_VIEW_CFG_MODE, dec := s.rd p Reg.CTX_VIEW_CFG_DEC_LOG2
    shift := min 8 (s.rd p Reg.CTX_VIEW_CFG_OUT_SHIFT), ftw := s.rd p Reg.CTX_NCO_FTW_FTW, phase := s.rd p Reg.CTX_NCO_PHASE_PHASE
    per := s.slotPer n, slices := s.slices n, complex := s.slotComplex n }

/-- The phase of source sample `n` (R193), rounded half up to 18 bits. -/
def ViewSet.ncoPhase (w : ViewSet) (n : Nat) : Nat := ((w.ftw * n + w.phase) % 2 ^ 48 + 2 ^ 29) / 2 ^ 30 % 2 ^ 18

/-- Source sample `n` mixed (R193, R194): times e^(-j·phase), with gain 2 where the source is real; I and Q in units of 2^-96. -/
def ViewSet.mixed (w : ViewSet) (n : Nat) (i q : Int) : Int × Int :=
  let e := cosSin (w.ncoPhase n) 18
  if w.complex then (i * e.1 + q * e.2, q * e.1 - i * e.2) else (2 * i * e.1, -(2 * i * e.2))

/-- An output of the chain, in units of 2^-`u` (R195): shifted, rounded half up, saturated; with the saturations that this takes. -/
def ViewSet.out (w : ViewSet) (u : Nat) (stamp : SubTick) (mark : Nat) (x : Int × Int) : ViewSample × Nat :=
  let f (x : Int) := roundDiv (x * 2 ^ w.shift) (2 ^ u)
  (⟨stamp, (sat16 (f x.1)).toInt, (sat16 (f x.2)).toInt, mark⟩, b2n (satHit (f x.1)) + b2n (satHit (f x.2)))

/-- The integrators of the CIC after one more value, and what the last one holds (R195). -/
def cicSums : List (Int × Int) → Int × Int → List (Int × Int) × (Int × Int)
  | [], x => ([], x)
  | a :: l, x =>
    let b := (a.1 + x.1, a.2 + x.2)
    let r := cicSums l b
    (b :: r.1, r.2)

/-- The combs of the CIC after one more value, and what the last one gives (R195). -/
def cicCombs : List (Int × Int) → Int × Int → List (Int × Int) × (Int × Int)
  | [], x => ([], x)
  | a :: l, x =>
    let r := cicCombs l (x.1 - a.1, x.2 - a.2)
    (x :: r.1, r.2)

/-- The stamp of the output that a source sample completes (R196, R198): the sample's, `fine`, less D_k = 65.5·c − 2.5 periods, where a
period is `per` / `slices` units of 2^-32 tick; rounded half up to a sub-tick. -/
def ViewSet.decStamp (w : ViewSet) (fine : Nat) : SubTick :=
  ((2 * w.slices * fine - (131 * 2 ^ (w.dec - 1) - 5) * w.per) * 16 + w.slices * 2 ^ 32) / (2 * w.slices * 2 ^ 32)

/-- The number of the source sample at `fine` (R193): source periods since the equinox of the view, lost and withheld samples counted. -/
def ViewChain.number (v : ViewChain) (w : ViewSet) (fine : Nat) : Nat :=
  if w.per = 0 then v.n
  else if v.at_ = 0 then (fine - v.eqx * 2 ^ 32) * w.slices / w.per
  else v.n + ((fine - v.at_) * w.slices * 2 + w.per) / (2 * w.per)

/-- One mixed sample, in units of 2^-96, enters the decimating chain (R195, R196, R568), numbered `n`; the anchor's number is `n0`, its stamp
`a0`. The fifth-order CIC gives one value for 2^(k-1) samples and the FIR one for two of those; the filter's coefficients and the
chain's inner widths are open (R195), so its value is a free one. An output stamped before the anchor is fill. -/
def State.chainTake (s : State) (w : ViewSet) (v : ViewChain) (fine n n0 : Nat) (a0 : SubTick) (x : Int × Int) (mark : Nat) :
    (ViewChain × Option (ViewSample × Nat)) × State :=
  let sums := cicSums v.ints (x.1 / 2 ^ 64, x.2 / 2 ^ 64)
  let v := { v with ints := sums.1, mark := v.mark ||| mark }
  if (n + 1 - n0) % 2 ^ (w.dec - 1) ≠ 0 then ((v, none), s)
  else
    let combs := cicCombs v.combs sums.2
    let v := { v with combs := combs.1, fir := (combs.2 :: v.fir).take 127 }
    if (n + 1 - n0) % 2 ^ w.dec ≠ 0 then ((v, none), s)
    else
      let stamp := w.decStamp fine
      let out := w.out 32 stamp (v.mark + (if 0 < v.span then 4 else 0)) (Config.chainValue s.freeCnt w.dec v.fir)
      (({ v with mark := 0, span := v.span - 1 }, if stamp < a0 then none else some out), { s with freeCnt := s.freeCnt + 1 })

/-- One source sample enters a view's chain (R192 to R199, R568): the chain after it, and the view sample that it completes, with its
saturations. -/
def State.chainStep (s : State) (w : ViewSet) (v : ViewChain) (x : SlotSample) :
    (ViewChain × Option (ViewSample × Nat)) × State :=
  let n := v.number w x.fine
  let v := { v with n := n, at_ := x.fine }
  if w.mode = 0 then ((v, some (⟨sampleStamp x, x.i.toInt, x.q.toInt, sampleMark x⟩, 0)), s)
  else
    let y := w.mixed n x.i.toInt x.q.toInt
    if w.dec = 0 then ((v, some (w.out 96 (sampleStamp x) (sampleMark x) y)), s)
    else match v.anchor with
      | some (a0, n0) => s.chainTake w v x.fine n n0 a0 y (sampleMark x)
      | none =>
        let zero := List.replicate 5 ((0 : Int), (0 : Int))
        let v := { v with anchor := some (sampleStamp x, n), ints := zero, combs := zero, fir := [], mark := 0, span := 67 }
        s.chainTake w v x.fine n n (sampleStamp x) y (sampleMark x)

/-- A loss open in context `c` that lost source samples ends with the source sample stamped `stamp` (R115, R170, R204): the CLOCK records due
and the leaps are written. -/
def State.lossEnd (s : State) (c : Nat) (stamp : SubTick) : State :=
  let a := s.actx c
  let src (o : Option OpenLeap) := match o with
    | some l => restartsGrid l.cause
    | none => false
  let s := s.clockWrite c
  if src a.openRaw || src a.openSpec then (s.regain c stamp).gapEnd c else s

/-- The source sample of context `c` stamped `stamp` is lost in a failed hop before the transform (R531). -/
def State.hopLoss (s : State) (c : Nat) (stamp : SubTick) : State :=
  if (s.actx c).openRaw.any (fun l => l.cause == 9) then s else (s.lossEnd c stamp).lose c 9 stamp false

/-- One source sample reaches the view of context `c`. -/
def State.viewInput (s : State) (c : Nat) (x : SlotSample) : State :=
  if sampleStamp x < (s.view c).cur.from_ then s
  else if s.cutOff .samples c then s.hopLoss c (sampleStamp x)
  else
    let s := (s.lossEnd c (sampleStamp x)).levelTap c 0 x.i.toInt x.q.toInt (sampleStamp x)
    let r := s.chainStep (s.viewSet c) (s.view c).cur x
    let s := r.2.setView c { r.2.view c with cur := r.1.1 }
    match r.1.2 with
    | none => s
    | some (y, sat) => (s.bumpSat (pg .ctx c) Reg.CTX_VIEW_STAT_SAT_CNT sat).viewDeliver c y

/-- One source sample reaches the view that context `c` had before an equinox changed it, for the last frames of the old grid (R216). -/
def State.oldInput (s : State) (c : Nat) (x : SlotSample) : State :=
  match (s.view c).old with
  | none => s
  | some (w, v) =>
    if (s.xfc c).prev.isNone then s.setView c { s.view c with old := none }
    else if s.cutOff .samples c then s
    else
      let r := s.chainStep w v x
      let s := r.2.setView c { r.2.view c with old := some (w, r.1.1) }
      match r.1.2 with
      | none => s
      | some (y, _) => s.prevTake c y

/-- The view of context `c` starts afresh (R568): it takes the source samples stamped from `start` on. -/
def State.viewStart (s : State) (c eqx : Nat) (start : SubTick) : State := s.setView c { cur := { eqx := eqx, from_ := start } }

/-- Frame of source `n` is lost: the last frames of the grids that still take samples from it for an old view are lost with it (R216, R229). -/
def State.oldLost (s : State) (n cause : Nat) : State :=
  s.each ((s.ing.view.filter (fun v => v.2.old.any (fun y => y.1.slot == n))).map Prod.fst) (fun s c =>
    (s.prevLost c cause).setView c { s.view c with old := none })

/-- The source samples of one frame in the order of their stamps (R161). -/
def inOrder (xs : List SlotSample) : List SlotSample :=
  xs.foldr (fun x l => l.takeWhile (fun y => y.fine < x.fine) ++ x :: l.dropWhile (fun y => y.fine < x.fine)) []

/-- The samples of one source frame reach the view of context `c`. -/
def State.feed (s : State) (c : Nat) (xs : List SlotSample) : State := s.each (inOrder xs) (fun s x => s.viewInput c x)

/-- The contexts on source `n` take a frame: their views, and the views that an equinox replaced; for a context that is to start, or whose view
is to change, it waits, from the equinox tick on (R216, R568). -/
def State.feedAll (s : State) (n : Nat) (xs : List SlotSample) : State :=
  let late := xs.filter (fun x => decide (16 * s.eqxTick ≤ sampleStamp x))
  let turn := if late.isEmpty then [] else
    ((s.epo.todo.filter (fun p => blkOf p == some .ctx && imgField s.liveImg p Reg.CTX_SRC_CFG_SLOT == n)).map instOf).filter
      (fun c => s.starting c || (s.switching c && s.viewChanges c))
  let old := (s.ing.view.filter (fun v => v.2.old.any (fun y => y.1.slot == n))).map Prod.fst
  let s := s.each turn (fun s c => s.setView c { s.view c with ahead := (s.view c).ahead ++ [late] })
  let s := s.each old (fun s c => s.each (inOrder xs) (fun s x => s.oldInput c x))
  s.each (s.inputCtxs n) (fun s c => s.feed c xs)

/-! The corrector. -/

/-- A sample of the slice with coefficients `a` corrected (R175), where a bonded input gives 1.6 GHz × `slices` × 2^32 / `per` samples a
second: the offset, the gain, and, where SKEW is not 0, the skew times the derivative of the input, which the 15 taps of an unstated
differentiator give and which is a free value, in units of 2^-32. Each result is rounded half up to a 16-bit LSB
(notes/assumptions/161). -/
def State.correct (s : State) (a : IcCoef) (slices per : Nat) (x : BitVec 16) : BitVec 16 × State :=
  let y := roundDiv (16 * x.toInt - a.ofs) 16
  let y := roundDiv (y * (2 ^ 24 + a.gain)) (2 ^ 24)
  if a.skew = 0 then (sat16 y, s)
  else
    let (d, s) := s.freeInt
    (sat16 (y - roundDiv (a.skew * d * 1600000000 * slices) (10 ^ 15 * per)), s)

/-- The samples of one frame of input `n` corrected, slice by slice. -/
def State.correctFrame (s : State) (n : Nat) (xs : List SlotSample) : List SlotSample × State :=
  let act := s.icAct n
  ((List.range xs.length).zip xs).foldl (fun (r : List SlotSample × State) y =>
    let z := r.2.correct (act.getD y.1 {}) (s.slices n) (s.slotPer n) y.2.i
    (r.1 ++ [{ y.2 with i := z.1 }], z.2)) ([], s)

/-- A frame of input `n` withheld by a run (R184, R185): the first one starts the leaps; each goes into the window in progress, and those
after window 2 wait for the test. -/
def State.withhold (s : State) (n : Nat) (xs : List SlotSample) : State :=
  let fine := ((xs.head?).map SlotSample.fine).getD 0
  let s := s.windowSplit n
  let x := s.input n
  let s := if x.from_.isSome then s
    else
      let s := s.setInput n { x with from_ := some fine, start := fine / 2 ^ 32 }
      s.each (s.inputCtxs n) (fun s c =>
        if fineStamp fine < (s.view c).cur.from_ then s else (s.lossEnd c (fineStamp fine)).lose c 0x07 (fineStamp fine) false)
  let x := s.input n
  if x.acc1.isEmpty || accCount x.acc < windowLen then s.setInput n { x with acc := accFrame x.acc (xs.map SlotSample.i) }
  else s.setInput n { x with line := x.line ++ [xs] }

/-- A frame of input `n` corrected where a corrector runs on it (R175, R176). -/
def State.corrected (s : State) (n : Nat) (xs : List SlotSample) : List SlotSample × State :=
  if (s.icCtx n).isNone then (xs, s) else s.correctFrame n xs

/-- A run on input `n`, which the equinox in progress has taken out of use, is abandoned at the first slice-0 sample at or after the
equinox tick, `fine` (R190). -/
def State.t1Leaves (s : State) (n fine : Nat) : State :=
  if s.on (pg .epo 0) Reg.EPO_EQX_STAT_SWITCHING && !s.epo.inputs.contains n && decide (s.eqxTick * 2 ^ 32 ≤ fine) then
    s.t1Abandon n 5 (fineStamp fine)
  else s

/-- A source frame, one sample per slice, reaches conditioning (R161, R162, R175, R192, R567). -/
def State.sourceInput (s : State) (n : Nat) (xs : List SlotSample) : State :=
  let s := match xs with
    | x :: _ => s.t1Leaves n x.fine
    | [] => s
  if (s.icCtx n).isSome && [3, 4].contains (s.icRd n Reg.CTX_IC_STAT_STATE) then s.withhold n xs
  else
    let s := if (s.icCtx n).isNone then s else s.setInput n { s.input n with acc := accFrame (s.input n).acc (xs.map SlotSample.i) }
    let y := s.corrected n xs
    y.2.feedAll n y.1

/-- T1_WINDOW2_END (R184 to R187): `est` are window 2's estimates of gain and skew. The test decides; output resumes with the sample
that follows window 2. -/
def execT1Window2End (t : Nat) (slot : Fin 256) (est : List IcEst) (s : State) : Host.Outcome State Fault Refusal :=
  let s := s.advance t
  let n := slot.val
  let x := s.input n
  .next (if s.icRd n Reg.CTX_IC_STAT_STATE ≠ 4 || accCount x.acc < windowLen || s.gated then s
    else
      let l := x.est1.zip (s.icEstimate n x.acc est)
      let bits := s.inputBits n
      let result := icResult bits l
      let new := if result = 1 then l.map (fun y => (⟨icMean y.1.1.gain y.2.1.gain, icMean y.1.1.skew y.2.1.skew,
        icMean y.1.1.ofs y.2.1.ofs⟩ : IcCoef)) else x.saved
      let worst := icWorst bits l
      let w := l.getD worst (({}, false), ({}, false))
      let gd := (gainDiff w.1.1.gain w.2.1.gain + 2 ^ 47) / 2 ^ 48
      let sd := (w.1.1.skew - w.2.1.skew).natAbs
      let od := (roundDiv (w.1.1.ofs - w.2.1.ofs).natAbs (2 ^ (16 - bits))).toNat
      let stop := fineStamp (x.from_.getD 0 + 2 * windowLen * s.slotPer n)
      let s := s.setIcAct n new
      let s := s.setInput n (if result = 1 then { x with ref := new, line := [] } else { x with line := [] })
      let s := s.t1End n result worst (min gd 65535) (min sd 65535) (min od 65535) stop
      s.each x.line (fun s xs => s.sourceInput n xs))

end Sys2Proof.Machine
end

