-- ==== Sys2Proof/Machine/Ingest.lean ====
section
/-!
DEFINITION. Sample ingest: lanes, links, release and stamps, slots and their FIFOs, overrange episodes, lane and link
faults (R147 to R174, R567).
-/
namespace Sys2Proof.Machine

/-- The state of link `l` beyond its registers. -/
def State.lnk (s : State) (l : Nat) : LnkSt := smGet {} l s.ing.link
def State.setLnk (s : State) (l : Nat) (x : LnkSt) : State :=
  { s with ing := { s.ing with link := smSet {} l x s.ing.link } }
/-- The state of slot `n` beyond its registers. -/
def State.slt (s : State) (n : Nat) : SlotSt := smGet {} n s.ing.slot
def State.setSlt (s : State) (n : Nat) (x : SlotSt) : State :=
  { s with ing := { s.ing with slot := smSet {} n x s.ing.slot } }

/-- The physical lane of logical lane `j` of link `l` (R173). -/
def State.physLane (s : State) (l j : Nat) : Nat :=
  if j < 8 then s.rd (pg .lnk l) (Reg.LNK_LANE_MAP0_PHYS j) else s.rd (pg .lnk l) (Reg.LNK_LANE_MAP1_PHYS (j - 8))

/-- The physical lanes of link `l`, in logical order. -/
def State.linkLanes (s : State) (l : Nat) : List Nat :=
  (List.range (s.rd (pg .lnk l) Reg.LNK_LINK_CFG_L_M1 + 1)).map (fun j => s.physLane l j)

/-- A link that LOAD_EPOCH has started for STAGED delivers to no slot until its equinox (R171, R484). -/
def parkedTick : Nat := 2 ^ 64
def State.linkParked (s : State) (l : Nat) : Bool := (s.lnk l).fromTick == parkedTick

/-- A link in use: LIVE uses its page, or LOAD_EPOCH has started it (R171, R484; notes/assumptions/113); its page is ON (R42). -/
def State.linkOn (s : State) (l : Nat) : Bool := (s.inEpoch (pg .lnk l) || s.linkParked l) && s.pstateAct (pg .lnk l) == 0

/-- The links in use that list physical lane `x`. -/
def State.linksOf (s : State) (x : Nat) : List Nat :=
  (List.range 64).filter (fun l => s.linkOn l && (s.linkLanes l).contains x)

/-- STATE of link `l` (R173). -/
def State.linkState (s : State) (l : Nat) : Nat := s.rd (pg .lnk l) Reg.LNK_LINK_STAT_STATE
def State.setLinkState (s : State) (l v : Nat) : State := s.wr (pg .lnk l) Reg.LNK_LINK_STAT_STATE v

/-- Lane `x`: its page, and its place in the quad (R149). -/
def lanePage (x : Nat) : Nat := pg .lqd (x / 8)

/-- Lane `x` is enabled (R172), and its page is ON (R42). -/
def State.laneOn (s : State) (x : Nat) : Bool :=
  (s.rd (lanePage x) Reg.LQD_QUAD_CFG_LANE_EN).testBit (x % 8) && s.pstateAct (lanePage x) == 0

/-- The level of the event of lane `x` (R172): enabled, and not UP or showing a fault. A lane whose link is down only
because of clock gating shows none (R168). -/
def State.laneEvent (s : State) (x : Nat) : State :=
  let p := lanePage x
  let i := x % 8
  let gated := (s.linksOf x).any (fun l => (s.lnk l).gatedOnly)
  let bad := s.laneOn x && ((!s.on p (Reg.LQD_LANE_STAT_UP i) && !gated) || s.on p (Reg.LQD_LANE_STAT_LATE i) ||
    s.on p (Reg.LQD_LANE_STAT_BUF_ERR i) || s.on p (Reg.LQD_LANE_STAT_FEC_UNC i))
  s.setRaw (evId .lqd (x / 8) i) bad

/-- The receivers of quad `q` whose POL_AUTO is 0 invert exactly where POL_INV is 1 (R151). -/
def State.polSync (s : State) (q : Nat) : State :=
  let p := pg .lqd q
  s.each ((List.range 8).filter (fun i => !(s.rd p Reg.LQD_LANE_CTL_POL_AUTO).testBit i)) (fun s i =>
    s.wr p (Reg.LQD_LANE_STAT_POL_INV_ACT i) (bit (s.rd p Reg.LQD_LANE_CTL_POL_INV) i))

/-! Sources and contexts. -/

/-- The slots that link `l` feeds (R159). -/
def State.linkSlots (s : State) (l : Nat) : List Nat :=
  ((List.range 64).filter (fun e => s.on (pg .lnk l) (Reg.LNK_MAP_VALID e))).map
    (fun e => s.rd (pg .lnk l) (Reg.LNK_MAP_SLOT e)) |>.eraseDups

/-- The running contexts sourced from link `l`. -/
def State.ctxsOnLink (s : State) (l : Nat) : List Nat :=
  let x := if s.linkParked l then [] else s.linkSlots l
  s.running.filter (fun c => (s.srcSlots (s.srcSlot c)).any x.contains)

/-- The stamp of frame `k` of the extended multiblock released at tick `b`, in slot `n` of link `l`, in units of 2^-32 tick (R156). -/
def State.slotFine (s : State) (l n b k : Nat) : Nat :=
  b * 2 ^ 32 + s.rd (pg .slt n) Reg.SLT_SMP_PHASE_PHASE + k * s.slotPer n - s.rd (pg .lnk l) Reg.LNK_TS_ADJ_ADJ

/-- The source that takes slot `n`: the bonded group it belongs to, from its base slot, or the slot alone (R161, R202). -/
def State.sourceOf (s : State) (n : Nat) : Nat :=
  let b := s.rd (pg .slt n) Reg.SLT_SLT_CFG_BOND_LOG2
  if 1 ≤ b ∧ b ≤ 4 then n / 2 ^ b * 2 ^ b else n

/-- The sources that link `l` feeds. -/
def State.linkSources (s : State) (l : Nat) : List Nat := ((s.linkSlots l).map s.sourceOf).eraseDups

/-! The LEMC (R152, R153, R158). -/

/-- The LEMC period of link `l`, and its release point after a boundary, in eighths of a tick (R152, R155). -/
def State.lemcPeriod (s : State) (l : Nat) : Nat :=
  (s.rd (pg .lnk l) Reg.LNK_LINK_CFG_LEMC_K_M1 + 1) * s.rd (pg .clk 0) Reg.CLK_JESD_DIV_D_ACT
def State.lemcRbd (s : State) (l : Nat) : Nat :=
  s.rd (pg .lnk l) Reg.LNK_LINK_CFG_RBD * s.rd (pg .clk 0) Reg.CLK_JESD_DIV_D_ACT

/-- A release point of link `l` falls in tick `t` (R155): RBD device clocks after an LEMC boundary. In subclass 0 the LEMC starts with the
link, and its first release point is where it first releases (R158). A point between two ticks counts in the tick before it
(notes/assumptions/160). -/
def State.releaseDue (s : State) (l t : Nat) : Bool :=
  let p := s.lemcPeriod l
  let at_ (o : Nat) : Bool := decide (o ≤ 8 * t + 7) && decide ((8 * t + 7 - o) % p < 8)
  if s.rd (pg .lnk l) Reg.LNK_LINK_CFG_SUBCLASS = 0 then (match (s.lnk l).origin with
    | some x => at_ (8 * x)
    | none => true)
  else at_ (8 * s.ing.lemcAt + s.lemcRbd l)

/-- How far an edge at tick `t` lies from the nearest LEMC boundary, in VCO cycles, for the first enabled subclass-1 link for which it lies off
one (R153). -/
def State.lemcError (s : State) (t : Nat) : Int :=
  let off (l : Nat) : Int :=
    let p := s.lemcPeriod l
    let x := (8 * t - 8 * s.ing.lemcAt) % p
    if 2 * x < p then (x : Int) else (x : Int) - p
  match ((List.range 64).filter (fun l => s.linkOn l && s.rd (pg .lnk l) Reg.LNK_LINK_CFG_SUBCLASS == 1)).find? (fun l => off l != 0) with
  | some l => off l
  | none => 0

/-- F of link `l` (R147): octets per frame and lane; 0 where it is not an integer. -/
def State.octets (s : State) (l : Nat) : Nat :=
  let p := pg .lnk l
  let n := (s.rd p Reg.LNK_LINK_CFG_M_M1 + 1) * (s.rd p Reg.LNK_LINK_CFG_S_M1 + 1) *
    (if s.on p Reg.LNK_LINK_CFG_NP16 then 16 else 12)
  let d := 8 * (s.rd p Reg.LNK_LINK_CFG_L_M1 + 1)
  if n % d = 0 then n / d else 0

/-- The frames of an extended multiblock of link `l` (R154). -/
def State.embFrames (s : State) (l : Nat) : Nat :=
  let f := s.octets l
  if f = 0 then 0 else 256 * (s.rd (pg .lnk l) Reg.LNK_LINK_CFG_E_M1 + 1) / f

/-! Links up and down. -/

/-- Every lane of link `l` goes back to step 2 of R150, with no lock. -/
def State.lanesRestart (s : State) (l : Nat) : State :=
  s.each (s.linkLanes l) (fun s x => if 224 ≤ x then s else
    (s.wrs (lanePage x) [(Reg.LQD_LANE_STAT_BLOCK_LOCK (x % 8), 0), (Reg.LQD_LANE_STAT_EMB_LOCK (x % 8), 0),
      (Reg.LQD_LANE_STAT_UP (x % 8), 0)]).laneEvent x)

/-- The stamp of the first sample that link `l` does not deliver to context `c` if nothing more is released (R170). -/
def State.linkLoss (s : State) (l c : Nat) : SubTick :=
  let x := s.lnk l
  if x.busy then max (fineStamp (s.slotFine l (s.srcSlot c) x.base (s.embFrames l))) (s.view c).cur.from_ else s.lossStart c

/-- Link `l` delivers no more (R165, R168, R170, R174): tier-1 runs on its inputs are abandoned, its contexts lose samples, its slots are idle,
and what waits in them for other slices is gone. -/
def State.linkStops (s : State) (l : Nat) : State :=
  let s := s.each (s.linkSources l) (fun s n => s.t1Lost n 7)
  let s := s.each (s.linkSources l) (fun s n => s.oldLost n 0x02)
  let s := s.each (s.ctxsOnLink l) (fun s c => s.lose c 0x02 (s.lossStart c) false)
  s.each (s.linkSlots l) (fun s n =>
    ((s.setSlt n { s.slt n with wait := [], discarding := false }).wr (pg .slt n) Reg.SLT_SLT_STAT_ACTIVE 0).setRaw (evId .slt n 0) false)

/-- Link `l` goes DOWN in its own right (R168 to R170, R173), with the logical lanes at fault and the cause ID of the lane fault, 0 for none:
counts, LINK records, the event; the losses begin once what is released has been delivered. -/
def State.linkDown (s : State) (l lanes cause : Nat) : State :=
  let st := s.linkState l
  let x := s.lnk l
  if !(st = 4 || (st = 5 && x.gatedOnly)) then s
  else
    let nm1 := s.rd (pg .lnk l) Reg.LNK_LINK_CFG_N_M1
    let nondet := s.rd (pg .lnk l) Reg.LNK_LINK_CFG_SUBCLASS == 0
    let s := s.each (s.ctxsOnLink l) (fun s c => s.linkRecord c nondet l nm1 5 (s.linkLoss l c) lanes)
    let s := s.setLinkState l 5
    let s := s.setLnk l { x with gatedOnly := false, origin := none, cause := cause, drop := x.drop.filter (fun r => x.busy && r.1 == x.base)
                                 crc := x.crc.filter (fun r => x.busy && r.1 == x.base), wdFrom := s.tick }
    let s := (s.bumpSat (pg .lnk l) Reg.LNK_LINK_STAT_DOWN_CNT 1).occur 9 0
    let s := if x.busy then s else s.linkStops l
    (s.lanesRestart l).downEvent l

/-- The cause ID of a lane fault that is about to be raised (R534). -/
def State.laneCause (s : State) : Nat := s.rel.nextCause

/-- Every lane's locks let link `l` release: its start is in each buffer in time (R155). -/
def releasable (margins : List (Option Nat)) (n : Nat) : Bool :=
  margins.length == n && margins.all Option.isSome

/-- The margins of a release recorded in the lanes of link `l` (R155): minimum over the last 1,024 releases, and
MARGIN_LOW. -/
def State.setMargins (s : State) (l : Nat) (m : List Nat) : State :=
  let x := s.lnk l
  let h := (m :: x.margins).take 1024
  let s := s.setLnk l { x with margins := h }
  let mins := (List.range m.length).map (fun j => h.foldl (fun a r => min a (r.getD j a)) 255)
  let s := s.each ((s.linkLanes l).zip mins) (fun s y => if 224 ≤ y.1 then s else
    s.wr (lanePage y.1) (Reg.LQD_LANE_STAT_MARGIN (y.1 % 8)) y.2)
  s.setRaw (evId .lnk l 3) (mins.any (fun v => v < 2))

/-- The slots of a source as its link comes UP (R164): the FIFO is empty, and only what belongs to release point `b` waits. -/
def State.sourceFresh (s : State) (n b : Nat) : State :=
  let s := s.each (s.srcSlots n) (fun s m => s.setSlt m { s.slt m with wait := (s.slt m).wait.filter (fun e => e.b == b) })
  s.setSlt n { s.slt n with occ := 0, discarding := false, judged := none }

/-- Link `l` releases an extended multiblock at tick `b` (R154, R155, R567), and is UP (R169). A link that an equinox added writes its LINK
records at its first release point from there on, in the contexts that have switched. -/
def State.linkRelease (s : State) (l b : Nat) : State :=
  let x := s.lnk l
  let was := s.linkState l
  let nm1 := s.rd (pg .lnk l) Reg.LNK_LINK_CFG_N_M1
  let nondet := s.rd (pg .lnk l) Reg.LNK_LINK_CFG_SUBCLASS == 0
  let gives := decide (x.fromTick ≤ b)
  let joins := gives && x.firstAt.isNone && x.fromTick != 0
  let s := s.setLnk l { x with
    base := b, frame := 0, busy := gives && decide (0 < s.embFrames l), origin := some (x.origin.getD b), wdFrom := b, gatedOnly := false
    drop := x.drop.filter (fun r => decide (b ≤ r.1)), crc := x.crc.filter (fun r => decide (b ≤ r.1))
    upAt := if was = 5 then some b else x.upAt, firstAt := if joins then some b else x.firstAt }
  let s := s.each (s.linkSlots l) (fun s n => if s.linkParked l then s
    else s.setSlt n { s.slt n with wait := (s.slt n).wait.filter (fun e => e.b == b) })
  let fresh := was != 4
  let s := if fresh then
      let s := s.setLinkState l 4
      let s := s.each (s.linkLanes l) (fun s y => if 224 ≤ y then s else
        (s.wr (lanePage y) (Reg.LQD_LANE_STAT_UP (y % 8)) 1).laneEvent y)
      if s.linkParked l then s else s.each (s.linkSources l) (fun s n => s.sourceFresh n b)
    else s
  let record := (fresh && !x.gatedOnly) || joins
  let s := if record then s.each ((s.ctxsOnLink l).filter (fun c => !s.epo.todo.contains (pg .ctx c))) (fun s c =>
    s.linkRecord c nondet l nm1 4 (16 * b) 0) else s
  if fresh then s.downEvent l else s

/-- An equinox whose tick has come has not yet reached link `l` or its slots (R171): what it releases next belongs to the new epoch. -/
def State.linkSwitching (s : State) (l t : Nat) : Bool :=
  decide (s.rd (pg .epo 0) Reg.EPO_LAST_EQX_TICK ≤ t) &&
    (s.epo.todo.contains (pg .lnk l) || (s.linkSlots l).any (fun n => s.epo.todo.contains (pg .slt n)))

/-- RELEASE_POINT (R155, R168, R169, R171): per logical lane, the device clocks by which the start of the extended multiblock
arrived before the release point, or none where it has not arrived. A lane that has gained its lock in this very FCLK counts from the
next one. -/
def execReleasePoint (t : Nat) (l : Fin 64) (margins : List (Option Nat)) (s : State) : Host.Outcome State Fault Refusal :=
  let s := s.advance t
  let lanes := s.linkLanes l
  let locked (x : Nat) : Bool := x < 224 && s.on (lanePage x) (Reg.LQD_LANE_STAT_EMB_LOCK (x % 8)) &&
    decide (smGet 0 x s.ing.lockAt < t)
  .next (if !s.linkOn l || s.gated || (s.lnk l).busy || !s.releaseDue l t || s.linkSwitching l t then s
    else if lanes.all locked && releasable margins lanes.length then
      (s.setMargins l (margins.map (fun m => m.getD 0))).linkRelease l t
    else
      let cause := if lanes.all locked then s.laneCause else (s.lnk l).cause
      let late := (lanes.zip margins).filter (fun y => y.2.isNone && locked y.1)
      let s := s.each late (fun s y => (s.wr (lanePage y.1) (Reg.LQD_LANE_STAT_LATE (y.1 % 8)) 1).laneEvent y.1)
      if s.linkState l = 4 ∨ !late.isEmpty then
        s.linkDown l ((List.range lanes.length).foldl (fun m j =>
          if (margins.getD j none).isNone || !(lanes[j]?.any locked) then setBit m j else m) 0) cause
      else s)

/-- LINK_WD_EXPIRY (R168, R534): LINK_WD FCLK have passed with no release. An expiry while a lane fault lasts, or within LINK_WD after the
recovery from one, is its consequent; any other takes the link down. -/
def execLinkWdExpiry (t : Nat) (l : Fin 64) (s : State) : Host.Outcome State Fault Refusal :=
  let s := s.advance t
  let x := s.lnk l
  let wd := s.rd (pg .lnk l) Reg.LNK_LINK_WD_WD
  let st := s.linkState l
  let lost := (s.linkLanes l).any (fun y => y < 224 && !s.on (lanePage y) (Reg.LQD_LANE_STAT_EMB_LOCK (y % 8)))
  let after := x.upAt.any (fun u => decide (s.tick ≤ u + wd))
  .next (if s.gated || !s.linkOn l || !(st = 4 ∨ st = 5) || x.gatedOnly || s.tick < x.wdFrom + wd then s
    else
      let s := s.setLnk l { x with wdFrom := s.tick }
      if x.cause ≠ 0 && (st = 5 || lost || after) then s.logFault ⟨0, x.cause, true, 2, evId .lnk l 0, s.tick⟩
      else if st = 4 then s.linkDown l 0 0
      else s)

/-- The logical lanes of link `l` that physical lane `x` carries, as a mask. -/
def State.laneMask (s : State) (l x : Nat) : Nat :=
  (List.range 16).foldl (fun m j => if (s.linkLanes l)[j]? = some x then setBit m j else m) 0

/-- ELASTIC_BUFFER_OVERFLOW (R168). -/
def execElasticBufferOverflow (t : Nat) (lane : Fin 224) (s : State) : Host.Outcome State Fault Refusal :=
  let s := s.advance t
  .next (if !s.laneOn lane then s
    else
      let cause := s.laneCause
      let s := (s.wr (lanePage lane) (Reg.LQD_LANE_STAT_BUF_ERR (lane % 8)) 1).laneEvent lane
      s.each (s.linksOf lane) (fun s l => s.linkDown l (s.laneMask l lane) cause))

/-! Lanes. -/

/-- LANE_CDR_LOCK (R150). -/
def execLaneCdrLock (t : Nat) (lane : Fin 224) (s : State) : Host.Outcome State Fault Refusal :=
  let s := s.advance t
  .next (if s.laneOn lane then { s with ing := { s.ing with cdr := lane :: s.ing.cdr.erase lane } } else s)

/-- The bring-up state of the links of a lane follows their lanes' locks (R173). -/
def State.linkProgress (s : State) (x : Nat) : State :=
  s.each (s.linksOf x) (fun s l =>
    if s.linkState l = 4 ∨ s.linkState l = 5 then s
    else
      let all (f : Nat → Fld) := (s.linkLanes l).all (fun y => y < 224 && s.on (lanePage y) (f (y % 8)))
      s.setLinkState l (if all Reg.LQD_LANE_STAT_EMB_LOCK then 3 else if all Reg.LQD_LANE_STAT_BLOCK_LOCK then 2 else 1))

/-- BLOCK_LOCK (R150, R151): inverted headers invert the receiver where POL_AUTO is 1. -/
def execBlockLock (t : Nat) (lane : Fin 224) (inverted : Bool) (s : State) : Host.Outcome State Fault Refusal :=
  let s := s.advance t
  let p := lanePage lane
  let i := lane.val % 8
  let auto := (s.rd p Reg.LQD_LANE_CTL_POL_AUTO).testBit i
  .next (if !s.laneOn lane || !s.ing.cdr.contains lane || (inverted && !auto) then s
    else
      let pol := if auto then (s.on p (Reg.LQD_LANE_STAT_POL_INV_ACT i)).xor inverted
        else (s.rd p Reg.LQD_LANE_CTL_POL_INV).testBit i
      (s.wrs p [(Reg.LQD_LANE_STAT_BLOCK_LOCK i, 1), (Reg.LQD_LANE_STAT_POL_INV_ACT i, b2n pol)]).linkProgress lane)

/-- EMB_LOCK (R150, R169). -/
def execEmbLock (t : Nat) (lane : Fin 224) (s : State) : Host.Outcome State Fault Refusal :=
  let s := s.advance t
  let p := lanePage lane
  .next (if s.laneOn lane && s.on p (Reg.LQD_LANE_STAT_BLOCK_LOCK (lane % 8)) then
    let s := s.wr p (Reg.LQD_LANE_STAT_EMB_LOCK (lane % 8)) 1
    ({ s with ing := { s.ing with lockAt := smInsert lane s.tick s.ing.lockAt } }).linkProgress lane else s)

/-- A lane loses its locks and goes back to step 2 (R150): its link, where it is UP, misses its data at the next release point, and is down
in its own right from now on where only the gating had taken it down (R173). -/
def State.laneLost (s : State) (x : Nat) : State :=
  let cause := s.laneCause
  let s := s.wrs (lanePage x) [(Reg.LQD_LANE_STAT_BLOCK_LOCK (x % 8), 0), (Reg.LQD_LANE_STAT_EMB_LOCK (x % 8), 0),
    (Reg.LQD_LANE_STAT_UP (x % 8), 0)]
  let s := (s.laneEvent x).linkProgress x
  s.each (s.linksOf x) (fun s l =>
    let s := s.setLnk l { s.lnk l with cause := cause }
    if (s.lnk l).gatedOnly then s.linkDown l (s.laneMask l x) cause else s)

/-- BLOCK_LOCK_LOST (R150). -/
def execBlockLockLost (t : Nat) (lane : Fin 224) (s : State) : Host.Outcome State Fault Refusal :=
  let s := s.advance t
  .next (if s.on (lanePage lane) (Reg.LQD_LANE_STAT_BLOCK_LOCK (lane % 8)) then s.laneLost lane else s)

/-- EMB_LOCK_LOST (R150). -/
def execEmbLockLost (t : Nat) (lane : Fin 224) (s : State) : Host.Outcome State Fault Refusal :=
  let s := s.advance t
  .next (if s.on (lanePage lane) (Reg.LQD_LANE_STAT_EMB_LOCK (lane % 8)) then s.laneLost lane else s)

/-! Multiblocks. -/

/-- The frames of an extended multiblock that have any octet in multiblock `mb` (R170). -/
def mbFrames (f mb : Nat) : Nat × Nat := if f = 0 then (0, 0) else (256 * mb / f, (256 * (mb + 1) - 1) / f)

/-- MULTIBLOCK_RECEIVE (R168, R170): on logical lane `j`, multiblock `mb` of the extended multiblock that is released at tick `release`, with
result 0 good, 1 FEC corrected `errs` errors, 2 FEC uncorrectable, 3 CRC-12 mismatch; 1 and 2 with CHECK at FEC, 3 with CHECK at
CRC-12 (R173). -/
def execMultiblockReceive (t : Nat) (l : Fin 64) (j : Fin 16) (release : Nat) (mb : Fin 32) (result : Fin 4) (errs : Nat) (s : State) :
    Host.Outcome State Fault Refusal :=
  let s := s.advance t
  let x := s.physLane l j
  let p := lanePage x
  let i := x % 8
  let fr := (release, mbFrames (s.octets l) mb)
  let check := s.rd (pg .lnk l) Reg.LNK_LINK_CFG_CHECK
  .next (if !s.linkOn l || s.gated || 224 ≤ x || (s.linkLanes l).length ≤ j || s.rd (pg .lnk l) Reg.LNK_LINK_CFG_E_M1 < mb ||
        (if result.val = 3 then check ≠ 1 else check ≠ 2) then s
    else match result.val with
      | 1 => s.bumpSat p (Reg.LQD_LANE_STAT_FEC_CORR i) errs
      | 2 =>
        let s := (s.wr p (Reg.LQD_LANE_STAT_FEC_UNC i) 1).bumpSat (pg .lnk l) Reg.LNK_ERR_CNT_FEC_UNC_CNT 1
        let s := s.setLnk l { s.lnk l with drop := fr :: (s.lnk l).drop, cause := s.laneCause }
        (s.event .lnk l 2).laneEvent x
      | 3 =>
        let s := (s.bumpSat p (Reg.LQD_LANE_STAT_CRC_ERR i) 1).bumpSat (pg .lnk l) Reg.LNK_ERR_CNT_CRC_CNT 1
        let y := { s.lnk l with cause := s.laneCause }
        let s := s.setLnk l (if s.on (pg .lnk l) Reg.LNK_LINK_CFG_CRC_ACTION then { y with drop := fr :: y.drop }
          else { y with crc := fr :: y.crc })
        s.event .lnk l 2
      | _ => s)

/-! Delivery. -/

/-- A converter code as a signed 16-bit sample (R148): offset binary converted, most significant bit aligned. -/
def State.alignCode (s : State) (l : Nat) (code : BitVec 16) : BitVec 16 :=
  let n := s.rd (pg .lnk l) Reg.LNK_LINK_CFG_N_M1 + 1
  let v := code.toNat % 2 ^ n
  let v := if s.on (pg .lnk l) Reg.LNK_LINK_CFG_OFFSET_BIN then (v + 2 ^ (n - 1)) % 2 ^ n else v
  BitVec.ofNat 16 (v * 2 ^ (16 - n))

/-- A sample is overranged (R166): by its control bit, or by a full-scale code. -/
def State.overranged (s : State) (l n : Nat) (x : LaneSample) : Bool :=
  let p := pg .lnk l
  let b := s.rd p Reg.LNK_LINK_CFG_N_M1 + 1
  let v := s.alignCode l x.code
  (s.on p Reg.LNK_LINK_CFG_OVR_CB_EN && x.cs.getLsbD (s.rd p Reg.LNK_LINK_CFG_OVR_CB)) ||
    (s.on (pg .slt n) Reg.SLT_SLT_CFG_OVR_CODE &&
      (v.toNat == 0x8000 || v.toNat == (2 ^ (b - 1) - 1) * 2 ^ (16 - b)))

/-- The sample that map entry `e` of link `l` takes from a frame (R159). -/
def State.mapSample (s : State) (l e : Nat) (frame : List LaneSample) : Option LaneSample :=
  frame.find? (fun x => x.conv.val == s.rd (pg .lnk l) (Reg.LNK_MAP_CONV e) && x.samp.val == s.rd (pg .lnk l) (Reg.LNK_MAP_SAMP e))

/-- The sample of slot `n` in frame `k` of link `l` (R148, R156, R159): I from the entry with Q = 0, Q from the one with
Q = 1. -/
def State.slotSample (s : State) (l n k : Nat) (crc : Bool) (frame : List LaneSample) : Option SlotSample :=
  let es := (List.range 64).filter (fun e => s.on (pg .lnk l) (Reg.LNK_MAP_VALID e) && s.rd (pg .lnk l) (Reg.LNK_MAP_SLOT e) == n)
  let part (q : Nat) := (es.find? (fun e => s.rd (pg .lnk l) (Reg.LNK_MAP_Q e) == q)).bind (fun e => s.mapSample l e frame)
  (part 0).map (fun x =>
    let y := part 1
    { i := s.alignCode l x.code, q := (y.map (fun z => s.alignCode l z.code)).getD 0
      ovr := s.overranged l n x || (y.map (s.overranged l n)).getD false
      crc := crc, b := (s.lnk l).base, k := k, fine := s.slotFine l n (s.lnk l).base k })

/-- Frame `k` of the release point at tick `b` arrives at the FIFO that the slots of source `n` share, `fclk` FCLK after the frame before it
(R164, R165): it is kept, or discarded in every slot. The FIFO gives one value per FCLK; a complex sample is two. -/
def State.fifoTake (s : State) (n b k fclk : Nat) : Bool × State :=
  let x := s.slt n
  if x.judged = some (b, k) then (!x.discarding, s)
  else
    let occ := x.occ - fclk
    let disc := if x.discarding then decide (32 < occ) else decide (64 ≤ occ)
    let occ' := if disc then occ else occ + (if s.slotComplex n then 2 else 1)
    let s := s.setSlt n { x with occ := occ', discarding := disc, judged := some (b, k) }
    let s := s.each (s.srcSlots n) (fun s m =>
      let s := (s.peak (pg .slt m) Reg.SLT_SLT_STAT_FIFO_MAX occ').setRaw (evId .slt m 0) disc
      if disc then s.wr (pg .slt m) Reg.SLT_SLT_STAT_OVERFLOW 1 else s)
    (!disc, s)

/-! Overrange (R167). -/

/-- The episode of a source after one more source sample. -/
def Episode.after (o : Option Episode) (stamp : SubTick) (ovr : Bool) : Option Episode :=
  match o, ovr with
  | none, true => some ⟨stamp, 1, 1, 1, 0⟩
  | none, false => none
  | some e, true => some { e with len := e.len + 1, lastOvr := e.len + 1, count := e.count + 1, clean := 0 }
  | some e, false => some { e with len := e.len + 1, clean := e.clean + 1 }

/-- The OVR_NOW bit of every slot of source `n` (R174). -/
def State.setOvrNow (s : State) (n v : Nat) : State :=
  s.each (s.srcSlots n) (fun s m => s.wr (pg .slt m) Reg.SLT_SLT_STAT_OVR_NOW v)

/-- The episode `e` of source `n` is over: OVR_GAP clean samples have followed, or 2^24 samples have passed from its first overranged
one. -/
def State.episodeOver (s : State) (n : Nat) (e : Episode) : Bool :=
  decide (s.rd (pg .slt n) Reg.SLT_SLT_CFG_OVR_GAP ≤ e.clean) || decide (2 ^ 24 ≤ e.len)

/-- The episode of source `n` ends where it is over: OVERRANGE records in the contexts on the source. -/
def State.episodeEnd (s : State) (n : Nat) : State :=
  match smFind n s.ing.epi with
  | none => s
  | some e =>
    if !s.episodeOver n e then s
    else
      let s := { s with ing := { s.ing with epi := smErase n s.ing.epi } }
      let s := s.setOvrNow n 0
      s.each (s.inputCtxs n) (fun s c =>
        s.record c 0x03 false false 0 e.lastOvr (e.first / 16) (n * 2 ^ 8 + e.first % 16) e.count)

/-- One source sample taken into the overrange episode of source `n`; an episode that is over ends before it. -/
def State.episode (s : State) (n : Nat) (x : SlotSample) : State :=
  let s := s.episodeEnd n
  let o := smFind n s.ing.epi
  match Episode.after o (sampleStamp x) x.ovr with
  | none => s
  | some e =>
    let s := { s with ing := { s.ing with epi := smInsert n e s.ing.epi } }
    if o.isNone then s.setOvrNow n 1 else s

/-! Frames. -/

/-- The source of slots `n` on has reached the frame stamped `fine`, in units of 2^-32 tick. -/
def State.srcReached (s : State) (n fine : Nat) : State := { s with ing := { s.ing with srcAt := smInsert n fine s.ing.srcAt } }

/-- A source frame, one sample per slice (R30, R162, R167): overrange on one slice marks the whole frame. -/
def State.sourceFrame (s : State) (n : Nat) (xs : List SlotSample) : State :=
  let s := s.each (inOrder xs) (fun s x => s.episode n x)
  let ovr := xs.any SlotSample.ovr
  let s := s.sourceInput n (xs.map (fun x => { x with ovr := ovr }))
  match xs.head? with
  | some x => s.srcReached n x.fine
  | none => s

/-- The frame of source `n` stamped `fine` is lost to `cause` (R162, R165, R170, R190). -/
def State.sourceLost (s : State) (n cause fine : Nat) : State :=
  let s := (s.t1Abandon n 7 (fineStamp fine)).oldLost n cause
  let s := s.each (s.inputCtxs n) (fun s c =>
    if fineStamp fine < (s.view c).cur.from_ then s else s.lose c cause (fineStamp fine) false)
  s.srcReached n fine

/-- Frame (b, k) comes before frame (b', k'). -/
def frameBefore (b k b' k' : Nat) : Bool := b < b' || (b == b' && k < k')

/-- The frames of source `n` whose slices have all been delivered, oldest first (R162); a frame that one slice does not have is lost. -/
def State.pairSource (s : State) (n : Nat) : Nat → State
  | 0 => s
  | fuel + 1 =>
    let ms := s.srcSlots n
    let heads := ms.filterMap (fun m => (s.slt m).wait.head?)
    match heads with
    | [] => s
    | h :: _ =>
      if heads.length < ms.length then s
      else
        let low := heads.foldl (fun a e => if frameBefore e.b e.k a.b a.k then e else a) h
        let now := heads.filter (fun e => e.b == low.b && e.k == low.k)
        let s := s.each ms (fun s m =>
          s.setSlt m { s.slt m with wait := (s.slt m).wait.dropWhile (fun e => e.b == low.b && e.k == low.k) })
        let base := low.b * 2 ^ 32 + s.rd (pg .slt n) Reg.SLT_SMP_PHASE_PHASE + low.k * s.slotPer n -
          s.rd (pg .lnk low.link) Reg.LNK_TS_ADJ_ADJ
        let s := if now.length = ms.length && now.all (fun e => e.smp.isSome) then s.sourceFrame n (now.filterMap WaitEntry.smp)
          else s.sourceLost n (if now.length < ms.length || now.any (fun e => e.drop) then 0x02 else 0x01) base
        s.pairSource n fuel

/-- Frame `k` of link `l` is in one of these ranges. -/
def inRanges (b k : Nat) (l : List (Nat × Nat × Nat)) : Bool := l.any (fun r => r.1 == b && r.2.1 ≤ k && k ≤ r.2.2)

/-- Frame `k` of the extended multiblock that link `l` released has its delivery instant in tick `t` or before (R567): B + k × SMP_PERIOD. -/
def State.frameDue (s : State) (l k t : Nat) : Bool :=
  match s.linkSlots l with
  | [] => true
  | n :: _ => decide ((s.lnk l).base + k * s.slotPer n / 2 ^ 32 ≤ t)

/-- FRAME_DELIVERY (R156, R162, R164 to R170, R567): the next frame of the extended multiblock that link `l` released, `fclk` FCLK after the
link's frame before it (R165: the converters' clock need not follow FCLK); the write buffers have drained by `drained0` and
`drained1` bytes since (R308). -/
def execFrameDelivery (t : Nat) (l : Fin 64) (frame : List LaneSample) (fclk drained0 drained1 : Nat)
    (s : State) : Host.Outcome State Fault Refusal :=
  let s := s.advance t
  let x := s.lnk l
  let k := x.frame
  let total := s.embFrames l
  .next (if !x.busy || s.gated || total ≤ k || !s.frameDue l k t then s
    else
      let s := s.bufDrain drained0 drained1
      let s := s.setLnk l { x with frame := k + 1, busy := decide (k + 1 < total) }
      let dropped := inRanges x.base k x.drop
      let slots := s.linkSlots l
      let s := s.each slots (fun s n =>
        let smp := if dropped then none else s.slotSample l n k (inRanges x.base k x.crc) frame
        let kept := match smp with
          | none => (false, s)
          | some _ => s.fifoTake (s.sourceOf n) x.base k fclk
        let s := kept.2
        let s := match smp with
          | some y => (s.bumpSat (pg .slt n) Reg.SLT_SLT_STAT_OVR_CNT (b2n y.ovr)).wrs (pg .slt n)
              [(Reg.SLT_SLT_STAT_ACTIVE, 1), (Reg.SLT_SLT_STAT_SRC_LINK, l)]
          | none => s
        s.setSlt n { s.slt n with wait := (s.slt n).wait ++ [⟨l, x.base, k, dropped, if kept.1 then smp else none⟩] })
      let s := s.each (s.linkSources l) (fun s n => s.pairSource n 4)
      if k + 1 = total && s.linkState l = 5 then s.linkStops l else s)

/-- OVERRANGE_EPISODE_END (R167): the episode of the source at slot `slot` is over. -/
def execOverrangeEpisodeEnd (t : Nat) (slot : Fin 256) (s : State) : Host.Outcome State Fault Refusal :=
  .next ((s.advance t).episodeEnd slot)

/-! Clears. -/

/-- A write of CNT_CLR (R172). -/
def State.laneClear (s : State) (q mask : Nat) : State :=
  s.each (bitsOf 8 mask) (fun s i => s.wrs (pg .lqd q)
    [(Reg.LQD_LANE_STAT_FEC_CORR i, 0), (Reg.LQD_LANE_STAT_CRC_ERR i, 0), (Reg.LQD_LANE_STAT_MARGIN i, 0)])

/-- LANE_CNT_CLEAR (R172). -/
def execLaneCntClear (t : Nat) (q : Fin 28) (mask : BitVec 8) (s : State) : Host.Outcome State Fault Refusal :=
  .next ((s.advance t).hosted (pg .lqd q) 0x150 mask.toNat (fun s => s.laneClear q mask.toNat))

/-- A write of ERR_CLR (R173). -/
def State.linkErrClear (s : State) (l : Nat) : State :=
  s.wrs (pg .lnk l) [(Reg.LNK_ERR_CNT_CRC_CNT, 0), (Reg.LNK_ERR_CNT_FEC_UNC_CNT, 0), (Reg.LNK_LINK_STAT_DOWN_CNT, 0)]

/-- LINK_ERR_CLEAR (R173). -/
def execLinkErrClear (t : Nat) (l : Fin 64) (s : State) : Host.Outcome State Fault Refusal :=
  .next ((s.advance t).hosted (pg .lnk l) 0x138 1 (fun s => s.linkErrClear l))

/-- A write of SLT_CLR (R174). -/
def State.slotClear (s : State) (n : Nat) : State :=
  s.wrs (pg .slt n) [(Reg.SLT_SLT_STAT_OVR_CNT, 0), (Reg.SLT_SLT_STAT_FIFO_MAX, 0)]

/-- SLOT_CLEAR (R174). -/
def execSlotClear (t : Nat) (n : Fin 256) (s : State) : Host.Outcome State Fault Refusal :=
  .next ((s.advance t).hosted (pg .slt n) 0x120 1 (fun s => s.slotClear n))

/-- The links as clock gating starts (R109, R173, R174): each UP link is down only because of the gating, its lanes align
again after the release, and what it had released is lost. -/
def State.linksGated (s : State) : State :=
  let s := s.each ((List.range 64).filter (fun l => (s.lnk l).busy || s.linkState l == 4)) (fun s l =>
    let s := s.setLnk l { s.lnk l with busy := false, origin := none }
    s.each (s.linkSlots l) (fun s n =>
      ((s.setSlt n { s.slt n with wait := [], discarding := false }).wr (pg .slt n) Reg.SLT_SLT_STAT_ACTIVE 0).setRaw (evId .slt n 0) false))
  s.each ((List.range 64).filter (fun l => s.linkState l == 4)) (fun s l =>
    let s := (s.setLinkState l 5).setLnk l { s.lnk l with gatedOnly := true }
    s.lanesRestart l)

end Sys2Proof.Machine
end

