-- ==== Sys2Proof/Machine/Gating.lean ====
section
/-!
DEFINITION. What the start of clock gating does to every block (R107, R109, R114 to R116).
-/
namespace Sys2Proof.Machine

/-- The trim in force as a lock target (R101, R113), in 10^-12. -/
def State.trim (s : State) : Int := s.rdS (pg .clk 0) Reg.CLK_FTRIM_ACT_ACT

/-- The keeper's increment per edge of a source of frequency `hz` (R114): 1.6 GHz × (1 + trim) / `hz` in 8.32, rounded half up. -/
def State.keepIncOf (s : State) (hz : Nat) : Nat :=
  let d := hz * 10 ^ 12
  let n := (1600000000 * ((10 : Int) ^ 12 + s.trim)).toNat * 2 ^ 32
  if d = 0 then 0 else (n + d / 2) / d

/-- What clocks the keeper now (R114): REFCLK with KEEP_INC, or, while the reference is lost, the holdover oscillator of 100 MHz
(notes/assumptions/152). -/
def State.keepSource (s : State) : Nat :=
  if s.on (pg .clk 0) Reg.CLK_PLL_STAT_REF_PRESENT then s.rd (pg .clk 0) Reg.CLK_KEEP_INC_INC else s.keepIncOf 100000000

/-- The CLOCK_LOSS of context `c` begins (R109, R115, R229): its frames in flight are discarded, and the spectral leap begins with the first of
their strides. -/
def State.gateLoss (s : State) (c : Nat) (est : Bool) : State :=
  let start := s.lossStart c
  match (s.xfc c).frames with
  | [] => s.lose c 0x06 start est
  | f :: _ =>
    let s := s.writeRuns c f.seq
    let ending := (s.xfc c).ending
    let s := s.setXfc c { s.xfc c with frames := [], runs := [], prev := none, cur := none, seq := f.seq }
    if ending then (if s.hasSpec c then s.loseSpan c true 0x06 f.start (s.nextStamp c - f.start) (s.samplesIn c (s.nextStamp c - f.start)) else s)
    else
      let s := s.openLeap c false 0x06 start est
      if s.hasSpec c then s.openLeap c true 0x06 (min f.start start) est else s

/-- The divided outputs are gated with GATE_CAUSE `cause` (R107): the keeper takes the timebase, tier-1 runs are
abandoned, links align again later, every channel
enters self-refresh, and the samples in flight are lost (R109, R114 to R116). Outputs already gated
stay so. -/
def State.gate (s : State) (cause : Nat) : State :=
  if s.gated then s
  else
    let s := (s.routerTo s.tick).levelsLost
    let s := s.wrs (pg .clk 0) [(Reg.CLK_PLL_STAT_GATED, 1), (Reg.CLK_PLL_STAT_GATE_CAUSE, cause)]
    let s := { s with clk := { s.clk with gateAt := s.tick, gateHoldover := false, keep := some (s.tick, 0, s.keepSource) } }
    let s := (s.wr (pg .tmb 0) Reg.TMB_KEEP_STAT_ACTIVE 1).event .tmb 0 0
    let s := s.occur 10 0
    let s := s.each ((s.ic.map Prod.fst)) (fun s n => s.t1Lost n 6)
    let s := s.each ((List.range 64).filter (fun c => s.chanState c == 2)) (fun s c => s.wr (pg .mch c) Reg.MCH_MCH_STAT_STATE 3)
    let s := s.each s.running (fun s c => s.gateLoss c (cause == 2))
    s.linksGated

end Sys2Proof.Machine
end

