-- ==== Sys2Proof/Machine/Clocks.lean ====
section
/-!
DEFINITION. The root PLL, its band table, gating and release, the trim, SYSREF and the timebase (R99 to R125).
-/
namespace Sys2Proof.Machine

/-! Locks. -/

/-- The VCO target in kHz × 10^12 (R101). -/
def State.vcoTarget (s : State) : Nat := (12800000 * ((10 : Int) ^ 12 + s.trim)).toNat

/-- The feedback divider for reference frequency `hz` (R101): target / REF_HZ in units of 2^-32, rounded half up. -/
def State.feedback (s : State) (hz : Nat) : Nat :=
  if hz = 0 then 0 else (s.vcoTarget * 2 ^ 33 + hz * 10 ^ 9) / (2 * (hz * 10 ^ 9))

/-! The divided clocks (R105). -/

/-- A clock divided from the VCO. -/
inductive Divided
  | fclk | cclk | mclk | hbmPhy | sclk | tclk | pclk (h : Nat) | jesd | hkMod
  deriving DecidableEq, Repr

/-- The division of a clock, as a fraction: `n` VCO cycles give `m` cycles of it. -/
def State.division (s : State) : Divided → Nat × Nat
  | .fclk | .cclk | .mclk | .tclk => (8, 1)
  | .hbmPhy => (4, 1)
  | .sclk => (16, 1)
  | .pclk h => (s.rd (pg .dsp h) Reg.DSP_PCLK_DIV_I * 2 ^ 24 + s.rd (pg .dsp h) Reg.DSP_PCLK_DIV_F, 2 ^ 24)
  | .jesd => (s.rd (pg .clk 0) Reg.CLK_JESD_DIV_D_ACT, 1)
  | .hkMod => (1000, 1)

/-- A divided clock's frequency at the target, in mHz (R105): it scales with the trim. -/
def State.divFreq (s : State) (d : Divided) : Nat :=
  let x := s.division d
  s.vcoTarget * x.2 / (x.1 * 10 ^ 6)

/-- The clock branches that gating stops (R105): all but TCLK. -/
def Divided.gates (d : Divided) : Bool := d != .tclk

/-- The divided outputs in the order in which the frequency checker measures them (R106 step 3). -/
def checkedOutputs : List Divided := [.fclk, .cclk, .mclk, .hbmPhy, .sclk, .tclk, .pclk 0, .pclk 1, .jesd, .hkMod]

/-- One checker window with the outputs' measured frequencies in mHz: every output within ±0.1 % of its target. -/
def State.windowOk (s : State) (w : List Nat) : Bool :=
  w.length == checkedOutputs.length && (checkedOutputs.zip w).all (fun x =>
    let f := s.divFreq x.1
    decide (f * 999 ≤ x.2 * 1000) && decide (x.2 * 1000 ≤ f * 1001))

/-- FCHK.FCLK_ERR (R124): the error of FCLK, measured as `f` mHz, in units of 10 ppm, rounded half up. -/
def State.fclkErr (s : State) (f : Nat) : Int :=
  let g : Int := s.divFreq .fclk
  (2 * ((f : Int) - g) * 100000 + g) / (2 * g)

/-- GATE_REF as it acts (R124), and one checker window in ticks. -/
def State.gateRef (s : State) : Nat := max 1024 (s.rd (pg .clk 0) Reg.CLK_FCHK_GATE_REF)
def State.checkWindow (s : State) (hz : Nat) : Nat := s.gateRef * 1600000000 / max 1 hz

/-! The keeper and the reference-loss detector. -/

/-- The keeper goes on from the present tick with its present source; the fraction is carried (R114). -/
def State.keepOn (s : State) : State := match s.clk.keep with
  | none => s
  | some k => { s with clk := { s.clk with keep := some (s.tick, keepSum k s.tick % 2 ^ 32, s.keepSource) } }

/-- D, the samples without a change that declare a loss (R100): max(4, ⌈4 × 100 MHz / REF_HZ⌉). -/
def State.lossSamples (s : State) : Nat := max 4 ((400000000 + s.clk.hz - 1) / max 1 s.clk.hz)

/-- The detector's samples of its 4-bit Gray-coded counter, newest first, declare a loss (R100): D in succession show no change. -/
def State.lossSeen (s : State) (samples : List (BitVec 4)) : Bool :=
  let l := samples.take (s.lossSamples + 1)
  l.length == s.lossSamples + 1 && l.all (fun x => some x == l.head?)

/-- Band `b` qualifies (R102): VALID, and its range holds the target with 0.5 % margin to each edge. -/
def State.bandFits (s : State) (b : Nat) : Bool :=
  s.on (pg .clk 0) (Reg.CLK_BAND_VALID b) &&
    (s.rd (pg .clk 0) (Reg.CLK_BAND_F_LO_KHZ b) * 1005 * 10 ^ 9 ≤ s.vcoTarget &&
      s.vcoTarget ≤ s.rd (pg .clk 0) (Reg.CLK_BAND_F_HI_KHZ b) * 995 * 10 ^ 9)

/-- Twice the distance of the target from the centre of band `b`. -/
def State.bandMiss (s : State) (b : Nat) : Nat :=
  let c := (s.rd (pg .clk 0) (Reg.CLK_BAND_F_LO_KHZ b) + s.rd (pg .clk 0) (Reg.CLK_BAND_F_HI_KHZ b)) * 10 ^ 12
  (2 * s.vcoTarget - c) + (c - 2 * s.vcoTarget)

/-- The band that R102 takes among those not tried yet. -/
def State.chooseBand (s : State) : Option Nat :=
  ((List.range 64).filter (fun b => s.bandFits b && !s.clk.tried.contains b)).foldl
    (fun o b => match o with
      | none => some b
      | some x => if s.bandMiss b < s.bandMiss x then some b else some x) none

/-- The step in progress of a lock (R106). -/
def State.setPhase (s : State) (n : Nat) : State := { s with clk := { s.clk with phase := n, phaseAt := s.now } }

/-- 10 ms (R110). -/
def lockRetryTicks : Nat := 16000000

/-- A lock fails with `cause` (R106, R110): FAIL_CAUSE, and LOCK_FAIL; its retry is due 10 ms on. -/
def State.lockFail (s : State) (cause : Nat) : State :=
  let s := s.setPhase 0
  let s := { s with clk := { s.clk with tried := [], retryAt := some (s.now + lockRetryTicks) } }
  (s.wrs (pg .clk 0) [(Reg.CLK_PLL_STAT_FAIL_CAUSE, cause), (Reg.CLK_PLL_STAT_LOCKED, 0)]).event .clk 0 3

/-- The lock goes on with the next qualifying band, or fails (R102, R106). -/
def State.nextBand (s : State) : State :=
  match s.chooseBand with
  | some b =>
    let s := s.setPhase 1
    let s := { s with clk := { s.clk with tried := b :: s.clk.tried } }
    s.wrs (pg .clk 0) [(Reg.CLK_PLL_STAT_BAND_ACT, b), (Reg.CLK_PLL_STAT_LOCKED, 0)]
  | none => s.lockFail (if s.clk.tried.isEmpty then 1 else 2)

/-- A lock starts (R99, R101, R106, R113): REF_HZ and the trim target are taken, with the feedback divider, KEEP_INC and D;
AUTO_REARM arms in mode 0b01. A TARGET that the slew had not yet reached is taken as one written while gated
(notes/assumptions/153). Without a reference no lock starts; at start-up that counts as a failed one, retried after 10 ms (R128). -/
def State.lockStart (s : State) : State :=
  let p := pg .clk 0
  let s := { s with clk := { s.clk with retryAt := none } }
  if !s.on p Reg.CLK_PLL_STAT_REF_PRESENT then
    let s := s.setPhase 0
    if s.clk.counting then s else { s with clk := { s.clk with retryAt := some (s.now + lockRetryTicks) } }
  else
    let hz := s.rd p Reg.CLK_REF_CFG_REF_HZ
    let s := s.wr p Reg.CLK_FTRIM_ACT_ACT (s.rd p Reg.CLK_FTRIM_TARGET)
    let s := { s with clk := { s.clk with hz := hz, div := s.feedback hz } }
    let s := (s.wr p Reg.CLK_KEEP_INC_INC (s.keepIncOf hz)).keepOn
    let s := s.wr p Reg.CLK_JESD_DIV_D_ACT (s.rd p Reg.CLK_JESD_DIV_D)
    let s := s.when (s.rd p Reg.CLK_SYSREF_CTL_MODE == 1 && s.on p Reg.CLK_SYSREF_CTL_AUTO_REARM)
      (fun s => s.wr p Reg.CLK_SYSREF_CTL_ARM 1)
    let s := { s with clk := { s.clk with tried := [] } }
    if hz < 50000000 ∨ 500000000 < hz then s.lockFail 3 else s.nextBand

/-- A lock starts where AUTO_RELOCK is 1 (R110). -/
def State.autoLock (s : State) : State :=
  if s.clk.phase = 9 then s
  else if s.on (pg .clk 0) Reg.CLK_REF_CFG_AUTO_RELOCK then s.lockStart else s

/-- REF_LOST (R100, R107, R114): the detector's samples of its edge counter, newest first. -/
def execRefLost (t : Nat) (samples : List (BitVec 4)) (s : State) : Host.Outcome State Fault Refusal :=
  let s := s.advance t
  .next (if !s.on (pg .clk 0) Reg.CLK_PLL_STAT_REF_PRESENT || !s.lossSeen samples then s
    else
      let s := s.wrs (pg .clk 0) [(Reg.CLK_PLL_STAT_REF_PRESENT, 0), (Reg.CLK_PLL_STAT_LOCKED, 0)]
      let s := ((s.event .clk 0 1).gate 2).keepOn
      let held := s.clk.gateHoldover
      let s := if s.clk.phase = 9 then s else s.setPhase 0
      let s := { s with clk := { s.clk with gateHoldover := true } }
      (s.each s.running State.clockEst).eventIf (!held) .tmb 0 2)

/-- REF_PRESENT (R100, R110): edges have continued for `periods` periods of the holdover oscillator; 1 ms is 100,000. A lock starts,
also at step 5 of start-up; a run of BAND_CAL goes on. -/
def execRefPresent (t : Nat) (periods : Nat) (s : State) : Host.Outcome State Fault Refusal :=
  let s := s.advance t
  .next (if s.on (pg .clk 0) Reg.CLK_PLL_STAT_REF_PRESENT || periods < 100000 then s
    else
      let s := (s.wr (pg .clk 0) Reg.CLK_PLL_STAT_REF_PRESENT 1).keepOn
      if s.gated && (s.clk.counting || s.rd (pg .glb 0) Reg.GLB_BOOT_STAT_STEP == 5) then s.autoLock else s)

/-- A write of PLL_CTL.RELOCK (R107, R124). A run of BAND_CAL in progress is given up (notes/assumptions/154). -/
def State.relock (s : State) : State := ((s.gate 3).wr (pg .clk 0) Reg.CLK_PLL_CTL_BAND_CAL 0).lockStart

/-- RELOCK (R124). -/
def execRelock (t : Nat) (s : State) : Host.Outcome State Fault Refusal :=
  .next ((s.advance t).hosted (pg .clk 0) 0x108
    (1 + 4 * s.rd (pg .clk 0) Reg.CLK_PLL_CTL_GATE_HOLD) State.relock)

/-- PHASE_LOCK_DETECT (R106 step 2). -/
def execPhaseLockDetect (t : Nat) (s : State) : Host.Outcome State Fault Refusal :=
  let s := s.advance t
  .next (if s.clk.phase = 1 then
    (s.setPhase 2).wr (pg .clk 0) Reg.CLK_PLL_STAT_LOCKED 1 else s)

/-- FREQUENCY_CHECK_DONE (R106 step 3): two consecutive windows of GATE_REF REFCLK periods have ended, with the frequencies in mHz
that they measured on `checkedOutputs`. -/
def execFrequencyCheckDone (t : Nat) (w1 w2 : List Nat) (s : State) : Host.Outcome State Fault Refusal :=
  let s := s.advance t
  let p := pg .clk 0
  .next (if s.clk.phase ≠ 2 || s.now < s.clk.phaseAt + 2 * s.checkWindow s.clk.hz then s
    else
      let s := s.wrS p Reg.CLK_FCHK_FCLK_ERR (s.fclkErr (w2.headD 0))
      if !(s.windowOk w1 && s.windowOk w2) then s.nextBand
      else
        let wait := s.rd p Reg.CLK_SYSREF_CTL_MODE == 1 && s.on p Reg.CLK_SYSREF_CTL_ARM
        s.setPhase (if wait then 4 else 5))

/-- SYSREF_WAIT_EXPIRY (R106 step 4): SYSREF_WAIT ms have passed without an edge. -/
def execSysrefWaitExpiry (t : Nat) (s : State) : Host.Outcome State Fault Refusal :=
  let s := s.advance t
  .next (if s.clk.phase = 4 && decide (s.clk.phaseAt + s.rd (pg .clk 0) Reg.CLK_SYSREF_CTL_SYSREF_WAIT * 1600000 ≤ s.now) then s.lockFail 4
    else s)

/-- LOCK_LOST (R106, R107): while released it gates the outputs; from step 2 of a lock on it is a failure of step 3, and steps 1 and 2
are one phase here, whose sender reports no error of the acquisition. -/
def execLockLost (t : Nat) (s : State) : Host.Outcome State Fault Refusal :=
  let s := s.advance t
  .next (if !s.gated then
      let s := (s.wr (pg .clk 0) Reg.CLK_PLL_STAT_LOCKED 0).event .clk 0 0
      (s.gate 1).autoLock
    else if [1, 2, 4, 5].contains s.clk.phase then s.nextBand else s)

/-- A write of PLL_CTL.BAND_CAL (R104): refused while any context runs. -/
def State.bandCal (s : State) : State :=
  if !s.running.isEmpty then s
  else
    let s := (s.gate 5).setPhase 9
    ({ s with clk := { s.clk with retryAt := none } }).wrs (pg .clk 0) [(Reg.CLK_PLL_CTL_BAND_CAL, 1), (Reg.CLK_PLL_STAT_LOCKED, 0)]

/-- BAND_CAL (R104). -/
def execBandCal (t : Nat) (s : State) : Host.Outcome State Fault Refusal :=
  .next ((s.advance t).hosted (pg .clk 0) 0x108
    (2 + 4 * s.rd (pg .clk 0) Reg.CLK_PLL_CTL_GATE_HOLD) State.bandCal)

/-- The stored band table loaded (R103): its words unchanged, from band 0 on. -/
def State.bandTable (s : State) (words : List Word) : State :=
  s.each ((List.range 64).zip words) (fun s x => s.wrs (pg .clk 0)
    [(Reg.CLK_BAND_F_LO_KHZ x.1, bits x.2.toNat 23 0), (Reg.CLK_BAND_TEMP_C x.1, bits x.2.toNat 31 24),
     (Reg.CLK_BAND_F_HI_KHZ x.1, bits x.2.toNat 55 32), (Reg.CLK_BAND_VALID x.1, bit x.2.toNat 63)])

/-- A frequency in kHz (R104): 8 × count × REF_HZ / GATE_REF, rounded down (notes/assumptions/155). -/
def State.bandKhz (s : State) (count : Nat) : Nat := 8 * count * s.rd (pg .clk 0) Reg.CLK_REF_CFG_REF_HZ / (s.gateRef * 1000)

/-- The band table as measured (R104): the FCLK-branch counts over one window at the lowest and the highest tuning voltage. -/
def State.bandMeasure (s : State) (bands : List BandCount) : State :=
  s.each ((List.range 64).zip bands) (fun s x => s.wrs (pg .clk 0)
    [(Reg.CLK_BAND_F_LO_KHZ x.1, s.bandKhz x.2.lo), (Reg.CLK_BAND_F_HI_KHZ x.1, s.bandKhz x.2.hi), (Reg.CLK_BAND_TEMP_C x.1, x.2.temp.toNat),
     (Reg.CLK_BAND_VALID x.1, b2n (s.bandKhz x.2.lo < s.bandKhz x.2.hi))])

/-- How long a run of BAND_CAL takes (R104): 2 × (10 µs + one window) for each of 64 bands. -/
def State.bandCalTicks (s : State) : Nat := 128 * (16000 + s.checkWindow (s.rd (pg .clk 0) Reg.CLK_REF_CFG_REF_HZ))

/-- BAND_CAL_DONE (R104, R128): all bands are measured, and a lock starts; at step 4 of start-up that is step 5. -/
def execBandCalDone (t : Nat) (bands : List BandCount) (s : State) : Host.Outcome State Fault Refusal :=
  let s := s.advance t
  .next (if s.clk.phase ≠ 9 || s.now < s.clk.phaseAt + s.bandCalTicks then s
    else
      let s := ((s.bandMeasure bands).wr (pg .clk 0) Reg.CLK_PLL_CTL_BAND_CAL 0).event .clk 0 9
      (if s.rd (pg .glb 0) Reg.GLB_BOOT_STAT_STEP = 4 then s.wr (pg .glb 0) Reg.GLB_BOOT_STAT_STEP 5 else s).lockStart)

/-- Start-up stops with a FAIL_CODE (R128, R133). -/
def State.bootFail (s : State) (code detail : Nat) : State :=
  (s.wrs (pg .glb 0) [(Reg.GLB_BOOT_STAT_FAILED, 1), (Reg.GLB_BOOT_STAT_FAIL_CODE, code),
    (Reg.GLB_BOOT_STAT_FAIL_DETAIL, detail)]).event .glb 0 2

/-- LOCK_RETRY (R110, R128): 10 ms after the lock failed; at start-up for 1 s, after which start-up stops. -/
def execLockRetry (t : Nat) (s : State) : Host.Outcome State Fault Refusal :=
  let s := s.advance t
  let p := pg .clk 0
  .next (if s.clk.phase ≠ 0 || !s.gated || !s.clk.retryAt.any (fun x => decide (x ≤ s.now)) ||
        !s.on p Reg.CLK_REF_CFG_AUTO_RELOCK || s.on (pg .glb 0) Reg.GLB_BOOT_STAT_FAILED then s
    else if !s.clk.counting && 100 ≤ s.boot.lockTries then
      s.bootFail 0x20 (s.rd p Reg.CLK_PLL_STAT_FAIL_CAUSE)
    else ({ s with boot := { s.boot with lockTries := s.boot.lockTries + 1 } }).lockStart)

/-- GATE_HOLD_CLEAR (R111, R124): the outputs may be released at step 5. -/
def execGateHoldClear (t : Nat) (s : State) : Host.Outcome State Fault Refusal :=
  .next ((s.advance t).hosted (pg .clk 0) 0x108 0 (fun s => s.wr (pg .clk 0) Reg.CLK_PLL_CTL_GATE_HOLD 0))

/-- The outputs can be released (R106 step 5, R111). -/
def State.canRelease (s : State) : Bool := s.clk.phase == 5 && !s.on (pg .clk 0) Reg.CLK_PLL_CTL_GATE_HOLD

/-- The divided outputs are released (R106, R114, R115): the keeper stops. Every running context has a CLOCK record of the gap due, which
it writes with the end of its CLOCK_LOSS leap, at its first delivered sample. FAIL_CAUSE tells of the lock just made
(notes/assumptions/156); the bound of 2 % is rounded up to a whole tick (notes/assumptions/157). -/
def State.release (s : State) : State :=
  let p := pg .clk 0
  let first := !s.clk.counting
  let s := if first then
      { s with tick := s.clk.startAt, clk := { s.clk with counting := true }
               page := { s.page with held := s.page.held.map (fun h => { h with at_ := h.at_ - s.upTime + s.clk.startAt }) } } else s
  let gap := s.tick - s.clk.gateAt
  let hold := s.clk.gateHoldover
  let aligned := !first && decide (s.clk.gateAt ≤ s.ing.lemcAt)
  let s := if aligned then s else { s with ing := { s.ing with lemcAt := s.tick } }
  let s := { s with clk := { s.clk with phase := 0, tried := [], gateHoldover := false, keep := none } }
  let s := s.wrs p [(Reg.CLK_PLL_STAT_GATED, 0), (Reg.CLK_PLL_STAT_FAIL_CAUSE, 0)]
  let s := (s.bump p Reg.CLK_PLL_STAT_RELEASE_CNT 1).event .clk 0 2
  if first then s
  else
    let s := s.wrs (pg .tmb 0) [(Reg.TMB_KEEP_STAT_LAST_GAP, min gap (2 ^ 32 - 1)), (Reg.TMB_KEEP_STAT_HOLDOVER, b2n hold),
      (Reg.TMB_KEEP_STAT_ACTIVE, 0)]
    let s := s.event .tmb 0 1
    s.each s.running (fun s c => s.clockDue c (s.rd p Reg.CLK_PLL_STAT_GATE_CAUSE) gap hold)

/-! The trim. -/

/-- A write of FTRIM (R112). -/
def State.ftrimWrite (s : State) (target : BitVec 32) (slew : Nat) : State :=
  let lim := clampInt (-200000000) 200000000 target.toInt
  let s := s.wr (pg .clk 0) Reg.CLK_FTRIM_SLEW slew
  (s.wrS (pg .clk 0) Reg.CLK_FTRIM_TARGET lim).eventIf (lim != target.toInt) .clk 0 4

/-- FTRIM_WRITE (R112). -/
def execFtrimWrite (t : Nat) (target : BitVec 32) (slew : BitVec 17) (s : State) : Host.Outcome State Fault Refusal :=
  .next ((s.advance t).hosted (pg .clk 0) 0x118 (slew.toNat * 2 ^ 32 + target.toNat)
    (fun s => s.ftrimWrite target slew.toNat))

/-- TRIM_STEP (R101, R112): once every 1 µs, while the outputs are released, the active trim moves by at most SLEW, and the feedback
divider with it. -/
def execTrimStep (t : Nat) (s : State) : Host.Outcome State Fault Refusal :=
  let s := s.advance t
  let p := pg .clk 0
  let slew : Int := min (s.rd p Reg.CLK_FTRIM_SLEW) 100000
  let d := s.rdS p Reg.CLK_FTRIM_TARGET - s.trim
  .next (if s.gated || s.tick < s.clk.trimAt + 1600 then s
    else
      let s := s.wrS p Reg.CLK_FTRIM_ACT_ACT (s.trim + clampInt (-slew) slew d)
      { s with clk := { s.clk with trimAt := s.tick, div := s.feedback s.clk.hz } })

/-! SYSREF and the timebase. -/

/-- The time code runs: the page works and EN is 1; this module is the source (R354, R366). -/
def State.dlbOn (s : State) : Bool := s.working (pg .dlb 0) && s.on (pg .dlb 0) Reg.DLB_DLB_CFG_EN
def State.dlbSource (s : State) : Bool := s.dlbOn && s.on (pg .dlb 0) Reg.DLB_DLB_CFG_SOURCE
def State.dlbFollower (s : State) : Bool := s.dlbOn && !s.on (pg .dlb 0) Reg.DLB_DLB_CFG_SOURCE

/-- This module's position on the Deltan bus. -/
def State.dlbPos (s : State) : Nat := if s.on (pg .dlb 0) Reg.DLB_DLB_CFG_SOURCE then 0 else s.rd (pg .dlb 0) Reg.DLB_DLB_CFG_POS

/-- d_p in sub-ticks; the source's own delay is 0. -/
def State.dlbDelay (s : State) (p : Nat) : Nat := if p = 0 then 0 else s.rd (pg .dlb 0) (Reg.DLB_DLB_DELAY_DELAY p)

/-- The polarity of pair `j` of the Deltan bus as decided (R90, R355). -/
def State.setDlbPol (s : State) (j : Nat) (inv : Bool) : State :=
  let w := s.rd (pg .dlb 0) Reg.DLB_DLB_STAT_POL_INV
  (s.wr (pg .dlb 0) Reg.DLB_DLB_STAT_POL_INV (putBit w j inv)).eventIf (inv && !w.testBit j) .dlb 0 4

/-- SYSREF comes from DLT[6] (R358, R366): the receivers are enabled, and the page is not OFF. -/
def State.sysrefDlt (s : State) : Bool :=
  let p := pg .dlb 0
  s.enAct p == 1 && s.pstateAct p != 3 && s.on p Reg.DLB_DLB_CFG_EN && s.on p Reg.DLB_DLB_CFG_SYSREF_SRC

/-- What TB_ALIGN_VAL is raised by in a follower that takes SYSREF from DLT[6] (R358): its delay, rounded to ticks. -/
def State.alignRaise (s : State) : Nat :=
  if s.sysrefDlt && !s.on (pg .dlb 0) Reg.DLB_DLB_CFG_SOURCE then (s.dlbDelay s.dlbPos + 8) / 16 else 0

/-- TB_ALIGN_VAL loaded at an aligning edge, 16 ticks after it (R118, R120, R130). -/
def State.tbLoad (s : State) : State :=
  let v := (s.rd (pg .tmb 0) Reg.TMB_TB_ALIGN_VAL_VAL + s.alignRaise) % 2 ^ 64
  if !s.on (pg .clk 0) Reg.CLK_SYSREF_CTL_TB_ALIGN then s
  else if !s.clk.counting then { s with clk := { s.clk with startAt := v } }
  else
    let old := s.tick + 16
    if v < old then s.event .tmb 0 3
    else if v = old then s
    else
      let s := { s with tick := v, clk := { s.clk with keep := s.clk.keep.map (fun (k : Nat × Nat × Nat) => (v, 0, k.2.2)) } }
      let s := s.each s.running (fun s c => s.clockRecord c false 2 0 v 0 old)
      s.event .tmb 0 4

/-- An aligning edge that is applied (R117, R118, R153): the dividers restart with the TCLK edge 16 ticks on, those of the LEMCs too
(notes/assumptions/160); D is taken, ARM clears. -/
def State.align (s : State) (falling : Bool) : State :=
  let p := pg .clk 0
  let auto := s.rd p Reg.CLK_SYSREF_CTL_EDGE_SEL == 0 || s.rd p Reg.CLK_SYSREF_CTL_EDGE_SEL == 3
  let inv := auto && falling
  let was := s.on p Reg.CLK_SYSREF_STAT_REF_INV
  let s := s.wrs p [(Reg.CLK_SYSREF_CTL_ARM, 0), (Reg.CLK_JESD_DIV_D_ACT, s.rd p Reg.CLK_JESD_DIV_D),
    (Reg.CLK_SYSREF_STAT_REF_INV, b2n (if auto then inv else was))]
  let s := s.eventIf (inv && !was) .clk 0 8
  let old := s.tick
  let s := s.tbLoad
  let s := { s with ing := { s.ing with lemcAt := if s.tick = old then old + 16 else s.tick } }
  s.event .clk 0 5

/-- SYSREF's polarity from its high and low time in ps, summed over 16 pulses as received (R90, R91): inverted where the high time is
the longer by more than 2 REFCLK periods a pulse and not within 40 % to 60 % of the period, where it is unresolved and the received
rising edge is used. The parts: inverted, unresolved. -/
def State.sysrefPol (s : State) (high low : Nat) : Bool × Bool :=
  let unres := decide (2 * (high + low) ≤ 5 * high) && decide (5 * high ≤ 3 * (high + low))
  (!unres && decide (32 * 10 ^ 12 < (high - low) * s.clk.hz), unres)

/-- SYSREF_EDGE (R90, R91, R106, R117 to R120): an edge with its measured phase in VCO cycles, the high and low time summed over the
16 pulses that end with it, where 16 have been measured, and whether it was launched from the falling REFCLK edge; in monitor mode an edge off a link's LEMC boundary
adds its distance (R153). An armed edge
that comes while the outputs are gated, outside step 4 of a lock, leaves ARM set (notes/assumptions/158). -/
def execSysrefEdge (t : Nat) (phaseErr : BitVec 16) (pulses : Option (Nat × Nat)) (falling : Bool) (s : State) :
    Host.Outcome State Fault Refusal :=
  let s := s.advance t
  let p := pg .clk 0
  let s := s.bump p Reg.CLK_SYSREF_STAT_SEEN_CNT 1
  let s := match pulses with
    | none => s
    | some (high, low) =>
      let (inv, unres) := s.sysrefPol high low
      let was := s.on p Reg.CLK_SYSREF_STAT_POL_INV || s.on p Reg.CLK_SYSREF_STAT_POL_UNRES
      let dlt := s.sysrefDlt
      let s := if dlt then s.setDlbPol 6 inv else s
      let inv := inv && !dlt
      (s.wrs p [(Reg.CLK_SYSREF_STAT_POL_INV, b2n inv), (Reg.CLK_SYSREF_STAT_POL_UNRES, b2n unres)]).eventIf
        ((inv || unres) && !was) .clk 0 7
  let armed := s.on p Reg.CLK_SYSREF_CTL_ARM
  .next (match s.rd p Reg.CLK_SYSREF_CTL_MODE with
    | 2 => s.wr p Reg.CLK_SYSREF_STAT_PHASE_ERR (unsigned 16 (phaseErr.toInt + s.lemcError (s.tick + 16)))
    | 1 =>
      if !armed then s
      else if s.clk.phase = 4 then
        let s := (s.wr p Reg.CLK_SYSREF_STAT_PHASE_ERR phaseErr.toNat).align falling
        s.setPhase 5
      else if s.gated then s
      else
        let s := s.wr p Reg.CLK_SYSREF_STAT_PHASE_ERR phaseErr.toNat
        if s.running.isEmpty then s.align falling
        else
          let s := s.wr p Reg.CLK_SYSREF_CTL_ARM 0
          s.eventIf (1 < phaseErr.toInt || phaseErr.toInt < -1) .clk 0 6
    | _ => s)

/-- SYSREF_ARM (R117). -/
def execSysrefArm (t : Nat) (s : State) : Host.Outcome State Fault Refusal :=
  let p := pg .clk 0
  let w := s.rd p Reg.CLK_SYSREF_CTL_SYSREF_WAIT * 2 ^ 32 + s.rd p Reg.CLK_SYSREF_CTL_EDGE_SEL * 2 ^ 6 +
    s.rd p Reg.CLK_SYSREF_CTL_MODE * 2 ^ 4 + s.rd p Reg.CLK_SYSREF_CTL_TB_ALIGN * 2 ^ 3 +
    s.rd p Reg.CLK_SYSREF_CTL_AUTO_REARM * 2 ^ 2 + 1
  .next ((s.advance t).hosted p 0x140 w (fun s => s.wr p Reg.CLK_SYSREF_CTL_ARM 1))

/-- PTP time of tick `t` (R122): seconds, and nanoseconds in units of 2^-16 ns. -/
def State.ptpOf (s : State) (t : Nat) : Nat × Nat :=
  let p := pg .tmb 0
  let n := s.rdA p Reg.TMB_PTP_NS_NS * 65536 + s.rdA p Reg.TMB_PTP_NS_FRAC + t * 40960
  (s.rdA p Reg.TMB_PTP_SEC_SEC + n / (10 ^ 9 * 65536), n % (10 ^ 9 * 65536))

/-- A write of SNAP.TAKE (R125). -/
def State.tbSnap (s : State) : State :=
  let x := s.ptpOf s.tick
  s.wrs (pg .tmb 0) [(Reg.TMB_SNAP_TICK_TICKS, s.tick), (Reg.TMB_SNAP_SEC_SEC, x.1), (Reg.TMB_SNAP_NS_NS_FRAC, x.2)]

/-- TIMEBASE_SNAP (R125). -/
def execTimebaseSnap (t : Nat) (s : State) : Host.Outcome State Fault Refusal :=
  .next ((s.advance t).hosted (pg .tmb 0) 0x120 1 State.tbSnap)

/-- TMB shadow group 0 at its apply point (R122): refused whole where PTP_NS.NS holds 10^9 or more; else the offset
changes between two ticks and every running context writes an OFFSET record. -/
def State.tmbApply (s : State) : State :=
  let p := pg .tmb 0
  if !(s.rd p Reg.SH_CTL_COMMIT).testBit 0 then s
  else
    let s := s.wr p Reg.SH_CTL_COMMIT 0
    let ns := s.shadow p Reg.TMB_PTP_NS_NS
    if 10 ^ 9 ≤ ns then s.event .tmb 0 5
    else
      let sec := s.shadow p Reg.TMB_PTP_SEC_SEC
      let frac := s.shadow p Reg.TMB_PTP_NS_FRAC
      let s := ((s.wrA p Reg.TMB_PTP_SEC_SEC sec).wrA p Reg.TMB_PTP_NS_NS ns).wrA p Reg.TMB_PTP_NS_FRAC frac
      let s := s.bump p Reg.SH_STAT_APPLY_SEQ 1
      s.each s.running (fun s c => s.clockRecord c false 3 0 (s.tick + 1) (sec * 2 ^ 16) (ns * 2 ^ 32 + frac * 2 ^ 16))

end Sys2Proof.Machine
end

