-- ==== Sys2Proof/Machine/Drains.lean ====
section
/-!
DEFINITION. Where the drains of a context read: their sources, what they read there, and what an equinox leaves for them (R18, R25, R304, R334 to
R336, R345, R411, R412, R418).
-/
namespace Sys2Proof.Machine

/-- Where a drain reads from: area, item bytes, the drain's place and the items written. -/
structure DrainSrc where
  base : Nat
  size : Nat
  item : Nat
  pos : Nat
  written : Nat
  deriving DecidableEq, Repr

/-- Items that the area holds. -/
def DrainSrc.cap (x : DrainSrc) : Nat := if x.item = 0 then 0 else x.size / x.item

/-- The source of a drain's raw (`kind` 0) or spectral content (R334). In a STREAM region it is the current capture. -/
def State.drainSrc (s : State) (c kind : Nat) (d : DrainPos) : DrainSrc :=
  let p := pg .ctx c
  let a := s.actx c
  let stream := s.rd p Reg.CTX_CAP_CFG_MODE != 2
  if s.drainsRegion c then
    let post := s.capState c == 3
    if kind = 0 then
      ⟨a.desc.rawBase, a.desc.rawBytes, a.desc.sampleBytes,
        if stream && post then max d.raw (s.rd p Reg.CTX_CAP_START_RAW_W) else d.raw,
        if stream && !post then max d.raw a.capEndRaw else s.rd p Reg.CTX_RAW_WCNT_CNT⟩
    else
      ⟨a.desc.specBase, a.desc.specBytes, a.desc.recBytes,
        if stream && post then max d.spec (s.rd p Reg.CTX_SPEC_START_SPEC_W) else d.spec,
        if stream && !post then max d.spec a.capEndSpec else s.rd p Reg.CTX_SPEC_WCNT_CNT⟩
  else if kind = 0 then
    ⟨s.rd p Reg.CTX_DRN_RAW_BASE_ADDR, s.areaBytes a.laid (s.rd p Reg.CTX_DRN_RAW_BASE_ADDR) (s.rd p Reg.CTX_DRN_RAW_SIZE_GRAN * 4096),
      s.viewBytes c, d.raw, a.drnRaw⟩
  else
    ⟨s.rd p Reg.CTX_DRN_SPEC_BASE_ADDR,
      s.areaBytes a.laid (s.rd p Reg.CTX_DRN_SPEC_BASE_ADDR) (s.rd p Reg.CTX_DRN_SPEC_SIZE_GRAN * 4096),
      s.specRecBytes c, d.spec, a.drnSpec⟩

/-- The places of a drain that starts now: after everything written (R335). -/
def State.drainHead (s : State) (c : Nat) : DrainPos :=
  { raw := (s.drainSrc c 0 {}).written, spec := (s.drainSrc c 1 {}).written, alm := s.rd (pg .ctx c) Reg.CTX_ALM_WCNT_CNT
    running := true }

/-- The stop of a drain now. -/
def State.drainStop (s : State) (c : Nat) (d : DrainPos) : DrainPos :=
  { d with stop := some ((s.drainSrc c 0 d).written, (s.drainSrc c 1 d).written, s.rd (pg .ctx c) Reg.CTX_ALM_WCNT_CNT) }

/-- The address of byte `k` of item `i` of a source. -/
def State.drainAddr (s : State) (c : Nat) (x : DrainSrc) (i k : Nat) : Nat :=
  s.areaAddr (s.actx c).laid x.base (i * x.item % (x.cap * x.item) + k)

/-- One item as a drain reads it (R412, R418): zeros in a hole, and in place of poisoned words. -/
def State.drainItem (s : State) (c : Nat) (x : DrainSrc) (i : Nat) : List Byte :=
  (List.range x.item).map (fun k =>
    let y := s.drainAddr c x i k
    if s.poisoned y 1 || s.hole y then 0 else s.byteAt y)

/-- The stacks whose poisoned words an item holds (R418). -/
def State.drainPoison (s : State) (c : Nat) (x : DrainSrc) (i : Nat) : List Nat :=
  ((List.range x.item).filterMap (fun k =>
    let y := s.drainAddr c x i k
    if s.poisoned y 1 then (s.locate y).map (fun l => l.chan / 16) else none)).dedup

/-- The read of an item waits for a channel that is being retrained (R411). -/
def State.drainHeld (s : State) (c : Nat) (x : DrainSrc) (i : Nat) : Bool :=
  (List.range x.item).any (fun k => let y := s.drainAddr c x i k; s.unavailable y && !s.hole y)

/-- The drain of the recorder or of the streamer of context `c`, written. -/
def State.setDrain (s : State) (c : Nat) (str : Bool) (d : DrainPos) : State :=
  let a := s.actx c
  s.setActx c (if str then { a with strDrain := d } else { a with recDrain := d })

def State.drainOf (s : State) (c : Nat) (str : Bool) : DrainPos :=
  if str then (s.actx c).strDrain else (s.actx c).recDrain

/-- What is skipped by a drain whose place has been overwritten (R336): the first stride boundary at least 1/16 of the area
beyond the oldest valid data, in items of a source. -/
def skipTo (x : DrainSrc) (stride : Nat) : Nat :=
  let q := x.written - x.cap + (x.cap + 15) / 16
  (q + stride - 1) / stride * stride

/-- The stamp that a drain has noted for item `i` of its source, and whether the item is overranged (R345). -/
def DrainPos.note (d : DrainPos) (kind i : Nat) : Option (SubTick × Bool) :=
  (((if kind = 0 then d.rawAt else d.specAt)).find? (fun y => y.1 == i)).map Prod.snd

/-- A drain that has read its source before item `i`. -/
def DrainPos.at_ (d : DrainPos) (kind i : Nat) : DrainPos :=
  if kind = 0 then { d with raw := i, rawAt := d.rawAt.filter (fun y => i ≤ y.1) }
  else { d with spec := i, specAt := d.specAt.filter (fun y => i ≤ y.1) }

/-- The stamp of item `i` of a drain's source. -/
def DrainPos.stampOf (d : DrainPos) (kind i : Nat) : SubTick :=
  match d.note kind i with
  | some y => y.1
  | none => ((if kind = 0 then d.nextRaw else d.nextSpec)).getD 0

/-- The items written before a drain's stop. -/
def DrainPos.limit (d : DrainPos) (kind : Nat) (x : DrainSrc) : Nat := match d.stop with
  | some (r, v, _) => min x.written (if kind = 0 then r else v)
  | none => x.written

/-- A drain whose place has been overwritten moves on, in both contents, and its copy of the almanac says so (R336). -/
def State.drainSkip (s : State) (c : Nat) (str : Bool) (kind : Nat) (x : DrainSrc) (limit : Nat) : State :=
  let stride := if s.rd (pg .ctx c) Reg.CTX_XF_CFG_KIND = 0 then 1 else max 1 (s.xfStride c)
  let d := s.drainOf c str
  let unit := if kind = 0 then 1 else stride
  let q := min limit (skipTo x (if kind = 0 then stride else 1))
  let start := d.stampOf kind x.pos
  let stop := match d.note kind q with
    | some y => y.1
    | none => start + s.nearSpan c ((q - x.pos) * unit)
  let other := ((if kind = 0 then d.specAt else d.rawAt).find? (fun y => stop ≤ y.2.1)).map Prod.fst
  let d := d.at_ kind q
  let d := match other with
    | some i => d.at_ (1 - kind) i
    | none => d
  let s := s.setDrain c str { d with gap := true, nextRaw := none, nextSpec := none }
  s.localLeap c 0x05 start (stop - start) (s.samplesIn c (stop - start)) (!str) str

/-- Values of `e` bytes each turned to network byte order; `fuel` bounds their number. -/
def swapBy (e : Nat) : Nat → List Byte → List Byte
  | 0, l => l
  | fuel + 1, l => if l.isEmpty then [] else (l.take e).reverse ++ swapBy e fuel (l.drop e)

/-- An item as a data packet carries it (R345): without its frame word, in network byte order. -/
def State.netBytes (s : State) (c kind : Nat) (l : List Byte) : List Byte :=
  let p := pg .ctx c
  if kind = 0 then swapBy 2 l.length l
  else
    let l := if s.on p Reg.CTX_XF_CFG_HDR then l.drop 8 else l
    match s.rd p Reg.CTX_XF_CFG_KIND with
    | 1 => swapBy 4 l.length l
    | 2 => swapBy (if s.rd p Reg.CTX_XF_CFG_PWR_FMT = 0 then 2 else 4) l.length l
    | _ =>
      let r := (s.storedTraces c).foldl (fun (r : List Byte × List Byte) i =>
        let n := s.traceBytes c i
        (r.1 ++ swapBy (n / s.tracePoints c i) n (r.2.take n), r.2.drop n)) ([], l)
      r.1 ++ r.2

/-! Sources that end. -/

/-- Item `i` of a drain's source as it leaves it, with its stamp, the span to the next one, and its marks. -/
def State.drainTake (s : State) (c : Nat) (str : Bool) (kind : Nat) (x : DrainSrc) (i : Nat) : DrainItem :=
  let d := s.drainOf c str
  let unit := if kind = 0 then 1 else max 1 (s.xfStride c)
  let bytes := s.drainItem c x i
  { kind := kind, stamp := d.stampOf kind i, step := s.nearSpan c unit, ovr := ((d.note kind i).map Prod.snd).getD false
    hole := s.hole (s.drainAddr c x i 0), bytes := if str then s.netBytes c kind bytes else bytes }

/-- POISON_READ for the items of a drain's source from number `i` on, `n` of them (R418). -/
def State.drainPoisons (s : State) (c : Nat) (x : DrainSrc) (i n : Nat) : State :=
  s.each ((List.range n).flatMap (fun k => s.drainPoison c x (i + k))).dedup (fun s st => s.event .mst st 4)

/-- A drain's source ends, or its layout changes, at a switch: what has not been read of it is set aside for the drain (R25, R336). -/
def State.drainKeep (s : State) (c : Nat) (str : Bool) (kind : Nat) : State :=
  let d := s.drainOf c str
  if !d.running || !s.bindsContent c kind str then s
  else
    let x := s.drainSrc c kind d
    let limit := d.limit kind x
    let s := if x.pos + x.cap < x.written && x.cap != 0 then s.drainSkip c str kind x limit else s
    let d := s.drainOf c str
    let x := s.drainSrc c kind d
    let n := if x.cap = 0 then 0 else limit - x.pos
    let items := (List.range n).map (fun i => s.drainTake c str kind x (x.pos + i))
    let s := s.drainPoisons c x x.pos n
    s.setDrain c str { (d.at_ kind x.written) with rest := d.rest ++ items }

/-- After the switch, the drain goes on with what is written of the new source from now on; one that is stopping reads nothing of it. -/
def State.drainMove (s : State) (c : Nat) (str : Bool) (kind : Nat) : State :=
  let d := s.drainOf c str
  if !d.running then s
  else
    let w := (s.drainSrc c kind (d.at_ kind 0)).written
    let stop := d.stop.map (fun y => if kind = 0 then (w, y.2.1, y.2.2) else (y.1, w, y.2.2))
    s.setDrain c str { (if kind = 0 then { d with raw := w, rawAt := [] } else { d with spec := w, specAt := [] }) with stop := stop }

/-- The drains of context `c`. -/
def State.drainsKeep (s : State) (c kind : Nat) : State := (s.drainKeep c false kind).drainKeep c true kind
def State.drainsMove (s : State) (c kind : Nat) : State := (s.drainMove c false kind).drainMove c true kind

end Sys2Proof.Machine
end

