-- ==== Sys2Proof/Machine/Spectrum.lean ====
section
/-!
DEFINITION. The arithmetic of the transform array: windowed transforms, block exponents, magnitudes, dB values and detectors (R206 to R209,
R221 to R226). The word lengths inside the array are open: each result lies where R224 allows, by a free value.
-/
namespace Sys2Proof.Machine

/-! Windows. -/

/-- The frame in hand of context `c` belongs to the new epoch's settings (R216, R480). -/
def State.newStore (s : State) (c : Nat) (new : Bool) : Bool := new || ((s.xfc c).next.isEmpty && !s.epo.todo.contains (pg .ctx c))

/-- Word `a` of a window store or a mask store of pipeline `p` for context `c`: from the LIVE image while the pipeline has not
switched and the context has, else from the store (R480, R487). -/
def State.winWord (s : State) (c p a : Nat) (new : Bool) : Nat :=
  if s.epo.todo.contains (pg .xfp p) && s.newStore c new then imgWord s.epo.live 2 p a else smGet 0 (65536 * p + a) s.xf.win
def State.segWord (s : State) (c p a : Nat) : Nat :=
  if s.epo.todo.contains (pg .xfp p) && s.newStore c false then imgWord s.epo.live 3 p a else smGet 0 (16384 * p + a) s.trg.store

/-- The window word that holds w[i] of context `c`, with N = `n` (R207). -/
def State.winAddr (s : State) (c n i : Nat) (new : Bool) : Nat :=
  s.xfRd c new Reg.CTX_XF_WIN_BASE + (if s.xfRd c new Reg.CTX_XF_WIN_SYM = 1 ∧ n / 2 ≤ i then n - 1 - i else i)

/-- The window of context `c` in pipeline `p`, in units of 2^-31; the words `bad` are read as 0 (R207, R209). -/
def State.winWords (s : State) (c p n : Nat) (new : Bool) (bad : List Nat) : List Int :=
  (List.range n).map (fun i =>
    let a := s.winAddr c n i new
    if bad.contains a then 0 else signed 32 (s.winWord c p a new))

/-- S_W and G_W of a window, in units of 2^-31 (R208). -/
def absSum (w : List Int) : Nat := w.foldl (fun a v => a + v.natAbs) 0
def gainSum (w : List Int) : Nat := w.sum.toNat

/-! Bins. -/

/-- The peak input P of a frame (R221). -/
def peakInput (order : Nat) (data : List (Int × Int)) : Nat :=
  data.foldl (fun m y => max m (if order = 0 then y.1.natAbs else y.1.natAbs + y.2.natAbs)) 0

/-- E of R221 for the absolute sum `sw`, in 2^-31, and the peak input: the smallest from -32 to +1. -/
def blockExp (sw peak : Nat) : Int :=
  match (List.range 34).find? (fun k => sw * peak < 2 ^ (30 + k)) with
  | some k => (k : Int) - 32
  | none => 1

/-- The samples of a frame times its window, in units of 2^-31. -/
def windowed (w : List Int) (data : List (Int × Int)) : List (Int × Int) := (w.zip data).map (fun y => (y.1 * y.2.1, y.1 * y.2.2))

/-- Σ x[m] · e^(-j2πkm/N) from m = `m` on, for N = 2^`bits`, in units of 2^-127. -/
def dftSum (bits k : Nat) : Nat → List (Int × Int) → Int × Int
  | _, [] => (0, 0)
  | m, y :: l =>
    let e := cosSin (k * m) bits
    let r := dftSum bits k (m + 1) l
    (r.1 + y.1 * e.1 + y.2 * e.2, r.2 + y.2 * e.1 - y.1 * e.2)

/-- The bins of a frame of 2^`bits` samples, exact, in the order of R206: N/2 for a real view, where bin 0 has no Q; natural order; or
ascending frequency for a zoom. -/
def exactBins (order bits : Nat) (x : List (Int × Int)) : List (Int × Int) :=
  let n := 2 ^ bits
  let bin (k : Nat) := dftSum bits k 0 x
  match order with
  | 0 => (List.range (n / 2)).map (fun i => if i = 0 then ((bin 0).1, 0) else bin i)
  | 1 => (List.range n).map bin
  | _ => (List.range n).map (fun i => bin ((i + n / 2) % n))

/-! Values within the bounds of R224. -/

/-- A free value from -`m` to `m`. -/
def errorOf (m v : Nat) : Int := (v % (2 * m + 1) : Nat) - (m : Int)

/-- The mantissa of a bin component `x`, in 2^-127, under exponent `e` (R221, R224): within 4 LSB of the exact one, saturated. -/
def mantissa (e x : Int) (err : Nat) : Int :=
  let d : Nat := 2 ^ (127 + e).toNat
  let low := -((4 * (d : Int) - x) / (d : Int))
  let m := clampInt low ((x + 4 * (d : Int)) / (d : Int)) (roundDiv x d + errorOf 4 err)
  clampInt (-(2 ^ 31 - 1)) (2 ^ 31 - 1) m

/-- A linear magnitude from the power `num` / `den` in LSB² (R223, R224): the root within 4 LSB, rounded half up, at most 2^31. -/
def linearOf (num den err : Nat) : Int :=
  clampInt 0 (2 ^ 31) ((((isqrt (4 * num / max 1 den) 81 0 + 1) / 2 : Nat) : Int) + errorOf 4 err)

/-- A dB value in 1/256 dB from the power `num` / `den` in LSB² (R222, R224), where `g` is G_W in units of 2^-31: 0.004 dB are 1.024 LSB. -/
def dbOf (g : Nat) (offset : Int) (num den err : Nat) : Int :=
  if num = 0 then -32768
  else
    let v := milliDb (num * 2 ^ 32) (max 1 (den * g * g)) * 128
    clampInt (-32768) 32767 (roundDiv (v + errorOf 1024 err * 2 ^ 48) (1000 * 2 ^ 48) + offset)

/-- The magnitude whose dB value is `mean` / `den` in 1/256 dB (R226), for a `den` that divides 2^12, within 4 LSB:
2^15 · G_W · 10^((mean − DB_OFFSET) / 20). -/
def antiDb (g : Nat) (offset mean : Int) (den err : Nat) : Int :=
  let x := (mean - offset * den) * 2 ^ 12 / den
  let f := dbFine x.natAbs
  let v : Nat := if 0 ≤ x then g * f / 2 ^ 143 else g * 2 ^ 113 / f
  clampInt 0 (2 ^ 31) (((v + 1) / 2 : Nat) + errorOf 4 err)

/-! Detectors. -/

/-- What the detectors see of one frame: the powers of its bins in units of 2^-254, their dB values and their magnitudes. -/
structure BinValues where
  power : List Nat
  db : List Int
  lin : List Int
  deriving DecidableEq, Repr

/-- The values of a frame's bins (R222, R223), by the free value number `n`. -/
def binValues (g : Nat) (offset : Int) (n : Nat) (bins : List (Int × Int)) : BinValues :=
  let pw := bins.map (fun b => b.1.natAbs * b.1.natAbs + b.2.natAbs * b.2.natAbs)
  { power := pw
    db := pw.zipIdx.map (fun y => dbOf g offset y.1 (2 ^ 254) (Config.transformError n y.2 2))
    lin := pw.zipIdx.map (fun y => linearOf y.1 (2 ^ 254) (Config.transformError n y.2 3)) }

/-- The values of a list from index `a` on, `n` of them. -/
def group (l : List Int) (a n : Nat) : List Int := (l.drop a).take n

/-- The largest and the smallest of some values. -/
def listMax (l : List Int) : Int := l.foldl max (l.headD 0)
def listMin (l : List Int) : Int := l.foldl min (l.headD 0)

/-- Point `i` of a trace (R225, R226) in its averaging domain (R227), as a numerator and a denominator: mean |X|² in LSB² for average power
and RMS, else the trace's output units; `lin` selects linear magnitude. -/
def BinValues.point (v : BinValues) (g : Nat) (offset : Int) (n trace det start blog i : Nat) (lin : Bool) : Int × Nat :=
  let b := 2 ^ blog
  let a := start + i * b
  let l := group (if lin then v.lin else v.db) a b
  match det with
  | 0 => (listMax l, 1)
  | 1 => (listMin l, 1)
  | 2 => (l.getD (b / 2) 0, 1)
  | 4 =>
    let sum := (group v.db a b).sum
    (if lin then antiDb g offset sum b (Config.transformError n i (4 + trace)) else roundDiv sum b, 1)
  | _ => ((((v.power.drop a).take b).sum : Nat), 2 ^ 254 * b)

/-- A trace point as it is emitted, from its averaging domain (R222, R223, R226): average power and RMS come from mean |X|². -/
def pointOut (g : Nat) (offset : Int) (n trace det i : Nat) (lin : Bool) (x : Int × Nat) : Int :=
  if det = 3 ∨ det = 5 then
    let err := Config.transformError n i (4 + trace)
    if lin then linearOf x.1.toNat x.2 err else dbOf g offset x.1.toNat x.2 err
  else roundDiv x.1 x.2

end Sys2Proof.Machine
end

