-- ==== Sys2Proof/Machine/Trigger.lean ====
section
/-!
DEFINITION. The trigger fabric: trigger units, coincidence groups and TRIGGER records, output pulses, schedule timers and TRIG_IN
(R265 to R295).
-/
namespace Sys2Proof.Machine

/-! Firings (R279, R280, R282, R284). -/

/-- Contexts whose capture takes a firing of unit `u` as its trigger point (R282). -/
def State.takers (s : State) (u : Nat) : List Nat :=
  s.running.filter (fun c =>
    let p := pg .ctx c
    let m := s.rd p Reg.CTX_TRG_CFG_MODE
    s.on p Reg.CTX_TRG_CFG_UNIT_EN && s.rd p Reg.CTX_TRG_CFG_UNIT == u && (m == 1 || m == 2) &&
      s.rd p Reg.CTX_CAP_CFG_MODE == 1 && s.accepts c m)

/-- A firing that reaches the record collector at tick `t` (R284): it joins the group of its stamp that is still open, or opens one. -/
def State.collect (s : State) (stamp : SubTick) (t : Nat) (f : Firing) : State :=
  let g := s.trg.groups
  let mine (x : CoincGroup) : Bool := x.stamp == stamp && decide (t < x.at_ + s.rd (pg .trn 0) Reg.TRN_REC_CFG_COINC_WAIT)
  let g := if g.any mine then g.map (fun x => if mine x then { x with firings := x.firings ++ [f] } else x)
    else g ++ [⟨stamp, t, [f]⟩]
  { s with trg := { s.trg with groups := g } }

/-- Unit `u` fires in the FCLK of tick `t` (R279, R287). -/
def State.fire (s : State) (u t : Nat) (stamp : SubTick) (code sig : Nat) (forced bad : Bool) : State :=
  let p := pg .tru u
  let s := (s.bump p Reg.TRU_TRU_STAT_FIRE_CNT 1).wrs p [(Reg.TRU_LAST_FIRE_TICK, stamp / 16), (Reg.TRU_LAST_INFO_SRC, code),
    (Reg.TRU_LAST_INFO_FORCED, b2n forced), (Reg.TRU_LAST_INFO_SUSPECT, b2n bad), (Reg.TRU_LAST_INFO_SUB, stamp % 16)]
  let s := if bad then (s.bumpSat p Reg.TRU_TRU_STAT_SUSPECT_CNT 1).event .tru u 1 else s
  let s := (s.event .tru u 0).sourcePulse (0x10C0 + u) 0 t 4 stamp
  let caps := s.takers u
  (s.each caps (fun s c => s.takeTrigger c stamp)).collect stamp (t + 4) ⟨u, code, sig, bad, forced, caps⟩

/-- Unit `u` is holding off in the FCLK of tick `t` (R278). -/
def State.holding (s : State) (u t : Nat) : Bool :=
  let x := s.tru u
  if s.on (pg .tru u) Reg.TRU_TRU_CFG_HOLD_MODE then 0 < x.holdLeft
  else s.on (pg .tru u) Reg.TRU_TRU_STAT_HOLDING && x.holdTo - s.rd (pg .tru u) Reg.TRU_HOLD_HOLD < t && t ≤ x.holdTo

/-- A hold-off starts as unit `u` fires in the FCLK of tick `t` (R278). -/
def State.startHold (s : State) (u t : Nat) : State :=
  let h := s.rd (pg .tru u) Reg.TRU_HOLD_HOLD
  if h = 0 then s
  else
    let x := s.tru u
    (s.setTru u (if s.on (pg .tru u) Reg.TRU_TRU_CFG_HOLD_MODE then { x with holdLeft := h } else { x with holdTo := t + h })).wr
      (pg .tru u) Reg.TRU_TRU_STAT_HOLDING 1

/-- A qualified event of unit `u` (R278): hold-off, count, fire. -/
def State.qualified (s : State) (u t : Nat) (stamp : SubTick) (code sig : Nat) (bad : Bool) : State :=
  let p := pg .tru u
  if s.holding u t then
    let s := s.bumpSat p Reg.TRU_TRU_CNT_HOLD_IGN 1
    if s.on p Reg.TRU_TRU_CFG_HOLD_MODE then
      let x := s.tru u
      (s.setTru u { x with holdLeft := x.holdLeft - 1 }).wr p Reg.TRU_TRU_STAT_HOLDING (b2n (1 < x.holdLeft))
    else s
  else
    let x := s.tru u
    let win := s.rd p Reg.TRU_CNT_CFG_COUNT_WIN
    let n := s.rd p Reg.TRU_TRU_CNT_CNT_NOW + 1
    let n := if 1 < n && win != 0 && x.first + win < stamp / 16 then 1 else n
    let s := s.setTru u { x with first := if n = 1 then stamp / 16 else x.first }
    if s.rd p Reg.TRU_CNT_CFG_COUNT_M1 < n then
      ((s.wr p Reg.TRU_TRU_CNT_CNT_NOW 0).startHold u t).fire u t stamp code sig false bad
    else s.wr p Reg.TRU_TRU_CNT_CNT_NOW n

/-! The units' evaluation (R275 to R277, R287). -/

/-- An input after a change. -/
def TruIn.take (x : TruIn) (c : TruChg) (par : List ParWord) : TruIn :=
  if c.fall then { x with val := false, bad := false }
  else match par.find? (fun w => w.idx.val == c.idx) with
    | some w => ⟨w.val, w.stamp, true⟩
    | none => ⟨c.val, c.stamp, c.bad⟩

/-- The truth-table index of eight sampled inputs of unit `u`. -/
def State.truIndex (s : State) (u : Nat) (inp : List TruIn) : Nat :=
  (List.range 8).foldl (fun x i => x + b2n ((inp.getD i {}).val.xor (s.truSel u i).2.2) * 2 ^ i) 0

/-- Bit x of the 256-bit truth table of unit `u`. -/
def State.truTable (s : State) (u x : Nat) : Bool := (s.rd (pg .tru u) (Reg.TRU_TT_TT (x / 64))).testBit (x % 64)

/-- The fall of the pulse inputs that a group of changes starts, STRETCH further FCLK on (R275); A is not stretched (R277). A pulse during
a stretch restarts it. -/
def stretched (t stretch : Nat) (now later : List TruChg) : List TruChg :=
  let pulses := (now.filter (fun c => c.pulse && c.val)).map TruChg.idx
  let later := later.filter (fun c => !(c.fall && pulses.contains c.idx))
  pulses.foldl (fun l i => addChg ⟨t + 1 + (if i < 8 then stretch else 0), i, false, true, false, 0, false⟩ l) later

/-- A word with a parity error where nothing changed holds for its FCLK; the next word brings the value back (R287). -/
def restored (t : Nat) (x : TruSt) (now : List TruChg) (par : List ParWord) (later : List TruChg) : List TruChg :=
  par.foldl (fun l w =>
    if now.any (fun c => c.idx == w.idx.val) || 8 ≤ w.idx.val then l
    else
      let y := x.inp.getD w.idx {}
      addChg ⟨t + 1, w.idx, false, false, y.val, y.stamp, false⟩ l) later

/-- Unit `u` evaluates in the FCLK of tick `t` with the changes `now` of its inputs and words with a parity error. -/
def State.truEval (s : State) (u t : Nat) (now : List TruChg) (par : List ParWord) : State :=
  let p := pg .tru u
  let x := s.tru u
  let inp := now.foldl (fun l c => if c.idx < 8 then l.set c.idx ((l.getD c.idx {}).take c par) else l) x.inp
  let inp := par.foldl (fun l w => if w.idx.val < 8 then l.set w.idx ⟨w.val, w.stamp, true⟩ else l) inp
  let was := s.on p Reg.TRU_TRU_STAT_C
  let c := s.truTable u (s.truIndex u inp)
  let moved := (List.range 8).filter (fun i => (inp.getD i {}).val != (x.inp.getD i {}).val)
  let last := moved.foldl (fun m i => match m with
    | none => some i
    | some j => if (inp.getD j {}).stamp < (inp.getD i {}).stamp then some i else some j) none
  let bad := inp.any TruIn.bad
  let chg := stretched t (s.rd p Reg.TRU_TRU_CFG_STRETCH) now x.chg
  let chg := restored t x now par chg
  let kept := (List.range 8).map (fun i =>
    let y := inp.getD i {}
    { y with bad := y.bad && chg.any (fun c => c.fall && c.idx == i) })
  let s := (s.setTru u { x with inp := kept, chg := chg }).wr p Reg.TRU_TRU_STAT_C (b2n c)
  let seq := s.on p Reg.TRU_TRU_CFG_SEQ_EN
  let primed := s.on p Reg.TRU_TRU_STAT_PRIMED && x.primeAt < t && t ≤ x.primeAt + s.rd p Reg.TRU_SEQ_CFG_WINDOW
  let rise := c && !was && (!seq || primed)
  let bad := bad || (seq && x.arm.bad)
  let s := if rise then
      let s := if seq then s.wr p Reg.TRU_TRU_STAT_PRIMED 0 else s
      match last with
      | some i =>
        let sel := s.truSel u i
        s.qualified u t (inp.getD i {}).stamp sel.1 sel.2.1 bad
      | none => s.qualified u t (16 * t) 0x1FFF 0 bad
    else s
  if !seq then s
  else
    let inv := (s.truSel u 8).2.2
    match now.find? (fun c => c.idx == 8) with
    | none => s
    | some a =>
      let y := x.arm.take a par
      let up := (y.val.xor inv) && ((a.pulse && !inv) || !(x.arm.val.xor inv))
      let s := s.setTru u { s.tru u with arm := y, primeAt := if up then t else (s.tru u).primeAt }
      if up && 0 < s.rd p Reg.TRU_SEQ_CFG_WINDOW then s.wr p Reg.TRU_TRU_STAT_PRIMED 1 else s

/-- The earliest changes on their way to unit `u`, where they are due by tick `t`, and those after them. -/
def State.truDue (s : State) (u t : Nat) : List TruChg × List TruChg :=
  match (s.tru u).chg with
  | [] => ([], [])
  | c :: l => if t < c.at_ then ([], c :: l) else ((c :: l).filter (fun d => d.at_ == c.at_), (c :: l).filter (fun d => d.at_ != c.at_))

/-- Words of the trigger network with a parity error are counted (R287). -/
def State.parity (s : State) (n : Nat) : State :=
  s.each (List.replicate n ()) (fun s _ => ((s.bumpSat (pg .trn 0) Reg.TRN_TRN_STAT_PAR_CNT 1).occur 4 0).event .trn 0 0)

/-- A level source (R265). -/
def State.isLevel (s : State) (code sig : Nat) : Bool :=
  sig == 0 && (code < 0x800 || (code < 0x1000 && s.rd (pg .ctx ((code - 0x800) / 2)) (Reg.CTX_LVL_CFG_MODE (code % 2)) < 2) ||
    (0x1040 ≤ code && code < 0x1060))

/-- The level inputs of unit `u` whose sources changed while it did not evaluate: each changes now, stamped with this FCLK (R288;
notes/assumptions/176). -/
def State.truStale (s : State) (u t : Nat) : List TruChg :=
  (List.range 9).filterMap (fun i =>
    let x := s.tru u
    let sel := s.truSel u i
    let old := if i < 8 then (x.inp.getD i {}).val else x.arm.val
    let v := s.srcNow sel.1 t
    if !s.isLevel sel.1 sel.2.1 || x.chg.any (fun c => c.idx == i) || old == v then none
    else some ⟨t, i, false, false, v, 16 * t, false⟩)

/-- TRU_INPUT_CHANGE (R275 to R279, R287): the inputs of unit `u` change, in the FCLK in which the network brings it; `par` are the words
received with a parity error. Units do not evaluate while the clocks are gated (R288). -/
def execTruInputChange (t : Nat) (u : Fin 64) (par : List ParWord) (s : State) : Host.Outcome State Fault Refusal :=
  let s := s.advance t
  let d := s.truDue u t
  let now := if d.1.isEmpty then s.truStale u t else d.1
  .next (if !s.truRuns u || (now.isEmpty && par.isEmpty) then s
    else ((s.parity par.length).setTru u { s.tru u with chg := d.2 }).truEval u (((now.head?).map TruChg.at_).getD t) now par)

/-- TRU_STRETCH_END (R275): a stretched pulse input falls. -/
def execTruStretchEnd (t : Nat) (u : Fin 64) (s : State) : Host.Outcome State Fault Refusal :=
  let s := s.advance t
  let d := s.truDue u t
  .next (if !s.truRuns u || !d.1.any TruChg.fall then s
    else (s.setTru u { s.tru u with chg := d.2 }).truEval u (((d.1.head?).map TruChg.at_).getD t) d.1 [])

/-- TRU_PRIME_EXPIRE (R277). -/
def execTruPrimeExpire (t : Nat) (u : Fin 64) (s : State) : Host.Outcome State Fault Refusal :=
  let s := s.advance t
  let p := pg .tru u
  .next (if s.on p Reg.TRU_TRU_STAT_PRIMED && (s.tru u).primeAt + s.rd p Reg.TRU_SEQ_CFG_WINDOW < t then
    s.wr p Reg.TRU_TRU_STAT_PRIMED 0 else s)

/-- TRU_HOLDOFF_END (R278). -/
def execTruHoldoffEnd (t : Nat) (u : Fin 64) (s : State) : Host.Outcome State Fault Refusal :=
  let s := s.advance t
  let p := pg .tru u
  .next (if s.on p Reg.TRU_TRU_STAT_HOLDING && !s.on p Reg.TRU_TRU_CFG_HOLD_MODE && (s.tru u).holdTo < t then
    s.wr p Reg.TRU_TRU_STAT_HOLDING 0 else s)

/-! TRU_CTL (R280, R294). -/

/-- A write of TRU_CTL.FORCE, in effect at tick `t` (R280). -/
def State.truForce (s : State) (u t : Nat) : State :=
  if s.on (pg .tru u) Reg.TRU_TRU_CFG_EN && s.truRuns u then (s.startHold u t).fire u t (16 * t) 0x1FFF 0 true false else s

/-- A write of TRU_CTL.CLR (R294). -/
def State.truClr (s : State) (u : Nat) : State :=
  s.wrs (pg .tru u) [(Reg.TRU_TRU_STAT_FIRE_CNT, 0), (Reg.TRU_TRU_STAT_SUSPECT_CNT, 0), (Reg.TRU_TRU_CNT_HOLD_IGN, 0)]

/-- A write of TRU_CTL.RESET_STATE (R294): the count, the priming and the hold-off. -/
def State.truResetState (s : State) (u : Nat) : State :=
  let x := s.tru u
  (s.setTru u { x with primeAt := 0, first := 0, holdTo := 0, holdLeft := 0 }).wrs (pg .tru u)
    [(Reg.TRU_TRU_CNT_CNT_NOW, 0), (Reg.TRU_TRU_STAT_PRIMED, 0), (Reg.TRU_TRU_STAT_HOLDING, 0)]

/-- A write of TRU_CTL of unit `u`. -/
def State.truCtl (s : State) (u t w : Nat) : State :=
  let s := if w.testBit 2 then s.truClr u else s
  let s := if w.testBit 0 then s.truResetState u else s
  if w.testBit 1 then s.truForce u t else s

/-- TRU_FORCE (R280). -/
def execTruForce (t : Nat) (u : Fin 64) (s : State) : Host.Outcome State Fault Refusal :=
  .next ((s.advance t).hosted (pg .tru u) 0x170 2 (fun s => s.truCtl u t 2))

/-- TRU_CLR (R294). -/
def execTruClr (t : Nat) (u : Fin 64) (s : State) : Host.Outcome State Fault Refusal :=
  .next ((s.advance t).hosted (pg .tru u) 0x170 4 (fun s => s.truCtl u t 4))

/-- TRU_RESET_STATE (R294). -/
def execTruResetState (t : Nat) (u : Fin 64) (s : State) : Host.Outcome State Fault Refusal :=
  .next ((s.advance t).hosted (pg .tru u) 0x170 1 (fun s => s.truCtl u t 1))

/-! Coincidence (R284, R285). -/

/-- The running contexts that a group of firings writes a TRIGGER record in (R284). -/
def State.groupCtxs (s : State) (g : CoincGroup) : List Nat :=
  let units := g.firings.map Firing.unit
  s.running.filter (fun c =>
    (s.on (pg .ctx c) Reg.CTX_TRG_CFG_UNIT_EN && units.contains (s.rd (pg .ctx c) Reg.CTX_TRG_CFG_UNIT)) ||
    units.any (fun u => s.on (pg .tru u) Reg.TRU_TRU_CFG_HOME_EN && s.rd (pg .tru u) Reg.TRU_TRU_CFG_HOME_CTX == c))

/-- The primary firing of a group (R284): of its lowest-numbered unit. -/
def CoincGroup.primary (g : CoincGroup) : Firing :=
  g.firings.foldl (fun m f => if f.unit < m.unit then f else m) (g.firings.headD ⟨0, 0x1FFF, 0, false, false, []⟩)

/-- The TRIGGER record of group `g` in context `c` (R284, R310). -/
def State.triggerRecord (s : State) (g : CoincGroup) (c : Nat) : State :=
  let m := g.primary
  let a := s.actx c
  let flags := b2n (g.firings.any Firing.suspect) * 8 + b2n (g.firings.any Firing.forced) * 4 +
    b2n (g.firings.any (fun f => f.caps.contains c)) * 2
  let mask := g.firings.foldl (fun w f => setBit w f.unit) 0
  (s.setActx c { a with trigLost := 0 }).record c 0x01 false false flags
    (m.unit * 2 ^ 32 + m.code * 2 ^ 19 + m.sig * 2 ^ 17 + min a.trigLost 255) (g.stamp / 16) (g.stamp % 16) mask

/-- COINC_GROUP_CLOSE (R284, R285): the oldest group whose COINC_WAIT has passed closes; `full` says that the collector's
256-entry queue is full. -/
def execCoincGroupClose (t : Nat) (full : Bool) (s : State) : Host.Outcome State Fault Refusal :=
  let s := s.advance t
  match s.trg.groups with
  | [] => .next s
  | g :: l =>
    .next (if t < g.at_ + s.rd (pg .trn 0) Reg.TRN_REC_CFG_COINC_WAIT then s
      else
        let s := { s with trg := { s.trg with groups := l } }
        if full then
          let s := s.each (s.groupCtxs g) (fun s c => let a := s.actx c; s.setActx c { a with trigLost := a.trigLost + 1 })
          (s.bumpSat (pg .trn 0) Reg.TRN_TRN_STAT_REC_LOST 1).event .trn 0 1
        else s.each (s.groupCtxs g) (fun s c => s.triggerRecord g c))

/-! Outputs. -/

/-- TRIG_OUT_WIDTH_END (R289): the outputs follow the router up to tick `t`; the pulse on a line that ends by then is over. -/
def execTrigOutWidthEnd (t : Nat) (line : Fin 22) (s : State) : Host.Outcome State Fault Refusal :=
  let s := (s.advance t).routerTo t
  match smFind line s.trg.lineEnd with
  | none => .next s
  | some stop => .next (if t < stop || !s.working (pg .trn 0) then s else s.lineOver line stop)

/-- A write of POUT_CLR (R289): it releases the latched outputs whose source is inactive. -/
def State.poutClr (s : State) (mask : Nat) : State :=
  let p := pg .trn 0
  (s.routerTo s.tick).each (bitsOf 8 mask) (fun s k =>
    if s.on p (Reg.TRN_POUT_CFG_LATCH k) && !s.srcNow (s.rd p (Reg.TRN_POUT_CFG_SRC k)) s.tick then s.setOut (8 + k) false s.tick else s)

/-- POUT_CLR (R289, R295). -/
def execPoutClr (t : Nat) (mask : BitVec 8) (s : State) : Host.Outcome State Fault Refusal :=
  .next ((s.advance t).hosted (pg .trn 0) 0x310 mask.toNat (fun s => s.poutClr mask.toNat))

/-- A write of TRN_CLR (R295). -/
def State.trnClr (s : State) : State :=
  s.wrs (pg .trn 0) [(Reg.TRN_TRN_STAT_PAR_CNT, 0), (Reg.TRN_TRN_STAT_REC_LOST, 0), (Reg.TRN_TRN_STAT_TIN_GLITCH, 0),
    (Reg.TRN_TRN_STAT_MASK_CORR, 0)]

/-- TRN_CLR (R295). -/
def execTrnClr (t : Nat) (s : State) : Host.Outcome State Fault Refusal :=
  .next ((s.advance t).hosted (pg .trn 0) 0x318 1 State.trnClr)

/-! Schedule timers (R274). -/

/-- The tick at which timer `n` pulses (R274): at SCHED_TICK, or, where that lies in the past, in the FCLK after the write that armed it;
an occurrence that gating has held back, in the first FCLK after the release. -/
def State.schedAt (s : State) (n : Nat) : Nat :=
  max (s.rd (pg .trn 0) (Reg.TRN_SCHED_TICK_TICK n)) (smGet 0 n s.trg.schedAt)

/-- SCHED_PULSE (R274). -/
def execSchedPulse (t : Nat) (n : Fin 16) (s : State) : Host.Outcome State Fault Refusal :=
  let s := s.advance t
  let p := pg .trn 0
  let due := s.rd p (Reg.TRN_SCHED_TICK_TICK n)
  let per := s.rd p (Reg.TRN_SCHED_CFG_PERIOD n)
  let at_ := s.schedAt n
  .next (if !s.working p || !s.on p (Reg.TRN_SCHED_CFG_ARM n) || t < at_ then s
    else
      let s := s.sourcePulse (0x10A0 + n) 0 at_ 0 (16 * at_)
      let s := if due < at_ then (s.wr p (Reg.TRN_SCHED_CFG_LATE n) 1).event .trn 0 2 else s
      if per = 0 then s.wr p (Reg.TRN_SCHED_CFG_ARM n) 0
      else s.wr p (Reg.TRN_SCHED_TICK_TICK n) (due + per * ((at_ - due) / per + 1)))

/-- The schedule registers of TRN have been written, or loaded, at tick `t`: a timer acts from the next FCLK on (R274). -/
def State.schedSet (s : State) (l : List Nat) (t : Nat) : State :=
  { s with trg := { s.trg with schedAt := l.foldl (fun m n => smInsert n (t + 1) m) s.trg.schedAt } }

/-! TRIG_IN (R272). -/

/-- TRIG_IN pin `k` beyond its registers. -/
def State.tin (s : State) (k : Nat) : TinSt := smGet {} k s.trg.tin
def State.setTin (s : State) (k : Nat) (x : TinSt) : State :=
  { s with trg := { s.trg with tin := smSet {} k x s.trg.tin } }

/-- The value of the TRIG_IN source that pin `k` at its accepted level gives (R272, R295). -/
def State.tinValue (s : State) (k : Nat) : Bool :=
  s.on (pg .trn 0) (Reg.TRN_TIN_CFG_EN k) && ((s.tin k).acc.xor (s.on (pg .trn 0) (Reg.TRN_TIN_CFG_INV k)))

/-- The FCLK in which an edge of a TRIG_IN pin is seen, 3 ns after it (R272): of the edge stamped `stamp`. -/
def pinSeen (stamp : SubTick) : Nat := (10 * stamp + 768 + 159) / 160

/-- The change of pin `k` that its filter holds has persisted for FILTER FCLK by tick `t`: it is accepted, and the source changes 4 FCLK
later with the stamp of the first edge (R272). -/
def State.tinAccept (s : State) (k t : Nat) : State :=
  let x := s.tin k
  match x.chg with
  | none => s
  | some (t0, stamp) =>
    let at_ := t0 + s.rd (pg .trn 0) (Reg.TRN_TIN_CFG_FILTER k)
    if t < at_ || !s.working (pg .trn 0) then s
    else
      let s := s.setTin k { x with acc := x.raw, chg := none }
      s.sourceLevel (0x1040 + k) (s.tinValue k) at_ 4 stamp

/-- TRIG_IN_EDGE (R272): the pin changes; a change that ends inside its filter is a glitch. While TRN does not run, only the pin's level is
seen (R288). -/
def execTrigInEdge (t : Nat) (k : Fin 4) (level : Bool) (stamp : SubTick) (s : State) : Host.Outcome State Fault Refusal :=
  let s := (s.advance t).tinAccept k (pinSeen stamp)
  let x := s.tin k
  .next (if x.raw = level then s
    else if !s.working (pg .trn 0) then s.setTin k { x with raw := level, chg := none }
    else match x.chg with
      | some _ => (s.setTin k { x with raw := level, chg := none }).bumpSat (pg .trn 0) Reg.TRN_TRN_STAT_TIN_GLITCH 1
      | none => s.setTin k { x with raw := level, chg := some (pinSeen stamp, stamp) })

/-- TRIG_IN_ACCEPT (R272): a change has persisted for FILTER FCLK. -/
def execTrigInAccept (t : Nat) (k : Fin 4) (s : State) : Host.Outcome State Fault Refusal :=
  .next ((s.advance t).tinAccept k t)

/-! Gating (R288). -/

/-- The outputs follow their sources at tick `t`, as the router's configuration has it. -/
def State.outputsFollow (s : State) (t : Nat) : State :=
  let p := pg .trn 0
  s.each (List.range 8) (fun s k =>
    let pulse (j : Nat) : Bool := (smFind j s.trg.lineEnd).isSome
    let tsrc := s.srcNow (s.rd p (Reg.TRN_TOUT_CFG_SRC k)) t
    let psrc := s.srcNow (s.rd p (Reg.TRN_POUT_CFG_SRC k)) t
    let s := if !s.on p (Reg.TRN_TOUT_CFG_EN k) then (if pulse k then s else s.setOut k false t)
      else s.toutDrive k (if s.on p (Reg.TRN_TOUT_CFG_MODE k) then tsrc else pulse k) t
    if !s.on p (Reg.TRN_POUT_CFG_EN k) then s.setOut (8 + k) false t
    else if s.on p (Reg.TRN_POUT_CFG_LATCH k) then (if psrc then s.setOut (8 + k) true t else s)
    else if pulse (8 + k) then s else s.setOut (8 + k) psrc t)

/-- Every TRIG_IN source takes its pin's present level (R288), except one whose change is still inside its filter. -/
def State.pinsFollow (s : State) : State := s.each (List.range 4) (fun s k =>
  let x := s.tin k
  let s := if x.chg.isNone then s.setTin k { x with acc := x.raw } else s
  if s.tinValue k = s.srcLevel (0x1040 + k) then s
  else { s with trg := { s.trg with src := smSet 0 (0x1040 + k) (b2n (s.tinValue k)) s.trg.src } })

/-- After the clocks' release at tick `t`, each level input is compared with its value before the gating: a change is a transition stamped at
the release; the outputs follow their sources again. An occurrence of a timer inside the gap falls in the next FCLK (R274). -/
def State.triggerRelease (s : State) (t : Nat) : State :=
  let s := s.pinsFollow
  let s := s.each ((List.range 64).filter s.truRuns) (fun s u =>
    s.setTru u { s.tru u with chg := (s.truStale u t).foldl (fun l c => addChg c l) (s.tru u).chg })
  let p := pg .trn 0
  let late := (List.range 16).filter (fun n => s.on p (Reg.TRN_SCHED_CFG_ARM n) && decide (s.rd p (Reg.TRN_SCHED_TICK_TICK n) < t))
  (s.outputsFollow t).schedSet late (t - 1)

end Sys2Proof.Machine
end

