-- ==== Sys2Proof/Machine/Density.lean ====
section
/-!
DEFINITION. Density planes: mapping, update, skips, saturation, decay, clears and region triggers (R234 to R250, R263).
-/
namespace Sys2Proof.Machine

/-- Density unit `u` beyond its registers. -/
def State.den_ (s : State) (u : Nat) : DenUnit := smGet {} u s.den
def State.setDen (s : State) (u : Nat) (x : DenUnit) : State := { s with den := smSet {} u x s.den }

/-- Unit `u` leads a gang (R240). -/
def State.ganged (s : State) (u : Nat) : Bool := u % 4 == 0 && s.on (pg .den u) Reg.DEN_DEN_CFG_GANG

/-- The units of the binding that unit `u` leads. -/
def State.denUnits (s : State) (u : Nat) : List Nat := if s.ganged u then [u, u + 1, u + 2, u + 3] else [u]

/-- The rows and the columns of the plane that unit `u` leads (R234, R240). -/
def State.denRows (s : State) (u : Nat) : Nat := if s.ganged u then 1024 else 512
def State.denCols (s : State) (u : Nat) : Nat := if s.ganged u then 4096 else 2048

/-- The unit that holds column `col`, and the place of a cell in it (R240). -/
def State.denPlace (s : State) (u col row : Nat) : Nat × Nat :=
  if s.ganged u then (u + col % 4, row * 1024 + col / 4) else (u, row * 2048 + col)

/-- The counter of a cell of the plane that unit `u` leads. -/
def State.cell (s : State) (u col row : Nat) : Nat :=
  let x := s.denPlace u col row
  smGet 0 x.2 (s.den_ x.1).cells

/-- The units bound to context `c` (R235). -/
def State.denOf (s : State) (c : Nat) : List Nat :=
  (List.range 16).filter (fun u => s.on (pg .den u) Reg.DEN_DEN_CFG_BIND && s.rd (pg .den u) Reg.DEN_DEN_CFG_CTX == c)

/-- The row of value `v` (R238): outside the plane it is discarded, or clamped under CLAMP. -/
def State.denRow (s : State) (u : Nat) (v : Int) : Option Nat :=
  let p := pg .den u
  let a := (v - s.rdS p Reg.DEN_DEN_CFG_FLOOR_DB) / (2 ^ s.rd p Reg.DEN_DEN_CFG_ROW_LOG2 : Nat)
  if 0 ≤ a ∧ a < s.denRows u then some a.toNat
  else if s.on p Reg.DEN_DEN_CFG_CLAMP then some (clampInt 0 (s.denRows u - 1 : Nat) a).toNat else none

/-- The column of point `i` (R238). -/
def State.denCol (s : State) (u i : Nat) : Nat := i / 2 ^ s.rd (pg .den u) Reg.DEN_DEN_CFG_CDEC_LOG2

/-- The cells that a trace's points go to, in trace order (R238). -/
def State.denHits (s : State) (u : Nat) (pts : List Int) : List (Nat × Nat) :=
  (pts.zipIdx.filterMap (fun x => (s.denRow u x.1).map (fun r => (s.denCol u x.2, r)))).filter (fun x => x.1 < s.denCols u)

/-- The points of a trace that each unit of the binding holds, in the order of its units (R241). -/
def State.denShare (s : State) (u : Nat) (pts : List Int) : List (Nat × Nat) :=
  (s.denUnits u).map (fun m => (m, (pts.zipIdx.filter (fun x => !s.ganged u || u + s.denCol u x.2 % 4 == m)).length))

/-- Points in the input FIFO of unit `m` at tick `t`: 16 leave in each FCLK (R242). -/
def State.denOcc (s : State) (m t : Nat) : Nat := (s.den_ m).occ - 16 * (t - (s.den_ m).at_)

/-- One more trace toward the decay period of unit `u` (R244): a pass falls due after every PERIOD. -/
def State.decayCount (s : State) (u : Nat) : State :=
  let p := pg .den u
  let x := s.den_ u
  if s.rd p Reg.DEN_DECAY_CFG_MODE = 0 then s
  else if s.rd p Reg.DEN_DECAY_CFG_PERIOD ≤ x.count + 1 then s.setDen u { x with count := 0, due := x.due + 1 }
  else s.setDen u { x with count := x.count + 1 }

/-- DENSITY_TRACE_ACCEPT (R243): the first point of the oldest trace at lead unit `u` arrives: accepted whole, or
skipped. -/
def execDensityTraceAccept (t : Nat) (u : Fin 16) (s : State) : Host.Outcome State Fault Refusal :=
  let s := s.advance t
  let x := s.den_ u
  match (if s.working (pg .den u) then x.arr else []) with
  | [] => .next s
  | d :: l =>
    let s := s.setDen u { x with arr := l }
    let share := s.denShare u d.pts
    let room := share.all (fun y => s.denOcc y.1 t + y.2 ≤ 8192)
    let s := if room then
        let s := s.each share (fun s y => s.setDen y.1 { s.den_ y.1 with occ := s.denOcc y.1 t + y.2, at_ := t })
        let x := s.den_ u
        (s.setDen u { x with acc := x.acc ++ [d], since := x.since + 1 }).bump (pg .den u) Reg.DEN_DEN_STAT_TRACES 1
      else (s.bumpSat (pg .den u) Reg.DEN_DEN_STAT_SKIPS 1).event .den u 0
    .next (s.decayCount u)

/-- One increment of the cell at (col, row) of the plane that unit `u` leads (R236). -/
def State.denInc (s : State) (u : Nat) (h : Nat × Nat) : State :=
  let q := s.denPlace u h.1 h.2
  let x := s.den_ q.1
  let v := smGet 0 q.2 x.cells
  if v < 0xFFFF then s.setDen q.1 { x with cells := smSet 0 q.2 (v + 1) x.cells }
  else
    let s := s.bumpSat (pg .den q.1) Reg.DEN_DEN_CNT_SAT_INC 1
    if s.on (pg .den q.1) Reg.DEN_DEN_STAT_SAT_SEEN then s
    else (s.wr (pg .den q.1) Reg.DEN_DEN_STAT_SAT_SEEN 1).event .den q.1 1

/-- An SRAM word of unit `m` with an uncorrectable error (R234): its four counters are loaded with 0. -/
def State.denUnc (s : State) (m w : Nat) : State :=
  let x := s.den_ m
  let s := s.setDen m { x with cells := x.cells.filter (fun y => y.1 / 4 != w) }
  (s.bumpSat (pg .den m) Reg.DEN_DEN_CNT_UNC 1).event .den m 3

/-- The readout in progress has read, by the end of tick `t`, four cells in each FCLK from its start (R248, R253, R256): each as the FCLK before
left it. A word found uncorrectable is loaded with 0 first. The order, line by line from the top of the image, is open
(notes/assumptions/19). -/
def State.tmpRead (s : State) (t : Nat) : State :=
  match s.tmp.run with
  | none => s
  | some j =>
    let x := smGet {} j s.tmp.job
    let at_ (s : State) (i : Nat) : Nat × Nat := s.denPlace x.unit (i % x.cols) (x.rows - 1 - i / x.cols)
    let n := min (x.cols * x.rows) (4 * (t + 1 - x.from_))
    let new := (List.range (n - x.cells.length)).map (fun i => x.cells.length + i)
    let bad := x.bad.filter (fun y => new.any (fun i => let q := at_ s i; q.1 == x.unit + y.1 && q.2 / 4 == y.2))
    let s := s.each bad (fun s y => s.denUnc (x.unit + y.1) y.2)
    let got := new.map (fun i => let q := at_ s i; smGet 0 q.2 (s.den_ q.1).cells)
    { s with tmp := { s.tmp with job := smSet {} j { x with cells := x.cells ++ got, bad := x.bad.filter (fun y => !bad.contains y) } s.tmp.job } }

/-- A decay pass of unit `u` starts: a readout of it pauses for the 16,384 FCLK that the pass takes (R244, R253). -/
def State.tmpPause (s : State) (u : Nat) : State :=
  match s.tmp.run with
  | none => s
  | some j =>
    let x := smGet {} j s.tmp.job
    if x.unit = u ∧ 0 < x.cols then
      { s with tmp := { s.tmp with job := smSet {} j { x with from_ := x.from_ + 16384 } s.tmp.job } } else s

/-- The spills in progress have read, by the end of tick `t`, four counts in each FCLK from their start, in local column order (R435). -/
def State.spillRead (s : State) (t : Nat) : State :=
  { s with bank := { s.bank with spill := s.bank.spill.map (fun (x : Nat × SpillJob) =>
      let j := x.2
      let n := min (4 * j.total) (4 * (t + 1 - j.from_))
      let cols := if s.ganged (j.unit / 4 * 4) then 1024 else 2048
      let new := (List.range (n - j.done)).map (fun i => smGet 0 (j.row0 * cols + j.done + i) (s.den_ j.unit).cells)
      (x.1, { j with done := max j.done n, cells := j.cells ++ new })) } }

/-- A decay pass of the plane that unit `u` leads starts: a spill of it pauses (R435). -/
def State.spillPause (s : State) (u : Nat) : State :=
  { s with bank := { s.bank with spill := s.bank.spill.map (fun (x : Nat × SpillJob) =>
      if (s.denUnits u).contains x.2.unit && x.2.done < 4 * x.2.total then (x.1, { x.2 with from_ := x.2.from_ + 16384 }) else x) } }

/-- What the sweep ports have read by the end of tick `t`, before cells change; the pause that a pass of unit `u` brings. -/
def State.sweepRead (s : State) (t : Nat) : State := (s.tmpRead t).spillRead t
def State.sweepPause (s : State) (u : Nat) : State := (s.tmpPause u).spillPause u

/-- A cell lies in region `r` of unit `u` (R249). -/
def State.inRegion (s : State) (u r : Nat) (h : Nat × Nat) : Bool :=
  let p := pg .den u
  s.rd p (Reg.DEN_RGN_BOX_COL_LO r) ≤ h.1 && h.1 ≤ s.rd p (Reg.DEN_RGN_BOX_COL_HI r) &&
    s.rd p (Reg.DEN_RGN_BOX_ROW_LO r) ≤ h.2 && h.2 ≤ s.rd p (Reg.DEN_RGN_BOX_ROW_HI r)

/-- Region `r` of unit `u` fires for a trace with these hits (R249): `old` is the state before the increments. -/
def State.regionFires (s old : State) (u r : Nat) (hits : List (Nat × Nat)) : Bool :=
  let p := pg .den u
  let th := s.rd p (Reg.DEN_RGN_TRIG_THRESH r)
  let mine := hits.filter (fun h => s.inRegion u r h)
  s.on p (Reg.DEN_RGN_TRIG_EN r) &&
    (if s.on p (Reg.DEN_RGN_TRIG_MODE r) then mine.any (fun h => old.cell u h.1 h.2 < th && th ≤ s.cell u h.1 h.2)
    else th ≤ mine.length)

/-- DENSITY_UPDATE (R234, R236, R238, R248, R249, R250): the oldest accepted trace of lead unit `u` increments its cells,
and the regions are evaluated; `unc` are SRAM words read with an uncorrectable error, by unit of the gang. -/
def execDensityUpdate (t : Nat) (u : Fin 16) (unc : List (Fin 4 × Fin 262144)) (s : State) :
    Host.Outcome State Fault Refusal :=
  let s := s.advance t
  let x := s.den_ u
  match (if s.working (pg .den u) then x.acc else []) with
  | [] => .next s
  | d :: l =>
    let s := (s.sweepRead s.tick).setDen u { x with acc := l }
    let s := s.each unc (fun s y => if s.ganged u || y.1.val == 0 then s.denUnc (u + y.1) y.2 else s)
    let hits := s.denHits u d.pts
    let old := s
    let s := s.each hits (fun s h => s.denInc u h)
    .next (s.each (List.range 4) (fun s r =>
      if s.regionFires old u r hits then s.sourcePulse (0x1000 + 4 * u + r) 0 t (if s.ganged u then 6 else 4) d.stamp else s))

/-! Decay (R244, R245). -/

/-- One decay step of a counter (R244). -/
def decayStep (mode d sub c : Nat) : Nat :=
  if mode = 1 then c - max 1 ((c + 2 ^ (d - 1)) / 2 ^ d)
  else if mode = 2 then c - min c sub else c

/-- A pass over the plane that unit `u` leads: one step on every cell above 0 (notes/assumptions/18); the words `unc` are found
uncorrectable (R234). -/
def State.decayPass (s : State) (u : Nat) (unc : List (Fin 4 × Fin 262144)) : State :=
  let p := pg .den u
  let s := (s.sweepRead s.tick).sweepPause u
  let s := s.each unc (fun s y => if s.ganged u || y.1.val == 0 then s.denUnc (u + y.1) y.2 else s)
  let f := decayStep (s.rd p Reg.DEN_DECAY_CFG_MODE) (s.rd p Reg.DEN_DECAY_CFG_D) (s.rd p Reg.DEN_DECAY_CFG_SUB)
  s.each (s.denUnits u) (fun s m =>
    let x := s.den_ m
    s.setDen m { x with cells := (x.cells.map (fun y => (y.1, f y.2))).filter (fun y => y.2 != 0) })

/-- DECAY_PASS_START (R244, R245): a pass that has fallen due starts, is held, or is discarded; `unc` are the words that a pass which starts finds
uncorrectable. -/
def execDecayPassStart (t : Nat) (u : Fin 16) (unc : List (Fin 4 × Fin 262144)) (s : State) : Host.Outcome State Fault Refusal :=
  let s := s.advance t
  let x := s.den_ u
  .next (if x.due = 0 || !s.working (pg .den u) then s
    else if !x.run then (s.setDen u { x with due := x.due - 1, run := true, passAt := s.tick }).decayPass u unc
    else if !x.held then s.setDen u { x with due := x.due - 1, held := true }
    else ((s.setDen u { x with due := x.due - 1 }).bumpSat (pg .den u) Reg.DEN_DEN_STAT_DECAY_MISS 1).event .den u 2)

/-- DECAY_PASS_END (R244, R245): a pass ends 16,384 FCLK after its start; one held starts then, and finds the words `unc` uncorrectable. -/
def execDecayPassEnd (t : Nat) (u : Fin 16) (unc : List (Fin 4 × Fin 262144)) (s : State) : Host.Outcome State Fault Refusal :=
  let s := s.advance t
  let x := s.den_ u
  .next (if !x.run || !s.working (pg .den u) || s.tick < x.passAt + 16384 then s
    else if x.held then (s.setDen u { x with held := false, passAt := x.passAt + 16384 }).decayPass u unc
    else s.setDen u { x with run := false })

/-! Clears (R246). -/

/-- The plane that unit `u` leads is cleared (R246): every cell reads 0 and the decay count restarts. -/
def State.denClear (s : State) (u : Nat) : State :=
  let s := s.sweepRead s.tick
  let s := s.each (s.denUnits u) (fun s m =>
    (s.setDen m { s.den_ m with cells := [] }).wr (pg .den m) Reg.DEN_DEN_STAT_SAT_SEEN 0)
  s.setDen u { s.den_ u with count := 0, since := 0 }

/-- DENSITY_CLEAR (R246, R263): a write of DEN_CTL.CLEAR. -/
def execDensityClear (t : Nat) (u : Fin 16) (s : State) : Host.Outcome State Fault Refusal :=
  .next ((s.advance t).hosted (pg .den u) 0x110 1 (fun s => s.denClear u))

/-- A write of DEN_CLR (R263). -/
def State.denClr (s : State) (u : Nat) : State :=
  s.wrs (pg .den u) [(Reg.DEN_DEN_STAT_TRACES, 0), (Reg.DEN_DEN_STAT_SKIPS, 0), (Reg.DEN_DEN_STAT_DECAY_MISS, 0),
    (Reg.DEN_DEN_CNT_SAT_INC, 0), (Reg.DEN_DEN_CNT_UNC, 0)]

/-- DEN_CLR (R263). -/
def execDenClr (t : Nat) (u : Fin 16) (s : State) : Host.Outcome State Fault Refusal :=
  .next ((s.advance t).hosted (pg .den u) 0x128 1 (fun s => s.denClr u))

end Sys2Proof.Machine
end

