-- ==== Sys2Proof/Machine/ToneMap.lean ====
section
/-!
DEFINITION. The tone mapper: readouts, deferrals, density images, trace images and raw counts (R251 to R261, R264).
-/
namespace Sys2Proof.Machine

/-- Job `j` beyond its registers. -/
def State.tjob (s : State) (j : Nat) : TmpJob := smGet {} j s.tmp.job
def State.setTjob (s : State) (j : Nat) (x : TmpJob) : State := { s with tmp := { s.tmp with job := smSet {} j x s.tmp.job } }

/-- The KIND of job `j` (R251). -/
def State.jobKind (s : State) (j : Nat) : Nat := s.rd tmpPage (Reg.TMP_JOB_CFG_KIND j)

/-- The density unit of job `j` (R251, R252), where it is bound and leads. -/
def State.jobUnit (s : State) (j : Nat) : Option Nat :=
  let u := s.rd tmpPage (Reg.TMP_JOB_SRC_DEN_SEL j)
  if s.on (pg .den u) Reg.DEN_DEN_CFG_BIND && s.inEpoch (pg .den u) && (u % 4 == 0 || !s.ganged (u / 4 * 4)) then some u
  else none

/-- The trace of a KIND 1 job, where it is enabled (R252): context and trace. -/
def State.jobTrace (s : State) (j : Nat) : Option (Nat × Nat) :=
  let c := s.rd tmpPage (Reg.TMP_JOB_SRC_CTX j)
  let i := s.rd tmpPage (Reg.TMP_JOB_SRC_TRC j)
  if (s.actx c).running && s.on (pg .ctx c) (Reg.CTX_TRC_CFG_EN i) then some (c, i) else none

/-- The columns in use of a density binding (R239) and of a trace job (R260). -/
def State.denUse (s : State) (u : Nat) : Nat :=
  let p := pg .den u
  s.tracePoints (s.rd p Reg.DEN_DEN_CFG_CTX) (s.rd p Reg.DEN_DEN_CFG_TRC) / 2 ^ s.rd p Reg.DEN_DEN_CFG_CDEC_LOG2
def State.jobCols (s : State) (j : Nat) : Nat :=
  s.tracePoints (s.rd tmpPage (Reg.TMP_JOB_SRC_CTX j)) (s.rd tmpPage (Reg.TMP_JOB_SRC_TRC j)) /
    2 ^ s.rd tmpPage (Reg.TMP_JOB_SRC_CDEC_LOG2 j)

/-- The image of job `j`: W and H (R254). -/
def State.jobSize (s : State) (j : Nat) : Nat × Nat :=
  match s.jobKind j with
  | 0 =>
    let u := s.rd tmpPage (Reg.TMP_JOB_SRC_DEN_SEL j)
    (s.denUse u * 2 ^ s.rd tmpPage (Reg.TMP_JOB_CFG_HREP j), s.denRows u * 2 ^ s.rd tmpPage (Reg.TMP_JOB_CFG_VREP j))
  | 1 => (s.jobCols j * 2 ^ s.rd tmpPage (Reg.TMP_JOB_CFG_HREP j), s.rd tmpPage (Reg.TMP_JOB_GEOM_H j))
  | _ => let u := s.rd tmpPage (Reg.TMP_JOB_SRC_DEN_SEL j); (s.denUse u, s.denRows u)

/-- Buffer `b` of job `j`. -/
def State.jobBuf (s : State) (j b : Nat) : Nat :=
  if b = 0 then s.rd tmpPage (Reg.TMP_JOB_BUF0_ADDR j) else s.rd tmpPage (Reg.TMP_JOB_BUF1_ADDR j)

/-- The buffer that a readout of job `j` writes (R256): the one other than CUR. -/
def State.jobTarget (s : State) (j : Nat) : Nat := 1 - s.rd tmpPage (Reg.TMP_JOB_STAT_CUR j)

/-- A head has taken buffer `b` of job `j` and has not retired it (R257). -/
def State.bufBusy (s : State) (j b : Nat) : Bool := s.tmp.taken.any (fun x => x / 64 == j && x / 32 % 2 == b)

/-! Pixels. -/

/-- log2 c with 8 fraction bits, rounded half up (R258). -/
def log2Frac8 (c : Nat) : Nat := (Nat.log2 (c ^ 512) + 1) / 2

/-- The luma of a cell count (R258). -/
def lumaOf (y0 ofs slope c : Nat) : Nat := if c = 0 then y0 else min 1023 (ofs + (log2Frac8 c * slope + 2 ^ 11) / 2 ^ 12)

/-- The count that the readout of job `j` has read for column `x` of line `y`, each of them one cell (R254, R256). -/
def State.readCell (s : State) (j x y : Nat) : Nat := let z := s.tjob j; z.cells.getD (y * z.cols + x) 0

/-- The luma at (x, y) of a KIND 0 image (R254, R258). -/
def State.imgLuma (s : State) (j x y : Nat) : Nat :=
  lumaOf (s.rd tmpPage (Reg.TMP_JOB_YMAP_Y_ZERO j)) (s.rd tmpPage (Reg.TMP_JOB_YMAP_Y_OFS j))
    (s.rd tmpPage (Reg.TMP_JOB_YMAP_Y_SLOPE j))
    (s.readCell j (x / 2 ^ s.rd tmpPage (Reg.TMP_JOB_CFG_HREP j)) (y / 2 ^ s.rd tmpPage (Reg.TMP_JOB_CFG_VREP j)))

/-- The palette entry of the 2 × 2 block at (2x, 2y) of a KIND 0 image (R259): Cb, Cr. -/
def State.imgChroma (s : State) (j x y : Nat) : Nat × Nat :=
  let m := max (max (s.imgLuma j (2 * x) (2 * y)) (s.imgLuma j (2 * x + 1) (2 * y)))
    (max (s.imgLuma j (2 * x) (2 * y + 1)) (s.imgLuma j (2 * x + 1) (2 * y + 1)))
  let e := smGet 0 (1024 * s.rd tmpPage (Reg.TMP_JOB_CFG_PAL j) + m) s.tmp.pal
  (e / 1024, e % 1024)

/-- The row of column `x` of a trace image, from its bottom (R260). -/
def State.traceRow (s : State) (j x : Nat) : Nat :=
  let v := (s.tjob j).img.getD x 0
  let a := (v - s.rdS tmpPage (Reg.TMP_JOB_SRC_FLOOR_DB j)) / (2 ^ s.rd tmpPage (Reg.TMP_JOB_SRC_ROW_LOG2 j) : Nat)
  (clampInt 0 (s.rd tmpPage (Reg.TMP_JOB_GEOM_H j) - 1 : Nat) a).toNat

/-- The luma at image column `x`, line `y` of a trace image (R260). -/
def State.tracePixel (s : State) (j x y : Nat) (blank : Bool) : Nat :=
  let h := s.rd tmpPage (Reg.TMP_JOB_GEOM_H j)
  let col := x / 2 ^ s.rd tmpPage (Reg.TMP_JOB_CFG_HREP j)
  let a := s.traceRow j col
  let b := if col = 0 then a else s.traceRow j (col - 1)
  let row := h - 1 - y
  if !blank && min a b ≤ row && row ≤ max a b then part (s.rd tmpPage (Reg.TMP_JOB_YMAP_Y_OFS j)) 0 8
  else part (s.rd tmpPage (Reg.TMP_JOB_YMAP_Y_ZERO j)) 0 8

/-- The planes of job `j`'s image written from `base` on, and the zeros before them (R255). -/
def State.writePlanes (s : State) (j base : Nat) (blank : Bool) : State :=
  let w := (s.jobSize j).1
  let h := (s.jobSize j).2
  let pitch := s.rd tmpPage (Reg.TMP_JOB_GEOM_PITCH j)
  let xs := List.range w
  let y0 := base + 0x1000
  let src := s
  let s := s.writeBytes (base + 0x20) (List.replicate 0xFE0 0)
  match s.jobKind j with
  | 0 =>
    let s := s.each (List.range h) (fun s y => s.writeBytes (y0 + y * pitch) (xs.flatMap (fun x => leBytes 2 (src.imgLuma j x y))))
    let c0 := y0 + h * pitch
    let half := List.range (w / 2)
    if s.on tmpPage (Reg.TMP_JOB_CFG_PLANAR j) then
      s.each (List.range (h / 2)) (fun s y =>
        (s.writeBytes (c0 + y * (pitch / 2)) (half.flatMap (fun x => leBytes 2 (src.imgChroma j x y).1))).writeBytes
          (c0 + (h / 2 + y) * (pitch / 2)) (half.flatMap (fun x => leBytes 2 (src.imgChroma j x y).2)))
    else
      s.each (List.range (h / 2)) (fun s y => s.writeBytes (c0 + y * pitch)
        (half.flatMap (fun x => let e := src.imgChroma j x y; leBytes 2 e.1 ++ leBytes 2 e.2)))
  | 1 => s.each (List.range h) (fun s y => s.writeBytes (y0 + y * pitch) (xs.flatMap (fun x => leBytes 1 (src.tracePixel j x y blank))))
  | _ => s.each (List.range h) (fun s y =>
      s.writeBytes (y0 + y * pitch) (xs.flatMap (fun x => leBytes 2 (src.readCell j x y))))

/-! Readouts. -/

/-- The readout of job `j` starts at tick `t` (R253, R255, R256, R260): a new GEN is written; the cells are read as time goes on, after a decay
pass of their unit in progress; a trace image is drawn from the job's present values. -/
def State.beginReadout (s : State) (j t : Nat) : State :=
  let x := s.tjob j
  let u := s.rd tmpPage (Reg.TMP_JOB_SRC_DEN_SEL j)
  let d := s.den_ u
  let trace := s.jobKind j == 1
  let blank := trace && ((s.jobTrace j).isNone || (x.got == 0 && (x.v.isEmpty || s.rd tmpPage (Reg.TMP_JOB_CFG_TRC_MODE j) != 0)))
  let s := { s with tmp := { s.tmp with run := some j } }
  let s := s.writeNat (s.jobBuf j (s.jobTarget j)) 8 (x.gen + 1)
  let y := { x with
    gen := (x.gen + 1) % 2 ^ 64, started := t, traces := if trace then x.got else d.since, noData := blank, got := 0, deferred := false
    img := x.v, unit := u, cols := if trace then 0 else s.denUse u, rows := s.denRows u, cells := []
    from_ := if !trace && d.run then max t (d.passAt + 16384) else t }
  s.setTjob j (if s.rd tmpPage (Reg.TMP_JOB_CFG_TRC_MODE j) = 0 then y else { y with v := [] })

/-- The readout of job `j` has taken its whole time at tick `t` (R253): four cells, or 64 pixels, in each FCLK. -/
def State.readoutOver (s : State) (j t : Nat) : Bool :=
  let x := s.tjob j
  if s.jobKind j = 1 then
    let w := s.jobSize j
    decide (x.from_ + (w.1 * w.2 + 63) / 64 ≤ t)
  else decide (x.from_ + (x.cols * x.rows + 3) / 4 ≤ t)

/-- The next readout that waits starts, where none is in progress (R253, R257): one whose target buffer is busy is
deferred, which is counted once. -/
def State.kickReadouts (s : State) (t : Nat) : State :=
  if s.tmp.run.isSome || !s.working tmpPage then s
  else
    let s := s.each s.tmp.wait (fun s j =>
      let x := s.tjob j
      if s.bufBusy j (s.jobTarget j) && !x.deferred then
        (((s.setTjob j { x with deferred := true }).bumpSat tmpPage (Reg.TMP_JOB_STAT_DEFERS j) 1).bumpSat tmpPage
          Reg.TMP_TMP_STAT_DEFERS 1).event .tmp 0 0
      else s)
    match s.tmp.wait.find? (fun j => !s.bufBusy j (s.jobTarget j)) with
    | none => s
    | some j => ({ s with tmp := { s.tmp with wait := s.tmp.wait.erase j } }).beginReadout j t

/-- A readout of job `j` falls due (R252, R253). -/
def State.readoutDue (s : State) (j : Nat) : State :=
  if s.on tmpPage (Reg.TMP_JOB_STAT_BUSY j) then
    ((s.bumpSat tmpPage (Reg.TMP_JOB_STAT_MISSED j) 1).bumpSat tmpPage Reg.TMP_TMP_STAT_MISSED 1).event .tmp 0 2
  else if s.jobKind j != 1 && (s.jobUnit j).isNone then s.wr tmpPage (Reg.TMP_JOB_STAT_VALID j) 0
  else ({ s with tmp := { s.tmp with wait := s.tmp.wait ++ [j] } }).wr tmpPage (Reg.TMP_JOB_STAT_BUSY j) 1

/-- The jobs whose readouts fall due at tick `t` by their PERIOD, or have fallen due at a head's frame start, each with its tick, in the order in
which they fell due and ascending (R253). -/
def State.jobsDue (s : State) (t : Nat) : List (Nat × Nat) :=
  let due := (List.range 32).filterMap (fun j =>
    let x := s.tjob j
    if !s.on tmpPage (Reg.TMP_JOB_CFG_EN j) then none
    else if s.rd tmpPage (Reg.TMP_JOB_CFG_SYNC j) = 0 then (if x.next ≤ t then some (x.next, j) else none)
    else if x.due then some (x.next, j) else none)
  due.foldl (fun l y => l.takeWhile (fun z => z.1 ≤ y.1) ++ y :: l.dropWhile (fun z => z.1 ≤ y.1)) []

/-- TMP_READOUT_START (R253): the readouts that have fallen due take their turn, and those that wait start; the readout of job `j`, in progress
or next, is to find the words `unc` uncorrectable (R234). -/
def execTmpReadoutStart (t : Nat) (j : Fin 32) (unc : List (Fin 4 × Fin 262144)) (s : State) : Host.Outcome State Fault Refusal :=
  let s := s.advance t
  .next (if !s.working tmpPage then s
    else
      let s := s.setTjob j { s.tjob j with bad := (s.tjob j).bad ++ unc.map (fun y => (y.1.val, y.2.val)) }
      let s := s.each (s.jobsDue s.tick) (fun s y =>
        let x := s.tjob y.2
        let next := if s.rd tmpPage (Reg.TMP_JOB_CFG_SYNC y.2) = 0 then x.next + s.rd tmpPage (Reg.TMP_JOB_PERIOD_PERIOD y.2) else x.next
        (s.setTjob y.2 { x with due := false, next := next }).readoutDue y.2)
      s.kickReadouts s.tick)

/-- TMP_FLIP (R253, R255, R256): the writes of the readout in progress are complete. -/
def execTmpFlip (t : Nat) (j : Fin 32) (s : State) : Host.Outcome State Fault Refusal :=
  let s := s.advance t
  .next (if s.tmp.run ≠ some j.val || !s.working tmpPage || !s.readoutOver j s.tick then s
    else
      let s := s.tmpRead s.tick
      let x := s.tjob j
      let b := s.jobTarget j
      let size := s.jobSize j
      let s := s.writePlanes j (s.jobBuf j b) x.noData
      let s := s.writeWords (s.jobBuf j b + 8)
        [x.started, x.traces, size.1 + size.2 * 2 ^ 16 + s.jobKind j * 2 ^ 32 + b2n x.noData * 2 ^ 40]
      let s := s.setTjob j { x with cells := [], img := [], bad := [] }
      let s := s.wrs tmpPage [(Reg.TMP_JOB_STAT_CUR j, b), (Reg.TMP_JOB_STAT_VALID j, 1), (Reg.TMP_JOB_STAT_BUSY j, 0),
        (Reg.TMP_JOB_STAT_GEN j, x.gen)]
      let s := (s.bump tmpPage Reg.TMP_TMP_STAT_FLIPS 1).event .tmp 0 1
      ({ s with tmp := { s.tmp with run := none } }).kickReadouts s.tick)

/-- TMP_WRITE_ERR (R257): a write completed with an error ends the readout; CUR keeps its value. -/
def execTmpWriteErr (t : Nat) (j : Fin 32) (s : State) : Host.Outcome State Fault Refusal :=
  let s := s.advance t
  .next (if s.tmp.run ≠ some j.val || !s.working tmpPage then s
    else
      let s := (s.tmpRead s.tick).setTjob j { (s.tmpRead s.tick).tjob j with cells := [], img := [], bad := [] }
      let s := (s.wr tmpPage (Reg.TMP_JOB_STAT_BUSY j) 0).event .tmp 0 3
      ({ s with tmp := { s.tmp with run := none } }).kickReadouts s.tick)

/-- A trace of context `c` reaches the trace jobs that draw it (R260). -/
def State.traceToJobs (s : State) (c i : Nat) (pts : List Int) : State :=
  s.each ((List.range 32).filter (fun j => s.on tmpPage (Reg.TMP_JOB_CFG_EN j) && s.jobKind j == 1 && s.jobTrace j == some (c, i)))
    (fun s j =>
      let x := s.tjob j
      let d := 2 ^ s.rd tmpPage (Reg.TMP_JOB_SRC_CDEC_LOG2 j)
      let mode := s.rd tmpPage (Reg.TMP_JOB_CFG_TRC_MODE j)
      let group (k : Nat) := (pts.drop (k * d)).take d
      let top (l : List Int) := l.foldl max (l.headD 0)
      let low (l : List Int) := l.foldl min (l.headD 0)
      let v := (List.range (s.jobCols j)).map (fun k =>
        let g := group k
        match mode, x.v[k]? with
        | 1, some y => max y (top g)
        | 2, some y => min y (low g)
        | 2, none => low g
        | _, _ => top g)
      s.setTjob j { x with v := v, got := x.got + 1 })

end Sys2Proof.Machine
end

