-- ==== Sys2Proof/Machine/Transform.lean ====
section
/-!
DEFINITION. The transform array: frames and pipelines, overload, stored records, averaging, frequency masks and what a
frame brings to the density units and trace jobs (R203 to R233, R267 to R270, R283).
-/
namespace Sys2Proof.Machine

/-- Pipeline `p` beyond its registers. -/
def State.xfp (s : State) (p : Nat) : XfPipe := smGet {} p s.xf.pipe
def State.setXfp (s : State) (p : Nat) (x : XfPipe) : State := { s with xf := { s.xf with pipe := smSet {} p x s.xf.pipe } }

/-- Pipeline j of the list of context `c` (R210). -/
def State.pipeOf (s : State) (c : Nat) (new : Bool) (j : Nat) : Nat :=
  if j < 8 then s.xfRd c new (Reg.CTX_XF_PIPES0_PIPE j) else s.xfRd c new (Reg.CTX_XF_PIPES1_PIPE (j - 8))

/-! Pipelines (R212). -/

/-- Pipeline `p` is reading a frame. -/
def State.pipeReading (s : State) (p : Nat) : Bool :=
  s.xf.ctx.any (fun x => x.2.frames.any (fun f => f.pipe == p && f.phase == 1))

/-- The waiting frames of pipeline `p`, as (tick, context, number). -/
def State.pipeWaiting (s : State) (p : Nat) : List (Nat × Nat × Nat) :=
  s.xf.ctx.flatMap (fun x => (x.2.frames.filter (fun f => f.pipe == p && f.phase == 0)).map (fun f => (f.at_, x.1, f.seq)))

/-- The frame number `seq` of context `c` changed by `g`. -/
def State.mapFrame (s : State) (c seq : Nat) (g : XfFrame → XfFrame) : State :=
  let x := s.xfc c
  s.setXfc c { x with frames := x.frames.map (fun f => if f.seq = seq then g f else f) }

/-- The read in progress on pipeline `p`: context and frame. -/
def State.pipeRead (s : State) (p : Nat) : Option (Nat × XfFrame) :=
  s.xf.ctx.findSome? (fun x => (x.2.frames.find? (fun f => f.pipe == p && f.phase == 1)).map (fun f => (x.1, f)))

/-- Pipeline `p`, idle, starts the oldest frame that became ready before tick `t`, frames of one FCLK by context number (R212): at tick `now`,
or, where it has waited for a frame, as that became ready. -/
def State.pipeStart (s : State) (p t : Nat) (now : Option Nat) : State :=
  if s.pipeReading p || !s.working (pg .xfp p) then s
  else
    let w := (s.pipeWaiting p).filter (fun y => y.1 < t)
    match w.foldl (fun m y => match m with
        | none => some y
        | some z => if y.1 < z.1 || (y.1 == z.1 && (y.2.1 < z.2.1 || (y.2.1 == z.2.1 && y.2.2 < z.2.2))) then some y else some z) none with
    | none => s
    | some y => s.mapFrame y.2.1 y.2.2 (fun f => { f with phase := 1, readAt := now.getD f.at_ })

/-- The read in progress on pipeline `p` has lasted its N/16 FCLK at tick `t` (R212). -/
def State.readOver (s : State) (p t : Nat) : Bool := match s.pipeRead p with
  | some (_, f) => decide (f.readAt + f.n / 16 ≤ t)
  | none => false

/-- A frame of context `c` is dropped on pipeline `p` at tick `t` (R214, R215). -/
def State.dropFrame (s : State) (c p seq hop t per : Nat) (start : SubTick) : State :=
  let s := (s.bumpSat (pg .xfp p) Reg.XFP_XFP_STAT_DROP_CNT 1).bumpSat (pg .ctx c) Reg.CTX_XF_STAT_DROPS 1
  let s := s.setXfp p { s.xfp p with lastDrop := t }
  let x := s.xfc c
  let joins (r : DropRun) : Bool := r.seq + r.strides == seq && r.hop == hop && r.per == per
  let runs := if x.runs.any joins then x.runs.map (fun r => if joins r then { r with strides := r.strides + 1 } else r)
    else x.runs ++ [⟨seq, start, 1, hop, per⟩]
  (s.setXfc c { x with runs := runs }).setRaw (evId .xfp p 0) true

/-- The next frame of a grid has its last sample in the input store (R205). -/
def XfGrid.ready (g : XfGrid) : Bool := g.more && !g.full.isEmpty

/-- It became ready at this tick (R205, R290). -/
def XfGrid.readyAt (g : XfGrid) : Nat := g.full.headD 0

/-- The samples of the next frame of a grid, oldest first. -/
def XfGrid.frame (g : XfGrid) : List ViewSample := ((g.hist.drop (g.got - (g.next * g.hop + g.n))).take g.n).reverse

/-- A frame takes its place in frame order. -/
def insertFrame (f : XfFrame) (l : List XfFrame) : List XfFrame :=
  l.takeWhile (fun g => g.seq < f.seq) ++ f :: l.dropWhile (fun g => g.seq < f.seq)

/-- A grid after its next frame has become ready or has been dropped. -/
def XfGrid.step (g : XfGrid) : XfGrid :=
  { g with next := g.next + 1, full := g.full.tail, hist := g.hist.take (max 1 (g.got - (g.next + 1) * g.hop)) }

/-- The next frame of grid `g` of context `c` becomes ready at tick `t`, under the new settings where `new` (R205, R210, R214, R221): what is
left of the grid goes where `put` says. -/
def State.frameReady (s : State) (c t : Nat) (g : XfGrid) (new : Bool) (put : XfGrid → XfCtx → XfCtx) : State :=
  let j := g.next
  let p := s.pipeOf c new (j % (s.xfRd c new Reg.CTX_XF_CFG_PIPE_M1 + 1))
  let s := s.pipeStart p t none
  if s.readOver p t then s
  else
    let start := g.stamp (j * g.hop)
    let data := g.frame
    let pts := data.map (fun y => (y.i, y.q))
    let exp := blockExp (absSum (s.winWords c p g.n new [])) (peakInput g.order pts)
    let f : XfFrame := { seq := g.seq0 + j, grid := j, start := start, data := pts, marks := data.foldl (fun m y => m ||| y.mark) 0
                         pipe := p, n := g.n, hop := g.hop, exp := exp, phase := 0, at_ := t, opens := g.opens, new := new
                         per := g.per, order := g.order }
    let x := s.xfc c
    let blocked := x.frames.any (fun h => h.pipe == p && h.phase == 0)
    if blocked then (s.setXfc c (put g.step x)).dropFrame c p f.seq g.hop t g.per start
    else
      let s := s.setXfc c (put { g.step with opens := false } { x with frames := insertFrame f x.frames })
      s.wr (pg .ctx c) Reg.CTX_XF_STAT_LAST_EXP (unsigned 8 exp)

/-- The next frame of grid `g` of context `c` becomes ready where its samples have left the view stage by tick `t`. -/
def State.gridDue (s : State) (c t : Nat) (g : XfGrid) (new : Bool) (put : XfGrid → XfCtx → XfCtx) : State :=
  if t < g.readyAt then s else s.frameReady c g.readyAt g new put

/-- FRAME_READY (R204, R205, R210, R212, R214, R216, R221): the last sample of the next frame of context `c` has entered the
input store; the frames that start before the switch point come first. A read that ends in this FCLK ends before. -/
def execFrameReady (t : Nat) (c : Fin 1024) (s : State) : Host.Outcome State Fault Refusal :=
  let s := s.advance t
  let x := s.xfc c
  .next (if s.gated || !(s.actx c).running then s
    else match x.prev, x.cur with
    | some g, h =>
      if g.ready then s.gridDue c t g false (fun g x => { x with prev := if g.more then some g else none })
      else (match h with
        | some h => if h.ready then s.gridDue c t h (!x.next.isEmpty) (fun g x => { x with cur := some g }) else s
        | none => s)
    | none, some h => if h.ready then s.gridDue c t h (!x.next.isEmpty) (fun g x => { x with cur := some g }) else s
    | none, none => s)

/-- PIPELINE_READ_END (R209, R212): the read in progress ends after its N/16 FCLK, with `corr` corrected window words; the words `bad` were
found uncorrectable, and stay so until LOAD_EPOCH writes the store again. The magnitude stage of the frame begins. -/
def execPipelineReadEnd (t : Nat) (p : Fin 64) (corr : Nat) (bad : List (Fin 65536)) (s : State) : Host.Outcome State Fault Refusal :=
  let s := (s.advance t).pipeStart p t none
  match s.pipeRead p with
  | none => .next s
  | some (c, f) =>
    .next (if !s.working (pg .xfp p) || !s.readOver p t then s
      else
        let mine := (List.range f.n).map (fun i => s.winAddr c f.n i f.new)
        let found := (bad.filter (fun a => mine.contains a.val)).map (fun a => 65536 * p.val + a.val)
        let s := { s with xf := { s.xf with winBad := found.filter (fun a => !s.xf.winBad.contains a) ++ s.xf.winBad } }
        let read := ((s.xf.winBad.filter (fun a => a / 65536 == p.val)).map (fun a => a % 65536)).filter mine.contains
        let offset := signed 16 (s.xfRd c f.new Reg.CTX_XF_SCALE_DB_OFFSET)
        let s := s.mapFrame c f.seq (fun f => { f with phase := 2, bad := read, offset := offset })
        let s := s.bumpSat (pg .xfp p) Reg.XFP_XFP_STAT_WIN_CORR corr
        let s := if read.isEmpty then s else (s.wr (pg .xfp p) Reg.XFP_XFP_STAT_WIN_UNC 1).setRaw (evId .xfp p 1) true
        let x := s.xfp p
        let s := s.setXfp p { x with reads := (x.reads.headD 0 + f.n) :: x.reads.drop 1 }
        s.pipeStart p t (some t))

/-- OVERLOAD_CLEAR (R214): 1,024 FCLK have passed with no drop. -/
def execOverloadClear (t : Nat) (p : Fin 64) (s : State) : Host.Outcome State Fault Refusal :=
  let s := s.advance t
  .next (if (s.xfp p).lastDrop + 1024 ≤ t then s.setRaw (evId .xfp p 0) false else s)

/-- A write of XFP_CLR (R232). -/
def State.xfpClr (s : State) (p : Nat) : State :=
  s.wrs (pg .xfp p) [(Reg.XFP_XFP_STAT_DROP_CNT, 0), (Reg.XFP_XFP_STAT_WIN_CORR, 0), (Reg.XFP_XFP_LOAD_PEAK_LOAD, 0)]

/-- XFP_CLR (R232). -/
def execXfpClr (t : Nat) (p : Fin 64) (s : State) : Host.Outcome State Fault Refusal :=
  .next ((s.advance t).hosted (pg .xfp p) 0x110 1 (fun s => s.xfpClr p))

/-- XFP_LOAD_UPDATE (R232): the average over the last 2^24 FCLK, in 1/1,024 of a point per FCLK. -/
def execXfpLoadUpdate (t : Nat) (p : Fin 64) (s : State) : Host.Outcome State Fault Refusal :=
  let s := s.advance t
  let x := s.xfp p
  let load := (x.reads.take 256).sum * 1024 / 2 ^ 24
  .next (if s.gated || t < x.loadAt + 2 ^ 16 then s
    else
      let s := s.setXfp p { x with reads := 0 :: x.reads.take 255, loadAt := t }
      (s.wr (pg .xfp p) Reg.XFP_XFP_LOAD_LOAD load).peak (pg .xfp p) Reg.XFP_XFP_LOAD_PEAK_LOAD load)

/-! Masks (R267 to R270, R283). -/

/-- Segment k of mask m of context `c`: X_START, Y0, SLOPE (R268). -/
def State.segment (s : State) (c m k : Nat) : Nat × Int × Int :=
  let w := s.segWord c (s.rd (pg .ctx c) (Reg.CTX_XF_PIPES0_PIPE 0)) (s.rd (pg .ctx c) (Reg.CTX_MASK_CFG_BASE m) + k)
  (part w 48 16, signed 16 (part w 32 16), signed 32 (part w 0 32))

/-- The segment that point `i` lies on, among those of mask m. -/
def State.segmentOf (s : State) (c m i : Nat) : Nat :=
  (List.range (s.rd (pg .ctx c) (Reg.CTX_MASK_CFG_NSEG_M1 m) + 1)).foldl (fun b k => if (s.segment c m k).1 ≤ i then k else b) 0

/-- The line level at point `i` (R268). -/
def lineLevel (seg : Nat × Int × Int) (i : Nat) : Int :=
  clampInt (-32768) 32767 (seg.2.1 + (seg.2.2 * ((i : Int) - seg.1) + 2 ^ 15) / 2 ^ 16)

/-- The violating points of a trace under mask m (R269, R270): none on a segment whose word is uncorrectable. -/
def State.violations (s : State) (c m : Nat) (pts : List Int) (err : List SegErr) : Nat :=
  (pts.zipIdx.filter (fun y =>
    let k := s.segmentOf c m y.2
    let l := lineLevel (s.segment c m k) y.2
    !(err.any (fun e => e.mask.val == m && e.seg.val == k && e.unc)) &&
      (if s.on (pg .ctx c) (Reg.CTX_MASK_CFG_SENSE m) then y.1 < l else l < y.1))).length

/-- The first violating trace of the stop mask after arming (R283): one MASK_VIOLATION record and the mask-stop event; an
eve+post capture takes the stamp as its trigger point, a ring freezes after the frame's last sample. -/
def State.maskStop (s : State) (c m n : Nat) (stamp : SubTick) (seq : Nat) (last : SubTick) : State :=
  let a := s.actx c
  let mode := s.rd (pg .ctx c) Reg.CTX_CAP_CFG_MODE
  let rec_ (s : State) (froze : Nat) (w3 : Nat) := s.record c 0x04 false false (froze * 4) (m * 2 ^ 32 + min n 0xFFFF)
    (stamp / 16) (seq % 2 ^ 16 * 2 ^ 48 + stamp % 16) w3
  let mark (s : State) := ((s.setActx c { s.actx c with violated := true }).setMap Reg.ACQ_MSTOP_MAP_CTX c).event .acq 0 2
  if a.violated then s
  else if mode = 1 then
    if s.accepts c 3 then
      (mark (rec_ s 1 ((stamp + s.nearSpan c (a.desc.post - 1)) / 16))).takeTrigger c stamp
    else s
  else if mode = 2 then
    if s.capState c = 6 then
      let s := mark (rec_ s 1 (last / 16))
      let a := s.actx c
      let past := a.trail.filter (fun g => decide (last < g.start))
      let n (leap : Bool) : Nat := ((past.filter (fun g => g.leap == leap)).map CapSeg.n).sum
      let first := ((past.filter (fun g => !g.leap)).getLast?).map CapSeg.w
      let s := match first with
        | some w => s.wr (pg .ctx c) Reg.CTX_RAW_WCNT_CNT w
        | none => s
      let s := s.setActx c { a with
        deliv := a.deliv - n false, leap := a.leap - n true, acct := last, trail := a.trail.filter (fun g => decide (g.start ≤ last))
        postGot := 0, trigger := some stamp, frozenAt := some last }
      s.endCapture c 4
    else s
  else mark (rec_ s 0 0)

/-- A trace evaluated by mask m of context `c` at tick `t` (R269, R270, R283). -/
def State.maskTrace (s : State) (c m t : Nat) (pts : List Int) (stamp : SubTick) (seq : Nat) (last : SubTick)
    (err : List SegErr) : Bool × State :=
  let p := pg .ctx c
  let n := s.violations c m pts err
  let viol : Bool := decide (max 1 (s.rd p (Reg.CTX_MASK_CFG_MIN_PTS m)) ≤ n)
  let was := (s.rd p Reg.CTX_MASK_STAT_VIOL).testBit m
  let prev := was && !s.trg.fresh.contains (2 * c + m)
  let s := { s with trg := { s.trg with fresh := s.trg.fresh.filter (fun k => k != 2 * c + m) } }
  let mine := err.filter (fun e => e.mask.val == m)
  let s := s.bumpSat (pg .trn 0) Reg.TRN_TRN_STAT_MASK_CORR (mine.filter (fun e => !e.unc)).length
  let bad := mine.any SegErr.unc
  let s := if bad then s.event .trn 0 0 else s
  let s := s.wr p Reg.CTX_MASK_STAT_VIOL (putBit (s.rd p Reg.CTX_MASK_STAT_VIOL) m viol)
  let s := s.sourceLevel (2 * c + m) viol t 6 stamp bad
  let s := if viol && !prev then s.sourcePulse (2 * c + m) 1 t 6 stamp bad
    else if prev && !viol then s.sourcePulse (2 * c + m) 2 t 6 stamp bad else s
  let stop := viol && s.rd p Reg.CTX_TRG_CFG_MODE == 3 && s.rd p Reg.CTX_TRG_CFG_STOP_MASK == m
  (viol, if stop then s.maskStop c m n stamp seq last else s)

/-! Emission (R210, R218 to R228). -/

/-- A trace as emitted: its index, points, first frame's stamp, last frame's number, flags, view samples covered. -/
structure TraceOut where
  idx : Nat
  pts : List Nat
  start : SubTick
  seq : Nat
  flags : Nat
  samples : Nat
  deriving DecidableEq, Repr

/-- The frame word (R220). -/
def frameWord (seq exp flags : Nat) (start : SubTick) : Nat :=
  seq % 2 ^ 16 * 2 ^ 48 + exp % 2 ^ 8 * 2 ^ 40 + flags % 2 ^ 8 * 2 ^ 32 + start / 16 % 2 ^ 32

/-- Trace `i` of context `c` has a block average (R227). -/
def State.trcAvg (s : State) (c i : Nat) : Nat := s.rd (pg .ctx c) (Reg.CTX_TRC_CFG_AVG i)
def State.trcOn (s : State) (c i : Nat) : Bool := s.on (pg .ctx c) (Reg.CTX_TRC_CFG_EN i)

/-- The points of an emitted trace as signed dB values (R222). -/
def TraceOut.db (x : TraceOut) : List Int := x.pts.map (signed 16)

/-- The stored traces among those emitted go into one record (R218, R225, R228). -/
def State.storeTraces (s : State) (c : Nat) (outs : List TraceOut) : State :=
  let p := pg .ctx c
  let kind := s.rd p Reg.CTX_XF_CFG_KIND
  let mine := outs.filter (fun x => (s.storedTraces c).contains x.idx)
  match mine with
  | [] => s
  | x :: _ =>
    let body := mine.flatMap (fun y => y.pts.flatMap (leBytes (if s.rd p (Reg.CTX_TRC_CFG_FMT y.idx) = 0 then 2 else 4)))
    let s := s.setXfc c { s.xfc c with outT := some { seq := x.seq, exp := 0, flags := x.flags, start := x.start, body := body } }
    if kind < 3 then s
    else
      let head := if s.on p Reg.CTX_XF_CFG_HDR then leBytes 8 (frameWord x.seq 0 x.flags x.start) else []
      let rec_ := head ++ body
      let rec_ := if kind = 4 then rec_ ++ List.replicate ((64 - rec_.length % 64) % 64) 0 else rec_
      s.takeRecord c x.start x.samples rec_ (x.flags.testBit 0)

/-- Emitted traces reach storage, masks, density units and trace jobs (R210, R235, R260, R269). -/
def State.emitTraces (s : State) (c t : Nat) (outs : List TraceOut) (last : SubTick) (err : List SegErr) : State :=
  let s := s.storeTraces c outs
  (s.each outs) |> fun f => if s.cutOff .points c then s else f (fun s x =>
    let p := pg .ctx c
    let ms := [0, 1].filter (fun m => s.on p (Reg.CTX_MASK_CFG_EN m) && s.rd p (Reg.CTX_MASK_CFG_TRC m) == x.idx)
    let r := if s.withheld c then (false, s) else ms.foldl (fun (r : Bool × State) m =>
      let q := r.2.maskTrace c m t x.db x.start x.seq last err
      (r.1 || q.1, q.2)) (false, s)
    let s := if r.1 then r.2.bump p Reg.CTX_MASK_STAT_VIOL_TRACES 1 else r.2
    let s := s.each ((s.denOf c).filter (fun u => s.working (pg .den u) && s.rd (pg .den u) Reg.DEN_DEN_CFG_TRC == x.idx)) (fun s u =>
      let d := s.den_ u
      s.setDen u { d with arr := d.arr ++ [⟨x.start, x.db⟩] })
    s.traceToJobs c x.idx x.db)

/-- The points of trace `i` of context `c`, each as its format holds it, from values in its averaging domain (R222, R223, R227): `g` is G_W. -/
def State.traceOut (s : State) (c i g : Nat) (offset : Int) (l : List (Int × Nat)) : List Nat :=
  let p := pg .ctx c
  let det := s.rd p (Reg.CTX_TRC_CFG_DET i)
  let lin := s.on p (Reg.CTX_TRC_CFG_FMT i)
  l.zipIdx.map (fun y => unsigned (if lin then 32 else 16) (pointOut g offset s.freeCnt i det y.2 lin y.1))

/-- The points of trace `i` of context `c` from one frame's bins, in its averaging domain (R225, R226). -/
def State.tracePts (s : State) (c i g : Nat) (offset : Int) (v : BinValues) : List (Int × Nat) :=
  let p := pg .ctx c
  (List.range (s.tracePoints c i)).map (fun k => v.point g offset s.freeCnt i (s.rd p (Reg.CTX_TRC_CFG_DET i))
    (s.rd p (Reg.CTX_TRC_CFG_BIN_START i)) (s.rd p (Reg.CTX_TRC_CFG_BLOG2 i)) k (s.on p (Reg.CTX_TRC_CFG_FMT i)))

/-- The mean of a block's sums over `n` frames. -/
def blockMean (acc : List Int) (n : Nat) : List (Int × Nat) := acc.map (fun a => (a, 2 ^ 16 * n))

/-- Blocks that ended with a frame dropped, or at a grid restart, before frame `f` (R220, R227): emitted, PARTIAL, with the number of the
block's last frame; `g` is G_W. -/
def State.endBlocks (s : State) (c t g : Nat) (f : XfFrame) (err : List SegErr) : State :=
  let x := s.xfc c
  let a (i : Nat) := s.rd (pg .ctx c) (Reg.CTX_TRC_CFG_AVG_LOG2 i)
  let ended := (List.range 4).filter (fun i =>
    let v := smGet {} i x.avg
    s.trcOn c i && s.trcAvg c i == 2 && 0 < v.frames && (f.opens || v.blk != f.grid / 2 ^ a i))
  let outs := ended.map (fun i =>
    let v := smGet {} i x.avg
    ⟨i, s.traceOut c i g v.offset (blockMean v.acc v.frames), v.start, v.last, v.flags ||| 64, v.strides⟩)
  let s := s.setXfc c { x with avg := ended.foldl (fun m i =>
    smSet {} i { smGet {} i m with frames := 0, flags := 0, strides := 0, acc := [] } m) x.avg }
  let s := { s with freeCnt := s.freeCnt + b2n (!ended.isEmpty) }
  s.emitTraces c t outs f.start err

/-- One point's exponential average, with 16 fraction bits, after the value `x` (R224, R227). -/
def expStep (a : Nat) (acc : Int) (x : Int × Nat) : Int := acc + roundDiv (x.1 * 2 ^ 16 - acc * x.2) (x.2 * 2 ^ a)

/-- A value with 16 fraction bits. -/
def fix16 (x : Int × Nat) : Int := roundDiv (x.1 * 2 ^ 16) x.2

/-- Frame `f` taken into the averaging of trace `i`, whose points it gives as `pts`, and the trace where one is emitted (R227); `g` is G_W. -/
def State.averageTrace (s : State) (c i g : Nat) (f : XfFrame) (flags : Nat) (pts : List (Int × Nat)) : Option TraceOut × State :=
  let x := s.xfc c
  let v := smGet {} i x.avg
  let a := s.rd (pg .ctx c) (Reg.CTX_TRC_CFG_AVG_LOG2 i)
  let mode := s.trcAvg c i
  let restarted := (v.restarted || f.opens) && mode != 0
  let mark := if restarted then 32 else 0
  if mode = 2 then
    let blk := f.grid / 2 ^ a
    let acc := if v.acc.isEmpty then pts.map fix16 else (v.acc.zip pts).map (fun y => y.1 + fix16 y.2)
    let w : AvgSt := { blk := blk, start := if v.frames = 0 then f.start else v.start, frames := v.frames + 1
                       last := f.seq + ((blk + 1) * 2 ^ a - 1 - f.grid), flags := v.flags ||| flags ||| mark
                       strides := v.strides + f.hop, restarted := false, acc := acc, offset := f.offset }
    if f.grid % 2 ^ a = 2 ^ a - 1 then
      let part := if w.frames < 2 ^ a then 64 else 0
      (some ⟨i, s.traceOut c i g f.offset (blockMean acc w.frames), w.start, w.last, w.flags ||| part, w.strides⟩,
        s.setXfc c { x with avg := smSet {} i { w with frames := 0, flags := 0, strides := 0, acc := [] } x.avg })
    else (none, s.setXfc c { x with avg := smSet {} i w x.avg })
  else
    let acc := if mode = 0 then [] else if v.acc.isEmpty || f.opens then pts.map fix16
      else (v.acc.zip pts).map (fun y => expStep a y.1 y.2)
    let out := if mode = 0 then pts else acc.map (fun y => (y, 2 ^ 16))
    (some ⟨i, s.traceOut c i g f.offset out, f.start, f.seq, flags ||| mark, f.hop⟩,
      s.setXfc c { x with avg := smSet {} i { v with restarted := false, acc := acc } x.avg })

/-- The new settings of context `c` take effect in frame order (R216, R247, R288): its fields are loaded; a density plane
whose binding changed is cleared; a changed mask or level source starts as not violating. -/
def State.xfSwitch (s : State) (c t : Nat) : State :=
  let x := s.xfc c
  let key (s : State) (u : Nat) := ([Reg.DEN_DEN_CFG_BIND, Reg.DEN_DEN_CFG_GANG, Reg.DEN_DEN_CFG_CTX, Reg.DEN_DEN_CFG_TRC,
    Reg.DEN_DEN_CFG_CDEC_LOG2, Reg.DEN_DEN_CFG_ROW_LOG2, Reg.DEN_DEN_CFG_FLOOR_DB]).map (fun f => s.rd (pg .den u) f)
  let units := (List.range 16).filter (fun u => x.next.any (fun y => y.1 == pg .den u))
  let s := s.drainsKeep c 1
  let old := s
  let s := s.each x.next (fun s y => s.wr y.1 y.2.1 y.2.2)
  let s := s.each units (fun s u =>
    let bound := s.on (pg .den u) Reg.DEN_DEN_CFG_BIND
    let s := s.wr (pg .den u) Reg.DEN_DEN_STAT_ACTIVE (b2n bound)
    if bound && key old u != key s u then s.denClear u else s)
  let s := s.each x.renewed (fun s m =>
    if m < 2 then
      let s := s.wr (pg .ctx c) Reg.CTX_MASK_STAT_VIOL (clrBit (s.rd (pg .ctx c) Reg.CTX_MASK_STAT_VIOL) m)
      let s := { s with trg := { s.trg with fresh := (2 * c + m) :: s.trg.fresh.erase (2 * c + m) } }
      s.sourceLevel (2 * c + m) false t 0 (16 * t)
    else
      s.levelEnd c (m - 2) t)
  let s := if s.capState c = 6 then s.setActx c { s.actx c with desc := s.capDesc c } else s
  let s := s.drainsMove c 1
  s.setXfc c { s.xfc c with next := [], renewed := [] }

/-- Every frame under the old settings has been emitted or dropped: the new ones take effect. -/
def State.xfSettle (s : State) (c t : Nat) : State :=
  let x := s.xfc c
  if !x.next.isEmpty && x.prev.isNone && x.frames.all XfFrame.new then s.xfSwitch c t else s

/-- The bins of frame `f` of context `c`, exact, under its window as it was read (R206, R207, R209). -/
def State.frameBins (s : State) (c : Nat) (f : XfFrame) : List (Int × Int) :=
  exactBins f.order (Nat.log2 f.n) (windowed (s.winWords c f.pipe f.n f.new f.bad) f.data)

/-- The values of a stored bin record (R218, R219, R221 to R223): complex bins under the frame's exponent, I low; or powers. -/
def State.binWords (s : State) (kind fmt : Nat) (f : XfFrame) (bins : List (Int × Int)) (v : BinValues) : List Nat :=
  if kind = 1 then bins.zipIdx.map (fun y =>
    let i := mantissa f.exp y.1.1 (Config.transformError s.freeCnt y.2 0)
    let q := if f.order = 0 ∧ y.2 = 0 then 0 else mantissa f.exp y.1.2 (Config.transformError s.freeCnt y.2 1)
    unsigned 32 i + unsigned 32 q * 2 ^ 32)
  else if fmt = 0 then v.db.map (unsigned 16) else v.lin.map (unsigned 32)

/-- Frame `f` of context `c` has come out of the transform at tick `t` (R217): 96 FCLK after its read, and 10 more where a magnitude is
taken. -/
def State.frameOut (s : State) (c t : Nat) (f : XfFrame) : Bool :=
  let power := s.xfRd c f.new Reg.CTX_XF_CFG_KIND != 1 || (List.range 4).any (fun i => s.xfRd c f.new (Reg.CTX_TRC_CFG_EN i) == 1)
  f.phase == 2 && decide (f.readAt + f.n / 16 + 96 + (if power then 10 else 0) ≤ t)

/-- FRAME_EMIT (R210, R215, R217 to R229): the lead pipeline emits the next frame of context `c`, in frame order; `segErr` are the ECC
outcomes of the mask segments. -/
def execFrameEmit (t : Nat) (c : Fin 1024) (segErr : List SegErr) (s : State) : Host.Outcome State Fault Refusal :=
  let s := s.advance t
  match (s.xfc c).frames with
  | [] => .next s
  | f :: l =>
    .next (if s.gated || !s.frameOut c t f || (f.new && (s.xfc c).prev.isSome) then s
      else
        let before := match (s.xfc c).out with
          | some o => o.seq + 1 != f.seq
          | none => f.seq != 0
        let p := pg .ctx c
        let lead (s : State) := gainSum (s.winWords c (s.pipeOf c f.new 0) f.n f.new [])
        let oldGain := gainSum (s.winWords c (s.pipeOf c false 0) (2 ^ s.rd p Reg.CTX_XF_CFG_NLOG2) false [])
        let s := (s.setXfc c { s.xfc c with frames := l }).writeRuns c f.seq
        let s := s.endBlocks c t oldGain f segErr
        let bins := s.frameBins c f
        let g := lead s
        let s := if f.new && !(s.xfc c).next.isEmpty then s.xfSwitch c t else s
        let s := if f.opens then { s with trg := { s.trg with
            fresh := 2 * c.val :: (2 * c.val + 1) :: s.trg.fresh.filter (fun k => k / 2 != c.val) } } else s
        let last := f.start + spanOver f.per (f.n - 1)
        let flags := f.marks ||| b2n (!f.bad.isEmpty) * 8 ||| b2n before * 16
        let kind := s.rd p Reg.CTX_XF_CFG_KIND
        let s := s.bump p Reg.CTX_XF_FRAMES_FRAMES 1
        let fmt := s.rd p Reg.CTX_XF_CFG_PWR_FMT
        let v := binValues g f.offset s.freeCnt bins
        let s := s.setXfc c { s.xfc c with out := some { seq := f.seq, exp := unsigned 8 f.exp, flags := flags, start := f.start
                                                         bins := s.binWords 1 0 f bins v, db := v.db.map (unsigned 16) } }
        let width := if kind = 1 then 8 else if fmt = 0 then 2 else 4
        let head := if s.on p Reg.CTX_XF_CFG_HDR then
          leBytes 8 (frameWord f.seq (if kind = 1 then unsigned 8 f.exp else 0) flags f.start) else []
        let words := s.binWords kind fmt f bins v
        let r := ((List.range 4).filter (fun i => s.trcOn c i)).foldl (fun (r : List TraceOut × State) i =>
          let q := r.2.averageTrace c i g f flags (r.2.tracePts c i g f.offset v)
          (match q.1 with
            | some o => r.1 ++ [o]
            | none => r.1, q.2)) ([], s)
        let s := { r.2 with freeCnt := r.2.freeCnt + 1 }
        let s := if kind = 1 ∨ kind = 2 then s.takeRecord c f.start f.hop (head ++ words.flatMap (leBytes width)) (flags.testBit 0) else s
        (s.emitTraces c t r.1 last segErr).xfSettle c t)

end Sys2Proof.Machine
end

