-- ==== Sys2Proof/Machine/Memory.lean ====
section
/-!
DEFINITION. The capture memory controller (R395 to R423): arbitration, refresh, self-refresh, the pin rate, row disturbance,
training, uncorrectable errors, poison and rank migration; and the host's window BAR2 (R325). The commands that carry data
place it at once; MEMORY_REQUEST brings requests to the queue of a pseudo-channel and has the controller serve one; it moves no data
(notes/assumptions/21).
-/
namespace Sys2Proof.Machine

/-! Classes. -/

/-- MIN_SHARE and WEIGHT of class `k` (R398, R423). -/
def State.minShare (s : State) (k : Nat) : Nat := s.rd (pg .mst (k / 16)) (Reg.MST_CLASS_MIN_SHARE (k / 16) (k % 16))
def State.weight (s : State) (k : Nat) : Nat := max 1 (s.rd (pg .mst (k / 16)) (Reg.MST_CLASS_WEIGHT (k % 16)))

/-- A PHY divider as written: values other than 4, 6 and 8 act as 4 (R423). -/
def divOf (n : Nat) : Nat := if n = 6 ∨ n = 8 then n else 4

/-- DIV of timing set `b` of stack `st`, and the divider in force (R405). -/
def State.tset (s : State) (st b : Nat) : Nat :=
  divOf (if b = 0 then s.rd (pg .mst st) Reg.MST_TSET_A_DIV else s.rd (pg .mst st) Reg.MST_TSET_B_DIV)
def State.stackDiv (s : State) (st : Nat) : Nat := s.tset st (s.rd (pg .mst st) Reg.MST_FREQ_STAT_ACT_SET)

/-- The bytes of 1 µs on one pseudo-channel of stack `st` (R395, R405). -/
def State.pcBytes (s : State) (st : Nat) : Nat := 25600 * 4 / s.stackDiv st

/-- The bytes that pseudo-channel `pc` delivered to class `k` in the 1 µs before tick `t` (R399). -/
def State.shareIn (s : State) (pc k t : Nat) : Nat :=
  (((smGet [] (64 * pc + k) s.mem.share).filter (fun x => t < x.1 + 1600)).map Prod.snd).sum

/-- Where class `k` stands under its minimum share, in 1/256 byte (R399). -/
def State.shortBy (s : State) (pc k t : Nat) : Nat := s.minShare k * s.pcBytes (pc / 32) - 256 * s.shareIn pc k t

/-- Class `k` is throttled on channel `c` (R408, R409). -/
def State.throttled (s : State) (c k t : Nat) : Bool := t < smGet 0 (64 * c + k) s.mem.throttle

/-- Class `k` may activate one more row of pseudo-channel `pc` (R408). -/
def State.mayAct (s : State) (pc k t : Nat) : Bool :=
  !s.throttled (pc / 2) k t ||
    ((smGet [] (64 * pc + k) s.mem.actAt).filter (fun x => t < x + 16000)).length <
      s.rd (pg .mst (pc / 32)) Reg.MST_ROWH_CFG_THROT_ACT

/-- The migration step whose granule address `a` lies in, where its rank migrates (R416): pseudo-channel 0 comes before
pseudo-channel 1 in the ascending order of the rank's granules. -/
def State.migStepOf (s : State) (a : Nat) : Option Nat :=
  match s.locate a with
  | some x =>
    if s.on (pg .mch x.chan) Reg.MCH_MCH_STAT_MIGRATING &&
        s.sidOf x.chan x.lrank == s.rd (pg .mch x.chan) Reg.MCH_MIG_JOURNAL_FROM_SID then some (2 * x.gran + x.pc)
    else none
  | none => none

/-- The physical SID that serves address `a` (R396, R416). -/
def State.servingSid (s : State) (a : Nat) : Nat :=
  match s.locate a with
  | some x =>
    let p := pg .mch x.chan
    match s.migStepOf a with
    | some m => if m < s.rd p Reg.MCH_MIG_JOURNAL_STEPS then s.rd p Reg.MCH_MIG_JOURNAL_TO_SID else s.sidOf x.chan x.lrank
    | none => s.sidOf x.chan x.lrank
  | none => 0

/-- The granule of address `a` is the one being copied (R416). -/
def State.copying (s : State) (a : Nat) : Bool :=
  match s.locate a, s.migStepOf a with
  | some x, some m => m == s.rd (pg .mch x.chan) Reg.MCH_MIG_JOURNAL_STEPS && !s.mem.migPaused
  | _, _ => false

/-- Requests of stack `st` are held: a pin-rate switch runs (R406). -/
def State.stackHeld (s : State) (st : Nat) : Bool := s.mem.switching.contains st

/-- Channel `c` serves requests: its page is ON and enabled, once the firmware has brought it up (R41, R145). -/
def State.chanServes (s : State) (c : Nat) : Bool := !s.startedUp || s.runs (pg .mch c)

/-- The requests that wait at pseudo-channel `pc`, oldest first (R395). -/
def State.queueOf (s : State) (pc : Nat) : List QueuedReq := smGet [] pc s.mem.queue

/-- Address `a` lies in pseudo-channel `pc`. -/
def State.liesIn (s : State) (pc a : Nat) : Bool := match s.locate a with
  | some x => 2 * x.chan + x.pc == pc
  | none => false

/-- Two requests touch one 64-byte block (R399). -/
def sameBlock (a b : MemReq) : Bool :=
  a.addr / 64 ≤ (b.addr + b.len - 1) / 64 && b.addr / 64 ≤ (a.addr + a.len - 1) / 64

/-- A tag write: of 8 bytes or fewer, at offset 0 of a granule, in class 24 or 25 (R399). -/
def isTagWrite (r : MemReq) : Bool := (r.cls == 24 || r.cls == 25) && r.write && r.len ≤ 8 && r.addr % 4096 == 0

/-- Request `b` may not be performed before the earlier request `a` of its class (R399): they touch one 64-byte block, or
both are writes of class 24 or 25 and one of them is a tag write. -/
def orderedAfter (a b : MemReq) : Bool := sameBlock a b || (a.write && b.write && (isTagWrite a || isTagWrite b))

/-- No request of `q`'s class that came before it, at any pseudo-channel, must be performed first (R399). -/
def State.inOrder (s : State) (q : QueuedReq) : Bool :=
  s.mem.queue.all (fun x => x.2.all (fun o => q.seq ≤ o.seq || o.req.cls != q.req.cls || !orderedAfter o.req q.req))

/-- Pseudo-channel `pc` may serve `q` at tick `t`. -/
def State.eligible (s : State) (pc t : Nat) (q : QueuedReq) : Bool :=
  s.inOrder q && !s.copying q.req.addr && (!q.req.act || s.mayAct pc q.req.cls t)

/-- Entries that only a class below its minimum share may take of the queue of a pseudo-channel, and all of them (R395, R399). -/
def queueKept : Nat := 8
def queueDepth : Nat := 32

/-- The queue of `pc` has room for a request of class `k` (R395, R399): the classes that are not below their minimum share
hold no more than the entries that are not kept for the others (notes/assumptions/194). -/
def State.queueRoom (s : State) (pc k t : Nat) : Bool :=
  (s.queueOf pc).length < queueDepth && (0 < s.shortBy pc k t ||
    ((s.queueOf pc).filter (fun q => s.shortBy pc q.req.cls t == 0)).length < queueDepth - queueKept)

/-- Request `r` arrives at pseudo-channel `pc` (R395, R411): one that finds no room is not taken, and a capture write to a
channel that is being retrained is discarded. -/
def State.enqueue (s : State) (pc t : Nat) (r : MemReq) : State :=
  if !s.liesIn pc r.addr || !s.queueRoom pc r.cls t || (s.chanState (pc / 2) == 4 && r.write && decide (r.cls.val < 16)) then s
  else { s with mem := { s.mem with queue := smInsert pc (s.queueOf pc ++ [⟨s.mem.reqSeq, r⟩]) s.mem.queue, reqSeq := s.mem.reqSeq + 1 } }

/-- The entry of sequence number `n` leaves the queue of `pc`. -/
def State.dequeue (s : State) (pc n : Nat) : State :=
  { s with mem := { s.mem with queue := smSet [] pc ((s.queueOf pc).filter (fun q => q.seq != n)) s.mem.queue } }

/-- The capture writes that wait at channel `c` are discarded (R411). -/
def State.writesDiscarded (s : State) (c : Nat) : State :=
  s.each [2 * c, 2 * c + 1] (fun s pc => { s with mem := { s.mem with
    queue := smSet [] pc ((s.queueOf pc).filter (fun q => !(q.req.write && decide (q.req.cls.val < 16)))) s.mem.queue } })

/-- The request of class `k` that is served: the `i`-th of those that the order of R399 admits, where there are so many, else the
first. -/
def chosen (able : List QueuedReq) (k i : Nat) : Option QueuedReq :=
  let l := able.filter (fun q => q.req.cls.val == k)
  l[if i < l.length then i else 0]?

/-- The first request of class `k` that waits. -/
def headOf (able : List QueuedReq) (k : Nat) : Option MemReq := (chosen able k 0).map QueuedReq.req

/-- Among the classes below their minimum share, the one furthest below; a tie goes to the lower number (R399). -/
def State.shortest (s : State) (pc t : Nat) (reqs : List QueuedReq) : Option Nat :=
  ((List.range 64).filter (fun k => (headOf reqs k).isSome && 0 < s.shortBy pc k t)).foldl (fun m k => match m with
    | some j => if s.shortBy pc j t < s.shortBy pc k t then some k else some j
    | none => some k) none

/-- Deficit round robin over the classes that wait, in proportion to WEIGHT (R399): the class whose turn it is is served
while its deficit covers its request, else the turn passes on. A class's quantum is WEIGHT × 64 bytes
(notes/assumptions/22). `fuel` bounds the turns. -/
def State.robin (s : State) (pc : Nat) (reqs : List QueuedReq) : Nat → Option (Nat × State)
  | 0 => none
  | fuel + 1 =>
    let k := smGet 0 pc s.mem.turn
    match headOf reqs k with
    | some r =>
      let d := smGet 0 (64 * pc + k) s.mem.deficit
      if r.len ≤ d then
        some (k, { s with mem := { s.mem with deficit := smSet 0 (64 * pc + k) (d - r.len) s.mem.deficit } })
      else
        let s := { s with mem := { s.mem with
          deficit := smSet 0 (64 * pc + k) (d + s.weight k * 64) s.mem.deficit } }
        if r.len ≤ d + s.weight k * 64 then State.robin s pc reqs fuel
        else State.robin { s with mem := { s.mem with turn := smSet 0 pc ((k + 1) % 64) s.mem.turn } } pc reqs fuel
    | none =>
      State.robin { s with mem := { s.mem with deficit := smErase (64 * pc + k) s.mem.deficit, turn := smSet 0 pc ((k + 1) % 64) s.mem.turn } } pc reqs fuel

/-- The class that pseudo-channel `pc` serves next (R399). -/
def State.pick (s : State) (pc t : Nat) (reqs : List QueuedReq) : Option (Nat × State) :=
  match s.shortest pc t reqs with
  | some k => some (k, s)
  | none => s.robin pc reqs 100000

/-! Refresh. -/

/-- The ticks that `n` refreshes occupy a pseudo-channel (R401). -/
def refreshTicks (n : Nat) : Nat := 560 * n

/-- Pseudo-channel `pc` is occupied for `n` ticks more. -/
def State.occupy (s : State) (pc n : Nat) : State :=
  if n = 0 then s else { s with mem := { s.mem with busy := smInsert pc (max s.tick (smGet 0 pc s.mem.busy) + n) s.mem.busy } }

/-- Pseudo-channel `pc` holds `n` postponed refreshes; MCH_STAT.POSTPONED shows the larger of the channel's two (R422). -/
def State.setPostponed (s : State) (pc n : Nat) : State :=
  let s := { s with mem := { s.mem with postponed := smSet 0 pc n s.mem.postponed } }
  s.wr (pg .mch (pc / 2)) Reg.MCH_MCH_STAT_POSTPONED
    (max (smGet 0 (pc / 2 * 2) s.mem.postponed) (smGet 0 (pc / 2 * 2 + 1) s.mem.postponed))

/-- The postponed refreshes of pseudo-channel `pc` are issued back to back (R402). -/
def State.issueAll (s : State) (pc : Nat) : State :=
  (s.occupy pc (refreshTicks (smGet 0 pc s.mem.postponed))).setPostponed pc 0

/-- The postponed refreshes of channel `c` are issued (R402, R403). -/
def State.issuePostponed (s : State) (c : Nat) : State := (s.issueAll (2 * c)).issueAll (2 * c + 1)

/-- Stack `st` is in the doubled state (R403). -/
def State.doubled (s : State) (st : Nat) : Bool := s.on (pg .mch (16 * st)) Reg.MCH_MCH_STAT_REFRESH_2X

/-- The refresh interval of stack `st` in ticks (R401, R403). -/
def State.interval (s : State) (st : Nat) : Nat := if s.doubled st then 3125 else 6250

/-- Pseudo-channel `pc` issues its postponed refreshes as its stack enters the doubled state, and counts the doubled interval from
their end (R403). -/
def State.refreshBurst (s : State) (pc : Nat) : State :=
  let n := smGet 0 pc s.mem.postponed
  let s := s.issueAll pc
  { s with mem := { s.mem with refAt := smInsert pc (s.tick + refreshTicks n + 3125) s.mem.refAt } }

/-- The refresh window of stack `st` in ticks (R401). -/
def State.window (s : State) (st : Nat) : Nat := if s.doubled st then 25600000 else 51200000

/-- A temperature of stack `st` (R401, R403): a change of state is shown in the stack's channels and raised. -/
def State.stackTemp (s : State) (st : Nat) (temp : Int) : State :=
  let p := pg .mst st
  let s := s.wrS p Reg.MST_TEMP_TEMP temp
  let chans := (List.range 16).map (fun i => 16 * st + i)
  if !s.doubled st && (s.rd p Reg.MST_REFRESH_CFG_T_HI : Int) < temp then
    ((s.each chans (fun s c => s.wr (pg .mch c) Reg.MCH_MCH_STAT_REFRESH_2X 1)).each
      (chans.flatMap (fun c => [2 * c, 2 * c + 1])) State.refreshBurst).event .mst st 1
  else if s.doubled st && temp < (s.rd p Reg.MST_REFRESH_CFG_T_LO : Int) then
    (s.each chans (fun s c => s.wr (pg .mch c) Reg.MCH_MCH_STAT_REFRESH_2X 0)).event .mst st 1
  else s

/-- The next refresh of `pc` falls due one interval after this one (R401). -/
def State.nextRefresh (s : State) (pc : Nat) : State :=
  let i := s.interval (pc / 32)
  let due := smGet s.tick pc s.mem.refAt
  { s with mem := { s.mem with refAt := smInsert pc ((if s.tick < due + i then due else s.tick) + i) s.mem.refAt } }

/-- REFRESH_DUE (R401, R402): a refresh falls due on pseudo-channel `pc`. It is postponed while requests wait and the limit allows it,
else it is issued, and with it all that are postponed where no request waits. -/
def execRefreshDue (t : Nat) (pc : Fin 128) (s : State) : Host.Outcome State Fault Refusal :=
  let s := s.advance t
  let st := pc.val / 32
  let n := smGet 0 pc s.mem.postponed
  .next (if s.chanState (pc / 2) ≠ 2 || s.gated || s.tick < smGet s.tick pc s.mem.refAt then s
    else
      let s := s.nextRefresh pc
      if (s.queueOf pc).isEmpty then (s.occupy pc (refreshTicks 1)).issueAll pc
      else if !s.doubled st && n < min 8 (s.rd (pg .mst st) Reg.MST_REFRESH_CFG_POSTPONE_MAX) then s.setPostponed pc (n + 1)
      else s.occupy pc (refreshTicks 1))

/-- Channel `c` has a request or other work (R404): a migration that copies is pending work. -/
def State.chanBusy (s : State) (c : Nat) : Bool :=
  !(s.queueOf (2 * c)).isEmpty || !(s.queueOf (2 * c + 1)).isEmpty ||
    (s.on (pg .mch c) Reg.MCH_MCH_STAT_MIGRATING && !s.mem.migPaused)

/-- SELF_REFRESH_ENTRY (R402, R404): channel `ch` has been idle for IDLE_SR µs. -/
def execSelfRefreshEntry (t : Nat) (ch : Fin 64) (s : State) : Host.Outcome State Fault Refusal :=
  let s := s.advance t
  let idle := s.rd (pg .mst (ch / 16)) Reg.MST_MST_CFG_IDLE_SR
  .next (if s.chanState ch ≠ 2 ∨ s.chanBusy ch ∨ idle = 0 ∨ s.tick < smGet 0 ch s.mem.lastReq + idle * 1600 then s
    else (s.issuePostponed ch).wr (pg .mch ch) Reg.MCH_MCH_STAT_STATE 3)

/-! Failures. -/

/-- Some logical rank of channel `c` has failed and has no spare (R419, R422). -/
def State.rankLost (s : State) (c : Nat) : Bool :=
  (List.range logicalRanks).any (fun r => s.chanState c != 5 && s.rankHole c r)

/-- The levels of OUT_OF_SERVICE and SPARE_EXHAUSTED (R422, R423). -/
def State.chanLevels (s : State) (c : Nat) : State :=
  let s := s.setRaw (evId .mch c 1) (s.chanState c == 5 || s.rankLost c)
  s.setRaw (evId .mst (c / 16) 6) ((List.range 16).any (fun i => s.rankLost (c / 16 * 16 + i)))

/-- One more entry of the fail map (R412, R415, R419, R420). -/
def State.failEntry (s : State) (kind c sid spare : Nat) : State :=
  let secs := if s.ptp.src = 0 then 0 else (s.ptpOf s.tick).1
  { s with flash := { s.flash with failMap := s.flash.failMap ++ [⟨kind, c, sid, spare, secs⟩], failSeq := s.flash.failSeq + 1 } }

/-- The migration of channel `c` follows the error that cause ID `cause` names: its consequent in the fault log (R27, R414, R534). -/
def State.migConseq (s : State) (c cause : Nat) : State :=
  let id := evId .mst (c / 16) 3
  s.logFault ⟨0, cause, true, ((sevOf id).getD .info).code, id, s.tick⟩

/-- The rank with physical SID `sid` of channel `c` is taken out of service by the error of cause ID `cause` (R415, R419). -/
def State.rankOut (s : State) (c sid cause : Nat) : State :=
  let p := pg .mch c
  let s := s.wr p Reg.MCH_MCH_STAT_RANK_OOS (setBit (s.rd p Reg.MCH_MCH_STAT_RANK_OOS) sid)
  let spare := s.sidOf c 3
  if logicalRanks = 3 && !s.on p Reg.MCH_MCH_STAT_SPARE_USED && !s.on p Reg.MCH_MCH_STAT_MIGRATING &&
      !(s.rd p Reg.MCH_MCH_STAT_RANK_OOS).testBit spare then
    let s := (s.failEntry 1 c sid spare).migConseq c cause
    let s := s.wrs p [(Reg.MCH_MIG_JOURNAL_ACTIVE, 1), (Reg.MCH_MIG_JOURNAL_FROM_SID, sid),
      (Reg.MCH_MIG_JOURNAL_TO_SID, spare), (Reg.MCH_MIG_JOURNAL_STEPS, 0), (Reg.MCH_MCH_STAT_MIGRATING, 1)]
    ({ s with mem := { s.mem with mig := some ⟨c, sid, spare, s.tick⟩ } }).event .mst (c / 16) 3
  else (s.failEntry 2 c sid 0xFF).chanLevels c

/-- Marks of the poison table of channel `c` (R418). -/
def State.poisonMarks (s : State) (c : Nat) : Nat :=
  (s.mem.poison.filter (fun x => ((s.locate (x.1 * 32)).map MemLoc.chan) == some c)).length

/-- POISON_STAT.ENTRIES of channel `c` shows its marks (R422). -/
def State.poisonSync (s : State) (c : Nat) : State := s.wr (pg .mch c) Reg.MCH_POISON_STAT_ENTRIES (s.poisonMarks c)

/-- The 32-byte burst of address `a` is marked whole, where the channel's table has room (R418). -/
def State.poisonBurst (s : State) (c a : Nat) : State :=
  if s.poisonMarks c < 4096 || (smFind (a / 32) s.mem.poison).isSome then
    ({ s with mem := { s.mem with poison := smInsert (a / 32) 0xF s.mem.poison } }).poisonSync c
  else s.wr (pg .mch c) Reg.MCH_POISON_STAT_OVF 1

/-- A write of the `n` bytes from `a` clears the mark of every poisoned word that it covers whole (R418). -/
def State.poisonClear (s : State) (a n : Nat) : State :=
  (s.poisonWords a n).foldl (fun s w =>
    if a ≤ 8 * w && 8 * w + 8 ≤ a + n then
      let s := { s with mem := { s.mem with poison := smSet 0 (w / 4) (clrBit (smGet 0 (w / 4) s.mem.poison) (w % 4)) s.mem.poison } }
      match s.locate (8 * w) with
      | some x => s.poisonSync x.chan
      | none => s
    else s) s

/-- An uncorrectable error at address `a`, of data (`kind` 1) or of a command (`kind` 2) (R415). -/
def State.uncorrectable (s : State) (a kind : Nat) : State :=
  match s.locate a with
  | none => s
  | some x =>
    let c := x.chan
    let p := pg .mch c
    let sid := s.servingSid a
    let s := if s.on p Reg.MCH_ERR_LOG_VALID then s
      else s.wrs p [(Reg.MCH_ERR_LOG_GRAN, a / 4096), (Reg.MCH_ERR_LOG_BURST, a / 32 % 128), (Reg.MCH_ERR_LOG_PC, x.pc),
        (Reg.MCH_ERR_LOG_SID, sid), (Reg.MCH_ERR_LOG_KIND, kind), (Reg.MCH_ERR_LOG_WORDS, 0xF), (Reg.MCH_ERR_LOG_VALID, 1)]
    let cause := s.rel.nextCause
    let s := ((s.bumpSat p Reg.MCH_ERR_CNT_UNC 1).occur 6 0).event .mch c 0
    let s := s.poisonBurst c a
    if (s.rd p Reg.MCH_MCH_STAT_RANK_OOS).testBit sid || (s.migStepOf a).isSome then s else s.rankOut c sid cause

/-! Row disturbance. -/

/-- The refresh window that holds tick `t` begins anew on stack `st` where one has ended: the counts restart (R408). -/
def State.rollWindow (s : State) (st t : Nat) : State :=
  let w := smGet 0 st s.mem.winStart
  let n := (t - w) / s.window st
  if n = 0 then s
  else { s with mem := { s.mem with
    winStart := smSet 0 st (w + n * s.window st) s.mem.winStart
    acts := s.mem.acts.filter (fun x => x.1 / 2 ^ 21 / 32 != st) } }

/-- A row by pseudo-channel, SID, bank and row number: 2^21 rows per pseudo-channel. -/
def rowKey (pc sid bank row : Nat) : Nat := ((pc * 4 + sid) * 64 + bank) * 8192 + row

/-- The class with the most of the activations listed; a tie goes to the lower number (R408). -/
def heaviest (l : List Nat) : Nat :=
  (List.range 64).foldl (fun m k => if l.count m < l.count k then k else m) 0

/-- An activation of the row of address `a` by class `k` on pseudo-channel `pc` (R408). -/
def State.activate (s : State) (pc a k t : Nat) : State :=
  match s.locate a with
  | none => s
  | some x =>
    let c := pc / 2
    let st := pc / 32
    let p := pg .mst st
    let s := s.rollWindow st t
    let sid := s.servingSid a
    let row := x.row + a % 4096 / 1024
    let key := rowKey pc sid x.bank row
    let n := smGet 0 key s.mem.acts + 1
    let last := (k :: smGet [] key s.mem.recent).take 64
    let s := { s with mem := { s.mem with
      acts := smInsert key n s.mem.acts, recent := smInsert key last s.mem.recent
      actAt := smInsert (64 * pc + k) (t :: (smGet [] (64 * pc + k) s.mem.actAt).filter (fun x => t < x + 16000)) s.mem.actAt } }
    let th := s.rd p Reg.MST_ROWH_CFG_ACT_THRESH
    if th < n && (th == 0 || (n - 1) % th == 0) then
      let v := heaviest last
      let stop := smGet 0 st s.mem.winStart + 2 * s.window st
      let s := { s with mem := { s.mem with throttle := smInsert (64 * c + v) stop s.mem.throttle } }
      let s := (s.wrs (pg .mch c) [(Reg.MCH_ACT_STAT_CLASS, v), (Reg.MCH_ACT_STAT_PC, pc % 2), (Reg.MCH_ACT_STAT_SID, sid),
        (Reg.MCH_ACT_STAT_BANK, x.bank), (Reg.MCH_ACT_STAT_ROW, row)]).bumpSat (pg .mch c) Reg.MCH_ACT_STAT_FLAGS 1
      let q := pg .mst (v / 16)
      ((s.wr q (Reg.MST_CLASS_THROTTLED (v % 16)) 1).bumpSat q (Reg.MST_CLASS_THROT_CNT (v % 16)) 1).event .mst st 0
    else s

/-- ROW_THROTTLE_END (R409). -/
def execRowThrottleEnd (t : Nat) (ch : Fin 64) (cls : Fin 64) (s : State) : Host.Outcome State Fault Refusal :=
  let s := s.advance t
  let key := 64 * ch.val + cls.val
  .next (match smFind key s.mem.throttle with
    | none => s
    | some stop => if s.tick < stop then s
      else
        let s := { s with mem := { s.mem with throttle := smErase key s.mem.throttle } }
        if s.mem.throttle.any (fun x => x.1 % 64 == cls.val) then s
        else s.wr (pg .mst (cls / 16)) (Reg.MST_CLASS_THROTTLED (cls % 16)) 0)

/-! Service. -/

/-- The ticks for which pseudo-channel `pc` transfers `n` bytes (R395, R405). -/
def State.transferTicks (s : State) (pc n : Nat) : Nat := (n * s.stackDiv (pc / 32) + 63) / 64

/-- The command still fails after its three retries (R410). -/
def cmdFails (r : MemReq) : Bool := r.failed && r.retries == 3

/-- Request `r` served on pseudo-channel `pc` (R399, R404, R408, R410, R412, R414, R415, R418). -/
def State.serve (s : State) (pc t : Nat) (r : MemReq) : State :=
  let c := pc / 2
  let p := pg .mch c
  let s := s.occupy pc (s.transferTicks pc r.len)
  let s := { s with mem := { s.mem with
    lastReq := smInsert c t s.mem.lastReq
    share := smInsert (64 * pc + r.cls) ((t, r.len) :: (smGet [] (64 * pc + r.cls) s.mem.share).filter (fun x => t < x.1 + 1600))
      s.mem.share } }
  if s.hole r.addr then s
  else
    let s := s.when (s.chanState c == 3) (fun s => s.wr p Reg.MCH_MCH_STAT_STATE 2)
    let s := (s.bumpSat p Reg.MCH_ERR_CNT_CORR r.corr).each (List.replicate r.corr ()) (fun s _ => s.occur 5 0)
    let s := s.bumpSat p Reg.MCH_ERR_CNT_RETRY r.retries
    let s := if r.retries.val = 0 then s else { s with mem := { s.mem with
      retries := smInsert c (List.replicate r.retries t ++ (smGet [] c s.mem.retries).filter (fun x => t < x + 1600000)) s.mem.retries } }
    let s := s.when r.act (fun s => s.activate pc r.addr r.cls t)
    if r.write then
      if cmdFails r then s.uncorrectable r.addr 2 else s.poisonClear r.addr r.len
    else
      let s := if cmdFails r then s.uncorrectable r.addr 2
        else match r.unc with
          | some o => s.uncorrectable (r.addr + o) 1
          | none => s
      s.when (s.poisoned r.addr r.len || r.unc.isSome || cmdFails r) (fun s => s.bumpSat p Reg.MCH_POISON_STAT_POISON_RD 1)

/-- Pseudo-channel `pc` is free to serve a request at tick `t`. -/
def State.pcFree (s : State) (pc t : Nat) : Bool :=
  s.chanState (pc / 2) != 4 && s.chanServes (pc / 2) && !s.gated && !s.stackHeld (pc / 32) && smGet 0 pc s.mem.busy ≤ t

/-- Pseudo-channel `pc` picks one of the requests that wait, and serves it; its postponed refreshes follow where the queue
empties (R399, R402). -/
def State.serveOne (s : State) (pc t i : Nat) : State :=
  let able := (s.queueOf pc).filter (s.eligible pc t)
  match s.pick pc t able with
  | none => s
  | some (k, s) => match chosen able k i with
    | none => s
    | some q =>
      let s := (s.dequeue pc q.seq).serve pc t q.req
      if (s.queueOf pc).isEmpty then s.issueAll pc else s

/-- MEMORY_REQUEST (R395, R399): the requests `new` reach the queue of pseudo-channel `pc`, and it serves one of those that wait
where it is free; `pick` is the scheduler's choice within the class. -/
def execMemoryRequest (t : Nat) (pc : Fin 128) (new : List MemReq) (pick : Fin 32) (s : State) : Host.Outcome State Fault Refusal :=
  let s := (s.advance t).each new (fun s r => s.enqueue pc t r)
  .next (if s.pcFree pc t then s.serveOne pc t pick else s)

/-! The pin rate. -/

/-- A head sends frames (R44, R109). -/
def State.headRuns (s : State) (h : Nat) : Bool :=
  s.runs (pg .dsp h) && !s.gated

/-- A write of FREQ_CTL (R406): a GO while a switch is pending or running is ignored. -/
def State.freqCtl (s : State) (st sync go : Nat) : State :=
  let p := pg .mst st
  let s := s.wr p Reg.MST_FREQ_CTL_SYNC sync
  if go = 0 || s.on p Reg.MST_FREQ_STAT_BUSY then s
  else s.wrs p [(Reg.MST_FREQ_CTL_GO, 1), (Reg.MST_FREQ_STAT_BUSY, 1)]

/-- FREQ_GO (R406). -/
def execFreqGo (t : Nat) (st : Fin 4) (sync : Fin 4) (s : State) : Host.Outcome State Fault Refusal :=
  .next ((s.advance t).hosted (pg .mst st) 0x118 (16 * sync.val + 1) (fun s => s.freqCtl st sync 1))

/-- The pending switches that wait for a frame start of head `h` may start (R406). -/
def State.freqAtFrame (s : State) (h : Nat) : State :=
  { s with mem := { s.mem with freqReady := s.mem.freqReady ++ (List.range 4).filter (fun st =>
      s.on (pg .mst st) Reg.MST_FREQ_STAT_BUSY && s.rd (pg .mst st) Reg.MST_FREQ_CTL_SYNC == h + 1 &&
        !s.mem.switching.contains st && !s.mem.freqReady.contains st) } }

/-- FREQ_SWITCH_START (R402, R406): requests to the stack are held, and its postponed refreshes are issued. -/
def execFreqSwitchStart (t : Nat) (st : Fin 4) (s : State) : Host.Outcome State Fault Refusal :=
  let s := s.advance t
  let p := pg .mst st
  let sync := s.rd p Reg.MST_FREQ_CTL_SYNC
  let due := (sync != 1 && sync != 2) || !s.headRuns (sync - 1) || s.mem.freqReady.contains st
  .next (if !s.on p Reg.MST_FREQ_STAT_BUSY || s.mem.switching.contains st || !due then s
    else
      let s := { s with mem := { s.mem with
        switching := st.val :: s.mem.switching
        freqReady := s.mem.freqReady.erase st
        switchAt := smInsert st s.tick s.mem.switchAt } }
      s.each ((List.range 16).map (fun i => 16 * st.val + i)) State.issuePostponed)

/-- The pin rate of a divider in Mb/s (R405, R423). -/
def rateMbps (d : Nat) : Nat := 25600 / d

/-- Channel `c` leaves self-refresh for service; a channel whose page is in a low-power state stays there (R145). -/
def State.wakeChan (s : State) (c : Nat) : State :=
  s.when (s.chanState c == 3 && (!s.startedUp || s.pstateAct (pg .mch c) == 0)) (fun s => s.wr (pg .mch c) Reg.MCH_MCH_STAT_STATE 2)

/-- The switch of stack `st` ends (R406, R407): the inactive set comes into force, and LAST_STALL takes the time in ns for which
requests were held, as far as its bits reach. -/
def State.freqEnd (s : State) (st : Nat) : State :=
  let p := pg .mst st
  let stall := (s.tick - smGet s.tick st s.mem.switchAt) * 625 / 1000
  let s := { s with mem := { s.mem with switching := s.mem.switching.erase st, switchAt := smErase st s.mem.switchAt } }
  let s := s.wr p Reg.MST_FREQ_STAT_ACT_SET (1 - s.rd p Reg.MST_FREQ_STAT_ACT_SET)
  let s := s.wrs p [(Reg.MST_FREQ_STAT_RATE_MBPS, rateMbps (s.stackDiv st)), (Reg.MST_FREQ_STAT_LAST_STALL, min 65535 stall),
    (Reg.MST_FREQ_STAT_BUSY, 0), (Reg.MST_FREQ_CTL_GO, 0)]
  let s := s.each ((List.range 16).map (fun i => 16 * st + i)) State.wakeChan
  s.event .mst st 5

/-- FREQ_DONE (R406). -/
def execFreqDone (t : Nat) (st : Fin 4) (s : State) : Host.Outcome State Fault Refusal :=
  let s := s.advance t
  .next (if !s.mem.switching.contains st || s.gated then s else s.freqEnd st)

/-! Training. -/

/-- TRAIN_PERIOD of stack `st` in ms, with its limits (R423). -/
def State.trainPeriod (s : State) (st : Nat) : Nat := min 1000 (max 10 (s.rd (pg .mst st) Reg.MST_MST_CFG_TRAIN_PERIOD))

/-- PERIODIC_TRAINING (R402, R410): channel `ch` is trained in its turn. -/
def execPeriodicTraining (t : Nat) (ch : Fin 64) (s : State) : Host.Outcome State Fault Refusal :=
  let s := s.advance t
  .next (if (s.chanState ch ≠ 2 ∧ s.chanState ch ≠ 3) ∨ s.gated ∨
        s.tick < smGet 0 ch s.mem.trainAt + s.trainPeriod (ch / 16) * 1600000 then s
    else
      let s := { s with mem := { s.mem with trainAt := smInsert ch s.tick s.mem.trainAt } }
      (s.issuePostponed ch).bump (pg .mch ch) Reg.MCH_TRAIN_STAT_PERIODIC 1)

/-- An error or block training of channel `c` starts (R410, R411, R423). -/
def State.startTraining (s : State) (c : Nat) : State :=
  let s := ((s.issuePostponed c).writesDiscarded c).wr (pg .mch c) Reg.MCH_MCH_STAT_STATE 4
  (s.bumpSat (pg .mch c) Reg.MCH_TRAIN_STAT_FULL 1).event .mst (c / 16) 2

/-- ERROR_TRAINING (R410): more than ERR_TH retries fell within 1 ms. -/
def execErrorTraining (t : Nat) (ch : Fin 64) (s : State) : Host.Outcome State Fault Refusal :=
  let s := s.advance t
  let n := ((smGet [] ch s.mem.retries).filter (fun x => s.tick < x + 1600000)).length
  .next (if (s.chanState ch ≠ 2 ∧ s.chanState ch ≠ 3) ∨ n ≤ s.rd (pg .mst (ch / 16)) Reg.MST_MST_CFG_ERR_TH then s
    else ({ s with mem := { s.mem with retries := smErase ch s.mem.retries } }).startTraining ch)

/-- Channel `c` is taken out of service (R412): the fail map records it, and its granules become holes. -/
def State.chanOut (s : State) (c : Nat) : State :=
  let s := s.wr (pg .mch c) Reg.MCH_MCH_STAT_STATE 5
  (s.failEntry 3 c 0xFF 0xFF).chanLevels c

/-! BAR2. -/

/-- The capture address of window offset `o` (R325). -/
def State.bar2Addr (s : State) (o : Nat) : Nat :=
  let b := s.rd (pg .pci 0) Reg.PCI_BAR2_MAP_BASE * 2 ^ 30
  b / 2 ^ s.mem.bar2Log2 * 2 ^ s.mem.bar2Log2 + o

/-- A BAR2 request beyond usable capacity is counted (R325). -/
def State.bar2Range (s : State) : State := (s.bumpSat (pg .pci 0) Reg.PCI_BAR2_STAT_RANGE_CNT 1).event .pci 0 4

/-- A BAR2 read of `n` bytes at capture address `a` completes (R325, R411, R412), or is lost in a failed hop (R531). -/
def State.bar2Complete (s : State) (a n : Nat) : State :=
  if anyGranule a n s.beyond then s.bar2Range.emit .completerAbort
  else if s.cutOff .bar2 0 then s.emit .completerAbort
  else if s.poisoned a n then
    ((s.bumpSat (pg .pci 0) Reg.PCI_BAR2_STAT_POISON_CNT 1).event .pci 0 5).emit (.hostPoison n)
  else s.emit (.hostRead ((s.readBytes a n).map BitVec.toNat))

/-- The granule of address `a` waits for its channel: it is being retrained, or its page is not ON (R145, R411). -/
def State.chanWaits (s : State) (a : Nat) : Bool :=
  s.unavailable a || (match s.locate a with
    | some x => !s.chanServes x.chan
    | none => false)

/-- The read must wait: for its channel, or for the clocks (R109, R145, R411). -/
def State.bar2Waits (s : State) (a n : Nat) : Bool :=
  !anyGranule a n s.beyond && (s.gated || anyGranule a n s.chanWaits)

/-- The held reads that need wait no longer complete, in order. -/
def State.serveHeld (s : State) : State :=
  let go := s.mem.held.filter (fun h => !s.bar2Waits h.addr h.len)
  ({ s with mem := { s.mem with held := s.mem.held.filter (fun h => s.bar2Waits h.addr h.len) } }).each go
    (fun s h => s.bar2Complete h.addr h.len)

/-- BAR2_READ (R325, R411): `off` is the window offset. -/
def execBar2Read (t off len : Nat) (s : State) : Host.Outcome State Fault Refusal :=
  let s := s.advance t
  let a := s.bar2Addr off
  .next (if s.bar2Waits a len then { s with mem := { s.mem with held := s.mem.held ++ [⟨a, len, s.tick⟩] } }
    else s.bar2Complete a len)

/-- A write of `bytes` at capture address `a` (R418). -/
def State.memWrite (s : State) (a : Nat) (bytes : List Byte) : State := (s.writeBytes a bytes).poisonClear a bytes.length

/-- BAR2_WRITE (R325, R418): a request that touches an address beyond usable capacity is dropped whole. -/
def execBar2Write (t off : Nat) (bytes : List Byte) (s : State) : Host.Outcome State Fault Refusal :=
  let s := s.advance t
  let a := s.bar2Addr off
  .next (if anyGranule a bytes.length s.beyond then s.bar2Range else if s.cutOff .bar2 0 then s else s.memWrite a bytes)

/-- BAR2_RESIZE (R324, R325): a size of 1 GiB to 64 GiB applies from the next access. -/
def execBar2Resize (t : Nat) (log2 : Nat) (s : State) : Host.Outcome State Fault Refusal :=
  let s := s.advance t
  .next (if 30 ≤ log2 ∧ log2 ≤ 36 then { s with mem := { s.mem with bar2Log2 := log2 } } else s)

/-- BAR2_READ_HOLD_TIMEOUT (R411): the oldest read, held for 5 ms, completes with Completer Abort. -/
def execBar2ReadHoldTimeout (t : Nat) (s : State) : Host.Outcome State Fault Refusal :=
  let s := (s.advance t).serveHeld
  .next (match s.mem.held with
    | [] => s
    | h :: l => if s.tick < h.at_ + 8000000 then s else ({ s with mem := { s.mem with held := l } }).emit .completerAbort)

/-- TRAINING_DONE (R411, R412): an error or block training ends. -/
def execTrainingDone (t : Nat) (ch : Fin 64) (ok : Bool) (s : State) : Host.Outcome State Fault Refusal :=
  let s := s.advance t
  let p := pg .mch ch
  .next (if s.chanState ch ≠ 4 then s
    else
      let s := if ok then (s.wr p Reg.MCH_TRAIN_STAT_LAST 1).wr p Reg.MCH_MCH_STAT_STATE 2
        else (s.wr p Reg.MCH_TRAIN_STAT_LAST 2).chanOut ch
      let s := { s with mem := { s.mem with lastReq := smInsert ch s.tick s.mem.lastReq } }
      s.serveHeld)

/-! Migration. -/

/-- The steps of a migration (R416). -/
def migSteps : Nat := 196608

/-- MIGRATION_STEP (R140, R416): the step in progress ends and is journalled; after the last, RANK_MAP names the spare. -/
def execMigrationStep (t : Nat) (ch : Fin 64) (s : State) : Host.Outcome State Fault Refusal :=
  let s := s.advance t
  let p := pg .mch ch
  .next (if !s.on p Reg.MCH_MCH_STAT_MIGRATING || (s.mem.migPaused && !s.mem.migLast.contains ch.val) || s.gated || s.chanState ch == 4 then s
    else
      let s := { s with mem := { s.mem with migLast := s.mem.migLast.erase ch } }
      let n := s.rd p Reg.MCH_MIG_JOURNAL_STEPS + 1
      let s := s.wr p Reg.MCH_MIG_JOURNAL_STEPS n
      if n < migSteps then s
      else
        let frm := s.rd p Reg.MCH_MIG_JOURNAL_FROM_SID
        let to_ := s.rd p Reg.MCH_MIG_JOURNAL_TO_SID
        let s := s.each (List.range 4) (fun s r =>
          if s.sidOf ch r = frm then s.wr p (Reg.MCH_RANK_MAP_LR r) to_
          else if s.sidOf ch r = to_ then s.wr p (Reg.MCH_RANK_MAP_LR r) frm else s)
        (s.wrs p [(Reg.MCH_MIG_JOURNAL_ACTIVE, 0), (Reg.MCH_MCH_STAT_MIGRATING, 0),
          (Reg.MCH_MCH_STAT_SPARE_USED, 1)]).event .mst (ch / 16) 3)

/-- A write of MCH_CLR (R422). -/
def State.mchClr (s : State) (c : Nat) : State :=
  s.wrs (pg .mch c) [(Reg.MCH_ERR_CNT_CORR, 0), (Reg.MCH_ERR_CNT_RETRY, 0), (Reg.MCH_ERR_CNT_UNC, 0),
    (Reg.MCH_TRAIN_STAT_PERIODIC, 0), (Reg.MCH_TRAIN_STAT_FULL, 0), (Reg.MCH_ACT_STAT_FLAGS, 0),
    (Reg.MCH_POISON_STAT_POISON_RD, 0), (Reg.MCH_POISON_STAT_OVF, 0)]

/-- MCH_CLR (R422). -/
def execMchClr (t : Nat) (ch : Fin 64) (s : State) : Host.Outcome State Fault Refusal :=
  .next ((s.advance t).hosted (pg .mch ch) 0x140 1 (fun s => s.mchClr ch))

/-- The value of XLATE_RES of stack page `st` (R397, R423). -/
def State.xlateRes (s : State) (st : Nat) : Nat :=
  let a := s.rd (pg .mst st) Reg.MST_XLATE_ADDR_ADDR
  match s.locate a with
  | none => 2 ^ 62
  | some x =>
    b2n (s.hole a) * 2 ^ 63 + x.chan * 2 ^ 56 + x.pc * 2 ^ 55 + x.lrank * 2 ^ 53 + s.sidOf x.chan x.lrank * 2 ^ 51 +
      x.bank * 2 ^ 45 + (x.row + a % 4096 / 1024) * 2 ^ 28 + x.gran

/-- XLATE_ADDR (R397, R423): XLATE_RES then gives the translation. -/
def execXlateAddr (t : Nat) (st : Fin 4) (addr : Word) (s : State) : Host.Outcome State Fault Refusal :=
  .next ((s.advance t).hosted (pg .mst st) 0x180 addr.toNat (fun s => s.wr (pg .mst st) Reg.MST_XLATE_ADDR_ADDR addr.toNat))

end Sys2Proof.Machine
end

