-- ==== Sys2Proof/Machine/Display.lean ====
section
/-!
DEFINITION. The display heads (R367 to R394): frame starts, commits, layers, composition, underruns, guard tags, retirement,
the DisplayPort link, AUX and the gamma tables.
-/
namespace Sys2Proof.Machine

/-- Head `h` beyond its registers. -/
def State.dspHead (s : State) (h : Nat) : DspHead := smGet {} h s.dsp
def State.setDspHead (s : State) (h : Nat) (d : DspHead) : State := { s with dsp := smSet {} h d s.dsp }

/-! Timing. -/

/-- Pixels of a line and lines of a frame under the fields that `rd` gives (R368). -/
def hTotal (rd : Fld → Nat) : Nat :=
  rd Reg.DSP_TIM_H_HACTIVE + rd Reg.DSP_TIM_H_HFP + rd Reg.DSP_TIM_H_HSYNC + rd Reg.DSP_TIM_H_HBP
def vTotal (rd : Fld → Nat) : Nat :=
  rd Reg.DSP_TIM_V_VACTIVE + rd Reg.DSP_TIM_V_VFP + rd Reg.DSP_TIM_V_VSYNC + rd Reg.DSP_TIM_V_VBP

/-- The pixel divisor in units of 2^-24 (R369). -/
def pclkDiv (rd : Fld → Nat) : Nat := rd Reg.DSP_PCLK_DIV_I * 2 ^ 24 + rd Reg.DSP_PCLK_DIV_F

/-- The length of a line in units of 2^-27 tick (R369): a pixel lasts divisor / 8 ticks. -/
def lineFine (rd : Fld → Nat) : Nat := hTotal rd * pclkDiv rd

/-- The active timing fields of head `h`. -/
def State.dspA (s : State) (h : Nat) (f : Fld) : Nat := s.rdA (pg .dsp h) f

/-- The lines of the present frame of head `h` before its VSYNC (R368, R385): VFP, or those up to the end of the one in which the wait for TE
ended; none while that is still open. -/
def State.linesToSync (s : State) (h : Nat) : Option Nat :=
  let rd := s.dspA h
  let d := s.dspHead h
  if rd Reg.DSP_TIM_CFG_TE_MODE = 0 then some (rd Reg.DSP_TIM_V_VFP)
  else d.vsync.map (fun e => (e * 2 ^ 27 - d.startAt.getD 0) / max 1 (lineFine rd) + 1)

/-- When active line `y` of the present frame of head `h` starts, in units of 2^-27 tick; line VACTIVE is the next frame's start (R385). -/
def State.lineAt (s : State) (h y : Nat) : Option Nat :=
  let rd := s.dspA h
  match (s.dspHead h).startAt, s.linesToSync h with
  | some x, some n => some (x + (n + rd Reg.DSP_TIM_V_VSYNC + rd Reg.DSP_TIM_V_VBP + y) * lineFine rd)
  | _, _ => none

/-- The next frame start of head `h` falls in tick `t` or has passed; a raster that has not begun may begin (R369, R385). -/
def State.frameOver (s : State) (h t : Nat) : Bool :=
  if (s.dspHead h).startAt.isNone then true
  else match s.lineAt h (s.dspA h Reg.DSP_TIM_V_VACTIVE) with
    | some e => decide (e / 2 ^ 27 ≤ t)
    | none => false

/-- At tick `t` the guard of head `h`'s frame has begun (R382): active line VACTIVE − 16. -/
def State.afterGuard (s : State) (h t : Nat) : Bool :=
  s.headRuns h && (match s.lineAt h (s.dspA h Reg.DSP_TIM_V_VACTIVE - 16) with
    | some e => decide (e ≤ t * 2 ^ 27)
    | none => false)

/-! Image checks (R370, R392). -/

/-- Link rates in units of 10 Mb/s (R367). -/
def dpRate : Nat → Nat
  | 0 => 162 | 1 => 270 | 2 => 540 | _ => 810

/-- Bytes per luma sample of a format, and the pixels that a chroma pair covers, across and down (R373). -/
def fmtBytes (f : Nat) : Nat := if f = 1 ∨ f = 2 ∨ 6 ≤ f then 2 else 1
def fmtSub (f : Nat) : Nat × Nat :=
  if f = 3 ∨ f = 6 then (1, 1) else if f = 4 ∨ f = 7 then (2, 1) else (2, 2)
def fmtChroma (f : Nat) : Bool := 3 ≤ f

/-- Checks 0x40 and 0x41, which group 1 must pass; 0 where it does. -/
def dspTimingCode (rd : Fld → Nat) : Nat :=
  let d := pclkDiv rd
  let i := rd Reg.DSP_PCLK_DIV_I
  let ha := rd Reg.DSP_TIM_H_HACTIVE
  let va := rd Reg.DSP_TIM_V_VACTIVE
  let vco := 12800000000 * 2 ^ 24
  let lanes := 2 ^ rd Reg.DSP_LINK_CFG_LANES
  let bpp := if rd Reg.DSP_LINK_CFG_BPC10 = 1 then 30 else 24
  if i < 21 ∨ 512 < i ∨ vco < 25000000 * d ∨ 600000000 * d < vco ∨ ha = 0 ∨ 3840 < ha ∨ va = 0 ∨ 2160 < va ∨
      hTotal rd - ha < 64 ∨ vTotal rd - va < 8 ∨
      497664000 * 1001 * (hTotal rd * vTotal rd * d) < 1000 * (ha * va * vco) then 0x40
  else if rd Reg.DSP_LINK_CFG_LANES = 3 ∨ lanes * dpRate (rd Reg.DSP_LINK_CFG_RATE) * 8000000 * d < vco * bpp then 0x41
  else 0

/-- What a layer reads (R374, R375): size, format, plane addresses and pitches. -/
structure LayerGeo where
  w : Nat
  h : Nat
  fmt : Nat
  planar : Bool
  y : Nat
  cb : Nat
  cr : Nat
  yp : Nat
  cp : Nat
  deriving DecidableEq, Repr

/-- The geometry of an address layer (R374) at buffer `buf`. -/
def addrGeo (rd : Fld → Nat) (l buf : Nat) : LayerGeo :=
  ⟨rd (Reg.DSP_L_SIZE_W l), rd (Reg.DSP_L_SIZE_H l), rd (Reg.DSP_L_CFG_FMT l), rd (Reg.DSP_L_CFG_PLANAR l) == 1,
    buf + rd (Reg.DSP_L_PLANE_Y_OFS l), buf + rd (Reg.DSP_L_PLANE_CB_OFS l), buf + rd (Reg.DSP_L_PLANE2_CR_OFS l),
    rd (Reg.DSP_L_PITCH_Y_PITCH l), rd (Reg.DSP_L_PITCH_C_PITCH l)⟩

/-- The geometry of job `j`'s image at buffer `buf` (R375). -/
def jobGeo (kind : Nat) (planar : Bool) (size : Nat × Nat) (p buf : Nat) : LayerGeo :=
  let y := buf + 0x1000
  let cb := y + size.2 * p
  match kind with
  | 0 => ⟨size.1, size.2, 8, planar, y, cb, cb + size.2 / 2 * (p / 2), p, if planar then p / 2 else p⟩
  | 1 => ⟨size.1, size.2, 0, false, y, 0, 0, p, 0⟩
  | _ => ⟨size.1, size.2, 2, false, y, 0, 0, p, 0⟩

/-- Bytes of one line of the luma plane, and of a chroma plane. -/
def LayerGeo.yLine (g : LayerGeo) : Nat := g.w * fmtBytes g.fmt
def LayerGeo.cLine (g : LayerGeo) : Nat :=
  (g.w + (fmtSub g.fmt).1 - 1) / (fmtSub g.fmt).1 * fmtBytes g.fmt * (if g.planar then 1 else 2)
/-- Lines of a chroma plane. -/
def LayerGeo.cLines (g : LayerGeo) : Nat := (g.h + (fmtSub g.fmt).2 - 1) / (fmtSub g.fmt).2

/-- A plane of `lines` lines lies within usable capacity. -/
def State.planeOk (s : State) (a lines pitch line : Nat) : Bool :=
  lines == 0 || line == 0 || !anyGranule a ((lines - 1) * pitch + line) s.beyond

/-- The planes of a geometry lie within usable capacity. -/
def State.geoFits (s : State) (g : LayerGeo) : Bool :=
  s.planeOk g.y g.h g.yp g.yLine &&
    (!fmtChroma g.fmt || (s.planeOk g.cb g.cLines g.cp g.cLine && (!g.planar || s.planeOk g.cr g.cLines g.cp g.cLine)))

/-- Checks 0x42 and 0x43 of layer `l` (R392), with `job` giving KIND, PLANAR, size and pitch of a job. -/
def State.layerCode (s : State) (rd : Fld → Nat) (job : Nat → Nat × Bool × (Nat × Nat) × Nat) (l : Nat) : Nat :=
  if rd (Reg.DSP_L_CFG_EN l) = 0 then 0
  else if rd (Reg.DSP_L_CFG_SRC l) = 0 then
    let buf := rd (Reg.DSP_L_BUF_ADDR l)
    let g := addrGeo rd l buf
    let chroma := fmtChroma g.fmt
    if 8 < g.fmt ∨ buf % 4096 ≠ 0 ∨ (g.y - buf) % 64 ≠ 0 ∨ g.yp % 64 ≠ 0 ∨ g.yp < g.yLine ∨
        (chroma ∧ ((g.cb - buf) % 64 ≠ 0 ∨ g.cp % 64 ≠ 0 ∨ g.cp < g.cLine)) ∨
        (chroma ∧ g.planar ∧ (g.cr - buf) % 64 ≠ 0) ∨ !s.geoFits g ∨
        rd Reg.DSP_TIM_H_HACTIVE ≤ rd (Reg.DSP_L_POS_X0 l) ∨ rd Reg.DSP_TIM_V_VACTIVE ≤ rd (Reg.DSP_L_POS_Y0 l) then 0x42
    else 0
  else
    let j := job (rd (Reg.DSP_L_CFG_JOB l))
    let g := jobGeo j.1 j.2.1 j.2.2.1 j.2.2.2 0
    if g.yp < g.yLine ∨ (fmtChroma g.fmt ∧ g.cp < g.cLine) ∨ (j.1 = 0 ∧ g.h % 2 = 1) then 0x43 else 0

/-- The KIND, PLANAR, size and pitch of job `j` as registers hold them. -/
def State.jobShape (s : State) (j : Nat) : Nat × Bool × (Nat × Nat) × Nat :=
  (s.jobKind j, s.on tmpPage (Reg.TMP_JOB_CFG_PLANAR j), s.jobSize j, s.rd tmpPage (Reg.TMP_JOB_GEOM_PITCH j))

/-- The same for the checks of R392, which a job that is not enabled never fails. -/
def State.jobCheck (s : State) (j : Nat) : Nat × Bool × (Nat × Nat) × Nat :=
  if s.on tmpPage (Reg.TMP_JOB_CFG_EN j) then s.jobShape j else (1, false, (0, 0), 0)

/-- The first check code that group 0's layers fail; 0 where none does. -/
def State.layersCode (s : State) (rd : Fld → Nat) (job : Nat → Nat × Bool × (Nat × Nat) × Nat) : Nat :=
  (List.range 4).foldl (fun c l => if c ≠ 0 then c else s.layerCode rd job l) 0

/-! Composition. -/

/-- A component as stored, brought to 10 bits (R373): format 0 and the 8-bit ones, 16-bit luma, 10-bit containers. -/
def to10 (fmt v : Nat) : Nat :=
  if fmt = 2 then min 1023 ((v + 32) / 64) else if fmtBytes fmt = 1 then v * 4 + v / 64 else v % 1024

/-- Pixel (x, y) of a layer's buffer (R373, R374): Y × 2^20 + Cb × 2^10 + Cr. -/
def State.layerPixel (s : State) (g : LayerGeo) (x y : Nat) : Nat :=
  let b := fmtBytes g.fmt
  let lum := to10 g.fmt (s.readNat (g.y + y * g.yp + x * b) b)
  if fmtChroma g.fmt then
    let cx := x / (fmtSub g.fmt).1
    let cy := y / (fmtSub g.fmt).2
    let cb := if g.planar then s.readNat (g.cb + cy * g.cp + cx * b) b else s.readNat (g.cb + cy * g.cp + cx * 2 * b) b
    let cr := if g.planar then s.readNat (g.cr + cy * g.cp + cx * b) b else s.readNat (g.cb + cy * g.cp + (cx * 2 + 1) * b) b
    lum * 2 ^ 20 + to10 g.fmt cb * 2 ^ 10 + to10 g.fmt cr
  else lum * 2 ^ 20 + 512 * 2 ^ 10 + 512

/-- The spans of capture memory that line `y` of a layer reads, for its first `n` pixels. -/
def LayerGeo.spans (g : LayerGeo) (y n : Nat) : List (Nat × Nat) :=
  let c := LayerGeo.cLine { g with w := n }
  (g.y + y * g.yp, n * fmtBytes g.fmt) ::
    (if fmtChroma g.fmt then
      (g.cb + y / (fmtSub g.fmt).2 * g.cp, c) :: (if g.planar then [(g.cr + y / (fmtSub g.fmt).2 * g.cp, c)] else [])
     else [])

/-- The geometry of layer `l` of head `h` at buffer `buf`. -/
def State.geoOf (s : State) (h l buf : Nat) : LayerGeo :=
  if s.dspA h (Reg.DSP_L_CFG_SRC l) = 0 then addrGeo (s.dspA h) l buf
  else
    let j := s.jobShape (s.dspA h (Reg.DSP_L_CFG_JOB l))
    jobGeo j.1 j.2.1 j.2.2.1 j.2.2.2 buf

/-- Layer `l` of head `h` covers active pixel (x, y). -/
def State.covers (s : State) (h l x y : Nat) : Bool :=
  let g := s.geoOf h l 0
  let x0 := s.dspA h (Reg.DSP_L_POS_X0 l)
  let y0 := s.dspA h (Reg.DSP_L_POS_Y0 l)
  s.dspA h (Reg.DSP_L_CFG_EN l) == 1 && x0 ≤ x && x < x0 + g.w && y0 ≤ y && y < y0 + g.h

/-- Layer `l` shows its fill colour on line `y` (R377). -/
def DspHead.filled (d : DspHead) (l y : Nat) : Bool := d.fill.any (fun f => f.1 == l && f.2 ≤ y)

/-- One component blended (R376). -/
def blend (alpha b l : Nat) : Nat := ((b : Int) + (((alpha + alpha / 128 : Nat) : Int) * ((l : Int) - b) + 128) / 256).toNat

/-- A pixel blended component by component. -/
def blendPixel (alpha b l : Nat) : Nat :=
  blend alpha (part b 20 10) (part l 20 10) * 2 ^ 20 + blend alpha (part b 10 10) (part l 10 10) * 2 ^ 10 +
    blend alpha (part b 0 10) (part l 0 10)

/-- The composed pixel (x, y) of head `h` in YCbCr (R376). -/
def State.composed (s : State) (h x y : Nat) : Nat :=
  let a := s.dspA h
  let d := s.dspHead h
  (List.range 4).foldl (fun b l =>
    if !s.covers h l x y then b
    else
      let v := if d.filled l y then a (Reg.DSP_L_FILL_Y l) * 2 ^ 20 + a (Reg.DSP_L_FILL_CB l) * 2 ^ 10 + a (Reg.DSP_L_FILL_CR l)
        else (smGet [] (4096 * l + y) d.lines).getD (x - a (Reg.DSP_L_POS_X0 l)) 0
      blendPixel (a (Reg.DSP_L_CFG_ALPHA l)) b v)
    (a Reg.DSP_BG_Y * 2 ^ 20 + a Reg.DSP_BG_CB * 2 ^ 10 + a Reg.DSP_BG_CR)

/-- One colour channel (R378): the CSC row, the clamp, the gamma table, and the depth of the link. -/
def State.channel (s : State) (h ch px : Nat) (cy ccb ccr : Fld) : Nat :=
  let a := s.dspA h
  let term (c o : Fld) (v : Nat) : Int := signed 16 (a c) * ((v : Int) + signed 11 (a o))
  let sum := term cy Reg.DSP_CSC_OFS_Y (part px 20 10) + term ccb Reg.DSP_CSC_OFS_CB (part px 10 10) +
    term ccr Reg.DSP_CSC_OFS_CR (part px 0 10)
  let v := (clampInt 0 1023 ((sum + 2048) / 4096)).toNat
  let v := if a Reg.DSP_GAMMA_CFG_BYPASS = 1 then v
    else smGet 0 (4096 * a Reg.DSP_GAMMA_CFG_SEL + 1024 * ch + v) (s.dspHead h).gamma
  if a Reg.DSP_LINK_CFG_BPC10 = 1 then v else min 255 ((v + 2) / 4)

/-- A composed pixel in RGB (R378): R × 2^20 + G × 2^10 + B. -/
def State.toRgb (s : State) (h px : Nat) : Nat :=
  s.channel h 0 px Reg.DSP_CSC_R_Y Reg.DSP_CSC_R_CB Reg.DSP_CSC_R_CR * 2 ^ 20 +
    s.channel h 1 px Reg.DSP_CSC_G_Y Reg.DSP_CSC_G_CB Reg.DSP_CSC_G_CR * 2 ^ 10 +
    s.channel h 2 px Reg.DSP_CSC_B_Y Reg.DSP_CSC_B_CB Reg.DSP_CSC_B_CR

/-- The first `n` pixels of active line `y` as sent, the rest RGB 0 (R376, R378, R380). -/
def State.lineRgb (s : State) (h y n : Nat) : List Nat :=
  (List.range (s.dspA h Reg.DSP_TIM_H_HACTIVE)).map (fun x => if x < n then s.toRgb h (s.composed h x y) else 0)

/-- The latch of layer `l`. -/
def DspHead.latch (d : DspHead) (l : Nat) : Option Latch := d.latched.find? (fun x => x.layer == l)

/-- The enabled layers of head `h`. -/
def State.layersOn (s : State) (h : Nat) : List Nat := (List.range 4).filter (fun l => s.dspA h (Reg.DSP_L_CFG_EN l) == 1)

/-- Pixel (x, y) of layer `l` is shown from the line store, and its data has not arrived (R380). -/
def State.layerMissing (s : State) (h l x y : Nat) : Bool :=
  let d := s.dspHead h
  s.covers h l x y && (d.latch l).isSome && !d.filled l y && (smFind (4096 * l + y) d.lines).isNone

/-- The first pixel of active line `y` that is due without its data, if one is. -/
def State.firstMissing (s : State) (h y : Nat) : Option Nat :=
  ((s.layersOn h).filterMap (fun l =>
    let x := s.dspA h (Reg.DSP_L_POS_X0 l)
    if x < s.dspA h Reg.DSP_TIM_H_HACTIVE && s.layerMissing h l x y then some x else none)).min?

/-- Active line `y` is sent with its first `n` pixels, where the link is trained (R388). -/
def State.sendLine (s : State) (h y n : Nat) : State :=
  let s := if s.on (pg .dsp h) Reg.DSP_LINK_STAT_TRAINED then
      s.emit (.pixels h (s.rd (pg .dsp h) Reg.DSP_FRAME_CNT_FRAME) y (s.lineRgb h y n))
    else s
  s.setDspHead h { s.dspHead h with sent := y + 1 }

/-- LAYER_FAULT (R377, R380, R391). -/
def State.layerFault (s : State) (h cause l line : Nat) : State :=
  s.wrs (pg .dsp h) [(Reg.DSP_LAYER_FAULT_FRAME, s.rd (pg .dsp h) Reg.DSP_FRAME_CNT_FRAME), (Reg.DSP_LAYER_FAULT_LINE, line),
    (Reg.DSP_LAYER_FAULT_CAUSE, cause), (Reg.DSP_LAYER_FAULT_LAYER, l)]

/-- The frame underruns at pixel `x` of line `y` (R380, R388): in one that overlaps link training it is counted as deferred alone. -/
def State.underrunAt (s : State) (h y x : Nat) : State :=
  let p := pg .dsp h
  let d := s.dspHead h
  let s := (s.sendLine h y x)
  let s := s.setDspHead h { s.dspHead h with aborted := true }
  if d.unlinked then s.bumpSat p Reg.DSP_HEAD_STAT_DEFER_CNT 1
  else
    let s := (s.bumpSat p Reg.DSP_HEAD_STAT_UNDERRUN_CNT 1).layerFault h 0 (s.rd p Reg.DSP_LAYER_FAULT_LAYER) y
    (s.occur 7 0).event .dsp h 0

/-- Head `h` sends its active lines up to line `y`, not included; output is discarded while the link is not trained (R388). A line with a
pixel whose data has not arrived ends the picture of the frame (R380). -/
def State.sendTo (s : State) (h y : Nat) : State :=
  let d := s.dspHead h
  let y := min y (s.dspA h Reg.DSP_TIM_V_VACTIVE)
  if d.blank then s
  else s.each ((List.range (y - d.sent)).map (fun i => d.sent + i)) (fun s i =>
    if (s.dspHead h).aborted then s.sendLine h i 0
    else match s.firstMissing h i with
      | some x => s.underrunAt h i x
      | none => s.sendLine h i (s.dspA h Reg.DSP_TIM_H_HACTIVE))

/-- The active lines of head `h` that have been sent whole by the start of tick `t`. -/
def State.linesDone (s : State) (h t : Nat) : Nat := match s.lineAt h 0 with
  | some e => (t * 2 ^ 27 - e) / max 1 (lineFine (s.dspA h))
  | none => 0

/-! Commits. -/

/-- The shadowed fields of page `p` in group `g` (R47, R122, R381). -/
def groupFields (p g : Nat) : List Fld :=
  match pageRow p with
  | some r => (blkFields r.blk (p - r.first)).filter (fun f => shadowGroup r.blk f.off == some g)
  | none => []

/-- The shadows of group `g` copied to the active copies (R48). -/
def State.shCopy (s : State) (p g : Nat) : State := s.each (groupFields p g) (fun s f => s.wrA p f (s.shadow p f))

/-- The shadows of page `p` take the values of the LIVE image (R49). -/
def State.shImage (s : State) (p : Nat) : State :=
  let s := { s with page := { s.page with shOld := s.page.shOld.filter (fun x => x.1 / 262144 != p) } }
  s.each ([0, 1, 2].flatMap (groupFields p)) (fun s f => s.wr p f (imgField s.epo.live p f))

/-- Group `g` of page `p` differs from its active copy. -/
def State.shDiffers (s : State) (p g : Nat) : Bool := (groupFields p g).any (fun f => s.rd p f != s.rdA p f)

/-- The link of head `h` leaves its trained state: it trains again, and `counts` says whether as a retrain (R371, R388). -/
def State.unlink (s : State) (h : Nat) (counts : Bool) : State :=
  let p := pg .dsp h
  let s := s.wrs p [(Reg.DSP_LINK_STAT_TRAINED, 0), (Reg.DSP_HEAD_STAT_VIDEO, 0)]
  let s := s.setDspHead h { s.dspHead h with training := false, attempts := 0, waiting := false, unlinked := true }
  s.when counts (fun s => s.bumpSat p Reg.DSP_LINK_STAT_RETRAIN_CNT 1)

/-- LANE_INV, LANES and RATE together. -/
def linkWord (rd : Fld → Nat) : Nat :=
  rd Reg.DSP_LINK_CFG_LANE_INV * 16 + rd Reg.DSP_LINK_CFG_LANES * 4 + rd Reg.DSP_LINK_CFG_RATE

/-- The groups of head `h` in `groups` that pass their checks (R383), with the values that would then be active. -/
def State.dspChecked (s : State) (h : Nat) (groups : List Nat) : List (Nat × Nat) :=
  let p := pg .dsp h
  let rd (f : Fld) : Nat := match shadowGroup .dsp f.off with
    | some g => if groups.contains g then s.shadow p f else s.rdA p f
    | none => s.rd p f
  let timing := dspTimingCode rd
  let rd0 (f : Fld) : Nat := if timing ≠ 0 && shadowGroup .dsp f.off == some 1 then s.rdA p f else rd f
  groups.map (fun g => (g, if g = 1 then timing else if g = 0 then s.layersCode rd0 s.jobCheck else 0))

/-- The commits of head `h` apply (R381 to R384, R387): the pending ones that are not held back as late, or the whole page
where an epoch image waits. It answers whether group 1 applied as a timing-mode change, and whether the link must train. -/
def State.dspApply (s : State) (h : Nat) : State × Bool × Bool :=
  let p := pg .dsp h
  let image := (s.dspHead h).image
  let held (g : Nat) : Bool := s.page.lateCommit.contains (8 * p + g)
  let want := if image then [0, 1, 2] else (bitsOf 3 (s.rd p Reg.SH_CTL_COMMIT)).filter (fun g => !held g)
  let s := { s with page := { s.page with lateCommit := s.page.lateCommit.filter (fun x => x / 8 != p) } }
  let s := if image then (s.wr p Reg.SH_STAT_DROPPED (s.rd p Reg.SH_STAT_DROPPED ||| s.rd p Reg.SH_CTL_COMMIT)).shImage p else s
  if want.isEmpty then (s, false, false)
  else
    let checked := if image then want.map (fun g => (g, 0)) else s.dspChecked h want
    let good := (checked.filter (fun x => x.2 == 0)).map Prod.fst
    let badCode := ((checked.filter (fun x => x.2 != 0)).map Prod.snd).headD 0
    let mode := if image then s.shDiffers p 1 else good.contains 1
    let before := linkWord (s.rdA p)
    let s := s.each good (fun s g => s.shCopy p g)
    let train := linkWord (s.rdA p) != before
    let mask := good.foldl setBit 0
    let late := mask &&& s.rd p Reg.SH_STAT_LATE
    let s := s.wr p Reg.SH_CTL_COMMIT (s.rd p Reg.SH_CTL_COMMIT &&& (255 - want.foldl setBit 0))
    let s := if good.isEmpty then s
      else (s.bump p Reg.SH_STAT_APPLY_SEQ (if image then 0 else good.length)).wrs p
        [(Reg.DSP_COMMIT_LOG_APPLY_FRAME, s.rd p Reg.DSP_FRAME_CNT_FRAME), (Reg.DSP_COMMIT_LOG_GROUPS, mask),
         (Reg.DSP_COMMIT_LOG_LATE, if image then 0 else late), (Reg.DSP_COMMIT_LOG_EPOCH, b2n image),
         (Reg.DSP_COMMIT_LOG_REFUSED, 0)]
    let s := s.eventIf (!image && late != 0) .dsp h 1
    let s := if badCode = 0 then s
      else (s.wrs p [(Reg.DSP_COMMIT_LOG_REFUSED, 1), (Reg.DSP_COMMIT_LOG_REFUSE_CODE, badCode)]).event .dsp h 11
    (s, mode, train)

/-! Frame starts. -/

/-- The buffer that enabled layer `l` of head `h` latches (R368, R375); none where it shows its fill colour (R377). -/
def State.latchOf (s : State) (h l : Nat) : Option Latch :=
  if s.dspA h (Reg.DSP_L_CFG_SRC l) = 0 then some ⟨l, s.dspA h (Reg.DSP_L_BUF_ADDR l), none⟩
  else
    let j := s.dspA h (Reg.DSP_L_CFG_JOB l)
    let kindOk := s.jobKind j == 1 || (s.jobUnit j).isSome
    let b := s.rd tmpPage (Reg.TMP_JOB_STAT_CUR j)
    if s.on tmpPage (Reg.TMP_JOB_CFG_EN j) && kindOk && s.on tmpPage (Reg.TMP_JOB_STAT_VALID j) then
      some ⟨l, s.jobBuf j b, some (64 * j + 32 * b)⟩
    else none

/-- A buffer of the frame before, last read by layer `l`, retires (R389). -/
def State.retire (s : State) (h l addr frame : Nat) : State :=
  let p := pg .dsp h
  ((s.bump p (Reg.DSP_L_RETIRE_SEQ l) 1).wrs p
    [(Reg.DSP_L_RETIRE_FRAME l, frame), (Reg.DSP_L_RETIRE_GRAN l, addr / 4096)]).event .dsp h 4

/-- The buffers that the frame before read and the new one does not (R389): each once, with the highest layer that read
it. -/
def retiring (old new : List Latch) : List Latch :=
  old.filter (fun x => !(new.any (fun y => y.addr == x.addr)) && !(old.any (fun y => y.addr == x.addr && x.layer < y.layer)))

/-- The readouts of the jobs that follow head `h`'s frame start fall due (R253). -/
def State.jobsAtFrame (s : State) (h : Nat) : State :=
  s.each ((List.range 32).filter (fun j => s.on tmpPage (Reg.TMP_JOB_CFG_EN j) && s.rd tmpPage (Reg.TMP_JOB_CFG_SYNC j) == h + 1))
    (fun s j => (s.setTjob j { s.tjob j with due := false }).readoutDue j)

/-- A frame of head `h` starts at tick `t` (R368, R381 to R389). -/
def State.frameStart (s : State) (h t : Nat) : State :=
  let p := pg .dsp h
  let s := s.sendTo h 4096
  let old := s.dspHead h
  let prev := s.rd p Reg.DSP_FRAME_CNT_FRAME
  let start := (s.lineAt h (s.dspA h Reg.DSP_TIM_V_VACTIVE)).getD (t * 2 ^ 27)
  let s := (s.bump p Reg.DSP_FRAME_CNT_FRAME 1).wr p Reg.DSP_FRAME_TICK_TICK (start / 2 ^ 27)
  let frame := s.rd p Reg.DSP_FRAME_CNT_FRAME
  let ap := s.dspApply h
  let s := ap.1
  let mode := ap.2.1 || old.regate
  let train := (ap.2.1 && ap.2.2) || old.regate
  let s := s.when train (fun s => s.unlink h true)
  let d := s.dspHead h
  let modeFrom := match d.modeFrom with
    | some n => some n
    | none => if mode then some frame else none
  let modeTrain := d.modeTrain || train
  let resume := modeFrom.isSome && !mode && !modeTrain
  let blank := modeFrom.isSome && !resume
  let s := if resume then
      (s.wrs p [(Reg.DSP_MODE_STAT_BLANK_FRAMES, min 65535 ((frame + 2 ^ 32 - modeFrom.getD frame) % 2 ^ 32)),
        (Reg.DSP_MODE_STAT_RESUME_FRAME, frame)]).event .dsp h 2
    else s
  let s := s.wrs p [(Reg.DSP_HEAD_STAT_BLANKING, b2n blank),
    (Reg.DSP_HEAD_STAT_VIDEO, b2n (!blank && s.on p Reg.DSP_LINK_STAT_TRAINED))]
  let on := if blank then [] else s.layersOn h
  let new := on.filterMap (s.latchOf h)
  let fill := (on.filter (fun l => (s.latchOf h l).isNone)).map (fun l => (l, 0))
  let s := s.each (retiring d.latched new) (fun s x => s.retire h x.layer x.addr prev)
  let gone := (d.latched.filterMap Latch.job).filter (fun j => !(new.filterMap Latch.job).contains j)
  let taken := s.tmp.taken.filter (fun x => !(gone.any (fun j => j + h == x)))
  let taken := (new.filterMap Latch.job).foldl (fun l j => if l.contains (j + h) then l else (j + h) :: l) taken
  let s := { s with tmp := { s.tmp with taken := taken } }
  let flip := new.any (fun x => d.latched.any (fun y => y.layer == x.layer && y.addr != x.addr))
  let s := if flip then
      (s.wrs p [(Reg.DSP_FLIP_TICK_TICK, s.rd p Reg.DSP_FRAME_TICK_TICK), (Reg.DSP_FRAME_CNT_FLIP_FRAME, frame)]).event .dsp h 5
    else s
  let s := s.setDspHead h { d with
    latched := new, tag := [], fill := fill, lines := [], sent := 0, aborted := false, blank := blank
    unlinked := !s.on p Reg.DSP_LINK_STAT_TRAINED, modeFrom := if resume then none else modeFrom
    modeTrain := modeTrain, regate := false, image := false, vsync := none, startAt := some start }
  ((s.jobsAtFrame h).kickReadouts t).freqAtFrame h

/-- The frame start of a head that runs, once it is due (R368, R369, R385). -/
def State.frameAt (s : State) (h t : Nat) : State :=
  if s.headRuns h && s.frameOver h t then s.frameStart h t else s

/-- FRAME_START (R368). -/
def execFrameStart (t : Nat) (h : Fin 2) (s : State) : Host.Outcome State Fault Refusal :=
  let s := s.advance t
  .next (s.frameAt h t)

/-! Fetches. -/

/-- Layer `l` shows its fill colour from line `line` to the end of the frame, with `cause` (R377). -/
def State.fillFrom (s : State) (h cause l line : Nat) : State :=
  (s.layerFault h cause l line).setDspHead h { s.dspHead h with fill := (l, line) :: (s.dspHead h).fill }

/-- The guard tag of layer `l`, read again after line `line`, differs from the frame's first read (R391). -/
def State.tagCheck (s : State) (h l line : Nat) : State :=
  let d := s.dspHead h
  match d.latch l, smFind l d.tag with
  | some x, some tag =>
    if !d.aborted && !d.filled l line && s.dspA h (Reg.DSP_L_CFG_GUARD l) == 1 && s.readNat x.addr 8 != tag then
      (s.fillFrom h 1 l line).event .dsp h 3
    else s
  | _, _ => s

/-- A line's data reaches the line store (R379, R377, R391): line `line` of layer `l` of head `h`, before its first pixel is due. -/
def State.lineFetch (s : State) (h l line : Nat) : State :=
  let s := s.sendTo h (s.linesDone h s.tick)
  let d := s.dspHead h
  let y0 := s.dspA h (Reg.DSP_L_POS_Y0 l)
  let x0 := s.dspA h (Reg.DSP_L_POS_X0 l)
  match d.latch l with
  | none => s
  | some x =>
    let g := s.geoOf h l x.addr
    let late := match s.lineAt h line with
      | some e => decide (e + x0 * pclkDiv (s.dspA h) < s.tick * 2 ^ 27)
      | none => false
    if late || d.blank || d.aborted || d.filled l line || line < y0 || y0 + g.h ≤ line || s.dspA h Reg.DSP_TIM_V_VACTIVE ≤ line then s
    else
      let n := min g.w (s.dspA h Reg.DSP_TIM_H_HACTIVE - x0)
      let spans := g.spans (line - y0) n
      if spans.any (fun a => anyGranule a.1 a.2 s.beyond) then s.fillFrom h 3 l line
      else if spans.any (fun a => anyGranule a.1 a.2 s.unavailable) then s
      else if spans.any (fun a => s.poisoned a.1 a.2) then (s.fillFrom h 2 l line).event .dsp h 10
      else
        let d := if s.dspA h (Reg.DSP_L_CFG_GUARD l) = 1 && (smFind l d.tag).isNone then
          { d with tag := smInsert l (s.readNat x.addr 8) d.tag } else d
        let px := (List.range n).map (fun i => s.layerPixel g i (line - y0))
        (s.setDspHead h { d with lines := smInsert (4096 * l + line) px d.lines }).tagCheck h l line

/-- LINE_FETCH (R379): a fetch from a channel that is being retrained brings no data (R411). -/
def execLineFetch (t : Nat) (h : Fin 2) (l : Fin 4) (line : Fin 2160) (s : State) : Host.Outcome State Fault Refusal :=
  let s := s.advance t
  .next (if s.headRuns h then s.lineFetch h l line else s)

/-- UNDERRUN (R380, R388): pixel `x` of line `line` is due, and its data has not arrived. -/
def execUnderrun (t : Nat) (h : Fin 2) (line : Fin 2160) (x : Fin 3840) (s : State) : Host.Outcome State Fault Refusal :=
  let s := s.advance t
  let due := match s.lineAt h line with
    | some e => decide (e + x.val * pclkDiv (s.dspA h) ≤ t * 2 ^ 27 + 2 ^ 27)
    | none => false
  .next (if !s.headRuns h || (s.dspHead h).blank || !due then s
    else
      let s := s.sendTo h line
      if (s.dspHead h).aborted || line < (s.dspHead h).sent || s.firstMissing h line ≠ some x.val then s
      else s.underrunAt h line x)

/-- TAG_CHANGED (R391): the tag of layer `l`, read again after line `line`, differs from the frame's first read. -/
def execTagChanged (t : Nat) (h : Fin 2) (l : Fin 4) (line : Fin 2160) (s : State) : Host.Outcome State Fault Refusal :=
  let s := s.advance t
  .next (if s.headRuns h then s.tagCheck h l line else s)

/-! The link. -/

/-- LINK_STAT.FAILED and the level of LINK_FAIL (R371, R394). -/
def State.linkFailed (s : State) (h : Nat) (b : Bool) : State :=
  (s.wr (pg .dsp h) Reg.DSP_LINK_STAT_FAILED (b2n b)).setRaw (evId .dsp h 8) b

/-- HPD_CHANGE (R371, R388): the level after the filter; `lostLock` is what the sink's link status says where the head reads
it. HPD low again after 2 ms is an unplug. -/
def execHpdChange (t : Nat) (h : Fin 2) (level lostLock : Bool) (s : State) : Host.Outcome State Fault Refusal :=
  let s := s.advance t
  let p := pg .dsp h
  let d := s.dspHead h
  let was := s.on p Reg.DSP_LINK_STAT_HPD
  let away := 3200000 < s.tick - d.hpdFell
  .next (if was == level then
      (if !level && away && s.on p Reg.DSP_LINK_STAT_TRAINED then s.unlink h true else s)
    else if !level then
      ((s.wr p Reg.DSP_LINK_STAT_HPD 0).setDspHead h { d with hpdFell := s.tick }).event .dsp h 9
    else
      let s := (s.wr p Reg.DSP_LINK_STAT_HPD 1).event .dsp h 9
      if away then
        let s := s.when (s.on p Reg.DSP_LINK_STAT_TRAINED) (fun s => s.unlink h true)
        s.setDspHead h { s.dspHead h with training := false, attempts := 0, waiting := false }
      else if lostLock && s.on p Reg.DSP_LINK_STAT_TRAINED then (s.unlink h true).event .dsp h 7 else s)

/-- The link of head `h` is to be trained (R371). -/
def State.mayTrain (s : State) (h : Nat) : Bool :=
  let p := pg .dsp h
  s.headRuns h && s.on p Reg.DSP_LINK_STAT_HPD && !(s.dspHead h).training &&
    (!s.on p Reg.DSP_LINK_STAT_TRAINED || s.on p Reg.DSP_HEAD_CTL_RETRAIN)

/-- LINK_TRAIN_ATTEMPT (R371): the sink's capability is read first; a configured rate or lane count above it fails without an
attempt. -/
def execLinkTrainAttempt (t : Nat) (h : Fin 2) (sinkRate : Fin 4) (sinkLanes : Fin 3) (s : State) : Host.Outcome State Fault Refusal :=
  let s := s.advance t
  let p := pg .dsp h
  .next (if !s.mayTrain h || (s.dspHead h).waiting then s
    else if sinkRate.val < s.dspA h Reg.DSP_LINK_CFG_RATE ∨ sinkLanes.val < s.dspA h Reg.DSP_LINK_CFG_LANES then
      ((s.setDspHead h { s.dspHead h with attempts := 0, failedAt := s.tick, waiting := true }).wr p Reg.DSP_HEAD_CTL_RETRAIN 0).linkFailed h true
    else
      let s := s.wr p Reg.DSP_LINK_STAT_TRAINED 0
      s.setDspHead h { s.dspHead h with training := true, trainAt := s.tick, unlinked := true })

/-- The AUX transaction in AUX_CTL and AUX_DATA starts (R372). -/
def State.auxStart (s : State) (h : Nat) : State :=
  let p := pg .dsp h
  (s.setDspHead h { s.dspHead h with auxWait := false }).emit (.aux h
    [s.rd p Reg.DSP_AUX_CTL_I2C, s.rd p Reg.DSP_AUX_CTL_READ, s.rd p Reg.DSP_AUX_CTL_LEN_M1, s.rd p Reg.DSP_AUX_CTL_ADDR,
     s.rd p Reg.DSP_AUX_DATA0_DATA, s.rd p Reg.DSP_AUX_DATA1_DATA])

/-- LINK_TRAIN_DONE (R371, R387): a training attempt ends; one of more than 20 ms has failed. After 5 failed attempts FAILED sets. -/
def execLinkTrainDone (t : Nat) (h : Fin 2) (ok : Bool) (s : State) : Host.Outcome State Fault Refusal :=
  let s := s.advance t
  let p := pg .dsp h
  let d := s.dspHead h
  .next (if !d.training then s
    else
      let s := if ok && s.tick ≤ d.trainAt + 32000000 then
          let s := s.setDspHead h { d with training := false, attempts := 0, modeTrain := false }
          (s.wrs p [(Reg.DSP_LINK_STAT_TRAINED, 1), (Reg.DSP_LINK_STAT_RATE_ACT, s.dspA h Reg.DSP_LINK_CFG_RATE),
            (Reg.DSP_LINK_STAT_LANES_ACT, s.dspA h Reg.DSP_LINK_CFG_LANES), (Reg.DSP_HEAD_CTL_RETRAIN, 0),
            (Reg.DSP_HEAD_STAT_VIDEO, b2n (!d.blank && s.headRuns h))]).linkFailed h false
        else if d.attempts + 1 < 5 then s.setDspHead h { d with training := false, attempts := d.attempts + 1 }
        else ((s.setDspHead h { d with training := false, attempts := 0, failedAt := s.tick, waiting := true }).wr p
          Reg.DSP_HEAD_CTL_RETRAIN 0).linkFailed h true
      s.when d.auxWait (fun s => s.auxStart h))

/-- LINK_TRAIN_RETRY (R371): 1 s after the last try, a failed link may be tried once more. -/
def execLinkTrainRetry (t : Nat) (h : Fin 2) (s : State) : Host.Outcome State Fault Refusal :=
  let s := s.advance t
  let d := s.dspHead h
  .next (if !s.mayTrain h || !d.waiting || s.tick < d.failedAt + 1600000000 then s
    else s.setDspHead h { d with waiting := false, attempts := 4 })

/-- A write of HEAD_CTL (R393). -/
def State.headCtl (s : State) (h v : Nat) : State :=
  let p := pg .dsp h
  let s := if v % 2 = 1 then s.wrs p [(Reg.DSP_HEAD_STAT_UNDERRUN_CNT, 0), (Reg.DSP_HEAD_STAT_DEFER_CNT, 0),
    (Reg.DSP_HEAD_STAT_GAMMA_REJ, 0), (Reg.DSP_LINK_STAT_RETRAIN_CNT, 0)] else s
  if bit v 1 = 0 || s.on p Reg.DSP_HEAD_CTL_RETRAIN then s
  else
    let s := (s.wr p Reg.DSP_HEAD_CTL_RETRAIN 1).setDspHead h { s.dspHead h with attempts := 0, waiting := false }
    if s.on p Reg.DSP_LINK_STAT_TRAINED then s.unlink h true else s

/-- HEAD_RETRAIN and HEAD_CLR (R393). -/
def execHeadRetrain (t : Nat) (h : Fin 2) (s : State) : Host.Outcome State Fault Refusal :=
  .next ((s.advance t).hosted (pg .dsp h) 0x1D8 2 (fun s => s.headCtl h 2))
def execHeadClr (t : Nat) (h : Fin 2) (s : State) : Host.Outcome State Fault Refusal :=
  .next ((s.advance t).hosted (pg .dsp h) 0x1D8 1 (fun s => s.headCtl h 1))

/-! AUX and gamma. -/

/-- A write of AUX_CTL (R372, R393). -/
def State.auxCtl (s : State) (h v : Nat) : State :=
  let p := pg .dsp h
  if s.on p Reg.DSP_AUX_CTL_GO then s
  else
    let s := s.wrs p [(Reg.DSP_AUX_CTL_I2C, bit v 62), (Reg.DSP_AUX_CTL_READ, bit v 61), (Reg.DSP_AUX_CTL_LEN_M1, bits v 59 56),
      (Reg.DSP_AUX_CTL_ADDR, bits v 19 0)]
    if bit v 63 = 0 then s
    else
      let s := s.wr p Reg.DSP_AUX_CTL_GO 1
      if (s.dspHead h).training then s.setDspHead h { s.dspHead h with auxWait := true } else s.auxStart h

/-- The word of AUX_CTL. -/
def auxWord (i2c read : Bool) (lenM1 addr : Nat) : Nat := 2 ^ 63 + b2n i2c * 2 ^ 62 + b2n read * 2 ^ 61 + lenM1 * 2 ^ 56 + addr

/-- AUX_GO (R372). -/
def execAuxGo (t : Nat) (h : Fin 2) (i2c read : Bool) (lenM1 : Fin 16) (addr : BitVec 20) (s : State) : Host.Outcome State Fault Refusal :=
  let w := auxWord i2c read lenM1 addr.toNat
  .next ((s.advance t).hosted (pg .dsp h) 0x1E0 w (fun s => s.auxCtl h w))

/-- AUX_DONE (R372): RESULT gives the outcome, and the data of an acknowledged read stands in AUX_DATA. -/
def execAuxDone (t : Nat) (h : Fin 2) (result : Fin 4) (data : List Byte) (s : State) : Host.Outcome State Fault Refusal :=
  let s := s.advance t
  let p := pg .dsp h
  let d := data.take (s.rd p Reg.DSP_AUX_CTL_LEN_M1 + 1)
  .next (if !s.on p Reg.DSP_AUX_CTL_GO || (s.dspHead h).auxWait then s
    else
      let s := s.wrs p [(Reg.DSP_AUX_CTL_GO, 0), (Reg.DSP_AUX_CTL_RESULT, result.val)]
      if result.val = 0 && s.on p Reg.DSP_AUX_CTL_READ then
        let mix (w : Nat) (l : List Byte) : Nat := ofLeBytes (l ++ (leBytes 8 w).drop l.length)
        s.wrs p [(Reg.DSP_AUX_DATA0_DATA, mix (s.rd p Reg.DSP_AUX_DATA0_DATA) (d.take 8)),
          (Reg.DSP_AUX_DATA1_DATA, mix (s.rd p Reg.DSP_AUX_DATA1_DATA) (d.drop 8))]
      else s)

/-- A write of GAMMA_DATA (R378, R393): the entry advances; the bank that GAMMA_CFG.SEL names takes no write. -/
def State.gammaWrite (s : State) (h v : Nat) : State :=
  let p := pg .dsp h
  let b := s.rd p Reg.DSP_GAMMA_IDX_BANK
  let ch := s.rd p Reg.DSP_GAMMA_IDX_CH
  let e := s.rd p Reg.DSP_GAMMA_IDX_ENTRY
  let s := s.bump p Reg.DSP_GAMMA_IDX_ENTRY 1
  if b = s.dspA h Reg.DSP_GAMMA_CFG_SEL then s.wr p Reg.DSP_HEAD_STAT_GAMMA_REJ 1
  else if ch = 3 then s
  else
    let d := s.dspHead h
    s.setDspHead h { d with gamma := smSet 0 (4096 * b + 1024 * ch + e) (v % 1024) d.gamma }

/-- GAMMA_DATA_WRITE (R378). -/
def execGammaDataWrite (t : Nat) (h : Fin 2) (v : BitVec 10) (s : State) : Host.Outcome State Fault Refusal :=
  .next ((s.advance t).hosted (pg .dsp h) 0x188 v.toNat (fun s => s.gammaWrite h v.toNat))

/-! TE. -/

/-- Head `h` waits for TE at tick `t` (R385): VFP has ended and VSYNC has not begun. -/
def State.teWait (s : State) (h t : Nat) : Bool :=
  let rd := s.dspA h
  s.headRuns h && rd Reg.DSP_TIM_CFG_TE_MODE == 1 && (s.dspHead h).vsync.isNone &&
    decide ((s.dspHead h).startAt.getD 0 + rd Reg.DSP_TIM_V_VFP * lineFine rd ≤ t * 2 ^ 27)

/-- The tick at which head `h`, waiting for TE, goes on without it (R385). -/
def State.teEnd (s : State) (h : Nat) : Nat :=
  let rd := s.dspA h
  ((s.dspHead h).startAt.getD 0 + rd Reg.DSP_TIM_V_VFP * lineFine rd) / 2 ^ 27 + rd Reg.DSP_TIM_CFG_TE_TIMEOUT * 16000

/-- TE_EDGE (R385): the active edge at tick `edge` has persisted for TE_FILTER FCLK. -/
def execTeEdge (t : Nat) (h : Fin 2) (edge : Nat) (s : State) : Host.Outcome State Fault Refusal :=
  let s := s.advance t
  let at_ := edge + s.dspA h Reg.DSP_TIM_CFG_TE_FILTER
  .next (if !s.teWait h edge || s.tick < at_ || s.teEnd h < at_ then s
    else (s.wr (pg .dsp h) Reg.DSP_TE_TICK_TICK edge).setDspHead h { s.dspHead h with vsync := some at_ })

/-- TE_MISSING (R385): TE_TIMEOUT, in units of 10 µs, has passed since VFP ended. -/
def execTeMissing (t : Nat) (h : Fin 2) (s : State) : Host.Outcome State Fault Refusal :=
  let s := s.advance t
  .next (if !s.teWait h s.tick || s.tick < s.teEnd h then s
    else (s.setDspHead h { s.dspHead h with vsync := some (s.teEnd h) }).event .dsp h 6)

end Sys2Proof.Machine
end

