-- ==== Sys2Proof/Machine/Banks.lean ====
section
/-!
DEFINITION. The scratchpad banks (R424 to R440): ownership, accesses and their arbitration, the transform deposit, the density
spill and the DMA engines.
-/
namespace Sys2Proof.Machine

/-- Word `w` of bank `b`. -/
def State.bankWord (s : State) (b w : Nat) : Word := smGet 0 (131072 * b + w) s.bank.words
def State.setBankWord (s : State) (b w : Nat) (v : Word) : State :=
  { s with bank := { s.bank with words := smSet 0 (131072 * b + w) v s.bank.words } }

/-! Ownership. -/

/-- The codes of R425: port-A agents, port-B agents. -/
def isPortA (k : Nat) : Bool := k ≤ 0x40
def isPortB (k : Nat) : Bool := 0x50 ≤ k && k ≤ 0x61

/-- OWNER and B_AGENT codes that a write may hold (R425). -/
def ownOk (owner agent : Nat) : Bool := (isPortA owner || isPortB owner || owner == 0x7F) && (isPortB agent || agent == 0x7F)

/-- Agent `k` may use a bank with this owner and port-B agent (R426). -/
def ownLegal (owner agent k : Nat) : Bool := k == owner || (isPortA owner && isPortB k && k == agent)

/-- Bank `b` is being cleared (R128, R145): at start-up, and in the 82 µs after its logic is up on a wake from OFF. -/
def State.bankClears (s : State) (b : Nat) : Bool :=
  let p := pg .bnk b
  (s.rd (pg .glb 0) Reg.GLB_BOOT_STAT_STEP == 6 && !s.boot.cleared.contains b) ||
    (s.on p Reg.PG_STAT_PSTATE_BUSY && s.pstateAct p == 3 && s.pstate p == 0 && smGet 0 p s.page.psAt + 80000 ≤ s.tick)

/-- The bank answers accesses (R429): it is ON and not clearing. -/
def State.bankOn (s : State) (b : Nat) : Bool := s.pstateAct (pg .bnk b) == 0 && !s.bankClears b

/-- An access of agent `k` to bank `b` waits for the handover in progress, which brings it in (R427). -/
def State.bankHolds (s : State) (b k : Nat) : Bool :=
  let p := pg .bnk b
  s.bankOn b && s.on p Reg.BNK_BNK_OWN_BUSY && ownLegal (s.rd p Reg.BNK_BNK_OWN_OWNER) (s.rd p Reg.BNK_BNK_OWN_B_AGENT) k

/-- An access of agent `k` to bank `b` is accepted (R426, R427, R429). -/
def State.bankAccepts (s : State) (b k : Nat) : Bool :=
  let p := pg .bnk b
  s.bankOn b && !s.on p Reg.BNK_BNK_OWN_BUSY && ownLegal (s.rd p Reg.BNK_BNK_OWN_OWNER_ACT) (s.rd p Reg.BNK_BNK_OWN_B_AGENT_ACT) k

/-- A refused access is logged, counted and raised (R429). -/
def State.bankRefuse (s : State) (b k word : Nat) (write : Bool) : State :=
  let p := pg .bnk b
  let s := if s.on p Reg.BNK_BNK_ERR_VALID then s
    else s.wrs p [(Reg.BNK_BNK_ERR_VALID, 1), (Reg.BNK_BNK_ERR_PORT, b2n (!isPortA k)), (Reg.BNK_BNK_ERR_WRITE, b2n write),
      (Reg.BNK_BNK_ERR_REQ, k), (Reg.BNK_BNK_ERR_WORD, word), (Reg.BNK_BNK_ERR_COUNT, 0)]
  (s.bumpSat p Reg.BNK_BNK_ERR_COUNT 1).event .bnk b 0

/-! The words staged for port B. -/

/-- Bytes as 64-bit words, the last filled with zeros. -/
def toWords : Nat → List Byte → List Nat
  | 0, _ => []
  | n + 1, l => if l.isEmpty then [] else ofLeBytes (l.take 8) :: toWords n (l.drop 8)

/-- The words staged for port B of bank `b`, oldest first, written. -/
def State.stagedOf (s : State) (b : Nat) : List PortWord := smGet [] b s.bank.staged
def State.setStaged (s : State) (b : Nat) (l : List PortWord) : State :=
  { s with bank := { s.bank with staged := smSet [] b l s.bank.staged } }

/-- The next staged word of bank `b` is presented in FCLK `t` at the earliest. -/
def State.portFrom (s : State) (b t : Nat) : State :=
  { s with bank := { s.bank with portAt := smInsert b (max t (smGet 0 b s.bank.portAt)) s.bank.portAt } }

/-- The words that the spill into bank `b` has made of the counts read by the end of tick `t` are staged (R435); those past the last word of
the bank are not written. -/
def State.spillPush (s : State) (b t : Nat) : State :=
  let s := s.spillRead t
  match smFind b s.bank.spill with
  | none => s
  | some j =>
    let n := j.cells.length / 4
    let at_ := j.done / 4 - n
    let l := toWords n ((j.cells.take (4 * n)).flatMap (leBytes 2))
    let l := l.zipIdx.map (fun x => (⟨0x61, j.dst + at_ + x.2, BitVec.ofNat 64 x.1, false⟩ : PortWord))
    let s := { s with bank := { s.bank with spill := smInsert b { j with cells := j.cells.drop (4 * n) } s.bank.spill } }
    s.setStaged b (s.stagedOf b ++ l.filter (fun x => x.word < 131072))

/-- Port B refuses the next staged word of bank `b` (R429, R434, R435): the records staged are discarded and counted, and a spill ends. -/
def State.stagedRefused (s : State) (b : Nat) : State :=
  match s.stagedOf b with
  | [] => s
  | x :: l =>
    let p := pg .bnk b
    let s := s.bankRefuse b x.agent x.word true
    let s := s.bumpSat p Reg.BNK_DEP_STAT_DROPS ((x :: l).filter PortWord.last).length
    let s := if x.agent = 0x61 then
        ({ s with bank := { s.bank with spill := smErase b s.bank.spill } }).wr p Reg.BNK_SPILL_CTL_GO 0
      else s
    s.setStaged b []

/-- The staged words of bank `b` that port B has written before FCLK `t`, one in each (R424, R430). -/
def State.bankSync (s : State) (b t : Nat) : State :=
  let s := s.spillPush b (t - 1)
  match s.stagedOf b with
  | [] => s.portFrom b t
  | x :: l =>
    if s.bankAccepts b x.agent then
      let n := t - smGet t b s.bank.portAt
      let s := s.each ((x :: l).take n) (fun s y => s.setBankWord b y.word y.data)
      (s.setStaged b ((x :: l).drop n)).portFrom b t
    else if s.bankHolds b x.agent then s.portFrom b t
    else s.stagedRefused b

/-! Port B waits. -/

/-- One more FCLK in which port B of bank `b` waits (R432). -/
def State.bankWait (s : State) (b : Nat) : State :=
  let n := smGet 0 b s.bank.wait + 1
  let s := { s with bank := { s.bank with wait := smSet 0 b n s.bank.wait } }
  (s.bumpSat (pg .bnk b) Reg.BNK_BNK_STAT_STARVE_CNT 1).peak (pg .bnk b) Reg.BNK_BNK_STAT_STARVE_MAX (min n 65535)

/-- Port B of bank `b` waits no longer. -/
def State.bankServed (s : State) (b : Nat) : State :=
  { s with bank := { s.bank with wait := smErase b s.bank.wait, waitSaid := s.bank.waitSaid.erase b } }

/-- A write of port B is discarded (R431). -/
def State.bankCollide (s : State) (b : Nat) : State :=
  ((s.bumpSat (pg .bnk b) Reg.BNK_BNK_STAT_COLL_CNT 1).wr (pg .bnk b) Reg.BNK_BNK_STAT_COLL 1).event .bnk b 1

/-- Port A of bank `b` has accessed word `w` in FCLK `t`: the staged word that port B presents in it is written, waits, or is discarded
(R430, R431). -/
def State.portMeets (s : State) (b t w : Nat) (write : Bool) : State :=
  match s.stagedOf b with
  | [] => s
  | x :: l =>
    if t < smGet t b s.bank.portAt || !s.bankAccepts b x.agent then s
    else
      let s := s.portFrom b (t + 1)
      if x.word ≠ w ∧ x.word % 8 = w % 8 then s.bankWait b
      else
        let s := (s.setStaged b l).bankServed b
        if x.word = w ∧ write then s.bankCollide b else s.setBankWord b x.word x.data

/-! DMA. -/

/-- Engine `d` runs (R44). -/
def State.dmaRuns (s : State) (d : Nat) : Bool := s.runs (pg .dma d)

/-- A transfer of engine `d` is in progress. -/
def State.dmaBusy (s : State) (d : Nat) : Bool := s.on (pg .dma d) Reg.DMA_DMA_CTL_GO

/-- The index of the transfer's next word (R436, R437): words written and words discarded. -/
def State.dmaNext (s : State) (d : Nat) : Nat :=
  s.rd (pg .dma d) Reg.DMA_DMA_XFER_WORDS_DONE + s.rd (pg .dma d) Reg.DMA_DMA_STAT_COLL_CNT

/-- A transfer of engine `d` ends with a status (R437); POISON stands where no stopping status does. -/
def State.dmaEnd (s : State) (d st : Nat) : State :=
  let p := pg .dma d
  let st := if st = 0 && s.bank.dmaPoison.contains d then 3 else st
  let s := s.wrs p [(Reg.DMA_DMA_CTL_GO, 0), (Reg.DMA_DMA_CTL_ABORT, 0), (Reg.DMA_DMA_STAT_STATUS, st), (Reg.DMA_DMA_STAT_DONE, 1)]
  let s := { s with bank := { s.bank with dmaPoison := s.bank.dmaPoison.erase d, dmaAbort := s.bank.dmaAbort.erase d } }
  let s := ((s.bump p Reg.DMA_DMA_XFER_TRANSFERS 1).event .dma d 0).eventIf (st == 1 || st == 2 || st == 4) .dma d 1
  s.eventIf (s.on p Reg.DMA_DMA_STAT_COLLISION) .dma d 2

/-- A write of engine `d` that a bank discards (R431, R437). -/
def State.dmaCollide (s : State) (d : Nat) : State :=
  let p := pg .dma d
  let s := if s.on p Reg.DMA_DMA_STAT_COLLISION then s
    else s.wrs p [(Reg.DMA_DMA_STAT_COLLISION, 1), (Reg.DMA_DMA_STAT_COLL_IDX, s.dmaNext d)]
  s.bumpSat p Reg.DMA_DMA_STAT_COLL_CNT 1

/-- What reading the next word at one end gives: the word, a stopping status, or a wait. -/
inductive DmaRead | word (v : Word) | stop (st : Nat) | wait
  deriving DecidableEq, Repr

/-- The next word of engine `d` read (R436, R437). -/
def State.dmaRead (s : State) (d : Nat) : DmaRead × State :=
  let p := pg .dma d
  let i := s.dmaNext d
  let a := s.rd p Reg.DMA_DMA_SRC_ADDR
  if s.on p Reg.DMA_DMA_SRC_BANK_SEL then
    let b := s.rd p Reg.DMA_DMA_SRC_BANK
    let w := a + i
    if s.bankHolds b (0x50 + d) then (.wait, s)
    else if 131072 ≤ w || !s.bankAccepts b (0x50 + d) then (.stop 1, s.bankRefuse b (0x50 + d) (w % 131072) false)
    else (.word (s.bankWord b w), s)
  else if s.beyond (a + 8 * i) then (.stop 2, s)
  else if s.chanWaits (a + 8 * i) then (.wait, s)
  else if s.poisoned (a + 8 * i) 8 then
    (.word 0, { s with bank := { s.bank with dmaPoison := d :: s.bank.dmaPoison.erase d } })
  else (.word (BitVec.ofNat 64 (s.readNat (a + 8 * i) 8)), s)

/-- One word of engine `d`'s transfer (R436, R437): a status where it stops, and whether a word moved. -/
def State.dmaWord (s : State) (d : Nat) : Option Nat × Bool × State :=
  let p := pg .dma d
  let i := s.dmaNext d
  match s.dmaRead d with
  | (.wait, s) => (none, false, s)
  | (.stop st, s) => (some st, false, s)
  | (.word v, s) =>
    let a := s.rd p Reg.DMA_DMA_DST_ADDR
    let done (s : State) : State := s.bump p Reg.DMA_DMA_XFER_WORDS_DONE 1
    if s.on p Reg.DMA_DMA_DST_BANK_SEL then
      let b := s.rd p Reg.DMA_DMA_DST_BANK
      let w := a + i
      if s.bankHolds b (0x50 + d) then (none, false, s)
      else if 131072 ≤ w || !s.bankAccepts b (0x50 + d) then (some 1, false, s.bankRefuse b (0x50 + d) (w % 131072) true)
      else (none, true, done (s.setBankWord b w v))
    else if s.beyond (a + 8 * i) then (some 2, false, s)
    else if s.chanWaits (a + 8 * i) then (none, false, s)
    else (none, true, done (s.memWrite (a + 8 * i) (leBytes 8 v.toNat)))

/-- At most `n` further words, of at most `left` that remain. -/
def State.dmaWords (s : State) (d : Nat) : Nat → Option Nat × State
  | 0 => (none, s)
  | n + 1 =>
    if s.rd (pg .dma d) Reg.DMA_DMA_LEN_WORDS ≤ s.dmaNext d then (none, s)
    else match s.dmaWord d with
      | (some st, _, s) => (some st, s)
      | (none, true, s) => State.dmaWords s d n
      | (none, false, s) => (none, s)

/-- A write of DMA_CTL (R436, R437). A GO starts a transfer in an engine that runs (notes/assumptions/23). -/
def State.dmaCtl (s : State) (d v : Nat) : State :=
  let p := pg .dma d
  if s.dmaBusy d then
    if bit v 1 = 1 then
      ({ s with bank := { s.bank with dmaAbort := d :: s.bank.dmaAbort.erase d } }).wr p Reg.DMA_DMA_CTL_ABORT 1
    else s
  else if v % 2 = 1 && s.dmaRuns d then
    ({ s with bank := { s.bank with dmaAt := smInsert d s.tick s.bank.dmaAt } }).wrs p [(Reg.DMA_DMA_CTL_GO, 1), (Reg.DMA_DMA_STAT_DONE, 0), (Reg.DMA_DMA_XFER_WORDS_DONE, 0),
      (Reg.DMA_DMA_STAT_COLL_CNT, 0), (Reg.DMA_DMA_STAT_COLLISION, 0), (Reg.DMA_DMA_STAT_COLL_IDX, 0)]
  else s

/-- DMA_GO and DMA_ABORT (R436, R437). -/
def execDmaGo (t : Nat) (d : Fin 16) (s : State) : Host.Outcome State Fault Refusal :=
  .next ((s.advance t).hosted (pg .dma d) 0x118 1 (fun s => s.dmaCtl d 1))
def execDmaAbort (t : Nat) (d : Fin 16) (s : State) : Host.Outcome State Fault Refusal :=
  .next ((s.advance t).hosted (pg .dma d) 0x118 2 (fun s => s.dmaCtl d 2))

/-- The words that the transfer of engine `d` may have moved by now (R424, R436): one in each FCLK where an end lies in a bank. -/
def State.dmaReach (s : State) (d : Nat) : Nat :=
  let p := pg .dma d
  if s.on p Reg.DMA_DMA_SRC_BANK_SEL || s.on p Reg.DMA_DMA_DST_BANK_SEL then s.tick - smGet 0 d s.bank.dmaAt - s.dmaNext d else 131072

/-- DMA_DONE (R437): the rest of the transfer moves, as far as its time allows, or, after an ABORT, the `inFlight` words, and it ends. -/
def State.dmaFinish (s : State) (d inFlight : Nat) : State :=
  if !s.dmaBusy d then s
  else
    let aborted := s.bank.dmaAbort.contains d
    let r := s.dmaWords d (min (s.dmaReach d) (if aborted then inFlight else 131072))
    match r.1 with
    | some st => r.2.dmaEnd d st
    | none =>
      if s.rd (pg .dma d) Reg.DMA_DMA_LEN_WORDS ≤ r.2.dmaNext d then r.2.dmaEnd d 0
      else if aborted then r.2.dmaEnd d 4 else r.2
def execDmaDone (t : Nat) (d : Fin 16) (inFlight : Nat) (s : State) : Host.Outcome State Fault Refusal :=
  let s := s.advance t
  .next (if s.gated || !(s.dmaRuns d || s.bank.dmaAbort.contains d.val) then s else s.dmaFinish d inFlight)

/-! Handover. -/

/-- Engine `d` presents its next word to bank `b` (R436). -/
def State.dmaAt (s : State) (d b : Nat) : Bool :=
  let p := pg .dma d
  let at_ (sel bank : Fld) : Bool := s.on p sel && s.rd p bank == b
  s.dmaBusy d && (at_ Reg.DMA_DMA_SRC_BANK_SEL Reg.DMA_DMA_SRC_BANK || at_ Reg.DMA_DMA_DST_BANK_SEL Reg.DMA_DMA_DST_BANK)

/-- A handover of bank `b` refuses what its old users have not yet brought in (R427, R429, R437): staged words, and the transfers of DMA
engines that it does not let go on. -/
def State.bankTurn (s : State) (b : Nat) : State :=
  let s := match s.stagedOf b with
    | [] => s
    | x :: _ => if s.bankHolds b x.agent then s else s.stagedRefused b
  s.each ((List.range 16).filter (fun d => s.dmaAt d b && s.bankOn b && !s.bankHolds b (0x50 + d))) (fun s d =>
    let p := pg .dma d
    let dst := s.on p Reg.DMA_DMA_DST_BANK_SEL && s.rd p Reg.DMA_DMA_DST_BANK == b
    let w := (if dst then s.rd p Reg.DMA_DMA_DST_ADDR else s.rd p Reg.DMA_DMA_SRC_ADDR) + s.dmaNext d
    (s.bankRefuse b (0x50 + d) (w % 131072) dst).dmaEnd d 1)

/-- A write of BNK_OWN (R425, R427): an invalid code is ignored and flagged; else a handover starts, or its target is
replaced. -/
def State.bnkOwn (s : State) (b owner agent : Nat) : State :=
  let p := pg .bnk b
  if !ownOk owner agent then s.wr p Reg.BNK_BNK_OWN_OWN_ERR 1
  else
    let s := s.bankSync b s.tick
    (s.wrs p [(Reg.BNK_BNK_OWN_OWN_ERR, 0), (Reg.BNK_BNK_OWN_OWNER, owner), (Reg.BNK_BNK_OWN_B_AGENT, agent),
      (Reg.BNK_BNK_OWN_BUSY, 1)]).bankTurn b

/-- BANK_HANDOVER (R427). -/
def execBankHandover (t : Nat) (b : Fin 64) (owner agent : BitVec 7) (s : State) : Host.Outcome State Fault Refusal :=
  .next ((s.advance t).hosted (pg .bnk b) 0x100 (agent.toNat * 2 ^ 16 + owner.toNat)
    (fun s => s.bnkOwn b owner.toNat agent.toNat))

/-! Accesses. -/

/-- The next word of engine `d`'s transfer is this access of bank `b`. -/
def State.dmaAsks (s : State) (d b : Nat) (x : BankAcc) : Bool :=
  let p := pg .dma d
  let sel := if x.write then s.on p Reg.DMA_DMA_DST_BANK_SEL else s.on p Reg.DMA_DMA_SRC_BANK_SEL && !s.on p Reg.DMA_DMA_DST_BANK_SEL
  let bank := if x.write then s.rd p Reg.DMA_DMA_DST_BANK else s.rd p Reg.DMA_DMA_SRC_BANK
  let addr := if x.write then s.rd p Reg.DMA_DMA_DST_ADDR else s.rd p Reg.DMA_DMA_SRC_ADDR
  s.dmaBusy d && sel && bank == b && addr + s.dmaNext d == x.word.val && s.dmaNext d < s.rd p Reg.DMA_DMA_LEN_WORDS

/-- The engine of a port-B code, if it is one. -/
def dmaOf (k : Nat) : Option Nat := if 0x50 ≤ k ∧ k ≤ 0x5F then some (k - 0x50) else none

/-- An access alone, accepted: its effect and its answer (R424, R430). A DMA engine's access moves the next word of its
transfer; `unc` stops it (R429, R437). -/
def State.bankDo (s : State) (b port : Nat) (x : BankAcc) : State :=
  match dmaOf x.agent.toNat with
  | some d =>
    if !s.dmaAsks d b x then s
    else if x.unc && !x.write then s.dmaEnd d 1
    else match s.dmaWord d with
      | (some st, _, s) => s.dmaEnd d st
      | (none, _, s) => s
  | none =>
    if x.write then s.setBankWord b x.word x.data
    else s.emit (.bankAnswer b port (if x.unc then none else some (s.bankWord b x.word).toNat))

/-- An access refused (R429): answered with an error response, or, for a DMA engine, the end of its transfer. -/
def State.bankDeny (s : State) (b port : Nat) (x : BankAcc) : State :=
  match dmaOf x.agent.toNat with
  | some d => if s.dmaAsks d b x then (s.bankRefuse b x.agent.toNat x.word x.write).dmaEnd d 1 else s
  | none =>
    let s := s.bankRefuse b x.agent.toNat x.word x.write
    if port = 0 then s.emit (.bankAnswer b port none) else s

/-- The access of one port as the bank takes it: none where it is held or refused (R427, R429). A DMA engine presents a held word again by
itself. -/
def State.bankTake (s : State) (b port : Nat) (x : Option BankAcc) : Option BankAcc × State :=
  match x with
  | none => (none, s)
  | some x =>
    let k := x.agent.toNat
    if s.bankHolds b k then (none, if (dmaOf k).isSome then s else
      { s with bank := { s.bank with held := smInsert b (smGet [] b s.bank.held ++ [(port, x)]) s.bank.held } })
    else if s.bankAccepts b k && isPortA k == (port == 0) then (some x, s)
    else (none, s.bankDeny b port x)

/-- HANDOVER_DONE (R427): the accesses accepted before are complete; those that waited for the handover proceed. -/
def execHandoverDone (t : Nat) (b : Fin 64) (s : State) : Host.Outcome State Fault Refusal :=
  let s := s.advance t
  let p := pg .bnk b
  .next (if !s.on p Reg.BNK_BNK_OWN_BUSY || s.gated then s
    else
      let s := s.bankSync b s.tick
      let s := s.wrs p [(Reg.BNK_BNK_OWN_OWNER_ACT, s.rd p Reg.BNK_BNK_OWN_OWNER),
        (Reg.BNK_BNK_OWN_B_AGENT_ACT, s.rd p Reg.BNK_BNK_OWN_B_AGENT), (Reg.BNK_BNK_OWN_BUSY, 0)]
      let l := smGet [] b s.bank.held
      ({ s with bank := { s.bank with held := smErase b s.bank.held } }).each l (fun s x =>
        match s.bankTake b x.1 (some x.2) with
        | (some y, s) => s.bankDo b x.1 y
        | (none, s) => s))

/-- The access that port B presents, where it is a DMA engine's: the deposit and the spill present their staged words themselves. -/
def portB (pb : Option BankAcc) : Option BankAcc := pb.filter (fun x => x.agent.toNat < 0x60)

/-- BANK_ACCESS (R430, R431): what the two ports present in one FCLK. -/
def execBankAccess (t : Nat) (b : Fin 64) (pa pb : Option BankAcc) (s : State) : Host.Outcome State Fault Refusal :=
  let s := s.advance t
  .next (if s.gated then s
    else
      let ra := (s.bankSync b t).bankTake b 0 pa
      let rb := ra.2.bankTake b 1 (portB pb)
      let s := rb.2
      match ra.1, rb.1 with
      | none, none => s
      | some x, none => (s.bankDo b 0 x).portMeets b t x.word x.write
      | none, some y => (s.bankDo b 1 y).bankServed b
      | some x, some y =>
        if x.word = y.word then
          let s := s.bankServed b
          match x.write, y.write with
          | false, _ => (s.bankDo b 0 x).bankDo b 1 y
          | true, false => (s.bankDo b 1 y).bankDo b 0 x
          | true, true =>
            let s := (s.bankDo b 0 x).bankCollide b
            match dmaOf y.agent.toNat with
            | some d => if s.dmaAsks d b y then s.dmaCollide d else s
            | none => s
        else if x.word.val % 8 = y.word.val % 8 then (s.bankDo b 0 x).bankWait b
        else ((s.bankDo b 0 x).bankDo b 1 y).bankServed b)

/-- BANK_STARVE_LIMIT (R432): once per wait. -/
def execBankStarveLimit (t : Nat) (b : Fin 64) (s : State) : Host.Outcome State Fault Refusal :=
  let s := s.advance t
  let lim := s.rd (pg .bnk b) Reg.BNK_BNK_CFG_STARVE_LIMIT
  .next (if lim = 0 ∨ smGet 0 b s.bank.wait < lim ∨ s.bank.waitSaid.contains b.val then s
    else (({ s with bank := { s.bank with waitSaid := b.val :: s.bank.waitSaid } }).wr (pg .bnk b)
      Reg.BNK_BNK_STAT_STARVE 1).event .bnk b 1)

/-! Deposit and spill. -/

/-- The words of a deposit record below its frame word (R219, R433). -/
def Emitted.deposit (e : Emitted) (what : Nat) : List Nat :=
  let pack (l : List Byte) := toWords l.length l
  match what with
  | 0 => e.bins
  | 1 => pack (e.db.flatMap (leBytes 2))
  | _ => pack e.body

/-- The words that the staging buffer of a bank holds (R434). -/
def stageWords : Nat := 1024

/-- DEPOSIT_RECORD (R433, R434): the first word of a record arrives; the record is staged whole, its frame word last, or skipped. -/
def execDepositRecord (t : Nat) (b : Fin 64) (s : State) : Host.Outcome State Fault Refusal :=
  let s := s.advance t
  let p := pg .bnk b
  let c := s.rd p Reg.BNK_DEP_CFG_CTX
  let what := s.rd p Reg.BNK_DEP_CFG_WHAT
  let e := if what = 2 then (s.xfc c).outT else (s.xfc c).out
  .next (match e with
    | none => s
    | some e =>
      if !s.on p Reg.BNK_DEP_CFG_EN || e.seq % 2 ^ s.rd p Reg.BNK_DEP_CFG_EVERY_LOG2 != 0 ||
          smGet 0 b s.bank.deposited == e.seq + 1 || s.gated then s
      else
        let s := s.bankSync b t
        let s := { s with bank := { s.bank with deposited := smInsert b (e.seq + 1) s.bank.deposited } }
        let body := e.deposit what
        let r := body.length + 1
        let len := s.rd p Reg.BNK_DEP_RING_LEN
        let drop (s : State) : State := s.bumpSat p Reg.BNK_DEP_STAT_DROPS 1
        let base := s.rd p Reg.BNK_DEP_RING_BASE
        if stageWords < (s.stagedOf b).length + r then (drop s).event .bnk b 1
        else if !s.bankAccepts b 0x60 && !s.bankHolds b 0x60 then drop (s.bankRefuse b 0x60 base true)
        else if len < r then s
        else
          let at_ := base + s.rd p Reg.BNK_DEP_STAT_WCNT * r % (len / r * r)
          let word (i v : Nat) (last : Bool) : PortWord := ⟨0x60, at_ + i, BitVec.ofNat 64 v, last⟩
          let words := body.zipIdx.map (fun x => word (x.2 + 1) x.1 false) ++
            [word 0 (frameWord e.seq (if what = 0 then e.exp else 0) e.flags e.start) true]
          (s.setStaged b (s.stagedOf b ++ words)).bump p Reg.BNK_DEP_STAT_WCNT 1)

/-- The words that a spill of unit `u` writes for `rows` rows (R435). -/
def State.spillWords (s : State) (u rows : Nat) : Nat := rows * (if s.ganged (u / 4 * 4) then 256 else 512)

/-- A write of SPILL_CTL (R435); one while GO reads 1 is ignored. -/
def State.spillCtl (s : State) (b unit nrowsM1 row0 dst go : Nat) : State :=
  let p := pg .bnk b
  if s.on p Reg.BNK_SPILL_CTL_GO then s
  else
    let s := s.wrs p [(Reg.BNK_SPILL_CTL_UNIT, unit), (Reg.BNK_SPILL_CTL_NROWS_M1, nrowsM1), (Reg.BNK_SPILL_CTL_ROW0, row0),
      (Reg.BNK_SPILL_CTL_DST, dst), (Reg.BNK_SPILL_CTL_GO, go)]
    let d := s.den_ (if s.ganged (unit / 4 * 4) then unit / 4 * 4 else unit)
    let from_ := if d.run then max (s.tick + 1) (d.passAt + 16384) else s.tick + 1
    if go = 0 then s
    else { s with bank := { s.bank with spill := smInsert b ⟨unit, row0, dst, s.spillWords unit (nrowsM1 + 1), from_, 0, []⟩ s.bank.spill } }

/-- SPILL_GO (R435). -/
def execSpillGo (t : Nat) (b : Fin 64) (unit : Fin 16) (nrowsM1 row0 : Fin 1024) (dst : Fin 131072) (s : State) :
    Host.Outcome State Fault Refusal :=
  .next ((s.advance t).hosted (pg .bnk b) 0x138
    (2 ^ 63 + unit.val * 2 ^ 56 + nrowsM1.val * 2 ^ 32 + row0.val * 2 ^ 20 + dst.val)
    (fun s => s.spillCtl b unit nrowsM1 row0 dst 1))

/-- SPILL_DONE (R435): the last word has been written, or one has been refused. -/
def execSpillDone (t : Nat) (b : Fin 64) (s : State) : Host.Outcome State Fault Refusal :=
  let s := s.advance t
  .next (if !s.on (pg .bnk b) Reg.BNK_SPILL_CTL_GO || s.gated then s
    else
      let s := s.bankSync b t
      match smFind b s.bank.spill with
      | none => s
      | some j => if j.done < 4 * j.total || !(s.stagedOf b).isEmpty then s
        else ({ s with bank := { s.bank with spill := smErase b s.bank.spill } }).wr (pg .bnk b) Reg.BNK_SPILL_CTL_GO 0)

/-- A write of BNK_CLR (R439). -/
def State.bnkClr (s : State) (b : Nat) : State :=
  s.wrs (pg .bnk b) [(Reg.BNK_BNK_STAT_STARVE_CNT, 0), (Reg.BNK_BNK_STAT_STARVE_MAX, 0), (Reg.BNK_BNK_STAT_COLL_CNT, 0),
    (Reg.BNK_DEP_STAT_DROPS, 0)]

/-- BNK_CLR (R439). -/
def execBnkClr (t : Nat) (b : Fin 64) (s : State) : Host.Outcome State Fault Refusal :=
  .next ((s.advance t).hosted (pg .bnk b) 0x140 1 (fun s => s.bnkClr b))

end Sys2Proof.Machine
end

