-- ==== Sys2Proof/Machine/Flags.lean ====
section
/-!
DEFINITION. The condition flags of a signal core and the conditions over them (R467, R470). Flags are a number: Z 1, N 2, C 4,
V 8, T 16.
-/
namespace Sys2Proof.Machine

/-- Z and N of a result, with C and V clear. -/
def flagsLogic (r : Word) : Nat := b2n (r == 0) + 2 * b2n r.msb

/-- The flags of a + b: C is the carry out of bit 63, V the signed overflow. -/
def flagsAdd (a b : Word) : Nat :=
  let r := a + b
  flagsLogic r + 4 * b2n (2 ^ 64 ≤ a.toNat + b.toNat) + 8 * b2n (a.msb == b.msb && r.msb != a.msb)

/-- The flags of a − b: C is 1 where no borrow occurs, V the signed overflow. -/
def flagsSub (a b : Word) : Nat :=
  let r := a - b
  flagsLogic r + 4 * b2n (b.toNat ≤ a.toNat) + 8 * b2n (a.msb != b.msb && r.msb != a.msb)

/-- The condition with code `k` holds for flags `f` (R470). -/
def condHolds (f k : Nat) : Bool :=
  let z := f.testBit 0
  let n := f.testBit 1
  let c := f.testBit 2
  let v := f.testBit 3
  let t := f.testBit 4
  match k with
  | 0 => true | 1 => z | 2 => !z | 3 => n != v | 4 => n == v | 5 => z || n != v | 6 => !z && n == v
  | 7 => !c | 8 => c | 9 => t | 10 => !t | 11 => n | 12 => !n | _ => false

end Sys2Proof.Machine
end

