-- ==== Sys2Proof/Machine/Operands.lean ====
section
/-!
DEFINITION. The bundles of a signal core: their forms and fields, what is illegal, the register numbers, the operands, and
the address modes of moves (R442, R463 to R476).
-/
namespace Sys2Proof.Machine

/-- The operations of the instruction set, by mnemonic (R466, R468, R471, R473, R475, R476). -/
inductive CoreOp
  | nop | add | sub | and_ | or_ | xor | andn | cmp | shl | shr | sar | min | max | tst | sel | addi | cmpi | andi | ori
  | cadd | csub | csar | conj | ext | acld | acclr | geta | puta | cmul | cmac | cjmul | cjmac | qmac | maxi | mini
  | ld | st | mov | pload | li | cnop | br | call | jr | loop | loopr | break_ | reti | wait | setie | illegal
  deriving DecidableEq, Repr

/-! Fields. -/

/-- The form of a bundle (R463). -/
def bForm (w : Nat) : Nat := bits w 63 62
/-- The MAC format of the compute slot. -/
def bMac (w : Nat) : Bool := w.testBit 61
def bOpc (w : Nat) : Nat := bits w 60 55
def bGd (w : Nat) : Nat := bits w 54 50
def bGa (w : Nat) : Nat := bits w 49 45
def bGb (w : Nat) : Nat := bits w 44 40
def bF (w : Nat) : Bool := w.testBit 39
def bAux (w : Nat) : Nat := bits w 38 32
def bSimm (w : Nat) : Int := signed 13 (bits w 44 32)
/-- The MAC format's fields (R468). -/
def mOp0 (w : Nat) : Nat := bits w 59 57
def mOp1 (w : Nat) : Nat := bits w 56 54
def mAcc0 (w : Nat) : Nat := bit w 53
def mAcc1 (w : Nat) : Nat := 2 + bit w 52
def mGa (w : Nat) : Nat := bits w 51 47
def mGb (w : Nat) : Nat := bits w 46 42
def mGc (w : Nat) : Nat := bits w 41 37
def mGd (w : Nat) : Nat := bits w 36 32
/-- The control bundle's fields (R473). -/
def kCtl (w : Nat) : Nat := bits w 61 56
def kCond (w : Nat) : Nat := bits w 55 52
def kGs (w : Nat) : Nat := bits w 51 47
def kEnd (w : Nat) : Nat := bits w 44 32
def kImm (w : Nat) : Nat := bits w 31 0
/-- The moves and their fields (R471). -/
def xMove (w : Nat) : Nat := bits w 31 16
def yMove (w : Nat) : Nat := bits w 15 0
def vOp (m : Nat) : Nat := bits m 15 14
def vReg (m : Nat) : Nat := bits m 13 8
def vSrc (m : Nat) : Nat := bits m 7 2
def vP (m : Nat) : Nat := bits m 7 5
def vAm (m : Nat) : Nat := bits m 4 2
def vD (m : Nat) : Nat := bits m 1 0

/-! Legality (R476). -/

/-- A register number that a move may carry, and one that a long immediate may carry (R464, R475). -/
def regLegal (r : Nat) : Bool := r ≤ 58
def reg7Legal (r : Nat) : Bool := r ≤ 58 || (64 ≤ r && r ≤ 87)

/-- A legal move of the X slot (`x`) or of the Y slot (R471, R472). -/
def moveLegal (x : Bool) (m : Nat) : Bool :=
  match vOp m with
  | 0 => bits m 13 0 == 0
  | 3 => if x then regLegal (vReg m) && regLegal (vSrc m) && bits m 1 0 == 0
    else regLegal (vReg m) && vAm m != 7 && (3 ≤ vAm m || vD m == 0)
  | _ => regLegal (vReg m) && vAm m != 7 && (3 ≤ vAm m || vD m == 0)

/-- The operation of an ALU operation code (R466). -/
def aluOp : Nat → Option CoreOp
  | 0x00 => some .nop | 0x01 => some .add | 0x02 => some .sub | 0x03 => some .and_ | 0x04 => some .or_
  | 0x05 => some .xor | 0x06 => some .andn | 0x07 => some .cmp | 0x08 => some .shl | 0x09 => some .shr
  | 0x0A => some .sar | 0x0B => some .min | 0x0C => some .max | 0x0D => some .tst | 0x0E => some .sel
  | 0x10 => some .addi | 0x11 => some .cmpi | 0x12 => some .andi | 0x13 => some .ori | 0x18 => some .cadd
  | 0x19 => some .csub | 0x1A => some .csar | 0x1B => some .conj | 0x20 => some .ext | 0x21 => some .acld
  | 0x22 => some .acclr | 0x28 => some .geta | 0x29 => some .puta | _ => none

/-- The fields that an ALU operation requires to be 0 are 0, and its selectors are defined (R464, R466, R467, R470). -/
def aluLegal (w : Nat) : Bool :=
  match aluOp (bOpc w) with
  | none => false
  | some op =>
    match op with
    | .nop => bits w 54 32 == 0
    | .add | .sub | .and_ | .or_ | .xor | .andn | .min | .max => bAux w == 0
    | .cmp => bGd w == 0 && !bF w && bAux w == 0
    | .shl | .shr | .sar => bGb w == 0 && bit w 38 == 0
    | .tst => bGd w == 0 && bGb w == 0 && !bF w && bit w 38 == 0
    | .sel => !bF w && bits w 38 36 == 0 && bits w 35 32 ≤ 12
    | .addi | .andi | .ori => true
    | .cmpi => bGd w == 0
    | .cadd | .csub => !bF w && bits w 38 33 == 0
    | .csar => bGb w == 0 && !bF w && bits w 38 37 == 0
    | .conj => bGb w == 0 && !bF w && bAux w == 0
    | .ext => bAux w == 0 && bits w 47 46 ≤ 2 && bits w 44 39 ≤ 40
    | .acld => bits w 54 52 == 0 && bGb w == 0 && !bF w && bAux w == 0
    | .acclr => bits w 54 39 == 0 && bits w 38 37 == 0
    | .geta => bits w 49 39 == 0 && bits w 38 37 == 0 && bits w 36 32 ≤ 23
    | .puta => bGd w == 0 && bGb w == 0 && !bF w && bits w 38 37 == 0 && bits w 36 32 ≤ 23
    | _ => false

/-- A QMAC names even registers (R468). -/
def macLegal (w : Nat) : Bool :=
  (mOp0 w != 5 || (mGa w % 2 == 0 && mGb w % 2 == 0)) && (mOp1 w != 5 || (mGc w % 2 == 0 && mGd w % 2 == 0))

/-- A legal control bundle (R473); in a delay slot none is. -/
def ctlLegal (w : Nat) (slot : Bool) : Bool :=
  !slot && bits w 46 45 == 0 && kCond w ≤ 12 &&
  (match kCtl w with
  | 0 => kGs w == 0 && kEnd w == 0 && kImm w == 0
  | 1 | 2 => kGs w == 0 && kEnd w == 0 && bits w 31 13 == 0
  | 3 => kEnd w == 0 && kImm w == 0
  | 4 => kCond w == 0 && kGs w == 0
  | 5 => kCond w == 0 && kImm w == 0
  | 6 => kGs w == 0 && kEnd w == 0 && kImm w == 0
  | 7 | 8 => kCond w == 0 && kGs w == 0 && kEnd w == 0 && kImm w == 0
  | 9 => kGs w == 0 && kEnd w == 0 && bits w 31 1 == 0
  | _ => false)

/-- A legal bundle; `slot` says that it stands in a delay slot (R476). -/
def bundleLegal (w : Nat) (slot : Bool) : Bool :=
  match bForm w with
  | 0 => (if bMac w then macLegal w else aluLegal w) && moveLegal true (xMove w) && moveLegal false (yMove w)
  | 1 => ctlLegal w slot
  | 2 => reg7Legal (bits w 61 55) && bits w 54 48 == 0
  | _ => false

/-! The operations of a bundle. -/

def macOp : Nat → List CoreOp
  | 1 => [.cmul] | 2 => [.cmac] | 3 => [.cjmul] | 4 => [.cjmac] | 5 => [.qmac] | 6 => [.maxi] | 7 => [.mini] | _ => []

def moveOp (x : Bool) (m : Nat) : List CoreOp :=
  match vOp m with
  | 1 => [.ld] | 2 => [.st] | 3 => if x then [.mov] else [.pload] | _ => []

def ctlOp : Nat → List CoreOp
  | 0 => [.cnop] | 1 => [.br] | 2 => [.call] | 3 => [.jr] | 4 => [.loop] | 5 => [.loopr] | 6 => [.break_] | 7 => [.reti]
  | 8 => [.wait] | 9 => [.setie] | _ => []

/-- The operations that a bundle executes (R463): an illegal one executes as ILLEGAL alone. -/
def bundleOps (w : Nat) (slot : Bool) : List CoreOp :=
  if !bundleLegal w slot then [.illegal]
  else match bForm w with
    | 0 =>
      let c := if bMac w then macOp (mOp0 w) ++ macOp (mOp1 w) else match aluOp (bOpc w) with
        | some .nop => []
        | some o => [o]
        | none => []
      let l := c ++ moveOp true (xMove w) ++ moveOp false (yMove w)
      if l.isEmpty then [.nop] else l
    | 1 => ctlOp (kCtl w)
    | _ => [.li]

/-! The registers that a bundle reads (R444: a read of a window load's destination stalls). -/

/-- The register numbers of accumulator `n`. -/
def accRegs (n : Nat) : List Nat := [32 + n, 36 + n, 40 + n]

def aluReads (w : Nat) : List Nat :=
  match aluOp (bOpc w) with
  | some .add | some .sub | some .and_ | some .or_ | some .xor | some .andn | some .cmp | some .min | some .max
  | some .cadd | some .csub => [bGa w, bGb w]
  | some .sel => [bGa w, bGb w, 56]
  | some .shl | some .shr | some .sar | some .tst | some .addi | some .cmpi | some .andi | some .ori | some .csar
  | some .conj | some .acld | some .puta => [bGa w]
  | some .ext => accRegs (bits w 49 48)
  | _ => []

def unitReads (op a b acc : Nat) : List Nat :=
  match op with
  | 0 => []
  | 1 | 3 => [a, b]
  | 5 => [a, a + 1, b, b + 1] ++ accRegs acc
  | _ => [a, b] ++ accRegs acc

def moveReads (x : Bool) (m : Nat) : List Nat :=
  match vOp m with
  | 2 => [vReg m]
  | 3 => if x then [vSrc m] else []
  | _ => []

def ctlReads (w : Nat) : List Nat :=
  match kCtl w with
  | 1 | 2 | 6 => [56]
  | 3 => [kGs w, 56]
  | 5 => [kGs w]
  | 7 => [58, 57]
  | _ => []

/-- The register numbers that a legal bundle reads. -/
def bundleReads (w : Nat) : List Nat :=
  match bForm w with
  | 0 => (if bMac w then unitReads (mOp0 w) (mGa w) (mGb w) (mAcc0 w) ++ unitReads (mOp1 w) (mGc w) (mGd w) (mAcc1 w)
      else aluReads w) ++ moveReads true (xMove w) ++ moveReads false (yMove w)
  | 1 => ctlReads w
  | _ => []

/-! Registers (R464, R465). -/

/-- The status word's parts (R441): LSP, IE, OVF, flags. -/
def CoreSt.lsp (c : CoreSt) : Nat := bits c.st.toNat 2 0
def CoreSt.ie (c : CoreSt) : Bool := c.st.toNat.testBit 3
def CoreSt.flags (c : CoreSt) : Nat := bits c.st.toNat 15 8
def CoreSt.setLsp (c : CoreSt) (n : Nat) : CoreSt := { c with st := BitVec.ofNat 16 (setPart c.st.toNat 0 3 n) }
def CoreSt.setIe (c : CoreSt) (b : Bool) : CoreSt := { c with st := BitVec.ofNat 16 (putBit c.st.toNat 3 b) }

/-- Elements of a vector by number. -/
def vget {w n : Nat} (v : Vector (BitVec w) n) (i : Nat) : BitVec w := v.toArray.getD i 0
def vset {w n : Nat} (v : Vector (BitVec w) n) (i x : Nat) : Vector (BitVec w) n := v.setIfInBounds i (BitVec.ofNat w x)

/-- General register `i`. -/
def CoreSt.gr (c : CoreSt) (i : Nat) : Word := vget c.g i

/-- Register number `r` as read (R465): zero-extended, the modifiers sign-extended. -/
def CoreSt.getReg (c : CoreSt) (r : Nat) : Nat :=
  if r < 32 then (c.gr r).toNat
  else if r < 36 then (vget c.acr (r - 32)).toNat % 2 ^ 64
  else if r < 40 then (vget c.aci (r - 36)).toNat % 2 ^ 64
  else if r < 44 then (vget c.acr (r - 40)).toNat / 2 ^ 64 + (vget c.aci (r - 40)).toNat / 2 ^ 64 * 256
  else if r < 48 then (vget c.lc (r - 44)).toNat
  else if r < 52 then (vget c.ls (r - 48)).toNat
  else if r < 56 then (vget c.le (r - 52)).toNat
  else if r = 56 then c.st.toNat
  else if r = 57 then c.ipc.toNat
  else if r = 58 then c.istat.toNat
  else if 64 ≤ r ∧ r < 72 then (vget c.p (r - 64)).toNat
  else if 72 ≤ r ∧ r < 80 then unsigned 64 (vget c.m (r - 72)).toInt
  else if 80 ≤ r ∧ r < 88 then (vget c.l (r - 80)).toNat
  else 0

/-- Register number `r` written with the low bits of `v` (R465), or one of the parts that PendWrite names. -/
def CoreSt.putReg (c : CoreSt) (r v : Nat) : CoreSt :=
  let hi (x : BitVec 72) : Nat := x.toNat / 2 ^ 64
  let lo (x : BitVec 72) : Nat := x.toNat % 2 ^ 64
  if r < 32 then { c with g := vset c.g r v }
  else if r < 36 then { c with acr := vset c.acr (r - 32) (hi (vget c.acr (r - 32)) * 2 ^ 64 + v % 2 ^ 64) }
  else if r < 40 then { c with aci := vset c.aci (r - 36) (hi (vget c.aci (r - 36)) * 2 ^ 64 + v % 2 ^ 64) }
  else if r < 44 then { c with
    acr := vset c.acr (r - 40) (v % 256 * 2 ^ 64 + lo (vget c.acr (r - 40)))
    aci := vset c.aci (r - 40) (v / 256 % 256 * 2 ^ 64 + lo (vget c.aci (r - 40))) }
  else if r < 48 then { c with lc := vset c.lc (r - 44) v }
  else if r < 52 then { c with ls := vset c.ls (r - 48) v }
  else if r < 56 then { c with le := vset c.le (r - 52) v }
  else if r = 56 then
    let v := v % 2 ^ 13
    { c with st := BitVec.ofNat 16 (setPart v 0 3 (min 4 (v % 8))) }
  else if r = 57 then { c with ipc := BitVec.ofNat 13 v }
  else if r = 58 then { c with istat := BitVec.ofNat 16 v }
  else if 64 ≤ r ∧ r < 72 then { c with p := vset c.p (r - 64) v }
  else if 72 ≤ r ∧ r < 80 then { c with m := vset c.m (r - 72) v }
  else if 80 ≤ r ∧ r < 88 then { c with l := vset c.l (r - 80) v }
  else if r = 88 then { c with pc := BitVec.ofNat 13 v }
  else if 100 ≤ r ∧ r < 104 then { c with acr := vset c.acr (r - 100) v }
  else if 104 ≤ r ∧ r < 108 then { c with aci := vset c.aci (r - 104) v }
  else if r = 108 then { c with st := c.st ||| BitVec.ofNat 16 (v % 16 * 16) }
  else if r = 109 then { c with st := c.st &&& ~~~(BitVec.ofNat 16 (v % 16 * 16)) }
  else if r = 110 then
    let mask := BitVec.ofNat 16 (v / 256 % 32 * 256)
    { c with st := (c.st &&& ~~~mask) ||| (BitVec.ofNat 16 (v % 32 * 256) &&& mask) }
  else if r = 111 then { c with bnkUse := BitVec.ofNat 6 v }
  else if r = 112 then { c with bnkOwnRd := BitVec.ofNat 6 v }
  else c

/-! Addresses (R442, R472). -/

/-- The update of an address register: none, a value, or one that the spec does not state. -/
inductive PkUpd | keep | to (v : Nat) | open_
  deriving DecidableEq, Repr

/-- The low `q` bits of `n` in reverse order. -/
def bitRev (q n : Nat) : Nat := (List.range q).foldl (fun a i => 2 * a + bit n i) 0

/-- The least q with n ≤ 2^q. -/
def ceilLog2 (n : Nat) : Nat := if n ≤ 1 then 0 else Nat.log2 (n - 1) + 1

/-- An address register stepped by its modifier: linear, circular (`rev` false) or bit-reversed (R442). A bit-reversed
step of a buffer whose length is no power of two has no stated result. -/
def pkStep (pk : Nat) (mk : Int) (lk : Nat) (rev : Bool) : PkUpd :=
  let linear := PkUpd.to (unsigned 18 (pk + mk))
  if lk = 0 then linear
  else
    let q := ceilLog2 lk
    let base := pk - pk % 2 ^ q
    if rev then
      if lk = 2 ^ q then
        .to (base + bitRev q ((bitRev q pk + bitRev q (unsigned q mk)) % 2 ^ q))
      else .open_
    else if mk.natAbs ≤ lk && pk - base < lk then .to (base + (((pk - base : Nat) + mk) % (lk : Int)).toNat)
    else linear

/-- The address of a move and the update of its address register (R472). -/
def CoreSt.moveAddr (c : CoreSt) (m : Nat) : Nat × PkUpd :=
  let k := vP m
  let pk := (vget c.p k).toNat
  let n := vD m + 1
  let up := unsigned 18 ((pk : Int) + n)
  let down := unsigned 18 ((pk : Int) - n)
  match vAm m with
  | 0 => (pk, .keep)
  | 1 => (pk, pkStep pk (vget c.m k).toInt (vget c.l k).toNat false)
  | 2 => (pk, pkStep pk (vget c.m k).toInt (vget c.l k).toNat true)
  | 3 => (pk, .to up)
  | 4 => (down, .to down)
  | 5 => ((pk + vD m) % 2 ^ 18, .keep)
  | 6 => (down, .keep)
  | _ => (pk, .keep)

/-- What an X address names (R443, R448). -/
inductive XPlace | mem (a : Nat) | ctl (a : Nat) | win (a : Nat) | none
  deriving DecidableEq, Repr

def xPlace (a : Nat) : XPlace :=
  if a < 0x4000 then .mem a else if 0x10000 ≤ a ∧ a < 0x10040 then .ctl (a - 0x10000)
  else if 0x20000 ≤ a then .win (a - 0x20000) else .none

end Sys2Proof.Machine
end

