-- ==== Sys2Proof/Machine/Cores.lean ====
section
/-!
DEFINITION. The signal cores (R441 to R477): execution of one bundle with its results in flight, exceptions and interrupts, the
control area, halts and the debug port. The command of an operation executes the whole bundle at the core's pc, where that
bundle holds the operation (notes/assumptions/24).
-/
namespace Sys2Proof.Machine

/-! Results in flight (R449, R450, R477). -/

/-- A result placed among those in flight, in the order in which they land: by time, and at one time in order of issue. -/
def insertPend (p : PendWrite) : List PendWrite → List PendWrite
  | [] => [p]
  | q :: l => if p.due < q.due then p :: q :: l else q :: insertPend p l

/-- The registers of R464 that a result's register covers. -/
def coveredBy (r : Nat) : List Nat :=
  if 100 ≤ r ∧ r < 104 then [32 + (r - 100), 40 + (r - 100)] else if 104 ≤ r ∧ r < 108 then [36 + (r - 104), 40 + (r - 104)] else [r]

/-- A result of the bundle now executing, seen `lat` bundles on; a window load still on its way to the register loses its
data (R477). -/
def CoreSt.post (c : CoreSt) (lat r v : Nat) : CoreSt :=
  { c with
    pend := insertPend ⟨c.idx + lat, r, v⟩ c.pend
    loads := c.loads.map (fun x => if (coveredBy r).contains x.reg then { x with dead := true } else x) }

/-- The results that the bundle at time idx sees. -/
def CoreSt.settle (c : CoreSt) : CoreSt :=
  let c := (c.pend.filter (fun p => p.due ≤ c.idx)).foldl (fun c p => c.putReg p.reg p.val)
    { c with pend := c.pend.filter (fun p => c.idx < p.due) }
  (c.loads.filter (fun x => x.due ≤ c.cyc)).foldl (fun c x => if x.dead then c else c.putReg x.reg x.val)
    { c with loads := c.loads.filter (fun x => c.cyc < x.due) }

/-- Every result in flight lands: the pipeline empties as the core stops. -/
def CoreSt.drain (c : CoreSt) : CoreSt :=
  let c := c.pend.foldl (fun c p => c.putReg p.reg p.val) { c with pend := [] }
  let last := (c.loads.map WinLoad.due).foldl max c.cyc
  (c.loads.foldl (fun c x => if x.dead then c else c.putReg x.reg x.val) { c with loads := [] , cyc := last })

/-! Memories. -/

/-- Words of X and Y memory, and the bundle at an address of the active program bank. -/
def CoreSt.xAt (c : CoreSt) (a : Nat) : Word := smGet 0 a c.x
def CoreSt.yAt (c : CoreSt) (a : Nat) : Word := smGet 0 a c.y
def CoreSt.prog (c : CoreSt) (a : Nat) : Word := smGet 0 a (if c.act then c.prog1 else c.prog0)

/-! Compute results (R466 to R469). -/

/-- The halves of a complex word (R441). -/
def iOf (w : Word) : Int := signed 32 w.toNat
def qOf (w : Word) : Int := signed 32 (w.toNat / 2 ^ 32)
def iq (i q : Int) : Nat := unsigned 32 i + unsigned 32 q * 2 ^ 32

/-- A half kept within 32 bits: saturated, or wrapped. -/
def half (sat : Bool) (v : Int) : Int := if sat then clampInt (-(2 ^ 31)) (2 ^ 31 - 1) v else v

/-- `v` shifted right by n, rounded half up (R224). -/
def roundShift (v : Int) (n : Nat) : Int := if n = 0 then v else (v + 2 ^ (n - 1)) / 2 ^ n

/-- Bits [s+31:s] of an accumulator half, rounded and with SAT saturated (R452). -/
def extract (acc : BitVec 72) (s : Nat) (sat : Bool) : Int := signed 32 (unsigned 32 (half sat (roundShift acc.toInt s)))

/-- The result word and the flags, if it sets any, of an ALU operation that writes a general register (R466, R467). -/
def CoreSt.aluResult (c : CoreSt) (w : Nat) (op : CoreOp) : Option (Word × Nat) :=
  let a := c.gr (bGa w)
  let b := c.gr (bGb w)
  let n := bits w 37 32
  let imm := BitVec.ofInt 64 (bSimm w)
  let logic (r : Word) := some (r, flagsLogic r)
  let word (n : Nat) : Option (Word × Nat) := some (BitVec.ofNat 64 n, 0)
  match op with
  | .add => some (a + b, flagsAdd a b)
  | .sub => some (a - b, flagsSub a b)
  | .and_ => logic (a &&& b)
  | .or_ => logic (a ||| b)
  | .xor => logic (a ^^^ b)
  | .andn => logic (a &&& ~~~b)
  | .shl => logic (a <<< n)
  | .shr => logic (a >>> n)
  | .sar => logic (a.sshiftRight n)
  | .min => logic (if a.toInt ≤ b.toInt then a else b)
  | .max => logic (if b.toInt ≤ a.toInt then a else b)
  | .sel => some (if condHolds c.flags (bits w 35 32) then a else b, 0)
  | .addi => some (a + imm, 0)
  | .andi => some (a &&& imm, 0)
  | .ori => some (a ||| imm, 0)
  | .cadd => word (iq (half (w.testBit 32) (iOf a + iOf b)) (half (w.testBit 32) (qOf a + qOf b)))
  | .csub => word (iq (half (w.testBit 32) (iOf a - iOf b)) (half (w.testBit 32) (qOf a - qOf b)))
  | .csar => word (iq (roundShift (iOf a) (bits w 36 32)) (roundShift (qOf a) (bits w 36 32)))
  | .conj => word (iq (iOf a) (half true (-(qOf a))))
  | .ext =>
    let r := extract (vget c.acr (bits w 49 48)) (bits w 44 39) (w.testBit 45)
    let i := extract (vget c.aci (bits w 49 48)) (bits w 44 39) (w.testBit 45)
    word (match bits w 47 46 with
      | 0 => unsigned 64 r
      | 1 => unsigned 64 i
      | _ => iq r i)
  | .geta =>
    let k := bits w 36 32
    word (c.getReg (64 + k))
  | _ => none

/-- The ALU operations that set flags where F is 1 (R467). -/
def hasF : CoreOp → Bool
  | .add | .sub | .and_ | .or_ | .xor | .andn | .shl | .shr | .sar | .min | .max => true
  | _ => false

/-- The ALU slot executed (R466, R467, R477). -/
def CoreSt.doAlu (c : CoreSt) (w : Nat) : CoreSt :=
  match aluOp (bOpc w) with
  | none => c
  | some op =>
    let a := c.gr (bGa w)
    let c := match c.aluResult w op with
      | some (r, f) =>
        let c := c.post 1 (bGd w) r.toNat
        if hasF op && bF w then c.post 1 110 (0x0F * 256 + f) else c
      | none => c
    match op with
    | .cmp => c.post 1 110 (0x0F * 256 + flagsSub a (c.gr (bGb w)))
    | .cmpi => c.post 1 110 (0x0F * 256 + flagsSub a (BitVec.ofInt 64 (bSimm w)))
    | .tst => c.post 1 110 (0x10 * 256 + 16 * bit a.toNat (bits w 37 32))
    | .acld => (c.post 2 (100 + bits w 51 50) (unsigned 72 (iOf a))).post 2 (104 + bits w 51 50) (unsigned 72 (qOf a))
    | .acclr =>
      let mask := bits w 35 32
      let c := if w.testBit 36 then c
        else (bitsOf 4 mask).foldl (fun c k => (c.post 2 (100 + k) 0).post 2 (104 + k) 0) c
      c.post 2 109 mask
    | .puta => c.post 3 (64 + bits w 36 32) (a.toNat % 2 ^ 18)
    | _ => c

/-- Half `r` (100 + N or 104 + N) of an accumulator as an accumulating operation reads it (R469): with the result of the
bundle before. -/
def CoreSt.accNow (c : CoreSt) (r : Nat) : Int :=
  let base : BitVec 72 := if r < 104 then vget c.acr (r - 100) else vget c.aci (r - 104)
  signed 72 ((c.pend.filter (fun p => p.reg == r && p.due ≤ c.idx + 1)).foldl (fun _ p => p.val) base.toNat)

/-- One half accumulated: wrapped at 72 bits, with whether the addition overflowed (R451). -/
def wrap72 (v : Int) : Nat × Bool := (unsigned 72 v, !(decide (-(2 ^ 71) ≤ v) && decide (v < 2 ^ 71)))

/-- One MAC unit's operation on accumulator `n` (R451, R453, R468). `before` is the core before the other unit. -/
def CoreSt.doUnit (c before : CoreSt) (op ra rb n : Nat) (neg : Bool) : CoreSt :=
  let a := before.gr ra
  let b := before.gr rb
  let sg : Int := if neg then -1 else 1
  let load (r i : Int) : CoreSt := (c.post 2 (100 + n) (unsigned 72 (sg * r))).post 2 (104 + n) (unsigned 72 (sg * i))
  let accum (r i : Int) : CoreSt :=
    let x := wrap72 (before.accNow (100 + n) + sg * r)
    let y := wrap72 (before.accNow (104 + n) + sg * i)
    let c := (c.post 2 (100 + n) x.1).post 2 (104 + n) y.1
    if x.2 || y.2 then c.post 2 108 (2 ^ n) else c
  let search (better : Bool) : CoreSt :=
    if better then (c.post 2 (100 + n) (unsigned 72 (iOf a))).post 2 (104 + n) (unsigned 72 b.toInt) else c
  match op with
  | 1 => load (iOf a * iOf b - qOf a * qOf b) (iOf a * qOf b + qOf a * iOf b)
  | 2 => accum (iOf a * iOf b - qOf a * qOf b) (iOf a * qOf b + qOf a * iOf b)
  | 3 => load (iOf a * iOf b + qOf a * qOf b) (qOf a * iOf b - iOf a * qOf b)
  | 4 => accum (iOf a * iOf b + qOf a * qOf b) (qOf a * iOf b - iOf a * qOf b)
  | 5 =>
    let a1 := before.gr (ra + 1)
    let b1 := before.gr (rb + 1)
    let x := wrap72 (before.accNow (100 + n) + sg * (iOf a * iOf b + qOf a * qOf b + iOf a1 * iOf b1 + qOf a1 * qOf b1))
    let c := c.post 2 (100 + n) x.1
    if x.2 then c.post 2 108 (2 ^ n) else c
  | 6 => search (decide (before.accNow (100 + n) < iOf a))
  | 7 => search (decide (iOf a < before.accNow (100 + n)))
  | _ => c

/-- The MAC slot executed (R468). -/
def CoreSt.doMac (c : CoreSt) (w : Nat) : CoreSt :=
  let neg := w.testBit 60
  (c.doUnit c (mOp0 w) (mGa w) (mGb w) (mAcc0 w) neg).doUnit c (mOp1 w) (mGc w) (mGd w) (mAcc1 w) neg

/-! What a bundle does outside its core. -/

/-- An effect outside the core's own registers and memories. -/
inductive CoreFx
  | bankWrite (b w : Nat) (v : Word)
  | bankRead (b w : Nat)
  | bankRefuse (b w : Nat) (write : Bool)
  | exc (cause : Nat)
  | ctlStore (a : Nat) (v : Word)
  | freeUsed
  | pUnc
  | bump (f : Fld)
  deriving DecidableEq, Repr

/-- A bundle in execution: the core as it becomes, and the effects outside, in order. -/
structure Exe where
  c : CoreSt
  fx : List CoreFx
  deriving DecidableEq, Repr

def Exe.core (e : Exe) (c : CoreSt) : Exe := { e with c := c }
def Exe.also (e : Exe) (l : List CoreFx) : Exe := { e with fx := e.fx ++ l }

/-- The BNK_OWN register of bank `b` (R439). -/
def State.bnkOwnWord (s : State) (b : Nat) : Nat :=
  let p := pg .bnk b
  s.rd p Reg.BNK_BNK_OWN_OWN_ERR * 2 ^ 32 + s.rd p Reg.BNK_BNK_OWN_BUSY * 2 ^ 31 + s.rd p Reg.BNK_BNK_OWN_B_AGENT_ACT * 2 ^ 24 +
    s.rd p Reg.BNK_BNK_OWN_B_AGENT * 2 ^ 16 + s.rd p Reg.BNK_BNK_OWN_OWNER_ACT * 2 ^ 8 + s.rd p Reg.BNK_BNK_OWN_OWNER

/-- IRQ_CTL as read (R448). -/
def CoreSt.irqWord (c : CoreSt) : Nat := (c.irqEn ||| 1).toNat + c.irqPend.toNat * 2 ^ 8 + b2n c.tmrEn * 2 ^ 16

/-- A load from control address `a` of core `n` (R448): the value, none where the spec states none, and the core after
it. `t` is the tick of the bundle's execute 2; TICK is sampled two CCLK earlier, at the read stage. -/
def CoreSt.ctlLoad (c : CoreSt) (s : State) (n t a : Nat) : Option Nat × CoreSt :=
  match a with
  | 0x00 => (some n, c)
  | 0x01 => (some (t - 2), c)
  | 0x02 => (some c.tmrCmp.toNat, c)
  | 0x03 => (some c.irqWord, c)
  | 0x04 => (match c.evq with
    | [] => (some 0, c)
    | e :: l => (some (2 ^ 63 + e), { c with evq := l }))
  | 0x05 => (some c.ecause.toNat, c)
  | 0x08 => (some c.bnkSel.toNat, c)
  | 0x0A => (some (s.bnkOwnWord c.bnkOwnRd.toNat), c)
  | 0x10 => (some c.trigTick.toNat, c)
  | 0x18 => (some c.userCtx.toNat, c)
  | 0x19 => (some c.userA.toNat, c)
  | 0x1A => (some c.userB.toNat, c)
  | 0x1B => (some c.userC.toNat, c)
  | 0x1C => (some c.userTick.toNat, c)
  | 0x20 => (some (s.rd (pg .scr n) Reg.SCR_MBX_IN_DATA), { c with irqPend := c.irqPend &&& 0b0111 })
  | _ => (none, c)

/-- A store to IRQ_CTL (R448, R455): a source whose condition still holds pends again at once. -/
def CoreSt.irqStore (c : CoreSt) (tick v : Nat) : CoreSt :=
  let c := { c with irqEn := BitVec.ofNat 4 v ||| 1, tmrEn := v.testBit 16
                    irqPend := c.irqPend &&& ~~~(BitVec.ofNat 4 (bits v 11 8)) }
  let again := b2n (!c.evq.isEmpty) * 2 + b2n (c.tmrEn && c.tmrCmp.toNat ≤ tick) * 4
  { c with irqPend := c.irqPend ||| BitVec.ofNat 4 again }

/-- A store to control address `a` (R448): what changes in the core, and whether the word takes stores. -/
def CoreSt.ctlStore (c : CoreSt) (tick a v : Nat) : Bool × CoreSt :=
  match a with
  | 0x02 => (true, { c with tmrCmp := BitVec.ofNat 64 v })
  | 0x03 => (true, c.irqStore tick v)
  | 0x08 => (true, ({ c with bnkSel := BitVec.ofNat 6 v }).post 3 111 (v % 64))
  | 0x0A => (true, c.post 3 112 (v % 64))
  | 0x10 => (true, { c with trigTick := BitVec.ofNat 64 v })
  | 0x18 => (true, { c with userCtx := BitVec.ofNat 10 v })
  | 0x19 => (true, { c with userA := BitVec.ofNat 32 v })
  | 0x1A => (true, { c with userB := BitVec.ofNat 60 v })
  | 0x1B => (true, { c with userC := BitVec.ofNat 64 v })
  | 0x1C => (true, { c with userTick := BitVec.ofNat 64 v })
  | 0x09 | 0x11 | 0x1D | 0x21 | 0x22 => (true, c)
  | _ => (false, c)

/-- The latency with which a loaded or moved value is seen: a window load's is apart (R477). -/
def CoreSt.land (c : CoreSt) (r v : Nat) : CoreSt := c.post 3 r v

/-- The address register of a move updated (R442, R472); `fr` is the next free value. -/
def Exe.pkUpdate (e : Exe) (m fr : Nat) (u : PkUpd) : Exe :=
  match u with
  | .keep => e
  | .to v => e.core (e.c.post 1 (64 + vP m) v)
  | .open_ => (e.core (e.c.post 1 (64 + vP m) (fr % 2 ^ 18))).also [.freeUsed]

/-- The data of a load by core `n` is read, with the ECC outcome `ecc`, and sent to register `r` (R443 to R446). -/
def Exe.xLoad (e : Exe) (s : State) (n t fr ecc r a : Nat) : Exe :=
  match xPlace a with
  | .mem a =>
    if ecc = 2 then (e.core (e.c.land r 0)).also [.exc 5]
    else (e.core (e.c.land r (e.c.xAt a).toNat)).also (if ecc = 1 then [.bump Reg.SCR_ECC_CNT_X_CORR] else [])
  | .ctl a =>
    let x := e.c.ctlLoad s n t a
    (match x.1 with
      | some v => e.core (x.2.land r v)
      | none => (e.core (x.2.land r fr)).also [.freeUsed])
  | .win w =>
    let b := e.c.bnkUse.toNat
    let send (v : Nat) : Exe := e.core { e.c with loads := e.c.loads ++ [⟨r, v, e.c.cyc + 8, false⟩] }
    if !s.bankAccepts b n then (send 0).also [.bankRefuse b w false, .exc 2]
    else if ecc = 2 then (send 0).also [.bankRead b w, .exc 2]
    else (send (s.bankWord b w).toNat).also [.bankRead b w]
  | .none => (e.core (e.c.land r 0)).also [.exc 3]

/-- A store of `v` to X address `a` by core `n` (R443 to R448). -/
def Exe.xStore (e : Exe) (s : State) (n t a v : Nat) : Exe :=
  match xPlace a with
  | .mem a => e.core { e.c with x := smSet 0 a (BitVec.ofNat 64 v) e.c.x }
  | .ctl a =>
    let r := e.c.ctlStore t a v
    if r.1 then (e.core r.2).also [.ctlStore a (BitVec.ofNat 64 v)] else e.also [.exc 3]
  | .win w =>
    let b := e.c.bnkUse.toNat
    if s.bankAccepts b n then e.also [.bankWrite b w (BitVec.ofNat 64 v)] else e.also [.bankRefuse b w true, .exc 2]
  | .none => e.also [.exc 3]

/-- The X move `m`, with operands as `c` holds them (R471). -/
def Exe.doX (e : Exe) (c : CoreSt) (s : State) (n t fr ecc m : Nat) : Exe :=
  match vOp m with
  | 1 => let a := c.moveAddr m; (e.xLoad s n t fr ecc (vReg m) a.1).pkUpdate m fr a.2
  | 2 => let a := c.moveAddr m; (e.xStore s n t a.1 (c.getReg (vReg m))).pkUpdate m fr a.2
  | 3 => e.core (e.c.land (vReg m) (c.getReg (vSrc m)))
  | _ => e

/-- The Y move `m` (R471): a PLOAD reads the active program bank. -/
def Exe.doY (e : Exe) (c : CoreSt) (fr ecc m : Nat) : Exe :=
  let a := c.moveAddr m
  let out := 0x4000 ≤ a.1
  match vOp m with
  | 1 =>
    (if out then (e.core (e.c.land (vReg m) 0)).also [.exc 3]
     else if ecc = 2 then (e.core (e.c.land (vReg m) 0)).also [.exc 5]
     else (e.core (e.c.land (vReg m) (c.yAt a.1).toNat)).also (if ecc = 1 then [.bump Reg.SCR_ECC_CNT_Y_CORR] else [])).pkUpdate m fr a.2
  | 2 =>
    (if out then e.also [.exc 3]
     else e.core { e.c with y := smSet 0 a.1 (BitVec.ofNat 64 (c.getReg (vReg m))) e.c.y }).pkUpdate m fr a.2
  | 3 =>
    (if 0x2000 ≤ a.1 then (e.core (e.c.land (vReg m) 0)).also [.exc 3]
     else if ecc = 2 then e.also [.pUnc]
     else (e.core (e.c.land (vReg m) (c.prog a.1).toNat)).also (if ecc = 1 then [.bump Reg.SCR_ECC_CNT_P_CORR] else [])).pkUpdate m fr a.2
  | _ => e

/-! Control (R454, R473, R474). -/

/-- A branch, taken or not, with its two delay slots (R473). -/
def CoreSt.branch (c : CoreSt) (taken : Bool) (target : Nat) : CoreSt :=
  { c with slots := 2, target := if taken then some (BitVec.ofNat 13 target) else none }

/-- The body of loop level `k` has 64 bundles or fewer (R447). -/
def CoreSt.fits (c : CoreSt) (k : Nat) : Bool :=
  let n := (vget c.le k).toNat + 1 - (vget c.ls k).toNat
  0 < n && n ≤ 64

/-- The loop cache as level `k` is entered (R447): it holds the outermost active loop that fits. -/
def CoreSt.enterCache (c : CoreSt) (k : Nat) : CoreSt :=
  if (List.range k).any c.fits || !c.fits k then c
  else
    let x := some (vget c.ls k, vget c.le k)
    if c.cache.map Prod.fst = x.map Prod.fst then { c with cache := x } else { c with cache := x, cacheFull := false }

/-- Fetch comes from the loop cache (R447). -/
def CoreSt.fromCache (c : CoreSt) : Bool := match c.cache with
  | some (a, b) => c.cacheFull && a.toNat ≤ c.pc.toNat && c.pc.toNat ≤ b.toNat
  | none => false

/-- A level pushed with its count (R454); a fifth is an exception. -/
def Exe.pushLoop (e : Exe) (count end_ : Nat) : Exe :=
  let c := e.c
  let k := c.lsp
  if 4 ≤ k then e.also [.exc 4]
  else e.core (({ c with lc := vset c.lc k count, ls := vset c.ls k (c.pc.toNat + 1), le := vset c.le k end_ }.setLsp (k + 1)).enterCache k)

/-- The end of the innermost level (R474). -/
def Exe.breakLoop (e : Exe) : Exe :=
  let c := e.c
  if c.lsp = 0 then (e.core (c.branch false 0)).also [.exc 4]
  else e.core ((c.setLsp (c.lsp - 1)).branch true ((vget c.le (c.lsp - 1)).toNat + 1))

/-- A control operation (R473). -/
def Exe.doCtl (e : Exe) (w : Nat) : Exe :=
  let c := e.c
  let holds := condHolds c.flags (kCond w)
  match kCtl w with
  | 1 => e.core (c.branch holds (kImm w))
  | 2 => e.core (if holds then (c.branch true (kImm w)).post 1 31 ((c.pc.toNat + 3) % 8192) else c.branch false 0)
  | 3 => e.core (c.branch holds ((c.gr (kGs w)).toNat % 8192))
  | 4 => e.pushLoop (kImm w) (kEnd w)
  | 5 => e.pushLoop ((c.gr (kGs w)).toNat % 2 ^ 32) (kEnd w)
  | 6 => if holds then e.breakLoop else e.core (c.branch false 0)
  | 7 => e.core (({ c with inHandler := false }.branch true c.ipc.toNat).post 3 56 c.istat.toNat)
  | 8 => e.core { c with state := 3 }
  | 9 => e.core (c.setIe (w.testBit 0))
  | _ => e

/-- The loop-end tests of the bundle at pc, innermost level first (R454): pc becomes the next bundle's address. -/
def CoreSt.loopEnd : Nat → CoreSt → CoreSt
  | 0, c => { c with pc := c.pc + 1 }
  | fuel + 1, c =>
    let k := c.lsp - 1
    if c.lsp = 0 ∨ vget c.le k ≠ c.pc then { c with pc := c.pc + 1 }
    else if vget c.lc k = 1 then CoreSt.loopEnd fuel (c.setLsp k)
    else
      let full := c.cacheFull || (c.cache.map Prod.fst == some (vget c.ls k))
      { c with lc := vset c.lc k ((vget c.lc k).toNat + 2 ^ 32 - 1), pc := vget c.ls k, cacheFull := full }

/-- The address of the next bundle, after the bundle `w` (R454, R473, R474). `was` is the core before it. -/
def CoreSt.advance (c was : CoreSt) (w : Nat) : CoreSt :=
  let slot := 0 < was.slots
  let c := if bForm w = 1 || (slot && was.target.isSome) then { c with pc := c.pc + 1 } else c.loopEnd 4
  if slot then
    if was.slots = 1 then { c with slots := 0, target := none, pc := was.target.getD c.pc } else { c with slots := was.slots - 1 }
  else c

/-! Execution. -/

/-- SCR_STAT.STATE of core `n` as it becomes `v`, with the level of FAULT (R462). -/
def State.coreState (s : State) (n v : Nat) : State :=
  (s.setCore n { s.coreAt n with state := v }).setRaw (evId .scr n 0) (v == 5)

/-- Core `n` halts: STATE 4, or 5 by a fault, with its cause (R455, R462). -/
def State.coreHalt (s : State) (n v cause : Nat) : State :=
  let c := (s.coreAt n).drain
  let s := s.setCore n { c with haltCause := cause, haltReq := false }
  (s.wr (pg .scr n) Reg.SCR_SCR_CTL_HALT 0).coreState n v

/-- An exception of core `n` with its cause, at bundle `pc` (R455); with IE 0 the core halts with cause DOUBLE. -/
def State.coreExc (s : State) (n cause pc : Nat) (ie : Bool) : State :=
  let p := pg .scr n
  let c := s.coreAt n
  let s := s.setCore n { c with ecause := BitVec.ofNat 64 (cause + pc * 2 ^ 16), irqPend := c.irqPend ||| 1 }
  let s := if s.on p Reg.SCR_EXC_LOG_VALID then s
    else s.wrs p [(Reg.SCR_EXC_LOG_VALID, 1), (Reg.SCR_EXC_LOG_ADDR, pc), (Reg.SCR_EXC_LOG_CAUSE, cause), (Reg.SCR_EXC_LOG_COUNT, 0)]
  let s := s.bumpSat p Reg.SCR_EXC_LOG_COUNT 1
  if ie || (s.coreAt n).state == 5 then s else s.coreHalt n 5 2

/-- The stamp of a TRIG_GO or USER_GO store of `v` (R456, R457). -/
def goStamp (v t regTick : Nat) : SubTick := if v.testBit 4 then regTick * 16 + v % 16 else 16 * t

/-- A USER record staged, or dropped to a full buffer (R457). -/
def State.userGo (s : State) (n t v : Nat) : State :=
  let c := s.coreAt n
  let k := c.userCtx.toNat
  if c.stage.length < 4 then
    s.setCore n { c with stage := c.stage ++ [⟨k, c.userA.toNat, c.userB.toNat, c.userC.toNat, goStamp v t c.userTick.toNat⟩] }
  else
    let s := s.bumpSat (pg .scr n) Reg.SCR_USR_STAT_USER_DROP 1
    if (s.actx k).running then s.setActx k { s.actx k with lostBefore := true } else s

/-- What a store to a control word does outside the core (R448, R456, R457). -/
def State.ctlFx (s : State) (n t a v : Nat) : State :=
  let p := pg .scr n
  match a with
  | 0x09 =>
    let b := bits v 37 32
    if s.rd (pg .bnk b) Reg.BNK_BNK_OWN_OWNER_ACT = n then s.bnkOwn b (v % 128) (bits v 22 16)
    else s.bumpSat p Reg.SCR_SCR_CNT_OWN_REFUSED 1
  | 0x11 => (s.bump p Reg.SCR_USR_STAT_TRIG_CNT 1).sourcePulse (0x1060 + n) 0 t 2 (goStamp v t (s.coreAt n).trigTick.toNat)
  | 0x1D => s.userGo n t v
  | 0x21 => (s.wr p Reg.SCR_MBX_OUT_DATA v).event .scr n 1
  | 0x22 => (s.wr p Reg.SCR_NOTE_DATA v).event .scr n 1
  | _ => s

/-- One effect outside the core (R429, R445, R455). -/
def State.coreFx (s : State) (n t pc : Nat) (ie : Bool) (f : CoreFx) : State :=
  match f with
  | .bankWrite b w v => (s.setBankWord b w v).portMeets b t w true
  | .bankRead b w => s.portMeets b t w false
  | .bankRefuse b w write => s.bankRefuse b n w write
  | .exc cause => s.coreExc n cause pc ie
  | .ctlStore a v => s.ctlFx n t a v.toNat
  | .freeUsed => { s with freeCnt := s.freeCnt + 1 }
  | .pUnc => s.coreHalt n 5 3
  | .bump f => s.bumpSat (pg .scr n) f 1

/-- The X address of a bundle's window access, if it makes one. -/
def CoreSt.winAccess (c : CoreSt) (w : Nat) : Option Nat :=
  if bForm w = 0 && (vOp (xMove w) == 1 || vOp (xMove w) == 2) then
    match xPlace (c.moveAddr (xMove w)).1 with
    | .win a => some a
    | _ => none
  else none

/-- CCLK that a bundle stalls (R444): until the window loads that it reads have arrived, until the oldest of eight has
arrived where it issues a ninth, and one for a P-table read outside the loop cache. -/
def CoreSt.stalls (c : CoreSt) (w : Nat) (legal : Bool) : Nat :=
  if !legal then 0
  else
    let rs := bundleReads w
    let need := (c.loads.filter (fun x => !x.dead && rs.contains x.reg)).foldl (fun m x => max m x.due) c.cyc
    let ninth := (c.winAccess w).isSome && vOp (xMove w) == 1 && 8 ≤ c.loads.length
    let need := if ninth then max need ((c.loads.map WinLoad.due).headD 0) else need
    need - c.cyc + b2n (bForm w = 0 && vOp (yMove w) == 3 && !c.fromCache)

/-- The bundle `w` executed in the settled core `c` (R463 to R477), with the results it leaves in flight. -/
def CoreSt.execute (c : CoreSt) (s : State) (n t w : Nat) (ecc : CoreEcc) : Exe :=
  let e : Exe := ⟨c, []⟩
  let fr := (Config.freeValue s.freeCnt)
  let e := if !bundleLegal w (0 < c.slots) then e.also [.exc 1]
    else match bForm w with
      | 0 =>
        let e := (e.doY c fr ecc.y (yMove w)).doX c s n t fr ecc.x (xMove w)
        e.core (if bMac w then e.c.doMac w else e.c.doAlu w)
      | 1 => e.doCtl w
      | _ =>
        let r := bits w 61 55
        e.core (e.c.post (if r < 32 then 1 else 3) r (unsigned 64 (signed 48 (part w 0 48))))
  let c' := if bForm w = 1 && bundleLegal w (0 < c.slots) && 0 < e.c.slots && c.slots = 0 then { e.c with pc := e.c.pc + 1 }
    else e.c.advance c w
  e.core { c' with idx := c'.idx + 1, cyc := c'.cyc + 1 }

/-- Core `n` executes the bundle at its pc (R444 to R447, R455, R462). `t` is the tick of the bundle's execute 2. -/
def State.coreStep (s : State) (n t : Nat) (ecc : CoreEcc) : State :=
  let p := pg .scr n
  let c := (s.coreAt n).settle
  let pc := c.pc.toNat
  let w := (c.prog pc).toNat
  if ecc.p.val = 2 then (s.setCore n c).coreHalt n 5 3
  else
    let legal := bundleLegal w (0 < c.slots)
    let s := if ecc.p.val = 1 then s.bumpSat p Reg.SCR_ECC_CNT_P_CORR 1 else s
    if legal && (c.winAccess w).isSome && s.bankHolds c.bnkUse.toNat n then
      let k := max 1 (t + 1 - (c.base + c.cyc))
      (s.setCore n { c with cyc := c.cyc + k }).bumpSat p Reg.SCR_SCR_CNT_STALLS k
    else
      let k := c.stalls w legal
      let s := s.bumpSat p Reg.SCR_SCR_CNT_STALLS k
      let c := ({ c with cyc := max (c.cyc + k) (t - c.base) }).settle
      let s := if legal && (c.winAccess w).isSome then s.bankSync c.bnkUse.toNat t else s
      let e := c.execute s n t w ecc
      let s := (s.setCore n e.c).bump p Reg.SCR_SCR_CNT_BUNDLES 1
      let s := s.each e.fx (fun s f => s.coreFx n t pc c.ie f)
      let c := s.coreAt n
      if c.haltReq && c.slots = 0 && c.state != 5 then s.coreHalt n 4 1 else s

/-- The timer as tick `t` finds it (R448, R460). -/
def CoreSt.timed (c : CoreSt) (t : Nat) : CoreSt := if c.tmrEn && c.tmrCmp.toNat ≤ t then { c with irqPend := c.irqPend ||| 0b0100 } else c

/-- The CCLK of a core that goes on at tick `t` count from there. -/
def CoreSt.from_ (c : CoreSt) (t : Nat) : CoreSt := { c with base := t - c.cyc }

/-- Core `n` at a bundle boundary of tick `t`: its timer seen, and its CCLK counted on from there where it waits. -/
def State.coreNow (s : State) (n t : Nat) : State :=
  let c := (s.coreAt n).timed t
  s.setCore n (if c.state = 3 then c.from_ t else c)

/-- The enabled sources that pend (R448, R455). -/
def CoreSt.irqs (c : CoreSt) : Nat := ((c.irqEn ||| 1) &&& c.irqPend).toNat

/-- An interrupt is taken before the next bundle (R455). -/
def CoreSt.irqDue (c : CoreSt) : Bool := c.settle.ie && c.irqs != 0 && c.slots == 0

/-- Core `n` may execute: it runs, or a WAIT has ended (R455, R460), and its clock runs. -/
def State.coreOpen (s : State) (n : Nat) : Bool :=
  let c := s.coreAt n
  s.working (pg .scr n) && (c.state == 2 || (c.state == 3 && c.irqs != 0))

/-- The bundle `w` of a core may be in execute 2 at tick `t` (R444, R449): one bundle enters per CCLK, after its stalls. -/
def CoreSt.due (c : CoreSt) (t w : Nat) : Bool := c.base + c.cyc + c.stalls w (bundleLegal w (0 < c.slots)) ≤ t

/-- Core `n` executes its next bundle where that bundle satisfies `f` and is due, and no interrupt comes before it. -/
def State.coreRun (s : State) (n t : Nat) (ecc : CoreEcc) (f : CoreSt → Nat → Bool) : State :=
  let s := s.coreNow n t
  let c := (s.coreAt n).settle
  let w := (c.prog c.pc.toNat).toNat
  if !s.coreOpen n || c.irqDue || !f c w || !c.due t w then s
  else (s.setCore n { s.coreAt n with state := 2 }).coreStep n t ecc

/-- The bundle holds operation `op`. -/
def holdsOp (op : CoreOp) (c : CoreSt) (w : Nat) : Bool := (bundleOps w (0 < c.slots)).contains op

/-- The bundle's X move stores to, or (with `st` false) loads from, control address `a`. -/
def touchesCtl (st : Bool) (a : Nat) (c : CoreSt) (w : Nat) : Bool :=
  bundleLegal w (0 < c.slots) && bForm w == 0 && vOp (xMove w) == (if st then 2 else 1) &&
    xPlace (c.moveAddr (xMove w)).1 == .ctl a

/-! The operations. -/

/-- NOP (R466). -/
def execOpNop (t : Nat) (n : Fin 64) (ecc : CoreEcc) (s : State) : Host.Outcome State Fault Refusal :=
  .next ((s.advance t).coreRun n t ecc (holdsOp .nop))

/-- ADD (R466). -/
def execOpAdd (t : Nat) (n : Fin 64) (ecc : CoreEcc) (s : State) : Host.Outcome State Fault Refusal :=
  .next ((s.advance t).coreRun n t ecc (holdsOp .add))

/-- SUB (R466). -/
def execOpSub (t : Nat) (n : Fin 64) (ecc : CoreEcc) (s : State) : Host.Outcome State Fault Refusal :=
  .next ((s.advance t).coreRun n t ecc (holdsOp .sub))

/-- AND (R466). -/
def execOpAnd (t : Nat) (n : Fin 64) (ecc : CoreEcc) (s : State) : Host.Outcome State Fault Refusal :=
  .next ((s.advance t).coreRun n t ecc (holdsOp .and_))

/-- OR (R466). -/
def execOpOr (t : Nat) (n : Fin 64) (ecc : CoreEcc) (s : State) : Host.Outcome State Fault Refusal :=
  .next ((s.advance t).coreRun n t ecc (holdsOp .or_))

/-- XOR (R466). -/
def execOpXor (t : Nat) (n : Fin 64) (ecc : CoreEcc) (s : State) : Host.Outcome State Fault Refusal :=
  .next ((s.advance t).coreRun n t ecc (holdsOp .xor))

/-- ANDN (R466). -/
def execOpAndn (t : Nat) (n : Fin 64) (ecc : CoreEcc) (s : State) : Host.Outcome State Fault Refusal :=
  .next ((s.advance t).coreRun n t ecc (holdsOp .andn))

/-- CMP (R467). -/
def execOpCmp (t : Nat) (n : Fin 64) (ecc : CoreEcc) (s : State) : Host.Outcome State Fault Refusal :=
  .next ((s.advance t).coreRun n t ecc (holdsOp .cmp))

/-- SHL (R466). -/
def execOpShl (t : Nat) (n : Fin 64) (ecc : CoreEcc) (s : State) : Host.Outcome State Fault Refusal :=
  .next ((s.advance t).coreRun n t ecc (holdsOp .shl))

/-- SHR (R466). -/
def execOpShr (t : Nat) (n : Fin 64) (ecc : CoreEcc) (s : State) : Host.Outcome State Fault Refusal :=
  .next ((s.advance t).coreRun n t ecc (holdsOp .shr))

/-- SAR (R466). -/
def execOpSar (t : Nat) (n : Fin 64) (ecc : CoreEcc) (s : State) : Host.Outcome State Fault Refusal :=
  .next ((s.advance t).coreRun n t ecc (holdsOp .sar))

/-- MIN (R466). -/
def execOpMin (t : Nat) (n : Fin 64) (ecc : CoreEcc) (s : State) : Host.Outcome State Fault Refusal :=
  .next ((s.advance t).coreRun n t ecc (holdsOp .min))

/-- MAX (R466). -/
def execOpMax (t : Nat) (n : Fin 64) (ecc : CoreEcc) (s : State) : Host.Outcome State Fault Refusal :=
  .next ((s.advance t).coreRun n t ecc (holdsOp .max))

/-- TST (R467). -/
def execOpTst (t : Nat) (n : Fin 64) (ecc : CoreEcc) (s : State) : Host.Outcome State Fault Refusal :=
  .next ((s.advance t).coreRun n t ecc (holdsOp .tst))

/-- SEL (R466). -/
def execOpSel (t : Nat) (n : Fin 64) (ecc : CoreEcc) (s : State) : Host.Outcome State Fault Refusal :=
  .next ((s.advance t).coreRun n t ecc (holdsOp .sel))

/-- ADDI (R466). -/
def execOpAddi (t : Nat) (n : Fin 64) (ecc : CoreEcc) (s : State) : Host.Outcome State Fault Refusal :=
  .next ((s.advance t).coreRun n t ecc (holdsOp .addi))

/-- CMPI (R467). -/
def execOpCmpi (t : Nat) (n : Fin 64) (ecc : CoreEcc) (s : State) : Host.Outcome State Fault Refusal :=
  .next ((s.advance t).coreRun n t ecc (holdsOp .cmpi))

/-- ANDI (R466). -/
def execOpAndi (t : Nat) (n : Fin 64) (ecc : CoreEcc) (s : State) : Host.Outcome State Fault Refusal :=
  .next ((s.advance t).coreRun n t ecc (holdsOp .andi))

/-- ORI (R466). -/
def execOpOri (t : Nat) (n : Fin 64) (ecc : CoreEcc) (s : State) : Host.Outcome State Fault Refusal :=
  .next ((s.advance t).coreRun n t ecc (holdsOp .ori))

/-- CADD (R466). -/
def execOpCadd (t : Nat) (n : Fin 64) (ecc : CoreEcc) (s : State) : Host.Outcome State Fault Refusal :=
  .next ((s.advance t).coreRun n t ecc (holdsOp .cadd))

/-- CSUB (R466). -/
def execOpCsub (t : Nat) (n : Fin 64) (ecc : CoreEcc) (s : State) : Host.Outcome State Fault Refusal :=
  .next ((s.advance t).coreRun n t ecc (holdsOp .csub))

/-- CSAR (R466). -/
def execOpCsar (t : Nat) (n : Fin 64) (ecc : CoreEcc) (s : State) : Host.Outcome State Fault Refusal :=
  .next ((s.advance t).coreRun n t ecc (holdsOp .csar))

/-- CONJ (R466). -/
def execOpConj (t : Nat) (n : Fin 64) (ecc : CoreEcc) (s : State) : Host.Outcome State Fault Refusal :=
  .next ((s.advance t).coreRun n t ecc (holdsOp .conj))

/-- EXT (R452). -/
def execOpExt (t : Nat) (n : Fin 64) (ecc : CoreEcc) (s : State) : Host.Outcome State Fault Refusal :=
  .next ((s.advance t).coreRun n t ecc (holdsOp .ext))

/-- ACLD (R466). -/
def execOpAcld (t : Nat) (n : Fin 64) (ecc : CoreEcc) (s : State) : Host.Outcome State Fault Refusal :=
  .next ((s.advance t).coreRun n t ecc (holdsOp .acld))

/-- ACCLR (R466). -/
def execOpAcclr (t : Nat) (n : Fin 64) (ecc : CoreEcc) (s : State) : Host.Outcome State Fault Refusal :=
  .next ((s.advance t).coreRun n t ecc (holdsOp .acclr))

/-- GETA (R466). -/
def execOpGeta (t : Nat) (n : Fin 64) (ecc : CoreEcc) (s : State) : Host.Outcome State Fault Refusal :=
  .next ((s.advance t).coreRun n t ecc (holdsOp .geta))

/-- PUTA (R466). -/
def execOpPuta (t : Nat) (n : Fin 64) (ecc : CoreEcc) (s : State) : Host.Outcome State Fault Refusal :=
  .next ((s.advance t).coreRun n t ecc (holdsOp .puta))

/-- CMUL (R468). -/
def execOpCmul (t : Nat) (n : Fin 64) (ecc : CoreEcc) (s : State) : Host.Outcome State Fault Refusal :=
  .next ((s.advance t).coreRun n t ecc (holdsOp .cmul))

/-- CMAC (R468). -/
def execOpCmac (t : Nat) (n : Fin 64) (ecc : CoreEcc) (s : State) : Host.Outcome State Fault Refusal :=
  .next ((s.advance t).coreRun n t ecc (holdsOp .cmac))

/-- CJMUL (R468). -/
def execOpCjmul (t : Nat) (n : Fin 64) (ecc : CoreEcc) (s : State) : Host.Outcome State Fault Refusal :=
  .next ((s.advance t).coreRun n t ecc (holdsOp .cjmul))

/-- CJMAC (R468). -/
def execOpCjmac (t : Nat) (n : Fin 64) (ecc : CoreEcc) (s : State) : Host.Outcome State Fault Refusal :=
  .next ((s.advance t).coreRun n t ecc (holdsOp .cjmac))

/-- QMAC (R468). -/
def execOpQmac (t : Nat) (n : Fin 64) (ecc : CoreEcc) (s : State) : Host.Outcome State Fault Refusal :=
  .next ((s.advance t).coreRun n t ecc (holdsOp .qmac))

/-- MAXI (R453). -/
def execOpMaxi (t : Nat) (n : Fin 64) (ecc : CoreEcc) (s : State) : Host.Outcome State Fault Refusal :=
  .next ((s.advance t).coreRun n t ecc (holdsOp .maxi))

/-- MINI (R453). -/
def execOpMini (t : Nat) (n : Fin 64) (ecc : CoreEcc) (s : State) : Host.Outcome State Fault Refusal :=
  .next ((s.advance t).coreRun n t ecc (holdsOp .mini))

/-- LD (R471). -/
def execOpLd (t : Nat) (n : Fin 64) (ecc : CoreEcc) (s : State) : Host.Outcome State Fault Refusal :=
  .next ((s.advance t).coreRun n t ecc (holdsOp .ld))

/-- ST (R471). -/
def execOpSt (t : Nat) (n : Fin 64) (ecc : CoreEcc) (s : State) : Host.Outcome State Fault Refusal :=
  .next ((s.advance t).coreRun n t ecc (holdsOp .st))

/-- MOV (R471). -/
def execOpMov (t : Nat) (n : Fin 64) (ecc : CoreEcc) (s : State) : Host.Outcome State Fault Refusal :=
  .next ((s.advance t).coreRun n t ecc (holdsOp .mov))

/-- PLOAD (R471). -/
def execOpPload (t : Nat) (n : Fin 64) (ecc : CoreEcc) (s : State) : Host.Outcome State Fault Refusal :=
  .next ((s.advance t).coreRun n t ecc (holdsOp .pload))

/-- LI (R475). -/
def execOpLi (t : Nat) (n : Fin 64) (ecc : CoreEcc) (s : State) : Host.Outcome State Fault Refusal :=
  .next ((s.advance t).coreRun n t ecc (holdsOp .li))

/-- CNOP (R473). -/
def execOpCnop (t : Nat) (n : Fin 64) (ecc : CoreEcc) (s : State) : Host.Outcome State Fault Refusal :=
  .next ((s.advance t).coreRun n t ecc (holdsOp .cnop))

/-- BR (R473). -/
def execOpBr (t : Nat) (n : Fin 64) (ecc : CoreEcc) (s : State) : Host.Outcome State Fault Refusal :=
  .next ((s.advance t).coreRun n t ecc (holdsOp .br))

/-- CALL (R473). -/
def execOpCall (t : Nat) (n : Fin 64) (ecc : CoreEcc) (s : State) : Host.Outcome State Fault Refusal :=
  .next ((s.advance t).coreRun n t ecc (holdsOp .call))

/-- JR (R473). -/
def execOpJr (t : Nat) (n : Fin 64) (ecc : CoreEcc) (s : State) : Host.Outcome State Fault Refusal :=
  .next ((s.advance t).coreRun n t ecc (holdsOp .jr))

/-- LOOP (R454). -/
def execOpLoop (t : Nat) (n : Fin 64) (ecc : CoreEcc) (s : State) : Host.Outcome State Fault Refusal :=
  .next ((s.advance t).coreRun n t ecc (holdsOp .loop))

/-- LOOPR (R454). -/
def execOpLoopr (t : Nat) (n : Fin 64) (ecc : CoreEcc) (s : State) : Host.Outcome State Fault Refusal :=
  .next ((s.advance t).coreRun n t ecc (holdsOp .loopr))

/-- BREAK (R474). -/
def execOpBreak (t : Nat) (n : Fin 64) (ecc : CoreEcc) (s : State) : Host.Outcome State Fault Refusal :=
  .next ((s.advance t).coreRun n t ecc (holdsOp .break_))

/-- RETI (R455). -/
def execOpReti (t : Nat) (n : Fin 64) (ecc : CoreEcc) (s : State) : Host.Outcome State Fault Refusal :=
  .next ((s.advance t).coreRun n t ecc (holdsOp .reti))

/-- WAIT (R455). -/
def execOpWait (t : Nat) (n : Fin 64) (ecc : CoreEcc) (s : State) : Host.Outcome State Fault Refusal :=
  .next ((s.advance t).coreRun n t ecc (holdsOp .wait))

/-- SETIE (R473). -/
def execOpSetie (t : Nat) (n : Fin 64) (ecc : CoreEcc) (s : State) : Host.Outcome State Fault Refusal :=
  .next ((s.advance t).coreRun n t ecc (holdsOp .setie))

/-- ILLEGAL (R476). -/
def execOpIllegal (t : Nat) (n : Fin 64) (ecc : CoreEcc) (s : State) : Host.Outcome State Fault Refusal :=
  .next ((s.advance t).coreRun n t ecc (holdsOp .illegal))

/-! The control area. -/

/-- IRQ_CTL_WRITE (R448). -/
def execIrqCtlWrite (t : Nat) (n : Fin 64) (ecc : CoreEcc) (s : State) : Host.Outcome State Fault Refusal :=
  .next ((s.advance t).coreRun n t ecc (touchesCtl true 0x03))

/-- EVQ_READ (R448). -/
def execEvqRead (t : Nat) (n : Fin 64) (ecc : CoreEcc) (s : State) : Host.Outcome State Fault Refusal :=
  .next ((s.advance t).coreRun n t ecc (touchesCtl false 0x04))

/-- BNK_SEL_WRITE (R448). -/
def execBnkSelWrite (t : Nat) (n : Fin 64) (ecc : CoreEcc) (s : State) : Host.Outcome State Fault Refusal :=
  .next ((s.advance t).coreRun n t ecc (touchesCtl true 0x08))

/-- BNK_OWN_WR (R448). -/
def execBnkOwnWr (t : Nat) (n : Fin 64) (ecc : CoreEcc) (s : State) : Host.Outcome State Fault Refusal :=
  .next ((s.advance t).coreRun n t ecc (touchesCtl true 0x09))

/-- BNK_OWN_RD (R448). -/
def execBnkOwnRd (t : Nat) (n : Fin 64) (ecc : CoreEcc) (s : State) : Host.Outcome State Fault Refusal :=
  .next ((s.advance t).coreRun n t ecc (touchesCtl true 0x0A))

/-- TRIG_GO (R456). -/
def execTrigGo (t : Nat) (n : Fin 64) (ecc : CoreEcc) (s : State) : Host.Outcome State Fault Refusal :=
  .next ((s.advance t).coreRun n t ecc (touchesCtl true 0x11))

/-- USER_GO (R457). -/
def execUserGo (t : Nat) (n : Fin 64) (ecc : CoreEcc) (s : State) : Host.Outcome State Fault Refusal :=
  .next ((s.advance t).coreRun n t ecc (touchesCtl true 0x1D))

/-- MBX_IN_READ (R448). -/
def execMbxInRead (t : Nat) (n : Fin 64) (ecc : CoreEcc) (s : State) : Host.Outcome State Fault Refusal :=
  .next ((s.advance t).coreRun n t ecc (touchesCtl false 0x20))

/-- MBX_OUT_STORE (R448). -/
def execMbxOutStore (t : Nat) (n : Fin 64) (ecc : CoreEcc) (s : State) : Host.Outcome State Fault Refusal :=
  .next ((s.advance t).coreRun n t ecc (touchesCtl true 0x21))

/-- NOTIFY (R448). -/
def execNotify (t : Nat) (n : Fin 64) (ecc : CoreEcc) (s : State) : Host.Outcome State Fault Refusal :=
  .next ((s.advance t).coreRun n t ecc (touchesCtl true 0x22))

/-! Interrupts and events. -/

/-- The source taken first, and its vector (R455). -/
def irqVector (pend : Nat) : Nat := if pend.testBit 0 then 4 else if pend.testBit 1 then 8 else if pend.testBit 2 then 12 else 16

/-- INTERRUPT_ENTRY (R455): the vector bundle executes 5 CCLK after the boundary. -/
def State.irqEntry (s : State) (n t : Nat) : State :=
  let c := (s.coreAt n).settle
  let d := (({ c with ipc := c.pc, istat := c.st }).setIe false).setLsp 0
  s.setCore n { d with pc := BitVec.ofNat 13 (irqVector c.irqs), inHandler := true, state := 2, idx := d.idx + 5
                       cyc := max d.cyc (t - d.base) + 5 }
def execInterruptEntry (t : Nat) (n : Fin 64) (s : State) : Host.Outcome State Fault Refusal :=
  let s := (s.advance t).coreNow n t
  let c := s.coreAt n
  .next (if s.coreOpen n && c.irqDue && c.base + c.cyc ≤ t then s.irqEntry n t else s)

/-- WINDOW_LOAD_ARRIVE (R444): the oldest window load's data arrives, once 8 CCLK have passed, or as the next bundle stalls
for it. -/
def execWindowLoadArrive (t : Nat) (n : Fin 64) (s : State) : Host.Outcome State Fault Refusal :=
  let s := s.advance t
  let c := (s.coreAt n).settle
  .next (if s.gated then s
    else match c.loads with
      | [] => s.setCore n c
      | x :: _ =>
        let w := (c.prog c.pc.toNat).toNat
        let legal := bundleLegal w (0 < c.slots)
        if s.coreOpen n && c.base + x.due ≤ t && x.due ≤ c.cyc + c.stalls w legal then
          (s.setCore n ({ c with cyc := x.due }).settle).bumpSat (pg .scr n) Reg.SCR_SCR_CNT_STALLS (x.due - c.cyc)
        else s.setCore n c)

/-- TIMER_COMPARE (R448, R460). -/
def execTimerCompare (t : Nat) (n : Fin 64) (s : State) : Host.Outcome State Fault Refusal :=
  let s := s.advance t
  let c := s.coreAt n
  .next (if s.gated then s else s.setCore n (c.timed s.tick))

/-- USER_RECORD_WRITE (R315, R457): the oldest staged record goes to its context's almanac. -/
def execUserRecordWrite (t : Nat) (n : Fin 64) (s : State) : Host.Outcome State Fault Refusal :=
  let s := s.advance t
  let c := s.coreAt n
  let p := pg .scr n
  .next (if s.gated then s
    else match c.stage with
      | [] => s
      | u :: l =>
        let s := s.setCore n { c with stage := l }
        if !(s.actx u.ctx).running then s.bumpSat p Reg.SCR_USR_STAT_USER_BADCTX 1
        else
          let room := s.queueOpen < queueUnreserved
          let s := s.record u.ctx 0x0A false false 0 (n.val * 2 ^ 32 + u.a) (u.stamp / 16) (u.b * 16 + u.stamp % 16) u.c
          if room then s.bump p Reg.SCR_USR_STAT_USER_SENT 1 else s.bumpSat p Reg.SCR_USR_STAT_USER_DROP 1)

/-! The SCR page. -/

/-- A host write of MBX_IN (R448, R462). -/
def State.mbxInWrite (s : State) (n v : Nat) : State :=
  let s := s.wr (pg .scr n) Reg.SCR_MBX_IN_DATA v
  let c := s.coreAt n
  s.setCore n { c with irqPend := c.irqPend ||| 0b1000 }
def execMbxInWrite (t : Nat) (n : Fin 64) (v : Word) (s : State) : Host.Outcome State Fault Refusal :=
  .next ((s.advance t).hosted (pg .scr n) 0x120 v.toNat (fun s => s.mbxInWrite n v.toNat))

/-- SCR_CTL.HALT (R462): at once at a boundary allowed by R455, else at the next. -/
def State.scrHalt (s : State) (n : Nat) : State :=
  let c := s.coreAt n
  if c.state ≠ 2 ∧ c.state ≠ 3 then s
  else if c.slots = 0 then s.coreHalt n 4 1
  else (s.setCore n { c with haltReq := true }).wr (pg .scr n) Reg.SCR_SCR_CTL_HALT 1
def execScrHalt (t : Nat) (n : Fin 64) (s : State) : Host.Outcome State Fault Refusal :=
  .next ((s.advance t).hosted (pg .scr n) 0x100 1 (fun s => s.scrHalt n))

/-- SCR_CTL.RESUME (R462): in STATE 4. -/
def State.scrResume (s : State) (n : Nat) : State :=
  if (s.coreAt n).state ≠ 4 then s
  else (s.setCore n { (s.coreAt n).from_ s.tick with haltCause := 0 }).coreState n 2
def execScrResume (t : Nat) (n : Fin 64) (s : State) : Host.Outcome State Fault Refusal :=
  .next ((s.advance t).hosted (pg .scr n) 0x100 2 (fun s => s.scrResume n))

/-- SCR_CTL.STEP (R462): in STATE 4, one bundle, and the core halts again. -/
def State.scrStep (s : State) (n t : Nat) (ecc : CoreEcc) : State :=
  if (s.coreAt n).state ≠ 4 || s.gated then s
  else
    let s := (s.setCore n { (s.coreAt n).from_ t with state := 2 }).coreStep n t ecc
    if (s.coreAt n).state = 5 then s else s.coreHalt n 4 1
def execScrStep (t : Nat) (n : Fin 64) (ecc : CoreEcc) (s : State) : Host.Outcome State Fault Refusal :=
  .next ((s.advance t).hosted (pg .scr n) 0x100 4 (fun s => s.scrStep n t ecc))

/-- The word that DBG_ADDR names (R462, R464): X memory, Y memory, the active program bank, or a register. X addresses outside
data memory read 0. -/
def State.dbgWord (s : State) (n : Nat) : Nat :=
  let p := pg .scr n
  let c := s.coreAt n
  let a := s.rd p Reg.SCR_DBG_ADDR_ADDR
  if c.state ≠ 4 ∧ c.state ≠ 5 then 0
  else match s.rd p Reg.SCR_DBG_ADDR_SPACE with
    | 0 => if a < 0x4000 then (c.xAt a).toNat else 0
    | 1 => if a < 0x4000 then (c.yAt a).toNat else 0
    | 2 => if a < 0x2000 then (c.prog a).toNat else 0
    | 3 => if a = 88 then c.pc.toNat else if a < 128 then c.getReg a else 0
    | _ => 0

/-- A write of DBG_DATA while the core is halted (R462, R464): writes to P are refused. -/
def State.dbgWrite (s : State) (n v : Nat) : State :=
  let p := pg .scr n
  let c := s.coreAt n
  let a := s.rd p Reg.SCR_DBG_ADDR_ADDR
  if c.state ≠ 4 ∧ c.state ≠ 5 then s
  else match s.rd p Reg.SCR_DBG_ADDR_SPACE with
    | 0 => if a < 0x4000 then s.setCore n { c with x := smSet 0 a (BitVec.ofNat 64 v) c.x } else s
    | 1 => if a < 0x4000 then s.setCore n { c with y := smSet 0 a (BitVec.ofNat 64 v) c.y } else s
    | 3 =>
      if a = 88 then s.setCore n { c with pc := BitVec.ofNat 13 v, slots := 0, target := none }
      else if reg7Legal a then s.setCore n (c.putReg a v) else s
    | _ => s

/-- DBG_DATA_ACCESS (R462): a write of `v`, or a read, which is answered. -/
def execDbgDataAccess (t : Nat) (n : Fin 64) (write : Bool) (v : Word) (s : State) : Host.Outcome State Fault Refusal :=
  let s := s.advance t
  .next (if write then s.hosted (pg .scr n) 0x158 v.toNat (fun s => s.dbgWrite n v.toNat)
    else if s.bar0Open (pg .scr n) then s.emit (.hostRead ((leBytes 8 (s.dbgWord n)).map BitVec.toNat))
    else s.hold ⟨false, pg .scr n * 4096 + 0x158, 8, 0, 0⟩)

/-- A write of SCR_CLR (R462). -/
def State.scrClr (s : State) (n : Nat) : State :=
  s.wrs (pg .scr n) ([Reg.SCR_SCR_CNT_BUNDLES, Reg.SCR_SCR_CNT_STALLS, Reg.SCR_SCR_CNT_OWN_REFUSED, Reg.SCR_SCR_CNT_EVQ_LOST,
    Reg.SCR_ECC_CNT_P_CORR, Reg.SCR_ECC_CNT_X_CORR, Reg.SCR_ECC_CNT_Y_CORR, Reg.SCR_USR_STAT_USER_SENT,
    Reg.SCR_USR_STAT_USER_DROP, Reg.SCR_USR_STAT_USER_BADCTX, Reg.SCR_USR_STAT_TRIG_CNT].map (fun f => (f, 0)))
def execScrClr (t : Nat) (n : Fin 64) (s : State) : Host.Outcome State Fault Refusal :=
  .next ((s.advance t).hosted (pg .scr n) 0x160 1 (fun s => s.scrClr n))

end Sys2Proof.Machine
end

