-- ==== Sys2Proof/Machine/Reliability.lean ====
section
/-!
DEFINITION. Fabric integrity, event routing, the vigil and availability (R527 to R549), and the start of a service
restart (R135, R137, R140, R333).
-/
namespace Sys2Proof.Machine

/-- Hop `j` of router `h` beyond the registers. -/
def State.hop (s : State) (h j : Nat) : HopSt := smGet {} (8 * h + j) s.rel.hop
def State.setHop (s : State) (h j : Nat) (x : HopSt) : State :=
  { s with rel := { s.rel with hop := smSet {} (8 * h + j) x s.rel.hop } }

/-- Hop `j` of router `h` exists; is failed; is out of service (R527, R531, R532). -/
def State.hopThere (s : State) (h j : Nat) : Bool := (s.rd (pg .fab h) (Reg.FAB_HOP_STAT_PRESENT h)).testBit j
def State.hopFailed (s : State) (h j : Nat) : Bool := (s.rd (pg .fab h) Reg.FAB_HOP_STAT_FAILED).testBit j
def State.hopOos (s : State) (h j : Nat) : Bool := (s.rd (pg .fab h) Reg.FAB_HOP_STAT_OOS).testBit j

/-- The level of HOP_FAULT of router `h` (R549). -/
def State.hopLevel (s : State) (h : Nat) : State :=
  s.setRaw (evId .fab h 0) (s.rd (pg .fab h) Reg.FAB_HOP_STAT_FAILED != 0 || s.rd (pg .fab h) Reg.FAB_HOP_STAT_OOS != 0)

/-! Parity and replay (R528 to R530). -/

/-- One replay more is made on hop `j` of router `h` (R529). -/
def State.hopReplay (s : State) (h j : Nat) : State :=
  let x := s.hop h j
  let s := (s.setHop h j { x with replays := x.replays + 1 }).bumpSat (pg .fab h) Reg.FAB_PAR_CNT_REPLAYS 1
  { s with rel := { s.rel with replays := s.rel.replays + 1 } }.occur 2 0

/-- One corrupted transmission of INJECT has been made (R549): GO reads 0 when all have. -/
def State.injected (s : State) (h j : Nat) : State :=
  let x := s.hop h j
  let s := s.setHop h j { x with inject := x.inject - 1 }
  if x.inject = 1 then s.wr (pg .fab h) Reg.FAB_INJECT_GO (clrBit (s.rd (pg .fab h) Reg.FAB_INJECT_GO) j) else s

/-- Bit `i` of the parity of word `w` (R528): with it, byte `i` holds an odd number of ones. -/
def parityOf (w : Word) : BitVec 8 :=
  BitVec.ofNat 8 ((List.range 8).foldl (fun m i => putBit m i ((bitsOf 8 (w.toNat / 2 ^ (8 * i))).length % 2 == 0)) 0)

/-- The word with the parity that a transmitter gives it (R528). -/
def fabWord (w : Word) : FabWord := ⟨w, parityOf w⟩

/-- The receiver finds a parity error in a byte of the word (R528). -/
def fabBad (x : FabWord) : Bool := x.par != parityOf x.data

/-- FABRIC_PARITY_ERROR (R528, R529): `words` are those that the receiver has not acknowledged, and `got` the first of them as received, with
its parity corrupted where INJECT asks for it. The error is counted once, and a replay is requested from that word. -/
def execFabricParityError (t : Nat) (h : Fin 64) (j : Fin 8) (words : List Word) (got : FabWord) (s : State) :
    Host.Outcome State Fault Refusal :=
  let s := s.advance t
  let x := s.hop h j
  .next (if !s.hopThere h j || s.hopFailed h j || s.hopOos h j || x.replays != 0 || (x.inject = 0 && !fabBad got) then s
    else
      let s := s.setHop h j { x with buf := (words.take 32).map fabWord }
      ((s.bumpSat (pg .fab h) Reg.FAB_PAR_CNT_PARITY 1).injected h j).hopReplay h j)

/-- Hop `j` of router `h` is declared failed (R531): its buffered words are discarded, what `uses` names is lost until it returns, and it
retrains. -/
def State.hopFail (s : State) (h j : Nat) (uses : List HopUse) : State :=
  let p := pg .fab h
  let s := { s with rel := { s.rel with hopFails := s.rel.hopFails + 1 } }.occur 3 0
  let s := (s.wrs p [(Reg.FAB_HOP_STAT_FAILED, setBit (s.rd p Reg.FAB_HOP_STAT_FAILED) j), (Reg.FAB_LAST_FAIL_TICK, s.tick)]).bumpSat
    p Reg.FAB_FAIL_CNT_HOP_FAILS 1
  let cause := s.rel.nextCause
  let s := s.hopLevel h
  let s := if s.rel.nextCause = cause then s.takeCause.2 else s
  s.setHop h j { s.hop h j with replays := 0, retraining := true, failed := 0, cause := cause, buf := [], uses := uses }

/-- REPLAY_RESULT (R528 to R531): the word in error as the receiver gets it again. The replay succeeds, and the buffered words are
acknowledged; or it fails, and another is made, at most 3 for one error. A transmission that INJECT corrupts fails. `uses` are the streams
over the hop, which lose their content if it fails. -/
def execReplayResult (t : Nat) (h : Fin 64) (j : Fin 8) (got : FabWord) (uses : List HopUse) (s : State) :
    Host.Outcome State Fault Refusal :=
  let s := s.advance t
  let x := s.hop h j
  .next (if x.replays = 0 then s
    else if !fabBad got && x.inject = 0 then s.setHop h j { x with replays := 0, buf := [] }
    else
      let s := s.injected h j
      if x.replays < 3 then s.hopReplay h j else s.hopFail h j uses)

/-- HOP_RETRAIN_DONE (R531, R532): a retrain ends. On its success traffic resumes with the next word, and each FABRIC_FAULT leap ends at the
next content of its stream. After 3 failures in succession the hop is out of service. -/
def execHopRetrainDone (t : Nat) (h : Fin 64) (j : Fin 8) (ok : Bool) (s : State) : Host.Outcome State Fault Refusal :=
  let s := s.advance t
  let p := pg .fab h
  let x := s.hop h j
  .next (if !x.retraining then s
    else
      let s := s.bumpSat p Reg.FAB_FAIL_CNT_RETRAINS 1
      let now := s.hopOos h j
      let s := s.wr p Reg.FAB_FAB_CTL_RETRAIN_NOW (clrBit (s.rd p Reg.FAB_FAB_CTL_RETRAIN_NOW) j)
      if ok then
        let s := s.wrs p [(Reg.FAB_HOP_STAT_FAILED, clrBit (s.rd p Reg.FAB_HOP_STAT_FAILED) j),
          (Reg.FAB_HOP_STAT_OOS, clrBit (s.rd p Reg.FAB_HOP_STAT_OOS) j)]
        (s.setHop h j { x with retraining := false, failed := 0, outageEnd := some s.tick, uses := [] }).hopLevel h
      else if now then s.setHop h j { x with retraining := false }
      else if x.failed + 1 < 3 then s.setHop h j { x with failed := x.failed + 1 }
      else
        let s := s.wr p Reg.FAB_HOP_STAT_OOS (setBit (s.rd p Reg.FAB_HOP_STAT_OOS) j)
        (s.setHop h j { x with retraining := false, failed := 3 }).hopLevel h)

/-- A write of FAB_CTL (R532, R549). -/
def State.fabCtl (s : State) (h v : Nat) : State :=
  let p := pg .fab h
  let s := s.each ((bitsOf 8 (bits v 15 8)).filter (fun j => s.hopOos h j && !(s.hop h j).retraining)) (fun s j =>
    (s.setHop h j { s.hop h j with retraining := true }).wr p Reg.FAB_FAB_CTL_RETRAIN_NOW
      (setBit (s.rd p Reg.FAB_FAB_CTL_RETRAIN_NOW) j))
  if v.testBit 16 then s.wrs p [(Reg.FAB_PAR_CNT_PARITY, 0), (Reg.FAB_PAR_CNT_REPLAYS, 0), (Reg.FAB_FAIL_CNT_HOP_FAILS, 0),
    (Reg.FAB_FAIL_CNT_RETRAINS, 0)]
  else s

/-- RETRAIN_NOW (R532). -/
def execRetrainNow (t : Nat) (h : Fin 64) (mask : BitVec 8) (s : State) : Host.Outcome State Fault Refusal :=
  .next ((s.advance t).hosted (pg .fab h) 0x120 (mask.toNat * 2 ^ 8) (fun s => s.fabCtl h (mask.toNat * 2 ^ 8)))

/-- FAB_CLR (R549). -/
def execFabClr (t : Nat) (h : Fin 64) (s : State) : Host.Outcome State Fault Refusal :=
  .next ((s.advance t).hosted (pg .fab h) 0x120 (2 ^ 16) (fun s => s.fabCtl h (2 ^ 16)))

/-- A write of INJECT (R549): the transmissions of one word that each hop named corrupts; a COUNT of 3 fails the hop. -/
def State.injectWrite (s : State) (h count go : Nat) : State :=
  let p := pg .fab h
  let n := match count with
    | 0 => 1 | 3 => 4 | k => k
  (s.wr p Reg.FAB_INJECT_COUNT count).each ((bitsOf 8 go).filter (fun j => s.hopThere h j)) (fun s j =>
    (s.setHop h j { s.hop h j with inject := n }).wr p Reg.FAB_INJECT_GO (setBit (s.rd p Reg.FAB_INJECT_GO) j))

/-- INJECT (R549). -/
def execInject (t : Nat) (h : Fin 64) (count : Fin 4) (mask : BitVec 8) (s : State) : Host.Outcome State Fault Refusal :=
  .next ((s.advance t).hosted (pg .fab h) 0x128 (count.val * 2 ^ 8 + mask.toNat) (fun s => s.injectWrite h count mask.toNat))

/-! The stream watchdog (R534, R536). -/

/-- STREAM_WD in FCLK (R548). -/
def State.streamWd (s : State) : Nat := max 1600 (s.rd (pg .vgl 0) Reg.VGL_STREAM_WD_TIMEOUT)

/-- The hop of `path` whose outage, or whose outage's end within one timeout, makes an expiry at tick `t` a consequent
(R534). -/
def State.pathOutage (s : State) (path : List (Fin 64 × Fin 8)) (t : Nat) : Option HopSt :=
  (path.map (fun x => (x, s.hop x.1 x.2))).findSome? (fun y =>
    if s.hopFailed y.1.1 y.1.2 || s.hopOos y.1.1 y.1.2 then some y.2
    else match y.2.outageEnd with
      | some e => if t ≤ e + s.streamWd then some y.2 else none
      | none => none)

/-- The stream has been silent for STREAM_WD FCLK while its source runs (R536): view samples of a context that loses none; a frame that
came out of the transform as long ago. -/
def State.streamSilent (s : State) (u : HopUse) : Bool :=
  let c := u.id.val
  let a := s.actx c
  match u.kind with
  | .samples | .raw => a.running && a.openRaw.isNone && decide (a.last / 16 + s.streamWd ≤ s.tick)
  | .frames => a.running && a.openSpec.isNone && (match (s.xfc c).frames with
    | f :: _ => s.frameOut c (s.tick - s.streamWd) f
    | [] => false)
  | _ => true

/-- The consumer of a silent stream loses from its last content on, until delivery resumes (R536). -/
def State.streamLost (s : State) (u : HopUse) : State :=
  let c := u.id.val
  match u.kind with
  | .samples => s.lose c 9 (s.nextStamp c) false
  | .raw => s.openLeap c false lateFault (s.nextStamp c) false
  | .frames => match (s.xfc c).frames with
    | f :: _ => s.openLeap c true lateFault f.start false
    | [] => s
  | _ => s

/-- STREAM_WD_EXPIRY (R534, R536): the stream `use` over the hops of `path` has delivered no word for STREAM_WD FCLK. The watchdog is
held while a replay is pending on the path, and while the clocks are gated (R115). -/
def execStreamWdExpiry (t : Nat) (path : List (Fin 64 × Fin 8)) (use : HopUse) (s : State) : Host.Outcome State Fault Refusal :=
  let s := s.advance t
  .next (if s.gated || path.any (fun x => (s.hop x.1 x.2).replays != 0) then s
    else match s.pathOutage path s.tick with
      | some x => s.logFault ⟨0, x.cause, true, 3, evId .vgl 0 2, s.tick⟩
      | none => if s.streamSilent use then ((s.occur 15 0).event .vgl 0 2).streamLost use else s)

/-! Routes and vectors (R538, R539, R547). -/

/-- A write of 1 bits to VEC_ARM q (R539): each vector is armed, and sent at once where an event routed to it is forwarded and
pending. -/
def State.vecArmWrite (s : State) (q w : Nat) : State :=
  s.each (bitsOf 64 w) (fun s i =>
    let v := 64 * q + i
    let s := s.setVecArmed v true
    match (List.range 2048).find? (fun id =>
        s.forwarded id && bit (s.route id) 15 == 1 && bits (s.route id) 14 12 == 0 && bits (s.route id) 7 0 == v) with
    | some id => s.forwardNow id
    | none => s)

/-- VEC_ARM (R539). -/
def execVecArm (t : Nat) (v : Fin 256) (s : State) : Host.Outcome State Fault Refusal :=
  .next ((s.advance t).hosted (pg .eva 0) (0x180 + 8 * (v / 64)) (2 ^ (v.val % 64))
    (fun s => s.vecArmWrite (v / 64) (2 ^ (v.val % 64))))

/-- A route that R538 admits: its TARGET, and its INDEX in the target's range. -/
def routeOk (r : Nat) : Bool :=
  match bits r 14 12 with
  | 0 => true | 1 => bits r 7 0 < 4 | 2 => bits r 7 0 < 64 | 3 => true | 4 => bits r 7 0 < 6 | _ => false

/-- The route of event `id` written (R538); an inadmissible one is ignored, and ROUTE_REFUSED is raised. The bits of an entry
that R538 does not name read 0. -/
def State.routeWrite (s : State) (id r : Nat) : State :=
  if routeOk r then s.wr (pg .eva (id / 1024)) (Reg.EVA_ROUTE_R (id % 1024 / 4) (id % 4)) (bits r 15 12 * 2 ^ 12 + bits r 7 0)
  else s.event .eva (id / 1024) 2

/-- ROUTE_WRITE (R538): the entry of one event in its word, whose other entries keep their values. -/
def execRouteWrite (t : Nat) (id : Fin 2048) (route : BitVec 16) (s : State) : Host.Outcome State Fault Refusal :=
  let s := s.advance t
  let j := id.val % 1024 / 4
  let word := (List.range 4).foldl (fun a k =>
    a + (if k = id.val % 4 then route.toNat else s.rd (pg .eva (id / 1024)) (Reg.EVA_ROUTE_R j k)) * 2 ^ (16 * k)) 0
  .next (s.hosted (pg .eva (id / 1024)) (0x400 + 8 * j) word (fun s => s.routeWrite id route.toNat))

/-! The service controller (R135, R137, R140, R333, R541). -/

/-- The service controller restarts (R50, R135, R333): READY falls, the SVC page's RW and W1C registers return to their reset values, a
migration's copying pauses at the end of the step in progress (R140), and the commands fetched wait to be aborted. -/
def State.serviceRestart (s : State) : State :=
  let s := s.wr (pg .glb 0) Reg.GLB_BOOT_STAT_READY 0
  let s := (s.bumpSat (pg .svc 0) Reg.SVC_SVC_STAT_RESTARTS 1).occur 14 0
  let s := s.wrs (pg .svc 0) [(Reg.EV_PEND, 0), (Reg.EV_EN, 0)]
  { s with svc := { s.svc with restarting := true, restartStatus := 0 }, mem := { s.mem with
             migPaused := true, migLast := if s.mem.migPaused then [] else (List.range 64).filter (fun c => s.on (pg .mch c) Reg.MCH_MCH_STAT_MIGRATING) }
           boot := { s.boot with verified := false, rejected := [] } }

/-- SC_WDOG (R541): held while the clocks are gated and during a restart. -/
def execScWdog (t : Nat) (s : State) : Host.Outcome State Fault Refusal :=
  let s := s.advance t
  .next (if !s.on (pg .vgl 0) Reg.VGL_SC_WD_EN || s.gated || s.svc.restarting || !s.ready ||
      s.tick < s.rel.scKick + s.rd (pg .vgl 0) Reg.VGL_SC_WD_TIMEOUT_MS * 1600000 then s
    else (s.event .vgl 0 0).serviceRestart)

/-- The timeout of the service controller's watchdog starts again. -/
def State.scKick (s : State) : State := { s with rel := { s.rel with scKick := s.tick } }

/-- SC_WD_KICK (R548): accepted from the service controller alone. -/
def execScWdKick (t : Nat) (fromService : Bool) (s : State) : Host.Outcome State Fault Refusal :=
  let s := s.advance t
  .next (if fromService then s.scKick else s)

/-! Thermal staleness, health counters, availability (R541, R542, R545, R548). -/

/-- THERM_STALE (R23, R541): once per staleness. -/
def execThermStale (t : Nat) (sensor : Fin 12) (s : State) : Host.Outcome State Fault Refusal :=
  let s := s.advance t
  .next (if !s.tempStale sensor || s.rel.stale.contains sensor then s
    else
      let s := s.wr (pg .hka 0) (Reg.HKA_TEMP_STALE sensor) 1
      ({ s with rel := { s.rel with stale := sensor.val :: s.rel.stale } }).event .vgl 0 1)

/-- HC_UPDATE (R542): once in each millisecond of the tick counter. -/
def execHcUpdate (t : Nat) (s : State) : Host.Outcome State Fault Refusal :=
  let s := s.advance t
  .next (if s.tick / 1600000 ≤ s.rel.hcAt then s
    else ({ s with rel := { s.rel with hcAt := s.tick / 1600000 } }).each (List.range 16) State.hcUpdate)

/-- A write of AV_CLR (R545, R548). -/
def State.avClr (s : State) : State :=
  let p := pg .vgl 0
  let c := s.rd p Reg.VGL_AV_SEL_CTX
  let v := smGet 0 c s.rel.avLost
  let s := s.wr p Reg.VGL_AV_TOTAL_TICKS (s.rd p Reg.VGL_AV_TOTAL_TICKS - v)
  { s with rel := { s.rel with avLost := smErase c s.rel.avLost, avRaised := s.rel.avRaised.erase c } }

/-- AV_CLR (R548). -/
def execAvClr (t : Nat) (s : State) : Host.Outcome State Fault Refusal :=
  .next ((s.advance t).hosted (pg .vgl 0) 0x1C8 1 State.avClr)

end Sys2Proof.Machine
end

