-- ==== Sys2Proof/Machine/Housekeeping.lean ====
section
/-!
DEFINITION. The housekeeping converter: conversions, overrange, self-calibration, the firmware's sequence and the checks of the
comparator thresholds (R503 to R515, R524, R525).
-/
namespace Sys2Proof.Machine

/-! The housekeeping sequence (R512). -/

/-- The settings that an entry breaks (R505, R512): ORDER 1 to 5, DEC 64 to 65,536. -/
def HkEntry.ok (e : HkEntry) : Bool := 1 ≤ e.order.val && e.order.val ≤ 5 && 63 ≤ e.decM1.toNat

/-- The busy time of an entry in 1/64 µs (R506, R512): 1 µs, and the settling time. -/
def HkEntry.busy (e : HkEntry) : Nat := 64 + 5 * ((e.order.val + e.avgM1.toNat) * (e.decM1.toNat + 1))

/-- The sum of the busy times of `l`, in 1/64 µs. -/
def hkBusy (l : List HkEntry) : Nat := (l.map HkEntry.busy).sum

/-- The rotating entries of a sequence, and the frames of one rotation (R512). -/
def hkRot (l : List HkEntry) : List HkEntry := l.filter HkEntry.rot
def hkFixed (l : List HkEntry) : List HkEntry := l.filter (fun e => !e.rot)

/-- `n` entries of `l` from index `i` on, continuing round it. -/
def hkRound (l : List HkEntry) (i n : Nat) : List HkEntry :=
  (List.range n).filterMap (fun k => l[(i + k) % l.length]?)

/-- The busy time of the largest frame, in 1/64 µs (R512). -/
def hkLargest (l : List HkEntry) (n : Nat) : Nat :=
  hkBusy (hkFixed l) + ((List.range (max 1 (hkRot l).length)).map (fun i => hkBusy (hkRound (hkRot l) i n))).foldl max 0

/-- The frames in which every rotating entry has been converted (R512). -/
def hkFrames (l : List HkEntry) (n : Nat) : Nat := if n = 0 then 0 else ((hkRot l).length + n - 1) / n

/-! Conversions (R505 to R507). -/

/-- ORDER and DEC − 1 as they act (R525). -/
def orderOf (n : Nat) : Nat := if n = 0 then 1 else min n 5
def decOf (n : Nat) : Nat := max n 63

/-- The settling time in ticks, 125 per modulator period (R105, R506). -/
def settleTicks (order decM1 avgM1 : Nat) : Nat := (order + avgM1) * (decM1 + 1) * 125

/-- BUSY, and GO, which reads 1 while BUSY (R525). An open-wire test that waits for the conversion starts as it ends (R87). -/
def State.hkBusyIs (s : State) (b : Bool) : State :=
  (if b then s else s.owConvEnd).wrs (pg .hka 0) [(Reg.HKA_HKA_STAT_BUSY, b2n b), (Reg.HKA_CONV_CTL_GO, b2n b)]

/-- The converter is free. -/
def State.hkIdle (s : State) : Bool :=
  !s.on (pg .hka 0) Reg.HKA_HKA_STAT_BUSY && !s.on (pg .hka 0) Reg.HKA_HKA_STAT_CAL_BUSY

/-- A conversion with the settings in CONV_CFG starts, where its page runs (R42), and not before the open-wire test of its input
ends (R87, R506 to R508): 1 µs for the multiplexer, 2 µs more after an overranged
result, and the settling time. -/
def State.convStart (s : State) : State :=
  let p := pg .hka 0
  let start := s.owFree (s.rd p Reg.HKA_CONV_CFG_INPUT)
  let order := orderOf (s.rd p Reg.HKA_CONV_CFG_ORDER)
  let dec := decOf (s.rd p Reg.HKA_CONV_CFG_DEC_M1)
  let avg := s.rd p Reg.HKA_CONV_CFG_AVG_M1
  let wait := 1600 + (if s.hk.recover then 3200 else 0) + settleTicks order dec avg
  let s := { s with hk := { s.hk with
    input := s.rd p Reg.HKA_CONV_CFG_INPUT, order := order, decM1 := dec, avgM1 := avg, cont := s.on p Reg.HKA_CONV_CFG_MODE
    stop := false, recovery := s.hk.recover, recover := false, startAt := start, dueAt := start + wait } }
  s.hkBusyIs true

/-- The converter stops with its page: a conversion or a calibration in progress ends without a result (R44, notes/assumptions/151). -/
def State.hkStop (s : State) : State :=
  let p := pg .hka 0
  if s.hkIdle then s else (s.hkBusyIs false).wrs p [(Reg.HKA_HKA_STAT_CAL_BUSY, 0), (Reg.HKA_CAL_CTL_GO, 0)]

/-- The conversion in progress is aborted (R510). -/
def State.convAbort (s : State) : State :=
  let p := pg .hka 0
  if !s.on p Reg.HKA_HKA_STAT_BUSY then s
  else
    let s := s.wrs p [(Reg.HKA_CONV_DATA_NEW, 1), (Reg.HKA_CONV_DATA_OVR, 0), (Reg.HKA_CONV_DATA_ABORTED, 1),
      (Reg.HKA_CONV_DATA_RECOVERY, b2n s.hk.recovery), (Reg.HKA_CONV_DATA_INPUT, s.hk.input), (Reg.HKA_CONV_DATA_CODE, 0)]
    (s.hkBusyIs false).event .hka 0 4

/-- A self-calibration starts from phase 1 (R509, R510): with the settings of CAL_CTL, or after a wake from OFF with its reset
settings. -/
def State.calStart (s : State) (wake : Bool) : State :=
  let p := pg .hka 0
  let s := s.convAbort
  let order := if wake then 4 else orderOf (s.rd p Reg.HKA_CAL_CTL_ORDER)
  let dec := if wake then 4095 else decOf (s.rd p Reg.HKA_CAL_CTL_DEC_M1)
  let s := { s with hk := { s.hk with wakeCal := wake, dueAt := s.tick + 2 * settleTicks order dec 7 } }
  s.wrs p [(Reg.HKA_HKA_STAT_CAL_BUSY, 1), (Reg.HKA_CAL_CTL_GO, 1)]

/-! The sequence in force (R512, R513). -/

/-- A frame of the sequence starts: its conversions, and when the next is due. -/
def State.hkFrame (s : State) : State :=
  let x := s.hk
  let n := (hkRot x.seq).length
  { s with hk := { x with
    todo := hkFixed x.seq ++ hkRound (hkRot x.seq) x.rotAt x.rotN
    rotAt := if n = 0 then 0 else (x.rotAt + x.rotN) % n
    frameAt := (if x.late then s.tick else x.frameAt) + x.period * 1600, late := false } }

/-- The sensor of a thermal input (R503, R525). -/
def sensorOf (i : Nat) : Option Nat := if i < 8 then some i else if 20 ≤ i ∧ i < 24 then some (i - 12) else none

/-- The thermal conversions around a calibration that the firmware runs while sequencing (R513): the entries of `l` that are
converted in every frame and name a thermal sensor. -/
def hkThermal (l : List HkEntry) : List HkEntry := (hkFixed l).filter (fun e => (sensorOf e.input).isSome)

/-- The next work of the sequence, where the converter is free: the next conversion, a calibration with the conversions that
follow it, or a frame that is late. -/
def State.hkNext (s : State) : State :=
  let p := pg .hka 0
  if !s.hkIdle || !s.on p Reg.HKA_HKA_STAT_SEQ_RUN || !s.runs p then s
  else if s.hk.calDue && s.hk.todo.isEmpty then
    ({ s with hk := { s.hk with calDue := false, todo := s.hk.again, again := [] } }).calStart false
  else
    let s := if s.hk.todo.isEmpty && s.hk.late then s.hkFrame else s
    match s.hk.todo with
    | [] => s
    | e :: _ => (s.wrs p [(Reg.HKA_CONV_CFG_INPUT, e.input), (Reg.HKA_CONV_CFG_ORDER, e.order), (Reg.HKA_CONV_CFG_DEC_M1, e.decM1.toNat),
        (Reg.HKA_CONV_CFG_AVG_M1, e.avgM1.toNat), (Reg.HKA_CONV_CFG_MODE, 0)]).convStart

/-- A sequence set, its first frame due at once; none stops sequencing (R512). A calibration before it, while another sequence
runs, has the thermal entries of the running sequence converted before and after it (R513, log 100). A conversion of BAR0's in progress is
aborted by the calibration (R510), else stopped after its present result (R507). -/
def State.hkSet (s : State) (l : List HkEntry) (period rotN : Nat) (cal : Bool) : State :=
  let cal := cal && !l.isEmpty
  let ran := s.on (pg .hka 0) Reg.HKA_HKA_STAT_SEQ_RUN
  let s := if ran then s else if cal then s.convAbort else { s with hk := { s.hk with stop := true } }
  let around := if cal && ran then hkThermal s.hk.seq else []
  let now := if s.on (pg .hka 0) Reg.HKA_HKA_STAT_BUSY && !around.isEmpty then s.hk.todo.take 1 else []
  let s := s.wr (pg .hka 0) Reg.HKA_HKA_STAT_SEQ_RUN (b2n (!l.isEmpty))
  let s := { s with hk := { s.hk with
    seq := l, period := period, rotN := rotN, rotAt := 0, todo := now ++ around, frameAt := s.tick, late := false, calDue := cal, again := around } }
  if s.hk.calDue then s.hkNext else s

/-- The default sequence (R514). -/
def hkDefault : List HkEntry :=
  let e (rot : Bool) (i : Fin 64) : HkEntry := ⟨i, rot, 3, 255, 0⟩
  ([0, 1, 2, 3, 4, 5, 6, 7, 20, 21, 22, 23].map (e false)) ++
    ([8, 9, 10, 11, 12, 13, 14, 15, 16, 17, 18, 19].map (e true)) ++ ((List.range 32).map (fun i => e true (Fin.ofNat 64 (24 + i))))

/-- HK_SEQUENCE_FRAME (R512, R513): a frame is due; where work is still in progress it is late. -/
def execHkSequenceFrame (t : Nat) (s : State) : Host.Outcome State Fault Refusal :=
  let s := s.advance t
  .next (if !s.on (pg .hka 0) Reg.HKA_HKA_STAT_SEQ_RUN || s.tick < s.hk.frameAt || s.gated || !s.runs (pg .hka 0) then s
    else if !s.hkIdle || !s.hk.todo.isEmpty then
      (if s.hk.late then s else ({ s with hk := { s.hk with late := true } }).event .hka 0 6).hkNext
    else s.hkFrame.hkNext)

/-! BAR0's writes (R507, R510, R511). -/

/-- A BAR0 write of CONV_CFG, CONV_CTL or CAL_CTL, whose effect is `f`: refused while the firmware runs a sequence. -/
def State.hkHost (s : State) (f : State → State) : State :=
  let p := pg .hka 0
  if s.on p Reg.HKA_HKA_STAT_SEQ_RUN then (s.bumpSat p Reg.HKA_HKA_STAT_HOST_REFUSED 1).event .hka 0 5 else f s

/-- A write of CONV_CTL. -/
def State.convCtl (s : State) (w : Nat) : State :=
  let s := if w.testBit 1 && s.on (pg .hka 0) Reg.HKA_HKA_STAT_BUSY then { s with hk := { s.hk with stop := true } } else s
  if w.testBit 0 && s.hkIdle && s.runs (pg .hka 0) then s.convStart else s

/-- CONV_GO (R507). -/
def execConvGo (t : Nat) (s : State) : Host.Outcome State Fault Refusal :=
  .next ((s.advance t).hosted (pg .hka 0) 0x108 1 (fun s => s.hkHost (fun s => s.convCtl 1)))

/-- CONV_STOP (R507). -/
def execConvStop (t : Nat) (s : State) : Host.Outcome State Fault Refusal :=
  .next ((s.advance t).hosted (pg .hka 0) 0x108 2 (fun s => s.hkHost (fun s => s.convCtl 2)))

/-- A write of CAL_CTL. -/
def State.calCtl (s : State) (w : Nat) : State :=
  let s := s.wrs (pg .hka 0) [(Reg.HKA_CAL_CTL_DEC_M1, bits w 31 16), (Reg.HKA_CAL_CTL_ORDER, bits w 10 8)]
  if w.testBit 0 && (s.hk.wakeCal || s.runs (pg .hka 0)) then s.calStart s.hk.wakeCal else s

/-- CAL_GO (R509, R510). -/
def execCalGo (t : Nat) (s : State) : Host.Outcome State Fault Refusal :=
  let p := pg .hka 0
  let w := s.rd p Reg.HKA_CAL_CTL_DEC_M1 * 2 ^ 16 + s.rd p Reg.HKA_CAL_CTL_ORDER * 2 ^ 8 + 1
  .next ((s.advance t).hosted p 0x128 w (fun s => s.hkHost (fun s => s.calCtl w)))

/-! Results (R504, R508, R509, R515, R524). -/

/-- A raw result as a code (R509), and whether it is overranged (R508). -/
def State.hkCode (s : State) (raw : Int) (overload : Bool) : Int × Bool :=
  let p := pg .hka 0
  let v := ((raw - s.rdS p Reg.HKA_CAL_OFS_OFFSET) * (s.rd p Reg.HKA_CAL_GAIN_GAIN : Int) + 2 ^ 29) / 2 ^ 30
  if overload then (if raw < 0 then -(2 ^ 23) else 2 ^ 23 - 1, true)
  else (clampInt (-(2 ^ 23)) (2 ^ 23 - 1) v, decide (v < -(2 ^ 23)) || decide (2 ^ 23 - 1 < v))

/-- A temperature of sensor `k` (R23, R401, R181, R508, R515): an overranged one is not used. -/
def State.thermal (s : State) (k : Nat) (ovr : Bool) (temp : Nat) : State :=
  let p := pg .hka 0
  if ovr then (s.wr p (Reg.HKA_TEMP_OVR_SKIPPED k) 1).event .hka 0 7
  else
    let s := s.wrs p [(Reg.HKA_TEMP_VALID k, 1), (Reg.HKA_TEMP_STALE k, 0), (Reg.HKA_TEMP_OVR_SKIPPED k, 0), (Reg.HKA_TEMP_TEMP_C k, temp)]
    let s := { s with hk := { s.hk with readAt := smInsert k s.tick s.hk.readAt }, rel := { s.rel with stale := s.rel.stale.erase k } }
    if 8 ≤ k then (s.stackTemp (k - 8) (signed 16 temp)).hcLevels
    else
      let s := s.hcLevels
      let inputs := ((s.running.map s.srcSlot).dedup).filter (fun n => decide (n < 128) == decide (k < 4))
      s.each inputs State.tempCheck

/-- The readback of a threshold with a DC reference lies within 8 codes of `c` (R516, R524): a code of the converter is 1/1,800
of a DAC code. -/
def dacNear (code : Int) (c : Nat) : Bool := (code - 1800 * (c : Int)).natAbs ≤ 14400

/-- The threshold check of comparator `k` (R524): each threshold with a DC reference is compared as its readback, `code`, ends, and the
bit follows once HI's, the second, has. -/
def State.dacCheck (s : State) (k : Nat) (isHi : Bool) (code : Int) : State :=
  let p := pg .cmp 0
  let lo := !s.on p (Reg.CMP_CMP_CFG_LO_RAMP_EN k)
  let hi := !s.on p (Reg.CMP_CMP_CFG_HI_RAMP_EN k)
  let bad := if isHi then hi && !dacNear code (s.rd p (Reg.CMP_CMP_DAC_HI k)) else lo && !dacNear code (s.rd p (Reg.CMP_CMP_DAC_LO k))
  let fail := bad || s.hk.dacLo.testBit k
  if !isHi then { s with hk := { s.hk with dacLo := putBit s.hk.dacLo k bad } }
  else if !lo && !hi then s
  else (s.wr p Reg.CMP_DAC_CHK_FAIL (putBit (s.rd p Reg.CMP_DAC_CHK_FAIL) k fail)).setRaw (evId .cmp 0 (16 + k)) fail

/-- The result of the conversion in progress written, with the tick of its last modulator sample (R507, R508). -/
def State.hkResult (s : State) (code : Int) (ovr : Bool) : State :=
  let p := pg .hka 0
  let i := s.hk.input
  let r := b2n s.hk.recovery
  let v := unsigned 24 code
  let s := s.wrs p
    [(Reg.HKA_CONV_DATA_NEW, 1), (Reg.HKA_CONV_DATA_OVR, b2n ovr), (Reg.HKA_CONV_DATA_ABORTED, 0), (Reg.HKA_CONV_DATA_RECOVERY, r),
     (Reg.HKA_CONV_DATA_INPUT, i), (Reg.HKA_CONV_DATA_CODE, v), (Reg.HKA_CONV_TICK_TICK, s.hk.dueAt), (Reg.HKA_LAST_VALID i, 1),
     (Reg.HKA_LAST_OVR i, b2n ovr), (Reg.HKA_LAST_RECOVERY i, r), (Reg.HKA_LAST_CODE i, v), (Reg.HKA_LAST_TICK_LO i, s.hk.dueAt % 2 ^ 32)]
  (s.event .hka 0 0).eventIf ovr .hka 0 1

/-- HK_CONVERSION_RESULT (R504, R507 to R509, R515, R524): the raw result of the conversion in progress, and the temperature that
the fused coefficients give for a thermal sensor. -/
def execHkConversionResult (t : Nat) (raw : Int) (overload : Bool) (temp : BitVec 16) (s : State) :
    Host.Outcome State Fault Refusal :=
  let s := s.advance t
  let p := pg .hka 0
  .next (if !s.on p Reg.HKA_HKA_STAT_BUSY || s.gated || !s.runs p || s.tick < s.hk.dueAt then s
    else
      let x := s.hk
      let c := s.hkCode raw overload
      let s := s.hkResult c.1 c.2
      let s := match sensorOf x.input with
        | some k => s.thermal k c.2 temp.toNat
        | none => s
      let s := if s.on p Reg.HKA_HKA_STAT_SEQ_RUN && x.seq == hkDefault && 24 ≤ x.input && x.input < 56 then
        s.dacCheck ((x.input - 24) / 2) (x.input % 2 == 1) c.1 else s
      let s := { s with hk := { s.hk with recover := c.2, recovery := false } }
      if x.cont && !x.stop then
        let per := (x.decM1 + 1) * (x.avgM1 + 1) * 125
        let skip := if c.2 then (3200 + settleTicks x.order x.decM1 x.avgM1) / per else 0
        { s with hk := { s.hk with dueAt := x.dueAt + (skip + 1) * per, recover := false } }
      else ({ s.hkBusyIs false with hk := { (s.hkBusyIs false).hk with todo := s.hk.todo.drop 1 } }).hkNext)

/-- The factors lie within their limits (R509): ±65,536 codes; 0.98 to 1.02 in units of 2^-30. -/
def calOk (ofs : Int) (gain : Nat) : Bool :=
  ofs.natAbs ≤ 65536 && 98 * 2 ^ 30 ≤ 100 * gain && 100 * gain ≤ 102 * 2 ^ 30

/-- HK_CAL_DONE (R128, R144, R509): the offset and the gain found. -/
def execHkCalDone (t : Nat) (ofs : Int) (gain : Nat) (s : State) : Host.Outcome State Fault Refusal :=
  let s := s.advance t
  let p := pg .hka 0
  .next (if !s.on p Reg.HKA_HKA_STAT_CAL_BUSY || s.gated || s.tick < s.hk.dueAt then s
    else
      let ok := calOk ofs gain
      let s := (s.wrS p Reg.HKA_CAL_OFS_OFFSET (if ok then ofs else 0)).wrs p
        [(Reg.HKA_CAL_GAIN_GAIN, if ok then gain else 0x40000000), (Reg.HKA_HKA_STAT_CAL_NOMINAL, b2n (!ok)),
         (Reg.HKA_HKA_STAT_CAL_VALID, 1), (Reg.HKA_HKA_STAT_CAL_BUSY, 0), (Reg.HKA_CAL_CTL_GO, 0)]
      let s := (s.event .hka 0 2).eventIf (!ok) .hka 0 3
      let s := { s with boot := { s.boot with done := setBit s.boot.done 1 } }
      let s := if s.hk.wakeCal then
          { s with hk := { s.hk with wakeCal := false } }.pstateEnd p
        else s
      s.hkNext)

end Sys2Proof.Machine
end

