-- ==== Sys2Proof/Machine/Service.lean ====
section
/-!
DEFINITION. The command rings (R326 to R333), the commands that report or keep house, firmware images and attestation
(R420, R493 to R500, R512, R544).
-/
namespace Sys2Proof.Machine

/-! Rings. -/

/-- SIZE and EN of ring `r` (R363). -/
def State.ringSize (s : State) (r : Nat) : Nat := s.rd (pg .svc 0) (Reg.SVC_RING_CFG_SIZE r)
def State.ringOn (s : State) (r : Nat) : Bool := s.on (pg .svc 0) (Reg.SVC_RING_CFG_EN r)

/-- RING_ERROR on ring `r` (R329). -/
def State.ringError (s : State) (r : Nat) : State := (s.wr (pg .svc 0) (Reg.SVC_RING_CFG_EN r) 0).event .svc 0 4

/-- A write of RING_DB of ring `r` (R326, R329, R363). -/
def State.ringDb (s : State) (r tail head : Nat) : State :=
  let s := s.wrs (pg .svc 0) [(Reg.SVC_RING_DB_SQ_TAIL r, tail), (Reg.SVC_RING_DB_CQ_HEAD r, head)]
  if s.ringOn r && (s.ringSize r ≤ tail || s.ringSize r ≤ head) then s.ringError r else s

/-- RING_DOORBELL (R326). -/
def execRingDoorbell (t : Nat) (r : Fin 4) (tail : BitVec 12) (s : State) : Host.Outcome State Fault Refusal :=
  let head := s.rd (pg .svc 0) (Reg.SVC_RING_DB_CQ_HEAD r)
  .next ((s.advance t).hosted (pg .svc 0) (0x118 + 32 * r.val) (head * 2 ^ 16 + tail.toNat)
    (fun s => s.ringDb r tail.toNat head))

/-- CQ_HEAD_RELEASE (R326). -/
def execCqHeadRelease (t : Nat) (r : Fin 4) (head : BitVec 12) (s : State) : Host.Outcome State Fault Refusal :=
  let tail := s.rd (pg .svc 0) (Reg.SVC_RING_DB_SQ_TAIL r)
  .next ((s.advance t).hosted (pg .svc 0) (0x118 + 32 * r.val) (head.toNat * 2 ^ 16 + tail)
    (fun s => s.ringDb r tail head.toNat))

/-- COMMAND_FETCH (R326 to R329): the next entry of ring `r`, or a DMA error while fetching it. -/
def execCommandFetch (t : Nat) (r : Fin 4) (cmd : Option SvcCmd) (s : State) : Host.Outcome State Fault Refusal :=
  let s := s.advance t
  let x := s.ring r
  .next (if !s.serviceRuns || !s.ringOn r || x.head = s.rd (pg .svc 0) (Reg.SVC_RING_DB_SQ_TAIL r) then s
    else match cmd with
      | none => s.ringError r
      | some c =>
        if c.reserved then s.ringError r
        else
          let h := if s.ringSize r ≤ x.head + 1 then 0 else x.head + 1
          let s := s.setRing r { x with head := h }
          { s with svc := { s.svc with fetched := s.svc.fetched ++ [⟨r, h, c⟩] } })

/-- The 32 bytes of a completion entry (R329). -/
def completionBytes (c : SvcCompl) (phase tick : Nat) : List Nat :=
  ([c.cid + c.status * 2 ^ 16 + c.head * 2 ^ 32 + phase * 2 ^ 63, c.res0, c.res1, tick].flatMap (leBytes 8)).map BitVec.toNat

/-- COMPLETION_WRITE (R326, R329): the oldest completion of ring `r` written where the host has released a slot. -/
def execCompletionWrite (t : Nat) (r : Fin 4) (s : State) : Host.Outcome State Fault Refusal :=
  let s := s.advance t
  let x := s.ring r
  let size := s.ringSize r
  match s.svc.compl.find? (fun c => c.ring == r.val) with
  | none => .next s
  | some c =>
    .next (if !s.serviceRuns || size = 0 ||
        (x.tail + 1) % size = s.rd (pg .svc 0) (Reg.SVC_RING_DB_CQ_HEAD r) % size then s
      else
        let s := { s with svc := { s.svc with compl := s.svc.compl.erase c } }
        let wraps := size ≤ x.tail + 1
        let s := s.setRing r { x with tail := if wraps then 0 else x.tail + 1, phase := if wraps then 1 - x.phase else x.phase }
        let s := s.emit (.completion r x.tail c.status c.cid c.head x.phase c.res0 c.res1 s.tick)
        let s := s.emit (.hostWrite (s.rd (pg .svc 0) (Reg.SVC_CQ_BASE_ADDR r) + 32 * x.tail) (completionBytes c x.phase s.tick))
        s.event .svc 0 r)

/-- The opcodes of R330. -/
def opcodes : List Nat :=
  [0x01, 0x02, 0x03, 0x04, 0x05, 0x06, 0x07, 0x08, 0x10, 0x11, 0x12, 0x13, 0x18, 0x19, 0x20, 0x21, 0x28, 0x30, 0x31, 0x38,
   0x39, 0x3F]

/-- INVALID_OPCODE (R332). -/
def execInvalidOpcode (t : Nat) (r : Fin 4) (s : State) : Host.Outcome State Fault Refusal :=
  let s := s.advance t
  .next (match s.svcTakeIf r (fun o => !opcodes.contains o) with
    | some (e, s) => s.complete e .invalidOpcode 0 0
    | none => s)

/-! Blocks written to host memory. -/

/-- A block of `n` bytes from its fields (offset, bytes, value), little-endian; bytes not listed are 0. -/
def blockOf (n : Nat) (fields : List (Nat × Nat × Nat)) : List Nat :=
  (List.range n).map (fun i => match fields.find? (fun f => f.1 ≤ i && i < f.1 + f.2.1) with
    | some f => f.2.2 / 256 ^ (i - f.1) % 256
    | none => 0)

/-- ASCII text as a little-endian number. -/
def ascii (l : List Nat) : Nat := l.foldr (fun c a => c + 256 * a) 0

/-- The serial number of the module as 16 bytes (R331). -/
def serialNumber : Nat := ascii ((List.range 16).map (fun i => Config.serial i % 256))

/-- Usable capture memory in bytes (R397). -/
def State.usableBytes (s : State) : Nat := s.inService.length * rankGranules * 4096

/-- HBM channels in service (R331). -/
def State.channelMask (s : State) : Nat :=
  (List.range 64).foldl (fun m c => putBit m c (!s.mem.omitted.contains c && s.chanState c != 5 && s.chanState c != 0)) 0

/-- Banks available (R128, R331). -/
def State.bankMask (s : State) : Nat := (List.range 64).foldl (fun m b => putBit m b (!s.bank.unavailable.contains b)) 0

/-- The numbers of LIVE, STAGED and PRIOR, 0 for an empty slot (R331, R500). -/
def State.epochNumbers (s : State) : Nat × Nat × Nat :=
  let p := pg .epo 0
  (s.rd p Reg.EPO_EPO_LIVE_NUMBER, if s.on p Reg.EPO_EPO_STAGED_VALID then s.rd p Reg.EPO_EPO_STAGED_NUMBER else 0,
    if s.on p Reg.EPO_EPO_PRIOR_VALID then s.rd p Reg.EPO_EPO_PRIOR_NUMBER else 0)

/-- The information block (R331). -/
def State.infoBlock (s : State) : List Nat :=
  let n := s.epochNumbers
  let sec := pg .sec 0
  let rp := (List.range 4).foldl (fun m i => putBit m i (s.on (pg .nvp i) Reg.NVP_NVP_STAT_UP)) 0
  let ep := (List.range 2).foldl (fun m i => putBit m i (s.on (pg .eth i) Reg.ETH_ETH_STAT_UP)) 0
  blockOf 256 [(0x00, 1, stepping), (0x08, 16, serialNumber), (0x18, 4, s.rd sec Reg.SEC_FW_VER_RUNNING),
    (0x1C, 4, s.rd sec Reg.SEC_FW_VER_OTHER), (0x20, 8, s.usableBytes), (0x28, 8, s.channelMask), (0x30, 8, s.bankMask),
    (0x38, 4, n.1), (0x3C, 4, n.2.1), (0x40, 4, n.2.2), (0x48, 2, rp + ep * 2 ^ 8)]

/-- GET_INFO (R330, R331). -/
def execGetInfo (t : Nat) (r : Fin 4) (s : State) : Host.Outcome State Fault Refusal :=
  .next ((s.advance t).atOnce r 0x01 (fun s e =>
    if e.cmd.dlen.toNat < 256 then (.invalidParam, 0, 0, s)
    else (.success, 0, 0, s.emit (.hostWrite e.cmd.dptr.toNat s.infoBlock))))

/-- Routers h0 to h0 + 31 with a hop out of service (R544). -/
def State.oosMask (s : State) (h0 : Nat) : Nat :=
  (List.range 32).foldl (fun m i => putBit m i (s.rd (pg .fab (h0 + i)) Reg.FAB_HOP_STAT_OOS != 0)) 0

/-- The health block (R544). -/
def State.healthBlock (s : State) : List Nat :=
  let hka := pg .hka 0
  let v := pg .vgl 0
  blockOf 256 ([(0x00, 8, ascii [0x58, 0x48, 0x45, 0x41, 0x4C, 0x54, 0x48, 0x31]), (0x08, 8, s.tick)] ++
    (List.range 8).map (fun k => (0x10 + 2 * k, 2, s.rd hka (Reg.HKA_TEMP_TEMP_C k))) ++
    (List.range 4).map (fun k => (0x20 + 2 * k, 2, s.rd hka (Reg.HKA_TEMP_TEMP_C (8 + k)))) ++
    [(0x28, 2, s.rd (pg .pwr 0) Reg.PWR_CORE_TELEM_I_DA), (0x2A, 2, s.rd (pg .pwr 0) Reg.PWR_CORE_TELEM_V_MV)] ++
    (List.range 16).map (fun n => (0x30 + 4 * n, 4, s.rd v (Reg.VGL_HC_VAL_NOW n))) ++
    [(0x70, 8, s.rel.replays), (0x78, 4, s.rel.hopFails), (0x7C, 4, s.oosMask 0), (0x80, 4, s.oosMask 32)] ++
    (List.range 4).map (fun i => (0x84 + 4 * i, 4, s.ev.raised.getD i 0)) ++
    [(0x98, 8, s.rd v Reg.VGL_AV_TOTAL_TICKS), (0xA0, 4, s.avOver.length), (0xA4, 4, s.rd v Reg.VGL_FLOG_WCNT_CNT)] ++
    (List.range 9).map (fun i => (0xA8 + 8 * i, 8, smGet 0 (i + 1) s.rel.leapRecs)))

/-- GET_HEALTH (R544). -/
def execGetHealth (t : Nat) (r : Fin 4) (s : State) : Host.Outcome State Fault Refusal :=
  .next ((s.advance t).atOnce r 0x08 (fun s e =>
    if e.cmd.dlen.toNat < 256 then (.invalidParam, 0, 0, s)
    else (.success, 0, 0, s.emit (.hostWrite e.cmd.dptr.toNat s.healthBlock))))

/-- The results of MIGRATE_STATUS (R420): the active migration, or the last one. -/
def State.migrateStatus (s : State) : Nat × Nat :=
  match s.mem.mig with
  | none => (0, 0)
  | some m =>
    let p := pg .mch m.chan
    let active := s.on p Reg.MCH_MCH_STAT_MIGRATING
    (m.chan + m.from_ * 2 ^ 6 + m.to_ * 2 ^ 8 + b2n active * 2 ^ 16 + b2n (active && s.mem.migPaused) * 2 ^ 17 +
        s.rd p Reg.MCH_MIG_JOURNAL_STEPS * 2 ^ 32,
      migSteps + (s.tick - m.start) / 1600000 * 2 ^ 32)

/-- MIGRATE_STATUS (R420). -/
def execMigrateStatus (t : Nat) (r : Fin 4) (s : State) : Host.Outcome State Fault Refusal :=
  .next ((s.advance t).atOnce r 0x30 (fun s _ => (.success, s.migrateStatus.1, s.migrateStatus.2, s)))

/-- The fail map as FAILMAP_READ writes it (R420). -/
def State.failMapBytes (s : State) : List Nat :=
  blockOf 16 [(0, 4, s.flash.failMap.length), (4, 4, s.flash.failSeq)] ++
    s.flash.failMap.flatMap (fun e => blockOf 16 [(0, 1, e.kind), (1, 1, e.chan), (2, 1, e.sid), (3, 1, e.spare), (8, 8, e.secs)])

/-- FAILMAP_READ (R420). -/
def execFailmapRead (t : Nat) (r : Fin 4) (s : State) : Host.Outcome State Fault Refusal :=
  .next ((s.advance t).atOnce r 0x31 (fun s e => (.success, 0, 0, s.emit (.hostWrite e.cmd.dptr.toNat s.failMapBytes))))

/-- The command of opcode `o` that the firmware works on: none while the service controller stops (R109, R333). -/
def State.inHand (s : State) (o : Nat) : Option SvcEntry := if s.serviceRuns then s.outstanding o else none

/-! Self-tests. -/

/-- SELFTEST (R330): refused while any context runs. -/
def execSelftest (t : Nat) (r : Fin 4) (s : State) : Host.Outcome State Fault Refusal :=
  let s := s.advance t
  .next (match s.svcTake r 0x39 with
    | none => s
    | some (e, s) => if s.running.isEmpty then (s.defer e).2 else s.complete e .wrongState 0 0)

/-- SELFTEST_DONE (R330): the tests that failed, of those asked for. -/
def execSelftestDone (t : Nat) (failed : Word) (s : State) : Host.Outcome State Fault Refusal :=
  let s := s.advance t
  .next (match s.inHand 0x39 with
    | none => s
    | some e =>
      let failed := failed &&& e.cmd.p0
      s.complete e (if failed = 0 then .success else .selftestFail) failed.toNat 0)

/-- HK_SEQUENCE (R512). -/
def execHkSequence (t : Nat) (r : Fin 4) (entries : List HkEntry) (s : State) : Host.Outcome State Fault Refusal :=
  .next ((s.advance t).atOnce r 0x38 (fun s e =>
    let n := e.cmd.p1.toNat % 256
    let us := e.cmd.p0.toNat
    if e.cmd.dlen.toNat = 0 then (.success, 0, 0, s.hkSet [] 0 0 false)
    else if e.cmd.dlen.toNat % 8 ≠ 0 ∨ 512 < e.cmd.dlen.toNat ∨ e.cmd.dlen.toNat ≠ 8 * entries.length ∨ us < 100 ∨ 1000000 < us ∨
        !(entries.all HkEntry.ok) ∨ us * 64 < hkLargest entries n then (.invalidParam, 0, 0, s)
    else (.success, (hkLargest entries n + 63) / 64, hkFrames entries n, s.hkSet entries us n (e.cmd.p1.getLsbD 8))))

/-! Firmware images (R493 to R499). -/

/-- Slot `x` as programmed since delivery, or as delivered. -/
def State.slotImage (s : State) (x : Nat) : FwImage :=
  (smFind x s.flash.slots).getD ⟨false, BitVec.ofNat 32 (Config.slotVersion x), BitVec.ofNat 32 (Config.slotSvn x), true, true,
    (List.range 4).map (fun i => BitVec.ofNat 64 (Config.slotDigest x i))⟩

/-- The slot running. -/
def State.runSlot (s : State) : Nat := s.rd (pg .sec 0) Reg.SEC_SEC_STAT_RUN_SLOT

/-- The fused anti-rollback counter. -/
def State.fusedSvn (s : State) : Nat := s.rd (pg .sec 0) Reg.SEC_SEC_STAT_FW_SVN

/-- The reason of R497 for which an image is rejected, in its order; 0 where it verifies. -/
def State.fwReason (s : State) (i : FwImage) : Nat :=
  if i.blank then 1 else if !i.signed then 3 else if !i.digestOk then 2 else if i.svn.toNat < s.fusedSvn then 4 else 0

/-- The status that names a reason of R497 (R498). -/
def reasonStatus : Nat → SvcStatus
  | 1 => .invalidParam | 2 => .digestMismatch | 3 => .signatureInvalid | 4 => .rollback | _ => .success

/-- A failed verification (R502). -/
def State.verifyFail (s : State) : State := (s.bumpSat (pg .sec 0) Reg.SEC_SEC_CNT_VERIFY_FAIL 1).event .sec 0 1

/-- The selector names slot `x` from now on: the other copy is written, with SEQ + 1 (R494). -/
def State.selectorWrite (s : State) (x : Nat) : State :=
  let p := pg .sec 0
  let seq := s.rd p Reg.SEC_SEL_STAT_SEQ + 1
  let copy := 1 - s.rd p Reg.SEC_SEL_STAT_COPY
  let s := s.wrs p [(Reg.SEC_SEL_STAT_SEQ, seq), (Reg.SEC_SEL_STAT_COPY, copy), (Reg.SEC_SEL_STAT_SLOT, x)]
  { s with flash := { s.flash with sel := some (x, seq % 2 ^ 32, copy) } }

/-- The fuse counter advanced to `n` where that is higher (R142, R499). -/
def State.fuseAdvance (s : State) (n : Nat) : State :=
  if n ≤ s.fusedSvn then s
  else
    let s := { s with flash := { s.flash with svn := some n } }
    (s.wr (pg .sec 0) Reg.SEC_SEC_STAT_FW_SVN n).event .sec 0 3

/-- The running firmware advances the fuse counter at READY where its own is higher (R142). -/
def State.fuseReady (s : State) : State := s.fuseAdvance (s.slotImage s.runSlot).svn.toNat

/-- FW_STAGE (R498): the image is checked, and the slot not running starts to be programmed. -/
def execFwStage (t : Nat) (r : Fin 4) (img : FwImage) (s : State) : Host.Outcome State Fault Refusal :=
  let s := s.advance t
  .next (match s.svcTake r 0x06 with
    | none => s
    | some (e, s) =>
      if (s.outstanding 0x06).isSome then s.complete e .busy 0 0
      else
        let s := s.wr (pg .sec 0) Reg.SEC_SEC_STAT_STAGED_OK 0
        if s.fwReason img ≠ 0 then (s.verifyFail).complete e (reasonStatus (s.fwReason img)) 0 0
        else
          let d := s.defer e
          if d.1 then { d.2 with svc := { d.2.svc with staging := some img } } else d.2)

/-- FW_STAGE_DONE (R498): the slot is programmed and reads back, or the flash fails. -/
def execFwStageDone (t : Nat) (ok : Bool) (s : State) : Host.Outcome State Fault Refusal :=
  let s := s.advance t
  .next (match s.inHand 0x06, s.svc.staging with
    | some e, some img =>
      let s := { s with svc := { s.svc with staging := none } }
      if !ok then (s.event .sec 0 6).complete e .storageError 0 0
      else
        let s := { s with flash := { s.flash with slots := smInsert (1 - s.runSlot) img s.flash.slots } }
        let s := s.wrs (pg .sec 0) [(Reg.SEC_FW_VER_OTHER, img.version.toNat), (Reg.SEC_SEC_STAT_STAGED_OK, 1)]
        (s.event .sec 0 0).complete e .success img.version.toNat 0
    | _, _ => s)

/-- Slot `x` reads as `img`, where it does not read as it was programmed last. -/
def State.slotReads (s : State) (x : Nat) (img : Option FwImage) : State := match img with
  | some i => { s with flash := { s.flash with slots := smInsert x i s.flash.slots } }
  | none => s

/-- FW_ACTIVATE (R499): the staged slot is verified again from `flash`, as it now reads; the selector is written, the fuse advanced, and the
service controller restarts. -/
def execFwActivate (t : Nat) (r : Fin 4) (flash : Option FwImage) (s : State) : Host.Outcome State Fault Refusal :=
  let s := s.advance t
  .next (match s.svcTake r 0x07 with
    | none => s
    | some (e, s) =>
      if !s.on (pg .sec 0) Reg.SEC_SEC_STAT_STAGED_OK then s.complete e .wrongState 0 0
      else if [0x02, 0x06, 0x05].any (fun o => (s.outstanding o).isSome) then s.complete e .busy 0 0
      else
        let x := 1 - s.runSlot
        let s := s.slotReads x flash
        let reason := s.fwReason (s.slotImage x)
        if reason ≠ 0 then s.verifyFail.complete e (reasonStatus reason) 0 0
        else
        let s := (s.selectorWrite x).fuseAdvance (s.slotImage x).svn.toNat
        let s := { s with svc := { s.svc with restart := some e, restartStatus := 0 } }
        s.serviceRestart)

/-- SERVICE_RESTART (R330, R333). -/
def execServiceRestart (t : Nat) (r : Fin 4) (s : State) : Host.Outcome State Fault Refusal :=
  let s := s.advance t
  .next (match s.svcTake r 0x3F with
    | none => s
    | some (e, s) => ({ s with svc := { s.svc with restart := some e } }).serviceRestart)

/-- The links that LOAD_EPOCH started for an image that is given up stop; their pages and their lanes' hold what LIVE gives them
(R484; notes/assumptions/60). -/
def State.unpark (s : State) : State :=
  s.each ((List.range 64).filter (fun l => s.linkParked l)) (fun s l =>
    let lanes := (s.linkLanes l).filter (fun x => decide (x < 224))
    let s := ((s.lanesRestart l).setLnk l {}).setLinkState l 0
    let s := (pg .lnk l :: (lanes.map lanePage).eraseDups).foldl (fun (s : State) p => s.loadPage s.epo.live p) s
    s.each lanes (fun s x => s.laneEvent x))

/-- Commands fetched and not completed complete with ABORTED, in fetch order (R333), and what they waited for ends. -/
def State.abortCommands (s : State) : State :=
  let l := s.svc.deferred ++ s.svc.announce.toList ++ s.svc.fetched
  let loading := (s.outstanding 0x02).isSome
  let s := { s with svc := { s.svc with fetched := [], deferred := [], staging := none, announce := none } }
  let s := { s with epo := { s.epo with load := none, checked := none, staged := if loading then none else s.epo.staged } }
  let s := if loading then s.unpark else s
  let s := { s with net := { s.net with rec_ := s.net.rec_.map (fun (x : Nat × RecHandle) =>
    (x.1, { x.2 with opening := none, stopping := none, closing := none })) } }
  let s := if loading then (s.wr (pg .epo 0) Reg.EPO_EPO_STAGED_LOADING 0).event .epo 0 1 else s
  s.each l (fun s e => s.complete e .aborted 0 0)

/-- SERVICE_RESTART_READY (R140, R333, R499): the ROM has booted a slot again, and the firmware is READY. -/
def execServiceRestartReady (t : Nat) (s : State) : Host.Outcome State Fault Refusal :=
  let s := s.advance t
  .next (if !s.svc.restarting || !s.boot.verified then s
    else
      let own := s.svc.restart
      let st := s.svc.restartStatus
      let s := { s with svc := { s.svc with restarting := false, restart := none, restartStatus := 0 }
                        mem := { s.mem with migPaused := false, migLast := [] }, boot := { s.boot with readyAt := s.tick } }
      let s := ((s.wr (pg .glb 0) Reg.GLB_BOOT_STAT_READY 1).scKick).fuseReady.abortCommands
      let s := s.event .svc 0 5
      match own with
      | none => s
      | some e =>
        if e.cmd.opc = 0x07 then
          let s := if st = 0 then s.event .sec 0 2 else s
          s.complete e (reasonStatus st) (s.rd (pg .sec 0) Reg.SEC_FW_VER_RUNNING) 0
        else s.complete e .success 0 0)

/-! Attestation (R500). -/

/-- ATTEST (R500). -/
def execAttest (t : Nat) (r : Fin 4) (s : State) : Host.Outcome State Fault Refusal :=
  let s := s.advance t
  .next (match s.svcTake r 0x05 with
    | none => s
    | some (e, s) => if e.cmd.dlen.toNat < 512 then s.complete e .invalidParam 0 0 else (s.defer e).2)

/-- Bytes 0x000 to 0x1BF of the report that command `c` asks for (R500). -/
def State.reportBytes (s : State) (c : SvcCmd) : List Nat :=
  let sec := pg .sec 0
  let glb := pg .glb 0
  let epo := pg .epo 0
  let n := s.epochNumbers
  let ptp := s.ptpOf s.tick
  blockOf 448 ([(0x000, 8, ascii [0x58, 0x41, 0x54, 0x54, 0x52, 0x50, 0x54, 0x31]), (0x008, 4, 512), (0x00C, 4, 1),
    (0x010, 16, serialNumber), (0x020, 8, c.p0.toNat), (0x028, 8, c.p1.toNat), (0x030, 8, c.p2.toNat), (0x038, 8, c.p3.toNat),
    (0x040, 4, s.rd sec Reg.SEC_FW_VER_RUNNING), (0x044, 4, s.rd sec Reg.SEC_FW_VER_OTHER), (0x048, 1, s.runSlot),
    (0x049, 1, stepping), (0x04A, 2, s.rd sec Reg.SEC_SEC_STAT_ROM_VER), (0x04C, 4, s.fusedSvn), (0x050, 8, s.tick),
    (0x058, 8, ptp.1), (0x060, 4, ptp.2 / 65536), (0x064, 4, b2n (s.ptp.servo == 2)),
    (0x068, 4, (s.tick - s.boot.readyAt) / 1600000000),
    (0x06C, 4, s.rd (pg .svc 0) Reg.SVC_SVC_STAT_RESTARTS + s.rd glb Reg.GLB_BOOT_STAT_WARM_CNT * 2 ^ 16 +
      s.rd glb Reg.GLB_BOOT_STAT_LAST_RESET * 2 ^ 24),
    (0x070, 4, n.1), (0x074, 4, n.2.2), (0x078, 4, n.2.1),
    (0x07C, 4, s.rd epo Reg.EPO_PROB_STAT_ACTIVE + s.rd epo Reg.EPO_EPO_PRIOR_FAILED * 2 + s.rd epo Reg.EPO_EPO_STAGED_VALID * 4)] ++
    (List.range 4).map (fun i => (0x080 + 8 * i, 8, s.rd epo (Reg.EPO_DIG_LIVE_WORD i))) ++
    (List.range 4).map (fun i => (0x0A0 + 8 * i, 8, s.rd epo (Reg.EPO_DIG_PRIOR_WORD i))) ++
    (List.range 4).map (fun i => (0x0C0 + 8 * i, 8, (((s.slotImage s.runSlot).digest.getD i 0).toNat))) ++
    [(0x0E0, 4, s.flash.failSeq), (0x0E8, 8, s.usableBytes)] ++
    (List.range 9).flatMap (fun i => [(0x100 + 16 * i, 8, smGet 0 (i + 1) s.rel.leapRecs),
      (0x108 + 16 * i, 8, smGet 0 (i + 1) s.rel.leapSamples)]) ++
    [(0x190, 8, s.rd (pg .vgl 0) Reg.VGL_AV_TOTAL_TICKS), (0x1A0, 32, ascii ((List.range 32).map (fun i => Config.certDigest i % 256)))])

/-- ATTEST_DONE (R500): the report is signed and written, with the identity certificate where DLEN holds it. -/
def execAttestDone (t : Nat) (sig cert : List Byte) (s : State) : Host.Outcome State Fault Refusal :=
  let s := s.advance t
  .next (match s.inHand 0x05 with
    | none => s
    | some e =>
      let sigBytes := (List.range 64).map (fun i => (sig.getD i 0).toNat)
      let all := s.reportBytes e.cmd ++ sigBytes
      let all := if 512 + cert.length ≤ e.cmd.dlen.toNat then all ++ cert.map BitVec.toNat else all
      let s := ((s.bump (pg .sec 0) Reg.SEC_SEC_CNT_ATTESTS 1).event .sec 0 5).emit (.hostWrite e.cmd.dptr.toNat all)
      s.complete e .success all.length 0)

/-! The time service's commands (R349, R353). -/

/-- The servo state becomes `v`; TIME_LOCK on each change of lock (R353, R363). -/
def State.setServo (s : State) (v : Nat) : State :=
  let was := s.ptp.servo
  ({ s with ptp := { s.ptp with servo := v } }).eventIf ((was == 2) != (v == 2)) .svc 0 7

/-- PTP_CFG (R353). -/
def execPtpCfg (t : Nat) (r : Fin 4) (cfg : PtpConfig) (s : State) : Host.Outcome State Fault Refusal :=
  .next ((s.advance t).atOnce r 0x20 (fun s e =>
    if e.cmd.dlen.toNat ≠ 64 || 3 < cfg.src.toNat || 2 < cfg.role.toNat || 1 < cfg.port.toNat || 2 < cfg.transport.toNat ||
        1 < cfg.mode.toNat then (.invalidParam, 0, 0, s)
    else
      let s := s.setServo (if cfg.src.toNat = 0 then 0 else 1)
      (.success, 0, 0, { s with ptp := { src := cfg.src.toNat, cfg := some cfg, servo := s.ptp.servo } })))

/-- PTP_STATUS (R353). -/
def execPtpStatus (t : Nat) (r : Fin 4) (s : State) : Host.Outcome State Fault Refusal :=
  .next ((s.advance t).atOnce r 0x21 (fun s e =>
    let x := s.ptp
    (.success, 0, 0, s.emit (.hostWrite e.cmd.dptr.toNat (blockOf 64 [(0, 1, x.portState), (1, 1, x.servo), (8, 8, x.gm),
      (16, 8, x.steps), (24, 8, unsigned 64 x.offset), (32, 8, unsigned 64 x.delay), (40, 8, unsigned 64 s.trim)])))))

end Sys2Proof.Machine
end

