-- ==== Sys2Proof/Machine/TimeService.lean ====
section
/-!
DEFINITION. The time service, the Deltan bus and the host endpoint's link (R349 to R362, R366).
-/
namespace Sys2Proof.Machine

/-! IEEE 1588 (R350 to R353). -/

/-- The time service uses IEEE 1588 on port `p` (R349, R350, R353), and its link works. -/
def State.ptpOn (s : State) (p : Nat) : Bool :=
  s.serviceRuns && s.working (pg .eth p) && s.on (pg .eth p) Reg.ETH_ETH_STAT_UP && (s.ptp.src == 1 || s.ptp.src == 3) &&
    match s.ptp.cfg with
    | some c => c.role == 2 || c.port.toNat == p
    | none => false

/-- PTP time at a stamp, in 2^-16 ns (R122, R352). -/
def State.ptpTime (s : State) (q : SubTick) : Nat :=
  let x := s.ptpOf (q / 16)
  x.1 * (10 ^ 9 * 65536) + x.2 + q % 16 * 2560

/-- The time service's packets carry no stream slot. -/
def ptpSlot : Nat := 64

/-- A packet of the time service on port `p`. -/
def State.ptpPacket (s : State) (p : Nat) (words : List Nat) : State :=
  (s.emit (.packet p ptpSlot words)).bump (pg .eth p) Reg.ETH_TX_PKTS_CNT 1

/-- A Sync that left the master at `t1` and arrived at `t2` (R350): the offset from the master is what its way took beyond the mean path
delay (notes/assumptions/185). -/
def State.ptpSync (s : State) (t1 t2 : Int) : State :=
  { s with ptp := { s.ptp with syncAt := none, fromMaster := some (t2 - t1), offset := t2 - t1 - s.ptp.delay } }

/-- A Delay_Req that left at `t3` arrived at the master at `t4`: mean path delay and offset (notes/assumptions/185). -/
def State.ptpDelay (s : State) (t3 t4 : Int) : State := match s.ptp.fromMaster with
  | some d =>
    let delay := (d + (t4 - t3)) / 2
    { s with ptp := { s.ptp with reqAt := none, delay := delay, offset := d - delay } }
  | none => { s with ptp := { s.ptp with reqAt := none } }

/-- What the time service makes of a message of IEEE 1588 that arrives at `q` on port `p` (R350 to R353). -/
def State.ptpTake (s : State) (p : Nat) (q : SubTick) (role : Nat) : PtpMsg → State
  | .sync t1 two =>
    if two then { s with ptp := { s.ptp with syncAt := some (s.ptpTime q : Int) } } else s.ptpSync t1 (s.ptpTime q)
  | .followUp t1 => match s.ptp.syncAt with
    | some t2 => s.ptpSync t1 t2
    | none => s
  | .delayReq sender => if role = 0 then s else s.ptpPacket p ([4, s.ptpTime q] ++ sender)
  | .delayResp t4 => match s.ptp.reqAt with
    | some t3 => s.ptpDelay t3 t4
    | none => s
  | .announce gm steps => { s with ptp := { s.ptp with gm := gm.toNat, steps := steps.toNat } }

/-- PTP_MESSAGE_RX (R350 to R353): a message that the port stamps with sub-tick `sub` of this tick; the port state and the lock that the
time service then finds. -/
def execPtpMessageRx (t : Nat) (p : Fin 2) (sub : Fin 16) (msg : PtpMsg) (portState : Byte) (locked : Bool) (s : State) :
    Host.Outcome State Fault Refusal :=
  let s := s.advance t
  .next (match s.ptp.cfg with
    | none => s
    | some c =>
      if !s.ptpOn p then s
      else
        let was := s.ptp.portState
        let s := s.ptpTake p (16 * s.tick + sub) c.role.toNat msg
        let s := ({ s with ptp := { s.ptp with portState := portState.toNat } }).eventIf (was != portState.toNat) .eth p 3
        s.setServo (if locked then 2 else 1))

/-- Ticks of a message interval of 2^`log` s (R353). -/
def intervalTicks (log : Byte) : Nat :=
  if log.toInt < 0 then 1600000000 / 2 ^ log.toInt.natAbs else 1600000000 * 2 ^ log.toNat

/-- The next message of a kind may leave port `p`: 0 Sync and 2 Announce at their intervals, 1 Follow_Up after its Sync (R350, R353). -/
def State.ptpDue (s : State) (p kind : Nat) (c : PtpConfig) : Bool :=
  let every (n : Nat) : Bool := match smFind (4 * p + kind) s.ptp.sentAt with
    | some a => decide (a + n ≤ s.tick)
    | none => true
  match kind with
  | 0 => c.role != 0 && every (intervalTicks c.logSync)
  | 1 => (smFind p s.ptp.owed).isSome
  | 2 => c.role != 0 && every (intervalTicks c.logAnnounce)
  | _ => true

/-- PTP_MESSAGE_SEND (R350, R352): 0 Sync, 1 Follow_Up, 2 Announce, 3 Delay_Req, stamped with sub-tick `sub` of this tick; a Follow_Up
carries the time of its Sync. -/
def execPtpMessageSend (t : Nat) (p : Fin 2) (kind : Fin 4) (sub : Fin 16) (s : State) : Host.Outcome State Fault Refusal :=
  let s := s.advance t
  let q := 16 * s.tick + sub
  .next (match s.ptp.cfg with
    | none => s
    | some c =>
      if !s.ptpOn p || !s.ptpDue p kind c then s
      else
        let x := s.ptpTime (if kind = 1 then (smFind p.val s.ptp.owed).getD q else q)
        let s := { s with ptp := { s.ptp with
          sentAt := smInsert (4 * p.val + kind.val) s.tick s.ptp.sentAt
          owed := if kind = 0 then smInsert p.val q s.ptp.owed else if kind = 1 then smErase p.val s.ptp.owed else s.ptp.owed
          reqAt := if kind = 3 then some (x : Int) else s.ptp.reqAt } }
        s.ptpPacket p [kind.val, c.domain.toNat, c.prio1.toNat, c.prio2.toNat, x / (10 ^ 9 * 65536), x % (10 ^ 9 * 65536)])

/-- The TMB offset in 2^-16 ns (R122). -/
def State.ptpOffset (s : State) : Nat :=
  let p := pg .tmb 0
  (s.rdA p Reg.TMB_PTP_SEC_SEC * 10 ^ 9 + s.rdA p Reg.TMB_PTP_NS_NS) * 65536 + s.rdA p Reg.TMB_PTP_NS_FRAC

/-- An offset committed by the time service (R122, R351): shadow group 0 of TMB. -/
def State.commitOffset (s : State) (offset : Int) : State :=
  let p := pg .tmb 0
  let n := (offset % (2 ^ 48 * (10 ^ 9 * 65536))).toNat
  let s := s.wrs p [(Reg.TMB_PTP_SEC_SEC, n / (10 ^ 9 * 65536)), (Reg.TMB_PTP_NS_NS, n / 65536 % 10 ^ 9), (Reg.TMB_PTP_NS_FRAC, n % 65536),
    (Reg.SH_CTL_COMMIT, setBit (s.rd p Reg.SH_CTL_COMMIT) 0)]
  s.tmbApply

/-- DEADBAND in 2^-16 ns (R351, R353). -/
def State.deadband (s : State) : Nat := match s.ptp.cfg with
  | some c => c.deadband.toNat * 65536
  | none => 2 * 65536

/-- The offset that makes this module's stamps those of the Deltan source (R358): the source's offset, from its PTP time at T, and
DLB_OFS × 0.625 ns. -/
def State.deltanOffset (s : State) : Int :=
  let x := s.dlb.off
  ((((x.1 * 10 ^ 9 + x.2.1) * 65536 + x.2.2 : Nat) : Int) - (s.dlb.rxT * 40960 : Nat)) + s.rdS (pg .dlb 0) Reg.DLB_DLB_OFS_OFS * 2560

/-- The offset error of the module, and the offset that the servo commits (R351): a follower of the Deltan bus takes the source's; an error
above 1 ms is corrected in one step; a smaller one by `change`. -/
def State.servoStep (s : State) (change : Int) : Int × Int :=
  let now : Int := s.ptpOffset
  if s.ptp.src = 2 then (s.deltanOffset - now, s.deltanOffset)
  else (s.ptp.offset, now + (if 65536000000 < s.ptp.offset.natAbs then -s.ptp.offset else change))

/-- PTP_SERVO_COMMIT (R351): at most once a second, and only where the error exceeds DEADBAND; in TRIM mode the servo also steers FTRIM. -/
def execPtpServoCommit (t : Nat) (change : Int) (trim : BitVec 32) (s : State) : Host.Outcome State Fault Refusal :=
  let s := s.advance t
  let due := match s.ptp.commitAt with
    | some a => a + 1600000000 ≤ s.tick
    | none => true
  let x := s.servoStep change
  .next (if s.ptp.src = 0 || !s.serviceRuns || !((if s.ptp.src = 2 then [2] else [1, 2]).contains s.ptp.servo) || !due ||
      x.1.natAbs ≤ s.deadband then s
    else
      let s := { s with ptp := { s.ptp with commitAt := some s.tick, syncAt := none, fromMaster := none, reqAt := none } }
      let s := s.commitOffset x.2
      match s.ptp.cfg with
      | some c => if c.mode = 1 then s.ftrimWrite trim (s.rd (pg .clk 0) Reg.CLK_FTRIM_SLEW) else s
      | none => s)

/-- PTP_MASTER_LOSS (R351): holdover, and TIME_FAULT. -/
def execPtpMasterLoss (t : Nat) (s : State) : Host.Outcome State Fault Refusal :=
  let s := s.advance t
  .next (if !s.serviceRuns || !([1, 3].contains s.ptp.src) || s.ptp.servo = 3 then s else (s.setServo 3).event .svc 0 8)

/-! The Deltan bus (R354 to R361). -/

/-- Position `p`'s delay has been measured or received; the source's own is 0. -/
def State.dlbValid (s : State) (p : Nat) : Bool := p == 0 || s.on (pg .dlb 0) (Reg.DLB_DLB_DELAY_VALID p)

/-- d_p measured or received: a change of more than 250 ps, 6.4 sub-ticks, raises DELAY_JUMP (R366). -/
def State.setDelay (s : State) (p d : Nat) : State :=
  let jump := s.dlbValid p && (s.dlbDelay p + 6 < d || d + 6 < s.dlbDelay p)
  (s.wrs (pg .dlb 0) [(Reg.DLB_DLB_DELAY_VALID p, 1), (Reg.DLB_DLB_DELAY_DELAY p, d)]).eventIf jump .dlb 0 6

/-- The state of the servo of a follower of the Deltan bus (R349, R351, R359): locked while it has time code and its delay; its offset is held
after a loss. -/
def State.dlbServo (s : State) : State :=
  let good := s.on (pg .dlb 0) Reg.DLB_DLB_STAT_TC_LOCK && s.dlbValid s.dlbPos
  if s.ptp.src ≠ 2 then s
  else if good then s.setServo 2
  else if s.ptp.servo = 2 then (s.setServo 3).event .svc 0 8
  else s

/-- DLB_OFS = T + d_p − R_p (R358), in 1/16 tick. -/
def State.setDlbOfs (s : State) : State :=
  if s.dlb.rxSeen then
    s.wrS (pg .dlb 0) Reg.DLB_DLB_OFS_OFS ((16 * s.dlb.rxT + s.dlbDelay s.dlbPos : Nat) - (s.dlb.rp : Nat) : Int)
  else s

/-- The lowest position whose delay falls more than 250 ps below its predecessor's (R359). -/
def State.reversedFrom (s : State) : Option Nat :=
  (List.range 31).findSome? (fun i =>
    if s.dlbValid i && s.dlbValid (i + 1) && s.dlbDelay (i + 1) + 6 < s.dlbDelay i then some (i + 1) else none)

/-- DELTAN_SECOND_SEND (R356, R357). The payload's flags have no stated value. -/
def execDeltanSecondSend (t : Nat) (s : State) : Host.Outcome State Fault Refusal :=
  let s := s.advance t
  .next (if !s.dlbSource || s.tick % 1600000000 ≠ 0 then s
    else
      let seq := (s.dlb.seq + 1) % 256
      let s := { s with dlb := { s.dlb with seq := seq, sentT := some s.tick, measure := false } }
      let s := s.bump (pg .dlb 0) Reg.DLB_DLB_STAT_SEC_CNT 1
      let x := s.ptpOf s.tick
      let f := s.free
      f.2.emit (.deltan 1 [seq, s.tick, x.1, x.2 / 65536, x.2 % 65536, f.1 % 2 ^ 32]))

/-- A frame whose CRC fails is discarded, and TC_CRC is raised (R356, R366). -/
def State.tcCrc (s : State) : State := s.event .dlb 0 1

/-- DELTAN_SECOND_RX (R355 to R359): the on-time point is stamped as R_p. -/
def execDeltanSecondRx (t : Nat) (_seq : Byte) (rp : SubTick) (tick : Word) (sec : BitVec 48) (ns : BitVec 32) (frac : BitVec 16)
    (_flags : BitVec 32) (crcOk inverted : Bool) (s : State) : Host.Outcome State Fault Refusal :=
  let s := s.advance t
  .next (if !s.dlbFollower then s
    else
      let s := s.setDlbPol 7 inverted
      if !crcOk then s.tcCrc
      else
      let s := { s with dlb := { s.dlb with rp := rp, rxT := tick.toNat, rxSeen := true, owe := true
                                            off := (sec.toNat, ns.toNat, frac.toNat) } }
      let s := (s.bump (pg .dlb 0) Reg.DLB_DLB_STAT_SEC_CNT 1).setDlbOfs
      (if s.on (pg .dlb 0) Reg.DLB_DLB_STAT_REVERSED then s else s.wr (pg .dlb 0) Reg.DLB_DLB_STAT_TC_LOCK 1).dlbServo)

/-- DELTAN_ANSWER_SEND (R357): R_p, with its on-time point at R_p + 6,400 × p of its own ticks. -/
def execDeltanAnswerSend (t : Nat) (s : State) : Host.Outcome State Fault Refusal :=
  let s := s.advance t
  let at_ := s.dlb.rp + 16 * 6400 * s.dlbPos
  .next (if !s.dlbFollower || !s.dlb.owe || 16 * s.tick + 15 < at_ then s
    else ({ s with dlb := { s.dlb with owe := false } }).emit (.deltan 2 [s.dlbPos, s.dlb.rp, at_]))

/-- DELTAN_ANSWER_RX (R357, R366): d_p = (A_p − T − 6,400 × p) / 2, and the positions out of order (R359). -/
def execDeltanAnswerRx (t : Nat) (p : Fin 32) (a : SubTick) (crcOk inverted : Bool) (s : State) : Host.Outcome State Fault Refusal :=
  let s := s.advance t
  .next (if !s.dlbSource || p.val = 0 then s
    else
      let s := s.setDlbPol 7 inverted
      if !crcOk then s.tcCrc
      else match s.dlb.sentT with
        | none => s
        | some sent =>
          let s := s.setDelay p ((a - 16 * (sent + 6400 * p.val)) / 2)
          { s with dlb := { s.dlb with marked := s.reversedFrom } })

/-- DELTAN_DELAY_SEND (R357, R359): DELAY frame `j`, in its slot. -/
def execDeltanDelaySend (t : Nat) (j : Fin 4) (s : State) : Host.Outcome State Fault Refusal :=
  let s := s.advance t
  let marked := match s.dlb.marked with
    | some p => p ≤ 8 * j.val + 7
    | none => false
  .next (if !s.dlbSource || s.dlb.sentT.map (· + 6400 * (33 + j.val)) ≠ some s.tick then s
    else s.emit (.deltan 3 (j.val :: b2n marked :: (List.range 8).map (fun i => s.dlbDelay (8 * j.val + i)))))

/-- DELTAN_DELAY_RX (R358, R359): the delays of eight positions; this module's own, and whether it is marked REVERSED. -/
def execDeltanDelayRx (t : Nat) (j : Fin 4) (delays : List (BitVec 24)) (reversed crcOk : Bool) (s : State) :
    Host.Outcome State Fault Refusal :=
  let s := s.advance t
  let p := pg .dlb 0
  .next (if !s.dlbFollower then s
    else if !crcOk then s.tcCrc
    else
      let s := s.each (List.range 8) (fun s i => s.setDelay (8 * j.val + i) (delays.getD i 0).toNat)
      if s.dlbPos / 8 ≠ j.val then s
      else
        let was := s.on p Reg.DLB_DLB_STAT_REVERSED
        let s := s.setDlbOfs
        (if reversed then
          (s.wrs p [(Reg.DLB_DLB_STAT_REVERSED, 1), (Reg.DLB_DLB_STAT_TC_LOCK, 0)]).eventIf (!was) .dlb 0 2
        else if was then s.wrs p [(Reg.DLB_DLB_STAT_REVERSED, 0), (Reg.DLB_DLB_STAT_TC_LOCK, b2n s.dlb.rxSeen)]
        else s).dlbServo)

/-- The three ANNOUNCE frames and the acknowledgement window lie outside the slots of the schedule where the first leaves now (R357, R360). -/
def State.annFits (s : State) : Bool :=
  let at_ := s.tick % 1600000000
  40 * 6400 ≤ at_ && at_ + 2 * 160000 + 211200 ≤ 1600000000

/-- DELTAN_ANNOUNCE_SEND (R360): three times, 100 µs apart. -/
def execDeltanAnnounceSend (t : Nat) (s : State) : Host.Outcome State Fault Refusal :=
  let s := s.advance t
  let now := if s.svc.annSent = 0 then s.annFits else s.tick == s.svc.annAt + 160000
  .next (if s.svc.announce.isNone || !s.dlbSource || 3 ≤ s.svc.annSent || !now then s
    else ({ s with svc := { s.svc with annSent := s.svc.annSent + 1, annAt := s.tick } }).emit
      (.deltan 4 [s.rd (pg .epo 0) Reg.EPO_EPO_STAGED_NUMBER, s.rd (pg .epo 0) Reg.EPO_EQX_TICK_TICK]))

/-- DELTAN_ANNOUNCE_RX (R360): the tick in this module's own count, rounded up; the equinox is scheduled where STAGED carries the
number and the tick lies at least 1 ms ahead; ACK follows the last repetition. -/
def execDeltanAnnounceRx (t : Nat) (number : BitVec 32) (tick : Word) (last crcOk : Bool) (s : State) :
    Host.Outcome State Fault Refusal :=
  let s := s.advance t
  let p := pg .epo 0
  let own := ((16 * tick.toNat : Nat) - s.rdS (pg .dlb 0) Reg.DLB_DLB_OFS_OFS + 15) / 16
  .next (if !s.dlbFollower then s
    else if !crcOk then s.tcCrc
    else
      let s := s.event .dlb 0 3
      if !s.on (pg .dlb 0) Reg.DLB_DLB_CFG_ACCEPT_ANN then s
      else
        let ok := s.on p Reg.EPO_EPO_STAGED_VALID && s.rd p Reg.EPO_EPO_STAGED_NUMBER == number.toNat &&
          decide ((s.tick + 1600000 : Nat) ≤ own)
        let s := if ok then
            (s.wrs p [(Reg.EPO_EQX_TICK_TICK, own.toNat), (Reg.EPO_EQX_STAT_PENDING, 1), (Reg.EPO_EQX_STAT_REVERT, 0),
              (Reg.EPO_EQX_STAT_AUTO, 0), (Reg.EPO_EQX_STAT_ANNOUNCED, 0), (Reg.EPO_EQX_STAT_FROM_DELTAN, 1)]).event .epo 0 7
          else s
        if last then s.emit (.deltan 5 [s.dlbPos, number.toNat, b2n ok, s.tick + 6400 * s.dlbPos]) else s)

/-- DELTAN_ACK_RX (R360): in the acknowledgement window. -/
def execDeltanAckRx (t : Nat) (p : Fin 32) (number : BitVec 32) (accepted crcOk : Bool) (s : State) :
    Host.Outcome State Fault Refusal :=
  let s := s.advance t
  .next (if s.svc.announce.isNone || !s.dlbSource || s.svc.annSent < 3 || s.svc.annAt + 211200 ≤ s.tick then s
    else if !crcOk then s.tcCrc
    else if accepted && number.toNat == s.rd (pg .epo 0) Reg.EPO_EPO_STAGED_NUMBER then
      { s with svc := { s.svc with annAck := setBit s.svc.annAck p } }
    else s)

/-- DELTAN_ACK_WINDOW_CLOSE (R360): 132 µs after the last ANNOUNCE. -/
def execDeltanAckWindowClose (t : Nat) (s : State) : Host.Outcome State Fault Refusal :=
  let s := s.advance t
  .next (match s.svc.announce with
    | none => s
    | some e =>
      if s.svc.annSent < 3 || s.tick < s.svc.annAt + 211200 then s
      else
        let ack := s.svc.annAck
        let s := { s with svc := { s.svc with announce := none } }
        s.complete e .success (s.rd (pg .epo 0) Reg.EPO_EQX_TICK_TICK) ack)

/-- TC_LOST (R359): three SECOND frames in a row missed. -/
def execTcLost (t : Nat) (s : State) : Host.Outcome State Fault Refusal :=
  let s := s.advance t
  .next (if !s.dlbFollower || !s.on (pg .dlb 0) Reg.DLB_DLB_STAT_TC_LOCK || 16 * s.tick < s.dlb.rp + 16 * 3 * 1600000000 then s
    else ((s.wr (pg .dlb 0) Reg.DLB_DLB_STAT_TC_LOCK 0).event .dlb 0 0).dlbServo)

/-- The ticks after `lo` for which a line was at level `v`, up to `e`: `cur` is its level before `e`, and its edges stand newest first. -/
def levelTime (lo : Nat) (v : Bool) : Nat → Bool → List Nat → Nat
  | e, cur, [] => if cur = v then e - lo else 0
  | e, cur, a :: l => (if cur = v then e - max a lo else 0) + (if a ≤ lo then 0 else levelTime lo v a (!cur) l)

/-- An edge of trigger line `k` to `level` (R355): where the level before it has been present for more than 90 % of the last 1 ms, that is
the idle level, and a high one is an inverted pair's. -/
def State.dlbEdge (s : State) (k : Nat) (level : Bool) : State :=
  let l := smGet [] k s.dlb.edges
  let lo := s.tick - 1600000
  let s := if 9 * 1600000 < 10 * levelTime lo (!level) s.tick (!level) l then s.setDlbPol k (!level) else s
  { s with dlb := { s.dlb with edges := smInsert k (s.tick :: l.takeWhile (fun a => lo < a)) s.dlb.edges } }

/-- DELTAN_TRIGGER_EDGE (R355, R358): an edge to `level` at the pad of line `k`, in sub-tick `sub` of this tick; the stamp is reduced by the
delay between this module and the driver. -/
def execDeltanTriggerEdge (t : Nat) (k : Fin 6) (level : Bool) (sub : Fin 16) (s : State) :
    Host.Outcome State Fault Refusal :=
  let s := (s.advance t).routerTo t
  .next (if !s.dlbOn then s
    else
      let s := s.dlbEdge k level
      let stamp := 16 * s.tick + sub.val
      let v := level != (s.rd (pg .dlb 0) Reg.DLB_DLB_STAT_POL_INV).testBit k
      let drives := s.on (pg .trn 0) (Reg.TRN_DLT_SRC_EN k)
      let s := s.eventIf (drives && v != (s.tick < smGet 0 (16 + k.val) s.trg.lineEnd)) .dlb 0 5
      let a := s.dlbDelay (s.rd (pg .dlb 0) (Reg.DLB_DLB_DRV_DRV k))
      let b := s.dlbDelay s.dlbPos
      s.sourceLevel (0x1048 + k) v s.tick 12 (stamp - ((a - b) + (b - a))))

/-- A write of DLB_CTL.MEASURE (R366): the source alone. -/
def State.dlbMeasure (s : State) : State := if s.dlbSource then { s with dlb := { s.dlb with measure := true } } else s

/-- DLB_MEASURE (R366). -/
def execDlbMeasure (t : Nat) (s : State) : Host.Outcome State Fault Refusal :=
  .next ((s.advance t).hosted (pg .dlb 0) 0x120 1 State.dlbMeasure)

/-! The host endpoint's link (R323, R362). -/

/-- A write of PCI_CLR (R362). -/
def State.pciClr (s : State) : State :=
  s.wrs (pg .pci 0) [(Reg.PCI_BAR2_STAT_POISON_CNT, 0), (Reg.PCI_BAR2_STAT_RANGE_CNT, 0), (Reg.PCI_AER_CNT_CORR, 0),
    (Reg.PCI_AER_CNT_UNCORR, 0), (Reg.PCI_LINK_STAT_RETRAIN_CNT, 0)]

/-- PCI_CLR (R362). -/
def execPciClr (t : Nat) (s : State) : Host.Outcome State Fault Refusal :=
  .next ((s.advance t).hosted (pg .pci 0) 0x120 1 State.pciClr)

/-- PCIE_LINK_DOWN (R362). -/
def execPcieLinkDown (t : Nat) (s : State) : Host.Outcome State Fault Refusal :=
  let s := s.advance t
  .next (if !s.on (pg .pci 0) Reg.PCI_LINK_STAT_UP then s
    else
      let s := s.wrs (pg .pci 0) [(Reg.PCI_LINK_STAT_UP, 0), (Reg.PCI_LINK_STAT_WIDTH, 0), (Reg.PCI_LINK_STAT_SPEED, 0)]
      ({ s with boot := { s.boot with linkUp := false } }).event .pci 0 0)

end Sys2Proof.Machine
end

