-- ==== Sys2Proof/Machine/Recorder.lean ====
section
/-!
DEFINITION. Drains and the recorder: NVMe commands, chunks, volume headers, handles (R18, R334 to R343, R364).
-/
namespace Sys2Proof.Machine

/-! The record volume (R340, R341). -/

/-- CRC-64 of ECMA-182, one byte further (R340). -/
def crcByte (c : Word) (b : Byte) : Word :=
  (List.range 8).foldl (fun c _ => if c.msb then (c <<< 1) ^^^ 0x42F0E1EBA9EA3693#64 else c <<< 1) (c ^^^ (b.setWidth 64 <<< 56))

/-- CRC-64 of ECMA-182 over bytes. -/
def crc64 (l : List Byte) : Nat := (l.foldl crcByte 0).toNat

/-- Bytes of data in a chunk; LBA bytes; bytes of one data command. -/
def chunkData : Nat := 67104768
def lbaBytes : Nat := 4096
def dataCmd : Nat := 2 ^ 20

/-- The chunks of a namespace of `n` LBAs (R340). -/
def chunkCount (n : Nat) : Nat := min 1048448 ((n - 16384) / 16384)

/-- A 4,096-byte header: its fields, and the CRC over the bytes before it (R340). -/
def headerOf (fields : List (Nat × Nat × Nat)) : List Nat × Nat :=
  let body := blockOf 0xFF8 fields
  let crc := crc64 (body.map (BitVec.ofNat 8))
  (body ++ (leBytes 8 crc).map BitVec.toNat, crc)

/-- FLAGS of a chunk (R341). -/
def RecChunk.flags (y : RecChunk) : Nat := b2n y.last + 2 * b2n y.rewritten

/-- The chunk header of `y` in set `setId`, and its HDR_CRC (R341). -/
def RecChunk.header (y : RecChunk) (setId : Nat) : List Nat × Nat :=
  headerOf [(0x000, 8, ascii [0x58, 0x52, 0x56, 0x43, 0x48, 0x4E, 0x4B, 0x31]), (0x008, 8, setId), (0x010, 4, y.number),
    (0x014, 4, y.ctx + y.kind * 2 ^ 16 + y.mem * 2 ^ 24), (0x018, 8, y.seq), (0x020, 8, y.firstIndex), (0x028, 8, y.firstTick),
    (0x030, 4, y.data.length), (0x034, 4, y.epoch), (0x038, 4, y.flags), (0x03C, 4, y.recBytes), (0x040, 8, crc64 y.data),
    (0x048, 8, y.prev)]

/-- The index entry of `y` with STATE `st` (R341). -/
def RecChunk.entry (y : RecChunk) (setId st : Nat) : List Nat :=
  blockOf 64 [(0, 1, st), (1, 1, y.kind), (2, 2, y.ctx), (4, 4, y.number), (8, 8, y.seq), (16, 8, y.firstTick),
    (24, 8, y.lastTick), (32, 8, y.firstIndex), (40, 4, y.data.length), (44, 4, y.flags),
    (48, 8, if st = 2 then (y.header setId).2 else 0)]

/-- Bytes as the words of an output. -/
def outWords (l : List Nat) : List Nat := toWords l.length (l.map (BitVec.ofNat 8))

/-! Handles. -/

/-- Recorder handle `h`. -/
def State.rech (s : State) (h : Nat) : RecHandle := smGet {} h s.net.rec_
def State.setRech (s : State) (h : Nat) (x : RecHandle) : State :=
  { s with net := { s.net with rec_ := smSet {} h x s.net.rec_ } }

/-- The contexts that are bound to handle `h` (R334). -/
def State.recCtxs (s : State) (h : Nat) : List Nat :=
  (s.acq.ctx.map Prod.fst).filter (fun c => s.recBound c && s.rd (pg .ctx c) Reg.CTX_REC_BIND_HANDLE == h)

/-- The members of a handle that have not failed. -/
def RecHandle.live (x : RecHandle) : List Nat :=
  (List.range x.members.length).filter (fun m => match x.members[m]? with
    | some y => !y.failed
    | none => false)

/-- The page of the root port of member `m`. -/
def RecHandle.page (x : RecHandle) (m : Nat) : Nat := match x.members[m]? with
  | some y => pg .nvp (y.id.port.toNat % 4)
  | none => pg .nvp 0

/-- An NVMe command to member `m` of handle `h` (R337, R342): NVMe opcode `op`, first LBA, the bytes it writes. -/
def State.nvmeIssue (s : State) (h m kind chunk op lba : Nat) (bytes : List Nat) : State :=
  let x := s.rech h
  let s := s.setRech h { x with cmds := x.cmds ++ [⟨m, kind, chunk, op, lba, bytes, 0, s.tick⟩] }
  s.emit (.nvme (16 * h + m) op lba (outWords bytes))

/-- The volume header of member `m` rewritten (R340, R342): the copies take turns. -/
def State.volumeHeader (s : State) (h m : Nat) (open_ : Bool) : State :=
  let x := s.rech h
  match x.members[m]? with
  | none => s
  | some y =>
    let seq := y.hdrSeq + 1
    let s := s.setRech h { x with members := x.members.set m { y with hdrSeq := seq } }
    let hd := headerOf [(0x000, 8, ascii [0x58, 0x52, 0x56, 0x56, 0x4F, 0x4C, 0x30, 0x31]), (0x008, 8, seq), (0x010, 8, x.setId),
      (0x018, 4, m + x.members.length * 2 ^ 8 + b2n open_ * 2 ^ 16 + b2n x.wrap * 2 ^ 17), (0x020, 8, y.lbas), (0x028, 4, y.chunks),
      (0x02C, 4, y.next), (0x030, 4, x.recordings), (0x038, 16, serialNumber)]
    s.nvmeIssue h m 3 0 0x01 (seq % 2) hd.1

/-- The volume header and a Flush to every member (R342). -/
def State.flushAll (s : State) (h : Nat) (open_ : Bool) : State :=
  let s := s.setRech h { s.rech h with flushing := true, flushed := [] }
  s.each (s.rech h).live (fun s m => (s.volumeHeader h m open_).nvmeIssue h m 4 0 0x00 0 [])

/-- Every Flush asked for has succeeded, and nothing else is under way. -/
def RecHandle.durable (x : RecHandle) : Bool :=
  x.fill.isEmpty && x.writing.isEmpty && x.cmds.isEmpty && x.flushing && x.live.all (fun m => x.flushed.contains m)

/-! Chunks (R342). -/

/-- The member that takes the next chunk of kind `k`, in turn (R342): it has a free chunk, or WRAP reuses its oldest (R339). -/
def RecHandle.nextMember (x : RecHandle) (k : Nat) : Option Nat :=
  let n := x.members.length
  ((List.range n).map (fun i => (smGet 0 k x.turn + i) % n)).find? (fun m => match x.members[m]? with
    | some y => !y.failed && y.chunks != 0 && (y.free != 0 || x.wrap)
    | none => false)

/-- A chunk of member `m` allocated at its cursor. -/
def RecHandle.allocate (x : RecHandle) (k m : Nat) : Nat × RecHandle := match x.members[m]? with
  | some y => (y.next, { x with
      members := x.members.set m { y with next := if y.chunks ≤ y.next + 1 then 0 else y.next + 1, free := y.free - 1 }
      turn := smSet 0 k ((m + 1) % max 1 x.members.length) x.turn })
  | none => (0, x)

/-- The LBA of the index entry of chunk `n`, and the first LBA of the chunk (R340). -/
def indexLba (n : Nat) : Nat := 2 + n / 64
def chunkLba (n : Nat) : Nat := 16384 * (n + 1)

/-- The data commands of the chunk `y` in the writing under number `id` (R342 step 1); the last holds what remains. -/
def State.writeData (s : State) (h id : Nat) (y : RecChunk) : State :=
  s.each (List.range ((y.data.length + dataCmd - 1) / dataCmd)) (fun s i =>
    s.nvmeIssue h y.mem 0 id 0x01 (chunkLba y.num + 1 + i * 256) (((y.data.drop (i * dataCmd)).take dataCmd).map BitVec.toNat))

/-- The chunk at `key` is full, or the recording ends: its place in the chain is fixed, and it is written (R341, R342). -/
def State.chunkClose (s : State) (h key : Nat) (last : Bool) : State :=
  let x := s.rech h
  match smFind key x.fill with
  | none => s
  | some y =>
    let y := { y with seq := smGet 0 y.kind x.seqs, prev := smGet 0 y.kind x.prevs, last := last }
    let id := x.nextId
    let s := s.setRech h { x with
      fill := smErase key x.fill, writing := smInsert id y x.writing, nextId := id + 1
      seqs := smSet 0 y.kind (y.seq + 1) x.seqs, prevs := smSet 0 y.kind (y.header x.setId).2 x.prevs }
    s.writeData h id y

/-- The drain has read what was written before its stop, as far as the binding carries it. -/
def State.drained (s : State) (c : Nat) (str : Bool) : Bool :=
  let a := s.actx c
  let d := if str then a.strDrain else a.recDrain
  let content := s.rd (pg .ctx c) (if str then Reg.CTX_STR_BIND_CONTENT else Reg.CTX_REC_BIND_CONTENT)
  match d.stop with
  | none => !d.running
  | some (r, v, m) => !d.running || ((bit content 0 == 0 || r ≤ d.raw) && (bit content 1 == 0 || v ≤ d.spec) && m ≤ d.alm && d.copy.isEmpty && d.rest.isEmpty)

/-- A context that has stopped keeps its bindings and areas until its drains have read up to their stops; then its page is
unused (R335, R483; notes/assumptions/61). -/
def State.ctxRelease (s : State) (c : Nat) : State :=
  let done (b : Bool) (str : Bool) : Bool := !b || s.drained c str
  if !(s.actx c).running && !imgRuns s.epo.live c && !s.epo.todo.contains (pg .ctx c) && s.inEpoch (pg .ctx c) == false &&
      done (s.recBound c) false && done (s.strBound c) true then
    let s := s.loadPage s.epo.live (pg .ctx c)
    s.setActx c { s.actx c with recDrain := {}, strDrain := {} }
  else s

/-- The recording of handle `h` is over: its chunks close, the last of each marked, and its data is made durable (R342). -/
def State.recEnd (s : State) (h : Nat) : State :=
  let x := s.rech h
  let s := s.setRech h { x with running := false, ending := false, flushing := false, flushed := [] }
  let s := s.each (s.recCtxs h) (fun s c =>
    let a := s.actx c
    (s.setActx c { a with recDrain := { a.recDrain with running := false, stop := none } }).ctxRelease c)
  let s := s.each (x.fill.map Prod.fst) (fun s k => s.chunkClose h k true)
  if (s.rech h).writing.isEmpty then s.flushAll h true else s

/-- A recording that is ending is over once every drain has read up to its stop. -/
def State.recSettle (s : State) (h : Nat) : State :=
  let x := s.rech h
  if x.running && x.ending && (s.recCtxs h).all (fun c => s.drained c false) then s.recEnd h else s

/-- The set of handle `h` is full under STOP policy (R339). -/
def State.setFull (s : State) (h : Nat) : State :=
  let x := s.rech h
  let s := s.setRech h { x with full := true }
  let ports := ((List.range x.members.length).map x.page).dedup
  (s.each ports (fun s p => s.event .nvp (p - pg .nvp 0) 4)).recEnd h

/-- The number of the epoch under which what context `c` delivers at `stamp` lies (R341). -/
def State.epochAt (s : State) (c : Nat) (stamp : SubTick) : Nat :=
  (((s.actx c).epochs.find? (fun e => e.1 ≤ stamp)).map Prod.snd).getD (s.rd (pg .epo 0) Reg.EPO_EPO_LIVE_NUMBER)

/-- The index entry of chunk `y` reads STATE 1 (R341). -/
def State.indexWriting (s : State) (h : Nat) (y : RecChunk) : State :=
  s.nvmeIssue h y.mem 6 0 0x01 (indexLba y.num) (y.entry (s.rech h).setId 1)

/-- A chunk opened for context `c`: allocated in turn, its index entry reads STATE 1 (R341, R342); or the set is full. -/
def State.chunkOpen (s : State) (h c kind : Nat) (stamp : SubTick) (recBytes : Nat) : State :=
  let x := s.rech h
  match x.nextMember kind with
  | none => s.setFull h
  | some m =>
    let r := x.allocate kind m
    let y : RecChunk := {
      ctx := c, kind := kind, mem := m, num := r.1, firstIndex := smGet 0 (4 * c + kind) x.items, firstTick := stamp / 16
      lastTick := stamp / 16, epoch := s.epochAt c stamp, recBytes := if kind = 2 then recBytes else 0
      number := x.number }
    let s := s.setRech h { r.2 with fill := smInsert (4 * c + kind) y r.2.fill }
    s.indexWriting h y

/-- One sample, spectral record or almanac record of context `c` recorded (R341). -/
def State.recPut (s : State) (h c kind : Nat) (stamp : SubTick) (bytes : List Byte) : State :=
  let key := 4 * c + kind
  if !(s.rech h).running then s
  else
    let s := if (smFind key (s.rech h).fill).isSome then s else s.chunkOpen h c kind stamp bytes.length
    let x := s.rech h
    match smFind key x.fill with
    | none => s
    | some y =>
      let y := { y with data := y.data ++ bytes, lastTick := stamp / 16 }
      let s := s.setRech h { x with
        fill := smInsert key y x.fill, items := smSet 0 key (smGet 0 key x.items + 1) x.items
        samples := x.samples + (if kind = 1 then 1 else 0) }
      if chunkData < y.data.length + bytes.length then s.chunkClose h key false else s

/-! Drains (R334 to R336). -/

/-- A stream slot. -/
def State.strs (s : State) (n : Nat) : StrSlot := smGet {} n s.net.str
def State.setStrs (s : State) (n : Nat) (x : StrSlot) : State :=
  { s with net := { s.net with str := smSet {} n x s.net.str } }

/-- The ports of a stream slot (R348), and whether all work and their links are up. -/
def streamPorts (d : StreamDesc) : List Nat := bitsOf 2 d.ports.toNat
def State.strLinked (s : State) (d : StreamDesc) : Bool :=
  !(streamPorts d).isEmpty && (streamPorts d).all (fun p => s.working (pg .eth p) && s.on (pg .eth p) Reg.ETH_ETH_STAT_UP)

/-- One item, in network byte order, passed to the streamer (R345). -/
def State.strPut (s : State) (c kind : Nat) (stamp : SubTick) (step : SubTick) (bytes : List Byte) (lost ovr : Bool) : State :=
  let n := s.rd (pg .ctx c) Reg.CTX_STR_BIND_SLOT
  let d := s.drainOf c true
  if lost then s.setDrain c true { d with gap := true }
  else
    let next := if kind = 0 then d.nextRaw else d.nextSpec
    let follows := match next with
      | some q => q ≤ stamp + 1 && stamp ≤ q + 1 && !d.gap
      | none => false
    let loss := d.gap || (next.isSome && !follows)
    let x := s.strs n
    let s := s.setStrs n { x with
      items := x.items ++ [⟨c, kind, stamp, bytes, !follows, loss, ovr⟩]
      ctxDue := if loss then (2 * c + kind) :: x.ctxDue.erase (2 * c + kind) else x.ctxDue }
    s.setDrain c true (if kind = 0 then { d with gap := false, nextRaw := some (stamp + step) }
      else { d with gap := false, nextSpec := some (stamp + step) })

/-- Items that a drain has read go to its handle or its slot (R334, R341, R345). -/
def State.drainPut (s : State) (c : Nat) (str : Bool) (l : List DrainItem) : State :=
  let p := pg .ctx c
  let s := s.bump p (if str then Reg.CTX_DRN_STR_RD_CNT else Reg.CTX_DRN_REC_RD_CNT) (l.filter (fun y => y.kind == 0)).length
  s.each l (fun s y =>
    if str then s.strPut c y.kind y.stamp y.step y.bytes y.hole y.ovr
    else s.recPut (s.rd p Reg.CTX_REC_BIND_HANDLE) c (y.kind + 1) y.stamp y.bytes)

/-- Raw samples or spectral records read by a drain (R334 to R336), `n` of them at most: first those that a switch has set aside. -/
def State.drainData (s : State) (c : Nat) (str : Bool) (kind n : Nat) : State :=
  let d := s.drainOf c str
  let kept := d.rest.filter (fun y => y.kind == kind)
  if !kept.isEmpty then
    (s.setDrain c str { d with rest := d.rest.filter (fun y => y.kind != kind) ++ kept.drop n }).drainPut c str (kept.take n)
  else
    let x := s.drainSrc c kind d
    let limit := d.limit kind x
    if x.cap = 0 || limit ≤ x.pos then s
    else if x.pos + x.cap < x.written then s.drainSkip c str kind x limit
    else
      let n := min n (limit - x.pos)
      let n := (((List.range n).find? (fun i => s.drainHeld c x (x.pos + i))).getD n)
      let items := (List.range n).map (fun i => s.drainTake c str kind x (x.pos + i))
      let s := s.drainPoisons c x x.pos n
      (s.setDrain c str (d.at_ kind (x.pos + n))).drainPut c str items

/-- One record of a binding's almanac copy passed on (R314, R345). -/
def State.almPut (s : State) (c : Nat) (str : Bool) (words : List Nat) : State :=
  if str then
    let n := s.rd (pg .ctx c) Reg.CTX_STR_BIND_SLOT
    let x := s.strs n
    s.setStrs n { x with alm := x.alm ++ [(c, words)], almAt := if x.alm.isEmpty then s.tick else x.almAt }
  else s.recPut (s.rd (pg .ctx c) Reg.CTX_REC_BIND_HANDLE) c 3 (16 * words.getD 1 0) (words.flatMap (leBytes 8))

/-- The next record of a binding's almanac copy (R314): what has been set aside for it first, then the ring. -/
def State.drainAlm (s : State) (c : Nat) (str : Bool) : State :=
  let a := s.actx c
  let d := s.drainOf c str
  match d.copy with
  | w :: l => (s.setDrain c str { d with copy := l }).almPut c str w
  | [] =>
    let w := s.rd (pg .ctx c) Reg.CTX_ALM_WCNT_CNT
    let limit := match d.stop with
      | some (_, _, m) => min w m
      | none => w
    let cap := a.almBytes / 32
    if cap = 0 || limit ≤ d.alm then s
    else
      let behind := d.alm + cap < w
      let n := if behind then w - cap else d.alm
      let addr := s.areaAddr a.laid a.almBase (n * 32 % a.almBytes)
      if s.anyHole && s.hole addr then s.setDrain c str { d with alm := n + 1, lost := d.lost || behind }
      else
        let words := (List.range 4).map (fun i => s.readNat (addr + 8 * i) 8)
        let words := if d.lost || behind then words.set 0 (setBit (words.getD 0 0) 53) else words
        (s.setDrain c str { d with alm := n + 1, lost := false }).almPut c str words

/-- A binding's drain may read (R137, R335, R348): it is bound and runs, the part is up, its clocks run, and the context does
not wait for a resume; a stream's links are up. -/
def State.drainOpen (s : State) (c : Nat) (str : Bool) : Bool :=
  (if str then s.strBound c else s.recBound c) && (s.drainOf c str).running && s.startedUp && !s.gated &&
    !s.boot.stopped.contains c &&
    (if str then match (s.strs (s.rd (pg .ctx c) Reg.CTX_STR_BIND_SLOT)).desc with
      | some y => s.strLinked y
      | none => false
    else true)

/-- A stream drain that has read up to its stop is stopped (R335). -/
def State.strSettle (s : State) (c : Nat) : State :=
  let d := s.drainOf c true
  if d.running && d.stop.isSome && s.drained c true then
    (s.setDrain c true { d with running := false, stop := none }).ctxRelease c else s

/-- DRAIN_READ (R17, R304, R314, R334 to R336, R418): the drain of the recorder or, with `str`, of the streamer of context `c`
reads raw samples (`kind` 0), spectral records (1) or one almanac record (2). -/
def execDrainRead (t : Nat) (c : Fin 1024) (str : Bool) (kind : Fin 3) (n : Nat) (s : State) :
    Host.Outcome State Fault Refusal :=
  let s := s.advance t
  let p := pg .ctx c
  let content := s.rd p (if str then Reg.CTX_STR_BIND_CONTENT else Reg.CTX_REC_BIND_CONTENT)
  .next (if !s.drainOpen c str then s
    else
      let s := match kind with
        | 0 => if bit content 0 = 1 then s.drainData c str 0 n else s
        | 1 => if bit content 1 = 1 then s.drainData c str 1 n else s
        | _ => s.drainAlm c str
      (if str then s.strSettle c else s.recSettle (s.rd p Reg.CTX_REC_BIND_HANDLE)).ctxRelease c)

/-! Handles' commands (R330, R338, R339, R342). -/

/-- The namespaces of the sets that are open or opening (R338). -/
def State.namespaces (s : State) : List RecMemberId := s.net.rec_.flatMap (fun x => x.2.members.map RecMember.id)

/-- The set of `members` keeps within 16 namespaces and 16 controllers (R337). -/
def State.setFits (s : State) (members : List RecMemberId) : Bool :=
  let l := s.namespaces ++ members
  l.length ≤ 16 && (l.map (fun m => (m.port, m.down))).dedup.length ≤ 16

/-- REC_OPEN (R337 to R339): the member list of the command. A namespace belongs to one open set. -/
def execRecOpen (t : Nat) (r : Fin 4) (members : List RecMemberId) (s : State) : Host.Outcome State Fault Refusal :=
  let s := s.advance t
  .next (match s.svcTake r 0x10 with
    | none => s
    | some (e, s) =>
      let h := e.cmd.p0.toNat % 16
      let x := s.rech h
      let n := e.cmd.dlen.toNat / 8
      if e.cmd.dlen.toNat % 8 ≠ 0 || n = 0 || 16 < n || n ≠ members.length || members.any (fun m => 4 ≤ m.port.toNat) then
        s.complete e .invalidParam 0 0
      else if x.opened || x.opening.isSome || members.any (fun m => s.namespaces.contains m) || !members.Nodup then
        s.complete e .wrongState 0 0
      else if !s.setFits members then s.complete e .unsupported 0 0
      else
        let d := s.defer e
        if d.1 then d.2.setRech h {
            format := e.cmd.p0.getLsbD 8, wrap := e.cmd.p0.getLsbD 9, opening := some e
            members := members.map (fun m => { id := m }) }
          else d.2)

/-- A member is found usable behind a root port that works (R338). -/
def State.memberUsable (s : State) (x : RecMemberId × RecFound) : Bool := x.2.usable && s.working (pg .nvp (x.1.port.toNat % 4))

/-- The namespaces and controllers found on root port `i`, and its link (R337, R364). -/
def State.portFound (s : State) (members : List RecMemberId) (found : List RecFound) (i : Nat) : State :=
  let mine := (members.zip found).filter (fun x => x.1.port.toNat == i && s.memberUsable x)
  match mine with
  | [] => s
  | y :: _ =>
    let s := { s with net := { s.net with seen := (mine.map Prod.fst ++ s.net.seen).dedup } }
    let all := s.net.seen.filter (fun m => m.port.toNat == i)
    s.wrs (pg .nvp i) [(Reg.NVP_NVP_STAT_UP, 1), (Reg.NVP_NVP_STAT_SPEED, y.2.speed.toNat), (Reg.NVP_NVP_STAT_NS_CNT, all.length),
      (Reg.NVP_NVP_STAT_CTRL_CNT, (all.map RecMemberId.down).dedup.length)]

/-- REC_OPEN_DONE (R337 to R340): what is found at each member; the SET_ID of a set that is formatted. -/
def execRecOpenDone (t : Nat) (h : Fin 16) (found : List RecFound) (newId : Word) (s : State) :
    Host.Outcome State Fault Refusal :=
  let s := s.advance t
  let x := s.rech h
  match (if s.serviceRuns then x.opening else none) with
  | none => .next s
  | some e =>
    let s := s.each (List.range 4) (fun s i => s.portFound (x.members.map RecMember.id) found i)
    let ids := found.filterMap (fun f => f.hdr.map VolHeader.setId)
    .next (if found.length ≠ x.members.length || ((x.members.map RecMember.id).zip found).any (fun y => !s.memberUsable y) then
        (s.setRech h {}).complete e .unsupported 0 0
      else if !x.format && (ids.length != found.length || ids.any (fun i => i != ids.headD 0)) then
        (s.setRech h {}).complete e .notFound 0 0
      else
        let members := (x.members.zip found).map (fun (y : RecMember × RecFound) =>
          let n := chunkCount y.2.lbas
          match x.format, y.2.hdr with
          | false, some v => { y.1 with lbas := y.2.lbas, chunks := n, next := v.next.toNat, hdrSeq := v.seq, free := y.2.free }
          | _, _ => { y.1 with lbas := y.2.lbas, chunks := n, next := 0, hdrSeq := 0, free := n })
        let setId := if x.format then newId.toNat else (ids.headD 0).toNat
        let recs := if x.format then 0 else (found.filterMap (fun f => f.hdr.map (fun v => v.recordings.toNat))).foldl max 0
        let s := s.setRech h { x with opened := true, opening := none, setId := setId, members := members, recordings := recs }
        let s := s.each (List.range members.length) (fun s m =>
          let s := if x.format then s.nvmeIssue h m 5 0 0x09 16384 [] else s
          s.volumeHeader h m true)
        s.complete e .success setId (members.map RecMember.free).sum)

/-- The recording of handle `h` starts: its drains start (R335). -/
def State.recBegin (s : State) (h : Nat) : State :=
  let s := s.setRech h { s.rech h with
    running := true, ending := false, startAt := none, full := false, broken := false, seqs := [], prevs := [], items := []
    written := 0, samples := 0, progress := s.tick, flushing := false }
  s.each (s.recCtxs h) (fun s c => s.setDrain c false (s.drainHead c))

/-- The recording of handle `h` stops: its drains read what is written now, and stop (R335, R342). -/
def State.recHalt (s : State) (h : Nat) : State :=
  let s := s.setRech h { s.rech h with ending := true, stopAt := none }
  (s.each (s.recCtxs h) (fun s c => s.setDrain c false (s.drainStop c (s.drainOf c false)))).recSettle h

/-- REC_START (R330, R335). -/
def execRecStart (t : Nat) (r : Fin 4) (s : State) : Host.Outcome State Fault Refusal :=
  .next ((s.advance t).atOnce r 0x11 (fun s e =>
    let h := e.cmd.p0.toNat % 16
    let x := s.rech h
    let tick := e.cmd.p1.toNat
    if !x.opened || x.running || x.startAt.isSome || x.closing.isSome || x.stopping.isSome then (.wrongState, 0, 0, s)
    else if x.live.isEmpty then (.storageError, 0, 0, s)
    else if (x.nextMember 1).isNone then (.setFull, 0, 0, s)
    else if tick ≠ 0 ∧ tick ≤ s.tick then (.tickPast, 0, 0, s)
    else
      let n := x.recordings + 1
      let s := s.setRech h { x with recordings := n, number := n, startAt := if tick = 0 then none else some tick }
      (.success, n, 0, if tick = 0 then s.recBegin h else s)))

/-- REC_SCHEDULED_START (R330). -/
def execRecScheduledStart (t : Nat) (h : Fin 16) (s : State) : Host.Outcome State Fault Refusal :=
  let s := s.advance t
  .next (match (s.rech h).startAt with
    | some q => if q ≤ s.tick then s.recBegin h else s
    | none => s)

/-- REC_STOP (R330, R342, R343): now, or at the tick of P1. -/
def execRecStop (t : Nat) (r : Fin 4) (s : State) : Host.Outcome State Fault Refusal :=
  let s := s.advance t
  .next (match s.svcTake r 0x12 with
    | none => s
    | some (e, s) =>
      let h := e.cmd.p0.toNat % 16
      let x := s.rech h
      let tick := e.cmd.p1.toNat
      if !x.opened || x.stopping.isSome || !(x.running || x.startAt.isSome || x.full || x.broken) then s.complete e .wrongState 0 0
      else if x.broken then (s.setRech h { x with broken := false }).complete e .storageError x.written x.samples
      else if tick ≠ 0 ∧ tick ≤ s.tick then s.complete e .tickPast 0 0
      else
        let d := s.defer e
        if !d.1 then d.2
        else
          let s := d.2.setRech h { x with stopping := some e, stopAt := if tick = 0 then none else some tick }
          if tick ≠ 0 then s
          else if x.running then s.recHalt h
          else if x.startAt.isSome then (s.setRech h { s.rech h with startAt := none }).flushAll h true
          else s)

/-- REC_SCHEDULED_STOP (R330). -/
def execRecScheduledStop (t : Nat) (h : Fin 16) (s : State) : Host.Outcome State Fault Refusal :=
  let s := s.advance t
  let x := s.rech h
  .next (match x.stopAt with
    | some q =>
      if s.tick < q then s
      else if x.running then s.recHalt h
      else (s.setRech h { x with stopAt := none, startAt := none }).flushAll h true
    | none => s)

/-- REC_STOP_DONE (R342): every member has been flushed. -/
def execRecStopDone (t : Nat) (h : Fin 16) (s : State) : Host.Outcome State Fault Refusal :=
  let s := s.advance t
  let x := s.rech h
  .next (match (if s.serviceRuns then x.stopping else none) with
    | none => s
    | some e =>
      if x.running || x.stopAt.isSome || !x.durable then s
      else (s.setRech h { x with stopping := none, full := false }).complete e .success x.written x.samples)

/-- REC_CLOSE (R330, R342): every member is flushed first. -/
def execRecClose (t : Nat) (r : Fin 4) (s : State) : Host.Outcome State Fault Refusal :=
  let s := s.advance t
  .next (match s.svcTake r 0x13 with
    | none => s
    | some (e, s) =>
      let h := e.cmd.p0.toNat % 16
      let x := s.rech h
      if !x.opened || x.running || x.startAt.isSome || x.stopping.isSome || x.closing.isSome then s.complete e .wrongState 0 0
      else
        let d := s.defer e
        if !d.1 then d.2
        else if x.live.isEmpty then (d.2.setRech h {}).complete e .storageError 0 0
        else (d.2.setRech h { x with closing := some e }).flushAll h false)

/-! NVMe commands (R342, R343). -/

/-- What follows a command of kind `k` on chunk `id` (R342): data, then the header, then the index entry. -/
def State.chunkStep (s : State) (h k id : Nat) : State :=
  let x := s.rech h
  match smFind id x.writing with
  | none => s
  | some y =>
    if k = 0 then
      if x.cmds.any (fun d => d.chunk == id && d.kind == 0) then s
      else s.nvmeIssue h y.mem 1 id 0x01 (chunkLba y.num) (y.header x.setId).1
    else if k = 1 then s.nvmeIssue h y.mem 2 id 0x01 (indexLba y.num) (y.entry x.setId 2)
    else
      let s := s.setRech h { x with writing := smErase id x.writing, written := x.written + 1 }
      if !x.running && (smErase id x.writing).isEmpty then s.flushAll h true else s

/-- NVME_CMD_COMPLETE (R342): the oldest command outstanding at member `m` of handle `h`. -/
def execNvmeCmdComplete (t : Nat) (h m : Fin 16) (s : State) : Host.Outcome State Fault Refusal :=
  let s := s.advance t
  let x := s.rech h
  match x.cmds.find? (fun d => d.mem == m.val) with
  | none => .next s
  | some d =>
    if !s.runs (x.page m) then .next s
    else
    let s := s.setRech h { x with
      cmds := x.cmds.erase d, progress := s.tick
      flushed := if d.kind = 4 then m.val :: x.flushed else x.flushed }
    let port := x.page m - pg .nvp 0
    let s := { s with net := { s.net with
      wrote := (port, s.tick, d.data.length) :: s.net.wrote.filter (fun w => s.tick < w.2.1 + 1600000000) } }
    let s := if d.kind < 3 then s.chunkStep h d.kind d.chunk else s
    let y := s.rech h
    .next (match y.closing with
      | some e => if y.durable then (s.setRech h {}).complete e .success 0 0 else s
      | none => s)

/-- The write rate of root port `i` over the last second, in MB/s (R364). -/
def State.writeRate (s : State) (i : Nat) : Nat :=
  (((s.net.wrote.filter (fun w => w.1 == i && s.tick < w.2.1 + 1600000000)).map (fun w => w.2.2)).sum) / 10 ^ 6

/-- A chunk of a failed member placed on another (R343): REWRITTEN is set. -/
def RecHandle.rewrite (x : RecHandle) (y : RecChunk) : Option (RecChunk × RecHandle) := match x.nextMember y.kind with
  | some m => let r := x.allocate y.kind m; some ({ y with mem := m, num := r.1, rewritten := true }, r.2)
  | none => none

/-- PREV_CRC of the chunks in the writing that follow chunk `y`, whose header has changed (R341): at most `n` of them. -/
def RecHandle.rechain (x : RecHandle) : Nat → RecChunk → RecHandle
  | 0, _ => x
  | n + 1, y =>
    let crc := (y.header x.setId).2
    match x.writing.find? (fun w => w.2.kind == y.kind && w.2.seq == y.seq + 1) with
    | some (id, z) => { x with writing := smInsert id { z with prev := crc } x.writing }.rechain n { z with prev := crc }
    | none => if smGet 0 y.kind x.seqs = y.seq + 1 then { x with prevs := smSet 0 y.kind crc x.prevs } else x

/-- Member `m` of handle `h` has failed (R343): its queued chunks go to the remaining members; where none remains the handle
stops. -/
def State.memberFail (s : State) (h m : Nat) : State :=
  let x := s.rech h
  match x.members[m]? with
  | none => s
  | some y =>
    let s := (s.setRech h { x with
      members := x.members.set m { y with failed := true }, cmds := x.cmds.filter (fun d => d.mem != m)
      failAt := some s.tick }).event .nvp (x.page m - pg .nvp 0) 2
    let x := s.rech h
    if x.live.isEmpty then
      let s := s.setRech h { x with
        running := false, ending := false, startAt := none, stopAt := none, broken := true, fill := [], writing := [], cmds := []
        stopping := none, closing := none }
      let s := s.each (s.recCtxs h) (fun s c =>
        let a := s.actx c
        s.setActx c { a with recDrain := { a.recDrain with running := false, stop := none } })
      let s := match x.stopping with
        | some e => s.complete e .storageError x.written x.samples
        | none => s
      match x.closing with
      | some e => (s.setRech h {}).complete e .storageError 0 0
      | none => s
    else
      let s := s.each (x.writing.filter (fun w => w.2.mem == m)) (fun s w =>
        match (s.rech h).rewrite w.2 with
        | some (z, x) =>
          let x := { x with writing := smInsert w.1 z x.writing }
          ((s.setRech h (x.rechain x.writing.length z)).indexWriting h z).writeData h w.1 z
        | none => s.setRech h { s.rech h with writing := smErase w.1 (s.rech h).writing })
      let s := s.each (x.fill.filter (fun w => w.2.mem == m)) (fun s w =>
        match (s.rech h).rewrite w.2 with
        | some (z, x) => (s.setRech h { x with fill := smInsert w.1 z x.fill }).indexWriting h z
        | none => s)
      if (s.rech h).flushing && (s.rech h).writing.isEmpty then s.flushAll h (s.rech h).closing.isNone else s

/-- NVME_CMD_TIMEOUT (R343, R364): the oldest command at member `m` has exceeded CMD_TO. -/
def execNvmeCmdTimeout (t : Nat) (h m : Fin 16) (s : State) : Host.Outcome State Fault Refusal :=
  let s := s.advance t
  let x := s.rech h
  let p := x.page m
  match x.cmds.find? (fun d => d.mem == m.val) with
  | none => .next s
  | some d =>
    .next (if s.gated || s.tick < d.at_ + s.rd p Reg.NVP_NVP_CFG_CMD_TO * 1600000 then s
      else
        let cause := s.rel.nextCause
        let s := ((s.bumpSat p Reg.NVP_NVP_CNT_TIMEOUTS 1).setRech h { x with cause := cause }).event .nvp (p - pg .nvp 0) 3
        let x := s.rech h
        if d.tries < s.rd p Reg.NVP_NVP_CFG_RETRY_MAX then
          ((s.bumpSat p Reg.NVP_NVP_CNT_RETRIES 1).setRech h { x with
            cmds := x.cmds.map (fun e => if e = d then { d with tries := d.tries + 1, at_ := s.tick } else e) }).emit
              (.nvme (16 * h + m) d.op d.lba (outWords d.data))
        else s.memberFail h m)

/-- RECORDER_FLUSH (R342): at least once per second. -/
def execRecorderFlush (t : Nat) (h : Fin 16) (s : State) : Host.Outcome State Fault Refusal :=
  let s := s.advance t
  let x := s.rech h
  .next (if !x.opened || x.flushing || x.closing.isSome || s.gated then s
    else s.each x.live (fun s m => (s.volumeHeader h m true).nvmeIssue h m 4 0 0x00 0 []))

/-- RECORDER_PROGRESS_WD (R343, R534, R535): no command has completed for 2 s. The watchdog is held while a retry is pending and
while the clocks are gated; an expiry within 2 s of a member's failure is a consequent; any other marks the member with the
oldest command as failed. -/
def execRecorderProgressWd (t : Nat) (h : Fin 16) (s : State) : Host.Outcome State Fault Refusal :=
  let s := s.advance t
  let x := s.rech h
  .next (if s.gated || !x.running || x.cmds.isEmpty || x.cmds.any (fun d => d.tries != 0) || s.tick < x.progress + 3200000000 then s
    else
      let s := s.setRech h { x with progress := s.tick }
      let recent : Bool := match x.failAt with
        | some q => decide (s.tick ≤ q + 3200000000)
        | none => false
      match x.cmds with
      | [] => s
      | d :: _ =>
        if recent then s.logFault ⟨0, x.cause, true, 3, evId .nvp (x.page d.mem - pg .nvp 0) 2, s.tick⟩
        else s.memberFail h d.mem)

/-- A write of NVP_CLR (R364). -/
def State.nvpClr (s : State) (p : Nat) : State :=
  s.wrs (pg .nvp p) [(Reg.NVP_NVP_CNT_RETRIES, 0), (Reg.NVP_NVP_CNT_TIMEOUTS, 0)]

/-- NVP_CLR (R364). -/
def execNvpClr (t : Nat) (p : Fin 4) (s : State) : Host.Outcome State Fault Refusal :=
  .next ((s.advance t).hosted (pg .nvp p) 0x120 1 (fun s => s.nvpClr p))

/-- ROOT_PORT_LINK_DOWN (R364). -/
def execRootPortLinkDown (t : Nat) (p : Fin 4) (s : State) : Host.Outcome State Fault Refusal :=
  let s := s.advance t
  .next (if !s.on (pg .nvp p) Reg.NVP_NVP_STAT_UP then s
    else
      let s := { s with net := { s.net with seen := s.net.seen.filter (fun m => m.port.toNat != p.val) } }
      (s.wrs (pg .nvp p) [(Reg.NVP_NVP_STAT_UP, 0), (Reg.NVP_NVP_STAT_SPEED, 0), (Reg.NVP_NVP_STAT_NS_CNT, 0),
        (Reg.NVP_NVP_STAT_CTRL_CNT, 0)]).event .nvp p 0)

end Sys2Proof.Machine
end

