-- ==== Sys2Proof/Machine/Checks.lean ====
section
/-!
DEFINITION. What LOAD_EPOCH checks of an image (R163, R202, R233, R262, R292, R322, R392, R421, R438, R461, R485, R533), and
the pages that an image uses (R146).
-/
namespace Sys2Proof.Machine

/-- The state as an image alone would configure it: its pages and stores, and reset configuration elsewhere (R483). -/
def State.asImage (s : State) (img : Option EpochImage) : State :=
  let isCfg (k : Nat) : Bool := k < 2 ^ 40 && 0x100 ≤ k / 64 % 4096 && ((blkOf (k / 64 / 4096)).map imgBlk).getD false
  let s := { s with rf := s.rf.filter (fun y => !isCfg y.1) }
  let s := s.each ((imgPages img).filter (fun p => (imgRegs img p).isSome)) (fun s p => s.loadPage img p)
  let win := (List.range 64).foldl (fun m p => storeReplace 65536 p (imgStore img 2 p) m) []
  let seg := (List.range 64).foldl (fun m p => storeReplace 16384 p (imgStore img 3 p) m) []
  { s with xf := { s.xf with win := win, ctx := [] }, trg := { s.trg with store := seg }, epo := { s.epo with todo := [] } }

/-- The instances of a block that REGS sections of an image name. -/
def imgInst (img : Option EpochImage) (b : Blk) (n : Nat) : List Nat :=
  (List.range n).filter (fun i => (imgRegs img (pg b i)).isSome)

/-- The code of the first check that fails, each with whether it fails; 0 where none does. -/
def firstCode : List (Nat × Bool) → Nat
  | [] => 0
  | (k, true) :: _ => k
  | (_, false) :: l => firstCode l

/-! Ingest (R163), on the state as the image alone configures it. -/

/-- Per frame of link `l`: bits of samples, and 8 times the lanes; F is their quotient (R147). -/
def State.linkF (s : State) (l : Nat) : Nat × Nat :=
  let p := pg .lnk l
  ((s.rd p Reg.LNK_LINK_CFG_M_M1 + 1) * (s.rd p Reg.LNK_LINK_CFG_S_M1 + 1) * (if s.on p Reg.LNK_LINK_CFG_NP16 then 16 else 12),
    8 * (s.rd p Reg.LNK_LINK_CFG_L_M1 + 1))
def State.linkE (s : State) (l : Nat) : Nat := s.rd (pg .lnk l) Reg.LNK_LINK_CFG_E_M1 + 1
def State.linkK (s : State) (l : Nat) : Nat := s.rd (pg .lnk l) Reg.LNK_LINK_CFG_LEMC_K_M1 + 1

/-- The frame period of link `l` as a fraction of ticks: K × D × F / (8 × 256 × E) (R152, R157). -/
def State.framePeriod (s : State) (l : Nat) : Nat × Nat :=
  let f := s.linkF l
  (s.linkK l * s.rd (pg .clk 0) Reg.CLK_JESD_DIV_D_ACT * f.1, 8 * 256 * s.linkE l * f.2)

/-- Checks 0x01 to 0x06 of link `l`, among `links`. -/
def State.linkCode (s : State) (links : List Nat) (l : Nat) : Nat :=
  let p := pg .lnk l
  let np := if s.on p Reg.LNK_LINK_CFG_NP16 then 16 else 12
  let n := s.rd p Reg.LNK_LINK_CFG_N_M1 + 1
  let lanes := s.linkLanes l
  let f := s.linkF l
  let rate (x : Nat) := s.rd (lanePage x) Reg.LQD_QUAD_CFG_RATE_KBPS
  let real := lanes.filter (fun x => decide (x < 224))
  let d := s.rd (pg .clk 0) Reg.CLK_JESD_DIV_D_ACT
  firstCode [
    (0x01, n < 12 || np < n + s.rd p Reg.LNK_LINK_CFG_CS || 1 < s.rd p Reg.LNK_LINK_CFG_SUBCLASS ||
      !([1, 2].contains (s.rd p Reg.LNK_LINK_CFG_CHECK)) || 256 * f.2 < f.1 ||
      real.any (fun x => rate x < 8000000 || 32500000 < rate x)),
    (0x02, real.any (fun x => rate x != rate (real.headD 0))),
    (0x03, !lanes.Nodup || lanes.any (fun x => x < 112 * (l / 32) || 112 * (l / 32 + 1) ≤ x) ||
      links.any (fun k => k != l && (s.linkLanes k).any lanes.contains)),
    (0x04, f.1 % f.2 != 0 || (256 * s.linkE l * f.2) % f.1 != 0),
    (0x05, real.any (fun x => s.linkE l * 2112 * 12800000 != rate x * s.linkK l * d)),
    (0x06, decide (s.linkK l ≤ s.rd p Reg.LNK_LINK_CFG_RBD))]

/-- The map entries that feed slot `n`: link, Q and SAMP (R159). -/
def State.feeds (s : State) (links : List Nat) (n : Nat) : List (Nat × Nat × Nat) :=
  links.flatMap (fun l => (List.range 64).filterMap (fun e =>
    if s.on (pg .lnk l) (Reg.LNK_MAP_VALID e) && s.rd (pg .lnk l) (Reg.LNK_MAP_SLOT e) == n then
      some (l, s.rd (pg .lnk l) (Reg.LNK_MAP_Q e), s.rd (pg .lnk l) (Reg.LNK_MAP_SAMP e)) else none))

/-- Checks 0x07 to 0x0A of slot `n`. A slot that no entry feeds is unused (R159). -/
def State.slotCode (s : State) (links : List Nat) (n : Nat) : Nat :=
  let p := pg .slt n
  let fs := s.feeds links n
  let cplx := s.slotComplex n
  let b := s.rd p Reg.SLT_SLT_CFG_BOND_LOG2
  let per := s.framePeriod (fs.headD (0, 0, 0)).1
  let group := (List.range (2 ^ b)).map (fun i => n / 2 ^ b * 2 ^ b + i)
  let gl := (group.flatMap (fun m => (s.feeds links m).map (fun f => f.1))).eraseDups
  let k (l : Nat) := s.linkK l
  let one (l m : Nat) : Bool := let x := s.framePeriod l; let y := s.framePeriod m; x.1 * y.2 == y.1 * x.2
  let same (l m : Nat) : Bool := k l == k m && s.linkE l == s.linkE m &&
    s.rd (pg .lnk l) Reg.LNK_LINK_CFG_RBD == s.rd (pg .lnk m) Reg.LNK_LINK_CFG_RBD
  let l0 := gl.headD 0
  firstCode [
    (0x07, !fs.isEmpty && (if cplx then
      !(fs.length == 2 && (fs.map (fun f => f.1)).eraseDups.length == 1 && (fs.map (fun f => f.2.2)).eraseDups.length == 1 &&
        (fs.map (fun f => f.2.1)).contains 0 && (fs.map (fun f => f.2.1)).contains 1) else fs.length != 1)),
    (0x08, !fs.isEmpty && per.1 < (if cplx then 2 else 1) * per.2),
    (0x09, 4 < b || (b != 0 && (group.any (fun m => (s.feeds links m).isEmpty || s.rd (pg .slt m) Reg.SLT_SLT_CFG_BOND_LOG2 != b ||
        s.slotComplex m != cplx) || gl.any (fun l => !one l l0) ||
      (1 < gl.length && gl.any (fun l => s.rd (pg .lnk l) Reg.LNK_LINK_CFG_SUBCLASS != 1 || !same l l0))))),
    (0x0A, !fs.isEmpty && (let v := s.rd p Reg.SLT_SMP_PERIOD_PERIOD * per.2; let w := per.1 * 2 ^ 32; v + per.2 < w || w + per.2 < v))]

/-! Contexts (R202, R233, R292, R322). -/

/-- The view period that the registers of context `c` and its source give, in 2^-32 tick (R198). -/
def State.viewPer (s : State) (c : Nat) : Nat :=
  let n := s.srcSlot c
  s.rd (pg .slt n) Reg.SLT_SMP_PERIOD_PERIOD * 2 ^ s.rd (pg .ctx c) Reg.CTX_VIEW_CFG_DEC_LOG2 /
    2 ^ s.rd (pg .slt n) Reg.SLT_SLT_CFG_BOND_LOG2

/-- The pipelines of context `c`, in its list's order (R210). -/
def State.pipes (s : State) (c : Nat) : List Nat :=
  (List.range (s.rd (pg .ctx c) Reg.CTX_XF_CFG_PIPE_M1 + 1)).map (fun j => s.pipeOf c false j)

/-- The IC fields that contexts on one input share (R202). -/
def icFields : List Fld := ctxFields.filter (fun f => f.acc == .rw && 0x180 ≤ f.off && f.off < 0x280)

/-- Words of the window of context `c` (R207). -/
def State.winLen (s : State) (c : Nat) : Nat := if s.on (pg .ctx c) Reg.CTX_XF_WIN_SYM then s.xfN c / 2 else s.xfN c

/-- G_W of the window of context `c` in its lead pipeline, in 2^-31 (R207, R208). -/
def State.coherentGain (s : State) (c : Nat) : Int :=
  let base := s.rd (pg .ctx c) Reg.CTX_XF_WIN_BASE
  let n := s.winLen c
  let sum := (List.range n).foldl (fun (a : Int) i => a + signed 32 (s.winWord c (s.pipeOf c false 0) (base + i) false)) 0
  if s.on (pg .ctx c) Reg.CTX_XF_WIN_SYM then 2 * sum else sum

/-- The windows of two contexts that share a pipeline break R207: they overlap and are not identical. -/
def State.windowsClash (s : State) (c e : Nat) : Bool :=
  let b (x : Nat) := s.rd (pg .ctx x) Reg.CTX_XF_WIN_BASE
  let key (x : Nat) := (b x, s.xfN x, s.rd (pg .ctx x) Reg.CTX_XF_WIN_SYM)
  c != e && (s.pipes c).any (s.pipes e).contains && b c < b e + s.winLen e && b e < b c + s.winLen c && key c != key e

/-- Segment k of mask m of context `c` starts at this point. -/
def State.maskStarts (s : State) (c m : Nat) : List Nat :=
  (List.range (s.rd (pg .ctx c) (Reg.CTX_MASK_CFG_NSEG_M1 m) + 1)).map (fun k => (s.segment c m k).1)

/-- The words of mask m of context `c` in its lead pipeline's mask store (R267). -/
def State.maskSpan (s : State) (c m : Nat) : Nat × Nat :=
  (s.rd (pg .ctx c) (Reg.CTX_MASK_CFG_BASE m), s.rd (pg .ctx c) (Reg.CTX_MASK_CFG_NSEG_M1 m) + 1)

/-- The masks of the contexts `run` on the lead pipeline of context `c`, as (context, mask). -/
def State.leadMasks (s : State) (run : List Nat) (c : Nat) : List (Nat × Nat) :=
  (run.filter (fun e => s.pipeOf e false 0 == s.pipeOf c false 0)).flatMap (fun e =>
    ([0, 1].filter (fun m => s.on (pg .ctx e) (Reg.CTX_MASK_CFG_EN m))).map (fun m => (e, m)))

/-- A list rises strictly. -/
def rising : List Nat → Bool
  | a :: b :: l => a < b && rising (b :: l)
  | _ => true

/-- The areas and rings that context `c` places in capture memory, as kind (0 almanac, 1 raw, 2 spectral, 3 and 4 drain
rings), address and bytes (R296, R336). -/
def State.areas (s : State) (c : Nat) : List (Nat × Nat × Nat) :=
  let p := pg .ctx c
  let cap := [1, 2].contains (s.rd p Reg.CTX_CAP_CFG_MODE)
  ([(0, true, Reg.CTX_ALM_BASE_ADDR, Reg.CTX_ALM_SIZE_GRAN),
    (1, cap && s.on p Reg.CTX_CAP_CFG_RAW_EN, Reg.CTX_RAW_BASE_ADDR, Reg.CTX_RAW_SIZE_GRAN),
    (2, cap && s.on p Reg.CTX_SPEC_CFG_SPEC_EN, Reg.CTX_SPEC_BASE_ADDR, Reg.CTX_SPEC_SIZE_GRAN),
    (3, true, Reg.CTX_DRN_RAW_BASE_ADDR, Reg.CTX_DRN_RAW_SIZE_GRAN),
    (4, true, Reg.CTX_DRN_SPEC_BASE_ADDR, Reg.CTX_DRN_SPEC_SIZE_GRAN)].filter
      (fun x => x.2.1 && s.rd p x.2.2.2 != 0)).map (fun x => (x.1, s.rd p x.2.2.1, s.rd p x.2.2.2 * 4096))

/-- The buffers of enabled tone-mapper jobs, as 2 × job + buffer, address and bytes (R255). -/
def State.jobBufs (s : State) : List (Nat × Nat × Nat) :=
  ((List.range 32).filter (fun j => s.on tmpPage (Reg.TMP_JOB_CFG_EN j))).flatMap (fun j =>
    let h := (s.jobSize j).2
    let p := s.rd tmpPage (Reg.TMP_JOB_GEOM_PITCH j)
    let n := 4096 + h * p + (if s.jobKind j = 0 then h / 2 * p else 0)
    [(2 * j, s.jobBuf j 0, n), (2 * j + 1, s.jobBuf j 1, n)])

/-- Two spans of addresses meet. -/
def meet (a m b n : Nat) : Bool := a < b + n && b < a + m

/-- The areas that LIVE may still write until its captures end and its contexts switch, as context, kind, address and bytes
(R322). -/
def State.liveAreas (cur : State) : List (Nat × Nat × Nat × Nat) := cur.running.flatMap (fun c =>
  let d := (cur.actx c).desc
  let raw : Nat × Nat × Nat := (1, d.rawBase, cur.rd (pg .ctx c) Reg.CTX_RAW_SIZE_GRAN * 4096)
  let spec : Nat × Nat × Nat := (2, d.specBase, cur.rd (pg .ctx c) Reg.CTX_SPEC_SIZE_GRAN * 4096)
  let cap := if [1, 2, 3].contains (cur.capState c) then
    (if d.rawEn then [raw] else []) ++ (if d.specEn then [spec] else []) else []
  ((0, cur.rd (pg .ctx c) Reg.CTX_ALM_BASE_ADDR, cur.rd (pg .ctx c) Reg.CTX_ALM_SIZE_GRAN * 4096) :: cap).map (fun x => (c, x)))

/-- The codes and signals of R265, and the sources that must be enabled (R292). -/
def State.srcOk (s : State) (img : Option EpochImage) (code sig : Nat) : Bool :=
  if code < 0x800 then sig ≤ 2 && imgRuns img (code / 2) && s.on (pg .ctx (code / 2)) (Reg.CTX_MASK_CFG_EN (code % 2))
  else if code < 0x1000 then
    sig == 0 && imgRuns img ((code - 0x800) / 2) && s.on (pg .ctx ((code - 0x800) / 2)) (Reg.CTX_LVL_CFG_EN (code % 2))
  else if code < 0x1040 then sig == 0 && s.on (pg .den ((code - 0x1000) / 4)) (Reg.DEN_RGN_TRIG_EN (code % 4))
  else sig == 0 && (code < 0x1044 || (0x1048 ≤ code && code < 0x104E) || (0x1050 ≤ code && code < 0x10B0) ||
    (0x10C0 ≤ code && code < 0x1100) || code == 0x1FFF)

/-- Source `code` with SIG 0 is a pulse (R265). -/
def State.pulseSrc (s : State) (code : Nat) : Bool :=
  if code < 0x800 then false
  else if code < 0x1000 then 2 ≤ s.rd (pg .ctx ((code - 0x800) / 2)) (Reg.CTX_LVL_CFG_MODE (code % 2))
  else code < 0x1040 || (0x1060 ≤ code && code < 0x1100)

/-- The checks of the page of context `c`, among the contexts `run` of the image and the links `links`. -/
def State.ctxCode (s cur : State) (run links : List Nat) (c : Nat) : Nat :=
  let p := pg .ctx c
  let n := s.srcSlot c
  let b := s.rd (pg .slt n) Reg.SLT_SLT_CFG_BOND_LOG2
  let mode := s.rd p Reg.CTX_VIEW_CFG_MODE
  let k := s.rd p Reg.CTX_VIEW_CFG_DEC_LOG2
  let xf := s.xfRuns c false
  let kind := s.rd p Reg.CTX_XF_CFG_KIND
  let nlog := s.rd p Reg.CTX_XF_CFG_NLOG2
  let h := s.rd p Reg.CTX_XF_CFG_HOP_LOG2
  let f (r : Nat → Fld) (i : Nat) := s.rd p (r i)
  let avgBad (i : Nat) : Bool := let a := f Reg.CTX_TRC_CFG_AVG i; let e := f Reg.CTX_TRC_CFG_AVG_LOG2 i
    a == 3 || (a != 0 && (e == 0 || 16 < e))
  let base := s.rd p Reg.CTX_XF_WIN_BASE
  let st := s.storedTraces c
  let avgKey (i : Nat) := (f Reg.CTX_TRC_CFG_AVG i, f Reg.CTX_TRC_CFG_AVG_LOG2 i)
  let masks := [0, 1].filter (fun m => s.on p (Reg.CTX_MASK_CFG_EN m))
  let trg := s.rd p Reg.CTX_TRG_CFG_MODE
  let cap := s.rd p Reg.CTX_CAP_CFG_MODE
  let pol := s.rd p Reg.CTX_CAP_CFG_POLICY
  let specEn := s.on p Reg.CTX_SPEC_CFG_SPEC_EN
  let areas := s.areas c
  let others := (run.filter (fun e => e != c)).flatMap (fun e => s.areas e)
  firstCode [
    (0x10, b != 0 && run.any (fun e => e != c && s.srcSlot e == n && icFields.any (fun g => s.rd (pg .ctx e) g != s.rd p g))),
    (0x11, s.on p Reg.CTX_IC_CFG_IC_EN && (b == 0 || s.slotComplex n)),
    (0x12, mode == 3 || 16 < k || (mode == 0 && k != 0)),
    (0x13, n % 2 ^ (if b ≤ 4 then b else 0) != 0 || (s.feeds links n).isEmpty),
    (0x20, nlog < 5 || 16 < nlog || 8 < h || nlog < h),
    (0x21, 4 < kind || (List.range 4).any (fun i => 5 < f Reg.CTX_TRC_CFG_DET i || avgBad i ||
      (f Reg.CTX_TRC_CFG_DET i == 3 && f Reg.CTX_TRC_CFG_FMT i == 1))),
    (0x22, xf && !(s.pipes c).Nodup),
    (0x23, base % 16 != 0 || xf && (65536 < base + s.winLen c || s.coherentGain c ≤ 0 ||
      run.any (fun e => s.xfRuns e false && s.windowsClash c e))),
    (0x25, (List.range 4).any (fun i => let t := f Reg.CTX_TRC_CFG_TLOG2 i
        t < 4 || 16 < t || s.trcOn c i && s.xfBins c < f Reg.CTX_TRC_CFG_BIN_START i + 2 ^ (t + f Reg.CTX_TRC_CFG_BLOG2 i)) ||
      st.any (fun i => avgKey i != avgKey (st.headD 0))),
    (0x26, (kind == 1 && !s.on p Reg.CTX_XF_CFG_HDR) || (3 ≤ kind && st.isEmpty) || (kind == 4 && [1, 2].contains cap && specEn &&
      (s.rd p Reg.CTX_SPEC_SIZE_GRAN * 4096) % s.specRecBytes c != 0)),
    (0x31, masks.any (fun m =>
      let i := f Reg.CTX_MASK_CFG_TRC m
      let w := s.maskSpan c m
      let xs := s.maskStarts c m
      !s.trcOn c i || f Reg.CTX_TRC_CFG_FMT i != 0 || xs.headD 0 != 0 || !rising xs || s.tracePoints c i ≤ xs.getLastD 0 ||
        16384 < w.1 + w.2 || (s.leadMasks run c).any (fun y => y != (c, m) && (let v := s.maskSpan y.1 y.2; meet w.1 w.2 v.1 v.2)))),
    (0x32, [0, 1].any (fun l => s.on p (Reg.CTX_LVL_CFG_EN l) && (4 < f Reg.CTX_LVL_CFG_MODE l ||
      (f Reg.CTX_LVL_CFG_SEL l == 1 && !(if f Reg.CTX_LVL_CFG_TAP l = 0 then s.slotComplex n else s.viewComplex c))))),
    (0x35, ((trg == 1 || trg == 2) && !s.on p Reg.CTX_TRG_CFG_UNIT_EN) ||
      (trg == 3 && !s.on p (Reg.CTX_MASK_CFG_EN (s.rd p Reg.CTX_TRG_CFG_STOP_MASK)))),
    (0x38, cap == 3 || pol == 3 || ([1, 2].contains cap && !s.on p Reg.CTX_CAP_CFG_RAW_EN && !specEn) || (specEn && kind == 0) ||
      (s.recBound c && s.rd p Reg.CTX_REC_BIND_CONTENT == 0) || (s.strBound c && s.rd p Reg.CTX_STR_BIND_CONTENT == 0)),
    (0x39, areas.any (fun x => x.2.1 % 4096 != 0 || anyGranule x.2.1 x.2.2 s.beyond ||
      (others ++ s.jobBufs).any (fun y => meet x.2.1 x.2.2 y.2.1 y.2.2) ||
      areas.any (fun y => x.1 < y.1 && meet x.2.1 x.2.2 y.2.1 y.2.2))),
    (0x3A, s.rd p Reg.CTX_ALM_SIZE_GRAN < 4),
    (0x3B, pol == 1 && (cap != 1 || !(s.recBound c || s.strBound c))),
    (0x3C, areas.any (fun x => cur.liveAreas.any (fun y => meet x.2.1 x.2.2 y.2.2.1 y.2.2.2 && y != (c, x))))]

/-- Checks 0x22 and 0x24 of pipeline `q` (R203, R233). -/
def State.pipeCode (s : State) (run : List Nat) (q : Nat) : Nat :=
  let on := run.filter (fun c => s.xfRuns c false && (s.pipes c).contains q)
  firstCode [(0x22, 16 < on.length), (0x24, 262144 < (on.map (fun c => 2 * s.xfN c)).sum)]

/-! Density and the tone mapper (R262). -/

/-- The ticks, in 2^-32, from one trace i of context `c` to the next (R227, R242). -/
def State.tracePer (s : State) (c i : Nat) : Nat :=
  s.viewPer c * s.xfHop c * (if s.trcAvg c i = 2 then 2 ^ s.rd (pg .ctx c) (Reg.CTX_TRC_CFG_AVG_LOG2 i) else 1)

/-- The checks of density unit `u`. -/
def State.denCode (s : State) (u : Nat) : Nat :=
  let p := pg .den u
  let bound := s.on p Reg.DEN_DEN_CFG_BIND
  let c := s.rd p Reg.DEN_DEN_CFG_CTX
  let i := s.rd p Reg.DEN_DEN_CFG_TRC
  let mode := s.rd p Reg.DEN_DECAY_CFG_MODE
  let per := s.tracePer c i
  let use := s.denUse u
  let n := if s.ganged u then 4 else 1
  firstCode [
    (0x28, bound && (!s.trcOn c i || s.rd (pg .ctx c) (Reg.CTX_TRC_CFG_FMT i) != 0 || (s.denOf c).length != 1)),
    (0x29, (u % 4 != 0 && s.on p Reg.DEN_DEN_CFG_GANG) || (u % 4 != 0 && s.ganged (u / 4 * 4) && bound)),
    (0x2A, bound && (use < 16 || s.denCols u < use || 12 < s.rd p Reg.DEN_DEN_CFG_ROW_LOG2)),
    (0x2B, bound && 16 * per * n < s.tracePoints c i * 2 ^ 32),
    (0x2C, bound && (mode == 3 || (mode == 1 && s.rd p Reg.DEN_DECAY_CFG_D == 0) || (mode == 2 && s.rd p Reg.DEN_DECAY_CFG_SUB == 0) ||
      (mode != 0 && s.rd p Reg.DEN_DECAY_CFG_PERIOD * per < 16384 * 2 ^ 32))),
    (0x2D, bound && (List.range 4).any (fun r => s.on p (Reg.DEN_RGN_TRIG_EN r) &&
      (s.denCols u ≤ s.rd p (Reg.DEN_RGN_BOX_COL_HI r) || s.denRows u ≤ s.rd p (Reg.DEN_RGN_BOX_ROW_HI r) ||
        s.rd p (Reg.DEN_RGN_BOX_COL_HI r) < s.rd p (Reg.DEN_RGN_BOX_COL_LO r) ||
        s.rd p (Reg.DEN_RGN_BOX_ROW_HI r) < s.rd p (Reg.DEN_RGN_BOX_ROW_LO r))))]

/-- FCLK that one readout of job `j` takes, and the ticks between its readouts as a fraction (R253). -/
def State.jobTime (s : State) (j : Nat) : Nat × Nat × Nat :=
  let u := s.rd tmpPage (Reg.TMP_JOB_SRC_DEN_SEL j)
  let z := s.jobSize j
  let work := if s.jobKind j = 1 then (z.1 * z.2 + 63) / 64 else (s.denUse u * s.denRows u + 3) / 4
  match s.rd tmpPage (Reg.TMP_JOB_CFG_SYNC j) with
  | 0 => (work, s.rd tmpPage (Reg.TMP_JOB_PERIOD_PERIOD j), 1)
  | h => let rd (f : Fld) := s.rd (pg .dsp (h - 1)) f; (work, hTotal rd * vTotal rd * pclkDiv rd, 2 ^ 27)

/-- The readouts of all jobs take more than one second per second (R262). -/
def State.jobsLate (s : State) (on : List Nat) : Bool :=
  let q := on.foldl (fun (q : Nat × Nat) j => let x := s.jobTime j; (q.1 * x.2.1 + q.2 * x.1 * x.2.2, q.2 * x.2.1)) (0, 1)
  q.2 < q.1

/-- The checks of the TMP page. -/
def State.tmpCode (s : State) (run : List Nat) : Nat :=
  let on := (List.range 32).filter (fun j => s.on tmpPage (Reg.TMP_JOB_CFG_EN j))
  let f (r : Nat → Fld) (j : Nat) := s.rd tmpPage (r j)
  let areas := run.flatMap (fun c => s.areas c)
  let bufs := s.jobBufs
  firstCode [
    (0x2B, on.any (fun j => s.jobKind j == 1 && (let c := f Reg.TMP_JOB_SRC_CTX j; let i := f Reg.TMP_JOB_SRC_TRC j
      s.trcOn c i && 16 * s.tracePer c i < s.tracePoints c i * 2 ^ 32))),
    (0x2E, on.any (fun j => 4096 < (s.jobSize j).1 || 2048 < (s.jobSize j).2 || 4 < f Reg.TMP_JOB_CFG_HREP j ||
        2 < f Reg.TMP_JOB_CFG_VREP j || f Reg.TMP_JOB_GEOM_PITCH j % 64 != 0) ||
      bufs.any (fun x => x.2.1 % 4096 != 0 || anyGranule x.2.1 x.2.2 s.beyond ||
        bufs.any (fun y => x.1 != y.1 && meet x.2.1 x.2.2 y.2.1 y.2.2) ||
        areas.any (fun y => meet x.2.1 x.2.2 y.2.1 y.2.2)) || s.jobsLate on),
    (0x2F, on.any (fun j => f Reg.TMP_JOB_CFG_KIND j == 3 || f Reg.TMP_JOB_CFG_SYNC j == 3))]

/-! Trigger units and the router (R292). -/

/-- The units whose output an enabled unit `u` takes (R281). -/
def State.truDeps (s : State) (u : Nat) : List Nat :=
  if !s.on (pg .tru u) Reg.TRU_TRU_CFG_EN then []
  else ((List.range (if s.on (pg .tru u) Reg.TRU_TRU_CFG_SEQ_EN then 9 else 8)).map (fun i => (s.truSel u i).1)).filterMap
    (fun k => if 0x10C0 ≤ k ∧ k < 0x1100 ∧ s.on (pg .tru (k - 0x10C0)) Reg.TRU_TRU_CFG_EN then some (k - 0x10C0) else none)

/-- The checks of trigger unit `u`: a chain of more than eight units, a loop among them, has a ninth unit. -/
def State.truCode (s : State) (img : Option EpochImage) (u : Nat) : Nat :=
  let on := s.on (pg .tru u) Reg.TRU_TRU_CFG_EN
  firstCode [
    (0x30, on && (List.range (if s.on (pg .tru u) Reg.TRU_TRU_CFG_SEQ_EN then 9 else 8)).any (fun i =>
      let x := s.truSel u i; !s.srcOk img x.1 x.2.1)),
    (0x33, on && !((List.range 8).foldl (fun l _ => (l.flatMap (fun t => s.truDeps t)).eraseDups) [u]).isEmpty)]

/-- The checks of the TRN page. -/
def State.trnCode (s : State) (img : Option EpochImage) : Nat :=
  let p := pg .trn 0
  let tout := (List.range 8).filter (fun k => s.on p (Reg.TRN_TOUT_CFG_EN k))
  let pout := (List.range 8).filter (fun k => s.on p (Reg.TRN_POUT_CFG_EN k))
  let dlt := (List.range 6).filter (fun k => s.on p (Reg.TRN_DLT_SRC_EN k))
  let srcs := tout.map (fun k => s.rd p (Reg.TRN_TOUT_CFG_SRC k)) ++ pout.map (fun k => s.rd p (Reg.TRN_POUT_CFG_SRC k)) ++
    dlt.map (fun k => s.rd p (Reg.TRN_DLT_SRC_SRC k))
  let wait := s.rd p Reg.TRN_REC_CFG_COINC_WAIT
  firstCode [
    (0x30, srcs.any (fun k => !s.srcOk img k 0)),
    (0x34, tout.any (fun k => s.rd p (Reg.TRN_TOUT_CFG_WIDTH k) < 8 ||
      (s.on p (Reg.TRN_TOUT_CFG_MODE k) && s.pulseSrc (s.rd p (Reg.TRN_TOUT_CFG_SRC k)))) ||
      dlt.any (fun k => s.rd p (Reg.TRN_DLT_SRC_WIDTH k) < 8)),
    (0x35, wait < 8 || 1024 < wait)]

/-! Display, memory, banks and cores (R392, R421, R438, R461). -/

/-- The checks of display head `h`. -/
def State.dspCode (s : State) (h : Nat) : Nat :=
  let rd (f : Fld) := s.rd (pg .dsp h) f
  let k := dspTimingCode rd
  if k ≠ 0 then k else s.layersCode rd (fun j => s.jobCheck j)

/-- Words of one deposit record of context `c`, its frame word among them (R433). -/
def State.depositWords (s : State) (c what : Nat) : Nat := match what with
  | 0 => 1 + s.xfBins c
  | 1 => 1 + (2 * s.xfBins c + 7) / 8
  | _ => 1 + (((s.storedTraces c).map (fun i => s.traceBytes c i)).sum + 7) / 8

/-- The checks of bank `b`. -/
def State.bnkCode (s : State) (img : Option EpochImage) (b : Nat) : Nat :=
  let p := pg .bnk b
  let o := s.rd p Reg.BNK_BNK_OWN_OWNER
  let a := s.rd p Reg.BNK_BNK_OWN_B_AGENT
  let c := s.rd p Reg.BNK_DEP_CFG_CTX
  let what := s.rd p Reg.BNK_DEP_CFG_WHAT
  let r := s.depositWords c what
  let len := s.rd p Reg.BNK_DEP_RING_LEN
  firstCode [
    (0x50, !ownOk o a || (isPortB o && a != 0x7F) || (o != 0x7F && s.bank.unavailable.contains b)),
    (0x51, s.on p Reg.BNK_DEP_CFG_EN && (what == 3 || !imgRuns img c || !s.xfRuns c false || (what == 2 && (s.storedTraces c).isEmpty) ||
      (what == 0 && o != 0x60 && a != 0x60) || len < r || 0x20000 < s.rd p Reg.BNK_DEP_RING_BASE + len ||
      s.viewPer c * s.xfHop c * 2 ^ s.rd p Reg.BNK_DEP_CFG_EVERY_LOG2 < r * 2 ^ 32))]

/-- Bundles of the program that an image gives core `n` (R458). -/
def imgBundles (img : Option EpochImage) (n : Nat) : Nat := ((imgSecs img 5 n).map secLen).foldl max 0

/-- Check 0x58 of core `n`; check 0x59, of a core whose page cannot reach ON (R461). -/
def State.scrCode (s : State) (img : Option EpochImage) (n : Nat) : Nat :=
  let p := pg .scr n
  let on := s.on p Reg.SCR_SCR_CFG_EN
  let k := imgBundles img n
  firstCode [(0x58, 8192 < k || (on && (k == 0 || k ≤ s.rd p Reg.SCR_SCR_CFG_ENTRY))),
    (0x59, on && (s.pstate p != 0 || s.on p Reg.PG_STAT_SRST_BUSY))]

/-! The image as a whole (R485). -/

/-- Check 0x60: the header, and where sections lie. -/
def imgHeaderBad (i : EpochImage) (dlen : Nat) : Bool :=
  let end_ (x : ImgSection) := x.offset.toNat + x.length.toNat
  i.magic != 0x31474D494F504558#64 || i.format != 1 || i.sections.toNat == 0 || 126 < i.sections.toNat ||
    i.sections.toNat != i.secs.length || i.length.toNat != dlen || 2 ^ 30 < i.length.toNat ||
    i.secs.any (fun x => x.offset.toNat % 8 != 0 || x.offset.toNat < 0x1000 || i.length.toNat < end_ x) ||
    i.secs.zipIdx.any (fun x => i.secs.zipIdx.any (fun y => x.2 < y.2 && meet x.1.offset.toNat x.1.length.toNat
      y.1.offset.toNat y.1.length.toNat))

/-- Check 0x61 of a section. -/
def imgKindBad (x : ImgSection) : Bool := match x.kind.toNat with
  | 1 => (List.range x.count.toNat).any (fun k => !((blkOf (x.first.toNat + k)).map imgBlk).getD false)
  | 2 => 64 ≤ x.first.toNat || 65536 < secBase x + secLen x
  | 3 => 64 ≤ x.first.toNat || 16384 < secBase x + secLen x
  | 4 => 4 ≤ x.first.toNat || 1024 < secLen x
  | 5 | 6 => decide (64 ≤ x.first.toNat)
  | _ => true

/-- Check 0x62: two sections configure the same thing. -/
def imgClash (x y : ImgSection) : Bool := x.kind == y.kind && (match x.kind.toNat with
  | 1 => meet x.first.toNat x.count.toNat y.first.toNat y.count.toNat
  | 2 | 3 => x.first == y.first && meet (secBase x) (secLen x) (secBase y) (secLen y)
  | 6 => x.first == y.first && x.count &&& y.count != 0
  | _ => x.first == y.first)

/-- Check 0x63 of link `l`, which both epochs use. -/
def linkMoved (live img : Option EpochImage) (l : Nat) : Bool :=
  let used (i : Option EpochImage) : Bool := (imgRegs i (pg .lnk l)).isSome
  let diff (p : Nat) (offs : List Nat) : Bool := (imgFields p).any (fun f => offs.contains f.off && imgField live p f != imgField img p f)
  let lanes := (List.range (imgField img (pg .lnk l) Reg.LNK_LINK_CFG_L_M1 + 1)).map (fun j =>
    if j < 8 then imgField img (pg .lnk l) (Reg.LNK_LANE_MAP0_PHYS j) else imgField img (pg .lnk l) (Reg.LNK_LANE_MAP1_PHYS (j - 8)))
  used live && used img && (diff (pg .lnk l) [0x100, 0x108, 0x110] || lanes.any (fun x => diff (lanePage x) [0x100]))

/-- The code of page `p`'s checks. -/
def State.pageCode (s cur : State) (img : Option EpochImage) (run links : List Nat) (noPath : Option (Fin 4096)) (p : Nat) : Nat :=
  let i := instOf p
  let named := (imgRegs img p).isSome
  let k := match blkOf p with
    | some .lnk => if named then s.linkCode links i else 0
    | some .slt => s.slotCode links i
    | some .ctx => if named then s.ctxCode cur run links i else 0
    | some .xfp => s.pipeCode run i
    | some .den => s.denCode i
    | some .tmp => s.tmpCode run
    | some .tru => if named then s.truCode img i else 0
    | some .trn => s.trnCode img
    | some .dsp => if named then s.dspCode i else 0
    | some .mst => if i = 0 && 256 < ((List.range 64).map (fun k => s.rd (pg .mst (k / 16)) (Reg.MST_CLASS_MIN_SHARE (k / 16) (k % 16)))).sum
        then 0x48 else 0
    | some .bnk => s.bnkCode img i
    | some .scr => s.scrCode img i
    | _ => 0
  if k ≠ 0 then k else if (noPath.map (fun (q : Fin 4096) => q.val)) == some p then 0x68 else 0

/-- The first check that an image fails, as (page, code): header and sections, links in use, then every page in order
(R484, R485). `noPath` is a page whose stream finds both of its paths out of service (R533). -/
def State.imgRefusal (s : State) (i : EpochImage) (dlen : Nat) (noPath : Option (Fin 4096)) : Option (Nat × Nat) :=
  let img := some i
  if imgHeaderBad i dlen then some (0xFFFF, 0x60)
  else if i.secs.any imgKindBad then some (0xFFFF, 0x61)
  else if i.secs.zipIdx.any (fun x => i.secs.zipIdx.any (fun y => x.2 < y.2 && imgClash x.1 y.1)) then some (0xFFFF, 0x62)
  else match (List.range 64).find? (fun l => linkMoved s.epo.live img l) with
    | some l => some (pg .lnk l, 0x63)
    | none =>
      let a := s.asImage img
      let run := imgInst img .ctx 1024
      let links := imgInst img .lnk 64
      (List.range 4096).findSome? (fun p =>
        let k := a.pageCode s img run links noPath p
        if k = 0 then none else some (p, k))

/-! The pages that an epoch uses (R146). -/

/-- The pages of the NVMe ports and the Ethernet ports that the bindings of context `c` reach. -/
def State.boundPages (s a : State) (c : Nat) : List Nat :=
  (if a.recBound c then
    let x := s.rech (a.rd (pg .ctx c) Reg.CTX_REC_BIND_HANDLE)
    (List.range x.members.length).map (fun m => x.page m) else []) ++
  (if a.strBound c then match (s.strs (a.rd (pg .ctx c) Reg.CTX_STR_BIND_SLOT)).desc with
    | some d => (streamPorts d).map (fun e => pg .eth e)
    | none => [] else [])

/-- The pages that an image uses: those that its sections name or reach, those that its contexts' views, transforms and
bindings reach, the owners of its banks and the targets of its event routes (R146; notes/assumptions/31). -/
def State.usedPages (s : State) (img : Option EpochImage) : List Nat := match img with
  | none => []
  | some _ =>
    let a := s.asImage img
    let run := imgInst img .ctx 1024
    let owner (b : Nat) : List Nat :=
      [a.rd (pg .bnk b) Reg.BNK_BNK_OWN_OWNER, a.rd (pg .bnk b) Reg.BNK_BNK_OWN_B_AGENT].filterMap (fun k =>
        if k < 0x40 then some (pg .scr k) else if 0x50 ≤ k ∧ k < 0x60 then some (pg .dma (k - 0x50)) else none)
    let target (h i j : Nat) : List Nat :=
      let r := a.rd (pg .eva h) (Reg.EVA_ROUTE_R i j)
      if bit r 15 = 0 then [] else match bits r 14 12 with
        | 2 => [pg .scr (bits r 5 0)]
        | 4 => [pg .dlb 0]
        | _ => []
    (imgPages img ++
      (if run.isEmpty then [] else [pg .acq 0]) ++
      run.flatMap (fun c => (if a.xfRuns c false then (a.pipes c).map (fun q => pg .xfp q) else []) ++ s.boundPages a c) ++
      (if (imgInst img .tru 64).isEmpty then [] else [pg .trn 0]) ++
      (imgInst img .bnk 64).flatMap owner ++
      (imgInst img .eva 2).flatMap (fun h => (List.range 256).flatMap (fun i => (List.range 4).flatMap (fun j => target h i j)))).eraseDups

end Sys2Proof.Machine
end

