-- ==== Sys2Proof/Machine/Comparators.lean ====
section
/-!
DEFINITION. The window comparators and their ramps, in comparator time: the tick counter less the gated intervals (R516 to
R523, R526).
-/
namespace Sys2Proof.Machine

/-- Comparator `k` and ramp `r` beyond their registers. -/
def State.cmpCh (s : State) (k : Nat) : CmpCh := smGet {} k s.cmp.ch
def State.setCmpCh (s : State) (k : Nat) (x : CmpCh) : State := { s with cmp := { s.cmp with ch := smSet {} k x s.cmp.ch } }
def State.cmpRamp (s : State) (r : Nat) : RampSt := smGet {} r s.cmp.ramp
def State.setCmpRamp (s : State) (r : Nat) (x : RampSt) : State :=
  { s with cmp := { s.cmp with ramp := smSet {} r x s.cmp.ramp } }

/-- Comparator time (R144, R523): it holds while the clocks are gated or the page is in IDLE. -/
def State.cmpTime (s : State) : Nat :=
  let raw := if s.gated then s.clk.gateAt else s.tick
  (match smFind (pg .cmp 0) s.page.lowAt with
   | some a => min a raw
   | none => raw) - s.cmp.off

/-- The comparators work (R42, R144, R523): with their clocks, or through the asynchronous path. -/
def State.cmpLive (s : State) : Bool := s.enAct (pg .cmp 0) == 1 && (s.pstateAct (pg .cmp 0) == 0 || s.pstateAct (pg .cmp 0) == 1)

/-- Comparator `k` is enabled, and ramp `r` runs (R526). -/
def State.cmpOn (s : State) (k : Nat) : Bool := s.on (pg .cmp 0) (Reg.CMP_CMP_CFG_EN k)
def State.rampOn (s : State) (r : Nat) : Bool := s.on (pg .cmp 0) (Reg.CMP_RAMP_CFG_EN r)

/-- R_r at comparator time `ct`, with 16 fraction bits (R517). -/
def State.rampVal (s : State) (r ct : Nat) : Int :=
  let x := s.cmpRamp r
  let slope := if s.rampOn r then s.rdS (pg .cmp 0) (Reg.CMP_RAMP_CFG_SLOPE r) else 0
  clampInt 0 (s.rd (pg .cmp 0) (Reg.CMP_RAMP_CFG_LIMIT r) * 65536 : Nat) (x.val + slope * ((ct - x.at_ : Nat) : Int))

/-- Ramp `r` reset (R517). -/
def State.rampReset (s : State) (r ct : Nat) : State :=
  let p := pg .cmp 0
  let v : Int := if 0 ≤ s.rdS p (Reg.CMP_RAMP_CFG_SLOPE r) then 0 else (s.rd p (Reg.CMP_RAMP_CFG_LIMIT r) * 65536 : Nat)
  s.setCmpRamp r { s.cmpRamp r with val := v, at_ := ct }

/-- A threshold code in force (R516): the DC code, with the ramp added or subtracted. -/
def cmpCode (c : Nat) (en sub : Bool) (r : Int) : Int :=
  clampInt 0 4095 (if en then (if sub then (c : Int) - r / 65536 else (c : Int) + r / 65536) else (c : Int))

/-- The HI and LO codes in force for comparator `k` (R516). -/
def State.cmpHi (s : State) (k ct : Nat) : Int :=
  let p := pg .cmp 0
  cmpCode (s.rd p (Reg.CMP_CMP_DAC_HI k)) (s.on p (Reg.CMP_CMP_CFG_HI_RAMP_EN k)) (s.on p (Reg.CMP_CMP_CFG_HI_RAMP_SUB k))
    (s.rampVal (s.rd p (Reg.CMP_CMP_CFG_HI_RAMP k)) ct)
def State.cmpLo (s : State) (k ct : Nat) : Int :=
  let p := pg .cmp 0
  cmpCode (s.rd p (Reg.CMP_CMP_DAC_LO k)) (s.on p (Reg.CMP_CMP_CFG_LO_RAMP_EN k)) (s.on p (Reg.CMP_CMP_CFG_LO_RAMP_SUB k))
    (s.rampVal (s.rd p (Reg.CMP_CMP_CFG_LO_RAMP k)) ct)

/-- A code and a voltage in µV in one unit, 1/4,096 µV: a code is 1.8 V / 4,096 (R516). -/
def codeUnits (c : Int) : Int := c * 1800000
def uvUnits (uv : Int) : Int := uv * 4096

/-- The hysteresis of comparator `k` in that unit (R518). -/
def State.cmpHyst (s : State) (k : Nat) : Int := uvUnits (min (s.rd (pg .cmp 0) (Reg.CMP_CMP_CFG_HYST k)) 16 * 2500 : Nat)

/-- The HI half after one FCLK (R518): the half as it was, the input, HI and the hysteresis, in one unit. -/
def hiHalf (was : Bool) (v hi h : Int) : Bool := if hi < v then true else if v < hi - h then false else was
/-- The LO half. -/
def loHalf (was : Bool) (v lo h : Int) : Bool := if v < lo then true else if lo + h < v then false else was

/-- The window value (R518). -/
def windowOf (sel : Nat) (hi lo : Bool) : Bool :=
  match sel with
  | 0 => hi | 1 => lo | 2 => hi || lo | _ => !hi && !lo

/-- The ramp whose reset starts the blanking of comparator `k` (R519). -/
def State.blankRamp (s : State) (k : Nat) : Nat :=
  let p := pg .cmp 0
  if s.on p (Reg.CMP_CMP_CFG_HI_RAMP_EN k) then s.rd p (Reg.CMP_CMP_CFG_HI_RAMP k) else 0

/-- A bit of a field of the CMP page. -/
def State.cmpBit (s : State) (f : Fld) (k : Nat) : Bool := (s.rd (pg .cmp 0) f).testBit k
def State.setCmpBit (s : State) (f : Fld) (k : Nat) (b : Bool) : State := s.wr (pg .cmp 0) f (putBit (s.rd (pg .cmp 0) f) k b)

/-- The direct PROT_OUT routes of a comparator work while the clocks are gated (R523). -/
def State.cmpPout (s : State) (code : Nat) (v : Bool) (t : Nat) : State :=
  let p := pg .trn 0
  s.each (List.range 8) (fun s k =>
    if !s.on p (Reg.TRN_POUT_CFG_EN k) || s.rd p (Reg.TRN_POUT_CFG_SRC k) != code then s
    else if s.on p (Reg.TRN_POUT_CFG_LATCH k) then (if v then s.setOut (8 + k) true t else s) else s.setOut (8 + k) v t)

/-- Output o of comparator `k` at `v` from tick `t`, with the stamp of the crossing (R520, R522). -/
def State.cmpOut (s : State) (k : Nat) (v : Bool) (t : Nat) (stamp : SubTick) : State :=
  let p := pg .cmp 0
  let s := s.setCmpBit Reg.CMP_CMP_STAT_OUT k v
  let s := s.setCmpBit Reg.CMP_CMP_LATCH_LAT k (v && s.rd p (Reg.CMP_CMP_CFG_LATCH k) == 1)
  let s := if s.pstateAct p = 0 then s.sourceLevel (0x1050 + k) v t 4 stamp else s
  let s := if s.gated || s.pstateAct p != 0 then s.cmpPout (0x1050 + k) v t else s
  s.setRaw (evId .cmp 0 k) v

/-- One FCLK of comparator `k` (R520, steps 3 to 8): `ramps` are the ramps reset in it, `clr` the latches that CMP_LATCH clears. The
second part says that o rose. -/
def State.cmpEval (s : State) (k ct t : Nat) (stamp : SubTick) (ramps : List Nat) (clr : Nat) : State × Bool :=
  let p := pg .cmp 0
  let x := s.cmpCh k
  if !s.cmpOn k || x.enabling || !s.cmpLive then (s, false)
  else
    let v := uvUnits x.uv
    let h := s.cmpHyst k
    let hiT := codeUnits (s.cmpHi k ct)
    let loT := codeUnits (s.cmpLo k ct)
    let hi := hiHalf (s.cmpBit Reg.CMP_CMP_LVL_HI_NOW k) v hiT h
    let lo := loHalf (s.cmpBit Reg.CMP_CMP_LVL_LO_NOW k) v loT h
    let s := (s.setCmpBit Reg.CMP_CMP_LVL_HI_NOW k hi).setCmpBit Reg.CMP_CMP_LVL_LO_NOW k lo
    let s := if hiT < v ∨ v < hiT - h then s.setCmpBit Reg.CMP_CMP_LVL_UNRES_HI k false else s
    let s := if v < loT ∨ loT + h < v then s.setCmpBit Reg.CMP_CMP_LVL_UNRES_LO k false else s
    let w := windowOf (s.rd p (Reg.CMP_CMP_CFG_OUT_SEL k)) hi lo && !decide (ct < x.blankTo)
    let latch := s.rd p (Reg.CMP_CMP_CFG_LATCH k)
    let was := s.cmpBit Reg.CMP_CMP_STAT_OUT k
    let o := match latch with
      | 1 => (was && !(clr.testBit k && !w)) || (w && !x.w)
      | 2 => (was && !(ramps.contains (s.rd p (Reg.CMP_CMP_CFG_LCLR_RAMP k)) && !w)) || (w && !x.w)
      | _ => w
    let s := s.setCmpCh k { x with w := w }
    (if o = was then s else s.cmpOut k o t stamp, o && !was)

/-- The blankings that resets of `ramps` start (R519). -/
def State.blankStart (s : State) (ct : Nat) (ramps : List Nat) : State :=
  let p := pg .cmp 0
  s.each ((List.range 16).filter (fun k => s.cmpOn k && (s.rd p (Reg.CMP_CMP_CFG_BLANK_SRC k)).testBit 0 && ramps.contains (s.blankRamp k)))
    (fun s k => s.setCmpCh k { s.cmpCh k with blankTo := ct + s.rd p (Reg.CMP_CMP_CFG_BLANK_FCLK k) })

/-- The ramps that a rise of the outputs `ks` resets (R517). -/
def State.trippedRamps (s : State) (ks : List Nat) : List Nat :=
  let p := pg .cmp 0
  (List.range 8).filter (fun r => s.rampOn r && s.rd p (Reg.CMP_RAMP_CFG_RESET_SRC r) != 0 && ks.contains (s.rd p (Reg.CMP_RAMP_CFG_RESET_CMP r)))

/-- The comparators in the FCLK of comparator time `ct`, tick `t` (R520): `by_` is the comparator whose input crossed, with its
stamp. What a rise of an output causes, a ramp reset or a blanking, follows in the next FCLK, `n` FCLK deep. -/
def State.cmpRun : Nat → State → Nat → Nat → Option (Nat × SubTick) → List Nat → Nat → State
  | 0, s, _, _, _, _, _ => s
  | n + 1, s, ct, t, by_, ramps, clr =>
    let s := s.each ramps (fun s r => s.rampReset r ct)
    let s := s.blankStart ct ramps
    let r := (List.range 16).foldl (fun (a : State × List Nat) k =>
      let stamp := match by_ with
        | some (j, st) => if j = k then st else 16 * t
        | none => 16 * t
      let e := a.1.cmpEval k ct t stamp ramps clr
      (e.1, if e.2 then a.2 ++ [k] else a.2)) (s, [])
    let s := r.1
    if r.2.isEmpty || !s.working (pg .cmp 0) then s
    else
      let self := r.2.filter (fun k => (s.rd (pg .cmp 0) (Reg.CMP_CMP_CFG_BLANK_SRC k)).testBit 1 && s.rd (pg .cmp 0) (Reg.CMP_CMP_CFG_BLANK_FCLK k) != 0)
      let s := s.each self (fun s k => s.setCmpCh k { s.cmpCh k with blankTo := ct + 1 + s.rd (pg .cmp 0) (Reg.CMP_CMP_CFG_BLANK_FCLK k) })
      let next := s.trippedRamps r.2
      if self.isEmpty && next.isEmpty then s else State.cmpRun n s (ct + 1) (t + 1) none next 0

/-- A half at the end of enable blanking (R521): its value, and whether it is unresolved. `d` is how far the input lies beyond its
threshold. -/
def resolveHalf (d h : Int) : Bool × Bool := (decide (0 < d), decide (d ≤ 0) && decide (-h ≤ d))

/-- The enable blanking of comparator `k`, where it is over: its halves resolve (R521). -/
def State.cmpResolve (s : State) (k : Nat) : State :=
  let x := s.cmpCh k
  let ct := s.cmpTime
  if !x.enabling || ct < x.enTo || !s.cmpLive then s
  else
    let v := uvUnits x.uv
    let h := s.cmpHyst k
    let hi := resolveHalf (v - codeUnits (s.cmpHi k ct)) h
    let lo := resolveHalf (codeUnits (s.cmpLo k ct) - v) h
    let s := [(Reg.CMP_CMP_LVL_HI_NOW, hi.1), (Reg.CMP_CMP_LVL_UNRES_HI, hi.2), (Reg.CMP_CMP_LVL_LO_NOW, lo.1),
      (Reg.CMP_CMP_LVL_UNRES_LO, lo.2)].foldl (fun (s : State) (y : Fld × Bool) => s.setCmpBit y.1 k y.2) s
    s.setCmpCh k { x with enabling := false }

/-- The ramps whose period timer ends in the FCLK of comparator time `ct` (R517). -/
def State.rampsDue (s : State) (ct : Nat) : List Nat :=
  let p := pg .cmp 0
  if !s.working p then []
  else (List.range 8).filter (fun r =>
    let per := s.rd p (Reg.CMP_RAMP_PER_PERIOD r)
    let since := (s.cmpRamp r).since
    s.rampOn r && s.rd p (Reg.CMP_RAMP_CFG_RESET_SRC r) != 1 && per != 0 && decide (since < ct) && (ct - since) % per == 0)

/-- The comparators now (R520, R521): the period timers that end now come first. -/
def State.cmpNow (s : State) (by_ : Option (Nat × SubTick)) (clr : Nat) : State :=
  let ct := s.cmpTime
  (s.each (List.range 16) State.cmpResolve).cmpRun 16 ct s.tick by_ (s.rampsDue ct) clr

/-- A comparator is enabled, or an equinox has changed its CMP_CFG (R521): halves and latch are cleared, and enable blanking
starts. -/
def State.cmpEnable (s : State) (k : Nat) : State :=
  let s := [Reg.CMP_CMP_LVL_HI_NOW, Reg.CMP_CMP_LVL_LO_NOW, Reg.CMP_CMP_LVL_UNRES_HI, Reg.CMP_CMP_LVL_UNRES_LO].foldl
    (fun (s : State) f => s.setCmpBit f k false) s
  let s := s.setCmpCh k { s.cmpCh k with w := false, blankTo := 0, enabling := s.cmpOn k, enTo := s.cmpTime + 1600 }
  if s.cmpBit Reg.CMP_CMP_STAT_OUT k then s.cmpOut k false s.tick (16 * s.tick) else s

/-- The page starts again after it had stopped: its ramps start, and each enabled comparator is enabled anew (R144, R517, R521). -/
def State.cmpRestart (s : State) : State :=
  let ct := s.cmpTime
  let s := s.each (List.range 8) (fun s r => (s.rampReset r ct).setCmpRamp r { (s.rampReset r ct).cmpRamp r with since := ct })
  s.each ((List.range 16).filter s.cmpOn) State.cmpEnable

/-- The page's clocks run again after IDLE (R144, R523): the sources follow the outputs. -/
def State.cmpBack (s : State) : State :=
  s.each (List.range 16) (fun s k => s.sourceLevel (0x1050 + k) (s.cmpBit Reg.CMP_CMP_STAT_OUT k) s.tick 4 (16 * s.tick))

/-- A write of CMP_DAC of comparator `k`, which takes effect in the next FCLK (R516). -/
def State.cmpDac (s : State) (k hi lo : Nat) : State :=
  let s := s.wrs (pg .cmp 0) [(Reg.CMP_CMP_DAC_HI k, hi), (Reg.CMP_CMP_DAC_LO k, lo)]
  s.cmpRun 16 (s.cmpTime + 1) (s.tick + 1) none [] 0

/-- A write of CMP_LATCH (R520). -/
def State.cmpLatchClr (s : State) (mask : Nat) : State := s.cmpNow none mask

/-- CMP_CROSSING (R518, R520): the input of comparator `k`, in µV, has crossed a threshold; the crossing's stamp. -/
def execCmpCrossing (t : Nat) (k : Fin 16) (uv : Int) (stamp : SubTick) (s : State) : Host.Outcome State Fault Refusal :=
  let s := s.advance t
  .next ((s.setCmpCh k { s.cmpCh k with uv := uv }).cmpNow (some (k, stamp)) 0)

/-- RAMP_PERIOD_RESET (R517): every PERIOD FCLK from the equinox that enabled the ramp. -/
def execRampPeriodReset (t : Nat) (r : Fin 8) (s : State) : Host.Outcome State Fault Refusal :=
  let s := s.advance t
  .next (if (s.rampsDue s.cmpTime).contains r.val then s.cmpNow none 0 else s)

/-- CMP_BLANK_END (R519). -/
def execCmpBlankEnd (t : Nat) (k : Fin 16) (s : State) : Host.Outcome State Fault Refusal :=
  let s := s.advance t
  let x := s.cmpCh k
  .next (if !s.working (pg .cmp 0) || x.blankTo == 0 || s.cmpTime < x.blankTo then s
    else (s.setCmpCh k { x with blankTo := 0 }).cmpNow none 0)

/-- CMP_ENABLE_BLANK_END (R521). -/
def execCmpEnableBlankEnd (t : Nat) (k : Fin 16) (s : State) : Host.Outcome State Fault Refusal :=
  let s := s.advance t
  let x := s.cmpCh k
  .next (if !s.working (pg .cmp 0) || !x.enabling || s.cmpTime < x.enTo then s else s.cmpNow none 0)

/-- CMP_LATCH_CLEAR (R520). -/
def execCmpLatchClear (t : Nat) (mask : BitVec 16) (s : State) : Host.Outcome State Fault Refusal :=
  .next ((s.advance t).hosted (pg .cmp 0) 0x308 mask.toNat (fun s => s.cmpLatchClr mask.toNat))

end Sys2Proof.Machine
end

