-- ==== Sys2Proof/Machine/EpochLoad.lean ====
section
/-!
DEFINITION. Loading an epoch, and scheduling an equinox or a revert (R146, R478, R479, R484 to R486, R492).
-/
namespace Sys2Proof.Machine

/-- The page of the epoch registers. -/
def epoPage : Nat := pg .epo 0

/-- 1 ms in ticks (R486). -/
def eqxLead : Nat := 1600000

/-- Words 0 to 3 of a digest register block (R501). -/
def State.setDigest (s : State) (f : Nat → Fld) (d : List Word) : State :=
  s.each (List.range 4) (fun s i => s.wr epoPage (f i) ((d.getD i 0).toNat))

/-- STAGED empties (R478, R484, R492). -/
def State.emptyStaged (s : State) : State :=
  let s := s.wrs epoPage [(Reg.EPO_EPO_STAGED_VALID, 0), (Reg.EPO_EPO_STAGED_NUMBER, 0)]
  (({ s with epo := { s.epo with staged := none } }).setDigest Reg.EPO_DIG_STAGED_WORD []).unpark

/-- A load ends without an epoch in STAGED (R484): LOAD_REFUSED, and the command completes. -/
def State.loadFail (s : State) (e : SvcEntry) (st : SvcStatus) (res0 : Nat) : State :=
  let s := s.emptyStaged.wr epoPage Reg.EPO_EPO_STAGED_LOADING 0
  let s := { s with epo := { s.epo with load := none, checked := none } }
  (s.event .epo 0 1).complete e st res0 0

/-- LOAD_EPOCH (R484, steps 1 and 2). -/
def execLoadEpoch (t : Nat) (r : Fin 4) (s : State) : Host.Outcome State Fault Refusal :=
  let s := s.advance t
  .next (match s.svcTake r 0x02 with
    | none => s
    | some (e, s) =>
      let n := e.cmd.p0.toNat
      if (s.outstanding 0x02).isSome then s.complete e .busy 0 0
      else if s.on epoPage Reg.EPO_EQX_STAT_PENDING || s.on epoPage Reg.EPO_EQX_STAT_SWITCHING ||
          s.on epoPage Reg.EPO_PROB_STAT_ACTIVE then s.complete e .wrongState 0 0
      else if n = 0 ∨ n ≤ s.rd epoPage Reg.EPO_EPO_HWM_HWM ∨ 2 ^ 32 ≤ n ∨ 2 ^ 30 < e.cmd.dlen.toNat then
        s.complete e .invalidParam 0 0
      else
        let d := s.defer e
        if d.1 then
          let s := d.2.emptyStaged.wr epoPage Reg.EPO_EPO_STAGED_LOADING 1
          { s with epo := { s.epo with load := some e, checked := none } }
        else d.2)

/-- The epoch's blocks start to wake (R146, R484 step 2). -/
def State.wakeBlocks (s : State) (img : EpochImage) : State :=
  s.each ((s.usedPages (some img)).filter (fun p => s.pstate p != 0 || s.pstateAct p != 0)) (fun s p => s.startPstate p 0)

/-- The links that an image uses and the image `live` in force does not are started (R139, R171, R484 step 5): their pages, and those
of their quads that `live` does not configure otherwise, take the image's configuration. -/
def State.parkLinks (s : State) (live : Option EpochImage) (img : EpochImage) : State :=
  s.each ((imgInst (some img) .lnk 64).filter (fun l => (imgRegs live (pg .lnk l)).isNone)) (fun s l =>
    let s := s.loadPage (some img) (pg .lnk l)
    let lanes := (s.linkLanes l).filter (fun x => decide (x < 224))
    let quads := ((lanes.map lanePage).eraseDups).filter (fun p => (imgRegs live p).isNone || !pageChanged live (some img) p)
    let s := s.each quads (fun s p => (s.loadPage (some img) p).polSync (instOf p))
    let s := s.wrs (pg .lnk l) [(Reg.LNK_LINK_STAT_F, s.octets l),
      (Reg.LNK_LINK_STAT_NONDET, b2n (s.rd (pg .lnk l) Reg.LNK_LINK_CFG_SUBCLASS == 0))]
    let s := (s.setLnk l { fromTick := parkedTick }).setLinkState l 1
    s.each lanes (fun s x => s.laneEvent x))

/-- The load has succeeded (R484 step 6). -/
def State.loadDone (s : State) (e : SvcEntry) (img : EpochImage) : State :=
  let n := e.cmd.p0.toNat
  let s := s.wrs epoPage [(Reg.EPO_EPO_STAGED_VALID, 1), (Reg.EPO_EPO_STAGED_NUMBER, n), (Reg.EPO_EPO_HWM_HWM, n),
    (Reg.EPO_EPO_STAGED_LOADING, 0)]
  let s := s.setDigest Reg.EPO_DIG_STAGED_WORD img.digest
  let s := { s with epo := { s.epo with staged := some img, load := none, checked := none } }
  (s.event .epo 0 0).complete e .success 0 0

/-- Every block of the image reads ON, and the links that were started are UP or have had 500 ms since tick `c` (R146, R484). -/
def State.loadReady (s : State) (img : EpochImage) (c : Nat) : Bool :=
  (s.usedPages (some img)).all (fun p => s.pstateAct p == 0) &&
    (decide (c + 800000000 ≤ s.tick) || (List.range 64).all (fun l => !s.linkParked l || s.linkState l == 4))

/-- LOAD_EPOCH_DONE (R146, R484, R485): the image read from the host (none: the read failed), whether its digest matches, and a page
whose stream finds both of its paths out of service (R533). The first time that nothing refuses the image, its blocks wake and
its links start; the load is over once they are ready. -/
def execLoadEpochDone (t : Nat) (img : Option EpochImage) (digestOk : Bool) (noPath : Option (Fin 4096)) (s : State) :
    Host.Outcome State Fault Refusal :=
  let s := s.advance t
  .next (match (if s.serviceRuns then s.epo.load else none) with
    | none => s
    | some e =>
      match s.epo.checked, s.epo.staged, img with
      | some c, some i, _ => if s.loadReady i c then s.loadDone e i else s
      | _, _, none => s.loadFail e .hostDmaError 0
      | _, _, some i =>
        if !digestOk then s.loadFail e .digestMismatch 0
        else
          let s := if imgHeaderBad i e.cmd.dlen.toNat || i.secs.any imgKindBad then s else s.wakeBlocks i
          match s.imgRefusal i e.cmd.dlen.toNat noPath with
          | some x => s.loadFail e .imageRefused (x.1 + x.2 * 2 ^ 16)
          | none =>
            let s := s.parkLinks s.epo.live i
            let s := { s with epo := { s.epo with checked := some s.tick, staged := some i } }
            if s.loadReady i s.tick then s.loadDone e i else s)

/-- An equinox is pending, and its tick lies within 1 ms (R486). -/
def State.eqxNear (s : State) : Bool :=
  s.on epoPage Reg.EPO_EQX_STAT_PENDING && decide (s.rd epoPage Reg.EPO_EQX_TICK_TICK < s.tick + eqxLead)

/-- A pending equinox gives way (R486): a resume gives way with it (R139), and an announcement not yet complete completes. -/
def State.eqxDrop (s : State) : State :=
  let s := { s with epo := { s.epo with resume := none } }
  match s.svc.announce with
  | some e =>
    let ack := s.svc.annAck
    ({ s with svc := { s.svc with announce := none } }).complete e .success (s.rd epoPage Reg.EPO_EQX_TICK_TICK) ack
  | none => s

/-- An equinox is scheduled at tick `q`. -/
def State.eqxSet (s : State) (q : Nat) (revert announced : Bool) : State :=
  s.wrs epoPage [(Reg.EPO_EQX_TICK_TICK, q), (Reg.EPO_EQX_STAT_PENDING, 1), (Reg.EPO_EQX_STAT_REVERT, b2n revert),
    (Reg.EPO_EQX_STAT_AUTO, 0), (Reg.EPO_EQX_STAT_ANNOUNCED, b2n announced), (Reg.EPO_EQX_STAT_FROM_DELTAN, 0)]

/-- SCHEDULE_EQUINOX (R360, R486, R490). -/
def execScheduleEquinox (t : Nat) (r : Fin 4) (s : State) : Host.Outcome State Fault Refusal :=
  let s := s.advance t
  .next (match s.svcTake r 0x03 with
    | none => s
    | some (e, s) =>
      let q := e.cmd.p0.toNat
      let announced := e.cmd.p1.getLsbD 0
      if s.on epoPage Reg.EPO_PROB_STAT_ACTIVE then s.complete e .wrongState 0 0
      else if !s.on epoPage Reg.EPO_EPO_STAGED_VALID then s.complete e .noStaged 0 0
      else if q = 0 then
        if s.eqxNear then s.complete e .wrongState 0 0
        else ((s.eqxDrop).wr epoPage Reg.EPO_EQX_STAT_PENDING 0).complete e .success 0 0
      else if q < s.tick + eqxLead then s.complete e .tickPast 0 0
      else if s.eqxNear then s.complete e .wrongState 0 0
      else
        let s := s.eqxDrop.eqxSet q false announced
        if announced && s.dlbSource then
          { s with svc := { s.svc with announce := some e, annSent := 0, annAck := 0 } }
        else s.complete e .success q 0)

/-- REVERT_EPOCH (R492). -/
def execRevertEpoch (t : Nat) (r : Fin 4) (s : State) : Host.Outcome State Fault Refusal :=
  let s := s.advance t
  .next (match s.svcTake r 0x04 with
    | none => s
    | some (e, s) =>
      let q := if e.cmd.p0 = 0 then s.tick + eqxLead else e.cmd.p0.toNat
      if !s.on epoPage Reg.EPO_EPO_PRIOR_VALID || s.on epoPage Reg.EPO_EPO_PRIOR_FAILED ||
          s.on epoPage Reg.EPO_EQX_STAT_PENDING then s.complete e .wrongState 0 0
      else if q < s.tick + eqxLead then s.complete e .tickPast 0 0
      else
        let s := (s.emptyStaged.wr epoPage Reg.EPO_PROB_STAT_ACTIVE 0).eqxSet q true false
        s.complete e .success q 0)

end Sys2Proof.Machine
end

