-- ==== Sys2Proof/Machine/Streamer.lean ====
section
/-!
DEFINITION. The streamer and the Ethernet ports: stream slots, VITA 49.2 packets, received frames (R344 to R348, R365).
-/
namespace Sys2Proof.Machine

/-! Packets. -/

/-- A stamp as PTP seconds and picoseconds (R318, R345), rounded half up to 1 ps. -/
def State.stampTime (s : State) (q : SubTick) : Nat × Nat :=
  let p := pg .tmb 0
  let n := s.rdA p Reg.TMB_PTP_NS_NS * 1000 * 2 ^ 20 + s.rdA p Reg.TMB_PTP_NS_FRAC * 1000 * 16 + q * 625 * 65536
  let ps := (n + 2 ^ 19) / 2 ^ 20
  (s.rdA p Reg.TMB_PTP_SEC_SEC + ps / 10 ^ 12, ps % 10 ^ 12)

/-- A stream identifier (R346). -/
def streamId (module_ c content slot : Nat) : Nat := module_ * 2 ^ 24 + c * 2 ^ 14 + content * 2 ^ 12 + slot * 2 ^ 6

/-- The own addresses of Ethernet port `p`, as its last link start took them (R365): MAC, IPv4, IPv6. -/
def State.ethMac (s : State) (p : Nat) : Nat := s.rdA (pg .eth p) Reg.ETH_ETH_MAC_MAC
def State.ethIp4 (s : State) (p : Nat) : Nat := s.rdA (pg .eth p) Reg.ETH_ETH_IP4_IP4
def State.ethIp6 (s : State) (p : Nat) : Nat :=
  s.rdA (pg .eth p) Reg.ETH_ETH_IP6_HI_IP6 * 2 ^ 64 + s.rdA (pg .eth p) Reg.ETH_ETH_IP6_LO_IP6

/-- The addressing of a packet that leaves port `p` (R348): destination and source MAC, the VLAN tag or 2^16 for none, the IP version,
source and destination address, UDP ports, DSCP, TTL or hop limit. -/
def State.addressing (s : State) (p : Nat) (d : StreamDesc) : List Nat :=
  [d.mac.toNat, s.ethMac p, if d.vlanTag then d.vlan.toNat else 2 ^ 16] ++
    (if d.ipv6 then [6, s.ethIp6 p, d.ip.toNat] else [4, s.ethIp4 p, d.ip.toNat % 2 ^ 32]) ++
    [d.srcPort.toNat, d.dstPort.toNat, d.dscp.toNat, d.ttl.toNat]

/-- One packet of slot `n` sent on the port whose turn it is (R345, R348): packet type, S, stream identifier, time, the rest. Its
words in the output are the addressing, the packet type, S, the packet count, the stream identifier, seconds, picoseconds, and `body`. -/
def State.strSend (s : State) (n : Nat) (d : StreamDesc) (type sBit id : Nat) (q : SubTick) (body : List Nat) : State :=
  let x := s.strs n
  let l := streamPorts d
  let port := l.getD (x.turn % max 1 l.length) 0
  let z := s.stampTime q
  let s := s.setStrs n { x with count := (x.count + 1) % 16, turn := (x.turn + 1) % max 1 l.length }
  (s.bump (pg .eth port) Reg.ETH_TX_PKTS_CNT 1).emit (.packet port n (s.addressing port d ++ [type, sBit, x.count, id, z.1, z.2] ++ body))

/-- Items of a packet (R345): the first, and those that follow it without a gap, as many as fit; and whether a next one, which
does not fit or does not follow, ends the packet. -/
def packetRun (payload : Nat) : Nat → List StrItem → List StrItem × Bool
  | _, [] => ([], false)
  | n, i :: l =>
    if n != 0 && (i.brk || payload < n + i.bytes.length) then ([], true)
    else
      let r := packetRun payload (n + i.bytes.length) l
      (i :: r.1, r.2 || payload ≤ n + i.bytes.length)

/-- The packet count runs and the slot's descriptor is loaded. -/
def State.strReady (s : State) (n : Nat) : Option StreamDesc :=
  if s.gated || !s.startedUp then none
  else match (s.strs n).desc with
    | some d => if s.strLinked d then some d else none
    | none => none

/-- A data packet of slot `n` (R345, R346): raw (`kind` 0) or spectral (1). It is sent when it is full, when a gap ends it, or when
its slot has stopped; a record longer than the payload goes on in the next packet. -/
def State.dataPacket (s : State) (n kind : Nat) (d : StreamDesc) : State :=
  let x := s.strs n
  match x.items.find? (fun i => i.kind == kind) with
  | none => s
  | some i =>
    let mine := x.items.filter (fun j => j.kind == kind && j.ctx == i.ctx)
    let rest := x.items.filter (fun j => !(j.kind == kind && j.ctx == i.ctx))
    let payload := d.payload.toNat
    let r := packetRun payload 0 mine
    if !r.2 && x.running then s
    else
      let bytes := r.1.flatMap StrItem.bytes
      let left := mine.drop r.1.length
      let left := if payload < i.bytes.length then { i with bytes := i.bytes.drop payload, brk := true, loss := false } :: left else left
      let s := s.setStrs n { x with items := left ++ rest }
      let trailer := [b2n (s.ptp.servo == 2), 1, b2n (r.1.any StrItem.ovr), b2n i.loss]
      s.strSend n d 0b0001 kind (streamId d.moduleId.toNat i.ctx kind n) i.stamp
        ((bytes.take payload).map BitVec.toNat ++ trailer)

/-- An almanac packet of slot `n` (R345): whole records of one context's copy. -/
def State.almPacket (s : State) (n : Nat) (d : StreamDesc) : State :=
  let x := s.strs n
  match x.alm with
  | [] => s
  | (c, w) :: _ =>
    let run := (x.alm.takeWhile (fun y => y.1 == c)).take (d.payload.toNat / 32)
    let s := s.setStrs n { x with alm := x.alm.drop run.length, almAt := s.tick }
    s.strSend n d 0b0011 0 (streamId d.moduleId.toNat c 2 n) (16 * w.getD 1 0) (run.flatMap Prod.snd)

/-- VITA_PACKET_SEND (R345, R346, R365): a raw (0) or spectral (1) data packet, or a full almanac packet (2). -/
def execVitaPacketSend (t : Nat) (slot : Fin 64) (kind : Fin 3) (s : State) : Host.Outcome State Fault Refusal :=
  let s := s.advance t
  .next (match s.strReady slot with
    | none => s
    | some d =>
      if kind.val < 2 then s.dataPacket slot kind d
      else if d.payload.toNat ≤ 32 * (s.strs slot).alm.length then s.almPacket slot d
      else s)

/-- ALMANAC_PACKET_TIMEOUT (R345): 100 µs after the first record. -/
def execAlmanacPacketTimeout (t : Nat) (slot : Fin 64) (s : State) : Host.Outcome State Fault Refusal :=
  let s := s.advance t
  .next (match s.strReady slot with
    | none => s
    | some d => if (s.strs slot).almAt + 160000 ≤ s.tick then s.almPacket slot d else s)

/-! Context packets (R347). -/

/-- The view rate of context `c` in units of 2^-20 Hz, and its source's rate (R192, R198). -/
def State.viewRate (s : State) (c : Nat) : Nat :=
  if s.viewPeriod c = 0 then 0 else 1600000000 * 2 ^ 52 / s.viewPeriod c
def State.sourceRate (s : State) (c : Nat) : Nat :=
  s.viewRate c * (if s.rd (pg .ctx c) Reg.CTX_VIEW_CFG_MODE = 0 then 1 else 2 ^ s.rd (pg .ctx c) Reg.CTX_VIEW_CFG_DEC_LOG2)

/-- The usable span of a view (R347). -/
def State.viewSpan (s : State) (c : Nat) : Nat :=
  if s.rd (pg .ctx c) Reg.CTX_VIEW_CFG_MODE != 0 then s.viewRate c * 4 / 5
  else if s.viewComplex c then s.viewRate c else s.viewRate c / 2

/-- The values of a spectral stream's record: 0 log power, 1 linear magnitude, 2 complex. -/
def State.specType (s : State) (c : Nat) : Nat :=
  let p := pg .ctx c
  match s.rd p Reg.CTX_XF_CFG_KIND with
  | 1 => 2
  | 2 => s.rd p Reg.CTX_XF_CFG_PWR_FMT
  | _ => match s.storedTraces c with
    | i :: _ => s.rd p (Reg.CTX_TRC_CFG_FMT i)
    | [] => 0

/-- The spectrum fields of a spectral stream (R347): type, transform and window points, averaging type and 2^a, resolution,
span, F1 and F2 indexes. -/
def State.spectrumFields (s : State) (c : Nat) : List Nat :=
  let p := pg .ctx c
  let n := s.xfN c
  let tr := if s.rd p Reg.CTX_XF_CFG_KIND < 3 then none else (s.storedTraces c).head?
  let r := match tr with
    | some i => (s.trcAvg c i, 2 ^ s.rd p (Reg.CTX_TRC_CFG_AVG_LOG2 i), 2 ^ s.rd p (Reg.CTX_TRC_CFG_BLOG2 i),
        s.rd p (Reg.CTX_TRC_CFG_BIN_START i), s.tracePoints c i)
    | none => (0, 1, 1, 0, s.xfBins c)
  [s.specType c, n, n, r.1, if r.1 = 0 then 1 else r.2.1, s.viewRate c * r.2.2.1 / n, s.viewSpan c, r.2.2.2.1,
    r.2.2.2.1 + r.2.2.2.2 * r.2.2.1 - 1]

/-- The fields of a context packet (R347): `ovrs` overranged samples since the previous one, and a leap. Rates and frequencies are in units of 2^-20 Hz, the temperature in 0.1 °C. -/
def State.ctxFields (s : State) (d : StreamDesc) (y : CtxPacket) (ovrs : Nat) (loss : Bool) : List Nat :=
  let c := y.ctx.val
  let p := pg .ctx c
  let spectral := y.content.val == 1
  let if_ := if s.rd p Reg.CTX_VIEW_CFG_MODE = 0 then 0 else s.rd p Reg.CTX_NCO_FTW_FTW * s.sourceRate c / 2 ^ 48
  let rate := if spectral then s.viewRate c / max 1 (s.xfStride c) else s.viewRate c
  let fmt := if spectral then [b2n (s.specType c == 2), if s.specType c = 0 then 16 else 32] else [b2n (s.viewComplex c), 16]
  [s.viewSpan c, if_, d.rfRef.toNat, ovrs, rate, unsigned 16 (s.hottest (List.range 8)), b2n (s.ptp.servo == 2), 1,
    b2n (ovrs != 0), b2n loss] ++ fmt ++ (if spectral then s.spectrumFields c else [])

/-- CONTEXT_PACKET_PERIOD (R346, R347): the context packet of one data stream, when its slot starts, after a change of its view
or transform, at a leap, and every CTX_PERIOD. The change indicator comes before the fields. -/
def execContextPacketPeriod (t : Nat) (slot : Fin 64) (stream : CtxPacket) (s : State) : Host.Outcome State Fault Refusal :=
  let s := s.advance t
  .next (match s.strReady slot with
    | none => s
    | some d =>
      let x := s.strs slot
      let c := stream.ctx.val
      let key := 2 * c + stream.content.val
      let leap := x.ctxDue.contains key
      let late := smGet 0 key x.ctxAt + d.ctxPeriod.toNat * 1600000 ≤ s.tick
      if !x.running || !(leap || late || x.ctxDue.contains (4096 + key)) then s
      else
        let seen := (s.actx c).ovrs
        let l := s.ctxFields d stream (seen - smGet 0 key x.ovrAt) leap
        let changed := match smFind key x.lastCtx with
          | some m => m != l
          | none => true
        let s := s.setStrs slot { x with
          ctxDue := x.ctxDue.filter (fun k => k % 4096 != key), ctxAt := smInsert key s.tick x.ctxAt
          lastCtx := smInsert key l x.lastCtx, ovrAt := smInsert key seen x.ovrAt }
        s.strSend slot d 0b0100 0 (streamId d.moduleId.toNat c stream.content slot) (16 * s.tick) (b2n changed :: l))

/-! Stream slots (R330, R335, R348). -/

/-- The contexts that are bound to stream slot `n` (R334). -/
def State.strCtxs (s : State) (n : Nat) : List Nat :=
  (s.acq.ctx.map Prod.fst).filter (fun c => s.strBound c && s.rd (pg .ctx c) Reg.CTX_STR_BIND_SLOT == n)

/-- The data streams of context `c`. -/
def State.dataStreams (s : State) (c : Nat) : List Nat :=
  ((List.range 2).filter (fun k => bit (s.rd (pg .ctx c) Reg.CTX_STR_BIND_CONTENT) k == 1)).map (fun k => 2 * c + k)

/-- Stream slot `n` starts: its drains start, and its context packets are due. -/
def State.strBegin (s : State) (n : Nat) : State :=
  let l := s.strCtxs n
  let s := s.setStrs n { s.strs n with
    running := true, startAt := none, items := [], alm := [], ctxAt := [], lastCtx := []
    ovrAt := (l.filter (fun c => (s.actx c).ovrs != 0)).foldl (fun m c =>
      (s.dataStreams c).foldl (fun m k => smInsert k (s.actx c).ovrs m) m) []
    ctxDue := (l.flatMap s.dataStreams).map (4096 + ·) }
  s.each l (fun s c => s.setDrain c true (s.drainHead c))

/-- Stream slot `n` stops: its drains read what is written now, and stop. -/
def State.strEnd (s : State) (n : Nat) : State :=
  let s := s.setStrs n { s.strs n with running := false, stopAt := none }
  s.each (s.strCtxs n) (fun s c => (s.setDrain c true (s.drainStop c (s.drainOf c true))).strSettle c)

/-- The descriptor is one that R348 admits. -/
def descOk (d : StreamDesc) : Bool :=
  d.slot.toNat < 64 && d.ports.toNat % 4 != 0 && 512 ≤ d.payload.toNat && d.payload.toNat ≤ 8192 && d.payload.toNat % 512 == 0 &&
    10 ≤ d.ctxPeriod.toNat && d.ctxPeriod.toNat ≤ 10000

/-- NET_STREAM_CFG (R330, R348). -/
def execNetStreamCfg (t : Nat) (r : Fin 4) (desc : StreamDesc) (s : State) : Host.Outcome State Fault Refusal :=
  .next ((s.advance t).atOnce r 0x18 (fun s e =>
    let n := desc.slot.toNat
    let x := s.strs n
    if e.cmd.dlen.toNat ≠ 128 || !descOk desc then (.invalidParam, 0, 0, s)
    else if x.running || x.startAt.isSome then (.wrongState, 0, 0, s)
    else (.success, 0, 0, s.setStrs n { x with desc := some desc })))

/-- NET_STREAM_CTL (R330, R348): START or STOP, now or at the tick of P1. -/
def execNetStreamCtl (t : Nat) (r : Fin 4) (s : State) : Host.Outcome State Fault Refusal :=
  .next ((s.advance t).atOnce r 0x19 (fun s e =>
    let n := e.cmd.p0.toNat % 64
    let x := s.strs n
    let start := e.cmd.p0.getLsbD 8
    let tick := e.cmd.p1.toNat
    let when_ := if tick = 0 then s.tick else tick
    if start == e.cmd.p0.getLsbD 9 then (.invalidParam, 0, 0, s)
    else match x.desc with
      | none => (.wrongState, 0, 0, s)
      | some d =>
        if start && (x.running || x.startAt.isSome) || (!start && !x.running && x.startAt.isNone) then (.wrongState, 0, 0, s)
        else if start && !s.strLinked d then (.netDown, 0, 0, s)
        else if tick ≠ 0 ∧ tick ≤ s.tick then (.tickPast, 0, 0, s)
        else (.success, when_, 0,
          if start then (if tick = 0 then s.strBegin n else s.setStrs n { x with startAt := some tick })
          else if tick = 0 then (if x.running then s.strEnd n else s.setStrs n { x with startAt := none })
          else s.setStrs n { x with stopAt := some tick })))

/-- STREAM_SCHEDULED_START_STOP (R330). -/
def execStreamScheduledStartStop (t : Nat) (slot : Fin 64) (s : State) : Host.Outcome State Fault Refusal :=
  let s := s.advance t
  let x := s.strs slot
  let due (o : Option Nat) : Bool := match o with
    | some q => decide (q ≤ s.tick)
    | none => false
  .next (if due x.startAt then s.strBegin slot
    else if due x.stopAt then (if x.running then s.strEnd slot else s.setStrs slot { x with startAt := none, stopAt := none })
    else s)

/-! Ethernet ports (R344, R348, R365). -/

/-- ETH_LINK_DOWN (R348, R365): the drains stay where they are. -/
def execEthLinkDown (t : Nat) (p : Fin 2) (s : State) : Host.Outcome State Fault Refusal :=
  let s := s.advance t
  .next (if !s.on (pg .eth p) Reg.ETH_ETH_STAT_UP then s else (s.wr (pg .eth p) Reg.ETH_ETH_STAT_UP 0).event .eth p 0)

/-- A link start takes the addresses and the lane polarities (R365). -/
def State.ethStart (s : State) (p : Nat) : State :=
  s.each [Reg.ETH_ETH_MAC_MAC, Reg.ETH_ETH_IP4_IP4, Reg.ETH_ETH_IP6_HI_IP6, Reg.ETH_ETH_IP6_LO_IP6, Reg.ETH_LANE_POL_TX_INV,
    Reg.ETH_LANE_POL_RX_INV] (fun s f => s.wrA (pg .eth p) f (s.rd (pg .eth p) f))

/-- ETH_LINK_UP (R348, R365): sending resumes. -/
def execEthLinkUp (t : Nat) (p : Fin 2) (s : State) : Host.Outcome State Fault Refusal :=
  let s := s.advance t
  .next (if s.runs (pg .eth p) then (s.ethStart p).wr (pg .eth p) Reg.ETH_ETH_STAT_UP 1 else s)

/-- The multicast addresses of IEEE 1588 (notes/assumptions/184). -/
def ptpGroups : List Nat := [0x011B19000000, 0x0180C200000E]

/-- A frame is one that port `p` accepts, addressed to it (R344); and the words of the answer that it calls for: destination and source
MAC, 2 for an ARP reply or 136 for a neighbour advertisement, the address asked for, the asker's. -/
def State.ethAccepts (s : State) (p : Nat) : EthFrame → Bool
  | .ptp dst => dst.toNat == s.ethMac p || ptpGroups.contains dst.toNat
  | .arp target _ _ => target.toNat == s.ethIp4 p
  | .neighbour target _ _ => target.toNat == s.ethIp6 p
  | .other => false
def State.ethAnswer (s : State) (p : Nat) : EthFrame → Option (List Nat)
  | .arp target sender mac => some [mac.toNat, s.ethMac p, 2, target.toNat, sender.toNat]
  | .neighbour target sender mac => some [mac.toNat, s.ethMac p, 136, target.toNat, sender.toNat]
  | _ => none

/-- ETH_RX_FRAME (R344): PTP, ARP and neighbour discovery addressed to the port are accepted, and the firmware answers an address
resolution; anything else is discarded and counted. An answer leaves as a packet of slot 64, which is none. -/
def execEthRxFrame (t : Nat) (p : Fin 2) (frame : EthFrame) (s : State) : Host.Outcome State Fault Refusal :=
  let s := s.advance t
  .next (if !s.on (pg .eth p) Reg.ETH_ETH_STAT_UP || !s.working (pg .eth p) then s
    else if !s.ethAccepts p frame then (s.bump (pg .eth p) Reg.ETH_RX_DISC_CNT 1).event .eth p 2
    else match s.ethAnswer p frame with
      | some w => if s.serviceRuns then (s.bump (pg .eth p) Reg.ETH_TX_PKTS_CNT 1).emit (.packet p 64 w) else s
      | none => s)

/-- A write of ETH_CLR (R365). -/
def State.ethClr (s : State) (p : Nat) : State :=
  s.wrs (pg .eth p) [(Reg.ETH_ETH_STAT_FEC_UNC, 0), (Reg.ETH_TX_PKTS_CNT, 0), (Reg.ETH_RX_DISC_CNT, 0)]

/-- ETH_CLR (R365). -/
def execEthClr (t : Nat) (p : Fin 2) (s : State) : Host.Outcome State Fault Refusal :=
  .next ((s.advance t).hosted (pg .eth p) 0x140 1 (fun s => s.ethClr p))

end Sys2Proof.Machine
end

