-- ==== Sys2Proof/Machine/EpochSwitch.lean ====
section
/-!
DEFINITION. How each block other than a context switches to a new epoch (R41, R43, R171, R247, R264, R288, R384, R398, R428,
R459, R483, R487, R521).
-/
namespace Sys2Proof.Machine

/-- The equinox in progress reloads page `p` (R483). -/
def State.reloads (s : State) (p : Nat) : Bool := pageChanged s.oldImg s.liveImg p || !s.inEpoch p

/-- Page `p` leaves the pages still to switch; IN_EPOCH follows its use by LIVE, and EN is set in a used page (R41, R43). -/
def State.useBlock (s : State) (p : Nat) : State :=
  let used := (s.usedPages s.liveImg).contains p
  let s := { s with epo := { s.epo with todo := s.epo.todo.filter (fun q => q != p) } }
  let s := s.wr p Reg.PG_STAT_IN_EPOCH (b2n used)
  if used && !pageAlwaysOn p then s.enable p else s

/-- Page `p` loaded from LIVE where `re` says that it is reloaded. -/
def State.reload (s : State) (re : Bool) (p : Nat) : State := if re then s.loadPage s.liveImg p else s

/-! Ingest (R171). -/

/-- LQD[q] switches: a lane that is no longer enabled loses its locks. -/
def State.switchLqd (s : State) (re : Bool) (q : Nat) : State :=
  let p := pg .lqd q
  let was := s.rd p Reg.LQD_QUAD_CFG_LANE_EN
  let s := s.reload re p
  let s := s.polSync q
  let lanes := (List.range 8).map (fun i => 8 * q + i)
  let s := s.each (lanes.filter (fun x => was.testBit (x % 8) && !s.laneOn x)) (fun s x =>
    let s := { s with ing := { s.ing with cdr := s.ing.cdr.erase x } }
    s.wrs p [(Reg.LQD_LANE_STAT_BLOCK_LOCK (x % 8), 0), (Reg.LQD_LANE_STAT_EMB_LOCK (x % 8), 0), (Reg.LQD_LANE_STAT_UP (x % 8), 0)])
  s.each lanes (fun s x => s.laneEvent x)

/-- Link `l` may switch (R171, R487): what it has released is delivered, and an UP link stands at a release point. -/
def State.linkReady (s : State) (l : Nat) : Bool :=
  !(s.lnk l).busy && (s.linkState l != 4 || s.linkParked l || decide (8 * (s.lnk l).base + s.lemcPeriod l ≤ 8 * s.tick + 7))

/-- LNK[l] switches (R171, R172): `was` says that the epoch before used it. A link that LOAD_EPOCH has started keeps its
state; one that the epoch adds delivers from its first release point at or after the equinox, and a removed one is OFF. -/
def State.switchLnk (s : State) (re was : Bool) (l : Nat) : State :=
  let parked := s.linkParked l
  let lanes := (s.linkLanes l).filter (fun x => decide (x < 224))
  let s := s.reload re (pg .lnk l)
  let s := if !s.inEpoch (pg .lnk l) then
      let s := ((s.setLnk l {}).setLinkState l 0).setRaw (evId .lnk l 3) false
      s.each lanes (fun s x => (s.wr (lanePage x) (Reg.LQD_LANE_STAT_UP (x % 8)) 0).laneEvent x)
    else
      let s := s.wrs (pg .lnk l) [(Reg.LNK_LINK_STAT_F, s.octets l),
        (Reg.LNK_LINK_STAT_NONDET, b2n (s.rd (pg .lnk l) Reg.LNK_LINK_CFG_SUBCLASS == 0))]
      if was then s
      else if parked then s.setLnk l { s.lnk l with fromTick := s.eqxTick }
      else (s.setLnk l { fromTick := s.eqxTick }).setLinkState l 1
  s.downEvent l

/-- SLT[n] switches: one that the new epoch adds, drops or bonds otherwise starts afresh, its FIFO and its overrange episode with it. -/
def State.switchSlt (s : State) (re was : Bool) (n : Nat) : State :=
  let p := pg .slt n
  let bond := s.rd p Reg.SLT_SLT_CFG_BOND_LOG2
  let src := s.srcSlots n
  let s := s.reload re p
  if was && s.inEpoch p && s.rd p Reg.SLT_SLT_CFG_BOND_LOG2 = bond then s
  else
    let s := s.each src (fun s m => s.wr (pg .slt m) Reg.SLT_SLT_STAT_OVR_NOW 0)
    let s := { s with ing := { s.ing with epi := smErase n s.ing.epi, srcAt := smErase n s.ing.srcAt } }
    let s := (s.setSlt n {}).setRaw (evId .slt n 0) false
    if s.inEpoch p then s else s.wr p Reg.SLT_SLT_STAT_ACTIVE 0

/-! Pipelines and the tone mapper. -/

/-- The pipelines that an image gives context `c`. -/
def imgPipes (img : Option EpochImage) (c : Nat) : List Nat :=
  (List.range (imgField img (pg .ctx c) Reg.CTX_XF_CFG_PIPE_M1 + 1)).map (fun j =>
    if j < 8 then imgField img (pg .ctx c) (Reg.CTX_XF_PIPES0_PIPE j) else imgField img (pg .ctx c) (Reg.CTX_XF_PIPES1_PIPE (j - 8)))

/-- No context still works under the settings that pipeline `q` had (R487). -/
def State.pipeFree (s : State) (q : Nat) : Bool :=
  (List.range 1024).all (fun c =>
    (!s.epo.todo.contains (pg .ctx c) && (s.xfc c).next.isEmpty) ||
      !(imgPipes s.oldImg c ++ imgPipes s.liveImg c).contains q)

/-- XFP[q] switches: its window store and its mask store are the image's. -/
def State.switchXfp (s : State) (re : Bool) (q : Nat) : State :=
  let s := s.reload re (pg .xfp q)
  let win := storeReplace 65536 q (imgStore s.liveImg 2 q) s.xf.win
  let seg := storeReplace 16384 q (imgStore s.liveImg 3 q) s.trg.store
  { s with xf := { s.xf with win := win, winBad := s.xf.winBad.filter (fun a => a / 65536 != q) }
           trg := { s.trg with store := seg } }

/-- A palette as the palette store holds it (R259, R482). -/
def palStore (img : Option EpochImage) (k : Nat) : SMap Nat :=
  (imgStore img 4 k).map (fun w => (w.1, bits w.2 25 16 * 1024 + bits w.2 9 0))

/-- The TMP page switches, after a readout in progress (R264): a job that is enabled starts with no image; one that is disabled
gives up its pending readout. -/
def State.switchTmp (s : State) (re : Bool) : State :=
  let was (j : Nat) := s.rd tmpPage (Reg.TMP_JOB_CFG_EN j)
  let before := (List.range 32).filter (fun j => was j == 1)
  let s := s.reload re tmpPage
  let pals := (List.range 4).filter (fun k => re || storeChanged s.oldImg s.liveImg 4 k)
  let pal := pals.foldl (fun m k => storeReplace 1024 k (palStore s.liveImg k) m) s.tmp.pal
  let s := { s with tmp := { s.tmp with pal := pal } }
  let after := (List.range 32).filter (fun j => s.on tmpPage (Reg.TMP_JOB_CFG_EN j))
  let s := s.each (after.filter (fun j => !before.contains j)) (fun s j =>
    (s.setTjob j { gen := (s.tjob j).gen, next := s.eqxTick + s.rd tmpPage (Reg.TMP_JOB_PERIOD_PERIOD j) }).wr tmpPage
      (Reg.TMP_JOB_STAT_VALID j) 0)
  s.each (before.filter (fun j => !after.contains j)) (fun s j =>
    ({ s with tmp := { s.tmp with wait := s.tmp.wait.erase j } }).wr tmpPage (Reg.TMP_JOB_STAT_BUSY j) 0)

/-! Density bindings, which switch with their context (R247). -/

/-- The context that an image binds density unit `u`, or the gang that it belongs to, to. -/
def imgDenCtx (img : Option EpochImage) (u : Nat) : Option Nat :=
  let lead := u / 4 * 4
  let v := if imgField img (pg .den lead) Reg.DEN_DEN_CFG_GANG = 1 then lead else u
  if imgField img (pg .den v) Reg.DEN_DEN_CFG_BIND = 1 then some (imgField img (pg .den v) Reg.DEN_DEN_CFG_CTX) else none

/-- The context with which DEN[u] switches, and the one with which the deposit settings of bank `b` do (R433). -/
def State.denRide (s : State) (u : Nat) : Option Nat := (imgDenCtx s.liveImg u).orElse (fun _ => imgDenCtx s.oldImg u)
def imgDepCtx (img : Option EpochImage) (b : Nat) : Option Nat :=
  if imgField img (pg .bnk b) Reg.BNK_DEP_CFG_EN = 1 then some (imgField img (pg .bnk b) Reg.BNK_DEP_CFG_CTX) else none
def State.depRide (s : State) (b : Nat) : Option Nat := (imgDepCtx s.liveImg b).orElse (fun _ => imgDepCtx s.oldImg b)

/-- Context `c` runs in the epoch before or after the equinox in progress. -/
def State.eitherRuns (s : State) (c : Nat) : Bool := imgRuns s.oldImg c || imgRuns s.liveImg c

/-- A page or a bank's deposit settings switch with a context. -/
def State.rides (s : State) (o : Option Nat) : Bool := match o with
  | some c => s.eitherRuns c
  | none => false

/-- A deposit field of a bank page (R439). -/
def depField (f : Fld) : Bool := f.off == 0x120 || f.off == 0x128

/-- The deposit settings of bank `b` differ between the two epochs. -/
def State.depChanged (s : State) (b : Nat) : Bool :=
  ((imgFields (pg .bnk b)).filter depField).any (fun f => imgField s.oldImg (pg .bnk b) f != imgField s.liveImg (pg .bnk b) f)

/-- DEN[u] switches where no context takes it along. -/
def State.switchDen (s : State) (re : Bool) (u : Nat) : State :=
  let s := s.reload re (pg .den u)
  s.wr (pg .den u) Reg.DEN_DEN_STAT_ACTIVE (s.rd (pg .den u) Reg.DEN_DEN_CFG_BIND)

/-! The trigger fabric (R288). -/

/-- TRU[u] switches at tick `t`: a changed unit starts cleared, with its inputs' present values as its baseline. -/
def State.switchTru (s : State) (re : Bool) (u t : Nat) : State :=
  if !re then s
  else
    let p := pg .tru u
    let s := (s.reload re p).truResetState u
    let base (i : Nat) : TruIn :=
      let x := s.truSel u i
      { val := s.isLevel x.1 x.2.1 && s.srcNow x.1 t, stamp := 16 * t }
    let inp := (List.range 8).map base
    let coming (e : NetEvt) : List TruChg := if t < e.at_ then (s.truTaps u e.code e.sig).map e.chg else []
    let s := s.setTru u { inp := inp, arm := base 8, chg := s.trg.net.flatMap coming }
    s.wrs p [(Reg.TRU_TRU_STAT_C, b2n (s.truTable u (s.truIndex u inp))), (Reg.TRU_TRU_STAT_ACTIVE, s.rd p Reg.TRU_TRU_CFG_EN)]

/-- The TRN page switches at tick `t`: the outputs follow the new router; a TRIG_OUT pulse in progress completes its width, and a
latched PROT_OUT stays. -/
def State.switchTrn (s : State) (re : Bool) (t : Nat) : State :=
  let p := pg .trn 0
  let s := (s.routerTo t).reload re p
  let s := if re then s.schedSet (List.range 16) t else s
  (s.each (List.range 4) (fun s k => s.sourceLevel (0x1040 + k) (s.tinValue k) t 0 (16 * t))).outputsFollow t

/-! Signal cores (R458, R459). -/

/-- Core `n` runs the same program, from the same ENTRY and initial registers, in both epochs. -/
def State.sameProgram (s : State) (n : Nat) : Bool :=
  let p := pg .scr n
  imgField s.oldImg p Reg.SCR_SCR_CFG_ENTRY == imgField s.liveImg p Reg.SCR_SCR_CFG_ENTRY &&
    !storeChanged s.oldImg s.liveImg 5 n && imgGregs s.oldImg n == imgGregs s.liveImg n

/-- A store's words as a core's memory. -/
def asWords (m : SMap Nat) : SMap Word := m.map (fun w => (w.1, BitVec.ofNat 64 w.2))

/-- Core `n` starts the program of LIVE: the other bank holds it and becomes active; the state is reset, and g is loaded (R441,
R459). -/
def State.coreStart (s : State) (n : Nat) : State :=
  let c := s.coreAt n
  let prog := asWords (imgStore s.liveImg 5 n)
  let d : CoreSt := {
    x := c.x, y := c.y, stage := c.stage, act := !c.act, base := s.tick
    prog0 := if c.act then prog else c.prog0, prog1 := if c.act then c.prog1 else prog
    g := (imgGregs s.liveImg n).foldl (fun g w => vset g w.1 w.2) (Vector.replicate 32 0)
    pc := BitVec.ofNat 13 (imgField s.liveImg (pg .scr n) Reg.SCR_SCR_CFG_ENTRY) }
  ((s.setCore n d).wrs (pg .scr n) [(Reg.SCR_SCR_CTL_HALT, 0), (Reg.SCR_SCR_CTL_STEP, 0), (Reg.SCR_SCR_CTL_RESUME, 0)]).coreState n 2

/-- SCR[n] switches; `was` says that the epoch before used its page. -/
def State.switchScr (s : State) (re was : Bool) (n : Nat) : State :=
  let p := pg .scr n
  let ran := was && imgField s.oldImg p Reg.SCR_SCR_CFG_EN == 1
  let s := s.reload re p
  if imgField s.liveImg p Reg.SCR_SCR_CFG_EN = 1 then (if ran && s.sameProgram n then s else s.coreStart n)
  else if ran then
    let c := (s.coreAt n).drain
    (s.setCore n { c with haltReq := false }).coreState n 1
  else s

/-- Core `n` stands at an allowed boundary (R459). -/
def State.coreAtBoundary (s : State) (n : Nat) : Bool :=
  let c := s.coreAt n
  !([2, 3].contains c.state) || c.slots == 0

/-! Banks (R428). -/

/-- BNK[b] switches: its owners by a handover; its deposit settings with their context where one takes them along. -/
def State.switchBnk (s : State) (re : Bool) (b : Nat) : State :=
  if !re then s
  else
    let p := pg .bnk b
    let o := imgField s.liveImg p Reg.BNK_BNK_OWN_OWNER
    let a := imgField s.liveImg p Reg.BNK_BNK_OWN_B_AGENT
    let own (f : Fld) : Bool := f == Reg.BNK_BNK_OWN_OWNER || f == Reg.BNK_BNK_OWN_B_AGENT
    let direct := (imgFields p).filter (fun f => !own f && (!depField f || !s.rides (s.depRide b)))
    let s := s.each direct (fun s f => s.wr p f (imgField s.liveImg p f))
    if s.rd p Reg.BNK_BNK_OWN_OWNER_ACT = o && s.rd p Reg.BNK_BNK_OWN_B_AGENT_ACT = a && !s.on p Reg.BNK_BNK_OWN_BUSY then
      s.wrs p [(Reg.BNK_BNK_OWN_OWNER, o), (Reg.BNK_BNK_OWN_B_AGENT, a)]
    else s.bnkOwn b o a

/-! The other blocks. -/

/-- A display head switches (R49, R384): its pending commits are dropped, and the image waits for its next frame start; a head that
does not run takes it at once. -/
def State.switchDsp (s : State) (re : Bool) (h : Nat) : State :=
  if !re then s
  else
    let p := pg .dsp h
    let s := s.wr p Reg.SH_STAT_DROPPED (s.rd p Reg.SH_STAT_DROPPED ||| s.rd p Reg.SH_CTL_COMMIT)
    let s := s.wr p Reg.SH_CTL_COMMIT 0
    let s := { s with page := { s.page with lateCommit := s.page.lateCommit.filter (fun x => x / 8 != p) } }
    let s := s.reload re p
    let s := s.setDspHead h { s.dspHead h with image := true }
    if s.headRuns h then s
    else
      let s := (s.dspApply h).1
      s.setDspHead h { s.dspHead h with image := false }

/-- The DLB page switches: an interface that is enabled, disabled or changes its role starts afresh (R354, R359). -/
def State.switchDlb (s : State) (re : Bool) : State :=
  let p := pg .dlb 0
  let key (s : State) := (s.rd p Reg.DLB_DLB_CFG_EN, s.rd p Reg.DLB_DLB_CFG_SOURCE)
  let was := key s
  let s := s.reload re p
  if key s = was then s else ({ s with dlb := {} }).wr p Reg.DLB_DLB_STAT_TC_LOCK 0

/-- The TIO page switches (R97). -/
def State.switchTio (s : State) (re : Bool) : State :=
  let s := s.reload re (pg .tio 0)
  if re then s.detEnWrite (s.rd (pg .tio 0) Reg.TIO_OUT_FLT_CTL_DET_EN) else s

/-- The VGL page switches: a health counter that is enabled starts its PEAK afresh (R542). -/
def State.switchVgl (s : State) (re : Bool) : State :=
  let p := pg .vgl 0
  let off := (List.range 16).filter (fun n => !s.on p (Reg.VGL_HC_CFG_EN n))
  let s := s.reload re p
  s.each (off.filter (fun n => s.on p (Reg.VGL_HC_CFG_EN n))) (fun s n => s.wr p (Reg.VGL_HC_VAL_PEAK n) 0)

/-- The CMP page switches (R517, R521): ramps go on from their present values; a comparator whose CMP_CFG changes is enabled
anew. Where the page did not run (`ran`), all of it starts. -/
def State.switchCmp (s : State) (re ran : Bool) : State :=
  if !re then (if ran then s else s.cmpRestart)
  else
    let p := pg .cmp 0
    let ct := s.cmpTime
    let cfg (k : Nat) : List Fld := (imgFields p).filter (fun f => f.off == 0x100 + 8 * k)
    let changed := (List.range 16).filter (fun k => (cfg k).any (fun f => s.rd p f != imgField s.liveImg p f))
    let ramps := (List.range 8).map (fun r => (r, s.rampVal r ct, s.rampOn r))
    let s := s.reload re p
    let s := s.each ramps (fun s r =>
      let x := s.cmpRamp r.1
      s.setCmpRamp r.1 { val := r.2.1, at_ := ct, since := if s.rampOn r.1 && !r.2.2 then ct else x.since })
    if ran then (s.each changed (fun s k => s.cmpEnable k)).cmpNow none 0 else s.cmpRestart

/-- Page `p`, other than a context's, may switch now (R487). -/
def State.blockReady (s : State) (p : Nat) : Bool :=
  match blkOf p with
  | some .xfp => s.pipeFree (instOf p)
  | some .den => !s.rides (s.denRide (instOf p))
  | some .tmp => s.tmp.run.isNone
  | some .lnk => s.linkReady (instOf p)
  | some .lqd => (List.range 64).all (fun l => !s.epo.todo.contains (pg .lnk l) || s.linkReady l ||
      !(s.linkLanes l).any (fun x => x / 8 == instOf p))
  | some .slt => (List.range 64).all (fun l => !s.epo.todo.contains (pg .lnk l) || s.linkReady l || !(s.linkSlots l).contains (instOf p))
  | some .scr => s.coreAtBoundary (instOf p)
  | _ => true

/-- Page `p`, other than a context's, switches at tick `t`. -/
def State.switchBlock (s : State) (p t : Nat) : State :=
  let re := s.reloads p
  let was := s.inEpoch p
  let ran := s.enAct p == 1
  let i := instOf p
  let s := s.useBlock p
  match blkOf p with
  | some .lqd => s.switchLqd re i
  | some .lnk => s.switchLnk re was i
  | some .slt => s.switchSlt re was i
  | some .xfp => s.switchXfp re i
  | some .den => s.switchDen re i
  | some .tmp => s.switchTmp re
  | some .tru => s.switchTru re i t
  | some .trn => s.switchTrn re t
  | some .scr => s.switchScr re was i
  | some .bnk => s.switchBnk re i
  | some .dsp => s.switchDsp re i
  | some .dlb => s.switchDlb re
  | some .tio => s.switchTio re
  | some .vgl => s.switchVgl re
  | some .cmp => s.switchCmp re ran
  | _ => s.reload re p

end Sys2Proof.Machine
end

