-- ==== Sys2Proof/Machine/EpochCtx.lean ====
section
/-!
DEFINITION. How a context switches to a new epoch: it starts, stays or stops (R139, R170, R181, R182, R190, R215, R216, R229, R247, R288,
R298, R302, R305, R310, R313, R314, R335, R413, R487, R488, R568).
-/
namespace Sys2Proof.Machine

/-! What the images say of a context. -/

/-- The corrected input of context `c` under an image: base slot and BOND_LOG2 (R190). -/
def imgInput (img : Option EpochImage) (c : Nat) : Option (Nat × Nat) :=
  let n := imgField img (pg .ctx c) Reg.CTX_SRC_CFG_SLOT
  let b := imgField img (pg .slt n) Reg.SLT_SLT_CFG_BOND_LOG2
  if imgRuns img c && imgField img (pg .ctx c) Reg.CTX_IC_CFG_IC_EN == 1 && b != 0 then some (n, b) else none

/-- Fields of a context's page that follow its transform's switch point (R216, R288): transform and mask settings. -/
def xfField (f : Fld) : Bool := (0x400 ≤ f.off && f.off < 0x480) || f.off == 0x510 || f.off == 0x518

/-- What decides mask m of context `c`: MASK_CFG, and the segments of an enabled mask (R267, R288). -/
def maskKey (img : Option EpochImage) (c m : Nat) : List Nat :=
  let p := pg .ctx c
  let q := imgField img p (Reg.CTX_XF_PIPES0_PIPE 0)
  let segs := if imgField img p (Reg.CTX_MASK_CFG_EN m) = 0 then []
    else (List.range (imgField img p (Reg.CTX_MASK_CFG_NSEG_M1 m) + 1)).map (fun k =>
      imgWord img 3 q (imgField img p (Reg.CTX_MASK_CFG_BASE m) + k))
  ctxVals img c (fun f => f.off == 0x510 + 8 * m) ++ segs

/-! Corrected inputs (R181, R182, R190). -/

/-- Registers that every context on one input shares (R201). -/
def icShared : List Fld := ctxFields.filter (fun f => f.acc == .ro && 0x280 ≤ f.off && f.off < 0x318)

/-- The input at slot `n` stays in use across the equinox, or has appeared at it. -/
def State.inputKept (s : State) (n : Nat) : Bool := s.epo.inputs.contains n

/-- Context `c` leaves the input that it had, at the sample stamped `stamp` (R190): its CAL_TIER1 leap ends. The last context on an input that
stays in use leaves the input's registers behind; on one that does not, it takes the run with it. -/
def State.icLeave (s : State) (c : Nat) (stamp : SubTick) : State :=
  let n := s.srcSlot c
  if !s.on (pg .ctx c) Reg.CTX_IC_CFG_IC_EN || (imgInput s.oldImg c).isNone || imgInput s.liveImg c == imgInput s.oldImg c then s
  else
    let others := (s.inputCtxs n).filter (fun e => e != c && s.on (pg .ctx e) Reg.CTX_IC_CFG_IC_EN)
    let busy := (s.input n).from_.isSome
    let s := if !others.isEmpty then s
      else if s.inputKept n then s.setInput n { s.input n with shown := icShared.map (fun f => s.rd (pg .ctx c) f) }
      else s.t1Abandon n 5 stamp
    if busy then (s.regain c stamp).gapEnd c else s

/-- Context `c` is on its input under the new epoch, from the sample stamped `stamp` (R181, R182, R190, R201): `was` says that it was before. It
shows what the input's registers hold, and loses what a run withholds. An input that appears takes IC_INIT, and runs tier 1 or
takes its reference temperature. -/
def State.icEnter (s : State) (c : Nat) (was : Bool) (stamp : SubTick) : State :=
  let p := pg .ctx c
  let n := s.srcSlot c
  if !s.on p Reg.CTX_IC_CFG_IC_EN || s.rd (pg .slt n) Reg.SLT_SLT_CFG_BOND_LOG2 = 0 then s.wr p Reg.CTX_IC_STAT_STATE 0
  else if s.inputKept n then
    if was then s
    else
      let s := match (s.inputCtxs n).find? (fun e => e != c && s.on (pg .ctx e) Reg.CTX_IC_CFG_IC_EN) with
        | some e => s.each icShared (fun s f => s.wr p f (s.rd (pg .ctx e) f))
        | none => s.each (icShared.zip (s.input n).shown) (fun s y => s.wr p y.1 y.2)
      let s := s.setInput n { s.input n with shown := [] }
      if (s.input n).from_.isSome then s.lose c 0x07 stamp false else s
  else
    let s := s.t1Abandon n 5 stamp
    let s := { s with epo := { s.epo with inputs := n :: s.epo.inputs } }
    let init := (List.range (s.slices n)).map (fun i => (⟨s.rdS p (Reg.CTX_IC_INIT_GAIN i), s.rdS p (Reg.CTX_IC_INIT_SKEW i),
      s.rdS p (Reg.CTX_IC_INIT_OFFSET i)⟩ : IcCoef))
    let s := s.icWrs n (icShared.map (fun f => (f, 0)))
    let s := (s.setIcAct n init).setInput n { ref := init }
    let s := s.icWr n Reg.CTX_IC_STAT_STATE 1
    if s.on p Reg.CTX_IC_CFG_T1_AT_START then s.t1Request n 4 false
    else s.icWr n Reg.CTX_IC_TEMP_REF_TEMP (unsigned 16 ((s.inputTemp n).getD 0))

/-! Settings that wait for the switch point (R216, R247). -/

/-- The density units and the banks whose settings switch with context `c`. -/
def State.denRiders (s : State) (c : Nat) : List Nat :=
  (List.range 16).filter (fun u => s.epo.todo.contains (pg .den u) && s.denRide u == some c)
def State.depRiders (s : State) (c : Nat) : List Nat := (List.range 64).filter (fun b => s.depChanged b && s.depRide b == some c)

/-- The values that page `p` takes for its fields that satisfy `g`. -/
def State.newVals (s : State) (p : Nat) (g : Fld → Bool) : List (Nat × Fld × Nat) :=
  ((imgFields p).filter g).map (fun f => (p, f, imgField s.liveImg p f))

/-- What takes effect with the first frame of the new grid of context `c`, whose page is reloaded where `re`: its transform and mask
settings, G_W, and the settings of what it feeds. -/
def State.ctxNext (s : State) (c : Nat) (re : Bool) : List (Nat × Fld × Nat) :=
  let p := pg .ctx c
  let mine := if re then s.newVals p xfField else []
  let g := (s.asImage s.liveImg).coherentGain c
  let gain := (p, Reg.CTX_XF_SCALE_GAIN_DB, unsigned 16 (if g ≤ 0 then 0 else gainDb g.toNat))
  let den := (s.denRiders c).flatMap (fun u => if s.reloads (pg .den u) then s.newVals (pg .den u) (fun _ => true) else [])
  let dep := (s.depRiders c).flatMap (fun b => s.newVals (pg .bnk b) depField)
  mine ++ [gain] ++ den ++ dep

/-- The pages of context `c` and of the density units that switch with it leave those still to switch. -/
def State.ctxUse (s : State) (c : Nat) (riders : List Nat) : State :=
  riders.foldl (fun s u => s.useBlock (pg .den u)) (s.useBlock (pg .ctx c))

/-! Records (R310, R488). -/

/-- The epoch record of context `c` at this equinox: `start` and `stop` are its flags. -/
def State.epochMark (s : State) (c : Nat) (start stop : Bool) (stamp : SubTick) : State :=
  let live := s.rd epoPage Reg.EPO_EPO_LIVE_NUMBER
  let s := if stop then s else s.setActx c { s.actx c with epochs := (stamp, live) :: (s.actx c).epochs }
  match (if s.boot.stopped.contains c then s.epo.resume else none) with
  | some r => (s.epochRecord c 8 live live stamp r).charge c (stamp / 16 - r)
  | none => s.epochRecord c (b2n start * 4 + b2n stop * 2 + b2n s.epo.revert) live s.epo.oldNum stamp s.eqxTick

/-- The links that feed the source of context `c` under LIVE. -/
def State.sourceFeeds (s : State) (c : Nat) : List Nat := imgFeeds s.liveImg (imgSlots s.liveImg c)

/-- The LINK records of context `c` after its EPOCH record (R139, R169): of the links that the equinox has added, one that has delivered
since writes UP, and one that is not aligned at a resume writes DOWN; and the loss of a source whose links are not all up
(R170, R484). -/
def State.sourceLinks (s : State) (c : Nat) (stamp : SubTick) : State :=
  let links := s.sourceFeeds c
  let s := s.each links (fun s l =>
    let nm1 := s.rd (pg .lnk l) Reg.LNK_LINK_CFG_N_M1
    let nondet := s.rd (pg .lnk l) Reg.LNK_LINK_CFG_SUBCLASS == 0
    let x := s.lnk l
    let added := x.fromTick != 0 && s.eqxTick ≤ x.fromTick
    if !added then s
    else if s.linkState l = 4 then (match x.firstAt with
      | some b => s.linkRecord c nondet l nm1 4 (16 * b) 0
      | none => s)
    else if s.epo.resume.isSome then s.linkRecord c nondet l nm1 5 stamp 0 else s)
  match links.find? (fun l => s.linkState l != 4) with
  | none => s
  | some l =>
    let gated := (s.lnk l).gatedOnly
    let s := s.openLeap c false (if gated then 0x06 else 0x02) stamp gated
    if s.hasSpec c then s.openLeap c true (if gated then 0x06 else 0x02) stamp gated else s

/-! The first sample under LIVE (R216, R487, R568). -/

/-- The first sample stamped `q` or later of the source of context `c` under LIVE, in units of 2^-32 tick, where the source delivers: from what
waits for the switch, from its last frame, or from the first release of the links that the equinox has added. -/
def State.firstSample (s : State) (c : Nat) (q : SubTick) : Option Nat :=
  let slots := imgSlots s.liveImg c
  let n := slots.headD 0
  let per := s.slotPer n
  let low (l : List Nat) : Option Nat := l.foldl (fun m x => some (match m with
    | some y => min x y
    | none => x)) none
  let lim := (q * 2 ^ 32 - 2 ^ 31 + 15) / 16
  match low ((((s.view c).ahead.flatten).filter (fun x => q ≤ sampleStamp x)).map SlotSample.fine) with
  | some x => some x
  | none =>
    let firsts := (s.sourceFeeds c).map (fun l => (s.lnk l).firstAt.map (fun b => s.slotFine l n b 0))
    let base := match smFind n s.ing.srcAt with
      | some x => some (x + per)
      | none => if firsts.isEmpty || firsts.any Option.isNone then none else some ((firsts.filterMap id).foldl max 0)
    base.bind (fun x => low (slots.map (fun m =>
      let y := x + s.rd (pg .slt m) Reg.SLT_SMP_PHASE_PHASE - s.rd (pg .slt n) Reg.SLT_SMP_PHASE_PHASE
      if per = 0 then y else y + (lim - y + per - 1) / per * per)))

/-- The first view sample of context `c` from source stamp `q` on, where it is known, under the settings that its registers hold: of a
decimated view, the first output of its chain that is stamped at or after the anchor. -/
def State.firstView (s : State) (c : Nat) (q : SubTick) : Option SubTick :=
  (s.firstSample c q).map (fun x =>
    let w := s.viewSet c
    let a := fineStamp x
    if w.mode = 0 ∨ w.dec = 0 then a
    else (((List.range 128).map (fun j => w.decStamp (x + ((j + 1) * 2 ^ w.dec - 1) * w.per / w.slices))).find? (fun z => a ≤ z)).getD a)

/-- The first view sample stamped `q` or later after the last one of context `c`, as its period gives it. -/
def State.stampFrom (s : State) (c : Nat) (q : SubTick) : SubTick :=
  let a := s.nextStamp c
  let p := s.viewPeriod c * 16
  if q ≤ a || p = 0 then a
  else
    let j := (q - a) * 2 ^ 32 / p
    let x := a + s.nearSpan c j
    if q ≤ x then x else a + s.nearSpan c (j + 1)

/-! Drains (R334, R335). -/

/-- The binding of context `c` to the recorder, or with `str` to a stream, works: its handle or slot runs. -/
def State.drainLive (s : State) (c : Nat) (str : Bool) : Bool :=
  if str then s.strBound c && (s.strs (s.rd (pg .ctx c) Reg.CTX_STR_BIND_SLOT)).running
  else s.recBound c && (let x := s.rech (s.rd (pg .ctx c) Reg.CTX_REC_BIND_HANDLE); x.running && !x.ending)

/-- What decides where the drains of context `c` read (R18, R334): the ring, the capture region that is armed or was last, or the drain rings. -/
def State.drainKey (s : State) (img : Option EpochImage) (c : Nat) : List Nat :=
  let mode := imgField img (pg .ctx c) Reg.CTX_CAP_CFG_MODE
  let d := (s.actx c).desc
  if mode = 2 then 2 :: ctxVals img c (fun f => 0x620 ≤ f.off && f.off ≤ 0x638)
  else if mode = 1 ∧ d.mode = 1 ∧ d.policy = 1 then [1]
  else 0 :: ctxVals img c (fun f => 0x710 ≤ f.off && f.off ≤ 0x728)

/-- The context packets of the data streams of context `c` are due (R347). -/
def State.ctxPackets (s : State) (c : Nat) : State :=
  if !s.drainLive c true then s
  else
    let n := s.rd (pg .ctx c) Reg.CTX_STR_BIND_SLOT
    let x := s.strs n
    s.setStrs n { x with ctxDue := (s.dataStreams c).map (4096 + ·) ++ x.ctxDue }

/-! Areas (R314, R413). -/

/-- The ranks that are holes now, as the areas of a context are laid around them. -/
def State.holesNow (s : State) : List Nat := if s.anyHole then (List.range 256).filter (fun k => s.rankHole (k / 4) (k % 4)) else []

/-- The almanac ring of context `c` as its registers give it: base, and the bytes left outside `laid`. -/
def State.almRing (s : State) (c : Nat) (laid : List Nat) : Nat × Nat :=
  let b := s.rd (pg .ctx c) Reg.CTX_ALM_BASE_ADDR
  (b, s.areaBytes laid b (s.rd (pg .ctx c) Reg.CTX_ALM_SIZE_GRAN * 4096))

/-- The records of the ring of context `c` from number `n` on, with LOST_BEFORE on the first where `lost`. -/
def State.ringRest (s : State) (c n : Nat) (lost : Bool) : List (List Nat) :=
  let a := s.actx c
  let w := s.rd (pg .ctx c) Reg.CTX_ALM_WCNT_CNT
  let cap := a.almBytes / 32
  let behind := n + cap < w
  let first := if behind then w - cap else n
  if cap = 0 then []
  else (List.range (w - first)).map (fun i =>
    let addr := s.areaAddr a.laid a.almBase ((first + i) * 32 % a.almBytes)
    let ws := (List.range 4).map (fun j => s.readNat (addr + 8 * j) 8)
    if i = 0 && (lost || behind) then ws.set 0 (setBit (ws.getD 0 0) 53) else ws)

/-- A drain's copy takes the rest of the old ring (R314); its place is then record `n` of the new one. -/
def State.almRest (s : State) (c : Nat) (str : Bool) (n : Nat) : State :=
  let d := s.drainOf c str
  if !d.running then s
  else
    let rest := s.ringRest c d.alm d.lost
    let stop := d.stop.map (fun x => (x.1, x.2.1, n))
    s.setDrain c str { d with copy := d.copy ++ rest, alm := n, lost := false, stop := stop }

/-- Context `c` takes its areas and its almanac ring as its registers and today's holes give them; `ring` says that ALM_BASE or
ALM_SIZE changes. -/
def State.relay (s : State) (c : Nat) (ring : Bool) : State :=
  let laid := s.holesNow
  let a := s.actx c
  let s := if ring || laid != a.laid then
      let n := if ring then 0 else s.rd (pg .ctx c) Reg.CTX_ALM_WCNT_CNT
      (s.almRest c false n).almRest c true n
    else s
  let r := s.almRing c laid
  let s := s.setActx c { s.actx c with laid := laid, almBase := r.1, almBytes := r.2 }
  if ring then s.wr (pg .ctx c) Reg.CTX_ALM_WCNT_CNT 0 else s

/-- Before the page of context `c` is loaded, its drain leaves its source (R25): where `bind` holds, its binding changes, and the old one
takes at once what is left of the source and of the almanac; else, where `src` holds, what is left waits for the drain. -/
def State.drainLeave (s : State) (c : Nat) (str bind src : Bool) : State :=
  if !(s.drainOf c str).running || !(bind || src) then s
  else
    let s := (s.drainKeep c str 0).drainKeep c str 1
    if !bind then s
    else
      let s := s.almRest c str 0
      let d := s.drainOf c str
      let s := (s.setDrain c str { d with rest := [], copy := [] }).drainPut c str d.rest
      s.each d.copy (fun s w => s.almPut c str w)

/-- After the page of context `c` is loaded, its drain goes on, or starts under a new binding. -/
def State.drainEnter (s : State) (c : Nat) (str bind src : Bool) : State :=
  if bind then s.setDrain c str (if s.drainLive c str then s.drainHead c else {})
  else if src then (s.drainMove c str 0).drainMove c str 1 else s

/-! The three cases. -/

/-- A context's capture may be armed under settings that wait for the switch point: they are applied, `f` runs, and they are taken
back (R305). -/
def State.withNext (s : State) (l : List (Nat × Fld × Nat)) (f : State → State) : State :=
  let old := l.map (fun y => (y.1, y.2.1, s.rd y.1 y.2.1))
  (f (s.each l (fun s y => s.wr y.1 y.2.1 y.2.2))).each old (fun s y => s.wr y.1 y.2.1 y.2.2)

/-- A ring of context `c` runs from now on (R300, R305). -/
def State.capBegin (s : State) (c : Nat) : State :=
  if s.rd (pg .ctx c) Reg.CTX_CAP_CFG_MODE = 2 then
    (s.setActx c { s.actx c with desc := s.capDesc c, trail := [], recs := [], violated := false, releasing := false
                                 frozenAt := none }).setCapState c 6
  else s

/-- AUTO_ARM arms at the switch point (R320). -/
def State.autoArm (s : State) (c : Nat) (next : List (Nat × Fld × Nat)) : State :=
  if s.on (pg .ctx c) Reg.CTX_CAP_CFG_AUTO_ARM && s.rd (pg .ctx c) Reg.CTX_CAP_CFG_MODE = 1 then
    s.withNext next (fun s => s.arm c) else s

/-- The source frames that waited for the switch of context `c` reach its view, corrected where `fix` says that its corrector has appeared at the
switch (notes/assumptions/169). -/
def State.feedAhead (s : State) (c : Nat) (fix : Bool) (l : List (List SlotSample)) : State :=
  s.each l (fun s xs =>
    let y := if fix then s.corrected (s.srcSlot c) xs else (xs, s)
    y.2.feed c y.1)

/-- Context `c` starts under LIVE (R139, R298, R488, R568): with the first view sample from the equinox tick on, or, where its source does
not deliver, with the one stamped `stamp`. -/
def State.ctxStart (s : State) (c t : Nat) (stamp : SubTick) : State :=
  let p := pg .ctx c
  let eqx := 16 * s.eqxTick
  let resumed := s.epo.resume.isSome && s.boot.stopped.contains c
  let next := s.ctxNext c true
  let ahead := (s.view c).ahead
  let fix := (s.icCtx (imgField s.liveImg p Reg.CTX_SRC_CFG_SLOT)).isNone
  let s := s.ctxUse c (s.denRiders c)
  let s := s.each ((imgFields p).filter (fun f => !xfField f)) (fun s f => s.wr p f (imgField s.liveImg p f))
  let s := s.wrs p [(Reg.CTX_VIEW_PERIOD_PERIOD, s.viewPer c), (Reg.CTX_XF_FRAMES_FRAMES, 0)]
  let stamp := (s.firstView c eqx).getD (max eqx stamp)
  let s := if resumed then s
    else s.wrs p [(Reg.CTX_RAW_WCNT_CNT, 0), (Reg.CTX_SPEC_WCNT_CNT, 0), (Reg.CTX_ALM_WCNT_CNT, 0)]
  let a := s.actx c
  let laid := s.holesNow
  let r := s.almRing c laid
  let s := s.setActx c {
    running := true, almBase := r.1, almBytes := r.2, queued := a.queued, reserved := a.reserved
    deliv := a.deliv, leap := a.leap, sdeliv := a.sdeliv, sleap := a.sleap, acct := a.acct, last := stamp - spanOver (s.viewPeriod c) 1
    laid := laid, drnRaw := if resumed then a.drnRaw else 0, drnSpec := if resumed then a.drnSpec else 0
    recDrain := if resumed then a.recDrain else {}, strDrain := if resumed then a.strDrain else {} }
  let s := s.viewStart c s.eqxTick eqx
  let s := (s.setXfc c { next := next, renewed := [0, 1, 2, 3] }).xfSwitch c t
  let s := (s.setCapState c 0).capBegin c
  let s := (s.drainEnter c false (!resumed) false).drainEnter c true (!resumed) false
  let s := s.epochMark c true false stamp
  let s := (s.sourceLinks c stamp).icEnter c resumed stamp
  ((s.ctxPackets c).autoArm c []).feedAhead c fix ahead

/-- The transform of context `c` passes its switch point (R204, R216): the frames of the old grid that start before it go on, where the old
source still delivers; the new grid is to begin. -/
def State.gridTurn (s : State) (c : Nat) (next : List (Nat × Fld × Nat)) (renewed : List Nat) : State :=
  let x := s.xfc c
  let y := { x with next := next, renewed := renewed }
  match x.cur with
  | none => s.setXfc c y
  | some g =>
    if (s.view c).gap || s.sourceGone c || g.got % max 1 g.hop != 0 then
      s.setXfc c { y with seq := g.seq0 + g.next, cur := none, prev := none }
    else
      let g := { g with stop := some g.got }
      s.setXfc c { y with seq := g.seq0 + g.got / max 1 g.hop, cur := none, prev := if g.more then some g else none }

/-- Context `c` runs on under LIVE from its switch sample (R216, R305, R314, R487, R488, R568): the first of the view samples that wait for
the switch; where none does, the next one from the equinox tick on. -/
def State.ctxStay (s : State) (c t : Nat) : State :=
  let p := pg .ctx c
  let old := s.oldImg
  let live := s.liveImg
  let eqx := 16 * s.eqxTick
  let re := s.reloads p
  let next := s.ctxNext c re
  let riders := s.denRiders c
  let same (g : Fld → Bool) : Bool := !re || ctxVals old c g == ctxVals live c g
  let viewed := s.viewChanges c
  let ranXf := s.xfRuns c false
  let v := s.view c
  let was := s.viewSet c
  let point := match v.held with
    | y :: _ => y.stamp
    | [] => s.stampFrom c eqx
  let from_ := if ranXf then point else eqx
  let mode := s.rd p Reg.CTX_CAP_CFG_MODE
  let s := ((s.clockWrite c).flushRuns c).icLeave c point
  let newMode := if re then imgField live p Reg.CTX_CAP_CFG_MODE else mode
  let st := s.capState c
  let s := if 1 ≤ st ∧ st ≤ 4 ∧ newMode ≠ 1 then s.stopCapture c (newMode == 0)
    else if 5 ≤ st ∧ newMode ≠ mode then s.setCapState c 0 else s
  let wasOn := (imgInput old c).isSome && imgInput old c == imgInput live c
  let n := imgField live p Reg.CTX_SRC_CFG_SLOT
  let fix := (s.icCtx n).isNone
  let busy := s.inputKept n && 2 ≤ s.icRd n Reg.CTX_IC_STAT_STATE
  let wait (f : Fld) : Bool := busy && 0x180 ≤ f.off && f.off ≤ 0x190 && f != Reg.CTX_IC_CFG_IC_EN
  let levels := [0, 1].filter (fun l => !same (fun f => f.off == 0x520 + 8 * l))
  let s := s.each levels (fun s l => s.levelEnd c l t)
  let later := if re then s.newVals p wait else []
  let s := if later.isEmpty then s else s.setInput n { s.input n with later := (s.input n).later ++ later }
  let src := re && s.drainKey old c != s.drainKey live c
  let recNew := !same (fun f => f.off == 0x700)
  let strNew := !same (fun f => f.off == 0x708)
  let s := (s.drainLeave c false recNew src).drainLeave c true strNew src
  let s := s.ctxUse c riders
  let s := if re then s.each ((imgFields p).filter (fun f => !xfField f && !wait f)) (fun s f => s.wr p f (imgField live p f)) else s
  let s := if viewed then s.wr p Reg.CTX_VIEW_PERIOD_PERIOD (s.viewPer c) else s
  let s := s.relay c (!same (fun f => f.off == 0x640 || f.off == 0x648))
  let s := (s.drainEnter c false recNew src).drainEnter c true strNew src
  let stamp := if viewed then (s.firstView c from_).getD point else point
  let s := s.epochMark c false false stamp
  let s := if viewed && s.restartOpen c then
      let b := s.actx c
      let again (o : Option OpenLeap) : Option OpenLeap := o.map (fun l => { l with start := stamp })
      let s := s.regain c point
      s.setActx c { s.actx c with openRaw := again b.openRaw, openSpec := again b.openSpec }
    else s
  let masks := [0, 1].filter (fun m => maskKey old c m != maskKey live c m)
  let s := s.gridTurn c next masks
  let s := if s.rd p Reg.CTX_CAP_CFG_MODE = 2 && s.capState c != 5 then
      (if s.capState c = 6 then s.setActx c { s.actx c with desc := s.capDesc c } else s.capBegin c)
    else s
  let s := if viewed then
      let s := s.setView c { v with held := [], ahead := [], gap := false, cur := { eqx := s.eqxTick, from_ := from_ }
                                    old := if (s.xfc c).prev.isSome then some (was, v.cur) else none }
      s.each v.held (fun s y => s.prevTake c y)
    else s.setView c { s.view c with held := [], ahead := [] }
  let s := (s.sourceLinks c stamp).icEnter c wasOn stamp
  let s := if !viewed && same xfField then s else s.ctxPackets c
  let s := (s.autoArm c next).xfSettle c t
  if viewed then s.feedAhead c fix v.ahead else s.each v.held (fun s y => s.viewTake c y)

/-- Context `c`, whose transform runs, passes the switch point at which it stops (R216, R488): only the frames that start before it go on. -/
def State.ctxEnding (s : State) (c : Nat) : State :=
  let v := s.view c
  let x := s.xfc c
  let prev := if v.gap then none else x.cur.bind (fun g => let g := { g with stop := some g.got }; if g.more then some g else none)
  let s := s.setXfc c { x with ending := true, cur := none, prev := prev }
  let s := s.setView c { v with held := [] }
  s.each v.held (fun s y => s.prevTake c y)

/-- Context `c` stops (R170, R229, R302, R305, R488): its last sample under the old epoch is the one before the first of those that wait
for the switch, or the last one before the equinox tick of those lost. -/
def State.ctxStop (s : State) (c t : Nat) : State :=
  let next := (s.ctxNext c false).filter (fun y => y.1 != pg .ctx c)
  let riders := s.denRiders c
  let stop := match (s.view c).held with
    | y :: _ => y.stamp
    | [] => if (s.xfc c).ending then s.nextStamp c else s.stampFrom c (16 * s.eqxTick)
  let s := (s.clockWrite c).flushRuns c
  let last := if (s.actx c).openRaw.isSome then stop - s.nearSpan c 1 else (s.actx c).last
  let s := s.icLeave c stop
  let s := ((s.stopCapture c false).regain c stop).ringKept c stop
  let s := s.epochMark c false true last
  let s := [false, true].foldl (fun (s : State) str =>
    let d := s.drainOf c str
    if d.running && d.stop.isNone then s.setDrain c str (s.drainStop c d) else s) s
  let s := s.setActx c { s.actx c with running := false }
  let s := s.wr (pg .ctx c) Reg.CTX_IC_STAT_STATE 0
  let s := s.ctxUse c riders
  let s := (s.setXfc c { s.xfc c with next := next, renewed := [0, 1, 2, 3] }).xfSwitch c t
  ((s.setXfc c {}).setView c {}).ctxRelease c

/-- Frames of context `c` before its switch point cannot complete, as their source delivers no more (R171): they are lost. -/
def State.prevEnd (s : State) (c : Nat) : State :=
  match (s.xfc c).prev with
  | some g => if s.sourceGone c && !g.ready then s.prevLost c 0x02 else s
  | none => s

/-- The links of a starting context's source have given their first release under LIVE, or are not up. -/
def State.feedsKnown (s : State) (c : Nat) : Bool :=
  (s.sourceFeeds c).all (fun l => s.linkState l != 4 || (s.lnk l).fromTick < s.eqxTick || (s.lnk l).firstAt.isSome)

/-- Context `c` may switch now (R216, R487, R488): a starting one with its source; a running one with the sample that waits for the switch, or at
once where none will come; one that stops after the last of its frames. -/
def State.ctxReady (s : State) (c : Nat) : Bool :=
  let a := s.actx c
  let x := s.xfc c
  let free := s.sourceGone c || !a.begun || (s.restartOpen c && (!imgRuns s.liveImg c || !s.xfRuns c false))
  if !a.running then !imgRuns s.liveImg c || (s.sourceReady c && s.feedsKnown c)
  else if imgRuns s.liveImg c then s.sourceReady c && (free || !(s.view c).held.isEmpty)
  else if x.ending then x.prev.isNone && x.frames.isEmpty
  else free || (!(s.view c).held.isEmpty && !s.xfRuns c false)

/-- Context `c` switches. -/
def State.switchCtx (s : State) (c t : Nat) (stamp : SubTick) : State :=
  let ran := (s.actx c).running
  if imgRuns s.liveImg c then (if ran then s.ctxStay c t else s.ctxStart c t stamp)
  else if ran then s.ctxStop c t
  else
    let s := s.ctxUse c (s.denRiders c)
    s.ctxRelease c

/-- Context `c` switches where it may; one that stops while its transform runs passes its switch point first. -/
def State.ctxTurn (s : State) (c t : Nat) (stamp : SubTick) : State :=
  let s := s.prevEnd c
  if s.ctxReady c then s.switchCtx c t stamp
  else if !imgRuns s.liveImg c && !(s.view c).held.isEmpty && !(s.xfc c).ending then s.ctxEnding c else s

end Sys2Proof.Machine
end

