-- ==== Sys2Proof/Machine/Epochs.lean ====
section
/-!
DEFINITION. The equinox: the slots rotate, each block switches at its own point, the switch completes, and probation ends
(R116, R139, R190, R216, R478, R486 to R492, R533).
-/
namespace Sys2Proof.Machine

/-- A store on page `p` differs between two images (R487). -/
def pageStores (old new : Option EpochImage) (p : Nat) : Bool :=
  let i := instOf p
  match blkOf p with
  | some .xfp => storeChanged old new 2 i || storeChanged old new 3 i
  | some .tmp => (List.range 4).any (fun k => storeChanged old new 4 k)
  | some .scr => storeChanged old new 5 i || imgGregs old i != imgGregs new i
  | _ => false

/-- The pages that switch at the equinox in progress: those of the contexts that run before or after it, and those whose
registers, stores or use differ between the two epochs. -/
def State.switchPages (s : State) : List Nat :=
  let old := s.oldImg
  let live := s.liveImg
  let ctx := ((List.range 1024).filter (fun c => s.eitherRuns c)).map (pg .ctx)
  let used := s.usedPages live
  let rest := (s.usedPages old ++ used).filter (fun p => blkOf p != some .ctx &&
    (pageChanged old live p || pageStores old live p || used.contains p != s.inEpoch p))
  (ctx ++ rest).eraseDups

/-- The corrected inputs in use before the equinox that the new epoch uses with the same slots (R190); a resume keeps them all
(R139). -/
def State.inputsKept (s : State) : List Nat :=
  if s.epo.resume.isSome then s.epo.inputs
  else
    let old := (List.range 1024).filterMap (imgInput s.oldImg)
    let live := (List.range 1024).filterMap (imgInput s.liveImg)
    s.epo.inputs.filter (fun n => old.any (fun x => x.1 == n && live.contains x))

/-- The inputs that the new epoch does not use leave those in use; a run still pending on one is dropped (R190). -/
def State.inputsTurn (s : State) : State :=
  let kept := s.inputsKept
  let s := s.each (s.epo.inputs.filter (fun n => !kept.contains n && s.icRd n Reg.CTX_IC_STAT_STATE == 2)) (fun s n =>
    let s := s.each (s.calCmds n) (fun s e => s.complete e .calAbandoned 0 0)
    s.icWrs n [(Reg.CTX_IC_STAT_STATE, 1), (Reg.CTX_IC_STAT_FORCED, 0), (Reg.CTX_IC_STAT_PENDING, 0)])
  { s with epo := { s.epo with inputs := kept } }

/-- LIVE and PRIOR swap, or LIVE becomes PRIOR and STAGED becomes LIVE; a resume leaves the slots as they are (R139, R478, R487,
R491, R492). -/
def State.rotate (s : State) : State :=
  let p := epoPage
  let rev := s.on p Reg.EPO_EQX_STAT_REVERT
  let liveNo := s.rd p Reg.EPO_EPO_LIVE_NUMBER
  let digest (f : Nat → Fld) : List Word := (List.range 4).map (fun i => BitVec.ofNat 64 (s.rd p (f i)))
  let old := if s.boot.warmAt.isSome then none else s.epo.live
  let s := { s with epo := { s.epo with old := old, oldNum := liveNo, revert := rev } }
  if s.epo.resume.isSome then s
  else if rev then
    let auto := s.rd p Reg.EPO_EQX_STAT_AUTO
    let s := { s with epo := { s.epo with live := s.epo.prior, prior := s.epo.live } }
    let s := s.wrs p [(Reg.EPO_EPO_LIVE_NUMBER, s.rd p Reg.EPO_EPO_PRIOR_NUMBER), (Reg.EPO_EPO_PRIOR_NUMBER, liveNo),
      (Reg.EPO_EPO_PRIOR_VALID, 1), (Reg.EPO_EPO_PRIOR_FAILED, auto)]
    (s.setDigest Reg.EPO_DIG_LIVE_WORD (digest Reg.EPO_DIG_PRIOR_WORD)).setDigest Reg.EPO_DIG_PRIOR_WORD
      (digest Reg.EPO_DIG_LIVE_WORD)
  else
    let s := { s with epo := { s.epo with live := s.epo.staged, prior := s.epo.live, staged := none } }
    let s := s.wrs p [(Reg.EPO_EPO_LIVE_NUMBER, s.rd p Reg.EPO_EPO_STAGED_NUMBER), (Reg.EPO_EPO_PRIOR_NUMBER, liveNo),
      (Reg.EPO_EPO_PRIOR_VALID, 1), (Reg.EPO_EPO_PRIOR_FAILED, 0), (Reg.EPO_EPO_STAGED_VALID, 0),
      (Reg.EPO_EPO_STAGED_NUMBER, 0)]
    ((s.setDigest Reg.EPO_DIG_LIVE_WORD (digest Reg.EPO_DIG_STAGED_WORD)).setDigest Reg.EPO_DIG_PRIOR_WORD
      (digest Reg.EPO_DIG_LIVE_WORD)).setDigest Reg.EPO_DIG_STAGED_WORD []

/-- Probation starts (R490). -/
def State.probStart (s : State) : State :=
  let p := epoPage
  if !s.on p Reg.EPO_PROB_CFG_EN then s
  else
    let s := s.wrs p [(Reg.EPO_PROB_STAT_ACTIVE, 1), (Reg.EPO_PROB_STAT_PASSED, 0), (Reg.EPO_PROB_STAT_FAILED, 0),
      (Reg.EPO_PROB_STAT_FAIL_CRIT, 0)]
    { s with epo := { s.epo with
      crit := s.rd p Reg.EPO_PROB_CFG_CRIT, leapMax := s.rd p Reg.EPO_PROB_CFG_LEAP_MAX
      leapCauses := s.rd p Reg.EPO_PROB_CFG_LEAP_CAUSES, leaps := 0
      probEnd := s.tick + s.rd p Reg.EPO_PROB_CFG_PROB_MS * 1600000 } }

/-- The pending equinox is due: its tick has come, outside a gated interval (R116, R487). -/
def State.eqxDue (s : State) : Bool :=
  s.on epoPage Reg.EPO_EQX_STAT_PENDING && !s.on epoPage Reg.EPO_EQX_STAT_SWITCHING &&
    decide (s.rd epoPage Reg.EPO_EQX_TICK_TICK ≤ s.tick) && !s.gated

/-- The tick of the equinox lay in the last gated interval (R116, R489). -/
def State.eqxLate (s : State) : Bool :=
  let q := s.rd epoPage Reg.EPO_EQX_TICK_TICK
  decide (s.clk.gateAt ≤ q) && decide (q < s.clk.gateAt + s.rd (pg .tmb 0) Reg.TMB_KEEP_STAT_LAST_GAP)

/-- The streams of the hops out of service take other paths (R533). -/
def State.rerouted (s : State) : State :=
  { s with rel := { s.rel with hop := s.rel.hop.map (fun x => (x.1,
    if (s.rd (pg .fab (x.1 / 8)) Reg.FAB_HOP_STAT_OOS).testBit (x.1 % 8) then { x.2 with uses := [] } else x.2)) } }

/-- EQUINOX (R486, R487, R490 to R492): `alt` gives each router the hops whose streams now use the alternate path (R533). -/
def execEquinox (t : Nat) (alt : List (Fin 64 × BitVec 8)) (s : State) : Host.Outcome State Fault Refusal :=
  let s := s.advance t
  .next (if !s.eqxDue then s
    else
      let p := epoPage
      let late := s.eqxLate
      let s := s.rotate
      let s := s.wrs p [(Reg.EPO_LAST_EQX_TICK, s.rd p Reg.EPO_EQX_TICK_TICK), (Reg.EPO_EQX_STAT_PENDING, 0),
        (Reg.EPO_EQX_STAT_SWITCHING, 1)]
      let s := s.each alt (fun s a => s.wr (pg .fab a.1) Reg.FAB_HOP_STAT_ALT_USE a.2.toNat)
      let s := s.rerouted
      let s := s.inputsTurn
      let s := { s with epo := { s.epo with todo := s.switchPages } }
      let s := if s.epo.revert then s else s.probStart
      let s := (s.event .epo 0 2).eventIf s.epo.revert .epo 0 5
      s.eventIf late .epo 0 6)

/-- BLOCK_SWITCH (R487): a page reaches its switch point. `stamp` is the first sample of a context that starts while its source does not
deliver. -/
def execBlockSwitch (t : Nat) (page : Fin 4096) (stamp : SubTick) (s : State) : Host.Outcome State Fault Refusal :=
  let s := s.advance t
  let p := page.val
  .next (if !s.epo.todo.contains p || s.gated || s.tick < s.eqxTick then s
    else if blkOf p = some .ctx then s.ctxTurn (instOf p) s.tick stamp
    else if s.blockReady p then s.switchBlock p s.tick else s)

/-- CONTEXT_SWITCH (R216): a running context has reached its switch point, the first frame start on its grid at or after the equinox tick: the
view samples from there on wait for this. Under LIVE it takes the new settings with the first of them; a context that LIVE does
not run ends its grid there, and leaves once its frames are done. -/
def execContextSwitch (t : Nat) (c : Fin 1024) (s : State) : Host.Outcome State Fault Refusal :=
  let s := s.advance t
  .next (if !(s.actx c).running || !s.epo.todo.contains (pg .ctx c) || s.gated || s.tick < s.eqxTick then s
    else s.ctxTurn c s.tick 0)

/-- EQUINOX_COMPLETE (R488): the last block has switched. -/
def execEquinoxComplete (t : Nat) (s : State) : Host.Outcome State Fault Refusal :=
  let s := s.advance t
  .next (if !s.on epoPage Reg.EPO_EQX_STAT_SWITCHING || s.gated then s
    else
      let s := s.each (s.xf.ctx.map Prod.fst) (fun s c => (s.prevEnd c).xfSettle c s.tick)
      let idle := s.epo.todo.isEmpty && [0, 1].all (fun h => !(s.dspHead h).image) && s.xf.ctx.all (fun x => x.2.next.isEmpty)
      if !idle then s
      else
        let s := s.wrs epoPage [(Reg.EPO_EQX_STAT_SWITCHING, 0), (Reg.EPO_LAST_DONE_TICK, s.tick)]
        { s with epo := { s.epo with resume := none, old := none }
                 boot := { s.boot with warmAt := none, stopped := [] } })

/-- PROBATION_PASS (R490): probation's time is over, and the equinox is complete. -/
def execProbationPass (t : Nat) (s : State) : Host.Outcome State Fault Refusal :=
  let s := s.advance t
  let p := epoPage
  .next (if !s.on p Reg.EPO_PROB_STAT_ACTIVE || s.tick < s.epo.probEnd || s.on p Reg.EPO_EQX_STAT_SWITCHING || s.gated then s
    else (s.wrs p [(Reg.EPO_PROB_STAT_ACTIVE, 0), (Reg.EPO_PROB_STAT_PASSED, 1)]).event .epo 0 3)

end Sys2Proof.Machine
end

