-- ==== Sys2Proof/Machine/Startup.lean ====
section
/-!
DEFINITION. Start-up from ROM verification to the end of its parallel steps, and the warm reset (R22, R50, R57, R103, R126 to R142,
R145, R323, R365, R412, R493 to R497).
-/
namespace Sys2Proof.Machine

/-! What a warm reset keeps (R50, R137). -/

/-- A read-only field of a page of block `b` that keeps its value; `first` says that the clocks have never been released. -/
def warmRo (first : Bool) (b : Blk) (f : Fld) : Bool := match b with
  | .glb => f == Reg.GLB_BOOT_STAT_WARM_CNT
  | .clk => !first || f == Reg.CLK_PLL_STAT_REF_PRESENT || f == Reg.CLK_SYSREF_STAT_SEEN_CNT
  | .tmb => f.off == 0x140
  | .pwr | .sec | .fab => true
  | .epo => f.off != 0x128 && f != Reg.EPO_PROB_STAT_ACTIVE && f != Reg.EPO_EPO_STAGED_LOADING
  | .svc => f == Reg.SVC_SVC_STAT_RESTARTS
  | .vgl => f == Reg.VGL_FLOG_WCNT_CNT
  | .hka => f == Reg.HKA_HKA_STAT_CAL_VALID || f == Reg.HKA_HKA_STAT_CAL_NOMINAL
  | .ctx => (0x280 ≤ f.off && f.off < 0x318) || (0x670 ≤ f.off && f.off ≤ 0x680)
  | .mst => f.off == 0x130 && f != Reg.MST_FREQ_STAT_BUSY
  | .mch => (f.off == 0x100 && f != Reg.MCH_MCH_STAT_POSTPONED) || f.off == 0x108 || f == Reg.MCH_POISON_STAT_ENTRIES
  | .dsp => f == Reg.DSP_LINK_STAT_HPD
  | _ => false

/-- The register file's entry at key `k` survives a warm reset: RWS fields, the fields above, and the levels of conditions that
persist. -/
def warmKeeps (first : Bool) (k : Nat) : Bool :=
  let p := k / 262144
  let off := k / 64 % 4096
  match pageRow p with
  | none => false
  | some r =>
    (off == 0x020 && [Blk.pwr, .fab, .mch, .mst].contains r.blk) ||
      (blkFields r.blk (p - r.first)).any (fun f => f.off == off && f.lo == k % 64 &&
        (f.acc == .rws || (f.acc == .ro && warmRo first r.blk f)))

/-- Tier-1 runs requested or in progress are dropped without a record (R137). -/
def State.t1Drop (s : State) (n : Nat) : State :=
  let st := s.icRd n Reg.CTX_IC_STAT_STATE
  let s := if st = 3 ∨ st = 4 then s.setIcAct n (s.input n).saved else s
  let s := if 2 ≤ st then s.icWrs n [(Reg.CTX_IC_STAT_STATE, 1), (Reg.CTX_IC_STAT_FORCED, 0), (Reg.CTX_IC_STAT_PENDING, 0)] else s
  s.setInput n { s.input n with from_ := none, acc := [], acc1 := [], est1 := [], line := [], later := [] }

/-- What a context's capture path keeps (R137, R138): its areas, its counters, and the places of its drains. -/
def AcqCtx.warm (a : AcqCtx) : AcqCtx :=
  { almBase := a.almBase, almBytes := a.almBytes, deliv := a.deliv, leap := a.leap, sdeliv := a.sdeliv, sleap := a.sleap, acct := a.acct
    laid := a.laid, desc := a.desc, drnRaw := a.drnRaw, drnSpec := a.drnSpec, recDrain := a.recDrain, strDrain := a.strDrain }

/-- The state of a channel once its DRAM is in self-refresh, where a training of step 6 starts anew (R137, R141). -/
def warmChan : Nat → Nat
  | 1 => 0 | 2 => 3 | n => n

/-- The start-up that a warm reset asserted now leads to, and the contexts that it stops (R138, R139). -/
def State.warmBoot (s : State) : BootSt :=
  let held := s.boot.warmAt.isSome && !s.boot.stopped.isEmpty
  { avsSent := s.boot.avsSent, done := s.boot.done % 4, warmHeld := true, warm := true, readyAt := s.boot.readyAt
    warmAt := if held then s.boot.warmAt else some s.tick
    stopped := ((if held then s.boot.stopped else []) ++ s.running).eraseDups }

/-- A warm reset with LAST_RESET code `code` is asserted (R50, R135 to R139): everything but what R137 keeps returns to its reset
value. Before the first release the lock is made again. -/
def State.warmReset (s : State) (code : Nat) : State :=
  if !s.pwr.started || s.boot.warmHeld then s
  else
    let first := !s.clk.counting
    let s := s.each (s.ic.map Prod.fst) State.t1Drop
    let loading := s.epo.load.isSome
    let w := State.reset
    let s := { w with
      rf := s.rf.filter (fun x => warmKeeps first x.1), tick := s.tick, upTime := s.upTime, boot := s.warmBoot, clk := if first then {} else s.clk
      ev := { w.ev with raised := s.ev.raised }, rel := { s.rel with hcOver := [], stale := [] }
      pwr := { s.pwr with lastReset := code }, tio := { w.tio with pads := s.tio.pads }
      acq := { w.acq with ctx := s.acq.ctx.map (fun (x : Nat × AcqCtx) => (x.1, x.2.warm)) }
      mem := { w.mem with bytes := s.mem.bytes, omitted := s.mem.omitted, poison := s.mem.poison, trainAt := s.mem.trainAt
                          mig := s.mem.mig, migPaused := true, switching := s.mem.switching, switchAt := s.mem.switchAt }
      epo := { w.epo with live := s.epo.live, prior := s.epo.prior, staged := if loading then none else s.epo.staged
                          inputs := s.epo.inputs }
      trg := { w.trg with tin := s.trg.tin }, flash := s.flash, ic := s.ic
      net := { s.net with rec_ := s.net.rec_.map (fun (x : Nat × RecHandle) => (x.1, { x.2 with opening := none, stopping := none, closing := none })) }
      cmp := { w.cmp with off := s.cmp.off, ch := s.cmp.ch.map (fun (x : Nat × CmpCh) => (x.1, { uv := x.2.uv })) }
      pending := s.pending, out := s.out, freeCnt := s.freeCnt }
    let s := s.each (List.range 64) (fun s c => s.wr (pg .mch c) Reg.MCH_MCH_STAT_STATE (warmChan (s.chanState c)))
    let s := s.each (List.range 4) (fun s st => s.wrs (pg .mst st) [(Reg.MST_FREQ_STAT_BUSY, b2n (s.mem.switching.contains st)),
      (Reg.MST_FREQ_STAT_RATE_MBPS, rateMbps (s.stackDiv st))])
    let s := if loading then (s.wrs epoPage [(Reg.EPO_EPO_STAGED_VALID, 0), (Reg.EPO_EPO_STAGED_NUMBER, 0)]).setDigest
      Reg.EPO_DIG_STAGED_WORD [] else s
    (s.bumpSat (pg .glb 0) Reg.GLB_BOOT_STAT_WARM_CNT 1).wr (pg .glb 0) Reg.GLB_BOOT_STAT_LAST_RESET code

/-- RST_N_ASSERT (R135, R136): RST_N has been low for `periods` consecutive periods of the holdover oscillator. -/
def execRstNAssert (t periods : Nat) (s : State) : Host.Outcome State Fault Refusal :=
  let s := s.advance t
  .next (if periods < 100 then s else s.warmReset 3)

/-- A reset of the host endpoint and its PCI page alone (R135). -/
def State.hostReset (s : State) : State :=
  let p := pg .pci 0
  let keep (k : Nat) : Bool := k / 262144 != p || (k / 64 % 4096 == 0x010) || (k / 64 % 4096 == 0x018)
  { s with rf := s.rf.filter (fun x => keep x.1), boot := { s.boot with linkUp := false }, page := { s.page with held := [] }
           mem := { s.mem with held := [], bar2Log2 := 30 }, ev := { raised := s.ev.raised } }

/-- PCIE_HOT_RESET (R135, R325, R362). -/
def execPcieHotReset (t : Nat) (s : State) : Host.Outcome State Fault Refusal :=
  let s := s.advance t
  .next (if !s.pwr.started then s
    else if s.on (pg .glb 0) Reg.GLB_BOOT_CTL_HOST_ISOLATE then s.hostReset.event .pci 0 6 else s.warmReset 4)

/-- PE_PERST_N_ASSERT (R57, R135, R325). -/
def execPePerstNAssert (t : Nat) (s : State) : Host.Outcome State Fault Refusal :=
  let s := s.advance t
  .next (if !s.pwr.started then s
    else if s.on (pg .glb 0) Reg.GLB_BOOT_CTL_HOST_ISOLATE then s.hostReset else s.warmReset 5)

/-- WARM_RESET_RELEASE (R131, R135, R137): the reset ends, and the firmware is verified again. -/
def execWarmResetRelease (t : Nat) (s : State) : Host.Outcome State Fault Refusal :=
  let s := s.advance t
  .next (if !s.boot.warmHeld then s
    else ({ s with boot := { s.boot with warmHeld := false } }).wr (pg .glb 0) Reg.GLB_BOOT_STAT_STEP 3)

/-! Start-up. -/

/-- SEC's fields as the fuses and the flash give them (R494, R502). -/
def State.secSync (s : State) : State :=
  let p := pg .sec 0
  let s := match s.flash.svn with
    | some n => s.wr p Reg.SEC_SEC_STAT_FW_SVN n
    | none => s
  match s.flash.sel with
  | some (x, seq, copy) => s.wrs p [(Reg.SEC_SEL_STAT_SLOT, x), (Reg.SEC_SEL_STAT_SEQ, seq), (Reg.SEC_SEL_STAT_COPY, copy)]
  | none => s

/-- The slot that the ROM checks next (R497): the one that the selector names, then the other. -/
def State.romSlotNext (s : State) : Nat :=
  let sel := s.rd (pg .sec 0) Reg.SEC_SEL_STAT_SLOT % 2
  if s.boot.rejected.isEmpty then sel else 1 - sel

/-- Migrations go on from their journals (R140), unless the service controller restarts. -/
def State.migResume (s : State) : State :=
  if s.svc.restarting then s else { s with mem := { s.mem with migPaused := false, migLast := [] } }

/-- Steps 6 to 8 of R128 start: the converter calibrates, unless its factors are kept, and memory leaves self-refresh where its
training is kept (R137, R140). -/
def State.stepSix (s : State) : State :=
  let s := s.wr (pg .glb 0) Reg.GLB_BOOT_STAT_STEP 6
  let p := pg .hka 0
  let s := (((s.setEn p 1).setEnAct p 1).setPstate p 0).setPstateAct p 0
  let s := if s.boot.done.testBit 1 then s else s.calStart false
  if s.boot.done.testBit 0 && !s.gated then
    (((s.each s.mem.switching State.freqEnd).each (List.range 64) State.wakeChan).serveHeld).migResume
  else s

/-- The board configuration is loaded (R92, R128, R133, R365, R493). -/
def State.boardLoad (s : State) (b : BoardCfg) : State :=
  let s := s.wr (pg .clk 0) Reg.CLK_REF_CFG_REF_HZ b.refHz.toNat
  let s := if s.boot.warm then s else s.wrs (pg .glb 0) [(Reg.GLB_BOOT_CTL_RESUME_LEAD, b.resumeLead.toNat),
    (Reg.GLB_BOOT_CTL_HOST_ISOLATE, b2n b.hostIsolate), (Reg.GLB_BOOT_CTL_WARM_RESUME, b2n b.warmResume)]
  s.each ((List.range 2).zip b.eth) (fun s x => s.wrs (pg .eth x.1)
    [(Reg.ETH_ETH_MAC_MAC, x.2.mac.toNat), (Reg.ETH_ETH_IP4_IP4, x.2.ip4.toNat), (Reg.ETH_ETH_IP6_HI_IP6, x.2.ip6Hi.toNat),
     (Reg.ETH_ETH_IP6_LO_IP6, x.2.ip6Lo.toNat), (Reg.ETH_LANE_POL_TX_INV, x.2.pol.toNat / 256),
     (Reg.ETH_LANE_POL_RX_INV, x.2.pol.toNat % 256)])

/-- Start-up goes on from step 4 (R103, R111, R128, R137): with the first lock, or, in a warm start whose clocks run, with step 6. -/
def State.stepFour (s : State) (board : BoardCfg) (bands : Option (List Word)) : State :=
  let s := s.boardLoad board
  let s := match bands with
    | some l => s.bandTable l
    | none => s
  if s.clk.counting then (s.wr (pg .clk 0) Reg.CLK_PLL_CTL_GATE_HOLD 0).stepSix
  else if bands.isNone then ((s.wr (pg .glb 0) Reg.GLB_BOOT_STAT_STEP 4).event .svc 0 6).bandCal
  else (s.wr (pg .glb 0) Reg.GLB_BOOT_STAT_STEP 5).lockStart

/-- The ROM boots slot `x` (R497, R502): where the selector names the other, it is repaired. -/
def State.romBoots (s : State) (x : Nat) : State :=
  let p := pg .sec 0
  let other := s.slotImage (1 - x)
  let s := { s with boot := { s.boot with verified := true } }
  let s := s.wrs p [(Reg.SEC_SEC_STAT_RUN_SLOT, x), (Reg.SEC_FW_VER_RUNNING, (s.slotImage x).version.toNat),
    (Reg.SEC_FW_VER_OTHER, if other.blank then 0 else other.version.toNat)]
  let s := s.wr (pg .glb 0) Reg.GLB_BOOT_STAT_SLOT x
  if s.rd p Reg.SEC_SEL_STAT_SLOT = x then s else (s.selectorWrite x).event .sec 0 4

/-- ROM_VERIFY_DONE (R127, R128, R131, R133, R497, R499): the ROM has checked slot `slot`, which reads as `flash`; `board` and `bands` are what the boot flash then gives, no bands where their digest fails. -/
def execRomVerifyDone (t : Nat) (slot : Fin 2) (flash : Option FwImage) (board : BoardCfg) (bands : Option (List Word)) (s : State) :
    Host.Outcome State Fault Refusal :=
  let s := s.advance t
  let glb := pg .glb 0
  let booting := s.pwr.started && !s.boot.warmHeld && s.rd glb Reg.GLB_BOOT_STAT_STEP == 3
  .next (if s.on glb Reg.GLB_BOOT_STAT_FAILED || s.boot.verified || !(booting || s.svc.restarting) then s
    else
      let s := s.secSync
      if s.romSlotNext ≠ slot.val then s
      else
      let s := s.slotReads slot flash
      let reason := s.fwReason (s.slotImage slot)
      if reason ≠ 0 then
        let s := { s with boot := { s.boot with rejected := (slot.val, reason) :: s.boot.rejected } }
        let s := if s.svc.restarting then { s with svc := { s.svc with restartStatus := reason } } else s
        let s := s.verifyFail
        if s.boot.rejected.length < 2 then s
        else s.bootFail 0x10 ((s.boot.rejected.map (fun x => x.2 * 16 ^ x.1)).sum)
      else
        let s := s.romBoots slot
        if s.svc.restarting then s else s.stepFour board bands)

/-- PCIE_LINK_TRAINED (R128, R323, R362): the endpoint has trained to generation `speed` and `width` lanes. -/
def execPcieLinkTrained (t : Nat) (speed : Fin 6) (width : Fin 17) (s : State) : Host.Outcome State Fault Refusal :=
  let s := s.advance t
  let p := pg .pci 0
  .next (if !s.pwr.started || speed.val = 0 || width.val = 0 then s
    else
      let s := if s.on p Reg.PCI_LINK_STAT_UP then s.bumpSat p Reg.PCI_LINK_STAT_RETRAIN_CNT 1 else s
      let s := s.wrs p [(Reg.PCI_LINK_STAT_UP, 1), (Reg.PCI_LINK_STAT_SPEED, speed), (Reg.PCI_LINK_STAT_WIDTH, width)]
      ({ s with boot := { s.boot with linkUp := true } }).eventIf (speed.val != 5 || width.val != 16) .pci 0 1)

/-- Channel `c` starts with the ranks that the fail map leaves it (R128, R396, R415, R419). -/
def State.failMapLoad (s : State) (c : Nat) : State :=
  let p := pg .mch c
  s.each (s.flash.failMap.filter (fun e => e.chan == c && e.kind != 3)) (fun s e =>
    let s := s.wr p Reg.MCH_MCH_STAT_RANK_OOS (setBit (s.rd p Reg.MCH_MCH_STAT_RANK_OOS) e.sid)
    if e.kind = 1 ∧ logicalRanks = 3 then
      (s.each (List.range 4) (fun s r =>
        if s.sidOf c r = e.sid then s.wr p (Reg.MCH_RANK_MAP_LR r) e.spare
        else if s.sidOf c r = e.spare then s.wr p (Reg.MCH_RANK_MAP_LR r) e.sid else s)).wr p Reg.MCH_MCH_STAT_SPARE_USED 1
    else s)

/-- HBM_START_TRAINING_DONE (R128, R397, R412, R413): bit c of `failed` says that channel c found no working setting. -/
def execHbmStartTrainingDone (t : Nat) (failed : Word) (s : State) : Host.Outcome State Fault Refusal :=
  let s := s.advance t
  let glb := pg .glb 0
  .next (if s.rd glb Reg.GLB_BOOT_STAT_STEP ≠ 6 || s.boot.done.testBit 0 || s.gated then s
    else
      let bad := (List.range 64).filter (fun c => failed.getLsbD c)
      let known (s : State) (c : Nat) : Bool := s.flash.failMap.any (fun e => e.kind == 3 && e.chan == c)
      let s := { s with mem := { s.mem with omitted := bad }, boot := { s.boot with done := setBit s.boot.done 0 } }
      let good := s.flash.failMap.filter (fun e => e.kind != 3 || bad.contains e.chan)
      let s := if good = s.flash.failMap then s else { s with flash := { s.flash with failMap := good, failSeq := s.flash.failSeq + 1 } }
      let s := s.each (List.range 64) (fun s c =>
        let s := s.failMapLoad c
        if bad.contains c then
          let s := s.wr (pg .mch c) Reg.MCH_MCH_STAT_STATE 5
          (if known s c then s else s.failEntry 3 c 0xFF 0xFF).chanLevels c
        else (s.wr (pg .mch c) Reg.MCH_MCH_STAT_STATE 2).chanLevels c)
      let s := s.migResume
      if bad.length = 64 then s.bootFail 0x30 0 else s.eventIf (!bad.isEmpty) .glb 0 4)

/-- BANK_CLEAR_DONE (R128, R145): the hardware clear of bank `b` ends, at start-up or after a wake from OFF. -/
def execBankClearDone (t : Nat) (b : Fin 64) (ok : Bool) (s : State) : Host.Outcome State Fault Refusal :=
  let s := s.advance t
  let p := pg .bnk b
  let boot := s.rd (pg .glb 0) Reg.GLB_BOOT_STAT_STEP == 6 && !s.boot.cleared.contains b.val
  let wake := s.on p Reg.PG_STAT_PSTATE_BUSY && s.pstateAct p == 3 && s.pstate p == 0 &&
    (!s.clk.counting || decide (smGet 0 p s.page.psAt + 211200 ≤ s.tick))
  .next (if !(boot || wake) || s.gated then s
    else
      let s := { s with bank := { s.bank with words := s.bank.words.filter (fun x => x.1 / 131072 != b.val) } }
      let s := if boot then ((s.setEn p 1).setEnAct p 1).setPstate p 0 else s
      let s := s.pstateEnd p
      let s := if !boot then s
        else
          let l := b.val :: s.boot.cleared
          { s with boot := { s.boot with cleared := l, done := if l.length = 64 then setBit s.boot.done 2 else s.boot.done } }
      if ok then s
      else ({ s with bank := { s.bank with unavailable := b.val :: s.bank.unavailable.erase b.val } }).event .glb 0 5)

end Sys2Proof.Machine
end

