-- ==== Sys2Proof/Machine/PageEnd.lean ====
section
/-!
DEFINITION. The ends of what a page header starts: stopping points, block resets, power-state changes and shadow commits (R42 to R50,
R137, R143 to R145, R237, R381, R382, R441, R459, R521).
-/
namespace Sys2Proof.Machine

/-! EN (R42 to R44). -/

/-- A write of PG_CTL (R42, R43). A converter that had stopped has nothing under way; comparators that start again are enabled anew. -/
def State.pgCtl (s : State) (p en srst ps : Nat) : State :=
  let was := s.enAct p
  let s := s.pgCtlWrite p en srst ps
  if was = 1 || s.en p = 0 then s
  else match blkOf p with
  | some .hka => s.hkStop
  | some .cmp => s.cmpRestart
  | _ => s

/-- PG_ENABLE (R42, R43): a write of PG_CTL that changes EN. -/
def execPgEnable (t : Nat) (page : Fin 4096) (en : Bool) (s : State) : Host.Outcome State Fault Refusal :=
  let s := s.advance t
  .next (s.hosted page 0x010 (pgCtlWord (b2n en) 0 (s.pstate page))
    (fun s => s.onPage page 0x010 (fun s => s.pgCtl page (b2n en) 0 (s.pstate page))))

/-- PG_SRST (R42, R43, R143): a write of PG_CTL that sets SRST. -/
def execPgSrst (t : Nat) (page : Fin 4096) (s : State) : Host.Outcome State Fault Refusal :=
  let s := s.advance t
  .next (s.hosted page 0x010 (pgCtlWord (s.en page) 1 (s.pstate page))
    (fun s => s.onPage page 0x010 (fun s => s.pgCtl page (s.en page) 1 (s.pstate page))))

/-- PSTATE_REQUEST (R42, R43, R144): a write of PG_CTL that changes PSTATE. -/
def execPstateRequest (t : Nat) (page : Fin 4096) (ps : Fin 4) (s : State) : Host.Outcome State Fault Refusal :=
  let s := s.advance t
  .next (s.hosted page 0x010 (pgCtlWord (s.en page) 0 ps)
    (fun s => s.onPage page 0x010 (fun s => s.pgCtl page (s.en page) 0 ps)))

/-! What a block reset and PSTATE OFF lose (R50, R137, R144). -/

/-- A read-only field that a block reset and PSTATE OFF leave as it is: channel state that the fail map and the DRAM give, hops, the
firmware's sequence, pins. -/
def blockRo (b : Blk) (f : Fld) : Bool := match b with
  | .mch => warmRo false .mch f
  | .fab => true
  | .hka => f == Reg.HKA_HKA_STAT_SEQ_RUN
  | .dsp => f == Reg.DSP_LINK_STAT_HPD
  | .cmp => f == Reg.CMP_OW_STAT_PASS_SEQ
  | _ => false

/-- The register file's entry at key `k` survives: another page's, PG_CTL's and PG_STAT's, RWS fields unless `off` (R144: the
converter's factors), and the fields above. -/
def blockKeeps (p : Nat) (off : Bool) (k : Nat) : Bool :=
  let k' := k % 2 ^ 40
  let o := k' / 64 % 4096
  k' / 262144 != p || o == 0x010 || o == 0x018 ||
    match pageRow p with
    | none => true
    | some r =>
      (o == 0x020 && [Blk.fab, .mch].contains r.blk) ||
      (blkFields r.blk (p - r.first)).any (fun f => f.off == o && f.lo == k' % 64 &&
        ((f.acc == .rws && !(off && r.blk == .hka)) || (f.acc == .ro && blockRo r.blk f)))

/-- The registers of page `p` at their reset values (R50). -/
def State.regsClear (s : State) (p : Nat) (off : Bool) : State :=
  { s with rf := s.rf.filter (fun x => blockKeeps p off x.1)
           page := { s.page with lateCommit := s.page.lateCommit.filter (fun x => x / 8 != p) } }

/-- The interleave state of the input of context `c` is lost where no context runs on it (R137). -/
def State.icClear (s : State) (c : Nat) : State :=
  let n := s.srcSlot c
  if (s.inputCtxs n).isEmpty then { s with ic := smErase n s.ic } else s

/-- Link `l` restarts (R137): one that LOAD_EPOCH has started, from its lanes on; one of LIVE goes DOWN; any other is idle. -/
def State.linkRestart (s : State) (l : Nat) : State :=
  if s.linkParked l then ((s.lanesRestart l).setLnk l { fromTick := (s.lnk l).fromTick }).setLinkState l 1
  else if s.linkOn l then s.linkDown l 0 0
  else (s.lanesRestart l).setLnk l {}

/-- Lanes `l` lose their clock recovery, and the links on them restart (R137). -/
def State.lanesClear (s : State) (l : List Nat) : State :=
  let s := { s with ing := { s.ing with cdr := s.ing.cdr.filter (fun x => !l.contains x) } }
  s.each ((l.flatMap s.linksOf).eraseDups) State.linkRestart

/-- What block `b`, instance `i`, holds beyond its registers is lost by a block reset and by PSTATE OFF. -/
def State.blockLose (s : State) (b : Blk) (i : Nat) : State := match b with
  | .lnk => s.linkRestart i
  | .lqd => s.lanesClear ((List.range 8).map (fun k => 8 * i + k))
  | .slt => { s.setSlt i {} with ing := { (s.setSlt i {}).ing with epi := smErase i s.ing.epi, srcAt := smErase i s.ing.srcAt } }
  | .ctx =>
    let a := s.actx i
    { (s.icClear i).setActx i { queued := a.queued, reserved := a.reserved } with
        xf := { s.xf with ctx := smErase i s.xf.ctx }, ing := { s.ing with view := smErase i s.ing.view } }
  | .xfp => { s with xf := { s.xf with pipe := smErase i s.xf.pipe } }
  | .den => { s with den := smErase i s.den }
  | .tmp => { s with tmp := { pal := s.tmp.pal } }
  | .acq => { s with acq := { ctx := s.acq.ctx.map (fun (x : Nat × AcqCtx) => (x.1, { x.2 with queued := 0, reserved := 0 })) } }
  | .trn => { s with trg := { s.trg with lineEnd := [], net := [], groups := [], src := s.trg.src.filter (fun x => x.1 / 4 != 0x410) }
                     tio := { s.tio with level := 0, want := 0 } }
  | .tru => { s with trg := { s.trg with unit := smErase i s.trg.unit } }
  | .scr =>
    let c := s.coreAt i
    s.setCore i { x := c.x, y := c.y, state := c.state }
  | .bnk => { s with bank := { s.bank with words := s.bank.words.filter (fun x => x.1 / 131072 != i), wait := smErase i s.bank.wait
                                           waitSaid := s.bank.waitSaid.erase i, deposited := smErase i s.bank.deposited
                                           staged := smErase i s.bank.staged, portAt := smErase i s.bank.portAt
                                           spill := smErase i s.bank.spill, held := smErase i s.bank.held } }
  | .dma => { s with bank := { s.bank with dmaPoison := s.bank.dmaPoison.filter (fun x => x % 16 != i), dmaAbort := s.bank.dmaAbort.erase i
                                           dmaAt := smErase i s.bank.dmaAt } }
  | .mst => { s with mem := { s.mem with freqReady := s.mem.freqReady.erase i, switching := s.mem.switching.erase i } }
  | .dsp => s.setDspHead i { gamma := (s.dspHead i).gamma }
  | .dlb => { s with dlb := {} }
  | .cmp => { s with cmp := { off := s.cmp.off, ch := s.cmp.ch.map (fun (x : Nat × CmpCh) => (x.1, { uv := x.2.uv })) }
                     tio := { s.tio with owPass := false, owTodo := [], owRose := false } }
  | .hka => { s with hk := { s.hk with stop := false, recover := false, recovery := false, wakeCal := false, readAt := [] } }
  | _ => s

/-- What PSTATE OFF loses beside that: the stores of the block (R144). -/
def State.storesLose (s : State) (b : Blk) (i : Nat) : State := match b with
  | .xfp => { s with xf := { s.xf with win := s.xf.win.filter (fun x => x.1 / 65536 != i), winBad := s.xf.winBad.filter (fun x => x / 65536 != i) }
                     trg := { s.trg with store := s.trg.store.filter (fun x => x.1 / 16384 != i) } }
  | .tmp => { s with tmp := {} }
  | .scr => s.setCore i { state := (s.coreAt i).state }
  | .dsp => s.setDspHead i {}
  | .tio => { s with tio := { s.tio with level := 0 } }
  | .dlb => { s with dlb := {} }
  | _ => s

/-- Context pages and the IC state are found from the registers, so what lies beyond them goes first. -/
def State.blockClear (s : State) (p : Nat) (off : Bool) : State :=
  match pageRow p with
  | none => s
  | some r =>
    let i := p - r.first
    let s := s.blockLose r.blk i
    let s := if off then s.storesLose r.blk i else s
    s.regsClear p off

/-- What follows a block reset: a channel trains again, the converter calibrates, a core stops, comparators start afresh (R137). -/
def State.afterReset (s : State) (p : Nat) : State := match blkOf p with
  | some .mch => if s.chanState (instOf p) = 5 then s else s.startTraining (instOf p)
  | some .hka => if s.pstateAct p = 0 then s.calStart false else s
  | some .scr => s.coreState (instOf p) 1
  | some .cmp => s.cmpNow none 0
  | some .tio => s.detEnWrite (s.rd p Reg.TIO_OUT_FLT_CTL_DET_EN)
  | _ => s

/-- BLOCK_RESET_DONE (R42, R50, R137, R143): in OFF only the registers are reset. -/
def execBlockResetDone (t : Nat) (page : Fin 4096) (s : State) : Host.Outcome State Fault Refusal :=
  let s := s.advance t
  let p := page.val
  .next (if !s.on p Reg.PG_STAT_SRST_BUSY then s
    else
      let s := if s.pstateAct p = 3 then s.regsClear p false else (s.blockClear p false).afterReset p
      s.srstEnd p)

/-- The block of page `p` stands at its stopping point at tick `t` (R44, R487): a link between two extended multiblocks, a slot with no
sample waiting, a context that does not run, a pipeline with no frame, a density unit or the tone mapper with no pass or readout under way, a
head at a frame start; any other block within 32 FCLK of the write. -/
def State.atStop (s : State) (p t : Nat) : Bool :=
  let i := instOf p
  match blkOf p with
  | some .lnk => !(s.lnk i).busy
  | some .slt => (s.slt i).wait.isEmpty
  | some .ctx => !(s.actx i).running
  | some .xfp => s.xf.ctx.all (fun x => x.2.frames.all (fun f => f.pipe != i))
  | some .den => !(s.den_ i).run
  | some .tmp => s.tmp.run.isNone
  | some .dsp => s.pstateAct p != 0 || !s.clk.counting || s.gated || s.frameOver i t
  | _ => true

/-- The raster of head `h` stops; it begins again with its next frame start. -/
def State.rasterStop (s : State) (h : Nat) : State := s.setDspHead h { s.dspHead h with startAt := none }

/-- BLOCK_STOP (R44, R437): a block whose EN is 0 reaches its stopping point. A conversion longer than the 32 FCLK of R44 ends without a
result (notes/assumptions/151). -/
def execBlockStop (t : Nat) (page : Fin 4096) (s : State) : Host.Outcome State Fault Refusal :=
  let s := s.advance t
  let p := page.val
  .next (if s.en p ≠ 0 || s.enAct p == 0 || !s.atStop p t then s
    else
      let s := if blkOf p = some .hka then s.hkStop else s
      let s := if blkOf p = some .dma && s.dmaBusy (instOf p) then s.dmaCtl (instOf p) 2 else s
      let s := if blkOf p = some .dsp then s.rasterStop (instOf p) else s
      s.setEnAct p 0)

/-! Power states (R144, R145). -/

/-- The entries of `m` whose key `q` names, changed by `f`. -/
def smAlter {α : Type} (q : Nat → Bool) (f : α → α) (m : SMap α) : SMap α := m.map (fun x => (x.1, if q x.1 then f x.2 else x.2))

/-- The spans that the clocks of the blocks that `q` names time end `gap` later: comparator time, the load average and the overload
condition of a pipeline, a decay pass, a readout, what is on its way to a trigger unit or through the router, a core's bundles, a port's
words, the converter (R109, R144, R214, R232, R237, R523). -/
def State.shiftWhere (s : State) (q : Blk → Nat → Bool) (gap : Nat) : State :=
  let hk := if q .hka 0 then gap else 0
  let trn := if q .trn 0 then gap else 0
  { s with
    cmp := { s.cmp with off := s.cmp.off + (if q .cmp 0 then gap else 0) }
    xf := { s.xf with pipe := smAlter (q .xfp) (fun x => { x with lastDrop := x.lastDrop + gap, loadAt := x.loadAt + gap }) s.xf.pipe }
    trg := { s.trg with
      lineEnd := s.trg.lineEnd.map (fun (x : Nat × Nat) => (x.1, x.2 + trn))
      net := s.trg.net.map (fun e => { e with at_ := e.at_ + trn })
      groups := s.trg.groups.map (fun g => { g with at_ := g.at_ + trn })
      unit := smAlter (q .tru) (fun x => { x with chg := x.chg.map (fun c => { c with at_ := c.at_ + gap }) }) s.trg.unit
      tin := s.trg.tin.map (fun (x : Nat × TinSt) => (x.1, { x.2 with chg := x.2.chg.map (fun y => (y.1 + trn, y.2)) })) }
    tmp := { s.tmp with job := s.tmp.job.map (fun (x : Nat × TmpJob) => (x.1, { x.2 with from_ := x.2.from_ + (if q .tmp 0 then gap else 0) })) }
    den := smAlter (q .den) (fun x => { x with at_ := x.at_ + gap, passAt := x.passAt + gap }) s.den
    core := smAlter (q .scr) (fun x => { x with base := x.base + gap }) s.core
    bank := { s.bank with
      dmaAt := smAlter (q .dma) (fun x => x + gap) s.bank.dmaAt
      portAt := smAlter (q .bnk) (fun x => x + gap) s.bank.portAt
      spill := smAlter (q .bnk) (fun x => { x with from_ := x.from_ + gap }) s.bank.spill }
    hk := { s.hk with dueAt := s.hk.dueAt + hk, frameAt := s.hk.frameAt + hk, startAt := s.hk.startAt + hk } }

/-- The clocks of page `p` run again after IDLE or RETAIN: what they time goes on from where it stood (R144). -/
def State.clocksBack (s : State) (p : Nat) : State :=
  match smFind p s.page.lowAt with
  | none => s
  | some a =>
    let s := s.shiftWhere (fun b i => pg b i == p) ((if s.gated then s.clk.gateAt else s.tick) - a)
    { s with page := { s.page with lowAt := smErase p s.page.lowAt } }

/-- The clocks of page `p` stop (R42, R144). -/
def State.clocksStop (s : State) (p : Nat) : State :=
  if (smFind p s.page.lowAt).isSome then s else { s with page := { s.page with lowAt := smInsert p s.tick s.page.lowAt } }

/-- Page `p` enters IDLE, RETAIN or OFF, `dst`. -/
def State.enterLow (s : State) (p dst : Nat) : State :=
  let s := if dst = 3 then s.blockClear p true else s
  match blkOf p with
  | some .mch =>
    let c := instOf p
    if s.chanState c = 2 ∨ s.chanState c = 3 then s.wr p Reg.MCH_MCH_STAT_STATE (if dst = 3 then 0 else 3) else s
  | some .scr => if dst = 3 then s.coreState (instOf p) 0 else s
  | some .dsp => s.rasterStop (instOf p)
  | _ => s

/-- Page `p` returns to ON from state `was`. -/
def State.wakeUp (s : State) (p was : Nat) : State := match blkOf p with
  | some .mch => if s.chanState (instOf p) = 0 ∨ s.chanState (instOf p) = 3 then s.wr p Reg.MCH_MCH_STAT_STATE 2 else s
  | some .scr => if was = 3 then s.coreState (instOf p) 1 else s
  | some .tio => (s.routerTo s.tick).outSync s.tick
  | some .trn =>
    let s := s.pinsFollow
    ({ s with trg := { s.trg with net := s.trg.net.filter (fun e => decide (s.tick < e.at_)) } }).outputsFollow s.tick
  | some .cmp => if was = 3 then s.cmpRestart else s.cmpBack
  | _ => s

/-- How long block `b` takes to wake from power state `was`, in ticks (R144); entry into a lower state takes no least time. -/
def wakeTicks (b : Blk) (was : Nat) : Nat :=
  if was = 1 then 32 else if was = 2 then 16000
  else match b with
  | .lnk | .lqd => 8000000
  | .mch => 3200000
  | .dsp | .nvp | .eth | .tio | .dlb => 1600000
  | .hka => 160000
  | _ => 80000

/-- The wake of page `p` has taken its whole time (R144). -/
def State.wakeOver (s : State) (p : Nat) : Bool :=
  !s.clk.counting || decide (smGet 0 p s.page.psAt + ((blkOf p).map (fun b => wakeTicks b (s.pstateAct p))).getD 0 ≤ s.tick)

/-- PSTATE_DONE (R143 to R145, R509, R521): a bank's wake from OFF ends with its clear, the converter's with its calibration. -/
def execPstateDone (t : Nat) (page : Fin 4096) (s : State) : Host.Outcome State Fault Refusal :=
  let s := s.advance t
  let p := page.val
  let was := s.pstateAct p
  let dst := s.pstate p
  let wakes := was == 3 && dst == 0
  .next (if !s.on p Reg.PG_STAT_PSTATE_BUSY || s.on p Reg.PG_STAT_SRST_BUSY || (dst == 0 && was != 0 && !s.wakeOver p) then s
    else if wakes && blkOf p == some .bnk then s
    else if wakes && blkOf p == some .hka then (if s.on p Reg.HKA_HKA_STAT_CAL_BUSY then s else s.calStart true)
    else
      let s := if dst = was then s else if dst = 0 then (s.clocksBack p).wakeUp p was else (s.enterLow p dst).clocksStop p
      (s.pstateEnd p).when (blkOf p == some .mch) State.serveHeld)

/-! Shadow commits (R47 to R49, R122, R381, R382). -/

/-- A write of SH_CTL.COMMIT of page `p` for `groups` (R47, R382): a commit of a head that the guard of its frame finds is late. -/
def State.shCommit (s : State) (p groups t : Nat) : State :=
  let late := blkOf p == some .dsp && s.afterGuard (instOf p) t
  let fresh := (bitsOf 8 groups).filter (fun g => !(s.rd p Reg.SH_CTL_COMMIT).testBit g)
  let s := s.wrs p [(Reg.SH_CTL_COMMIT, s.rd p Reg.SH_CTL_COMMIT ||| groups),
    (Reg.SH_STAT_DROPPED, s.rd p Reg.SH_STAT_DROPPED &&& (255 - groups)),
    (Reg.SH_STAT_LATE, fresh.foldl (fun w g => putBit w g late) (s.rd p Reg.SH_STAT_LATE))]
  let s := if late then
    { s with page := { s.page with lateCommit := fresh.map (fun g => 8 * p + g) ++ s.page.lateCommit } } else s
  s

/-- The groups that page `p` has, as a mask (R40). -/
def groupMask (p : Nat) : Nat := match blkOf p with
  | some b => 2 ^ shGroups b - 1
  | none => 0

/-- A 64-bit write of SH_CTL of page `p` (R47, R48). -/
def State.shCtlWrite (s : State) (p w t : Nat) : State :=
  let abort := part w 8 8 &&& groupMask p
  let s := (s.wr p Reg.SH_CTL_RD_ACTIVE (bit w 16)).shAbort p abort
  s.shCommit p (part w 0 8 &&& groupMask p &&& (255 - abort)) t

/-- SHADOW_COMMIT (R47, R382). -/
def execShadowCommit (t : Nat) (page : Fin 4096) (groups : BitVec 8) (s : State) : Host.Outcome State Fault Refusal :=
  let s := s.advance t
  let w := s.rd page Reg.SH_CTL_RD_ACTIVE * 2 ^ 16 + groups.toNat
  .next (s.hosted page 0x040 w (fun s => s.onPage page 0x040 (fun s => s.shCtlWrite page w t)))

/-- SHADOW_APPLY (R47, R48, R122, R370, R381): the apply point of a page: the next tick for the timebase, a frame start for a head. -/
def execShadowApply (t : Nat) (page : Fin 4096) (s : State) : Host.Outcome State Fault Refusal :=
  let s := s.advance t
  .next (match blkOf page with
    | some .tmb => s.tmbApply
    | some .dsp => if s.rd page Reg.SH_CTL_COMMIT = 0 then s else s.frameAt (instOf page) t
    | _ => s)

end Sys2Proof.Machine
end

