-- ==== Sys2Proof/Machine/Bar0.lean ====
section
/-!
DEFINITION. BAR0 register by register: what a 64-bit write of each page type's registers does, what a read of them returns, and how an
access is judged (R9 to R11, R35 to R48, R171, R201, R231 and the register table of each chapter).
-/
namespace Sys2Proof.Machine

/-! Writes. -/

/-- A shadowed field that is about to be written: the value that an apply point of this FCLK still takes (R48). -/
def State.shadowNote (s : State) (p : Nat) (f : Fld) : State :=
  if ((blkOf p).bind (fun b => shadowGroup b f.off)).isNone then s
  else
    let old := if s.page.shTick = s.tick then s.page.shOld else []
    let old := if (smFind (fkey p f) old).isSome then old else smInsert (fkey p f) (s.rd p f) old
    { s with page := { s.page with shTick := s.tick, shOld := old } }

/-- What a 64-bit write of `w` does to field `f` of page `p` where its register has no effect of its own (R10, R25, R171, R201): a field
that is not live-writable keeps its value while the LIVE epoch uses the page. -/
def State.fieldWrite (s : State) (p w : Nat) (f : Fld) : State :=
  match f.acc with
  | .rw | .rws => if f.live || !s.inEpoch p then (s.shadowNote p f).wr p f (bits w f.hi f.lo) else s
  | .w1c => s.wr p f (s.rd p f &&& (2 ^ 64 - 1 - bits w f.hi f.lo))
  | .ro | .w1s | .wo => s

/-- A 64-bit write of the register at `off` of page `p`, field by field. -/
def State.fieldsWrite (s : State) (p off w : Nat) : State := s.each (fieldsAt p off) (fun s f => s.fieldWrite p w f)

/-- A write of a register of a block (R37, R93, R97, R112, R117, R124, R125, R158, R172 to R174, R232, R263, R295, R320, R321, R362 to
R366, R391, R422, R423, R437 to R440, R462, R507, R511, R516, R526, R542, R547 to R549), by block. -/
def State.glbWrite (s : State) (off w : Nat) : State :=
  if off = 0x100 then (if w.testBit 31 then s.accErrClear else s) else s.fieldsWrite (pg .glb 0) off w

def State.clkWrite (s : State) (off w : Nat) : State :=
  let p := pg .clk 0
  if off = 0x108 then
    let s := s.fieldsWrite p off w
    let s := if w.testBit 1 then s.bandCal else s
    if w.testBit 0 then s.relock else s
  else if off = 0x118 then s.ftrimWrite (BitVec.ofNat 32 w) (bits w 48 32)
  else if off = 0x140 then
    let s := s.fieldsWrite p off w
    if w.testBit 0 then s.wr p Reg.CLK_SYSREF_CTL_ARM 1 else s
  else s.fieldsWrite p off w

def State.tmbWrite (s : State) (off w : Nat) : State :=
  if off = 0x120 then (if w.testBit 0 then s.tbSnap else s) else s.fieldsWrite (pg .tmb 0) off w

def State.pwrWrite (s : State) (off w : Nat) : State :=
  if off = 0x100 then (if w.testBit 8 then s.seqClear else s) else s.fieldsWrite (pg .pwr 0) off w

def State.hkaWrite (s : State) (off w : Nat) : State :=
  if off = 0x100 then s.hkHost (fun s => s.fieldsWrite (pg .hka 0) off w)
  else if off = 0x108 then s.hkHost (fun s => s.convCtl w)
  else if off = 0x128 then s.hkHost (fun s => s.calCtl w)
  else s.fieldsWrite (pg .hka 0) off w

/-- A write of CMP_CFG or of a ramp outside an epoch acts as an equinox's does (R517, R521). -/
def State.cmpCfgWrite (s : State) (off w : Nat) : State :=
  let p := pg .cmp 0
  let ct := s.cmpTime
  let ramps := (List.range 8).map (fun r => (r, s.rampVal r ct, s.rampOn r))
  let s' := s.fieldsWrite p off w
  if s'.rf = s.rf then s
  else
    let s := s'.each ramps (fun s (r : Nat × Int × Bool) =>
      let x := s.cmpRamp r.1
      s.setCmpRamp r.1 { val := r.2.1, at_ := ct, since := if s.rampOn r.1 && !r.2.2 then ct else x.since })
    let s := if off < 0x180 then s.cmpEnable ((off - 0x100) / 8) else s
    s.cmpNow none 0

def State.cmpWrite (s : State) (off w : Nat) : State :=
  let p := pg .cmp 0
  if off < 0x180 then s.cmpCfgWrite off w
  else if off < 0x200 then s.cmpDac ((off - 0x180) / 8) (bits w 27 16) (bits w 11 0)
  else if off < 0x280 then s.cmpCfgWrite off w
  else if off = 0x308 then s.cmpLatchClr (bits w 15 0)
  else if off = 0x318 then
    (s.fieldsWrite p off w).each (List.range 16) (fun s k => s.setRaw (evId .cmp 0 (16 + k)) (w.testBit k))
  else if off = 0x700 then
    let s := (s.fieldsWrite p off w).owSchedule
    if w.testBit 24 then s.owBegin true else s
  else s.fieldsWrite p off w

def State.evaWrite (s : State) (i off w : Nat) : State :=
  if 0x400 ≤ off then s.each (List.range 4) (fun s k => s.routeWrite (1024 * i + 4 * ((off - 0x400) / 8) + k) (part w (16 * k) 16))
  else if 0x180 ≤ off then s.vecArmWrite ((off - 0x180) / 8) w
  else s.fieldsWrite (pg .eva i) off w

def State.svcWrite (s : State) (off w : Nat) : State :=
  if off < 0x180 ∧ off % 32 = 0x18 then s.ringDb ((off - 0x118) / 32) (bits w 11 0) (bits w 27 16)
  else s.fieldsWrite (pg .svc 0) off w

def State.vglWrite (s : State) (off w : Nat) : State :=
  let p := pg .vgl 0
  if off = 0x1C8 then (if w.testBit 0 then s.avClr else s)
  else if 0x200 ≤ off ∧ off < 0x300 ∧ off % 16 = 0 then
    let n := (off - 0x200) / 16
    let was := s.on p (Reg.VGL_HC_CFG_EN n)
    let s := s.fieldsWrite p off w
    if !was && s.on p (Reg.VGL_HC_CFG_EN n) then s.wr p (Reg.VGL_HC_VAL_PEAK n) 0 else s
  else s.fieldsWrite p off w

def State.lnkWrite (s : State) (l off w : Nat) : State :=
  if off = 0x138 then (if w.testBit 0 then s.linkErrClear l else s) else s.fieldsWrite (pg .lnk l) off w

def State.lqdWrite (s : State) (q off w : Nat) : State :=
  if off = 0x150 then s.laneClear q (bits w 7 0)
  else
    let s := (s.fieldsWrite (pg .lqd q) off w).polSync q
    s.each (List.range 8) (fun s i => s.laneEvent (8 * q + i))

def State.sltWrite (s : State) (n off w : Nat) : State :=
  if off = 0x120 then (if w.testBit 0 then s.slotClear n else s) else s.fieldsWrite (pg .slt n) off w

def State.dlbWrite (s : State) (off w : Nat) : State :=
  let p := pg .dlb 0
  if off = 0x120 then (if w.testBit 0 then s.dlbMeasure else s)
  else
    let key (s : State) := (s.rd p Reg.DLB_DLB_CFG_EN, s.rd p Reg.DLB_DLB_CFG_SOURCE)
    let s' := s.fieldsWrite p off w
    if key s' = key s then s' else ({ s' with dlb := {} }).wr p Reg.DLB_DLB_STAT_TC_LOCK 0

def State.tioWrite (s : State) (off w : Nat) : State :=
  let p := pg .tio 0
  if off = 0x808 then
    let s := (s.wr p Reg.TIO_OUT_FLT_CTL_RETRY_EN (bits w 31 16)).detEnWrite (bits w 15 0)
    s.each (bitsOf 16 (bits w 47 32)) State.shortRetry
  else s.fieldsWrite p off w

def State.pciWrite (s : State) (off w : Nat) : State :=
  if off = 0x120 then (if w.testBit 0 then s.pciClr else s) else s.fieldsWrite (pg .pci 0) off w

def State.ctxWrite (s : State) (c off w : Nat) : State :=
  if off = 0x650 then s.capCtl c (bits w 2 0) else s.fieldsWrite (pg .ctx c) off w

def State.xfpWrite (s : State) (q off w : Nat) : State :=
  if off = 0x110 then (if w.testBit 0 then s.xfpClr q else s)
  else if off = 0x100 then
    let s := s.fieldsWrite (pg .xfp q) off w
    s.setRaw (evId .xfp q 1) (s.on (pg .xfp q) Reg.XFP_XFP_STAT_WIN_UNC)
  else s.fieldsWrite (pg .xfp q) off w

def State.denWrite (s : State) (u off w : Nat) : State :=
  if off = 0x110 then (if w.testBit 0 then s.denClear u else s)
  else if off = 0x128 then (if w.testBit 0 then s.denClr u else s)
  else s.fieldsWrite (pg .den u) off w

def State.acqWrite (s : State) (off w : Nat) : State :=
  let p := pg .acq 0
  if off = 0x108 then
    let s := s.fieldsWrite p off w
    if w.testBit 16 then s.acctSnap (bits w 9 0) else s
  else if off = 0x120 then (if w.testBit 0 then s.acqClr else s)
  else s.fieldsWrite p off w

def State.trnWrite (s : State) (off w : Nat) : State :=
  if off = 0x310 then s.poutClr (bits w 7 0)
  else if off = 0x318 then (if w.testBit 0 then s.trnClr else s)
  else
    let s := s.fieldsWrite (pg .trn 0) off w
    if 0x200 ≤ off ∧ off < 0x300 then s.schedSet [(off - 0x200) / 16] s.tick else s

def State.truWrite (s : State) (u off w t : Nat) : State :=
  if off = 0x170 then s.truCtl u t (bits w 2 0) else s.fieldsWrite (pg .tru u) off w

def State.scrWrite (s : State) (n off w t : Nat) : State :=
  let p := pg .scr n
  if off = 0x100 then
    let s := if w.testBit 0 then s.scrHalt n else s
    let s := if w.testBit 1 then s.scrResume n else s
    if w.testBit 2 then s.scrStep n t ⟨0, 0, 0⟩ else s
  else if off = 0x118 then
    if w.testBit 31 then s.wrs p [(Reg.SCR_EXC_LOG_VALID, 0), (Reg.SCR_EXC_LOG_COUNT, 0)] else s
  else if off = 0x120 then s.mbxInWrite n w
  else if off = 0x158 then s.dbgWrite n w
  else if off = 0x160 then (if w.testBit 0 then s.scrClr n else s)
  else s.fieldsWrite p off w

def State.bnkWrite (s : State) (b off w : Nat) : State :=
  let p := pg .bnk b
  if off = 0x100 then s.bnkOwn b (bits w 6 0) (bits w 22 16)
  else if off = 0x118 then
    if w.testBit 63 then s.wrs p [(Reg.BNK_BNK_ERR_VALID, 0), (Reg.BNK_BNK_ERR_COUNT, 0)] else s
  else if off = 0x138 then s.spillCtl b (bits w 59 56) (bits w 41 32) (bits w 29 20) (bits w 16 0) (bit w 63)
  else if off = 0x140 then (if w.testBit 0 then s.bnkClr b else s)
  else s.fieldsWrite p off w

def State.dmaWrite (s : State) (d off w : Nat) : State :=
  if off = 0x118 then s.dmaCtl d (bits w 1 0)
  else if s.dmaBusy d then s
  else s.fieldsWrite (pg .dma d) off w

def State.mchWrite (s : State) (c off w : Nat) : State :=
  if off = 0x140 then (if w.testBit 0 then s.mchClr c else s) else s.fieldsWrite (pg .mch c) off w

def State.mstWrite (s : State) (st off w : Nat) : State :=
  let p := pg .mst st
  let act := s.rd p Reg.MST_FREQ_STAT_ACT_SET
  if off = 0x118 then s.freqCtl st (bits w 5 4) (bit w 0)
  else if (off = 0x120 ∧ act = 0) ∨ (off = 0x128 ∧ act = 1) then s
  else s.fieldsWrite p off w

def State.dspWrite (s : State) (h off w : Nat) : State :=
  if off = 0x188 then s.gammaWrite h (bits w 9 0)
  else if off = 0x1D8 then s.headCtl h (bits w 1 0)
  else if off = 0x1E0 then s.auxCtl h w
  else s.fieldsWrite (pg .dsp h) off w

def State.nvpWrite (s : State) (i off w : Nat) : State :=
  if off = 0x120 then (if w.testBit 0 then s.nvpClr i else s) else s.fieldsWrite (pg .nvp i) off w

def State.ethWrite (s : State) (i off w : Nat) : State :=
  if off = 0x140 then (if w.testBit 0 then s.ethClr i else s) else s.fieldsWrite (pg .eth i) off w

def State.fabWrite (s : State) (h off w : Nat) : State :=
  if off = 0x120 then s.fabCtl h (bits w 16 0)
  else if off = 0x128 then s.injectWrite h (bits w 9 8) (bits w 7 0)
  else s.fieldsWrite (pg .fab h) off w

/-- A write of a register past the header, by block. -/
def State.blockWrite (s : State) (b : Blk) (i off w t : Nat) : State := match b with
  | .glb => s.glbWrite off w
  | .clk => s.clkWrite off w
  | .tmb => s.tmbWrite off w
  | .pwr => s.pwrWrite off w
  | .hka => s.hkaWrite off w
  | .cmp => s.cmpWrite off w
  | .eva => s.evaWrite i off w
  | .sec | .epo | .tmp => s.fieldsWrite (pg b i) off w
  | .svc => s.svcWrite off w
  | .vgl => s.vglWrite off w
  | .lnk => s.lnkWrite i off w
  | .lqd => s.lqdWrite i off w
  | .dlb => s.dlbWrite off w
  | .tio => s.tioWrite off w
  | .pci => s.pciWrite off w
  | .slt => s.sltWrite i off w
  | .ctx => s.ctxWrite i off w
  | .xfp => s.xfpWrite i off w
  | .den => s.denWrite i off w
  | .acq => s.acqWrite off w
  | .trn => s.trnWrite off w
  | .tru => s.truWrite i off w t
  | .scr => s.scrWrite i off w t
  | .bnk => s.bnkWrite i off w
  | .dma => s.dmaWrite i off w
  | .mch => s.mchWrite i off w
  | .mst => s.mstWrite i off w
  | .dsp => s.dspWrite i off w
  | .nvp => s.nvpWrite i off w
  | .eth => s.ethWrite i off w
  | .fab => s.fabWrite i off w

/-- A write of a register of the header (R38 to R48). -/
def State.headWrite (s : State) (p off w t : Nat) : State :=
  if off = 0x010 then s.pgCtl p (bit w 0) (bit w 1) (bits w 5 4)
  else if off = 0x028 then s.evPendWrite p w 0
  else if off = 0x030 then s.evEnWrite p w
  else if off = 0x040 then s.shCtlWrite p w t
  else s

/-- A register stands at `off` of page `p` (R11, R38, R547): any other is reserved. -/
def regThere (p off : Nat) : Bool :=
  if off < 0x100 then decide (off < 0x050)
  else if p = 0x007 then decide (0x400 ≤ off)
  else !(fieldsAt p off).isEmpty

/-- A 64-bit aligned write of `w` to a register of the mapped page `p`. -/
def State.regWrite (s : State) (p off w t : Nat) : State :=
  if off < 0x100 then s.headWrite p off w t
  else match pageRow p with
    | some r => s.blockWrite r.blk (p - r.first) off w t
    | none => s

/-- A BAR0 write of `len` bytes that is served now, judged by the first condition of R35 that applies. -/
def State.bar0Write (s : State) (off len data t : Nat) : State :=
  let p := off / 4096
  if !mapped p then s.accErr 0b011 off
  else if len = 8 ∧ off % 8 = 0 then
    if regThere p (off % 4096) then s.regWrite p (off % 4096) (data % 2 ^ 64) t
    else if data % 2 ^ 64 = 0 then s else s.accErr 0b100 off
  else if len = 4 ∧ off % 4 = 0 then s.accErr 0b001 off
  else s.accErr 0b010 off

/-! Reads. -/

/-- Any event with an ID from 64b to 64b + 63 is forwarded and pending (R547). -/
def State.sumBit (s : State) (b : Nat) : Bool := (List.range 64).any (fun k => s.forwarded (64 * b + k))

/-- The contexts assigned to pipeline `q`, each with the pipeline's position in its list (R210, R232). -/
def State.assigned (s : State) (q : Nat) : List (Nat × Nat) :=
  (s.running.filter (fun c => s.xfRuns c false && (s.pipes c).contains q)).map (fun c => (c, (s.pipes c).idxOf q))

/-- The words of entry `i` of the fault log (R543). -/
def State.flogWords (s : State) (i : Nat) : Nat × Nat := match smFind i s.rel.flog with
  | some e => (e.causeId * 2 ^ 48 + e.linkId * 2 ^ 32 + b2n e.conseq * 2 ^ 31 + e.sev * 2 ^ 28 + e.id, e.tick)
  | none => (0, 0)

/-- What field `f` of block `b`, instance `i`, shows where its value follows from the rest of the state. -/
def State.shows (s : State) (b : Blk) (i : Nat) (f : Fld) : Option Nat :=
  let p := pg b i
  match b with
  | .tmb => if f == Reg.TMB_TB_NOW_TICKS then some s.tick else none
  | .hka =>
    if 0x180 ≤ f.off ∧ f.off < 0x1E0 then
      let k := (f.off - 0x180) / 8
      if f == Reg.HKA_TEMP_STALE k then some (b2n (s.tempStale k))
      else if f == Reg.HKA_TEMP_AGE_MS k then
        some (if s.on p (Reg.HKA_TEMP_VALID k) then min 65535 ((s.tick - smGet 0 k s.hk.readAt) / 1600000) else 0)
      else none
    else none
  | .eva =>
    let id := s.rd p Reg.EVA_SEV_Q_ID
    if f == Reg.EVA_SUM_GROUP then some (((List.range 32).filter s.sumBit).foldl setBit 0)
    else if f == Reg.EVA_SEV_R_EN then some (bit (s.rd (evPage id) Reg.EV_EN) (evBit id))
    else if f == Reg.EVA_SEV_R_PEND then some (bit (s.rd (evPage id) Reg.EV_PEND) (evBit id))
    else if f == Reg.EVA_SEV_R_RAW then some (bit (s.rd (evPage id) Reg.EV_RAW) (evBit id))
    else if f == Reg.EVA_SEV_R_SEV then some (((sevOf id).map Sev.code).getD 0)
    else none
  | .epo =>
    if f == Reg.EPO_PROB_STAT_REMAIN_MS then
      some (if s.on p Reg.EPO_PROB_STAT_ACTIVE then min (2 ^ 32 - 1) ((s.epo.probEnd - s.tick + 1599999) / 1600000) else 0)
    else none
  | .svc =>
    if f == Reg.SVC_SVC_STAT_UPTIME then some (if s.ready then (s.tick - s.boot.readyAt) / 1600000000 else 0)
    else if f == Reg.SVC_SVC_STAT_RUNNING then some (((List.range 4).filter s.ringOn).foldl setBit 0)
    else none
  | .vgl =>
    if f == Reg.VGL_FLOG_DATA0_WORD0 then some (s.flogWords (s.rd p Reg.VGL_FLOG_IDX_IDX)).1
    else if f == Reg.VGL_FLOG_DATA1_WORD1 then some (s.flogWords (s.rd p Reg.VGL_FLOG_IDX_IDX)).2
    else if f == Reg.VGL_AV_LOST_TICKS then some (smGet 0 (s.rd p Reg.VGL_AV_SEL_CTX) s.rel.avLost)
    else if f == Reg.VGL_AV_OVER_COUNT then some s.avOver.length
    else none
  | .xfp =>
    if f == Reg.XFP_XFP_STAT_NCTX then some (s.assigned i).length
    else if f.off = 0x120 then
      let a := 65536 * i + s.rd p Reg.XFP_WIN_RD_ADDR
      some (if f == Reg.XFP_WIN_RD_DATA_UNC then b2n (s.xf.winBad.contains a) else smGet 0 a s.xf.win)
    else if 0x200 ≤ f.off then
      match (s.assigned i)[(f.off - 0x200) / 8]? with
      | some x => some (if f.lo = 63 then 1 else if f.lo = 40 then x.2 else x.1)
      | none => some 0
    else none
  | .tmp =>
    let e := smGet 0 (s.rd p Reg.TMP_PAL_RD_ADDR) s.tmp.pal
    if f == Reg.TMP_PAL_RD_DATA_CB then some (e / 1024) else if f == Reg.TMP_PAL_RD_DATA_CR then some (e % 1024) else none
  | .trn =>
    if f == Reg.TRN_MASK_RD_DATA_SEG then
      some (smGet 0 (16384 * s.rd p Reg.TRN_MASK_RD_PIPE + s.rd p Reg.TRN_MASK_RD_ADDR) s.trg.store)
    else none
  | .scr =>
    let c := s.coreAt i
    if f == Reg.SCR_SCR_STAT_HALT_CAUSE then some c.haltCause
    else if f == Reg.SCR_SCR_STAT_IN_HANDLER then some (b2n c.inHandler)
    else if f == Reg.SCR_SCR_STAT_IE then some (b2n c.settle.ie)
    else if f == Reg.SCR_SCR_STAT_LSP then some c.settle.lsp
    else if f == Reg.SCR_SCR_STAT_PC then some c.pc.toNat
    else if f == Reg.SCR_SCR_STAT_ACT_BANK then some (b2n c.act)
    else if f == Reg.SCR_SCR_STAT_STATE then some (if c.state = 2 ∧ c.idx = 0 then 6 else c.state)
    else if f == Reg.SCR_DBG_DATA_DATA then some (s.dbgWord i)
    else none
  | .mst =>
    if f == Reg.MST_TEMP_STALE then some (b2n (s.tempStale (8 + i)))
    else if f.off = 0x188 then some (bits (s.xlateRes i) f.hi f.lo)
    else none
  | .bnk => if f == Reg.BNK_BNK_STAT_CLEARING then some (b2n (s.bankClears i)) else none
  | .dsp => if f == Reg.DSP_HEAD_STAT_TE_WAIT then some (b2n (s.teWait i s.tick)) else none
  | .nvp => if f == Reg.NVP_NVP_BW_WR_MBPS then some (s.writeRate i) else none
  | _ => none

/-- What field `f` of block `b`, instance `i`, reads (R10, R47): WO fields read 0; with RD_ACTIVE a shadowed field reads its active
copy. -/
def State.fieldRead (s : State) (b : Blk) (i : Nat) (f : Fld) : Nat :=
  let p := pg b i
  let v := match s.shows b i f with
    | some v => v
    | none =>
      if f.acc = .wo then 0
      else if (shadowGroup b f.off).isSome && s.on p Reg.SH_CTL_RD_ACTIVE then s.rdA p f
      else s.rd p f
  v % 2 ^ f.width * 2 ^ f.lo

/-- PG_ID of page `p` (R39). -/
def pgId (r : PageRow) (p : Nat) : Nat :=
  let feat := if r.blk = .glb then Config.pageFeatures p % 2 ^ 32 / 256 * 256 + stepping else Config.pageFeatures p % 2 ^ 32
  r.code * 2 ^ 48 + (p - r.first) % 256 * 2 ^ 40 + 1 * 2 ^ 32 + feat

/-- PG_CAP of page `p` (R40). -/
def pgCap (r : PageRow) (p : Nat) : Nat :=
  (p - r.first) / 256 * 2 ^ 48 + r.count * 2 ^ 32 + liveWr r.blk * 2 ^ 16 + pstateMask r.blk * 2 ^ 12 +
    b2n (!alwaysOn r.blk) * 2 ^ 8 + shGroups r.blk

/-- A register of the header of page `p` (R38 to R48). -/
def State.headRead (s : State) (r : PageRow) (p off : Nat) : Nat :=
  if off = 0x000 then pgId r p
  else if off = 0x008 then pgCap r p
  else if off = 0x010 then s.pstate p * 16 + s.rd p Reg.PG_CTL_SRST * 2 + s.en p
  else if off = 0x018 then s.rd p Reg.PG_STAT_CTL_REFUSED * 2 ^ 9 + s.rd p Reg.PG_STAT_IN_EPOCH * 2 ^ 8 +
    s.rd p Reg.PG_STAT_PSTATE_BUSY * 2 ^ 6 + s.pstateAct p * 2 ^ 4 + s.rd p Reg.PG_STAT_SRST_BUSY * 2 + s.enAct p
  else if off = 0x020 then s.rd p Reg.EV_RAW
  else if off = 0x028 then s.rd p Reg.EV_PEND
  else if off = 0x030 then s.rd p Reg.EV_EN
  else if off = 0x038 then evCountOf p * 2 ^ 16 + evFirstOf p
  else if off = 0x040 then s.rd p Reg.SH_CTL_RD_ACTIVE * 2 ^ 16 + s.rd p Reg.SH_CTL_COMMIT
  else if off = 0x048 then s.rd p Reg.SH_STAT_APPLY_SEQ * 2 ^ 16 + s.rd p Reg.SH_STAT_LATE * 2 ^ 8 + s.rd p Reg.SH_STAT_DROPPED
  else 0

/-- The 64-bit register at `off` of page `p`; a reserved register reads 0 (R11). -/
def State.regRead (s : State) (p off : Nat) : Nat := match pageRow p with
  | none => 0
  | some r =>
    if off < 0x100 then s.headRead r p off
    else if !regThere p off then 0
    else ((fieldsAt p off).map (fun f => s.fieldRead r.blk (p - r.first) f)).sum

/-- A BAR0 read of `len` bytes that is served now (R35): what it returns, and the state after it. -/
def State.bar0Read (s : State) (off len : Nat) : Nat × State :=
  let p := off / 4096
  if !mapped p then (0, s.accErr 0b011 off)
  else if len = 8 ∧ off % 8 = 0 then (s.regRead p (off % 4096), s)
  else if len = 4 ∧ off % 4 = 0 then (s.regRead p (off % 4096 / 8 * 8) / 2 ^ (8 * (off % 8)) % 2 ^ 32, s)
  else (0, s.accErr 0b010 off)

/-- A BAR0 read served now, with its completion. -/
def State.bar0Answer (s : State) (off len : Nat) : State :=
  let x := s.bar0Read off len
  x.2.emit (.hostRead ((leBytes len x.1).map BitVec.toNat))

/-- A BAR0 access: served, held (R109, R129), or lost in a failed hop (R531). -/
def State.bar0Access (s : State) (h : Held) (t : Nat) : State :=
  if !s.bar0Open (h.off / 4096) then s.hold h
  else if s.cutOff .page (h.off / 4096) then (if h.write then s else s.emit .completerAbort)
  else if h.write then s.bar0Write h.off h.len h.data t else s.bar0Answer h.off h.len

/-- The accesses held complete, oldest first (R109, R129). -/
def State.replayHeld (s : State) (t : Nat) : State :=
  ({ s with page := { s.page with held := [] } }).each s.page.held (fun s h => s.bar0Access h t)

/-- REGISTER_WRITE (R10, R35 and the register tables): a BAR0 write of `len` bytes. -/
def execRegisterWrite (t : Nat) (off : BitVec 24) (len data : Nat) (s : State) : Host.Outcome State Fault Refusal :=
  .next ((s.advance t).bar0Access ⟨true, off.toNat, len, data, 0⟩ t)

/-- BAR0_FLAGGED_READ (R35): a BAR0 read of `len` bytes; one of a proper width is answered unflagged. -/
def execBar0FlaggedRead (t : Nat) (off : BitVec 24) (len : Nat) (s : State) : Host.Outcome State Fault Refusal :=
  .next ((s.advance t).bar0Access ⟨false, off.toNat, len, 0, 0⟩ t)

/-- The 8-byte units that `len` bytes from offset `off` lie in, each as its offset and length (R36). -/
def bar0Units : Nat → Nat → Nat → List (Nat × Nat)
  | 0, _, _ => []
  | _ + 1, _, 0 => []
  | n + 1, off, len + 1 =>
    let k := min (len + 1) (8 - off % 8)
    (off, k) :: bar0Units n (off + k) (len + 1 - k)

/-- BAR0_BURST_REQUEST (R36): `bytes` are what a write carries, and give a read its length. -/
def execBar0BurstRequest (t : Nat) (write : Bool) (off : BitVec 24) (bytes : List Byte) (s : State) :
    Host.Outcome State Fault Refusal :=
  let s := s.advance t
  let o := off.toNat
  let units := bar0Units 9 o bytes.length
  .next (if 64 < bytes.length then s.emit .completerAbort
    else if write then
      s.each units (fun s u => s.bar0Access ⟨true, u.1, u.2, ofLeBytes ((bytes.drop (u.1 - o)).take u.2), 0⟩ t)
    else if units.any (fun u => !s.bar0Open (u.1 / 4096)) then s.each units (fun s u => s.hold ⟨false, u.1, u.2, 0, 0⟩)
    else if units.any (fun u => s.cutOff .page (u.1 / 4096)) then s.emit .completerAbort
    else
      let r := units.foldl (fun (x : List Byte × State) u =>
        let y := x.2.bar0Read u.1 u.2
        (x.1 ++ leBytes u.2 y.1, y.2)) ([], s)
      r.2.emit (.hostRead (r.1.map BitVec.toNat)))

end Sys2Proof.Machine
end

