-- ==== Sys2Proof/Machine/Release.lean ====
section
/-!
DEFINITION. The release of the divided clocks and the end of start-up (R41, R106, R109, R114 to R116, R128 to R130, R139, R140, R288,
R326, R388, R489, R514, R523).
-/
namespace Sys2Proof.Machine

/-- Spans that gating stops go on as much later: those of every block's clocks, of pages whose clocks had stopped before, the
service-controller watchdog, and probation (R109, R489, R541). -/
def State.shiftGap (s : State) (gap : Nat) : State :=
  let s := s.shiftWhere (fun _ _ => true) gap
  { s with rel := { s.rel with scKick := s.rel.scKick + gap }
           epo := { s.epo with probEnd := s.epo.probEnd + gap }
           page := { s.page with lowAt := s.page.lowAt.map (fun x => (x.1, min x.2 s.clk.gateAt + gap)) } }

/-- The channels leave self-refresh as the clocks return (R109); those whose page stays in a low-power state do not. -/
def State.chansRelease (s : State) : State :=
  s.each (List.range 64) State.wakeChan

/-- RELEASED (R106, R109, R111, R128): the divided outputs are released together. The first release ends step 5 of start-up. -/
def execReleased (t : Nat) (s : State) : Host.Outcome State Fault Refusal :=
  let s := s.advance t
  .next (if !s.canRelease then s
    else
      let first := !s.clk.counting
      let gap := s.tick - s.clk.gateAt
      let s := s.release
      if first then (if s.rd (pg .glb 0) Reg.GLB_BOOT_STAT_STEP = 5 then s.stepSix else s)
      else
        let s := ((s.shiftGap gap).each s.mem.switching State.freqEnd).chansRelease
        let s := if s.boot.done.testBit 0 then s.migResume else s
        let heads := (List.range 2).filter s.headRuns
        let s := s.each heads (fun s h => s.setDspHead h { s.dspHead h with regate := true, startAt := none })
        let s := (s.triggerRelease t).serveHeld
        if s.startedUp then s.replayHeld t else s)

/-- The pages that the service firmware brings up before any epoch (R41). -/
def broughtUp : List Nat :=
  [pg .hka 0, pg .cmp 0, pg .tio 0] ++ (List.range 4).map (pg .mst) ++ (List.range 64).map (pg .fab) ++
    (List.range 64).map (pg .mch) ++ (List.range 64).map (pg .bnk)

/-- The rings as READY leaves them after a cold or warm reset (R326). -/
def State.ringsClear (s : State) : State :=
  ({ s with svc := { s.svc with ring := [] } }).each (List.range 4) (fun s r => s.wrs (pg .svc 0)
    [(Reg.SVC_RING_CFG_EN r, 0), (Reg.SVC_RING_DB_SQ_TAIL r, 0), (Reg.SVC_RING_DB_CQ_HEAD r, 0)])

/-- The resume of the LIVE epoch after a warm reset (R139): its equinox, RESUME_LEAD ms on, and its links and blocks. -/
def State.resumeLive (s : State) : State :=
  match s.epo.live with
  | none => s
  | some img =>
    if !s.boot.warm || !s.on (pg .glb 0) Reg.GLB_BOOT_CTL_WARM_RESUME then s
    else
      let lead := max 5 (s.rd (pg .glb 0) Reg.GLB_BOOT_CTL_RESUME_LEAD) * 1600000
      let s := s.eqxSet (s.tick + lead) false false
      let s := { s with epo := { s.epo with resume := s.boot.warmAt } }
      (s.wakeBlocks img).parkLinks none img

/-- BOOT_READY (R41, R128, R129, R133, R139, R326, R514): steps 6 to 8 have ended, and start-up reaches step 9. -/
def execBootReady (t : Nat) (s : State) : Host.Outcome State Fault Refusal :=
  let s := s.advance t
  let glb := pg .glb 0
  .next (if s.rd glb Reg.GLB_BOOT_STAT_STEP ≠ 6 || s.boot.done != 7 || s.on glb Reg.GLB_BOOT_STAT_FAILED || !s.clk.counting || s.gated ||
        s.boot.warmHeld then s
    else
      let s := s.each broughtUp (fun s p => ((s.enable p).setPstate p 0).setPstateAct p 0)
      let s := s.ringsClear
      let s := s.wrs glb [(Reg.GLB_BOOT_STAT_STEP, 9), (Reg.GLB_BOOT_STAT_READY, 1)]
      let s := { s with boot := { s.boot with readyAt := s.tick }, rel := { s.rel with scKick := s.tick } }
      let s := s.fuseReady.hkSet hkDefault 2000 8 false
      let s := (s.event .glb 0 1).eventIf s.boot.warm .glb 0 3
      s.resumeLive.replayHeld t)

end Sys2Proof.Machine
end

