-- ==== Sys2Proof/Machine/Dispatch.lean ====
section
/-!
DEFINITION. exec: one arm per command of the table, each one direct call of that command's meaning.
-/
namespace Sys2Proof.Machine

/-- The effect of a command on everything but the queue. -/
def exec (i : Instr) (s : State) : Host.Outcome State Fault Refusal :=
  match i with
  | .registerWrite t off len data => Sys2Proof.Machine.execRegisterWrite t off len data s
  | .bar0FlaggedRead t off len => Sys2Proof.Machine.execBar0FlaggedRead t off len s
  | .bar0BurstRequest t write off bytes => Sys2Proof.Machine.execBar0BurstRequest t write off bytes s
  | .bar0HoldTimeout t => Sys2Proof.Machine.execBar0HoldTimeout t s
  | .accErrLogClear t => Sys2Proof.Machine.execAccErrLogClear t s
  | .pgEnable t page en => Sys2Proof.Machine.execPgEnable t page en s
  | .blockStop t page => Sys2Proof.Machine.execBlockStop t page s
  | .pgSrst t page => Sys2Proof.Machine.execPgSrst t page s
  | .blockResetDone t page => Sys2Proof.Machine.execBlockResetDone t page s
  | .pstateRequest t page ps => Sys2Proof.Machine.execPstateRequest t page ps s
  | .pstateDone t page => Sys2Proof.Machine.execPstateDone t page s
  | .evPendClear t page mask same => Sys2Proof.Machine.execEvPendClear t page mask same s
  | .evEnWrite t page en => Sys2Proof.Machine.execEvEnWrite t page en s
  | .shadowCommit t page groups => Sys2Proof.Machine.execShadowCommit t page groups s
  | .shadowAbort t page groups => Sys2Proof.Machine.execShadowAbort t page groups s
  | .shadowApply t page => Sys2Proof.Machine.execShadowApply t page s
  | .railUp us rail full hbm => Sys2Proof.Machine.execRailUp us rail full hbm s
  | .railDown us rail below hbm => Sys2Proof.Machine.execRailDown us rail below hbm s
  | .railMissing us hbm => Sys2Proof.Machine.execRailMissing us hbm s
  | .porNRelease us => Sys2Proof.Machine.execPorNRelease us s
  | .porNAssert us => Sys2Proof.Machine.execPorNAssert us s
  | .coldStart us => Sys2Proof.Machine.execColdStart us s
  | .avsSet us => Sys2Proof.Machine.execAvsSet us s
  | .avsPoll t mv da failed => Sys2Proof.Machine.execAvsPoll t mv da failed s
  | .avsFail us => Sys2Proof.Machine.execAvsFail us s
  | .railWarn t rail zone => Sys2Proof.Machine.execRailWarn t rail zone s
  | .railFault t rail above => Sys2Proof.Machine.execRailFault t rail above s
  | .thermTrip t => Sys2Proof.Machine.execThermTrip t s
  | .shortDetect t j padHigh => Sys2Proof.Machine.execShortDetect t j padHigh s
  | .shortRetry t j padHigh => Sys2Proof.Machine.execShortRetry t j padHigh s
  | .retryNow t mask padHigh => Sys2Proof.Machine.execRetryNow t mask padHigh s
  | .outFltDetDisable t mask => Sys2Proof.Machine.execOutFltDetDisable t mask s
  | .owStart t => Sys2Proof.Machine.execOwStart t s
  | .owPeriodicPass t => Sys2Proof.Machine.execOwPeriodicPass t s
  | .owPinTest t pin riseMv => Sys2Proof.Machine.execOwPinTest t pin riseMv s
  | .seqStatClear t => Sys2Proof.Machine.execSeqStatClear t s
  | .smbReadSeqStat => Sys2Proof.Machine.execSmbReadSeqStat s
  | .smbReadRailStat => Sys2Proof.Machine.execSmbReadRailStat s
  | .smbReadCoreTelem => Sys2Proof.Machine.execSmbReadCoreTelem s
  | .smbReadOutFltStat => Sys2Proof.Machine.execSmbReadOutFltStat s
  | .smbAlertRelease data => Sys2Proof.Machine.execSmbAlertRelease data s
  | .smbSeqClear data => Sys2Proof.Machine.execSmbSeqClear data s
  | .smbAlertResponse => Sys2Proof.Machine.execSmbAlertResponse s
  | .smbUnknownCommand cmd => Sys2Proof.Machine.execSmbUnknownCommand cmd s
  | .refLost t samples => Sys2Proof.Machine.execRefLost t samples s
  | .refPresent t periods => Sys2Proof.Machine.execRefPresent t periods s
  | .relock t => Sys2Proof.Machine.execRelock t s
  | .phaseLockDetect t => Sys2Proof.Machine.execPhaseLockDetect t s
  | .frequencyCheckDone t w1 w2 => Sys2Proof.Machine.execFrequencyCheckDone t w1 w2 s
  | .sysrefWaitExpiry t => Sys2Proof.Machine.execSysrefWaitExpiry t s
  | .released t => Sys2Proof.Machine.execReleased t s
  | .lockLost t => Sys2Proof.Machine.execLockLost t s
  | .bandCal t => Sys2Proof.Machine.execBandCal t s
  | .bandCalDone t bands => Sys2Proof.Machine.execBandCalDone t bands s
  | .lockRetry t => Sys2Proof.Machine.execLockRetry t s
  | .gateHoldClear t => Sys2Proof.Machine.execGateHoldClear t s
  | .ftrimWrite t target slew => Sys2Proof.Machine.execFtrimWrite t target slew s
  | .trimStep t => Sys2Proof.Machine.execTrimStep t s
  | .sysrefEdge t phaseErr pulses falling => Sys2Proof.Machine.execSysrefEdge t phaseErr pulses falling s
  | .sysrefArm t => Sys2Proof.Machine.execSysrefArm t s
  | .timebaseSnap t => Sys2Proof.Machine.execTimebaseSnap t s
  | .romVerifyDone t slot flash board bands => Sys2Proof.Machine.execRomVerifyDone t slot flash board bands s
  | .pcieLinkTrained t speed width => Sys2Proof.Machine.execPcieLinkTrained t speed width s
  | .hbmStartTrainingDone t failed => Sys2Proof.Machine.execHbmStartTrainingDone t failed s
  | .bankClearDone t b ok => Sys2Proof.Machine.execBankClearDone t b ok s
  | .bootReady t => Sys2Proof.Machine.execBootReady t s
  | .rstNAssert t periods => Sys2Proof.Machine.execRstNAssert t periods s
  | .pcieHotReset t => Sys2Proof.Machine.execPcieHotReset t s
  | .pePerstNAssert t => Sys2Proof.Machine.execPePerstNAssert t s
  | .laneCdrLock t lane => Sys2Proof.Machine.execLaneCdrLock t lane s
  | .blockLock t lane inverted => Sys2Proof.Machine.execBlockLock t lane inverted s
  | .embLock t lane => Sys2Proof.Machine.execEmbLock t lane s
  | .blockLockLost t lane => Sys2Proof.Machine.execBlockLockLost t lane s
  | .embLockLost t lane => Sys2Proof.Machine.execEmbLockLost t lane s
  | .releasePoint t l margins => Sys2Proof.Machine.execReleasePoint t l margins s
  | .linkWdExpiry t l => Sys2Proof.Machine.execLinkWdExpiry t l s
  | .elasticBufferOverflow t lane => Sys2Proof.Machine.execElasticBufferOverflow t lane s
  | .multiblockReceive t l j release mb result errs => Sys2Proof.Machine.execMultiblockReceive t l j release mb result errs s
  | .frameDelivery t l frame fclk drained0 drained1 => Sys2Proof.Machine.execFrameDelivery t l frame fclk drained0 drained1 s
  | .overrangeEpisodeEnd t slot => Sys2Proof.Machine.execOverrangeEpisodeEnd t slot s
  | .laneCntClear t q mask => Sys2Proof.Machine.execLaneCntClear t q mask s
  | .linkErrClear t l => Sys2Proof.Machine.execLinkErrClear t l s
  | .slotClear t n => Sys2Proof.Machine.execSlotClear t n s
  | .tier0Update t slot est => Sys2Proof.Machine.execTier0Update t slot est s
  | .calTier1 t r => Sys2Proof.Machine.execCalTier1 t r s
  | .t1RunStart t slot => Sys2Proof.Machine.execT1RunStart t slot s
  | .t1Window1End t slot est => Sys2Proof.Machine.execT1Window1End t slot est s
  | .t1Window2End t slot est => Sys2Proof.Machine.execT1Window2End t slot est s
  | .t1WaitExpiry t slot => Sys2Proof.Machine.execT1WaitExpiry t slot s
  | .frameReady t c => Sys2Proof.Machine.execFrameReady t c s
  | .pipelineReadEnd t p corr bad => Sys2Proof.Machine.execPipelineReadEnd t p corr bad s
  | .frameEmit t c segErr => Sys2Proof.Machine.execFrameEmit t c segErr s
  | .overloadClear t p => Sys2Proof.Machine.execOverloadClear t p s
  | .xfpClr t p => Sys2Proof.Machine.execXfpClr t p s
  | .xfpLoadUpdate t p => Sys2Proof.Machine.execXfpLoadUpdate t p s
  | .contextSwitch t c => Sys2Proof.Machine.execContextSwitch t c s
  | .densityTraceAccept t u => Sys2Proof.Machine.execDensityTraceAccept t u s
  | .densityUpdate t u unc => Sys2Proof.Machine.execDensityUpdate t u unc s
  | .decayPassStart t u unc => Sys2Proof.Machine.execDecayPassStart t u unc s
  | .decayPassEnd t u unc => Sys2Proof.Machine.execDecayPassEnd t u unc s
  | .densityClear t u => Sys2Proof.Machine.execDensityClear t u s
  | .denClr t u => Sys2Proof.Machine.execDenClr t u s
  | .tmpReadoutStart t j unc => Sys2Proof.Machine.execTmpReadoutStart t j unc s
  | .tmpFlip t j => Sys2Proof.Machine.execTmpFlip t j s
  | .tmpWriteErr t j => Sys2Proof.Machine.execTmpWriteErr t j s
  | .levelSourceTransition t c l => Sys2Proof.Machine.execLevelSourceTransition t c l s
  | .trigInEdge t k level stamp => Sys2Proof.Machine.execTrigInEdge t k level stamp s
  | .trigInAccept t k => Sys2Proof.Machine.execTrigInAccept t k s
  | .schedPulse t n => Sys2Proof.Machine.execSchedPulse t n s
  | .truInputChange t u par => Sys2Proof.Machine.execTruInputChange t u par s
  | .truStretchEnd t u => Sys2Proof.Machine.execTruStretchEnd t u s
  | .truPrimeExpire t u => Sys2Proof.Machine.execTruPrimeExpire t u s
  | .truHoldoffEnd t u => Sys2Proof.Machine.execTruHoldoffEnd t u s
  | .truForce t u => Sys2Proof.Machine.execTruForce t u s
  | .truClr t u => Sys2Proof.Machine.execTruClr t u s
  | .truResetState t u => Sys2Proof.Machine.execTruResetState t u s
  | .coincGroupClose t full => Sys2Proof.Machine.execCoincGroupClose t full s
  | .trigOutWidthEnd t line => Sys2Proof.Machine.execTrigOutWidthEnd t line s
  | .poutClr t mask => Sys2Proof.Machine.execPoutClr t mask s
  | .trnClr t => Sys2Proof.Machine.execTrnClr t s
  | .freeRunTrigger t c => Sys2Proof.Machine.execFreeRunTrigger t c s
  | .capArm t c => Sys2Proof.Machine.execCapArm t c s
  | .capDisarm t c => Sys2Proof.Machine.execCapDisarm t c s
  | .capRelease t c => Sys2Proof.Machine.execCapRelease t c s
  | .eveFull t c => Sys2Proof.Machine.execEveFull t c s
  | .captureEnd t c => Sys2Proof.Machine.execCaptureEnd t c s
  | .heldRearm t c => Sys2Proof.Machine.execHeldRearm t c s
  | .streamWriteResume t c => Sys2Proof.Machine.execStreamWriteResume t c s
  | .backpressureEnd t c drained0 drained1 => Sys2Proof.Machine.execBackpressureEnd t c drained0 drained1 s
  | .recordQueueFree t c => Sys2Proof.Machine.execRecordQueueFree t c s
  | .acctSnapshot t c => Sys2Proof.Machine.execAcctSnapshot t c s
  | .acqClr t => Sys2Proof.Machine.execAcqClr t s
  | .ringDoorbell t r tail => Sys2Proof.Machine.execRingDoorbell t r tail s
  | .cqHeadRelease t r head => Sys2Proof.Machine.execCqHeadRelease t r head s
  | .commandFetch t r cmd => Sys2Proof.Machine.execCommandFetch t r cmd s
  | .completionWrite t r => Sys2Proof.Machine.execCompletionWrite t r s
  | .getInfo t r => Sys2Proof.Machine.execGetInfo t r s
  | .loadEpoch t r => Sys2Proof.Machine.execLoadEpoch t r s
  | .loadEpochDone t img digestOk noPath => Sys2Proof.Machine.execLoadEpochDone t img digestOk noPath s
  | .scheduleEquinox t r => Sys2Proof.Machine.execScheduleEquinox t r s
  | .revertEpoch t r => Sys2Proof.Machine.execRevertEpoch t r s
  | .attest t r => Sys2Proof.Machine.execAttest t r s
  | .attestDone t sig cert => Sys2Proof.Machine.execAttestDone t sig cert s
  | .fwStage t r img => Sys2Proof.Machine.execFwStage t r img s
  | .fwStageDone t ok => Sys2Proof.Machine.execFwStageDone t ok s
  | .fwActivate t r flash => Sys2Proof.Machine.execFwActivate t r flash s
  | .serviceRestart t r => Sys2Proof.Machine.execServiceRestart t r s
  | .serviceRestartReady t => Sys2Proof.Machine.execServiceRestartReady t s
  | .getHealth t r => Sys2Proof.Machine.execGetHealth t r s
  | .recOpen t r members => Sys2Proof.Machine.execRecOpen t r members s
  | .recOpenDone t h found newId => Sys2Proof.Machine.execRecOpenDone t h found newId s
  | .recStart t r => Sys2Proof.Machine.execRecStart t r s
  | .recScheduledStart t h => Sys2Proof.Machine.execRecScheduledStart t h s
  | .recStop t r => Sys2Proof.Machine.execRecStop t r s
  | .recStopDone t h => Sys2Proof.Machine.execRecStopDone t h s
  | .recClose t r => Sys2Proof.Machine.execRecClose t r s
  | .netStreamCfg t r desc => Sys2Proof.Machine.execNetStreamCfg t r desc s
  | .netStreamCtl t r => Sys2Proof.Machine.execNetStreamCtl t r s
  | .ptpCfg t r cfg => Sys2Proof.Machine.execPtpCfg t r cfg s
  | .ptpStatus t r => Sys2Proof.Machine.execPtpStatus t r s
  | .migrateStatus t r => Sys2Proof.Machine.execMigrateStatus t r s
  | .failmapRead t r => Sys2Proof.Machine.execFailmapRead t r s
  | .hkSequence t r entries => Sys2Proof.Machine.execHkSequence t r entries s
  | .selftest t r => Sys2Proof.Machine.execSelftest t r s
  | .selftestDone t failed => Sys2Proof.Machine.execSelftestDone t failed s
  | .invalidOpcode t r => Sys2Proof.Machine.execInvalidOpcode t r s
  | .bar2Read t off len => Sys2Proof.Machine.execBar2Read t off len s
  | .bar2Write t off bytes => Sys2Proof.Machine.execBar2Write t off bytes s
  | .bar2Resize t log2 => Sys2Proof.Machine.execBar2Resize t log2 s
  | .nvmeCmdComplete t h m => Sys2Proof.Machine.execNvmeCmdComplete t h m s
  | .nvmeCmdTimeout t h m => Sys2Proof.Machine.execNvmeCmdTimeout t h m s
  | .recorderFlush t h => Sys2Proof.Machine.execRecorderFlush t h s
  | .recorderProgressWd t h => Sys2Proof.Machine.execRecorderProgressWd t h s
  | .drainRead t c str kind n => Sys2Proof.Machine.execDrainRead t c str kind n s
  | .vitaPacketSend t slot kind => Sys2Proof.Machine.execVitaPacketSend t slot kind s
  | .almanacPacketTimeout t slot => Sys2Proof.Machine.execAlmanacPacketTimeout t slot s
  | .contextPacketPeriod t slot stream => Sys2Proof.Machine.execContextPacketPeriod t slot stream s
  | .ethLinkDown t p => Sys2Proof.Machine.execEthLinkDown t p s
  | .ethLinkUp t p => Sys2Proof.Machine.execEthLinkUp t p s
  | .ethRxFrame t p frame => Sys2Proof.Machine.execEthRxFrame t p frame s
  | .ptpMessageRx t p sub msg portState locked => Sys2Proof.Machine.execPtpMessageRx t p sub msg portState locked s
  | .ptpServoCommit t change trim => Sys2Proof.Machine.execPtpServoCommit t change trim s
  | .ptpMasterLoss t => Sys2Proof.Machine.execPtpMasterLoss t s
  | .deltanSecondSend t => Sys2Proof.Machine.execDeltanSecondSend t s
  | .deltanSecondRx t seq rp tick sec ns frac flags crcOk inverted => Sys2Proof.Machine.execDeltanSecondRx t seq rp tick sec ns frac flags crcOk inverted s
  | .deltanAnswerSend t => Sys2Proof.Machine.execDeltanAnswerSend t s
  | .deltanAnswerRx t p a crcOk inverted => Sys2Proof.Machine.execDeltanAnswerRx t p a crcOk inverted s
  | .deltanDelaySend t j => Sys2Proof.Machine.execDeltanDelaySend t j s
  | .deltanDelayRx t j delays reversed crcOk => Sys2Proof.Machine.execDeltanDelayRx t j delays reversed crcOk s
  | .deltanAnnounceSend t => Sys2Proof.Machine.execDeltanAnnounceSend t s
  | .deltanAnnounceRx t number tick last crcOk => Sys2Proof.Machine.execDeltanAnnounceRx t number tick last crcOk s
  | .deltanAckRx t p number accepted crcOk => Sys2Proof.Machine.execDeltanAckRx t p number accepted crcOk s
  | .deltanAckWindowClose t => Sys2Proof.Machine.execDeltanAckWindowClose t s
  | .tcLost t => Sys2Proof.Machine.execTcLost t s
  | .deltanTriggerEdge t k level sub => Sys2Proof.Machine.execDeltanTriggerEdge t k level sub s
  | .dlbMeasure t => Sys2Proof.Machine.execDlbMeasure t s
  | .pciClr t => Sys2Proof.Machine.execPciClr t s
  | .nvpClr t p => Sys2Proof.Machine.execNvpClr t p s
  | .ethClr t p => Sys2Proof.Machine.execEthClr t p s
  | .pcieLinkDown t => Sys2Proof.Machine.execPcieLinkDown t s
  | .frameStart t h => Sys2Proof.Machine.execFrameStart t h s
  | .lineFetch t h l line => Sys2Proof.Machine.execLineFetch t h l line s
  | .underrun t h line x => Sys2Proof.Machine.execUnderrun t h line x s
  | .tagChanged t h l line => Sys2Proof.Machine.execTagChanged t h l line s
  | .hpdChange t h level lostLock => Sys2Proof.Machine.execHpdChange t h level lostLock s
  | .linkTrainAttempt t h sinkRate sinkLanes => Sys2Proof.Machine.execLinkTrainAttempt t h sinkRate sinkLanes s
  | .linkTrainDone t h ok => Sys2Proof.Machine.execLinkTrainDone t h ok s
  | .linkTrainRetry t h => Sys2Proof.Machine.execLinkTrainRetry t h s
  | .headRetrain t h => Sys2Proof.Machine.execHeadRetrain t h s
  | .headClr t h => Sys2Proof.Machine.execHeadClr t h s
  | .auxGo t h i2c read lenM1 addr => Sys2Proof.Machine.execAuxGo t h i2c read lenM1 addr s
  | .auxDone t h result data => Sys2Proof.Machine.execAuxDone t h result data s
  | .gammaDataWrite t h v => Sys2Proof.Machine.execGammaDataWrite t h v s
  | .teEdge t h edge => Sys2Proof.Machine.execTeEdge t h edge s
  | .teMissing t h => Sys2Proof.Machine.execTeMissing t h s
  | .memoryRequest t pc new pick => Sys2Proof.Machine.execMemoryRequest t pc new pick s
  | .refreshDue t pc => Sys2Proof.Machine.execRefreshDue t pc s
  | .selfRefreshEntry t ch => Sys2Proof.Machine.execSelfRefreshEntry t ch s
  | .freqGo t st sync => Sys2Proof.Machine.execFreqGo t st sync s
  | .freqSwitchStart t st => Sys2Proof.Machine.execFreqSwitchStart t st s
  | .freqDone t st => Sys2Proof.Machine.execFreqDone t st s
  | .rowThrottleEnd t ch cls => Sys2Proof.Machine.execRowThrottleEnd t ch cls s
  | .periodicTraining t ch => Sys2Proof.Machine.execPeriodicTraining t ch s
  | .errorTraining t ch => Sys2Proof.Machine.execErrorTraining t ch s
  | .trainingDone t ch ok => Sys2Proof.Machine.execTrainingDone t ch ok s
  | .migrationStep t ch => Sys2Proof.Machine.execMigrationStep t ch s
  | .mchClr t ch => Sys2Proof.Machine.execMchClr t ch s
  | .xlateAddr t st addr => Sys2Proof.Machine.execXlateAddr t st addr s
  | .bankHandover t b owner agent => Sys2Proof.Machine.execBankHandover t b owner agent s
  | .handoverDone t b => Sys2Proof.Machine.execHandoverDone t b s
  | .bankAccess t b pa pb => Sys2Proof.Machine.execBankAccess t b pa pb s
  | .bankStarveLimit t b => Sys2Proof.Machine.execBankStarveLimit t b s
  | .depositRecord t b => Sys2Proof.Machine.execDepositRecord t b s
  | .spillGo t b unit nrowsM1 row0 dst => Sys2Proof.Machine.execSpillGo t b unit nrowsM1 row0 dst s
  | .spillDone t b => Sys2Proof.Machine.execSpillDone t b s
  | .dmaGo t d => Sys2Proof.Machine.execDmaGo t d s
  | .dmaAbort t d => Sys2Proof.Machine.execDmaAbort t d s
  | .dmaDone t d inFlight => Sys2Proof.Machine.execDmaDone t d inFlight s
  | .bnkClr t b => Sys2Proof.Machine.execBnkClr t b s
  | .opNop t n ecc => Sys2Proof.Machine.execOpNop t n ecc s
  | .opAdd t n ecc => Sys2Proof.Machine.execOpAdd t n ecc s
  | .opSub t n ecc => Sys2Proof.Machine.execOpSub t n ecc s
  | .opAnd t n ecc => Sys2Proof.Machine.execOpAnd t n ecc s
  | .opOr t n ecc => Sys2Proof.Machine.execOpOr t n ecc s
  | .opXor t n ecc => Sys2Proof.Machine.execOpXor t n ecc s
  | .opAndn t n ecc => Sys2Proof.Machine.execOpAndn t n ecc s
  | .opCmp t n ecc => Sys2Proof.Machine.execOpCmp t n ecc s
  | .opShl t n ecc => Sys2Proof.Machine.execOpShl t n ecc s
  | .opShr t n ecc => Sys2Proof.Machine.execOpShr t n ecc s
  | .opSar t n ecc => Sys2Proof.Machine.execOpSar t n ecc s
  | .opMin t n ecc => Sys2Proof.Machine.execOpMin t n ecc s
  | .opMax t n ecc => Sys2Proof.Machine.execOpMax t n ecc s
  | .opTst t n ecc => Sys2Proof.Machine.execOpTst t n ecc s
  | .opSel t n ecc => Sys2Proof.Machine.execOpSel t n ecc s
  | .opAddi t n ecc => Sys2Proof.Machine.execOpAddi t n ecc s
  | .opCmpi t n ecc => Sys2Proof.Machine.execOpCmpi t n ecc s
  | .opAndi t n ecc => Sys2Proof.Machine.execOpAndi t n ecc s
  | .opOri t n ecc => Sys2Proof.Machine.execOpOri t n ecc s
  | .opCadd t n ecc => Sys2Proof.Machine.execOpCadd t n ecc s
  | .opCsub t n ecc => Sys2Proof.Machine.execOpCsub t n ecc s
  | .opCsar t n ecc => Sys2Proof.Machine.execOpCsar t n ecc s
  | .opConj t n ecc => Sys2Proof.Machine.execOpConj t n ecc s
  | .opExt t n ecc => Sys2Proof.Machine.execOpExt t n ecc s
  | .opAcld t n ecc => Sys2Proof.Machine.execOpAcld t n ecc s
  | .opAcclr t n ecc => Sys2Proof.Machine.execOpAcclr t n ecc s
  | .opGeta t n ecc => Sys2Proof.Machine.execOpGeta t n ecc s
  | .opPuta t n ecc => Sys2Proof.Machine.execOpPuta t n ecc s
  | .opCmul t n ecc => Sys2Proof.Machine.execOpCmul t n ecc s
  | .opCmac t n ecc => Sys2Proof.Machine.execOpCmac t n ecc s
  | .opCjmul t n ecc => Sys2Proof.Machine.execOpCjmul t n ecc s
  | .opCjmac t n ecc => Sys2Proof.Machine.execOpCjmac t n ecc s
  | .opQmac t n ecc => Sys2Proof.Machine.execOpQmac t n ecc s
  | .opMaxi t n ecc => Sys2Proof.Machine.execOpMaxi t n ecc s
  | .opMini t n ecc => Sys2Proof.Machine.execOpMini t n ecc s
  | .opLd t n ecc => Sys2Proof.Machine.execOpLd t n ecc s
  | .opSt t n ecc => Sys2Proof.Machine.execOpSt t n ecc s
  | .opMov t n ecc => Sys2Proof.Machine.execOpMov t n ecc s
  | .opPload t n ecc => Sys2Proof.Machine.execOpPload t n ecc s
  | .opLi t n ecc => Sys2Proof.Machine.execOpLi t n ecc s
  | .opCnop t n ecc => Sys2Proof.Machine.execOpCnop t n ecc s
  | .opBr t n ecc => Sys2Proof.Machine.execOpBr t n ecc s
  | .opCall t n ecc => Sys2Proof.Machine.execOpCall t n ecc s
  | .opJr t n ecc => Sys2Proof.Machine.execOpJr t n ecc s
  | .opLoop t n ecc => Sys2Proof.Machine.execOpLoop t n ecc s
  | .opLoopr t n ecc => Sys2Proof.Machine.execOpLoopr t n ecc s
  | .opBreak t n ecc => Sys2Proof.Machine.execOpBreak t n ecc s
  | .opReti t n ecc => Sys2Proof.Machine.execOpReti t n ecc s
  | .opWait t n ecc => Sys2Proof.Machine.execOpWait t n ecc s
  | .opSetie t n ecc => Sys2Proof.Machine.execOpSetie t n ecc s
  | .opIllegal t n ecc => Sys2Proof.Machine.execOpIllegal t n ecc s
  | .interruptEntry t n => Sys2Proof.Machine.execInterruptEntry t n s
  | .windowLoadArrive t n => Sys2Proof.Machine.execWindowLoadArrive t n s
  | .timerCompare t n => Sys2Proof.Machine.execTimerCompare t n s
  | .irqCtlWrite t n ecc => Sys2Proof.Machine.execIrqCtlWrite t n ecc s
  | .evqRead t n ecc => Sys2Proof.Machine.execEvqRead t n ecc s
  | .bnkSelWrite t n ecc => Sys2Proof.Machine.execBnkSelWrite t n ecc s
  | .bnkOwnWr t n ecc => Sys2Proof.Machine.execBnkOwnWr t n ecc s
  | .bnkOwnRd t n ecc => Sys2Proof.Machine.execBnkOwnRd t n ecc s
  | .trigGo t n ecc => Sys2Proof.Machine.execTrigGo t n ecc s
  | .userGo t n ecc => Sys2Proof.Machine.execUserGo t n ecc s
  | .userRecordWrite t n => Sys2Proof.Machine.execUserRecordWrite t n s
  | .mbxInRead t n ecc => Sys2Proof.Machine.execMbxInRead t n ecc s
  | .mbxOutStore t n ecc => Sys2Proof.Machine.execMbxOutStore t n ecc s
  | .notify t n ecc => Sys2Proof.Machine.execNotify t n ecc s
  | .mbxInWrite t n v => Sys2Proof.Machine.execMbxInWrite t n v s
  | .scrHalt t n => Sys2Proof.Machine.execScrHalt t n s
  | .scrResume t n => Sys2Proof.Machine.execScrResume t n s
  | .scrStep t n ecc => Sys2Proof.Machine.execScrStep t n ecc s
  | .dbgDataAccess t n write v => Sys2Proof.Machine.execDbgDataAccess t n write v s
  | .scrClr t n => Sys2Proof.Machine.execScrClr t n s
  | .equinox t alt => Sys2Proof.Machine.execEquinox t alt s
  | .blockSwitch t page stamp => Sys2Proof.Machine.execBlockSwitch t page stamp s
  | .equinoxComplete t => Sys2Proof.Machine.execEquinoxComplete t s
  | .probationPass t => Sys2Proof.Machine.execProbationPass t s
  | .convGo t => Sys2Proof.Machine.execConvGo t s
  | .convStop t => Sys2Proof.Machine.execConvStop t s
  | .hkConversionResult t raw overload temp => Sys2Proof.Machine.execHkConversionResult t raw overload temp s
  | .calGo t => Sys2Proof.Machine.execCalGo t s
  | .hkCalDone t ofs gain => Sys2Proof.Machine.execHkCalDone t ofs gain s
  | .hkSequenceFrame t => Sys2Proof.Machine.execHkSequenceFrame t s
  | .cmpCrossing t k uv stamp => Sys2Proof.Machine.execCmpCrossing t k uv stamp s
  | .rampPeriodReset t r => Sys2Proof.Machine.execRampPeriodReset t r s
  | .cmpBlankEnd t k => Sys2Proof.Machine.execCmpBlankEnd t k s
  | .cmpEnableBlankEnd t k => Sys2Proof.Machine.execCmpEnableBlankEnd t k s
  | .cmpLatchClear t mask => Sys2Proof.Machine.execCmpLatchClear t mask s
  | .fabricParityError t h j words got => Sys2Proof.Machine.execFabricParityError t h j words got s
  | .replayResult t h j got uses => Sys2Proof.Machine.execReplayResult t h j got uses s
  | .hopRetrainDone t h j ok => Sys2Proof.Machine.execHopRetrainDone t h j ok s
  | .retrainNow t h mask => Sys2Proof.Machine.execRetrainNow t h mask s
  | .inject t h count mask => Sys2Proof.Machine.execInject t h count mask s
  | .fabClr t h => Sys2Proof.Machine.execFabClr t h s
  | .streamWdExpiry t path use => Sys2Proof.Machine.execStreamWdExpiry t path use s
  | .vecArm t v => Sys2Proof.Machine.execVecArm t v s
  | .routeWrite t id route => Sys2Proof.Machine.execRouteWrite t id route s
  | .scWdog t => Sys2Proof.Machine.execScWdog t s
  | .scWdKick t fromService => Sys2Proof.Machine.execScWdKick t fromService s
  | .thermStale t sensor => Sys2Proof.Machine.execThermStale t sensor s
  | .hcUpdate t => Sys2Proof.Machine.execHcUpdate t s
  | .avClr t => Sys2Proof.Machine.execAvClr t s
  | .warmResetRelease t => Sys2Proof.Machine.execWarmResetRelease t s
  | .recScheduledStop t h => Sys2Proof.Machine.execRecScheduledStop t h s
  | .streamScheduledStartStop t slot => Sys2Proof.Machine.execStreamScheduledStartStop t slot s
  | .bar2ReadHoldTimeout t => Sys2Proof.Machine.execBar2ReadHoldTimeout t s
  | .t1HoldExpiry t slot => Sys2Proof.Machine.execT1HoldExpiry t slot s
  | .ptpMessageSend t p kind sub => Sys2Proof.Machine.execPtpMessageSend t p kind sub s
  | .rootPortLinkDown t p => Sys2Proof.Machine.execRootPortLinkDown t p s

end Sys2Proof.Machine
end

