-- ==== Sys2Proof/Machine/Pins.lean ====
section
/-!
DEFINITION. The module's output pins that follow from the rest of the state (R57, R78, R131, R144, R337, R355, R538): every pin whose level
the spec gives is a function of State, so it needs no field of its own.
-/
namespace Sys2Proof.Machine

/-- TRIG_OUT[k] is driven high (R57, R289). -/
def State.trigOutHigh (s : State) (k : Fin 8) : Bool := s.tio.level.testBit k

/-- PROT_OUT[k] is asserted, driven low; otherwise it is released (R57, R289). -/
def State.protOutLow (s : State) (k : Fin 8) : Bool := s.tio.level.testBit (8 + k)

/-- ALERT_N is asserted (R57, R69). -/
def State.alertLow (s : State) : Bool := s.pwr.alert

/-- NV_PERST_N[i] is released (R57, R337): driven low in reset, until the recorder starts root port `i`, which it does as its page runs
(notes/assumptions/203). -/
def State.nvPerstHigh (s : State) (i : Fin 4) : Bool := s.runs (pg .nvp i)

/-- What drives a pair of the Deltan bus: nothing, at high impedance; the time code or the SYSREF repeat; a trigger line's level. -/
inductive DltDrive where
  | highZ
  | timing
  | line (high : Bool)
  deriving DecidableEq, Repr

/-- DLT[k] (R57, R144, R354, R355): at high impedance in reset, in OFF, and where another module drives it. -/
def State.dltPin (s : State) (k : Fin 8) : DltDrive :=
  if !s.on (pg .dlb 0) Reg.DLB_DLB_CFG_EN || s.enAct (pg .dlb 0) == 0 || s.pstateAct (pg .dlb 0) == 3 then .highZ
  else if 6 ≤ k.val then (if s.on (pg .dlb 0) Reg.DLB_DLB_CFG_SOURCE then .timing else .highZ)
  else if s.on (pg .trn 0) (Reg.TRN_DLT_SRC_EN k) then .line (decide (s.tick < smGet 0 (16 + k) s.trg.lineEnd))
  else .highZ

/-- ROM recovery state (R128, R131): no firmware slot has been verified. -/
def State.romRecovery (s : State) : Bool :=
  s.on (pg .glb 0) Reg.GLB_BOOT_STAT_FAILED && s.rd (pg .glb 0) Reg.GLB_BOOT_STAT_FAIL_CODE == 0x10

/-- The QSPI pins (R57, R131): QSPI_CLK and QSPI_IO at high impedance and QSPI_CS_N at its pull-up, in ROM recovery and while RST_N or POR_N
holds the module in reset; otherwise the module drives them. -/
def State.qspiReleased (s : State) : Bool := s.romRecovery || s.boot.warmHeld || !s.pwr.started

end Sys2Proof.Machine
end

