-- ==== Sys2Proof/Safety.lean ====
section
/-!
DEFINITION. What claims about the part are stated in: a command that answers, the canonical form of the state's sparse data, and which
parts of a state a command leaves as they were.
-/
namespace Sys2Proof.Machine

/-- From `s`, command `c` answers a next state, of which `P` holds. -/
def Gives (c : Instr) (s : State) (P : State → Prop) : Prop := ∃ u, exec c s = .next u ∧ P u

/-- The keys of a sparse map are strictly rising. -/
def smSorted {α : Type} : SMap α → Bool
  | [] => true
  | [_] => true
  | (j, _) :: (k, w) :: m => decide (j < k) && smSorted ((k, w) :: m)

/-- The register file is in its canonical order: one entry a field, keys rising. -/
abbrev State.regsWf (s : State) : Prop := smSorted s.rf = true

/-- Capture memory is in its canonical form: addresses strictly rising, no byte listed that an unlisted address reads as. -/
abbrev Memory.wf (s : State) : Prop := smWf memDefault s.mem.bytes = true

/-- What every step keeps: both canonical forms. -/
def State.Inv (s : State) : Prop := s.regsWf ∧ Memory.wf s

/-- The registers in which raising events shows, at `off` of page `p`: the header's EV_RAW and EV_PEND, the armed vectors, a core's count of
lost events, the fault log's count, and the registers in which a failed probation shows (R45, R491, R538, R539, R543). -/
def evReg (p off : Nat) : Bool :=
  off == 0x020 || off == 0x028 || (p == pg .eva 0 && 0x180 ≤ off && off < 0x200) ||
    (pg .scr 0 ≤ p && p < pg .scr 64 && off == 0x140) || (p == pg .vgl 0 && off == 0x180) ||
    (p == pg .epo 0 && (off == 0x120 || off == 0x128 || off == 0x148))

/-- A field that stands within a page and within a register. -/
abbrev Fld.placed (f : Fld) : Prop := f.off < 4096 ∧ f.lo < 64

/-- No register but those in which events show, and those at offsets `mine` of page `p`, has changed from `s` to `u`. -/
def RegsBut (p : Nat) (mine : List Nat) (s u : State) : Prop :=
  ∀ q f, f.placed → evReg q f.off = false → ¬(q = p ∧ f.off ∈ mine) → u.rd q f = s.rd q f ∧ u.rdA q f = s.rdA q f

/-- Beside registers, `u` differs from `s` in nothing but the time, what raising events touches, and what leaves the part. -/
def OnlyRegs (s u : State) : Prop :=
  u = { s with rf := u.rf, tick := u.tick, upTime := u.upTime, ev := u.ev, rel := u.rel, core := u.core
               trg := { s.trg with lineEnd := u.trg.lineEnd }, out := u.out }

/-- A value kept within a field's width. -/
def Fld.cut (f : Fld) (v : Nat) : Nat := v % 2 ^ f.width

/-- The firmware takes up `e` next: the service controller runs, and `e` is the oldest command that ring `r` has fetched, of opcode `opc`
(R109, R328). -/
abbrev State.takes (s : State) (r opc : Nat) (e : SvcEntry) : Prop :=
  s.serviceRuns = true ∧ s.svc.fetched.find? (fun x => x.ring == r) = some e ∧ e.cmd.opc.toNat = opc

/-- A host access of page `p` takes effect at once: BAR0 is open for it, and no hop on its way is out of service (R35, R109, R531). -/
abbrev State.hostOpen (s : State) (p : Nat) : Prop := s.bar0Open p = true ∧ s.cutOff .page p = false

/-- A further command of the ring of `e` may be deferred (R328). -/
abbrev State.room (s : State) (e : SvcEntry) : Prop := (s.svc.deferred.filter (fun x => x.ring == e.ring)).length < 16

/-- The completions that wait once `e` has completed with its status and results (R329). -/
def State.completed (s : State) (e : SvcEntry) (st : SvcStatus) (res0 res1 : Nat) : List SvcCompl :=
  s.svc.compl ++ [⟨e.ring, e.cmd.cid.toNat, e.head, st.code, res0 % 2 ^ 64, res1 % 2 ^ 64⟩]

/-- Core `n` as a bundle boundary of tick `t` finds it: its timer seen, its time counted on where it waits (R444, R460). -/
abbrev State.coreSeen (s : State) (n t : Nat) : CoreSt := ((s.advance t).coreNow n t).coreAt n

/-- Core `n` is about to execute the bundle `w`, due at tick `t`, with no result in flight, in no delay slot, and with neither an interrupt
nor a halt before it. -/
abbrev State.atBundle (s : State) (n t w : Nat) : Prop :=
  ((s.advance t).coreNow n t).coreOpen n = true ∧ (s.coreSeen n t).irqDue = false ∧ (s.coreSeen n t).due t w = true ∧
    (s.coreAt n).pend = [] ∧ (s.coreAt n).loads = [] ∧ (s.coreAt n).slots = 0 ∧ (s.coreAt n).haltReq = false ∧
    (s.coreAt n).prog (s.coreAt n).pc.toNat = BitVec.ofNat 64 w ∧ w < 2 ^ 64

/-- The moves of the bundle `w` stay within data and program memory, and no memory has an uncorrectable error (R443, R445, R446). -/
def CoreSt.quiet (c : CoreSt) (w : Nat) (ecc : CoreEcc) : Bool :=
  let x := xMove w
  let y := yMove w
  let mem (a : Nat) : Bool := match xPlace a with
    | .mem _ => true
    | _ => false
  ecc.p.val != 2 && (vOp x == 0 || vOp x == 3 || (mem (c.moveAddr x).1 && ecc.x.val != 2)) &&
    (vOp y == 0 || (decide ((c.moveAddr y).1 < if vOp y = 3 then 0x2000 else 0x4000) && ecc.y.val != 2))

/-- Core `n` is about to execute the legal compute bundle `w`, whose moves stay within its memories. -/
abbrev State.compute (s : State) (n t w : Nat) (ecc : CoreEcc) : Prop :=
  s.atBundle n t w ∧ bForm w = 0 ∧ bundleLegal w false = true ∧ (s.coreAt n).quiet w ecc = true

/-- The operation, the two source registers and the accumulator of MAC unit `k` in the bundle `w` (R468). -/
def macUnit (w k : Nat) : Nat × Nat × Nat × Nat :=
  if k = 0 then (mOp0 w, mGa w, mGb w, mAcc0 w) else (mOp1 w, mGc w, mGd w, mAcc1 w)

/-! What each command may reach. -/

/-- The parts of a state. -/
inductive Part
  | rf | tick | upTime | page | ev | rel | pwr | tio | acq | core | bank | mem | epo | trg | xf | den | tmp | dsp | ptp | flash | boot | clk | ing | svc
  | ic | net | dlb | hk | cmp | pending | out | freeCnt
  deriving DecidableEq, Repr

/-- `s` and `u` agree on a part. -/
def Part.same (s u : State) : Part → Prop
| .rf => u.rf = s.rf | .tick => u.tick = s.tick | .upTime => u.upTime = s.upTime | .page => u.page = s.page | .ev => u.ev = s.ev | .rel => u.rel =
  s.rel | .pwr => u.pwr = s.pwr | .tio => u.tio = s.tio | .acq => u.acq = s.acq | .core => u.core = s.core | .bank => u.bank = s.bank | .mem => u.mem
  = s.mem | .epo => u.epo = s.epo | .trg => u.trg = s.trg | .xf => u.xf = s.xf | .den => u.den = s.den | .tmp => u.tmp = s.tmp | .dsp => u.dsp = s.dsp
  | .ptp => u.ptp = s.ptp | .flash => u.flash = s.flash | .boot => u.boot = s.boot | .clk => u.clk = s.clk | .ing => u.ing = s.ing | .svc => u.svc =
  s.svc | .ic => u.ic = s.ic | .net => u.net = s.net | .dlb => u.dlb = s.dlb | .hk => u.hk = s.hk | .cmp => u.cmp = s.cmp | .pending => u.pending =
  s.pending | .out => u.out = s.out | .freeCnt => u.freeCnt = s.freeCnt

/-- `u` differs from `s` in no part but those listed. -/
def Only (l : List Part) (s u : State) : Prop := ∀ p, p ∉ l → p.same s u

/-- The parts that raising an event can change (R45, R537, R538). -/
abbrev raised : List Part := [.rf, .tick, .upTime, .ev, .rel, .core, .trg, .out]

/-- Every part but the queue. -/
abbrev everyPart : List Part :=
  [.rf, .tick, .upTime, .page, .ev, .rel, .pwr, .tio, .acq, .core, .bank, .mem, .epo, .trg, .xf, .den, .tmp, .dsp, .ptp, .flash, .boot, .clk,
   .ing, .svc, .ic, .net, .dlb, .hk, .cmp, .out, .freeCnt]

/-- The chapter of spec/ whose rule the command's row of the table names. -/
def chapterOf : Instr → Nat
| .registerWrite .. | .bar0FlaggedRead .. | .bar0BurstRequest .. | .accErrLogClear .. | .pgEnable .. | .blockStop .. | .pgSrst .. | .blockResetDone ..
    | .evPendClear .. | .evEnWrite .. | .shadowCommit .. | .shadowAbort .. | .shadowApply .. => 2
| .bar0HoldTimeout .. | .refLost .. | .refPresent .. | .relock .. | .phaseLockDetect .. | .frequencyCheckDone .. | .sysrefWaitExpiry .. | .released ..
    | .lockLost .. | .bandCal .. | .bandCalDone .. | .lockRetry .. | .gateHoldClear .. | .ftrimWrite .. | .trimStep .. | .sysrefEdge .. | .sysrefArm
    .. | .timebaseSnap .. => 4
| .pstateRequest .. | .pstateDone .. | .porNAssert .. | .coldStart .. | .pcieLinkTrained .. | .hbmStartTrainingDone .. | .bankClearDone .. |
    .bootReady .. | .rstNAssert .. | .pcieHotReset .. | .pePerstNAssert .. | .warmResetRelease .. => 5
| .railUp .. | .railDown .. | .railMissing .. | .porNRelease .. | .avsSet .. | .avsPoll .. | .avsFail .. | .railWarn .. | .railFault .. | .thermTrip
    .. | .shortDetect .. | .shortRetry .. | .retryNow .. | .outFltDetDisable .. | .owStart .. | .owPeriodicPass .. | .owPinTest .. | .seqStatClear ..
    | .smbReadSeqStat .. | .smbReadRailStat .. | .smbReadCoreTelem .. | .smbReadOutFltStat .. | .smbAlertRelease .. | .smbSeqClear .. |
    .smbAlertResponse .. | .smbUnknownCommand .. => 3
| .romVerifyDone .. | .loadEpoch .. | .loadEpochDone .. | .scheduleEquinox .. | .revertEpoch .. | .attest .. | .attestDone .. | .fwStage .. |
    .fwStageDone .. | .fwActivate .. | .equinox .. | .blockSwitch .. | .equinoxComplete .. | .probationPass .. => 18
| .laneCdrLock .. | .blockLock .. | .embLock .. | .blockLockLost .. | .embLockLost .. | .releasePoint .. | .linkWdExpiry .. | .elasticBufferOverflow
    .. | .multiblockReceive .. | .frameDelivery .. | .overrangeEpisodeEnd .. | .laneCntClear .. | .linkErrClear .. | .slotClear .. => 6
| .tier0Update .. | .calTier1 .. | .t1RunStart .. | .t1Window1End .. | .t1Window2End .. | .t1WaitExpiry .. | .t1HoldExpiry .. => 7
| .frameReady .. | .pipelineReadEnd .. | .frameEmit .. | .overloadClear .. | .xfpClr .. | .xfpLoadUpdate .. | .contextSwitch .. => 8
| .densityTraceAccept .. | .densityUpdate .. | .decayPassStart .. | .decayPassEnd .. | .densityClear .. | .denClr .. | .tmpReadoutStart .. | .tmpFlip
    .. | .tmpWriteErr .. => 9
| .levelSourceTransition .. | .trigInEdge .. | .trigInAccept .. | .schedPulse .. | .truInputChange .. | .truStretchEnd .. | .truPrimeExpire .. |
    .truHoldoffEnd .. | .truForce .. | .truClr .. | .truResetState .. | .coincGroupClose .. | .trigOutWidthEnd .. | .poutClr .. | .trnClr .. |
    .freeRunTrigger .. => 10
| .capArm .. | .capDisarm .. | .capRelease .. | .eveFull .. | .captureEnd .. | .heldRearm .. | .streamWriteResume .. | .backpressureEnd .. |
    .recordQueueFree .. | .acctSnapshot .. | .acqClr .. => 11
| .ringDoorbell .. | .cqHeadRelease .. | .commandFetch .. | .completionWrite .. | .getInfo .. | .serviceRestart .. | .serviceRestartReady .. |
    .recOpen .. | .recOpenDone .. | .recStart .. | .recScheduledStart .. | .recStop .. | .recStopDone .. | .recClose .. | .netStreamCfg .. |
    .netStreamCtl .. | .ptpCfg .. | .ptpStatus .. | .selftest .. | .selftestDone .. | .invalidOpcode .. | .bar2Read .. | .bar2Write .. | .bar2Resize
    .. | .nvmeCmdComplete .. | .nvmeCmdTimeout .. | .recorderFlush .. | .recorderProgressWd .. | .drainRead .. | .vitaPacketSend .. |
    .almanacPacketTimeout .. | .contextPacketPeriod .. | .ethLinkDown .. | .ethLinkUp .. | .ethRxFrame .. | .ptpMessageRx .. | .ptpServoCommit .. |
    .ptpMasterLoss .. | .deltanSecondSend .. | .deltanSecondRx .. | .deltanAnswerSend .. | .deltanAnswerRx .. | .deltanDelaySend .. | .deltanDelayRx
    .. | .deltanAnnounceSend .. | .deltanAnnounceRx .. | .deltanAckRx .. | .deltanAckWindowClose .. | .tcLost .. | .deltanTriggerEdge .. | .dlbMeasure
    .. | .pciClr .. | .nvpClr .. | .ethClr .. | .pcieLinkDown .. | .recScheduledStop .. | .streamScheduledStartStop .. | .ptpMessageSend .. |
    .rootPortLinkDown .. => 12
| .getHealth .. | .fabricParityError .. | .replayResult .. | .hopRetrainDone .. | .retrainNow .. | .inject .. | .fabClr .. | .streamWdExpiry .. |
    .vecArm .. | .routeWrite .. | .scWdog .. | .scWdKick .. | .thermStale .. | .hcUpdate .. | .avClr .. => 20
| .migrateStatus .. | .failmapRead .. | .memoryRequest .. | .refreshDue .. | .selfRefreshEntry .. | .freqGo .. | .freqSwitchStart .. | .freqDone .. |
    .rowThrottleEnd .. | .periodicTraining .. | .errorTraining .. | .trainingDone .. | .migrationStep .. | .mchClr .. | .xlateAddr .. |
    .bar2ReadHoldTimeout .. => 14
| .hkSequence .. | .convGo .. | .convStop .. | .hkConversionResult .. | .calGo .. | .hkCalDone .. | .hkSequenceFrame .. | .cmpCrossing .. |
    .rampPeriodReset .. | .cmpBlankEnd .. | .cmpEnableBlankEnd .. | .cmpLatchClear .. => 19
| .frameStart .. | .lineFetch .. | .underrun .. | .tagChanged .. | .hpdChange .. | .linkTrainAttempt .. | .linkTrainDone .. | .linkTrainRetry .. |
    .headRetrain .. | .headClr .. | .auxGo .. | .auxDone .. | .gammaDataWrite .. | .teEdge .. | .teMissing .. => 13
| .bankHandover .. | .handoverDone .. | .bankAccess .. | .bankStarveLimit .. | .depositRecord .. | .spillGo .. | .spillDone .. | .dmaGo .. | .dmaAbort
    .. | .dmaDone .. | .bnkClr .. => 15
| .opNop .. | .opAdd .. | .opSub .. | .opAnd .. | .opOr .. | .opXor .. | .opAndn .. | .opCmp .. | .opShl .. | .opShr .. | .opSar .. | .opMin .. |
    .opMax .. | .opTst .. | .opSel .. | .opAddi .. | .opCmpi .. | .opAndi .. | .opOri .. | .opCadd .. | .opCsub .. | .opCsar .. | .opConj .. | .opAcld
    .. | .opAcclr .. | .opGeta .. | .opPuta .. | .opCmul .. | .opCmac .. | .opCjmul .. | .opCjmac .. | .opQmac .. | .opLd .. | .opSt .. | .opMov .. |
    .opPload .. | .opLi .. | .opCnop .. | .opBr .. | .opCall .. | .opJr .. | .opBreak .. | .opSetie .. | .opIllegal .. => 17
| .opExt .. | .opMaxi .. | .opMini .. | .opLoop .. | .opLoopr .. | .opReti .. | .opWait .. | .interruptEntry .. | .windowLoadArrive .. | .timerCompare
    .. | .irqCtlWrite .. | .evqRead .. | .bnkSelWrite .. | .bnkOwnWr .. | .bnkOwnRd .. | .trigGo .. | .userGo .. | .userRecordWrite .. | .mbxInRead ..
    | .mbxOutStore .. | .notify .. | .mbxInWrite .. | .scrHalt .. | .scrResume .. | .scrStep .. | .dbgDataAccess .. | .scrClr .. => 16

/-- The parts of the state that the command may change. -/
def partsOf : Instr → List Part
| .registerWrite .. | .bar0FlaggedRead .. | .bar0BurstRequest .. | .released .. => raised ++ [.page, .pwr, .tio, .acq, .bank, .mem, .epo, .xf, .den,
    .tmp, .dsp, .clk, .ing, .svc, .ic, .net, .dlb, .hk, .cmp, .freeCnt]
| .bar0HoldTimeout .. => [.tick, .upTime, .page, .out]
| .accErrLogClear .. | .blockLock .. | .t1WaitExpiry .. | .truPrimeExpire .. | .truHoldoffEnd .. | .eveFull .. | .ethLinkUp .. | .auxDone .. => [.rf,
    .tick, .upTime]
| .pgEnable .. | .pgSrst .. | .pstateRequest .. | .cmpLatchClear .. => raised ++ [.page, .tio, .net, .cmp]
| .blockStop .. => [.rf, .tick, .upTime, .tio, .bank, .dsp]
| .blockResetDone .. | .pstateDone .. => raised ++ [.page, .tio, .acq, .bank, .mem, .epo, .xf, .den, .tmp, .dsp, .ing, .svc, .ic, .net, .dlb, .hk,
    .cmp]
| .evPendClear .. | .evEnWrite .. | .shadowCommit .. | .shadowAbort .. | .ftrimWrite .. | .ringDoorbell .. | .cqHeadRelease .. | .scrHalt .. |
    .scrResume .. | .vecArm .. | .routeWrite .. => raised ++ [.page]
| .shadowApply .. => raised ++ [.page, .acq, .mem, .tmp, .dsp]
| .railUp .. | .railDown .. | .railMissing .. | .porNAssert .. | .coldStart .. | .avsFail .. | .railFault .. | .thermTrip .. | .rstNAssert .. |
    .pcieHotReset .. | .pePerstNAssert .. => everyPart
| .porNRelease .. => [.pwr]
| .avsSet .. => [.rf, .boot, .out]
| .avsPoll .. | .overloadClear .. | .ethLinkDown .. | .ethRxFrame .. | .deltanAnnounceRx .. | .probationPass .. | .replayResult .. | .hopRetrainDone
    .. | .thermStale .. | .hcUpdate .. => raised
| .railWarn .. => raised ++ [.pwr]
| .shortDetect .. | .shortRetry .. => raised ++ [.tio, .net]
| .retryNow .. => raised ++ [.page, .tio, .net]
| .outFltDetDisable .. | .owStart .. => raised ++ [.page, .tio]
| .owPeriodicPass .. => raised ++ [.tio]
| .owPinTest .. => raised ++ [.tio, .hk]
| .seqStatClear .. => [.rf, .tick, .upTime, .page, .pwr]
| .smbReadSeqStat .. | .smbReadRailStat .. | .smbReadCoreTelem .. | .smbReadOutFltStat .. | .smbAlertResponse .. | .smbUnknownCommand .. => [.out]
| .smbAlertRelease .. | .smbSeqClear .. => [.rf, .pwr, .out]
| .refLost .. | .relock .. | .lockLost .. | .bandCal .. => raised ++ [.page, .tio, .acq, .mem, .epo, .xf, .clk, .ing, .svc, .ic, .net]
| .refPresent .. | .frequencyCheckDone .. | .sysrefWaitExpiry .. | .bandCalDone .. => raised ++ [.clk]
| .phaseLockDetect .. | .trimStep .. => [.rf, .tick, .upTime, .clk]
| .lockRetry .. => raised ++ [.boot, .clk]
| .gateHoldClear .. | .sysrefArm .. | .timebaseSnap .. | .laneCntClear .. | .linkErrClear .. | .slotClear .. | .xfpClr .. | .denClr .. | .trnClr .. |
    .acctSnapshot .. | .acqClr .. | .pciClr .. | .nvpClr .. | .ethClr .. | .freqGo .. | .mchClr .. | .xlateAddr .. | .bnkClr .. | .scrClr .. => [.rf,
    .tick, .upTime, .page]
| .sysrefEdge .. => raised ++ [.acq, .mem, .clk, .ing]
| .romVerifyDone .. => raised ++ [.page, .tio, .acq, .mem, .epo, .xf, .flash, .boot, .clk, .ing, .svc, .ic, .net, .hk]
| .pcieLinkTrained .. | .pcieLinkDown .. => raised ++ [.boot]
| .hbmStartTrainingDone .. => raised ++ [.mem, .flash, .boot]
| .bankClearDone .. => raised ++ [.page, .bank, .boot]
| .bootReady .. => raised ++ [.page, .pwr, .tio, .acq, .bank, .mem, .epo, .xf, .den, .tmp, .dsp, .flash, .boot, .clk, .ing, .svc, .ic, .net, .dlb,
    .hk, .cmp, .freeCnt]
| .laneCdrLock .. => [.tick, .upTime, .ing]
| .embLock .. => [.rf, .tick, .upTime, .ing]
| .blockLockLost .. | .embLockLost .. | .releasePoint .. | .linkWdExpiry .. | .elasticBufferOverflow .. => raised ++ [.page, .acq, .mem, .epo, .xf,
    .ing, .svc, .ic]
| .multiblockReceive .. => raised ++ [.ing]
| .frameDelivery .. | .t1Window2End .. => raised ++ [.page, .acq, .mem, .epo, .xf, .ing, .svc, .ic, .freeCnt]
| .overrangeEpisodeEnd .. => raised ++ [.acq, .mem, .ing]
| .tier0Update .. | .t1RunStart .. | .t1Window1End .. | .t1HoldExpiry .. => [.rf, .tick, .upTime, .ic]
| .calTier1 .. => [.rf, .tick, .upTime, .svc, .ic]
| .frameReady .. | .pipelineReadEnd .. => raised ++ [.xf]
| .frameEmit .. => raised ++ [.acq, .bank, .mem, .epo, .xf, .den, .tmp, .net, .freeCnt]
| .xfpLoadUpdate .. => [.rf, .tick, .upTime, .xf]
| .contextSwitch .. => raised ++ [.page, .acq, .bank, .mem, .epo, .xf, .den, .tmp, .ing, .svc, .ic, .net, .freeCnt]
| .densityTraceAccept .. => raised ++ [.den]
| .densityUpdate .. => raised ++ [.bank, .den, .tmp, .net]
| .decayPassStart .. | .decayPassEnd .. => raised ++ [.bank, .den, .tmp]
| .densityClear .. => raised ++ [.page, .bank, .den, .tmp]
| .tmpReadoutStart .. => raised ++ [.mem, .tmp]
| .tmpFlip .. | .tmpWriteErr .. => raised ++ [.mem, .den, .tmp]
| .levelSourceTransition .. | .trigInAccept .. => [.tick, .upTime, .trg, .net]
| .trigInEdge .. => [.rf, .tick, .upTime, .trg, .net]
| .schedPulse .. | .rootPortLinkDown .. => raised ++ [.net]
| .truInputChange .. | .truStretchEnd .. => raised ++ [.acq, .net]
| .truForce .. | .truClr .. | .truResetState .. => raised ++ [.page, .acq, .net]
| .coincGroupClose .. | .captureEnd .. | .userRecordWrite .. => raised ++ [.acq, .mem]
| .trigOutWidthEnd .. => [.tick, .upTime, .tio, .trg, .net, .out]
| .poutClr .. => [.tick, .upTime, .page, .tio, .trg, .net, .out]
| .freeRunTrigger .. | .heldRearm .. | .backpressureEnd .. => [.rf, .tick, .upTime, .acq]
| .capArm .. | .capDisarm .. | .capRelease .. => raised ++ [.page, .acq, .mem]
| .streamWriteResume .. => [.tick, .upTime, .acq, .freeCnt]
| .recordQueueFree .. => [.tick, .upTime, .acq]
| .commandFetch .. | .completionWrite .. | .attestDone .. | .fwStage .. | .deltanAckRx .. => raised ++ [.svc]
| .getInfo .. | .getHealth .. | .ptpStatus .. | .failmapRead .. | .deltanAnnounceSend .. => [.tick, .upTime, .svc, .out]
| .loadEpoch .. | .revertEpoch .. => raised ++ [.epo, .ing, .svc]
| .loadEpochDone .. => raised ++ [.page, .epo, .xf, .ing, .svc]
| .scheduleEquinox .. => [.rf, .tick, .upTime, .epo, .svc]
| .attest .. | .migrateStatus .. | .selftest .. | .selftestDone .. | .invalidOpcode .. | .deltanAckWindowClose .. => [.tick, .upTime, .svc]
| .fwStageDone .. => raised ++ [.flash, .svc]
| .fwActivate .. => raised ++ [.mem, .flash, .boot, .svc]
| .serviceRestart .. => [.rf, .tick, .upTime, .rel, .mem, .boot, .svc]
| .serviceRestartReady .. => raised ++ [.mem, .epo, .flash, .boot, .ing, .svc, .net]
| .recOpen .. | .recStopDone .. | .netStreamCfg .. => [.tick, .upTime, .svc, .net]
| .recOpenDone .. => [.rf, .tick, .upTime, .svc, .net, .out, .freeCnt]
| .recStart .. | .nvmeCmdTimeout .. | .recorderProgressWd .. => raised ++ [.acq, .svc, .net, .freeCnt]
| .recScheduledStart .. => [.tick, .upTime, .acq, .net]
| .recStop .. => [.rf, .tick, .upTime, .acq, .svc, .net, .out]
| .recClose .. | .nvmeCmdComplete .. => [.tick, .upTime, .svc, .net, .out]
| .netStreamCtl .. => [.rf, .tick, .upTime, .acq, .svc, .net]
| .ptpCfg .. => raised ++ [.ptp, .svc]
| .hkSequence .. => raised ++ [.page, .tio, .mem, .tmp, .dsp, .svc, .hk]
| .bar2Read .. | .bar2Write .. | .freqDone .. | .errorTraining .. | .migrationStep .. | .bar2ReadHoldTimeout .. => raised ++ [.mem]
| .bar2Resize .. => [.tick, .upTime, .mem]
| .recorderFlush .. => [.tick, .upTime, .net, .out]
| .drainRead .. => raised ++ [.acq, .mem, .net, .freeCnt]
| .vitaPacketSend .. | .almanacPacketTimeout .. | .contextPacketPeriod .. => [.rf, .tick, .upTime, .net, .out]
| .ptpMessageRx .. | .ptpMasterLoss .. | .deltanDelayRx .. | .tcLost .. => raised ++ [.ptp]
| .ptpServoCommit .. => raised ++ [.acq, .mem, .ptp]
| .deltanSecondSend .. => [.rf, .tick, .upTime, .dlb, .out, .freeCnt]
| .deltanSecondRx .. => raised ++ [.ptp, .dlb]
| .deltanAnswerSend .. => [.tick, .upTime, .dlb, .out]
| .deltanAnswerRx .. => raised ++ [.dlb]
| .deltanDelaySend .. => [.tick, .upTime, .out]
| .deltanTriggerEdge .. => raised ++ [.tio, .net, .dlb]
| .dlbMeasure .. => [.tick, .upTime, .page, .dlb]
| .frameStart .. => raised ++ [.page, .mem, .tmp, .dsp]
| .lineFetch .. | .underrun .. | .tagChanged .. | .hpdChange .. | .linkTrainAttempt .. | .linkTrainDone .. | .teMissing .. => raised ++ [.dsp]
| .linkTrainRetry .. => [.tick, .upTime, .dsp]
| .headRetrain .. | .headClr .. | .gammaDataWrite .. => [.rf, .tick, .upTime, .page, .dsp]
| .auxGo .. => [.rf, .tick, .upTime, .page, .dsp, .out]
| .teEdge .. => [.rf, .tick, .upTime, .dsp]
| .memoryRequest .. | .trainingDone .. => raised ++ [.mem, .flash]
| .refreshDue .. | .selfRefreshEntry .. | .freqSwitchStart .. | .rowThrottleEnd .. | .periodicTraining .. => [.rf, .tick, .upTime, .mem]
| .bankHandover .. => raised ++ [.page, .bank]
| .handoverDone .. | .bankAccess .. | .dmaDone .. => raised ++ [.bank, .mem]
| .bankStarveLimit .. | .depositRecord .. | .spillDone .. => raised ++ [.bank]
| .spillGo .. | .dmaGo .. | .dmaAbort .. => [.rf, .tick, .upTime, .page, .bank]
| .opNop .. | .opAdd .. | .opSub .. | .opAnd .. | .opOr .. | .opXor .. | .opAndn .. | .opCmp .. | .opShl .. | .opShr .. | .opSar .. | .opMin .. |
    .opMax .. | .opTst .. | .opSel .. | .opAddi .. | .opCmpi .. | .opAndi .. | .opOri .. | .opCadd .. | .opCsub .. | .opCsar .. | .opConj .. | .opExt
    .. | .opAcld .. | .opAcclr .. | .opGeta .. | .opPuta .. | .opCmul .. | .opCmac .. | .opCjmul .. | .opCjmac .. | .opQmac .. | .opMaxi .. | .opMini
    .. | .opLd .. | .opSt .. | .opMov .. | .opPload .. | .opLi .. | .opCnop .. | .opBr .. | .opCall .. | .opJr .. | .opLoop .. | .opLoopr .. |
    .opBreak .. | .opReti .. | .opWait .. | .opSetie .. | .opIllegal .. | .irqCtlWrite .. | .evqRead .. | .bnkSelWrite .. | .bnkOwnWr .. | .bnkOwnRd
    .. | .trigGo .. | .userGo .. | .mbxInRead .. | .mbxOutStore .. | .notify .. => raised ++ [.acq, .bank, .net, .freeCnt]
| .interruptEntry .. | .timerCompare .. => [.tick, .upTime, .core]
| .windowLoadArrive .. => [.rf, .tick, .upTime, .core]
| .mbxInWrite .. => [.rf, .tick, .upTime, .page, .core]
| .scrStep .. => raised ++ [.page, .acq, .bank, .net, .freeCnt]
| .dbgDataAccess .. => [.tick, .upTime, .page, .core, .out]
| .equinox .. => raised ++ [.epo, .xf, .svc]
| .blockSwitch .. => raised ++ [.page, .tio, .acq, .bank, .mem, .epo, .xf, .den, .tmp, .dsp, .ing, .svc, .ic, .net, .dlb, .cmp, .freeCnt]
| .equinoxComplete .. => raised ++ [.acq, .bank, .mem, .epo, .xf, .den, .tmp, .boot, .net]
| .convGo .. | .convStop .. | .calGo .. => raised ++ [.page, .tio, .hk]
| .hkConversionResult .. => raised ++ [.page, .tio, .mem, .tmp, .dsp, .ic, .hk]
| .hkCalDone .. => raised ++ [.page, .tio, .mem, .tmp, .dsp, .boot, .hk]
| .hkSequenceFrame .. => raised ++ [.page, .tio, .mem, .tmp, .dsp, .hk]
| .cmpCrossing .. | .rampPeriodReset .. | .cmpBlankEnd .. | .cmpEnableBlankEnd .. => raised ++ [.tio, .net, .cmp]
| .fabricParityError .. => [.rf, .tick, .upTime, .rel]
| .retrainNow .. | .inject .. | .fabClr .. | .avClr .. => [.rf, .tick, .upTime, .page, .rel]
| .streamWdExpiry .. => raised ++ [.acq, .mem, .epo, .xf]
| .scWdog .. => raised ++ [.mem, .boot, .svc]
| .scWdKick .. => [.tick, .upTime, .rel]
| .warmResetRelease .. => [.rf, .tick, .upTime, .boot]
| .recScheduledStop .. => [.rf, .tick, .upTime, .acq, .net, .out]
| .streamScheduledStartStop .. => [.rf, .tick, .upTime, .acq, .net]
| .ptpMessageSend .. => [.rf, .tick, .upTime, .ptp, .out]

/-- The one page whose registers the command may change, beside the registers in which events show and the access error log (R37), where
it has one. -/
def homeOf : Instr → Option Nat
| .avsSet .. | .avsPoll .. | .railWarn .. | .seqStatClear .. | .smbAlertRelease .. | .smbSeqClear .. => some (pg .pwr 0)
| .shortDetect .. | .shortRetry .. | .retryNow .. | .outFltDetDisable .. => some (pg .tio 0)
| .owStart .. | .owPeriodicPass .. | .owPinTest .. | .cmpCrossing .. | .rampPeriodReset .. | .cmpBlankEnd .. | .cmpEnableBlankEnd .. | .cmpLatchClear
    .. => some (pg .cmp 0)
| .refPresent .. | .phaseLockDetect .. | .frequencyCheckDone .. | .sysrefWaitExpiry .. | .bandCalDone .. | .lockRetry .. | .gateHoldClear .. |
    .ftrimWrite .. | .trimStep .. | .sysrefArm .. => some (pg .clk 0)
| .timebaseSnap .. => some (pg .tmb 0)
| .pcieLinkTrained .. | .bar2Read .. | .pciClr .. | .pcieLinkDown .. | .bar2ReadHoldTimeout .. => some (pg .pci 0)
| .laneCntClear _ x _ => some (pg .lqd x.val)
| .linkErrClear _ x => some (pg .lnk x.val)
| .slotClear _ x => some (pg .slt x.val)
| .xfpClr _ x | .xfpLoadUpdate _ x => some (pg .xfp x.val)
| .densityTraceAccept _ x | .densityUpdate _ x _ | .decayPassStart _ x _ | .decayPassEnd _ x _ | .densityClear _ x | .denClr _ x => some (pg .den
    x.val)
| .tmpReadoutStart .. => some (pg .tmp 0)
| .trigInEdge .. | .schedPulse .. | .trnClr .. => some (pg .trn 0)
| .truPrimeExpire _ x | .truHoldoffEnd _ x => some (pg .tru x.val)
| .freeRunTrigger _ x | .eveFull _ x | .heldRearm _ x => some (pg .ctx x.val)
| .backpressureEnd .. | .acqClr .. => some (pg .acq 0)
| .ringDoorbell .. | .cqHeadRelease .. | .commandFetch .. => some (pg .svc 0)
| .scheduleEquinox .. | .deltanAnnounceRx .. | .probationPass .. => some (pg .epo 0)
| .attestDone .. | .fwStage .. | .fwStageDone .. => some (pg .sec 0)
| .ethLinkDown _ x | .ethLinkUp _ x | .ethRxFrame _ x _ | .ptpMessageRx _ x _ _ _ _ | .ethClr _ x | .ptpMessageSend _ x _ _ => some (pg .eth x.val)
| .deltanSecondSend .. | .deltanSecondRx .. | .deltanAnswerRx .. | .deltanDelayRx .. | .tcLost .. | .deltanTriggerEdge .. => some (pg .dlb 0)
| .nvpClr _ x => some (pg .nvp x.val)
| .lineFetch _ x _ _ | .underrun _ x _ _ | .tagChanged _ x _ _ | .hpdChange _ x _ _ | .linkTrainAttempt _ x _ _ | .linkTrainDone _ x _ | .headRetrain
    _ x | .headClr _ x | .auxGo _ x _ _ _ _ | .auxDone _ x _ _ | .gammaDataWrite _ x _ | .teEdge _ x _ | .teMissing _ x => some (pg .dsp x.val)
| .selfRefreshEntry _ x | .periodicTraining _ x | .errorTraining _ x | .migrationStep _ x | .mchClr _ x => some (pg .mch x.val)
| .freqGo _ x _ | .xlateAddr _ x _ => some (pg .mst x.val)
| .bankStarveLimit _ x | .depositRecord _ x | .spillGo _ x _ _ _ _ | .spillDone _ x | .bnkClr _ x => some (pg .bnk x.val)
| .dmaGo _ x | .dmaAbort _ x => some (pg .dma x.val)
| .windowLoadArrive _ x | .mbxInWrite _ x _ | .scrHalt _ x | .scrClr _ x => some (pg .scr x.val)
| .convGo .. | .convStop .. | .calGo .. | .thermStale .. => some (pg .hka 0)
| .fabricParityError _ x _ _ _ | .replayResult _ x _ _ _ | .hopRetrainDone _ x _ _ | .retrainNow _ x _ | .inject _ x _ _ | .fabClr _ x => some (pg
    .fab x.val)
| .avClr .. => some (pg .vgl 0)
  | _ => none

/-- The core on which the command works. -/
def coreOf : Instr → Option (Fin 64)
| .opNop _ n _ | .opAdd _ n _ | .opSub _ n _ | .opAnd _ n _ | .opOr _ n _ | .opXor _ n _ | .opAndn _ n _ | .opCmp _ n _ | .opShl _ n _ | .opShr _ n _
    | .opSar _ n _ | .opMin _ n _ | .opMax _ n _ | .opTst _ n _ | .opSel _ n _ | .opAddi _ n _ | .opCmpi _ n _ | .opAndi _ n _ | .opOri _ n _ |
    .opCadd _ n _ | .opCsub _ n _ | .opCsar _ n _ | .opConj _ n _ | .opExt _ n _ | .opAcld _ n _ | .opAcclr _ n _ | .opGeta _ n _ | .opPuta _ n _ |
    .opCmul _ n _ | .opCmac _ n _ | .opCjmul _ n _ | .opCjmac _ n _ | .opQmac _ n _ | .opMaxi _ n _ | .opMini _ n _ | .opLd _ n _ | .opSt _ n _ |
    .opMov _ n _ | .opPload _ n _ | .opLi _ n _ | .opCnop _ n _ | .opBr _ n _ | .opCall _ n _ | .opJr _ n _ | .opLoop _ n _ | .opLoopr _ n _ |
    .opBreak _ n _ | .opReti _ n _ | .opWait _ n _ | .opSetie _ n _ | .opIllegal _ n _ | .interruptEntry _ n | .windowLoadArrive _ n | .timerCompare _
    n | .irqCtlWrite _ n _ | .evqRead _ n _ | .bnkSelWrite _ n _ | .bnkOwnWr _ n _ | .bnkOwnRd _ n _ | .trigGo _ n _ | .userGo _ n _ | .mbxInRead _ n
    _ | .mbxOutStore _ n _ | .notify _ n _ | .mbxInWrite _ n _ | .scrHalt _ n | .scrResume _ n | .scrStep _ n _ | .dbgDataAccess _ n _ _ | .scrClr _ n
    => some n
  | _ => none

/-- The command may change what State.mem holds beside the bytes, and stores no byte of capture memory. -/
def keepsBytes : Instr → Bool
| .hbmStartTrainingDone .. | .fwActivate .. | .serviceRestart .. | .serviceRestartReady .. | .bar2Read .. |
    .bar2Resize .. | .drainRead .. | .memoryRequest .. | .refreshDue .. | .selfRefreshEntry .. | .freqSwitchStart .. | .freqDone .. | .rowThrottleEnd
    .. | .periodicTraining .. | .errorTraining .. | .trainingDone .. | .scWdog .. | .bar2ReadHoldTimeout .. |
    .migrationStep .. => true
  | _ => false

/-- The command stores bytes of capture memory as records alone. -/
def recordsOnly : Instr → Bool
| .blockResetDone .. | .sysrefEdge .. | .releasePoint .. | .linkWdExpiry .. | .elasticBufferOverflow .. | .overrangeEpisodeEnd .. | .t1RunStart .. |
    .coincGroupClose .. | .refLost .. | .relock .. | .lockLost .. | .bandCal .. | .streamWriteResume .. | .backpressureEnd .. | .recordQueueFree .. |
    .ptpServoCommit .. | .userRecordWrite .. | .hopRetrainDone .. | .streamWdExpiry .. => true
  | _ => false

/-- Registers outside page `p`, the access error log and those in which events show read as before (R37). -/
def RegsOutside (p : Nat) (s u : State) : Prop :=
  ∀ q f, q < 4096 → f.placed → evReg q f.off = false → q ≠ p → q ≠ pg .glb 0 → u.rd q f = s.rd q f ∧ u.rdA q f = s.rdA q f

/-- What a core's work leaves as it was: the other cores but for their event queues, and the registers but for the core's page, the
banks' pages and those in which events show. -/
def CoreFrame (n : Fin 64) (s u : State) : Prop :=
  (∀ m, m ≠ n.val → u.coreAt m = { s.coreAt m with evq := (u.coreAt m).evq, irqPend := (u.coreAt m).irqPend }) ∧
    ∀ q f, q < 4096 → f.placed → evReg q f.off = false → q ≠ pg .scr n.val → blkOf q ≠ some .bnk →
      u.rd q f = s.rd q f ∧ u.rdA q f = s.rdA q f

end Sys2Proof.Machine
end

