-- ==== Sys2Proof/Certificates/Slice0/Obligations.lean ====
section
/-!
DEFINITION. The statements for the provers.
-/
section ObligationList
open Sys2Proof Sys2Proof.Machine

/-- A 64-bit aligned write of a register field of a context page outside the LIVE epoch leaves the field at the bits written. A BAR0 read of an
unmapped page, or of a width other than an aligned 4 or 8 bytes, returns zeros, counts in ACC_ERR_LOG and, where the log is clear, is logged
with its kind and offset. A burst of 8 aligned bytes does what the register write does, so it sets such a field; a burst read of two
registers of one mapped page, at aligned offsets, answers their words in order and changes nothing else; a request of more than 64 bytes is
answered with a Completer Abort and changes nothing else. Each of these completes as the clauses that name it say: registerWrite,
bar0FlaggedRead, bar0BurstRequest. -/
def Obligations.Bar0AccessesTakeEffect : Prop :=
  (∀ (t : Nat) (c : Fin 1024) (f : Fld) (w : Word) (s : State), (s.hostOpen (pg .ctx c)) → (f ∈ ctxFields) → f.acc = .rw → (f.off ≠ 0x650) → (s.inEpoch
      (pg .ctx c) = false) → Gives (.registerWrite t (BitVec.ofNat 24 (pg .ctx c * 4096 + f.off)) 8 w.toNat) s fun u => u.rd (pg .ctx c) f = bits
      w.toNat f.hi f.lo) ∧
  (∀ (t : Nat) (off : BitVec 24) (len : Nat) (s : State), (s.hostOpen (off.toNat / 4096)) → (mapped (off.toNat / 4096) = false) → (s.rd (pg .glb 0)
      Reg.GLB_ACC_ERR_LOG_VALID = 0) → Gives (.bar0FlaggedRead t off len) s fun u => u.out.head? = some (.hostRead (List.replicate len 0)) ∧ u.rd (pg
      .glb 0) Reg.GLB_ACC_ERR_LOG_VALID = 1 ∧ u.rd (pg .glb 0) Reg.GLB_ACC_ERR_LOG_KIND = 0b011 ∧ u.rd (pg .glb 0) Reg.GLB_ACC_ERR_LOG_OFFSET =
      Reg.GLB_ACC_ERR_LOG_OFFSET.cut (off.toNat / 8 * 8)) ∧
  (∀ (t : Nat) (off : BitVec 24) (len : Nat) (s : State), (s.hostOpen (off.toNat / 4096)) → (mapped (off.toNat / 4096) = true) → (¬(len = 8 ∧ off.toNat %
      8 = 0) ∧ ¬(len = 4 ∧ off.toNat % 4 = 0)) → Gives (.bar0FlaggedRead t off len) s fun u => u.out.head? = some (.hostRead (List.replicate len 0)) ∧
      u.rd (pg .glb 0) Reg.GLB_ACC_ERR_LOG_COUNT = min (s.rd (pg .glb 0) Reg.GLB_ACC_ERR_LOG_COUNT + 1) (2 ^ Reg.GLB_ACC_ERR_LOG_COUNT.width - 1)) ∧
  (∀ (t : Nat) (off : BitVec 24) (bytes : List Byte) (s : State), bytes.length = 8 → (off.toNat % 8 = 0) → Gives (.bar0BurstRequest t true off bytes) s
      fun u => exec (.registerWrite t off 8 (ofLeBytes bytes)) s = .next u) ∧
  (∀ (t : Nat) (c : Fin 1024) (f : Fld) (w : Word) (s : State), (s.hostOpen (pg .ctx c)) → (f ∈ ctxFields) → f.acc = .rw → (f.off ≠ 0x650) → (s.inEpoch
      (pg .ctx c) = false) → Gives (.bar0BurstRequest t true (BitVec.ofNat 24 (pg .ctx c * 4096 + f.off)) (leBytes 8 w.toNat)) s fun u => u.rd (pg
      .ctx c) f = bits w.toNat f.hi f.lo) ∧
  (∀ (t : Nat) (off : BitVec 24) (bytes : List Byte) (s : State), (s.hostOpen (off.toNat / 4096)) → (mapped (off.toNat / 4096) = true) → (bytes.length =
      16 ∧ off.toNat % 8 = 0 ∧ off.toNat % 4096 ≤ 0xFF0) → Gives (.bar0BurstRequest t false off bytes) s fun u => u =
      { s.advance t with out := .hostRead ((leBytes 8 ((s.advance t).regRead (off.toNat / 4096) (off.toNat % 4096)) ++ leBytes 8 ((s.advance t).regRead (off.toNat / 4096) (off.toNat % 4096 + 8))).map BitVec.toNat) :: s.out }) ∧
  (∀ (t : Nat) (write : Bool) (off : BitVec 24) (bytes : List Byte) (s : State), (64 < bytes.length) → Gives (.bar0BurstRequest t write off bytes) s fun
      u => u = { s.advance t with out := .completerAbort :: s.out })

/-- Clearing the access error log leaves VALID, KIND, OFFSET and COUNT 0. An access held for 5 ms leaves the queue with a Completer Abort. A
PG_CTL write that is not refused sets EN, and the page enabled has EN_ACT 1 from the next FCLK on. A page at its stopping point clears
EN_ACT. An accepted SRST reads 1 and is busy; its end clears both. An accepted power state is requested and busy, and its end, which for a
wake comes once the wake time has passed, puts it in force. Each of these completes as the clauses that name it say: accErrLogClear,
bar0HoldTimeout, pgEnable, blockStop, pgSrst, blockResetDone, pstateRequest, pstateDone. -/
def Obligations.PageHeaderCommandsComplete : Prop :=
  (∀ (t : Nat) (s : State), Gives (.accErrLogClear t) s fun u => ∀ f ∈ [Reg.GLB_ACC_ERR_LOG_VALID, Reg.GLB_ACC_ERR_LOG_KIND, Reg.GLB_ACC_ERR_LOG_OFFSET,
      Reg.GLB_ACC_ERR_LOG_COUNT], u.rd (pg .glb 0) f = 0) ∧
  (∀ (t : Nat) (x : Held) (l : List Held) (s : State), (s.page.held = x :: l) → (x.at_ + 8000000 ≤ ((s.advance t).now : Int)) → Gives (.bar0HoldTimeout
      t) s fun u => u = { s.advance t with page := { s.page with held := l }, out := .completerAbort :: s.out }) ∧
  (∀ (t : Nat) (page : Fin 4096) (en : Bool) (s : State), s.hostOpen page → mapped page = true → pageAlwaysOn page = false → (s.ctlRefused page (b2n en)
      0 (s.pstate page) = false) → (∀ x, smFind page.val s.page.enAt = some x → x ≤ (s.advance t).tick) → Gives (.pgEnable t page en) s fun u => u.en
      page = b2n en ∧ (en = true → (u.advance (u.tick + 1)).enAct page = 1) ∧ u.pstate page = s.pstate page ∧ u.on page Reg.PG_STAT_CTL_REFUSED =
      false) ∧
  (∀ (t : Nat) (page : Fin 4096) (s : State), s.en page = 0 → ((s.advance t).atStop page t = true) → Gives (.blockStop t page) s fun u => u.enAct page =
      0) ∧
  (∀ (t : Nat) (page : Fin 4096) (s : State), s.hostOpen page → mapped page = true → pageAlwaysOn page = false → (s.ctlRefused page (s.en page) 1
      (s.pstate page) = false) → s.on page Reg.PG_CTL_SRST = false → s.on page Reg.PG_STAT_PSTATE_BUSY = false → Gives (.pgSrst t page) s fun u =>
      u.on page Reg.PG_CTL_SRST = true ∧ u.on page Reg.PG_STAT_SRST_BUSY = true) ∧
  (∀ (t : Nat) (page : Fin 4096) (s : State), s.on page Reg.PG_STAT_SRST_BUSY = true → Gives (.blockResetDone t page) s fun u => u.rd page
      Reg.PG_CTL_SRST = 0 ∧ u.rd page Reg.PG_STAT_SRST_BUSY = 0) ∧
  (∀ (t : Nat) (page : Fin 4096) (ps : Fin 4) (s : State), s.hostOpen page → mapped page = true → (s.ctlRefused page (s.en page) 0 ps = false) → (ps.val
      ≠ s.pstate page) → (ps.val ≠ s.pstateAct page) → s.on page Reg.PG_STAT_SRST_BUSY = false → Gives (.pstateRequest t page ps) s fun u => u.pstate
      page = ps ∧ u.on page Reg.PG_STAT_PSTATE_BUSY = true ∧ u.pstateAct page = s.pstateAct page) ∧
  (∀ (t : Nat) (page : Fin 4096) (s : State), s.on page Reg.PG_STAT_PSTATE_BUSY = true → s.on page Reg.PG_STAT_SRST_BUSY = false → ((s.advance
      t).wakeOver page = true ∨ s.pstate page ≠ 0) → (¬(s.pstateAct page = 3 ∧ s.pstate page = 0 ∧ (blkOf page = some .bnk ∨ blkOf page = some .hka)))
      → Gives (.pstateDone t page) s fun u => u.pstateAct page = u.pstate page % 4 ∧ u.on page Reg.PG_STAT_PSTATE_BUSY = false)

/-- Clearing EV_PEND clears the bits written, but for one whose source makes a transition in the same FCLK. EV_EN takes the bits that the page
has. A commit adds the page's groups to COMMIT, an abort removes groups from it. At the timebase's apply point a committed offset, as the
shadows stood before the FCLK, becomes active and COMMIT clears; an offset of 10^9 ns or more leaves the active copies as they were. Each of
these completes as the clauses that name it say: evPendClear, evEnWrite, shadowCommit, shadowAbort, shadowApply. -/
def Obligations.EventAndShadowRegistersComplete : Prop :=
  (∀ (t : Nat) (page : Fin 4096) (mask same : Word) (s : State), s.hostOpen page → mapped page = true → Gives (.evPendClear t page mask same) s fun u =>
      ∀ k : Fin 64, (u.rd page Reg.EV_PEND).testBit k = ((s.rd page Reg.EV_PEND).testBit k && (!mask.getLsbD k || same.getLsbD k))) ∧
  (∀ (t : Nat) (page : Fin 4096) (en : Word) (s : State), s.hostOpen page → mapped page = true → Gives (.evEnWrite t page en) s fun u => u.rd page
      Reg.EV_EN = en.toNat &&& evMask page) ∧
  (∀ (t : Nat) (page : Fin 4096) (groups : BitVec 8) (s : State), s.hostOpen page → mapped page = true → Gives (.shadowCommit t page groups) s fun u =>
      u.rd page Reg.SH_CTL_COMMIT = Reg.SH_CTL_COMMIT.cut (s.rd page Reg.SH_CTL_COMMIT ||| (groups.toNat &&& groupMask page))) ∧
  (∀ (t : Nat) (page : Fin 4096) (groups : BitVec 8) (s : State), s.hostOpen page → mapped page = true → Gives (.shadowAbort t page groups) s fun u =>
      u.rd page Reg.SH_CTL_COMMIT = s.rd page Reg.SH_CTL_COMMIT &&& (255 - groups.toNat)) ∧
  (∀ (t : Nat) (s : State), ((s.rd (pg .tmb 0) Reg.SH_CTL_COMMIT).testBit 0 = true) → ((s.advance t).shadow (pg .tmb 0) Reg.TMB_PTP_NS_NS < 10 ^ 9) →
      Gives (.shadowApply t 0x002) s fun u => u.rd (pg .tmb 0) Reg.SH_CTL_COMMIT = 0 ∧ ∀ f ∈ [Reg.TMB_PTP_SEC_SEC, Reg.TMB_PTP_NS_NS,
      Reg.TMB_PTP_NS_FRAC], u.rdA (pg .tmb 0) f = f.cut ((s.advance t).shadow (pg .tmb 0) f)) ∧
  (∀ (t : Nat) (s : State), ((s.rd (pg .tmb 0) Reg.SH_CTL_COMMIT).testBit 0 = true) → (10 ^ 9 ≤ (s.advance t).shadow (pg .tmb 0) Reg.TMB_PTP_NS_NS) →
      Gives (.shadowApply t 0x002) s fun u => u.rd (pg .tmb 0) Reg.SH_CTL_COMMIT = 0 ∧ ∀ f ∈ [Reg.TMB_PTP_SEC_SEC, Reg.TMB_PTP_NS_NS,
      Reg.TMB_PTP_NS_FRAC], u.rdA (pg .tmb 0) f = s.rdA (pg .tmb 0) f)

/-- A rail that reaches 90 % is up, one that rises above 10 % is down no more, and an order broken with no fault held is latched with its cause.
A rail that falls is not up, and ends a running part. The monitor shows a missing rail 100 ms after VDD_IO. POR_N's levels are recorded, and
its assertion for 10 µs, a rail fault and a thermal trip end a running part with their causes. A cold start that may start runs the part
from step 3. The AVS target is sent once; a poll's readings show; a regulator that fails stops the part. Once VDD_IO is up, the zone of a
rail shows in RAIL_STAT. Each of these completes as the clauses that name it say: railUp, railDown, railMissing, porNRelease, porNAssert,
coldStart, avsSet, avsPoll, avsFail, railWarn, railFault, thermTrip. -/
def Obligations.SequenceMonitorCommandsComplete : Prop :=
  (∀ (us : Nat) (rail : Fin 9) (full : Bool) (hbm : HbmRails) (s : State), Gives (.railUp us rail full hbm) s fun u => u.pwr.up = (if full then setBit
      s.pwr.up rail else s.pwr.up) ∧ u.pwr.down = clrBit s.pwr.down rail ∧ (s.pwr.missing = false → u.pwr.missing = false)) ∧
  (∀ (us : Nat) (rail : Fin 9) (full : Bool) (hbm : HbmRails) (s : State), s.pwr.seqFault = false → ((s.pwr.rise us rail full).isUp 2 = true) → (seqCause
      (s.pwr.rise us rail full) us (if full then rail.val else 9) hbm ≠ 0) → Gives (.railUp us rail full hbm) s fun u => u.pwr.seqFault = true ∧
      u.pwr.faultSeen = true ∧ u.pwr.alert = true ∧ u.pwr.started = false ∧ u.pwr.cause = seqCause (s.pwr.rise us rail full) us (if full then rail.val
      else 9) hbm) ∧
  (∀ (us : Nat) (rail : Fin 9) (below : Bool) (hbm : HbmRails) (s : State), Gives (.railDown us rail below hbm) s fun u => u.pwr.up = clrBit s.pwr.up
      rail ∧ (below = true → u.pwr.down = setBit s.pwr.down rail) ∧ (s.pwr.started = true → u.pwr.started = false ∧ u.pwr.lastReset = 0)) ∧
  (∀ (us : Nat) (hbm : HbmRails) (s : State), s.pwr.isUp 2 = true → (s.pwr.up ≠ 0x1FF) → (s.pwr.upSince 2 + 100000 ≤ us) → Gives (.railMissing us hbm) s
      fun u => u.pwr.missing = true ∧ u.pwr.up = s.pwr.up) ∧
  (∀ (us : Nat) (s : State), Gives (.porNRelease us) s fun u => u =
      { s with pwr := { s.pwr with porHigh := true, protHold := s.pwr.protHold && s.pwr.porHigh } }) ∧
  (∀ (us : Nat) (s : State), s.pwr.started = true → Gives (.porNAssert us) s fun u => u.pwr.started = false ∧ u.pwr.porHigh = false ∧ u.pwr.lastReset = 1
      ∧ u.tick = 0 ∧ u.flash = s.flash) ∧
  (∀ (us : Nat) (s : State), s.pwr.canStart us = true → Gives (.coldStart us) s fun u => u.pwr.started = true ∧ u.rd (pg .glb 0) Reg.GLB_BOOT_STAT_STEP =
      3 ∧ u.rd (pg .glb 0) Reg.GLB_BOOT_STAT_LAST_RESET = Reg.GLB_BOOT_STAT_LAST_RESET.cut s.pwr.lastReset ∧ u.flash = s.flash) ∧
  (∀ (us : Nat) (s : State), s.pwr.started = true → s.boot.avsSent = false → Gives (.avsSet us) s fun u => u.boot =
      { s.boot with avsSent := true, avsAt := us } ∧ u.rd (pg .pwr 0) Reg.PWR_CORE_AVS_SET_MV = Reg.PWR_CORE_AVS_SET_MV.cut (s.rd (pg .pwr 0)
      Reg.PWR_CORE_AVS_TARGET_MV) ∧ u.out = .avsSet (s.rd (pg .pwr 0) Reg.PWR_CORE_AVS_TARGET_MV) :: s.out) ∧
  (∀ (t : Nat) (mv da : BitVec 16) (s : State), s.pwr.started = true → s.boot.avsSent = true → Gives (.avsPoll t mv da false) s fun u => u.rd (pg .pwr 0)
      Reg.PWR_CORE_TELEM_V_MV = mv.toNat ∧ u.rd (pg .pwr 0) Reg.PWR_CORE_TELEM_I_DA = da.toNat) ∧
  (∀ (us : Nat) (s : State), s.pwr.started = true → s.boot.avsSent = true → (s.on (pg .pwr 0) Reg.PWR_CORE_AVS_AVS_OK = false) → (s.boot.avsAt + 10000 ≤
      us) → Gives (.avsFail us) s fun u => u.pwr =
      { s.pwr with seqFault := true, cause := 0xD, faultSeen := true, alert := true, faultCount := min (s.pwr.faultCount + 1) 0xFFFF, started := false }) ∧
  (∀ (t : Nat) (rail : Fin 9) (zone : Zone) (s : State), s.pwr.isUp 2 = true → (s.pwr.inTol < 2 ^ 9 ∧ s.pwr.ov < 2 ^ 9 ∧ s.pwr.inTol &&& s.pwr.ov = 0) →
      Gives (.railWarn t rail zone) s fun u => (u.rd (pg .pwr 0) Reg.PWR_RAIL_STAT_IN_TOL).testBit rail = (zone == .within) ∧ (u.rd (pg .pwr 0)
      Reg.PWR_RAIL_STAT_UV).testBit rail = (zone == .below) ∧ (u.rd (pg .pwr 0) Reg.PWR_RAIL_STAT_OV).testBit rail = (zone == .above) ∧ u.pwr.inTol =
      putBit s.pwr.inTol rail (zone == .within) ∧ u.pwr.ov = putBit s.pwr.ov rail (zone == .above)) ∧
  (∀ (t : Nat) (rail : Fin 9) (above : Bool) (s : State), s.pwr.started = true → Gives (.railFault t rail above) s fun u => u.pwr =
      { s.pwr with protHold := true, cause := if above then 0xB else 0xA, faultSeen := true, alert := true, faultCount := min (s.pwr.faultCount + 1) 0xFFFF, started := false, lastReset := 2 }) ∧
  (∀ (t : Nat) (s : State), s.pwr.started = true → Gives (.thermTrip t) s fun u => u.pwr =
      { s.pwr with protHold := true, cause := 0xC, faultSeen := true, alert := true, faultCount := min (s.pwr.faultCount + 1) 0xFFFF, started := false, lastReset := 2 })

/-- A short found on an output whose detection is on and that shows none is recorded with its kind, counted and its driver state; a retry that
its schedule has due records what the pad then shows; RETRY_NOW retries every faulty output named; turning detection off clears its enable
bits. A pass starts with every pin of MASK to test and DONE 0; a pin whose test has taken its time, and has not had to wait for a conversion
of its input, leaves the list with its OPEN bit as its rise says. Each of these completes as the clauses that name it say: shortDetect,
shortRetry, retryNow, outFltDetDisable, owStart, owPeriodicPass, owPinTest. -/
def Obligations.OutputFaultAndWireTestCommandsComplete : Prop :=
  (∀ (t : Nat) (j : Fin 16) (padHigh : Bool) (v s : State), (v = (s.advance t).routerTo t) → (shortKind j (v.tio.level.testBit j) padHigh ≠ 0) →
      v.shortOf j = 0 → ((v.rd (pg .tio 0) Reg.TIO_OUT_FLT_CTL_DET_EN).testBit j = true) → (∀ x, smFind j.val v.tio.changeAt = some x → x +
      shortCheckTicks ≤ v.tick) → Gives (.shortDetect t j padHigh) s fun u => u.rd (pg .tio 0) Reg.TIO_OUT_FLT_STAT_KIND =
      Reg.TIO_OUT_FLT_STAT_KIND.cut (setPart (v.rd (pg .tio 0) Reg.TIO_OUT_FLT_STAT_KIND) (2 * j) 2 (shortKind j (v.tio.level.testBit j) padHigh)) ∧
      u.rd (pg .tio 0) Reg.TIO_OUT_FLT_STAT_DISABLED = Reg.TIO_OUT_FLT_STAT_DISABLED.cut (putBit (v.rd (pg .tio 0) Reg.TIO_OUT_FLT_STAT_DISABLED) j
      (j.val < 8 || v.tio.level.testBit j)) ∧ smFind j.val u.tio.retryAt = some (v.tick + retryTicks)) ∧
  (∀ (t : Nat) (j : Fin 16) (padHigh : Bool) (v s : State), (v = (s.advance t).routerTo t) → ((v.rd (pg .tio 0) Reg.TIO_OUT_FLT_CTL_RETRY_EN).testBit j =
      true) → (v.shortOf j ≠ 0) → (smGet 0 j v.tio.retryAt ≤ v.tick) → Gives (.shortRetry t j padHigh) s fun u => u.rd (pg .tio 0)
      Reg.TIO_OUT_FLT_STAT_KIND = Reg.TIO_OUT_FLT_STAT_KIND.cut (setPart (v.rd (pg .tio 0) Reg.TIO_OUT_FLT_STAT_KIND) (2 * j) 2 (shortKind j
      (v.tio.level.testBit j) padHigh)) ∧ u.tio.pads.testBit j = padHigh) ∧
  (∀ (t : Nat) (mask padHigh : BitVec 16) (s : State), (s.hostOpen (pg .tio 0)) → Gives (.retryNow t mask padHigh) s fun u => ∀ j : Fin 16, mask.getLsbD
      j = true → u.shortOf j = if s.shortOf j = 0 then 0 else shortKind j (((s.advance t).routerTo t).tio.level.testBit j) (padHigh.getLsbD j)) ∧
  (∀ (t : Nat) (mask : BitVec 16) (s : State), (s.hostOpen (pg .tio 0)) → Gives (.outFltDetDisable t mask) s fun u => u.rd (pg .tio 0)
      Reg.TIO_OUT_FLT_CTL_DET_EN = s.rd (pg .tio 0) Reg.TIO_OUT_FLT_CTL_DET_EN &&& (0xFFFF - mask.toNat)) ∧
  (∀ (t : Nat) (s : State), (s.hostOpen (pg .cmp 0)) → s.tio.owPass = false → (bitsOf 24 (s.rd (pg .cmp 0) Reg.CMP_OW_CTL_MASK) ≠ []) → Gives (.owStart
      t) s fun u => u.tio =
      { s.tio with owPass := true, owTodo := bitsOf 24 (s.rd (pg .cmp 0) Reg.CMP_OW_CTL_MASK), owRose := false, owAt := (s.advance t).tick } ∧ u.rd
      (pg .cmp 0) Reg.CMP_OW_STAT_DONE = 0 ∧ u.rd (pg .cmp 0) Reg.CMP_OW_CTL_START = 1) ∧
  (∀ (t : Nat) (s : State), (s.rd (pg .cmp 0) Reg.CMP_OW_CTL_PERIOD ≠ 0) → s.tio.owPass = false → (bitsOf 24 (s.rd (pg .cmp 0) Reg.CMP_OW_CTL_MASK) ≠ [])
      → (s.tio.owNextAt ≤ (s.advance t).tick) → Gives (.owPeriodicPass t) s fun u => u.tio =
      { s.tio with owPass := true, owTodo := bitsOf 24 (s.rd (pg .cmp 0) Reg.CMP_OW_CTL_MASK), owRose := false, owAt := (s.advance t).tick, owNextAt := (s.advance t).tick + s.rd (pg .cmp 0) Reg.CMP_OW_CTL_PERIOD * 16000000 }
      ∧ u.rd (pg .cmp 0) Reg.CMP_OW_STAT_DONE = 0) ∧
  (∀ (t : Nat) (pin : Fin 24) (riseMv : Nat) (rest : List Nat) (s : State), (s.tio.owTodo = pin.val :: rest) → (s.tio.owAt + owTicks ≤ (s.advance
      t).tick) → s.owBlocked pin = false → Gives (.owPinTest t pin riseMv) s fun u => u.tio.owTodo = rest ∧ u.rd (pg .cmp 0) Reg.CMP_OW_STAT_OPEN =
      Reg.CMP_OW_STAT_OPEN.cut (putBit (s.rd (pg .cmp 0) Reg.CMP_OW_STAT_OPEN) pin (120 < riseMv)) ∧ u.rd (pg .cmp 0) Reg.CMP_OW_STAT_DONE =
      Reg.CMP_OW_STAT_DONE.cut (setBit (s.rd (pg .cmp 0) Reg.CMP_OW_STAT_DONE) pin))

/-- With VDD_IO up, the four reads answer the eight bytes of their words, least significant first (CORE_TELEM and OUT_FLT_STAT are 0 before the
module starts); the alert is released and the record cleared by data 0x01, acknowledged; an alert response answers the address while ALERT_N
is asserted; an unknown command is not acknowledged. SEQ_STAT.CLEAR clears the cause and both flags. -/
def Obligations.SidebandCommandsComplete : Prop :=
  (∀ (t : Nat) (s : State), (s.cutOff .page (pg .pwr 0) = false) → Gives (.seqStatClear t) s fun u => u.pwr =
      { s.pwr with cause := 0, faultSeen := false, pdOrder := false }) ∧
  (∀ (s : State), s.pwr.isUp 2 = true → Gives (.smbReadSeqStat) s fun u => u = { s with out := .smbRead (smbBytes s.seqStatWord) :: s.out }) ∧
  (∀ (s : State), s.pwr.isUp 2 = true → Gives (.smbReadRailStat) s fun u => u = { s with out := .smbRead (smbBytes s.railStatWord) :: s.out }) ∧
  (∀ (s : State), s.pwr.isUp 2 = true → Gives (.smbReadCoreTelem) s fun u => u =
      { s with out := .smbRead (smbBytes (if s.pwr.started then s.rd (pg .pwr 0) Reg.PWR_CORE_TELEM_I_DA * 2 ^ 16 + s.rd (pg .pwr 0) Reg.PWR_CORE_TELEM_V_MV else 0)) :: s.out }) ∧
  (∀ (s : State), s.pwr.isUp 2 = true → Gives (.smbReadOutFltStat) s fun u => u =
      { s with out := .smbRead (smbBytes (if s.pwr.started then s.rd (pg .tio 0) Reg.TIO_OUT_FLT_STAT_DISABLED * 2 ^ 32 + s.rd (pg .tio 0) Reg.TIO_OUT_FLT_STAT_KIND else 0)) :: s.out }) ∧
  (∀ (s : State), s.pwr.isUp 2 = true → Gives (.smbAlertRelease 1) s fun u => u.pwr = { s.pwr with alert := false } ∧ u.out = .smbAck :: s.out ∧ u.rd (pg
      .pwr 0) Reg.PWR_SEQ_STAT_ALERT = 0) ∧
  (∀ (s : State), s.pwr.isUp 2 = true → Gives (.smbSeqClear 1) s fun u => u.pwr = { s.pwr with cause := 0, faultSeen := false, pdOrder := false } ∧ u.out
      = .smbAck :: s.out) ∧
  (∀ (s : State), s.pwr.isUp 2 = true → s.pwr.alert = true → Gives (.smbAlertResponse) s fun u => u = { s with out := .smbAlertAddress :: s.out }) ∧
  (∀ (cmd : Byte) (s : State), s.pwr.isUp 2 = true → (cmd.toNat ∉ [0x01, 0x02, 0x03, 0x04, 0x0F, 0x10]) → Gives (.smbUnknownCommand cmd) s fun u => u =
      { s with out := .smbNack :: s.out })

/-- A loss that the detector sees gates the outputs in holdover; its return for 1 ms shows. RELOCK gates and makes the trim target the lock
target. The phase detector, the checker and the SYSREF wait take the lock to its next step or to its failure. The first release starts the
tick counter at its start value; a later one ends the gap that the keeper counted. A lost lock gates. A band calibration gates and starts;
its bands are written. A retry that is due counts. GATE_HOLD clears. Each of these completes as the clauses that name it say: refLost,
refPresent, relock, phaseLockDetect, frequencyCheckDone, sysrefWaitExpiry, released, lockLost, bandCal, bandCalDone, lockRetry,
gateHoldClear. -/
def Obligations.LockAndReleaseCommandsComplete : Prop :=
  (∀ (t : Nat) (samples : List (BitVec 4)) (s : State), (s.on (pg .clk 0) Reg.CLK_PLL_STAT_REF_PRESENT = true) → s.lossSeen samples = true → Gives
      (.refLost t samples) s fun u => u.rd (pg .clk 0) Reg.CLK_PLL_STAT_REF_PRESENT = 0 ∧ u.rd (pg .clk 0) Reg.CLK_PLL_STAT_LOCKED = 0 ∧ u.gated =
      true ∧ u.clk.gateHoldover = true) ∧
  (∀ (t periods : Nat) (s : State), (100000 ≤ periods) → Gives (.refPresent t periods) s fun u => u.on (pg .clk 0) Reg.CLK_PLL_STAT_REF_PRESENT = true) ∧
  (∀ (t : Nat) (s : State), (s.hostOpen (pg .clk 0)) → (s.on (pg .clk 0) Reg.CLK_PLL_STAT_REF_PRESENT = true) → Gives (.relock t) s fun u => u.gated =
      true ∧ u.rd (pg .clk 0) Reg.CLK_FTRIM_ACT_ACT = Reg.CLK_FTRIM_ACT_ACT.cut (s.rd (pg .clk 0) Reg.CLK_FTRIM_TARGET)) ∧
  (∀ (t : Nat) (s : State), s.clk.phase = 1 → Gives (.phaseLockDetect t) s fun u => u.clk = { s.clk with phase := 2, phaseAt := (s.advance t).now } ∧
      u.on (pg .clk 0) Reg.CLK_PLL_STAT_LOCKED = true) ∧
  (∀ (t : Nat) (w1 w2 : List Nat) (s : State), s.clk.phase = 2 → (s.clk.phaseAt + 2 * s.checkWindow s.clk.hz ≤ (s.advance t).now) → (s.windowOk w1 = true
      ∧ s.windowOk w2 = true) → Gives (.frequencyCheckDone t w1 w2) s fun u => u.rd (pg .clk 0) Reg.CLK_FCHK_FCLK_ERR = unsigned
      Reg.CLK_FCHK_FCLK_ERR.width (s.fclkErr (w2.headD 0)) ∧ u.clk =
      { s.clk with phaseAt := (s.advance t).now, phase := if s.rd (pg .clk 0) Reg.CLK_SYSREF_CTL_MODE = 1 ∧ s.on (pg .clk 0) Reg.CLK_SYSREF_CTL_ARM = true then 4 else 5 }) ∧
  (∀ (t : Nat) (s : State), s.clk.phase = 4 → (s.clk.phaseAt + s.rd (pg .clk 0) Reg.CLK_SYSREF_CTL_SYSREF_WAIT * 1600000 ≤ (s.advance t).now) → Gives
      (.sysrefWaitExpiry t) s fun u => u.clk =
      { s.clk with phase := 0, phaseAt := (s.advance t).now, tried := [], retryAt := some ((s.advance t).now + lockRetryTicks) } ∧ u.rd (pg .clk 0)
      Reg.CLK_PLL_STAT_FAIL_CAUSE = 4 ∧ u.rd (pg .clk 0) Reg.CLK_PLL_STAT_LOCKED = 0) ∧
  (∀ (t : Nat) (s : State), s.canRelease = true → s.clk.counting = false → Gives (.released t) s fun u => u.gated = false ∧ u.clk.counting = true ∧
      u.tick = s.clk.startAt) ∧
  (∀ (t : Nat) (s : State), s.canRelease = true → s.clk.counting = true → (s.page.held = []) → Gives (.released t) s fun u => u.gated = false ∧ u.tick =
      (s.advance t).tick ∧ u.rd (pg .tmb 0) Reg.TMB_KEEP_STAT_LAST_GAP = min (u.tick - s.clk.gateAt) (2 ^ 32 - 1)) ∧
  (∀ (t : Nat) (s : State), s.gated = false → Gives (.lockLost t) s fun u => u.gated = true) ∧
  (∀ (t : Nat) (s : State), (s.hostOpen (pg .clk 0)) → (s.running = []) → Gives (.bandCal t) s fun u => u.gated = true ∧ u.clk.phase = 9 ∧ u.on (pg .clk
      0) Reg.CLK_PLL_CTL_BAND_CAL = true) ∧
  (∀ (t : Nat) (bands : List BandCount) (s : State), s.clk.phase = 9 → bands.length = 64 → (s.clk.phaseAt + s.bandCalTicks ≤ (s.advance t).now) → Gives
      (.bandCalDone t bands) s fun u => u.rd (pg .clk 0) Reg.CLK_PLL_CTL_BAND_CAL = 0 ∧ ∀ b : Fin 64, u.rd (pg .clk 0) (Reg.CLK_BAND_F_LO_KHZ b) =
      (Reg.CLK_BAND_F_LO_KHZ b).cut (s.bandKhz (bands.getD b ⟨0, 0, 0⟩).lo) ∧ u.rd (pg .clk 0) (Reg.CLK_BAND_F_HI_KHZ b) = (Reg.CLK_BAND_F_HI_KHZ
      b).cut (s.bandKhz (bands.getD b ⟨0, 0, 0⟩).hi)) ∧
  (∀ (t : Nat) (s : State), s.clk.phase = 0 → s.gated = true → (s.clk.retryAt.any (fun x => decide (x ≤ (s.advance t).now)) = true) → (s.on (pg .clk 0)
      Reg.CLK_REF_CFG_AUTO_RELOCK = true) → (s.on (pg .glb 0) Reg.GLB_BOOT_STAT_FAILED = false) → (s.clk.counting = true ∨ s.boot.lockTries < 100) →
      Gives (.lockRetry t) s fun u => u.boot = { s.boot with lockTries := s.boot.lockTries + 1 }) ∧
  (∀ (t : Nat) (s : State), (s.hostOpen (pg .clk 0)) → Gives (.gateHoldClear t) s fun u => u.rd (pg .clk 0) Reg.CLK_PLL_CTL_GATE_HOLD = 0)

/-- A trim write limits the target to ±200 ppm and sets the slew; a trim step, once every 1 µs, moves the active trim by at most the slew
towards it. An edge is counted; in mode 0b10 it is measured, with its distance from a LEMC boundary, and in mode 0b01 an armed edge that a
lock waits for ends the wait and the arming. Arming reads 1. A snapshot takes the tick counter and its PTP time. Each of these completes as
the clauses that name it say: ftrimWrite, trimStep, sysrefEdge, sysrefArm, timebaseSnap. -/
def Obligations.TrimAndTimebaseCommandsComplete : Prop :=
  (∀ (t : Nat) (target : BitVec 32) (slew : BitVec 17) (s : State), (s.hostOpen (pg .clk 0)) → Gives (.ftrimWrite t target slew) s fun u => u.rdS (pg
      .clk 0) Reg.CLK_FTRIM_TARGET = clampInt (-200000000) 200000000 target.toInt ∧ u.rd (pg .clk 0) Reg.CLK_FTRIM_SLEW = slew.toNat) ∧
  (∀ (t : Nat) (s : State), s.gated = false → (s.clk.trimAt + 1600 ≤ (s.advance t).tick) → Gives (.trimStep t) s fun u => u.rd (pg .clk 0)
      Reg.CLK_FTRIM_ACT_ACT = unsigned Reg.CLK_FTRIM_ACT_ACT.width (s.trim + clampInt (-(min (s.rd (pg .clk 0) Reg.CLK_FTRIM_SLEW) 100000 : Nat)) (min
      (s.rd (pg .clk 0) Reg.CLK_FTRIM_SLEW) 100000 : Nat) (s.rdS (pg .clk 0) Reg.CLK_FTRIM_TARGET - s.trim))) ∧
  (∀ (t : Nat) (phaseErr : BitVec 16) (pulses : Option (Nat × Nat)) (falling : Bool) (s : State), (s.rd (pg .clk 0) Reg.CLK_SYSREF_CTL_MODE = 2) → Gives
      (.sysrefEdge t phaseErr pulses falling) s fun u => u.rd (pg .clk 0) Reg.CLK_SYSREF_STAT_PHASE_ERR = unsigned 16 (phaseErr.toInt + (s.advance
      t).lemcError ((s.advance t).tick + 16)) ∧ u.rd (pg .clk 0) Reg.CLK_SYSREF_STAT_SEEN_CNT = Reg.CLK_SYSREF_STAT_SEEN_CNT.cut (s.rd (pg .clk 0)
      Reg.CLK_SYSREF_STAT_SEEN_CNT + 1)) ∧
  (∀ (t : Nat) (phaseErr : BitVec 16) (pulses : Option (Nat × Nat)) (falling : Bool) (s : State), (s.rd (pg .clk 0) Reg.CLK_SYSREF_CTL_MODE = 1) → (s.on
      (pg .clk 0) Reg.CLK_SYSREF_CTL_ARM = true) → s.clk.phase = 4 → Gives (.sysrefEdge t phaseErr pulses falling) s fun u => u.clk.phase = 5 ∧ u.rd
      (pg .clk 0) Reg.CLK_SYSREF_CTL_ARM = 0 ∧ u.rd (pg .clk 0) Reg.CLK_JESD_DIV_D_ACT = Reg.CLK_JESD_DIV_D_ACT.cut (s.rd (pg .clk 0)
      Reg.CLK_JESD_DIV_D)) ∧
  (∀ (t : Nat) (s : State), (s.hostOpen (pg .clk 0)) → Gives (.sysrefArm t) s fun u => u.on (pg .clk 0) Reg.CLK_SYSREF_CTL_ARM = true) ∧
  (∀ (t : Nat) (s : State), (s.hostOpen (pg .tmb 0)) → Gives (.timebaseSnap t) s fun u => u.rd (pg .tmb 0) Reg.TMB_SNAP_TICK_TICKS =
      Reg.TMB_SNAP_TICK_TICKS.cut (s.advance t).tick ∧ u.rd (pg .tmb 0) Reg.TMB_SNAP_SEC_SEC = Reg.TMB_SNAP_SEC_SEC.cut (s.ptpOf (s.advance t).tick).1
      ∧ u.rd (pg .tmb 0) Reg.TMB_SNAP_NS_NS_FRAC = Reg.TMB_SNAP_NS_NS_FRAC.cut (s.ptpOf (s.advance t).tick).2)

/-- A slot that the ROM accepts is booted and shown; a rejected slot is recorded with its reason. The trained host link shows its speed and
width. After the start-up training every channel is active, or failed where it found no setting. A cleared bank is enabled and counted. When
steps 6 to 8 have ended, STEP is 9 and READY 1. Each of these completes as the clauses that name it say: romVerifyDone, pcieLinkTrained,
hbmStartTrainingDone, bankClearDone, bootReady. -/
def Obligations.StartupCommandsComplete : Prop :=
  (∀ (t : Nat) (slot : Fin 2) (flash : Option FwImage) (board : BoardCfg) (bands : Option (List Word)) (v s : State), s.pwr.started = true →
      s.boot.warmHeld = false → s.boot.verified = false → s.svc.restarting = false → (s.rd (pg .glb 0) Reg.GLB_BOOT_STAT_STEP = 3) → (s.on (pg .glb 0)
      Reg.GLB_BOOT_STAT_FAILED = false) → s.secSync.romSlotNext = slot → (v = (s.advance t).secSync.slotReads slot flash) → (v.fwReason (v.slotImage
      slot) = 0) → Gives (.romVerifyDone t slot flash board bands) s fun u => u.boot.verified = true ∧ u.rd (pg .glb 0) Reg.GLB_BOOT_STAT_SLOT = slot) ∧
  (∀ (t : Nat) (slot : Fin 2) (flash : Option FwImage) (board : BoardCfg) (bands : Option (List Word)) (v s : State), s.pwr.started = true →
      s.boot.warmHeld = false → s.boot.verified = false → (s.rd (pg .glb 0) Reg.GLB_BOOT_STAT_STEP = 3) → (s.on (pg .glb 0) Reg.GLB_BOOT_STAT_FAILED =
      false) → s.secSync.romSlotNext = slot → (v = (s.advance t).secSync.slotReads slot flash) → (v.fwReason (v.slotImage slot) ≠ 0) → Gives
      (.romVerifyDone t slot flash board bands) s fun u => u.boot =
      { s.boot with rejected := (slot.val, v.fwReason (v.slotImage slot)) :: s.boot.rejected }) ∧
  (∀ (t : Nat) (speed : Fin 6) (width : Fin 17) (s : State), s.pwr.started = true → (speed ≠ 0) → (width ≠ 0) → Gives (.pcieLinkTrained t speed width) s
      fun u => u.boot = { s.boot with linkUp := true } ∧ u.on (pg .pci 0) Reg.PCI_LINK_STAT_UP = true ∧ u.rd (pg .pci 0) Reg.PCI_LINK_STAT_SPEED =
      speed ∧ u.rd (pg .pci 0) Reg.PCI_LINK_STAT_WIDTH = width) ∧
  (∀ (t : Nat) (failed : Word) (s : State), (s.rd (pg .glb 0) Reg.GLB_BOOT_STAT_STEP = 6) → s.boot.done.testBit 0 = false → s.gated = false → Gives
      (.hbmStartTrainingDone t failed) s fun u => u.boot = { s.boot with done := setBit s.boot.done 0 } ∧ ∀ c : Fin 64, u.rd (pg .mch c)
      Reg.MCH_MCH_STAT_STATE = if failed.getLsbD c then 5 else 2) ∧
  (∀ (t : Nat) (b : Fin 64) (ok : Bool) (s : State), (s.rd (pg .glb 0) Reg.GLB_BOOT_STAT_STEP = 6) → (b.val ∉ s.boot.cleared) → (∀ x, smFind (pg .bnk b)
      s.page.enAt = some x → x < (s.advance t).tick) → s.gated = false → Gives (.bankClearDone t b ok) s fun u => u.boot.cleared = b.val ::
      s.boot.cleared ∧ u.en (pg .bnk b) = 1 ∧ u.enAct (pg .bnk b) = 1 ∧ u.pstateAct (pg .bnk b) = 0) ∧
  (∀ (t : Nat) (s : State), (s.rd (pg .glb 0) Reg.GLB_BOOT_STAT_STEP = 6) → s.boot.done = 7 → (s.on (pg .glb 0) Reg.GLB_BOOT_STAT_FAILED = false) →
      s.clk.counting = true → s.gated = false → s.boot.warmHeld = false → (s.page.held = []) → Gives (.bootReady t) s fun u => u.ready = true ∧
      u.startedUp = true ∧ u.boot = { s.boot with readyAt := (s.advance t).tick })

/-- RST_N low for 100 periods, a PCIe hot reset and PE_PERST_N assert a warm reset with LAST_RESET 3, 4 and 5: capture memory, the flash and the
waiting commands stay as they are. Under HOST_ISOLATE the last two reset the host endpoint alone. The release starts verification again at
step 3. Each of these completes as the clauses that name it say: rstNAssert, pcieHotReset, pePerstNAssert, warmResetRelease. -/
def Obligations.WarmResetCommandsComplete : Prop :=
  (∀ (t periods : Nat) (s : State), s.pwr.started = true → s.boot.warmHeld = false → (100 ≤ periods) → Gives (.rstNAssert t periods) s fun u =>
      u.boot.warmHeld = true ∧ u.rd (pg .glb 0) Reg.GLB_BOOT_STAT_LAST_RESET = 3 ∧ u.mem.bytes = s.mem.bytes ∧ u.flash = s.flash ∧ u.pending =
      s.pending) ∧
  (∀ (t : Nat) (s : State), s.pwr.started = true → s.boot.warmHeld = false → (s.on (pg .glb 0) Reg.GLB_BOOT_CTL_HOST_ISOLATE = false) → Gives
      (.pcieHotReset t) s fun u => u.boot.warmHeld = true ∧ u.rd (pg .glb 0) Reg.GLB_BOOT_STAT_LAST_RESET = 4 ∧ u.mem.bytes = s.mem.bytes ∧ u.flash =
      s.flash ∧ u.pending = s.pending) ∧
  (∀ (t : Nat) (s : State), s.pwr.started = true → (s.on (pg .glb 0) Reg.GLB_BOOT_CTL_HOST_ISOLATE = true) → Gives (.pcieHotReset t) s fun u => u.boot =
      { s.boot with linkUp := false } ∧ u.mem.bytes = s.mem.bytes ∧ u.rd (pg .pci 0) Reg.PCI_LINK_STAT_UP = 0) ∧
  (∀ (t : Nat) (s : State), s.pwr.started = true → s.boot.warmHeld = false → (s.on (pg .glb 0) Reg.GLB_BOOT_CTL_HOST_ISOLATE = false) → Gives
      (.pePerstNAssert t) s fun u => u.boot.warmHeld = true ∧ u.rd (pg .glb 0) Reg.GLB_BOOT_STAT_LAST_RESET = 5 ∧ u.mem.bytes = s.mem.bytes ∧ u.flash
      = s.flash ∧ u.pending = s.pending) ∧
  (∀ (t : Nat) (s : State), s.boot.warmHeld = true → Gives (.warmResetRelease t) s fun u => u.boot = { s.boot with warmHeld := false } ∧ u.rd (pg .glb 0)
      Reg.GLB_BOOT_STAT_STEP = 3)

/-- A lane's recovery, block lock and EMB lock are recorded, and a lost lock clears its three status bits. A release point at which every lane
is locked and has its start takes the link up with the release tick as its base; one that a lane misses takes an up link down, as the
watchdog does where no lane fault is the cause. An overflow shows in its lane. Errors corrected are counted, an uncorrectable multiblock
drops its frames, and one with a CRC mismatch is counted and drops or flags its frames, as CRC_ACTION says. A frame whose instant has come
advances the link. An overrange episode that is over is closed. The clears leave their counters 0. Each of these completes as the clauses
that name it say: laneCdrLock, blockLock, embLock, blockLockLost, embLockLost, releasePoint, linkWdExpiry, elasticBufferOverflow,
multiblockReceive, frameDelivery, overrangeEpisodeEnd, laneCntClear, linkErrClear, slotClear. -/
def Obligations.LaneAndLinkCommandsComplete : Prop :=
  (∀ (t : Nat) (lane : Fin 224) (s : State), s.laneOn lane = true → Gives (.laneCdrLock t lane) s fun u => lane.val ∈ u.ing.cdr) ∧
  (∀ (t : Nat) (lane : Fin 224) (inverted : Bool) (s : State), s.laneOn lane = true → s.ing.cdr.contains lane.val = true → (inverted = false ∨ (s.rd
      (lanePage lane) Reg.LQD_LANE_CTL_POL_AUTO).testBit (lane % 8) = true) → Gives (.blockLock t lane inverted) s fun u => u.on (lanePage lane)
      (Reg.LQD_LANE_STAT_BLOCK_LOCK (lane % 8)) = true) ∧
  (∀ (t : Nat) (lane : Fin 224) (s : State), s.laneOn lane = true → (s.on (lanePage lane) (Reg.LQD_LANE_STAT_BLOCK_LOCK (lane % 8)) = true) → Gives
      (.embLock t lane) s fun u => u.on (lanePage lane) (Reg.LQD_LANE_STAT_EMB_LOCK (lane % 8)) = true) ∧
  (∀ (t : Nat) (lane : Fin 224) (s : State), (s.on (lanePage lane) (Reg.LQD_LANE_STAT_BLOCK_LOCK (lane % 8)) = true) → Gives (.blockLockLost t lane) s
      fun u => ∀ f ∈ [Reg.LQD_LANE_STAT_BLOCK_LOCK, Reg.LQD_LANE_STAT_EMB_LOCK, Reg.LQD_LANE_STAT_UP], u.rd (lanePage lane) (f (lane % 8)) = 0) ∧
  (∀ (t : Nat) (lane : Fin 224) (s : State), (s.on (lanePage lane) (Reg.LQD_LANE_STAT_EMB_LOCK (lane % 8)) = true) → Gives (.embLockLost t lane) s fun u
      => ∀ f ∈ [Reg.LQD_LANE_STAT_BLOCK_LOCK, Reg.LQD_LANE_STAT_EMB_LOCK, Reg.LQD_LANE_STAT_UP], u.rd (lanePage lane) (f (lane % 8)) = 0) ∧
  (∀ (t : Nat) (l : Fin 64) (margins : List (Option Nat)) (s : State), s.linkOn l = true → (s.gated = false ∧ (s.lnk l).busy = false) → (s.releaseDue l t
      = true ∧ s.linkSwitching l t = false) → (∀ x ∈ s.linkLanes l, x < 224 ∧ s.on (lanePage x) (Reg.LQD_LANE_STAT_EMB_LOCK (x % 8)) = true ∧ smGet 0
      x s.ing.lockAt < t) → (releasable margins (s.linkLanes l).length = true) → Gives (.releasePoint t l margins) s fun u => u.linkState l = 4 ∧
      (u.lnk l).base = t ∧ (u.lnk l).frame = 0) ∧
  (∀ (t : Nat) (l : Fin 64) (margins : List (Option Nat)) (s : State), s.linkOn l = true → (s.gated = false ∧ (s.lnk l).busy = false) → (s.releaseDue l t
      = true ∧ s.linkSwitching l t = false) → s.linkState l = 4 → (releasable margins (s.linkLanes l).length = false) → Gives (.releasePoint t l
      margins) s fun u => u.linkState l = 5) ∧
  (∀ (t : Nat) (l : Fin 64) (s : State), s.linkOn l = true → s.gated = false → (s.linkState l = 4 ∧ (s.lnk l).gatedOnly = false ∧ (s.lnk l).cause = 0) →
      ((s.lnk l).wdFrom + s.rd (pg .lnk l) Reg.LNK_LINK_WD_WD ≤ (s.advance t).tick) → Gives (.linkWdExpiry t l) s fun u => u.linkState l = 5) ∧
  (∀ (t : Nat) (lane : Fin 224) (s : State), s.laneOn lane = true → Gives (.elasticBufferOverflow t lane) s fun u => u.on (lanePage lane)
      (Reg.LQD_LANE_STAT_BUF_ERR (lane % 8)) = true) ∧
  (∀ (t : Nat) (l : Fin 64) (j : Fin 16) (release : Nat) (mb : Fin 32) (errs : Nat) (s : State), (s.linkOn l = true ∧ s.gated = false) → (j.val <
      (s.linkLanes l).length ∧ s.physLane l j < 224 ∧ mb.val ≤ s.rd (pg .lnk l) Reg.LNK_LINK_CFG_E_M1) → (s.rd (pg .lnk l) Reg.LNK_LINK_CFG_CHECK = 2)
      → Gives (.multiblockReceive t l j release mb 1 errs) s fun u => u.rd (lanePage (s.physLane l j)) (Reg.LQD_LANE_STAT_FEC_CORR (s.physLane l j %
      8)) = min (s.rd (lanePage (s.physLane l j)) (Reg.LQD_LANE_STAT_FEC_CORR (s.physLane l j % 8)) + errs) (2 ^ (Reg.LQD_LANE_STAT_FEC_CORR
      (s.physLane l j % 8)).width - 1)) ∧
  (∀ (t : Nat) (l : Fin 64) (j : Fin 16) (release : Nat) (mb : Fin 32) (errs : Nat) (s : State), (s.linkOn l = true ∧ s.gated = false) → (j.val <
      (s.linkLanes l).length ∧ s.physLane l j < 224 ∧ mb.val ≤ s.rd (pg .lnk l) Reg.LNK_LINK_CFG_E_M1) → (s.rd (pg .lnk l) Reg.LNK_LINK_CFG_CHECK = 2)
      → Gives (.multiblockReceive t l j release mb 2 errs) s fun u => (u.lnk l).drop = (release, mbFrames (s.octets l) mb) :: (s.lnk l).drop ∧ u.on
      (lanePage (s.physLane l j)) (Reg.LQD_LANE_STAT_FEC_UNC (s.physLane l j % 8)) = true) ∧
  (∀ (t : Nat) (l : Fin 64) (j : Fin 16) (release : Nat) (mb : Fin 32) (errs : Nat) (s : State), (s.linkOn l = true ∧ s.gated = false) → (j.val <
      (s.linkLanes l).length ∧ s.physLane l j < 224 ∧ mb.val ≤ s.rd (pg .lnk l) Reg.LNK_LINK_CFG_E_M1) → (s.rd (pg .lnk l) Reg.LNK_LINK_CFG_CHECK = 1)
      → Gives (.multiblockReceive t l j release mb 3 errs) s fun u => u.rd (lanePage (s.physLane l j)) (Reg.LQD_LANE_STAT_CRC_ERR (s.physLane l j %
      8)) = min (s.rd (lanePage (s.physLane l j)) (Reg.LQD_LANE_STAT_CRC_ERR (s.physLane l j % 8)) + 1) (2 ^ (Reg.LQD_LANE_STAT_CRC_ERR (s.physLane l
      j % 8)).width - 1) ∧ (if s.on (pg .lnk l) Reg.LNK_LINK_CFG_CRC_ACTION then (u.lnk l).drop = (release, mbFrames (s.octets l) mb) :: (s.lnk
      l).drop else (u.lnk l).crc = (release, mbFrames (s.octets l) mb) :: (s.lnk l).crc)) ∧
  (∀ (t : Nat) (l : Fin 64) (frame : List LaneSample) (fclk drained0 drained1 : Nat) (s : State), s.gated = false → ((s.lnk l).busy = true) → ((s.lnk
      l).frame < s.embFrames l) → (s.frameDue l (s.lnk l).frame t = true) → Gives (.frameDelivery t l frame fclk drained0 drained1) s fun u => (u.lnk
      l).frame = (s.lnk l).frame + 1) ∧
  (∀ (t : Nat) (slot : Fin 256) (e : Episode) (s : State), (smFind slot s.ing.epi = some e) → s.episodeOver slot e = true → Gives (.overrangeEpisodeEnd t
      slot) s fun u => smFind slot u.ing.epi = none) ∧
  (∀ (t : Nat) (q : Fin 28) (mask : BitVec 8) (s : State), (s.hostOpen (pg .lqd q)) → Gives (.laneCntClear t q mask) s fun u => ∀ i : Fin 8, mask.getLsbD
      i = true → ∀ f ∈ [Reg.LQD_LANE_STAT_FEC_CORR, Reg.LQD_LANE_STAT_CRC_ERR, Reg.LQD_LANE_STAT_MARGIN], u.rd (pg .lqd q) (f i) = 0) ∧
  (∀ (t : Nat) (l : Fin 64) (s : State), (s.hostOpen (pg .lnk l)) → Gives (.linkErrClear t l) s fun u => ∀ f ∈ [Reg.LNK_ERR_CNT_CRC_CNT,
      Reg.LNK_ERR_CNT_FEC_UNC_CNT, Reg.LNK_LINK_STAT_DOWN_CNT], u.rd (pg .lnk l) f = 0) ∧
  (∀ (t : Nat) (n : Fin 256) (s : State), (s.hostOpen (pg .slt n)) → Gives (.slotClear t n) s fun u => ∀ f ∈ [Reg.SLT_SLT_STAT_OVR_CNT,
      Reg.SLT_SLT_STAT_FIFO_MAX], u.rd (pg .slt n) f = 0)

/-- A tier-0 update, once its 2^20 samples have passed, shows whether any slice was below MIN_LEVEL, and its statistics start anew. A CAL_TIER1
command for a corrected input is deferred and requests a run. A run that starts is counted from its tick and saves the coefficients in
force; after 2^25 samples window 1's estimates are kept; window 2 ends the run with the hold-off running, and an accepted run makes the
means of both windows the reference. A request that has waited T1_WAIT seconds is forced. Once T1_HOLD has passed, automatic causes may act.
Each of these completes as the clauses that name it say: tier0Update, calTier1, t1RunStart, t1Window1End, t1Window2End, t1WaitExpiry,
t1HoldExpiry. -/
def Obligations.CorrectorCommandsComplete : Prop :=
  (∀ (t : Nat) (slot : Fin 256) (est : List IcEst) (s : State), ((s.icCtx slot).isSome = true) → (s.icRd slot Reg.CTX_IC_CFG_T0_EN ≠ 0) → (s.icRd slot
      Reg.CTX_IC_STAT_STATE < 3) → (2 ^ 20 ≤ accCount (s.input slot).acc) → s.gated = false → Gives (.tier0Update t slot est) s fun u => (u.input
      slot).acc = [] ∧ ∀ c ∈ s.inputCtxs slot, u.rd (pg .ctx c) Reg.CTX_IC_STAT_T0_FROZEN = b2n ((s.icEstimate slot (s.input slot).acc est).any
      Prod.snd)) ∧
  (∀ (t : Nat) (r : Fin 4) (e : SvcEntry) (s : State), s.takes r.val 0x28 e → ((s.icCtx (e.cmd.p0.toNat % 256)).isSome = true) → s.room e → Gives
      (.calTier1 t r) s fun u => u.svc.fetched = s.svc.fetched.erase e ∧ u.svc.deferred = s.svc.deferred ++ [e]) ∧
  (∀ (t : Nat) (slot : Fin 256) (s : State), s.icRd slot Reg.CTX_IC_STAT_STATE = 2 → (s.icRd slot Reg.CTX_IC_STAT_FORCED ≠ 0 ∨ s.inputArmed slot = false)
      → s.gated = false → Gives (.t1RunStart t slot) s fun u => u.ic = (s.setInput slot
      { s.input slot with start := (s.advance t).tick, from_ := none, saved := s.icAct slot, est1 := [], acc := [], acc1 := [] }).ic ∧ ∀ c ∈
      s.inputCtxs slot, u.rd (pg .ctx c) Reg.CTX_IC_STAT_STATE = 3) ∧
  (∀ (t : Nat) (slot : Fin 256) (est : List IcEst) (v s : State), s.icRd slot Reg.CTX_IC_STAT_STATE = 3 → s.gated = false → (v = (s.advance
      t).windowSplit slot) → ((v.input slot).acc1 ≠ []) → Gives (.t1Window1End t slot est) s fun u => (u.input slot).est1 = v.icEstimate slot (v.input
      slot).acc1 est ∧ ∀ c ∈ s.inputCtxs slot, u.rd (pg .ctx c) Reg.CTX_IC_STAT_STATE = 4) ∧
  (∀ (t : Nat) (slot : Fin 256) (est : List IcEst) (l : List ((IcCoef × Bool) × (IcCoef × Bool))) (s : State), s.icRd slot Reg.CTX_IC_STAT_STATE = 4 →
      s.gated = false → (windowLen ≤ accCount (s.input slot).acc) → (l = (s.input slot).est1.zip (s.icEstimate slot (s.input slot).acc est)) → Gives
      (.t1Window2End t slot est) s fun u => (u.input slot).holdTo = (if s.icRd slot Reg.CTX_IC_CFG_T1_HOLD = 0 then none else some ((s.advance t).tick
      + s.icRd slot Reg.CTX_IC_CFG_T1_HOLD * 1600000000)) ∧ (u.input slot).est1 = [] ∧ (u.input slot).ref = if icResult (s.inputBits slot) l = 1 then
      l.map (fun y => (⟨icMean y.1.1.gain y.2.1.gain, icMean y.1.1.skew y.2.1.skew, icMean y.1.1.ofs y.2.1.ofs⟩ : IcCoef)) else (s.input slot).ref) ∧
  (∀ (t : Nat) (slot : Fin 256) (s : State), s.icRd slot Reg.CTX_IC_STAT_STATE = 2 → (s.icRd slot Reg.CTX_IC_CFG_T1_WAIT ≠ 0) → ((s.input slot).reqAt +
      s.icRd slot Reg.CTX_IC_CFG_T1_WAIT * 1600000000 ≤ (s.advance t).tick) → Gives (.t1WaitExpiry t slot) s fun u => ∀ c ∈ s.inputCtxs slot, u.rd (pg
      .ctx c) Reg.CTX_IC_STAT_FORCED = 1 ∧ u.rd (pg .ctx c) Reg.CTX_IC_STAT_PENDING = 0) ∧
  (∀ (t : Nat) (slot : Fin 256) (h : Nat) (s : State), ((s.input slot).holdTo = some h) → (h ≤ (s.advance t).tick) → Gives (.t1HoldExpiry t slot) s fun u
      => (u.input slot).holdTo = none)

/-- With no switch pending, a frame whose last sample is in becomes ready: its grid goes on to the next one and it joins its context's frames,
unless its pipeline already has one waiting, which drops it. The end of a read counts corrected words and the points read. The oldest frame
leaves the front of its context's frames when it is emitted. 1,024 FCLK without a drop clear OVERLOAD. The clear leaves its three registers
0, and the load is the average over 2^24 FCLK, renewed every 2^16. Each of these completes as the clauses that name it say: frameReady,
pipelineReadEnd, frameEmit, overloadClear, xfpClr, xfpLoadUpdate. -/
def Obligations.TransformCommandsComplete : Prop :=
  (∀ (t : Nat) (c : Fin 1024) (g : XfGrid) (p : Nat) (v : State) (s : State), s.gated = false → ((s.actx c).running = true) → ((s.xfc c).prev = none) →
      ((s.xfc c).next = []) → ((s.xfc c).cur = some g) → g.ready = true → (g.readyAt ≤ t) → (p = s.pipeOf c false (g.next % (s.xfRd c false
      Reg.CTX_XF_CFG_PIPE_M1 + 1))) → (v = (s.advance t).pipeStart p g.readyAt none) → v.readOver p g.readyAt = false → Gives (.frameReady t c) s fun
      u => (u.xfc c).cur = some (if (v.xfc c).frames.any (fun h => h.pipe == p && h.phase == 0) then g.step else { g.step with opens := false }) ∧
      (u.xfc c).frames.length = (s.xfc c).frames.length + (if (v.xfc c).frames.any (fun h => h.pipe == p && h.phase == 0) then 0 else 1)) ∧
  (∀ (t : Nat) (p : Fin 64) (corr : Nat) (bad : List (Fin 65536)) (c : Nat) (f : XfFrame) (s : State), (s.pipeRead p = some (c, f)) → (s.working (pg .xfp
      p) = true) → s.readOver p t = true → Gives (.pipelineReadEnd t p corr bad) s fun u => (u.xfp p).reads = ((s.xfp p).reads.headD 0 + f.n) ::
      (s.xfp p).reads.drop 1 ∧ u.rd (pg .xfp p) Reg.XFP_XFP_STAT_WIN_CORR = min (s.rd (pg .xfp p) Reg.XFP_XFP_STAT_WIN_CORR + corr) (2 ^
      Reg.XFP_XFP_STAT_WIN_CORR.width - 1)) ∧
  (∀ (t : Nat) (c : Fin 1024) (segErr : List SegErr) (f : XfFrame) (l : List XfFrame) (s : State), ((s.xfc c).frames = f :: l) → s.frameOut c t f = true
      → (f.new = false ∨ (s.xfc c).prev = none) → s.gated = false → Gives (.frameEmit t c segErr) s fun u => (u.xfc c).frames = l) ∧
  (∀ (t : Nat) (p : Fin 64) (s : State), ((s.xfp p).lastDrop + 1024 ≤ t) → Gives (.overloadClear t p) s fun u => (u.rd (pg .xfp p) Reg.EV_RAW).testBit 0
      = false) ∧
  (∀ (t : Nat) (p : Fin 64) (s : State), (s.hostOpen (pg .xfp p)) → Gives (.xfpClr t p) s fun u => ∀ f ∈ [Reg.XFP_XFP_STAT_DROP_CNT,
      Reg.XFP_XFP_STAT_WIN_CORR, Reg.XFP_XFP_LOAD_PEAK_LOAD], u.rd (pg .xfp p) f = 0) ∧
  (∀ (t : Nat) (p : Fin 64) (s : State), s.gated = false → ((s.xfp p).loadAt + 2 ^ 16 ≤ t) → Gives (.xfpLoadUpdate t p) s fun u => u.rd (pg .xfp p)
      Reg.XFP_XFP_LOAD_LOAD = Reg.XFP_XFP_LOAD_LOAD.cut (((s.xfp p).reads.take 256).sum * 1024 / 2 ^ 24) ∧ (u.xfp p).reads = 0 :: (s.xfp p).reads.take
      255)

/-- The oldest trace at a unit is taken, and joins the accepted ones where every unit of the binding has room for its share. The oldest accepted
trace is used up by its update. A pass that has fallen due starts where none runs; its end starts the one held. A clear leaves every counter
of the plane 0, and DEN_CLR its counts. The first readout that has fallen due is taken up; its end flips to the buffer it wrote, and a write
error ends it with CUR as it was. Each of these completes as the clauses that name it say: densityTraceAccept, densityUpdate,
decayPassStart, decayPassEnd, densityClear, denClr, tmpReadoutStart, tmpFlip, tmpWriteErr. -/
def Obligations.DensityAndToneMapperCommandsComplete : Prop :=
  (∀ (t : Nat) (n : Fin 16) (d : DenTrace) (l : List DenTrace) (s : State), ((s.den_ n).arr = d :: l) → (s.working (pg .den n) = true) → Gives
      (.densityTraceAccept t n) s fun u => (u.den_ n).arr = l ∧ (u.den_ n).acc = if (s.denShare n d.pts).all (fun y => s.denOcc y.1 t + y.2 ≤ 8192)
      then (s.den_ n).acc ++ [d] else (s.den_ n).acc) ∧
  (∀ (t : Nat) (n : Fin 16) (unc : List (Fin 4 × Fin 262144)) (d : DenTrace) (l : List DenTrace) (s : State), ((s.den_ n).acc = d :: l) → (s.working (pg
      .den n) = true) → Gives (.densityUpdate t n unc) s fun u => (u.den_ n).acc = l) ∧
  (∀ (t : Nat) (n : Fin 16) (unc : List (Fin 4 × Fin 262144)) (s : State), ((s.den_ n).due ≠ 0) → (s.working (pg .den n) = true) → ((s.den_ n).run =
      false) → Gives (.decayPassStart t n unc) s fun u => (u.den_ n).run = true ∧ (u.den_ n).due = (s.den_ n).due - 1) ∧
  (∀ (t : Nat) (n : Fin 16) (unc : List (Fin 4 × Fin 262144)) (s : State), ((s.den_ n).run = true) → (s.working (pg .den n) = true) → ((s.den_ n).passAt
      + 16384 ≤ max s.tick t) → Gives (.decayPassEnd t n unc) s fun u => (u.den_ n).run = (s.den_ n).held ∧ (u.den_ n).held = false) ∧
  (∀ (t : Nat) (n : Fin 16) (s : State), (s.hostOpen (pg .den n)) → Gives (.densityClear t n) s fun u => (∀ m ∈ s.denUnits n, (u.den_ m).cells = []) ∧
      (u.den_ n).count = 0) ∧
  (∀ (t : Nat) (n : Fin 16) (s : State), (s.hostOpen (pg .den n)) → Gives (.denClr t n) s fun u => ∀ f ∈ [Reg.DEN_DEN_STAT_TRACES,
      Reg.DEN_DEN_STAT_SKIPS, Reg.DEN_DEN_STAT_DECAY_MISS, Reg.DEN_DEN_CNT_SAT_INC, Reg.DEN_DEN_CNT_UNC], u.rd (pg .den n) f = 0) ∧
  (∀ (t : Nat) (j : Fin 32) (unc : List (Fin 4 × Fin 262144)) (l : List (Nat × Nat)) (s : State), s.working tmpPage = true → (s.jobsDue (s.advance
      t).tick = (t, j.val) :: l) → (s.on tmpPage (Reg.TMP_JOB_STAT_BUSY j) = false) → (s.jobKind j = 1 ∨ (s.jobUnit j).isSome = true) → Gives
      (.tmpReadoutStart t j unc) s fun u => u.on tmpPage (Reg.TMP_JOB_STAT_BUSY j) = true) ∧
  (∀ (t : Nat) (j : Fin 32) (s : State), (s.tmp.run = some j.val) → s.working tmpPage = true → (s.readoutOver j (s.advance t).tick = true) → Gives
      (.tmpFlip t j) s fun u => u.rd tmpPage (Reg.TMP_JOB_STAT_CUR j) = s.jobTarget j ∧ u.on tmpPage (Reg.TMP_JOB_STAT_VALID j) = true ∧ u.on tmpPage
      (Reg.TMP_JOB_STAT_BUSY j) = false) ∧
  (∀ (t : Nat) (j : Fin 32) (s : State), (s.tmp.run = some j.val) → s.working tmpPage = true → Gives (.tmpWriteErr t j) s fun u => u.on tmpPage
      (Reg.TMP_JOB_STAT_BUSY j) = false ∧ u.rd tmpPage (Reg.TMP_JOB_STAT_CUR j) = s.rd tmpPage (Reg.TMP_JOB_STAT_CUR j))

/-- An arming that passes its checks starts the eve window under the registers' description, or is held. A disarm in states 1 to 4 leaves state
0, and a release leaves the frozen state. A full eve window is armed; a free-run trigger takes the trigger point; an end counts the capture.
A held arming goes on. Writing that may go on resumes. A freed queue entry is free. A snapshot copies the counters, and the clear leaves its
three registers 0. Each of these completes as the clauses that name it say: capArm, capDisarm, capRelease, eveFull, freeRunTrigger,
captureEnd, heldRearm, streamWriteResume, backpressureEnd, recordQueueFree, acctSnapshot, acqClr. -/
def Obligations.CaptureCommandsComplete : Prop :=
  (∀ (t : Nat) (c : Fin 1024) (s : State), (s.hostOpen (pg .ctx c)) → ((s.actx c).running = true) → ((s.capDesc c).mode = 1) → s.capState c = 0 →
      (¬((s.capDesc c).policy = 0 ∧ (s.capDesc c).cap < (s.capDesc c).eve + (s.capDesc c).post)) → Gives (.capArm t c) s fun u => u.capState c = (if
      s.tier1Busy c || s.drainBusy c then 4 else 1) ∧ ((s.tier1Busy c || s.drainBusy c) = false → (u.actx c).desc = s.capDesc c ∧ (u.actx c).trail =
      [])) ∧
  (∀ (t : Nat) (c : Fin 1024) (s : State), (s.hostOpen (pg .ctx c)) → (1 ≤ s.capState c ∧ s.capState c ≤ 4) → Gives (.capDisarm t c) s fun u =>
      u.capState c = 0) ∧
  (∀ (t : Nat) (c : Fin 1024) (s : State), (s.hostOpen (pg .ctx c)) → s.capState c = 5 → Gives (.capRelease t c) s fun u => u.capState c = if (s.actx
      c).desc.mode = 2 then 6 else 0) ∧
  (∀ (t : Nat) (c : Fin 1024) (s : State), s.capState c = 1 → ((s.actx c).desc.eve ≤ (s.actx c).elapsed) → Gives (.eveFull t c) s fun u => u.capState c =
      2) ∧
  (∀ (t : Nat) (c : Fin 1024) (at_ : SubTick) (s : State), (s.rd (pg .ctx c) Reg.CTX_TRG_CFG_MODE = 0) → s.eveFull c = true → (freeSample (s.actx
      c).desc.eve (s.actx c).freeAfter (s.actx c).trail (s.actx c).elapsed = some at_) → Gives (.freeRunTrigger t c) s fun u => u.capState c = 3 ∧
      (u.actx c).trigger = some at_) ∧
  (∀ (t : Nat) (c : Fin 1024) (s : State), s.capState c = 3 → ((s.actx c).postOpen = false) → (s.recordsDone c ((s.actx c).capLast (s.viewPeriod c)) =
      true) → Gives (.captureEnd t c) s fun u => u.rd (pg .ctx c) Reg.CTX_CAP_STAT_CAP_SEQ = Reg.CTX_CAP_STAT_CAP_SEQ.cut (s.rd (pg .ctx c)
      Reg.CTX_CAP_STAT_CAP_SEQ + 1) ∧ u.capState c ≠ 3) ∧
  (∀ (t : Nat) (c : Fin 1024) (s : State), s.capState c = 4 → s.tier1Busy c = false → s.drainBusy c = false → Gives (.heldRearm t c) s fun u =>
      u.capState c = 1 ∧ (u.actx c).desc = s.capDesc c) ∧
  (∀ (t : Nat) (c : Fin 1024) (s : State), ((s.actx c).streamStop = true) → ((s.actx c).desc.cap ≤ 16 * s.streamFree c) → Gives (.streamWriteResume t c)
      s fun u => (u.actx c).streamStop = false) ∧
  (∀ (t : Nat) (c : Fin 1024) (drained0 drained1 : Nat) (s : State), ((s.actx c).bufStop = true) → ((if s.onDie1 c then s.acq.buf1 - drained1 else
      s.acq.buf0 - drained0) * 4 < 3 * 2 ^ 24) → Gives (.backpressureEnd t c drained0 drained1) s fun u => (u.actx c).bufStop = false) ∧
  (∀ (t : Nat) (c : Fin 1024) (s : State), Gives (.recordQueueFree t c) s fun u => (u.actx c).reserved = (s.actx c).reserved - 1 ∧ (u.actx c).queued =
      (if 0 < (s.actx c).reserved then (s.actx c).queued else (s.actx c).queued - 1) ∧ (u.actx c).recStop = ((s.actx c).recStop && decide (5 ≤ (s.actx
      c).reserved))) ∧
  (∀ (t : Nat) (c : Fin 1024) (s : State), (s.hostOpen (pg .acq 0)) → Gives (.acctSnapshot t c) s fun u => (∀ x ∈ ([(Reg.CTX_ACCT_DELIV_CNT, (s.actx
      c).deliv), (Reg.CTX_ACCT_LEAP_CNT, (s.actx c).leap), (Reg.CTX_ACCT_SDELIV_CNT, (s.actx c).sdeliv), (Reg.CTX_ACCT_SLEAP_CNT, (s.actx c).sleap),
      (Reg.CTX_ACCT_TICK_TICK, (s.actx c).acct / 16)] : List (Fld × Nat)), u.rd (pg .ctx c) x.1 = x.1.cut x.2) ∧ u.rd (pg .acq 0) Reg.ACQ_SNAP_CTL_CTX
      = c ∧ u.on (pg .acq 0) Reg.ACQ_SNAP_STAT_DONE = true) ∧
  (∀ (t : Nat) (s : State), (s.hostOpen (pg .acq 0)) → Gives (.acqClr t) s fun u => ∀ f ∈ [Reg.ACQ_REC_STAT_PEAK, Reg.ACQ_REC_STAT_DROPPED,
      Reg.ACQ_BUF_STAT_PEAK], u.rd (pg .acq 0) f = 0)

/-- With changes due, level inputs that no longer match their sources, or words with a parity error, a running unit takes its inputs and shows
the truth table's value as C, and so it does as a stretched pulse falls. A priming whose window has passed and a timed hold-off that has
ended clear. A forced firing counts and is stamped with its tick. CLR and RESET_STATE leave their fields 0. The oldest group whose wait has
passed closes. Each of these completes as the clauses that name it say: truInputChange, truStretchEnd, truPrimeExpire, truHoldoffEnd,
truForce, truClr, truResetState, coincGroupClose. -/
def Obligations.TriggerUnitCommandsComplete : Prop :=
  (∀ (t : Nat) (n : Fin 64) (par : List ParWord) (s : State), s.truRuns n = true → ((if (s.truDue n t).1 = [] then s.truStale n t else (s.truDue n t).1)
      ≠ [] ∨ par ≠ []) → Gives (.truInputChange t n par) s fun u => u.on (pg .tru n) Reg.TRU_TRU_STAT_C = s.truTable n (s.truIndex n (par.foldl (fun l
      w => if w.idx.val < 8 then l.set w.idx ⟨w.val, w.stamp, true⟩ else l) ((if (s.truDue n t).1 = [] then s.truStale n t else (s.truDue n
      t).1).foldl (fun l c => if c.idx < 8 then l.set c.idx ((l.getD c.idx {}).take c par) else l) (s.tru n).inp)))) ∧
  (∀ (t : Nat) (n : Fin 64) (s : State), s.truRuns n = true → ((s.truDue n t).1.any TruChg.fall = true) → Gives (.truStretchEnd t n) s fun u => u.on (pg
      .tru n) Reg.TRU_TRU_STAT_C = s.truTable n (s.truIndex n ((s.truDue n t).1.foldl (fun l c => if c.idx < 8 then l.set c.idx ((l.getD c.idx
      {}).take c []) else l) (s.tru n).inp))) ∧
  (∀ (t : Nat) (n : Fin 64) (s : State), (s.on (pg .tru n) Reg.TRU_TRU_STAT_PRIMED = true) → ((s.tru n).primeAt + s.rd (pg .tru n) Reg.TRU_SEQ_CFG_WINDOW
      < t) → Gives (.truPrimeExpire t n) s fun u => u.rd (pg .tru n) Reg.TRU_TRU_STAT_PRIMED = 0) ∧
  (∀ (t : Nat) (n : Fin 64) (s : State), (s.on (pg .tru n) Reg.TRU_TRU_STAT_HOLDING = true) → (s.on (pg .tru n) Reg.TRU_TRU_CFG_HOLD_MODE = false) →
      ((s.tru n).holdTo < t) → Gives (.truHoldoffEnd t n) s fun u => u.rd (pg .tru n) Reg.TRU_TRU_STAT_HOLDING = 0) ∧
  (∀ (t : Nat) (n : Fin 64) (s : State), (s.hostOpen (pg .tru n)) → (s.on (pg .tru n) Reg.TRU_TRU_CFG_EN = true) → s.truRuns n = true → Gives (.truForce
      t n) s fun u => u.rd (pg .tru n) Reg.TRU_TRU_STAT_FIRE_CNT = Reg.TRU_TRU_STAT_FIRE_CNT.cut (s.rd (pg .tru n) Reg.TRU_TRU_STAT_FIRE_CNT + 1) ∧
      u.rd (pg .tru n) Reg.TRU_LAST_FIRE_TICK = Reg.TRU_LAST_FIRE_TICK.cut t ∧ u.on (pg .tru n) Reg.TRU_LAST_INFO_FORCED = true) ∧
  (∀ (t : Nat) (n : Fin 64) (s : State), (s.hostOpen (pg .tru n)) → Gives (.truClr t n) s fun u => ∀ f ∈ [Reg.TRU_TRU_STAT_FIRE_CNT,
      Reg.TRU_TRU_STAT_SUSPECT_CNT, Reg.TRU_TRU_CNT_HOLD_IGN], u.rd (pg .tru n) f = 0) ∧
  (∀ (t : Nat) (n : Fin 64) (s : State), (s.hostOpen (pg .tru n)) → Gives (.truResetState t n) s fun u => (∀ f ∈ [Reg.TRU_TRU_CNT_CNT_NOW,
      Reg.TRU_TRU_STAT_PRIMED, Reg.TRU_TRU_STAT_HOLDING], u.rd (pg .tru n) f = 0) ∧ u.tru n =
      { s.tru n with primeAt := 0, first := 0, holdTo := 0, holdLeft := 0 }) ∧
  (∀ (t : Nat) (full : Bool) (g : CoincGroup) (l : List CoincGroup) (s : State), (s.trg.groups = g :: l) → (g.at_ + s.rd (pg .trn 0)
      Reg.TRN_REC_CFG_COINC_WAIT ≤ t) → Gives (.coincGroupClose t full) s fun u => u.trg.groups = l)

/-- The next transition of a level source leaves the view stage and, unless it is a pulse, gives the source its value. A pin's change starts its
filter, or ends inside it; one that has persisted is accepted. A schedule timer that is due disarms, or moves on by whole periods. The one
pulse in progress leaves its line at its width, and the outputs follow what the router wants unless TIO is asleep. POUT_CLR takes back the
latched outputs named whose source is inactive, and TRN_CLR leaves its four counters 0. Each of these completes as the clauses that name it
say: levelSourceTransition, trigInEdge, trigInAccept, schedPulse, trigOutWidthEnd, poutClr, trnClr. -/
def Obligations.TriggerNetworkCommandsComplete : Prop :=
  (∀ (t : Nat) (c : Fin 1024) (l : Fin 2) (e : LvlEvt) (r : List LvlEvt) (s : State), ((smGet {} (2 * c.val + l.val) s.trg.lvl).todo = e :: r) → s.gated
      = false → (e.at_ ≤ t) → Gives (.levelSourceTransition t c l) s fun u => (smGet {} (2 * c.val + l.val) u.trg.lvl).todo = r ∧ (e.pulse = false →
      u.srcLevel (0x800 + (2 * c.val + l.val)) = e.val)) ∧
  (∀ (t : Nat) (k : Fin 4) (level : Bool) (stamp : SubTick) (s : State), (s.working (pg .trn 0) = true) → ((s.tin k).raw ≠ level) → ((s.tin k).chg =
      none) → Gives (.trigInEdge t k level stamp) s fun u => (u.tin k).raw = level ∧ (u.tin k).chg = some (pinSeen stamp, stamp)) ∧
  (∀ (t t0 : Nat) (k : Fin 4) (level : Bool) (stamp old : SubTick) (s : State), (s.working (pg .trn 0) = true) → ((s.tin k).raw ≠ level) → ((s.tin k).chg
      = some (t0, old)) → (pinSeen stamp < t0 + s.rd (pg .trn 0) (Reg.TRN_TIN_CFG_FILTER k)) → Gives (.trigInEdge t k level stamp) s fun u => (u.tin
      k).raw = level ∧ (u.tin k).chg = none ∧ u.rd (pg .trn 0) Reg.TRN_TRN_STAT_TIN_GLITCH = min (s.rd (pg .trn 0) Reg.TRN_TRN_STAT_TIN_GLITCH + 1) (2
      ^ Reg.TRN_TRN_STAT_TIN_GLITCH.width - 1)) ∧
  (∀ (t t0 : Nat) (k : Fin 4) (stamp : SubTick) (s : State), (s.working (pg .trn 0) = true) → ((s.tin k).chg = some (t0, stamp)) → (t0 + s.rd (pg .trn 0)
      (Reg.TRN_TIN_CFG_FILTER k) ≤ t) → Gives (.trigInAccept t k) s fun u => (u.tin k).acc = (s.tin k).raw ∧ (u.tin k).chg = none) ∧
  (∀ (t : Nat) (n : Fin 16) (s : State), (s.working (pg .trn 0) = true) → (s.on (pg .trn 0) (Reg.TRN_SCHED_CFG_ARM n) = true) → (s.schedAt n ≤ t) → (s.rd
      (pg .trn 0) (Reg.TRN_SCHED_CFG_PERIOD n) = 0) → Gives (.schedPulse t n) s fun u => u.rd (pg .trn 0) (Reg.TRN_SCHED_CFG_ARM n) = 0) ∧
  (∀ (t : Nat) (n : Fin 16) (s : State), (s.working (pg .trn 0) = true) → (s.on (pg .trn 0) (Reg.TRN_SCHED_CFG_ARM n) = true) → (s.schedAt n ≤ t) → (s.rd
      (pg .trn 0) (Reg.TRN_SCHED_CFG_PERIOD n) ≠ 0) → Gives (.schedPulse t n) s fun u => u.rd (pg .trn 0) (Reg.TRN_SCHED_TICK_TICK n) =
      (Reg.TRN_SCHED_TICK_TICK n).cut (s.rd (pg .trn 0) (Reg.TRN_SCHED_TICK_TICK n) + s.rd (pg .trn 0) (Reg.TRN_SCHED_CFG_PERIOD n) * ((s.schedAt n -
      s.rd (pg .trn 0) (Reg.TRN_SCHED_TICK_TICK n)) / s.rd (pg .trn 0) (Reg.TRN_SCHED_CFG_PERIOD n) + 1))) ∧
  (∀ (t stop : Nat) (line : Fin 22) (s : State), (s.working (pg .trn 0) = true) → (s.trg.net = []) → (s.trg.lineEnd = [(line.val, stop)]) → (stop ≤ t) →
      Gives (.trigOutWidthEnd t line) s fun u => u.trg.lineEnd = [] ∧ (line.val < 16 → 8 ≤ line.val → u.tio.want.testBit line = false) ∧ (s.pstateAct
      (pg .tio 0) = 0 → u.tio.level = u.tio.want)) ∧
  (∀ (t : Nat) (mask : BitVec 8) (s : State), (s.hostOpen (pg .trn 0)) → Gives (.poutClr t mask) s fun u => ∀ k : Fin 8, mask.getLsbD k = true → s.on (pg
      .trn 0) (Reg.TRN_POUT_CFG_LATCH k) = true → ((s.advance t).routerTo (s.advance t).tick).srcNow (s.rd (pg .trn 0) (Reg.TRN_POUT_CFG_SRC k))
      (s.advance t).tick = false → u.tio.want.testBit (8 + k) = false) ∧
  (∀ (t : Nat) (s : State), (s.hostOpen (pg .trn 0)) → Gives (.trnClr t) s fun u => ∀ f ∈ [Reg.TRN_TRN_STAT_PAR_CNT, Reg.TRN_TRN_STAT_REC_LOST,
      Reg.TRN_TRN_STAT_TIN_GLITCH, Reg.TRN_TRN_STAT_MASK_CORR], u.rd (pg .trn 0) f = 0)

/-- A write of RING_DB leaves both indexes as written, and EN 0 where an index of an enabled ring is not below its SIZE. A fetch from an enabled
ring that is not empty queues the entry with the head after it and advances the head; a fetch that fails clears EN. With a free slot the
oldest completion of a ring is written at the ring's tail, and the tail advances. A command with an opcode that the firmware lacks completes
with INVALID_OPCODE. Each of these completes as the clauses that name it say: ringDoorbell, cqHeadRelease, commandFetch, completionWrite,
invalidOpcode. -/
def Obligations.RingCommandsComplete : Prop :=
  (∀ (t : Nat) (r : Fin 4) (tail : BitVec 12) (s : State), (s.hostOpen (pg .svc 0)) → Gives (.ringDoorbell t r tail) s fun u => u.rd (pg .svc 0)
      (Reg.SVC_RING_DB_SQ_TAIL r) = tail.toNat ∧ u.ringOn r = (s.ringOn r && !(decide (s.ringSize r ≤ tail.toNat) || decide (s.ringSize r ≤ s.rd (pg
      .svc 0) (Reg.SVC_RING_DB_CQ_HEAD r))))) ∧
  (∀ (t : Nat) (r : Fin 4) (head : BitVec 12) (s : State), (s.hostOpen (pg .svc 0)) → Gives (.cqHeadRelease t r head) s fun u => u.rd (pg .svc 0)
      (Reg.SVC_RING_DB_CQ_HEAD r) = head.toNat ∧ u.ringOn r = (s.ringOn r && !(decide (s.ringSize r ≤ s.rd (pg .svc 0) (Reg.SVC_RING_DB_SQ_TAIL r)) ||
      decide (s.ringSize r ≤ head.toNat)))) ∧
  (∀ (t : Nat) (r : Fin 4) (c : SvcCmd) (h : Nat) (s : State), s.ready = true → s.svc.restarting = false → s.ringOn r = true → ((s.ring r).head ≠ s.rd
      (pg .svc 0) (Reg.SVC_RING_DB_SQ_TAIL r)) → c.reserved = false → (h = if s.ringSize r ≤ (s.ring r).head + 1 then 0 else (s.ring r).head + 1) →
      Gives (.commandFetch t r (some c)) s fun u => u.svc.fetched = s.svc.fetched ++ [⟨r, h, c⟩] ∧ u.ring r = { s.ring r with head := h }) ∧
  (∀ (t : Nat) (r : Fin 4) (s : State), s.ready = true → s.svc.restarting = false → s.ringOn r = true → ((s.ring r).head ≠ s.rd (pg .svc 0)
      (Reg.SVC_RING_DB_SQ_TAIL r)) → Gives (.commandFetch t r none) s fun u => u.ringOn r = false ∧ u.svc.fetched = s.svc.fetched) ∧
  (∀ (t : Nat) (r : Fin 4) (c : SvcCompl) (s : State), (s.svc.compl.find? (fun x => x.ring == r.val) = some c) → s.ready = true → s.svc.restarting =
      false → (s.ringSize r ≠ 0) → (((s.ring r).tail + 1) % s.ringSize r ≠ s.rd (pg .svc 0) (Reg.SVC_RING_DB_CQ_HEAD r) % s.ringSize r) → Gives
      (.completionWrite t r) s fun u => u.svc.compl = s.svc.compl.erase c ∧ (u.ring r).tail = (if s.ringSize r ≤ (s.ring r).tail + 1 then 0 else
      (s.ring r).tail + 1) ∧ Output.hostWrite (s.rd (pg .svc 0) (Reg.SVC_CQ_BASE_ADDR r) + 32 * (s.ring r).tail) (completionBytes c (s.ring r).phase
      (s.advance t).tick) ∈ u.out) ∧
  (∀ (t : Nat) (r : Fin 4) (e : SvcEntry) (s : State), s.svc.restarting = false → (s.svc.fetched.find? (fun x => x.ring == r.val) = some e) →
      (e.cmd.opc.toNat ∉ opcodes) → Gives (.invalidOpcode t r) s fun u => u.svc.compl = s.completed e .invalidOpcode 0 0 ∧ u.svc.fetched =
      s.svc.fetched.erase e)

/-- GET_INFO and GET_HEALTH with room for 256 bytes, FAILMAP_READ and PTP_STATUS write their block at DPTR and succeed; MIGRATE_STATUS succeeds
with its two results. ATTEST with room for a report is deferred, and its report completes it with the bytes written. SELFTEST is deferred
while no context runs, and completes with its mask of failed tests. Each of these completes as the clauses that name it say: getInfo,
getHealth, migrateStatus, failmapRead, ptpStatus, ptpCfg, attest, attestDone, selftest, selftestDone. -/
def Obligations.ReportCommandsComplete : Prop :=
  (∀ (t : Nat) (r : Fin 4) (e : SvcEntry) (s : State), s.takes r 0x01 e → (256 ≤ e.cmd.dlen.toNat) → Gives (.getInfo t r) s fun u => u.out = .hostWrite
      e.cmd.dptr.toNat s.infoBlock :: s.out ∧ u.svc.compl = s.completed e .success 0 0 ∧ u.svc.fetched = s.svc.fetched.erase e) ∧
  (∀ (t : Nat) (r : Fin 4) (e : SvcEntry) (s : State), s.takes r 0x08 e → (256 ≤ e.cmd.dlen.toNat) → Gives (.getHealth t r) s fun u => u.out = .hostWrite
      e.cmd.dptr.toNat (s.advance t).healthBlock :: s.out ∧ u.svc.compl = s.completed e .success 0 0 ∧ u.svc.fetched = s.svc.fetched.erase e) ∧
  (∀ (t : Nat) (r : Fin 4) (e : SvcEntry) (s : State), s.takes r 0x30 e → Gives (.migrateStatus t r) s fun u => u.svc.compl = s.completed e .success
      (s.advance t).migrateStatus.1 (s.advance t).migrateStatus.2 ∧ u.svc.fetched = s.svc.fetched.erase e) ∧
  (∀ (t : Nat) (r : Fin 4) (e : SvcEntry) (s : State), s.takes r 0x31 e → Gives (.failmapRead t r) s fun u => u.out = .hostWrite e.cmd.dptr.toNat
      s.failMapBytes :: s.out ∧ u.svc.compl = s.completed e .success 0 0) ∧
  (∀ (t : Nat) (r : Fin 4) (e : SvcEntry) (s : State), s.takes r 0x21 e → Gives (.ptpStatus t r) s fun u => u.svc.compl = s.completed e .success 0 0 ∧ ∃
      b : List Nat, b.length = 64 ∧ u.out = .hostWrite e.cmd.dptr.toNat b :: s.out ∧ b.getD 0 0 = s.ptp.portState % 256 ∧ b.getD 1 0 = s.ptp.servo %
      256) ∧
  (∀ (t : Nat) (r : Fin 4) (cfg : PtpConfig) (e : SvcEntry) (s : State), s.takes r 0x20 e → e.cmd.dlen.toNat = 64 → (cfg.src.toNat ≤ 3 ∧ cfg.role.toNat ≤
      2 ∧ cfg.port.toNat ≤ 1 ∧ cfg.transport.toNat ≤ 2 ∧ cfg.mode.toNat ≤ 1) → Gives (.ptpCfg t r cfg) s fun u => u.svc.compl = s.completed e .success
      0 0 ∧ u.ptp = { src := cfg.src.toNat, cfg := some cfg, servo := if cfg.src.toNat = 0 then 0 else 1 }) ∧
  (∀ (t : Nat) (r : Fin 4) (e : SvcEntry) (s : State), s.takes r 0x05 e → s.room e → (512 ≤ e.cmd.dlen.toNat) → Gives (.attest t r) s fun u =>
      u.svc.deferred = s.svc.deferred ++ [e] ∧ u.svc.compl = s.svc.compl ∧ u.svc.fetched = s.svc.fetched.erase e) ∧
  (∀ (t : Nat) (sig cert : List Byte) (e : SvcEntry) (s : State), (s.inHand 0x05 = some e) → Gives (.attestDone t sig cert) s fun u => u.svc.compl =
      s.completed e .success (if 512 + cert.length ≤ e.cmd.dlen.toNat then 512 + cert.length else 512) 0 ∧ u.svc.deferred = s.svc.deferred.erase e ∧
      u.rd (pg .sec 0) Reg.SEC_SEC_CNT_ATTESTS = Reg.SEC_SEC_CNT_ATTESTS.cut (s.rd (pg .sec 0) Reg.SEC_SEC_CNT_ATTESTS + 1)) ∧
  (∀ (t : Nat) (r : Fin 4) (e : SvcEntry) (s : State), s.takes r 0x39 e → s.room e → (s.running = []) → Gives (.selftest t r) s fun u => u.svc.deferred =
      s.svc.deferred ++ [e] ∧ u.svc.compl = s.svc.compl) ∧
  (∀ (t : Nat) (r : Fin 4) (e : SvcEntry) (s : State), s.takes r 0x39 e → (s.running ≠ []) → Gives (.selftest t r) s fun u => u.svc.compl = s.completed e
      .wrongState 0 0) ∧
  (∀ (t : Nat) (failed : Word) (e : SvcEntry) (s : State), (s.inHand 0x39 = some e) → Gives (.selftestDone t failed) s fun u => u.svc.compl = s.completed
      e (if failed &&& e.cmd.p0 = 0 then .success else .selftestFail) (failed &&& e.cmd.p0).toNat 0 ∧ u.svc.deferred = s.svc.deferred.erase e)

/-- A staged image that verifies is programmed: its command is deferred with the image, and when the slot reads back, the slot that does not run
holds it, FW_VER and STAGED_OK show it and the command succeeds. One that does not verify completes with the status of its reason.
Activating a staged image that still verifies names its slot in the selector and restarts the service controller, READY 0; so does
SERVICE_RESTART. READY is 1 after the restart, every command fetched and not completed has completed with ABORTED, and SERVICE_RESTART
itself succeeds. Each of these completes as the clauses that name it say: fwStage, fwStageDone, fwActivate, serviceRestart,
serviceRestartReady. -/
def Obligations.FirmwareCommandsComplete : Prop :=
  (∀ (t : Nat) (r : Fin 4) (img : FwImage) (e : SvcEntry) (s : State), s.takes r 0x06 e → s.room e → s.outstanding 0x06 = none → s.fwReason img = 0 →
      Gives (.fwStage t r img) s fun u => u.svc.staging = some img ∧ u.svc.deferred = s.svc.deferred ++ [e] ∧ u.rd (pg .sec 0)
      Reg.SEC_SEC_STAT_STAGED_OK = 0) ∧
  (∀ (t : Nat) (r : Fin 4) (img : FwImage) (e : SvcEntry) (s : State), s.takes r 0x06 e → s.outstanding 0x06 = none → (s.fwReason img ≠ 0) → Gives
      (.fwStage t r img) s fun u => u.svc.compl = s.completed e (reasonStatus (s.fwReason img)) 0 0 ∧ u.svc.staging = s.svc.staging ∧ u.rd (pg .sec 0)
      Reg.SEC_SEC_STAT_STAGED_OK = 0) ∧
  (∀ (t : Nat) (img : FwImage) (e : SvcEntry) (s : State), (s.inHand 0x06 = some e) → (s.svc.staging = some img) → Gives (.fwStageDone t true) s fun u =>
      u.flash = { s.flash with slots := smInsert (1 - s.runSlot) img s.flash.slots } ∧ u.rd (pg .sec 0) Reg.SEC_FW_VER_OTHER = img.version.toNat ∧
      u.rd (pg .sec 0) Reg.SEC_SEC_STAT_STAGED_OK = 1 ∧ u.svc.staging = none ∧ u.svc.compl = s.completed e .success img.version.toNat 0) ∧
  (∀ (t : Nat) (r : Fin 4) (flash : Option FwImage) (e : SvcEntry) (s : State), s.takes r 0x07 e → (s.on (pg .sec 0) Reg.SEC_SEC_STAT_STAGED_OK = true) →
      s.outstanding 0x02 = none → s.outstanding 0x05 = none → s.outstanding 0x06 = none → ((s.slotReads (1 - s.runSlot) flash).fwReason ((s.slotReads
      (1 - s.runSlot) flash).slotImage (1 - s.runSlot)) = 0) → Gives (.fwActivate t r flash) s fun u => u.svc.restart = some e ∧ u.svc.restarting =
      true ∧ u.rd (pg .sec 0) Reg.SEC_SEL_STAT_SLOT = Reg.SEC_SEL_STAT_SLOT.cut (1 - s.runSlot) ∧ u.rd (pg .glb 0) Reg.GLB_BOOT_STAT_READY = 0) ∧
  (∀ (t : Nat) (r : Fin 4) (e : SvcEntry) (s : State), s.takes r 0x3F e → Gives (.serviceRestart t r) s fun u => u.svc.restart = some e ∧
      u.svc.restarting = true ∧ u.rd (pg .glb 0) Reg.GLB_BOOT_STAT_READY = 0) ∧
  (∀ (t : Nat) (s : State), s.svc.restarting = true → s.boot.verified = true → Gives (.serviceRestartReady t) s fun u => u.svc.restarting = false ∧ u.rd
      (pg .glb 0) Reg.GLB_BOOT_STAT_READY = 1 ∧ u.svc.fetched = [] ∧ u.svc.deferred = [] ∧ ∀ e ∈ s.svc.deferred ++ s.svc.fetched, ⟨e.ring,
      e.cmd.cid.toNat, e.head, SvcStatus.aborted.code, 0, 0⟩ ∈ u.svc.compl) ∧
  (∀ (t : Nat) (e : SvcEntry) (s : State), s.svc.restarting = true → s.boot.verified = true → (s.svc.restart = some e) → e.cmd.opc = 0x3F → Gives
      (.serviceRestartReady t) s fun u => u.svc.compl.getLast? = some ⟨e.ring, e.cmd.cid.toNat, e.head, SvcStatus.success.code, 0, 0⟩)

/-- A LOAD_EPOCH with an epoch number above the high-water mark, no other load and no equinox or probation under way is deferred, LOADING 1 and
STAGED empty. A failed read or a digest that does not match ends the load with its status. Once all blocks are ready the image is in STAGED
with its number, which is the high-water mark. SCHEDULE_EQUINOX at least 1 ms ahead with an epoch in STAGED sets the pending equinox and
succeeds with its tick, or waits for its announcement; with tick 0 it cancels. REVERT_EPOCH sets a reverting equinox. Each of these
completes as the clauses that name it say: loadEpoch, loadEpochDone, scheduleEquinox, revertEpoch. -/
def Obligations.EpochServiceCommandsComplete : Prop :=
  (∀ (t : Nat) (r : Fin 4) (e : SvcEntry) (s : State), s.takes r 0x02 e → s.room e → s.outstanding 0x02 = none → s.on epoPage Reg.EPO_EQX_STAT_PENDING =
      false → s.on epoPage Reg.EPO_EQX_STAT_SWITCHING = false → s.on epoPage Reg.EPO_PROB_STAT_ACTIVE = false → (s.rd epoPage Reg.EPO_EPO_HWM_HWM <
      e.cmd.p0.toNat ∧ e.cmd.p0.toNat < 2 ^ 32) → (e.cmd.dlen.toNat ≤ 2 ^ 30) → Gives (.loadEpoch t r) s fun u => u.epo.load = some e ∧ u.epo.staged =
      none ∧ u.rd epoPage Reg.EPO_EPO_STAGED_LOADING = 1 ∧ u.rd epoPage Reg.EPO_EPO_STAGED_VALID = 0 ∧ u.svc.deferred = s.svc.deferred ++ [e]) ∧
  (∀ (t : Nat) (e : SvcEntry) (s : State), s.serviceRuns = true → (s.epo.load = some e) → s.epo.checked = none → Gives (.loadEpochDone t none true none)
      s fun u => u.epo.load = none ∧ u.epo.staged = none ∧ u.rd epoPage Reg.EPO_EPO_STAGED_LOADING = 0 ∧ u.svc.compl = s.completed e .hostDmaError 0 0) ∧
  (∀ (t : Nat) (img : EpochImage) (e : SvcEntry) (s : State), s.serviceRuns = true → (s.epo.load = some e) → s.epo.checked = none → Gives (.loadEpochDone
      t (some img) false none) s fun u => u.epo.load = none ∧ u.epo.staged = none ∧ u.rd epoPage Reg.EPO_EPO_STAGED_LOADING = 0 ∧ u.svc.compl =
      s.completed e .digestMismatch 0 0) ∧
  (∀ (t c : Nat) (img : EpochImage) (e : SvcEntry) (s : State), s.serviceRuns = true → (s.epo.load = some e) → (s.epo.checked = some c) → (s.epo.staged =
      some img) → ((s.advance t).loadReady img c = true) → Gives (.loadEpochDone t none true none) s fun u => u.epo.load = none ∧ u.epo.staged = some
      img ∧ u.rd epoPage Reg.EPO_EPO_STAGED_VALID = 1 ∧ u.rd epoPage Reg.EPO_EPO_STAGED_LOADING = 0 ∧ u.rd epoPage Reg.EPO_EPO_STAGED_NUMBER =
      e.cmd.p0.toNat % 2 ^ 32 ∧ u.rd epoPage Reg.EPO_EPO_HWM_HWM = e.cmd.p0.toNat % 2 ^ 32 ∧ u.svc.compl = s.completed e .success 0 0) ∧
  (∀ (t : Nat) (r : Fin 4) (e : SvcEntry) (s : State), s.takes r 0x03 e → s.on epoPage Reg.EPO_PROB_STAT_ACTIVE = false → s.on epoPage
      Reg.EPO_EPO_STAGED_VALID = true → ((s.advance t).tick + eqxLead ≤ e.cmd.p0.toNat) → ((s.advance t).eqxNear = false) → s.svc.announce = none →
      Gives (.scheduleEquinox t r) s fun u => u.rd epoPage Reg.EPO_EQX_TICK_TICK = e.cmd.p0.toNat ∧ u.rd epoPage Reg.EPO_EQX_STAT_PENDING = 1 ∧ u.rd
      epoPage Reg.EPO_EQX_STAT_REVERT = 0 ∧ (if e.cmd.p1.getLsbD 0 && s.dlbSource then u.svc.announce = some e ∧ u.svc.compl = s.svc.compl else
      u.svc.compl = s.completed e .success e.cmd.p0.toNat 0)) ∧
  (∀ (t : Nat) (r : Fin 4) (e : SvcEntry) (s : State), s.takes r 0x03 e → s.on epoPage Reg.EPO_PROB_STAT_ACTIVE = false → s.on epoPage
      Reg.EPO_EPO_STAGED_VALID = true → e.cmd.p0 = 0 → ((s.advance t).eqxNear = false) → s.svc.announce = none → Gives (.scheduleEquinox t r) s fun u
      => u.rd epoPage Reg.EPO_EQX_STAT_PENDING = 0 ∧ u.epo.resume = none ∧ u.svc.compl = s.completed e .success 0 0) ∧
  (∀ (t q : Nat) (r : Fin 4) (e : SvcEntry) (s : State), s.takes r 0x04 e → s.on epoPage Reg.EPO_EPO_PRIOR_VALID = true → s.on epoPage
      Reg.EPO_EPO_PRIOR_FAILED = false → s.on epoPage Reg.EPO_EQX_STAT_PENDING = false → (q = (if e.cmd.p0 = 0 then (s.advance t).tick + eqxLead else
      e.cmd.p0.toNat)) → ((s.advance t).tick + eqxLead ≤ q) → Gives (.revertEpoch t r) s fun u => u.rd epoPage Reg.EPO_EQX_TICK_TICK = q % 2 ^ 64 ∧
      u.rd epoPage Reg.EPO_EQX_STAT_PENDING = 1 ∧ u.rd epoPage Reg.EPO_EQX_STAT_REVERT = 1 ∧ u.rd epoPage Reg.EPO_PROB_STAT_ACTIVE = 0 ∧ u.svc.compl =
      s.completed e .success q 0)

/-- REC_OPEN with a list of 1 to 16 members is deferred with the members; with every member usable a formatted set is open under its new SET_ID.
REC_START on an open handle with a free chunk numbers the recording and starts it, at once or at its tick. REC_STOP of a running recording
is deferred, at once or to its tick; it completes with the chunks and samples once all is durable. REC_CLOSE of an idle handle is deferred
while the members are flushed. Each of these completes as the clauses that name it say: recOpen, recOpenDone, recStart, recScheduledStart,
recStop, recScheduledStop, recStopDone, recClose. -/
def Obligations.RecorderSetCommandsComplete : Prop :=
  (∀ (t : Nat) (r : Fin 4) (members : List RecMemberId) (e : SvcEntry) (s : State), s.takes r 0x10 e → s.room e → (e.cmd.dlen.toNat = 8 * members.length)
      → (0 < members.length ∧ members.length ≤ 16) → (∀ m ∈ members, m.port.toNat < 4 ∧ m ∉ s.namespaces) → (members.Nodup ∧ s.setFits members = true)
      → ((s.rech (e.cmd.p0.toNat % 16)).opened = false) → ((s.rech (e.cmd.p0.toNat % 16)).opening = none) → Gives (.recOpen t r members) s fun u =>
      u.rech (e.cmd.p0.toNat % 16) =
      { format := e.cmd.p0.getLsbD 8, wrap := e.cmd.p0.getLsbD 9, opening := some e, members := members.map (fun m => { id := m }) } ∧ u.svc.deferred
      = s.svc.deferred ++ [e]) ∧
  (∀ (t : Nat) (h : Fin 16) (found : List RecFound) (newId : Word) (e : SvcEntry) (s : State), s.serviceRuns = true → ((s.rech h).opening = some e) →
      ((s.rech h).format = true) → (found.length = (s.rech h).members.length) → (∀ f ∈ found, f.usable = true) → (∀ m ∈ (s.rech h).members, s.working
      (pg .nvp (m.id.port.toNat % 4)) = true) → Gives (.recOpenDone t h found newId) s fun u => (u.rech h).opened = true ∧ (u.rech h).opening = none ∧
      (u.rech h).setId = newId.toNat ∧ u.svc.compl = s.completed e .success newId.toNat (found.map (fun f => chunkCount f.lbas)).sum) ∧
  (∀ (t : Nat) (r : Fin 4) (h : Nat) (e : SvcEntry) (s : State), s.takes r 0x11 e → (h = e.cmd.p0.toNat % 16) → ((s.rech h).opened = true ∧ (s.rech
      h).running = false ∧ (s.rech h).startAt = none ∧ (s.rech h).closing = none ∧ (s.rech h).stopping = none) → ((s.rech h).live ≠ []) → ((s.rech
      h).nextMember 1 ≠ none) → (e.cmd.p1 = 0 ∨ (s.advance t).tick < e.cmd.p1.toNat) → Gives (.recStart t r) s fun u => (u.rech h).recordings =
      (s.rech h).recordings + 1 ∧ (u.rech h).running = decide (e.cmd.p1 = 0) ∧ (u.rech h).startAt = (if e.cmd.p1 = 0 then none else some
      e.cmd.p1.toNat) ∧ u.svc.compl = s.completed e .success ((s.rech h).recordings + 1) 0) ∧
  (∀ (t q : Nat) (h : Fin 16) (s : State), ((s.rech h).startAt = some q) → (q ≤ (s.advance t).tick) → Gives (.recScheduledStart t h) s fun u => (u.rech
      h).running = true ∧ (u.rech h).startAt = none) ∧
  (∀ (t : Nat) (r : Fin 4) (h : Nat) (e : SvcEntry) (s : State), s.takes r 0x12 e → s.room e → (h = e.cmd.p0.toNat % 16) → ((s.rech h).opened = true ∧
      (s.rech h).running = true ∧ (s.rech h).stopping = none ∧ (s.rech h).broken = false) → (e.cmd.p1 = 0 ∨ (s.advance t).tick < e.cmd.p1.toNat) →
      Gives (.recStop t r) s fun u => (u.rech h).stopping = some e ∧ (u.rech h).stopAt = (if e.cmd.p1 = 0 then none else some e.cmd.p1.toNat) ∧
      u.svc.deferred = s.svc.deferred ++ [e]) ∧
  (∀ (t q : Nat) (h : Fin 16) (s : State), ((s.rech h).stopAt = some q) → (q ≤ (s.advance t).tick) → Gives (.recScheduledStop t h) s fun u => (u.rech
      h).stopAt = none) ∧
  (∀ (t : Nat) (h : Fin 16) (e : SvcEntry) (s : State), s.serviceRuns = true → ((s.rech h).stopping = some e) → ((s.rech h).running = false) → ((s.rech
      h).stopAt = none) → ((s.rech h).durable = true) → Gives (.recStopDone t h) s fun u => (u.rech h).stopping = none ∧ u.svc.compl = s.completed e
      .success (s.rech h).written (s.rech h).samples) ∧
  (∀ (t : Nat) (r : Fin 4) (h : Nat) (e : SvcEntry) (s : State), s.takes r 0x13 e → s.room e → (h = e.cmd.p0.toNat % 16) → ((s.rech h).opened = true ∧
      (s.rech h).running = false ∧ (s.rech h).startAt = none ∧ (s.rech h).closing = none ∧ (s.rech h).stopping = none) → ((s.rech h).live ≠ []) →
      Gives (.recClose t r) s fun u => (u.rech h).closing = some e ∧ (u.rech h).flushing = true ∧ u.svc.deferred = s.svc.deferred ++ [e])

/-- A completed Flush leaves the list of its handle and marks its member flushed. A command that exceeds CMD_TO with tries left counts and is
issued again. A flush gives every live member a volume header and a Flush. A watchdog expiry within 2 s of a member's failure is logged as
its consequent; any other fails the member with the oldest command. A recorder drain that runs reads the items available, counted. A root
port that goes down shows it, and NVP_CLR clears its counters. Each of these completes as the clauses that name it say: nvmeCmdComplete,
nvmeCmdTimeout, recorderFlush, recorderProgressWd, drainRead, nvpClr, rootPortLinkDown. -/
def Obligations.StorageCommandsComplete : Prop :=
  (∀ (t : Nat) (h m : Fin 16) (d : NvmeCmd) (s : State), ((s.rech h).cmds.find? (fun x => x.mem == m.val) = some d) → d.kind = 4 → (s.runs ((s.rech
      h).page m) = true) → ((s.rech h).closing = none) → Gives (.nvmeCmdComplete t h m) s fun u => (u.rech h).cmds = (s.rech h).cmds.erase d ∧ (u.rech
      h).flushed = m.val :: (s.rech h).flushed ∧ (u.rech h).progress = (s.advance t).tick) ∧
  (∀ (t p : Nat) (h m : Fin 16) (d : NvmeCmd) (s : State), ((s.rech h).cmds.find? (fun x => x.mem == m.val) = some d) → (p = (s.rech h).page m) → s.gated
      = false → (d.at_ + s.rd p Reg.NVP_NVP_CFG_CMD_TO * 1600000 ≤ (s.advance t).tick) → (d.tries < s.rd p Reg.NVP_NVP_CFG_RETRY_MAX) → Gives
      (.nvmeCmdTimeout t h m) s fun u => u.rd p Reg.NVP_NVP_CNT_TIMEOUTS = min (s.rd p Reg.NVP_NVP_CNT_TIMEOUTS + 1) (2 ^
      Reg.NVP_NVP_CNT_TIMEOUTS.width - 1) ∧ (u.rech h).cmds = (s.rech h).cmds.map (fun x => if x = d then
      { d with tries := d.tries + 1, at_ := (s.advance t).tick } else x)) ∧
  (∀ (t : Nat) (h : Fin 16) (s : State), ((s.rech h).opened = true) → ((s.rech h).flushing = false) → ((s.rech h).closing = none) → s.gated = false →
      Gives (.recorderFlush t h) s fun u => (u.rech h).cmds.length = (s.rech h).cmds.length + 2 * (s.rech h).live.length) ∧
  (∀ (t q : Nat) (h : Fin 16) (s : State), s.gated = false → ((s.rech h).running = true) → ((s.rech h).cmds ≠ []) → (∀ d ∈ (s.rech h).cmds, d.tries = 0)
      → ((s.rech h).progress + 3200000000 ≤ (s.advance t).tick) → ((s.rech h).failAt = some q ∧ (s.advance t).tick ≤ q + 3200000000) → Gives
      (.recorderProgressWd t h) s fun u => u.net = { s.net with rec_ := u.net.rec_ } ∧ u.rech h = { s.rech h with progress := (s.advance t).tick } ∧
      u.rd (pg .vgl 0) Reg.VGL_FLOG_WCNT_CNT = Reg.VGL_FLOG_WCNT_CNT.cut (s.rd (pg .vgl 0) Reg.VGL_FLOG_WCNT_CNT + 1)) ∧
  (∀ (t : Nat) (h : Fin 16) (d : NvmeCmd) (l : List NvmeCmd) (s : State), s.gated = false → ((s.rech h).running = true) → ((s.rech h).cmds = d :: l) → (∀
      x ∈ d :: l, x.tries = 0) → ((s.rech h).progress + 3200000000 ≤ (s.advance t).tick) → ((s.rech h).failAt = none) → ((s.rech h).closing = none) →
      (d.mem < (s.rech h).members.length) → Gives (.recorderProgressWd t h) s fun u => ((u.rech h).members.map RecMember.failed)[d.mem]? = some true) ∧
  (∀ (t n : Nat) (c : Fin 1024) (x : DrainSrc) (s : State), s.drainOpen c false = true → ((s.actx c).running = true) → ((s.actx c).recDrain.stop = none)
      → ((s.actx c).recDrain.rest = []) → (bit (s.rd (pg .ctx c) Reg.CTX_REC_BIND_CONTENT) 0 = 1) → (x = s.drainSrc c 0 (s.actx c).recDrain) → (x.cap
      ≠ 0 ∧ x.pos < x.written ∧ x.written ≤ x.pos + x.cap) → (∀ i < n, s.drainHeld c x (x.pos + i) = false) → Gives (.drainRead t c false 0 n) s fun u
      => u.rd (pg .ctx c) Reg.CTX_DRN_REC_RD_CNT = Reg.CTX_DRN_REC_RD_CNT.cut (s.rd (pg .ctx c) Reg.CTX_DRN_REC_RD_CNT + min n (x.written - x.pos)) ∧
      (u.actx c).recDrain.raw = x.pos + min n (x.written - x.pos)) ∧
  (∀ (t : Nat) (p : Fin 4) (s : State), (s.hostOpen (pg .nvp p)) → Gives (.nvpClr t p) s fun u => u.rd (pg .nvp p) Reg.NVP_NVP_CNT_RETRIES = 0 ∧ u.rd (pg
      .nvp p) Reg.NVP_NVP_CNT_TIMEOUTS = 0) ∧
  (∀ (t : Nat) (p : Fin 4) (s : State), (s.on (pg .nvp p) Reg.NVP_NVP_STAT_UP = true) → Gives (.rootPortLinkDown t p) s fun u => u.rd (pg .nvp p)
      Reg.NVP_NVP_STAT_UP = 0 ∧ u.rd (pg .nvp p) Reg.NVP_NVP_STAT_SPEED = 0)

/-- A good descriptor is loaded into a slot that is stopped. START with all links up starts the slot, STOP at a tick waits for it, and a start
that is due starts it. A packet that is due and a context packet advance the slot's packet count. A port whose link goes down shows it, and
one enabled shows UP; frames that are not addressed to the port are discarded and counted, an ARP request for its address is answered, and a
PTP frame addressed to it changes nothing. ETH_CLR clears the counters. Each of these completes as the clauses that name it say:
netStreamCfg, netStreamCtl, streamScheduledStartStop, vitaPacketSend, almanacPacketTimeout, contextPacketPeriod, ethLinkDown, ethLinkUp,
ethRxFrame, ethClr. -/
def Obligations.StreamerCommandsComplete : Prop :=
  (∀ (t : Nat) (r : Fin 4) (desc : StreamDesc) (e : SvcEntry) (s : State), s.takes r 0x18 e → e.cmd.dlen.toNat = 128 → descOk desc = true → ((s.strs
      desc.slot.toNat).running = false ∧ (s.strs desc.slot.toNat).startAt = none) → Gives (.netStreamCfg t r desc) s fun u => u.strs desc.slot.toNat =
      { s.strs desc.slot.toNat with desc := some desc } ∧ u.svc.compl = s.completed e .success 0 0) ∧
  (∀ (t n : Nat) (r : Fin 4) (d : StreamDesc) (e : SvcEntry) (s : State), s.takes r 0x19 e → (n = e.cmd.p0.toNat % 64) → (e.cmd.p0.getLsbD 8 = true ∧
      e.cmd.p0.getLsbD 9 = false) → e.cmd.p1 = 0 → ((s.strs n).desc = some d) → ((s.strs n).running = false ∧ (s.strs n).startAt = none) → s.strLinked
      d = true → Gives (.netStreamCtl t r) s fun u => (u.strs n).running = true ∧ u.svc.compl = s.completed e .success (s.advance t).tick 0) ∧
  (∀ (t n : Nat) (r : Fin 4) (d : StreamDesc) (e : SvcEntry) (s : State), s.takes r 0x19 e → (n = e.cmd.p0.toNat % 64) → (e.cmd.p0.getLsbD 8 = false ∧
      e.cmd.p0.getLsbD 9 = true) → (e.cmd.p1 ≠ 0 ∧ (s.advance t).tick < e.cmd.p1.toNat) → ((s.strs n).desc = some d) → ((s.strs n).running = true) →
      Gives (.netStreamCtl t r) s fun u => u.strs n = { s.strs n with stopAt := some e.cmd.p1.toNat } ∧ u.svc.compl = s.completed e .success
      e.cmd.p1.toNat 0) ∧
  (∀ (t q : Nat) (slot : Fin 64) (s : State), ((s.strs slot).startAt = some q) → (q ≤ (s.advance t).tick) → Gives (.streamScheduledStartStop t slot) s
      fun u => (u.strs slot).running = true ∧ (u.strs slot).startAt = none) ∧
  (∀ (t : Nat) (slot : Fin 64) (kind : Fin 2) (d : StreamDesc) (i : StrItem) (s : State), (s.strReady slot = some d) → ((s.strs slot).items.find? (fun x
      => x.kind == kind.val) = some i) → ((s.strs slot).running = false) → Gives (.vitaPacketSend t slot kind.castSucc) s fun u => (u.strs slot).count
      = ((s.strs slot).count + 1) % 16) ∧
  (∀ (t : Nat) (slot : Fin 64) (d : StreamDesc) (s : State), (s.strReady slot = some d) → (d.payload.toNat ≤ 32 * (s.strs slot).alm.length) → ((s.strs
      slot).alm ≠ []) → Gives (.vitaPacketSend t slot 2) s fun u => (u.strs slot).count = ((s.strs slot).count + 1) % 16) ∧
  (∀ (t : Nat) (slot : Fin 64) (d : StreamDesc) (s : State), (s.strReady slot = some d) → ((s.strs slot).alm ≠ []) → ((s.strs slot).almAt + 160000 ≤
      (s.advance t).tick) → Gives (.almanacPacketTimeout t slot) s fun u => (u.strs slot).count = ((s.strs slot).count + 1) % 16 ∧ (u.strs slot).almAt
      = (s.advance t).tick) ∧
  (∀ (t : Nat) (slot : Fin 64) (str : CtxPacket) (d : StreamDesc) (s : State), (s.strReady slot = some d) → ((s.strs slot).running = true) → ((2 *
      str.ctx.val + str.content.val) ∈ (s.strs slot).ctxDue) → Gives (.contextPacketPeriod t slot str) s fun u => (u.strs slot).count = ((s.strs
      slot).count + 1) % 16 ∧ (2 * str.ctx.val + str.content.val) ∉ (u.strs slot).ctxDue ∧ smFind (2 * str.ctx.val + str.content.val) (u.strs
      slot).ctxAt = some (s.advance t).tick) ∧
  (∀ (t : Nat) (p : Fin 2) (s : State), (s.on (pg .eth p) Reg.ETH_ETH_STAT_UP = true) → Gives (.ethLinkDown t p) s fun u => u.rd (pg .eth p)
      Reg.ETH_ETH_STAT_UP = 0 ∧ u.net = s.net) ∧
  (∀ (t : Nat) (p : Fin 2) (s : State), (s.runs (pg .eth p) = true) → Gives (.ethLinkUp t p) s fun u => u.rd (pg .eth p) Reg.ETH_ETH_STAT_UP = 1) ∧
  (∀ (t : Nat) (p : Fin 2) (s : State), (s.on (pg .eth p) Reg.ETH_ETH_STAT_UP = true) → (s.working (pg .eth p) = true) → Gives (.ethRxFrame t p .other) s
      fun u => u.rd (pg .eth p) Reg.ETH_RX_DISC_CNT = Reg.ETH_RX_DISC_CNT.cut (s.rd (pg .eth p) Reg.ETH_RX_DISC_CNT + 1)) ∧
  (∀ (t : Nat) (p : Fin 2) (target sender : BitVec 32) (mac : BitVec 48) (s : State), (s.on (pg .eth p) Reg.ETH_ETH_STAT_UP = true) → (s.working (pg .eth
      p) = true) → s.serviceRuns = true → (target.toNat = s.ethIp4 p) → Gives (.ethRxFrame t p (.arp target sender mac)) s fun u => u.out = .packet p
      64 [mac.toNat, s.ethMac p, 2, target.toNat, sender.toNat] :: s.out ∧ u.rd (pg .eth p) Reg.ETH_TX_PKTS_CNT = Reg.ETH_TX_PKTS_CNT.cut (s.rd (pg
      .eth p) Reg.ETH_TX_PKTS_CNT + 1)) ∧
  (∀ (t : Nat) (p : Fin 2) (dst : BitVec 48) (s : State), (dst.toNat = s.ethMac p) → Gives (.ethRxFrame t p (.ptp dst)) s fun u => u = s.advance t) ∧
  (∀ (t : Nat) (p : Fin 2) (s : State), (s.hostOpen (pg .eth p)) → Gives (.ethClr t p) s fun u => ∀ f ∈ [Reg.ETH_ETH_STAT_FEC_UNC, Reg.ETH_TX_PKTS_CNT,
      Reg.ETH_RX_DISC_CNT], u.rd (pg .eth p) f = 0)

/-- A message received on the port in use records the port state, and the servo is locked or not as the service finds; a one-step Sync gives the
offset, a Delay_Resp the mean path delay and the offset. A message that is due is sent and counted. A due commit whose error exceeds
DEADBAND puts the new offset in force and is marked with its tick. Losing the master takes the servo to holdover. Each of these completes as
the clauses that name it say: ptpMessageRx, ptpMessageSend, ptpServoCommit, ptpMasterLoss. -/
def Obligations.TimeServiceCommandsComplete : Prop :=
  (∀ (t : Nat) (p : Fin 2) (sub : Fin 16) (msg : PtpMsg) (portState : Byte) (locked : Bool) (s : State), s.ptpOn p = true → (s.ptp.cfg ≠ none) → Gives
      (.ptpMessageRx t p sub msg portState locked) s fun u => u.ptp.portState = portState.toNat ∧ u.ptp.servo = (if locked then 2 else 1) ∧ u.ptp.cfg
      = s.ptp.cfg ∧ u.ptp.src = s.ptp.src) ∧
  (∀ (t : Nat) (p : Fin 2) (sub : Fin 16) (t1 : Int) (portState : Byte) (locked : Bool) (s : State), s.ptpOn p = true → (s.ptp.cfg ≠ none) → Gives
      (.ptpMessageRx t p sub (.sync t1 false) portState locked) s fun u => u.ptp.offset = ((s.advance t).ptpTime (16 * (s.advance t).tick + sub) :
      Int) - t1 - s.ptp.delay ∧ u.ptp.delay = s.ptp.delay) ∧
  (∀ (t : Nat) (p : Fin 2) (sub : Fin 16) (t3 t4 d : Int) (portState : Byte) (locked : Bool) (s : State), s.ptpOn p = true → (s.ptp.cfg ≠ none) →
      (s.ptp.reqAt = some t3) → (s.ptp.fromMaster = some d) → Gives (.ptpMessageRx t p sub (.delayResp t4) portState locked) s fun u => u.ptp.delay =
      (d + (t4 - t3)) / 2 ∧ u.ptp.offset = d - (d + (t4 - t3)) / 2 ∧ u.ptp.reqAt = none) ∧
  (∀ (t : Nat) (p : Fin 2) (kind : Fin 4) (sub : Fin 16) (c : PtpConfig) (s : State), (s.ptp.cfg = some c) → s.ptpOn p = true → ((s.advance t).ptpDue p
      kind c = true) → Gives (.ptpMessageSend t p kind sub) s fun u => u.rd (pg .eth p) Reg.ETH_TX_PKTS_CNT = Reg.ETH_TX_PKTS_CNT.cut (s.rd (pg .eth
      p) Reg.ETH_TX_PKTS_CNT + 1) ∧ smFind (4 * p.val + kind.val) u.ptp.sentAt = some (s.advance t).tick) ∧
  (∀ (t n : Nat) (change : Int) (trim : BitVec 32) (s : State), (s.ptp.src = 1 ∨ s.ptp.src = 3) → s.serviceRuns = true → (s.ptp.servo = 1 ∨ s.ptp.servo =
      2) → (∀ a ∈ s.ptp.commitAt, a + 1600000000 ≤ (s.advance t).tick) → (s.deadband < (s.servoStep change).1.natAbs) → (n = ((s.servoStep change).2 %
      (2 ^ 48 * (10 ^ 9 * 65536))).toNat) → Gives (.ptpServoCommit t change trim) s fun u => u.ptp.commitAt = some (s.advance t).tick ∧ u.rdA (pg .tmb
      0) Reg.TMB_PTP_SEC_SEC = n / (10 ^ 9 * 65536) ∧ u.rdA (pg .tmb 0) Reg.TMB_PTP_NS_NS = n / 65536 % 10 ^ 9 ∧ u.rdA (pg .tmb 0) Reg.TMB_PTP_NS_FRAC
      = n % 65536) ∧
  (∀ (t : Nat) (s : State), (s.ptp.src = 1 ∨ s.ptp.src = 3) → s.serviceRuns = true → (s.ptp.servo ≠ 3) → Gives (.ptpMasterLoss t) s fun u => u.ptp =
      { s.ptp with servo := 3 })

/-- The source sends SECOND on a whole second and measures the delay of each answer; a follower that receives SECOND stamps it and owes an
answer, sent at its time. Delays sent and received are valid and hold. An announcement is sent three times, accepted by a follower whose
STAGED has its number and enough lead, its acknowledgements collected, and its window completes the command. A follower without SECOND for 3
s has lost the time code. An edge of a trigger line is noted, and the line's source takes its level by the polarity decided; the source's
MEASURE asks for one more measurement. Each of these completes as the clauses that name it say: deltanSecondSend, deltanSecondRx,
deltanAnswerSend, deltanAnswerRx, deltanDelaySend, deltanDelayRx, deltanAnnounceSend, deltanAnnounceRx, deltanAckRx, deltanAckWindowClose,
tcLost, deltanTriggerEdge, dlbMeasure. -/
def Obligations.DeltanCommandsComplete : Prop :=
  (∀ (t : Nat) (s : State), s.dlbSource = true → ((s.advance t).tick % 1600000000 = 0) → Gives (.deltanSecondSend t) s fun u => u.dlb =
      { s.dlb with seq := (s.dlb.seq + 1) % 256, sentT := some (s.advance t).tick, measure := false } ∧ u.rd (pg .dlb 0) Reg.DLB_DLB_STAT_SEC_CNT =
      Reg.DLB_DLB_STAT_SEC_CNT.cut (s.rd (pg .dlb 0) Reg.DLB_DLB_STAT_SEC_CNT + 1)) ∧
  (∀ (t : Nat) (seq : Byte) (rp : SubTick) (tick : Word) (sec : BitVec 48) (ns : BitVec 32) (frac : BitVec 16) (flags : BitVec 32) (inverted : Bool) (s :
      State), s.dlbFollower = true → Gives (.deltanSecondRx t seq rp tick sec ns frac flags true inverted) s fun u => u.dlb =
      { s.dlb with rp := rp, rxT := tick.toNat, rxSeen := true, owe := true, off := (sec.toNat, ns.toNat, frac.toNat) } ∧ u.rd (pg .dlb 0)
      Reg.DLB_DLB_STAT_SEC_CNT = Reg.DLB_DLB_STAT_SEC_CNT.cut (s.rd (pg .dlb 0) Reg.DLB_DLB_STAT_SEC_CNT + 1)) ∧
  (∀ (t : Nat) (s : State), s.dlbFollower = true → s.dlb.owe = true → (s.dlb.rp + 16 * 6400 * s.dlbPos ≤ 16 * (s.advance t).tick + 15) → Gives
      (.deltanAnswerSend t) s fun u => u.dlb = { s.dlb with owe := false } ∧ u.out = .deltan 2 [s.dlbPos, s.dlb.rp, s.dlb.rp + 16 * 6400 * s.dlbPos]
      :: s.out) ∧
  (∀ (t sent : Nat) (p : Fin 32) (a : SubTick) (inverted : Bool) (s : State), s.dlbSource = true → (p ≠ 0) → (s.dlb.sentT = some sent) → Gives
      (.deltanAnswerRx t p a true inverted) s fun u => u.rd (pg .dlb 0) (Reg.DLB_DLB_DELAY_DELAY p) = (Reg.DLB_DLB_DELAY_DELAY p).cut ((a - 16 * (sent
      + 6400 * p.val)) / 2) ∧ u.rd (pg .dlb 0) (Reg.DLB_DLB_DELAY_VALID p) = 1) ∧
  (∀ (t : Nat) (j : Fin 4) (s : State), s.dlbSource = true → (s.dlb.sentT.map (· + 6400 * (33 + j.val)) = some (s.advance t).tick) → Gives
      (.deltanDelaySend t j) s fun u => ∃ b : Nat, u =
      { s.advance t with out := .deltan 3 (j.val :: b :: (List.range 8).map (fun i => s.dlbDelay (8 * j.val + i))) :: s.out }) ∧
  (∀ (t : Nat) (j : Fin 4) (delays : List (BitVec 24)) (reversed : Bool) (s : State), s.dlbFollower = true → Gives (.deltanDelayRx t j delays reversed
      true) s fun u => ∀ i : Fin 8, u.rd (pg .dlb 0) (Reg.DLB_DLB_DELAY_DELAY (8 * j.val + i.val)) = (Reg.DLB_DLB_DELAY_DELAY (8 * j.val + i.val)).cut
      (delays.getD i 0).toNat ∧ u.rd (pg .dlb 0) (Reg.DLB_DLB_DELAY_VALID (8 * j.val + i.val)) = 1) ∧
  (∀ (t : Nat) (s : State), (s.svc.announce ≠ none) → s.dlbSource = true → (s.svc.annSent < 3) → (if s.svc.annSent = 0 then (s.advance t).annFits = true
      else (s.advance t).tick = s.svc.annAt + 160000) → Gives (.deltanAnnounceSend t) s fun u => u.svc =
      { s.svc with annSent := s.svc.annSent + 1, annAt := (s.advance t).tick } ∧ u.out = .deltan 4 [s.rd (pg .epo 0) Reg.EPO_EPO_STAGED_NUMBER, s.rd
      (pg .epo 0) Reg.EPO_EQX_TICK_TICK] :: s.out) ∧
  (∀ (t own : Nat) (number : BitVec 32) (tick : Word) (last : Bool) (s : State), s.dlbFollower = true → (s.on (pg .dlb 0) Reg.DLB_DLB_CFG_ACCEPT_ANN =
      true) → (s.on (pg .epo 0) Reg.EPO_EPO_STAGED_VALID = true) → (s.rd (pg .epo 0) Reg.EPO_EPO_STAGED_NUMBER = number.toNat) → (s.on (pg .epo 0)
      Reg.EPO_PROB_STAT_ACTIVE = false) → ((((16 * tick.toNat : Nat) : Int) - s.rdS (pg .dlb 0) Reg.DLB_DLB_OFS_OFS + 15) / 16 = (own : Int)) →
      ((s.advance t).tick + 1600000 ≤ own) → Gives (.deltanAnnounceRx t number tick last true) s fun u => u.rd (pg .epo 0) Reg.EPO_EQX_TICK_TICK = own
      % 2 ^ 64 ∧ u.rd (pg .epo 0) Reg.EPO_EQX_STAT_PENDING = 1 ∧ u.rd (pg .epo 0) Reg.EPO_EQX_STAT_FROM_DELTAN = 1) ∧
  (∀ (t : Nat) (p : Fin 32) (number : BitVec 32) (s : State), (s.svc.announce ≠ none) → s.dlbSource = true → (number.toNat = s.rd (pg .epo 0)
      Reg.EPO_EPO_STAGED_NUMBER) → (3 ≤ s.svc.annSent ∧ (s.advance t).tick < s.svc.annAt + 211200) → Gives (.deltanAckRx t p number true true) s fun u
      => u.svc = { s.svc with annAck := setBit s.svc.annAck p }) ∧
  (∀ (t : Nat) (e : SvcEntry) (s : State), (s.svc.announce = some e) → (3 ≤ s.svc.annSent) → (s.svc.annAt + 211200 ≤ (s.advance t).tick) → Gives
      (.deltanAckWindowClose t) s fun u => u.svc.announce = none ∧ u.svc.compl = s.completed e .success (s.rd (pg .epo 0) Reg.EPO_EQX_TICK_TICK)
      s.svc.annAck) ∧
  (∀ (t : Nat) (s : State), s.dlbFollower = true → (s.on (pg .dlb 0) Reg.DLB_DLB_STAT_TC_LOCK = true) → (s.dlb.rp + 16 * 3 * 1600000000 ≤ 16 * (s.advance
      t).tick) → Gives (.tcLost t) s fun u => u.rd (pg .dlb 0) Reg.DLB_DLB_STAT_TC_LOCK = 0) ∧
  (∀ (t : Nat) (k : Fin 6) (level : Bool) (sub : Fin 16) (s : State), s.dlbOn = true → Gives (.deltanTriggerEdge t k level sub) s fun u => u.srcLevel
      (0x1048 + k) = (level != (u.rd (pg .dlb 0) Reg.DLB_DLB_STAT_POL_INV).testBit k) ∧ (smGet [] k.val u.dlb.edges).head? = some (s.advance t).tick) ∧
  (∀ (t : Nat) (s : State), (s.hostOpen (pg .dlb 0)) → s.dlbSource = true → Gives (.dlbMeasure t) s fun u => u.dlb = { s.dlb with measure := true })

/-- PCI_CLR clears the endpoint's counters; a link that goes down shows it. A BAR2 write within usable capacity leaves every byte at the value
written and nothing else in memory changed. A read that no channel holds back is answered at once, and one that waits is queued. A size from
2^30 to 2^36 applies, any other changes nothing; a read that has waited for 5 ms leaves with a Completer Abort. Each of these completes as
the clauses that name it say: pciClr, pcieLinkDown, bar2Write, bar2Read, bar2Resize, bar2ReadHoldTimeout. -/
def Obligations.HostEndpointCommandsComplete : Prop :=
  (∀ (t : Nat) (s : State), (s.hostOpen (pg .pci 0)) → Gives (.pciClr t) s fun u => ∀ f ∈ [Reg.PCI_BAR2_STAT_POISON_CNT, Reg.PCI_BAR2_STAT_RANGE_CNT,
      Reg.PCI_AER_CNT_CORR, Reg.PCI_AER_CNT_UNCORR, Reg.PCI_LINK_STAT_RETRAIN_CNT], u.rd (pg .pci 0) f = 0) ∧
  (∀ (t : Nat) (s : State), (s.on (pg .pci 0) Reg.PCI_LINK_STAT_UP = true) → Gives (.pcieLinkDown t) s fun u => u.rd (pg .pci 0) Reg.PCI_LINK_STAT_UP = 0
      ∧ u.rd (pg .pci 0) Reg.PCI_LINK_STAT_WIDTH = 0 ∧ u.boot = { s.boot with linkUp := false }) ∧
  (∀ (t off : Nat) (bytes : List Byte) (s : State), (anyGranule (s.bar2Addr off) bytes.length s.beyond = false) → s.cutOff .bar2 0 = false → Gives
      (.bar2Write t off bytes) s fun u => (∀ i (h : i < bytes.length), u.byteAt (s.bar2Addr off + i) = bytes[i]) ∧ ∀ a, a < s.bar2Addr off ∨
      s.bar2Addr off + bytes.length ≤ a → u.byteAt a = s.byteAt a) ∧
  (∀ (t off len : Nat) (s : State), (s.bar2Waits (s.bar2Addr off) len = true) → Gives (.bar2Read t off len) s fun u => u.mem.held = s.mem.held ++
      [⟨s.bar2Addr off, len, (s.advance t).tick⟩]) ∧
  (∀ (t off len : Nat) (s : State), (s.bar2Waits (s.bar2Addr off) len = false) → (anyGranule (s.bar2Addr off) len s.beyond = false) → (s.poisoned
      (s.bar2Addr off) len = false) → s.cutOff .bar2 0 = false → Gives (.bar2Read t off len) s fun u => u.out = .hostRead ((s.readBytes (s.bar2Addr
      off) len).map BitVec.toNat) :: s.out) ∧
  (∀ (t log2 : Nat) (s : State), Gives (.bar2Resize t log2) s fun u => u.mem =
      { s.mem with bar2Log2 := if 30 ≤ log2 ∧ log2 ≤ 36 then log2 else s.mem.bar2Log2 }) ∧
  (∀ (t : Nat) (x : HeldRead) (l : List HeldRead) (s : State), (s.mem.held = x :: l) → (∀ h ∈ x :: l, (s.advance t).bar2Waits h.addr h.len = true) →
      (x.at_ + 8000000 ≤ (s.advance t).tick) → Gives (.bar2ReadHoldTimeout t) s fun u => u =
      { s.advance t with mem := { s.mem with held := l }, out := .completerAbort :: s.out })

/-- A frame start of a running head counts and is stamped. A line of a layer's buffer whose memory can be read is in the line store, pixel by
pixel. A missing pixel aborts the frame and counts. A guard tag that has changed gives the layer its fill colour from its line on. A TE edge
that has persisted, or a missing one, starts VSYNC. A gamma entry of the bank not in use is written and the index advances; one of the bank
in use is refused. Each of these completes as the clauses that name it say: frameStart, lineFetch, underrun, tagChanged, gammaDataWrite,
teEdge, teMissing. -/
def Obligations.DisplayFrameCommandsComplete : Prop :=
  (∀ (t : Nat) (h : Fin 2) (s : State), s.headRuns h = true → s.frameOver h t = true → Gives (.frameStart t h) s fun u => u.rd (pg .dsp h)
      Reg.DSP_FRAME_CNT_FRAME = Reg.DSP_FRAME_CNT_FRAME.cut (s.rd (pg .dsp h) Reg.DSP_FRAME_CNT_FRAME + 1) ∧ u.rd (pg .dsp h) Reg.DSP_FRAME_TICK_TICK
      = Reg.DSP_FRAME_TICK_TICK.cut ((s.lineAt h (s.dspA h Reg.DSP_TIM_V_VACTIVE)).getD (t * 2 ^ 27) / 2 ^ 27)) ∧
  (∀ (t : Nat) (h : Fin 2) (l : Fin 4) (line : Fin 2160) (x : Latch) (g : LayerGeo) (n : Nat) (v : State) (s : State), s.headRuns h = true → (v =
      (s.advance t).sendTo h ((s.advance t).linesDone h (s.advance t).tick)) → ((v.dspHead h).latch l = some x) → (g = s.geoOf h l x.addr) → (n = min
      g.w (s.dspA h Reg.DSP_TIM_H_HACTIVE - s.dspA h (Reg.DSP_L_POS_X0 l))) → ((v.dspHead h).blank = false ∧ (v.dspHead h).aborted = false ∧
      (v.dspHead h).filled l line = false) → (∀ e ∈ s.lineAt h line, (s.advance t).tick * 2 ^ 27 ≤ e + s.dspA h (Reg.DSP_L_POS_X0 l) * pclkDiv (s.dspA
      h)) → (s.dspA h (Reg.DSP_L_POS_Y0 l) ≤ line.val ∧ line.val < s.dspA h (Reg.DSP_L_POS_Y0 l) + g.h ∧ line.val < s.dspA h Reg.DSP_TIM_V_VACTIVE) →
      (∀ a ∈ g.spans (line - s.dspA h (Reg.DSP_L_POS_Y0 l)) n, anyGranule a.1 a.2 s.beyond = false ∧ anyGranule a.1 a.2 s.unavailable = false ∧
      s.poisoned a.1 a.2 = false) → Gives (.lineFetch t h l line) s fun u => smFind (4096 * l.val + line.val) (u.dspHead h).lines = some ((List.range
      n).map (fun i => s.layerPixel g i (line - s.dspA h (Reg.DSP_L_POS_Y0 l))))) ∧
  (∀ (t e : Nat) (h : Fin 2) (line : Fin 2160) (x : Fin 3840) (v : State) (s : State), s.headRuns h = true → (v = (s.advance t).sendTo h line) →
      (s.lineAt h line = some e) → (e + x.val * pclkDiv (s.dspA h) ≤ t * 2 ^ 27 + 2 ^ 27) → ((s.dspHead h).blank = false ∧ (v.dspHead h).aborted =
      false ∧ (v.dspHead h).sent ≤ line.val ∧ (v.dspHead h).unlinked = false) → (v.firstMissing h line = some x.val) → Gives (.underrun t h line x) s
      fun u => (u.dspHead h).aborted = true ∧ (u.dspHead h).sent = line.val + 1 ∧ u.rd (pg .dsp h) Reg.DSP_HEAD_STAT_UNDERRUN_CNT = min (s.rd (pg .dsp
      h) Reg.DSP_HEAD_STAT_UNDERRUN_CNT + 1) (2 ^ Reg.DSP_HEAD_STAT_UNDERRUN_CNT.width - 1)) ∧
  (∀ (t tag : Nat) (h : Fin 2) (l : Fin 4) (line : Fin 2160) (x : Latch) (s : State), s.headRuns h = true → ((s.dspHead h).latch l = some x) → (smFind l
      (s.dspHead h).tag = some tag) → ((s.dspHead h).aborted = false ∧ (s.dspHead h).filled l line = false) → (s.dspA h (Reg.DSP_L_CFG_GUARD l) = 1) →
      (s.readNat x.addr 8 ≠ tag) → Gives (.tagChanged t h l line) s fun u => (u.dspHead h).fill = (l.val, line.val) :: (s.dspHead h).fill) ∧
  (∀ (t : Nat) (h : Fin 2) (v : BitVec 10) (b c e : Nat) (s : State), (s.hostOpen (pg .dsp h)) → (b = s.rd (pg .dsp h) Reg.DSP_GAMMA_IDX_BANK ∧ c = s.rd
      (pg .dsp h) Reg.DSP_GAMMA_IDX_CH ∧ e = s.rd (pg .dsp h) Reg.DSP_GAMMA_IDX_ENTRY) → (b ≠ s.dspA h Reg.DSP_GAMMA_CFG_SEL) → (c ≠ 3) → Gives
      (.gammaDataWrite t h v) s fun u => smGet 0 (4096 * b + 1024 * c + e) (u.dspHead h).gamma = v.toNat ∧ u.rd (pg .dsp h) Reg.DSP_GAMMA_IDX_ENTRY =
      Reg.DSP_GAMMA_IDX_ENTRY.cut (e + 1)) ∧
  (∀ (t : Nat) (h : Fin 2) (v : BitVec 10) (s : State), (s.hostOpen (pg .dsp h)) → (s.rd (pg .dsp h) Reg.DSP_GAMMA_IDX_BANK = s.dspA h
      Reg.DSP_GAMMA_CFG_SEL) → Gives (.gammaDataWrite t h v) s fun u => u.dsp = s.dsp ∧ u.rd (pg .dsp h) Reg.DSP_HEAD_STAT_GAMMA_REJ = 1) ∧
  (∀ (t edge : Nat) (h : Fin 2) (s : State), s.teWait h edge = true → (edge + s.dspA h Reg.DSP_TIM_CFG_TE_FILTER ≤ (s.advance t).tick ∧ edge + s.dspA h
      Reg.DSP_TIM_CFG_TE_FILTER ≤ s.teEnd h) → Gives (.teEdge t h edge) s fun u => (u.dspHead h).vsync = some (edge + s.dspA h
      Reg.DSP_TIM_CFG_TE_FILTER) ∧ u.rd (pg .dsp h) Reg.DSP_TE_TICK_TICK = Reg.DSP_TE_TICK_TICK.cut edge) ∧
  (∀ (t : Nat) (h : Fin 2) (s : State), (s.teWait h (s.advance t).tick = true) → (s.teEnd h ≤ (s.advance t).tick) → Gives (.teMissing t h) s fun u =>
      (u.dspHead h).vsync = some (s.teEnd h))

/-- A change of HPD shows. An attempt within the sink's capability starts, one beyond it fails; an attempt that succeeds within 20 ms shows
TRAINED with the configured rate, one that fails counts until the fifth; 1 s after its failure a link may be tried once more. HEAD_CTL asks
for a retrain or clears the counters. AUX_CTL with GO starts a transaction, whose end clears GO and gives RESULT. Each of these completes as
the clauses that name it say: hpdChange, linkTrainAttempt, linkTrainDone, linkTrainRetry, headRetrain, headClr, auxGo, auxDone. -/
def Obligations.DisplayLinkCommandsComplete : Prop :=
  (∀ (t : Nat) (h : Fin 2) (level lostLock : Bool) (s : State), (s.on (pg .dsp h) Reg.DSP_LINK_STAT_HPD ≠ level) → Gives (.hpdChange t h level lostLock)
      s fun u => u.rd (pg .dsp h) Reg.DSP_LINK_STAT_HPD = b2n level) ∧
  (∀ (t : Nat) (h : Fin 2) (sinkRate : Fin 4) (sinkLanes : Fin 3) (s : State), s.mayTrain h = true → ((s.dspHead h).waiting = false) → (s.dspA h
      Reg.DSP_LINK_CFG_RATE ≤ sinkRate.val ∧ s.dspA h Reg.DSP_LINK_CFG_LANES ≤ sinkLanes.val) → Gives (.linkTrainAttempt t h sinkRate sinkLanes) s fun
      u => (u.dspHead h).training = true ∧ u.rd (pg .dsp h) Reg.DSP_LINK_STAT_TRAINED = 0) ∧
  (∀ (t : Nat) (h : Fin 2) (sinkRate : Fin 4) (sinkLanes : Fin 3) (s : State), s.mayTrain h = true → ((s.dspHead h).waiting = false) → (sinkRate.val <
      s.dspA h Reg.DSP_LINK_CFG_RATE ∨ sinkLanes.val < s.dspA h Reg.DSP_LINK_CFG_LANES) → Gives (.linkTrainAttempt t h sinkRate sinkLanes) s fun u =>
      u.rd (pg .dsp h) Reg.DSP_LINK_STAT_FAILED = 1 ∧ (u.dspHead h).training = (s.dspHead h).training) ∧
  (∀ (t : Nat) (h : Fin 2) (s : State), ((s.dspHead h).training = true) → ((s.advance t).tick ≤ (s.dspHead h).trainAt + 32000000) → Gives (.linkTrainDone
      t h true) s fun u => (u.dspHead h).training = false ∧ u.rd (pg .dsp h) Reg.DSP_LINK_STAT_TRAINED = 1 ∧ u.rd (pg .dsp h) Reg.DSP_LINK_STAT_FAILED
      = 0 ∧ u.rd (pg .dsp h) Reg.DSP_LINK_STAT_RATE_ACT = Reg.DSP_LINK_STAT_RATE_ACT.cut (s.dspA h Reg.DSP_LINK_CFG_RATE)) ∧
  (∀ (t : Nat) (h : Fin 2) (s : State), ((s.dspHead h).training = true) → Gives (.linkTrainDone t h false) s fun u => (u.dspHead h).training = false ∧
      (if (s.dspHead h).attempts + 1 < 5 then (u.dspHead h).attempts = (s.dspHead h).attempts + 1 else u.rd (pg .dsp h) Reg.DSP_LINK_STAT_FAILED = 1)) ∧
  (∀ (t : Nat) (h : Fin 2) (s : State), s.mayTrain h = true → ((s.dspHead h).waiting = true) → ((s.dspHead h).failedAt + 1600000000 ≤ (s.advance t).tick)
      → Gives (.linkTrainRetry t h) s fun u => u.dspHead h = { s.dspHead h with waiting := false, attempts := 4 }) ∧
  (∀ (t : Nat) (h : Fin 2) (s : State), (s.hostOpen (pg .dsp h)) → (s.on (pg .dsp h) Reg.DSP_HEAD_CTL_RETRAIN = false) → Gives (.headRetrain t h) s fun u
      => u.rd (pg .dsp h) Reg.DSP_HEAD_CTL_RETRAIN = 1 ∧ u.on (pg .dsp h) Reg.DSP_LINK_STAT_TRAINED = false) ∧
  (∀ (t : Nat) (h : Fin 2) (s : State), (s.hostOpen (pg .dsp h)) → Gives (.headClr t h) s fun u => ∀ f ∈ [Reg.DSP_HEAD_STAT_UNDERRUN_CNT,
      Reg.DSP_HEAD_STAT_DEFER_CNT, Reg.DSP_HEAD_STAT_GAMMA_REJ, Reg.DSP_LINK_STAT_RETRAIN_CNT], u.rd (pg .dsp h) f = 0) ∧
  (∀ (t : Nat) (h : Fin 2) (i2c read : Bool) (lenM1 : Fin 16) (addr : BitVec 20) (s : State), (s.hostOpen (pg .dsp h)) → (s.on (pg .dsp h)
      Reg.DSP_AUX_CTL_GO = false) → Gives (.auxGo t h i2c read lenM1 addr) s fun u => u.rd (pg .dsp h) Reg.DSP_AUX_CTL_GO = 1 ∧ u.rd (pg .dsp h)
      Reg.DSP_AUX_CTL_ADDR = addr.toNat ∧ u.rd (pg .dsp h) Reg.DSP_AUX_CTL_LEN_M1 = lenM1.val ∧ u.rd (pg .dsp h) Reg.DSP_AUX_CTL_READ = b2n read ∧
      u.rd (pg .dsp h) Reg.DSP_AUX_CTL_I2C = b2n i2c) ∧
  (∀ (t : Nat) (h : Fin 2) (result : Fin 4) (data : List Byte) (s : State), (s.on (pg .dsp h) Reg.DSP_AUX_CTL_GO = true) → ((s.dspHead h).auxWait =
      false) → Gives (.auxDone t h result data) s fun u => u.rd (pg .dsp h) Reg.DSP_AUX_CTL_GO = 0 ∧ u.rd (pg .dsp h) Reg.DSP_AUX_CTL_RESULT =
      result.val)

/-- A request that the arbitration picks from a free pseudo-channel's queue leaves it and is served at its tick, and its corrected errors are
counted where its granule is no hole. A refresh that falls due is postponed while requests wait and the limits allow it, and issued with
those postponed where none waits. An idle channel enters self-refresh. A throttle that has run its time ends. The clears leave the counters
0; XLATE_ADDR takes the address. Each of these completes as the clauses that name it say: memoryRequest, refreshDue, selfRefreshEntry,
rowThrottleEnd, mchClr, xlateAddr. -/
def Obligations.MemoryServiceCommandsComplete : Prop :=
  (∀ (t k : Nat) (pc : Fin 128) (new : List MemReq) (pick : Fin 32) (q : QueuedReq) (v v' : State) (s : State), (v = (s.advance t).each new (fun s r =>
      s.enqueue pc t r)) → v.pcFree pc t = true → (v.pick pc t ((v.queueOf pc).filter (v.eligible pc t)) = some (k, v')) → (chosen ((v.queueOf
      pc).filter (v.eligible pc t)) k pick = some q) → Gives (.memoryRequest t pc new pick) s fun u => smFind (pc.val / 2) u.mem.lastReq = some t ∧ (∀
      x ∈ u.queueOf pc, x.seq ≠ q.seq) ∧ (s.hole q.req.addr = false → u.rd (pg .mch (pc.val / 2)) Reg.MCH_ERR_CNT_CORR = min (s.rd (pg .mch (pc.val /
      2)) Reg.MCH_ERR_CNT_CORR + q.req.corr) (2 ^ Reg.MCH_ERR_CNT_CORR.width - 1))) ∧
  (∀ (t : Nat) (pc : Fin 128) (s : State), (s.chanState (pc / 2) = 2) → s.gated = false → (smGet (s.advance t).tick pc s.mem.refAt ≤ (s.advance t).tick)
      → (s.queueOf pc ≠ []) → (s.doubled (pc / 32) = false) → (smGet 0 pc s.mem.postponed < min 8 (s.rd (pg .mst (pc / 32))
      Reg.MST_REFRESH_CFG_POSTPONE_MAX)) → Gives (.refreshDue t pc) s fun u => smGet 0 pc u.mem.postponed = smGet 0 pc s.mem.postponed + 1) ∧
  (∀ (t : Nat) (pc : Fin 128) (s : State), (s.chanState (pc / 2) = 2) → s.gated = false → (smGet (s.advance t).tick pc s.mem.refAt ≤ (s.advance t).tick)
      → (s.queueOf pc = []) → Gives (.refreshDue t pc) s fun u => smGet 0 pc u.mem.postponed = 0) ∧
  (∀ (t : Nat) (ch : Fin 64) (s : State), s.chanState ch = 2 → s.chanBusy ch = false → (s.rd (pg .mst (ch / 16)) Reg.MST_MST_CFG_IDLE_SR ≠ 0) → (smGet 0
      ch s.mem.lastReq + s.rd (pg .mst (ch / 16)) Reg.MST_MST_CFG_IDLE_SR * 1600 ≤ (s.advance t).tick) → Gives (.selfRefreshEntry t ch) s fun u =>
      u.chanState ch = 3 ∧ smGet 0 (2 * ch.val) u.mem.postponed = 0 ∧ smGet 0 (2 * ch.val + 1) u.mem.postponed = 0) ∧
  (∀ (t stop : Nat) (ch cls : Fin 64) (s : State), (smFind (64 * ch.val + cls.val) s.mem.throttle = some stop) → (stop ≤ (s.advance t).tick) → Gives
      (.rowThrottleEnd t ch cls) s fun u => u.mem = { s.mem with throttle := smErase (64 * ch.val + cls.val) s.mem.throttle } ∧ ((∀ x ∈
      u.mem.throttle, x.1 % 64 ≠ cls.val) → u.rd (pg .mst (cls / 16)) (Reg.MST_CLASS_THROTTLED (cls % 16)) = 0)) ∧
  (∀ (t : Nat) (ch : Fin 64) (s : State), (s.hostOpen (pg .mch ch)) → Gives (.mchClr t ch) s fun u => ∀ f ∈ [Reg.MCH_ERR_CNT_CORR, Reg.MCH_ERR_CNT_RETRY,
      Reg.MCH_ERR_CNT_UNC, Reg.MCH_TRAIN_STAT_PERIODIC, Reg.MCH_TRAIN_STAT_FULL, Reg.MCH_ACT_STAT_FLAGS, Reg.MCH_POISON_STAT_POISON_RD,
      Reg.MCH_POISON_STAT_OVF], u.rd (pg .mch ch) f = 0) ∧
  (∀ (t : Nat) (st : Fin 4) (addr : Word) (s : State), (s.hostOpen (pg .mst st)) → Gives (.xlateAddr t st addr) s fun u => u = (s.advance t).wr (pg .mst
      st) Reg.MST_XLATE_ADDR_ADDR addr.toNat)

/-- GO starts a pin-rate switch, which holds the stack from its start; its end puts the other timing set in force with its stall. A periodic
training is counted at its tick; too many retries start an error training, whose end returns the channel to service or takes it out. A
migration step is journalled, and after the last one the spare is in use. Each of these completes as the clauses that name it say: freqGo,
freqSwitchStart, freqDone, periodicTraining, errorTraining, trainingDone, migrationStep. -/
def Obligations.MemoryRateAndRepairCommandsComplete : Prop :=
  (∀ (t : Nat) (st : Fin 4) (sync : Fin 4) (s : State), (s.hostOpen (pg .mst st)) → (s.on (pg .mst st) Reg.MST_FREQ_STAT_BUSY = false) → Gives (.freqGo t
      st sync) s fun u => u.rd (pg .mst st) Reg.MST_FREQ_CTL_GO = 1 ∧ u.rd (pg .mst st) Reg.MST_FREQ_STAT_BUSY = 1 ∧ u.rd (pg .mst st)
      Reg.MST_FREQ_CTL_SYNC = sync.val) ∧
  (∀ (t : Nat) (st : Fin 4) (s : State), (s.on (pg .mst st) Reg.MST_FREQ_STAT_BUSY = true) → (st.val ∉ s.mem.switching) → (s.rd (pg .mst st)
      Reg.MST_FREQ_CTL_SYNC = 0) → Gives (.freqSwitchStart t st) s fun u => u.mem.switching = st.val :: s.mem.switching ∧ ∀ c : Fin 64, c.val / 16 =
      st.val → smGet 0 (2 * c.val) u.mem.postponed = 0) ∧
  (∀ (t : Nat) (st : Fin 4) (s : State), (st.val ∈ s.mem.switching) → s.gated = false → Gives (.freqDone t st) s fun u => u.mem.switching =
      s.mem.switching.erase st ∧ u.rd (pg .mst st) Reg.MST_FREQ_STAT_ACT_SET = Reg.MST_FREQ_STAT_ACT_SET.cut (1 - s.rd (pg .mst st)
      Reg.MST_FREQ_STAT_ACT_SET) ∧ u.rd (pg .mst st) Reg.MST_FREQ_STAT_BUSY = 0 ∧ u.rd (pg .mst st) Reg.MST_FREQ_STAT_LAST_STALL = min 65535
      (((s.advance t).tick - smGet (s.advance t).tick st s.mem.switchAt) * 625 / 1000)) ∧
  (∀ (t : Nat) (ch : Fin 64) (s : State), (s.chanState ch = 2 ∨ s.chanState ch = 3) → s.gated = false → (smGet 0 ch s.mem.trainAt + s.trainPeriod (ch /
      16) * 1600000 ≤ (s.advance t).tick) → Gives (.periodicTraining t ch) s fun u => smFind ch u.mem.trainAt = some (s.advance t).tick ∧ u.rd (pg
      .mch ch) Reg.MCH_TRAIN_STAT_PERIODIC = Reg.MCH_TRAIN_STAT_PERIODIC.cut (s.rd (pg .mch ch) Reg.MCH_TRAIN_STAT_PERIODIC + 1)) ∧
  (∀ (t : Nat) (ch : Fin 64) (s : State), (s.chanState ch = 2 ∨ s.chanState ch = 3) → (s.rd (pg .mst (ch / 16)) Reg.MST_MST_CFG_ERR_TH < ((smGet [] ch
      s.mem.retries).filter (fun x => (s.advance t).tick < x + 1600000)).length) → Gives (.errorTraining t ch) s fun u => u.chanState ch = 4 ∧
      u.mem.retries = smErase ch s.mem.retries) ∧
  (∀ (t : Nat) (ch : Fin 64) (ok : Bool) (s : State), s.chanState ch = 4 → Gives (.trainingDone t ch ok) s fun u => u.chanState ch = (if ok then 2 else
      5) ∧ u.rd (pg .mch ch) Reg.MCH_TRAIN_STAT_LAST = if ok then 1 else 2) ∧
  (∀ (t : Nat) (ch : Fin 64) (s : State), (s.on (pg .mch ch) Reg.MCH_MCH_STAT_MIGRATING = true) → s.mem.migPaused = false → s.gated = false →
      (s.chanState ch ≠ 4) → (s.rd (pg .mch ch) Reg.MCH_MIG_JOURNAL_STEPS + 1 < migSteps) → Gives (.migrationStep t ch) s fun u => u = (s.advance
      t).wr (pg .mch ch) Reg.MCH_MIG_JOURNAL_STEPS (s.rd (pg .mch ch) Reg.MCH_MIG_JOURNAL_STEPS + 1)) ∧
  (∀ (t : Nat) (ch : Fin 64) (s : State), (s.on (pg .mch ch) Reg.MCH_MCH_STAT_MIGRATING = true) → s.mem.migPaused = false → s.gated = false →
      (s.chanState ch ≠ 4) → (s.rd (pg .mch ch) Reg.MCH_MIG_JOURNAL_STEPS + 1 = migSteps) → Gives (.migrationStep t ch) s fun u => u.rd (pg .mch ch)
      Reg.MCH_MCH_STAT_MIGRATING = 0 ∧ u.rd (pg .mch ch) Reg.MCH_MCH_STAT_SPARE_USED = 1 ∧ u.rd (pg .mch ch) Reg.MCH_MIG_JOURNAL_ACTIVE = 0)

/-- A handover to valid codes is busy with them until it is done, when they are in force; invalid codes set OWN_ERR alone. A port-A write that
the owner makes stores its word and no other; a read answers the word. A wait as long as STARVE_LIMIT is said. A record that fits is staged
whole and counted; SPILL_CTL with GO starts a spill, which ends and clears GO once all its words are written. BNK_CLR clears the counters.
Each of these completes as the clauses that name it say: bankHandover, handoverDone, bankAccess, bankStarveLimit, depositRecord, spillGo,
spillDone, bnkClr. -/
def Obligations.BankCommandsComplete : Prop :=
  (∀ (t : Nat) (b : Fin 64) (owner agent : BitVec 7) (s : State), (s.hostOpen (pg .bnk b)) → ownOk owner.toNat agent.toNat = true → Gives (.bankHandover
      t b owner agent) s fun u => u.rd (pg .bnk b) Reg.BNK_BNK_OWN_OWNER = owner.toNat ∧ u.rd (pg .bnk b) Reg.BNK_BNK_OWN_B_AGENT = agent.toNat ∧ u.rd
      (pg .bnk b) Reg.BNK_BNK_OWN_BUSY = 1 ∧ u.rd (pg .bnk b) Reg.BNK_BNK_OWN_OWNER_ACT = s.rd (pg .bnk b) Reg.BNK_BNK_OWN_OWNER_ACT) ∧
  (∀ (t : Nat) (b : Fin 64) (owner agent : BitVec 7) (s : State), (s.hostOpen (pg .bnk b)) → ownOk owner.toNat agent.toNat = false → Gives (.bankHandover
      t b owner agent) s fun u => u = (s.advance t).wr (pg .bnk b) Reg.BNK_BNK_OWN_OWN_ERR 1) ∧
  (∀ (t : Nat) (b : Fin 64) (s : State), (s.on (pg .bnk b) Reg.BNK_BNK_OWN_BUSY = true) → Gives (.handoverDone t b) s fun u => u.rd (pg .bnk b)
      Reg.BNK_BNK_OWN_OWNER_ACT = Reg.BNK_BNK_OWN_OWNER_ACT.cut (s.rd (pg .bnk b) Reg.BNK_BNK_OWN_OWNER) ∧ u.rd (pg .bnk b)
      Reg.BNK_BNK_OWN_B_AGENT_ACT = Reg.BNK_BNK_OWN_B_AGENT_ACT.cut (s.rd (pg .bnk b) Reg.BNK_BNK_OWN_B_AGENT) ∧ u.rd (pg .bnk b) Reg.BNK_BNK_OWN_BUSY
      = 0) ∧
  (∀ (t : Nat) (b : Fin 64) (x : BankAcc) (s : State), s.gated = false → s.bankHolds b x.agent.toNat = false → s.bankAccepts b x.agent.toNat = true →
      isPortA x.agent.toNat = true → x.write = true → (s.stagedOf b = [] ∧ smFind b.val s.bank.spill = none) → Gives (.bankAccess t b (some x) none) s
      fun u => u.rf = (s.advance t).rf ∧ u.bankWord b x.word = x.data ∧ ∀ (b' : Fin 64) (w : Fin 131072), (b', w) ≠ (b, x.word) → u.bankWord b' w =
      s.bankWord b' w) ∧
  (∀ (t : Nat) (b : Fin 64) (x : BankAcc) (s : State), s.gated = false → s.bankHolds b x.agent.toNat = false → s.bankAccepts b x.agent.toNat = true →
      isPortA x.agent.toNat = true → (x.write = false ∧ x.unc = false) → (s.stagedOf b = [] ∧ smFind b.val s.bank.spill = none) → Gives (.bankAccess t
      b (some x) none) s fun u => u.out = .bankAnswer b 0 (some (s.bankWord b x.word).toNat) :: s.out ∧ u.bank.words = s.bank.words ∧ u.rf =
      (s.advance t).rf) ∧
  (∀ (t : Nat) (b : Fin 64) (s : State), (s.rd (pg .bnk b) Reg.BNK_BNK_CFG_STARVE_LIMIT ≠ 0) → (s.rd (pg .bnk b) Reg.BNK_BNK_CFG_STARVE_LIMIT ≤ smGet 0 b
      s.bank.wait) → (b.val ∉ s.bank.waitSaid) → Gives (.bankStarveLimit t b) s fun u => u.rd (pg .bnk b) Reg.BNK_BNK_STAT_STARVE = 1 ∧ u.bank =
      { s.bank with waitSaid := b.val :: s.bank.waitSaid }) ∧
  (∀ (t what r : Nat) (b : Fin 64) (e : Emitted) (v : State) (s : State), (what = s.rd (pg .bnk b) Reg.BNK_DEP_CFG_WHAT) → ((if what = 2 then (s.xfc
      (s.rd (pg .bnk b) Reg.BNK_DEP_CFG_CTX)).outT else (s.xfc (s.rd (pg .bnk b) Reg.BNK_DEP_CFG_CTX)).out) = some e) → (s.on (pg .bnk b)
      Reg.BNK_DEP_CFG_EN = true) → s.gated = false → (e.seq % 2 ^ s.rd (pg .bnk b) Reg.BNK_DEP_CFG_EVERY_LOG2 = 0) → (smGet 0 b s.bank.deposited ≠
      e.seq + 1) → (v = (s.advance t).bankSync b t) → (v.bankAccepts b 0x60 = true ∨ v.bankHolds b 0x60 = true) → (r = (e.deposit what).length + 1) →
      ((v.stagedOf b).length + r ≤ stageWords) → (r ≤ s.rd (pg .bnk b) Reg.BNK_DEP_RING_LEN) → Gives (.depositRecord t b) s fun u => u.rd (pg .bnk b)
      Reg.BNK_DEP_STAT_WCNT = Reg.BNK_DEP_STAT_WCNT.cut (s.rd (pg .bnk b) Reg.BNK_DEP_STAT_WCNT + 1) ∧ u.bank.deposited = smInsert b (e.seq + 1)
      s.bank.deposited ∧ (u.stagedOf b).length = (v.stagedOf b).length + r) ∧
  (∀ (t : Nat) (b : Fin 64) (unit : Fin 16) (nrowsM1 row0 : Fin 1024) (dst : Fin 131072) (s : State), (s.hostOpen (pg .bnk b)) → (s.on (pg .bnk b)
      Reg.BNK_SPILL_CTL_GO = false) → Gives (.spillGo t b unit nrowsM1 row0 dst) s fun u => u.rd (pg .bnk b) Reg.BNK_SPILL_CTL_GO = 1 ∧ u.rd (pg .bnk
      b) Reg.BNK_SPILL_CTL_UNIT = unit.val ∧ u.rd (pg .bnk b) Reg.BNK_SPILL_CTL_NROWS_M1 = nrowsM1.val ∧ u.rd (pg .bnk b) Reg.BNK_SPILL_CTL_ROW0 =
      row0.val ∧ u.rd (pg .bnk b) Reg.BNK_SPILL_CTL_DST = dst.val) ∧
  (∀ (t : Nat) (b : Fin 64) (x : SpillJob) (v : State) (s : State), (s.on (pg .bnk b) Reg.BNK_SPILL_CTL_GO = true) → s.gated = false → (v = (s.advance
      t).bankSync b t) → (smFind b.val v.bank.spill = some x) → (4 * x.total ≤ x.done ∧ v.stagedOf b = []) → Gives (.spillDone t b) s fun u => u.rd
      (pg .bnk b) Reg.BNK_SPILL_CTL_GO = 0 ∧ smFind b.val u.bank.spill = none) ∧
  (∀ (t : Nat) (b : Fin 64) (s : State), (s.hostOpen (pg .bnk b)) → Gives (.bnkClr t b) s fun u => ∀ f ∈ [Reg.BNK_BNK_STAT_STARVE_CNT,
      Reg.BNK_BNK_STAT_STARVE_MAX, Reg.BNK_BNK_STAT_COLL_CNT, Reg.BNK_DEP_STAT_DROPS], u.rd (pg .bnk b) f = 0)

/-- GO of a running engine that is not busy starts a transfer with nothing done; ABORT of a busy engine is marked. A transfer all of whose words
have moved ends DONE with status 0; a transfer of one word from a bank to a bank that both accept the engine leaves the word at its
destination. Each of these completes as the clauses that name it say: dmaGo, dmaAbort, dmaDone. -/
def Obligations.DmaCommandsComplete : Prop :=
  (∀ (t : Nat) (d : Fin 16) (s : State), (s.hostOpen (pg .dma d)) → s.dmaBusy d = false → s.dmaRuns d = true → Gives (.dmaGo t d) s fun u => u.rd (pg
      .dma d) Reg.DMA_DMA_CTL_GO = 1 ∧ u.rd (pg .dma d) Reg.DMA_DMA_STAT_DONE = 0 ∧ u.dmaNext d = 0) ∧
  (∀ (t : Nat) (d : Fin 16) (s : State), (s.hostOpen (pg .dma d)) → s.dmaBusy d = true → Gives (.dmaAbort t d) s fun u => u.rd (pg .dma d)
      Reg.DMA_DMA_CTL_ABORT = 1 ∧ d.val ∈ u.bank.dmaAbort ∧ u.rd (pg .dma d) Reg.DMA_DMA_CTL_GO = s.rd (pg .dma d) Reg.DMA_DMA_CTL_GO) ∧
  (∀ (t inFlight : Nat) (d : Fin 16) (s : State), s.gated = false → s.dmaBusy d = true → (s.rd (pg .dma d) Reg.DMA_DMA_LEN_WORDS ≤ s.dmaNext d) → (d.val
      ∉ s.bank.dmaPoison) → Gives (.dmaDone t d inFlight) s fun u => u.rd (pg .dma d) Reg.DMA_DMA_CTL_GO = 0 ∧ u.rd (pg .dma d) Reg.DMA_DMA_STAT_DONE
      = 1 ∧ u.rd (pg .dma d) Reg.DMA_DMA_STAT_STATUS = 0 ∧ u.bank.words = s.bank.words) ∧
  (∀ (t inFlight a a' b b' : Nat) (d : Fin 16) (s : State), s.gated = false → s.dmaBusy d = true → (d.val ∉ s.bank.dmaAbort) → (s.rd (pg .dma d)
      Reg.DMA_DMA_LEN_WORDS = 1 ∧ s.dmaNext d = 0) → (s.on (pg .dma d) Reg.DMA_DMA_SRC_BANK_SEL = true ∧ b = s.rd (pg .dma d) Reg.DMA_DMA_SRC_BANK ∧ a
      = s.rd (pg .dma d) Reg.DMA_DMA_SRC_ADDR) → (s.on (pg .dma d) Reg.DMA_DMA_DST_BANK_SEL = true ∧ b' = s.rd (pg .dma d) Reg.DMA_DMA_DST_BANK ∧ a' =
      s.rd (pg .dma d) Reg.DMA_DMA_DST_ADDR) → (a < 131072 ∧ a' < 131072) → (s.bankHolds b (0x50 + d.val) = false ∧ s.bankAccepts b (0x50 + d.val) =
      true) → (s.bankHolds b' (0x50 + d.val) = false ∧ s.bankAccepts b' (0x50 + d.val) = true) → Gives (.dmaDone t d inFlight) s fun u => u.bankWord
      b' a' = s.bankWord b a ∧ u.rd (pg .dma d) Reg.DMA_DMA_STAT_DONE = 1 ∧ u.rd (pg .dma d) Reg.DMA_DMA_CTL_GO = 0)

/-- A legal bundle that a running core executes, with no result in flight and with moves that stay in data memory, leaves to the next bundle the
sum, difference, logical word, shift, minimum, maximum, choice or immediate form of its operands in its destination, and, where it sets
flags, the four flags; TST its T flag; NOP moves nothing. Each of these completes as the clauses that name it say: opAdd, opSub, opAnd,
opOr, opXor, opAndn, opShl, opShr, opSar, opMin, opMax, opSel, opAddi, opAndi, opOri, opCmp, opCmpi, opTst, opNop, opLi. -/
def Obligations.CoreAluCommandsComplete : Prop :=
  (∀ (t w : Nat) (n : Fin 64) (ecc : CoreEcc) (s : State), s.compute n t w ecc → (bMac w = false ∧ aluOp (bOpc w) = some .add) → Gives (.opAdd t n ecc) s
      fun u => (u.coreAt n).settle.gr (bGd w) = (s.coreAt n).gr (bGa w) + (s.coreAt n).gr (bGb w) ∧ (bF w = true → ∀ k : Fin 4, (u.coreAt
      n).settle.st.getLsbD (8 + k) = (flagsAdd ((s.coreAt n).gr (bGa w)) ((s.coreAt n).gr (bGb w))).testBit k)) ∧
  (∀ (t w : Nat) (n : Fin 64) (ecc : CoreEcc) (s : State), s.compute n t w ecc → (bMac w = false ∧ aluOp (bOpc w) = some .sub) → Gives (.opSub t n ecc) s
      fun u => (u.coreAt n).settle.gr (bGd w) = (s.coreAt n).gr (bGa w) - (s.coreAt n).gr (bGb w) ∧ (bF w = true → ∀ k : Fin 4, (u.coreAt
      n).settle.st.getLsbD (8 + k) = (flagsSub ((s.coreAt n).gr (bGa w)) ((s.coreAt n).gr (bGb w))).testBit k)) ∧
  (∀ (t w : Nat) (n : Fin 64) (ecc : CoreEcc) (s : State), s.compute n t w ecc → (bMac w = false ∧ aluOp (bOpc w) = some .and_) → Gives (.opAnd t n ecc)
      s fun u => (u.coreAt n).settle.gr (bGd w) = (s.coreAt n).gr (bGa w) &&& (s.coreAt n).gr (bGb w) ∧ (bF w = true → ∀ k : Fin 4, (u.coreAt
      n).settle.st.getLsbD (8 + k) = (flagsLogic ((s.coreAt n).gr (bGa w) &&& (s.coreAt n).gr (bGb w))).testBit k)) ∧
  (∀ (t w : Nat) (n : Fin 64) (ecc : CoreEcc) (s : State), s.compute n t w ecc → (bMac w = false ∧ aluOp (bOpc w) = some .or_) → Gives (.opOr t n ecc) s
      fun u => (u.coreAt n).settle.gr (bGd w) = (s.coreAt n).gr (bGa w) ||| (s.coreAt n).gr (bGb w) ∧ (bF w = true → ∀ k : Fin 4, (u.coreAt
      n).settle.st.getLsbD (8 + k) = (flagsLogic ((s.coreAt n).gr (bGa w) ||| (s.coreAt n).gr (bGb w))).testBit k)) ∧
  (∀ (t w : Nat) (n : Fin 64) (ecc : CoreEcc) (s : State), s.compute n t w ecc → (bMac w = false ∧ aluOp (bOpc w) = some .xor) → Gives (.opXor t n ecc) s
      fun u => (u.coreAt n).settle.gr (bGd w) = (s.coreAt n).gr (bGa w) ^^^ (s.coreAt n).gr (bGb w) ∧ (bF w = true → ∀ k : Fin 4, (u.coreAt
      n).settle.st.getLsbD (8 + k) = (flagsLogic ((s.coreAt n).gr (bGa w) ^^^ (s.coreAt n).gr (bGb w))).testBit k)) ∧
  (∀ (t w : Nat) (n : Fin 64) (ecc : CoreEcc) (s : State), s.compute n t w ecc → (bMac w = false ∧ aluOp (bOpc w) = some .andn) → Gives (.opAndn t n ecc)
      s fun u => (u.coreAt n).settle.gr (bGd w) = (s.coreAt n).gr (bGa w) &&& ~~~((s.coreAt n).gr (bGb w)) ∧ (bF w = true → ∀ k : Fin 4, (u.coreAt
      n).settle.st.getLsbD (8 + k) = (flagsLogic ((s.coreAt n).gr (bGa w) &&& ~~~((s.coreAt n).gr (bGb w)))).testBit k)) ∧
  (∀ (t w : Nat) (n : Fin 64) (ecc : CoreEcc) (s : State), s.compute n t w ecc → (bMac w = false ∧ aluOp (bOpc w) = some .shl) → Gives (.opShl t n ecc) s
      fun u => (u.coreAt n).settle.gr (bGd w) = (s.coreAt n).gr (bGa w) <<< (bits w 37 32) ∧ (bF w = true → ∀ k : Fin 4, (u.coreAt
      n).settle.st.getLsbD (8 + k) = (flagsLogic ((s.coreAt n).gr (bGa w) <<< (bits w 37 32))).testBit k)) ∧
  (∀ (t w : Nat) (n : Fin 64) (ecc : CoreEcc) (s : State), s.compute n t w ecc → (bMac w = false ∧ aluOp (bOpc w) = some .shr) → Gives (.opShr t n ecc) s
      fun u => (u.coreAt n).settle.gr (bGd w) = (s.coreAt n).gr (bGa w) >>> (bits w 37 32) ∧ (bF w = true → ∀ k : Fin 4, (u.coreAt
      n).settle.st.getLsbD (8 + k) = (flagsLogic ((s.coreAt n).gr (bGa w) >>> (bits w 37 32))).testBit k)) ∧
  (∀ (t w : Nat) (n : Fin 64) (ecc : CoreEcc) (s : State), s.compute n t w ecc → (bMac w = false ∧ aluOp (bOpc w) = some .sar) → Gives (.opSar t n ecc) s
      fun u => (u.coreAt n).settle.gr (bGd w) = ((s.coreAt n).gr (bGa w)).sshiftRight (bits w 37 32) ∧ (bF w = true → ∀ k : Fin 4, (u.coreAt
      n).settle.st.getLsbD (8 + k) = (flagsLogic (((s.coreAt n).gr (bGa w)).sshiftRight (bits w 37 32))).testBit k)) ∧
  (∀ (t w : Nat) (n : Fin 64) (ecc : CoreEcc) (s : State), s.compute n t w ecc → (bMac w = false ∧ aluOp (bOpc w) = some .min) → Gives (.opMin t n ecc) s
      fun u => (u.coreAt n).settle.gr (bGd w) = (if ((s.coreAt n).gr (bGa w)).toInt ≤ ((s.coreAt n).gr (bGb w)).toInt then (s.coreAt n).gr (bGa w)
      else (s.coreAt n).gr (bGb w)) ∧ (bF w = true → ∀ k : Fin 4, (u.coreAt n).settle.st.getLsbD (8 + k) = (flagsLogic ((if ((s.coreAt n).gr (bGa
      w)).toInt ≤ ((s.coreAt n).gr (bGb w)).toInt then (s.coreAt n).gr (bGa w) else (s.coreAt n).gr (bGb w)))).testBit k)) ∧
  (∀ (t w : Nat) (n : Fin 64) (ecc : CoreEcc) (s : State), s.compute n t w ecc → (bMac w = false ∧ aluOp (bOpc w) = some .max) → Gives (.opMax t n ecc) s
      fun u => (u.coreAt n).settle.gr (bGd w) = (if ((s.coreAt n).gr (bGb w)).toInt ≤ ((s.coreAt n).gr (bGa w)).toInt then (s.coreAt n).gr (bGa w)
      else (s.coreAt n).gr (bGb w)) ∧ (bF w = true → ∀ k : Fin 4, (u.coreAt n).settle.st.getLsbD (8 + k) = (flagsLogic ((if ((s.coreAt n).gr (bGb
      w)).toInt ≤ ((s.coreAt n).gr (bGa w)).toInt then (s.coreAt n).gr (bGa w) else (s.coreAt n).gr (bGb w)))).testBit k)) ∧
  (∀ (t w : Nat) (n : Fin 64) (ecc : CoreEcc) (s : State), s.compute n t w ecc → (bMac w = false ∧ aluOp (bOpc w) = some .sel) → Gives (.opSel t n ecc) s
      fun u => (u.coreAt n).settle.gr (bGd w) = if condHolds (s.coreAt n).flags (bits w 35 32) then (s.coreAt n).gr (bGa w) else (s.coreAt n).gr (bGb
      w)) ∧
  (∀ (t w : Nat) (n : Fin 64) (ecc : CoreEcc) (s : State), s.compute n t w ecc → (bMac w = false ∧ aluOp (bOpc w) = some .addi) → Gives (.opAddi t n ecc)
      s fun u => (u.coreAt n).settle.gr (bGd w) = (s.coreAt n).gr (bGa w) + BitVec.ofInt 64 (bSimm w)) ∧
  (∀ (t w : Nat) (n : Fin 64) (ecc : CoreEcc) (s : State), s.compute n t w ecc → (bMac w = false ∧ aluOp (bOpc w) = some .andi) → Gives (.opAndi t n ecc)
      s fun u => (u.coreAt n).settle.gr (bGd w) = (s.coreAt n).gr (bGa w) &&& BitVec.ofInt 64 (bSimm w)) ∧
  (∀ (t w : Nat) (n : Fin 64) (ecc : CoreEcc) (s : State), s.compute n t w ecc → (bMac w = false ∧ aluOp (bOpc w) = some .ori) → Gives (.opOri t n ecc) s
      fun u => (u.coreAt n).settle.gr (bGd w) = (s.coreAt n).gr (bGa w) ||| BitVec.ofInt 64 (bSimm w)) ∧
  (∀ (t w : Nat) (n : Fin 64) (ecc : CoreEcc) (s : State), s.compute n t w ecc → (bMac w = false ∧ aluOp (bOpc w) = some .cmp) → Gives (.opCmp t n ecc) s
      fun u => ∀ k : Fin 4, (u.coreAt n).settle.st.getLsbD (8 + k) = (flagsSub ((s.coreAt n).gr (bGa w)) ((s.coreAt n).gr (bGb w))).testBit k) ∧
  (∀ (t w : Nat) (n : Fin 64) (ecc : CoreEcc) (s : State), s.compute n t w ecc → (bMac w = false ∧ aluOp (bOpc w) = some .cmpi) → Gives (.opCmpi t n ecc)
      s fun u => ∀ k : Fin 4, (u.coreAt n).settle.st.getLsbD (8 + k) = (flagsSub ((s.coreAt n).gr (bGa w)) (BitVec.ofInt 64 (bSimm w))).testBit k) ∧
  (∀ (t w : Nat) (n : Fin 64) (ecc : CoreEcc) (s : State), s.compute n t w ecc → (bMac w = false ∧ aluOp (bOpc w) = some .tst) → Gives (.opTst t n ecc) s
      fun u => (u.coreAt n).settle.st.getLsbD 12 = ((s.coreAt n).gr (bGa w)).getLsbD (bits w 37 32)) ∧
  (∀ (t w : Nat) (n : Fin 64) (ecc : CoreEcc) (s : State), s.atBundle n t w → (ecc.p ≠ 2) → w = 0 → Gives (.opNop t n ecc) s fun u => (u.coreAt n) =
      { CoreSt.loopEnd 4 { s.coreSeen n t with state := 2 } with idx := (s.coreAt n).idx + 1, cyc := max (s.coreAt n).cyc (t - (s.coreSeen n t).base) + 1 }) ∧
  (∀ (t w : Nat) (n : Fin 64) (ecc : CoreEcc) (s : State), s.atBundle n t w → (ecc.p ≠ 2) → (bForm w = 2 ∧ bundleLegal w false = true) → Gives (.opLi t n
      ecc) s fun u => ⟨(s.coreAt n).idx + (if bits w 61 55 < 32 then 1 else 3), bits w 61 55, unsigned 64 (signed 48 (part w 0 48))⟩ ∈ (u.coreAt
      n).pend)

/-- In the same setting, CADD, CSUB, CSAR and CONJ leave their complex word to the next bundle, EXT the rounded bits of an accumulator, GETA an
address register; ACLD and ACCLR reach the accumulators two bundles on, PUTA an address register three bundles on. Each of these completes
as the clauses that name it say: opCadd, opCsub, opCsar, opConj, opExt, opGeta, opAcld, opAcclr, opPuta. -/
def Obligations.CoreComplexCommandsComplete : Prop :=
  (∀ (t w : Nat) (n : Fin 64) (ecc : CoreEcc) (s : State), s.compute n t w ecc → (bMac w = false ∧ aluOp (bOpc w) = some .cadd) → Gives (.opCadd t n ecc)
      s fun u => (u.coreAt n).settle.gr (bGd w) = BitVec.ofNat 64 (iq (half (w.testBit 32) (iOf ((s.coreAt n).gr (bGa w)) + iOf ((s.coreAt n).gr (bGb
      w)))) (half (w.testBit 32) (qOf ((s.coreAt n).gr (bGa w)) + qOf ((s.coreAt n).gr (bGb w)))))) ∧
  (∀ (t w : Nat) (n : Fin 64) (ecc : CoreEcc) (s : State), s.compute n t w ecc → (bMac w = false ∧ aluOp (bOpc w) = some .csub) → Gives (.opCsub t n ecc)
      s fun u => (u.coreAt n).settle.gr (bGd w) = BitVec.ofNat 64 (iq (half (w.testBit 32) (iOf ((s.coreAt n).gr (bGa w)) - iOf ((s.coreAt n).gr (bGb
      w)))) (half (w.testBit 32) (qOf ((s.coreAt n).gr (bGa w)) - qOf ((s.coreAt n).gr (bGb w)))))) ∧
  (∀ (t w : Nat) (n : Fin 64) (ecc : CoreEcc) (s : State), s.compute n t w ecc → (bMac w = false ∧ aluOp (bOpc w) = some .csar) → Gives (.opCsar t n ecc)
      s fun u => (u.coreAt n).settle.gr (bGd w) = BitVec.ofNat 64 (iq (roundShift (iOf ((s.coreAt n).gr (bGa w))) (bits w 36 32)) (roundShift (qOf
      ((s.coreAt n).gr (bGa w))) (bits w 36 32)))) ∧
  (∀ (t w : Nat) (n : Fin 64) (ecc : CoreEcc) (s : State), s.compute n t w ecc → (bMac w = false ∧ aluOp (bOpc w) = some .conj) → Gives (.opConj t n ecc)
      s fun u => (u.coreAt n).settle.gr (bGd w) = BitVec.ofNat 64 (iq (iOf ((s.coreAt n).gr (bGa w))) (half true (-(qOf ((s.coreAt n).gr (bGa w))))))) ∧
  (∀ (t w : Nat) (n : Fin 64) (ecc : CoreEcc) (s : State), s.compute n t w ecc → (bMac w = false ∧ aluOp (bOpc w) = some .ext) → Gives (.opExt t n ecc) s
      fun u => (u.coreAt n).settle.gr (bGd w) = BitVec.ofNat 64 (if bits w 47 46 = 0 then unsigned 64 (extract (vget (s.coreAt n).acr (bits w 49 48))
      (bits w 44 39) (w.testBit 45)) else if bits w 47 46 = 1 then unsigned 64 (extract (vget (s.coreAt n).aci (bits w 49 48)) (bits w 44 39)
      (w.testBit 45)) else iq (extract (vget (s.coreAt n).acr (bits w 49 48)) (bits w 44 39) (w.testBit 45)) (extract (vget (s.coreAt n).aci (bits w
      49 48)) (bits w 44 39) (w.testBit 45)))) ∧
  (∀ (t w : Nat) (n : Fin 64) (ecc : CoreEcc) (s : State), s.compute n t w ecc → (bMac w = false ∧ aluOp (bOpc w) = some .geta) → Gives (.opGeta t n ecc)
      s fun u => (u.coreAt n).settle.gr (bGd w) = BitVec.ofNat 64 ((s.coreAt n).getReg (64 + bits w 36 32))) ∧
  (∀ (t w : Nat) (n : Fin 64) (ecc : CoreEcc) (s : State), s.compute n t w ecc → (bMac w = false ∧ aluOp (bOpc w) = some .acld) → Gives (.opAcld t n ecc)
      s fun u => ⟨(s.coreAt n).idx + 2, 100 + bits w 51 50, unsigned 72 (iOf ((s.coreAt n).gr (bGa w)))⟩ ∈ (u.coreAt n).pend ∧ ⟨(s.coreAt n).idx + 2,
      104 + bits w 51 50, unsigned 72 (qOf ((s.coreAt n).gr (bGa w)))⟩ ∈ (u.coreAt n).pend) ∧
  (∀ (t w : Nat) (n : Fin 64) (ecc : CoreEcc) (s : State), s.compute n t w ecc → (bMac w = false ∧ aluOp (bOpc w) = some .acclr) → Gives (.opAcclr t n
      ecc) s fun u => (w.testBit 36 = false → ∀ k : Fin 4, w.testBit (32 + k) = true → ⟨(s.coreAt n).idx + 2, 100 + k.val, 0⟩ ∈ (u.coreAt n).pend ∧
      ⟨(s.coreAt n).idx + 2, 104 + k.val, 0⟩ ∈ (u.coreAt n).pend) ∧ ⟨(s.coreAt n).idx + 2, 109, bits w 35 32⟩ ∈ (u.coreAt n).pend) ∧
  (∀ (t w : Nat) (n : Fin 64) (ecc : CoreEcc) (s : State), s.compute n t w ecc → (bMac w = false ∧ aluOp (bOpc w) = some .puta) → Gives (.opPuta t n ecc)
      s fun u => ⟨(s.coreAt n).idx + 3, 64 + bits w 36 32, ((s.coreAt n).gr (bGa w)).toNat % 2 ^ 18⟩ ∈ (u.coreAt n).pend)

/-- In the same setting, for each of the two units of a MAC bundle, a multiply leaves its signed product for the accumulator two bundles on, a
multiply-accumulate adds it to the accumulator modulo 2^72, QMAC adds two conjugate products to the real half, and MAXI and MINI replace the
accumulator by the new extreme and its index, or leave it. Each of these completes as the clauses that name it say: opCmul, opCmac, opCjmul,
opCjmac, opQmac, opMaxi, opMini. -/
def Obligations.CoreMacCommandsComplete : Prop :=
  (∀ (t w : Nat) (n : Fin 64) (ecc : CoreEcc) (k : Fin 2) (a b m : Nat) (s : State), s.compute n t w ecc → (bMac w = true ∧ macUnit w k = (1, a, b, m)) →
      Gives (.opCmul t n ecc) s fun u => ⟨(s.coreAt n).idx + 2, 100 + m, unsigned 72 ((if w.testBit 60 then -1 else 1 : Int) * (iOf ((s.coreAt n).gr
      a) * iOf ((s.coreAt n).gr b) - qOf ((s.coreAt n).gr a) * qOf ((s.coreAt n).gr b)))⟩ ∈ (u.coreAt n).pend ∧ ⟨(s.coreAt n).idx + 2, 104 + m,
      unsigned 72 ((if w.testBit 60 then -1 else 1 : Int) * (iOf ((s.coreAt n).gr a) * qOf ((s.coreAt n).gr b) + qOf ((s.coreAt n).gr a) * iOf
      ((s.coreAt n).gr b)))⟩ ∈ (u.coreAt n).pend) ∧
  (∀ (t w : Nat) (n : Fin 64) (ecc : CoreEcc) (k : Fin 2) (a b m : Nat) (s : State), s.compute n t w ecc → (bMac w = true ∧ macUnit w k = (2, a, b, m)) →
      Gives (.opCmac t n ecc) s fun u => ⟨(s.coreAt n).idx + 2, 100 + m, unsigned 72 ((vget (s.coreAt n).acr m).toInt + (if w.testBit 60 then -1 else
      1 : Int) * (iOf ((s.coreAt n).gr a) * iOf ((s.coreAt n).gr b) - qOf ((s.coreAt n).gr a) * qOf ((s.coreAt n).gr b)))⟩ ∈ (u.coreAt n).pend ∧
      ⟨(s.coreAt n).idx + 2, 104 + m, unsigned 72 ((vget (s.coreAt n).aci m).toInt + (if w.testBit 60 then -1 else 1 : Int) * (iOf ((s.coreAt n).gr a)
      * qOf ((s.coreAt n).gr b) + qOf ((s.coreAt n).gr a) * iOf ((s.coreAt n).gr b)))⟩ ∈ (u.coreAt n).pend) ∧
  (∀ (t w : Nat) (n : Fin 64) (ecc : CoreEcc) (k : Fin 2) (a b m : Nat) (s : State), s.compute n t w ecc → (bMac w = true ∧ macUnit w k = (3, a, b, m)) →
      Gives (.opCjmul t n ecc) s fun u => ⟨(s.coreAt n).idx + 2, 100 + m, unsigned 72 ((if w.testBit 60 then -1 else 1 : Int) * (iOf ((s.coreAt n).gr
      a) * iOf ((s.coreAt n).gr b) + qOf ((s.coreAt n).gr a) * qOf ((s.coreAt n).gr b)))⟩ ∈ (u.coreAt n).pend ∧ ⟨(s.coreAt n).idx + 2, 104 + m,
      unsigned 72 ((if w.testBit 60 then -1 else 1 : Int) * (qOf ((s.coreAt n).gr a) * iOf ((s.coreAt n).gr b) - iOf ((s.coreAt n).gr a) * qOf
      ((s.coreAt n).gr b)))⟩ ∈ (u.coreAt n).pend) ∧
  (∀ (t w : Nat) (n : Fin 64) (ecc : CoreEcc) (k : Fin 2) (a b m : Nat) (s : State), s.compute n t w ecc → (bMac w = true ∧ macUnit w k = (4, a, b, m)) →
      Gives (.opCjmac t n ecc) s fun u => ⟨(s.coreAt n).idx + 2, 100 + m, unsigned 72 ((vget (s.coreAt n).acr m).toInt + (if w.testBit 60 then -1 else
      1 : Int) * (iOf ((s.coreAt n).gr a) * iOf ((s.coreAt n).gr b) + qOf ((s.coreAt n).gr a) * qOf ((s.coreAt n).gr b)))⟩ ∈ (u.coreAt n).pend ∧
      ⟨(s.coreAt n).idx + 2, 104 + m, unsigned 72 ((vget (s.coreAt n).aci m).toInt + (if w.testBit 60 then -1 else 1 : Int) * (qOf ((s.coreAt n).gr a)
      * iOf ((s.coreAt n).gr b) - iOf ((s.coreAt n).gr a) * qOf ((s.coreAt n).gr b)))⟩ ∈ (u.coreAt n).pend) ∧
  (∀ (t w : Nat) (n : Fin 64) (ecc : CoreEcc) (k : Fin 2) (a b m : Nat) (s : State), s.compute n t w ecc → (bMac w = true ∧ macUnit w k = (5, a, b, m)) →
      Gives (.opQmac t n ecc) s fun u => ⟨(s.coreAt n).idx + 2, 100 + m, unsigned 72 ((vget (s.coreAt n).acr m).toInt + (if w.testBit 60 then -1 else
      1 : Int) * (iOf ((s.coreAt n).gr a) * iOf ((s.coreAt n).gr b) + qOf ((s.coreAt n).gr a) * qOf ((s.coreAt n).gr b) + iOf ((s.coreAt n).gr (a +
      1)) * iOf ((s.coreAt n).gr (b + 1)) + qOf ((s.coreAt n).gr (a + 1)) * qOf ((s.coreAt n).gr (b + 1))))⟩ ∈ (u.coreAt n).pend) ∧
  (∀ (t w : Nat) (n : Fin 64) (ecc : CoreEcc) (k : Fin 2) (a b m : Nat) (s : State), s.compute n t w ecc → (bMac w = true ∧ macUnit w k = (6, a, b, m)) →
      ((vget (s.coreAt n).acr m).toInt < iOf ((s.coreAt n).gr a)) → Gives (.opMaxi t n ecc) s fun u => ⟨(s.coreAt n).idx + 2, 100 + m, unsigned 72
      (iOf ((s.coreAt n).gr a))⟩ ∈ (u.coreAt n).pend ∧ ⟨(s.coreAt n).idx + 2, 104 + m, unsigned 72 (((s.coreAt n).gr b).toInt)⟩ ∈ (u.coreAt n).pend) ∧
  (∀ (t w : Nat) (n : Fin 64) (ecc : CoreEcc) (k : Fin 2) (a b m : Nat) (s : State), s.compute n t w ecc → (bMac w = true ∧ macUnit w k = (6, a, b, m)) →
      (iOf ((s.coreAt n).gr a) ≤ (vget (s.coreAt n).acr m).toInt) → Gives (.opMaxi t n ecc) s fun u => ∀ x ∈ (u.coreAt n).pend, x.reg ≠ 100 + m ∧
      x.reg ≠ 104 + m) ∧
  (∀ (t w : Nat) (n : Fin 64) (ecc : CoreEcc) (k : Fin 2) (a b m : Nat) (s : State), s.compute n t w ecc → (bMac w = true ∧ macUnit w k = (7, a, b, m)) →
      (iOf ((s.coreAt n).gr a) < (vget (s.coreAt n).acr m).toInt) → Gives (.opMini t n ecc) s fun u => ⟨(s.coreAt n).idx + 2, 100 + m, unsigned 72
      (iOf ((s.coreAt n).gr a))⟩ ∈ (u.coreAt n).pend ∧ ⟨(s.coreAt n).idx + 2, 104 + m, unsigned 72 (((s.coreAt n).gr b).toInt)⟩ ∈ (u.coreAt n).pend) ∧
  (∀ (t w : Nat) (n : Fin 64) (ecc : CoreEcc) (k : Fin 2) (a b m : Nat) (s : State), s.compute n t w ecc → (bMac w = true ∧ macUnit w k = (7, a, b, m)) →
      ((vget (s.coreAt n).acr m).toInt ≤ iOf ((s.coreAt n).gr a)) → Gives (.opMini t n ecc) s fun u => ∀ x ∈ (u.coreAt n).pend, x.reg ≠ 100 + m ∧
      x.reg ≠ 104 + m)

/-- In the same setting, a load of the X or Y slot leaves the word of data memory at its address for its register three bundles on, a store
leaves the register in data memory, a MOV leaves the source register and a PLOAD the program word three bundles on, and a move that updates
its address register leaves the update to the next bundle. Each of these completes as the clauses that name it say: opLd, opSt, opMov,
opPload. -/
def Obligations.CoreMoveCommandsComplete : Prop :=
  (∀ (t w : Nat) (n : Fin 64) (ecc : CoreEcc) (s : State), s.compute n t w ecc → (vOp (xMove w) = 1) → Gives (.opLd t n ecc) s fun u => ⟨(s.coreAt n).idx
      + 3, vReg (xMove w), ((s.coreAt n).xAt ((s.coreAt n).moveAddr (xMove w)).1).toNat⟩ ∈ (u.coreAt n).pend ∧ ∀ v, ((s.coreAt n).moveAddr (xMove
      w)).2 = .to v → ⟨(s.coreAt n).idx + 1, 64 + vP (xMove w), v⟩ ∈ (u.coreAt n).pend) ∧
  (∀ (t w : Nat) (n : Fin 64) (ecc : CoreEcc) (s : State), s.compute n t w ecc → (vOp (yMove w) = 1) → Gives (.opLd t n ecc) s fun u => ⟨(s.coreAt n).idx
      + 3, vReg (yMove w), ((s.coreAt n).yAt ((s.coreAt n).moveAddr (yMove w)).1).toNat⟩ ∈ (u.coreAt n).pend ∧ ∀ v, ((s.coreAt n).moveAddr (yMove
      w)).2 = .to v → ⟨(s.coreAt n).idx + 1, 64 + vP (yMove w), v⟩ ∈ (u.coreAt n).pend) ∧
  (∀ (t w : Nat) (n : Fin 64) (ecc : CoreEcc) (s : State), s.compute n t w ecc → (vOp (xMove w) = 2) → Gives (.opSt t n ecc) s fun u => (u.coreAt n).xAt
      ((s.coreAt n).moveAddr (xMove w)).1 = BitVec.ofNat 64 ((s.coreAt n).getReg (vReg (xMove w))) ∧ ∀ a, a ≠ ((s.coreAt n).moveAddr (xMove w)).1 →
      (u.coreAt n).xAt a = (s.coreAt n).xAt a) ∧
  (∀ (t w : Nat) (n : Fin 64) (ecc : CoreEcc) (s : State), s.compute n t w ecc → (vOp (yMove w) = 2) → Gives (.opSt t n ecc) s fun u => (u.coreAt n).yAt
      ((s.coreAt n).moveAddr (yMove w)).1 = BitVec.ofNat 64 ((s.coreAt n).getReg (vReg (yMove w))) ∧ ∀ a, a ≠ ((s.coreAt n).moveAddr (yMove w)).1 →
      (u.coreAt n).yAt a = (s.coreAt n).yAt a) ∧
  (∀ (t w : Nat) (n : Fin 64) (ecc : CoreEcc) (s : State), s.compute n t w ecc → (vOp (xMove w) = 3) → Gives (.opMov t n ecc) s fun u => ⟨(s.coreAt
      n).idx + 3, vReg (xMove w), (s.coreAt n).getReg (vSrc (xMove w))⟩ ∈ (u.coreAt n).pend) ∧
  (∀ (t w : Nat) (n : Fin 64) (ecc : CoreEcc) (s : State), s.compute n t w ecc → (vOp (yMove w) = 3) → Gives (.opPload t n ecc) s fun u => ⟨(s.coreAt
      n).idx + 3, vReg (yMove w), ((s.coreAt n).prog ((s.coreAt n).moveAddr (yMove w)).1).toNat⟩ ∈ (u.coreAt n).pend)

/-- A legal control bundle with no result in flight leaves the pc at the next bundle. A branch has two delay slots and, where its condition
holds, its target; CALL leaves the return address in g31; LOOP and LOOPR push a level; BREAK leaves the innermost level; RETI goes to IPC,
leaves ISTAT and the handler; WAIT waits; SETIE sets IE. An illegal bundle takes exception 1 at its address, and halts the core with IE 0.
Each of these completes as the clauses that name it say: opCnop, opBr, opCall, opJr, opLoop, opLoopr, opBreak, opReti, opWait, opSetie,
opIllegal. -/
def Obligations.CoreControlCommandsComplete : Prop :=
  (∀ (t w : Nat) (n : Fin 64) (ecc : CoreEcc) (s : State), s.atBundle n t w → (ecc.p ≠ 2) → (bForm w = 1 ∧ bundleLegal w false = true ∧ kCtl w = 0) →
      Gives (.opCnop t n ecc) s fun u => (u.coreAt n) =
      { s.coreSeen n t with state := 2, pc := (s.coreAt n).pc + 1, idx := (s.coreAt n).idx + 1, cyc := max (s.coreAt n).cyc (t - (s.coreSeen n t).base) + 1 }) ∧
  (∀ (t w : Nat) (n : Fin 64) (ecc : CoreEcc) (s : State), s.atBundle n t w → (ecc.p ≠ 2) → (bForm w = 1 ∧ bundleLegal w false = true ∧ kCtl w = 1) →
      Gives (.opBr t n ecc) s fun u => (u.coreAt n).slots = 2 ∧ (u.coreAt n).target = (if condHolds (s.coreAt n).flags (kCond w) then some
      (BitVec.ofNat 13 (kImm w)) else none) ∧ (u.coreAt n).pc = (s.coreAt n).pc + 1) ∧
  (∀ (t w : Nat) (n : Fin 64) (ecc : CoreEcc) (s : State), s.atBundle n t w → (ecc.p ≠ 2) → (bForm w = 1 ∧ bundleLegal w false = true ∧ kCtl w = 2) →
      Gives (.opCall t n ecc) s fun u => (u.coreAt n).slots = 2 ∧ (u.coreAt n).target = (if condHolds (s.coreAt n).flags (kCond w) then some
      (BitVec.ofNat 13 (kImm w)) else none) ∧ (u.coreAt n).pc = (s.coreAt n).pc + 1 ∧ (condHolds (s.coreAt n).flags (kCond w) = true → ⟨(s.coreAt
      n).idx + 1, 31, ((s.coreAt n).pc.toNat + 3) % 8192⟩ ∈ (u.coreAt n).pend)) ∧
  (∀ (t w : Nat) (n : Fin 64) (ecc : CoreEcc) (s : State), s.atBundle n t w → (ecc.p ≠ 2) → (bForm w = 1 ∧ bundleLegal w false = true ∧ kCtl w = 3) →
      Gives (.opJr t n ecc) s fun u => (u.coreAt n).slots = 2 ∧ (u.coreAt n).target = (if condHolds (s.coreAt n).flags (kCond w) then some
      (BitVec.ofNat 13 (((s.coreAt n).gr (kGs w)).toNat % 8192)) else none) ∧ (u.coreAt n).pc = (s.coreAt n).pc + 1) ∧
  (∀ (t w : Nat) (n : Fin 64) (ecc : CoreEcc) (s : State), s.atBundle n t w → (ecc.p ≠ 2) → (bForm w = 1 ∧ bundleLegal w false = true ∧ kCtl w = 4) →
      ((s.coreAt n).lsp < 4) → Gives (.opLoop t n ecc) s fun u => (u.coreAt n).lsp = (s.coreAt n).lsp + 1 ∧ vget (u.coreAt n).lc (s.coreAt n).lsp =
      BitVec.ofNat 32 (kImm w) ∧ vget (u.coreAt n).ls (s.coreAt n).lsp = BitVec.ofNat 13 ((s.coreAt n).pc.toNat + 1) ∧ vget (u.coreAt n).le (s.coreAt
      n).lsp = BitVec.ofNat 13 (kEnd w) ∧ (u.coreAt n).pc = (s.coreAt n).pc + 1) ∧
  (∀ (t w : Nat) (n : Fin 64) (ecc : CoreEcc) (s : State), s.atBundle n t w → (ecc.p ≠ 2) → (bForm w = 1 ∧ bundleLegal w false = true ∧ kCtl w = 5) →
      ((s.coreAt n).lsp < 4) → Gives (.opLoopr t n ecc) s fun u => (u.coreAt n).lsp = (s.coreAt n).lsp + 1 ∧ vget (u.coreAt n).lc (s.coreAt n).lsp =
      BitVec.ofNat 32 (((s.coreAt n).gr (kGs w)).toNat % 2 ^ 32) ∧ vget (u.coreAt n).ls (s.coreAt n).lsp = BitVec.ofNat 13 ((s.coreAt n).pc.toNat + 1)
      ∧ vget (u.coreAt n).le (s.coreAt n).lsp = BitVec.ofNat 13 (kEnd w) ∧ (u.coreAt n).pc = (s.coreAt n).pc + 1) ∧
  (∀ (t w : Nat) (n : Fin 64) (ecc : CoreEcc) (s : State), s.atBundle n t w → (ecc.p ≠ 2) → (bForm w = 1 ∧ bundleLegal w false = true ∧ kCtl w = 6) →
      ((s.coreAt n).lsp ≠ 0) → (condHolds (s.coreAt n).flags (kCond w) = true) → Gives (.opBreak t n ecc) s fun u => (u.coreAt n).lsp = (s.coreAt
      n).lsp - 1 ∧ (u.coreAt n).slots = 2 ∧ (u.coreAt n).target = some (BitVec.ofNat 13 ((vget (s.coreAt n).le ((s.coreAt n).lsp - 1)).toNat + 1)) ∧
      (u.coreAt n).pc = (s.coreAt n).pc + 1) ∧
  (∀ (t w : Nat) (n : Fin 64) (ecc : CoreEcc) (s : State), s.atBundle n t w → (ecc.p ≠ 2) → (bForm w = 1 ∧ bundleLegal w false = true ∧ kCtl w = 6) →
      (condHolds (s.coreAt n).flags (kCond w) = false) → Gives (.opBreak t n ecc) s fun u => (u.coreAt n).lsp = (s.coreAt n).lsp ∧ (u.coreAt n).slots
      = 2 ∧ (u.coreAt n).target = none ∧ (u.coreAt n).pc = (s.coreAt n).pc + 1) ∧
  (∀ (t w : Nat) (n : Fin 64) (ecc : CoreEcc) (s : State), s.atBundle n t w → (ecc.p ≠ 2) → (bForm w = 1 ∧ bundleLegal w false = true ∧ kCtl w = 7) →
      Gives (.opReti t n ecc) s fun u => (u.coreAt n).slots = 2 ∧ (u.coreAt n).target = some (BitVec.ofNat 13 (s.coreAt n).ipc.toNat) ∧ (u.coreAt
      n).pc = (s.coreAt n).pc + 1 ∧ (u.coreAt n).inHandler = false ∧ ⟨(s.coreAt n).idx + 3, 56, (s.coreAt n).istat.toNat⟩ ∈ (u.coreAt n).pend) ∧
  (∀ (t w : Nat) (n : Fin 64) (ecc : CoreEcc) (s : State), s.atBundle n t w → (ecc.p ≠ 2) → (bForm w = 1 ∧ bundleLegal w false = true ∧ kCtl w = 8) →
      Gives (.opWait t n ecc) s fun u => (u.coreAt n).state = 3 ∧ (u.coreAt n).pc = (s.coreAt n).pc + 1) ∧
  (∀ (t w : Nat) (n : Fin 64) (ecc : CoreEcc) (s : State), s.atBundle n t w → (ecc.p ≠ 2) → (bForm w = 1 ∧ bundleLegal w false = true ∧ kCtl w = 9) →
      Gives (.opSetie t n ecc) s fun u => (u.coreAt n).ie = w.testBit 0 ∧ (u.coreAt n).pc = (s.coreAt n).pc + 1) ∧
  (∀ (t w : Nat) (n : Fin 64) (ecc : CoreEcc) (s : State), s.atBundle n t w → (ecc.p ≠ 2) → bundleLegal w false = false → Gives (.opIllegal t n ecc) s
      fun u => (u.coreAt n).ecause = BitVec.ofNat 64 (1 + (s.coreAt n).pc.toNat * 2 ^ 16) ∧ ((s.coreAt n).ie = false → (u.coreAt n).state = 5 ∧
      (u.coreAt n).haltCause = 2))

/-- A bundle of a running core with no result in flight whose X move stores to or loads from a control word, and whose Y move is none, does what
that word does: IRQ_CTL takes the enables, EVQ gives and drops its oldest event, BNK_SEL and BNK_OWN_RD take the bank, the other three
bundles on, BNK_OWN_WR asks for a handover of a bank that the core owns, TRIG_GO counts, USER_GO stages a record, MBX_IN is read and its
source cleared, MBX_OUT and NOTE hold the word. Each of these completes as the clauses that name it say: irqCtlWrite, evqRead, bnkSelWrite,
bnkOwnRd, bnkOwnWr, trigGo, userGo, mbxInRead, mbxOutStore, notify. -/
def Obligations.CoreControlAreaCommandsComplete : Prop :=
  (∀ (t w : Nat) (n : Fin 64) (ecc : CoreEcc) (s : State), s.atBundle n t w → (ecc.p ≠ 2) → (touchesCtl true 0x03 (s.coreAt n) w = true ∧ yMove w = 0) →
      Gives (.irqCtlWrite t n ecc) s fun u => (u.coreAt n).irqEn = BitVec.ofNat 4 ((s.coreAt n).getReg (vReg (xMove w))) ||| 1 ∧ (u.coreAt n).tmrEn =
      ((s.coreAt n).getReg (vReg (xMove w))).testBit 16) ∧
  (∀ (t w : Nat) (n : Fin 64) (ecc : CoreEcc) (e : Nat) (l : List Nat) (s : State), s.atBundle n t w → (ecc.p ≠ 2) → (touchesCtl false 0x04 (s.coreAt n)
      w = true ∧ yMove w = 0) → ((s.coreAt n).evq = e :: l) → Gives (.evqRead t n ecc) s fun u => (u.coreAt n).evq = l ∧ ⟨(s.coreAt n).idx + 3, vReg
      (xMove w), 2 ^ 63 + e⟩ ∈ (u.coreAt n).pend) ∧
  (∀ (t w : Nat) (n : Fin 64) (ecc : CoreEcc) (s : State), s.atBundle n t w → (ecc.p ≠ 2) → (touchesCtl true 0x08 (s.coreAt n) w = true ∧ yMove w = 0) →
      Gives (.bnkSelWrite t n ecc) s fun u => (u.coreAt n).bnkSel = BitVec.ofNat 6 ((s.coreAt n).getReg (vReg (xMove w))) ∧ ⟨(s.coreAt n).idx + 3,
      111, (s.coreAt n).getReg (vReg (xMove w)) % 64⟩ ∈ (u.coreAt n).pend) ∧
  (∀ (t w : Nat) (n : Fin 64) (ecc : CoreEcc) (s : State), s.atBundle n t w → (ecc.p ≠ 2) → (touchesCtl true 0x0A (s.coreAt n) w = true ∧ yMove w = 0) →
      Gives (.bnkOwnRd t n ecc) s fun u => ⟨(s.coreAt n).idx + 3, 112, (s.coreAt n).getReg (vReg (xMove w)) % 64⟩ ∈ (u.coreAt n).pend) ∧
  (∀ (t w : Nat) (n : Fin 64) (ecc : CoreEcc) (b : Nat) (s : State), s.atBundle n t w → (ecc.p ≠ 2) → (touchesCtl true 0x09 (s.coreAt n) w = true ∧ yMove
      w = 0) → (b = bits ((s.coreAt n).getReg (vReg (xMove w))) 37 32) → (s.rd (pg .bnk b) Reg.BNK_BNK_OWN_OWNER_ACT = n.val) → (ownOk ((s.coreAt
      n).getReg (vReg (xMove w)) % 128) (bits ((s.coreAt n).getReg (vReg (xMove w))) 22 16) = true) → Gives (.bnkOwnWr t n ecc) s fun u => u.rd (pg
      .bnk b) Reg.BNK_BNK_OWN_OWNER = (s.coreAt n).getReg (vReg (xMove w)) % 128 ∧ u.rd (pg .bnk b) Reg.BNK_BNK_OWN_BUSY = 1) ∧
  (∀ (t w : Nat) (n : Fin 64) (ecc : CoreEcc) (s : State), s.atBundle n t w → (ecc.p ≠ 2) → (touchesCtl true 0x11 (s.coreAt n) w = true ∧ yMove w = 0) →
      Gives (.trigGo t n ecc) s fun u => u.rd (pg .scr n) Reg.SCR_USR_STAT_TRIG_CNT = Reg.SCR_USR_STAT_TRIG_CNT.cut (s.rd (pg .scr n)
      Reg.SCR_USR_STAT_TRIG_CNT + 1)) ∧
  (∀ (t w : Nat) (n : Fin 64) (ecc : CoreEcc) (s : State), s.atBundle n t w → (ecc.p ≠ 2) → (touchesCtl true 0x1D (s.coreAt n) w = true ∧ yMove w = 0) →
      ((s.coreAt n).stage.length < 4) → Gives (.userGo t n ecc) s fun u => (u.coreAt n).stage = (s.coreAt n).stage ++ [⟨(s.coreAt n).userCtx.toNat,
      (s.coreAt n).userA.toNat, (s.coreAt n).userB.toNat, (s.coreAt n).userC.toNat, goStamp (((s.coreAt n).getReg (vReg (xMove w))) % 2 ^ 64) t
      (s.coreAt n).userTick.toNat⟩]) ∧
  (∀ (t w : Nat) (n : Fin 64) (ecc : CoreEcc) (s : State), s.atBundle n t w → (ecc.p ≠ 2) → (touchesCtl false 0x20 (s.coreAt n) w = true ∧ yMove w = 0) →
      Gives (.mbxInRead t n ecc) s fun u => ⟨(s.coreAt n).idx + 3, vReg (xMove w), s.rd (pg .scr n) Reg.SCR_MBX_IN_DATA⟩ ∈ (u.coreAt n).pend ∧
      (u.coreAt n).irqPend = (s.coreAt n).irqPend &&& 0b0111) ∧
  (∀ (t w : Nat) (n : Fin 64) (ecc : CoreEcc) (s : State), s.atBundle n t w → (ecc.p ≠ 2) → (touchesCtl true 0x21 (s.coreAt n) w = true ∧ yMove w = 0) →
      Gives (.mbxOutStore t n ecc) s fun u => u.rd (pg .scr n) Reg.SCR_MBX_OUT_DATA = Reg.SCR_MBX_OUT_DATA.cut ((s.coreAt n).getReg (vReg (xMove w)))) ∧
  (∀ (t w : Nat) (n : Fin 64) (ecc : CoreEcc) (s : State), s.atBundle n t w → (ecc.p ≠ 2) → (touchesCtl true 0x22 (s.coreAt n) w = true ∧ yMove w = 0) →
      Gives (.notify t n ecc) s fun u => u.rd (pg .scr n) Reg.SCR_NOTE_DATA = Reg.SCR_NOTE_DATA.cut ((s.coreAt n).getReg (vReg (xMove w))))

/-- An interrupt that is due goes to its vector with IE 0, no loop level and IPC and ISTAT saved. A core that stalls for a window load continues
at its arrival. A timer that has passed pends; a host word in MBX_IN pends. A staged USER record of a running context leaves the buffer.
HALT halts a core at a boundary and is remembered otherwise; RESUME runs it, STEP executes one bundle and halts it again. The debug port
reads and writes what DBG_ADDR names. SCR_CLR clears the counters. Each of these completes as the clauses that name it say: interruptEntry,
windowLoadArrive, timerCompare, userRecordWrite, mbxInWrite, scrHalt, scrResume, scrStep, dbgDataAccess, scrClr. -/
def Obligations.CoreHostCommandsComplete : Prop :=
  (∀ (t : Nat) (n : Fin 64) (c : CoreSt) (s : State), (((s.advance t).coreNow n t).coreOpen n = true) → ((s.coreSeen n t).irqDue = true) → ((s.coreSeen n
      t).base + (s.coreSeen n t).cyc ≤ t) → (c = (s.coreSeen n t).settle) → Gives (.interruptEntry t n) s fun u => (u.coreAt n).pc = BitVec.ofNat 13
      (irqVector c.irqs) ∧ (u.coreAt n).ipc = c.pc ∧ (u.coreAt n).istat = c.st ∧ (u.coreAt n).ie = false ∧ (u.coreAt n).lsp = 0 ∧ (u.coreAt
      n).inHandler = true) ∧
  (∀ (t : Nat) (n : Fin 64) (c : CoreSt) (x : WinLoad) (l : List WinLoad) (s : State), ((s.advance t).coreOpen n = true) → (c = (s.coreAt n).settle) →
      (c.loads = x :: l) → (c.base + x.due ≤ t) → (x.due ≤ c.cyc + c.stalls (c.prog c.pc.toNat).toNat (bundleLegal (c.prog c.pc.toNat).toNat (0 <
      c.slots))) → Gives (.windowLoadArrive t n) s fun u => u.coreAt n = ({ c with cyc := x.due }).settle ∧ u.rd (pg .scr n) Reg.SCR_SCR_CNT_STALLS =
      min (s.rd (pg .scr n) Reg.SCR_SCR_CNT_STALLS + (x.due - c.cyc)) (2 ^ Reg.SCR_SCR_CNT_STALLS.width - 1)) ∧
  (∀ (t : Nat) (n : Fin 64) (s : State), s.gated = false → ((s.coreAt n).tmrEn = true) → ((s.coreAt n).tmrCmp.toNat ≤ (s.advance t).tick) → Gives
      (.timerCompare t n) s fun u => u.coreAt n = { s.coreAt n with irqPend := (s.coreAt n).irqPend ||| 0b0100 }) ∧
  (∀ (t : Nat) (n : Fin 64) (x : UserRec) (l : List UserRec) (s : State), s.gated = false → ((s.coreAt n).stage = x :: l) → ((s.actx x.ctx).running =
      true) → (s.queueOpen < queueUnreserved) → Gives (.userRecordWrite t n) s fun u => (u.coreAt n).stage = l ∧ u.rd (pg .scr n)
      Reg.SCR_USR_STAT_USER_SENT = Reg.SCR_USR_STAT_USER_SENT.cut (s.rd (pg .scr n) Reg.SCR_USR_STAT_USER_SENT + 1)) ∧
  (∀ (t : Nat) (n : Fin 64) (v : Word) (s : State), (s.hostOpen (pg .scr n)) → Gives (.mbxInWrite t n v) s fun u => u.rd (pg .scr n) Reg.SCR_MBX_IN_DATA
      = v.toNat ∧ u.coreAt n = { s.coreAt n with irqPend := (s.coreAt n).irqPend ||| 0b1000 }) ∧
  (∀ (t : Nat) (n : Fin 64) (s : State), (s.hostOpen (pg .scr n)) → ((s.coreAt n).state = 2 ∨ (s.coreAt n).state = 3) → Gives (.scrHalt t n) s fun u =>
      (if (s.coreAt n).slots = 0 then (u.coreAt n).state = 4 ∧ (u.coreAt n).haltCause = 1 else u.coreAt n = { s.coreAt n with haltReq := true } ∧ u.rd
      (pg .scr n) Reg.SCR_SCR_CTL_HALT = 1)) ∧
  (∀ (t : Nat) (n : Fin 64) (s : State), (s.hostOpen (pg .scr n)) → ((s.coreAt n).state = 4) → Gives (.scrResume t n) s fun u => u.coreAt n =
      { (s.coreAt n).from_ (s.advance t).tick with state := 2, haltCause := 0 }) ∧
  (∀ (t : Nat) (n : Fin 64) (ecc : CoreEcc) (s : State), (s.hostOpen (pg .scr n)) → s.gated = false → ((s.coreAt n).state = 4) → Gives (.scrStep t n ecc)
      s fun u => (u.coreAt n).state = 4 ∨ (u.coreAt n).state = 5) ∧
  (∀ (t : Nat) (n : Fin 64) (ecc : CoreEcc) (s : State), (s.hostOpen (pg .scr n)) → s.gated = false → ((s.coreAt n).state = 4 ∧ (s.coreAt n).pend = [] ∧
      (s.coreAt n).loads = [] ∧ (s.coreAt n).slots = 0 ∧ (s.coreAt n).lsp = 0) → ((s.coreAt n).prog (s.coreAt n).pc.toNat = 0) → (ecc.p ≠ 2) → Gives
      (.scrStep t n ecc) s fun u => (u.coreAt n).state = 4 ∧ (u.coreAt n).haltCause = 1 ∧ (u.coreAt n).pc = (s.coreAt n).pc + 1 ∧ (u.coreAt n).g =
      (s.coreAt n).g) ∧
  (∀ (t : Nat) (n : Fin 64) (a : Nat) (v : Word) (s : State), (s.hostOpen (pg .scr n)) → ((s.coreAt n).state = 4 ∨ (s.coreAt n).state = 5) → (s.rd (pg
      .scr n) Reg.SCR_DBG_ADDR_SPACE = 0 ∧ a = s.rd (pg .scr n) Reg.SCR_DBG_ADDR_ADDR ∧ a < 0x4000) → Gives (.dbgDataAccess t n true v) s fun u =>
      (u.coreAt n).xAt a = v ∧ ∀ b, b ≠ a → (u.coreAt n).xAt b = (s.coreAt n).xAt b) ∧
  (∀ (t : Nat) (n : Fin 64) (v : Word) (s : State), (s.hostOpen (pg .scr n)) → Gives (.dbgDataAccess t n false v) s fun u => u =
      { s.advance t with out := .hostRead ((leBytes 8 (s.dbgWord n)).map BitVec.toNat) :: s.out }) ∧
  (∀ (t : Nat) (n : Fin 64) (s : State), (s.hostOpen (pg .scr n)) → Gives (.scrClr t n) s fun u => ∀ f ∈ [Reg.SCR_SCR_CNT_BUNDLES,
      Reg.SCR_SCR_CNT_STALLS, Reg.SCR_SCR_CNT_OWN_REFUSED, Reg.SCR_SCR_CNT_EVQ_LOST, Reg.SCR_ECC_CNT_P_CORR, Reg.SCR_ECC_CNT_X_CORR,
      Reg.SCR_ECC_CNT_Y_CORR, Reg.SCR_USR_STAT_USER_SENT, Reg.SCR_USR_STAT_USER_DROP, Reg.SCR_USR_STAT_USER_BADCTX, Reg.SCR_USR_STAT_TRIG_CNT], u.rd
      (pg .scr n) f = 0)

/-- A due equinox is switching with its tick recorded, and PENDING falls where no probation runs or starts; STAGED is LIVE and LIVE is PRIOR, or
at a revert the two change places. A page that is ready leaves the pages still to switch, and shows whether LIVE uses it. A context that
stops ends its grid at its switch point, where its view samples wait, and leaves once its last frame is done; one that stays has switched.
When nothing is left the equinox is complete. Probation whose time is over has passed. Each of these completes as the clauses that name it
say: equinox, blockSwitch, contextSwitch, equinoxComplete, probationPass. -/
def Obligations.EquinoxCommandsComplete : Prop :=
  (∀ (t : Nat) (alt : List (Fin 64 × BitVec 8)) (s : State), ((s.advance t).eqxDue = true) → s.epo.resume = none → s.on epoPage Reg.EPO_EQX_STAT_REVERT =
      false → Gives (.equinox t alt) s fun u => u.epo.live = s.epo.staged ∧ u.epo.prior = s.epo.live ∧ u.epo.staged = none ∧ u.rd epoPage
      Reg.EPO_EPO_LIVE_NUMBER = Reg.EPO_EPO_LIVE_NUMBER.cut (s.rd epoPage Reg.EPO_EPO_STAGED_NUMBER) ∧ u.rd epoPage Reg.EPO_EPO_PRIOR_NUMBER =
      Reg.EPO_EPO_PRIOR_NUMBER.cut (s.rd epoPage Reg.EPO_EPO_LIVE_NUMBER) ∧ u.rd epoPage Reg.EPO_EQX_STAT_SWITCHING = 1 ∧ u.rd epoPage
      Reg.EPO_LAST_EQX_TICK = Reg.EPO_LAST_EQX_TICK.cut (s.rd epoPage Reg.EPO_EQX_TICK_TICK) ∧ (s.on epoPage Reg.EPO_PROB_STAT_ACTIVE = false → s.on
      epoPage Reg.EPO_PROB_CFG_EN = false → u.rd epoPage Reg.EPO_EQX_STAT_PENDING = 0)) ∧
  (∀ (t : Nat) (alt : List (Fin 64 × BitVec 8)) (s : State), ((s.advance t).eqxDue = true) → s.epo.resume = none → s.on epoPage Reg.EPO_EQX_STAT_REVERT =
      true → Gives (.equinox t alt) s fun u => u.epo.live = s.epo.prior ∧ u.epo.prior = s.epo.live ∧ u.epo.staged = s.epo.staged ∧ u.rd epoPage
      Reg.EPO_EPO_LIVE_NUMBER = Reg.EPO_EPO_LIVE_NUMBER.cut (s.rd epoPage Reg.EPO_EPO_PRIOR_NUMBER) ∧ u.rd epoPage Reg.EPO_EQX_STAT_SWITCHING = 1) ∧
  (∀ (t : Nat) (page : Fin 4096) (stamp : SubTick) (s : State), (page.val ∈ s.epo.todo) → s.gated = false → (s.eqxTick ≤ (s.advance t).tick) → (blkOf
      page ≠ some .ctx) → s.blockReady page = true → Gives (.blockSwitch t page stamp) s fun u => page.val ∉ u.epo.todo ∧ u.rd page
      Reg.PG_STAT_IN_EPOCH = b2n ((s.usedPages s.liveImg).contains page.val)) ∧
  (∀ (t : Nat) (page : Fin 4096) (stamp : SubTick) (s : State), (page.val ∈ s.epo.todo) → s.gated = false → (s.eqxTick ≤ (s.advance t).tick) → (blkOf
      page = some .ctx) → ((s.xfc (instOf page)).prev = none) → ((s.advance t).ctxReady (instOf page) = true) → Gives (.blockSwitch t page stamp) s
      fun u => page.val ∉ u.epo.todo ∧ (u.actx (instOf page)).running = imgRuns s.liveImg (instOf page)) ∧
  (∀ (t : Nat) (c : Fin 1024) (s : State), ((s.actx c).running = true ∧ pg .ctx c ∈ s.epo.todo) → s.gated = false → (s.eqxTick ≤ (s.advance t).tick) →
      ((s.xfc c).prev = none) → imgRuns s.liveImg c = false → ((s.view c).held ≠ [] ∧ (s.xfc c).ending = false ∧ s.xfRuns c false = true) → ((s.actx
      c).begun = true ∧ s.restartOpen c = false ∧ s.sourceGone c = false) → Gives (.contextSwitch t c) s fun u => (u.xfc c).ending = true ∧ (u.xfc
      c).cur = none ∧ (u.view c).held = [] ∧ (u.actx c).running = true ∧ pg .ctx c ∈ u.epo.todo) ∧
  (∀ (t : Nat) (c : Fin 1024) (s : State), ((s.actx c).running = true ∧ pg .ctx c ∈ s.epo.todo) → s.gated = false → (s.eqxTick ≤ (s.advance t).tick) →
      ((s.xfc c).prev = none) → imgRuns s.liveImg c = true → s.sourceReady c = true → ((s.view c).held ≠ []) → Gives (.contextSwitch t c) s fun u =>
      pg .ctx c ∉ u.epo.todo ∧ (u.actx c).running = true) ∧
  (∀ (t : Nat) (c : Fin 1024) (s : State), ((s.actx c).running = true ∧ pg .ctx c ∈ s.epo.todo) → s.gated = false → (s.eqxTick ≤ (s.advance t).tick) →
      ((s.xfc c).prev = none) → imgRuns s.liveImg c = false → ((s.xfc c).ending = true ∧ (s.xfc c).frames = []) → Gives (.contextSwitch t c) s fun u
      => pg .ctx c ∉ u.epo.todo ∧ (u.actx c).running = false) ∧
  (∀ (t : Nat) (s s1 : State), s.on epoPage Reg.EPO_EQX_STAT_SWITCHING = true → s.gated = false → (s1 = (s.advance t).each (s.xf.ctx.map Prod.fst) (fun r
      c => (r.prevEnd c).xfSettle c (s.advance t).tick)) → (s1.epo.todo = []) → (∀ h : Fin 2, (s1.dspHead h).image = false) → (∀ x ∈ s1.xf.ctx,
      x.2.next = []) → Gives (.equinoxComplete t) s fun u => u.rd epoPage Reg.EPO_EQX_STAT_SWITCHING = 0 ∧ u.rd epoPage Reg.EPO_LAST_DONE_TICK =
      Reg.EPO_LAST_DONE_TICK.cut (s.advance t).tick ∧ u.epo.resume = none ∧ u.boot.warmAt = none) ∧
  (∀ (t : Nat) (s : State), s.on epoPage Reg.EPO_PROB_STAT_ACTIVE = true → (s.epo.probEnd ≤ (s.advance t).tick) → s.on epoPage Reg.EPO_EQX_STAT_SWITCHING
      = false → s.gated = false → Gives (.probationPass t) s fun u => u.rd epoPage Reg.EPO_PROB_STAT_ACTIVE = 0 ∧ u.rd epoPage
      Reg.EPO_PROB_STAT_PASSED = 1)

/-- Where the page runs: GO of an idle converter with no sequence in force starts a conversion of the input set; STOP of a busy one is noted; a
self-calibration starts from phase 1. A result is in CONV_DATA's last record of its input with its tick, corrected by the factors; factors
within their limits are in force, others give the nominal ones. HK_SEQUENCE with no entries stops sequencing, one that fits its period is in
force; a frame that is due schedules the next, or is late where work is in progress. Each of these completes as the clauses that name it
say: convGo, convStop, calGo, hkConversionResult, hkCalDone, hkSequenceFrame, hkSequence. -/
def Obligations.HousekeepingCommandsComplete : Prop :=
  (∀ (t : Nat) (s : State), (s.hostOpen (pg .hka 0)) → (s.on (pg .hka 0) Reg.HKA_HKA_STAT_SEQ_RUN = false) → s.hkIdle = true → (s.runs (pg .hka 0) =
      true) → Gives (.convGo t) s fun u => u.rd (pg .hka 0) Reg.HKA_HKA_STAT_BUSY = 1 ∧ u.hk.input = s.rd (pg .hka 0) Reg.HKA_CONV_CFG_INPUT ∧
      u.hk.dueAt = (s.advance t).owFree (s.rd (pg .hka 0) Reg.HKA_CONV_CFG_INPUT) + 1600 + (if s.hk.recover then 3200 else 0) + settleTicks
      (Machine.orderOf (s.rd (pg .hka 0) Reg.HKA_CONV_CFG_ORDER)) (decOf (s.rd (pg .hka 0) Reg.HKA_CONV_CFG_DEC_M1)) (s.rd (pg .hka 0)
      Reg.HKA_CONV_CFG_AVG_M1)) ∧
  (∀ (t : Nat) (s : State), (s.hostOpen (pg .hka 0)) → (s.on (pg .hka 0) Reg.HKA_HKA_STAT_SEQ_RUN = false) → (s.on (pg .hka 0) Reg.HKA_HKA_STAT_BUSY =
      true) → Gives (.convStop t) s fun u => u.hk = { s.hk with stop := true }) ∧
  (∀ (t : Nat) (s : State), (s.hostOpen (pg .hka 0)) → (s.on (pg .hka 0) Reg.HKA_HKA_STAT_SEQ_RUN = false) → (s.runs (pg .hka 0) = true) → Gives (.calGo
      t) s fun u => u.rd (pg .hka 0) Reg.HKA_HKA_STAT_CAL_BUSY = 1 ∧ u.rd (pg .hka 0) Reg.HKA_CAL_CTL_GO = 1 ∧ u.rd (pg .hka 0) Reg.HKA_HKA_STAT_BUSY
      = (if s.on (pg .hka 0) Reg.HKA_HKA_STAT_BUSY then 0 else s.rd (pg .hka 0) Reg.HKA_HKA_STAT_BUSY)) ∧
  (∀ (t : Nat) (raw : Int) (overload : Bool) (temp : BitVec 16) (s : State), (s.on (pg .hka 0) Reg.HKA_HKA_STAT_BUSY = true) → s.gated = false →
      (s.hk.dueAt ≤ (s.advance t).tick) → (s.runs (pg .hka 0) = true) → Gives (.hkConversionResult t raw overload temp) s fun u => u.rd (pg .hka 0)
      (Reg.HKA_LAST_VALID s.hk.input) = 1 ∧ u.rd (pg .hka 0) (Reg.HKA_LAST_CODE s.hk.input) = unsigned 24 (s.hkCode raw overload).1 ∧ u.rd (pg .hka 0)
      (Reg.HKA_LAST_OVR s.hk.input) = b2n (s.hkCode raw overload).2) ∧
  (∀ (t gain : Nat) (ofs : Int) (s : State), (s.on (pg .hka 0) Reg.HKA_HKA_STAT_CAL_BUSY = true) → s.gated = false → (s.hk.dueAt ≤ (s.advance t).tick) →
      Gives (.hkCalDone t ofs gain) s fun u => u.rd (pg .hka 0) Reg.HKA_HKA_STAT_CAL_VALID = 1 ∧ u.rd (pg .hka 0) Reg.HKA_HKA_STAT_CAL_NOMINAL = b2n
      (!calOk ofs gain) ∧ u.rdS (pg .hka 0) Reg.HKA_CAL_OFS_OFFSET = (if calOk ofs gain then ofs else 0) ∧ u.rd (pg .hka 0) Reg.HKA_CAL_GAIN_GAIN = if
      calOk ofs gain then gain else 0x40000000) ∧
  (∀ (t : Nat) (s : State), (s.on (pg .hka 0) Reg.HKA_HKA_STAT_SEQ_RUN = true) → (s.hk.frameAt ≤ (s.advance t).tick) → s.gated = false → s.hkIdle = true
      → (s.hk.todo = []) → (s.runs (pg .hka 0) = true) → Gives (.hkSequenceFrame t) s fun u => u.hk.frameAt = (if s.hk.late then (s.advance t).tick
      else s.hk.frameAt) + s.hk.period * 1600 ∧ u.hk.late = false) ∧
  (∀ (t : Nat) (s : State), (s.on (pg .hka 0) Reg.HKA_HKA_STAT_SEQ_RUN = true) → (s.hk.frameAt ≤ (s.advance t).tick) → s.gated = false → (s.hkIdle =
      false ∨ s.hk.todo ≠ []) → (s.runs (pg .hka 0) = true) → Gives (.hkSequenceFrame t) s fun u => u.hk = { s.hk with late := true }) ∧
  (∀ (t : Nat) (r : Fin 4) (entries : List HkEntry) (e : SvcEntry) (s : State), s.takes r 0x38 e → e.cmd.dlen = 0 → Gives (.hkSequence t r entries) s fun
      u => u.hk.seq = [] ∧ u.rd (pg .hka 0) Reg.HKA_HKA_STAT_SEQ_RUN = 0 ∧ u.svc.compl = s.completed e .success 0 0) ∧
  (∀ (t n : Nat) (r : Fin 4) (entries : List HkEntry) (e : SvcEntry) (s : State), s.takes r 0x38 e → (n = e.cmd.p1.toNat % 256) → (e.cmd.dlen.toNat = 8 *
      entries.length) → (0 < entries.length ∧ entries.length ≤ 64) → (100 ≤ e.cmd.p0.toNat ∧ e.cmd.p0.toNat ≤ 1000000) → (∀ x ∈ entries, HkEntry.ok x
      = true) → (hkLargest entries n ≤ e.cmd.p0.toNat * 64) → Gives (.hkSequence t r entries) s fun u => u.hk.seq = entries ∧ u.rd (pg .hka 0)
      Reg.HKA_HKA_STAT_SEQ_RUN = 1 ∧ u.svc.compl = s.completed e .success ((hkLargest entries n + 63) / 64) (hkFrames entries n))

/-- A crossing records the input, and where no ramp period ends and no comparator resets a ramp or blanks itself the upper half follows it with
its hysteresis. A ramp whose period is over restarts from its end. A blanking that is over ends unless another follows it, and an enable
blanking ends. A latched output whose window is blanked falls where CMP_LATCH clears it. Each of these completes as the clauses that name it
say: cmpCrossing, rampPeriodReset, cmpBlankEnd, cmpEnableBlankEnd, cmpLatchClear. -/
def Obligations.ComparatorCommandsComplete : Prop :=
  (∀ (t : Nat) (k : Fin 16) (uv : Int) (stamp : SubTick) (s : State), Gives (.cmpCrossing t k uv stamp) s fun u => (u.cmpCh k).uv = uv) ∧
  (∀ (t : Nat) (k : Fin 16) (uv : Int) (stamp : SubTick) (s : State), s.cmpOn k = true → ((s.cmpCh k).enabling = false) → (s.cmpLive = true ∧ (s.advance
      t).rampsDue (s.advance t).cmpTime = []) → (∀ r : Fin 8, s.rd (pg .cmp 0) (Reg.CMP_RAMP_CFG_RESET_SRC r) = 0) → (∀ j : Fin 16, (s.rd (pg .cmp 0)
      (Reg.CMP_CMP_CFG_BLANK_SRC j)).testBit 1 = false) → Gives (.cmpCrossing t k uv stamp) s fun u => u.cmpBit Reg.CMP_CMP_LVL_HI_NOW k = hiHalf
      (s.cmpBit Reg.CMP_CMP_LVL_HI_NOW k) (uvUnits uv) (codeUnits (s.cmpHi k (s.advance t).cmpTime)) (s.cmpHyst k)) ∧
  (∀ (t : Nat) (r : Fin 8) (s : State), (s.working (pg .cmp 0) = true) → s.rampOn r = true → (s.rd (pg .cmp 0) (Reg.CMP_RAMP_CFG_RESET_SRC r) ≠ 1) →
      (s.rd (pg .cmp 0) (Reg.CMP_RAMP_PER_PERIOD r) ≠ 0) → ((s.cmpRamp r).since < (s.advance t).cmpTime) → (((s.advance t).cmpTime - (s.cmpRamp
      r).since) % s.rd (pg .cmp 0) (Reg.CMP_RAMP_PER_PERIOD r) = 0) → Gives (.rampPeriodReset t r) s fun u => (u.cmpRamp r).val = (if 0 ≤ s.rdS (pg
      .cmp 0) (Reg.CMP_RAMP_CFG_SLOPE r) then 0 else ((s.rd (pg .cmp 0) (Reg.CMP_RAMP_CFG_LIMIT r) * 65536 : Nat) : Int)) ∧ (s.advance t).cmpTime ≤
      (u.cmpRamp r).at_) ∧
  (∀ (t : Nat) (k : Fin 16) (s : State), (s.working (pg .cmp 0) = true) → ((s.cmpCh k).blankTo ≠ 0) → ((s.cmpCh k).blankTo ≤ (s.advance t).cmpTime) →
      Gives (.cmpBlankEnd t k) s fun u => (u.cmpCh k).blankTo = 0 ∨ (s.advance t).cmpTime < (u.cmpCh k).blankTo) ∧
  (∀ (t : Nat) (k : Fin 16) (s : State), (s.working (pg .cmp 0) = true) → ((s.cmpCh k).enabling = true) → ((s.cmpCh k).enTo ≤ (s.advance t).cmpTime) →
      Gives (.cmpEnableBlankEnd t k) s fun u => (u.cmpCh k).enabling = false) ∧
  (∀ (t : Nat) (mask : BitVec 16) (k : Fin 16) (s : State), (s.hostOpen (pg .cmp 0)) → mask.getLsbD k = true → s.cmpOn k = true → ((s.cmpCh k).enabling =
      false) → (s.rd (pg .cmp 0) (Reg.CMP_CMP_CFG_LATCH k) = 1) → ((s.advance t).cmpTime < (s.cmpCh k).blankTo) → (s.cmpLive = true ∧ (s.advance
      t).rampsDue (s.advance t).cmpTime = []) → (∀ r : Fin 8, s.rd (pg .cmp 0) (Reg.CMP_RAMP_CFG_RESET_SRC r) = 0) → (∀ j : Fin 16, (s.rd (pg .cmp 0)
      (Reg.CMP_CMP_CFG_BLANK_SRC j)).testBit 1 = false) → Gives (.cmpLatchClear t mask) s fun u => u.cmpBit Reg.CMP_CMP_STAT_OUT k = false ∧ u.cmpBit
      Reg.CMP_CMP_LATCH_LAT k = false)

/-- A word received with a parity error, or that INJECT corrupts, on a hop in service counts once, and the words not acknowledged wait for a
replay; one with odd parity changes nothing. A replay received right ends it; one that is not is repeated up to three in all, then the hop
fails, its buffer is emptied, its streams lose their content and it retrains. A retrain that succeeds returns the hop, a third failure in
succession takes it out of service, which RETRAIN_NOW tries to end. INJECT corrupts the next transmissions of each hop named. The clear
leaves the counters 0. A stream watchdog within an outage of its path is logged as its consequent, any other of a silent stream raises its
event. Each of these completes as the clauses that name it say: fabricParityError, replayResult, hopRetrainDone, retrainNow, inject, fabClr,
streamWdExpiry. -/
def Obligations.FabricCommandsComplete : Prop :=
  (∀ (t : Nat) (h : Fin 64) (j : Fin 8) (words : List Word) (got : FabWord) (s : State), s.hopThere h j = true → (s.hopFailed h j = false ∧ s.hopOos h j
      = false) → ((s.hop h j).replays = 0) → (fabBad got = true ∨ (s.hop h j).inject ≠ 0) → Gives (.fabricParityError t h j words got) s fun u => u.rd
      (pg .fab h) Reg.FAB_PAR_CNT_PARITY = min (s.rd (pg .fab h) Reg.FAB_PAR_CNT_PARITY + 1) (2 ^ Reg.FAB_PAR_CNT_PARITY.width - 1) ∧ (u.hop h
      j).replays = 1 ∧ (u.hop h j).buf = (words.take 32).map fabWord) ∧
  (∀ (t : Nat) (h : Fin 64) (j : Fin 8) (words : List Word) (got : FabWord) (s : State), (fabBad got = false ∧ (s.hop h j).inject = 0) → Gives
      (.fabricParityError t h j words got) s fun u => u = s.advance t) ∧
  (∀ (t : Nat) (h : Fin 64) (j : Fin 8) (got : FabWord) (uses : List HopUse) (s : State), ((s.hop h j).replays ≠ 0) → (fabBad got = false ∧ (s.hop h
      j).inject = 0) → Gives (.replayResult t h j got uses) s fun u => u = (s.advance t).setHop h j { s.hop h j with replays := 0, buf := [] }) ∧
  (∀ (t : Nat) (h : Fin 64) (j : Fin 8) (got : FabWord) (uses : List HopUse) (s : State), ((s.hop h j).replays ≠ 0) → (fabBad got = true ∨ (s.hop h
      j).inject ≠ 0) → Gives (.replayResult t h j got uses) s fun u => (if (s.hop h j).replays < 3 then (u.hop h j).replays = (s.hop h j).replays + 1
      ∧ (u.hop h j).buf = (s.hop h j).buf else (u.hop h j).replays = 0 ∧ (u.hop h j).buf = [] ∧ (u.hop h j).retraining = true ∧ (u.hop h j).uses =
      uses ∧ u.hopFailed h j = true)) ∧
  (∀ (t : Nat) (h : Fin 64) (j : Fin 8) (s : State), ((s.hop h j).retraining = true) → Gives (.hopRetrainDone t h j true) s fun u => (u.hop h
      j).retraining = false ∧ (u.hop h j).uses = [] ∧ u.hopFailed h j = false ∧ u.hopOos h j = false) ∧
  (∀ (t : Nat) (h : Fin 64) (j : Fin 8) (s : State), ((s.hop h j).retraining = true) → s.hopOos h j = false → Gives (.hopRetrainDone t h j false) s fun u
      => (if (s.hop h j).failed + 1 < 3 then u.hop h j = { s.hop h j with failed := (s.hop h j).failed + 1 } else (u.hop h j).retraining = false ∧
      u.hopOos h j = true)) ∧
  (∀ (t : Nat) (h : Fin 64) (mask : BitVec 8) (s : State), (s.hostOpen (pg .fab h)) → Gives (.retrainNow t h mask) s fun u => ∀ j : Fin 8, mask.getLsbD j
      = true → s.hopOos h j = true → (u.hop h j).retraining = true) ∧
  (∀ (t : Nat) (h : Fin 64) (count : Fin 4) (mask : BitVec 8) (s : State), (s.hostOpen (pg .fab h)) → Gives (.inject t h count mask) s fun u => ∀ j : Fin
      8, mask.getLsbD j = true → s.hopThere h j = true → (u.hop h j).inject = (if count.val = 0 then 1 else if count.val = 3 then 4 else count.val) ∧
      (u.rd (pg .fab h) Reg.FAB_INJECT_GO).testBit j = true) ∧
  (∀ (t : Nat) (h : Fin 64) (s : State), (s.hostOpen (pg .fab h)) → Gives (.fabClr t h) s fun u => ∀ f ∈ [Reg.FAB_PAR_CNT_PARITY,
      Reg.FAB_PAR_CNT_REPLAYS, Reg.FAB_FAIL_CNT_HOP_FAILS, Reg.FAB_FAIL_CNT_RETRAINS], u.rd (pg .fab h) f = 0) ∧
  (∀ (t : Nat) (path : List (Fin 64 × Fin 8)) (use : HopUse) (x : HopSt) (s : State), s.gated = false → (∀ y ∈ path, (s.hop y.1 y.2).replays = 0) →
      (s.pathOutage path (s.advance t).tick = some x) → Gives (.streamWdExpiry t path use) s fun u => u = (s.advance t).logFault ⟨0, x.cause, true, 3,
      evId .vgl 0 2, (s.advance t).tick⟩) ∧
  (∀ (t : Nat) (path : List (Fin 64 × Fin 8)) (use : HopUse) (s : State), s.gated = false → (∀ y ∈ path, (s.hop y.1 y.2).replays = 0) → (s.pathOutage
      path (s.advance t).tick = none) → ((s.advance t).streamSilent use = true) → ((s.rd (pg .vgl 0) Reg.EV_RAW).testBit 2 = false) → Gives
      (.streamWdExpiry t path use) s fun u => (u.rd (pg .vgl 0) Reg.EV_PEND).testBit 2 = true)

/-- A vector armed is armed, or has sent its message at once. An admissible route is in the table, any other leaves it as it was. The service
controller's watchdog restarts it, and its kick restarts the watchdog. A reading older than 100 ms is stale. A health counter that is
enabled shows its value once in a millisecond. Clearing the availability count of a context takes it from the total. Each of these completes
as the clauses that name it say: vecArm, routeWrite, scWdog, scWdKick, thermStale, hcUpdate, avClr. -/
def Obligations.VigilCommandsComplete : Prop :=
  (∀ (t : Nat) (v : Fin 256) (s : State), (s.hostOpen (pg .eva 0)) → Gives (.vecArm t v) s fun u => u.vecArmed v = true ∨ Output.msix v.val ∈ u.out) ∧
  (∀ (t : Nat) (id : Fin 2048) (route : BitVec 16) (s : State), (s.hostOpen (pg .eva (id / 1024))) → Gives (.routeWrite t id route) s fun u => u.route id
      = if routeOk route.toNat then bits route.toNat 15 12 * 2 ^ 12 + bits route.toNat 7 0 else s.route id) ∧
  (∀ (t : Nat) (s : State), (s.on (pg .vgl 0) Reg.VGL_SC_WD_EN = true) → s.gated = false → s.svc.restarting = false → s.ready = true → (s.rel.scKick +
      s.rd (pg .vgl 0) Reg.VGL_SC_WD_TIMEOUT_MS * 1600000 ≤ (s.advance t).tick) → Gives (.scWdog t) s fun u => u.svc.restarting = true ∧ u.rd (pg .glb
      0) Reg.GLB_BOOT_STAT_READY = 0) ∧
  (∀ (t : Nat) (s : State), Gives (.scWdKick t true) s fun u => u.rel = { s.rel with scKick := (s.advance t).tick }) ∧
  (∀ (t : Nat) (sensor : Fin 12) (s : State), ((s.advance t).tempStale sensor = true) → (sensor.val ∉ s.rel.stale) → Gives (.thermStale t sensor) s fun u
      => u.rd (pg .hka 0) (Reg.HKA_TEMP_STALE sensor) = 1 ∧ u.rel.stale = sensor.val :: s.rel.stale) ∧
  (∀ (t : Nat) (n : Fin 16) (s : State), (s.on (pg .vgl 0) (Reg.VGL_HC_CFG_EN n) = true) → (∀ k : Fin 16, k ≠ n → s.on (pg .vgl 0) (Reg.VGL_HC_CFG_EN k)
      = false) → (s.rel.hcAt < (s.advance t).tick / 1600000) → Gives (.hcUpdate t) s fun u => u.rd (pg .vgl 0) (Reg.VGL_HC_VAL_NOW n) = unsigned
      (Reg.VGL_HC_VAL_NOW n).width ((s.advance t).hcNow n)) ∧
  (∀ (t c : Nat) (s : State), (s.hostOpen (pg .vgl 0)) → (c = s.rd (pg .vgl 0) Reg.VGL_AV_SEL_CTX) → Gives (.avClr t) s fun u => u.rd (pg .vgl 0)
      Reg.VGL_AV_TOTAL_TICKS = Reg.VGL_AV_TOTAL_TICKS.cut (s.rd (pg .vgl 0) Reg.VGL_AV_TOTAL_TICKS - smGet 0 c s.rel.avLost) ∧ smGet 0 c u.rel.avLost
      = 0)

/-- With no handover in progress, an access on port A takes effect only when its agent is OWNER, and one on port B only when its agent is OWNER,
or OWNER is a port-A code (0x00 to 0x40) and the agent is B_AGENT; so port A is closed, and B_AGENT admits nobody, while OWNER is a port-B
code. A legal write by an agent that is no DMA engine stores its word, and a word that the deposit or a spill has staged for port B is
stored in its FCLK; an access that is not legal changes no word of any bank, and is logged where its agent is no DMA engine. The words that
port B had staged before an access are written before it. -/
def Obligations.BankAccessesAreLegalOnlyForOwnerAndAgent : Prop :=
  (∀ (t owner agent : Nat) (b : Fin 64) (x : BankAcc) (s : State), (s.gated = false ∧ s.bankOn b = true ∧ s.on (pg .bnk b) Reg.BNK_BNK_OWN_BUSY = false)
      → (owner = s.rd (pg .bnk b) Reg.BNK_BNK_OWN_OWNER_ACT ∧ agent = s.rd (pg .bnk b) Reg.BNK_BNK_OWN_B_AGENT_ACT) → (x.agent.toNat ≤ 0x40) → Gives
      (.bankAccess t b (some x) none) s fun u => if x.agent.toNat = owner then (x.write = true → u.bankWord b x.word = x.data) else u.bank.words =
      ((s.advance t).bankSync b t).bank.words ∧ u.rd (pg .bnk b) Reg.BNK_BNK_ERR_VALID = 1) ∧
  (∀ (t owner agent : Nat) (b : Fin 64) (x : PortWord) (s : State), (s.gated = false ∧ s.bankOn b = true ∧ s.on (pg .bnk b) Reg.BNK_BNK_OWN_BUSY = false)
      → (owner = s.rd (pg .bnk b) Reg.BNK_BNK_OWN_OWNER_ACT ∧ agent = s.rd (pg .bnk b) Reg.BNK_BNK_OWN_B_AGENT_ACT) → (s.stagedOf b = [x] ∧ 0x60 ≤
      x.agent ∧ x.agent ≤ 0x61) → (smFind b s.bank.spill = none ∧ smGet t b s.bank.portAt < t) → Gives (.bankAccess t b none none) s fun u => if
      x.agent = owner ∨ (owner ≤ 0x40 ∧ x.agent = agent) then u.bankWord b x.word = x.data else u.bank.words = s.bank.words ∧ u.rd (pg .bnk b)
      Reg.BNK_BNK_ERR_VALID = 1) ∧
  (∀ (t owner agent : Nat) (b : Fin 64) (x : BankAcc) (s : State), (s.gated = false ∧ s.bankOn b = true ∧ s.on (pg .bnk b) Reg.BNK_BNK_OWN_BUSY = false)
      → (owner = s.rd (pg .bnk b) Reg.BNK_BNK_OWN_OWNER_ACT ∧ agent = s.rd (pg .bnk b) Reg.BNK_BNK_OWN_B_AGENT_ACT) → (0x50 ≤ x.agent.toNat ∧
      x.agent.toNat ≤ 0x5F) → (¬(x.agent.toNat = owner ∨ (owner ≤ 0x40 ∧ x.agent.toNat = agent))) → Gives (.bankAccess t b none (some x)) s fun u =>
      u.bank.words = ((s.advance t).bankSync b t).bank.words)

/-- Of a core about to execute a long-immediate bundle: once the results in flight have landed, the register whose number is DEST reads as IMM48
sign-extended to 64 bits, cut to the register's width, an m register sign-extended, an accumulator's parts in their 64 or 16 bits, LSP of st
no more than 4. DEST 88 and the reserved numbers, 59 to 63 and 89 to 127, make the bundle illegal: with interrupts off the core halts, and
ECAUSE holds the cause and the bundle. -/
def Obligations.LongImmediateWritesItsRegister : Prop :=
  (∀ (t w d v : Nat) (n : Fin 64) (ecc : CoreEcc) (s : State), s.atBundle n t w → (ecc.p ≠ 2) → (bForm w = 2 ∧ bits w 54 48 = 0) → (d = bits w 61 55 ∧ v
      = unsigned 64 (signed 48 (part w 0 48))) → (d < 59 ∨ (64 ≤ d ∧ d < 88)) → Gives (.opLi t n ecc) s fun u => (u.coreAt n).drain.getReg d = if d <
      40 then v else if d < 44 ∨ d = 58 then v % 2 ^ 16 else if d < 48 then v % 2 ^ 32 else if d < 56 ∨ d = 57 then v % 2 ^ 13 else if d = 56 then
      setPart (v % 2 ^ 13) 0 3 (min 4 (v % 8)) else if 72 ≤ d ∧ d < 80 then unsigned 64 (signed 18 v) else v % 2 ^ 18) ∧
  (∀ (t w d : Nat) (n : Fin 64) (ecc : CoreEcc) (s : State), s.atBundle n t w → (ecc.p ≠ 2) → (bForm w = 2 ∧ bits w 54 48 = 0) → (d = bits w 61 55) →
      ((59 ≤ d ∧ d < 64) ∨ 88 ≤ d) → Gives (.opIllegal t n ecc) s fun u => (u.coreAt n).ecause = BitVec.ofNat 64 (1 + (s.coreAt n).pc.toNat * 2 ^ 16)
      ∧ ((s.coreAt n).ie = false → (u.coreAt n).state = 5 ∧ (u.coreAt n).haltCause = 2))

/-- Of a core about to execute EXT with shift s, the low word of the register it writes is the bits [s+31:s] of the accumulator half plus
2^(s-1) (plus nothing when s is 0); with SAT a value outside the signed 32-bit range becomes 0x7FFF_FFFF or 0x8000_0000, without it the
value wraps. Where both halves are extracted, the word from acN.i stands above the one from acN.r, the layout of a complex word. -/
def Obligations.ExtractionRoundsAndLimits : Prop :=
  (∀ (t w k : Nat) (n : Fin 64) (ecc : CoreEcc) (re im : Int) (s : State), s.compute n t w ecc → (bMac w = false ∧ aluOp (bOpc w) = some .ext) → (k =
      bits w 44 39) → (re = ((vget (s.coreAt n).acr (bits w 49 48)).toInt + (if k = 0 then 0 else 2 ^ (k - 1))) / 2 ^ k) → (im = ((vget (s.coreAt
      n).aci (bits w 49 48)).toInt + (if k = 0 then 0 else 2 ^ (k - 1))) / 2 ^ k) → Gives (.opExt t n ecc) s fun u => ∀ lo hi : Nat, lo = (if
      w.testBit 45 then (if re < -2147483648 then 0x80000000 else if 2147483647 < re then 0x7FFFFFFF else (re % 2 ^ 32).toNat) else (re % 2 ^
      32).toNat) → hi = (if w.testBit 45 then (if im < -2147483648 then 0x80000000 else if 2147483647 < im then 0x7FFFFFFF else (im % 2 ^ 32).toNat)
      else (im % 2 ^ 32).toNat) → ((u.coreAt n).settle.gr (bGd w)).toNat % 2 ^ 32 = (if bits w 47 46 = 1 then hi else lo) ∧ (2 ≤ bits w 47 46 →
      ((u.coreAt n).settle.gr (bGd w)).toNat = lo + hi * 2 ^ 32))

/-- Of a core about to execute MAXI or MINI on a MAC unit, the other unit working on another accumulator or not at all: two bundles on, acN.r
and acN.i hold the signed value of gs[31:0] and gi where that value is strictly greater (MAXI) or strictly smaller (MINI) than acN.r was,
and what they held otherwise, so that a tie keeps the earlier index. Each of the two units can do so in one bundle. -/
def Obligations.SearchKeepsTheEarlierIndex : Prop :=
  (∀ (t w : Nat) (n : Fin 64) (ecc : CoreEcc) (k : Fin 2) (a b m : Nat) (s : State), s.compute n t w ecc → (bMac w = true ∧ macUnit w k = (6, a, b, m)) →
      ((macUnit w (1 - k.val)).1 = 0 ∨ (macUnit w (1 - k.val)).2.2.2 ≠ m) → Gives (.opMaxi t n ecc) s fun u => (vget
      ({ u.coreAt n with idx := (s.coreAt n).idx + 2 } : CoreSt).settle.acr m).toInt = (if (vget (s.coreAt n).acr m).toInt < signed 32 ((s.coreAt
      n).gr a).toNat then signed 32 ((s.coreAt n).gr a).toNat else (vget (s.coreAt n).acr m).toInt) ∧ (vget
      ({ u.coreAt n with idx := (s.coreAt n).idx + 2 } : CoreSt).settle.aci m).toInt = (if (vget (s.coreAt n).acr m).toInt < signed 32 ((s.coreAt
      n).gr a).toNat then ((s.coreAt n).gr b).toInt else (vget (s.coreAt n).aci m).toInt)) ∧
  (∀ (t w : Nat) (n : Fin 64) (ecc : CoreEcc) (k : Fin 2) (a b m : Nat) (s : State), s.compute n t w ecc → (bMac w = true ∧ macUnit w k = (7, a, b, m)) →
      ((macUnit w (1 - k.val)).1 = 0 ∨ (macUnit w (1 - k.val)).2.2.2 ≠ m) → Gives (.opMini t n ecc) s fun u => (vget
      ({ u.coreAt n with idx := (s.coreAt n).idx + 2 } : CoreSt).settle.acr m).toInt = (if signed 32 ((s.coreAt n).gr a).toNat < (vget (s.coreAt
      n).acr m).toInt then signed 32 ((s.coreAt n).gr a).toNat else (vget (s.coreAt n).acr m).toInt) ∧ (vget
      ({ u.coreAt n with idx := (s.coreAt n).idx + 2 } : CoreSt).settle.aci m).toInt = (if signed 32 ((s.coreAt n).gr a).toNat < (vget (s.coreAt
      n).acr m).toInt then ((s.coreAt n).gr b).toInt else (vget (s.coreAt n).aci m).toInt))

/-- While SEQ_RUN is 1, a BAR0 write to CONV_CFG, CONV_CTL or CAL_CTL leaves the converter and every register of the page but HOST_REFUSED and
those in which events show as they were, increments HOST_REFUSED, which stays at its largest value, and raises HOST_REFUSED. While SEQ_RUN
is 0 the write is not refused, and CONV_CFG takes its input. A read is answered either way, and the firmware's own sequence frames are not
refused. -/
def Obligations.RunningSequenceRefusesHostWrites : Prop :=
  (∀ (t : Nat) (off : BitVec 24) (data : Nat) (s : State), (s.hostOpen (pg .hka 0)) → (s.on (pg .hka 0) Reg.HKA_HKA_STAT_SEQ_RUN = true) → (off.toNat =
      pg .hka 0 * 4096 + 0x100 ∨ off.toNat = pg .hka 0 * 4096 + 0x108 ∨ off.toNat = pg .hka 0 * 4096 + 0x128) → Gives (.registerWrite t off 8 data) s
      fun u => u.hk = s.hk ∧ (∀ f ∈ hkaFields, f ≠ Reg.HKA_HKA_STAT_HOST_REFUSED → u.rd (pg .hka 0) f = s.rd (pg .hka 0) f) ∧ u.rd (pg .hka 0)
      Reg.HKA_HKA_STAT_HOST_REFUSED = min (s.rd (pg .hka 0) Reg.HKA_HKA_STAT_HOST_REFUSED + 1) 65535 ∧ (u.rd (pg .hka 0) Reg.EV_PEND).testBit 5 = true) ∧
  (∀ (t : Nat) (off : BitVec 24) (data : Nat) (s : State), (s.hostOpen (pg .hka 0)) → (s.on (pg .hka 0) Reg.HKA_HKA_STAT_SEQ_RUN = false) → (off.toNat =
      pg .hka 0 * 4096 + 0x100 ∨ off.toNat = pg .hka 0 * 4096 + 0x108 ∨ off.toNat = pg .hka 0 * 4096 + 0x128) → Gives (.registerWrite t off 8 data) s
      fun u => u.rd (pg .hka 0) Reg.HKA_HKA_STAT_HOST_REFUSED = s.rd (pg .hka 0) Reg.HKA_HKA_STAT_HOST_REFUSED ∧ (off.toNat = pg .hka 0 * 4096 + 0x100
      → u.rd (pg .hka 0) Reg.HKA_CONV_CFG_INPUT = bits (data % 2 ^ 64) 5 0)) ∧
  (∀ (t : Nat) (off : BitVec 24) (s : State), (s.hostOpen (pg .hka 0)) → (off.toNat = pg .hka 0 * 4096 + 0x100 ∨ off.toNat = pg .hka 0 * 4096 + 0x108 ∨
      off.toNat = pg .hka 0 * 4096 + 0x128) → Gives (.bar0FlaggedRead t off 8) s fun u => u =
      { s.advance t with out := .hostRead ((leBytes 8 (s.regRead (pg .hka 0) (off.toNat % 4096))).map BitVec.toNat) :: s.out }) ∧
  (∀ (t : Nat) (s : State), (s.on (pg .hka 0) Reg.HKA_HKA_STAT_SEQ_RUN = true) → Gives (.hkSequenceFrame t) s fun u => u.rd (pg .hka 0)
      Reg.HKA_HKA_STAT_HOST_REFUSED = s.rd (pg .hka 0) Reg.HKA_HKA_STAT_HOST_REFUSED)

/-- Where the queue holds a command c before the commands l, a step is exec of c on the state with l as its queue. On an empty queue a step
changes nothing, which is the model's choice (assumption log 6). -/
def Obligations.StepRunsTheFrontCommand : Prop :=
 (∀ (c : Instr) (l : List Instr) (s : State), s.pending = c :: l → step s = exec c { s with pending := l }) ∧
   ∀ s : State, s.pending = [] → step s = .next s

/-- In the state after reset every field of every page reads its reset value, and so does the active copy of a shadowed field; the tick counter
is 0; no command waits and nothing has left the part. That a byte of capture memory which nothing has written reads 0 is the model's choice
(assumption log 5). -/
def Obligations.ResetStateHoldsResetValues : Prop :=
 (∀ (p : Nat) (f : Fld), State.reset.rd p f = f.rst ∧ State.reset.rdA p f = f.rst) ∧ State.reset.tick = 0 ∧ State.reset.pending = [] ∧
   State.reset.out = [] ∧ ∀ a : Nat, State.reset.byteAt a = memDefault

/-- The state after reset meets the invariant of the model: its register file is in rising order of place, and its capture memory in rising
order of address with no byte listed that an unlisted address reads as. -/
def Obligations.ResetStateIsCanonical : Prop :=
 State.reset.Inv

/-- From every state whose register file is in rising order of place and whose capture memory is in rising order of address with no byte listed
that an unlisted address reads as, every step that answers a next state answers one of which the same holds, whatever the command. -/
def Obligations.StepsKeepCanonicalForm : Prop :=
 ∀ s u : State, s.Inv → step s = .next u → u.Inv

/-- Every command of the chapters from the register pages to acquisition that reaches at most nine parts of the state answers a next state, from
every state; and every part of the state that partsOf does not list for it is as it was: the cores, banks, memory, links, services, displays
and every other unit that the command does not name. -/
def Obligations.NarrowCommandsOfThePathKeepOtherParts : Prop :=
 ∀ (c : Instr) (s : State), chapterOf c ≤ 11 → (partsOf c).length ≤ 9 → Gives c s fun u => Only (partsOf c) s u

/-- Every command of the chapters from the services to reliability that reaches at most nine parts of the state answers a next state, from every
state; and every part of the state that partsOf does not list for it is as it was. -/
def Obligations.NarrowCommandsOfServicesAndUnitsKeepOtherParts : Prop :=
 ∀ (c : Instr) (s : State), 12 ≤ chapterOf c → (partsOf c).length ≤ 9 → Gives c s fun u => Only (partsOf c) s u

/-- Every command that reaches ten or more parts of the state answers a next state, from every state; and every part of the state that partsOf
does not list for it, the queue among them, is as it was. -/
def Obligations.WideCommandsKeepOtherParts : Prop :=
 ∀ (c : Instr) (s : State), 10 ≤ (partsOf c).length → Gives c s fun u => Only (partsOf c) s u

/-- A command to which homeOf gives a page changes registers of that page alone: every field of every other page, and the active copy of every
shadowed one, reads as before, except the access error log of GLB and the registers in which events show (EV_RAW, EV_PEND, the armed
vectors, a core's lost events, the fault log's count and the registers of a failed probation). -/
def Obligations.RegistersOfOtherPagesKeepTheirValues : Prop :=
 ∀ (c : Instr) (p : Nat) (s u : State), homeOf c = some p → exec c s = .next u → RegsOutside p s u

/-- A command that works on core n leaves every other core as it was, its event queue and pending interrupts aside, which a raised event can
reach, and every register outside core n's SCR page and the BNK pages, the registers in which events show aside. -/
def Obligations.CoreWorkLeavesOtherCoresAndRegisters : Prop :=
 ∀ (c : Instr) (n : Fin 64) (s u : State), coreOf c = some n → exec c s = .next u → CoreFrame n s u

/-- A command that keepsBytes names leaves every byte of capture memory as it was. A command that recordsOnly names changes no byte but those of
the 32-byte places of the contexts' almanac rings, each at the address that the model places a record at. -/
def Obligations.CaptureBytesStayUnlessStored : Prop :=
 (∀ (c : Instr) (s u : State) (a : Nat), keepsBytes c = true → exec c s = .next u → u.byteAt a = s.byteAt a) ∧
   ∀ (c : Instr) (s u : State) (a : Nat), recordsOnly c = true → exec c s = .next u → u.byteAt a ≠ s.byteAt a →
     ∃ k n i : Nat, i < 32 ∧ a = s.areaAddr (s.actx k).laid (s.actx k).almBase (n * 32 % (s.actx k).almBytes) + i

end ObligationList
end

