-- ==== Sys2Proof/Laws/Maps.lean ====
section
/-!
SUPPORT. Sparse maps: what a lookup finds after an update, and that every update keeps the canonical form.
-/
namespace Sys2Proof.Machine

variable {α : Type}

theorem smFind_insert_self (k : Nat) (v : α) (m : SMap α) : smFind k (smInsert k v m) = some v := by
  induction m with
  | nil => simp [smInsert, smFind]
  | cons x m ih =>
    obtain ⟨j, w⟩ := x
    unfold smInsert
    split
    · simp [smFind]
    · split <;> simp_all [smFind]

theorem smFind_insert_ne {i k : Nat} (h : i ≠ k) (v : α) (m : SMap α) : smFind i (smInsert k v m) = smFind i m := by
  induction m with
  | nil => simp [smInsert, smFind, Ne.symm h]
  | cons x m ih =>
    obtain ⟨j, w⟩ := x
    unfold smInsert
    split
    · subst_vars; simp [smFind, Ne.symm h]
    · split
      · simp [smFind, Ne.symm h]
      · simp [smFind, ih]

theorem smFind_erase_ne {i k : Nat} (h : i ≠ k) (m : SMap α) : smFind i (smErase k m) = smFind i m := by
  induction m with
  | nil => rfl
  | cons x m ih =>
    obtain ⟨j, w⟩ := x
    unfold smErase at ih ⊢
    by_cases hj : j = k
    · subst hj; simp [smFind, Ne.symm h, ih]
    · simp [hj, smFind, ih]

theorem smGet_set_ne [DecidableEq α] {i k : Nat} (h : i ≠ k) (d e v : α) (m : SMap α) :
    smGet e i (smSet d k v m) = smGet e i m := by
  unfold smGet smSet
  split <;> simp [smFind_erase_ne h, smFind_insert_ne h]

/-! Order. -/

theorem smSorted_tail {x : Nat × α} {m : SMap α} (h : smSorted (x :: m) = true) : smSorted m = true := by
  cases m with
  | nil => rfl
  | cons y m => obtain ⟨j, v⟩ := x; obtain ⟨k, w⟩ := y; simp_all [smSorted]

theorem smSorted_above {j : Nat} {v : α} {m : SMap α} (h : smSorted ((j, v) :: m) = true) : smAbove j m := by
  induction m generalizing j v with
  | nil => intro p hp; cases hp
  | cons y m ih =>
    obtain ⟨k, w⟩ := y
    simp only [smSorted, Bool.and_eq_true, decide_eq_true_eq] at h
    intro p hp
    cases hp with
    | head => exact h.1
    | tail _ hp => exact Nat.lt_trans h.1 (ih h.2 p hp)

theorem smSorted_cons {j : Nat} {v : α} {m : SMap α} (h : smAbove j m) (hm : smSorted m = true) : smSorted ((j, v) :: m) = true := by
  cases m with
  | nil => rfl
  | cons y m => obtain ⟨k, w⟩ := y; simp [smSorted, hm, h (k, w) (by simp)]

theorem smSorted_cons_iff {j : Nat} {v : α} {m : SMap α} :
    smSorted ((j, v) :: m) = true ↔ smAbove j m ∧ smSorted m = true :=
  ⟨fun h => ⟨smSorted_above h, smSorted_tail h⟩, fun h => smSorted_cons h.1 h.2⟩

theorem smFind_none_of_above {j k : Nat} (m : SMap α) (h : smAbove j m) (hk : k ≤ j) : smFind k m = none := by
  induction m with
  | nil => rfl
  | cons x m ih =>
    obtain ⟨i, v⟩ := x
    have : j < i := h (i, v) (by simp)
    have hi : i ≠ k := by omega
    simp [smFind, hi, ih (fun p hp => h p (by simp [hp]))]

theorem smFind_erase_self (k : Nat) (m : SMap α) : smFind k (smErase k m) = none := by
  induction m with
  | nil => rfl
  | cons x m ih =>
    obtain ⟨j, v⟩ := x
    unfold smErase at ih ⊢
    by_cases hj : j = k
    · simp [hj, ih]
    · simp [hj, smFind, ih]

theorem smGet_set_self [DecidableEq α] (d v : α) (k : Nat) (m : SMap α) : smGet d k (smSet d k v m) = v := by
  unfold smGet smSet
  split
  · subst_vars; simp [smFind_erase_self]
  · simp [smFind_insert_self]

theorem smAbove_erase {j k : Nat} {m : SMap α} (h : smAbove j m) : smAbove j (smErase k m) :=
  fun p hp => h p (List.mem_of_mem_filter hp)

theorem smAbove_insert {j k : Nat} {v : α} {m : SMap α} (h : smAbove j m) (hk : j < k) : smAbove j (smInsert k v m) := by
  induction m with
  | nil => intro p hp; simp [smInsert] at hp; simp [hp, hk]
  | cons x m ih =>
    obtain ⟨i, w⟩ := x
    unfold smInsert
    have ht : smAbove j m := fun p hp => h p (by simp [hp])
    have hi : j < i := h (i, w) (by simp)
    split
    · intro p hp
      cases hp with
      | head => exact hk
      | tail _ hp => exact ht p hp
    · split
      · intro p hp
        cases hp with
        | head => exact hk
        | tail _ hp => exact h p hp
      · intro p hp
        cases hp with
        | head => exact hi
        | tail _ hp => exact ih ht p hp

theorem smSorted_erase (k : Nat) {m : SMap α} (h : smSorted m = true) : smSorted (smErase k m) = true := by
  unfold smErase
  induction m with
  | nil => rfl
  | cons x m ih =>
    obtain ⟨j, v⟩ := x
    have ⟨ha, ht⟩ := smSorted_cons_iff.1 h
    rw [List.filter_cons]
    split
    · exact smSorted_cons (smAbove_erase ha) (ih ht)
    · exact ih ht

theorem smSorted_insert (k : Nat) (v : α) {m : SMap α} (h : smSorted m = true) : smSorted (smInsert k v m) = true := by
  induction m with
  | nil => rfl
  | cons x m ih =>
    obtain ⟨j, w⟩ := x
    have ⟨ha, ht⟩ := smSorted_cons_iff.1 h
    unfold smInsert
    split
    · subst_vars; exact smSorted_cons ha ht
    · split
      · refine smSorted_cons ?_ h
        intro p hp
        cases hp with
        | head => assumption
        | tail _ hp => exact lt_trans ‹k < j› (ha p hp)
      · exact smSorted_cons (smAbove_insert ha (by omega)) (ih ht)

theorem smSorted_set [DecidableEq α] (d v : α) (k : Nat) {m : SMap α} (h : smSorted m = true) : smSorted (smSet d k v m) = true := by
  unfold smSet
  split
  · exact smSorted_erase k h
  · exact smSorted_insert k v h

theorem smSorted_filter (f : Nat × α → Bool) {m : SMap α} (h : smSorted m = true) : smSorted (m.filter f) = true := by
  induction m with
  | nil => rfl
  | cons x m ih =>
    obtain ⟨j, v⟩ := x
    have ⟨ha, ht⟩ := smSorted_cons_iff.1 h
    rw [List.filter_cons]
    split
    · exact smSorted_cons (fun p hp => ha p (List.mem_of_mem_filter hp)) (ih ht)
    · exact ih ht

/-! The canonical form with a default. -/

theorem smWf_iff [DecidableEq α] (d : α) (m : SMap α) : smWf d m = true ↔ smSorted m = true ∧ ∀ p ∈ m, p.2 ≠ d := by
  induction m with
  | nil => simp [smWf, smSorted]
  | cons x m ih =>
    obtain ⟨j, v⟩ := x
    cases m with
    | nil => simp [smWf, smSorted]
    | cons y m => obtain ⟨k, w⟩ := y; simp_all [smWf, smSorted]; tauto

theorem mem_erase_of {k : Nat} {p : Nat × α} {m : SMap α} (h : p ∈ smErase k m) : p ∈ m := List.mem_of_mem_filter h

theorem mem_insert_of {k : Nat} {v : α} {p : Nat × α} {m : SMap α} (h : p ∈ smInsert k v m) : p = (k, v) ∨ p ∈ m := by
  induction m with
  | nil => simp [smInsert] at h; exact .inl h
  | cons x m ih =>
    obtain ⟨j, w⟩ := x
    unfold smInsert at h
    split at h
    · cases h with
      | head => exact .inl rfl
      | tail _ h => exact .inr (.tail _ h)
    · split at h
      · cases h with
        | head => exact .inl rfl
        | tail _ h => exact .inr h
      · cases h with
        | head => simp
        | tail _ h => rcases ih h with h | h <;> simp [h]

theorem smWf_set [DecidableEq α] (d v : α) (k : Nat) {m : SMap α} (h : smWf d m = true) : smWf d (smSet d k v m) = true := by
  rw [smWf_iff] at h ⊢
  refine ⟨smSorted_set d v k h.1, fun p hp => ?_⟩
  unfold smSet at hp
  split at hp
  · exact h.2 p (mem_erase_of hp)
  · rcases mem_insert_of hp with rfl | hp
    · assumption
    · exact h.2 p hp

end Sys2Proof.Machine
end

