-- ==== Sys2Proof/Laws/Registers.lean ====
section
/-!
SUPPORT. The register file: what a field reads after a write, and that every register operation keeps the file's order.
-/
namespace Sys2Proof.Machine

theorem fkey_inj {p q : Nat} {f g : Fld} (hf : f.placed) (hg : g.placed) (h : fkey p f = fkey q g) :
    p = q ∧ f.off = g.off ∧ f.lo = g.lo := by
  obtain ⟨h1, h2⟩ := hf
  obtain ⟨h3, h4⟩ := hg
  unfold fkey at h
  omega

/-! One field. -/

theorem rd_wr_self (s : State) (p : Nat) (f : Fld) (v : Nat) : (s.wr p f v).rd p f = v % 2 ^ f.width :=
  smGet_set_self _ _ _ _

theorem rd_wr_ne {p q : Nat} {f g : Fld} (s : State) (v : Nat) (h : fkey q g ≠ fkey p f) : (s.wr p f v).rd q g = s.rd q g :=
  smGet_set_ne h _ _ _ _

theorem rd_wr_other {p q : Nat} {f g : Fld} (s : State) (v : Nat) (hf : f.placed) (hg : g.placed)
    (h : ¬(q = p ∧ g.off = f.off ∧ g.lo = f.lo)) : (s.wr p f v).rd q g = s.rd q g :=
  rd_wr_ne s v (fun e => h (by have := fkey_inj hg hf e; simpa using this))

/-- A page number is below 2^22, so the active copies stand above every field. -/
theorem rdA_wr {p q : Nat} {f g : Fld} (s : State) (v : Nat) (hp : p < 2 ^ 22) (hf : f.placed) : (s.wr p f v).rdA q g = s.rdA q g := by
  refine smGet_set_ne ?_ _ _ _ _
  obtain ⟨h1, h2⟩ := hf
  unfold akey fkey
  omega

theorem regsWf_wr {s : State} (hs : s.regsWf) (p : Nat) (f : Fld) (v : Nat) : (s.wr p f v).regsWf := smSorted_set _ _ _ hs

theorem regsWf_wrA {s : State} (hs : s.regsWf) (p : Nat) (f : Fld) (v : Nat) : (s.wrA p f v).regsWf := smSorted_set _ _ _ hs

/-! Several fields, and repeated work. -/

/-- What every step of a repetition keeps, the repetition keeps. -/
theorem each_keeps {α : Type} {P : State → Prop} {f : State → α → State} (hf : ∀ s a, P s → P (f s a)) (l : List α) {s : State}
    (hs : P s) : P (s.each l f) := by
  induction l generalizing s with
  | nil => exact hs
  | cons a l ih => exact ih (hf s a hs)

theorem when_keeps {P : State → Prop} {f : State → State} (hf : ∀ s, P s → P (f s)) (b : Bool) {s : State} (hs : P s) :
    P (s.when b f) := by
  unfold State.when
  split
  · exact hf s hs
  · exact hs

theorem wrs_keeps {P : State → Prop} {p : Nat} (hf : ∀ s f v, P s → P (s.wr p f v)) (l : List (Fld × Nat)) {s : State} (hs : P s) :
    P (s.wrs p l) := by
  induction l generalizing s with
  | nil => exact hs
  | cons a l ih => exact ih (hf s a.1 a.2 hs)

theorem regsWf_wrs {s : State} (hs : s.regsWf) (p : Nat) (l : List (Fld × Nat)) : (s.wrs p l).regsWf :=
  wrs_keeps (P := State.regsWf) (fun _ _ _ h => regsWf_wr h _ _ _) l hs

@[simp] theorem wrs_nil (s : State) (p : Nat) : s.wrs p [] = s := rfl
@[simp] theorem wrs_cons (s : State) (p : Nat) (x : Fld × Nat) (l : List (Fld × Nat)) : s.wrs p (x :: l) = (s.wr p x.1 x.2).wrs p l := rfl
@[simp] theorem each_nil {α : Type} (s : State) (f : State → α → State) : s.each [] f = s := rfl
@[simp] theorem each_cons {α : Type} (s : State) (a : α) (l : List α) (f : State → α → State) :
    s.each (a :: l) f = (f s a).each l f := rfl

end Sys2Proof.Machine
end

