-- ==== Sys2Proof/Laws/Events.lean ====
section
/-!
SUPPORT. What raising an event can do, said once: it changes registers in which events show, the aggregator's and the vigil's records, the
cores' event queues, trigger pulses on the Deltan bus and what leaves the part, and nothing else.
-/
namespace Sys2Proof.Machine

/-- What raising events can do to a state. -/
structure EvStep (s u : State) : Prop where
  rest : u = { s with rf := u.rf, ev := u.ev, rel := u.rel, core := u.core, trg := { s.trg with lineEnd := u.trg.lineEnd }, out := u.out }
  reads : ∀ q f, f.placed → evReg q f.off = false → u.rd q f = s.rd q f ∧ u.rdA q f = s.rdA q f
  keeps : s.regsWf → u.regsWf

theorem EvStep.refl (s : State) : EvStep s s := ⟨rfl, fun _ _ _ _ => ⟨rfl, rfl⟩, id⟩

theorem EvStep.trans {s u v : State} (h : EvStep s u) (k : EvStep u v) : EvStep s v where
  rest := by
    have h1 := h.rest
    have h2 := k.rest
    rw [h2, h1]
  reads q f hf he := by
    have h1 := h.reads q f hf he
    have h2 := k.reads q f hf he
    exact ⟨h2.1.trans h1.1, h2.2.trans h1.2⟩
  keeps := k.keeps ∘ h.keeps

/-- A write of a register in which events show. -/
theorem EvStep.wr (s : State) {p : Nat} {f : Fld} (v : Nat) (hp : p < 2 ^ 22) (hf : f.placed) (he : evReg p f.off = true) :
    EvStep s (s.wr p f v) where
  rest := rfl
  reads q g hg hq := by
    refine ⟨rd_wr_other s v hf hg (fun e => ?_), rdA_wr s v hp hf⟩
    obtain ⟨rfl, e, -⟩ := e
    rw [e, he] at hq
    exact absurd hq (by simp)
  keeps h := regsWf_wr h p f v

/-- A change of the aggregator, the vigil, a core, pulses on the bus, or what leaves the part. -/
theorem EvStep.free (s : State) (ev : EvSt) (rel : RelSt) (core : SMap CoreSt) (lines : SMap Nat) (out : List Output) :
    EvStep s { s with ev := ev, rel := rel, core := core, trg := { s.trg with lineEnd := lines }, out := out } :=
  ⟨rfl, fun _ _ _ _ => ⟨rfl, rfl⟩, id⟩

theorem EvStep.foldl {f : State → Nat → State} (hf : ∀ s e, EvStep s (f s e)) (l : List Nat) (s : State) : EvStep s (l.foldl f s) := by
  induction l generalizing s with
  | nil => exact .refl s
  | cons a l ih => exact (hf s a).trans (ih _)

theorem evStep_emit (s : State) (o : Output) : EvStep s (s.emit o) := .free s s.ev s.rel s.core s.trg.lineEnd (o :: s.out)

theorem evStep_setCore (s : State) (n : Nat) (c : CoreSt) : EvStep s (s.setCore n c) :=
  .free s s.ev s.rel (smSet {} n c s.core) s.trg.lineEnd s.out

theorem evStep_occur (s : State) (a b : Nat) : EvStep s (s.occur a b) :=
  .free s s.ev { s.rel with occ := ⟨a, b, s.tick⟩ :: s.rel.occ } s.core s.trg.lineEnd s.out

theorem evStep_takeCause (s : State) : EvStep s s.takeCause.2 :=
  .free s s.ev { s.rel with nextCause := nextCauseId s.rel.nextCause } s.core s.trg.lineEnd s.out

theorem evStep_logFault (s : State) (e : FlogEntry) : EvStep s (s.logFault e) :=
  (EvStep.free s s.ev { s.rel with flog := smInsert (s.rd (pg .vgl 0) Reg.VGL_FLOG_WCNT_CNT % 64) e s.rel.flog } s.core s.trg.lineEnd
    s.out).trans (.wr _ _ (by decide) (by decide) (by decide))

theorem evStep_when {f : State → State} (hf : ∀ s, EvStep s (f s)) (s : State) (b : Bool) : EvStep s (s.when b f) := by
  unfold State.when
  split
  · exact hf s
  · exact .refl s

theorem evStep_severity (s : State) (id : Nat) : EvStep s (s.severity id) := by
  unfold State.severity
  split
  · exact .refl s
  · rename_i v _
    refine EvStep.trans ?_ (evStep_when (fun s => evStep_emit s _) _ _)
    refine EvStep.trans ?_ (evStep_when (fun s => evStep_logFault s _) _ _)
    have h : EvStep s ({ s with ev := { s.ev with
        raised := s.ev.raised.set (v.code - 1) (s.ev.raised.getD (v.code - 1) 0 + 1) } }.occur 8 v.code) :=
      (EvStep.free s _ s.rel s.core s.trg.lineEnd s.out).trans (evStep_occur _ _ _)
    by_cases hl : isLower id = true <;> simp only [hl, if_true, if_false, Bool.false_eq_true]
    · exact h.trans (evStep_takeCause _)
    · exact h

/-- Pages of the map lie below 4,096. -/
theorem evPage_lt (id : Nat) : evPage id < 4096 := by
  unfold evPage
  unfold evRow
  split
  · rename_i r hr
    have hm := List.mem_of_find?_eq_some hr
    have hp := List.find?_some hr
    simp only [Bool.and_eq_true, decide_eq_true_eq] at hp
    have hb : ∀ r ∈ pageRows, r.first + r.count ≤ 2368 := by decide
    have := hb r hm
    have he : 0 < r.events := by
      rcases Nat.eq_zero_or_pos r.events with h0 | h0
      · rw [h0] at hp; omega
      · exact h0
    have : (id - r.evFirst) / r.events < r.count := by
      rw [Nat.div_lt_iff_lt_mul he]; omega
    omega
  · omega

theorem evPage_small (id : Nat) : evPage id < 2 ^ 22 := lt_trans (evPage_lt id) (by decide)

theorem evStep_setPend (s : State) (id : Nat) : EvStep s (s.setPend id) :=
  .wr s _ (evPage_small id) (by decide) (by simp [evReg, Reg.EV_PEND])

theorem evStep_evqPush (s : State) (n id : Nat) (hn : n < 64) : EvStep s (s.evqPush n id) := by
  unfold State.evqPush
  simp only []
  split
  · exact evStep_setCore _ _ _
  · have h : ∀ n : Fin 64, evReg (pg .scr n) 0x140 = true := by decide
    exact .wr s _ (by simp [pg, firstPage]; omega) (by decide) (h ⟨n, hn⟩)

theorem evStep_setVecArmed (s : State) (v : Nat) (hv : v < 256) (b : Bool) : EvStep s (s.setVecArmed v b) := by
  refine .wr s _ (by decide) ?_ ?_
  · simp only [Fld.placed, Reg.EVA_VEC_ARM_ARM]; omega
  · have h : ∀ q : Fin 4, evReg (pg .eva 0) (0x180 + 8 * q.val) = true := by decide
    exact h ⟨v / 64, by omega⟩

theorem evStep_msixSend (s : State) (v : Nat) (hv : v < 256) : EvStep s (s.msixSend v) := by
  unfold State.msixSend
  split
  · exact (evStep_setVecArmed s v hv false).trans (evStep_emit _ _)
  · exact .free s _ s.rel s.core s.trg.lineEnd s.out

theorem evStep_deltanPulse (s : State) (k : Nat) : EvStep s (s.deltanPulse k) :=
  .free s s.ev s.rel s.core _ s.out

theorem bits7_lt (n : Nat) : bits n 7 0 < 256 := by unfold bits; omega

theorem evStep_deliver (s : State) (id : Nat) : EvStep s (s.deliver id).1 := by
  have hx := bits7_lt (s.route id)
  unfold State.deliver
  simp only []
  split
  · exact .refl s
  · split
    · split
      · exact evStep_msixSend s _ hx
      · exact .refl s
    · split
      · exact evStep_evqPush s _ id ‹_›
      · exact .refl s
    · exact evStep_emit s _
    · split
      · exact evStep_deltanPulse s _
      · exact .refl s
    · exact .refl s

theorem evStep_transit (n : Nat) (s : State) (id : Nat) : EvStep s (State.transit n s id) := by
  induction n generalizing s id with
  | zero => exact .refl s
  | succ n ih =>
    unfold State.transit
    have h := (evStep_severity s id).trans (evStep_setPend _ id)
    simp only []
    split
    · exact (h.trans (evStep_deliver _ id)).trans (.foldl (fun s e => ih s e) _ _)
    · exact h

theorem evStep_failProbation (s : State) (c : Nat) : EvStep s (s.failProbation c) := by
  unfold State.failProbation
  split
  · refine EvStep.trans ?_ (evStep_transit 4 _ _)
    simp only [wrs_cons, wrs_nil]
    have w (s : State) (f : Fld) (v : Nat) (hf : f.placed) (he : evReg (pg .epo 0) f.off = true) : EvStep s (s.wr (pg .epo 0) f v) :=
      .wr s v (by decide) hf he
    exact (((((((w _ _ _ (by decide) (by decide)).trans (w _ _ _ (by decide) (by decide))).trans (w _ _ _ (by decide) (by decide))).trans
      (w _ _ _ (by decide) (by decide))).trans (w _ _ _ (by decide) (by decide))).trans (w _ _ _ (by decide) (by decide))).trans
      (w _ _ _ (by decide) (by decide))).trans ((w _ _ _ (by decide) (by decide)).trans (w _ _ _ (by decide) (by decide)))
  · exact .refl s

theorem evStep_judge (s : State) (id : Nat) : EvStep s (s.judge id) := by
  unfold State.judge
  split
  · exact evStep_failProbation s 2
  · exact .refl s

theorem evStep_raise (s : State) (id : Nat) : EvStep s (s.raise id) := by
  unfold State.raise
  split
  · exact .refl s
  · exact (evStep_transit 4 s id).trans (evStep_judge _ id)

theorem evStep_setRaw (s : State) (id : Nat) (b : Bool) : EvStep s (s.setRaw id b) := by
  have h : EvStep s (s.wr (evPage id) Reg.EV_RAW (putBit (s.rd (evPage id) Reg.EV_RAW) (evBit id) b)) :=
    .wr s _ (evPage_small id) (by decide) (by simp [evReg, Reg.EV_RAW])
  unfold State.setRaw
  simp only []
  split
  · exact (h.trans (evStep_transit 4 _ id)).trans (evStep_judge _ id)
  · exact h

theorem evStep_event (s : State) (b : Blk) (i k : Nat) : EvStep s (s.event b i k) := evStep_raise s _

theorem evStep_eventIf (s : State) (c : Bool) (b : Blk) (i k : Nat) : EvStep s (s.eventIf c b i k) := by
  unfold State.eventIf
  split
  · exact evStep_event s b i k
  · exact .refl s

end Sys2Proof.Machine
end

