-- ==== Sys2Proof/Laws/Does.lean ====
section
/-!
SUPPORT. What an operation can do to a state, said once for each: which parts it may change, and that it keeps both canonical forms. The
lemmas of Laws/Does… have one name an operation, does_<operation>; a proof about a command cites them and unfolds no operation.
-/
namespace Sys2Proof.Machine

/-- From `s` to `u` no part but those listed changes, and both canonical forms are kept. -/
structure Does (l : List Part) (s u : State) : Prop where
  only : Only l s u
  regs : s.regsWf → u.regsWf
  mem : Memory.wf s → Memory.wf u

variable {l : List Part} {r s : State}

/-- Every part of `a` is one of `l`. -/
def inParts (a l : List Part) : Bool := a.all (fun p => l.contains p)

theorem Does.refl (l : List Part) (s : State) : Does l s s := ⟨fun p _ => by cases p <;> rfl, id, id⟩

theorem Part.same_trans {s t u : State} {p : Part} (h : p.same s t) (k : p.same t u) : p.same s u := by
  cases p <;> exact Eq.trans k h

theorem Does.trans {s t u : State} (h : Does l s t) (k : Does l t u) : Does l s u :=
  ⟨fun p hp => Part.same_trans (h.only p hp) (k.only p hp), k.regs ∘ h.regs, k.mem ∘ h.mem⟩

theorem Does.mono {a : List Part} {s u : State} (h : Does a s u) (w : inParts a l = true) : Does l s u :=
  ⟨fun p hp => h.only p (fun hq => hp (by simpa using (List.all_eq_true.1 w) p hq)), h.regs, h.mem⟩

/-- An operation after others. -/
theorem Does.next {a : List Part} {t u : State} (k : Does a t u) (h : Does l s t) (w : inParts a l = true) : Does l s u :=
  h.trans (k.mono w)

/-- A state named on the way. -/
theorem Does.via (x : State) {u : State} (hx : Does l s x) (h : Does l s x → Does l s u) : Does l s u := h hx

theorem Does.ite {c : Prop} [Decidable c] {a b : State} (ha : Does l s a) (hb : Does l s b) : Does l s (if c then a else b) := by
  split
  · exact ha
  · exact hb

theorem Does.foldl {α : Type} {f : State → α → State} {t : State} (x : List α) (h : Does l s t) (hf : ∀ t a, Does l s t → Does l s (f t a)) :
    Does l s (x.foldl f t) := by
  induction x generalizing t with
  | nil => exact h
  | cons a x ih => exact ih (hf t a h)

theorem Does.each {α : Type} {f : State → α → State} {t : State} (x : List α) (h : Does l s t) (hf : ∀ t a, Does l s t → Does l s (f t a)) :
    Does l s (t.each x f) := Does.foldl x h hf

theorem Does.when {f : State → State} {t : State} (b : Bool) (h : Does l s t) (hf : ∀ t, Does l s t → Does l s (f t)) :
    Does l s (t.when b f) := by
  unfold State.when
  split
  · exact hf t h
  · exact h

theorem Does.snd {α : Type} {x : α × State} {a : α} {u : State} (e : x = (a, u)) (h : Does l s x.2) : Does l s u := by
  rw [e] at h
  exact h

theorem Does.fst {α : Type} {x : State × α} {a : α} {u : State} (e : x = (u, a)) (h : Does l s x.1) : Does l s u := by
  rw [e] at h
  exact h

/-- A change of parts other than the register file, with the listed bytes kept. -/
theorem Does.put {t u : State} (h : Does l s t) (hr : u.rf = t.rf) (hb : u.mem.bytes = t.mem.bytes) (ho : Only l t u) : Does l s u :=
  h.trans ⟨ho, fun k => by unfold State.regsWf; rw [hr]; exact k, fun k => by unfold Memory.wf; rw [hb]; exact k⟩

/-- A change of one such part. -/
theorem Does.one (p : Part) {t u : State} (h : Does l s t) (hr : u.rf = t.rf) (hb : u.mem.bytes = t.mem.bytes)
    (hu : ∀ q, q ≠ p → q.same t u) (w : l.contains p = true) : Does l s u :=
  h.put hr hb (fun q hq => hu q (fun e => hq (by subst e; simpa using w)))

theorem Does.tick {t : State} {x : Nat} (h : Does l s t) (w : l.contains .tick = true) : Does l s { t with tick := x } :=
  h.one .tick rfl rfl (by rintro ⟨⟩ hq <;> first | rfl | exact absurd rfl hq) w
theorem Does.upTime {t : State} {x : Nat} (h : Does l s t) (w : l.contains .upTime = true) : Does l s { t with upTime := x } :=
  h.one .upTime rfl rfl (by rintro ⟨⟩ hq <;> first | rfl | exact absurd rfl hq) w
theorem Does.page {t : State} {x : PageSt} (h : Does l s t) (w : l.contains .page = true) : Does l s { t with page := x } :=
  h.one .page rfl rfl (by rintro ⟨⟩ hq <;> first | rfl | exact absurd rfl hq) w
theorem Does.ev {t : State} {x : EvSt} (h : Does l s t) (w : l.contains .ev = true) : Does l s { t with ev := x } :=
  h.one .ev rfl rfl (by rintro ⟨⟩ hq <;> first | rfl | exact absurd rfl hq) w
theorem Does.rel {t : State} {x : RelSt} (h : Does l s t) (w : l.contains .rel = true) : Does l s { t with rel := x } :=
  h.one .rel rfl rfl (by rintro ⟨⟩ hq <;> first | rfl | exact absurd rfl hq) w
theorem Does.pwr {t : State} {x : PwrSt} (h : Does l s t) (w : l.contains .pwr = true) : Does l s { t with pwr := x } :=
  h.one .pwr rfl rfl (by rintro ⟨⟩ hq <;> first | rfl | exact absurd rfl hq) w
theorem Does.tio {t : State} {x : TioSt} (h : Does l s t) (w : l.contains .tio = true) : Does l s { t with tio := x } :=
  h.one .tio rfl rfl (by rintro ⟨⟩ hq <;> first | rfl | exact absurd rfl hq) w
theorem Does.acq {t : State} {x : AcqSt} (h : Does l s t) (w : l.contains .acq = true) : Does l s { t with acq := x } :=
  h.one .acq rfl rfl (by rintro ⟨⟩ hq <;> first | rfl | exact absurd rfl hq) w
theorem Does.core {t : State} {x : SMap CoreSt} (h : Does l s t) (w : l.contains .core = true) : Does l s { t with core := x } :=
  h.one .core rfl rfl (by rintro ⟨⟩ hq <;> first | rfl | exact absurd rfl hq) w
theorem Does.bank {t : State} {x : BankSt} (h : Does l s t) (w : l.contains .bank = true) : Does l s { t with bank := x } :=
  h.one .bank rfl rfl (by rintro ⟨⟩ hq <;> first | rfl | exact absurd rfl hq) w
theorem Does.epo {t : State} {x : EpoSt} (h : Does l s t) (w : l.contains .epo = true) : Does l s { t with epo := x } :=
  h.one .epo rfl rfl (by rintro ⟨⟩ hq <;> first | rfl | exact absurd rfl hq) w
theorem Does.trg {t : State} {x : TrgSt} (h : Does l s t) (w : l.contains .trg = true) : Does l s { t with trg := x } :=
  h.one .trg rfl rfl (by rintro ⟨⟩ hq <;> first | rfl | exact absurd rfl hq) w
theorem Does.xf {t : State} {x : XfSt} (h : Does l s t) (w : l.contains .xf = true) : Does l s { t with xf := x } :=
  h.one .xf rfl rfl (by rintro ⟨⟩ hq <;> first | rfl | exact absurd rfl hq) w
theorem Does.den {t : State} {x : SMap DenUnit} (h : Does l s t) (w : l.contains .den = true) : Does l s { t with den := x } :=
  h.one .den rfl rfl (by rintro ⟨⟩ hq <;> first | rfl | exact absurd rfl hq) w
theorem Does.tmp {t : State} {x : TmpSt} (h : Does l s t) (w : l.contains .tmp = true) : Does l s { t with tmp := x } :=
  h.one .tmp rfl rfl (by rintro ⟨⟩ hq <;> first | rfl | exact absurd rfl hq) w
theorem Does.dsp {t : State} {x : SMap DspHead} (h : Does l s t) (w : l.contains .dsp = true) : Does l s { t with dsp := x } :=
  h.one .dsp rfl rfl (by rintro ⟨⟩ hq <;> first | rfl | exact absurd rfl hq) w
theorem Does.ptp {t : State} {x : PtpSt} (h : Does l s t) (w : l.contains .ptp = true) : Does l s { t with ptp := x } :=
  h.one .ptp rfl rfl (by rintro ⟨⟩ hq <;> first | rfl | exact absurd rfl hq) w
theorem Does.flash {t : State} {x : FlashSt} (h : Does l s t) (w : l.contains .flash = true) : Does l s { t with flash := x } :=
  h.one .flash rfl rfl (by rintro ⟨⟩ hq <;> first | rfl | exact absurd rfl hq) w
theorem Does.boot {t : State} {x : BootSt} (h : Does l s t) (w : l.contains .boot = true) : Does l s { t with boot := x } :=
  h.one .boot rfl rfl (by rintro ⟨⟩ hq <;> first | rfl | exact absurd rfl hq) w
theorem Does.clk {t : State} {x : ClkSt} (h : Does l s t) (w : l.contains .clk = true) : Does l s { t with clk := x } :=
  h.one .clk rfl rfl (by rintro ⟨⟩ hq <;> first | rfl | exact absurd rfl hq) w
theorem Does.ing {t : State} {x : IngSt} (h : Does l s t) (w : l.contains .ing = true) : Does l s { t with ing := x } :=
  h.one .ing rfl rfl (by rintro ⟨⟩ hq <;> first | rfl | exact absurd rfl hq) w
theorem Does.svc {t : State} {x : SvcSt} (h : Does l s t) (w : l.contains .svc = true) : Does l s { t with svc := x } :=
  h.one .svc rfl rfl (by rintro ⟨⟩ hq <;> first | rfl | exact absurd rfl hq) w
theorem Does.ic {t : State} {x : SMap IcSt} (h : Does l s t) (w : l.contains .ic = true) : Does l s { t with ic := x } :=
  h.one .ic rfl rfl (by rintro ⟨⟩ hq <;> first | rfl | exact absurd rfl hq) w
theorem Does.net {t : State} {x : NetSt} (h : Does l s t) (w : l.contains .net = true) : Does l s { t with net := x } :=
  h.one .net rfl rfl (by rintro ⟨⟩ hq <;> first | rfl | exact absurd rfl hq) w
theorem Does.dlb {t : State} {x : DlbSt} (h : Does l s t) (w : l.contains .dlb = true) : Does l s { t with dlb := x } :=
  h.one .dlb rfl rfl (by rintro ⟨⟩ hq <;> first | rfl | exact absurd rfl hq) w
theorem Does.hk {t : State} {x : HkSt} (h : Does l s t) (w : l.contains .hk = true) : Does l s { t with hk := x } :=
  h.one .hk rfl rfl (by rintro ⟨⟩ hq <;> first | rfl | exact absurd rfl hq) w
theorem Does.cmp {t : State} {x : CmpSt} (h : Does l s t) (w : l.contains .cmp = true) : Does l s { t with cmp := x } :=
  h.one .cmp rfl rfl (by rintro ⟨⟩ hq <;> first | rfl | exact absurd rfl hq) w
theorem Does.pending {t : State} {x : List Instr} (h : Does l s t) (w : l.contains .pending = true) : Does l s { t with pending := x } :=
  h.one .pending rfl rfl (by rintro ⟨⟩ hq <;> first | rfl | exact absurd rfl hq) w
theorem Does.out {t : State} {x : List Output} (h : Does l s t) (w : l.contains .out = true) : Does l s { t with out := x } :=
  h.one .out rfl rfl (by rintro ⟨⟩ hq <;> first | rfl | exact absurd rfl hq) w
theorem Does.freeCnt {t : State} {x : Nat} (h : Does l s t) (w : l.contains .freeCnt = true) : Does l s { t with freeCnt := x } :=
  h.one .freeCnt rfl rfl (by rintro ⟨⟩ hq <;> first | rfl | exact absurd rfl hq) w

theorem Does.memo {t : State} {x : MemSt} (h : Does l s t) (hb : x.bytes = t.mem.bytes) (w : l.contains .mem = true) :
    Does l s { t with mem := x } :=
  h.one .mem rfl hb (by rintro ⟨⟩ hq <;> first | rfl | exact absurd rfl hq) w

theorem does_wr (s : State) (p : Nat) (f : Fld) (v : Nat) : Does [.rf] s (s.wr p f v) :=
  ⟨fun p hp => by cases p <;> first | rfl | exact absurd (by decide) hp, fun h => regsWf_wr h _ _ _, id⟩

theorem does_wrA (s : State) (p : Nat) (f : Fld) (v : Nat) : Does [.rf] s (s.wrA p f v) :=
  ⟨fun p hp => by cases p <;> first | rfl | exact absurd (by decide) hp, fun h => regsWf_wrA h _ _ _, id⟩

theorem does_setByte (s : State) (a : Nat) (b : Byte) : Does [.mem] s (s.setByte a b) :=
  ⟨fun p hp => by cases p <;> first | rfl | exact absurd (by decide) hp, id, fun h => smWf_set _ _ _ h⟩

theorem does_writeBytes (s : State) (a : Nat) (l : List Byte) : Does [.mem] s (s.writeBytes a l) := by
  induction l generalizing s a with
  | nil => exact .refl _ _
  | cons b l ih => exact (does_setByte s a b).trans (ih _ _)

theorem does_free (s : State) : Does [.freeCnt] s s.free.2 := .freeCnt (.refl _ _) rfl

theorem does_advance (s : State) (t : Nat) : Does [.tick, .upTime] s (s.advance t) := by
  unfold State.advance
  split
  · exact .tick (.refl _ _) rfl
  · exact .upTime (.refl _ _) rfl

theorem EvStep.does {s u : State} (h : EvStep s u) : Does [.rf, .ev, .rel, .core, .trg, .out] s u := by
  refine ⟨fun p hp => ?_, h.keeps, ?_⟩
  · have := h.rest
    cases p <;> first | (rw [this]; rfl) | exact absurd (by decide) hp
  · intro hm
    unfold Memory.wf
    rw [h.rest]
    exact hm

theorem does_event (s : State) (b : Blk) (i k : Nat) : Does [.rf, .ev, .rel, .core, .trg, .out] s (s.event b i k) :=
  (evStep_event s b i k).does
theorem does_raise (s : State) (i : Nat) : Does [.rf, .ev, .rel, .core, .trg, .out] s (s.raise i) :=
  (evStep_raise s i).does
theorem does_setRaw (s : State) (i : Nat) (b : Bool) : Does [.rf, .ev, .rel, .core, .trg, .out] s (s.setRaw i b) :=
  (evStep_setRaw s i b).does
theorem does_eventIf (s : State) (c : Bool) (b : Blk) (i k : Nat) : Does [.rf, .ev, .rel, .core, .trg, .out] s (s.eventIf c b i k) :=
  (evStep_eventIf s c b i k).does
theorem does_failProbation (s : State) (c : Nat) : Does [.rf, .ev, .rel, .core, .trg, .out] s (s.failProbation c) :=
  (evStep_failProbation s c).does
theorem does_judge (s : State) (c : Nat) : Does [.rf, .ev, .rel, .core, .trg, .out] s (s.judge c) :=
  (evStep_judge s c).does
theorem does_severity (s : State) (i : Nat) : Does [.rf, .ev, .rel, .core, .trg, .out] s (s.severity i) :=
  (evStep_severity s i).does
theorem does_deliver (s : State) (i : Nat) : Does [.rf, .ev, .rel, .core, .trg, .out] s (s.deliver i).1 := (evStep_deliver s i).does
theorem does_transit (n : Nat) (s : State) (i : Nat) : Does [.rf, .ev, .rel, .core, .trg, .out] s (State.transit n s i) :=
  (evStep_transit n s i).does
theorem does_takeCause (s : State) : Does [.rel] s s.takeCause.2 := .rel (.refl _ _) rfl

end Sys2Proof.Machine
end

