-- ==== Sys2Proof/Laws/PerInstr.lean ====
section
/-!
SUPPORT. For each command, a statement about it as syntax: the queue is no part that partsOf lets it change.
-/
namespace Sys2Proof.Laws.KeepsQueue
open Sys2Proof.Machine

/-- The queue is no part that the command may change. -/
abbrev Statement (i : Instr) : Prop := Part.pending ∉ partsOf i

theorem registerWrite : ∀ t off len data, Statement (.registerWrite t off len data) := fun _ _ _ _ => of_decide_eq_true rfl
theorem bar0FlaggedRead : ∀ t off len, Statement (.bar0FlaggedRead t off len) := fun _ _ _ => of_decide_eq_true rfl
theorem bar0BurstRequest : ∀ t write off bytes, Statement (.bar0BurstRequest t write off bytes) := fun _ _ _ _ => of_decide_eq_true rfl
theorem bar0HoldTimeout : ∀ t, Statement (.bar0HoldTimeout t) := fun _ => of_decide_eq_true rfl
theorem accErrLogClear : ∀ t, Statement (.accErrLogClear t) := fun _ => of_decide_eq_true rfl
theorem pgEnable : ∀ t page en, Statement (.pgEnable t page en) := fun _ _ _ => of_decide_eq_true rfl
theorem blockStop : ∀ t page, Statement (.blockStop t page) := fun _ _ => of_decide_eq_true rfl
theorem pgSrst : ∀ t page, Statement (.pgSrst t page) := fun _ _ => of_decide_eq_true rfl
theorem blockResetDone : ∀ t page, Statement (.blockResetDone t page) := fun _ _ => of_decide_eq_true rfl
theorem pstateRequest : ∀ t page ps, Statement (.pstateRequest t page ps) := fun _ _ _ => of_decide_eq_true rfl
theorem pstateDone : ∀ t page, Statement (.pstateDone t page) := fun _ _ => of_decide_eq_true rfl
theorem evPendClear : ∀ t page mask same, Statement (.evPendClear t page mask same) := fun _ _ _ _ => of_decide_eq_true rfl
theorem evEnWrite : ∀ t page en, Statement (.evEnWrite t page en) := fun _ _ _ => of_decide_eq_true rfl
theorem shadowCommit : ∀ t page groups, Statement (.shadowCommit t page groups) := fun _ _ _ => of_decide_eq_true rfl
theorem shadowAbort : ∀ t page groups, Statement (.shadowAbort t page groups) := fun _ _ _ => of_decide_eq_true rfl
theorem shadowApply : ∀ t page, Statement (.shadowApply t page) := fun _ _ => of_decide_eq_true rfl
theorem railUp : ∀ us rail full hbm, Statement (.railUp us rail full hbm) := fun _ _ _ _ => of_decide_eq_true rfl
theorem railDown : ∀ us rail below hbm, Statement (.railDown us rail below hbm) := fun _ _ _ _ => of_decide_eq_true rfl
theorem railMissing : ∀ us hbm, Statement (.railMissing us hbm) := fun _ _ => of_decide_eq_true rfl
theorem porNRelease : ∀ us, Statement (.porNRelease us) := fun _ => of_decide_eq_true rfl
theorem porNAssert : ∀ us, Statement (.porNAssert us) := fun _ => of_decide_eq_true rfl
theorem coldStart : ∀ us, Statement (.coldStart us) := fun _ => of_decide_eq_true rfl
theorem avsSet : ∀ us, Statement (.avsSet us) := fun _ => of_decide_eq_true rfl
theorem avsPoll : ∀ t mv da failed, Statement (.avsPoll t mv da failed) := fun _ _ _ _ => of_decide_eq_true rfl
theorem avsFail : ∀ us, Statement (.avsFail us) := fun _ => of_decide_eq_true rfl
theorem railWarn : ∀ t rail zone, Statement (.railWarn t rail zone) := fun _ _ _ => of_decide_eq_true rfl
theorem railFault : ∀ t rail above, Statement (.railFault t rail above) := fun _ _ _ => of_decide_eq_true rfl
theorem thermTrip : ∀ t, Statement (.thermTrip t) := fun _ => of_decide_eq_true rfl
theorem shortDetect : ∀ t j padHigh, Statement (.shortDetect t j padHigh) := fun _ _ _ => of_decide_eq_true rfl
theorem shortRetry : ∀ t j padHigh, Statement (.shortRetry t j padHigh) := fun _ _ _ => of_decide_eq_true rfl
theorem retryNow : ∀ t mask padHigh, Statement (.retryNow t mask padHigh) := fun _ _ _ => of_decide_eq_true rfl
theorem outFltDetDisable : ∀ t mask, Statement (.outFltDetDisable t mask) := fun _ _ => of_decide_eq_true rfl
theorem owStart : ∀ t, Statement (.owStart t) := fun _ => of_decide_eq_true rfl
theorem owPeriodicPass : ∀ t, Statement (.owPeriodicPass t) := fun _ => of_decide_eq_true rfl
theorem owPinTest : ∀ t pin riseMv, Statement (.owPinTest t pin riseMv) := fun _ _ _ => of_decide_eq_true rfl
theorem seqStatClear : ∀ t, Statement (.seqStatClear t) := fun _ => of_decide_eq_true rfl
theorem smbReadSeqStat : Statement .smbReadSeqStat := of_decide_eq_true rfl
theorem smbReadRailStat : Statement .smbReadRailStat := of_decide_eq_true rfl
theorem smbReadCoreTelem : Statement .smbReadCoreTelem := of_decide_eq_true rfl
theorem smbReadOutFltStat : Statement .smbReadOutFltStat := of_decide_eq_true rfl
theorem smbAlertRelease : ∀ data, Statement (.smbAlertRelease data) := fun _ => of_decide_eq_true rfl
theorem smbSeqClear : ∀ data, Statement (.smbSeqClear data) := fun _ => of_decide_eq_true rfl
theorem smbAlertResponse : Statement .smbAlertResponse := of_decide_eq_true rfl
theorem smbUnknownCommand : ∀ cmd, Statement (.smbUnknownCommand cmd) := fun _ => of_decide_eq_true rfl
theorem refLost : ∀ t samples, Statement (.refLost t samples) := fun _ _ => of_decide_eq_true rfl
theorem refPresent : ∀ t periods, Statement (.refPresent t periods) := fun _ _ => of_decide_eq_true rfl
theorem relock : ∀ t, Statement (.relock t) := fun _ => of_decide_eq_true rfl
theorem phaseLockDetect : ∀ t, Statement (.phaseLockDetect t) := fun _ => of_decide_eq_true rfl
theorem frequencyCheckDone : ∀ t w1 w2, Statement (.frequencyCheckDone t w1 w2) := fun _ _ _ => of_decide_eq_true rfl
theorem sysrefWaitExpiry : ∀ t, Statement (.sysrefWaitExpiry t) := fun _ => of_decide_eq_true rfl
theorem released : ∀ t, Statement (.released t) := fun _ => of_decide_eq_true rfl
theorem lockLost : ∀ t, Statement (.lockLost t) := fun _ => of_decide_eq_true rfl
theorem bandCal : ∀ t, Statement (.bandCal t) := fun _ => of_decide_eq_true rfl
theorem bandCalDone : ∀ t bands, Statement (.bandCalDone t bands) := fun _ _ => of_decide_eq_true rfl
theorem lockRetry : ∀ t, Statement (.lockRetry t) := fun _ => of_decide_eq_true rfl
theorem gateHoldClear : ∀ t, Statement (.gateHoldClear t) := fun _ => of_decide_eq_true rfl
theorem ftrimWrite : ∀ t target slew, Statement (.ftrimWrite t target slew) := fun _ _ _ => of_decide_eq_true rfl
theorem trimStep : ∀ t, Statement (.trimStep t) := fun _ => of_decide_eq_true rfl
theorem sysrefEdge : ∀ t phaseErr pulses falling, Statement (.sysrefEdge t phaseErr pulses falling) := fun _ _ _ _ => of_decide_eq_true rfl
theorem sysrefArm : ∀ t, Statement (.sysrefArm t) := fun _ => of_decide_eq_true rfl
theorem timebaseSnap : ∀ t, Statement (.timebaseSnap t) := fun _ => of_decide_eq_true rfl
theorem romVerifyDone : ∀ t slot flash board bands, Statement (.romVerifyDone t slot flash board bands) := fun _ _ _ _ _ => of_decide_eq_true rfl
theorem pcieLinkTrained : ∀ t speed width, Statement (.pcieLinkTrained t speed width) := fun _ _ _ => of_decide_eq_true rfl
theorem hbmStartTrainingDone : ∀ t failed, Statement (.hbmStartTrainingDone t failed) := fun _ _ => of_decide_eq_true rfl
theorem bankClearDone : ∀ t b ok, Statement (.bankClearDone t b ok) := fun _ _ _ => of_decide_eq_true rfl
theorem bootReady : ∀ t, Statement (.bootReady t) := fun _ => of_decide_eq_true rfl
theorem rstNAssert : ∀ t periods, Statement (.rstNAssert t periods) := fun _ _ => of_decide_eq_true rfl
theorem pcieHotReset : ∀ t, Statement (.pcieHotReset t) := fun _ => of_decide_eq_true rfl
theorem pePerstNAssert : ∀ t, Statement (.pePerstNAssert t) := fun _ => of_decide_eq_true rfl
theorem laneCdrLock : ∀ t lane, Statement (.laneCdrLock t lane) := fun _ _ => of_decide_eq_true rfl
theorem blockLock : ∀ t lane inverted, Statement (.blockLock t lane inverted) := fun _ _ _ => of_decide_eq_true rfl
theorem embLock : ∀ t lane, Statement (.embLock t lane) := fun _ _ => of_decide_eq_true rfl
theorem blockLockLost : ∀ t lane, Statement (.blockLockLost t lane) := fun _ _ => of_decide_eq_true rfl
theorem embLockLost : ∀ t lane, Statement (.embLockLost t lane) := fun _ _ => of_decide_eq_true rfl
theorem releasePoint : ∀ t l margins, Statement (.releasePoint t l margins) := fun _ _ _ => of_decide_eq_true rfl
theorem linkWdExpiry : ∀ t l, Statement (.linkWdExpiry t l) := fun _ _ => of_decide_eq_true rfl
theorem elasticBufferOverflow : ∀ t lane, Statement (.elasticBufferOverflow t lane) := fun _ _ => of_decide_eq_true rfl
theorem multiblockReceive : ∀ t l j release mb result errs, Statement (.multiblockReceive t l j release mb result errs) := fun _ _ _ _ _ _ _ => of_decide_eq_true rfl
theorem frameDelivery : ∀ t l frame fclk drained0 drained1, Statement (.frameDelivery t l frame fclk drained0 drained1) := fun _ _ _ _ _ _ => of_decide_eq_true rfl
theorem overrangeEpisodeEnd : ∀ t slot, Statement (.overrangeEpisodeEnd t slot) := fun _ _ => of_decide_eq_true rfl
theorem laneCntClear : ∀ t q mask, Statement (.laneCntClear t q mask) := fun _ _ _ => of_decide_eq_true rfl
theorem linkErrClear : ∀ t l, Statement (.linkErrClear t l) := fun _ _ => of_decide_eq_true rfl
theorem slotClear : ∀ t n, Statement (.slotClear t n) := fun _ _ => of_decide_eq_true rfl
theorem tier0Update : ∀ t slot est, Statement (.tier0Update t slot est) := fun _ _ _ => of_decide_eq_true rfl
theorem calTier1 : ∀ t r, Statement (.calTier1 t r) := fun _ _ => of_decide_eq_true rfl
theorem t1RunStart : ∀ t slot, Statement (.t1RunStart t slot) := fun _ _ => of_decide_eq_true rfl
theorem t1Window1End : ∀ t slot est, Statement (.t1Window1End t slot est) := fun _ _ _ => of_decide_eq_true rfl
theorem t1Window2End : ∀ t slot est, Statement (.t1Window2End t slot est) := fun _ _ _ => of_decide_eq_true rfl
theorem t1WaitExpiry : ∀ t slot, Statement (.t1WaitExpiry t slot) := fun _ _ => of_decide_eq_true rfl
theorem frameReady : ∀ t c, Statement (.frameReady t c) := fun _ _ => of_decide_eq_true rfl
theorem pipelineReadEnd : ∀ t p corr bad, Statement (.pipelineReadEnd t p corr bad) := fun _ _ _ _ => of_decide_eq_true rfl
theorem frameEmit : ∀ t c segErr, Statement (.frameEmit t c segErr) := fun _ _ _ => of_decide_eq_true rfl
theorem overloadClear : ∀ t p, Statement (.overloadClear t p) := fun _ _ => of_decide_eq_true rfl
theorem xfpClr : ∀ t p, Statement (.xfpClr t p) := fun _ _ => of_decide_eq_true rfl
theorem xfpLoadUpdate : ∀ t p, Statement (.xfpLoadUpdate t p) := fun _ _ => of_decide_eq_true rfl
theorem contextSwitch : ∀ t c, Statement (.contextSwitch t c) := fun _ _ => of_decide_eq_true rfl
theorem densityTraceAccept : ∀ t u, Statement (.densityTraceAccept t u) := fun _ _ => of_decide_eq_true rfl
theorem densityUpdate : ∀ t u unc, Statement (.densityUpdate t u unc) := fun _ _ _ => of_decide_eq_true rfl
theorem decayPassStart : ∀ t u unc, Statement (.decayPassStart t u unc) := fun _ _ _ => of_decide_eq_true rfl
theorem decayPassEnd : ∀ t u unc, Statement (.decayPassEnd t u unc) := fun _ _ _ => of_decide_eq_true rfl
theorem densityClear : ∀ t u, Statement (.densityClear t u) := fun _ _ => of_decide_eq_true rfl
theorem denClr : ∀ t u, Statement (.denClr t u) := fun _ _ => of_decide_eq_true rfl
theorem tmpReadoutStart : ∀ t j unc, Statement (.tmpReadoutStart t j unc) := fun _ _ _ => of_decide_eq_true rfl
theorem tmpFlip : ∀ t j, Statement (.tmpFlip t j) := fun _ _ => of_decide_eq_true rfl
theorem tmpWriteErr : ∀ t j, Statement (.tmpWriteErr t j) := fun _ _ => of_decide_eq_true rfl
theorem levelSourceTransition : ∀ t c l, Statement (.levelSourceTransition t c l) := fun _ _ _ => of_decide_eq_true rfl
theorem trigInEdge : ∀ t k level stamp, Statement (.trigInEdge t k level stamp) := fun _ _ _ _ => of_decide_eq_true rfl
theorem trigInAccept : ∀ t k, Statement (.trigInAccept t k) := fun _ _ => of_decide_eq_true rfl
theorem schedPulse : ∀ t n, Statement (.schedPulse t n) := fun _ _ => of_decide_eq_true rfl
theorem truInputChange : ∀ t u par, Statement (.truInputChange t u par) := fun _ _ _ => of_decide_eq_true rfl
theorem truStretchEnd : ∀ t u, Statement (.truStretchEnd t u) := fun _ _ => of_decide_eq_true rfl
theorem truPrimeExpire : ∀ t u, Statement (.truPrimeExpire t u) := fun _ _ => of_decide_eq_true rfl
theorem truHoldoffEnd : ∀ t u, Statement (.truHoldoffEnd t u) := fun _ _ => of_decide_eq_true rfl
theorem truForce : ∀ t u, Statement (.truForce t u) := fun _ _ => of_decide_eq_true rfl
theorem truClr : ∀ t u, Statement (.truClr t u) := fun _ _ => of_decide_eq_true rfl
theorem truResetState : ∀ t u, Statement (.truResetState t u) := fun _ _ => of_decide_eq_true rfl
theorem coincGroupClose : ∀ t full, Statement (.coincGroupClose t full) := fun _ _ => of_decide_eq_true rfl
theorem trigOutWidthEnd : ∀ t line, Statement (.trigOutWidthEnd t line) := fun _ _ => of_decide_eq_true rfl
theorem poutClr : ∀ t mask, Statement (.poutClr t mask) := fun _ _ => of_decide_eq_true rfl
theorem trnClr : ∀ t, Statement (.trnClr t) := fun _ => of_decide_eq_true rfl
theorem freeRunTrigger : ∀ t c, Statement (.freeRunTrigger t c) := fun _ _ => of_decide_eq_true rfl
theorem capArm : ∀ t c, Statement (.capArm t c) := fun _ _ => of_decide_eq_true rfl
theorem capDisarm : ∀ t c, Statement (.capDisarm t c) := fun _ _ => of_decide_eq_true rfl
theorem capRelease : ∀ t c, Statement (.capRelease t c) := fun _ _ => of_decide_eq_true rfl
theorem eveFull : ∀ t c, Statement (.eveFull t c) := fun _ _ => of_decide_eq_true rfl
theorem captureEnd : ∀ t c, Statement (.captureEnd t c) := fun _ _ => of_decide_eq_true rfl
theorem heldRearm : ∀ t c, Statement (.heldRearm t c) := fun _ _ => of_decide_eq_true rfl
theorem streamWriteResume : ∀ t c, Statement (.streamWriteResume t c) := fun _ _ => of_decide_eq_true rfl
theorem backpressureEnd : ∀ t c drained0 drained1, Statement (.backpressureEnd t c drained0 drained1) := fun _ _ _ _ => of_decide_eq_true rfl
theorem recordQueueFree : ∀ t c, Statement (.recordQueueFree t c) := fun _ _ => of_decide_eq_true rfl
theorem acctSnapshot : ∀ t c, Statement (.acctSnapshot t c) := fun _ _ => of_decide_eq_true rfl
theorem acqClr : ∀ t, Statement (.acqClr t) := fun _ => of_decide_eq_true rfl
theorem ringDoorbell : ∀ t r tail, Statement (.ringDoorbell t r tail) := fun _ _ _ => of_decide_eq_true rfl
theorem cqHeadRelease : ∀ t r head, Statement (.cqHeadRelease t r head) := fun _ _ _ => of_decide_eq_true rfl
theorem commandFetch : ∀ t r cmd, Statement (.commandFetch t r cmd) := fun _ _ _ => of_decide_eq_true rfl
theorem completionWrite : ∀ t r, Statement (.completionWrite t r) := fun _ _ => of_decide_eq_true rfl
theorem getInfo : ∀ t r, Statement (.getInfo t r) := fun _ _ => of_decide_eq_true rfl
theorem loadEpoch : ∀ t r, Statement (.loadEpoch t r) := fun _ _ => of_decide_eq_true rfl
theorem loadEpochDone : ∀ t img digestOk noPath, Statement (.loadEpochDone t img digestOk noPath) := fun _ _ _ _ => of_decide_eq_true rfl
theorem scheduleEquinox : ∀ t r, Statement (.scheduleEquinox t r) := fun _ _ => of_decide_eq_true rfl
theorem revertEpoch : ∀ t r, Statement (.revertEpoch t r) := fun _ _ => of_decide_eq_true rfl
theorem attest : ∀ t r, Statement (.attest t r) := fun _ _ => of_decide_eq_true rfl
theorem attestDone : ∀ t sig cert, Statement (.attestDone t sig cert) := fun _ _ _ => of_decide_eq_true rfl
theorem fwStage : ∀ t r img, Statement (.fwStage t r img) := fun _ _ _ => of_decide_eq_true rfl
theorem fwStageDone : ∀ t ok, Statement (.fwStageDone t ok) := fun _ _ => of_decide_eq_true rfl
theorem fwActivate : ∀ t r flash, Statement (.fwActivate t r flash) := fun _ _ _ => of_decide_eq_true rfl
theorem serviceRestart : ∀ t r, Statement (.serviceRestart t r) := fun _ _ => of_decide_eq_true rfl
theorem serviceRestartReady : ∀ t, Statement (.serviceRestartReady t) := fun _ => of_decide_eq_true rfl
theorem getHealth : ∀ t r, Statement (.getHealth t r) := fun _ _ => of_decide_eq_true rfl
theorem recOpen : ∀ t r members, Statement (.recOpen t r members) := fun _ _ _ => of_decide_eq_true rfl
theorem recOpenDone : ∀ t h found newId, Statement (.recOpenDone t h found newId) := fun _ _ _ _ => of_decide_eq_true rfl
theorem recStart : ∀ t r, Statement (.recStart t r) := fun _ _ => of_decide_eq_true rfl
theorem recScheduledStart : ∀ t h, Statement (.recScheduledStart t h) := fun _ _ => of_decide_eq_true rfl
theorem recStop : ∀ t r, Statement (.recStop t r) := fun _ _ => of_decide_eq_true rfl
theorem recStopDone : ∀ t h, Statement (.recStopDone t h) := fun _ _ => of_decide_eq_true rfl
theorem recClose : ∀ t r, Statement (.recClose t r) := fun _ _ => of_decide_eq_true rfl
theorem netStreamCfg : ∀ t r desc, Statement (.netStreamCfg t r desc) := fun _ _ _ => of_decide_eq_true rfl
theorem netStreamCtl : ∀ t r, Statement (.netStreamCtl t r) := fun _ _ => of_decide_eq_true rfl
theorem ptpCfg : ∀ t r cfg, Statement (.ptpCfg t r cfg) := fun _ _ _ => of_decide_eq_true rfl
theorem ptpStatus : ∀ t r, Statement (.ptpStatus t r) := fun _ _ => of_decide_eq_true rfl
theorem migrateStatus : ∀ t r, Statement (.migrateStatus t r) := fun _ _ => of_decide_eq_true rfl
theorem failmapRead : ∀ t r, Statement (.failmapRead t r) := fun _ _ => of_decide_eq_true rfl
theorem hkSequence : ∀ t r entries, Statement (.hkSequence t r entries) := fun _ _ _ => of_decide_eq_true rfl
theorem selftest : ∀ t r, Statement (.selftest t r) := fun _ _ => of_decide_eq_true rfl
theorem selftestDone : ∀ t failed, Statement (.selftestDone t failed) := fun _ _ => of_decide_eq_true rfl
theorem invalidOpcode : ∀ t r, Statement (.invalidOpcode t r) := fun _ _ => of_decide_eq_true rfl
theorem bar2Read : ∀ t off len, Statement (.bar2Read t off len) := fun _ _ _ => of_decide_eq_true rfl
theorem bar2Write : ∀ t off bytes, Statement (.bar2Write t off bytes) := fun _ _ _ => of_decide_eq_true rfl
theorem bar2Resize : ∀ t log2, Statement (.bar2Resize t log2) := fun _ _ => of_decide_eq_true rfl
theorem nvmeCmdComplete : ∀ t h m, Statement (.nvmeCmdComplete t h m) := fun _ _ _ => of_decide_eq_true rfl
theorem nvmeCmdTimeout : ∀ t h m, Statement (.nvmeCmdTimeout t h m) := fun _ _ _ => of_decide_eq_true rfl
theorem recorderFlush : ∀ t h, Statement (.recorderFlush t h) := fun _ _ => of_decide_eq_true rfl
theorem recorderProgressWd : ∀ t h, Statement (.recorderProgressWd t h) := fun _ _ => of_decide_eq_true rfl
theorem drainRead : ∀ t c str kind n, Statement (.drainRead t c str kind n) := fun _ _ _ _ _ => of_decide_eq_true rfl
theorem vitaPacketSend : ∀ t slot kind, Statement (.vitaPacketSend t slot kind) := fun _ _ _ => of_decide_eq_true rfl
theorem almanacPacketTimeout : ∀ t slot, Statement (.almanacPacketTimeout t slot) := fun _ _ => of_decide_eq_true rfl
theorem contextPacketPeriod : ∀ t slot stream, Statement (.contextPacketPeriod t slot stream) := fun _ _ _ => of_decide_eq_true rfl
theorem ethLinkDown : ∀ t p, Statement (.ethLinkDown t p) := fun _ _ => of_decide_eq_true rfl
theorem ethLinkUp : ∀ t p, Statement (.ethLinkUp t p) := fun _ _ => of_decide_eq_true rfl
theorem ethRxFrame : ∀ t p frame, Statement (.ethRxFrame t p frame) := fun _ _ _ => of_decide_eq_true rfl
theorem ptpMessageRx : ∀ t p sub msg portState locked, Statement (.ptpMessageRx t p sub msg portState locked) := fun _ _ _ _ _ _ => of_decide_eq_true rfl
theorem ptpServoCommit : ∀ t change trim, Statement (.ptpServoCommit t change trim) := fun _ _ _ => of_decide_eq_true rfl
theorem ptpMasterLoss : ∀ t, Statement (.ptpMasterLoss t) := fun _ => of_decide_eq_true rfl
theorem deltanSecondSend : ∀ t, Statement (.deltanSecondSend t) := fun _ => of_decide_eq_true rfl
theorem deltanSecondRx : ∀ t seq rp tick sec ns frac flags crcOk inverted, Statement (.deltanSecondRx t seq rp tick sec ns frac flags crcOk inverted) := fun _ _ _ _ _ _ _ _ _ _ => of_decide_eq_true rfl
theorem deltanAnswerSend : ∀ t, Statement (.deltanAnswerSend t) := fun _ => of_decide_eq_true rfl
theorem deltanAnswerRx : ∀ t p a crcOk inverted, Statement (.deltanAnswerRx t p a crcOk inverted) := fun _ _ _ _ _ => of_decide_eq_true rfl
theorem deltanDelaySend : ∀ t j, Statement (.deltanDelaySend t j) := fun _ _ => of_decide_eq_true rfl
theorem deltanDelayRx : ∀ t j delays reversed crcOk, Statement (.deltanDelayRx t j delays reversed crcOk) := fun _ _ _ _ _ => of_decide_eq_true rfl
theorem deltanAnnounceSend : ∀ t, Statement (.deltanAnnounceSend t) := fun _ => of_decide_eq_true rfl
theorem deltanAnnounceRx : ∀ t number tick last crcOk, Statement (.deltanAnnounceRx t number tick last crcOk) := fun _ _ _ _ _ => of_decide_eq_true rfl
theorem deltanAckRx : ∀ t p number accepted crcOk, Statement (.deltanAckRx t p number accepted crcOk) := fun _ _ _ _ _ => of_decide_eq_true rfl
theorem deltanAckWindowClose : ∀ t, Statement (.deltanAckWindowClose t) := fun _ => of_decide_eq_true rfl
theorem tcLost : ∀ t, Statement (.tcLost t) := fun _ => of_decide_eq_true rfl
theorem deltanTriggerEdge : ∀ t k level sub, Statement (.deltanTriggerEdge t k level sub) := fun _ _ _ _ => of_decide_eq_true rfl
theorem dlbMeasure : ∀ t, Statement (.dlbMeasure t) := fun _ => of_decide_eq_true rfl
theorem pciClr : ∀ t, Statement (.pciClr t) := fun _ => of_decide_eq_true rfl
theorem nvpClr : ∀ t p, Statement (.nvpClr t p) := fun _ _ => of_decide_eq_true rfl
theorem ethClr : ∀ t p, Statement (.ethClr t p) := fun _ _ => of_decide_eq_true rfl
theorem pcieLinkDown : ∀ t, Statement (.pcieLinkDown t) := fun _ => of_decide_eq_true rfl
theorem frameStart : ∀ t h, Statement (.frameStart t h) := fun _ _ => of_decide_eq_true rfl
theorem lineFetch : ∀ t h l line, Statement (.lineFetch t h l line) := fun _ _ _ _ => of_decide_eq_true rfl
theorem underrun : ∀ t h line x, Statement (.underrun t h line x) := fun _ _ _ _ => of_decide_eq_true rfl
theorem tagChanged : ∀ t h l line, Statement (.tagChanged t h l line) := fun _ _ _ _ => of_decide_eq_true rfl
theorem hpdChange : ∀ t h level lostLock, Statement (.hpdChange t h level lostLock) := fun _ _ _ _ => of_decide_eq_true rfl
theorem linkTrainAttempt : ∀ t h sinkRate sinkLanes, Statement (.linkTrainAttempt t h sinkRate sinkLanes) := fun _ _ _ _ => of_decide_eq_true rfl
theorem linkTrainDone : ∀ t h ok, Statement (.linkTrainDone t h ok) := fun _ _ _ => of_decide_eq_true rfl
theorem linkTrainRetry : ∀ t h, Statement (.linkTrainRetry t h) := fun _ _ => of_decide_eq_true rfl
theorem headRetrain : ∀ t h, Statement (.headRetrain t h) := fun _ _ => of_decide_eq_true rfl
theorem headClr : ∀ t h, Statement (.headClr t h) := fun _ _ => of_decide_eq_true rfl
theorem auxGo : ∀ t h i2c read lenM1 addr, Statement (.auxGo t h i2c read lenM1 addr) := fun _ _ _ _ _ _ => of_decide_eq_true rfl
theorem auxDone : ∀ t h result data, Statement (.auxDone t h result data) := fun _ _ _ _ => of_decide_eq_true rfl
theorem gammaDataWrite : ∀ t h v, Statement (.gammaDataWrite t h v) := fun _ _ _ => of_decide_eq_true rfl
theorem teEdge : ∀ t h edge, Statement (.teEdge t h edge) := fun _ _ _ => of_decide_eq_true rfl
theorem teMissing : ∀ t h, Statement (.teMissing t h) := fun _ _ => of_decide_eq_true rfl
theorem memoryRequest : ∀ t pc new pick, Statement (.memoryRequest t pc new pick) := fun _ _ _ _ => of_decide_eq_true rfl
theorem refreshDue : ∀ t pc, Statement (.refreshDue t pc) := fun _ _ => of_decide_eq_true rfl
theorem selfRefreshEntry : ∀ t ch, Statement (.selfRefreshEntry t ch) := fun _ _ => of_decide_eq_true rfl
theorem freqGo : ∀ t st sync, Statement (.freqGo t st sync) := fun _ _ _ => of_decide_eq_true rfl
theorem freqSwitchStart : ∀ t st, Statement (.freqSwitchStart t st) := fun _ _ => of_decide_eq_true rfl
theorem freqDone : ∀ t st, Statement (.freqDone t st) := fun _ _ => of_decide_eq_true rfl
theorem rowThrottleEnd : ∀ t ch cls, Statement (.rowThrottleEnd t ch cls) := fun _ _ _ => of_decide_eq_true rfl
theorem periodicTraining : ∀ t ch, Statement (.periodicTraining t ch) := fun _ _ => of_decide_eq_true rfl
theorem errorTraining : ∀ t ch, Statement (.errorTraining t ch) := fun _ _ => of_decide_eq_true rfl
theorem trainingDone : ∀ t ch ok, Statement (.trainingDone t ch ok) := fun _ _ _ => of_decide_eq_true rfl
theorem migrationStep : ∀ t ch, Statement (.migrationStep t ch) := fun _ _ => of_decide_eq_true rfl
theorem mchClr : ∀ t ch, Statement (.mchClr t ch) := fun _ _ => of_decide_eq_true rfl
theorem xlateAddr : ∀ t st addr, Statement (.xlateAddr t st addr) := fun _ _ _ => of_decide_eq_true rfl
theorem bankHandover : ∀ t b owner agent, Statement (.bankHandover t b owner agent) := fun _ _ _ _ => of_decide_eq_true rfl
theorem handoverDone : ∀ t b, Statement (.handoverDone t b) := fun _ _ => of_decide_eq_true rfl
theorem bankAccess : ∀ t b pa pb, Statement (.bankAccess t b pa pb) := fun _ _ _ _ => of_decide_eq_true rfl
theorem bankStarveLimit : ∀ t b, Statement (.bankStarveLimit t b) := fun _ _ => of_decide_eq_true rfl
theorem depositRecord : ∀ t b, Statement (.depositRecord t b) := fun _ _ => of_decide_eq_true rfl
theorem spillGo : ∀ t b unit nrowsM1 row0 dst, Statement (.spillGo t b unit nrowsM1 row0 dst) := fun _ _ _ _ _ _ => of_decide_eq_true rfl
theorem spillDone : ∀ t b, Statement (.spillDone t b) := fun _ _ => of_decide_eq_true rfl
theorem dmaGo : ∀ t d, Statement (.dmaGo t d) := fun _ _ => of_decide_eq_true rfl
theorem dmaAbort : ∀ t d, Statement (.dmaAbort t d) := fun _ _ => of_decide_eq_true rfl
theorem dmaDone : ∀ t d inFlight, Statement (.dmaDone t d inFlight) := fun _ _ _ => of_decide_eq_true rfl
theorem bnkClr : ∀ t b, Statement (.bnkClr t b) := fun _ _ => of_decide_eq_true rfl
theorem opNop : ∀ t n ecc, Statement (.opNop t n ecc) := fun _ _ _ => of_decide_eq_true rfl
theorem opAdd : ∀ t n ecc, Statement (.opAdd t n ecc) := fun _ _ _ => of_decide_eq_true rfl
theorem opSub : ∀ t n ecc, Statement (.opSub t n ecc) := fun _ _ _ => of_decide_eq_true rfl
theorem opAnd : ∀ t n ecc, Statement (.opAnd t n ecc) := fun _ _ _ => of_decide_eq_true rfl
theorem opOr : ∀ t n ecc, Statement (.opOr t n ecc) := fun _ _ _ => of_decide_eq_true rfl
theorem opXor : ∀ t n ecc, Statement (.opXor t n ecc) := fun _ _ _ => of_decide_eq_true rfl
theorem opAndn : ∀ t n ecc, Statement (.opAndn t n ecc) := fun _ _ _ => of_decide_eq_true rfl
theorem opCmp : ∀ t n ecc, Statement (.opCmp t n ecc) := fun _ _ _ => of_decide_eq_true rfl
theorem opShl : ∀ t n ecc, Statement (.opShl t n ecc) := fun _ _ _ => of_decide_eq_true rfl
theorem opShr : ∀ t n ecc, Statement (.opShr t n ecc) := fun _ _ _ => of_decide_eq_true rfl
theorem opSar : ∀ t n ecc, Statement (.opSar t n ecc) := fun _ _ _ => of_decide_eq_true rfl
theorem opMin : ∀ t n ecc, Statement (.opMin t n ecc) := fun _ _ _ => of_decide_eq_true rfl
theorem opMax : ∀ t n ecc, Statement (.opMax t n ecc) := fun _ _ _ => of_decide_eq_true rfl
theorem opTst : ∀ t n ecc, Statement (.opTst t n ecc) := fun _ _ _ => of_decide_eq_true rfl
theorem opSel : ∀ t n ecc, Statement (.opSel t n ecc) := fun _ _ _ => of_decide_eq_true rfl
theorem opAddi : ∀ t n ecc, Statement (.opAddi t n ecc) := fun _ _ _ => of_decide_eq_true rfl
theorem opCmpi : ∀ t n ecc, Statement (.opCmpi t n ecc) := fun _ _ _ => of_decide_eq_true rfl
theorem opAndi : ∀ t n ecc, Statement (.opAndi t n ecc) := fun _ _ _ => of_decide_eq_true rfl
theorem opOri : ∀ t n ecc, Statement (.opOri t n ecc) := fun _ _ _ => of_decide_eq_true rfl
theorem opCadd : ∀ t n ecc, Statement (.opCadd t n ecc) := fun _ _ _ => of_decide_eq_true rfl
theorem opCsub : ∀ t n ecc, Statement (.opCsub t n ecc) := fun _ _ _ => of_decide_eq_true rfl
theorem opCsar : ∀ t n ecc, Statement (.opCsar t n ecc) := fun _ _ _ => of_decide_eq_true rfl
theorem opConj : ∀ t n ecc, Statement (.opConj t n ecc) := fun _ _ _ => of_decide_eq_true rfl
theorem opExt : ∀ t n ecc, Statement (.opExt t n ecc) := fun _ _ _ => of_decide_eq_true rfl
theorem opAcld : ∀ t n ecc, Statement (.opAcld t n ecc) := fun _ _ _ => of_decide_eq_true rfl
theorem opAcclr : ∀ t n ecc, Statement (.opAcclr t n ecc) := fun _ _ _ => of_decide_eq_true rfl
theorem opGeta : ∀ t n ecc, Statement (.opGeta t n ecc) := fun _ _ _ => of_decide_eq_true rfl
theorem opPuta : ∀ t n ecc, Statement (.opPuta t n ecc) := fun _ _ _ => of_decide_eq_true rfl
theorem opCmul : ∀ t n ecc, Statement (.opCmul t n ecc) := fun _ _ _ => of_decide_eq_true rfl
theorem opCmac : ∀ t n ecc, Statement (.opCmac t n ecc) := fun _ _ _ => of_decide_eq_true rfl
theorem opCjmul : ∀ t n ecc, Statement (.opCjmul t n ecc) := fun _ _ _ => of_decide_eq_true rfl
theorem opCjmac : ∀ t n ecc, Statement (.opCjmac t n ecc) := fun _ _ _ => of_decide_eq_true rfl
theorem opQmac : ∀ t n ecc, Statement (.opQmac t n ecc) := fun _ _ _ => of_decide_eq_true rfl
theorem opMaxi : ∀ t n ecc, Statement (.opMaxi t n ecc) := fun _ _ _ => of_decide_eq_true rfl
theorem opMini : ∀ t n ecc, Statement (.opMini t n ecc) := fun _ _ _ => of_decide_eq_true rfl
theorem opLd : ∀ t n ecc, Statement (.opLd t n ecc) := fun _ _ _ => of_decide_eq_true rfl
theorem opSt : ∀ t n ecc, Statement (.opSt t n ecc) := fun _ _ _ => of_decide_eq_true rfl
theorem opMov : ∀ t n ecc, Statement (.opMov t n ecc) := fun _ _ _ => of_decide_eq_true rfl
theorem opPload : ∀ t n ecc, Statement (.opPload t n ecc) := fun _ _ _ => of_decide_eq_true rfl
theorem opLi : ∀ t n ecc, Statement (.opLi t n ecc) := fun _ _ _ => of_decide_eq_true rfl
theorem opCnop : ∀ t n ecc, Statement (.opCnop t n ecc) := fun _ _ _ => of_decide_eq_true rfl
theorem opBr : ∀ t n ecc, Statement (.opBr t n ecc) := fun _ _ _ => of_decide_eq_true rfl
theorem opCall : ∀ t n ecc, Statement (.opCall t n ecc) := fun _ _ _ => of_decide_eq_true rfl
theorem opJr : ∀ t n ecc, Statement (.opJr t n ecc) := fun _ _ _ => of_decide_eq_true rfl
theorem opLoop : ∀ t n ecc, Statement (.opLoop t n ecc) := fun _ _ _ => of_decide_eq_true rfl
theorem opLoopr : ∀ t n ecc, Statement (.opLoopr t n ecc) := fun _ _ _ => of_decide_eq_true rfl
theorem opBreak : ∀ t n ecc, Statement (.opBreak t n ecc) := fun _ _ _ => of_decide_eq_true rfl
theorem opReti : ∀ t n ecc, Statement (.opReti t n ecc) := fun _ _ _ => of_decide_eq_true rfl
theorem opWait : ∀ t n ecc, Statement (.opWait t n ecc) := fun _ _ _ => of_decide_eq_true rfl
theorem opSetie : ∀ t n ecc, Statement (.opSetie t n ecc) := fun _ _ _ => of_decide_eq_true rfl
theorem opIllegal : ∀ t n ecc, Statement (.opIllegal t n ecc) := fun _ _ _ => of_decide_eq_true rfl
theorem interruptEntry : ∀ t n, Statement (.interruptEntry t n) := fun _ _ => of_decide_eq_true rfl
theorem windowLoadArrive : ∀ t n, Statement (.windowLoadArrive t n) := fun _ _ => of_decide_eq_true rfl
theorem timerCompare : ∀ t n, Statement (.timerCompare t n) := fun _ _ => of_decide_eq_true rfl
theorem irqCtlWrite : ∀ t n ecc, Statement (.irqCtlWrite t n ecc) := fun _ _ _ => of_decide_eq_true rfl
theorem evqRead : ∀ t n ecc, Statement (.evqRead t n ecc) := fun _ _ _ => of_decide_eq_true rfl
theorem bnkSelWrite : ∀ t n ecc, Statement (.bnkSelWrite t n ecc) := fun _ _ _ => of_decide_eq_true rfl
theorem bnkOwnWr : ∀ t n ecc, Statement (.bnkOwnWr t n ecc) := fun _ _ _ => of_decide_eq_true rfl
theorem bnkOwnRd : ∀ t n ecc, Statement (.bnkOwnRd t n ecc) := fun _ _ _ => of_decide_eq_true rfl
theorem trigGo : ∀ t n ecc, Statement (.trigGo t n ecc) := fun _ _ _ => of_decide_eq_true rfl
theorem userGo : ∀ t n ecc, Statement (.userGo t n ecc) := fun _ _ _ => of_decide_eq_true rfl
theorem userRecordWrite : ∀ t n, Statement (.userRecordWrite t n) := fun _ _ => of_decide_eq_true rfl
theorem mbxInRead : ∀ t n ecc, Statement (.mbxInRead t n ecc) := fun _ _ _ => of_decide_eq_true rfl
theorem mbxOutStore : ∀ t n ecc, Statement (.mbxOutStore t n ecc) := fun _ _ _ => of_decide_eq_true rfl
theorem notify : ∀ t n ecc, Statement (.notify t n ecc) := fun _ _ _ => of_decide_eq_true rfl
theorem mbxInWrite : ∀ t n v, Statement (.mbxInWrite t n v) := fun _ _ _ => of_decide_eq_true rfl
theorem scrHalt : ∀ t n, Statement (.scrHalt t n) := fun _ _ => of_decide_eq_true rfl
theorem scrResume : ∀ t n, Statement (.scrResume t n) := fun _ _ => of_decide_eq_true rfl
theorem scrStep : ∀ t n ecc, Statement (.scrStep t n ecc) := fun _ _ _ => of_decide_eq_true rfl
theorem dbgDataAccess : ∀ t n write v, Statement (.dbgDataAccess t n write v) := fun _ _ _ _ => of_decide_eq_true rfl
theorem scrClr : ∀ t n, Statement (.scrClr t n) := fun _ _ => of_decide_eq_true rfl
theorem equinox : ∀ t alt, Statement (.equinox t alt) := fun _ _ => of_decide_eq_true rfl
theorem blockSwitch : ∀ t page stamp, Statement (.blockSwitch t page stamp) := fun _ _ _ => of_decide_eq_true rfl
theorem equinoxComplete : ∀ t, Statement (.equinoxComplete t) := fun _ => of_decide_eq_true rfl
theorem probationPass : ∀ t, Statement (.probationPass t) := fun _ => of_decide_eq_true rfl
theorem convGo : ∀ t, Statement (.convGo t) := fun _ => of_decide_eq_true rfl
theorem convStop : ∀ t, Statement (.convStop t) := fun _ => of_decide_eq_true rfl
theorem hkConversionResult : ∀ t raw overload temp, Statement (.hkConversionResult t raw overload temp) := fun _ _ _ _ => of_decide_eq_true rfl
theorem calGo : ∀ t, Statement (.calGo t) := fun _ => of_decide_eq_true rfl
theorem hkCalDone : ∀ t ofs gain, Statement (.hkCalDone t ofs gain) := fun _ _ _ => of_decide_eq_true rfl
theorem hkSequenceFrame : ∀ t, Statement (.hkSequenceFrame t) := fun _ => of_decide_eq_true rfl
theorem cmpCrossing : ∀ t k uv stamp, Statement (.cmpCrossing t k uv stamp) := fun _ _ _ _ => of_decide_eq_true rfl
theorem rampPeriodReset : ∀ t r, Statement (.rampPeriodReset t r) := fun _ _ => of_decide_eq_true rfl
theorem cmpBlankEnd : ∀ t k, Statement (.cmpBlankEnd t k) := fun _ _ => of_decide_eq_true rfl
theorem cmpEnableBlankEnd : ∀ t k, Statement (.cmpEnableBlankEnd t k) := fun _ _ => of_decide_eq_true rfl
theorem cmpLatchClear : ∀ t mask, Statement (.cmpLatchClear t mask) := fun _ _ => of_decide_eq_true rfl
theorem fabricParityError : ∀ t h j words got, Statement (.fabricParityError t h j words got) := fun _ _ _ _ _ => of_decide_eq_true rfl
theorem replayResult : ∀ t h j got uses, Statement (.replayResult t h j got uses) := fun _ _ _ _ _ => of_decide_eq_true rfl
theorem hopRetrainDone : ∀ t h j ok, Statement (.hopRetrainDone t h j ok) := fun _ _ _ _ => of_decide_eq_true rfl
theorem retrainNow : ∀ t h mask, Statement (.retrainNow t h mask) := fun _ _ _ => of_decide_eq_true rfl
theorem inject : ∀ t h count mask, Statement (.inject t h count mask) := fun _ _ _ _ => of_decide_eq_true rfl
theorem fabClr : ∀ t h, Statement (.fabClr t h) := fun _ _ => of_decide_eq_true rfl
theorem streamWdExpiry : ∀ t path use, Statement (.streamWdExpiry t path use) := fun _ _ _ => of_decide_eq_true rfl
theorem vecArm : ∀ t v, Statement (.vecArm t v) := fun _ _ => of_decide_eq_true rfl
theorem routeWrite : ∀ t id route, Statement (.routeWrite t id route) := fun _ _ _ => of_decide_eq_true rfl
theorem scWdog : ∀ t, Statement (.scWdog t) := fun _ => of_decide_eq_true rfl
theorem scWdKick : ∀ t fromService, Statement (.scWdKick t fromService) := fun _ _ => of_decide_eq_true rfl
theorem thermStale : ∀ t sensor, Statement (.thermStale t sensor) := fun _ _ => of_decide_eq_true rfl
theorem hcUpdate : ∀ t, Statement (.hcUpdate t) := fun _ => of_decide_eq_true rfl
theorem avClr : ∀ t, Statement (.avClr t) := fun _ => of_decide_eq_true rfl
theorem warmResetRelease : ∀ t, Statement (.warmResetRelease t) := fun _ => of_decide_eq_true rfl
theorem recScheduledStop : ∀ t h, Statement (.recScheduledStop t h) := fun _ _ => of_decide_eq_true rfl
theorem streamScheduledStartStop : ∀ t slot, Statement (.streamScheduledStartStop t slot) := fun _ _ => of_decide_eq_true rfl
theorem bar2ReadHoldTimeout : ∀ t, Statement (.bar2ReadHoldTimeout t) := fun _ => of_decide_eq_true rfl
theorem t1HoldExpiry : ∀ t slot, Statement (.t1HoldExpiry t slot) := fun _ _ => of_decide_eq_true rfl
theorem ptpMessageSend : ∀ t p kind sub, Statement (.ptpMessageSend t p kind sub) := fun _ _ _ _ => of_decide_eq_true rfl
theorem rootPortLinkDown : ∀ t p, Statement (.rootPortLinkDown t p) := fun _ _ => of_decide_eq_true rfl

end Sys2Proof.Laws.KeepsQueue
end

