-- ==== Sys2Proof/Laws/State.lean ====
section
/-!
SUPPORT. What each update of one part of the state leaves of the others: one lemma a part, so that no proof unfolds a record update.
-/
namespace Sys2Proof.Machine

/-! State.wr changes rf alone. -/

section
variable (s : State) (p : Nat) (f : Fld) (v : Nat)
@[simp] theorem State.wr_tick : (s.wr p f v).tick = s.tick := rfl
@[simp] theorem State.wr_upTime : (s.wr p f v).upTime = s.upTime := rfl
@[simp] theorem State.wr_page : (s.wr p f v).page = s.page := rfl
@[simp] theorem State.wr_ev : (s.wr p f v).ev = s.ev := rfl
@[simp] theorem State.wr_rel : (s.wr p f v).rel = s.rel := rfl
@[simp] theorem State.wr_pwr : (s.wr p f v).pwr = s.pwr := rfl
@[simp] theorem State.wr_tio : (s.wr p f v).tio = s.tio := rfl
@[simp] theorem State.wr_acq : (s.wr p f v).acq = s.acq := rfl
@[simp] theorem State.wr_core : (s.wr p f v).core = s.core := rfl
@[simp] theorem State.wr_bank : (s.wr p f v).bank = s.bank := rfl
@[simp] theorem State.wr_mem : (s.wr p f v).mem = s.mem := rfl
@[simp] theorem State.wr_epo : (s.wr p f v).epo = s.epo := rfl
@[simp] theorem State.wr_trg : (s.wr p f v).trg = s.trg := rfl
@[simp] theorem State.wr_xf : (s.wr p f v).xf = s.xf := rfl
@[simp] theorem State.wr_den : (s.wr p f v).den = s.den := rfl
@[simp] theorem State.wr_tmp : (s.wr p f v).tmp = s.tmp := rfl
@[simp] theorem State.wr_dsp : (s.wr p f v).dsp = s.dsp := rfl
@[simp] theorem State.wr_ptp : (s.wr p f v).ptp = s.ptp := rfl
@[simp] theorem State.wr_flash : (s.wr p f v).flash = s.flash := rfl
@[simp] theorem State.wr_boot : (s.wr p f v).boot = s.boot := rfl
@[simp] theorem State.wr_clk : (s.wr p f v).clk = s.clk := rfl
@[simp] theorem State.wr_ing : (s.wr p f v).ing = s.ing := rfl
@[simp] theorem State.wr_svc : (s.wr p f v).svc = s.svc := rfl
@[simp] theorem State.wr_ic : (s.wr p f v).ic = s.ic := rfl
@[simp] theorem State.wr_net : (s.wr p f v).net = s.net := rfl
@[simp] theorem State.wr_dlb : (s.wr p f v).dlb = s.dlb := rfl
@[simp] theorem State.wr_hk : (s.wr p f v).hk = s.hk := rfl
@[simp] theorem State.wr_cmp : (s.wr p f v).cmp = s.cmp := rfl
@[simp] theorem State.wr_pending : (s.wr p f v).pending = s.pending := rfl
@[simp] theorem State.wr_out : (s.wr p f v).out = s.out := rfl
@[simp] theorem State.wr_freeCnt : (s.wr p f v).freeCnt = s.freeCnt := rfl
end


/-! State.wrA changes rf alone. -/

section
variable (s : State) (p : Nat) (f : Fld) (v : Nat)
@[simp] theorem State.wrA_tick : (s.wrA p f v).tick = s.tick := rfl
@[simp] theorem State.wrA_upTime : (s.wrA p f v).upTime = s.upTime := rfl
@[simp] theorem State.wrA_page : (s.wrA p f v).page = s.page := rfl
@[simp] theorem State.wrA_ev : (s.wrA p f v).ev = s.ev := rfl
@[simp] theorem State.wrA_rel : (s.wrA p f v).rel = s.rel := rfl
@[simp] theorem State.wrA_pwr : (s.wrA p f v).pwr = s.pwr := rfl
@[simp] theorem State.wrA_tio : (s.wrA p f v).tio = s.tio := rfl
@[simp] theorem State.wrA_acq : (s.wrA p f v).acq = s.acq := rfl
@[simp] theorem State.wrA_core : (s.wrA p f v).core = s.core := rfl
@[simp] theorem State.wrA_bank : (s.wrA p f v).bank = s.bank := rfl
@[simp] theorem State.wrA_mem : (s.wrA p f v).mem = s.mem := rfl
@[simp] theorem State.wrA_epo : (s.wrA p f v).epo = s.epo := rfl
@[simp] theorem State.wrA_trg : (s.wrA p f v).trg = s.trg := rfl
@[simp] theorem State.wrA_xf : (s.wrA p f v).xf = s.xf := rfl
@[simp] theorem State.wrA_den : (s.wrA p f v).den = s.den := rfl
@[simp] theorem State.wrA_tmp : (s.wrA p f v).tmp = s.tmp := rfl
@[simp] theorem State.wrA_dsp : (s.wrA p f v).dsp = s.dsp := rfl
@[simp] theorem State.wrA_ptp : (s.wrA p f v).ptp = s.ptp := rfl
@[simp] theorem State.wrA_flash : (s.wrA p f v).flash = s.flash := rfl
@[simp] theorem State.wrA_boot : (s.wrA p f v).boot = s.boot := rfl
@[simp] theorem State.wrA_clk : (s.wrA p f v).clk = s.clk := rfl
@[simp] theorem State.wrA_ing : (s.wrA p f v).ing = s.ing := rfl
@[simp] theorem State.wrA_svc : (s.wrA p f v).svc = s.svc := rfl
@[simp] theorem State.wrA_ic : (s.wrA p f v).ic = s.ic := rfl
@[simp] theorem State.wrA_net : (s.wrA p f v).net = s.net := rfl
@[simp] theorem State.wrA_dlb : (s.wrA p f v).dlb = s.dlb := rfl
@[simp] theorem State.wrA_hk : (s.wrA p f v).hk = s.hk := rfl
@[simp] theorem State.wrA_cmp : (s.wrA p f v).cmp = s.cmp := rfl
@[simp] theorem State.wrA_pending : (s.wrA p f v).pending = s.pending := rfl
@[simp] theorem State.wrA_out : (s.wrA p f v).out = s.out := rfl
@[simp] theorem State.wrA_freeCnt : (s.wrA p f v).freeCnt = s.freeCnt := rfl
end


/-! State.emit changes out alone. -/

section
variable (s : State) (o : Output)
@[simp] theorem State.emit_rf : (s.emit o).rf = s.rf := rfl
@[simp] theorem State.emit_tick : (s.emit o).tick = s.tick := rfl
@[simp] theorem State.emit_upTime : (s.emit o).upTime = s.upTime := rfl
@[simp] theorem State.emit_page : (s.emit o).page = s.page := rfl
@[simp] theorem State.emit_ev : (s.emit o).ev = s.ev := rfl
@[simp] theorem State.emit_rel : (s.emit o).rel = s.rel := rfl
@[simp] theorem State.emit_pwr : (s.emit o).pwr = s.pwr := rfl
@[simp] theorem State.emit_tio : (s.emit o).tio = s.tio := rfl
@[simp] theorem State.emit_acq : (s.emit o).acq = s.acq := rfl
@[simp] theorem State.emit_core : (s.emit o).core = s.core := rfl
@[simp] theorem State.emit_bank : (s.emit o).bank = s.bank := rfl
@[simp] theorem State.emit_mem : (s.emit o).mem = s.mem := rfl
@[simp] theorem State.emit_epo : (s.emit o).epo = s.epo := rfl
@[simp] theorem State.emit_trg : (s.emit o).trg = s.trg := rfl
@[simp] theorem State.emit_xf : (s.emit o).xf = s.xf := rfl
@[simp] theorem State.emit_den : (s.emit o).den = s.den := rfl
@[simp] theorem State.emit_tmp : (s.emit o).tmp = s.tmp := rfl
@[simp] theorem State.emit_dsp : (s.emit o).dsp = s.dsp := rfl
@[simp] theorem State.emit_ptp : (s.emit o).ptp = s.ptp := rfl
@[simp] theorem State.emit_flash : (s.emit o).flash = s.flash := rfl
@[simp] theorem State.emit_boot : (s.emit o).boot = s.boot := rfl
@[simp] theorem State.emit_clk : (s.emit o).clk = s.clk := rfl
@[simp] theorem State.emit_ing : (s.emit o).ing = s.ing := rfl
@[simp] theorem State.emit_svc : (s.emit o).svc = s.svc := rfl
@[simp] theorem State.emit_ic : (s.emit o).ic = s.ic := rfl
@[simp] theorem State.emit_net : (s.emit o).net = s.net := rfl
@[simp] theorem State.emit_dlb : (s.emit o).dlb = s.dlb := rfl
@[simp] theorem State.emit_hk : (s.emit o).hk = s.hk := rfl
@[simp] theorem State.emit_cmp : (s.emit o).cmp = s.cmp := rfl
@[simp] theorem State.emit_pending : (s.emit o).pending = s.pending := rfl
@[simp] theorem State.emit_freeCnt : (s.emit o).freeCnt = s.freeCnt := rfl
end


/-! State.setByte changes mem alone. -/

section
variable (s : State) (a : Nat) (b : Byte)
@[simp] theorem State.setByte_rf : (s.setByte a b).rf = s.rf := rfl
@[simp] theorem State.setByte_tick : (s.setByte a b).tick = s.tick := rfl
@[simp] theorem State.setByte_upTime : (s.setByte a b).upTime = s.upTime := rfl
@[simp] theorem State.setByte_page : (s.setByte a b).page = s.page := rfl
@[simp] theorem State.setByte_ev : (s.setByte a b).ev = s.ev := rfl
@[simp] theorem State.setByte_rel : (s.setByte a b).rel = s.rel := rfl
@[simp] theorem State.setByte_pwr : (s.setByte a b).pwr = s.pwr := rfl
@[simp] theorem State.setByte_tio : (s.setByte a b).tio = s.tio := rfl
@[simp] theorem State.setByte_acq : (s.setByte a b).acq = s.acq := rfl
@[simp] theorem State.setByte_core : (s.setByte a b).core = s.core := rfl
@[simp] theorem State.setByte_bank : (s.setByte a b).bank = s.bank := rfl
@[simp] theorem State.setByte_epo : (s.setByte a b).epo = s.epo := rfl
@[simp] theorem State.setByte_trg : (s.setByte a b).trg = s.trg := rfl
@[simp] theorem State.setByte_xf : (s.setByte a b).xf = s.xf := rfl
@[simp] theorem State.setByte_den : (s.setByte a b).den = s.den := rfl
@[simp] theorem State.setByte_tmp : (s.setByte a b).tmp = s.tmp := rfl
@[simp] theorem State.setByte_dsp : (s.setByte a b).dsp = s.dsp := rfl
@[simp] theorem State.setByte_ptp : (s.setByte a b).ptp = s.ptp := rfl
@[simp] theorem State.setByte_flash : (s.setByte a b).flash = s.flash := rfl
@[simp] theorem State.setByte_boot : (s.setByte a b).boot = s.boot := rfl
@[simp] theorem State.setByte_clk : (s.setByte a b).clk = s.clk := rfl
@[simp] theorem State.setByte_ing : (s.setByte a b).ing = s.ing := rfl
@[simp] theorem State.setByte_svc : (s.setByte a b).svc = s.svc := rfl
@[simp] theorem State.setByte_ic : (s.setByte a b).ic = s.ic := rfl
@[simp] theorem State.setByte_net : (s.setByte a b).net = s.net := rfl
@[simp] theorem State.setByte_dlb : (s.setByte a b).dlb = s.dlb := rfl
@[simp] theorem State.setByte_hk : (s.setByte a b).hk = s.hk := rfl
@[simp] theorem State.setByte_cmp : (s.setByte a b).cmp = s.cmp := rfl
@[simp] theorem State.setByte_pending : (s.setByte a b).pending = s.pending := rfl
@[simp] theorem State.setByte_out : (s.setByte a b).out = s.out := rfl
@[simp] theorem State.setByte_freeCnt : (s.setByte a b).freeCnt = s.freeCnt := rfl
end


/-! State.setCore changes core alone. -/

section
variable (s : State) (n : Nat) (c : CoreSt)
@[simp] theorem State.setCore_rf : (s.setCore n c).rf = s.rf := rfl
@[simp] theorem State.setCore_tick : (s.setCore n c).tick = s.tick := rfl
@[simp] theorem State.setCore_upTime : (s.setCore n c).upTime = s.upTime := rfl
@[simp] theorem State.setCore_page : (s.setCore n c).page = s.page := rfl
@[simp] theorem State.setCore_ev : (s.setCore n c).ev = s.ev := rfl
@[simp] theorem State.setCore_rel : (s.setCore n c).rel = s.rel := rfl
@[simp] theorem State.setCore_pwr : (s.setCore n c).pwr = s.pwr := rfl
@[simp] theorem State.setCore_tio : (s.setCore n c).tio = s.tio := rfl
@[simp] theorem State.setCore_acq : (s.setCore n c).acq = s.acq := rfl
@[simp] theorem State.setCore_bank : (s.setCore n c).bank = s.bank := rfl
@[simp] theorem State.setCore_mem : (s.setCore n c).mem = s.mem := rfl
@[simp] theorem State.setCore_epo : (s.setCore n c).epo = s.epo := rfl
@[simp] theorem State.setCore_trg : (s.setCore n c).trg = s.trg := rfl
@[simp] theorem State.setCore_xf : (s.setCore n c).xf = s.xf := rfl
@[simp] theorem State.setCore_den : (s.setCore n c).den = s.den := rfl
@[simp] theorem State.setCore_tmp : (s.setCore n c).tmp = s.tmp := rfl
@[simp] theorem State.setCore_dsp : (s.setCore n c).dsp = s.dsp := rfl
@[simp] theorem State.setCore_ptp : (s.setCore n c).ptp = s.ptp := rfl
@[simp] theorem State.setCore_flash : (s.setCore n c).flash = s.flash := rfl
@[simp] theorem State.setCore_boot : (s.setCore n c).boot = s.boot := rfl
@[simp] theorem State.setCore_clk : (s.setCore n c).clk = s.clk := rfl
@[simp] theorem State.setCore_ing : (s.setCore n c).ing = s.ing := rfl
@[simp] theorem State.setCore_svc : (s.setCore n c).svc = s.svc := rfl
@[simp] theorem State.setCore_ic : (s.setCore n c).ic = s.ic := rfl
@[simp] theorem State.setCore_net : (s.setCore n c).net = s.net := rfl
@[simp] theorem State.setCore_dlb : (s.setCore n c).dlb = s.dlb := rfl
@[simp] theorem State.setCore_hk : (s.setCore n c).hk = s.hk := rfl
@[simp] theorem State.setCore_cmp : (s.setCore n c).cmp = s.cmp := rfl
@[simp] theorem State.setCore_pending : (s.setCore n c).pending = s.pending := rfl
@[simp] theorem State.setCore_out : (s.setCore n c).out = s.out := rfl
@[simp] theorem State.setCore_freeCnt : (s.setCore n c).freeCnt = s.freeCnt := rfl
end


/-! State.occur changes rel alone. -/

section
variable (s : State) (src arg : Nat)
@[simp] theorem State.occur_rf : (s.occur src arg).rf = s.rf := rfl
@[simp] theorem State.occur_tick : (s.occur src arg).tick = s.tick := rfl
@[simp] theorem State.occur_upTime : (s.occur src arg).upTime = s.upTime := rfl
@[simp] theorem State.occur_page : (s.occur src arg).page = s.page := rfl
@[simp] theorem State.occur_ev : (s.occur src arg).ev = s.ev := rfl
@[simp] theorem State.occur_pwr : (s.occur src arg).pwr = s.pwr := rfl
@[simp] theorem State.occur_tio : (s.occur src arg).tio = s.tio := rfl
@[simp] theorem State.occur_acq : (s.occur src arg).acq = s.acq := rfl
@[simp] theorem State.occur_core : (s.occur src arg).core = s.core := rfl
@[simp] theorem State.occur_bank : (s.occur src arg).bank = s.bank := rfl
@[simp] theorem State.occur_mem : (s.occur src arg).mem = s.mem := rfl
@[simp] theorem State.occur_epo : (s.occur src arg).epo = s.epo := rfl
@[simp] theorem State.occur_trg : (s.occur src arg).trg = s.trg := rfl
@[simp] theorem State.occur_xf : (s.occur src arg).xf = s.xf := rfl
@[simp] theorem State.occur_den : (s.occur src arg).den = s.den := rfl
@[simp] theorem State.occur_tmp : (s.occur src arg).tmp = s.tmp := rfl
@[simp] theorem State.occur_dsp : (s.occur src arg).dsp = s.dsp := rfl
@[simp] theorem State.occur_ptp : (s.occur src arg).ptp = s.ptp := rfl
@[simp] theorem State.occur_flash : (s.occur src arg).flash = s.flash := rfl
@[simp] theorem State.occur_boot : (s.occur src arg).boot = s.boot := rfl
@[simp] theorem State.occur_clk : (s.occur src arg).clk = s.clk := rfl
@[simp] theorem State.occur_ing : (s.occur src arg).ing = s.ing := rfl
@[simp] theorem State.occur_svc : (s.occur src arg).svc = s.svc := rfl
@[simp] theorem State.occur_ic : (s.occur src arg).ic = s.ic := rfl
@[simp] theorem State.occur_net : (s.occur src arg).net = s.net := rfl
@[simp] theorem State.occur_dlb : (s.occur src arg).dlb = s.dlb := rfl
@[simp] theorem State.occur_hk : (s.occur src arg).hk = s.hk := rfl
@[simp] theorem State.occur_cmp : (s.occur src arg).cmp = s.cmp := rfl
@[simp] theorem State.occur_pending : (s.occur src arg).pending = s.pending := rfl
@[simp] theorem State.occur_out : (s.occur src arg).out = s.out := rfl
@[simp] theorem State.occur_freeCnt : (s.occur src arg).freeCnt = s.freeCnt := rfl
end


/-! State.setActx changes acq alone. -/

section
variable (s : State) (c : Nat) (a : AcqCtx)
@[simp] theorem State.setActx_rf : (s.setActx c a).rf = s.rf := rfl
@[simp] theorem State.setActx_tick : (s.setActx c a).tick = s.tick := rfl
@[simp] theorem State.setActx_upTime : (s.setActx c a).upTime = s.upTime := rfl
@[simp] theorem State.setActx_page : (s.setActx c a).page = s.page := rfl
@[simp] theorem State.setActx_ev : (s.setActx c a).ev = s.ev := rfl
@[simp] theorem State.setActx_rel : (s.setActx c a).rel = s.rel := rfl
@[simp] theorem State.setActx_pwr : (s.setActx c a).pwr = s.pwr := rfl
@[simp] theorem State.setActx_tio : (s.setActx c a).tio = s.tio := rfl
@[simp] theorem State.setActx_core : (s.setActx c a).core = s.core := rfl
@[simp] theorem State.setActx_bank : (s.setActx c a).bank = s.bank := rfl
@[simp] theorem State.setActx_mem : (s.setActx c a).mem = s.mem := rfl
@[simp] theorem State.setActx_epo : (s.setActx c a).epo = s.epo := rfl
@[simp] theorem State.setActx_trg : (s.setActx c a).trg = s.trg := rfl
@[simp] theorem State.setActx_xf : (s.setActx c a).xf = s.xf := rfl
@[simp] theorem State.setActx_den : (s.setActx c a).den = s.den := rfl
@[simp] theorem State.setActx_tmp : (s.setActx c a).tmp = s.tmp := rfl
@[simp] theorem State.setActx_dsp : (s.setActx c a).dsp = s.dsp := rfl
@[simp] theorem State.setActx_ptp : (s.setActx c a).ptp = s.ptp := rfl
@[simp] theorem State.setActx_flash : (s.setActx c a).flash = s.flash := rfl
@[simp] theorem State.setActx_boot : (s.setActx c a).boot = s.boot := rfl
@[simp] theorem State.setActx_clk : (s.setActx c a).clk = s.clk := rfl
@[simp] theorem State.setActx_ing : (s.setActx c a).ing = s.ing := rfl
@[simp] theorem State.setActx_svc : (s.setActx c a).svc = s.svc := rfl
@[simp] theorem State.setActx_ic : (s.setActx c a).ic = s.ic := rfl
@[simp] theorem State.setActx_net : (s.setActx c a).net = s.net := rfl
@[simp] theorem State.setActx_dlb : (s.setActx c a).dlb = s.dlb := rfl
@[simp] theorem State.setActx_hk : (s.setActx c a).hk = s.hk := rfl
@[simp] theorem State.setActx_cmp : (s.setActx c a).cmp = s.cmp := rfl
@[simp] theorem State.setActx_pending : (s.setActx c a).pending = s.pending := rfl
@[simp] theorem State.setActx_out : (s.setActx c a).out = s.out := rfl
@[simp] theorem State.setActx_freeCnt : (s.setActx c a).freeCnt = s.freeCnt := rfl
end


/-! State.setXfc changes xf alone. -/

section
variable (s : State) (c : Nat) (x : XfCtx)
@[simp] theorem State.setXfc_rf : (s.setXfc c x).rf = s.rf := rfl
@[simp] theorem State.setXfc_tick : (s.setXfc c x).tick = s.tick := rfl
@[simp] theorem State.setXfc_upTime : (s.setXfc c x).upTime = s.upTime := rfl
@[simp] theorem State.setXfc_page : (s.setXfc c x).page = s.page := rfl
@[simp] theorem State.setXfc_ev : (s.setXfc c x).ev = s.ev := rfl
@[simp] theorem State.setXfc_rel : (s.setXfc c x).rel = s.rel := rfl
@[simp] theorem State.setXfc_pwr : (s.setXfc c x).pwr = s.pwr := rfl
@[simp] theorem State.setXfc_tio : (s.setXfc c x).tio = s.tio := rfl
@[simp] theorem State.setXfc_acq : (s.setXfc c x).acq = s.acq := rfl
@[simp] theorem State.setXfc_core : (s.setXfc c x).core = s.core := rfl
@[simp] theorem State.setXfc_bank : (s.setXfc c x).bank = s.bank := rfl
@[simp] theorem State.setXfc_mem : (s.setXfc c x).mem = s.mem := rfl
@[simp] theorem State.setXfc_epo : (s.setXfc c x).epo = s.epo := rfl
@[simp] theorem State.setXfc_trg : (s.setXfc c x).trg = s.trg := rfl
@[simp] theorem State.setXfc_den : (s.setXfc c x).den = s.den := rfl
@[simp] theorem State.setXfc_tmp : (s.setXfc c x).tmp = s.tmp := rfl
@[simp] theorem State.setXfc_dsp : (s.setXfc c x).dsp = s.dsp := rfl
@[simp] theorem State.setXfc_ptp : (s.setXfc c x).ptp = s.ptp := rfl
@[simp] theorem State.setXfc_flash : (s.setXfc c x).flash = s.flash := rfl
@[simp] theorem State.setXfc_boot : (s.setXfc c x).boot = s.boot := rfl
@[simp] theorem State.setXfc_clk : (s.setXfc c x).clk = s.clk := rfl
@[simp] theorem State.setXfc_ing : (s.setXfc c x).ing = s.ing := rfl
@[simp] theorem State.setXfc_svc : (s.setXfc c x).svc = s.svc := rfl
@[simp] theorem State.setXfc_ic : (s.setXfc c x).ic = s.ic := rfl
@[simp] theorem State.setXfc_net : (s.setXfc c x).net = s.net := rfl
@[simp] theorem State.setXfc_dlb : (s.setXfc c x).dlb = s.dlb := rfl
@[simp] theorem State.setXfc_hk : (s.setXfc c x).hk = s.hk := rfl
@[simp] theorem State.setXfc_cmp : (s.setXfc c x).cmp = s.cmp := rfl
@[simp] theorem State.setXfc_pending : (s.setXfc c x).pending = s.pending := rfl
@[simp] theorem State.setXfc_out : (s.setXfc c x).out = s.out := rfl
@[simp] theorem State.setXfc_freeCnt : (s.setXfc c x).freeCnt = s.freeCnt := rfl
end


/-! State.setBankWord changes bank alone. -/

section
variable (s : State) (b w : Nat) (v : Word)
@[simp] theorem State.setBankWord_rf : (s.setBankWord b w v).rf = s.rf := rfl
@[simp] theorem State.setBankWord_tick : (s.setBankWord b w v).tick = s.tick := rfl
@[simp] theorem State.setBankWord_upTime : (s.setBankWord b w v).upTime = s.upTime := rfl
@[simp] theorem State.setBankWord_page : (s.setBankWord b w v).page = s.page := rfl
@[simp] theorem State.setBankWord_ev : (s.setBankWord b w v).ev = s.ev := rfl
@[simp] theorem State.setBankWord_rel : (s.setBankWord b w v).rel = s.rel := rfl
@[simp] theorem State.setBankWord_pwr : (s.setBankWord b w v).pwr = s.pwr := rfl
@[simp] theorem State.setBankWord_tio : (s.setBankWord b w v).tio = s.tio := rfl
@[simp] theorem State.setBankWord_acq : (s.setBankWord b w v).acq = s.acq := rfl
@[simp] theorem State.setBankWord_core : (s.setBankWord b w v).core = s.core := rfl
@[simp] theorem State.setBankWord_mem : (s.setBankWord b w v).mem = s.mem := rfl
@[simp] theorem State.setBankWord_epo : (s.setBankWord b w v).epo = s.epo := rfl
@[simp] theorem State.setBankWord_trg : (s.setBankWord b w v).trg = s.trg := rfl
@[simp] theorem State.setBankWord_xf : (s.setBankWord b w v).xf = s.xf := rfl
@[simp] theorem State.setBankWord_den : (s.setBankWord b w v).den = s.den := rfl
@[simp] theorem State.setBankWord_tmp : (s.setBankWord b w v).tmp = s.tmp := rfl
@[simp] theorem State.setBankWord_dsp : (s.setBankWord b w v).dsp = s.dsp := rfl
@[simp] theorem State.setBankWord_ptp : (s.setBankWord b w v).ptp = s.ptp := rfl
@[simp] theorem State.setBankWord_flash : (s.setBankWord b w v).flash = s.flash := rfl
@[simp] theorem State.setBankWord_boot : (s.setBankWord b w v).boot = s.boot := rfl
@[simp] theorem State.setBankWord_clk : (s.setBankWord b w v).clk = s.clk := rfl
@[simp] theorem State.setBankWord_ing : (s.setBankWord b w v).ing = s.ing := rfl
@[simp] theorem State.setBankWord_svc : (s.setBankWord b w v).svc = s.svc := rfl
@[simp] theorem State.setBankWord_ic : (s.setBankWord b w v).ic = s.ic := rfl
@[simp] theorem State.setBankWord_net : (s.setBankWord b w v).net = s.net := rfl
@[simp] theorem State.setBankWord_dlb : (s.setBankWord b w v).dlb = s.dlb := rfl
@[simp] theorem State.setBankWord_hk : (s.setBankWord b w v).hk = s.hk := rfl
@[simp] theorem State.setBankWord_cmp : (s.setBankWord b w v).cmp = s.cmp := rfl
@[simp] theorem State.setBankWord_pending : (s.setBankWord b w v).pending = s.pending := rfl
@[simp] theorem State.setBankWord_out : (s.setBankWord b w v).out = s.out := rfl
@[simp] theorem State.setBankWord_freeCnt : (s.setBankWord b w v).freeCnt = s.freeCnt := rfl
end


/-! State.setLnk changes ing alone. -/

section
variable (s : State) (l : Nat) (x : LnkSt)
@[simp] theorem State.setLnk_rf : (s.setLnk l x).rf = s.rf := rfl
@[simp] theorem State.setLnk_tick : (s.setLnk l x).tick = s.tick := rfl
@[simp] theorem State.setLnk_upTime : (s.setLnk l x).upTime = s.upTime := rfl
@[simp] theorem State.setLnk_page : (s.setLnk l x).page = s.page := rfl
@[simp] theorem State.setLnk_ev : (s.setLnk l x).ev = s.ev := rfl
@[simp] theorem State.setLnk_rel : (s.setLnk l x).rel = s.rel := rfl
@[simp] theorem State.setLnk_pwr : (s.setLnk l x).pwr = s.pwr := rfl
@[simp] theorem State.setLnk_tio : (s.setLnk l x).tio = s.tio := rfl
@[simp] theorem State.setLnk_acq : (s.setLnk l x).acq = s.acq := rfl
@[simp] theorem State.setLnk_core : (s.setLnk l x).core = s.core := rfl
@[simp] theorem State.setLnk_bank : (s.setLnk l x).bank = s.bank := rfl
@[simp] theorem State.setLnk_mem : (s.setLnk l x).mem = s.mem := rfl
@[simp] theorem State.setLnk_epo : (s.setLnk l x).epo = s.epo := rfl
@[simp] theorem State.setLnk_trg : (s.setLnk l x).trg = s.trg := rfl
@[simp] theorem State.setLnk_xf : (s.setLnk l x).xf = s.xf := rfl
@[simp] theorem State.setLnk_den : (s.setLnk l x).den = s.den := rfl
@[simp] theorem State.setLnk_tmp : (s.setLnk l x).tmp = s.tmp := rfl
@[simp] theorem State.setLnk_dsp : (s.setLnk l x).dsp = s.dsp := rfl
@[simp] theorem State.setLnk_ptp : (s.setLnk l x).ptp = s.ptp := rfl
@[simp] theorem State.setLnk_flash : (s.setLnk l x).flash = s.flash := rfl
@[simp] theorem State.setLnk_boot : (s.setLnk l x).boot = s.boot := rfl
@[simp] theorem State.setLnk_clk : (s.setLnk l x).clk = s.clk := rfl
@[simp] theorem State.setLnk_svc : (s.setLnk l x).svc = s.svc := rfl
@[simp] theorem State.setLnk_ic : (s.setLnk l x).ic = s.ic := rfl
@[simp] theorem State.setLnk_net : (s.setLnk l x).net = s.net := rfl
@[simp] theorem State.setLnk_dlb : (s.setLnk l x).dlb = s.dlb := rfl
@[simp] theorem State.setLnk_hk : (s.setLnk l x).hk = s.hk := rfl
@[simp] theorem State.setLnk_cmp : (s.setLnk l x).cmp = s.cmp := rfl
@[simp] theorem State.setLnk_pending : (s.setLnk l x).pending = s.pending := rfl
@[simp] theorem State.setLnk_out : (s.setLnk l x).out = s.out := rfl
@[simp] theorem State.setLnk_freeCnt : (s.setLnk l x).freeCnt = s.freeCnt := rfl
end


/-! State.setSlt changes ing alone. -/

section
variable (s : State) (n : Nat) (x : SlotSt)
@[simp] theorem State.setSlt_rf : (s.setSlt n x).rf = s.rf := rfl
@[simp] theorem State.setSlt_tick : (s.setSlt n x).tick = s.tick := rfl
@[simp] theorem State.setSlt_upTime : (s.setSlt n x).upTime = s.upTime := rfl
@[simp] theorem State.setSlt_page : (s.setSlt n x).page = s.page := rfl
@[simp] theorem State.setSlt_ev : (s.setSlt n x).ev = s.ev := rfl
@[simp] theorem State.setSlt_rel : (s.setSlt n x).rel = s.rel := rfl
@[simp] theorem State.setSlt_pwr : (s.setSlt n x).pwr = s.pwr := rfl
@[simp] theorem State.setSlt_tio : (s.setSlt n x).tio = s.tio := rfl
@[simp] theorem State.setSlt_acq : (s.setSlt n x).acq = s.acq := rfl
@[simp] theorem State.setSlt_core : (s.setSlt n x).core = s.core := rfl
@[simp] theorem State.setSlt_bank : (s.setSlt n x).bank = s.bank := rfl
@[simp] theorem State.setSlt_mem : (s.setSlt n x).mem = s.mem := rfl
@[simp] theorem State.setSlt_epo : (s.setSlt n x).epo = s.epo := rfl
@[simp] theorem State.setSlt_trg : (s.setSlt n x).trg = s.trg := rfl
@[simp] theorem State.setSlt_xf : (s.setSlt n x).xf = s.xf := rfl
@[simp] theorem State.setSlt_den : (s.setSlt n x).den = s.den := rfl
@[simp] theorem State.setSlt_tmp : (s.setSlt n x).tmp = s.tmp := rfl
@[simp] theorem State.setSlt_dsp : (s.setSlt n x).dsp = s.dsp := rfl
@[simp] theorem State.setSlt_ptp : (s.setSlt n x).ptp = s.ptp := rfl
@[simp] theorem State.setSlt_flash : (s.setSlt n x).flash = s.flash := rfl
@[simp] theorem State.setSlt_boot : (s.setSlt n x).boot = s.boot := rfl
@[simp] theorem State.setSlt_clk : (s.setSlt n x).clk = s.clk := rfl
@[simp] theorem State.setSlt_svc : (s.setSlt n x).svc = s.svc := rfl
@[simp] theorem State.setSlt_ic : (s.setSlt n x).ic = s.ic := rfl
@[simp] theorem State.setSlt_net : (s.setSlt n x).net = s.net := rfl
@[simp] theorem State.setSlt_dlb : (s.setSlt n x).dlb = s.dlb := rfl
@[simp] theorem State.setSlt_hk : (s.setSlt n x).hk = s.hk := rfl
@[simp] theorem State.setSlt_cmp : (s.setSlt n x).cmp = s.cmp := rfl
@[simp] theorem State.setSlt_pending : (s.setSlt n x).pending = s.pending := rfl
@[simp] theorem State.setSlt_out : (s.setSlt n x).out = s.out := rfl
@[simp] theorem State.setSlt_freeCnt : (s.setSlt n x).freeCnt = s.freeCnt := rfl
end


/-! State.setInput changes ic alone. -/

section
variable (s : State) (n : Nat) (x : IcSt)
@[simp] theorem State.setInput_rf : (s.setInput n x).rf = s.rf := rfl
@[simp] theorem State.setInput_tick : (s.setInput n x).tick = s.tick := rfl
@[simp] theorem State.setInput_upTime : (s.setInput n x).upTime = s.upTime := rfl
@[simp] theorem State.setInput_page : (s.setInput n x).page = s.page := rfl
@[simp] theorem State.setInput_ev : (s.setInput n x).ev = s.ev := rfl
@[simp] theorem State.setInput_rel : (s.setInput n x).rel = s.rel := rfl
@[simp] theorem State.setInput_pwr : (s.setInput n x).pwr = s.pwr := rfl
@[simp] theorem State.setInput_tio : (s.setInput n x).tio = s.tio := rfl
@[simp] theorem State.setInput_acq : (s.setInput n x).acq = s.acq := rfl
@[simp] theorem State.setInput_core : (s.setInput n x).core = s.core := rfl
@[simp] theorem State.setInput_bank : (s.setInput n x).bank = s.bank := rfl
@[simp] theorem State.setInput_mem : (s.setInput n x).mem = s.mem := rfl
@[simp] theorem State.setInput_epo : (s.setInput n x).epo = s.epo := rfl
@[simp] theorem State.setInput_trg : (s.setInput n x).trg = s.trg := rfl
@[simp] theorem State.setInput_xf : (s.setInput n x).xf = s.xf := rfl
@[simp] theorem State.setInput_den : (s.setInput n x).den = s.den := rfl
@[simp] theorem State.setInput_tmp : (s.setInput n x).tmp = s.tmp := rfl
@[simp] theorem State.setInput_dsp : (s.setInput n x).dsp = s.dsp := rfl
@[simp] theorem State.setInput_ptp : (s.setInput n x).ptp = s.ptp := rfl
@[simp] theorem State.setInput_flash : (s.setInput n x).flash = s.flash := rfl
@[simp] theorem State.setInput_boot : (s.setInput n x).boot = s.boot := rfl
@[simp] theorem State.setInput_clk : (s.setInput n x).clk = s.clk := rfl
@[simp] theorem State.setInput_ing : (s.setInput n x).ing = s.ing := rfl
@[simp] theorem State.setInput_svc : (s.setInput n x).svc = s.svc := rfl
@[simp] theorem State.setInput_net : (s.setInput n x).net = s.net := rfl
@[simp] theorem State.setInput_dlb : (s.setInput n x).dlb = s.dlb := rfl
@[simp] theorem State.setInput_hk : (s.setInput n x).hk = s.hk := rfl
@[simp] theorem State.setInput_cmp : (s.setInput n x).cmp = s.cmp := rfl
@[simp] theorem State.setInput_pending : (s.setInput n x).pending = s.pending := rfl
@[simp] theorem State.setInput_out : (s.setInput n x).out = s.out := rfl
@[simp] theorem State.setInput_freeCnt : (s.setInput n x).freeCnt = s.freeCnt := rfl
end


/-! State.setDen changes den alone. -/

section
variable (s : State) (u : Nat) (x : DenUnit)
@[simp] theorem State.setDen_rf : (s.setDen u x).rf = s.rf := rfl
@[simp] theorem State.setDen_tick : (s.setDen u x).tick = s.tick := rfl
@[simp] theorem State.setDen_upTime : (s.setDen u x).upTime = s.upTime := rfl
@[simp] theorem State.setDen_page : (s.setDen u x).page = s.page := rfl
@[simp] theorem State.setDen_ev : (s.setDen u x).ev = s.ev := rfl
@[simp] theorem State.setDen_rel : (s.setDen u x).rel = s.rel := rfl
@[simp] theorem State.setDen_pwr : (s.setDen u x).pwr = s.pwr := rfl
@[simp] theorem State.setDen_tio : (s.setDen u x).tio = s.tio := rfl
@[simp] theorem State.setDen_acq : (s.setDen u x).acq = s.acq := rfl
@[simp] theorem State.setDen_core : (s.setDen u x).core = s.core := rfl
@[simp] theorem State.setDen_bank : (s.setDen u x).bank = s.bank := rfl
@[simp] theorem State.setDen_mem : (s.setDen u x).mem = s.mem := rfl
@[simp] theorem State.setDen_epo : (s.setDen u x).epo = s.epo := rfl
@[simp] theorem State.setDen_trg : (s.setDen u x).trg = s.trg := rfl
@[simp] theorem State.setDen_xf : (s.setDen u x).xf = s.xf := rfl
@[simp] theorem State.setDen_tmp : (s.setDen u x).tmp = s.tmp := rfl
@[simp] theorem State.setDen_dsp : (s.setDen u x).dsp = s.dsp := rfl
@[simp] theorem State.setDen_ptp : (s.setDen u x).ptp = s.ptp := rfl
@[simp] theorem State.setDen_flash : (s.setDen u x).flash = s.flash := rfl
@[simp] theorem State.setDen_boot : (s.setDen u x).boot = s.boot := rfl
@[simp] theorem State.setDen_clk : (s.setDen u x).clk = s.clk := rfl
@[simp] theorem State.setDen_ing : (s.setDen u x).ing = s.ing := rfl
@[simp] theorem State.setDen_svc : (s.setDen u x).svc = s.svc := rfl
@[simp] theorem State.setDen_ic : (s.setDen u x).ic = s.ic := rfl
@[simp] theorem State.setDen_net : (s.setDen u x).net = s.net := rfl
@[simp] theorem State.setDen_dlb : (s.setDen u x).dlb = s.dlb := rfl
@[simp] theorem State.setDen_hk : (s.setDen u x).hk = s.hk := rfl
@[simp] theorem State.setDen_cmp : (s.setDen u x).cmp = s.cmp := rfl
@[simp] theorem State.setDen_pending : (s.setDen u x).pending = s.pending := rfl
@[simp] theorem State.setDen_out : (s.setDen u x).out = s.out := rfl
@[simp] theorem State.setDen_freeCnt : (s.setDen u x).freeCnt = s.freeCnt := rfl
end


/-! State.setTjob changes tmp alone. -/

section
variable (s : State) (j : Nat) (x : TmpJob)
@[simp] theorem State.setTjob_rf : (s.setTjob j x).rf = s.rf := rfl
@[simp] theorem State.setTjob_tick : (s.setTjob j x).tick = s.tick := rfl
@[simp] theorem State.setTjob_upTime : (s.setTjob j x).upTime = s.upTime := rfl
@[simp] theorem State.setTjob_page : (s.setTjob j x).page = s.page := rfl
@[simp] theorem State.setTjob_ev : (s.setTjob j x).ev = s.ev := rfl
@[simp] theorem State.setTjob_rel : (s.setTjob j x).rel = s.rel := rfl
@[simp] theorem State.setTjob_pwr : (s.setTjob j x).pwr = s.pwr := rfl
@[simp] theorem State.setTjob_tio : (s.setTjob j x).tio = s.tio := rfl
@[simp] theorem State.setTjob_acq : (s.setTjob j x).acq = s.acq := rfl
@[simp] theorem State.setTjob_core : (s.setTjob j x).core = s.core := rfl
@[simp] theorem State.setTjob_bank : (s.setTjob j x).bank = s.bank := rfl
@[simp] theorem State.setTjob_mem : (s.setTjob j x).mem = s.mem := rfl
@[simp] theorem State.setTjob_epo : (s.setTjob j x).epo = s.epo := rfl
@[simp] theorem State.setTjob_trg : (s.setTjob j x).trg = s.trg := rfl
@[simp] theorem State.setTjob_xf : (s.setTjob j x).xf = s.xf := rfl
@[simp] theorem State.setTjob_den : (s.setTjob j x).den = s.den := rfl
@[simp] theorem State.setTjob_dsp : (s.setTjob j x).dsp = s.dsp := rfl
@[simp] theorem State.setTjob_ptp : (s.setTjob j x).ptp = s.ptp := rfl
@[simp] theorem State.setTjob_flash : (s.setTjob j x).flash = s.flash := rfl
@[simp] theorem State.setTjob_boot : (s.setTjob j x).boot = s.boot := rfl
@[simp] theorem State.setTjob_clk : (s.setTjob j x).clk = s.clk := rfl
@[simp] theorem State.setTjob_ing : (s.setTjob j x).ing = s.ing := rfl
@[simp] theorem State.setTjob_svc : (s.setTjob j x).svc = s.svc := rfl
@[simp] theorem State.setTjob_ic : (s.setTjob j x).ic = s.ic := rfl
@[simp] theorem State.setTjob_net : (s.setTjob j x).net = s.net := rfl
@[simp] theorem State.setTjob_dlb : (s.setTjob j x).dlb = s.dlb := rfl
@[simp] theorem State.setTjob_hk : (s.setTjob j x).hk = s.hk := rfl
@[simp] theorem State.setTjob_cmp : (s.setTjob j x).cmp = s.cmp := rfl
@[simp] theorem State.setTjob_pending : (s.setTjob j x).pending = s.pending := rfl
@[simp] theorem State.setTjob_out : (s.setTjob j x).out = s.out := rfl
@[simp] theorem State.setTjob_freeCnt : (s.setTjob j x).freeCnt = s.freeCnt := rfl
end


/-! State.setDspHead changes dsp alone. -/

section
variable (s : State) (h : Nat) (d : DspHead)
@[simp] theorem State.setDspHead_rf : (s.setDspHead h d).rf = s.rf := rfl
@[simp] theorem State.setDspHead_tick : (s.setDspHead h d).tick = s.tick := rfl
@[simp] theorem State.setDspHead_upTime : (s.setDspHead h d).upTime = s.upTime := rfl
@[simp] theorem State.setDspHead_page : (s.setDspHead h d).page = s.page := rfl
@[simp] theorem State.setDspHead_ev : (s.setDspHead h d).ev = s.ev := rfl
@[simp] theorem State.setDspHead_rel : (s.setDspHead h d).rel = s.rel := rfl
@[simp] theorem State.setDspHead_pwr : (s.setDspHead h d).pwr = s.pwr := rfl
@[simp] theorem State.setDspHead_tio : (s.setDspHead h d).tio = s.tio := rfl
@[simp] theorem State.setDspHead_acq : (s.setDspHead h d).acq = s.acq := rfl
@[simp] theorem State.setDspHead_core : (s.setDspHead h d).core = s.core := rfl
@[simp] theorem State.setDspHead_bank : (s.setDspHead h d).bank = s.bank := rfl
@[simp] theorem State.setDspHead_mem : (s.setDspHead h d).mem = s.mem := rfl
@[simp] theorem State.setDspHead_epo : (s.setDspHead h d).epo = s.epo := rfl
@[simp] theorem State.setDspHead_trg : (s.setDspHead h d).trg = s.trg := rfl
@[simp] theorem State.setDspHead_xf : (s.setDspHead h d).xf = s.xf := rfl
@[simp] theorem State.setDspHead_den : (s.setDspHead h d).den = s.den := rfl
@[simp] theorem State.setDspHead_tmp : (s.setDspHead h d).tmp = s.tmp := rfl
@[simp] theorem State.setDspHead_ptp : (s.setDspHead h d).ptp = s.ptp := rfl
@[simp] theorem State.setDspHead_flash : (s.setDspHead h d).flash = s.flash := rfl
@[simp] theorem State.setDspHead_boot : (s.setDspHead h d).boot = s.boot := rfl
@[simp] theorem State.setDspHead_clk : (s.setDspHead h d).clk = s.clk := rfl
@[simp] theorem State.setDspHead_ing : (s.setDspHead h d).ing = s.ing := rfl
@[simp] theorem State.setDspHead_svc : (s.setDspHead h d).svc = s.svc := rfl
@[simp] theorem State.setDspHead_ic : (s.setDspHead h d).ic = s.ic := rfl
@[simp] theorem State.setDspHead_net : (s.setDspHead h d).net = s.net := rfl
@[simp] theorem State.setDspHead_dlb : (s.setDspHead h d).dlb = s.dlb := rfl
@[simp] theorem State.setDspHead_hk : (s.setDspHead h d).hk = s.hk := rfl
@[simp] theorem State.setDspHead_cmp : (s.setDspHead h d).cmp = s.cmp := rfl
@[simp] theorem State.setDspHead_pending : (s.setDspHead h d).pending = s.pending := rfl
@[simp] theorem State.setDspHead_out : (s.setDspHead h d).out = s.out := rfl
@[simp] theorem State.setDspHead_freeCnt : (s.setDspHead h d).freeCnt = s.freeCnt := rfl
end


/-! State.setXfp changes xf alone. -/

section
variable (s : State) (p : Nat) (x : XfPipe)
@[simp] theorem State.setXfp_rf : (s.setXfp p x).rf = s.rf := rfl
@[simp] theorem State.setXfp_tick : (s.setXfp p x).tick = s.tick := rfl
@[simp] theorem State.setXfp_upTime : (s.setXfp p x).upTime = s.upTime := rfl
@[simp] theorem State.setXfp_page : (s.setXfp p x).page = s.page := rfl
@[simp] theorem State.setXfp_ev : (s.setXfp p x).ev = s.ev := rfl
@[simp] theorem State.setXfp_rel : (s.setXfp p x).rel = s.rel := rfl
@[simp] theorem State.setXfp_pwr : (s.setXfp p x).pwr = s.pwr := rfl
@[simp] theorem State.setXfp_tio : (s.setXfp p x).tio = s.tio := rfl
@[simp] theorem State.setXfp_acq : (s.setXfp p x).acq = s.acq := rfl
@[simp] theorem State.setXfp_core : (s.setXfp p x).core = s.core := rfl
@[simp] theorem State.setXfp_bank : (s.setXfp p x).bank = s.bank := rfl
@[simp] theorem State.setXfp_mem : (s.setXfp p x).mem = s.mem := rfl
@[simp] theorem State.setXfp_epo : (s.setXfp p x).epo = s.epo := rfl
@[simp] theorem State.setXfp_trg : (s.setXfp p x).trg = s.trg := rfl
@[simp] theorem State.setXfp_den : (s.setXfp p x).den = s.den := rfl
@[simp] theorem State.setXfp_tmp : (s.setXfp p x).tmp = s.tmp := rfl
@[simp] theorem State.setXfp_dsp : (s.setXfp p x).dsp = s.dsp := rfl
@[simp] theorem State.setXfp_ptp : (s.setXfp p x).ptp = s.ptp := rfl
@[simp] theorem State.setXfp_flash : (s.setXfp p x).flash = s.flash := rfl
@[simp] theorem State.setXfp_boot : (s.setXfp p x).boot = s.boot := rfl
@[simp] theorem State.setXfp_clk : (s.setXfp p x).clk = s.clk := rfl
@[simp] theorem State.setXfp_ing : (s.setXfp p x).ing = s.ing := rfl
@[simp] theorem State.setXfp_svc : (s.setXfp p x).svc = s.svc := rfl
@[simp] theorem State.setXfp_ic : (s.setXfp p x).ic = s.ic := rfl
@[simp] theorem State.setXfp_net : (s.setXfp p x).net = s.net := rfl
@[simp] theorem State.setXfp_dlb : (s.setXfp p x).dlb = s.dlb := rfl
@[simp] theorem State.setXfp_hk : (s.setXfp p x).hk = s.hk := rfl
@[simp] theorem State.setXfp_cmp : (s.setXfp p x).cmp = s.cmp := rfl
@[simp] theorem State.setXfp_pending : (s.setXfp p x).pending = s.pending := rfl
@[simp] theorem State.setXfp_out : (s.setXfp p x).out = s.out := rfl
@[simp] theorem State.setXfp_freeCnt : (s.setXfp p x).freeCnt = s.freeCnt := rfl
end


/-! State.setTru changes trg alone. -/

section
variable (s : State) (u : Nat) (x : TruSt)
@[simp] theorem State.setTru_rf : (s.setTru u x).rf = s.rf := rfl
@[simp] theorem State.setTru_tick : (s.setTru u x).tick = s.tick := rfl
@[simp] theorem State.setTru_upTime : (s.setTru u x).upTime = s.upTime := rfl
@[simp] theorem State.setTru_page : (s.setTru u x).page = s.page := rfl
@[simp] theorem State.setTru_ev : (s.setTru u x).ev = s.ev := rfl
@[simp] theorem State.setTru_rel : (s.setTru u x).rel = s.rel := rfl
@[simp] theorem State.setTru_pwr : (s.setTru u x).pwr = s.pwr := rfl
@[simp] theorem State.setTru_tio : (s.setTru u x).tio = s.tio := rfl
@[simp] theorem State.setTru_acq : (s.setTru u x).acq = s.acq := rfl
@[simp] theorem State.setTru_core : (s.setTru u x).core = s.core := rfl
@[simp] theorem State.setTru_bank : (s.setTru u x).bank = s.bank := rfl
@[simp] theorem State.setTru_mem : (s.setTru u x).mem = s.mem := rfl
@[simp] theorem State.setTru_epo : (s.setTru u x).epo = s.epo := rfl
@[simp] theorem State.setTru_xf : (s.setTru u x).xf = s.xf := rfl
@[simp] theorem State.setTru_den : (s.setTru u x).den = s.den := rfl
@[simp] theorem State.setTru_tmp : (s.setTru u x).tmp = s.tmp := rfl
@[simp] theorem State.setTru_dsp : (s.setTru u x).dsp = s.dsp := rfl
@[simp] theorem State.setTru_ptp : (s.setTru u x).ptp = s.ptp := rfl
@[simp] theorem State.setTru_flash : (s.setTru u x).flash = s.flash := rfl
@[simp] theorem State.setTru_boot : (s.setTru u x).boot = s.boot := rfl
@[simp] theorem State.setTru_clk : (s.setTru u x).clk = s.clk := rfl
@[simp] theorem State.setTru_ing : (s.setTru u x).ing = s.ing := rfl
@[simp] theorem State.setTru_svc : (s.setTru u x).svc = s.svc := rfl
@[simp] theorem State.setTru_ic : (s.setTru u x).ic = s.ic := rfl
@[simp] theorem State.setTru_net : (s.setTru u x).net = s.net := rfl
@[simp] theorem State.setTru_dlb : (s.setTru u x).dlb = s.dlb := rfl
@[simp] theorem State.setTru_hk : (s.setTru u x).hk = s.hk := rfl
@[simp] theorem State.setTru_cmp : (s.setTru u x).cmp = s.cmp := rfl
@[simp] theorem State.setTru_pending : (s.setTru u x).pending = s.pending := rfl
@[simp] theorem State.setTru_out : (s.setTru u x).out = s.out := rfl
@[simp] theorem State.setTru_freeCnt : (s.setTru u x).freeCnt = s.freeCnt := rfl
end


/-! State.setCmpCh changes cmp alone. -/

section
variable (s : State) (k : Nat) (x : CmpCh)
@[simp] theorem State.setCmpCh_rf : (s.setCmpCh k x).rf = s.rf := rfl
@[simp] theorem State.setCmpCh_tick : (s.setCmpCh k x).tick = s.tick := rfl
@[simp] theorem State.setCmpCh_upTime : (s.setCmpCh k x).upTime = s.upTime := rfl
@[simp] theorem State.setCmpCh_page : (s.setCmpCh k x).page = s.page := rfl
@[simp] theorem State.setCmpCh_ev : (s.setCmpCh k x).ev = s.ev := rfl
@[simp] theorem State.setCmpCh_rel : (s.setCmpCh k x).rel = s.rel := rfl
@[simp] theorem State.setCmpCh_pwr : (s.setCmpCh k x).pwr = s.pwr := rfl
@[simp] theorem State.setCmpCh_tio : (s.setCmpCh k x).tio = s.tio := rfl
@[simp] theorem State.setCmpCh_acq : (s.setCmpCh k x).acq = s.acq := rfl
@[simp] theorem State.setCmpCh_core : (s.setCmpCh k x).core = s.core := rfl
@[simp] theorem State.setCmpCh_bank : (s.setCmpCh k x).bank = s.bank := rfl
@[simp] theorem State.setCmpCh_mem : (s.setCmpCh k x).mem = s.mem := rfl
@[simp] theorem State.setCmpCh_epo : (s.setCmpCh k x).epo = s.epo := rfl
@[simp] theorem State.setCmpCh_trg : (s.setCmpCh k x).trg = s.trg := rfl
@[simp] theorem State.setCmpCh_xf : (s.setCmpCh k x).xf = s.xf := rfl
@[simp] theorem State.setCmpCh_den : (s.setCmpCh k x).den = s.den := rfl
@[simp] theorem State.setCmpCh_tmp : (s.setCmpCh k x).tmp = s.tmp := rfl
@[simp] theorem State.setCmpCh_dsp : (s.setCmpCh k x).dsp = s.dsp := rfl
@[simp] theorem State.setCmpCh_ptp : (s.setCmpCh k x).ptp = s.ptp := rfl
@[simp] theorem State.setCmpCh_flash : (s.setCmpCh k x).flash = s.flash := rfl
@[simp] theorem State.setCmpCh_boot : (s.setCmpCh k x).boot = s.boot := rfl
@[simp] theorem State.setCmpCh_clk : (s.setCmpCh k x).clk = s.clk := rfl
@[simp] theorem State.setCmpCh_ing : (s.setCmpCh k x).ing = s.ing := rfl
@[simp] theorem State.setCmpCh_svc : (s.setCmpCh k x).svc = s.svc := rfl
@[simp] theorem State.setCmpCh_ic : (s.setCmpCh k x).ic = s.ic := rfl
@[simp] theorem State.setCmpCh_net : (s.setCmpCh k x).net = s.net := rfl
@[simp] theorem State.setCmpCh_dlb : (s.setCmpCh k x).dlb = s.dlb := rfl
@[simp] theorem State.setCmpCh_hk : (s.setCmpCh k x).hk = s.hk := rfl
@[simp] theorem State.setCmpCh_pending : (s.setCmpCh k x).pending = s.pending := rfl
@[simp] theorem State.setCmpCh_out : (s.setCmpCh k x).out = s.out := rfl
@[simp] theorem State.setCmpCh_freeCnt : (s.setCmpCh k x).freeCnt = s.freeCnt := rfl
end


/-! State.setRing changes svc alone. -/

section
variable (s : State) (r : Nat) (x : RingSt)
@[simp] theorem State.setRing_rf : (s.setRing r x).rf = s.rf := rfl
@[simp] theorem State.setRing_tick : (s.setRing r x).tick = s.tick := rfl
@[simp] theorem State.setRing_upTime : (s.setRing r x).upTime = s.upTime := rfl
@[simp] theorem State.setRing_page : (s.setRing r x).page = s.page := rfl
@[simp] theorem State.setRing_ev : (s.setRing r x).ev = s.ev := rfl
@[simp] theorem State.setRing_rel : (s.setRing r x).rel = s.rel := rfl
@[simp] theorem State.setRing_pwr : (s.setRing r x).pwr = s.pwr := rfl
@[simp] theorem State.setRing_tio : (s.setRing r x).tio = s.tio := rfl
@[simp] theorem State.setRing_acq : (s.setRing r x).acq = s.acq := rfl
@[simp] theorem State.setRing_core : (s.setRing r x).core = s.core := rfl
@[simp] theorem State.setRing_bank : (s.setRing r x).bank = s.bank := rfl
@[simp] theorem State.setRing_mem : (s.setRing r x).mem = s.mem := rfl
@[simp] theorem State.setRing_epo : (s.setRing r x).epo = s.epo := rfl
@[simp] theorem State.setRing_trg : (s.setRing r x).trg = s.trg := rfl
@[simp] theorem State.setRing_xf : (s.setRing r x).xf = s.xf := rfl
@[simp] theorem State.setRing_den : (s.setRing r x).den = s.den := rfl
@[simp] theorem State.setRing_tmp : (s.setRing r x).tmp = s.tmp := rfl
@[simp] theorem State.setRing_dsp : (s.setRing r x).dsp = s.dsp := rfl
@[simp] theorem State.setRing_ptp : (s.setRing r x).ptp = s.ptp := rfl
@[simp] theorem State.setRing_flash : (s.setRing r x).flash = s.flash := rfl
@[simp] theorem State.setRing_boot : (s.setRing r x).boot = s.boot := rfl
@[simp] theorem State.setRing_clk : (s.setRing r x).clk = s.clk := rfl
@[simp] theorem State.setRing_ing : (s.setRing r x).ing = s.ing := rfl
@[simp] theorem State.setRing_ic : (s.setRing r x).ic = s.ic := rfl
@[simp] theorem State.setRing_net : (s.setRing r x).net = s.net := rfl
@[simp] theorem State.setRing_dlb : (s.setRing r x).dlb = s.dlb := rfl
@[simp] theorem State.setRing_hk : (s.setRing r x).hk = s.hk := rfl
@[simp] theorem State.setRing_cmp : (s.setRing r x).cmp = s.cmp := rfl
@[simp] theorem State.setRing_pending : (s.setRing r x).pending = s.pending := rfl
@[simp] theorem State.setRing_out : (s.setRing r x).out = s.out := rfl
@[simp] theorem State.setRing_freeCnt : (s.setRing r x).freeCnt = s.freeCnt := rfl
end


/-! State.complete changes svc alone. -/

section
variable (s : State) (e : SvcEntry) (st : SvcStatus) (res0 res1 : Nat)
@[simp] theorem State.complete_rf : (s.complete e st res0 res1).rf = s.rf := rfl
@[simp] theorem State.complete_tick : (s.complete e st res0 res1).tick = s.tick := rfl
@[simp] theorem State.complete_upTime : (s.complete e st res0 res1).upTime = s.upTime := rfl
@[simp] theorem State.complete_page : (s.complete e st res0 res1).page = s.page := rfl
@[simp] theorem State.complete_ev : (s.complete e st res0 res1).ev = s.ev := rfl
@[simp] theorem State.complete_rel : (s.complete e st res0 res1).rel = s.rel := rfl
@[simp] theorem State.complete_pwr : (s.complete e st res0 res1).pwr = s.pwr := rfl
@[simp] theorem State.complete_tio : (s.complete e st res0 res1).tio = s.tio := rfl
@[simp] theorem State.complete_acq : (s.complete e st res0 res1).acq = s.acq := rfl
@[simp] theorem State.complete_core : (s.complete e st res0 res1).core = s.core := rfl
@[simp] theorem State.complete_bank : (s.complete e st res0 res1).bank = s.bank := rfl
@[simp] theorem State.complete_mem : (s.complete e st res0 res1).mem = s.mem := rfl
@[simp] theorem State.complete_epo : (s.complete e st res0 res1).epo = s.epo := rfl
@[simp] theorem State.complete_trg : (s.complete e st res0 res1).trg = s.trg := rfl
@[simp] theorem State.complete_xf : (s.complete e st res0 res1).xf = s.xf := rfl
@[simp] theorem State.complete_den : (s.complete e st res0 res1).den = s.den := rfl
@[simp] theorem State.complete_tmp : (s.complete e st res0 res1).tmp = s.tmp := rfl
@[simp] theorem State.complete_dsp : (s.complete e st res0 res1).dsp = s.dsp := rfl
@[simp] theorem State.complete_ptp : (s.complete e st res0 res1).ptp = s.ptp := rfl
@[simp] theorem State.complete_flash : (s.complete e st res0 res1).flash = s.flash := rfl
@[simp] theorem State.complete_boot : (s.complete e st res0 res1).boot = s.boot := rfl
@[simp] theorem State.complete_clk : (s.complete e st res0 res1).clk = s.clk := rfl
@[simp] theorem State.complete_ing : (s.complete e st res0 res1).ing = s.ing := rfl
@[simp] theorem State.complete_ic : (s.complete e st res0 res1).ic = s.ic := rfl
@[simp] theorem State.complete_net : (s.complete e st res0 res1).net = s.net := rfl
@[simp] theorem State.complete_dlb : (s.complete e st res0 res1).dlb = s.dlb := rfl
@[simp] theorem State.complete_hk : (s.complete e st res0 res1).hk = s.hk := rfl
@[simp] theorem State.complete_cmp : (s.complete e st res0 res1).cmp = s.cmp := rfl
@[simp] theorem State.complete_pending : (s.complete e st res0 res1).pending = s.pending := rfl
@[simp] theorem State.complete_out : (s.complete e st res0 res1).out = s.out := rfl
@[simp] theorem State.complete_freeCnt : (s.complete e st res0 res1).freeCnt = s.freeCnt := rfl
end


/-! State.setRech changes net alone. -/

section
variable (s : State) (h : Nat) (x : RecHandle)
@[simp] theorem State.setRech_rf : (s.setRech h x).rf = s.rf := rfl
@[simp] theorem State.setRech_tick : (s.setRech h x).tick = s.tick := rfl
@[simp] theorem State.setRech_upTime : (s.setRech h x).upTime = s.upTime := rfl
@[simp] theorem State.setRech_page : (s.setRech h x).page = s.page := rfl
@[simp] theorem State.setRech_ev : (s.setRech h x).ev = s.ev := rfl
@[simp] theorem State.setRech_rel : (s.setRech h x).rel = s.rel := rfl
@[simp] theorem State.setRech_pwr : (s.setRech h x).pwr = s.pwr := rfl
@[simp] theorem State.setRech_tio : (s.setRech h x).tio = s.tio := rfl
@[simp] theorem State.setRech_acq : (s.setRech h x).acq = s.acq := rfl
@[simp] theorem State.setRech_core : (s.setRech h x).core = s.core := rfl
@[simp] theorem State.setRech_bank : (s.setRech h x).bank = s.bank := rfl
@[simp] theorem State.setRech_mem : (s.setRech h x).mem = s.mem := rfl
@[simp] theorem State.setRech_epo : (s.setRech h x).epo = s.epo := rfl
@[simp] theorem State.setRech_trg : (s.setRech h x).trg = s.trg := rfl
@[simp] theorem State.setRech_xf : (s.setRech h x).xf = s.xf := rfl
@[simp] theorem State.setRech_den : (s.setRech h x).den = s.den := rfl
@[simp] theorem State.setRech_tmp : (s.setRech h x).tmp = s.tmp := rfl
@[simp] theorem State.setRech_dsp : (s.setRech h x).dsp = s.dsp := rfl
@[simp] theorem State.setRech_ptp : (s.setRech h x).ptp = s.ptp := rfl
@[simp] theorem State.setRech_flash : (s.setRech h x).flash = s.flash := rfl
@[simp] theorem State.setRech_boot : (s.setRech h x).boot = s.boot := rfl
@[simp] theorem State.setRech_clk : (s.setRech h x).clk = s.clk := rfl
@[simp] theorem State.setRech_ing : (s.setRech h x).ing = s.ing := rfl
@[simp] theorem State.setRech_svc : (s.setRech h x).svc = s.svc := rfl
@[simp] theorem State.setRech_ic : (s.setRech h x).ic = s.ic := rfl
@[simp] theorem State.setRech_dlb : (s.setRech h x).dlb = s.dlb := rfl
@[simp] theorem State.setRech_hk : (s.setRech h x).hk = s.hk := rfl
@[simp] theorem State.setRech_cmp : (s.setRech h x).cmp = s.cmp := rfl
@[simp] theorem State.setRech_pending : (s.setRech h x).pending = s.pending := rfl
@[simp] theorem State.setRech_out : (s.setRech h x).out = s.out := rfl
@[simp] theorem State.setRech_freeCnt : (s.setRech h x).freeCnt = s.freeCnt := rfl
end


/-! State.setStrs changes net alone. -/

section
variable (s : State) (n : Nat) (x : StrSlot)
@[simp] theorem State.setStrs_rf : (s.setStrs n x).rf = s.rf := rfl
@[simp] theorem State.setStrs_tick : (s.setStrs n x).tick = s.tick := rfl
@[simp] theorem State.setStrs_upTime : (s.setStrs n x).upTime = s.upTime := rfl
@[simp] theorem State.setStrs_page : (s.setStrs n x).page = s.page := rfl
@[simp] theorem State.setStrs_ev : (s.setStrs n x).ev = s.ev := rfl
@[simp] theorem State.setStrs_rel : (s.setStrs n x).rel = s.rel := rfl
@[simp] theorem State.setStrs_pwr : (s.setStrs n x).pwr = s.pwr := rfl
@[simp] theorem State.setStrs_tio : (s.setStrs n x).tio = s.tio := rfl
@[simp] theorem State.setStrs_acq : (s.setStrs n x).acq = s.acq := rfl
@[simp] theorem State.setStrs_core : (s.setStrs n x).core = s.core := rfl
@[simp] theorem State.setStrs_bank : (s.setStrs n x).bank = s.bank := rfl
@[simp] theorem State.setStrs_mem : (s.setStrs n x).mem = s.mem := rfl
@[simp] theorem State.setStrs_epo : (s.setStrs n x).epo = s.epo := rfl
@[simp] theorem State.setStrs_trg : (s.setStrs n x).trg = s.trg := rfl
@[simp] theorem State.setStrs_xf : (s.setStrs n x).xf = s.xf := rfl
@[simp] theorem State.setStrs_den : (s.setStrs n x).den = s.den := rfl
@[simp] theorem State.setStrs_tmp : (s.setStrs n x).tmp = s.tmp := rfl
@[simp] theorem State.setStrs_dsp : (s.setStrs n x).dsp = s.dsp := rfl
@[simp] theorem State.setStrs_ptp : (s.setStrs n x).ptp = s.ptp := rfl
@[simp] theorem State.setStrs_flash : (s.setStrs n x).flash = s.flash := rfl
@[simp] theorem State.setStrs_boot : (s.setStrs n x).boot = s.boot := rfl
@[simp] theorem State.setStrs_clk : (s.setStrs n x).clk = s.clk := rfl
@[simp] theorem State.setStrs_ing : (s.setStrs n x).ing = s.ing := rfl
@[simp] theorem State.setStrs_svc : (s.setStrs n x).svc = s.svc := rfl
@[simp] theorem State.setStrs_ic : (s.setStrs n x).ic = s.ic := rfl
@[simp] theorem State.setStrs_dlb : (s.setStrs n x).dlb = s.dlb := rfl
@[simp] theorem State.setStrs_hk : (s.setStrs n x).hk = s.hk := rfl
@[simp] theorem State.setStrs_cmp : (s.setStrs n x).cmp = s.cmp := rfl
@[simp] theorem State.setStrs_pending : (s.setStrs n x).pending = s.pending := rfl
@[simp] theorem State.setStrs_out : (s.setStrs n x).out = s.out := rfl
@[simp] theorem State.setStrs_freeCnt : (s.setStrs n x).freeCnt = s.freeCnt := rfl
end


/-! State.setHop changes rel alone. -/

section
variable (s : State) (h j : Nat) (x : HopSt)
@[simp] theorem State.setHop_rf : (s.setHop h j x).rf = s.rf := rfl
@[simp] theorem State.setHop_tick : (s.setHop h j x).tick = s.tick := rfl
@[simp] theorem State.setHop_upTime : (s.setHop h j x).upTime = s.upTime := rfl
@[simp] theorem State.setHop_page : (s.setHop h j x).page = s.page := rfl
@[simp] theorem State.setHop_ev : (s.setHop h j x).ev = s.ev := rfl
@[simp] theorem State.setHop_pwr : (s.setHop h j x).pwr = s.pwr := rfl
@[simp] theorem State.setHop_tio : (s.setHop h j x).tio = s.tio := rfl
@[simp] theorem State.setHop_acq : (s.setHop h j x).acq = s.acq := rfl
@[simp] theorem State.setHop_core : (s.setHop h j x).core = s.core := rfl
@[simp] theorem State.setHop_bank : (s.setHop h j x).bank = s.bank := rfl
@[simp] theorem State.setHop_mem : (s.setHop h j x).mem = s.mem := rfl
@[simp] theorem State.setHop_epo : (s.setHop h j x).epo = s.epo := rfl
@[simp] theorem State.setHop_trg : (s.setHop h j x).trg = s.trg := rfl
@[simp] theorem State.setHop_xf : (s.setHop h j x).xf = s.xf := rfl
@[simp] theorem State.setHop_den : (s.setHop h j x).den = s.den := rfl
@[simp] theorem State.setHop_tmp : (s.setHop h j x).tmp = s.tmp := rfl
@[simp] theorem State.setHop_dsp : (s.setHop h j x).dsp = s.dsp := rfl
@[simp] theorem State.setHop_ptp : (s.setHop h j x).ptp = s.ptp := rfl
@[simp] theorem State.setHop_flash : (s.setHop h j x).flash = s.flash := rfl
@[simp] theorem State.setHop_boot : (s.setHop h j x).boot = s.boot := rfl
@[simp] theorem State.setHop_clk : (s.setHop h j x).clk = s.clk := rfl
@[simp] theorem State.setHop_ing : (s.setHop h j x).ing = s.ing := rfl
@[simp] theorem State.setHop_svc : (s.setHop h j x).svc = s.svc := rfl
@[simp] theorem State.setHop_ic : (s.setHop h j x).ic = s.ic := rfl
@[simp] theorem State.setHop_net : (s.setHop h j x).net = s.net := rfl
@[simp] theorem State.setHop_dlb : (s.setHop h j x).dlb = s.dlb := rfl
@[simp] theorem State.setHop_hk : (s.setHop h j x).hk = s.hk := rfl
@[simp] theorem State.setHop_cmp : (s.setHop h j x).cmp = s.cmp := rfl
@[simp] theorem State.setHop_pending : (s.setHop h j x).pending = s.pending := rfl
@[simp] theorem State.setHop_out : (s.setHop h j x).out = s.out := rfl
@[simp] theorem State.setHop_freeCnt : (s.setHop h j x).freeCnt = s.freeCnt := rfl
end


/-! State.hold changes page alone. -/

section
variable (s : State) (h : Held)
@[simp] theorem State.hold_rf : (s.hold h).rf = s.rf := rfl
@[simp] theorem State.hold_tick : (s.hold h).tick = s.tick := rfl
@[simp] theorem State.hold_upTime : (s.hold h).upTime = s.upTime := rfl
@[simp] theorem State.hold_ev : (s.hold h).ev = s.ev := rfl
@[simp] theorem State.hold_rel : (s.hold h).rel = s.rel := rfl
@[simp] theorem State.hold_pwr : (s.hold h).pwr = s.pwr := rfl
@[simp] theorem State.hold_tio : (s.hold h).tio = s.tio := rfl
@[simp] theorem State.hold_acq : (s.hold h).acq = s.acq := rfl
@[simp] theorem State.hold_core : (s.hold h).core = s.core := rfl
@[simp] theorem State.hold_bank : (s.hold h).bank = s.bank := rfl
@[simp] theorem State.hold_mem : (s.hold h).mem = s.mem := rfl
@[simp] theorem State.hold_epo : (s.hold h).epo = s.epo := rfl
@[simp] theorem State.hold_trg : (s.hold h).trg = s.trg := rfl
@[simp] theorem State.hold_xf : (s.hold h).xf = s.xf := rfl
@[simp] theorem State.hold_den : (s.hold h).den = s.den := rfl
@[simp] theorem State.hold_tmp : (s.hold h).tmp = s.tmp := rfl
@[simp] theorem State.hold_dsp : (s.hold h).dsp = s.dsp := rfl
@[simp] theorem State.hold_ptp : (s.hold h).ptp = s.ptp := rfl
@[simp] theorem State.hold_flash : (s.hold h).flash = s.flash := rfl
@[simp] theorem State.hold_boot : (s.hold h).boot = s.boot := rfl
@[simp] theorem State.hold_clk : (s.hold h).clk = s.clk := rfl
@[simp] theorem State.hold_ing : (s.hold h).ing = s.ing := rfl
@[simp] theorem State.hold_svc : (s.hold h).svc = s.svc := rfl
@[simp] theorem State.hold_ic : (s.hold h).ic = s.ic := rfl
@[simp] theorem State.hold_net : (s.hold h).net = s.net := rfl
@[simp] theorem State.hold_dlb : (s.hold h).dlb = s.dlb := rfl
@[simp] theorem State.hold_hk : (s.hold h).hk = s.hk := rfl
@[simp] theorem State.hold_cmp : (s.hold h).cmp = s.cmp := rfl
@[simp] theorem State.hold_pending : (s.hold h).pending = s.pending := rfl
@[simp] theorem State.hold_out : (s.hold h).out = s.out := rfl
@[simp] theorem State.hold_freeCnt : (s.hold h).freeCnt = s.freeCnt := rfl
end

/-! State.advance changes the tick and the time before the first release alone. -/

section
variable (s : State) (t : Nat)
@[simp] theorem State.advance_rf : (s.advance t).rf = s.rf := by unfold State.advance; split <;> rfl
@[simp] theorem State.advance_page : (s.advance t).page = s.page := by unfold State.advance; split <;> rfl
@[simp] theorem State.advance_ev : (s.advance t).ev = s.ev := by unfold State.advance; split <;> rfl
@[simp] theorem State.advance_rel : (s.advance t).rel = s.rel := by unfold State.advance; split <;> rfl
@[simp] theorem State.advance_pwr : (s.advance t).pwr = s.pwr := by unfold State.advance; split <;> rfl
@[simp] theorem State.advance_tio : (s.advance t).tio = s.tio := by unfold State.advance; split <;> rfl
@[simp] theorem State.advance_acq : (s.advance t).acq = s.acq := by unfold State.advance; split <;> rfl
@[simp] theorem State.advance_core : (s.advance t).core = s.core := by unfold State.advance; split <;> rfl
@[simp] theorem State.advance_bank : (s.advance t).bank = s.bank := by unfold State.advance; split <;> rfl
@[simp] theorem State.advance_mem : (s.advance t).mem = s.mem := by unfold State.advance; split <;> rfl
@[simp] theorem State.advance_epo : (s.advance t).epo = s.epo := by unfold State.advance; split <;> rfl
@[simp] theorem State.advance_trg : (s.advance t).trg = s.trg := by unfold State.advance; split <;> rfl
@[simp] theorem State.advance_xf : (s.advance t).xf = s.xf := by unfold State.advance; split <;> rfl
@[simp] theorem State.advance_den : (s.advance t).den = s.den := by unfold State.advance; split <;> rfl
@[simp] theorem State.advance_tmp : (s.advance t).tmp = s.tmp := by unfold State.advance; split <;> rfl
@[simp] theorem State.advance_dsp : (s.advance t).dsp = s.dsp := by unfold State.advance; split <;> rfl
@[simp] theorem State.advance_ptp : (s.advance t).ptp = s.ptp := by unfold State.advance; split <;> rfl
@[simp] theorem State.advance_flash : (s.advance t).flash = s.flash := by unfold State.advance; split <;> rfl
@[simp] theorem State.advance_boot : (s.advance t).boot = s.boot := by unfold State.advance; split <;> rfl
@[simp] theorem State.advance_clk : (s.advance t).clk = s.clk := by unfold State.advance; split <;> rfl
@[simp] theorem State.advance_ing : (s.advance t).ing = s.ing := by unfold State.advance; split <;> rfl
@[simp] theorem State.advance_svc : (s.advance t).svc = s.svc := by unfold State.advance; split <;> rfl
@[simp] theorem State.advance_ic : (s.advance t).ic = s.ic := by unfold State.advance; split <;> rfl
@[simp] theorem State.advance_net : (s.advance t).net = s.net := by unfold State.advance; split <;> rfl
@[simp] theorem State.advance_dlb : (s.advance t).dlb = s.dlb := by unfold State.advance; split <;> rfl
@[simp] theorem State.advance_hk : (s.advance t).hk = s.hk := by unfold State.advance; split <;> rfl
@[simp] theorem State.advance_cmp : (s.advance t).cmp = s.cmp := by unfold State.advance; split <;> rfl
@[simp] theorem State.advance_pending : (s.advance t).pending = s.pending := by unfold State.advance; split <;> rfl
@[simp] theorem State.advance_out : (s.advance t).out = s.out := by unfold State.advance; split <;> rfl
@[simp] theorem State.advance_freeCnt : (s.advance t).freeCnt = s.freeCnt := by unfold State.advance; split <;> rfl
end

end Sys2Proof.Machine
end

