-- ==== Sys2Proof/WellFormed.lean ====
section
/-!
DEFINITION. Which commands the outside can send: the bounds that the types of the operands do not already carry. A command outside them
still has a meaning; no step judges it by these.
-/
namespace Sys2Proof

/-- A BAR0 request of `len` bytes at `off` stays within its window and carries no bits beyond its bytes (R34, R35). -/
def wfBar0 (off : BitVec 24) (len data : Nat) : Bool :=
  decide (1 ≤ len) && decide (off.toNat + len ≤ 2 ^ 24) && decide (data < 2 ^ (8 * len))

/-- A command that can reach the part. -/
def Instr.wf : Instr → Bool
  | .registerWrite _ off len data => wfBar0 off len data
  | .bar0FlaggedRead _ off len => wfBar0 off len 0
  | .bar0BurstRequest _ _ off bytes => wfBar0 off bytes.length 0
  | .bandCalDone _ bands => bands.length == 64
  | .releasePoint _ _ margins => decide (margins.length ≤ 16)
  | .tier0Update _ _ est | .t1Window1End _ _ est | .t1Window2End _ _ est => [2, 4, 8, 16].contains est.length
  | .bar2Read _ _ len => decide (1 ≤ len)
  | .bar2Write _ _ bytes => !bytes.isEmpty
  | .bar2Resize _ log2 => decide (20 ≤ log2) && decide (log2 < 64)
  | .auxDone _ _ _ data => decide (data.length ≤ 16)
  | .recOpen _ _ members => decide (1 ≤ members.length) && decide (members.length ≤ 16)
  | .hkSequence _ _ entries => decide (entries.length ≤ 64)
  | .deltanDelayRx _ _ delays _ _ => delays.length == 8
  | .streamWdExpiry _ path _ => !path.isEmpty
  | _ => true

end Sys2Proof
end

