-- ==== Sys2Proof/Tests/Slice0.lean ====
section
/-!
SUPPORT. The model's own tests: commands, encodings and examples of spec/ worked through, ill-formed commands, and for each statement for the
provers a state and operands that meet its hypotheses. Where a test's expected result is a number, it is the spec's.
-/
namespace Sys2Proof.Tests
set_option Elab.async false
open Sys2Proof.Machine

/-! States for the tests. -/

/-- The state after reset with register fields written. -/
def State.put (s : State) (l : List (Nat × Fld × Nat)) : State :=
  { s with rf := l.foldl (fun m x => smInsert (fkey x.1 x.2.1) x.2.2 m) s.rf }
def ups (l : List (Nat × Fld × Nat)) : State := State.put State.reset l

/-- A powered part whose clocks run and that has reached READY, with register fields written. -/
def st9 (l : List (Nat × Fld × Nat)) : State :=
  State.put
    { ups [(pg .glb 0, Reg.GLB_BOOT_STAT_STEP, 9), (pg .glb 0, Reg.GLB_BOOT_STAT_READY, 1), (pg .clk 0, Reg.CLK_PLL_STAT_GATED, 0)] with
      pwr := { up := 0x1FF, down := 0, started := true }, clk := { counting := true } } l

/-- Such a part with the blocks of pages `ps` enabled and ON. -/
def stOn (ps : List Nat) (l : List (Nat × Fld × Nat)) : State :=
  st9 (ps.flatMap (fun p => [(p, Reg.PG_CTL_EN (enRst p), 1), (p, Reg.PG_STAT_EN_ACT (enRst p), 1), (p, Reg.PG_CTL_PSTATE (psRst p), 0),
    (p, Reg.PG_STAT_PSTATE_ACT (psRst p), 0)]) ++ l)

/-- A slice corrector on context 0, which runs from slot 0, in state `k`. -/
def stIc (k : Nat) : State :=
  { stOn [pg .ctx 0, pg .slt 0] [(pg .ctx 0, Reg.CTX_IC_CFG_IC_EN, 1), (pg .ctx 0, Reg.CTX_IC_CFG_T0_EN, 1), (pg .ctx 0, Reg.CTX_IC_STAT_STATE, k)] with
    acq := { ctx := [(0, { running := true })] } }

def frame0 (ph : Nat) : XfFrame :=
  { seq := 0, grid := 0, start := 0, data := [], marks := 0, pipe := 2, n := 16, hop := 16, exp := 0, phase := ph, at_ := 0, opens := false,
    new := false, per := 2 ^ 28, order := 1 }
def grid0 : XfGrid := { seq0 := 0, got := 16, full := [3], n := 16, hop := 16, per := 2 ^ 28, order := 1, opens := false }
def emit0 : Emitted := { seq := 0, exp := 0, flags := 0, start := 0 }
def cmd0 : SvcCmd := ⟨0, false, false, false, 0, 0, 0, 0, 0, 0, 0, 0⟩
def board0 : BoardCfg := ⟨0, 0, false, false, []⟩
def ent (opc : BitVec 8) (dlen : BitVec 32) : SvcEntry := ⟨0, 1, { cmd0 with opc := opc, dlen := dlen }⟩
def entP (opc : BitVec 8) (p0 : Word) (dlen : BitVec 32) : SvcEntry := ⟨0, 1, { cmd0 with opc := opc, p0 := p0, dlen := dlen }⟩
def stSvc (e : SvcEntry) (l : List (Nat × Fld × Nat)) : State := { st9 l with svc := { fetched := [e] } }
def stDef (e : SvcEntry) (l : List (Nat × Fld × Nat)) : State := { st9 l with svc := { deferred := [e] } }

/-- An image that verifies, and a part whose ROM is to check slot 0. -/
def fwImg : FwImage := ⟨false, 7, 0, true, true, []⟩
def stRom : State :=
  { ups [(0, Reg.GLB_BOOT_STAT_STEP, 3), (8, Reg.SEC_SEL_STAT_SLOT, 0), (8, Reg.SEC_SEC_STAT_FW_SVN, 0)] with pwr := { started := true }, flash := {} }

def img0 : EpochImage := ⟨0, 0, 0, 0, [], []⟩
/-- An image with the page of context 3. -/
def imgCtx : EpochImage := ⟨0, 0, 1, 0, [], [⟨1, BitVec.ofNat 16 (pg .ctx 3), 1, 0, 0, []⟩]⟩
def desc0 : StreamDesc := ⟨7, 1, false, false, 0, 512, 0, 0, 0, 0, 0, 0, 0, 0, 10⟩

def stDlb (src : Nat) (l : List (Nat × Fld × Nat)) : State :=
  stOn [pg .dlb 0] ([(pg .dlb 0, Reg.DLB_DLB_CFG_EN, 1), (pg .dlb 0, Reg.DLB_DLB_CFG_SOURCE, src)] ++ l)

def stDsp (l : List (Nat × Fld × Nat)) : State := stOn [pg .dsp 1] l

/-- Head 1 with layer 0 on, 16 by 16 pixels, and a buffer latched. -/
def stLayer : State :=
  let s := [(Reg.DSP_L_CFG_EN 0, 1), (Reg.DSP_L_SIZE_W 0, 16), (Reg.DSP_L_SIZE_H 0, 16), (Reg.DSP_TIM_H_HACTIVE, 16), (Reg.DSP_TIM_V_VACTIVE, 16),
    (Reg.DSP_L_PITCH_Y_PITCH 0, 64)].foldl (fun (s : State) (x : Fld × Nat) => s.wrA (pg .dsp 1) x.1 x.2) (stDsp [])
  { s with dsp := [(1, { latched := [⟨0, 4096, none⟩] })] }

/-- The same head once its raster runs. -/
def stRaster : State := { stLayer with dsp := [(1, { latched := [⟨0, 4096, none⟩], startAt := some 0 })] }

def stMem : State := stOn [pg .mch 0] [(pg .mch 0, Reg.MCH_MCH_STAT_STATE, 2)]
def req0 : MemReq := ⟨3, true, 0, 64, false, 1, 0, false, none⟩
/-- `stMem` once `req0` has reached the queue, and once the arbitration has picked it. -/
def stQueued : State := (stMem.advance 5).each [req0] (fun s r => s.enqueue 0 5 r)
def stPicked : State := ((stQueued.pick 0 5 ((stQueued.queueOf 0).filter (stQueued.eligible 0 5))).map Prod.snd).getD State.reset

def stDep : State :=
  { stOn [pg .bnk 3] [(pg .bnk 3, Reg.BNK_DEP_CFG_EN, 1), (pg .bnk 3, Reg.BNK_DEP_CFG_WHAT, 2), (pg .bnk 3, Reg.BNK_DEP_RING_LEN, 8),
      (pg .bnk 3, Reg.BNK_BNK_OWN_OWNER_ACT, 0x60)] with
    xf := { ctx := [(0, { outT := some emit0 })] } }

/-- Bank 3, all the words of whose spill have been written. -/
def stSpill : State := { stOn [pg .bnk 3] [(pg .bnk 3, Reg.BNK_SPILL_CTL_GO, 1)] with bank := { spill := [(3, ⟨0, 0, 0, 1, 0, 4, []⟩)] } }

/-- Core 7 running, with the bundle `w` at its pc. -/
def stCore (w : Nat) : State :=
  { stOn [pg .scr 7] [] with core := [(7, { state := 2, prog0 := [(0, BitVec.ofNat 64 w)], g := (Vector.replicate 32 0x0000000500000003).set 2 0x7FFFFFFF80000001 })] }
def stCore2 (w v : Nat) : State :=
  { stOn [pg .scr 7] [] with core := [(7, { state := 2, prog0 := [(0, BitVec.ofNat 64 w)], g := (Vector.replicate 32 0).set 6 (BitVec.ofNat 64 v) })] }
def stCore3 (w v : Nat) : State :=
  { stOn [pg .scr 7] [] with core := [(7, { state := 2, prog0 := [(0, BitVec.ofNat 64 w)], g := (Vector.replicate 32 0).set 1 (BitVec.ofNat 64 v) })] }
def stCoreSt (w st : Nat) : State :=
  { stOn [pg .scr 7] [] with core := [(7, { state := 2, prog0 := [(0, BitVec.ofNat 64 w)], st := BitVec.ofNat 16 st })] }
/-- Core 7 running a bundle that addresses `addr` through p0. -/
def stCtl (w addr : Nat) : State :=
  { stOn [pg .scr 7] [] with core := [(7, { state := 2, prog0 := [(0, BitVec.ofNat 64 w)], p := (Vector.replicate 8 0).set 2 (BitVec.ofNat 18 addr) })] }
def stEvq (w addr : Nat) : State :=
  { stOn [pg .scr 7] [] with core := [(7, { state := 2, prog0 := [(0, BitVec.ofNat 64 w)], p := (Vector.replicate 8 0).set 2 (BitVec.ofNat 18 addr), evq := [9] })] }
def stOwn (w addr : Nat) : State :=
  { stOn [pg .scr 7, pg .bnk 0] [(pg .bnk 0, Reg.BNK_BNK_OWN_OWNER_ACT, 7)] with
    core := [(7, { state := 2, g := (Vector.replicate 32 0).set 5 0x7F0000, prog0 := [(0, BitVec.ofNat 64 w)], p := (Vector.replicate 8 0).set 2 (BitVec.ofNat 18 addr) })] }

/-- Context 3 running and begun with a transform of 16 points, its page still to switch to the image `i`. -/
def stSwitch (i : Option EpochImage) : State :=
  { st9 [(pg .ctx 3, Reg.CTX_XF_CFG_KIND, 1), (pg .ctx 3, Reg.CTX_VIEW_PERIOD_PERIOD, 2 ^ 32),
      (pg .ctx 3, Reg.CTX_SRC_CFG_SLOT, 1)] with
    epo := { todo := [pg .ctx 3], live := i }, acq := { ctx := [(3, { running := true, begun := true, last := 4080 })] }
    ing := { view := [(3, { held := [⟨4096, 1, 0, 0⟩] })] } }

theorem ranks : logicalRanks = 3 ∨ logicalRanks = 4 := by
  unfold logicalRanks
  split
  · exact .inl rfl
  · exact .inr rfl

/-- State.locate where the module has `k` logical ranks. -/
def locateWith (k : Nat) (s : State) (a : Nat) : Option MemLoc :=
  let l := s.inService
  let g := a / 4096
  if l.isEmpty then none
  else
    let n := g / l.length
    if k ≤ n / rankGranules then none
    else (l[g % l.length]?).map (fun e => ⟨e.1, e.2, n / rankGranules, n % rankGranules⟩)

theorem locate_eq : State.locate = locateWith logicalRanks := rfl

/-- The state that a command, and a step, leaves. -/
def after (c : Instr) (s : State) : State := match exec c s with
  | .next u => u
  | _ => s
def afterStep (s : State) : State := match step s with
  | .next u => u
  | _ => s

/-! The registers and events of spec/02_register_pages.md's examples. -/

theorem test_page_of_ctx17 : pg .ctx 17 = 0x211 ∧ pg .lqd 17 = 0x061 := by decide +kernel

theorem test_event_of_lane_fault : evId .lqd 17 5 = 0x28D ∧ evFirstOf (pg .lqd 17) = 0x288 ∧ evCountOf (pg .lqd 17) = 8 := by decide +kernel

/-- R35: a 32-bit write is ignored and logged with kind 0b001. -/
theorem test_narrow_write_is_logged :
    (let u := after (.registerWrite 5 0x061028 4 0x20) (st9 [(pg .lqd 17, Reg.EV_PEND, 0x20)])
     u.rd (pg .glb 0) Reg.GLB_ACC_ERR_LOG_KIND = 1 ∧ u.rd (pg .lqd 17) Reg.EV_PEND = 0x20) := by decide +kernel

/-- R45: a 64-bit write of the bit clears it. -/
theorem test_pend_bit_is_cleared :
    (let u := after (.registerWrite 5 0x061028 8 0x20) (st9 [(pg .lqd 17, Reg.EV_PEND, 0x20)])
     u.rd (pg .lqd 17) Reg.EV_PEND = 0) := by decide +kernel

/-! Time (spec/04_clocks_timebase.md's examples). -/

theorem test_ptp_time : ((st9 []).wrA (pg .tmb 0) Reg.TMB_PTP_SEC_SEC 1700000000).ptpOf (2 ^ 40) = (1700000687, 194767360 * 65536) := by
  decide +kernel

theorem test_sample_stamp :
    fineStamp ((st9 [(pg .slt 0, Reg.SLT_SMP_PERIOD_PERIOD, 0x19999999A)]).slotFine 0 0 100 3) = 104 * 16 + 13 := by decide +kernel

/-- R196, R198: with k = 6 a view sample lies 2,093.5 source periods before its newest source sample, here of a 16th of a tick each. -/
theorem test_view_stamp : (⟨32, 1, 6, 0, 0, 0, 2 ^ 32, 16, false⟩ : ViewSet).decStamp (1000 * 2 ^ 32) = 16000 - 2093 := by decide +kernel

/-! A mask line (spec/10_trigger.md's example). -/

theorem test_mask_line : lineLevel (128, -15360, 1677722) 200 = -13517 := by decide +kernel

/-! Parity (R528): every byte with its bit holds an odd number of ones. -/

theorem test_parity : parityOf 0 = 0xFF ∧ parityOf 0x0100000000000003 = 0x7F := by decide +kernel

/-! Density and tone mapping (spec/09_density.md's examples). -/

theorem test_decay : decayStep 1 3 0 100 = 87 ∧ decayStep 1 3 0 1 = 0 := by decide +kernel

theorem test_luma : lumaOf 0 64 959 1 = 64 ∧ lumaOf 0 64 959 256 = 544 ∧ lumaOf 0 64 959 65535 = 1023 := by decide +kernel

/-! The address map (spec/14_memory.md's example). -/

theorem test_address_map : State.reset.locate 0x1A2B3C4D50 = some ⟨8, 1, 2, 17767⟩ := by
  rw [locate_eq]
  have h := ranks
  generalize logicalRanks = k at h ⊢
  rcases h with rfl | rfl <;> decide +kernel

theorem test_bank_and_row : (⟨8, 1, 2, 17767⟩ : MemLoc).bank = 7 ∧ (⟨8, 1, 2, 17767⟩ : MemLoc).row = 1480 := by decide +kernel

/-! The converter (spec/19_housekeeping.md's example: 1.28 ms, 100 ms and 30 ms). -/

theorem test_settling :
    settleTicks 4 4095 0 = 2048000 ∧ settleTicks 1 63999 19 = 160000000 ∧ settleTicks 3 63999 3 = 48000000 := by decide +kernel

/-! Cores: words written out from the encodings of R463 to R475. -/

/-- ADD g3, g1, g2: form 00, OPC 000001, gd 00011, ga 00001, gb 00010, F 0 (R466). -/
def addWord : Nat := 0b00_0_000001_00011_00001_00010_0_0000000 * 2 ^ 32

theorem test_add_decodes : bundleLegal addWord false = true ∧ bundleOps addWord false = [.add] ∧ bGd addWord = 3 ∧ bGa addWord = 1 ∧
    bGb addWord = 2 ∧ bF addWord = false := by decide +kernel

/-- The sum is there for the next bundle: 0x0000000500000003 + 0x7FFFFFFF80000001 (R466). -/
theorem test_add :
    (let u := after (.opAdd 5 7 ⟨0, 0, 0⟩) (stCore addWord)
     (u.coreAt 7).settle.gr 3 = 0x8000000480000004 ∧ (u.coreAt 7).pc = 1) := by decide +kernel

/-- CMUL g1, g2 into ac0: form 00, MAC 1, NEG 0, OP0 001, OP1 000, A0 0, A1 0, ga 00001, gb 00010 (R468). -/
def cmulWord : Nat := 0b00_1_0_001_000_0_0_00001_00010_00000_00000 * 2 ^ 32

theorem test_cmul_decodes : bundleOps cmulWord false = [.cmul] ∧ macUnit cmulWord 0 = (1, 1, 2, 0) := by decide +kernel

/-- A load of g4 through p2 in the X slot: OP 01, REG 000100, P 010, AM 000, D 00 (R471). -/
def loadWord : Nat := 0b01_000100_010_000_00 * 2 ^ 16

theorem test_load_decodes : bundleOps loadWord false = [.ld] ∧ vOp (xMove loadWord) = 1 := by decide +kernel

/-- A long immediate of -1 for p2: form 10, DEST 1000010 (R463, R475). -/
def liWord : Nat := 0b10_1000010_0000000 * 2 ^ 48 + 0xFFFFFFFFFFFF

theorem test_li_decodes : bundleLegal liWord false = true ∧ bundleOps liWord false = [.li] := by decide +kernel

theorem test_li :
    (let u := after (.opLi 5 7 ⟨0, 0, 0⟩) (stCore liWord)
     (u.coreAt 7).drain.getReg 66 = 0x3FFFF) := by decide +kernel

/-- A form 11 bundle is illegal (R463, R476). -/
theorem test_form_11_is_illegal : bundleLegal (0b11 * 2 ^ 62) false = false := by decide +kernel

/-! The queue. -/

theorem test_step_takes_the_front :
    (let u := afterStep { State.reset with pending := [.smbUnknownCommand 3, .smbAlertResponse] }
     u.pending = [.smbAlertResponse]) := by decide +kernel

theorem test_empty_queue_idles : step State.reset = .next State.reset := rfl

theorem test_no_word_spells_a_command : Sys2Proof.decodeTableWord 16 0x1234 = none ∧ State.reset.withFetchWord 16 0x1234 = State.reset := ⟨rfl, rfl⟩

/-! Ill-formed commands, one for each check of Sys2Proof/WellFormed.lean. -/

theorem test_ill_write_of_no_bytes : (Instr.registerWrite 0 0x100 0 0).wf = false := by decide +kernel
theorem test_ill_write_too_wide : (Instr.registerWrite 0 0x100 4 0x100000000).wf = false := by decide +kernel
theorem test_ill_read_past_the_window : (Instr.bar0FlaggedRead 0 0xFFFFFC 8).wf = false := by decide +kernel
theorem test_ill_empty_burst : (Instr.bar0BurstRequest 0 true 0x100 []).wf = false := by decide +kernel
theorem test_ill_band_table : (Instr.bandCalDone 0 []).wf = false := by decide +kernel
theorem test_ill_margins : (Instr.releasePoint 0 0 (List.replicate 17 none)).wf = false := by decide +kernel
theorem test_ill_estimates : (Instr.tier0Update 0 0 []).wf = false ∧ (Instr.t1Window1End 0 0 []).wf = false := by decide +kernel
theorem test_ill_bar2_read : (Instr.bar2Read 0 0 0).wf = false := by decide +kernel
theorem test_ill_bar2_write : (Instr.bar2Write 0 0 []).wf = false := by decide +kernel
theorem test_ill_bar2_size : (Instr.bar2Resize 0 19).wf = false ∧ (Instr.bar2Resize 0 64).wf = false := by decide +kernel
theorem test_ill_aux_data : (Instr.auxDone 0 0 0 (List.replicate 17 0)).wf = false := by decide +kernel
theorem test_ill_members : (Instr.recOpen 0 0 []).wf = false := by decide +kernel
theorem test_ill_sequence : (Instr.hkSequence 0 0 (List.replicate 65 ⟨0, false, 3, 255, 0⟩)).wf = false := by decide +kernel
theorem test_ill_delays : (Instr.deltanDelayRx 0 0 [] false true).wf = false := by decide +kernel
theorem test_ill_path : (Instr.streamWdExpiry 0 [] ⟨.samples, 3⟩).wf = false := by decide +kernel

/-! Witnesses: each statement's hypotheses are met together, clause by clause. -/

theorem witness_Bar0AccessesTakeEffect :
    (∃ (c : Fin 1024) (f : Fld) (s : State), (s.hostOpen (pg .ctx c)) ∧ (f ∈ ctxFields) ∧ f.acc = .rw ∧ (f.off ≠ 0x650) ∧ (s.inEpoch (pg .ctx c) = false)) ∧
    (∃ (off : BitVec 24) (s : State), (s.hostOpen (off.toNat / 4096)) ∧ (mapped (off.toNat / 4096) = false) ∧ (s.rd (pg .glb 0) Reg.GLB_ACC_ERR_LOG_VALID
      = 0)) ∧
    (∃ (off : BitVec 24) (len : Nat) (s : State), (s.hostOpen (off.toNat / 4096)) ∧ (mapped (off.toNat / 4096) = true) ∧ (¬(len = 8 ∧ off.toNat % 8 = 0) ∧
      ¬(len = 4 ∧ off.toNat % 4 = 0))) ∧
    (∃ (off : BitVec 24) (bytes : List Byte), bytes.length = 8 ∧ (off.toNat % 8 = 0)) ∧
    (∃ (c : Fin 1024) (f : Fld) (s : State), (s.hostOpen (pg .ctx c)) ∧ (f ∈ ctxFields) ∧ f.acc = .rw ∧ (f.off ≠ 0x650) ∧ (s.inEpoch (pg .ctx c) = false)) ∧
    (∃ (off : BitVec 24) (bytes : List Byte) (s : State), (s.hostOpen (off.toNat / 4096)) ∧ (mapped (off.toNat / 4096) = true) ∧ (bytes.length = 16 ∧
      off.toNat % 8 = 0 ∧ off.toNat % 4096 ≤ 0xFF0)) ∧
    (∃ (bytes : List Byte), (64 < bytes.length)) :=
  ⟨⟨3, Reg.CTX_SRC_CFG_SLOT, st9 [], by decide +kernel⟩,
    ⟨0x00C000, st9 [], by decide +kernel⟩,
    ⟨0x000104, 8, st9 [], by decide +kernel⟩,
    ⟨0x00B1D0, [1, 0, 0, 0, 0, 0, 0, 0], by decide +kernel⟩,
    ⟨3, Reg.CTX_SRC_CFG_SLOT, st9 [], by decide +kernel⟩,
    ⟨0x002100, List.replicate 16 0, st9 [], by decide +kernel⟩,
    ⟨List.replicate 65 0, by decide +kernel⟩⟩

theorem witness_PageHeaderCommandsComplete :
    (∃ (t : Nat) (x : Held) (l : List Held) (s : State), (s.page.held = x :: l) ∧ (x.at_ + 8000000 ≤ ((s.advance t).now : Int))) ∧
    (∃ (t : Nat) (page : Fin 4096) (en : Bool) (s : State), s.hostOpen page ∧ mapped page = true ∧ pageAlwaysOn page = false ∧ (s.ctlRefused page (b2n en)
      0 (s.pstate page) = false) ∧ (∀ x, smFind page.val s.page.enAt = some x → x ≤ (s.advance t).tick)) ∧
    (∃ (t : Nat) (page : Fin 4096) (s : State), s.en page = 0 ∧ ((s.advance t).atStop page t = true)) ∧
    (∃ (page : Fin 4096) (s : State), s.hostOpen page ∧ mapped page = true ∧ pageAlwaysOn page = false ∧ (s.ctlRefused page (s.en page) 1 (s.pstate page)
      = false) ∧ s.on page Reg.PG_CTL_SRST = false ∧ s.on page Reg.PG_STAT_PSTATE_BUSY = false) ∧
    (∃ (page : Fin 4096) (s : State), s.on page Reg.PG_STAT_SRST_BUSY = true) ∧
    (∃ (page : Fin 4096) (ps : Fin 4) (s : State), s.hostOpen page ∧ mapped page = true ∧ (s.ctlRefused page (s.en page) 0 ps = false) ∧ (ps.val ≠
      s.pstate page) ∧ (ps.val ≠ s.pstateAct page) ∧ s.on page Reg.PG_STAT_SRST_BUSY = false) ∧
    (∃ (t : Nat) (page : Fin 4096) (s : State), s.on page Reg.PG_STAT_PSTATE_BUSY = true ∧ s.on page Reg.PG_STAT_SRST_BUSY = false ∧ ((s.advance
      t).wakeOver page = true ∨ s.pstate page ≠ 0) ∧ (¬(s.pstateAct page = 3 ∧ s.pstate page = 0 ∧ (blkOf page = some .bnk ∨ blkOf page = some
      .hka)))) :=
  ⟨⟨8000000, ⟨false, 0, 8, 0, 0⟩, [], { State.reset with page := { held := [⟨false, 0, 8, 0, 0⟩] } }, by decide +kernel⟩,
    ⟨5, 0x600, true, st9 [], by decide +kernel⟩,
    ⟨5, 0x600, st9 [(0x600, Reg.PG_STAT_EN_ACT 0, 1)], by decide +kernel⟩,
    ⟨0x600, st9 [], by decide +kernel⟩,
    ⟨0x640, st9 [(0x640, Reg.PG_CTL_SRST, 1), (0x640, Reg.PG_STAT_SRST_BUSY, 1)], by decide +kernel⟩,
    ⟨0x600, 0, st9 [], by decide +kernel⟩,
    ⟨80005, 0x600, st9 [(0x600, Reg.PG_STAT_PSTATE_BUSY, 1), (0x600, Reg.PG_CTL_PSTATE 3, 0)], by decide +kernel⟩⟩

theorem witness_EventAndShadowRegistersComplete :
    (∃ (page : Fin 4096) (s : State), s.hostOpen page ∧ mapped page = true) ∧
    (∃ (page : Fin 4096) (s : State), s.hostOpen page ∧ mapped page = true) ∧
    (∃ (page : Fin 4096) (s : State), s.hostOpen page ∧ mapped page = true) ∧
    (∃ (page : Fin 4096) (s : State), s.hostOpen page ∧ mapped page = true) ∧
    (∃ (t : Nat) (s : State), ((s.rd (pg .tmb 0) Reg.SH_CTL_COMMIT).testBit 0 = true) ∧ ((s.advance t).shadow (pg .tmb 0) Reg.TMB_PTP_NS_NS < 10 ^ 9)) ∧
    (∃ (t : Nat) (s : State), ((s.rd (pg .tmb 0) Reg.SH_CTL_COMMIT).testBit 0 = true) ∧ (10 ^ 9 ≤ (s.advance t).shadow (pg .tmb 0) Reg.TMB_PTP_NS_NS)) :=
  ⟨⟨0x600, st9 [(0x600, Reg.EV_PEND, 3)], by decide +kernel⟩,
    ⟨0x600, st9 [(0x600, Reg.EV_PEND, 3)], by decide +kernel⟩,
    ⟨0x880, st9 [], by decide +kernel⟩,
    ⟨0x880, st9 [(0x880, Reg.SH_CTL_COMMIT, 3)], by decide +kernel⟩,
    ⟨5, st9 [(2, Reg.SH_CTL_COMMIT, 1), (2, Reg.TMB_PTP_SEC_SEC, 7)], by decide +kernel⟩,
    ⟨5, st9 [(2, Reg.SH_CTL_COMMIT, 1), (2, Reg.TMB_PTP_NS_NS, 1000000000)], by decide +kernel⟩⟩

theorem witness_SequenceMonitorCommandsComplete :
    (∃ (us : Nat) (rail : Fin 9) (full : Bool) (hbm : HbmRails) (s : State), s.pwr.seqFault = false ∧ ((s.pwr.rise us rail full).isUp 2 = true) ∧
      (seqCause (s.pwr.rise us rail full) us (if full then rail.val else 9) hbm ≠ 0)) ∧
    (∃ (us : Nat) (s : State), s.pwr.isUp 2 = true ∧ (s.pwr.up ≠ 0x1FF) ∧ (s.pwr.upSince 2 + 100000 ≤ us)) ∧
    (∃ (s : State), s.pwr.started = true) ∧
    (∃ (us : Nat) (s : State), s.pwr.canStart us = true) ∧
    (∃ (s : State), s.pwr.started = true ∧ s.boot.avsSent = false) ∧
    (∃ (s : State), s.pwr.started = true ∧ s.boot.avsSent = true) ∧
    (∃ (us : Nat) (s : State), s.pwr.started = true ∧ s.boot.avsSent = true ∧ (s.on (pg .pwr 0) Reg.PWR_CORE_AVS_AVS_OK = false) ∧ (s.boot.avsAt + 10000 ≤
      us)) ∧
    (∃ (s : State), s.pwr.isUp 2 = true ∧ (s.pwr.inTol < 2 ^ 9 ∧ s.pwr.ov < 2 ^ 9 ∧ s.pwr.inTol &&& s.pwr.ov = 0)) ∧
    (∃ (s : State), s.pwr.started = true) ∧
    (∃ (s : State), s.pwr.started = true) :=
  ⟨⟨5, 0, true, ⟨0, 0, 0⟩, { State.reset with pwr := { up := 4, down := 0x1FB } }, by decide +kernel⟩,
    ⟨100005, { State.reset with pwr := { up := 4, down := 0x1FB, upAt := [(2, 5)] } }, by decide +kernel⟩,
    ⟨st9 [], by decide +kernel⟩,
    ⟨5000, { State.reset with pwr := { up := 0x1FF, down := 0, porHigh := true } }, by decide +kernel⟩,
    ⟨{ State.reset with pwr := { started := true } }, by decide +kernel⟩,
    ⟨{ st9 [] with boot := { avsSent := true } }, by decide +kernel⟩,
    ⟨10000, { State.reset with pwr := { started := true }, boot := { avsSent := true } }, by decide +kernel⟩,
    ⟨st9 [], by decide +kernel⟩,
    ⟨st9 [], by decide +kernel⟩,
    ⟨st9 [], by decide +kernel⟩⟩

theorem witness_OutputFaultAndWireTestCommandsComplete :
    (∃ (t : Nat) (j : Fin 16) (padHigh : Bool) (v : State) (s : State), (v = (s.advance t).routerTo t) ∧ (shortKind j (v.tio.level.testBit j) padHigh ≠ 0)
      ∧ v.shortOf j = 0 ∧ ((v.rd (pg .tio 0) Reg.TIO_OUT_FLT_CTL_DET_EN).testBit j = true) ∧ (∀ x, smFind j.val v.tio.changeAt = some x → x +
      shortCheckTicks ≤ v.tick)) ∧
    (∃ (t : Nat) (j : Fin 16) (v : State) (s : State), (v = (s.advance t).routerTo t) ∧ ((v.rd (pg .tio 0) Reg.TIO_OUT_FLT_CTL_RETRY_EN).testBit j = true)
      ∧ (v.shortOf j ≠ 0) ∧ (smGet 0 j v.tio.retryAt ≤ v.tick)) ∧
    (∃ (s : State), (s.hostOpen (pg .tio 0))) ∧
    (∃ (s : State), (s.hostOpen (pg .tio 0))) ∧
    (∃ (s : State), (s.hostOpen (pg .cmp 0)) ∧ s.tio.owPass = false ∧ (bitsOf 24 (s.rd (pg .cmp 0) Reg.CMP_OW_CTL_MASK) ≠ [])) ∧
    (∃ (t : Nat) (s : State), (s.rd (pg .cmp 0) Reg.CMP_OW_CTL_PERIOD ≠ 0) ∧ s.tio.owPass = false ∧ (bitsOf 24 (s.rd (pg .cmp 0) Reg.CMP_OW_CTL_MASK) ≠
      []) ∧ (s.tio.owNextAt ≤ (s.advance t).tick)) ∧
    (∃ (t : Nat) (pin : Fin 24) (rest : List Nat) (s : State), (s.tio.owTodo = pin.val :: rest) ∧ (s.tio.owAt + owTicks ≤ (s.advance t).tick) ∧
      s.owBlocked pin = false) :=
  ⟨⟨5, 1, true, ((st9 [(pg .tio 0, Reg.TIO_OUT_FLT_CTL_DET_EN, 0xFFFF)]).advance 5).routerTo 5, st9 [(pg .tio 0, Reg.TIO_OUT_FLT_CTL_DET_EN, 0xFFFF)],
      by decide +kernel⟩,
    ⟨5, 1, ((st9 [(pg .tio 0, Reg.TIO_OUT_FLT_CTL_RETRY_EN, 0xFFFF), (pg .tio 0, Reg.TIO_OUT_FLT_STAT_KIND, 8)]).advance 5).routerTo 5, st9 [(pg .tio 0,
      Reg.TIO_OUT_FLT_CTL_RETRY_EN, 0xFFFF), (pg .tio 0, Reg.TIO_OUT_FLT_STAT_KIND, 8)], by decide +kernel⟩,
    ⟨st9 [(pg .tio 0, Reg.TIO_OUT_FLT_STAT_KIND, 8)], by decide +kernel⟩,
    ⟨st9 [(pg .tio 0, Reg.TIO_OUT_FLT_CTL_DET_EN, 3)], by decide +kernel⟩,
    ⟨st9 [(5, Reg.CMP_OW_CTL_MASK, 6)], by decide +kernel⟩,
    ⟨5, st9 [(5, Reg.CMP_OW_CTL_MASK, 6), (5, Reg.CMP_OW_CTL_PERIOD, 1)], by decide +kernel⟩,
    ⟨3200, 3, [], { st9 [] with tio := { owPass := true, owTodo := [3] } }, by decide +kernel⟩⟩

theorem witness_SidebandCommandsComplete :
    (∃ (s : State), (s.cutOff .page (pg .pwr 0) = false)) ∧
    (∃ (s : State), s.pwr.isUp 2 = true) ∧
    (∃ (s : State), s.pwr.isUp 2 = true) ∧
    (∃ (s : State), s.pwr.isUp 2 = true) ∧
    (∃ (s : State), s.pwr.isUp 2 = true) ∧
    (∃ (s : State), s.pwr.isUp 2 = true) ∧
    (∃ (s : State), s.pwr.isUp 2 = true) ∧
    (∃ (s : State), s.pwr.isUp 2 = true ∧ s.pwr.alert = true) ∧
    (∃ (cmd : Byte) (s : State), s.pwr.isUp 2 = true ∧ (cmd.toNat ∉ [0x01, 0x02, 0x03, 0x04, 0x0F, 0x10])) :=
  ⟨⟨st9 [], by decide +kernel⟩,
    ⟨st9 [], by decide +kernel⟩,
    ⟨st9 [], by decide +kernel⟩,
    ⟨st9 [], by decide +kernel⟩,
    ⟨st9 [], by decide +kernel⟩,
    ⟨st9 [], by decide +kernel⟩,
    ⟨st9 [], by decide +kernel⟩,
    ⟨{ st9 [] with pwr := { up := 0x1FF, down := 0, alert := true } }, by decide +kernel⟩,
    ⟨5, st9 [], by decide +kernel⟩⟩

theorem witness_LockAndReleaseCommandsComplete :
    (∃ (samples : List (BitVec 4)) (s : State), (s.on (pg .clk 0) Reg.CLK_PLL_STAT_REF_PRESENT = true) ∧ s.lossSeen samples = true) ∧
    (∃ (periods : Nat), (100000 ≤ periods)) ∧
    (∃ (s : State), (s.hostOpen (pg .clk 0)) ∧ (s.on (pg .clk 0) Reg.CLK_PLL_STAT_REF_PRESENT = true)) ∧
    (∃ (s : State), s.clk.phase = 1) ∧
    (∃ (t : Nat) (w1 : List Nat) (w2 : List Nat) (s : State), s.clk.phase = 2 ∧ (s.clk.phaseAt + 2 * s.checkWindow s.clk.hz ≤ (s.advance t).now) ∧
      (s.windowOk w1 = true ∧ s.windowOk w2 = true)) ∧
    (∃ (t : Nat) (s : State), s.clk.phase = 4 ∧ (s.clk.phaseAt + s.rd (pg .clk 0) Reg.CLK_SYSREF_CTL_SYSREF_WAIT * 1600000 ≤ (s.advance t).now)) ∧
    (∃ (s : State), s.canRelease = true ∧ s.clk.counting = false) ∧
    (∃ (s : State), s.canRelease = true ∧ s.clk.counting = true ∧ (s.page.held = [])) ∧
    (∃ (s : State), s.gated = false) ∧
    (∃ (s : State), (s.hostOpen (pg .clk 0)) ∧ (s.running = [])) ∧
    (∃ (t : Nat) (bands : List BandCount) (s : State), s.clk.phase = 9 ∧ bands.length = 64 ∧ (s.clk.phaseAt + s.bandCalTicks ≤ (s.advance t).now)) ∧
    (∃ (t : Nat) (s : State), s.clk.phase = 0 ∧ s.gated = true ∧ (s.clk.retryAt.any (fun x => decide (x ≤ (s.advance t).now)) = true) ∧ (s.on (pg .clk 0)
      Reg.CLK_REF_CFG_AUTO_RELOCK = true) ∧ (s.on (pg .glb 0) Reg.GLB_BOOT_STAT_FAILED = false) ∧ (s.clk.counting = true ∨ s.boot.lockTries < 100)) ∧
    (∃ (s : State), (s.hostOpen (pg .clk 0))) :=
  ⟨⟨[3, 3, 3, 3, 3], { st9 [(1, Reg.CLK_PLL_STAT_REF_PRESENT, 1)] with clk := { counting := true, hz := 100000000 } }, by decide +kernel⟩,
    ⟨100000, by decide +kernel⟩,
    ⟨st9 [(1, Reg.CLK_PLL_STAT_REF_PRESENT, 1)], by decide +kernel⟩,
    ⟨{ st9 [] with clk := { phase := 1 } }, by decide +kernel⟩,
    ⟨10 ^ 12, checkedOutputs.map (st9 []).divFreq, checkedOutputs.map (st9 []).divFreq, { st9 [] with clk := { phase := 2, hz := 100000000 } }, by decide +kernel⟩,
    ⟨16000000000, { st9 [] with clk := { phase := 4 } }, by decide +kernel⟩,
    ⟨{ State.reset with clk := { phase := 5, startAt := 7 }, rf := (ups [(1, Reg.CLK_PLL_CTL_GATE_HOLD, 0)]).rf }, by decide +kernel⟩,
    ⟨{ State.reset with clk := { phase := 5, counting := true }, rf := (ups [(1, Reg.CLK_PLL_CTL_GATE_HOLD, 0)]).rf }, by decide +kernel⟩,
    ⟨st9 [], by decide +kernel⟩,
    ⟨st9 [], by decide +kernel⟩,
    ⟨10 ^ 15, List.replicate 64 ⟨1, 2, 3⟩, { st9 [] with clk := { phase := 9 } }, by decide +kernel⟩,
    ⟨5,
      { ups [(1, Reg.CLK_PLL_STAT_FAIL_CAUSE, 2), (1, Reg.CLK_REF_CFG_AUTO_RELOCK, 1), (1, Reg.CLK_PLL_STAT_GATED, 1)] with clk := { retryAt := some 5 } },
      by decide +kernel⟩,
    ⟨State.reset, by decide +kernel⟩⟩

theorem witness_TrimAndTimebaseCommandsComplete :
    (∃ (s : State), (s.hostOpen (pg .clk 0))) ∧
    (∃ (t : Nat) (s : State), s.gated = false ∧ (s.clk.trimAt + 1600 ≤ (s.advance t).tick)) ∧
    (∃ (s : State), (s.rd (pg .clk 0) Reg.CLK_SYSREF_CTL_MODE = 2)) ∧
    (∃ (s : State), (s.rd (pg .clk 0) Reg.CLK_SYSREF_CTL_MODE = 1) ∧ (s.on (pg .clk 0) Reg.CLK_SYSREF_CTL_ARM = true) ∧ s.clk.phase = 4) ∧
    (∃ (s : State), (s.hostOpen (pg .clk 0))) ∧
    (∃ (s : State), (s.hostOpen (pg .tmb 0))) :=
  ⟨⟨st9 [], by decide +kernel⟩,
    ⟨1600, st9 [(1, Reg.CLK_FTRIM_TARGET, 500), (1, Reg.CLK_FTRIM_SLEW, 7)], by decide +kernel⟩,
    ⟨st9 [(1, Reg.CLK_SYSREF_CTL_MODE, 2)], by decide +kernel⟩,
    ⟨{ st9 [(1, Reg.CLK_SYSREF_CTL_MODE, 1), (1, Reg.CLK_SYSREF_CTL_ARM, 1)] with clk := { phase := 4 } }, by decide +kernel⟩,
    ⟨st9 [], by decide +kernel⟩,
    ⟨st9 [], by decide +kernel⟩⟩

theorem witness_StartupCommandsComplete :
    (∃ (t : Nat) (slot : Fin 2) (flash : Option FwImage) (v : State) (s : State), s.pwr.started = true ∧ s.boot.warmHeld = false ∧ s.boot.verified = false
      ∧ s.svc.restarting = false ∧ (s.rd (pg .glb 0) Reg.GLB_BOOT_STAT_STEP = 3) ∧ (s.on (pg .glb 0) Reg.GLB_BOOT_STAT_FAILED = false) ∧
      s.secSync.romSlotNext = slot ∧ (v = (s.advance t).secSync.slotReads slot flash) ∧ (v.fwReason (v.slotImage slot) = 0)) ∧
    (∃ (t : Nat) (slot : Fin 2) (flash : Option FwImage) (v : State) (s : State), s.pwr.started = true ∧ s.boot.warmHeld = false ∧ s.boot.verified = false
      ∧ (s.rd (pg .glb 0) Reg.GLB_BOOT_STAT_STEP = 3) ∧ (s.on (pg .glb 0) Reg.GLB_BOOT_STAT_FAILED = false) ∧ s.secSync.romSlotNext = slot ∧ (v =
      (s.advance t).secSync.slotReads slot flash) ∧ (v.fwReason (v.slotImage slot) ≠ 0)) ∧
    (∃ (speed : Fin 6) (width : Fin 17) (s : State), s.pwr.started = true ∧ (speed ≠ 0) ∧ (width ≠ 0)) ∧
    (∃ (s : State), (s.rd (pg .glb 0) Reg.GLB_BOOT_STAT_STEP = 6) ∧ s.boot.done.testBit 0 = false ∧ s.gated = false) ∧
    (∃ (t : Nat) (b : Fin 64) (s : State), (s.rd (pg .glb 0) Reg.GLB_BOOT_STAT_STEP = 6) ∧ (b.val ∉ s.boot.cleared) ∧ (∀ x, smFind (pg .bnk b) s.page.enAt
      = some x → x < (s.advance t).tick) ∧ s.gated = false) ∧
    (∃ (s : State), (s.rd (pg .glb 0) Reg.GLB_BOOT_STAT_STEP = 6) ∧ s.boot.done = 7 ∧ (s.on (pg .glb 0) Reg.GLB_BOOT_STAT_FAILED = false) ∧ s.clk.counting
      = true ∧ s.gated = false ∧ s.boot.warmHeld = false ∧ (s.page.held = [])) :=
  ⟨⟨5, 0, some fwImg, ((stRom.advance 5).secSync).slotReads 0 (some fwImg), stRom, by decide +kernel⟩,
    ⟨5, 0, some { fwImg with signed := false }, ((stRom.advance 5).secSync).slotReads 0 (some { fwImg with signed := false }), stRom, by decide +kernel⟩,
    ⟨5, 16, st9 [], by decide +kernel⟩,
    ⟨st9 [(0, Reg.GLB_BOOT_STAT_STEP, 6)], by decide +kernel⟩,
    ⟨5, 2, st9 [(0, Reg.GLB_BOOT_STAT_STEP, 6)], by decide +kernel⟩,
    ⟨{ st9 [(0, Reg.GLB_BOOT_STAT_STEP, 6)] with boot := { done := 7 }, clk := { counting := true } }, by decide +kernel⟩⟩

theorem witness_WarmResetCommandsComplete :
    (∃ (periods : Nat) (s : State), s.pwr.started = true ∧ s.boot.warmHeld = false ∧ (100 ≤ periods)) ∧
    (∃ (s : State), s.pwr.started = true ∧ s.boot.warmHeld = false ∧ (s.on (pg .glb 0) Reg.GLB_BOOT_CTL_HOST_ISOLATE = false)) ∧
    (∃ (s : State), s.pwr.started = true ∧ (s.on (pg .glb 0) Reg.GLB_BOOT_CTL_HOST_ISOLATE = true)) ∧
    (∃ (s : State), s.pwr.started = true ∧ s.boot.warmHeld = false ∧ (s.on (pg .glb 0) Reg.GLB_BOOT_CTL_HOST_ISOLATE = false)) ∧
    (∃ (s : State), s.boot.warmHeld = true) :=
  ⟨⟨100, st9 [], by decide +kernel⟩,
    ⟨st9 [], by decide +kernel⟩,
    ⟨st9 [(0, Reg.GLB_BOOT_CTL_HOST_ISOLATE, 1)], by decide +kernel⟩,
    ⟨st9 [], by decide +kernel⟩,
    ⟨{ st9 [] with boot := { warmHeld := true } }, by decide +kernel⟩⟩

theorem witness_LaneAndLinkCommandsComplete :
    (∃ (lane : Fin 224) (s : State), s.laneOn lane = true) ∧
    (∃ (lane : Fin 224) (inverted : Bool) (s : State), s.laneOn lane = true ∧ s.ing.cdr.contains lane.val = true ∧ (inverted = false ∨ (s.rd (lanePage
      lane) Reg.LQD_LANE_CTL_POL_AUTO).testBit (lane % 8) = true)) ∧
    (∃ (lane : Fin 224) (s : State), s.laneOn lane = true ∧ (s.on (lanePage lane) (Reg.LQD_LANE_STAT_BLOCK_LOCK (lane % 8)) = true)) ∧
    (∃ (lane : Fin 224) (s : State), (s.on (lanePage lane) (Reg.LQD_LANE_STAT_BLOCK_LOCK (lane % 8)) = true)) ∧
    (∃ (lane : Fin 224) (s : State), (s.on (lanePage lane) (Reg.LQD_LANE_STAT_EMB_LOCK (lane % 8)) = true)) ∧
    (∃ (t : Nat) (l : Fin 64) (margins : List (Option Nat)) (s : State), s.linkOn l = true ∧ (s.gated = false ∧ (s.lnk l).busy = false) ∧ (s.releaseDue l
      t = true ∧ s.linkSwitching l t = false) ∧ (∀ x ∈ s.linkLanes l, x < 224 ∧ s.on (lanePage x) (Reg.LQD_LANE_STAT_EMB_LOCK (x % 8)) = true ∧ smGet
      0 x s.ing.lockAt < t) ∧ (releasable margins (s.linkLanes l).length = true)) ∧
    (∃ (t : Nat) (l : Fin 64) (margins : List (Option Nat)) (s : State), s.linkOn l = true ∧ (s.gated = false ∧ (s.lnk l).busy = false) ∧ (s.releaseDue l
      t = true ∧ s.linkSwitching l t = false) ∧ s.linkState l = 4 ∧ (releasable margins (s.linkLanes l).length = false)) ∧
    (∃ (t : Nat) (l : Fin 64) (s : State), s.linkOn l = true ∧ s.gated = false ∧ (s.linkState l = 4 ∧ (s.lnk l).gatedOnly = false ∧ (s.lnk l).cause = 0) ∧
      ((s.lnk l).wdFrom + s.rd (pg .lnk l) Reg.LNK_LINK_WD_WD ≤ (s.advance t).tick)) ∧
    (∃ (lane : Fin 224) (s : State), s.laneOn lane = true) ∧
    (∃ (l : Fin 64) (j : Fin 16) (mb : Fin 32) (s : State), (s.linkOn l = true ∧ s.gated = false) ∧ (j.val < (s.linkLanes l).length ∧ s.physLane l j < 224
      ∧ mb.val ≤ s.rd (pg .lnk l) Reg.LNK_LINK_CFG_E_M1) ∧ (s.rd (pg .lnk l) Reg.LNK_LINK_CFG_CHECK = 2)) ∧
    (∃ (l : Fin 64) (j : Fin 16) (mb : Fin 32) (s : State), (s.linkOn l = true ∧ s.gated = false) ∧ (j.val < (s.linkLanes l).length ∧ s.physLane l j < 224
      ∧ mb.val ≤ s.rd (pg .lnk l) Reg.LNK_LINK_CFG_E_M1) ∧ (s.rd (pg .lnk l) Reg.LNK_LINK_CFG_CHECK = 2)) ∧
    (∃ (l : Fin 64) (j : Fin 16) (mb : Fin 32) (s : State), (s.linkOn l = true ∧ s.gated = false) ∧ (j.val < (s.linkLanes l).length ∧ s.physLane l j < 224
      ∧ mb.val ≤ s.rd (pg .lnk l) Reg.LNK_LINK_CFG_E_M1) ∧ (s.rd (pg .lnk l) Reg.LNK_LINK_CFG_CHECK = 1)) ∧
    (∃ (t : Nat) (l : Fin 64) (s : State), s.gated = false ∧ ((s.lnk l).busy = true) ∧ ((s.lnk l).frame < s.embFrames l) ∧ (s.frameDue l (s.lnk l).frame t
      = true)) ∧
    (∃ (slot : Fin 256) (e : Episode) (s : State), (smFind slot s.ing.epi = some e) ∧ s.episodeOver slot e = true) ∧
    (∃ (q : Fin 28) (s : State), (s.hostOpen (pg .lqd q))) ∧
    (∃ (l : Fin 64) (s : State), (s.hostOpen (pg .lnk l))) ∧
    (∃ (n : Fin 256) (s : State), (s.hostOpen (pg .slt n))) :=
  ⟨⟨9, stOn [pg .lqd 1] [(pg .lqd 1, Reg.LQD_QUAD_CFG_LANE_EN, 255)], by decide +kernel⟩,
    ⟨9, false, { stOn [pg .lqd 1] [(pg .lqd 1, Reg.LQD_QUAD_CFG_LANE_EN, 255)] with ing := { cdr := [9] } }, by decide +kernel⟩,
    ⟨9, stOn [pg .lqd 1] [(pg .lqd 1, Reg.LQD_QUAD_CFG_LANE_EN, 255), (pg .lqd 1, Reg.LQD_LANE_STAT_BLOCK_LOCK 1, 1)], by decide +kernel⟩,
    ⟨9, stOn [pg .lqd 1] [(pg .lqd 1, Reg.LQD_LANE_STAT_BLOCK_LOCK 1, 1)], by decide +kernel⟩,
    ⟨9, stOn [pg .lqd 1] [(pg .lqd 1, Reg.LQD_LANE_STAT_EMB_LOCK 1, 1)], by decide +kernel⟩,
    ⟨5, 3, [some 4], stOn [pg .lnk 3, pg .lqd 0] [(pg .lnk 3, Reg.PG_STAT_IN_EPOCH, 1), (pg .lnk 3, Reg.LNK_LINK_CFG_SUBCLASS, 0), (pg .lnk 3,
      Reg.LNK_LANE_MAP0_PHYS 0, 0), (pg .lqd 0, Reg.LQD_LANE_STAT_EMB_LOCK 0, 1)], by decide +kernel⟩,
    ⟨5, 3, [none], stOn [pg .lnk 3, pg .lqd 0] [(pg .lnk 3, Reg.PG_STAT_IN_EPOCH, 1), (pg .lnk 3, Reg.LNK_LINK_CFG_SUBCLASS, 0), (pg .lnk 3,
      Reg.LNK_LANE_MAP0_PHYS 0, 0), (pg .lnk 3, Reg.LNK_LINK_STAT_STATE, 4)], by decide +kernel⟩,
    ⟨10 ^ 9, 3, stOn [pg .lnk 3, pg .lqd 0] [(pg .lnk 3, Reg.PG_STAT_IN_EPOCH, 1), (pg .lnk 3, Reg.LNK_LINK_CFG_SUBCLASS, 0), (pg .lnk 3,
      Reg.LNK_LANE_MAP0_PHYS 0, 0), (pg .lnk 3, Reg.LNK_LINK_STAT_STATE, 4)], by decide +kernel⟩,
    ⟨9, stOn [pg .lqd 1] [(pg .lqd 1, Reg.LQD_QUAD_CFG_LANE_EN, 255)], by decide +kernel⟩,
    ⟨3, 0, 0, stOn [pg .lnk 3, pg .lqd 0] [(pg .lnk 3, Reg.PG_STAT_IN_EPOCH, 1), (pg .lnk 3, Reg.LNK_LINK_CFG_SUBCLASS, 0), (pg .lnk 3,
      Reg.LNK_LANE_MAP0_PHYS 0, 0), (pg .lnk 3, Reg.LNK_LINK_CFG_CHECK, 2)], by decide +kernel⟩,
    ⟨3, 0, 0, stOn [pg .lnk 3, pg .lqd 0] [(pg .lnk 3, Reg.PG_STAT_IN_EPOCH, 1), (pg .lnk 3, Reg.LNK_LINK_CFG_SUBCLASS, 0), (pg .lnk 3,
      Reg.LNK_LANE_MAP0_PHYS 0, 0), (pg .lnk 3, Reg.LNK_LINK_CFG_CHECK, 2)], by decide +kernel⟩,
    ⟨3, 0, 0, stOn [pg .lnk 3, pg .lqd 0] [(pg .lnk 3, Reg.PG_STAT_IN_EPOCH, 1), (pg .lnk 3, Reg.LNK_LINK_CFG_SUBCLASS, 0), (pg .lnk 3,
      Reg.LNK_LANE_MAP0_PHYS 0, 0), (pg .lnk 3, Reg.LNK_LINK_CFG_CHECK, 1)], by decide +kernel⟩,
    ⟨5, 3, { st9 [(pg .lnk 3, Reg.LNK_LINK_STAT_STATE, 4), (pg .lnk 3, Reg.LNK_LINK_CFG_NP16, 1)] with ing := { link := [(3, { busy := true })] } },
      by decide +kernel⟩,
    ⟨4, ⟨16, 1, 1, 1, 65536⟩, { st9 [] with ing := { epi := [(4, ⟨16, 1, 1, 1, 65536⟩)] } }, by decide +kernel⟩,
    ⟨1, stOn [pg .lqd 1] [(pg .lqd 1, Reg.LQD_LANE_STAT_FEC_CORR 1, 1)], by decide +kernel⟩,
    ⟨1, st9 [], by decide +kernel⟩,
    ⟨1, st9 [], by decide +kernel⟩⟩

theorem witness_CorrectorCommandsComplete :
    (∃ (slot : Fin 256) (s : State), ((s.icCtx slot).isSome = true) ∧ (s.icRd slot Reg.CTX_IC_CFG_T0_EN ≠ 0) ∧ (s.icRd slot Reg.CTX_IC_STAT_STATE < 3) ∧
      (2 ^ 20 ≤ accCount (s.input slot).acc) ∧ s.gated = false) ∧
    (∃ (r : Fin 4) (e : SvcEntry) (s : State), s.takes r.val 0x28 e ∧ ((s.icCtx (e.cmd.p0.toNat % 256)).isSome = true) ∧ s.room e) ∧
    (∃ (slot : Fin 256) (s : State), s.icRd slot Reg.CTX_IC_STAT_STATE = 2 ∧ (s.icRd slot Reg.CTX_IC_STAT_FORCED ≠ 0 ∨ s.inputArmed slot = false) ∧
      s.gated = false) ∧
    (∃ (t : Nat) (slot : Fin 256) (v : State) (s : State), s.icRd slot Reg.CTX_IC_STAT_STATE = 3 ∧ s.gated = false ∧ (v = (s.advance t).windowSplit slot)
      ∧ ((v.input slot).acc1 ≠ [])) ∧
    (∃ (slot : Fin 256) (est : List IcEst) (l : List ((IcCoef × Bool) × (IcCoef × Bool))) (s : State), s.icRd slot Reg.CTX_IC_STAT_STATE = 4 ∧ s.gated =
      false ∧ (windowLen ≤ accCount (s.input slot).acc) ∧ (l = (s.input slot).est1.zip (s.icEstimate slot (s.input slot).acc est))) ∧
    (∃ (t : Nat) (slot : Fin 256) (s : State), s.icRd slot Reg.CTX_IC_STAT_STATE = 2 ∧ (s.icRd slot Reg.CTX_IC_CFG_T1_WAIT ≠ 0) ∧ ((s.input slot).reqAt +
      s.icRd slot Reg.CTX_IC_CFG_T1_WAIT * 1600000000 ≤ (s.advance t).tick)) ∧
    (∃ (t : Nat) (slot : Fin 256) (h : Nat) (s : State), ((s.input slot).holdTo = some h) ∧ (h ≤ (s.advance t).tick)) :=
  ⟨⟨0, { stIc 1 with ic := [(0, { acc := [⟨2 ^ 20, 0, 0⟩] })] }, by decide +kernel⟩,
    ⟨0, ⟨0, 1, { cmd0 with opc := 0x28 }⟩, { stIc 1 with svc := { fetched := [⟨0, 1, { cmd0 with opc := 0x28 }⟩] } }, by decide +kernel⟩,
    ⟨0, stIc 2, by decide +kernel⟩,
    ⟨5, 0, ({ stIc 3 with ic := [(0, { acc := [⟨2 ^ 25, 0, 0⟩] })] }.advance 5).windowSplit 0, { stIc 3 with ic := [(0, { acc := [⟨2 ^ 25, 0, 0⟩] })] },
      by decide +kernel⟩,
    ⟨0, [⟨0, 0⟩], [((⟨1, 4, 3⟩, false), (⟨0, 0, 0⟩, true))], { stIc 4 with ic := [(0, { est1 := [(⟨1, 4, 3⟩, false)], acc := [⟨2 ^ 25, 0, 0⟩] })] },
      by decide +kernel⟩,
    ⟨6400000000, 0, (stIc 2).wr (pg .ctx 0) Reg.CTX_IC_CFG_T1_WAIT 4, by decide +kernel⟩,
    ⟨5, 0, 5, { stIc 1 with ic := [(0, { holdTo := some 5 })] }, by decide +kernel⟩⟩

theorem witness_TransformCommandsComplete :
    (∃ (t : Nat) (c : Fin 1024) (g : XfGrid) (p : Nat) (v : State) (s : State), s.gated = false ∧ ((s.actx c).running = true) ∧ ((s.xfc c).prev = none) ∧
      ((s.xfc c).next = []) ∧ ((s.xfc c).cur = some g) ∧ g.ready = true ∧ (g.readyAt ≤ t) ∧ (p = s.pipeOf c false (g.next % (s.xfRd c false
      Reg.CTX_XF_CFG_PIPE_M1 + 1))) ∧ (v = (s.advance t).pipeStart p g.readyAt none) ∧ v.readOver p g.readyAt = false) ∧
    (∃ (t : Nat) (p : Fin 64) (c : Nat) (f : XfFrame) (s : State), (s.pipeRead p = some (c, f)) ∧ (s.working (pg .xfp p) = true) ∧ s.readOver p t = true) ∧
    (∃ (t : Nat) (c : Fin 1024) (f : XfFrame) (l : List XfFrame) (s : State), ((s.xfc c).frames = f :: l) ∧ s.frameOut c t f = true ∧ (f.new = false ∨
      (s.xfc c).prev = none) ∧ s.gated = false) ∧
    (∃ (t : Nat) (p : Fin 64) (s : State), ((s.xfp p).lastDrop + 1024 ≤ t)) ∧
    (∃ (p : Fin 64) (s : State), (s.hostOpen (pg .xfp p))) ∧
    (∃ (t : Nat) (p : Fin 64) (s : State), s.gated = false ∧ ((s.xfp p).loadAt + 2 ^ 16 ≤ t)) :=
  ⟨⟨5, 0, grid0, 0, ({ stOn [pg .xfp 0] [] with acq := { ctx := [(0, { running := true })] }, xf := { ctx := [(0, { cur := some grid0 })] } } :
      State).advance 5, { stOn [pg .xfp 0] [] with acq := { ctx := [(0, { running := true })] }, xf := { ctx := [(0, { cur := some grid0 })] } },
      by decide +kernel⟩,
    ⟨5, 2, 0, frame0 1, { stOn [pg .xfp 2] [] with xf := { ctx := [(0, { frames := [frame0 1] })] } }, by decide +kernel⟩,
    ⟨200, 0, frame0 2, [], { st9 [] with xf := { ctx := [(0, { frames := [frame0 2] })] } }, by decide +kernel⟩,
    ⟨1024, 1, st9 [(pg .xfp 1, Reg.EV_RAW, 1)], by decide +kernel⟩,
    ⟨1, st9 [(pg .xfp 1, Reg.XFP_XFP_STAT_DROP_CNT, 1)], by decide +kernel⟩,
    ⟨65536, 1, { st9 [] with xf := { pipe := [(1, { reads := [4096, 65536] })] } }, by decide +kernel⟩⟩

theorem witness_DensityAndToneMapperCommandsComplete :
    (∃ (n : Fin 16) (d : DenTrace) (l : List DenTrace) (s : State), ((s.den_ n).arr = d :: l) ∧ (s.working (pg .den n) = true)) ∧
    (∃ (n : Fin 16) (d : DenTrace) (l : List DenTrace) (s : State), ((s.den_ n).acc = d :: l) ∧ (s.working (pg .den n) = true)) ∧
    (∃ (n : Fin 16) (s : State), ((s.den_ n).due ≠ 0) ∧ (s.working (pg .den n) = true) ∧ ((s.den_ n).run = false)) ∧
    (∃ (t : Nat) (n : Fin 16) (s : State), ((s.den_ n).run = true) ∧ (s.working (pg .den n) = true) ∧ ((s.den_ n).passAt + 16384 ≤ max s.tick t)) ∧
    (∃ (n : Fin 16) (s : State), (s.hostOpen (pg .den n))) ∧
    (∃ (n : Fin 16) (s : State), (s.hostOpen (pg .den n))) ∧
    (∃ (t : Nat) (j : Fin 32) (l : List (Nat × Nat)) (s : State), s.working tmpPage = true ∧ (s.jobsDue (s.advance t).tick = (t, j.val) :: l) ∧ (s.on
      tmpPage (Reg.TMP_JOB_STAT_BUSY j) = false) ∧ (s.jobKind j = 1 ∨ (s.jobUnit j).isSome = true)) ∧
    (∃ (t : Nat) (j : Fin 32) (s : State), (s.tmp.run = some j.val) ∧ s.working tmpPage = true ∧ (s.readoutOver j (s.advance t).tick = true)) ∧
    (∃ (j : Fin 32) (s : State), (s.tmp.run = some j.val) ∧ s.working tmpPage = true) :=
  ⟨⟨0, ⟨16, [1, 2]⟩, [], { stOn [pg .den 0] [] with den := [(0, { arr := [⟨16, [1, 2]⟩] })] }, by decide +kernel⟩,
    ⟨0, ⟨16, [1, 2]⟩, [], { stOn [pg .den 0] [] with den := [(0, { acc := [⟨16, [1, 2]⟩] })] }, by decide +kernel⟩,
    ⟨0, { stOn [pg .den 0] [] with den := [(0, { due := 1 })] }, by decide +kernel⟩,
    ⟨16384, 0, { stOn [pg .den 0] [] with den := [(0, { run := true, held := true })] }, by decide +kernel⟩,
    ⟨0, { stOn [pg .den 0] [] with den := [(0, { cells := [(1, 1)], count := 4 })] }, by decide +kernel⟩,
    ⟨0, stOn [pg .den 0] [], by decide +kernel⟩,
    ⟨5, 2, [],
      { stOn [tmpPage] [(0x650, Reg.TMP_JOB_CFG_EN 2, 1), (0x650, Reg.TMP_JOB_CFG_KIND 2, 1), (0x650, Reg.TMP_JOB_CFG_SYNC 2, 1)] with tmp := { job := [(2, { due := true, next := 5 })] } },
      by decide +kernel⟩,
    ⟨5, 2, { stOn [tmpPage] [(0x650, Reg.TMP_JOB_STAT_BUSY 2, 1)] with tmp := { run := some 2 } }, by decide +kernel⟩,
    ⟨2, { stOn [tmpPage] [(0x650, Reg.TMP_JOB_STAT_BUSY 2, 1)] with tmp := { run := some 2 } }, by decide +kernel⟩⟩

theorem witness_CaptureCommandsComplete :
    (∃ (c : Fin 1024) (s : State), (s.hostOpen (pg .ctx c)) ∧ ((s.actx c).running = true) ∧ ((s.capDesc c).mode = 1) ∧ s.capState c = 0 ∧ (¬((s.capDesc
      c).policy = 0 ∧ (s.capDesc c).cap < (s.capDesc c).eve + (s.capDesc c).post))) ∧
    (∃ (c : Fin 1024) (s : State), (s.hostOpen (pg .ctx c)) ∧ (1 ≤ s.capState c ∧ s.capState c ≤ 4)) ∧
    (∃ (c : Fin 1024) (s : State), (s.hostOpen (pg .ctx c)) ∧ s.capState c = 5) ∧
    (∃ (c : Fin 1024) (s : State), s.capState c = 1 ∧ ((s.actx c).desc.eve ≤ (s.actx c).elapsed)) ∧
    (∃ (c : Fin 1024) (at_ : SubTick) (s : State), (s.rd (pg .ctx c) Reg.CTX_TRG_CFG_MODE = 0) ∧ s.eveFull c = true ∧ (freeSample (s.actx c).desc.eve
      (s.actx c).freeAfter (s.actx c).trail (s.actx c).elapsed = some at_)) ∧
    (∃ (c : Fin 1024) (s : State), s.capState c = 3 ∧ ((s.actx c).postOpen = false) ∧ (s.recordsDone c ((s.actx c).capLast (s.viewPeriod c)) = true)) ∧
    (∃ (c : Fin 1024) (s : State), s.capState c = 4 ∧ s.tier1Busy c = false ∧ s.drainBusy c = false) ∧
    (∃ (c : Fin 1024) (s : State), ((s.actx c).streamStop = true) ∧ ((s.actx c).desc.cap ≤ 16 * s.streamFree c)) ∧
    (∃ (c : Fin 1024) (drained0 : Nat) (drained1 : Nat) (s : State), ((s.actx c).bufStop = true) ∧ ((if s.onDie1 c then s.acq.buf1 - drained1 else
      s.acq.buf0 - drained0) * 4 < 3 * 2 ^ 24)) ∧
    (∃ (s : State), (s.hostOpen (pg .acq 0))) ∧
    (∃ (s : State), (s.hostOpen (pg .acq 0))) :=
  ⟨⟨0, { stOn [pg .ctx 0] [(pg .ctx 0, Reg.CTX_CAP_CFG_MODE, 1)] with acq := { ctx := [(0, { running := true })] } }, by decide +kernel⟩,
    ⟨0, stOn [pg .ctx 0] [(pg .ctx 0, Reg.CTX_CAP_STAT_STATE, 3)], by decide +kernel⟩,
    ⟨0, stOn [pg .ctx 0] [(pg .ctx 0, Reg.CTX_CAP_STAT_STATE, 5)], by decide +kernel⟩,
    ⟨0, st9 [(pg .ctx 0, Reg.CTX_CAP_STAT_STATE, 1)], by decide +kernel⟩,
    ⟨0, 160, { st9 [(pg .ctx 0, Reg.CTX_CAP_STAT_STATE, 2)] with acq := { ctx := [(0, { trail := [⟨160, 1, false, 0⟩] })] } }, by decide +kernel⟩,
    ⟨0, st9 [(pg .ctx 0, Reg.CTX_CAP_STAT_STATE, 3)], by decide +kernel⟩,
    ⟨0, st9 [(pg .ctx 0, Reg.CTX_CAP_STAT_STATE, 4)], by decide +kernel⟩,
    ⟨0, { st9 [] with acq := { ctx := [(0, { streamStop := true })] } }, by decide +kernel⟩,
    ⟨0, 16777216, 0, { st9 [] with acq := { ctx := [(0, { bufStop := true })], buf0 := 16777216 } }, by decide +kernel⟩,
    ⟨{ st9 [] with acq := { ctx := [(7, { deliv := 3, leap := 1 })] } }, by decide +kernel⟩,
    ⟨st9 [(pg .acq 0, Reg.ACQ_REC_STAT_PEAK, 3)], by decide +kernel⟩⟩

theorem witness_TriggerUnitCommandsComplete :
    (∃ (t : Nat) (n : Fin 64) (par : List ParWord) (s : State), s.truRuns n = true ∧ ((if (s.truDue n t).1 = [] then s.truStale n t else (s.truDue n t).1)
      ≠ [] ∨ par ≠ [])) ∧
    (∃ (t : Nat) (n : Fin 64) (s : State), s.truRuns n = true ∧ ((s.truDue n t).1.any TruChg.fall = true)) ∧
    (∃ (t : Nat) (n : Fin 64) (s : State), (s.on (pg .tru n) Reg.TRU_TRU_STAT_PRIMED = true) ∧ ((s.tru n).primeAt + s.rd (pg .tru n)
      Reg.TRU_SEQ_CFG_WINDOW < t)) ∧
    (∃ (t : Nat) (n : Fin 64) (s : State), (s.on (pg .tru n) Reg.TRU_TRU_STAT_HOLDING = true) ∧ (s.on (pg .tru n) Reg.TRU_TRU_CFG_HOLD_MODE = false) ∧
      ((s.tru n).holdTo < t)) ∧
    (∃ (n : Fin 64) (s : State), (s.hostOpen (pg .tru n)) ∧ (s.on (pg .tru n) Reg.TRU_TRU_CFG_EN = true) ∧ s.truRuns n = true) ∧
    (∃ (n : Fin 64) (s : State), (s.hostOpen (pg .tru n))) ∧
    (∃ (n : Fin 64) (s : State), (s.hostOpen (pg .tru n))) ∧
    (∃ (t : Nat) (g : CoincGroup) (l : List CoincGroup) (s : State), (s.trg.groups = g :: l) ∧ (g.at_ + s.rd (pg .trn 0) Reg.TRN_REC_CFG_COINC_WAIT ≤ t)) :=
  ⟨⟨5, 1, [],
      { stOn [pg .tru 1] [(pg .tru 1, Reg.TRU_TRU_STAT_ACTIVE, 1), (pg .tru 1, Reg.TRU_TT_TT 0, 2)] with trg := { unit := [(1, { inp := List.replicate 8 {}, chg := [⟨4, 0, false, false, true, 64, false⟩] })] } },
      by decide +kernel⟩,
    ⟨5, 1,
      { stOn [pg .tru 1] [(pg .tru 1, Reg.TRU_TRU_STAT_ACTIVE, 1), (pg .tru 1, Reg.TRU_TT_TT 0, 2)] with trg := { unit := [(1, { inp := List.replicate 8 {}, chg := [⟨4, 0, false, true, false, 0, false⟩] })] } },
      by decide +kernel⟩,
    ⟨9, 1, st9 [(pg .tru 1, Reg.TRU_TRU_STAT_PRIMED, 1)], by decide +kernel⟩,
    ⟨9, 1, st9 [(pg .tru 1, Reg.TRU_TRU_STAT_HOLDING, 1)], by decide +kernel⟩,
    ⟨1, stOn [pg .tru 1] [(pg .tru 1, Reg.TRU_TRU_CFG_EN, 1), (pg .tru 1, Reg.TRU_TRU_STAT_ACTIVE, 1)], by decide +kernel⟩,
    ⟨1, st9 [], by decide +kernel⟩,
    ⟨1, st9 [(pg .tru 1, Reg.TRU_TRU_STAT_HOLDING, 1)], by decide +kernel⟩,
    ⟨65536, ⟨16, 1, []⟩, [], { st9 [] with trg := { groups := [⟨16, 1, []⟩] } }, by decide +kernel⟩⟩

theorem witness_TriggerNetworkCommandsComplete :
    (∃ (t : Nat) (c : Fin 1024) (l : Fin 2) (e : LvlEvt) (r : List LvlEvt) (s : State), ((smGet {} (2 * c.val + l.val) s.trg.lvl).todo = e :: r) ∧ s.gated
      = false ∧ (e.at_ ≤ t)) ∧
    (∃ (k : Fin 4) (level : Bool) (s : State), (s.working (pg .trn 0) = true) ∧ ((s.tin k).raw ≠ level) ∧ ((s.tin k).chg = none)) ∧
    (∃ (t0 : Nat) (k : Fin 4) (level : Bool) (stamp : SubTick) (old : SubTick) (s : State), (s.working (pg .trn 0) = true) ∧ ((s.tin k).raw ≠ level) ∧
      ((s.tin k).chg = some (t0, old)) ∧ (pinSeen stamp < t0 + s.rd (pg .trn 0) (Reg.TRN_TIN_CFG_FILTER k))) ∧
    (∃ (t : Nat) (t0 : Nat) (k : Fin 4) (stamp : SubTick) (s : State), (s.working (pg .trn 0) = true) ∧ ((s.tin k).chg = some (t0, stamp)) ∧ (t0 + s.rd
      (pg .trn 0) (Reg.TRN_TIN_CFG_FILTER k) ≤ t)) ∧
    (∃ (t : Nat) (n : Fin 16) (s : State), (s.working (pg .trn 0) = true) ∧ (s.on (pg .trn 0) (Reg.TRN_SCHED_CFG_ARM n) = true) ∧ (s.schedAt n ≤ t) ∧
      (s.rd (pg .trn 0) (Reg.TRN_SCHED_CFG_PERIOD n) = 0)) ∧
    (∃ (t : Nat) (n : Fin 16) (s : State), (s.working (pg .trn 0) = true) ∧ (s.on (pg .trn 0) (Reg.TRN_SCHED_CFG_ARM n) = true) ∧ (s.schedAt n ≤ t) ∧
      (s.rd (pg .trn 0) (Reg.TRN_SCHED_CFG_PERIOD n) ≠ 0)) ∧
    (∃ (t : Nat) (stop : Nat) (line : Fin 22) (s : State), (s.working (pg .trn 0) = true) ∧ (s.trg.net = []) ∧ (s.trg.lineEnd = [(line.val, stop)]) ∧
      (stop ≤ t)) ∧
    (∃ (s : State), (s.hostOpen (pg .trn 0))) ∧
    (∃ (s : State), (s.hostOpen (pg .trn 0))) :=
  ⟨⟨9, 1, 1, ⟨9, false, true, 160⟩, [], { st9 [] with trg := { lvl := [(3, { todo := [⟨9, false, true, 160⟩] })] } }, by decide +kernel⟩,
    ⟨1, true, stOn [pg .trn 0] [], by decide +kernel⟩,
    ⟨14, 1, false, 144, 128,
      { stOn [pg .trn 0] [(pg .trn 0, Reg.TRN_TIN_CFG_FILTER 1, 20)] with trg := { tin := [(1, { raw := true, chg := some (14, 128) })] } }, by decide +kernel⟩,
    ⟨65536, 9, 1, 144, { stOn [pg .trn 0] [] with trg := { tin := [(1, { raw := true, chg := some (9, 144) })] } }, by decide +kernel⟩,
    ⟨65536, 9, stOn [pg .trn 0] [(pg .trn 0, Reg.TRN_SCHED_CFG_ARM 9, 1)], by decide +kernel⟩,
    ⟨65536, 9, stOn [pg .trn 0] [(pg .trn 0, Reg.TRN_SCHED_CFG_ARM 9, 1), (pg .trn 0, Reg.TRN_SCHED_CFG_PERIOD 9, 1000)], by decide +kernel⟩,
    ⟨9, 9, 9, { stOn [pg .trn 0] [] with trg := { lineEnd := [(9, 9)] }, tio := { level := 512, want := 512 } }, by decide +kernel⟩,
    ⟨{ stOn [pg .trn 0] [(pg .trn 0, Reg.TRN_POUT_CFG_LATCH 1, 1)] with tio := { level := 512, want := 512 } }, by decide +kernel⟩,
    ⟨st9 [(pg .trn 0, Reg.TRN_TRN_STAT_PAR_CNT, 9)], by decide +kernel⟩⟩

theorem witness_RingCommandsComplete :
    (∃ (s : State), (s.hostOpen (pg .svc 0))) ∧
    (∃ (s : State), (s.hostOpen (pg .svc 0))) ∧
    (∃ (r : Fin 4) (c : SvcCmd) (h : Nat) (s : State), s.ready = true ∧ s.svc.restarting = false ∧ s.ringOn r = true ∧ ((s.ring r).head ≠ s.rd (pg .svc 0)
      (Reg.SVC_RING_DB_SQ_TAIL r)) ∧ c.reserved = false ∧ (h = if s.ringSize r ≤ (s.ring r).head + 1 then 0 else (s.ring r).head + 1)) ∧
    (∃ (r : Fin 4) (s : State), s.ready = true ∧ s.svc.restarting = false ∧ s.ringOn r = true ∧ ((s.ring r).head ≠ s.rd (pg .svc 0)
      (Reg.SVC_RING_DB_SQ_TAIL r))) ∧
    (∃ (r : Fin 4) (c : SvcCompl) (s : State), (s.svc.compl.find? (fun x => x.ring == r.val) = some c) ∧ s.ready = true ∧ s.svc.restarting = false ∧
      (s.ringSize r ≠ 0) ∧ (((s.ring r).tail + 1) % s.ringSize r ≠ s.rd (pg .svc 0) (Reg.SVC_RING_DB_CQ_HEAD r) % s.ringSize r)) ∧
    (∃ (r : Fin 4) (e : SvcEntry) (s : State), s.svc.restarting = false ∧ (s.svc.fetched.find? (fun x => x.ring == r.val) = some e) ∧ (e.cmd.opc.toNat ∉
      opcodes)) :=
  ⟨⟨st9 [(pg .svc 0, Reg.SVC_RING_CFG_SIZE 1, 16), (pg .svc 0, Reg.SVC_RING_CFG_EN 1, 1)], by decide +kernel⟩,
    ⟨st9 [(pg .svc 0, Reg.SVC_RING_CFG_SIZE 1, 9), (pg .svc 0, Reg.SVC_RING_CFG_EN 1, 1)], by decide +kernel⟩,
    ⟨1, cmd0, 1, st9 [(pg .svc 0, Reg.SVC_RING_CFG_SIZE 1, 16), (pg .svc 0, Reg.SVC_RING_CFG_EN 1, 1), (pg .svc 0, Reg.SVC_RING_DB_SQ_TAIL 1, 2)], by decide +kernel⟩,
    ⟨1, st9 [(pg .svc 0, Reg.SVC_RING_CFG_SIZE 1, 16), (pg .svc 0, Reg.SVC_RING_CFG_EN 1, 1), (pg .svc 0, Reg.SVC_RING_DB_SQ_TAIL 1, 2)], by decide +kernel⟩,
    ⟨1, ⟨1, 7, 3, 0, 0, 0⟩, { st9 [(pg .svc 0, Reg.SVC_RING_CFG_SIZE 1, 16)] with svc := { compl := [⟨1, 7, 3, 0, 0, 0⟩] } }, by decide +kernel⟩,
    ⟨0, ent 0xFF 0, stSvc (ent 0xFF 0) [], by decide +kernel⟩⟩

theorem witness_ReportCommandsComplete :
    (∃ (r : Fin 4) (e : SvcEntry) (s : State), s.takes r 0x01 e ∧ (256 ≤ e.cmd.dlen.toNat)) ∧
    (∃ (r : Fin 4) (e : SvcEntry) (s : State), s.takes r 0x08 e ∧ (256 ≤ e.cmd.dlen.toNat)) ∧
    (∃ (r : Fin 4) (e : SvcEntry) (s : State), s.takes r 0x30 e) ∧
    (∃ (r : Fin 4) (e : SvcEntry) (s : State), s.takes r 0x31 e) ∧
    (∃ (r : Fin 4) (e : SvcEntry) (s : State), s.takes r 0x21 e) ∧
    (∃ (r : Fin 4) (cfg : PtpConfig) (e : SvcEntry) (s : State), s.takes r 0x20 e ∧ e.cmd.dlen.toNat = 64 ∧ (cfg.src.toNat ≤ 3 ∧ cfg.role.toNat ≤ 2 ∧
      cfg.port.toNat ≤ 1 ∧ cfg.transport.toNat ≤ 2 ∧ cfg.mode.toNat ≤ 1)) ∧
    (∃ (r : Fin 4) (e : SvcEntry) (s : State), s.takes r 0x05 e ∧ s.room e ∧ (512 ≤ e.cmd.dlen.toNat)) ∧
    (∃ (e : SvcEntry) (s : State), (s.inHand 0x05 = some e)) ∧
    (∃ (r : Fin 4) (e : SvcEntry) (s : State), s.takes r 0x39 e ∧ s.room e ∧ (s.running = [])) ∧
    (∃ (r : Fin 4) (e : SvcEntry) (s : State), s.takes r 0x39 e ∧ (s.running ≠ [])) ∧
    (∃ (e : SvcEntry) (s : State), (s.inHand 0x39 = some e)) :=
  ⟨⟨0, ent 1 256, stSvc (ent 1 256) [], by decide +kernel⟩,
    ⟨0, ent 8 256, stSvc (ent 8 256) [], by decide +kernel⟩,
    ⟨0, ent 0x30 0, stSvc (ent 0x30 0) [], by decide +kernel⟩,
    ⟨0, ent 0x31 0, stSvc (ent 0x31 0) [], by decide +kernel⟩,
    ⟨0, ent 0x21 0, stSvc (ent 0x21 0) [], by decide +kernel⟩,
    ⟨0, ⟨1, 1, 0, 0, 0, 128, 128, 0, 0, 0, 2⟩, ent 0x20 64, stSvc (ent 0x20 64) [], by decide +kernel⟩,
    ⟨0, ent 5 512, stSvc (ent 5 512) [], by decide +kernel⟩,
    ⟨ent 5 513, stDef (ent 5 513) [(pg .sec 0, Reg.SEC_SEC_STAT_RUN_SLOT, 0)], by decide +kernel⟩,
    ⟨0, ent 0x39 0, stSvc (ent 0x39 0) [], by decide +kernel⟩,
    ⟨0, ent 0x39 0, { stSvc (ent 0x39 0) [(pg .ctx 3, Reg.PG_STAT_IN_EPOCH, 1)] with acq := { ctx := [(3, { running := true })] } }, by decide +kernel⟩,
    ⟨entP 0x39 6 0, stDef (entP 0x39 6 0) [], by decide +kernel⟩⟩

theorem witness_FirmwareCommandsComplete :
    (∃ (r : Fin 4) (img : FwImage) (e : SvcEntry) (s : State), s.takes r 0x06 e ∧ s.room e ∧ s.outstanding 0x06 = none ∧ s.fwReason img = 0) ∧
    (∃ (r : Fin 4) (img : FwImage) (e : SvcEntry) (s : State), s.takes r 0x06 e ∧ s.outstanding 0x06 = none ∧ (s.fwReason img ≠ 0)) ∧
    (∃ (img : FwImage) (e : SvcEntry) (s : State), (s.inHand 0x06 = some e) ∧ (s.svc.staging = some img)) ∧
    (∃ (r : Fin 4) (flash : Option FwImage) (e : SvcEntry) (s : State), s.takes r 0x07 e ∧ (s.on (pg .sec 0) Reg.SEC_SEC_STAT_STAGED_OK = true) ∧
      s.outstanding 0x02 = none ∧ s.outstanding 0x05 = none ∧ s.outstanding 0x06 = none ∧ ((s.slotReads (1 - s.runSlot) flash).fwReason ((s.slotReads
      (1 - s.runSlot) flash).slotImage (1 - s.runSlot)) = 0)) ∧
    (∃ (r : Fin 4) (e : SvcEntry) (s : State), s.takes r 0x3F e) ∧
    (∃ (s : State), s.svc.restarting = true ∧ s.boot.verified = true) ∧
    (∃ (e : SvcEntry) (s : State), s.svc.restarting = true ∧ s.boot.verified = true ∧ (s.svc.restart = some e) ∧ e.cmd.opc = 0x3F) :=
  ⟨⟨0, ⟨false, 5, 5, true, true, []⟩, ent 6 0, stSvc (ent 6 0) [(pg .sec 0, Reg.SEC_SEC_STAT_FW_SVN, 5)], by decide +kernel⟩,
    ⟨0, ⟨false, 5, 4, true, true, []⟩, ent 6 0, stSvc (ent 6 0) [(pg .sec 0, Reg.SEC_SEC_STAT_FW_SVN, 5)], by decide +kernel⟩,
    ⟨⟨false, 0xFFFFFFFF, 4, true, true, []⟩, ent 6 0,
      { stDef (ent 6 0) [(pg .sec 0, Reg.SEC_SEC_STAT_RUN_SLOT, 0)] with svc := { deferred := [ent 6 0], staging := some ⟨false, 0xFFFFFFFF, 4, true, true, []⟩ } },
      by decide +kernel⟩,
    ⟨0, some ⟨false, 7, 5, true, true, []⟩, ent 7 0, stSvc (ent 7 0) [(pg .sec 0, Reg.SEC_SEC_STAT_STAGED_OK, 1), (pg .sec 0, Reg.SEC_SEC_STAT_RUN_SLOT,
      0), (pg .sec 0, Reg.SEC_SEL_STAT_SLOT, 0), (pg .sec 0, Reg.SEC_SEC_STAT_FW_SVN, 5), (pg .sec 0, Reg.SEC_SEL_STAT_SEQ, 5), (pg .sec 0,
      Reg.SEC_SEL_STAT_COPY, 0)], by decide +kernel⟩,
    ⟨0, ent 0x3F 0, stSvc (ent 0x3F 0) [], by decide +kernel⟩,
    ⟨{ st9 [] with svc := { restarting := true, fetched := [ent 1 0], deferred := [ent 5 0] }, boot := { verified := true } }, by decide +kernel⟩,
    ⟨ent 0x3F 0, { st9 [] with svc := { restarting := true, restart := some (ent 0x3F 0) }, boot := { verified := true } }, by decide +kernel⟩⟩

theorem witness_EpochServiceCommandsComplete :
    (∃ (r : Fin 4) (e : SvcEntry) (s : State), s.takes r 0x02 e ∧ s.room e ∧ s.outstanding 0x02 = none ∧ s.on epoPage Reg.EPO_EQX_STAT_PENDING = false ∧
      s.on epoPage Reg.EPO_EQX_STAT_SWITCHING = false ∧ s.on epoPage Reg.EPO_PROB_STAT_ACTIVE = false ∧ (s.rd epoPage Reg.EPO_EPO_HWM_HWM <
      e.cmd.p0.toNat ∧ e.cmd.p0.toNat < 2 ^ 32) ∧ (e.cmd.dlen.toNat ≤ 2 ^ 30)) ∧
    (∃ (e : SvcEntry) (s : State), s.serviceRuns = true ∧ (s.epo.load = some e) ∧ s.epo.checked = none) ∧
    (∃ (e : SvcEntry) (s : State), s.serviceRuns = true ∧ (s.epo.load = some e) ∧ s.epo.checked = none) ∧
    (∃ (t : Nat) (c : Nat) (img : EpochImage) (e : SvcEntry) (s : State), s.serviceRuns = true ∧ (s.epo.load = some e) ∧ (s.epo.checked = some c) ∧
      (s.epo.staged = some img) ∧ ((s.advance t).loadReady img c = true)) ∧
    (∃ (t : Nat) (r : Fin 4) (e : SvcEntry) (s : State), s.takes r 0x03 e ∧ s.on epoPage Reg.EPO_PROB_STAT_ACTIVE = false ∧ s.on epoPage
      Reg.EPO_EPO_STAGED_VALID = true ∧ ((s.advance t).tick + eqxLead ≤ e.cmd.p0.toNat) ∧ ((s.advance t).eqxNear = false) ∧ s.svc.announce = none) ∧
    (∃ (t : Nat) (r : Fin 4) (e : SvcEntry) (s : State), s.takes r 0x03 e ∧ s.on epoPage Reg.EPO_PROB_STAT_ACTIVE = false ∧ s.on epoPage
      Reg.EPO_EPO_STAGED_VALID = true ∧ e.cmd.p0 = 0 ∧ ((s.advance t).eqxNear = false) ∧ s.svc.announce = none) ∧
    (∃ (t : Nat) (q : Nat) (r : Fin 4) (e : SvcEntry) (s : State), s.takes r 0x04 e ∧ s.on epoPage Reg.EPO_EPO_PRIOR_VALID = true ∧ s.on epoPage
      Reg.EPO_EPO_PRIOR_FAILED = false ∧ s.on epoPage Reg.EPO_EQX_STAT_PENDING = false ∧ (q = (if e.cmd.p0 = 0 then (s.advance t).tick + eqxLead else
      e.cmd.p0.toNat)) ∧ ((s.advance t).tick + eqxLead ≤ q)) :=
  ⟨⟨0, entP 2 9 0, stSvc (entP 2 9 0) [(epoPage, Reg.EPO_EPO_STAGED_VALID, 1)], by decide +kernel⟩,
    ⟨entP 2 9 0, { stDef (entP 2 9 0) [(epoPage, Reg.EPO_EPO_STAGED_LOADING, 1)] with epo := { load := some (entP 2 9 0) } }, by decide +kernel⟩,
    ⟨entP 2 9 0, { stDef (entP 2 9 0) [(epoPage, Reg.EPO_EPO_STAGED_LOADING, 1)] with epo := { load := some (entP 2 9 0) } }, by decide +kernel⟩,
    ⟨800000009, 9, img0, entP 2 9 0,
      { stDef (entP 2 9 0) [(epoPage, Reg.EPO_EPO_STAGED_LOADING, 1)] with epo := { load := some (entP 2 9 0), checked := some 9, staged := some img0 } },
      by decide +kernel⟩,
    ⟨5, 0, entP 3 1600005 0, stSvc (entP 3 1600005 0) [(epoPage, Reg.EPO_EPO_STAGED_VALID, 1)], by decide +kernel⟩,
    ⟨5, 0, entP 3 0 0, stSvc (entP 3 0 0) [(epoPage, Reg.EPO_EPO_STAGED_VALID, 1), (epoPage, Reg.EPO_EQX_STAT_PENDING, 1), (epoPage,
      Reg.EPO_EQX_TICK_TICK, 1700000)], by decide +kernel⟩,
    ⟨5, 1600005, 0, entP 4 0 0, stSvc (entP 4 0 0) [(epoPage, Reg.EPO_EPO_PRIOR_VALID, 1)], by decide +kernel⟩⟩

theorem witness_RecorderSetCommandsComplete :
    (∃ (r : Fin 4) (members : List RecMemberId) (e : SvcEntry) (s : State), s.takes r 0x10 e ∧ s.room e ∧ (e.cmd.dlen.toNat = 8 * members.length) ∧ (0 <
      members.length ∧ members.length ≤ 16) ∧ (∀ m ∈ members, m.port.toNat < 4 ∧ m ∉ s.namespaces) ∧ (members.Nodup ∧ s.setFits members = true) ∧
      ((s.rech (e.cmd.p0.toNat % 16)).opened = false) ∧ ((s.rech (e.cmd.p0.toNat % 16)).opening = none)) ∧
    (∃ (h : Fin 16) (found : List RecFound) (e : SvcEntry) (s : State), s.serviceRuns = true ∧ ((s.rech h).opening = some e) ∧ ((s.rech h).format = true)
      ∧ (found.length = (s.rech h).members.length) ∧ (∀ f ∈ found, f.usable = true) ∧ (∀ m ∈ (s.rech h).members, s.working (pg .nvp (m.id.port.toNat %
      4)) = true)) ∧
    (∃ (t : Nat) (r : Fin 4) (h : Nat) (e : SvcEntry) (s : State), s.takes r 0x11 e ∧ (h = e.cmd.p0.toNat % 16) ∧ ((s.rech h).opened = true ∧ (s.rech
      h).running = false ∧ (s.rech h).startAt = none ∧ (s.rech h).closing = none ∧ (s.rech h).stopping = none) ∧ ((s.rech h).live ≠ []) ∧ ((s.rech
      h).nextMember 1 ≠ none) ∧ (e.cmd.p1 = 0 ∨ (s.advance t).tick < e.cmd.p1.toNat)) ∧
    (∃ (t : Nat) (q : Nat) (h : Fin 16) (s : State), ((s.rech h).startAt = some q) ∧ (q ≤ (s.advance t).tick)) ∧
    (∃ (t : Nat) (r : Fin 4) (h : Nat) (e : SvcEntry) (s : State), s.takes r 0x12 e ∧ s.room e ∧ (h = e.cmd.p0.toNat % 16) ∧ ((s.rech h).opened = true ∧
      (s.rech h).running = true ∧ (s.rech h).stopping = none ∧ (s.rech h).broken = false) ∧ (e.cmd.p1 = 0 ∨ (s.advance t).tick < e.cmd.p1.toNat)) ∧
    (∃ (t : Nat) (q : Nat) (h : Fin 16) (s : State), ((s.rech h).stopAt = some q) ∧ (q ≤ (s.advance t).tick)) ∧
    (∃ (h : Fin 16) (e : SvcEntry) (s : State), s.serviceRuns = true ∧ ((s.rech h).stopping = some e) ∧ ((s.rech h).running = false) ∧ ((s.rech h).stopAt
      = none) ∧ ((s.rech h).durable = true)) ∧
    (∃ (r : Fin 4) (h : Nat) (e : SvcEntry) (s : State), s.takes r 0x13 e ∧ s.room e ∧ (h = e.cmd.p0.toNat % 16) ∧ ((s.rech h).opened = true ∧ (s.rech
      h).running = false ∧ (s.rech h).startAt = none ∧ (s.rech h).closing = none ∧ (s.rech h).stopping = none) ∧ ((s.rech h).live ≠ [])) :=
  ⟨⟨0, [⟨1, 0, 1⟩], entP 0x10 0x103 8, stSvc (entP 0x10 0x103 8) [], by decide +kernel⟩,
    ⟨3, [⟨true, 49152, none, 0, 4⟩], entP 0x10 0x103 8,
      { stOn [pg .nvp 1] [] with svc := { deferred := [entP 0x10 0x103 8] }, net := { rec_ := [(3, { format := true, opening := some (entP 0x10 0x103 8), members := [{ id := ⟨1, 0, 1⟩ }] })] } },
      by decide +kernel⟩,
    ⟨5, 0, 3, entP 0x11 3 0,
      { stSvc (entP 0x11 3 0) [] with net := { rec_ := [(3, { opened := true, members := [{ id := ⟨1, 0, 1⟩, chunks := 2, free := 2 }] })] } },
      by decide +kernel⟩,
    ⟨9, 9, 3, { st9 [] with net := { rec_ := [(3, { opened := true, startAt := some 9 })] } }, by decide +kernel⟩,
    ⟨5, 0, 3, entP 0x12 3 0, { stSvc (entP 0x12 3 0) [] with net := { rec_ := [(3, { opened := true, running := true })] } }, by decide +kernel⟩,
    ⟨9, 9, 3, { st9 [] with net := { rec_ := [(3, { opened := true, running := true, stopAt := some 9 })] } }, by decide +kernel⟩,
    ⟨3, entP 0x12 3 0,
      { stDef (entP 0x12 3 0) [] with net := { rec_ := [(3, { opened := true, stopping := some (entP 0x12 3 0), flushing := true, written := 4 })] } },
      by decide +kernel⟩,
    ⟨0, 3, entP 0x13 3 0,
      { stSvc (entP 0x13 3 0) [] with net := { rec_ := [(3, { opened := true, members := [{ id := ⟨1, 0, 1⟩, chunks := 2, free := 2 }] })] } },
      by decide +kernel⟩⟩

theorem witness_StorageCommandsComplete :
    (∃ (h : Fin 16) (m : Fin 16) (d : NvmeCmd) (s : State), ((s.rech h).cmds.find? (fun x => x.mem == m.val) = some d) ∧ d.kind = 4 ∧ (s.runs ((s.rech
      h).page m) = true) ∧ ((s.rech h).closing = none)) ∧
    (∃ (t : Nat) (p : Nat) (h : Fin 16) (m : Fin 16) (d : NvmeCmd) (s : State), ((s.rech h).cmds.find? (fun x => x.mem == m.val) = some d) ∧ (p = (s.rech
      h).page m) ∧ s.gated = false ∧ (d.at_ + s.rd p Reg.NVP_NVP_CFG_CMD_TO * 1600000 ≤ (s.advance t).tick) ∧ (d.tries < s.rd p
      Reg.NVP_NVP_CFG_RETRY_MAX)) ∧
    (∃ (h : Fin 16) (s : State), ((s.rech h).opened = true) ∧ ((s.rech h).flushing = false) ∧ ((s.rech h).closing = none) ∧ s.gated = false) ∧
    (∃ (t : Nat) (q : Nat) (h : Fin 16) (s : State), s.gated = false ∧ ((s.rech h).running = true) ∧ ((s.rech h).cmds ≠ []) ∧ (∀ d ∈ (s.rech h).cmds,
      d.tries = 0) ∧ ((s.rech h).progress + 3200000000 ≤ (s.advance t).tick) ∧ ((s.rech h).failAt = some q ∧ (s.advance t).tick ≤ q + 3200000000)) ∧
    (∃ (t : Nat) (h : Fin 16) (d : NvmeCmd) (l : List NvmeCmd) (s : State), s.gated = false ∧ ((s.rech h).running = true) ∧ ((s.rech h).cmds = d :: l) ∧
      (∀ x ∈ d :: l, x.tries = 0) ∧ ((s.rech h).progress + 3200000000 ≤ (s.advance t).tick) ∧ ((s.rech h).failAt = none) ∧ ((s.rech h).closing = none)
      ∧ (d.mem < (s.rech h).members.length)) ∧
    (∃ (n : Nat) (c : Fin 1024) (x : DrainSrc) (s : State), s.drainOpen c false = true ∧ ((s.actx c).running = true) ∧ ((s.actx c).recDrain.stop = none) ∧
      ((s.actx c).recDrain.rest = []) ∧ (bit (s.rd (pg .ctx c) Reg.CTX_REC_BIND_CONTENT) 0 = 1) ∧ (x = s.drainSrc c 0 (s.actx c).recDrain) ∧ (x.cap ≠
      0 ∧ x.pos < x.written ∧ x.written ≤ x.pos + x.cap) ∧ (∀ i < n, s.drainHeld c x (x.pos + i) = false)) ∧
    (∃ (p : Fin 4) (s : State), (s.hostOpen (pg .nvp p))) ∧
    (∃ (p : Fin 4) (s : State), (s.on (pg .nvp p) Reg.NVP_NVP_STAT_UP = true)) :=
  ⟨⟨3, 1, ⟨1, 4, 0, 0, 0, [], 0, 0⟩, { stOn [pg .nvp 0] [] with net := { rec_ := [(3, { opened := true, cmds := [⟨1, 4, 0, 0, 0, [], 0, 0⟩] })] } },
      by decide +kernel⟩,
    ⟨3200000000, pg .nvp 1, 3, 0, ⟨0, 4, 0, 0, 0, [], 0, 0⟩,
      { st9 [(pg .nvp 1, Reg.NVP_NVP_CFG_CMD_TO, 1000), (pg .nvp 1, Reg.NVP_NVP_CFG_RETRY_MAX, 2)] with net := { rec_ := [(3, { opened := true, cmds := [⟨0, 4, 0, 0, 0, [], 0, 0⟩], members := [{ id := ⟨1, 0, 1⟩ }] })] } },
      by decide +kernel⟩,
    ⟨3, { st9 [] with net := { rec_ := [(3, { opened := true, members := [{ id := ⟨1, 0, 1⟩ }] })] } }, by decide +kernel⟩,
    ⟨3200000000, 9, 3,
      { st9 [] with net := { rec_ := [(3, { opened := true, running := true, cmds := [⟨0, 4, 0, 0, 0, [], 0, 0⟩], failAt := some 9 })] } }, by decide +kernel⟩,
    ⟨3200000000, 3, ⟨0, 4, 0, 0, 0, [], 0, 0⟩, [],
      { st9 [] with net := { rec_ := [(3, { opened := true, running := true, cmds := [⟨0, 4, 0, 0, 0, [], 0, 0⟩], members := [{ id := ⟨1, 0, 1⟩ }] })] } },
      by decide +kernel⟩,
    (by
      refine ⟨9, 3, ⟨0, 4096, 4, 1, 3⟩,
        { st9 [(pg .ctx 3, Reg.CTX_REC_BIND_EN, 1), (pg .ctx 3, Reg.CTX_REC_BIND_CONTENT, 1), (pg .ctx 3, Reg.CTX_CAP_CFG_MODE, 2), (pg .ctx 3, Reg.CTX_RAW_WCNT_CNT, 3)] with acq := { ctx := [(3, { running := true, recDrain := { running := true, raw := 1 }, desc := { rawBytes := 4096, sampleBytes := 4 } })] } },
        ?_⟩
      delta State.drainHeld State.unavailable State.hole
      rw [locate_eq]
      have h := ranks
      generalize logicalRanks = k at h ⊢
      rcases h with rfl | rfl <;> decide +kernel),
    ⟨1, st9 [(pg .nvp 1, Reg.NVP_NVP_CNT_RETRIES, 4)], by decide +kernel⟩,
    ⟨1, st9 [(pg .nvp 1, Reg.NVP_NVP_STAT_UP, 1)], by decide +kernel⟩⟩

theorem witness_StreamerCommandsComplete :
    (∃ (r : Fin 4) (desc : StreamDesc) (e : SvcEntry) (s : State), s.takes r 0x18 e ∧ e.cmd.dlen.toNat = 128 ∧ descOk desc = true ∧ ((s.strs
      desc.slot.toNat).running = false ∧ (s.strs desc.slot.toNat).startAt = none)) ∧
    (∃ (n : Nat) (r : Fin 4) (d : StreamDesc) (e : SvcEntry) (s : State), s.takes r 0x19 e ∧ (n = e.cmd.p0.toNat % 64) ∧ (e.cmd.p0.getLsbD 8 = true ∧
      e.cmd.p0.getLsbD 9 = false) ∧ e.cmd.p1 = 0 ∧ ((s.strs n).desc = some d) ∧ ((s.strs n).running = false ∧ (s.strs n).startAt = none) ∧ s.strLinked
      d = true) ∧
    (∃ (t : Nat) (n : Nat) (r : Fin 4) (d : StreamDesc) (e : SvcEntry) (s : State), s.takes r 0x19 e ∧ (n = e.cmd.p0.toNat % 64) ∧ (e.cmd.p0.getLsbD 8 =
      false ∧ e.cmd.p0.getLsbD 9 = true) ∧ (e.cmd.p1 ≠ 0 ∧ (s.advance t).tick < e.cmd.p1.toNat) ∧ ((s.strs n).desc = some d) ∧ ((s.strs n).running =
      true)) ∧
    (∃ (t : Nat) (q : Nat) (slot : Fin 64) (s : State), ((s.strs slot).startAt = some q) ∧ (q ≤ (s.advance t).tick)) ∧
    (∃ (slot : Fin 64) (kind : Fin 2) (d : StreamDesc) (i : StrItem) (s : State), (s.strReady slot = some d) ∧ ((s.strs slot).items.find? (fun x => x.kind
      == kind.val) = some i) ∧ ((s.strs slot).running = false)) ∧
    (∃ (slot : Fin 64) (d : StreamDesc) (s : State), (s.strReady slot = some d) ∧ (d.payload.toNat ≤ 32 * (s.strs slot).alm.length) ∧ ((s.strs slot).alm ≠
      [])) ∧
    (∃ (t : Nat) (slot : Fin 64) (d : StreamDesc) (s : State), (s.strReady slot = some d) ∧ ((s.strs slot).alm ≠ []) ∧ ((s.strs slot).almAt + 160000 ≤
      (s.advance t).tick)) ∧
    (∃ (slot : Fin 64) (str : CtxPacket) (d : StreamDesc) (s : State), (s.strReady slot = some d) ∧ ((s.strs slot).running = true) ∧ ((2 * str.ctx.val +
      str.content.val) ∈ (s.strs slot).ctxDue)) ∧
    (∃ (p : Fin 2) (s : State), (s.on (pg .eth p) Reg.ETH_ETH_STAT_UP = true)) ∧
    (∃ (p : Fin 2) (s : State), (s.runs (pg .eth p) = true)) ∧
    (∃ (p : Fin 2) (s : State), (s.on (pg .eth p) Reg.ETH_ETH_STAT_UP = true) ∧ (s.working (pg .eth p) = true)) ∧
    (∃ (p : Fin 2) (target : BitVec 32) (s : State), (s.on (pg .eth p) Reg.ETH_ETH_STAT_UP = true) ∧ (s.working (pg .eth p) = true) ∧ s.serviceRuns = true
      ∧ (target.toNat = s.ethIp4 p)) ∧
    (∃ (p : Fin 2) (dst : BitVec 48) (s : State), (dst.toNat = s.ethMac p)) ∧
    (∃ (p : Fin 2) (s : State), (s.hostOpen (pg .eth p))) :=
  ⟨⟨0, desc0, ent 0x18 128, stSvc (ent 0x18 128) [], by decide +kernel⟩,
    ⟨7, 0, desc0, entP 0x19 0x107 0,
      { stOn [pg .eth 0] [(pg .eth 0, Reg.ETH_ETH_STAT_UP, 1)] with svc := { fetched := [entP 0x19 0x107 0] }, net := { str := [(7, { desc := some desc0 })] } },
      by decide +kernel⟩,
    ⟨5, 7, 0, desc0, ⟨0, 1, { cmd0 with opc := 0x19, p0 := 0x207, p1 := 99 }⟩,
      { stSvc ⟨0, 1, { cmd0 with opc := 0x19, p0 := 0x207, p1 := 99 }⟩ [] with net := { str := [(7, { desc := some desc0, running := true })] } },
      by decide +kernel⟩,
    ⟨9, 9, 7, { st9 [] with net := { str := [(7, { desc := some desc0, startAt := some 9 })] } }, by decide +kernel⟩,
    ⟨7, 0, desc0, ⟨3, 0, 0, [1, 2, 3, 4], true, false, false⟩,
      { stOn [pg .eth 0] [(pg .eth 0, Reg.ETH_ETH_STAT_UP, 1)] with net := { str := [(7, { desc := some desc0, items := [⟨3, 0, 0, [1, 2, 3, 4], true, false, false⟩] })] } },
      by decide +kernel⟩,
    ⟨7, desc0,
      { stOn [pg .eth 0] [(pg .eth 0, Reg.ETH_ETH_STAT_UP, 1)] with net := { str := [(7, { desc := some desc0, alm := List.replicate 16 (3, [1, 2, 3, 4]) })] } },
      by decide +kernel⟩,
    ⟨160000, 7, desc0,
      { stOn [pg .eth 0] [(pg .eth 0, Reg.ETH_ETH_STAT_UP, 1)] with net := { str := [(7, { desc := some desc0, alm := [(3, [1, 2, 3, 4])] })] } },
      by decide +kernel⟩,
    ⟨7, ⟨3, 0⟩, desc0,
      { stOn [pg .eth 0] [(pg .eth 0, Reg.ETH_ETH_STAT_UP, 1)] with net := { str := [(7, { desc := some desc0, running := true, ctxDue := [6] })] } },
      by decide +kernel⟩,
    ⟨1, stOn [pg .eth 1] [(pg .eth 1, Reg.ETH_ETH_STAT_UP, 1)], by decide +kernel⟩,
    ⟨1, stOn [pg .eth 1] [(pg .eth 1, Reg.PG_CTL_EN 0, 1)], by decide +kernel⟩,
    ⟨1, stOn [pg .eth 1] [(pg .eth 1, Reg.ETH_ETH_STAT_UP, 1)], by decide +kernel⟩,
    ⟨1, 0, stOn [pg .eth 1] [(pg .eth 1, Reg.ETH_ETH_STAT_UP, 1)], by decide +kernel⟩,
    ⟨1, 0, stOn [pg .eth 1] [(pg .eth 1, Reg.ETH_ETH_STAT_UP, 1)], by decide +kernel⟩,
    ⟨1, stOn [pg .eth 1] [(pg .eth 1, Reg.ETH_TX_PKTS_CNT, 4)], by decide +kernel⟩⟩

theorem witness_TimeServiceCommandsComplete :
    (∃ (p : Fin 2) (s : State), s.ptpOn p = true ∧ (s.ptp.cfg ≠ none)) ∧
    (∃ (p : Fin 2) (s : State), s.ptpOn p = true ∧ (s.ptp.cfg ≠ none)) ∧
    (∃ (p : Fin 2) (t3 : Int) (d : Int) (s : State), s.ptpOn p = true ∧ (s.ptp.cfg ≠ none) ∧ (s.ptp.reqAt = some t3) ∧ (s.ptp.fromMaster = some d)) ∧
    (∃ (t : Nat) (p : Fin 2) (kind : Fin 4) (c : PtpConfig) (s : State), (s.ptp.cfg = some c) ∧ s.ptpOn p = true ∧ ((s.advance t).ptpDue p kind c = true)) ∧
    (∃ (t : Nat) (n : Nat) (change : Int) (s : State), (s.ptp.src = 1 ∨ s.ptp.src = 3) ∧ s.serviceRuns = true ∧ (s.ptp.servo = 1 ∨ s.ptp.servo = 2) ∧ (∀ a
      ∈ s.ptp.commitAt, a + 1600000000 ≤ (s.advance t).tick) ∧ (s.deadband < (s.servoStep change).1.natAbs) ∧ (n = ((s.servoStep change).2 % (2 ^ 48 *
      (10 ^ 9 * 65536))).toNat)) ∧
    (∃ (s : State), (s.ptp.src = 1 ∨ s.ptp.src = 3) ∧ s.serviceRuns = true ∧ (s.ptp.servo ≠ 3)) :=
  ⟨⟨1, { stOn [pg .eth 1] [(pg .eth 1, Reg.ETH_ETH_STAT_UP, 1)] with ptp := { src := 1, cfg := some ⟨1, 2, 0, 0, 0, 128, 128, 0, 0, 0, 2⟩ } }, by decide +kernel⟩,
    ⟨1, { stOn [pg .eth 1] [(pg .eth 1, Reg.ETH_ETH_STAT_UP, 1)] with ptp := { src := 1, cfg := some ⟨1, 2, 0, 0, 0, 128, 128, 0, 0, 0, 2⟩ } }, by decide +kernel⟩,
    ⟨1, 100, 70,
      { stOn [pg .eth 1] [(pg .eth 1, Reg.ETH_ETH_STAT_UP, 1)] with ptp := { src := 1, cfg := some ⟨1, 2, 0, 0, 0, 128, 128, 0, 0, 0, 2⟩, reqAt := some 100, fromMaster := some 70 } },
      by decide +kernel⟩,
    ⟨5, 1, 0, ⟨1, 2, 0, 0, 0, 128, 128, 0, 0, 0, 2⟩,
      { stOn [pg .eth 1] [(pg .eth 1, Reg.ETH_ETH_STAT_UP, 1)] with ptp := { src := 1, cfg := some ⟨1, 2, 0, 0, 0, 128, 128, 0, 0, 0, 2⟩ } }, by decide +kernel⟩,
    ⟨1600000000, 5000, 5000, { st9 [] with ptp := { src := 1, servo := 1, offset := -140000, commitAt := some 0 } }, by decide +kernel⟩,
    ⟨{ st9 [] with ptp := { src := 1, servo := 2 } }, by decide +kernel⟩⟩

theorem witness_DeltanCommandsComplete :
    (∃ (t : Nat) (s : State), s.dlbSource = true ∧ ((s.advance t).tick % 1600000000 = 0)) ∧
    (∃ (s : State), s.dlbFollower = true) ∧
    (∃ (t : Nat) (s : State), s.dlbFollower = true ∧ s.dlb.owe = true ∧ (s.dlb.rp + 16 * 6400 * s.dlbPos ≤ 16 * (s.advance t).tick + 15)) ∧
    (∃ (sent : Nat) (p : Fin 32) (s : State), s.dlbSource = true ∧ (p ≠ 0) ∧ (s.dlb.sentT = some sent)) ∧
    (∃ (t : Nat) (j : Fin 4) (s : State), s.dlbSource = true ∧ (s.dlb.sentT.map (· + 6400 * (33 + j.val)) = some (s.advance t).tick)) ∧
    (∃ (s : State), s.dlbFollower = true) ∧
    (∃ (t : Nat) (s : State), (s.svc.announce ≠ none) ∧ s.dlbSource = true ∧ (s.svc.annSent < 3) ∧ (if s.svc.annSent = 0 then (s.advance t).annFits = true
      else (s.advance t).tick = s.svc.annAt + 160000)) ∧
    (∃ (t : Nat) (own : Nat) (number : BitVec 32) (tick : Word) (s : State), s.dlbFollower = true ∧ (s.on (pg .dlb 0) Reg.DLB_DLB_CFG_ACCEPT_ANN = true) ∧
      (s.on (pg .epo 0) Reg.EPO_EPO_STAGED_VALID = true) ∧ (s.rd (pg .epo 0) Reg.EPO_EPO_STAGED_NUMBER = number.toNat) ∧ (s.on (pg .epo 0)
      Reg.EPO_PROB_STAT_ACTIVE = false) ∧ ((((16 * tick.toNat : Nat) : Int) - s.rdS (pg .dlb 0) Reg.DLB_DLB_OFS_OFS + 15) / 16 = (own : Int)) ∧
      ((s.advance t).tick + 1600000 ≤ own)) ∧
    (∃ (t : Nat) (number : BitVec 32) (s : State), (s.svc.announce ≠ none) ∧ s.dlbSource = true ∧ (number.toNat = s.rd (pg .epo 0)
      Reg.EPO_EPO_STAGED_NUMBER) ∧ (3 ≤ s.svc.annSent ∧ (s.advance t).tick < s.svc.annAt + 211200)) ∧
    (∃ (t : Nat) (e : SvcEntry) (s : State), (s.svc.announce = some e) ∧ (3 ≤ s.svc.annSent) ∧ (s.svc.annAt + 211200 ≤ (s.advance t).tick)) ∧
    (∃ (t : Nat) (s : State), s.dlbFollower = true ∧ (s.on (pg .dlb 0) Reg.DLB_DLB_STAT_TC_LOCK = true) ∧ (s.dlb.rp + 16 * 3 * 1600000000 ≤ 16 *
      (s.advance t).tick)) ∧
    (∃ (s : State), s.dlbOn = true) ∧
    (∃ (s : State), (s.hostOpen (pg .dlb 0)) ∧ s.dlbSource = true) :=
  ⟨⟨1600000000, stDlb 1 [], by decide +kernel⟩,
    ⟨stDlb 0 [], by decide +kernel⟩,
    ⟨6405, { stDlb 0 [(pg .dlb 0, Reg.DLB_DLB_CFG_POS, 1)] with dlb := { owe := true, rp := 80 } }, by decide +kernel⟩,
    ⟨0, 1, { stDlb 1 [] with dlb := { sentT := some 0 } }, by decide +kernel⟩,
    ⟨217600, 1, { stDlb 1 [] with dlb := { sentT := some 0 } }, by decide +kernel⟩,
    ⟨stDlb 0 [], by decide +kernel⟩,
    ⟨256000, { stDlb 1 [] with svc := { announce := some (ent 3 0) } }, by decide +kernel⟩,
    ⟨5, 1600006, 9, 1600005, stDlb 0 [(pg .dlb 0, Reg.DLB_DLB_CFG_ACCEPT_ANN, 1), (pg .epo 0, Reg.EPO_EPO_STAGED_VALID, 1), (pg .epo 0,
      Reg.EPO_EPO_STAGED_NUMBER, 9), (pg .dlb 0, Reg.DLB_DLB_OFS_OFS, 2 ^ 64 - 1)], by decide +kernel⟩,
    ⟨5, 9, { stDlb 1 [(pg .epo 0, Reg.EPO_EPO_STAGED_NUMBER, 9)] with svc := { announce := some (ent 3 0), annSent := 3 } }, by decide +kernel⟩,
    ⟨211205, ent 3 0, { stDlb 1 [] with svc := { announce := some (ent 3 0), annSent := 3, annAt := 5 } }, by decide +kernel⟩,
    ⟨4800000000, stDlb 0 [(pg .dlb 0, Reg.DLB_DLB_STAT_TC_LOCK, 1)], by decide +kernel⟩,
    ⟨stDlb 0 [], by decide +kernel⟩,
    ⟨stDlb 1 [], by decide +kernel⟩⟩

theorem witness_HostEndpointCommandsComplete :
    (∃ (s : State), (s.hostOpen (pg .pci 0))) ∧
    (∃ (s : State), (s.on (pg .pci 0) Reg.PCI_LINK_STAT_UP = true)) ∧
    (∃ (off : Nat) (bytes : List Byte) (s : State), (anyGranule (s.bar2Addr off) bytes.length s.beyond = false) ∧ s.cutOff .bar2 0 = false) ∧
    (∃ (off : Nat) (len : Nat) (s : State), (s.bar2Waits (s.bar2Addr off) len = true)) ∧
    (∃ (off : Nat) (len : Nat) (s : State), (s.bar2Waits (s.bar2Addr off) len = false) ∧ (anyGranule (s.bar2Addr off) len s.beyond = false) ∧ (s.poisoned
      (s.bar2Addr off) len = false) ∧ s.cutOff .bar2 0 = false) ∧
    (∃ (t : Nat) (x : HeldRead) (l : List HeldRead) (s : State), (s.mem.held = x :: l) ∧ (∀ h ∈ x :: l, (s.advance t).bar2Waits h.addr h.len = true) ∧
      (x.at_ + 8000000 ≤ (s.advance t).tick)) :=
  ⟨⟨st9 [(pg .pci 0, Reg.PCI_AER_CNT_CORR, 4)], by decide +kernel⟩,
    ⟨st9 [(pg .pci 0, Reg.PCI_LINK_STAT_UP, 1)], by decide +kernel⟩,
    (by
      refine ⟨8, [1, 2], st9 [], ?_⟩
      delta State.beyond
      rw [locate_eq]
      have h := ranks
      generalize logicalRanks = k at h ⊢
      rcases h with rfl | rfl <;> decide +kernel),
    (by
      refine ⟨0, 8, st9 [(pg .clk 0, Reg.CLK_PLL_STAT_GATED, 1)], ?_⟩
      delta State.bar2Waits State.beyond State.chanWaits State.unavailable
      rw [locate_eq]
      have h := ranks
      generalize logicalRanks = k at h ⊢
      rcases h with rfl | rfl <;> decide +kernel),
    (by
      refine ⟨0, 8, stOn [pg .mch 0] [], ?_⟩
      delta State.bar2Waits State.beyond State.chanWaits State.unavailable
      rw [locate_eq]
      have h := ranks
      generalize logicalRanks = k at h ⊢
      rcases h with rfl | rfl <;> decide +kernel),
    (by
      refine ⟨8000000, ⟨0, 8, 0⟩, [], { st9 [(pg .clk 0, Reg.CLK_PLL_STAT_GATED, 1)] with mem := { held := [⟨0, 8, 0⟩] } }, ?_⟩
      delta State.bar2Waits State.beyond State.chanWaits State.unavailable
      rw [locate_eq]
      have h := ranks
      generalize logicalRanks = k at h ⊢
      rcases h with rfl | rfl <;> decide +kernel)⟩

theorem witness_DisplayFrameCommandsComplete :
    (∃ (t : Nat) (h : Fin 2) (s : State), s.headRuns h = true ∧ s.frameOver h t = true) ∧
    (∃ (t : Nat) (h : Fin 2) (l : Fin 4) (line : Fin 2160) (x : Latch) (g : LayerGeo) (n : Nat) (v : State) (s : State), s.headRuns h = true ∧ (v =
      (s.advance t).sendTo h ((s.advance t).linesDone h (s.advance t).tick)) ∧ ((v.dspHead h).latch l = some x) ∧ (g = s.geoOf h l x.addr) ∧ (n = min
      g.w (s.dspA h Reg.DSP_TIM_H_HACTIVE - s.dspA h (Reg.DSP_L_POS_X0 l))) ∧ ((v.dspHead h).blank = false ∧ (v.dspHead h).aborted = false ∧
      (v.dspHead h).filled l line = false) ∧ (∀ e ∈ s.lineAt h line, (s.advance t).tick * 2 ^ 27 ≤ e + s.dspA h (Reg.DSP_L_POS_X0 l) * pclkDiv (s.dspA
      h)) ∧ (s.dspA h (Reg.DSP_L_POS_Y0 l) ≤ line.val ∧ line.val < s.dspA h (Reg.DSP_L_POS_Y0 l) + g.h ∧ line.val < s.dspA h Reg.DSP_TIM_V_VACTIVE) ∧
      (∀ a ∈ g.spans (line - s.dspA h (Reg.DSP_L_POS_Y0 l)) n, anyGranule a.1 a.2 s.beyond = false ∧ anyGranule a.1 a.2 s.unavailable = false ∧
      s.poisoned a.1 a.2 = false)) ∧
    (∃ (t : Nat) (e : Nat) (h : Fin 2) (line : Fin 2160) (x : Fin 3840) (v : State) (s : State), s.headRuns h = true ∧ (v = (s.advance t).sendTo h line) ∧
      (s.lineAt h line = some e) ∧ (e + x.val * pclkDiv (s.dspA h) ≤ t * 2 ^ 27 + 2 ^ 27) ∧ ((s.dspHead h).blank = false ∧ (v.dspHead h).aborted =
      false ∧ (v.dspHead h).sent ≤ line.val ∧ (v.dspHead h).unlinked = false) ∧ (v.firstMissing h line = some x.val)) ∧
    (∃ (tag : Nat) (h : Fin 2) (l : Fin 4) (line : Fin 2160) (x : Latch) (s : State), s.headRuns h = true ∧ ((s.dspHead h).latch l = some x) ∧ (smFind l
      (s.dspHead h).tag = some tag) ∧ ((s.dspHead h).aborted = false ∧ (s.dspHead h).filled l line = false) ∧ (s.dspA h (Reg.DSP_L_CFG_GUARD l) = 1) ∧
      (s.readNat x.addr 8 ≠ tag)) ∧
    (∃ (h : Fin 2) (b : Nat) (c : Nat) (e : Nat) (s : State), (s.hostOpen (pg .dsp h)) ∧ (b = s.rd (pg .dsp h) Reg.DSP_GAMMA_IDX_BANK ∧ c = s.rd (pg .dsp
      h) Reg.DSP_GAMMA_IDX_CH ∧ e = s.rd (pg .dsp h) Reg.DSP_GAMMA_IDX_ENTRY) ∧ (b ≠ s.dspA h Reg.DSP_GAMMA_CFG_SEL) ∧ (c ≠ 3)) ∧
    (∃ (h : Fin 2) (s : State), (s.hostOpen (pg .dsp h)) ∧ (s.rd (pg .dsp h) Reg.DSP_GAMMA_IDX_BANK = s.dspA h Reg.DSP_GAMMA_CFG_SEL)) ∧
    (∃ (t : Nat) (edge : Nat) (h : Fin 2) (s : State), s.teWait h edge = true ∧ (edge + s.dspA h Reg.DSP_TIM_CFG_TE_FILTER ≤ (s.advance t).tick ∧ edge +
      s.dspA h Reg.DSP_TIM_CFG_TE_FILTER ≤ s.teEnd h)) ∧
    (∃ (t : Nat) (h : Fin 2) (s : State), (s.teWait h (s.advance t).tick = true) ∧ (s.teEnd h ≤ (s.advance t).tick)) :=
  ⟨⟨5, 1, stDsp [], by decide +kernel⟩,
    (by
      refine ⟨5, 1, 0, 3, ⟨0, 4096, none⟩, ⟨16, 16, 0, false, 8192, 4096, 4096, 64, 0⟩, 16, (stLayer.advance 5).sendTo 1 ((stLayer.advance 5).linesDone 1
        5), stLayer, ?_⟩
      delta State.beyond State.unavailable
      rw [locate_eq]
      have h := ranks
      generalize logicalRanks = k at h ⊢
      rcases h with rfl | rfl <;> decide +kernel),
    ⟨18223, 2445746361024, 1, 0, 0, (stRaster.advance 18223).sendTo 1 0, stRaster, by decide +kernel⟩,
    ⟨7, 1, 0, 3, ⟨0, 4096, none⟩, ({ stLayer with dsp := [(1, { latched := [⟨0, 4096, none⟩], tag := [(0, 7)] })] }).wrA (pg .dsp 1) (Reg.DSP_L_CFG_GUARD
      0) 1, by decide +kernel⟩,
    ⟨1, 1, 2, 1023, stDsp [(pg .dsp 1, Reg.DSP_GAMMA_IDX_BANK, 1), (pg .dsp 1, Reg.DSP_GAMMA_IDX_CH, 2), (pg .dsp 1, Reg.DSP_GAMMA_IDX_ENTRY, 1023)],
      by decide +kernel⟩,
    ⟨1, stDsp [], by decide +kernel⟩,
    ⟨1600000, 1500000, 1, (stDsp []).wrA (pg .dsp 1) Reg.DSP_TIM_CFG_TE_MODE 1, by decide +kernel⟩,
    ⟨41600000, 1, (stDsp []).wrA (pg .dsp 1) Reg.DSP_TIM_CFG_TE_MODE 1, by decide +kernel⟩⟩

theorem witness_DisplayLinkCommandsComplete :
    (∃ (h : Fin 2) (level : Bool) (s : State), (s.on (pg .dsp h) Reg.DSP_LINK_STAT_HPD ≠ level)) ∧
    (∃ (h : Fin 2) (sinkRate : Fin 4) (sinkLanes : Fin 3) (s : State), s.mayTrain h = true ∧ ((s.dspHead h).waiting = false) ∧ (s.dspA h
      Reg.DSP_LINK_CFG_RATE ≤ sinkRate.val ∧ s.dspA h Reg.DSP_LINK_CFG_LANES ≤ sinkLanes.val)) ∧
    (∃ (h : Fin 2) (sinkRate : Fin 4) (sinkLanes : Fin 3) (s : State), s.mayTrain h = true ∧ ((s.dspHead h).waiting = false) ∧ (sinkRate.val < s.dspA h
      Reg.DSP_LINK_CFG_RATE ∨ sinkLanes.val < s.dspA h Reg.DSP_LINK_CFG_LANES)) ∧
    (∃ (t : Nat) (h : Fin 2) (s : State), ((s.dspHead h).training = true) ∧ ((s.advance t).tick ≤ (s.dspHead h).trainAt + 32000000)) ∧
    (∃ (h : Fin 2) (s : State), ((s.dspHead h).training = true)) ∧
    (∃ (t : Nat) (h : Fin 2) (s : State), s.mayTrain h = true ∧ ((s.dspHead h).waiting = true) ∧ ((s.dspHead h).failedAt + 1600000000 ≤ (s.advance
      t).tick)) ∧
    (∃ (h : Fin 2) (s : State), (s.hostOpen (pg .dsp h)) ∧ (s.on (pg .dsp h) Reg.DSP_HEAD_CTL_RETRAIN = false)) ∧
    (∃ (h : Fin 2) (s : State), (s.hostOpen (pg .dsp h))) ∧
    (∃ (h : Fin 2) (s : State), (s.hostOpen (pg .dsp h)) ∧ (s.on (pg .dsp h) Reg.DSP_AUX_CTL_GO = false)) ∧
    (∃ (h : Fin 2) (s : State), (s.on (pg .dsp h) Reg.DSP_AUX_CTL_GO = true) ∧ ((s.dspHead h).auxWait = false)) :=
  ⟨⟨1, true, stDsp [], by decide +kernel⟩,
    ⟨1, 3, 2, stDsp [(pg .dsp 1, Reg.DSP_LINK_STAT_HPD, 1)], by decide +kernel⟩,
    ⟨1, 0, 2, (stDsp [(pg .dsp 1, Reg.DSP_LINK_STAT_HPD, 1)]).wrA (pg .dsp 1) Reg.DSP_LINK_CFG_RATE 3, by decide +kernel⟩,
    ⟨5, 1, { stDsp [] with dsp := [(1, { training := true })] }, by decide +kernel⟩,
    ⟨1, { stDsp [] with dsp := [(1, { training := true, attempts := 4 })] }, by decide +kernel⟩,
    ⟨1600000000, 1, { stDsp [(pg .dsp 1, Reg.DSP_LINK_STAT_HPD, 1)] with dsp := [(1, { waiting := true })] }, by decide +kernel⟩,
    ⟨1, stDsp [(pg .dsp 1, Reg.DSP_LINK_STAT_TRAINED, 1)], by decide +kernel⟩,
    ⟨1, stDsp [(pg .dsp 1, Reg.DSP_HEAD_STAT_DEFER_CNT, 1)], by decide +kernel⟩,
    ⟨1, stDsp [], by decide +kernel⟩,
    ⟨1, stDsp [(pg .dsp 1, Reg.DSP_AUX_CTL_GO, 1)], by decide +kernel⟩⟩

theorem witness_MemoryServiceCommandsComplete :
    (∃ (t : Nat) (k : Nat) (pc : Fin 128) (new : List MemReq) (pick : Fin 32) (q : QueuedReq) (v : State) (v' : State) (s : State), (v = (s.advance
      t).each new (fun s r => s.enqueue pc t r)) ∧ v.pcFree pc t = true ∧ (v.pick pc t ((v.queueOf pc).filter (v.eligible pc t)) = some (k, v')) ∧
      (chosen ((v.queueOf pc).filter (v.eligible pc t)) k pick = some q)) ∧
    (∃ (t : Nat) (pc : Fin 128) (s : State), (s.chanState (pc / 2) = 2) ∧ s.gated = false ∧ (smGet (s.advance t).tick pc s.mem.refAt ≤ (s.advance t).tick)
      ∧ (s.queueOf pc ≠ []) ∧ (s.doubled (pc / 32) = false) ∧ (smGet 0 pc s.mem.postponed < min 8 (s.rd (pg .mst (pc / 32))
      Reg.MST_REFRESH_CFG_POSTPONE_MAX))) ∧
    (∃ (t : Nat) (pc : Fin 128) (s : State), (s.chanState (pc / 2) = 2) ∧ s.gated = false ∧ (smGet (s.advance t).tick pc s.mem.refAt ≤ (s.advance t).tick)
      ∧ (s.queueOf pc = [])) ∧
    (∃ (t : Nat) (ch : Fin 64) (s : State), s.chanState ch = 2 ∧ s.chanBusy ch = false ∧ (s.rd (pg .mst (ch / 16)) Reg.MST_MST_CFG_IDLE_SR ≠ 0) ∧ (smGet 0
      ch s.mem.lastReq + s.rd (pg .mst (ch / 16)) Reg.MST_MST_CFG_IDLE_SR * 1600 ≤ (s.advance t).tick)) ∧
    (∃ (t : Nat) (stop : Nat) (ch : Fin 64) (cls : Fin 64) (s : State), (smFind (64 * ch.val + cls.val) s.mem.throttle = some stop) ∧ (stop ≤ (s.advance
      t).tick)) ∧
    (∃ (ch : Fin 64) (s : State), (s.hostOpen (pg .mch ch))) ∧
    (∃ (st : Fin 4) (s : State), (s.hostOpen (pg .mst st))) :=
  ⟨(by
      refine ⟨5, 3, 0, [req0], 0, ⟨0, req0⟩, stQueued, stPicked, stMem, ?_⟩
      delta stPicked stQueued State.enqueue State.liesIn State.eligible State.copying State.migStepOf
      rw [locate_eq]
      have h := ranks
      generalize logicalRanks = k at h ⊢
      rcases h with rfl | rfl <;> decide +kernel),
    ⟨5, 2, { st9 [(pg .mch 1, Reg.MCH_MCH_STAT_STATE, 2), (pg .mst 0, Reg.MST_REFRESH_CFG_POSTPONE_MAX, 8)] with mem := { queue := [(2, [⟨0, req0⟩])] } },
      by decide +kernel⟩,
    ⟨5, 2, { st9 [(pg .mch 1, Reg.MCH_MCH_STAT_STATE, 2)] with mem := { postponed := [(2, 5)] } }, by decide +kernel⟩,
    ⟨1600, 1, st9 [(pg .mch 1, Reg.MCH_MCH_STAT_STATE, 2), (pg .mst 0, Reg.MST_MST_CFG_IDLE_SR, 1)], by decide +kernel⟩,
    ⟨9, 9, 1, 3, { st9 [] with mem := { throttle := [(67, 9)] } }, by decide +kernel⟩,
    ⟨1, st9 [(pg .mch 1, Reg.MCH_ERR_CNT_UNC, 4)], by decide +kernel⟩,
    ⟨1, st9 [], by decide +kernel⟩⟩

theorem witness_MemoryRateAndRepairCommandsComplete :
    (∃ (st : Fin 4) (s : State), (s.hostOpen (pg .mst st)) ∧ (s.on (pg .mst st) Reg.MST_FREQ_STAT_BUSY = false)) ∧
    (∃ (st : Fin 4) (s : State), (s.on (pg .mst st) Reg.MST_FREQ_STAT_BUSY = true) ∧ (st.val ∉ s.mem.switching) ∧ (s.rd (pg .mst st) Reg.MST_FREQ_CTL_SYNC
      = 0)) ∧
    (∃ (st : Fin 4) (s : State), (st.val ∈ s.mem.switching) ∧ s.gated = false) ∧
    (∃ (t : Nat) (ch : Fin 64) (s : State), (s.chanState ch = 2 ∨ s.chanState ch = 3) ∧ s.gated = false ∧ (smGet 0 ch s.mem.trainAt + s.trainPeriod (ch /
      16) * 1600000 ≤ (s.advance t).tick)) ∧
    (∃ (t : Nat) (ch : Fin 64) (s : State), (s.chanState ch = 2 ∨ s.chanState ch = 3) ∧ (s.rd (pg .mst (ch / 16)) Reg.MST_MST_CFG_ERR_TH < ((smGet [] ch
      s.mem.retries).filter (fun x => (s.advance t).tick < x + 1600000)).length)) ∧
    (∃ (ch : Fin 64) (s : State), s.chanState ch = 4) ∧
    (∃ (ch : Fin 64) (s : State), (s.on (pg .mch ch) Reg.MCH_MCH_STAT_MIGRATING = true) ∧ s.mem.migPaused = false ∧ s.gated = false ∧ (s.chanState ch ≠ 4)
      ∧ (s.rd (pg .mch ch) Reg.MCH_MIG_JOURNAL_STEPS + 1 < migSteps)) ∧
    (∃ (ch : Fin 64) (s : State), (s.on (pg .mch ch) Reg.MCH_MCH_STAT_MIGRATING = true) ∧ s.mem.migPaused = false ∧ s.gated = false ∧ (s.chanState ch ≠ 4)
      ∧ (s.rd (pg .mch ch) Reg.MCH_MIG_JOURNAL_STEPS + 1 = migSteps)) :=
  ⟨⟨1, st9 [], by decide +kernel⟩,
    ⟨1, st9 [(pg .mst 1, Reg.MST_FREQ_STAT_BUSY, 1)], by decide +kernel⟩,
    ⟨1, { st9 [(pg .mst 1, Reg.MST_FREQ_STAT_BUSY, 1)] with mem := { switching := [1], switchAt := [(1, 0)] } }, by decide +kernel⟩,
    ⟨1600000000, 1, st9 [(pg .mch 1, Reg.MCH_MCH_STAT_STATE, 2)], by decide +kernel⟩,
    ⟨5, 1, { st9 [(pg .mch 1, Reg.MCH_MCH_STAT_STATE, 2), (pg .mst 0, Reg.MST_MST_CFG_ERR_TH, 0)] with mem := { retries := [(1, [4])] } }, by decide +kernel⟩,
    ⟨1, st9 [(pg .mch 1, Reg.MCH_MCH_STAT_STATE, 4)], by decide +kernel⟩,
    ⟨1, st9 [(pg .mch 1, Reg.MCH_MCH_STAT_MIGRATING, 1)], by decide +kernel⟩,
    ⟨1, st9 [(pg .mch 1, Reg.MCH_MCH_STAT_MIGRATING, 1), (pg .mch 1, Reg.MCH_MIG_JOURNAL_STEPS, 196607)], by decide +kernel⟩⟩

theorem witness_BankCommandsComplete :
    (∃ (b : Fin 64) (owner : BitVec 7) (agent : BitVec 7) (s : State), (s.hostOpen (pg .bnk b)) ∧ ownOk owner.toNat agent.toNat = true) ∧
    (∃ (b : Fin 64) (owner : BitVec 7) (agent : BitVec 7) (s : State), (s.hostOpen (pg .bnk b)) ∧ ownOk owner.toNat agent.toNat = false) ∧
    (∃ (b : Fin 64) (s : State), (s.on (pg .bnk b) Reg.BNK_BNK_OWN_BUSY = true)) ∧
    (∃ (b : Fin 64) (x : BankAcc) (s : State), s.gated = false ∧ s.bankHolds b x.agent.toNat = false ∧ s.bankAccepts b x.agent.toNat = true ∧ isPortA
      x.agent.toNat = true ∧ x.write = true ∧ (s.stagedOf b = [] ∧ smFind b.val s.bank.spill = none)) ∧
    (∃ (b : Fin 64) (x : BankAcc) (s : State), s.gated = false ∧ s.bankHolds b x.agent.toNat = false ∧ s.bankAccepts b x.agent.toNat = true ∧ isPortA
      x.agent.toNat = true ∧ (x.write = false ∧ x.unc = false) ∧ (s.stagedOf b = [] ∧ smFind b.val s.bank.spill = none)) ∧
    (∃ (b : Fin 64) (s : State), (s.rd (pg .bnk b) Reg.BNK_BNK_CFG_STARVE_LIMIT ≠ 0) ∧ (s.rd (pg .bnk b) Reg.BNK_BNK_CFG_STARVE_LIMIT ≤ smGet 0 b
      s.bank.wait) ∧ (b.val ∉ s.bank.waitSaid)) ∧
    (∃ (t : Nat) (what : Nat) (r : Nat) (b : Fin 64) (e : Emitted) (v : State) (s : State), (what = s.rd (pg .bnk b) Reg.BNK_DEP_CFG_WHAT) ∧ ((if what = 2
      then (s.xfc (s.rd (pg .bnk b) Reg.BNK_DEP_CFG_CTX)).outT else (s.xfc (s.rd (pg .bnk b) Reg.BNK_DEP_CFG_CTX)).out) = some e) ∧ (s.on (pg .bnk b)
      Reg.BNK_DEP_CFG_EN = true) ∧ s.gated = false ∧ (e.seq % 2 ^ s.rd (pg .bnk b) Reg.BNK_DEP_CFG_EVERY_LOG2 = 0) ∧ (smGet 0 b s.bank.deposited ≠
      e.seq + 1) ∧ (v = (s.advance t).bankSync b t) ∧ (v.bankAccepts b 0x60 = true ∨ v.bankHolds b 0x60 = true) ∧ (r = (e.deposit what).length + 1) ∧
      ((v.stagedOf b).length + r ≤ stageWords) ∧ (r ≤ s.rd (pg .bnk b) Reg.BNK_DEP_RING_LEN)) ∧
    (∃ (b : Fin 64) (s : State), (s.hostOpen (pg .bnk b)) ∧ (s.on (pg .bnk b) Reg.BNK_SPILL_CTL_GO = false)) ∧
    (∃ (t : Nat) (b : Fin 64) (x : SpillJob) (v : State) (s : State), (s.on (pg .bnk b) Reg.BNK_SPILL_CTL_GO = true) ∧ s.gated = false ∧ (v = (s.advance
      t).bankSync b t) ∧ (smFind b.val v.bank.spill = some x) ∧ (4 * x.total ≤ x.done ∧ v.stagedOf b = [])) ∧
    (∃ (b : Fin 64) (s : State), (s.hostOpen (pg .bnk b))) :=
  ⟨⟨3, 2, 0x50, st9 [], by decide +kernel⟩,
    ⟨3, 0x45, 0x50, st9 [], by decide +kernel⟩,
    ⟨3, st9 [(pg .bnk 3, Reg.BNK_BNK_OWN_BUSY, 1), (pg .bnk 3, Reg.BNK_BNK_OWN_OWNER, 2)], by decide +kernel⟩,
    ⟨3, ⟨2, true, 131071, 77, false⟩, stOn [pg .bnk 3] [(pg .bnk 3, Reg.BNK_BNK_OWN_OWNER_ACT, 2)], by decide +kernel⟩,
    ⟨3, ⟨2, false, 131071, 77, false⟩, stOn [pg .bnk 3] [(pg .bnk 3, Reg.BNK_BNK_OWN_OWNER_ACT, 2)], by decide +kernel⟩,
    ⟨3, { st9 [(pg .bnk 3, Reg.BNK_BNK_CFG_STARVE_LIMIT, 2)] with bank := { wait := [(3, 2)] } }, by decide +kernel⟩,
    ⟨5, 2, 1, 3, emit0, (stDep.advance 5).bankSync 3 5, stDep, by decide +kernel⟩,
    ⟨3, st9 [], by decide +kernel⟩,
    ⟨5, 3, ⟨0, 0, 0, 1, 0, 4, []⟩, (stSpill.advance 5).bankSync 3 5, stSpill, by decide +kernel⟩,
    ⟨3, st9 [(pg .bnk 3, Reg.BNK_DEP_STAT_DROPS, 4)], by decide +kernel⟩⟩

theorem witness_DmaCommandsComplete :
    (∃ (d : Fin 16) (s : State), (s.hostOpen (pg .dma d)) ∧ s.dmaBusy d = false ∧ s.dmaRuns d = true) ∧
    (∃ (d : Fin 16) (s : State), (s.hostOpen (pg .dma d)) ∧ s.dmaBusy d = true) ∧
    (∃ (d : Fin 16) (s : State), s.gated = false ∧ s.dmaBusy d = true ∧ (s.rd (pg .dma d) Reg.DMA_DMA_LEN_WORDS ≤ s.dmaNext d) ∧ (d.val ∉
      s.bank.dmaPoison)) ∧
    (∃ (a : Nat) (a' : Nat) (b : Nat) (b' : Nat) (d : Fin 16) (s : State), s.gated = false ∧ s.dmaBusy d = true ∧ (d.val ∉ s.bank.dmaAbort) ∧ (s.rd (pg
      .dma d) Reg.DMA_DMA_LEN_WORDS = 1 ∧ s.dmaNext d = 0) ∧ (s.on (pg .dma d) Reg.DMA_DMA_SRC_BANK_SEL = true ∧ b = s.rd (pg .dma d)
      Reg.DMA_DMA_SRC_BANK ∧ a = s.rd (pg .dma d) Reg.DMA_DMA_SRC_ADDR) ∧ (s.on (pg .dma d) Reg.DMA_DMA_DST_BANK_SEL = true ∧ b' = s.rd (pg .dma d)
      Reg.DMA_DMA_DST_BANK ∧ a' = s.rd (pg .dma d) Reg.DMA_DMA_DST_ADDR) ∧ (a < 131072 ∧ a' < 131072) ∧ (s.bankHolds b (0x50 + d.val) = false ∧
      s.bankAccepts b (0x50 + d.val) = true) ∧ (s.bankHolds b' (0x50 + d.val) = false ∧ s.bankAccepts b' (0x50 + d.val) = true)) :=
  ⟨⟨3, stOn [pg .dma 3] [(pg .dma 3, Reg.PG_STAT_EN_ACT 0, 1)], by decide +kernel⟩,
    ⟨3, stOn [pg .dma 3] [(pg .dma 3, Reg.DMA_DMA_CTL_GO, 1)], by decide +kernel⟩,
    ⟨3, stOn [pg .dma 3] [(pg .dma 3, Reg.DMA_DMA_CTL_GO, 1), (pg .dma 3, Reg.DMA_DMA_LEN_WORDS, 0)], by decide +kernel⟩,
    ⟨8, 9, 1, 2, 3,
      { stOn [pg .bnk 1, pg .bnk 2, pg .dma 3] [(pg .dma 3, Reg.DMA_DMA_CTL_GO, 1), (pg .dma 3, Reg.DMA_DMA_LEN_WORDS, 1), (pg .dma 3, Reg.DMA_DMA_SRC_BANK_SEL, 1), (pg .dma 3, Reg.DMA_DMA_SRC_BANK, 1), (pg .dma 3, Reg.DMA_DMA_SRC_ADDR, 8), (pg .dma 3, Reg.DMA_DMA_DST_BANK_SEL, 1), (pg .dma 3, Reg.DMA_DMA_DST_BANK, 2), (pg .dma 3, Reg.DMA_DMA_DST_ADDR, 9), (pg .bnk 1, Reg.BNK_BNK_OWN_OWNER_ACT, 0x53), (pg .bnk 2, Reg.BNK_BNK_OWN_OWNER_ACT, 0x53)] with bank := { words := [(131080, 7)] } },
      by decide +kernel⟩⟩

theorem witness_CoreAluCommandsComplete :
    (∃ (t : Nat) (w : Nat) (n : Fin 64) (ecc : CoreEcc) (s : State), s.compute n t w ecc ∧ (bMac w = false ∧ aluOp (bOpc w) = some .add)) ∧
    (∃ (t : Nat) (w : Nat) (n : Fin 64) (ecc : CoreEcc) (s : State), s.compute n t w ecc ∧ (bMac w = false ∧ aluOp (bOpc w) = some .sub)) ∧
    (∃ (t : Nat) (w : Nat) (n : Fin 64) (ecc : CoreEcc) (s : State), s.compute n t w ecc ∧ (bMac w = false ∧ aluOp (bOpc w) = some .and_)) ∧
    (∃ (t : Nat) (w : Nat) (n : Fin 64) (ecc : CoreEcc) (s : State), s.compute n t w ecc ∧ (bMac w = false ∧ aluOp (bOpc w) = some .or_)) ∧
    (∃ (t : Nat) (w : Nat) (n : Fin 64) (ecc : CoreEcc) (s : State), s.compute n t w ecc ∧ (bMac w = false ∧ aluOp (bOpc w) = some .xor)) ∧
    (∃ (t : Nat) (w : Nat) (n : Fin 64) (ecc : CoreEcc) (s : State), s.compute n t w ecc ∧ (bMac w = false ∧ aluOp (bOpc w) = some .andn)) ∧
    (∃ (t : Nat) (w : Nat) (n : Fin 64) (ecc : CoreEcc) (s : State), s.compute n t w ecc ∧ (bMac w = false ∧ aluOp (bOpc w) = some .shl)) ∧
    (∃ (t : Nat) (w : Nat) (n : Fin 64) (ecc : CoreEcc) (s : State), s.compute n t w ecc ∧ (bMac w = false ∧ aluOp (bOpc w) = some .shr)) ∧
    (∃ (t : Nat) (w : Nat) (n : Fin 64) (ecc : CoreEcc) (s : State), s.compute n t w ecc ∧ (bMac w = false ∧ aluOp (bOpc w) = some .sar)) ∧
    (∃ (t : Nat) (w : Nat) (n : Fin 64) (ecc : CoreEcc) (s : State), s.compute n t w ecc ∧ (bMac w = false ∧ aluOp (bOpc w) = some .min)) ∧
    (∃ (t : Nat) (w : Nat) (n : Fin 64) (ecc : CoreEcc) (s : State), s.compute n t w ecc ∧ (bMac w = false ∧ aluOp (bOpc w) = some .max)) ∧
    (∃ (t : Nat) (w : Nat) (n : Fin 64) (ecc : CoreEcc) (s : State), s.compute n t w ecc ∧ (bMac w = false ∧ aluOp (bOpc w) = some .sel)) ∧
    (∃ (t : Nat) (w : Nat) (n : Fin 64) (ecc : CoreEcc) (s : State), s.compute n t w ecc ∧ (bMac w = false ∧ aluOp (bOpc w) = some .addi)) ∧
    (∃ (t : Nat) (w : Nat) (n : Fin 64) (ecc : CoreEcc) (s : State), s.compute n t w ecc ∧ (bMac w = false ∧ aluOp (bOpc w) = some .andi)) ∧
    (∃ (t : Nat) (w : Nat) (n : Fin 64) (ecc : CoreEcc) (s : State), s.compute n t w ecc ∧ (bMac w = false ∧ aluOp (bOpc w) = some .ori)) ∧
    (∃ (t : Nat) (w : Nat) (n : Fin 64) (ecc : CoreEcc) (s : State), s.compute n t w ecc ∧ (bMac w = false ∧ aluOp (bOpc w) = some .cmp)) ∧
    (∃ (t : Nat) (w : Nat) (n : Fin 64) (ecc : CoreEcc) (s : State), s.compute n t w ecc ∧ (bMac w = false ∧ aluOp (bOpc w) = some .cmpi)) ∧
    (∃ (t : Nat) (w : Nat) (n : Fin 64) (ecc : CoreEcc) (s : State), s.compute n t w ecc ∧ (bMac w = false ∧ aluOp (bOpc w) = some .tst)) ∧
    (∃ (t : Nat) (w : Nat) (n : Fin 64) (ecc : CoreEcc) (s : State), s.atBundle n t w ∧ (ecc.p ≠ 2) ∧ w = 0) ∧
    (∃ (t : Nat) (w : Nat) (n : Fin 64) (ecc : CoreEcc) (s : State), s.atBundle n t w ∧ (ecc.p ≠ 2) ∧ (bForm w = 2 ∧ bundleLegal w false = true)) :=
  ⟨⟨5, 39444429890650112, 7, ⟨1, 0, 0⟩, stCore 39444429890650112, by decide +kernel⟩,
    ⟨5, 75473226909614080, 7, ⟨1, 0, 0⟩, stCore 75473226909614080, by decide +kernel⟩,
    ⟨5, 111502023928578048, 7, ⟨1, 0, 0⟩, stCore 111502023928578048, by decide +kernel⟩,
    ⟨5, 147530820947542016, 7, ⟨1, 0, 0⟩, stCore 147530820947542016, by decide +kernel⟩,
    ⟨5, 183559617966505984, 7, ⟨1, 0, 0⟩, stCore 183559617966505984, by decide +kernel⟩,
    ⟨5, 219588414985469952, 7, ⟨1, 0, 0⟩, stCore 219588414985469952, by decide +kernel⟩,
    ⟨5, 291644080583081984, 7, ⟨1, 0, 0⟩, stCore 291644080583081984, by decide +kernel⟩,
    ⟨5, 327672877602045952, 7, ⟨1, 0, 0⟩, stCore 327672877602045952, by decide +kernel⟩,
    ⟨5, 363701674621009920, 7, ⟨1, 0, 0⟩, stCore 363701674621009920, by decide +kernel⟩,
    ⟨5, 399732400080289792, 7, ⟨1, 0, 0⟩, stCore 399732400080289792, by decide +kernel⟩,
    ⟨5, 435761197099253760, 7, ⟨1, 0, 0⟩, stCore 435761197099253760, by decide +kernel⟩,
    ⟨5, 507818245676335104, 7, ⟨1, 0, 0⟩, stCore 507818245676335104, by decide +kernel⟩,
    ⟨5, 579908816473161728, 7, ⟨1, 0, 0⟩, stCore 579908816473161728, by decide +kernel⟩,
    ⟨5, 651966410511089664, 7, ⟨1, 0, 0⟩, stCore 651966410511089664, by decide +kernel⟩,
    ⟨5, 687995207530053632, 7, ⟨1, 0, 0⟩, stCore 687995207530053632, by decide +kernel⟩,
    ⟨5, 252238962528092160, 7, ⟨1, 0, 0⟩, stCore 252238962528092160, by decide +kernel⟩,
    ⟨5, 612559913771597824, 7, ⟨1, 0, 0⟩, stCore 612559913771597824, by decide +kernel⟩,
    ⟨5, 468409816201560064, 7, ⟨1, 0, 0⟩, stCore 468409816201560064, by decide +kernel⟩,
    ⟨5, 0, 7, ⟨1, 0, 0⟩, stCore 0, by decide +kernel⟩,
    ⟨5, 9403656759437950976, 7, ⟨1, 0, 0⟩, stCore 9403656759437950976, by decide +kernel⟩⟩

theorem witness_CoreComplexCommandsComplete :
    (∃ (t : Nat) (w : Nat) (n : Fin 64) (ecc : CoreEcc) (s : State), s.compute n t w ecc ∧ (bMac w = false ∧ aluOp (bOpc w) = some .cadd)) ∧
    (∃ (t : Nat) (w : Nat) (n : Fin 64) (ecc : CoreEcc) (s : State), s.compute n t w ecc ∧ (bMac w = false ∧ aluOp (bOpc w) = some .csub)) ∧
    (∃ (t : Nat) (w : Nat) (n : Fin 64) (ecc : CoreEcc) (s : State), s.compute n t w ecc ∧ (bMac w = false ∧ aluOp (bOpc w) = some .csar)) ∧
    (∃ (t : Nat) (w : Nat) (n : Fin 64) (ecc : CoreEcc) (s : State), s.compute n t w ecc ∧ (bMac w = false ∧ aluOp (bOpc w) = some .conj)) ∧
    (∃ (t : Nat) (w : Nat) (n : Fin 64) (ecc : CoreEcc) (s : State), s.compute n t w ecc ∧ (bMac w = false ∧ aluOp (bOpc w) = some .ext)) ∧
    (∃ (t : Nat) (w : Nat) (n : Fin 64) (ecc : CoreEcc) (s : State), s.compute n t w ecc ∧ (bMac w = false ∧ aluOp (bOpc w) = some .geta)) ∧
    (∃ (t : Nat) (w : Nat) (n : Fin 64) (ecc : CoreEcc) (s : State), s.compute n t w ecc ∧ (bMac w = false ∧ aluOp (bOpc w) = some .acld)) ∧
    (∃ (t : Nat) (w : Nat) (n : Fin 64) (ecc : CoreEcc) (s : State), s.compute n t w ecc ∧ (bMac w = false ∧ aluOp (bOpc w) = some .acclr)) ∧
    (∃ (t : Nat) (w : Nat) (n : Fin 64) (ecc : CoreEcc) (s : State), s.compute n t w ecc ∧ (bMac w = false ∧ aluOp (bOpc w) = some .puta)) :=
  ⟨⟨5, 868106215865974784, 7, ⟨1, 0, 0⟩, stCore 868106215865974784, by decide +kernel⟩,
    ⟨5, 904135012884938752, 7, ⟨1, 0, 0⟩, stCore 904135012884938752, by decide +kernel⟩,
    ⟨5, 940161739729666048, 7, ⟨1, 0, 0⟩, stCore 940161739729666048, by decide +kernel⟩,
    ⟨5, 976190403604643840, 7, ⟨1, 0, 0⟩, stCore 976190403604643840, by decide +kernel⟩,
    ⟨5, 1157060066373795840, 7, ⟨1, 0, 0⟩, stCore 1157060066373795840, by decide +kernel⟩,
    ⟨5, 1444529679263334400, 7, ⟨1, 0, 0⟩, stCore 1444529679263334400, by decide +kernel⟩,
    ⟨5, 1191237285811585024, 7, ⟨1, 0, 0⟩, stCore 1191237285811585024, by decide +kernel⟩,
    ⟨5, 1224979120119611392, 7, ⟨1, 0, 0⟩, stCore 1224979120119611392, by decide +kernel⟩,
    ⟨5, 1477215960933859328, 7, ⟨1, 0, 0⟩, stCore 1477215960933859328, by decide +kernel⟩⟩

theorem witness_CoreMacCommandsComplete :
    (∃ (t : Nat) (w : Nat) (n : Fin 64) (ecc : CoreEcc) (k : Fin 2) (a : Nat) (b : Nat) (m : Nat) (s : State), s.compute n t w ecc ∧ (bMac w = true ∧
      macUnit w k = (1, a, b, m))) ∧
    (∃ (t : Nat) (w : Nat) (n : Fin 64) (ecc : CoreEcc) (k : Fin 2) (a : Nat) (b : Nat) (m : Nat) (s : State), s.compute n t w ecc ∧ (bMac w = true ∧
      macUnit w k = (2, a, b, m))) ∧
    (∃ (t : Nat) (w : Nat) (n : Fin 64) (ecc : CoreEcc) (k : Fin 2) (a : Nat) (b : Nat) (m : Nat) (s : State), s.compute n t w ecc ∧ (bMac w = true ∧
      macUnit w k = (3, a, b, m))) ∧
    (∃ (t : Nat) (w : Nat) (n : Fin 64) (ecc : CoreEcc) (k : Fin 2) (a : Nat) (b : Nat) (m : Nat) (s : State), s.compute n t w ecc ∧ (bMac w = true ∧
      macUnit w k = (4, a, b, m))) ∧
    (∃ (t : Nat) (w : Nat) (n : Fin 64) (ecc : CoreEcc) (k : Fin 2) (a : Nat) (b : Nat) (m : Nat) (s : State), s.compute n t w ecc ∧ (bMac w = true ∧
      macUnit w k = (5, a, b, m))) ∧
    (∃ (t : Nat) (w : Nat) (n : Fin 64) (ecc : CoreEcc) (k : Fin 2) (a : Nat) (b : Nat) (m : Nat) (s : State), s.compute n t w ecc ∧ (bMac w = true ∧
      macUnit w k = (6, a, b, m)) ∧ ((vget (s.coreAt n).acr m).toInt < iOf ((s.coreAt n).gr a))) ∧
    (∃ (t : Nat) (w : Nat) (n : Fin 64) (ecc : CoreEcc) (k : Fin 2) (a : Nat) (b : Nat) (m : Nat) (s : State), s.compute n t w ecc ∧ (bMac w = true ∧
      macUnit w k = (6, a, b, m)) ∧ (iOf ((s.coreAt n).gr a) ≤ (vget (s.coreAt n).acr m).toInt)) ∧
    (∃ (t : Nat) (w : Nat) (n : Fin 64) (ecc : CoreEcc) (k : Fin 2) (a : Nat) (b : Nat) (m : Nat) (s : State), s.compute n t w ecc ∧ (bMac w = true ∧
      macUnit w k = (7, a, b, m)) ∧ (iOf ((s.coreAt n).gr a) < (vget (s.coreAt n).acr m).toInt)) ∧
    (∃ (t : Nat) (w : Nat) (n : Fin 64) (ecc : CoreEcc) (k : Fin 2) (a : Nat) (b : Nat) (m : Nat) (s : State), s.compute n t w ecc ∧ (bMac w = true ∧
      macUnit w k = (7, a, b, m)) ∧ ((vget (s.coreAt n).acr m).toInt ≤ iOf ((s.coreAt n).gr a))) :=
  ⟨⟨5, 3621194026562093056, 7, ⟨1, 0, 0⟩, 1, 6, 8, 2, stCore 3621194026562093056, by decide +kernel⟩,
    ⟨5, 3783323613147430912, 7, ⟨1, 0, 0⟩, 1, 6, 8, 2, stCore 3783323613147430912, by decide +kernel⟩,
    ⟨5, 3945453199732768768, 7, ⟨1, 0, 0⟩, 1, 6, 8, 2, stCore 3945453199732768768, by decide +kernel⟩,
    ⟨5, 4107582786318106624, 7, ⟨1, 0, 0⟩, 1, 6, 8, 2, stCore 4107582786318106624, by decide +kernel⟩,
    ⟨5, 4269712372903444480, 7, ⟨1, 0, 0⟩, 1, 6, 8, 2, stCore 4269712372903444480, by decide +kernel⟩,
    ⟨5, 4431841959488782336, 7, ⟨1, 0, 0⟩, 1, 6, 8, 2, stCore2 4431841959488782336 1, by decide +kernel⟩,
    ⟨5, 4431841959488782336, 7, ⟨1, 0, 0⟩, 1, 6, 8, 2, stCore3 4431841959488782336 1, by decide +kernel⟩,
    ⟨5, 4593971546074120192, 7, ⟨1, 0, 0⟩, 1, 6, 8, 2, stCore2 4593971546074120192 4294967295, by decide +kernel⟩,
    ⟨5, 4593971546074120192, 7, ⟨1, 0, 0⟩, 1, 6, 8, 2, stCore3 4593971546074120192 4294967295, by decide +kernel⟩⟩

theorem witness_CoreMoveCommandsComplete :
    (∃ (t : Nat) (w : Nat) (n : Fin 64) (ecc : CoreEcc) (s : State), s.compute n t w ecc ∧ (vOp (xMove w) = 1)) ∧
    (∃ (t : Nat) (w : Nat) (n : Fin 64) (ecc : CoreEcc) (s : State), s.compute n t w ecc ∧ (vOp (yMove w) = 1)) ∧
    (∃ (t : Nat) (w : Nat) (n : Fin 64) (ecc : CoreEcc) (s : State), s.compute n t w ecc ∧ (vOp (xMove w) = 2)) ∧
    (∃ (t : Nat) (w : Nat) (n : Fin 64) (ecc : CoreEcc) (s : State), s.compute n t w ecc ∧ (vOp (yMove w) = 2)) ∧
    (∃ (t : Nat) (w : Nat) (n : Fin 64) (ecc : CoreEcc) (s : State), s.compute n t w ecc ∧ (vOp (xMove w) = 3)) ∧
    (∃ (t : Nat) (w : Nat) (n : Fin 64) (ecc : CoreEcc) (s : State), s.compute n t w ecc ∧ (vOp (yMove w) = 3)) :=
  ⟨⟨5, 1162674176, 7, ⟨1, 0, 0⟩, stCore 1162674176, by decide +kernel⟩,
    ⟨5, 17741, 7, ⟨1, 0, 0⟩, stCore 17741, by decide +kernel⟩,
    ⟨5, 2236416000, 7, ⟨1, 0, 0⟩, stCore 2236416000, by decide +kernel⟩,
    ⟨5, 34125, 7, ⟨1, 0, 0⟩, stCore 34125, by decide +kernel⟩,
    ⟨5, 4208984064, 7, ⟨1, 0, 0⟩, stCore 4208984064, by decide +kernel⟩,
    ⟨5, 50509, 7, ⟨1, 0, 0⟩, stCore 50509, by decide +kernel⟩⟩

theorem witness_CoreControlCommandsComplete :
    (∃ (t : Nat) (w : Nat) (n : Fin 64) (ecc : CoreEcc) (s : State), s.atBundle n t w ∧ (ecc.p ≠ 2) ∧ (bForm w = 1 ∧ bundleLegal w false = true ∧ kCtl w =
      0)) ∧
    (∃ (t : Nat) (w : Nat) (n : Fin 64) (ecc : CoreEcc) (s : State), s.atBundle n t w ∧ (ecc.p ≠ 2) ∧ (bForm w = 1 ∧ bundleLegal w false = true ∧ kCtl w =
      1)) ∧
    (∃ (t : Nat) (w : Nat) (n : Fin 64) (ecc : CoreEcc) (s : State), s.atBundle n t w ∧ (ecc.p ≠ 2) ∧ (bForm w = 1 ∧ bundleLegal w false = true ∧ kCtl w =
      2)) ∧
    (∃ (t : Nat) (w : Nat) (n : Fin 64) (ecc : CoreEcc) (s : State), s.atBundle n t w ∧ (ecc.p ≠ 2) ∧ (bForm w = 1 ∧ bundleLegal w false = true ∧ kCtl w =
      3)) ∧
    (∃ (t : Nat) (w : Nat) (n : Fin 64) (ecc : CoreEcc) (s : State), s.atBundle n t w ∧ (ecc.p ≠ 2) ∧ (bForm w = 1 ∧ bundleLegal w false = true ∧ kCtl w =
      4) ∧ ((s.coreAt n).lsp < 4)) ∧
    (∃ (t : Nat) (w : Nat) (n : Fin 64) (ecc : CoreEcc) (s : State), s.atBundle n t w ∧ (ecc.p ≠ 2) ∧ (bForm w = 1 ∧ bundleLegal w false = true ∧ kCtl w =
      5) ∧ ((s.coreAt n).lsp < 4)) ∧
    (∃ (t : Nat) (w : Nat) (n : Fin 64) (ecc : CoreEcc) (s : State), s.atBundle n t w ∧ (ecc.p ≠ 2) ∧ (bForm w = 1 ∧ bundleLegal w false = true ∧ kCtl w =
      6) ∧ ((s.coreAt n).lsp ≠ 0) ∧ (condHolds (s.coreAt n).flags (kCond w) = true)) ∧
    (∃ (t : Nat) (w : Nat) (n : Fin 64) (ecc : CoreEcc) (s : State), s.atBundle n t w ∧ (ecc.p ≠ 2) ∧ (bForm w = 1 ∧ bundleLegal w false = true ∧ kCtl w =
      6) ∧ (condHolds (s.coreAt n).flags (kCond w) = false)) ∧
    (∃ (t : Nat) (w : Nat) (n : Fin 64) (ecc : CoreEcc) (s : State), s.atBundle n t w ∧ (ecc.p ≠ 2) ∧ (bForm w = 1 ∧ bundleLegal w false = true ∧ kCtl w =
      7)) ∧
    (∃ (t : Nat) (w : Nat) (n : Fin 64) (ecc : CoreEcc) (s : State), s.atBundle n t w ∧ (ecc.p ≠ 2) ∧ (bForm w = 1 ∧ bundleLegal w false = true ∧ kCtl w =
      8)) ∧
    (∃ (t : Nat) (w : Nat) (n : Fin 64) (ecc : CoreEcc) (s : State), s.atBundle n t w ∧ (ecc.p ≠ 2) ∧ (bForm w = 1 ∧ bundleLegal w false = true ∧ kCtl w =
      9)) ∧
    (∃ (t : Nat) (w : Nat) (n : Fin 64) (ecc : CoreEcc) (s : State), s.atBundle n t w ∧ (ecc.p ≠ 2) ∧ bundleLegal w false = false) :=
  ⟨⟨5, 4611686018427387904, 7, ⟨1, 0, 0⟩, stCore 4611686018427387904, by decide +kernel⟩,
    ⟨5, 4683743612465324031, 7, ⟨1, 0, 0⟩, stCore 4683743612465324031, by decide +kernel⟩,
    ⟨5, 4755801206503251967, 7, ⟨1, 0, 0⟩, stCore 4755801206503251967, by decide +kernel⟩,
    ⟨5, 4827999538029527040, 7, ⟨1, 0, 0⟩, stCore 4827999538029527040, by decide +kernel⟩,
    ⟨5, 4899916437528772607, 7, ⟨1, 0, 0⟩, stCore 4899916437528772607, by decide +kernel⟩,
    ⟨5, 4972114764760088576, 7, ⟨1, 0, 0⟩, stCore 4972114764760088576, by decide +kernel⟩,
    ⟨5, 5044031582654955520, 7, ⟨1, 0, 0⟩, stCoreSt 5044031582654955520 1, by decide +kernel⟩,
    ⟨5, 5048535182282326016, 7, ⟨1, 0, 0⟩, stCore 5048535182282326016, by decide +kernel⟩,
    ⟨5, 5116089176692883456, 7, ⟨1, 0, 0⟩, stCore 5116089176692883456, by decide +kernel⟩,
    ⟨5, 5188146770730811392, 7, ⟨1, 0, 0⟩, stCore 5188146770730811392, by decide +kernel⟩,
    ⟨5, 5260204364768739329, 7, ⟨1, 0, 0⟩, stCore 5260204364768739329, by decide +kernel⟩,
    ⟨5, 13835058055282163712, 7, ⟨1, 0, 0⟩, stCore 13835058055282163712, by decide +kernel⟩⟩

theorem witness_CoreControlAreaCommandsComplete :
    (∃ (t : Nat) (w : Nat) (n : Fin 64) (ecc : CoreEcc) (s : State), s.atBundle n t w ∧ (ecc.p ≠ 2) ∧ (touchesCtl true 0x03 (s.coreAt n) w = true ∧ yMove
      w = 0)) ∧
    (∃ (t : Nat) (w : Nat) (n : Fin 64) (ecc : CoreEcc) (e : Nat) (l : List Nat) (s : State), s.atBundle n t w ∧ (ecc.p ≠ 2) ∧ (touchesCtl false 0x04
      (s.coreAt n) w = true ∧ yMove w = 0) ∧ ((s.coreAt n).evq = e :: l)) ∧
    (∃ (t : Nat) (w : Nat) (n : Fin 64) (ecc : CoreEcc) (s : State), s.atBundle n t w ∧ (ecc.p ≠ 2) ∧ (touchesCtl true 0x08 (s.coreAt n) w = true ∧ yMove
      w = 0)) ∧
    (∃ (t : Nat) (w : Nat) (n : Fin 64) (ecc : CoreEcc) (s : State), s.atBundle n t w ∧ (ecc.p ≠ 2) ∧ (touchesCtl true 0x0A (s.coreAt n) w = true ∧ yMove
      w = 0)) ∧
    (∃ (t : Nat) (w : Nat) (n : Fin 64) (ecc : CoreEcc) (b : Nat) (s : State), s.atBundle n t w ∧ (ecc.p ≠ 2) ∧ (touchesCtl true 0x09 (s.coreAt n) w =
      true ∧ yMove w = 0) ∧ (b = bits ((s.coreAt n).getReg (vReg (xMove w))) 37 32) ∧ (s.rd (pg .bnk b) Reg.BNK_BNK_OWN_OWNER_ACT = n.val) ∧ (ownOk
      ((s.coreAt n).getReg (vReg (xMove w)) % 128) (bits ((s.coreAt n).getReg (vReg (xMove w))) 22 16) = true)) ∧
    (∃ (t : Nat) (w : Nat) (n : Fin 64) (ecc : CoreEcc) (s : State), s.atBundle n t w ∧ (ecc.p ≠ 2) ∧ (touchesCtl true 0x11 (s.coreAt n) w = true ∧ yMove
      w = 0)) ∧
    (∃ (t : Nat) (w : Nat) (n : Fin 64) (ecc : CoreEcc) (s : State), s.atBundle n t w ∧ (ecc.p ≠ 2) ∧ (touchesCtl true 0x1D (s.coreAt n) w = true ∧ yMove
      w = 0) ∧ ((s.coreAt n).stage.length < 4)) ∧
    (∃ (t : Nat) (w : Nat) (n : Fin 64) (ecc : CoreEcc) (s : State), s.atBundle n t w ∧ (ecc.p ≠ 2) ∧ (touchesCtl false 0x20 (s.coreAt n) w = true ∧ yMove
      w = 0)) ∧
    (∃ (t : Nat) (w : Nat) (n : Fin 64) (ecc : CoreEcc) (s : State), s.atBundle n t w ∧ (ecc.p ≠ 2) ∧ (touchesCtl true 0x21 (s.coreAt n) w = true ∧ yMove
      w = 0)) ∧
    (∃ (t : Nat) (w : Nat) (n : Fin 64) (ecc : CoreEcc) (s : State), s.atBundle n t w ∧ (ecc.p ≠ 2) ∧ (touchesCtl true 0x22 (s.coreAt n) w = true ∧ yMove
      w = 0)) :=
  ⟨⟨5, 2235564032, 7, ⟨1, 0, 0⟩, (stCtl 2235564032 65539), by decide +kernel⟩,
    ⟨5, 1161822208, 7, ⟨1, 0, 0⟩, 9, [], (stEvq 1161822208 65540), by decide +kernel⟩,
    ⟨5, 2235564032, 7, ⟨1, 0, 0⟩, (stCtl 2235564032 65544), by decide +kernel⟩,
    ⟨5, 2235564032, 7, ⟨1, 0, 0⟩, (stCtl 2235564032 65546), by decide +kernel⟩,
    ⟨5, 2235564032, 7, ⟨1, 0, 0⟩, 0, (stOwn 2235564032 65545), by decide +kernel⟩,
    ⟨5, 2235564032, 7, ⟨1, 0, 0⟩, (stCtl 2235564032 65553), by decide +kernel⟩,
    ⟨5, 2235564032, 7, ⟨1, 0, 0⟩, (stCtl 2235564032 65565), by decide +kernel⟩,
    ⟨5, 1161822208, 7, ⟨1, 0, 0⟩, (stCtl 1161822208 65568), by decide +kernel⟩,
    ⟨5, 2235564032, 7, ⟨1, 0, 0⟩, (stCtl 2235564032 65569), by decide +kernel⟩,
    ⟨5, 2235564032, 7, ⟨1, 0, 0⟩, (stCtl 2235564032 65570), by decide +kernel⟩⟩

theorem witness_CoreHostCommandsComplete :
    (∃ (t : Nat) (n : Fin 64) (c : CoreSt) (s : State), (((s.advance t).coreNow n t).coreOpen n = true) ∧ ((s.coreSeen n t).irqDue = true) ∧ ((s.coreSeen
      n t).base + (s.coreSeen n t).cyc ≤ t) ∧ (c = (s.coreSeen n t).settle)) ∧
    (∃ (t : Nat) (n : Fin 64) (c : CoreSt) (x : WinLoad) (l : List WinLoad) (s : State), ((s.advance t).coreOpen n = true) ∧ (c = (s.coreAt n).settle) ∧
      (c.loads = x :: l) ∧ (c.base + x.due ≤ t) ∧ (x.due ≤ c.cyc + c.stalls (c.prog c.pc.toNat).toNat (bundleLegal (c.prog c.pc.toNat).toNat (0 <
      c.slots)))) ∧
    (∃ (t : Nat) (n : Fin 64) (s : State), s.gated = false ∧ ((s.coreAt n).tmrEn = true) ∧ ((s.coreAt n).tmrCmp.toNat ≤ (s.advance t).tick)) ∧
    (∃ (n : Fin 64) (x : UserRec) (l : List UserRec) (s : State), s.gated = false ∧ ((s.coreAt n).stage = x :: l) ∧ ((s.actx x.ctx).running = true) ∧
      (s.queueOpen < queueUnreserved)) ∧
    (∃ (n : Fin 64) (s : State), (s.hostOpen (pg .scr n))) ∧
    (∃ (n : Fin 64) (s : State), (s.hostOpen (pg .scr n)) ∧ ((s.coreAt n).state = 2 ∨ (s.coreAt n).state = 3)) ∧
    (∃ (n : Fin 64) (s : State), (s.hostOpen (pg .scr n)) ∧ ((s.coreAt n).state = 4)) ∧
    (∃ (n : Fin 64) (s : State), (s.hostOpen (pg .scr n)) ∧ s.gated = false ∧ ((s.coreAt n).state = 4)) ∧
    (∃ (n : Fin 64) (ecc : CoreEcc) (s : State), (s.hostOpen (pg .scr n)) ∧ s.gated = false ∧ ((s.coreAt n).state = 4 ∧ (s.coreAt n).pend = [] ∧ (s.coreAt
      n).loads = [] ∧ (s.coreAt n).slots = 0 ∧ (s.coreAt n).lsp = 0) ∧ ((s.coreAt n).prog (s.coreAt n).pc.toNat = 0) ∧ (ecc.p ≠ 2)) ∧
    (∃ (n : Fin 64) (a : Nat) (s : State), (s.hostOpen (pg .scr n)) ∧ ((s.coreAt n).state = 4 ∨ (s.coreAt n).state = 5) ∧ (s.rd (pg .scr n)
      Reg.SCR_DBG_ADDR_SPACE = 0 ∧ a = s.rd (pg .scr n) Reg.SCR_DBG_ADDR_ADDR ∧ a < 0x4000)) ∧
    (∃ (n : Fin 64) (s : State), (s.hostOpen (pg .scr n))) ∧
    (∃ (n : Fin 64) (s : State), (s.hostOpen (pg .scr n))) :=
  ⟨⟨5, 7, { state := 2, st := 9, irqPend := 2, irqEn := 3 }, { stCore 0 with core := [(7, { state := 2, st := 9, irqPend := 2, irqEn := 3 })] }, by decide +kernel⟩,
    ⟨9, 7, { state := 2, prog0 := [(0, 39584617623191552)], loads := [⟨5, 9, 8, false⟩] }, ⟨5, 9, 8, false⟩, [],
      { stCore 0 with core := [(7, { state := 2, prog0 := [(0, 39584617623191552)], loads := [⟨5, 9, 8, false⟩] })] }, by decide +kernel⟩,
    ⟨9, 7, { stCore 0 with core := [(7, { tmrEn := true, tmrCmp := 9 })] }, by decide +kernel⟩,
    ⟨7, ⟨3, 1, 2, 3, 144⟩, [], { stCore 0 with core := [(7, { stage := [⟨3, 1, 2, 3, 144⟩] })], acq := { ctx := [(3, { running := true })] } }, by decide +kernel⟩,
    ⟨7, stCore 0, by decide +kernel⟩,
    ⟨7, stCore 0, by decide +kernel⟩,
    ⟨7, { stCore 0 with core := [(7, { state := 4, haltCause := 1 })] }, by decide +kernel⟩,
    ⟨7, { stCore 0 with core := [(7, { state := 4, haltCause := 1 })] }, by decide +kernel⟩,
    ⟨7, ⟨0, 0, 0⟩, { stCore 0 with core := [(7, { state := 4, haltCause := 1 })] }, by decide +kernel⟩,
    ⟨7, 5, { stCore 0 with core := [(7, { state := 4 })], rf := ((stCore 0).wr (pg .scr 7) Reg.SCR_DBG_ADDR_ADDR 5).rf }, by decide +kernel⟩,
    ⟨7, stCore 0, by decide +kernel⟩,
    ⟨7, (stCore 0).wr (pg .scr 7) Reg.SCR_USR_STAT_TRIG_CNT 4, by decide +kernel⟩⟩

theorem witness_EquinoxCommandsComplete :
    (∃ (t : Nat) (s : State), ((s.advance t).eqxDue = true) ∧ s.epo.resume = none ∧ s.on epoPage Reg.EPO_EQX_STAT_REVERT = false) ∧
    (∃ (t : Nat) (s : State), ((s.advance t).eqxDue = true) ∧ s.epo.resume = none ∧ s.on epoPage Reg.EPO_EQX_STAT_REVERT = true) ∧
    (∃ (t : Nat) (page : Fin 4096) (s : State), (page.val ∈ s.epo.todo) ∧ s.gated = false ∧ (s.eqxTick ≤ (s.advance t).tick) ∧ (blkOf page ≠ some .ctx) ∧
      s.blockReady page = true) ∧
    (∃ (t : Nat) (page : Fin 4096) (s : State), (page.val ∈ s.epo.todo) ∧ s.gated = false ∧ (s.eqxTick ≤ (s.advance t).tick) ∧ (blkOf page = some .ctx) ∧
      ((s.xfc (instOf page)).prev = none) ∧ ((s.advance t).ctxReady (instOf page) = true)) ∧
    (∃ (t : Nat) (c : Fin 1024) (s : State), ((s.actx c).running = true ∧ pg .ctx c ∈ s.epo.todo) ∧ s.gated = false ∧ (s.eqxTick ≤ (s.advance t).tick) ∧
      ((s.xfc c).prev = none) ∧ imgRuns s.liveImg c = false ∧ ((s.view c).held ≠ [] ∧ (s.xfc c).ending = false ∧ s.xfRuns c false = true) ∧ ((s.actx
      c).begun = true ∧ s.restartOpen c = false ∧ s.sourceGone c = false)) ∧
    (∃ (t : Nat) (c : Fin 1024) (s : State), ((s.actx c).running = true ∧ pg .ctx c ∈ s.epo.todo) ∧ s.gated = false ∧ (s.eqxTick ≤ (s.advance t).tick) ∧
      ((s.xfc c).prev = none) ∧ imgRuns s.liveImg c = true ∧ s.sourceReady c = true ∧ ((s.view c).held ≠ [])) ∧
    (∃ (t : Nat) (c : Fin 1024) (s : State), ((s.actx c).running = true ∧ pg .ctx c ∈ s.epo.todo) ∧ s.gated = false ∧ (s.eqxTick ≤ (s.advance t).tick) ∧
      ((s.xfc c).prev = none) ∧ imgRuns s.liveImg c = false ∧ ((s.xfc c).ending = true ∧ (s.xfc c).frames = [])) ∧
    (∃ (t : Nat) (s : State) (s1 : State), s.on epoPage Reg.EPO_EQX_STAT_SWITCHING = true ∧ s.gated = false ∧ (s1 = (s.advance t).each (s.xf.ctx.map
      Prod.fst) (fun r c => (r.prevEnd c).xfSettle c (s.advance t).tick)) ∧ (s1.epo.todo = []) ∧ (∀ h : Fin 2, (s1.dspHead h).image = false) ∧ (∀ x ∈
      s1.xf.ctx, x.2.next = [])) ∧
    (∃ (t : Nat) (s : State), s.on epoPage Reg.EPO_PROB_STAT_ACTIVE = true ∧ (s.epo.probEnd ≤ (s.advance t).tick) ∧ s.on epoPage
      Reg.EPO_EQX_STAT_SWITCHING = false ∧ s.gated = false) :=
  ⟨⟨9, st9 [(epoPage, Reg.EPO_EQX_STAT_PENDING, 1), (epoPage, Reg.EPO_EQX_TICK_TICK, 9), (epoPage, Reg.EPO_EPO_STAGED_NUMBER, 7), (epoPage,
      Reg.EPO_EPO_LIVE_NUMBER, 4)], by decide +kernel⟩,
    ⟨9, st9 [(epoPage, Reg.EPO_EQX_STAT_PENDING, 1), (epoPage, Reg.EPO_EQX_STAT_REVERT, 1), (epoPage, Reg.EPO_EQX_TICK_TICK, 9), (epoPage,
      Reg.EPO_EPO_PRIOR_NUMBER, 7)], by decide +kernel⟩,
    ⟨9, ⟨pg .bnk 3, by decide⟩, { st9 [(pg .bnk 3, Reg.PG_STAT_IN_EPOCH, 1)] with epo := { todo := [pg .bnk 3] } }, by decide +kernel⟩,
    ⟨9, ⟨pg .ctx 3, by decide⟩,
      { st9 [(pg .ctx 3, Reg.PG_STAT_IN_EPOCH, 1)] with epo := { todo := [pg .ctx 3] }, acq := { ctx := [(3, { running := true })] } }, by decide +kernel⟩,
    ⟨9, 3, stSwitch none, by decide +kernel⟩,
    ⟨9, 3, stSwitch (some imgCtx), by decide +kernel⟩,
    ⟨9, 3, { stSwitch none with xf := { ctx := [(3, { ending := true })] } }, by decide +kernel⟩,
    ⟨9, st9 [(epoPage, Reg.EPO_EQX_STAT_SWITCHING, 1)], (st9 [(epoPage, Reg.EPO_EQX_STAT_SWITCHING, 1)]).advance 9, by decide +kernel⟩,
    ⟨9, { st9 [(epoPage, Reg.EPO_PROB_STAT_ACTIVE, 1)] with epo := { probEnd := 9 } }, by decide +kernel⟩⟩

theorem witness_HousekeepingCommandsComplete :
    (∃ (s : State), (s.hostOpen (pg .hka 0)) ∧ (s.on (pg .hka 0) Reg.HKA_HKA_STAT_SEQ_RUN = false) ∧ s.hkIdle = true ∧ (s.runs (pg .hka 0) = true)) ∧
    (∃ (s : State), (s.hostOpen (pg .hka 0)) ∧ (s.on (pg .hka 0) Reg.HKA_HKA_STAT_SEQ_RUN = false) ∧ (s.on (pg .hka 0) Reg.HKA_HKA_STAT_BUSY = true)) ∧
    (∃ (s : State), (s.hostOpen (pg .hka 0)) ∧ (s.on (pg .hka 0) Reg.HKA_HKA_STAT_SEQ_RUN = false) ∧ (s.runs (pg .hka 0) = true)) ∧
    (∃ (t : Nat) (s : State), (s.on (pg .hka 0) Reg.HKA_HKA_STAT_BUSY = true) ∧ s.gated = false ∧ (s.hk.dueAt ≤ (s.advance t).tick) ∧ (s.runs (pg .hka 0)
      = true)) ∧
    (∃ (t : Nat) (s : State), (s.on (pg .hka 0) Reg.HKA_HKA_STAT_CAL_BUSY = true) ∧ s.gated = false ∧ (s.hk.dueAt ≤ (s.advance t).tick)) ∧
    (∃ (t : Nat) (s : State), (s.on (pg .hka 0) Reg.HKA_HKA_STAT_SEQ_RUN = true) ∧ (s.hk.frameAt ≤ (s.advance t).tick) ∧ s.gated = false ∧ s.hkIdle = true
      ∧ (s.hk.todo = []) ∧ (s.runs (pg .hka 0) = true)) ∧
    (∃ (t : Nat) (s : State), (s.on (pg .hka 0) Reg.HKA_HKA_STAT_SEQ_RUN = true) ∧ (s.hk.frameAt ≤ (s.advance t).tick) ∧ s.gated = false ∧ (s.hkIdle =
      false ∨ s.hk.todo ≠ []) ∧ (s.runs (pg .hka 0) = true)) ∧
    (∃ (r : Fin 4) (e : SvcEntry) (s : State), s.takes r 0x38 e ∧ e.cmd.dlen = 0) ∧
    (∃ (n : Nat) (r : Fin 4) (entries : List HkEntry) (e : SvcEntry) (s : State), s.takes r 0x38 e ∧ (n = e.cmd.p1.toNat % 256) ∧ (e.cmd.dlen.toNat = 8 *
      entries.length) ∧ (0 < entries.length ∧ entries.length ≤ 64) ∧ (100 ≤ e.cmd.p0.toNat ∧ e.cmd.p0.toNat ≤ 1000000) ∧ (∀ x ∈ entries, HkEntry.ok x
      = true) ∧ (hkLargest entries n ≤ e.cmd.p0.toNat * 64)) :=
  ⟨⟨stOn [pg .hka 0] [(pg .hka 0, Reg.HKA_CONV_CFG_INPUT, 5)], by decide +kernel⟩,
    ⟨st9 [(pg .hka 0, Reg.HKA_HKA_STAT_BUSY, 1)], by decide +kernel⟩,
    ⟨stOn [pg .hka 0] [(pg .hka 0, Reg.HKA_HKA_STAT_BUSY, 1)], by decide +kernel⟩,
    ⟨9, { stOn [pg .hka 0] [(pg .hka 0, Reg.HKA_HKA_STAT_BUSY, 1)] with hk := { input := 3 } }, by decide +kernel⟩,
    ⟨9, st9 [(pg .hka 0, Reg.HKA_HKA_STAT_CAL_BUSY, 1)], by decide +kernel⟩,
    ⟨9, { stOn [pg .hka 0] [(pg .hka 0, Reg.HKA_HKA_STAT_SEQ_RUN, 1)] with hk := { frameAt := 9, period := 100, seq := [⟨3, false, 3, 255, 0⟩] } },
      by decide +kernel⟩,
    ⟨9,
      { stOn [pg .hka 0] [(pg .hka 0, Reg.HKA_HKA_STAT_SEQ_RUN, 1), (pg .hka 0, Reg.HKA_HKA_STAT_BUSY, 1)] with hk := { frameAt := 9, period := 100, seq := [⟨3, false, 3, 255, 0⟩] } },
      by decide +kernel⟩,
    ⟨0, ent 0x38 0, stSvc (ent 0x38 0) [(pg .hka 0, Reg.HKA_HKA_STAT_SEQ_RUN, 1)], by decide +kernel⟩,
    ⟨0, 0, [⟨3, false, 3, 255, 0⟩], entP 0x38 1000 8, stSvc (entP 0x38 1000 8) [], by decide +kernel⟩⟩

theorem witness_ComparatorCommandsComplete :
    (∃ (t : Nat) (k : Fin 16) (s : State), s.cmpOn k = true ∧ ((s.cmpCh k).enabling = false) ∧ (s.cmpLive = true ∧ (s.advance t).rampsDue (s.advance
      t).cmpTime = []) ∧ (∀ r : Fin 8, s.rd (pg .cmp 0) (Reg.CMP_RAMP_CFG_RESET_SRC r) = 0) ∧ (∀ j : Fin 16, (s.rd (pg .cmp 0)
      (Reg.CMP_CMP_CFG_BLANK_SRC j)).testBit 1 = false)) ∧
    (∃ (t : Nat) (r : Fin 8) (s : State), (s.working (pg .cmp 0) = true) ∧ s.rampOn r = true ∧ (s.rd (pg .cmp 0) (Reg.CMP_RAMP_CFG_RESET_SRC r) ≠ 1) ∧
      (s.rd (pg .cmp 0) (Reg.CMP_RAMP_PER_PERIOD r) ≠ 0) ∧ ((s.cmpRamp r).since < (s.advance t).cmpTime) ∧ (((s.advance t).cmpTime - (s.cmpRamp
      r).since) % s.rd (pg .cmp 0) (Reg.CMP_RAMP_PER_PERIOD r) = 0)) ∧
    (∃ (t : Nat) (k : Fin 16) (s : State), (s.working (pg .cmp 0) = true) ∧ ((s.cmpCh k).blankTo ≠ 0) ∧ ((s.cmpCh k).blankTo ≤ (s.advance t).cmpTime)) ∧
    (∃ (t : Nat) (k : Fin 16) (s : State), (s.working (pg .cmp 0) = true) ∧ ((s.cmpCh k).enabling = true) ∧ ((s.cmpCh k).enTo ≤ (s.advance t).cmpTime)) ∧
    (∃ (t : Nat) (mask : BitVec 16) (k : Fin 16) (s : State), (s.hostOpen (pg .cmp 0)) ∧ mask.getLsbD k = true ∧ s.cmpOn k = true ∧ ((s.cmpCh k).enabling
      = false) ∧ (s.rd (pg .cmp 0) (Reg.CMP_CMP_CFG_LATCH k) = 1) ∧ ((s.advance t).cmpTime < (s.cmpCh k).blankTo) ∧ (s.cmpLive = true ∧ (s.advance
      t).rampsDue (s.advance t).cmpTime = []) ∧ (∀ r : Fin 8, s.rd (pg .cmp 0) (Reg.CMP_RAMP_CFG_RESET_SRC r) = 0) ∧ (∀ j : Fin 16, (s.rd (pg .cmp 0)
      (Reg.CMP_CMP_CFG_BLANK_SRC j)).testBit 1 = false)) :=
  ⟨⟨9, 3, stOn [pg .cmp 0] [(pg .cmp 0, Reg.CMP_CMP_CFG_EN 3, 1)], by decide +kernel⟩,
    ⟨20, 3, stOn [pg .cmp 0] [(pg .cmp 0, Reg.CMP_RAMP_CFG_EN 3, 1), (pg .cmp 0, Reg.CMP_RAMP_PER_PERIOD 3, 10)], by decide +kernel⟩,
    ⟨20, 3, { stOn [pg .cmp 0] [] with cmp := { ch := [(3, { blankTo := 20 })] } }, by decide +kernel⟩,
    ⟨20, 3, { stOn [pg .cmp 0] [(pg .cmp 0, Reg.CMP_CMP_CFG_EN 3, 1)] with cmp := { ch := [(3, { enabling := true, enTo := 20 })] } }, by decide +kernel⟩,
    ⟨9, 8, 3,
      { stOn [pg .cmp 0] [(pg .cmp 0, Reg.CMP_CMP_CFG_EN 3, 1), (pg .cmp 0, Reg.CMP_CMP_CFG_LATCH 3, 1), (pg .cmp 0, Reg.CMP_CMP_STAT_OUT, 8), (pg .cmp 0, Reg.CMP_CMP_LATCH_LAT, 8)] with cmp := { ch := [(3, { blankTo := 20, w := true })] } },
      by decide +kernel⟩⟩

theorem witness_FabricCommandsComplete :
    (∃ (h : Fin 64) (j : Fin 8) (got : FabWord) (s : State), s.hopThere h j = true ∧ (s.hopFailed h j = false ∧ s.hopOos h j = false) ∧ ((s.hop h
      j).replays = 0) ∧ (fabBad got = true ∨ (s.hop h j).inject ≠ 0)) ∧
    (∃ (h : Fin 64) (j : Fin 8) (got : FabWord) (s : State), (fabBad got = false ∧ (s.hop h j).inject = 0)) ∧
    (∃ (h : Fin 64) (j : Fin 8) (got : FabWord) (s : State), ((s.hop h j).replays ≠ 0) ∧ (fabBad got = false ∧ (s.hop h j).inject = 0)) ∧
    (∃ (h : Fin 64) (j : Fin 8) (got : FabWord) (s : State), ((s.hop h j).replays ≠ 0) ∧ (fabBad got = true ∨ (s.hop h j).inject ≠ 0)) ∧
    (∃ (h : Fin 64) (j : Fin 8) (s : State), ((s.hop h j).retraining = true)) ∧
    (∃ (h : Fin 64) (j : Fin 8) (s : State), ((s.hop h j).retraining = true) ∧ s.hopOos h j = false) ∧
    (∃ (h : Fin 64) (s : State), (s.hostOpen (pg .fab h))) ∧
    (∃ (h : Fin 64) (s : State), (s.hostOpen (pg .fab h))) ∧
    (∃ (h : Fin 64) (s : State), (s.hostOpen (pg .fab h))) ∧
    (∃ (t : Nat) (path : List (Fin 64 × Fin 8)) (x : HopSt) (s : State), s.gated = false ∧ (∀ y ∈ path, (s.hop y.1 y.2).replays = 0) ∧ (s.pathOutage path
      (s.advance t).tick = some x)) ∧
    (∃ (t : Nat) (path : List (Fin 64 × Fin 8)) (use : HopUse) (s : State), s.gated = false ∧ (∀ y ∈ path, (s.hop y.1 y.2).replays = 0) ∧ (s.pathOutage
      path (s.advance t).tick = none) ∧ ((s.advance t).streamSilent use = true) ∧ ((s.rd (pg .vgl 0) Reg.EV_RAW).testBit 2 = false)) :=
  ⟨⟨9, 0, ⟨5, 0⟩, st9 [(pg .fab 9, Reg.FAB_HOP_STAT_PRESENT 9, 1)], by decide +kernel⟩,
    ⟨9, 0, fabWord 5, st9 [(pg .fab 9, Reg.FAB_HOP_STAT_PRESENT 9, 1)], by decide +kernel⟩,
    ⟨9, 0, fabWord 5, { st9 [] with rel := { hop := [(72, { replays := 1, buf := [fabWord 5] })] } }, by decide +kernel⟩,
    ⟨9, 0, ⟨5, 0⟩, { st9 [] with rel := { hop := [(72, { replays := 3, buf := [fabWord 5] })] } }, by decide +kernel⟩,
    ⟨9, 0, { st9 [(pg .fab 9, Reg.FAB_HOP_STAT_FAILED, 1)] with rel := { hop := [(72, { retraining := true, uses := [⟨.samples, 3⟩] })] } }, by decide +kernel⟩,
    ⟨9, 0, { st9 [(pg .fab 9, Reg.FAB_HOP_STAT_FAILED, 1)] with rel := { hop := [(72, { retraining := true, failed := 2 })] } }, by decide +kernel⟩,
    ⟨9, st9 [(pg .fab 9, Reg.FAB_HOP_STAT_OOS, 1)], by decide +kernel⟩,
    ⟨9, st9 [], by decide +kernel⟩,
    ⟨9, st9 [(pg .fab 9, Reg.FAB_PAR_CNT_REPLAYS, 4)], by decide +kernel⟩,
    ⟨9, [(9, 0)], { cause := 5 }, { st9 [(pg .fab 9, Reg.FAB_HOP_STAT_OOS, 1)] with rel := { hop := [(72, { cause := 5 })] } }, by decide +kernel⟩,
    ⟨2000000, [(9, 0)], ⟨.samples, 3⟩, { st9 [] with acq := { ctx := [(3, { running := true, begun := true, last := 16 })] } }, by decide +kernel⟩⟩

theorem witness_VigilCommandsComplete :
    (∃ (s : State), (s.hostOpen (pg .eva 0))) ∧
    (∃ (id : Fin 2048) (s : State), (s.hostOpen (pg .eva (id / 1024)))) ∧
    (∃ (t : Nat) (s : State), (s.on (pg .vgl 0) Reg.VGL_SC_WD_EN = true) ∧ s.gated = false ∧ s.svc.restarting = false ∧ s.ready = true ∧ (s.rel.scKick +
      s.rd (pg .vgl 0) Reg.VGL_SC_WD_TIMEOUT_MS * 1600000 ≤ (s.advance t).tick)) ∧
    (∃ (t : Nat) (sensor : Fin 12) (s : State), ((s.advance t).tempStale sensor = true) ∧ (sensor.val ∉ s.rel.stale)) ∧
    (∃ (t : Nat) (n : Fin 16) (s : State), (s.on (pg .vgl 0) (Reg.VGL_HC_CFG_EN n) = true) ∧ (∀ k : Fin 16, k ≠ n → s.on (pg .vgl 0) (Reg.VGL_HC_CFG_EN k)
      = false) ∧ (s.rel.hcAt < (s.advance t).tick / 1600000)) ∧
    (∃ (c : Nat) (s : State), (s.hostOpen (pg .vgl 0)) ∧ (c = s.rd (pg .vgl 0) Reg.VGL_AV_SEL_CTX)) :=
  ⟨⟨st9 [], by decide +kernel⟩,
    ⟨1025, st9 [], by decide +kernel⟩,
    ⟨3200000000000, st9 [(pg .vgl 0, Reg.VGL_SC_WD_EN, 1)], by decide +kernel⟩,
    ⟨160000001, 3, st9 [(pg .hka 0, Reg.HKA_TEMP_VALID 3, 1)], by decide +kernel⟩,
    ⟨1600000, 3, st9 [(pg .vgl 0, Reg.VGL_HC_CFG_EN 0, 0), (pg .vgl 0, Reg.VGL_HC_CFG_EN 1, 0), (pg .vgl 0, Reg.VGL_HC_CFG_EN 2, 0), (pg .vgl 0,
      Reg.VGL_HC_CFG_EN 3, 1)], by decide +kernel⟩,
    ⟨3, { st9 [(pg .vgl 0, Reg.VGL_AV_SEL_CTX, 3), (pg .vgl 0, Reg.VGL_AV_TOTAL_TICKS, 9)] with rel := { avLost := [(3, 4)] } }, by decide +kernel⟩⟩

theorem witness_BankAccessesAreLegalOnlyForOwnerAndAgent :
    (∃ (owner : Nat) (agent : Nat) (b : Fin 64) (x : BankAcc) (s : State), (s.gated = false ∧ s.bankOn b = true ∧ s.on (pg .bnk b) Reg.BNK_BNK_OWN_BUSY =
      false) ∧ (owner = s.rd (pg .bnk b) Reg.BNK_BNK_OWN_OWNER_ACT ∧ agent = s.rd (pg .bnk b) Reg.BNK_BNK_OWN_B_AGENT_ACT) ∧ (x.agent.toNat ≤ 0x40)) ∧
    (∃ (t : Nat) (owner : Nat) (agent : Nat) (b : Fin 64) (x : PortWord) (s : State), (s.gated = false ∧ s.bankOn b = true ∧ s.on (pg .bnk b)
      Reg.BNK_BNK_OWN_BUSY = false) ∧ (owner = s.rd (pg .bnk b) Reg.BNK_BNK_OWN_OWNER_ACT ∧ agent = s.rd (pg .bnk b) Reg.BNK_BNK_OWN_B_AGENT_ACT) ∧
      (s.stagedOf b = [x] ∧ 0x60 ≤ x.agent ∧ x.agent ≤ 0x61) ∧ (smFind b s.bank.spill = none ∧ smGet t b s.bank.portAt < t)) ∧
    (∃ (owner : Nat) (agent : Nat) (b : Fin 64) (x : BankAcc) (s : State), (s.gated = false ∧ s.bankOn b = true ∧ s.on (pg .bnk b) Reg.BNK_BNK_OWN_BUSY =
      false) ∧ (owner = s.rd (pg .bnk b) Reg.BNK_BNK_OWN_OWNER_ACT ∧ agent = s.rd (pg .bnk b) Reg.BNK_BNK_OWN_B_AGENT_ACT) ∧ (0x50 ≤ x.agent.toNat ∧
      x.agent.toNat ≤ 0x5F) ∧ (¬(x.agent.toNat = owner ∨ (owner ≤ 0x40 ∧ x.agent.toNat = agent)))) :=
  ⟨⟨2, 0x50, 3, ⟨2, true, 131071, 77, false⟩, stOn [pg .bnk 3] [(pg .bnk 3, Reg.BNK_BNK_OWN_OWNER_ACT, 2), (pg .bnk 3, Reg.BNK_BNK_OWN_B_AGENT_ACT,
      0x50)], by decide +kernel⟩,
    ⟨5, 0x50, 0x60, 3, ⟨0x60, 131071, 77, true⟩,
      { stOn [pg .bnk 3] [(pg .bnk 3, Reg.BNK_BNK_OWN_OWNER_ACT, 0x50), (pg .bnk 3, Reg.BNK_BNK_OWN_B_AGENT_ACT, 0x60)] with bank := { staged := [(3, [⟨0x60, 131071, 77, true⟩])], portAt := [(3, 4)] } },
      by decide +kernel⟩,
    ⟨0x41, 0x50, 3, ⟨0x50, true, 131071, 77, false⟩, stOn [pg .bnk 3] [(pg .bnk 3, Reg.BNK_BNK_OWN_OWNER_ACT, 0x41), (pg .bnk 3,
      Reg.BNK_BNK_OWN_B_AGENT_ACT, 0x50)], by decide +kernel⟩⟩

theorem witness_LongImmediateWritesItsRegister :
    (∃ (t : Nat) (w : Nat) (d : Nat) (v : Nat) (n : Fin 64) (ecc : CoreEcc) (s : State), s.atBundle n t w ∧ (ecc.p ≠ 2) ∧ (bForm w = 2 ∧ bits w 54 48 = 0)
      ∧ (d = bits w 61 55 ∧ v = unsigned 64 (signed 48 (part w 0 48))) ∧ (d < 59 ∨ (64 ≤ d ∧ d < 88))) ∧
    (∃ (t : Nat) (w : Nat) (d : Nat) (n : Fin 64) (ecc : CoreEcc) (s : State), s.atBundle n t w ∧ (ecc.p ≠ 2) ∧ (bForm w = 2 ∧ bits w 54 48 = 0) ∧ (d =
      bits w 61 55) ∧ ((59 ≤ d ∧ d < 64) ∨ 88 ≤ d)) :=
  ⟨⟨5, 9403656759437950976, 5, 18446603336221196288, 7, ⟨1, 0, 0⟩, stCore 9403656759437950976, by decide +kernel⟩,
    ⟨5, 9223372036854775808 + 88 * 2 ^ 55, 88, 7, ⟨1, 0, 0⟩, stCore (9223372036854775808 + 88 * 2 ^ 55), by decide +kernel⟩⟩

theorem witness_ExtractionRoundsAndLimits :
    (∃ (t : Nat) (w : Nat) (k : Nat) (n : Fin 64) (ecc : CoreEcc) (re : Int) (im : Int) (s : State), s.compute n t w ecc ∧ (bMac w = false ∧ aluOp (bOpc
      w) = some .ext) ∧ (k = bits w 44 39) ∧ (re = ((vget (s.coreAt n).acr (bits w 49 48)).toInt + (if k = 0 then 0 else 2 ^ (k - 1))) / 2 ^ k) ∧ (im
      = ((vget (s.coreAt n).aci (bits w 49 48)).toInt + (if k = 0 then 0 else 2 ^ (k - 1))) / 2 ^ k)) :=
  ⟨5, 1157060066373795840, 40, 7, ⟨1, 0, 0⟩, 0, 0, stCore 1157060066373795840, by decide +kernel⟩

theorem witness_SearchKeepsTheEarlierIndex :
    (∃ (t : Nat) (w : Nat) (n : Fin 64) (ecc : CoreEcc) (k : Fin 2) (a : Nat) (b : Nat) (m : Nat) (s : State), s.compute n t w ecc ∧ (bMac w = true ∧
      macUnit w k = (6, a, b, m)) ∧ ((macUnit w (1 - k.val)).1 = 0 ∨ (macUnit w (1 - k.val)).2.2.2 ≠ m)) ∧
    (∃ (t : Nat) (w : Nat) (n : Fin 64) (ecc : CoreEcc) (k : Fin 2) (a : Nat) (b : Nat) (m : Nat) (s : State), s.compute n t w ecc ∧ (bMac w = true ∧
      macUnit w k = (7, a, b, m)) ∧ ((macUnit w (1 - k.val)).1 = 0 ∨ (macUnit w (1 - k.val)).2.2.2 ≠ m)) :=
  ⟨⟨5, 4431841959488782336, 7, ⟨1, 0, 0⟩, 1, 6, 8, 2, stCore2 4431841959488782336 1, by decide +kernel⟩,
    ⟨5, 4593971546074120192, 7, ⟨1, 0, 0⟩, 1, 6, 8, 2, stCore2 4593971546074120192 4294967295, by decide +kernel⟩⟩

theorem witness_RunningSequenceRefusesHostWrites :
    (∃ (off : BitVec 24) (s : State), (s.hostOpen (pg .hka 0)) ∧ (s.on (pg .hka 0) Reg.HKA_HKA_STAT_SEQ_RUN = true) ∧ (off.toNat = pg .hka 0 * 4096 +
      0x100 ∨ off.toNat = pg .hka 0 * 4096 + 0x108 ∨ off.toNat = pg .hka 0 * 4096 + 0x128)) ∧
    (∃ (off : BitVec 24) (s : State), (s.hostOpen (pg .hka 0)) ∧ (s.on (pg .hka 0) Reg.HKA_HKA_STAT_SEQ_RUN = false) ∧ (off.toNat = pg .hka 0 * 4096 +
      0x100 ∨ off.toNat = pg .hka 0 * 4096 + 0x108 ∨ off.toNat = pg .hka 0 * 4096 + 0x128)) ∧
    (∃ (off : BitVec 24) (s : State), (s.hostOpen (pg .hka 0)) ∧ (off.toNat = pg .hka 0 * 4096 + 0x100 ∨ off.toNat = pg .hka 0 * 4096 + 0x108 ∨ off.toNat
      = pg .hka 0 * 4096 + 0x128)) ∧
    (∃ (s : State), (s.on (pg .hka 0) Reg.HKA_HKA_STAT_SEQ_RUN = true)) :=
  ⟨⟨BitVec.ofNat 24 (pg .hka 0 * 4096 + 0x108), st9 [(pg .hka 0, Reg.HKA_HKA_STAT_SEQ_RUN, 1)], by decide +kernel⟩,
    ⟨BitVec.ofNat 24 (pg .hka 0 * 4096 + 0x100), st9 [], by decide +kernel⟩,
    ⟨BitVec.ofNat 24 (pg .hka 0 * 4096 + 0x100), st9 [(pg .hka 0, Reg.HKA_HKA_STAT_SEQ_RUN, 1)], by decide +kernel⟩,
    ⟨{ st9 [(pg .hka 0, Reg.HKA_HKA_STAT_SEQ_RUN, 1)] with hk := { frameAt := 9, period := 100, seq := [⟨3, false, 3, 255, 0⟩] } }, by decide +kernel⟩⟩

theorem witness_StepRunsTheFrontCommand :
    (∃ (c : Instr) (l : List Instr) (s : State), s.pending = c :: l) ∧ ∃ s : State, s.pending = [] :=
  ⟨⟨.smbAlertResponse, [], { State.reset with pending := [.smbAlertResponse] }, rfl⟩, State.reset, rfl⟩

theorem witness_StepsKeepCanonicalForm : ∃ s u : State, s.Inv ∧ step s = .next u :=
  ⟨{ st9 [] with pending := [.timebaseSnap 5] }, _, ⟨by decide +kernel, by decide +kernel⟩, rfl⟩

theorem witness_NarrowCommandsOfThePathKeepOtherParts :
    ∃ (c : Instr) (_ : State), chapterOf c ≤ 11 ∧ (partsOf c).length ≤ 9 :=
  ⟨.timebaseSnap 5, st9 [], by decide +kernel, by decide +kernel⟩

theorem witness_NarrowCommandsOfServicesAndUnitsKeepOtherParts :
    ∃ (c : Instr) (_ : State), 12 ≤ chapterOf c ∧ (partsOf c).length ≤ 9 :=
  ⟨.pciClr 5, st9 [], by decide +kernel, by decide +kernel⟩

theorem witness_WideCommandsKeepOtherParts : ∃ (c : Instr) (_ : State), 10 ≤ (partsOf c).length :=
  ⟨.registerWrite 5 0x061028 8 0x20, st9 [], by decide +kernel⟩

theorem witness_RegistersOfOtherPagesKeepTheirValues :
    ∃ (c : Instr) (p : Nat) (s u : State), homeOf c = some p ∧ exec c s = .next u :=
  ⟨.timebaseSnap 5, pg .tmb 0, st9 [], _, rfl, rfl⟩

theorem witness_CoreWorkLeavesOtherCoresAndRegisters :
    ∃ (c : Instr) (n : Fin 64) (s u : State), coreOf c = some n ∧ exec c s = .next u :=
  ⟨.opAdd 5 7 ⟨0, 0, 0⟩, 7, stCore addWord, _, rfl, rfl⟩

/-- Core 7 with a staged record for context 3, which runs with a ring of two records. -/
def stRecord : State :=
  { stCore 0 with
    core := [(7, { stage := [⟨3, 1, 2, 3, 144⟩] })]
    acq := { ctx := [(3, { running := true, almBytes := 64 })] } }

theorem witness_CaptureBytesStayUnlessStored :
    (∃ (c : Instr) (s u : State) (_ : Nat), keepsBytes c = true ∧ exec c s = .next u) ∧
    (∃ (c : Instr) (s u : State) (a : Nat), recordsOnly c = true ∧ exec c s = .next u ∧ u.byteAt a ≠ s.byteAt a) :=
  ⟨⟨.bar2Resize 5 30, st9 [], _, 0, rfl, rfl⟩,
    ⟨.userRecordWrite 9 7, stRecord, after (.userRecordWrite 9 7) stRecord, 8, rfl, rfl, by decide +kernel⟩⟩

end Sys2Proof.Tests
end

section
/-!
PROOF. What decides whether a bank takes an access (R425 to R429), which updates leave it as it was, and the statement that an access takes
effect only for the bank's owner and, on port B of a bank that a port-A code owns, for its agent (R426).
-/
namespace Sys2Proof.Machine

/-! Registers: what a write of one field leaves, and what a chain of updates leaves. -/

theorem rd_wr_field {p : Nat} {f g : Fld} (s : State) (v : Nat) (hf : f.placed) (hg : g.placed) (h : ¬(g.off = f.off ∧ g.lo = f.lo)) :
    (s.wr p f v).rd p g = s.rd p g :=
  rd_wr_other s v hf hg (fun e => h e.2)

theorem RegsBut.refl (p : Nat) (mine : List Nat) (s : State) : RegsBut p mine s s := fun _ _ _ _ _ => ⟨rfl, rfl⟩

theorem RegsBut.trans {p : Nat} {mine : List Nat} {s t u : State} (h : RegsBut p mine s t) (k : RegsBut p mine t u) :
    RegsBut p mine s u := fun q f hf he hm =>
  ⟨(k q f hf he hm).1.trans (h q f hf he hm).1, (k q f hf he hm).2.trans (h q f hf he hm).2⟩

theorem RegsBut.of_wr {p : Nat} {mine : List Nat} (s : State) {f : Fld} (v : Nat) (hp : p < 2 ^ 22) (hf : f.placed) (hm : f.off ∈ mine) :
    RegsBut p mine s (s.wr p f v) := fun q g hg _ hq =>
  ⟨rd_wr_other s v hf hg (fun e => hq ⟨e.1, by rw [e.2.1]; exact hm⟩), rdA_wr s v hp hf⟩

theorem RegsBut.of_rf {p : Nat} {mine : List Nat} {s u : State} (h : u.rf = s.rf) : RegsBut p mine s u := fun q f _ _ _ => by
  simp [State.rd, State.rdA, h]

/-! What decides the access of an agent. -/

theorem pg_bnk_lt (b : Fin 64) : pg .bnk b < 2 ^ 22 := by revert b; decide

theorem evReg_bnk : ∀ b : Fin 64, evReg (pg .bnk b) 0x018 = false ∧ evReg (pg .bnk b) 0x100 = false ∧ evReg (pg .bnk b) 0x118 = false := by
  decide

/-- From `s` to `u` nothing changes that decides whether bank `b` takes an access: of its page, only the log of refusals, the deposit's
counts and the spill's control may. -/
structure SameAccess (b : Fin 64) (s u : State) : Prop where
  boot : u.boot = s.boot
  regs : RegsBut (pg .bnk b) [0x118, 0x130, 0x138] s u

namespace SameAccess
variable {b : Fin 64} {s t u : State}

theorem refl (b : Fin 64) (s : State) : SameAccess b s s := ⟨rfl, .refl _ _ _⟩

theorem trans (h : SameAccess b s t) (k : SameAccess b t u) : SameAccess b s u := ⟨k.boot.trans h.boot, h.regs.trans k.regs⟩

theorem of_rf (hr : u.rf = s.rf) (hb : u.boot = s.boot) : SameAccess b s u := ⟨hb, .of_rf hr⟩

theorem of_wr (b : Fin 64) (s : State) {f : Fld} (v : Nat) (hf : f.placed) (hm : f.off ∈ [0x118, 0x130, 0x138]) :
    SameAccess b s (s.wr (pg .bnk b) f v) := ⟨rfl, .of_wr s v (pg_bnk_lt b) hf hm⟩

theorem of_evStep (h : EvStep s u) : SameAccess b s u := ⟨by rw [h.rest], fun q f hf he _ => h.reads q f hf he⟩

theorem advance (b : Fin 64) (s : State) (n : Nat) : SameAccess b s (s.advance n) := of_rf (s.advance_rf n) (s.advance_boot n)

theorem withBank (h : SameAccess b s u) (x : BankSt) : SameAccess b s { u with bank := x } := h.trans (of_rf rfl rfl)

theorem setStaged (h : SameAccess b s u) (l : List PortWord) : SameAccess b s (u.setStaged b l) := h.trans (of_rf rfl rfl)

theorem portFrom (h : SameAccess b s u) (n : Nat) : SameAccess b s (u.portFrom b n) := h.trans (of_rf rfl rfl)

theorem setBankWord (h : SameAccess b s u) (w : Nat) (v : Word) : SameAccess b s (u.setBankWord b w v) := h.trans (of_rf rfl rfl)

theorem rd_own (h : SameAccess b s u) {f : Fld} (hf : f.placed) (ho : f.off = 0x100) : u.rd (pg .bnk b) f = s.rd (pg .bnk b) f :=
  (h.regs _ f hf (ho ▸ (evReg_bnk b).2.1) (by simp [ho])).1

theorem gated (h : SameAccess b s u) : u.gated = s.gated := by
  have hq : ∀ b : Fin 64, pg .clk 0 ≠ pg .bnk b := by decide
  simp only [State.gated, State.on, (h.regs (pg .clk 0) Reg.CLK_PLL_STAT_GATED (by decide) (by decide) (fun e => hq b e.1)).1]

/-- The time does not matter here: a bank whose power state is ON is not in the clearing that follows a wake. -/
theorem bankOn (h : SameAccess b s u) : u.bankOn b = s.bankOn b := by
  have hq : ∀ b : Fin 64, pg .glb 0 ≠ pg .bnk b := by decide
  have hstep := (h.regs (pg .glb 0) Reg.GLB_BOOT_STAT_STEP (by decide) (by decide) (fun e => hq b e.1)).1
  have hact : u.pstateAct (pg .bnk b) = s.pstateAct (pg .bnk b) :=
    (h.regs _ (Reg.PG_STAT_PSTATE_ACT _) (by simp [Fld.placed, Reg.PG_STAT_PSTATE_ACT]) (evReg_bnk b).1
      (by simp [Reg.PG_STAT_PSTATE_ACT])).1
  by_cases h0 : s.pstateAct (pg .bnk b) = 0
  · simp [State.bankOn, State.bankClears, hstep, hact, h.boot, h0]
  · simp only [State.bankOn, hact, beq_eq_false_iff_ne.2 h0, Bool.false_and]

theorem busy (h : SameAccess b s u) : u.on (pg .bnk b) Reg.BNK_BNK_OWN_BUSY = s.on (pg .bnk b) Reg.BNK_BNK_OWN_BUSY := by
  simp only [State.on, h.rd_own (f := Reg.BNK_BNK_OWN_BUSY) (by decide) rfl]

theorem bankAccepts (h : SameAccess b s u) (k : Nat) : u.bankAccepts b k = s.bankAccepts b k := by
  simp only [State.bankAccepts, h.bankOn, h.busy, h.rd_own (f := Reg.BNK_BNK_OWN_OWNER_ACT) (by decide) rfl,
    h.rd_own (f := Reg.BNK_BNK_OWN_B_AGENT_ACT) (by decide) rfl]

theorem bankHolds (h : SameAccess b s u) (k : Nat) : u.bankHolds b k = s.bankHolds b k := by
  simp only [State.bankHolds, h.bankOn, h.busy, h.rd_own (f := Reg.BNK_BNK_OWN_OWNER) (by decide) rfl,
    h.rd_own (f := Reg.BNK_BNK_OWN_B_AGENT) (by decide) rfl]

end SameAccess

/-! Who may use a bank (R426). -/

theorem ownLegal_portA {k : Nat} (hk : k ≤ 0x40) (owner agent : Nat) : ownLegal owner agent k = true ↔ k = owner := by
  have : isPortB k = false := by simp [isPortB]; omega
  simp [ownLegal, this]

theorem ownLegal_portB {k : Nat} (hlo : 0x50 ≤ k) (hhi : k ≤ 0x61) (owner agent : Nat) :
    ownLegal owner agent k = true ↔ k = owner ∨ (owner ≤ 0x40 ∧ k = agent) := by
  simp [ownLegal, isPortA, isPortB, hlo, hhi]

section
variable {s : State} {b k : Nat}

theorem bankHolds_of_not_busy (h : s.on (pg .bnk b) Reg.BNK_BNK_OWN_BUSY = false) (k : Nat) : s.bankHolds b k = false := by
  simp [State.bankHolds, h]

theorem bankAccepts_of_not_busy (hon : s.bankOn b = true) (h : s.on (pg .bnk b) Reg.BNK_BNK_OWN_BUSY = false) (k : Nat) :
    s.bankAccepts b k = ownLegal (s.rd (pg .bnk b) Reg.BNK_BNK_OWN_OWNER_ACT) (s.rd (pg .bnk b) Reg.BNK_BNK_OWN_B_AGENT_ACT) k := by
  simp [State.bankAccepts, hon, h]

end

/-! The words of a bank. -/

section
variable (s : State) (b w t : Nat)

theorem bankWord_setBankWord_same (v : Word) : (s.setBankWord b w v).bankWord b w = v := smGet_set_self _ _ _ _

theorem bankWord_setBankWord_ne {w' : Nat} (h : w' ≠ w) (v : Word) : (s.setBankWord b w v).bankWord b w' = s.bankWord b w' :=
  smGet_set_ne (by omega) _ _ _ _

theorem bankWord_of_words {s u : State} (h : u.bank.words = s.bank.words) : u.bankWord b w = s.bankWord b w := by
  simp only [State.bankWord, h]

theorem bank_event (c : Blk) (i k : Nat) : (s.event c i k).bank = s.bank := by rw [(evStep_event s c i k).rest]

theorem bank_eventIf (x : Bool) (c : Blk) (i k : Nat) : (s.eventIf x c i k).bank = s.bank :=
  by rw [(evStep_eventIf s x c i k).rest]

theorem bank_bumpSat (p : Nat) (f : Fld) (n : Nat) : (s.bumpSat p f n).bank = s.bank := rfl

theorem words_bankWait : (s.bankWait b).bank.words = s.bank.words := by
  simp only [State.bankWait, State.peak]
  split <;> rfl

theorem words_bankCollide : (s.bankCollide b).bank.words = s.bank.words := by
  rw [State.bankCollide, bank_event]
  rfl

/-- A staged word never replaces the word that port A writes in the same FCLK (R430, R431). -/
theorem bankWord_portMeets_write : (s.portMeets b t w true).bankWord b w = s.bankWord b w := by
  unfold State.portMeets
  split
  · rfl
  · rename_i x l _
    split
    · rfl
    · dsimp only
      split
      · exact bankWord_of_words b w (words_bankWait _ _)
      · split
        · exact bankWord_of_words b w (words_bankCollide _ _)
        · rename_i h
          exact bankWord_setBankWord_ne _ _ _ (fun e => h ⟨e.symm, rfl⟩) _

end

/-! Refusals (R429). -/

theorem bank_bankRefuse (s : State) (b k w : Nat) (wr : Bool) : (s.bankRefuse b k w wr).bank = s.bank := by
  rw [State.bankRefuse, bank_event, bank_bumpSat]
  split <;> rfl

theorem sameAccess_bankRefuse (b : Fin 64) (s : State) (k w : Nat) (wr : Bool) : SameAccess b s (s.bankRefuse b k w wr) := by
  have log (s : State) {f : Fld} (v : Nat) (hf : f.placed) (ho : f.off = 0x118) : SameAccess b s (s.wr (pg .bnk b) f v) :=
    .of_wr b s v hf (by simp [ho])
  refine .trans ?_ (.of_evStep (evStep_event _ .bnk b 0))
  refine .trans ?_ (log _ _ (by decide) rfl)
  split
  · exact .refl b s
  · simp only [wrs_cons, wrs_nil]
    exact (((((log _ _ (by decide) rfl).trans (log _ _ (by decide) rfl)).trans (log _ _ (by decide) rfl)).trans
      (log _ _ (by decide) rfl)).trans (log _ _ (by decide) rfl)).trans (log _ _ (by decide) rfl)

theorem errValid_bankRefuse (b : Fin 64) (s : State) (k w : Nat) (wr : Bool) :
    (s.bankRefuse b k w wr).rd (pg .bnk b) Reg.BNK_BNK_ERR_VALID = 1 := by
  rw [State.bankRefuse, ((evStep_event _ .bnk b 0).reads _ Reg.BNK_BNK_ERR_VALID (by decide) (evReg_bnk b).2.2).1, State.bumpSat,
    rd_wr_field _ _ (by decide) (by decide) (by decide)]
  split
  case isTrue h => simpa [State.on] using h
  case isFalse =>
    simp (disch := decide) only [wrs_cons, wrs_nil, rd_wr_field]
    exact rd_wr_self _ _ _ _

/-! Ends of DMA transfers and denied accesses change no word. -/

theorem words_dmaEnd (s : State) (d st : Nat) : (s.dmaEnd d st).bank.words = s.bank.words := by
  simp only [State.dmaEnd, bank_eventIf, bank_event]
  rfl

theorem words_bankDeny (s : State) (b port : Nat) (x : BankAcc) : (s.bankDeny b port x).bank.words = s.bank.words := by
  unfold State.bankDeny
  split
  · split
    · rw [words_dmaEnd, bank_bankRefuse]
    · rfl
  · dsimp only
    split <;> simp only [State.emit_bank, bank_bankRefuse]

theorem dmaOf_portA {k : Nat} (h : k ≤ 0x40) : dmaOf k = none := if_neg (by omega)

theorem errValid_bankDeny_portA (b : Fin 64) (s : State) {x : BankAcc} (h : x.agent.toNat ≤ 0x40) :
    (s.bankDeny b 0 x).rd (pg .bnk b) Reg.BNK_BNK_ERR_VALID = 1 := by
  simp only [State.bankDeny, dmaOf_portA h]
  exact errValid_bankRefuse b s _ _ _

/-! The staged words. -/

theorem smFind_map_none {α : Type} {f : Nat × α → Nat × α} (hf : ∀ x, (f x).1 = x.1) {k : Nat} {m : SMap α} (h : smFind k m = none) :
    smFind k (m.map f) = none := by
  induction m with
  | nil => rfl
  | cons x m ih =>
    obtain ⟨j, v⟩ := x
    have hj : (f (j, v)).1 = j := hf _
    simp only [smFind] at h
    split at h
    · contradiction
    · rename_i hk
      simp [smFind, hj, hk, ih h]

section
variable (s : State) (b t : Nat)

theorem rf_spillPush : (s.spillPush b t).rf = s.rf := by unfold State.spillPush; dsimp only; split <;> rfl

theorem boot_spillPush : (s.spillPush b t).boot = s.boot := by unfold State.spillPush; dsimp only; split <;> rfl

/-- A bank that no spill writes: the counts read since change the spills alone. -/
theorem spillPush_of_no_spill (h : smFind b s.bank.spill = none) : s.spillPush b t = s.spillRead t := by
  have hr : smFind b (s.spillRead t).bank.spill = none := by
    refine smFind_map_none ?_ h
    exact fun _ => rfl
  simp only [State.spillPush, hr]

end

theorem sameAccess_stagedRefused (b : Fin 64) (s : State) : SameAccess b s (s.stagedRefused b) := by
  unfold State.stagedRefused
  split
  · exact .refl b s
  · rename_i x l _
    refine .setStaged ?_ []
    have hd : SameAccess b s ((s.bankRefuse b x.agent x.word true).bumpSat (pg .bnk b) Reg.BNK_DEP_STAT_DROPS
        ((x :: l).filter PortWord.last).length) :=
      (sameAccess_bankRefuse b s _ _ _).trans (.of_wr b _ (f := Reg.BNK_DEP_STAT_DROPS) _ (by decide) (by decide))
    split
    · exact (hd.withBank _).trans (.of_wr b _ (f := Reg.BNK_SPILL_CTL_GO) _ (by decide) (by decide))
    · exact hd

/-- What the bank has written or refused by FCLK `t` does not decide who may use it. -/
theorem sameAccess_bankSync (b : Fin 64) (s : State) (t : Nat) : SameAccess b s (s.bankSync b t) := by
  have hp : SameAccess b s (s.spillPush b (t - 1)) := .of_rf (rf_spillPush s b _) (boot_spillPush s b _)
  unfold State.bankSync
  dsimp only
  split
  · exact hp.portFrom t
  · split
    · exact ((each_keeps (P := SameAccess b s) (fun _ _ h => h.setBankWord _ _) _ hp).setStaged _).portFrom t
    · split
      · exact hp.portFrom t
      · exact hp.trans (sameAccess_stagedRefused b _)

theorem rd_setStaged (s : State) (b : Nat) (l : List PortWord) (p : Nat) (f : Fld) : (s.setStaged b l).rd p f = s.rd p f := rfl

theorem words_stagedRefused (s : State) (b : Nat) : (s.stagedRefused b).bank.words = s.bank.words := by
  unfold State.stagedRefused
  split
  · rfl
  · dsimp only [State.setStaged]
    split <;> simp only [State.wr_bank, bank_bumpSat, bank_bankRefuse]

theorem errValid_stagedRefused (b : Fin 64) {s : State} {x : PortWord} {l : List PortWord} (h : s.stagedOf b = x :: l) :
    (s.stagedRefused b).rd (pg .bnk b) Reg.BNK_BNK_ERR_VALID = 1 := by
  have hd (n : Nat) : ((s.bankRefuse b x.agent x.word true).bumpSat (pg .bnk b) Reg.BNK_DEP_STAT_DROPS n).rd (pg .bnk b)
      Reg.BNK_BNK_ERR_VALID = 1 :=
    (rd_wr_field (f := Reg.BNK_DEP_STAT_DROPS) _ _ (by decide) (by decide) (by decide)).trans (errValid_bankRefuse b s _ _ _)
  simp only [State.stagedRefused, h, rd_setStaged]
  split
  · rw [rd_wr_field _ _ (by decide) (by decide) (by decide)]
    exact hd _
  · exact hd _

/-- One staged word whose FCLK lies before `t`: it is written where port B may use the bank, and else refused. -/
theorem bankSync_of_one_staged (b : Fin 64) {s : State} {t : Nat} {x : PortWord} (hs : s.stagedOf b = [x])
    (hsp : smFind b s.bank.spill = none) (ht : smGet t b s.bank.portAt < t) (hh : s.bankHolds b x.agent = false) :
    if s.bankAccepts b x.agent = true then (s.bankSync b t).bankWord b x.word = x.data
    else (s.bankSync b t).bank.words = s.bank.words ∧ (s.bankSync b t).rd (pg .bnk b) Reg.BNK_BNK_ERR_VALID = 1 := by
  have hr : (s.spillRead (t - 1)).stagedOf b = [x] := hs
  have hsame : SameAccess b s (s.spillRead (t - 1)) := .of_rf rfl rfl
  unfold State.bankSync
  simp only [spillPush_of_no_spill _ _ _ hsp, hr, hsame.bankAccepts, hsame.bankHolds, hh]
  split
  · obtain ⟨n, hn⟩ : ∃ n, t - smGet t b (s.spillRead (t - 1)).bank.portAt = n + 1 :=
      ⟨t - smGet t b s.bank.portAt - 1, by change t - smGet t b s.bank.portAt = _; omega⟩
    simp only [hn, List.take_succ_cons, List.take_nil, each_cons, each_nil]
    exact bankWord_setBankWord_same (s.spillRead (t - 1)) b x.word x.data
  · exact ⟨words_stagedRefused _ _, errValid_stagedRefused b hr⟩

/-! The access of one port (R426, R429, R430). -/

section
variable {s : State} {b port : Nat} {x : BankAcc}

theorem bankTake_accepted (hh : s.bankHolds b x.agent.toNat = false) (ha : s.bankAccepts b x.agent.toNat = true)
    (hp : isPortA x.agent.toNat = (port == 0)) : s.bankTake b port (some x) = (some x, s) := by
  simp [State.bankTake, hh, ha, hp]

theorem bankTake_refused (hh : s.bankHolds b x.agent.toNat = false) (ha : s.bankAccepts b x.agent.toNat = false) :
    s.bankTake b port (some x) = (none, s.bankDeny b port x) := by
  simp [State.bankTake, hh, ha]

end

section
variable {s r : State} {t : Nat} {b : Fin 64} {x : BankAcc}

theorem exec_bankAccess_none (hg : (s.advance t).gated = false) : exec (.bankAccess t b none none) s = .next ((s.advance t).bankSync b t) := by
  change execBankAccess t b none none s = _
  simp only [execBankAccess, hg]
  rfl

theorem exec_bankAccess_portA_taken (hg : (s.advance t).gated = false)
    (h : ((s.advance t).bankSync b t).bankTake b 0 (some x) = (some x, r)) :
    exec (.bankAccess t b (some x) none) s = .next ((r.bankDo b 0 x).portMeets b t x.word x.write) := by
  change execBankAccess t b (some x) none s = _
  simp only [execBankAccess, hg, h]
  rfl

theorem exec_bankAccess_portA_refused (hg : (s.advance t).gated = false)
    (h : ((s.advance t).bankSync b t).bankTake b 0 (some x) = (none, r)) : exec (.bankAccess t b (some x) none) s = .next r := by
  change execBankAccess t b (some x) none s = _
  simp only [execBankAccess, hg, h]
  rfl

theorem exec_bankAccess_portB_refused (hg : (s.advance t).gated = false) (hx : x.agent.toNat < 0x60)
    (h : ((s.advance t).bankSync b t).bankTake b 1 (some x) = (none, r)) : exec (.bankAccess t b none (some x)) s = .next r := by
  have hb : portB (some x) = some x := by simp [portB, hx]
  have hA : ((s.advance t).bankSync b t).bankTake b 0 none = (none, (s.advance t).bankSync b t) := rfl
  change execBankAccess t b none (some x) s = _
  simp only [execBankAccess, hg, hA, hb, h]
  rfl

theorem bankDo_write_portA (hx : x.agent.toNat ≤ 0x40) (hw : x.write = true) (port : Nat) :
    s.bankDo b port x = s.setBankWord b x.word x.data := by
  simp [State.bankDo, dmaOf_portA hx, hw]

end

/-! The three clauses of the statement. -/

section
variable {s : State} {b : Fin 64} {owner agent : Nat} (t : Nat)

theorem bankAccess_portA (x : BankAcc) (hg : s.gated = false) (hon : s.bankOn b = true)
    (hbusy : s.on (pg .bnk b) Reg.BNK_BNK_OWN_BUSY = false) (hown : owner = s.rd (pg .bnk b) Reg.BNK_BNK_OWN_OWNER_ACT)
    (hx : x.agent.toNat ≤ 0x40) :
    Gives (.bankAccess t b (some x) none) s fun u =>
      if x.agent.toNat = owner then (x.write = true → u.bankWord b x.word = x.data)
      else u.bank.words = ((s.advance t).bankSync b t).bank.words ∧ u.rd (pg .bnk b) Reg.BNK_BNK_ERR_VALID = 1 := by
  have hadv := SameAccess.advance b s t
  have hsame := hadv.trans (sameAccess_bankSync b (s.advance t) t)
  have hgate := hadv.gated.trans hg
  have hh : ((s.advance t).bankSync b t).bankHolds b x.agent.toNat = false :=
    (hsame.bankHolds _).trans (bankHolds_of_not_busy hbusy _)
  have ha := (hsame.bankAccepts x.agent.toNat).trans (bankAccepts_of_not_busy hon hbusy _)
  have hlegal := ownLegal_portA hx (s.rd (pg .bnk b) Reg.BNK_BNK_OWN_OWNER_ACT) (s.rd (pg .bnk b) Reg.BNK_BNK_OWN_B_AGENT_ACT)
  rw [← ha, ← hown] at hlegal
  by_cases ho : x.agent.toNat = owner
  · refine ⟨_, exec_bankAccess_portA_taken hgate (bankTake_accepted hh (hlegal.2 ho) (by simp [isPortA, hx])), ?_⟩
    simp only [if_pos ho]
    intro hw
    rw [hw, bankWord_portMeets_write, bankDo_write_portA hx hw, bankWord_setBankWord_same]
  · refine ⟨_, exec_bankAccess_portA_refused hgate (bankTake_refused hh (Bool.eq_false_iff.2 (mt hlegal.1 ho))), ?_⟩
    simp only [if_neg ho]
    exact ⟨words_bankDeny _ _ _ _, errValid_bankDeny_portA b _ hx⟩

theorem bankAccess_staged (x : PortWord) (hg : s.gated = false) (hon : s.bankOn b = true)
    (hbusy : s.on (pg .bnk b) Reg.BNK_BNK_OWN_BUSY = false) (hown : owner = s.rd (pg .bnk b) Reg.BNK_BNK_OWN_OWNER_ACT)
    (hagent : agent = s.rd (pg .bnk b) Reg.BNK_BNK_OWN_B_AGENT_ACT) (hs : s.stagedOf b = [x]) (hlo : 0x60 ≤ x.agent) (hhi : x.agent ≤ 0x61)
    (hsp : smFind b s.bank.spill = none) (ht : smGet t b s.bank.portAt < t) :
    Gives (.bankAccess t b none none) s fun u =>
      if x.agent = owner ∨ (owner ≤ 0x40 ∧ x.agent = agent) then u.bankWord b x.word = x.data
      else u.bank.words = s.bank.words ∧ u.rd (pg .bnk b) Reg.BNK_BNK_ERR_VALID = 1 := by
  have hadv := SameAccess.advance b s t
  have hbank := s.advance_bank t
  refine ⟨_, exec_bankAccess_none (hadv.gated.trans hg), ?_⟩
  have hsync := bankSync_of_one_staged b (s := s.advance t) (t := t) (x := x) (by rw [State.stagedOf, hbank]; exact hs) (by rw [hbank]; exact hsp)
    (by rw [hbank]; exact ht) ((hadv.bankHolds _).trans (bankHolds_of_not_busy hbusy _))
  simpa only [hbank, hadv.bankAccepts, bankAccepts_of_not_busy hon hbusy, ← hown, ← hagent,
    ownLegal_portB (le_trans (by decide) hlo : 0x50 ≤ x.agent) hhi] using hsync

theorem bankAccess_portB_illegal (x : BankAcc) (hg : s.gated = false) (hon : s.bankOn b = true)
    (hbusy : s.on (pg .bnk b) Reg.BNK_BNK_OWN_BUSY = false) (hown : owner = s.rd (pg .bnk b) Reg.BNK_BNK_OWN_OWNER_ACT)
    (hagent : agent = s.rd (pg .bnk b) Reg.BNK_BNK_OWN_B_AGENT_ACT) (hlo : 0x50 ≤ x.agent.toNat) (hhi : x.agent.toNat ≤ 0x5F)
    (hno : ¬(x.agent.toNat = owner ∨ (owner ≤ 0x40 ∧ x.agent.toNat = agent))) :
    Gives (.bankAccess t b none (some x)) s fun u => u.bank.words = ((s.advance t).bankSync b t).bank.words := by
  have hadv := SameAccess.advance b s t
  have hsame := hadv.trans (sameAccess_bankSync b (s.advance t) t)
  have hh : ((s.advance t).bankSync b t).bankHolds b x.agent.toNat = false :=
    (hsame.bankHolds _).trans (bankHolds_of_not_busy hbusy _)
  have ha : ((s.advance t).bankSync b t).bankAccepts b x.agent.toNat = false := by
    rw [hsame.bankAccepts, bankAccepts_of_not_busy hon hbusy, ← hown, ← hagent, Bool.eq_false_iff, Ne,
      ownLegal_portB hlo (by omega)]
    exact hno
  exact ⟨_, exec_bankAccess_portB_refused (hadv.gated.trans hg) (by omega) (bankTake_refused hh ha), words_bankDeny _ _ _ _⟩

end

/-- Settles O46: what decides an access is read from registers that the tick and the words staged before do not touch; each clause is then
the bank's answer to a legal or to an illegal access. -/
theorem bankAccessesAreLegalOnlyForOwnerAndAgent : Obligations.BankAccessesAreLegalOnlyForOwnerAndAgent := by
  refine ⟨?_, ?_, ?_⟩
  · rintro t owner agent b x s ⟨hg, hon, hbusy⟩ ⟨hown, -⟩ hx
    exact bankAccess_portA t x hg hon hbusy hown hx
  · rintro t owner agent b x s ⟨hg, hon, hbusy⟩ ⟨hown, hagent⟩ ⟨hs, hlo, hhi⟩ ⟨hsp, ht⟩
    exact bankAccess_staged t x hg hon hbusy hown hagent hs hlo hhi hsp ht
  · rintro t owner agent b x s ⟨hg, hon, hbusy⟩ ⟨hown, hagent⟩ ⟨hlo, hhi⟩ hno
    exact bankAccess_portB_illegal t x hg hon hbusy hown hagent hlo hhi hno

end Sys2Proof.Machine
end

section
/-!
PROOF. How a compute bundle of a signal core runs: what its moves and its compute slot leave in flight, when a result lands, and what the core
then reads (R449, R463 to R471, R477). On it rest the statements about extraction (R452) and search (R453).
-/
namespace Sys2Proof.Machine

/-! Numbers of a fixed width. -/

theorem unsigned_eq_toNat (w : Nat) (i : Int) : unsigned w i = (BitVec.ofInt w i).toNat := (BitVec.toNat_ofInt i).symm

theorem unsigned_lt (w : Nat) (i : Int) : unsigned w i < 2 ^ w := by
  rw [unsigned_eq_toNat]
  exact BitVec.isLt _

theorem ofNat_unsigned (w : Nat) (i : Int) : BitVec.ofNat w (unsigned w i) = BitVec.ofInt w i := by
  rw [unsigned_eq_toNat, BitVec.ofNat_toNat, BitVec.setWidth_eq]

theorem signed_eq_toInt (w n : Nat) : signed w n = (BitVec.ofNat w n).toInt := by
  rcases w with _ | w
  · simp [signed, Nat.mod_one, BitVec.of_length_zero]
  · have : 2 ^ (w + 1) = 2 * 2 ^ w := by ring
    rw [BitVec.toInt_eq_toNat_cond, BitVec.toNat_ofNat, signed, Nat.add_sub_cancel]
    exact if_congr (by omega) rfl rfl

theorem signed_toNat {w : Nat} (x : BitVec w) : signed w x.toNat = x.toInt := by
  rw [signed_eq_toInt, BitVec.ofNat_toNat, BitVec.setWidth_eq]

theorem unsigned_signed (w n : Nat) : unsigned w (signed w n) = n % 2 ^ w := by
  rw [signed_eq_toInt, unsigned_eq_toNat, BitVec.ofInt_toInt, BitVec.toNat_ofNat]

theorem signed_32_bounds (n : Nat) : -2 ^ 31 ≤ signed 32 n ∧ signed 32 n < 2 ^ 31 := by
  unfold signed
  split <;> omega

/-- A half of an accumulator is wide enough for every number of 64 bits. -/
theorem toInt_ofNat_unsigned_72 {i : Int} (hlo : -2 ^ 63 ≤ i) (hhi : i < 2 ^ 63) : (BitVec.ofNat 72 (unsigned 72 i)).toInt = i := by
  rw [ofNat_unsigned, BitVec.toInt_ofInt, Int.bmod_eq_of_le] <;> omega

/-! Registers, and what a result that lands in one changes (R464, R465). -/

section
variable {w n : Nat} (v : Vector (BitVec w) n)

theorem vget_vset_same {i : Nat} (h : i < n) (x : Nat) : vget (vset v i x) i = BitVec.ofNat w x := by
  simp [vget, vset, h]

theorem vget_vset_ne {i j : Nat} (h : j ≠ i) (x : Nat) : vget (vset v j x) i = vget v i := by
  simp [vget, vset, Array.getD_eq_getD_getElem?, Array.getElem?_setIfInBounds_ne h]

end

section
variable (c : CoreSt) {r m : Nat} (v : Nat)

theorem gr_putReg_ne (h : ¬ r = m) : (c.putReg r v).gr m = c.gr m := by
  simp only [CoreSt.gr, CoreSt.putReg, apply_ite CoreSt.g, ite_self]
  split
  · exact vget_vset_ne _ h _
  · rfl

theorem gr_putReg_same (h : m < 32) : (c.putReg m v).gr m = BitVec.ofNat 64 v := by
  simp (disch := omega) only [CoreSt.gr, CoreSt.putReg, if_pos, vget_vset_same]

/-- One step for each case of `putReg`; in those that write `acr`, the half written is another one. -/
theorem acr_putReg_ne (h : ¬(r = 32 + m ∨ r = 40 + m ∨ r = 100 + m)) : vget (c.putReg r v).acr m = vget c.acr m := by
  unfold CoreSt.putReg
  extract_lets
  iterate 21
    refine iteInduction (motive := fun d : CoreSt => vget d.acr m = vget c.acr m) (fun _ => ?_) fun _ => ?_
    · dsimp only <;> exact vget_vset_ne _ (by omega) _
  rfl

theorem acr_putReg_whole (h : m < 4) : vget (c.putReg (100 + m) v).acr m = BitVec.ofNat 72 v := by
  simp (disch := omega) only [CoreSt.putReg, if_pos, if_neg, Nat.add_sub_cancel_left, vget_vset_same]

/-- As `acr_putReg_ne`, for the other halves. -/
theorem aci_putReg_ne (h : ¬(r = 36 + m ∨ r = 40 + m ∨ r = 104 + m)) : vget (c.putReg r v).aci m = vget c.aci m := by
  unfold CoreSt.putReg
  extract_lets
  iterate 21
    refine iteInduction (motive := fun d : CoreSt => vget d.aci m = vget c.aci m) (fun _ => ?_) fun _ => ?_
    · dsimp only <;> exact vget_vset_ne _ (by omega) _
  rfl

theorem aci_putReg_whole (h : m < 4) : vget (c.putReg (104 + m) v).aci m = BitVec.ofNat 72 v := by
  simp (disch := omega) only [CoreSt.putReg, if_pos, if_neg, Nat.add_sub_cancel_left, vget_vset_same]

end

@[simp] theorem loads_putReg (c : CoreSt) (r v : Nat) : (c.putReg r v).loads = c.loads := by
  simp only [CoreSt.putReg, apply_ite CoreSt.loads, ite_self]

/-! Landing: what a bundle reads once the results due have landed (R449). -/

/-- What is read of a core's registers, with the register numbers through which a result may change it. -/
structure Reading (α : Type) where
  of : CoreSt → α
  touched : Nat → Prop
  keeps : ∀ (c : CoreSt) (r v : Nat), ¬touched r → of (c.putReg r v) = of c
  flight : ∀ (c : CoreSt) (pend : List PendWrite) (loads : List WinLoad), of { c with pend := pend, loads := loads } = of c

/-- General register `i`. -/
def Reading.gr (i : Nat) : Reading Word := ⟨fun c => c.gr i, fun r => r = i, fun c _ v h => gr_putReg_ne c v h, fun _ _ _ => rfl⟩

/-- The real half of accumulator `m`, which results reach whole or in parts. -/
def Reading.acr (m : Nat) : Reading (BitVec 72) :=
  ⟨fun c => vget c.acr m, fun r => r = 32 + m ∨ r = 40 + m ∨ r = 100 + m, fun c _ v h => acr_putReg_ne c v h, fun _ _ _ => rfl⟩

/-- The imaginary half of accumulator `m`. -/
def Reading.aci (m : Nat) : Reading (BitVec 72) :=
  ⟨fun c => vget c.aci m, fun r => r = 36 + m ∨ r = 40 + m ∨ r = 104 + m, fun c _ v h => aci_putReg_ne c v h, fun _ _ _ => rfl⟩

/-- Results landed in turn. -/
def CoreSt.landAll (c : CoreSt) (l : List PendWrite) : CoreSt := l.foldl (fun c p => c.putReg p.reg p.val) c

namespace Reading
variable {α : Type} (ρ : Reading α) {c : CoreSt} {l : List PendWrite}

theorem landAll_untouched (h : ∀ p ∈ l, ¬ρ.touched p.reg) : ρ.of (c.landAll l) = ρ.of c := by
  induction l generalizing c with
  | nil => rfl
  | cons p l ih =>
    exact (ih fun q hq => h q (.tail _ hq)).trans (ρ.keeps _ _ _ (h p (.head _)))

/-- The one result that touches a reading decides it, wherever it stands among the others. -/
theorem landAll_landed {q : PendWrite} {a : α} (hq : q ∈ l) (hval : ∀ d : CoreSt, ρ.of (d.putReg q.reg q.val) = a)
    (h : ∀ p ∈ l, ρ.touched p.reg → p = q) : ρ.of (c.landAll l) = a := by
  induction l generalizing c with
  | nil => cases hq
  | cons p l ih =>
    have htail : ∀ x ∈ l, ρ.touched x.reg → x = q := fun x hx => h x (.tail _ hx)
    by_cases hl : q ∈ l
    · exact ih hl htail
    · obtain rfl : q = p := (List.mem_cons.1 hq).resolve_right hl
      exact (ρ.landAll_untouched fun x hx ht => hl (htail x hx ht ▸ hx)).trans (hval _)

end Reading

theorem loads_landAll (c : CoreSt) (l : List PendWrite) : (c.landAll l).loads = c.loads := by
  induction l generalizing c with
  | nil => rfl
  | cons p l ih => exact (ih _).trans (loads_putReg c p.reg p.val)

section
variable {c : CoreSt}

theorem landLoads_of_none (h : c.loads = []) :
    (c.loads.filter (fun x => x.due ≤ c.cyc)).foldl (fun c x => if x.dead then c else c.putReg x.reg x.val)
      { c with loads := c.loads.filter (fun x => c.cyc < x.due) } = c := by
  rw [h, List.filter_nil, List.filter_nil, List.foldl_nil, ← h]

theorem settle_of_no_loads (h : c.loads = []) :
    c.settle = ({ c with pend := c.pend.filter (fun p => c.idx < p.due) } : CoreSt).landAll (c.pend.filter (fun p => p.due ≤ c.idx)) := by
  have hd := (loads_landAll { c with pend := c.pend.filter (fun p => c.idx < p.due) } (c.pend.filter (fun p => p.due ≤ c.idx))).trans h
  exact landLoads_of_none hd

theorem settle_of_idle (hp : c.pend = []) (hl : c.loads = []) : c.settle = c := by
  rw [settle_of_no_loads hl, hp, List.filter_nil, List.filter_nil]
  exact congrArg (fun l => ({ c with pend := l } : CoreSt)) hp.symm

variable {α : Type} (ρ : Reading α)

theorem Reading.settle_untouched (hl : c.loads = []) (h : ∀ p ∈ c.pend, p.due ≤ c.idx → ¬ρ.touched p.reg) : ρ.of c.settle = ρ.of c := by
  rw [settle_of_no_loads hl, ρ.landAll_untouched]
  · exact ρ.flight c _ _
  · intro p hp
    obtain ⟨hp, hdue⟩ := List.mem_filter.1 hp
    exact h p hp (of_decide_eq_true hdue)

theorem Reading.settle_landed {q : PendWrite} {a : α} (hl : c.loads = []) (hq : q ∈ c.pend) (hdue : q.due ≤ c.idx)
    (hval : ∀ d : CoreSt, ρ.of (d.putReg q.reg q.val) = a) (h : ∀ p ∈ c.pend, p.due ≤ c.idx → ρ.touched p.reg → p = q) :
    ρ.of c.settle = a := by
  rw [settle_of_no_loads hl]
  refine ρ.landAll_landed (List.mem_filter.2 ⟨hq, decide_eq_true hdue⟩) hval ?_
  intro p hp
  obtain ⟨hp, hdue⟩ := List.mem_filter.1 hp
  exact h p hp (of_decide_eq_true hdue)

end

/-! Issuing: what a bundle adds to the results in flight. -/

theorem mem_insertPend {p q : PendWrite} {l : List PendWrite} : p ∈ insertPend q l ↔ p = q ∨ p ∈ l := by
  induction l with
  | nil => simp [insertPend]
  | cons x l ih =>
    unfold insertPend
    split
    · exact List.mem_cons
    · rw [List.mem_cons, ih, List.mem_cons]
      tauto

theorem mem_pend_post {c : CoreSt} {lat r v : Nat} {p : PendWrite} : p ∈ (c.post lat r v).pend ↔ p = ⟨c.idx + lat, r, v⟩ ∨ p ∈ c.pend :=
  mem_insertPend

/-- From `c` to `d` results have been sent on their way, each as `new` says, and words of data memory may have been stored; no result has
landed, and nothing else has changed. -/
structure Issues (new : PendWrite → Prop) (c d : CoreSt) : Prop where
  rest : d = { c with x := d.x, y := d.y, pend := d.pend, loads := d.loads }
  loads : c.loads = [] → d.loads = []
  old : ∀ p ∈ c.pend, p ∈ d.pend
  issued : ∀ p ∈ d.pend, p ∈ c.pend ∨ new p

namespace Issues
variable {new : PendWrite → Prop} {c d e : CoreSt}

theorem refl (c : CoreSt) : Issues new c c := ⟨rfl, id, fun _ => id, fun _ => .inl⟩

theorem idx (h : Issues new c d) : d.idx = c.idx := by rw [h.rest]
theorem g (h : Issues new c d) : d.g = c.g := by rw [h.rest]
theorem acr (h : Issues new c d) : d.acr = c.acr := by rw [h.rest]
theorem aci (h : Issues new c d) : d.aci = c.aci := by rw [h.rest]
theorem haltReq (h : Issues new c d) : d.haltReq = c.haltReq := by rw [h.rest]

theorem trans (h : Issues new c d) (k : Issues new d e) : Issues new c e where
  rest := by rw [k.rest, h.rest]
  loads := k.loads ∘ h.loads
  old p hp := k.old p (h.old p hp)
  issued p hp := (k.issued p hp).elim (h.issued p) .inr

theorem mono {new' : PendWrite → Prop} (h : Issues new c d) (hn : ∀ p, new p → new' p) : Issues new' c d :=
  ⟨h.rest, h.loads, h.old, fun p hp => (h.issued p hp).imp_right (hn p)⟩

theorem post (h : Issues new c d) {lat r v : Nat} (hn : new ⟨c.idx + lat, r, v⟩) : Issues new c (d.post lat r v) := by
  refine h.trans ⟨rfl, ?_, fun p hp => mem_pend_post.2 (.inr hp), fun p hp => (mem_pend_post.1 hp).symm.imp_right ?_⟩
  · intro hl
    simp [CoreSt.post, hl]
  · rintro rfl
    rwa [h.idx]

theorem store (h : Issues new c d) (x y : SMap Word) : Issues new c { d with x := x, y := y } := h.trans ⟨rfl, id, fun _ => id, fun _ => .inl⟩

end Issues

/-! The moves of a bundle, where they stay within the memories (R471, R472). -/

/-- A result of a move of the bundle at time `k`: a step of an address register, or a value on its way to a register (R477). -/
def MoveResult (k : Nat) (p : PendWrite) : Prop := (p.due = k + 1 ∧ 64 ≤ p.reg ∧ p.reg < 72) ∨ (p.due = k + 3 ∧ p.reg ≤ 58)

/-- An effect outside the core that counts, and changes no core. -/
def CoreFx.counts : CoreFx → Bool
  | .freeUsed | .bump _ => true
  | _ => false

theorem counts_bumpIf (k : Nat) (f : Fld) : ∀ x ∈ (if k = 1 then [CoreFx.bump f] else []), x.counts = true := by
  split <;> simp [CoreFx.counts]

/-- The bundle in execution has done nothing yet but moves from where the core was `c`. -/
structure Moved (c : CoreSt) (e : Exe) : Prop where
  core : Issues (MoveResult c.idx) c e.c
  fx : ∀ f ∈ e.fx, f.counts = true

theorem reg_le_of_moveLegal {x : Bool} {m : Nat} (h : moveLegal x m = true) (h0 : vOp m ≠ 0) : vReg m ≤ 58 := by
  unfold moveLegal at h
  split at h
  · contradiction
  · cases x <;> simp_all [regLegal]
  · simp_all [regLegal]

section
variable {c : CoreSt} {w : Nat} {ecc : CoreEcc}

theorem quiet_p (h : c.quiet w ecc = true) : ecc.p.val ≠ 2 := by
  simp only [CoreSt.quiet, Bool.and_eq_true, bne_iff_ne] at h
  exact h.1.1

theorem quiet_x (h : c.quiet w ecc = true) (h0 : vOp (xMove w) ≠ 0) (h3 : vOp (xMove w) ≠ 3) :
    (∃ a, xPlace (c.moveAddr (xMove w)).1 = .mem a) ∧ ecc.x.val ≠ 2 := by
  simp only [CoreSt.quiet, Bool.and_eq_true, Bool.or_eq_true, bne_iff_ne, beq_iff_eq, h0, h3, false_or] at h
  obtain ⟨⟨-, hm, he⟩, -⟩ := h
  refine ⟨?_, he⟩
  split at hm
  · exact ⟨_, ‹_›⟩
  · contradiction

theorem quiet_y (h : c.quiet w ecc = true) (h0 : vOp (yMove w) ≠ 0) :
    (c.moveAddr (yMove w)).1 < (if vOp (yMove w) = 3 then 0x2000 else 0x4000) ∧ ecc.y.val ≠ 2 := by
  simp only [CoreSt.quiet, Bool.and_eq_true, Bool.or_eq_true, bne_iff_ne, beq_iff_eq, h0, false_or, decide_eq_true_eq] at h
  exact h.2

/-- The X address of a bundle whose moves stay within data memory is in no window. -/
theorem winAccess_of_quiet (h : c.quiet w ecc = true) : c.winAccess w = none := by
  unfold CoreSt.winAccess
  split
  · rename_i hop
    simp only [Bool.and_eq_true, Bool.or_eq_true, beq_iff_eq] at hop
    obtain ⟨⟨a, ha⟩, -⟩ := quiet_x h (by omega) (by omega)
    rw [ha]
  · rfl

end

namespace Moved
variable {c : CoreSt} {e : Exe}

theorem start (c : CoreSt) : Moved c ⟨c, []⟩ := ⟨.refl c, by simp⟩

theorem land (h : Moved c e) {r : Nat} (hr : r ≤ 58) (v : Nat) : Moved c (e.core (e.c.land r v)) :=
  ⟨h.core.post (.inr ⟨rfl, hr⟩), h.fx⟩

theorem store (h : Moved c e) (x y : SMap Word) : Moved c (e.core { e.c with x := x, y := y }) := ⟨h.core.store x y, h.fx⟩

theorem also (h : Moved c e) {l : List CoreFx} (hl : ∀ f ∈ l, f.counts = true) : Moved c (e.also l) :=
  ⟨h.core, fun f hf => (List.mem_append.1 hf).elim (h.fx f) (hl f)⟩

theorem pkUpdate (h : Moved c e) (m fr : Nat) (u : PkUpd) : Moved c (e.pkUpdate m fr u) := by
  have step (v : Nat) : Moved c (e.core (e.c.post 1 (64 + vP m) v)) := by
    refine ⟨h.core.post (.inl ⟨rfl, Nat.le_add_right _ _, ?_⟩), h.fx⟩
    have : vP m < 8 := Nat.mod_lt _ (by decide)
    dsimp only
    omega
  match u with
  | .keep => exact h
  | .to v => exact step v
  | .open_ => exact (step _).also (by simp [CoreFx.counts])

theorem doY (h : Moved c e) {w : Nat} {ecc : CoreEcc} (hq : c.quiet w ecc = true) (hl : moveLegal false (yMove w) = true) (fr : Nat) :
    Moved c (e.doY c fr ecc.y (yMove w)) := by
  by_cases h0 : vOp (yMove w) = 0
  · simpa only [Exe.doY, h0] using h
  have hr := reg_le_of_moveLegal hl h0
  obtain ⟨ha, he⟩ := quiet_y hq h0
  unfold Exe.doY
  dsimp only
  split
  case h_1 hop =>
    rw [if_neg (by simpa [hop] using ha), if_neg he]
    exact ((h.land hr _).also (counts_bumpIf _ _)).pkUpdate _ _ _
  case h_2 hop =>
    rw [if_neg (by simpa [hop] using ha)]
    exact (h.store e.c.x _).pkUpdate _ _ _
  case h_3 hop =>
    rw [if_neg (by simpa [hop] using ha), if_neg he]
    exact ((h.land hr _).also (counts_bumpIf _ _)).pkUpdate _ _ _
  case h_4 => exact h

theorem doX (h : Moved c e) {w : Nat} {ecc : CoreEcc} (hq : c.quiet w ecc = true) (hl : moveLegal true (xMove w) = true) (s : State)
    (n t fr : Nat) : Moved c (e.doX c s n t fr ecc.x (xMove w)) := by
  by_cases h0 : vOp (xMove w) = 0
  · simpa only [Exe.doX, h0] using h
  have hr := reg_le_of_moveLegal hl h0
  unfold Exe.doX
  dsimp only
  split
  case h_1 hop =>
    obtain ⟨⟨a, ha⟩, he⟩ := quiet_x hq h0 (by omega)
    simp only [Exe.xLoad, ha, if_neg he]
    exact ((h.land hr _).also (counts_bumpIf _ _)).pkUpdate _ _ _
  case h_2 hop =>
    obtain ⟨⟨a, ha⟩, -⟩ := quiet_x hq h0 (by omega)
    simp only [Exe.xStore, ha]
    exact (h.store _ e.c.y).pkUpdate _ _ _
  case h_3 => exact h.land hr _
  case h_4 => exact h

end Moved

/-! The compute slot changes nothing but the results in flight. -/

section
variable {c before : CoreSt}

/-- A result of a MAC unit's operation on accumulator `n` in the bundle at time `k` (R468, R477). -/
def UnitResult (k n : Nat) (p : PendWrite) : Prop := p.due = k + 2 ∧ (p.reg = 100 + n ∨ p.reg = 104 + n ∨ p.reg = 108)

theorem issues_doUnit (op ra rb n : Nat) (neg : Bool) : Issues (UnitResult c.idx n) c (c.doUnit before op ra rb n neg) := by
  have re (v : Nat) : UnitResult c.idx n ⟨c.idx + 2, 100 + n, v⟩ := ⟨rfl, .inl rfl⟩
  have im (v : Nat) : UnitResult c.idx n ⟨c.idx + 2, 104 + n, v⟩ := ⟨rfl, .inr (.inl rfl)⟩
  have ovf (v : Nat) : UnitResult c.idx n ⟨c.idx + 2, 108, v⟩ := ⟨rfl, .inr (.inr rfl)⟩
  have both (x y : Nat) : Issues (UnitResult c.idx n) c ((c.post 2 (100 + n) x).post 2 (104 + n) y) :=
    ((Issues.refl c).post (re x)).post (im y)
  have overflow (b : Bool) {d : CoreSt} (h : Issues (UnitResult c.idx n) c d) :
      Issues (UnitResult c.idx n) c (if b then d.post 2 108 (2 ^ n) else d) := by
    split
    · exact h.post (ovf _)
    · exact h
  have search (b : Bool) (x y : Nat) :
      Issues (UnitResult c.idx n) c (if b then (c.post 2 (100 + n) x).post 2 (104 + n) y else c) := by
    split
    · exact both x y
    · exact .refl c
  unfold CoreSt.doUnit
  dsimp only
  split
  · exact both _ _
  · exact overflow _ (both _ _)
  · exact both _ _
  · exact overflow _ (both _ _)
  · exact overflow _ ((Issues.refl c).post (re _))
  · exact search _ _ _
  · exact search _ _ _
  · exact .refl c

theorem issues_doMac (w : Nat) : Issues (fun _ => True) c (c.doMac w) :=
  ((issues_doUnit _ _ _ _ _).mono fun _ _ => trivial).trans ((issues_doUnit _ _ _ _ _).mono fun _ _ => trivial)

/-- Whatever the operation, its result word and flags first, then what is its own (R466, R467). -/
theorem issues_doAlu (w : Nat) : Issues (fun _ => True) c (c.doAlu w) := by
  have post {d : CoreSt} (h : Issues (fun _ => True) c d) (lat r v : Nat) : Issues (fun _ => True) c (d.post lat r v) := h.post trivial
  unfold CoreSt.doAlu
  split
  · exact .refl c
  · rename_i op _
    have result : Issues (fun _ => True) c (match c.aluResult w op with
      | some (r, f) =>
        let c := c.post 1 (bGd w) r.toNat
        if hasF op && bF w then c.post 1 110 (0x0F * 256 + f) else c
      | none => c) := by
      split
      · dsimp only
        split
        · exact post (post (.refl c) _ _ _) _ _ _
        · exact post (.refl c) _ _ _
      · exact .refl c
    dsimp only
    split
    · exact post result _ _ _
    · exact post result _ _ _
    · exact post result _ _ _
    · exact post (post result _ _ _) _ _ _
    · refine post ?_ _ _ _
      split
      · exact result
      · refine List.foldlRecOn _ _ result ?_
        exact fun d h k _ => post (post h _ _ _) _ _ _
    · exact post result _ _ _
    · exact result

end

/-- The compute slot of the bundle `w` executed (R466, R468). -/
def CoreSt.computeSlot (c : CoreSt) (w : Nat) : CoreSt := if bMac w then c.doMac w else c.doAlu w

theorem issues_computeSlot (c : CoreSt) (w : Nat) : Issues (fun _ => True) c (c.computeSlot w) := by
  unfold CoreSt.computeSlot
  split
  · exact issues_doMac w
  · exact issues_doAlu w

/-! The next bundle's address (R454). -/

/-- From `c` to `d` the core has gone on by `k` bundles: its pc, its loops and its time have moved, and nothing else. -/
def GoesOn (k : Nat) (c d : CoreSt) : Prop :=
  d = { c with pc := d.pc, lc := d.lc, st := d.st, cacheFull := d.cacheFull, idx := c.idx + k, cyc := d.cyc }

theorem goesOn_loopEnd (fuel : Nat) (c : CoreSt) : GoesOn 0 c (c.loopEnd fuel) := by
  induction fuel generalizing c with
  | zero => rfl
  | succ fuel ih =>
    unfold CoreSt.loopEnd
    dsimp only
    split
    · rfl
    · split
      · exact (ih (c.setLsp (c.lsp - 1))).trans rfl
      · rfl

theorem goesOn_advance {c was : CoreSt} {w : Nat} (hs : was.slots = 0) (hf : bForm w = 0) : GoesOn 0 c (c.advance was w) := by
  simpa [CoreSt.advance, hs, hf] using goesOn_loopEnd 4 c

/-! The execution of a compute bundle. -/

/-- The core's next bundle is the legal compute bundle `w`, which neither a result in flight nor a delay slot nor a halt concerns. -/
structure AtCompute (c : CoreSt) (w : Nat) (ecc : CoreEcc) : Prop where
  pend : c.pend = []
  loads : c.loads = []
  slots : c.slots = 0
  haltReq : c.haltReq = false
  prog : (c.prog c.pc.toNat).toNat = w
  form : bForm w = 0
  legal : bundleLegal w false = true
  quiet : c.quiet w ecc = true

/-- From `c` to `d` the core's time has been counted on, its timer seen and its state set, and nothing else. -/
def Retimed (c d : CoreSt) : Prop := d = { c with base := d.base, cyc := d.cyc, state := d.state, irqPend := d.irqPend }

theorem Retimed.trans {c d e : CoreSt} (h : Retimed c d) (k : Retimed d e) : Retimed c e := by
  unfold Retimed
  rw [k, h]

theorem AtCompute.retimed {c d : CoreSt} {w : Nat} {ecc : CoreEcc} (h : AtCompute c w ecc) (hd : Retimed c d) : AtCompute d w ecc := by
  rw [hd]
  exact ⟨h.pend, h.loads, h.slots, h.haltReq, h.prog, h.form, h.legal, h.quiet⟩

theorem movesLegal_of_bundleLegal {w : Nat} (hl : bundleLegal w false = true) (hf : bForm w = 0) :
    moveLegal true (xMove w) = true ∧ moveLegal false (yMove w) = true := by
  simp only [bundleLegal, hf, Bool.and_eq_true] at hl
  exact ⟨hl.1.2, hl.2⟩

/-- The moves of the bundle `w` of core `n` made (R471). -/
def CoreSt.makeMoves (c : CoreSt) (s : State) (n t w : Nat) (ecc : CoreEcc) : Exe :=
  ((⟨c, []⟩ : Exe).doY c (Config.freeValue s.freeCnt) ecc.y (yMove w)).doX c s n t (Config.freeValue s.freeCnt) ecc.x (xMove w)

section
variable {c : CoreSt} {w : Nat} {ecc : CoreEcc} (h : AtCompute c w ecc) (s : State) (n t : Nat)
include h

theorem moved_makeMoves : Moved c (c.makeMoves s n t w ecc) := by
  obtain ⟨hx, hy⟩ := movesLegal_of_bundleLegal h.legal h.form
  exact ((Moved.start c).doY h.quiet hy _).doX h.quiet hx s n t _

theorem execute_of_atCompute :
    c.execute s n t w ecc = (c.makeMoves s n t w ecc).core
      { ((c.makeMoves s n t w ecc).c.computeSlot w).advance c w with
        idx := (((c.makeMoves s n t w ecc).c.computeSlot w).advance c w).idx + 1
        cyc := (((c.makeMoves s n t w ecc).c.computeSlot w).advance c w).cyc + 1 } := by
  have hs : decide (0 < c.slots) = false := by simp [h.slots]
  simp only [CoreSt.execute, hs, h.legal, h.form, Bool.not_true]
  rfl

theorem goesOn_execute : GoesOn 1 ((c.makeMoves s n t w ecc).c.computeSlot w) (c.execute s n t w ecc).c := by
  rw [execute_of_atCompute h]
  have hadv := goesOn_advance (c := (c.makeMoves s n t w ecc).c.computeSlot w) h.slots h.form
  dsimp only [Exe.core]
  rw [hadv]
  rfl

end

/-- What moves within the memories do outside the core counts, and leaves every core as it is. -/
theorem core_coreFx_counts {f : CoreFx} (hf : f.counts = true) (s : State) (n t pc : Nat) (ie : Bool) :
    (s.coreFx n t pc ie f).core = s.core := by
  match f, hf with
  | .freeUsed, _ => rfl
  | .bump _, _ => rfl

theorem core_each_counts {l : List CoreFx} (hl : ∀ f ∈ l, f.counts = true) (s : State) (n t pc : Nat) (ie : Bool) :
    (s.each l (fun s f => s.coreFx n t pc ie f)).core = s.core := by
  induction l generalizing s with
  | nil => rfl
  | cons f l ih => exact (ih (fun x hx => hl x (.tail _ hx)) _).trans (core_coreFx_counts (hl f (.head _)) s n t pc ie)

theorem coreAt_of_core {s u : State} (h : u.core = s.core) (n : Nat) : u.coreAt n = s.coreAt n := by simp only [State.coreAt, h]

@[simp] theorem coreAt_setCore_same (s : State) (n : Nat) (c : CoreSt) : (s.setCore n c).coreAt n = c := smGet_set_self _ _ _ _

theorem haltReq_of_goesOn {d u : CoreSt} {w : Nat} (h : GoesOn 1 (d.computeSlot w) u) : u.haltReq = d.haltReq := by
  rw [h]
  exact (issues_computeSlot d w).haltReq

section
variable {s : State} {n t w : Nat} {ecc : CoreEcc}

/-- The end of `State.coreStep`: the bundle's results in place, its effects outside the core, and a halt that was asked for. -/
def State.finishBundle (s : State) (n t pc : Nat) (ie : Bool) (e : Exe) : State :=
  let s := ((s.setCore n e.c).bump (pg .scr n) Reg.SCR_SCR_CNT_BUNDLES 1).each e.fx (fun s f => s.coreFx n t pc ie f)
  let c := s.coreAt n
  if c.haltReq && c.slots = 0 && c.state != 5 then s.coreHalt n 4 1 else s

theorem coreAt_finishBundle {e : Exe} (hfx : ∀ f ∈ e.fx, f.counts = true) (hh : e.c.haltReq = false) (pc : Nat) (ie : Bool) :
    (s.finishBundle n t pc ie e).coreAt n = e.c := by
  have he : ((((s.setCore n e.c).bump (pg .scr n) Reg.SCR_SCR_CNT_BUNDLES 1).each e.fx fun s f => s.coreFx n t pc ie f).coreAt n) = e.c :=
    (coreAt_of_core (core_each_counts hfx _ n t pc ie) n).trans (coreAt_setCore_same s n e.c)
  simp only [State.finishBundle, he, hh, Bool.false_and, Bool.false_eq_true, if_false]

theorem coreStep_eq_finishBundle (h : AtCompute (s.coreAt n) w ecc) :
    ∃ (u : State) (c : CoreSt), Retimed (s.coreAt n) c ∧
      s.coreStep n t ecc = u.finishBundle n t (s.coreAt n).pc.toNat c.ie (c.execute u n t w ecc) := by
  generalize hc : s.coreAt n = c at h
  have hs : decide (0 < c.slots) = false := by simp [h.slots]
  have settled (k : Nat) : ({ c with cyc := k } : CoreSt).settle = { c with cyc := k } := settle_of_idle h.pend h.loads
  have window (k : Nat) : ({ c with cyc := k } : CoreSt).winAccess w = none := winAccess_of_quiet h.quiet
  unfold State.coreStep
  simp only [hc, settle_of_idle h.pend h.loads, h.prog, if_neg (quiet_p h.quiet), hs, h.legal, winAccess_of_quiet h.quiet, window, settled,
    Option.isSome_none, Bool.and_false, Bool.false_and, Bool.false_eq_true, if_false]
  exact ⟨_, { c with cyc := max (c.cyc + c.stalls w true) (t - c.base) }, rfl, rfl⟩

/-- What a compute bundle does to its core: moves, the compute slot, and on to the next bundle. -/
theorem coreStep_of_atCompute (h : AtCompute (s.coreAt n) w ecc) :
    ∃ c e, Retimed (s.coreAt n) c ∧ Moved c e ∧ GoesOn 1 (e.c.computeSlot w) ((s.coreStep n t ecc).coreAt n) := by
  obtain ⟨u, c, hc, heq⟩ := coreStep_eq_finishBundle (t := t) h
  have hat := h.retimed hc
  have hm := moved_makeMoves hat u n t
  have hgo := goesOn_execute hat u n t
  have hfx : ∀ f ∈ (c.execute u n t w ecc).fx, f.counts = true := by
    rw [execute_of_atCompute hat]
    exact hm.fx
  refine ⟨c, _, hc, hm, ?_⟩
  rw [heq, coreAt_finishBundle hfx]
  · exact hgo
  · rw [haltReq_of_goesOn hgo, hm.core.haltReq, hat.haltReq]

theorem retimed_coreSeen (s : State) (n t : Nat) : Retimed (s.coreAt n) (s.coreSeen n t) := by
  have htimed : Retimed (s.coreAt n) (((s.advance t).coreAt n).timed t) := by
    rw [coreAt_of_core (State.advance_core _ _)]
    unfold CoreSt.timed
    split <;> rfl
  unfold State.coreSeen State.coreNow
  rw [coreAt_setCore_same]
  split
  · exact htimed.trans rfl
  · exact htimed

theorem atCompute_of_compute (h : s.compute n t w ecc) : AtCompute (s.coreAt n) w ecc := by
  obtain ⟨⟨-, -, -, hp, hl, hs, hh, hw, hlt⟩, hf, hleg, hq⟩ := h
  refine ⟨hp, hl, hs, hh, ?_, hf, hleg, hq⟩
  rw [hw, BitVec.toNat_ofNat, Nat.mod_eq_of_lt hlt]

/-- `d` is the core `c` after a bundle's moves, as its compute slot finds it: no register has changed. -/
structure AfterMoves (c d : CoreSt) : Prop where
  g : d.g = c.g
  acr : d.acr = c.acr
  aci : d.aci = c.aci
  idx : d.idx = c.idx
  pend : ∀ p ∈ d.pend, MoveResult c.idx p

/-- `u` is the core `c` after a compute bundle, with the results `l` in flight. -/
structure AfterBundle (c u : CoreSt) (l : List PendWrite) : Prop where
  g : u.g = c.g
  acr : u.acr = c.acr
  aci : u.aci = c.aci
  idx : u.idx = c.idx + 1
  loads : u.loads = []
  pend : u.pend = l

theorem afterMoves_of_moved {c₀ c : CoreSt} {e : Exe} (hat : AtCompute c w ecc) (hc : Retimed c₀ c) (hm : Moved c e) : AfterMoves c₀ e.c := by
  have hidx : c.idx = c₀.idx := by rw [hc]
  refine ⟨hm.core.g.trans (by rw [hc]), hm.core.acr.trans (by rw [hc]), hm.core.aci.trans (by rw [hc]), hm.core.idx.trans hidx, ?_⟩
  intro p hp
  rcases hm.core.issued p hp with h | h
  · rw [hat.pend] at h
    cases h
  · exact hidx ▸ h

theorem afterBundle_of_goesOn {c₀ d u : CoreSt} (h : AfterMoves c₀ d) (hl : d.loads = []) (hu : GoesOn 1 (d.computeSlot w) u) :
    AfterBundle c₀ u (d.computeSlot w).pend := by
  have hslot := issues_computeSlot d w
  constructor <;> rw [hu]
  · exact hslot.g.trans h.g
  · exact hslot.acr.trans h.acr
  · exact hslot.aci.trans h.aci
  · exact congrArg (· + 1) (hslot.idx.trans h.idx)
  · exact hslot.loads hl

/-- The command of an operation that the compute bundle holds: the moves, then the compute slot, and no result has landed. -/
theorem coreRun_of_compute (h : s.compute n t w ecc) {f : CoreSt → Nat → Bool} (hf : ∀ c : CoreSt, c.slots = 0 → f c w = true) :
    ∃ d, AfterMoves (s.coreAt n) d ∧
      AfterBundle (s.coreAt n) (((s.advance t).coreRun n t ecc f).coreAt n) (d.computeSlot w).pend := by
  have hat := (atCompute_of_compute h).retimed (retimed_coreSeen s n t)
  obtain ⟨⟨hopen, hirq, hdue, -⟩, -⟩ := h
  have hrun : (s.advance t).coreRun n t ecc f =
      (((s.advance t).coreNow n t).setCore n { s.coreSeen n t with state := 2 }).coreStep n t ecc := by
    unfold State.coreRun
    simp only [settle_of_idle hat.pend hat.loads, hopen, hirq, hat.prog, hf _ hat.slots, hdue]
    rfl
  have hre : Retimed (s.coreSeen n t) ((((s.advance t).coreNow n t).setCore n { s.coreSeen n t with state := 2 }).coreAt n) := by
    rw [coreAt_setCore_same]
    rfl
  have hat₂ := hat.retimed hre
  obtain ⟨c, e, hc, hm, hgo⟩ := coreStep_of_atCompute (t := t) hat₂
  have hmoves := afterMoves_of_moved (hat₂.retimed hc) (((retimed_coreSeen s n t).trans hre).trans hc) hm
  rw [hrun]
  exact ⟨e.c, hmoves, afterBundle_of_goesOn hmoves (hm.core.loads (hat₂.retimed hc).loads) hgo⟩

end

/-! The operations that a compute bundle holds (R463). -/

section
variable {c : CoreSt} {w : Nat} {op : CoreOp} (hs : c.slots = 0) (hf : bForm w = 0) (hl : bundleLegal w false = true)
include hs hf hl

theorem holdsOp_of_alu (hm : bMac w = false) (hop : aluOp (bOpc w) = some op) (hn : op ≠ .nop) : holdsOp op c w = true := by
  simp [holdsOp, bundleOps, hs, hf, hl, hm, hop]

theorem holdsOp_of_mac (hm : bMac w = true) (hop : op ∈ macOp (mOp0 w) ∨ op ∈ macOp (mOp1 w)) : holdsOp op c w = true := by
  have hmem : op ∈ macOp (mOp0 w) ++ macOp (mOp1 w) ++ moveOp true (xMove w) ++ moveOp false (yMove w) :=
    List.mem_append_left _ (List.mem_append_left _ (List.mem_append.2 hop))
  have hne := List.ne_nil_of_mem hmem
  simp only [holdsOp, List.contains_iff_mem, bundleOps, hs, Nat.lt_irrefl, decide_false, hl, hf, hm, Bool.not_true, Bool.false_eq_true, if_false,
    if_true, List.isEmpty_iff, if_neg hne]
  exact hmem

end

/-! Extraction (R452). -/

theorem roundShift_eq (v : Int) (k : Nat) : roundShift v k = (v + (if k = 0 then 0 else 2 ^ (k - 1))) / 2 ^ k := by
  unfold roundShift
  split
  · subst k
    simp
  · rfl

/-- A half limited to 32 bits, or wrapped, as a word. -/
theorem unsigned_half (sat : Bool) (v : Int) :
    unsigned 32 (half sat v) = (if sat then (if v < -2147483648 then 0x80000000 else if 2147483647 < v then 0x7FFFFFFF else (v % 2 ^ 32).toNat)
      else (v % 2 ^ 32).toNat) := by
  have hmin : (-(2 ^ 31) : Int) = -2147483648 := by norm_num
  have hmax : (2 ^ 31 - 1 : Int) = 2147483647 := by norm_num
  unfold half clampInt
  rw [hmin, hmax]
  split_ifs <;> rfl

/-- The half of an accumulator that EXT takes, from the halves `acc` of all (R452). -/
def extHalf (acc : Vector (BitVec 72) 4) (w : Nat) : Int := extract (vget acc (bits w 49 48)) (bits w 44 39) (w.testBit 45)

theorem unsigned_extHalf (acc : Vector (BitVec 72) 4) (w : Nat) :
    unsigned 32 (extHalf acc w) = unsigned 32 (half (w.testBit 45) (roundShift (vget acc (bits w 49 48)).toInt (bits w 44 39))) := by
  rw [extHalf, extract, unsigned_signed, Nat.mod_eq_of_lt (unsigned_lt 32 _)]

theorem unsigned_64_mod (v : Int) : unsigned 64 v % 2 ^ 32 = unsigned 32 v := by
  unfold unsigned
  omega

theorem iq_mod (i q : Int) : iq i q % 2 ^ 32 = unsigned 32 i := by
  rw [iq, Nat.add_mul_mod_self_right, Nat.mod_eq_of_lt (unsigned_lt 32 i)]

theorem iq_lt (i q : Int) : iq i q < 2 ^ 64 := by
  have hi := unsigned_lt 32 i
  have hq := unsigned_lt 32 q
  unfold iq
  omega

/-- The word that EXT writes (R452). -/
def extWord (c : CoreSt) (w : Nat) : Nat :=
  match bits w 47 46 with
  | 0 => unsigned 64 (extHalf c.acr w)
  | 1 => unsigned 64 (extHalf c.aci w)
  | _ => iq (extHalf c.acr w) (extHalf c.aci w)

section
variable {c : CoreSt} {w : Nat}

theorem computeSlot_ext (hm : bMac w = false) (hop : aluOp (bOpc w) = some .ext) :
    c.computeSlot w = c.post 1 (bGd w) (BitVec.ofNat 64 (extWord c w)).toNat := by
  simp only [CoreSt.computeSlot, hm, CoreSt.doAlu, hop]
  rfl

theorem extWord_lt : extWord c w < 2 ^ 64 := by
  unfold extWord
  split
  · exact unsigned_lt 64 _
  · exact unsigned_lt 64 _
  · exact iq_lt _ _

/-- The low word is the half selected, the real one where both are. -/
theorem extWord_mod : extWord c w % 2 ^ 32 = if bits w 47 46 = 1 then unsigned 32 (extHalf c.aci w) else unsigned 32 (extHalf c.acr w) := by
  unfold extWord
  split
  case h_1 h => rw [h, unsigned_64_mod, if_neg (by decide)]
  case h_2 h => rw [h, unsigned_64_mod, if_pos rfl]
  case h_3 h => rw [iq_mod, if_neg h]

/-- Where both halves are selected, the imaginary one stands above the real one. -/
theorem extWord_both (h : 2 ≤ bits w 47 46) : extWord c w = unsigned 32 (extHalf c.acr w) + unsigned 32 (extHalf c.aci w) * 2 ^ 32 := by
  unfold extWord
  split
  · omega
  · omega
  · rfl

end

/-- What a general register reads once the compute slot's result for it has landed: no move reaches it in the next bundle. -/
theorem gr_settle_of_post {c d u : CoreSt} {i v : Nat} (hi : i < 32) (hd : AfterMoves c d) (hu : AfterBundle c u (d.post 1 i v).pend) :
    u.settle.gr i = BitVec.ofNat 64 v := by
  have hidx : d.idx = c.idx := hd.idx
  refine (Reading.gr i).settle_landed (q := ⟨c.idx + 1, i, v⟩) hu.loads ?_ hu.idx.ge (fun d => gr_putReg_same d v hi) ?_
  · rw [hu.pend, mem_pend_post, hidx]
    exact .inl rfl
  · intro p hp hdue ht
    rw [hu.pend, mem_pend_post, hidx] at hp
    refine hp.resolve_right fun hold => ?_
    have hreg : p.reg = i := ht
    have hmove := hd.pend p hold
    rw [hu.idx] at hdue
    unfold MoveResult at hmove
    omega

/-- Settles O48: EXT's result is the one result that reaches its register by the next bundle, and it is built of the two halves, each
rounded, limited and cut on its own. -/
theorem extractionRoundsAndLimits : Obligations.ExtractionRoundsAndLimits := by
  rintro t w k n ecc re im s hc ⟨hm, hop⟩ rfl hre him
  have hholds (c : CoreSt) (hs : c.slots = 0) := holdsOp_of_alu hs hc.2.1 hc.2.2.1 hm hop (by decide)
  obtain ⟨d, hd, hu⟩ := coreRun_of_compute hc hholds
  refine ⟨_, rfl, ?_⟩
  rintro lo hi hlo hhi
  rw [computeSlot_ext hm hop] at hu
  have hgd : bGd w < 32 := Nat.mod_lt _ (by decide)
  rw [gr_settle_of_post hgd hd hu, BitVec.ofNat_toNat, BitVec.setWidth_eq, BitVec.toNat_ofNat, Nat.mod_eq_of_lt extWord_lt]
  rw [← roundShift_eq] at hre him
  rw [hre, ← unsigned_half, ← hd.acr, ← unsigned_extHalf] at hlo
  rw [him, ← unsigned_half, ← hd.aci, ← unsigned_extHalf] at hhi
  rw [hlo, hhi]
  exact ⟨extWord_mod, extWord_both⟩

/-! Search (R453, R468). -/

section
variable {c before : CoreSt} {ra rb n : Nat} {neg : Bool}

/-- A search that takes the value `v` and the index `i` into accumulator `n`. -/
def CoreSt.take (c : CoreSt) (n : Nat) (v i : Int) : CoreSt := (c.post 2 (100 + n) (unsigned 72 v)).post 2 (104 + n) (unsigned 72 i)

theorem mem_pend_take {v i : Int} {p : PendWrite} :
    p ∈ (c.take n v i).pend ↔ p = ⟨c.idx + 2, 104 + n, unsigned 72 i⟩ ∨ p = ⟨c.idx + 2, 100 + n, unsigned 72 v⟩ ∨ p ∈ c.pend := by
  rw [CoreSt.take, mem_pend_post, mem_pend_post]
  rfl

theorem doUnit_maxi : c.doUnit before 6 ra rb n neg =
    if before.accNow (100 + n) < iOf (before.gr ra) then c.take n (iOf (before.gr ra)) (before.gr rb).toInt else c := by
  simp only [CoreSt.doUnit, decide_eq_true_eq, CoreSt.take]

theorem doUnit_mini : c.doUnit before 7 ra rb n neg =
    if iOf (before.gr ra) < before.accNow (100 + n) then c.take n (iOf (before.gr ra)) (before.gr rb).toInt else c := by
  simp only [CoreSt.doUnit, decide_eq_true_eq, CoreSt.take]

end

/-- A search right after a bundle's moves reads the accumulator as it stands: no result in flight reaches it. -/
theorem accNow_afterMoves {c d : CoreSt} (h : AfterMoves c d) {n : Nat} (hn : n < 4) : d.accNow (100 + n) = (vget c.acr n).toInt := by
  have hnone : d.pend.filter (fun p => p.reg == 100 + n && p.due ≤ d.idx + 1) = [] := by
    rw [List.filter_eq_nil_iff]
    intro p hp
    have hmove := h.pend p hp
    unfold MoveResult at hmove
    simp only [Bool.and_eq_true, beq_iff_eq, not_and]
    omega
  simp only [CoreSt.accNow, hnone, List.foldl_nil, if_pos (by omega : 100 + n < 104), Nat.add_sub_cancel_left, h.acr, signed_toNat]

theorem macUnit_acc_lt (w k : Nat) : (macUnit w k).2.2.2 < 4 := by
  have h0 : mAcc0 w < 2 := Nat.mod_lt _ (by decide)
  have h1 : mAcc1 w < 4 := Nat.add_lt_add_left (Nat.mod_lt _ (by decide : 0 < 2)) 2
  unfold macUnit
  split <;> dsimp only <;> omega

/-- The two units never work on one accumulator: unit 0 has 0 and 1, unit 1 has 2 and 3. -/
theorem mAcc0_lt_mAcc1 (w : Nat) : mAcc0 w < mAcc1 w := by
  have h0 : mAcc0 w < 2 := Nat.mod_lt _ (by decide)
  unfold mAcc1
  omega

/-- From `d` to `e` the MAC slot has led over `x` and `y`: up to `x` and from `y` on it has sent results of the unit of another accumulator
than `m`, if any. -/
def OtherUnitAround (m : Nat) (d x y e : CoreSt) : Prop :=
  ∃ j, j < 4 ∧ j ≠ m ∧ Issues (UnitResult d.idx j) d x ∧ Issues (UnitResult d.idx j) y e

/-- The MAC slot is unit `k` with the other unit around it. -/
theorem doMac_of_unit {w : Nat} {k : Fin 2} {op a b m : Nat} (hu : macUnit w k = (op, a, b, m)) (d : CoreSt) :
    ∃ x, OtherUnitAround m d x (x.doUnit d op a b m (w.testBit 60)) (d.doMac w) := by
  have hlt := mAcc0_lt_mAcc1 w
  have h1 : mAcc1 w < 4 := macUnit_acc_lt w 1
  match k, hu with
  | 0, hu =>
    cases hu
    refine ⟨d, mAcc1 w, h1, hlt.ne', .refl d, ?_⟩
    have hidx : (d.doUnit d (mOp0 w) (mGa w) (mGb w) (mAcc0 w) (w.testBit 60)).idx = d.idx := (issues_doUnit _ _ _ _ _).idx
    rw [← hidx]
    exact issues_doUnit _ _ _ _ _
  | 1, hu =>
    cases hu
    exact ⟨_, mAcc0 w, hlt.trans h1, hlt.ne, issues_doUnit _ _ _ _ _, .refl _⟩

/-- What is due two bundles on and comes from a move, or from the unit that works on accumulator `j`, reaches no other accumulator. -/
theorem untouched_of_move_or_unit {k j m : Nat} {p : PendWrite} (h : MoveResult k p ∨ UnitResult k j p) (hdue : p.due ≤ k + 2) (hm : m < 4)
    (hj : j < 4) (hne : j ≠ m) : ¬(Reading.acr m).touched p.reg ∧ ¬(Reading.aci m).touched p.reg := by
  unfold MoveResult UnitResult at h
  simp only [Reading.acr, Reading.aci]
  omega

section
variable {c d x e u : CoreSt} {w m : Nat} {v i : Int}

/-- The core two bundles on, where the last results of a search land (R477). -/
def CoreSt.twoOn (c u : CoreSt) : CoreSt := { u with idx := c.idx + 2 }

/-- A search that takes: its two results are the only ones that reach the accumulator. -/
theorem settle_of_take (hd : AfterMoves c d) (hu : AfterBundle c u e.pend) (hm : m < 4) (ho : OtherUnitAround m d x (x.take m v i) e) :
    vget (c.twoOn u).settle.acr m = BitVec.ofNat 72 (unsigned 72 v) ∧ vget (c.twoOn u).settle.aci m = BitVec.ofNat 72 (unsigned 72 i) := by
  obtain ⟨j, hj, hne, hx, hrest⟩ := ho
  have hidx : x.idx = c.idx := hx.idx.trans hd.idx
  have hre : ⟨c.idx + 2, 100 + m, unsigned 72 v⟩ ∈ u.pend := hu.pend ▸ hrest.old _ (mem_pend_take.2 (.inr (.inl (by rw [hidx]))))
  have him : ⟨c.idx + 2, 104 + m, unsigned 72 i⟩ ∈ u.pend := hu.pend ▸ hrest.old _ (mem_pend_take.2 (.inl (by rw [hidx])))
  have hall : ∀ p ∈ u.pend, p.due ≤ c.idx + 2 →
      p = ⟨c.idx + 2, 104 + m, unsigned 72 i⟩ ∨ p = ⟨c.idx + 2, 100 + m, unsigned 72 v⟩ ∨
        ¬(Reading.acr m).touched p.reg ∧ ¬(Reading.aci m).touched p.reg := by
    intro p hp hdue
    have other (h : MoveResult c.idx p ∨ UnitResult c.idx j p) := untouched_of_move_or_unit h hdue hm hj hne
    rw [hd.idx] at hx hrest
    rcases hrest.issued p (hu.pend ▸ hp) with hp | hp
    · rw [mem_pend_take, hidx] at hp
      exact hp.imp_right (Or.imp_right fun hp => other ((hx.issued p hp).imp_left (hd.pend p)))
    · exact .inr (.inr (other (.inr hp)))
  constructor
  · refine (Reading.acr m).settle_landed (c := c.twoOn u) hu.loads hre le_rfl (fun z => acr_putReg_whole z _ hm) fun p hp hdue ht => ?_
    rcases hall p hp hdue with rfl | rfl | ⟨hno, -⟩
    · simp only [Reading.acr] at ht
      omega
    · rfl
    · exact absurd ht hno
  · refine (Reading.aci m).settle_landed (c := c.twoOn u) hu.loads him le_rfl (fun z => aci_putReg_whole z _ hm) fun p hp hdue ht => ?_
    rcases hall p hp hdue with rfl | rfl | ⟨-, hno⟩
    · rfl
    · simp only [Reading.aci] at ht
      omega
    · exact absurd ht hno

/-- A search that does not take: nothing reaches the accumulator. -/
theorem settle_of_no_take (hd : AfterMoves c d) (hu : AfterBundle c u e.pend) (hm : m < 4) (ho : OtherUnitAround m d x x e) :
    vget (c.twoOn u).settle.acr m = vget c.acr m ∧ vget (c.twoOn u).settle.aci m = vget c.aci m := by
  obtain ⟨j, hj, hne, hx, hrest⟩ := ho
  have hall : ∀ p ∈ u.pend, p.due ≤ c.idx + 2 → ¬(Reading.acr m).touched p.reg ∧ ¬(Reading.aci m).touched p.reg := by
    intro p hp hdue
    refine untouched_of_move_or_unit (k := c.idx) ?_ hdue hm hj hne
    rw [hd.idx] at hx hrest
    exact ((hx.trans hrest).issued p (hu.pend ▸ hp)).imp_left (hd.pend p)
  rw [← hu.acr, ← hu.aci]
  exact ⟨(Reading.acr m).settle_untouched (c := c.twoOn u) hu.loads fun p hp hdue => (hall p hp hdue).1,
    (Reading.aci m).settle_untouched (c := c.twoOn u) hu.loads fun p hp hdue => (hall p hp hdue).2⟩

/-- A search operation, told by when it takes (`better`), what the accumulator holds two bundles on. -/
theorem settle_of_search {k : Fin 2} {op a b : Nat} {better : Prop} [Decidable better] (hd : AfterMoves c d)
    (hu : AfterBundle c u (d.doMac w).pend) (hk : macUnit w k = (op, a, b, m))
    (hop : ∀ x : CoreSt, x.doUnit d op a b m (w.testBit 60) = if better then x.take m (iOf (c.gr a)) (c.gr b).toInt else x) :
    (vget (c.twoOn u).settle.acr m).toInt = (if better then iOf (c.gr a) else (vget c.acr m).toInt) ∧
    (vget (c.twoOn u).settle.aci m).toInt = (if better then (c.gr b).toInt else (vget c.aci m).toInt) := by
  obtain ⟨x, ho⟩ := doMac_of_unit hk d
  have hm : m < 4 := by simpa only [hk] using macUnit_acc_lt w k
  rw [hop] at ho
  by_cases hb : better
  · simp only [if_pos hb] at ho ⊢
    obtain ⟨hre, him⟩ := settle_of_take hd hu hm ho
    obtain ⟨hlo, hhi⟩ := signed_32_bounds (c.gr a).toNat
    rw [hre, him, toInt_ofNat_unsigned_72, toInt_ofNat_unsigned_72]
    · exact ⟨rfl, rfl⟩
    · exact BitVec.le_toInt _
    · exact BitVec.toInt_lt
    · exact le_trans (by decide) hlo
    · exact hhi.trans (by decide)
  · simp only [if_neg hb] at ho ⊢
    obtain ⟨hre, him⟩ := settle_of_no_take hd hu hm ho
    rw [hre, him]
    exact ⟨rfl, rfl⟩

end

theorem mem_macOp_of_macUnit {w : Nat} {k : Fin 2} {op a b m : Nat} {o : CoreOp} (hu : macUnit w k = (op, a, b, m)) (ho : o ∈ macOp op) :
    o ∈ macOp (mOp0 w) ∨ o ∈ macOp (mOp1 w) := by
  match k, hu with
  | 0, hu =>
    cases hu
    exact .inl ho
  | 1, hu =>
    cases hu
    exact .inr ho

section
variable {s : State} {t n w : Nat} {ecc : CoreEcc} {k : Fin 2} {op a b m : Nat}

/-- A bundle whose MAC unit `k` holds the operation `o`, executed. -/
theorem coreRun_of_macUnit (h : s.compute n t w ecc) (hmac : bMac w = true) (hk : macUnit w k = (op, a, b, m)) {o : CoreOp} (ho : o ∈ macOp op) :
    ∃ d, AfterMoves (s.coreAt n) d ∧
      AfterBundle (s.coreAt n) (((s.advance t).coreRun n t ecc (holdsOp o)).coreAt n) (d.doMac w).pend := by
  obtain ⟨d, hd, hu⟩ := coreRun_of_compute h fun c hs => holdsOp_of_mac hs h.2.1 h.2.2.1 hmac (mem_macOp_of_macUnit hk ho)
  rw [CoreSt.computeSlot, if_pos hmac] at hu
  exact ⟨d, hd, hu⟩

end

/-- Settles O49: the unit's two results are the only ones that reach its accumulator, since moves land later or elsewhere and the other unit
never works on the same one; they are sent only where the value is strictly beyond. -/
theorem searchKeepsTheEarlierIndex : Obligations.SearchKeepsTheEarlierIndex := by
  refine ⟨?_, ?_⟩
  · rintro t w n ecc k a b m s hc ⟨hmac, hk⟩ -
    have hm : m < 4 := by simpa only [hk] using macUnit_acc_lt w k
    obtain ⟨d, hd, hu⟩ := coreRun_of_macUnit (o := .maxi) hc hmac hk (by decide)
    refine ⟨_, rfl, settle_of_search hd hu hk fun x => ?_⟩
    rw [doUnit_maxi, accNow_afterMoves hd hm]
    simp only [CoreSt.gr, hd.g]
    rfl
  · rintro t w n ecc k a b m s hc ⟨hmac, hk⟩ -
    have hm : m < 4 := by simpa only [hk] using macUnit_acc_lt w k
    obtain ⟨d, hd, hu⟩ := coreRun_of_macUnit (o := .mini) hc hmac hk (by decide)
    refine ⟨_, rfl, settle_of_search hd hu hk fun x => ?_⟩
    rw [doUnit_mini, accNow_afterMoves hd hm]
    simp only [CoreSt.gr, hd.g]
    rfl

end Sys2Proof.Machine
end

section
/-!
PROOF. A long immediate (R475): what each register reads once a result has landed in it (R464, R465), how a bundle that makes no move runs,
what an illegal bundle leaves of its core (R455, R476), and the statement that a long immediate reaches the register that it names.
-/
namespace Sys2Proof.Machine

/-! What a register reads once a result has landed in it, kind by kind (R464, R465). -/

theorem reg7Legal_iff {d : Nat} : reg7Legal d = true ↔ d < 59 ∨ (64 ≤ d ∧ d < 88) := by
  simp only [reg7Legal, Bool.or_eq_true, Bool.and_eq_true, decide_eq_true_eq]
  omega

section
variable (c : CoreSt) {d v : Nat}

theorem getReg_putReg_of_word (h : d < 40) (hv : v < 2 ^ 64) : (c.putReg d v).getReg d = v := by
  obtain h | h | h : d < 32 ∨ (32 ≤ d ∧ d < 36) ∨ (36 ≤ d ∧ d < 40) := by omega
  · simp only [CoreSt.getReg, if_pos h, gr_putReg_same c v h, BitVec.toNat_ofNat, Nat.mod_eq_of_lt hv]
  all_goals
    simp (disch := omega) only [CoreSt.getReg, CoreSt.putReg, if_pos, if_neg, vget_vset_same, BitVec.toNat_ofNat]
    omega

/-- The high parts of both halves of an accumulator, eight bits each. -/
theorem getReg_putReg_of_high (h : 40 ≤ d ∧ d < 44) : (c.putReg d v).getReg d = v % 2 ^ 16 := by
  simp (disch := omega) only [CoreSt.getReg, CoreSt.putReg, if_pos, if_neg, vget_vset_same, BitVec.toNat_ofNat]
  omega

theorem getReg_putReg_of_loopCount (h : 44 ≤ d ∧ d < 48) : (c.putReg d v).getReg d = v % 2 ^ 32 := by
  simp (disch := omega) only [CoreSt.getReg, CoreSt.putReg, if_pos, if_neg, vget_vset_same, BitVec.toNat_ofNat]

theorem getReg_putReg_of_loopBound (h : 48 ≤ d ∧ d < 56) : (c.putReg d v).getReg d = v % 2 ^ 13 := by
  obtain h | h : (48 ≤ d ∧ d < 52) ∨ (52 ≤ d ∧ d < 56) := by omega
  all_goals simp (disch := omega) only [CoreSt.getReg, CoreSt.putReg, if_pos, if_neg, vget_vset_same, BitVec.toNat_ofNat]

theorem getReg_putReg_st : (c.putReg 56 v).getReg 56 = setPart (v % 2 ^ 13) 0 3 (min 4 (v % 8)) := by
  have hlt : setPart (v % 2 ^ 13) 0 3 (min 4 (v % 2 ^ 13 % 8)) < 2 ^ 16 := by
    unfold setPart part
    omega
  have hlsp : v % 2 ^ 13 % 8 = v % 8 := Nat.mod_mod_of_dvd v (by decide)
  exact (Nat.mod_eq_of_lt hlt).trans (by rw [hlsp])

theorem getReg_putReg_ipc : (c.putReg 57 v).getReg 57 = v % 2 ^ 13 := rfl

theorem getReg_putReg_istat : (c.putReg 58 v).getReg 58 = v % 2 ^ 16 := rfl

theorem getReg_putReg_of_modifier (h : 72 ≤ d ∧ d < 80) : (c.putReg d v).getReg d = unsigned 64 (signed 18 v) := by
  simp (disch := omega) only [CoreSt.getReg, CoreSt.putReg, if_pos, if_neg, vget_vset_same, signed_eq_toInt]

theorem getReg_putReg_of_address (h : (64 ≤ d ∧ d < 72) ∨ (80 ≤ d ∧ d < 88)) : (c.putReg d v).getReg d = v % 2 ^ 18 := by
  obtain h | h := h
  all_goals simp (disch := omega) only [CoreSt.getReg, CoreSt.putReg, if_pos, if_neg, vget_vset_same, BitVec.toNat_ofNat]

/-- What register number `d` reads after `v` has been written to it: `v` cut as the register is. -/
def cutAsRegister (d v : Nat) : Nat :=
  if d < 40 then v
  else if d < 44 ∨ d = 58 then v % 2 ^ 16
  else if d < 48 then v % 2 ^ 32
  else if d < 56 ∨ d = 57 then v % 2 ^ 13
  else if d = 56 then setPart (v % 2 ^ 13) 0 3 (min 4 (v % 8))
  else if 72 ≤ d ∧ d < 80 then unsigned 64 (signed 18 v)
  else v % 2 ^ 18

theorem getReg_putReg_same (hd : reg7Legal d = true) (hv : v < 2 ^ 64) : (c.putReg d v).getReg d = cutAsRegister d v := by
  rw [reg7Legal_iff] at hd
  unfold cutAsRegister
  split_ifs with hword h16 hcount h13 hst hmod
  · exact getReg_putReg_of_word c hword hv
  · obtain h | rfl := h16
    · exact getReg_putReg_of_high c (by omega)
    · exact getReg_putReg_istat c
  · exact getReg_putReg_of_loopCount c (by omega)
  · obtain h | rfl := h13
    · exact getReg_putReg_of_loopBound c (by omega)
    · exact getReg_putReg_ipc c
  · subst hst
    exact getReg_putReg_st c
  · exact getReg_putReg_of_modifier c hmod
  · exact getReg_putReg_of_address c (by omega)

end

/-! Draining: every result in flight lands (R449). -/

section
variable {c : CoreSt}

theorem drainLoads_of_none (h : c.loads = []) :
    c.loads.foldl (fun c x => if x.dead then c else c.putReg x.reg x.val)
      { c with loads := [], cyc := (c.loads.map WinLoad.due).foldl max c.cyc } = c := by
  rw [h, List.map_nil, List.foldl_nil, List.foldl_nil, ← h]

theorem drain_of_no_loads (h : c.loads = []) : c.drain = ({ c with pend := [] } : CoreSt).landAll c.pend := by
  have hd := (loads_landAll { c with pend := [] } c.pend).trans h
  exact drainLoads_of_none hd

theorem drain_of_idle (hp : c.pend = []) (hl : c.loads = []) : c.drain = c := by
  rw [drain_of_no_loads hl, hp]
  exact congrArg (fun l => ({ c with pend := l } : CoreSt)) hp.symm

end

/-! What raising events does to a core: it may queue an event there, and no more (R448, R538). -/

/-- From `c` to `d` events may have entered the core's queue, and nothing else has changed. -/
def Queued (c d : CoreSt) : Prop := d = { c with evq := d.evq, irqPend := d.irqPend }

theorem Queued.refl (c : CoreSt) : Queued c c := rfl

/-- From `s` to `u` no core has changed but in its queue of events. -/
def CoresQueued (s u : State) : Prop := ∀ n, Queued (s.coreAt n) (u.coreAt n)

namespace CoresQueued
variable {s t u : State}

theorem of_core (h : u.core = s.core) : CoresQueued s u := fun n => by
  rw [coreAt_of_core h]
  exact .refl _

theorem trans (h : CoresQueued s t) (k : CoresQueued t u) : CoresQueued s u := fun n => by
  have hst := h n
  have htu := k n
  unfold Queued at *
  rw [htu, hst]

theorem foldl {f : State → Nat → State} (hf : ∀ s i, CoresQueued s (f s i)) (l : List Nat) (s : State) : CoresQueued s (l.foldl f s) :=
  List.foldlRecOn l f (motive := CoresQueued s) (.of_core rfl) fun _ h i _ => h.trans (hf _ i)

end CoresQueued

section
variable (s : State) (id : Nat)

theorem core_when {f : State → State} (hf : ∀ s, (f s).core = s.core) (b : Bool) : (s.when b f).core = s.core := by
  unfold State.when
  split
  · exact hf s
  · rfl

theorem core_logFault (e : FlogEntry) : (s.logFault e).core = s.core := rfl

theorem core_wrs (p : Nat) (l : List (Fld × Nat)) : (s.wrs p l).core = s.core :=
  wrs_keeps (P := fun u => u.core = s.core) (fun _ _ _ h => h) l rfl

theorem core_severity : (s.severity id).core = s.core := by
  unfold State.severity
  split
  · rfl
  · refine (core_when _ (fun s => s.emit_core _) _).trans ((core_when _ (fun s => core_logFault s _) _).trans ?_)
    split <;> rfl

theorem coreAt_setCore_ne {m n : Nat} (h : m ≠ n) (c : CoreSt) : (s.setCore n c).coreAt m = s.coreAt m := smGet_set_ne (α := CoreSt) h _ _ _ _

theorem core_msixSend (v : Nat) : (s.msixSend v).core = s.core := by
  unfold State.msixSend
  split <;> rfl

theorem coresQueued_evqPush (n : Nat) : CoresQueued s (s.evqPush n id) := by
  unfold State.evqPush
  dsimp only
  split
  · intro m
    obtain rfl | hm := eq_or_ne m n
    · rw [coreAt_setCore_same]
      rfl
    · rw [coreAt_setCore_ne s hm]
      exact .refl _
  · exact .of_core rfl

theorem coresQueued_deliver : CoresQueued s (s.deliver id).1 := by
  unfold State.deliver
  dsimp only
  split
  · exact .of_core rfl
  · split
    · split
      · exact .of_core (core_msixSend s _)
      · exact .of_core rfl
    · split
      · exact coresQueued_evqPush s id _
      · exact .of_core rfl
    · exact .of_core rfl
    · split <;> exact .of_core rfl
    · exact .of_core rfl

theorem coresQueued_transit (n : Nat) : CoresQueued s (State.transit n s id) := by
  induction n generalizing s id with
  | zero => exact .of_core rfl
  | succ n ih =>
    have h : CoresQueued s ((s.severity id).setPend id) := .of_core (core_severity s id)
    unfold State.transit
    dsimp only
    split
    · exact (h.trans (coresQueued_deliver _ id)).trans (.foldl (fun s e => ih s e) _ _)
    · exact h

theorem coresQueued_judge : CoresQueued s (s.judge id) := by
  unfold State.judge State.failProbation
  split
  · split
    · refine .trans ?_ (coresQueued_transit _ _ 4)
      exact .of_core (core_wrs s _ _)
    · exact .of_core rfl
  · exact .of_core rfl

theorem coresQueued_setRaw (b : Bool) : CoresQueued s (s.setRaw id b) := by
  have h : CoresQueued s (s.wr (evPage id) Reg.EV_RAW (putBit (s.rd (evPage id) Reg.EV_RAW) (evBit id) b)) := .of_core rfl
  unfold State.setRaw
  dsimp only
  split
  · exact (h.trans (coresQueued_transit _ id 4)).trans (coresQueued_judge _ id)
  · exact h

end

/-! Halts and exceptions (R455, R462). -/

section
variable (s : State) (n : Nat)

theorem queued_coreState (v : Nat) : Queued { s.coreAt n with state := v } ((s.coreState n v).coreAt n) := by
  have h := coresQueued_setRaw (s.setCore n { s.coreAt n with state := v }) (evId .scr n 0) (v == 5) n
  rwa [coreAt_setCore_same] at h

theorem queued_coreHalt (v cause : Nat) :
    Queued { (s.coreAt n).drain with haltCause := cause, haltReq := false, state := v } ((s.coreHalt n v cause).coreAt n) := by
  have h := queued_coreState ((s.setCore n { (s.coreAt n).drain with haltCause := cause, haltReq := false }).wr (pg .scr n)
    Reg.SCR_SCR_CTL_HALT 0) n v
  rwa [coreAt_of_core (State.wr_core _ _ _ _), coreAt_setCore_same] at h

/-- Core `c` with the exception `cause` at bundle `pc` noted in ECAUSE and pending. -/
def CoreSt.noteExc (c : CoreSt) (cause pc : Nat) : CoreSt := { c with ecause := BitVec.ofNat 64 (cause + pc * 2 ^ 16), irqPend := c.irqPend ||| 1 }

/-- An exception is noted in the core and logged in its page; with interrupts off it then halts the core with cause DOUBLE. -/
theorem coreExc_noted (cause pc : Nat) (ie : Bool) : ∃ u : State, u.coreAt n = (s.coreAt n).noteExc cause pc ∧
    s.coreExc n cause pc ie = if ie || (u.coreAt n).state == 5 then u else u.coreHalt n 5 2 := by
  refine ⟨_, ?_, rfl⟩
  -- Whether or not the page's log is free, it stands in the registers, not in the core.
  refine (coreAt_of_core ?_ n).trans (coreAt_setCore_same s n _)
  change (ite _ _ _ : State).core = _
  split
  · rfl
  · exact core_wrs _ _ _

variable {s n} {cause pc : Nat}

theorem coreAt_coreExc_on : (s.coreExc n cause pc true).coreAt n = (s.coreAt n).noteExc cause pc := by
  obtain ⟨u, hu, h⟩ := coreExc_noted s n cause pc true
  rw [h, Bool.true_or, if_pos rfl, hu]

theorem queued_coreExc_off (h5 : (s.coreAt n).state ≠ 5) (hp : (s.coreAt n).pend = []) (hl : (s.coreAt n).loads = []) :
    Queued { (s.coreAt n).noteExc cause pc with haltCause := 2, haltReq := false, state := 5 }
      ((s.coreExc n cause pc false).coreAt n) := by
  obtain ⟨u, hu, h⟩ := coreExc_noted s n cause pc false
  have hstate : ((s.coreAt n).noteExc cause pc).state ≠ 5 := h5
  have hidle : ((s.coreAt n).noteExc cause pc).drain = (s.coreAt n).noteExc cause pc := drain_of_idle hp hl
  have hhalt := queued_coreHalt u n 5 2
  rw [hu, hidle] at hhalt
  rw [h, Bool.false_or, hu, if_neg (by simpa using hstate)]
  exact hhalt

/-- Core `c` has taken the exception `cause` at bundle `pc`, has halted by it where its interrupts were off, and has no halt
requested. -/
structure TookExc (cause pc : Nat) (ie : Bool) (c : CoreSt) : Prop where
  ecause : c.ecause = BitVec.ofNat 64 (cause + pc * 2 ^ 16)
  halted : ie = false → c.state = 5 ∧ c.haltCause = 2
  haltReq : c.haltReq = false

theorem tookExc_coreExc (h5 : (s.coreAt n).state ≠ 5) (hp : (s.coreAt n).pend = []) (hl : (s.coreAt n).loads = [])
    (hh : (s.coreAt n).haltReq = false) (ie : Bool) : TookExc cause pc ie ((s.coreExc n cause pc ie).coreAt n) := by
  cases ie with
  | true =>
    rw [coreAt_coreExc_on]
    exact ⟨rfl, nofun, hh⟩
  | false =>
    rw [queued_coreExc_off h5 hp hl]
    exact ⟨rfl, fun _ => ⟨rfl, rfl⟩, rfl⟩

end

/-! How a bundle that makes no move runs. -/

/-- The core's next bundle is `w`, which is no compute bundle, and which neither a result in flight nor a delay slot nor a halt concerns. -/
structure AtMoveless (c : CoreSt) (w : Nat) : Prop where
  pend : c.pend = []
  loads : c.loads = []
  slots : c.slots = 0
  haltReq : c.haltReq = false
  prog : (c.prog c.pc.toNat).toNat = w
  form : bForm w ≠ 0

theorem AtMoveless.retimed {c d : CoreSt} {w : Nat} (h : AtMoveless c w) (hd : Retimed c d) : AtMoveless d w := by
  rw [hd]
  exact ⟨h.pend, h.loads, h.slots, h.haltReq, h.prog, h.form⟩

theorem winAccess_of_form {w : Nat} (hf : bForm w ≠ 0) (c : CoreSt) : c.winAccess w = none := by
  simp [CoreSt.winAccess, hf]

section
variable {s : State} {n t w : Nat} {ecc : CoreEcc}

theorem atMoveless_of_atBundle (h : s.atBundle n t w) (hf : bForm w ≠ 0) : AtMoveless (s.coreAt n) w := by
  obtain ⟨-, -, -, hp, hl, hs, hh, hw, hlt⟩ := h
  refine ⟨hp, hl, hs, hh, ?_, hf⟩
  rw [hw, BitVec.toNat_ofNat, Nat.mod_eq_of_lt hlt]

theorem coreStep_of_atMoveless (h : AtMoveless (s.coreAt n) w) (hecc : ecc.p.val ≠ 2) :
    ∃ (u : State) (k : Nat), s.coreStep n t ecc =
      u.finishBundle n t (s.coreAt n).pc.toNat (s.coreAt n).ie (({ s.coreAt n with cyc := k } : CoreSt).execute u n t w ecc) := by
  generalize hc : s.coreAt n = c at h
  have settled (k : Nat) : ({ c with cyc := k } : CoreSt).settle = { c with cyc := k } := settle_of_idle h.pend h.loads
  unfold State.coreStep
  simp only [hc, settle_of_idle h.pend h.loads, h.prog, if_neg hecc, winAccess_of_form h.form, settled, Option.isSome_none, Bool.and_false,
    Bool.false_and, Bool.false_eq_true, if_false]
  exact ⟨_, max (c.cyc + c.stalls w (bundleLegal w (0 < c.slots))) (t - c.base), rfl⟩

/-- The command of an operation that such a bundle holds runs the bundle. -/
theorem coreRun_eq_coreStep (h : s.atBundle n t w) (hform : bForm w ≠ 0) {f : CoreSt → Nat → Bool}
    (hf : ∀ c : CoreSt, c.slots = 0 → f c w = true) :
    ∃ u : State, Retimed (s.coreAt n) (u.coreAt n) ∧ (u.coreAt n).state = 2 ∧
      (s.advance t).coreRun n t ecc f = u.coreStep n t ecc := by
  have hseen := retimed_coreSeen s n t
  have hat := (atMoveless_of_atBundle h hform).retimed hseen
  obtain ⟨hopen, hirq, hdue, -⟩ := h
  refine ⟨((s.advance t).coreNow n t).setCore n { s.coreSeen n t with state := 2 }, ?_, ?_, ?_⟩
  · rw [coreAt_setCore_same]
    exact hseen.trans rfl
  · rw [coreAt_setCore_same]
  · unfold State.coreRun
    simp only [settle_of_idle hat.pend hat.loads, hopen, hirq, hat.prog, hf _ hat.slots, hdue]
    rfl

theorem coreRun_of_atBundle (h : s.atBundle n t w) (hform : bForm w ≠ 0) (hecc : ecc.p ≠ 2) {f : CoreSt → Nat → Bool}
    (hf : ∀ c : CoreSt, c.slots = 0 → f c w = true) :
    ∃ (u : State) (c : CoreSt), Retimed (s.coreAt n) c ∧ c.state = 2 ∧
      (s.advance t).coreRun n t ecc f = u.finishBundle n t (s.coreAt n).pc.toNat (s.coreAt n).ie (c.execute u n t w ecc) := by
  obtain ⟨v, hv, hstate, hrun⟩ := coreRun_eq_coreStep (ecc := ecc) h hform hf
  obtain ⟨u, k, hstep⟩ := coreStep_of_atMoveless (t := t) ((atMoveless_of_atBundle h hform).retimed hv) (fun e => hecc (Fin.ext e))
  have hpc : (v.coreAt n).pc = (s.coreAt n).pc := by rw [hv]
  have hie : (v.coreAt n).ie = (s.coreAt n).ie := by rw [hv]; rfl
  refine ⟨u, { v.coreAt n with cyc := k }, hv.trans rfl, hstate, ?_⟩
  rw [hrun, hstep, hpc, hie]

end

theorem GoesOn.tick {c d : CoreSt} (h : GoesOn 0 c d) : GoesOn 1 c { d with idx := d.idx + 1, cyc := d.cyc + 1 } := by
  rw [h]
  rfl

theorem goesOn_advance_of_no_slot {c was : CoreSt} {w : Nat} (hs : was.slots = 0) : GoesOn 0 c (c.advance was w) := by
  simp only [CoreSt.advance, hs, Nat.lt_irrefl, decide_false, Bool.false_and, Bool.or_false, decide_eq_true_eq, if_false]
  split
  · rfl
  · exact goesOn_loopEnd 4 c

/-! The long-immediate bundle (R475, R476). -/

section
variable {w : Nat}

theorem bundleLegal_long (hf : bForm w = 2) (hz : bits w 54 48 = 0) : bundleLegal w false = reg7Legal (bits w 61 55) := by
  simp [bundleLegal, hf, hz]

theorem holdsOp_li (hf : bForm w = 2) (hl : bundleLegal w false = true) {c : CoreSt} (hs : c.slots = 0) : holdsOp .li c w = true := by
  simp [holdsOp, bundleOps, hs, hf, hl]

theorem holdsOp_illegal (hl : bundleLegal w false = false) {c : CoreSt} (hs : c.slots = 0) : holdsOp .illegal c w = true := by
  simp [holdsOp, bundleOps, hs, hl]

/-- What the long immediate `w` writes to its register. -/
def immediate (w : Nat) : Nat := unsigned 64 (signed 48 (part w 0 48))

/-- The result of the long immediate `w` on its way to the register that DEST names (R475, R477). -/
def CoreSt.sendImmediate (c : CoreSt) (w : Nat) : CoreSt := c.post (if bits w 61 55 < 32 then 1 else 3) (bits w 61 55) (immediate w)

section
variable {c : CoreSt} (s : State) (n t : Nat) (ecc : CoreEcc)

/-- A long immediate sends its result and goes on, with no effect outside the core. -/
theorem execute_li (hs : c.slots = 0) (hf : bForm w = 2) (hl : bundleLegal w false = true) :
    (c.execute s n t w ecc).fx = [] ∧ GoesOn 1 (c.sendImmediate w) (c.execute s n t w ecc).c := by
  have hslot : decide (0 < c.slots) = false := by simp [hs]
  have heq : c.execute s n t w ecc =
      ⟨{ (c.sendImmediate w).advance c w with
        idx := ((c.sendImmediate w).advance c w).idx + 1, cyc := ((c.sendImmediate w).advance c w).cyc + 1 }, []⟩ := by
    simp only [CoreSt.execute, hslot, hl, hf, Bool.not_true]
    rfl
  rw [heq]
  exact ⟨rfl, (goesOn_advance_of_no_slot hs).tick⟩

/-- An illegal bundle has its exception as its only effect. -/
theorem execute_illegal (hs : c.slots = 0) (hl : bundleLegal w false = false) :
    (c.execute s n t w ecc).fx = [.exc 1] ∧ GoesOn 1 c (c.execute s n t w ecc).c := by
  have hslot : decide (0 < c.slots) = false := by simp [hs]
  have heq : c.execute s n t w ecc =
      ⟨{ c.advance c w with idx := (c.advance c w).idx + 1, cyc := (c.advance c w).cyc + 1 }, [.exc 1]⟩ := by
    simp only [CoreSt.execute, hslot, hl, Bool.not_false, Bool.and_false, Bool.false_and]
    rfl
  rw [heq]
  exact ⟨rfl, (goesOn_advance_of_no_slot hs).tick⟩

end

end

section
variable {s : State} {n t w : Nat} {ecc : CoreEcc}

/-- Once its result has landed, the register of a long immediate reads as what has been written to it. -/
theorem getReg_drain_of_goesOn {c u : CoreSt} {k lat d v : Nat} (hp : c.pend = []) (hl : c.loads = []) (hd : reg7Legal d = true) (hv : v < 2 ^ 64)
    (hu : GoesOn k (c.post lat d v) u) : u.drain.getReg d = cutAsRegister d v := by
  have hpend : u.pend = [⟨c.idx + lat, d, v⟩] := by
    rw [hu]
    simp only [CoreSt.post, hp, insertPend]
  have hloads : u.loads = [] := by
    rw [hu]
    simp only [CoreSt.post, hl, List.map_nil]
  rw [drain_of_no_loads hloads, hpend]
  exact getReg_putReg_same _ hd hv

theorem getReg_drain_of_li (h : s.atBundle n t w) (hecc : ecc.p ≠ 2) (hf : bForm w = 2) (hz : bits w 54 48 = 0)
    (hd : reg7Legal (bits w 61 55) = true) :
    (((s.advance t).coreRun n t ecc (holdsOp .li)).coreAt n).drain.getReg (bits w 61 55) = cutAsRegister (bits w 61 55) (immediate w) := by
  have hl := (bundleLegal_long hf hz).trans hd
  obtain ⟨u, c, hc, -, hrun⟩ := coreRun_of_atBundle h (by omega) hecc fun c => holdsOp_li hf hl (c := c)
  have hat := (atMoveless_of_atBundle h (by omega)).retimed hc
  obtain ⟨hfx, hgo⟩ := execute_li u n t ecc hat.slots hf hl
  have hhalt : (c.execute u n t w ecc).c.haltReq = false := by
    rw [hgo]
    exact hat.haltReq
  rw [hrun, coreAt_finishBundle (by simp [hfx]) hhalt]
  exact getReg_drain_of_goesOn hat.pend hat.loads hd (unsigned_lt 64 _) hgo

theorem tookExc_finishBundle {e : Exe} {cause : Nat} (hfx : e.fx = [.exc cause]) (h5 : e.c.state ≠ 5) (hp : e.c.pend = []) (hl : e.c.loads = [])
    (hh : e.c.haltReq = false) (pc : Nat) (ie : Bool) : TookExc cause pc ie ((s.finishBundle n t pc ie e).coreAt n) := by
  have hat : ((s.setCore n e.c).bump (pg .scr n) Reg.SCR_SCR_CNT_BUNDLES 1).coreAt n = e.c := coreAt_setCore_same s n e.c
  rw [← hat] at h5 hp hl hh
  have htook := tookExc_coreExc (cause := cause) (pc := pc) h5 hp hl hh ie
  simp only [State.finishBundle, hfx, each_cons, each_nil, State.coreFx, htook.haltReq, Bool.false_and, Bool.false_eq_true, if_false]
  exact htook

theorem tookExc_of_illegal (h : s.atBundle n t w) (hecc : ecc.p ≠ 2) (hform : bForm w ≠ 0) (hl : bundleLegal w false = false) :
    TookExc 1 (s.coreAt n).pc.toNat (s.coreAt n).ie (((s.advance t).coreRun n t ecc (holdsOp .illegal)).coreAt n) := by
  obtain ⟨u, c, hc, hstate, hrun⟩ := coreRun_of_atBundle h hform hecc fun c => holdsOp_illegal hl (c := c)
  have hat := (atMoveless_of_atBundle h hform).retimed hc
  obtain ⟨hfx, hgo⟩ := execute_illegal u n t ecc hat.slots hl
  rw [hrun]
  apply tookExc_finishBundle hfx <;> rw [hgo]
  · exact hstate.trans_ne (by decide)
  · exact hat.pend
  · exact hat.loads
  · exact hat.haltReq

end

/-- Settles O47: the immediate is the one result in flight once the bundle has run, and a register cuts what lands in it; an illegal DEST
makes the bundle illegal, whose exception halts a core with interrupts off. -/
theorem longImmediateWritesItsRegister : Obligations.LongImmediateWritesItsRegister := by
  refine ⟨?_, ?_⟩
  · rintro t w d v n ecc s h hecc ⟨hf, hz⟩ ⟨rfl, rfl⟩ hd
    exact ⟨_, rfl, getReg_drain_of_li h hecc hf hz (reg7Legal_iff.2 hd)⟩
  · rintro t w d n ecc s h hecc ⟨hf, hz⟩ rfl hd
    have hno : reg7Legal (bits w 61 55) = false := by
      rw [Bool.eq_false_iff, Ne, reg7Legal_iff]
      omega
    have htook := tookExc_of_illegal h hecc (by omega) ((bundleLegal_long hf hz).trans hno)
    exact ⟨_, rfl, htook.ecause, htook.halted⟩

end Sys2Proof.Machine
end

section
/-!
PROOF. A BAR0 write of the converter's controls while the firmware runs a sequence (R511): it comes down to a count and an event. An event
whose level is 1 already makes no transition (R45, R46), and from a state that holds HOST_REFUSED's level at 1 the statement fails.
-/
namespace Sys2Proof.Machine

section
variable {s : State}

/-! A host access of an open page (R35, R109). -/

theorem rd_advance (t p : Nat) (f : Fld) : (s.advance t).rd p f = s.rd p f := by
  simp only [State.rd, State.advance_rf]

theorem hostOpen_advance (t : Nat) {p : Nat} (h : s.hostOpen p) : (s.advance t).hostOpen p := by
  simpa only [State.hostOpen, State.bar0Open, State.startedUp, State.gated, State.on, rd_advance, State.cutOff, State.advance_rel] using h

theorem bar0Access_write_of_hostOpen {off len data : Nat} {at_ : Int} (t : Nat) (h : s.hostOpen (off / 4096)) :
    s.bar0Access ⟨true, off, len, data, at_⟩ t = s.bar0Write off len data t := by
  obtain ⟨hopen, hcut⟩ := h
  simp [State.bar0Access, hopen, hcut]

theorem bar0Write_of_register {p off : Nat} (hp : mapped p = true) (hoff : off < 4096) (halign : off % 8 = 0) (hthere : regThere p off = true)
    (data t : Nat) : s.bar0Write (p * 4096 + off) 8 data t = s.regWrite p off (data % 2 ^ 64) t := by
  have hdiv : (p * 4096 + off) / 4096 = p := by omega
  have hmod : (p * 4096 + off) % 4096 = off := by omega
  have hword : (p * 4096 + off) % 8 = 0 := by omega
  simp [State.bar0Write, hdiv, hmod, hword, hp, hthere]

theorem regWrite_hka {off : Nat} (h : 0x100 ≤ off) (w t : Nat) : s.regWrite (pg .hka 0) off w t = s.hkaWrite off w :=
  if_neg (Nat.not_lt.2 h)

/-! The refused write (R511). -/

/-- The offsets of CONV_CFG, CONV_CTL and CAL_CTL in the page. -/
def hkControls : List Nat := [0x100, 0x108, 0x128]

theorem bar0Write_hkControl {off : Nat} (ho : off ∈ hkControls) (data t : Nat) :
    s.bar0Write (pg .hka 0 * 4096 + off) 8 data t = s.hkaWrite off (data % 2 ^ 64) := by
  have hplace : ∀ off ∈ hkControls, 0x100 ≤ off ∧ off < 4096 ∧ off % 8 = 0 ∧ regThere (pg .hka 0) off = true := by decide
  obtain ⟨hlo, hhi, halign, hthere⟩ := hplace off ho
  rw [bar0Write_of_register (by decide) hhi halign hthere, regWrite_hka hlo]

theorem hkHost_of_sequence (h : s.on (pg .hka 0) Reg.HKA_HKA_STAT_SEQ_RUN = true) (f : State → State) :
    s.hkHost f = (s.bumpSat (pg .hka 0) Reg.HKA_HKA_STAT_HOST_REFUSED 1).event .hka 0 5 :=
  if_pos h

theorem hkaWrite_of_sequence (h : s.on (pg .hka 0) Reg.HKA_HKA_STAT_SEQ_RUN = true) {off : Nat} (ho : off ∈ hkControls) (w : Nat) :
    s.hkaWrite off w = (s.bumpSat (pg .hka 0) Reg.HKA_HKA_STAT_HOST_REFUSED 1).event .hka 0 5 := by
  simp only [hkControls, List.mem_cons, List.not_mem_nil, or_false] at ho
  rcases ho with rfl | rfl | rfl <;> simp [State.hkaWrite, hkHost_of_sequence h]

theorem exec_registerWrite_of_sequence {off : BitVec 24} {o : Nat} (t data : Nat) (hs : s.hostOpen (pg .hka 0))
    (hrun : s.on (pg .hka 0) Reg.HKA_HKA_STAT_SEQ_RUN = true) (ho : o ∈ hkControls) (hoff : off.toNat = pg .hka 0 * 4096 + o) :
    exec (.registerWrite t off 8 data) s =
      .next (((s.advance t).bumpSat (pg .hka 0) Reg.HKA_HKA_STAT_HOST_REFUSED 1).event .hka 0 5) := by
  have hpage : off.toNat / 4096 = pg .hka 0 := by
    have hlt : ∀ o ∈ hkControls, o < 4096 := by decide
    have := hlt o ho
    omega
  have hrun' : (s.advance t).on (pg .hka 0) Reg.HKA_HKA_STAT_SEQ_RUN = true := by rw [State.on, rd_advance]; exact hrun
  change Host.Outcome.next ((s.advance t).bar0Access ⟨true, off.toNat, 8, data, 0⟩ t) = _
  rw [bar0Access_write_of_hostOpen t (hpage ▸ hostOpen_advance t hs), hoff, bar0Write_hkControl ho, hkaWrite_of_sequence hrun' ho]

/-! The event of the refusal, where its level is 1 (R45, R46). -/

theorem event_of_level {b : Blk} {i k : Nat} (h : (s.rd (evPage (evId b i k)) Reg.EV_RAW).testBit (evBit (evId b i k)) = true) :
    s.event b i k = s :=
  if_pos h

/-- A refused write leaves HOST_REFUSED's pending bit as it was where the event's level is 1. -/
theorem evPend_of_refused_at_level {off : BitVec 24} {o t data : Nat} {u : State} (hs : s.hostOpen (pg .hka 0))
    (hrun : s.on (pg .hka 0) Reg.HKA_HKA_STAT_SEQ_RUN = true) (hraw : (s.rd (pg .hka 0) Reg.EV_RAW).testBit 5 = true)
    (ho : o ∈ hkControls) (hoff : off.toNat = pg .hka 0 * 4096 + o) (hu : exec (.registerWrite t off 8 data) s = .next u) :
    u.rd (pg .hka 0) Reg.EV_PEND = s.rd (pg .hka 0) Reg.EV_PEND := by
  have count (f : Fld) (hf : f.placed) (h : f.off ≠ 0x120) :
      ((s.advance t).bumpSat (pg .hka 0) Reg.HKA_HKA_STAT_HOST_REFUSED 1).rd (pg .hka 0) f = s.rd (pg .hka 0) f :=
    (rd_wr_field _ _ (by decide) hf (fun e => h e.1)).trans (rd_advance _ _ _)
  rw [exec_registerWrite_of_sequence t data hs hrun ho hoff] at hu
  obtain rfl : _ = u := Host.Outcome.next.inj hu
  have hlevel : (((s.advance t).bumpSat (pg .hka 0) Reg.HKA_HKA_STAT_HOST_REFUSED 1).rd (evPage (evId .hka 0 5)) Reg.EV_RAW).testBit
      (evBit (evId .hka 0 5)) = true := by
    change (State.rd _ (pg .hka 0) Reg.EV_RAW).testBit 5 = true
    rw [count _ (by decide) (by decide)]
    exact hraw
  rw [event_of_level hlevel, count _ (by decide) (by decide)]

end

/-- A part that has started up and runs a housekeeping sequence, with the level of HKA's HOST_REFUSED at 1 and nothing pending. -/
def levelHeld : State :=
  (((State.reset.wr (pg .glb 0) Reg.GLB_BOOT_STAT_STEP 9).wr (pg .clk 0) Reg.CLK_PLL_STAT_GATED 0).wr (pg .hka 0)
    Reg.HKA_HKA_STAT_SEQ_RUN 1).wr (pg .hka 0) Reg.EV_RAW 0x20

/-- Refutes O50: the event of a refused write is a transition only where its level is 0 (R45), and the statement's states are not held to
that. From `levelHeld` a write of CONV_CTL is refused and counted, and EV_PEND stays 0. HOST_REFUSED is momentary (R525): that a run from
reset holds its level at 1 is not claimed. -/
theorem not_runningSequenceRefusesHostWrites : ¬ Obligations.RunningSequenceRefusesHostWrites := by
  rintro ⟨refused, -⟩
  have hs : levelHeld.hostOpen (pg .hka 0) := by decide
  have hrun : levelHeld.on (pg .hka 0) Reg.HKA_HKA_STAT_SEQ_RUN = true := by decide
  have hraw : (levelHeld.rd (pg .hka 0) Reg.EV_RAW).testBit 5 = true := by decide
  have hpend : levelHeld.rd (pg .hka 0) Reg.EV_PEND = 0 := by decide
  obtain ⟨u, hu, -, -, -, hbit⟩ := refused 0 0x4108#24 1 levelHeld hs hrun (.inr (.inl rfl))
  rw [evPend_of_refused_at_level hs hrun hraw (o := 0x108) (by decide) rfl hu, hpend] at hbit
  exact absurd hbit (by decide)

end Sys2Proof.Machine
end

section
/-!
PROOF. Which parts of a state each operation of the model can change, with both canonical forms kept: one lemma an operation, does_<operation>,
in the order of the model's files, each from the lemmas of the operations that it calls. exec_answers gathers them for the commands.
-/
namespace Sys2Proof.Machine

/-- The parts that an event raised can change, the time aside (R45, R537, R538). -/
abbrev evented : List Part := [.rf, .ev, .rel, .core, .trg, .out]

/-- The parts of `evented` and those of `l`. -/
abbrev eventedAnd (l : List Part) : List Part := evented ++ l

theorem inParts_trans {a b c : List Part} (h : inParts a b = true) (k : inParts b c = true) : inParts a c = true := by
  simp only [inParts, List.all_eq_true, List.contains_iff_mem] at *
  exact fun p hp => k p (h p hp)

theorem Does.thd {α β : Type} {l : List Part} {s u : State} {x : α × β × State} {a : α} {b : β} (e : x = (a, b, u)) (h : Does l s x.2.2) :
    Does l s u := by
  rw [e] at h
  exact h

/-- `Only`, part by part. -/
theorem only_iff {l : List Part} {t u : State} :
    Only l t u ↔
      (.rf ∉ l → u.rf = t.rf) ∧ (.tick ∉ l → u.tick = t.tick) ∧ (.upTime ∉ l → u.upTime = t.upTime) ∧ (.page ∉ l → u.page = t.page) ∧ (.ev ∉
      l → u.ev = t.ev) ∧ (.rel ∉ l → u.rel = t.rel) ∧ (.pwr ∉ l → u.pwr = t.pwr) ∧ (.tio ∉ l → u.tio = t.tio) ∧ (.acq ∉ l → u.acq = t.acq) ∧
      (.core ∉ l → u.core = t.core) ∧ (.bank ∉ l → u.bank = t.bank) ∧ (.mem ∉ l → u.mem = t.mem) ∧ (.epo ∉ l → u.epo = t.epo) ∧ (.trg ∉ l →
      u.trg = t.trg) ∧ (.xf ∉ l → u.xf = t.xf) ∧ (.den ∉ l → u.den = t.den) ∧ (.tmp ∉ l → u.tmp = t.tmp) ∧ (.dsp ∉ l → u.dsp = t.dsp) ∧
      (.ptp ∉ l → u.ptp = t.ptp) ∧ (.flash ∉ l → u.flash = t.flash) ∧ (.boot ∉ l → u.boot = t.boot) ∧ (.clk ∉ l → u.clk = t.clk) ∧ (.ing ∉ l
      → u.ing = t.ing) ∧ (.svc ∉ l → u.svc = t.svc) ∧ (.ic ∉ l → u.ic = t.ic) ∧ (.net ∉ l → u.net = t.net) ∧ (.dlb ∉ l → u.dlb = t.dlb) ∧
      (.hk ∉ l → u.hk = t.hk) ∧ (.cmp ∉ l → u.cmp = t.cmp) ∧ (.pending ∉ l → u.pending = t.pending) ∧ (.out ∉ l → u.out = t.out) ∧ (.freeCnt
      ∉ l → u.freeCnt = t.freeCnt) :=
  ⟨fun h => ⟨h .rf, h .tick, h .upTime, h .page, h .ev, h .rel, h .pwr, h .tio, h .acq, h .core, h .bank, h .mem, h .epo, h .trg, h .xf, h .den, h
      .tmp, h .dsp, h .ptp, h .flash, h .boot, h .clk, h .ing, h .svc, h .ic, h .net, h .dlb, h .hk, h .cmp, h .pending, h .out, h .freeCnt⟩,
    fun ⟨h0, h1, h2, h3, h4, h5, h6, h7, h8, h9, h10, h11, h12, h13, h14, h15, h16, h17, h18, h19, h20, h21, h22, h23, h24, h25, h26, h27, h28,
        h29, h30, h31⟩ p => by cases p <;> assumption⟩

theorem Does.foldlSnd {l : List Part} {s : State} {α β : Type} {f : β × State → α → β × State} {t : β × State} (x : List α)
    (h : Does l s t.2) (hf : ∀ t a, Does l s t.2 → Does l s (f t a).2) : Does l s (x.foldl f t).2 := by
  induction x generalizing t with
  | nil => exact h
  | cons a x ih => exact ih (hf t a h)

theorem Does.foldlFst {l : List Part} {s : State} {α β : Type} {f : State × β → α → State × β} {t : State × β} (x : List α)
    (h : Does l s t.1) (hf : ∀ t a, Does l s t.1 → Does l s (f t a).1) : Does l s (x.foldl f t).1 := by
  induction x generalizing t with
  | nil => exact h
  | cons a x ih => exact ih (hf t a h)

/-- The register file keeps the places that `f` names. -/
theorem Does.drop {l : List Part} {s t : State} (h : Does l s t) (f : Nat × Nat → Bool) (w : l.contains .rf = true) :
    Does l s { t with rf := t.rf.filter f } :=
  h.trans ⟨fun p hp => by cases p <;> first | rfl | exact absurd (by simpa using w) hp, fun k => smSorted_filter _ k, id⟩

/-- The outcome is a next state, to which no part but those listed has changed and both canonical forms are kept. -/
abbrev Answers (l : List Part) (s : State) (x : Host.Outcome State Fault Refusal) : Prop := ∃ u, x = .next u ∧ Does l s u

theorem Answers.mono {a l : List Part} {s : State} {x : Host.Outcome State Fault Refusal} (h : Answers a s x) (w : inParts a l = true) :
    Answers l s x := by
  obtain ⟨u, e, k⟩ := h
  exact ⟨u, e, k.mono w⟩
/-! Operations of Machine/Ops. -/

theorem does_wrS (s : State) (p : Nat) (f : Fld) (i : Int) : Does [.rf] s (s.wrS p f i) :=
  (does_wr ..).next (.refl _ _) rfl

theorem does_bumpSat (s : State) (p : Nat) (f : Fld) (n : Nat) : Does [.rf] s (s.bumpSat p f n) :=
  (does_wr ..).next (.refl _ _) rfl

theorem does_bump (s : State) (p : Nat) (f : Fld) (n : Nat) : Does [.rf] s (s.bump p f n) :=
  (does_wr ..).next (.refl _ _) rfl

theorem does_peak (s : State) (p : Nat) (f : Fld) (v : Nat) : Does [.rf] s (s.peak p f v) :=
  .ite ((does_wr ..).next (.refl _ _) rfl) (.refl _ _)

theorem does_wrs (s : State) (p : Nat) (l : List (Fld × Nat)) : Does [.rf] s (s.wrs p l) :=
  .foldl _ (.refl _ _) fun _ _ h => (does_wr ..).next h rfl

theorem does_emit (s : State) (o : Output) : Does [.out] s (s.emit o) :=
  .out (.refl _ _) rfl

theorem does_writeNat (s : State) (a n v : Nat) : Does [.mem] s (s.writeNat a n v) :=
  (does_writeBytes ..).next (.refl _ _) rfl

theorem does_writeWords (s : State) (a : Nat) (ws : List Nat) : Does [.mem] s (s.writeWords a ws) :=
  (does_writeBytes ..).next (.refl _ _) rfl

/-! Operations of Machine/PageMap. -/

theorem does_setEn (s : State) (p v : Nat) : Does [.rf] s (s.setEn p v) :=
  (does_wr ..).next (.refl _ _) rfl

theorem does_setEnAct (s : State) (p v : Nat) : Does [.rf] s (s.setEnAct p v) :=
  (does_wr ..).next (.refl _ _) rfl

theorem does_enable (s : State) (p : Nat) : Does [.rf, .page] s (s.enable p) :=
  (does_setEnAct ..).next ((does_setEn ..).next (.ite (.refl _ _) (.page (.refl _ _) rfl)) rfl) rfl

theorem does_disable (s : State) (p : Nat) : Does [.rf, .page] s (s.disable p) :=
  (does_setEn ..).next (.ite (.refl _ _) (.page (.refl _ _) rfl)) rfl

theorem does_setPstate (s : State) (p v : Nat) : Does [.rf] s (s.setPstate p v) :=
  (does_wr ..).next (.refl _ _) rfl

theorem does_setPstateAct (s : State) (p v : Nat) : Does [.rf] s (s.setPstateAct p v) :=
  (does_wr ..).next (.refl _ _) rfl

/-! Operations of Machine/Events. -/

theorem does_setCore (s : State) (n : Nat) (c : CoreSt) : Does [.core] s (s.setCore n c) :=
  .core (.refl _ _) rfl

theorem does_occur (s : State) (src arg : Nat) : Does [.rel] s (s.occur src arg) :=
  .rel (.refl _ _) rfl

theorem does_logFault (s : State) (e : FlogEntry) : Does [.rf, .rel] s (s.logFault e) :=
  (does_bump ..).next (.rel (.refl _ _) rfl) rfl

theorem does_evqPush (s : State) (n id : Nat) : Does [.rf, .core] s (s.evqPush n id) :=
  .ite ((does_setCore ..).next (.refl _ _) rfl) ((does_bumpSat ..).next (.refl _ _) rfl)

theorem does_setVecArmed (s : State) (v : Nat) (b : Bool) : Does [.rf] s (s.setVecArmed v b) :=
  (does_wr ..).next (.refl _ _) rfl

theorem does_msixSend (s : State) (v : Nat) : Does [.rf, .ev, .out] s (s.msixSend v) :=
  .ite ((does_emit ..).next ((does_setVecArmed ..).next (.refl _ _) rfl) rfl) (.ev (.refl _ _) rfl)

theorem does_deltanPulse (s : State) (k : Nat) : Does [.trg] s (s.deltanPulse k) :=
  .trg (.refl _ _) rfl

theorem does_setPend (s : State) (id : Nat) : Does [.rf] s (s.setPend id) :=
  (does_wr ..).next (.refl _ _) rfl

theorem does_hcUpdate (s : State) (n : Nat) : Does evented s (s.hcUpdate n) := by
  unfold State.hcUpdate
  extract_lets p v s₁ s₂ above was _ s₃ s₄ lim
  refine .via s₁ ((does_wrS ..).next (.refl _ _) rfl) fun h₁ => ?_
  refine .via s₂ (.ite ((does_wrS ..).next h₁ rfl) h₁) fun h₂ => ?_
  refine .via s₃ (.rel h₂ rfl) fun h₃ => ?_
  refine .via s₄ ((does_eventIf ..).next h₃ rfl) fun h₄ => ?_
  exact .ite (.refl _ _) (.ite ((does_failProbation ..).next h₄ rfl) h₄)

theorem does_hcLevels (s : State) : Does evented s s.hcLevels :=
  .each _ (.refl _ _) fun _ _ h => (does_hcUpdate ..).next h rfl

/-! Operations of Machine/PageOps. -/

theorem does_accErr (s : State) (kind off : Nat) : Does evented s (s.accErr kind off) :=
  (does_event ..).next ((does_bumpSat ..).next (.when _ (.refl _ _) fun _ h => (does_wrs ..).next h rfl) rfl) rfl

theorem does_accErrClear (s : State) : Does [.rf] s s.accErrClear :=
  (does_wrs ..).next (.refl _ _) rfl

theorem does_hold (s : State) (h : Held) : Does [.page] s (s.hold h) :=
  .page (.refl _ _) rfl

theorem Does.hosted {l : List Part} {s t : State} {p off data : Nat} {f : State → State} (h : Does l s t) (w : l.contains .page = true)
    (hf : ∀ t, Does l s t → Does l s (f t)) : Does l s (t.hosted p off data f) :=
  .ite (h.page w) (.ite h (hf _ h))

theorem Does.onPage {l : List Part} {s t : State} {p off : Nat} {f : State → State} (h : Does l s t) (w : inParts evented l = true)
    (hf : ∀ t, Does l s t → Does l s (f t)) : Does l s (t.onPage p off f) :=
  .ite (hf _ h) ((does_accErr ..).next h w)

theorem does_startSrst (s : State) (p : Nat) : Does [.rf, .page] s (s.startSrst p) := by
  unfold State.startSrst
  extract_lets s₁ _
  refine .via s₁ ((does_wr ..).next (.refl _ _) rfl) fun h₁ => ?_
  exact .ite (.page h₁ rfl) ((does_wr ..).next h₁ rfl)

theorem does_pstateGo (s : State) (p : Nat) : Does [.rf, .page] s (s.pstateGo p) :=
  (does_wr ..).next (.page (.refl _ _) rfl) rfl

theorem does_startPstate (s : State) (p ps : Nat) : Does [.rf, .page] s (s.startPstate p ps) := by
  unfold State.startPstate
  extract_lets busy s₁ _
  refine .via s₁ ((does_setPstate ..).next (.refl _ _) rfl) fun h₁ => ?_
  exact .ite (.page h₁ rfl) (.ite h₁ ((does_pstateGo ..).next h₁ rfl))

theorem does_pstateEnd (s : State) (p : Nat) : Does [.rf, .page] s (s.pstateEnd p) := by
  unfold State.pstateEnd
  extract_lets s₁ _
  refine .via s₁ ((does_wr ..).next ((does_setPstateAct ..).next (.refl _ _) rfl) rfl) fun h₁ => ?_
  exact .ite ((does_wr ..).next (.page h₁ rfl) rfl) h₁

theorem does_srstEnd (s : State) (p : Nat) : Does [.rf, .page] s (s.srstEnd p) := by
  unfold State.srstEnd
  extract_lets s₁ _ s₂
  refine .via s₁ ((does_wr ..).next ((does_wr ..).next (.refl _ _) rfl) rfl) fun h₁ => ?_
  refine .via s₂ (.page h₁ rfl) fun h₂ => ?_
  exact .ite (.ite ((does_pstateGo ..).next h₂ rfl) h₂) h₁

theorem does_downEvent (s : State) (l : Nat) : Does evented s (s.downEvent l) :=
  (does_setRaw ..).next (.refl _ _) rfl

theorem does_pgCtlWrite (s : State) (p en srst ps : Nat) : Does (eventedAnd [.page]) s (s.pgCtlWrite p en srst ps) := by
  unfold State.pgCtlWrite
  refine .ite ((does_accErr ..).next ((does_wr ..).next (.refl _ _) rfl) rfl) ?_
  extract_lets s₁ s₂ s₃ s₄
  refine .via s₁ ((does_wr ..).next (.refl _ _) rfl) fun h₁ => ?_
  refine .via s₂ (.ite h₁ (.ite ((does_enable ..).next h₁ rfl) ((does_disable ..).next h₁ rfl))) fun h₂ => ?_
  refine .via s₃ (.ite ((does_downEvent ..).next h₂ rfl) h₂) fun h₃ => ?_
  refine .via s₄ (.when _ h₃ fun _ h => (does_startPstate ..).next h rfl) fun h₄ => ?_
  exact .when _ h₄ fun _ h => (does_startSrst ..).next h rfl

theorem does_evPendWrite (s : State) (p mask same : Nat) : Does [.rf] s (s.evPendWrite p mask same) :=
  (does_wr ..).next (.refl _ _) rfl

theorem does_forwardNow (s : State) (id : Nat) : Does evented s (s.forwardNow id) := by
  unfold State.forwardNow
  extract_lets d
  refine .via d.1 ((does_deliver ..).next (.refl _ _) rfl) fun hd => ?_
  exact .foldl _ hd fun _ _ h => (does_raise ..).next h rfl

theorem does_evEnWrite (s : State) (p en : Nat) : Does evented s (s.evEnWrite p en) :=
  .each _ ((does_wr ..).next (.refl _ _) rfl) fun _ _ h => (does_forwardNow ..).next h rfl

theorem does_shAbort (s : State) (p groups : Nat) : Does [.rf, .page] s (s.shAbort p groups) :=
  .page ((does_wr ..).next (.refl _ _) rfl) rfl

theorem does_execAccErrLogClear (t : Nat) (s : State) : Answers [.rf, .tick, .upTime] s (execAccErrLogClear t s) :=
  ⟨_, rfl, (does_accErrClear ..).next ((does_advance ..).next (.refl _ _) rfl) rfl⟩

theorem does_execBar0HoldTimeout (t : Nat) (s : State) : Answers [.tick, .upTime, .page, .out] s (execBar0HoldTimeout t s) := by
  unfold execBar0HoldTimeout
  extract_lets s₁ _
  have h₁ : Does [.tick, .upTime, .page, .out] _ s₁ := (does_advance ..).next (.refl _ _) rfl
  split
  · exact ⟨_, rfl, h₁⟩
  · exact ⟨_, rfl, .ite h₁ ((does_emit ..).next (.page h₁ rfl) rfl)⟩

theorem does_execEvPendClear (t : Nat) (page : Fin 4096) (mask same : Word) (s : State) : Answers (eventedAnd [.tick, .upTime, .page]) s
    (execEvPendClear t page mask same s) := by
  refine ⟨_, rfl, ?_⟩
  refine .hosted ((does_advance ..).next (.refl _ _) rfl) rfl fun _ h₁ => ?_
  exact .onPage h₁ rfl fun _ h => (does_evPendWrite ..).next h rfl

theorem does_execEvEnWrite (t : Nat) (page : Fin 4096) (en : Word) (s : State) : Answers (eventedAnd [.tick, .upTime, .page]) s (execEvEnWrite t
    page en s) := by
  refine ⟨_, rfl, ?_⟩
  refine .hosted ((does_advance ..).next (.refl _ _) rfl) rfl fun _ h₁ => ?_
  exact .onPage h₁ rfl fun _ h => (does_evEnWrite ..).next h rfl

theorem does_execShadowAbort (t : Nat) (page : Fin 4096) (groups : BitVec 8) (s : State) : Answers (eventedAnd [.tick, .upTime, .page]) s
    (execShadowAbort t page groups s) := by
  refine ⟨_, rfl, ?_⟩
  refine .hosted ((does_advance ..).next (.refl _ _) rfl) rfl fun _ h₁ => ?_
  exact .onPage h₁ rfl fun _ h => (does_shAbort ..).next h rfl

/-! Operations of Machine/Router. -/

theorem does_setTru (s : State) (u : Nat) (x : TruSt) : Does [.trg] s (s.setTru u x) :=
  .trg (.refl _ _) rfl

theorem does_toUnit (s : State) (u : Nat) (e : NetEvt) : Does [.trg] s (s.toUnit u e) :=
  .each _ (.refl _ _) fun _ _ h => (does_setTru ..).next h rfl

theorem does_send (s : State) (e : NetEvt) : Does [.trg] s (s.send e) :=
  .trg (.each _ (.refl _ _) fun _ _ h => (does_toUnit ..).next h rfl) rfl

theorem does_outSync (s : State) (t : Nat) : Does [.tio] s (s.outSync t) :=
  .tio (.refl _ _) rfl

theorem does_setOut (s : State) (j : Nat) (b : Bool) (t : Nat) : Does [.tio] s (s.setOut j b t) := by
  unfold State.setOut
  extract_lets _ s₁
  refine .via s₁ (.tio (.refl _ _) rfl) fun h₁ => ?_
  exact .ite ((does_outSync ..).next h₁ rfl) h₁

theorem does_setLine (s : State) (k stop : Nat) : Does [.trg] s (s.setLine k stop) :=
  .trg (.refl _ _) rfl

theorem does_toutDrive (s : State) (k : Nat) (active : Bool) (t : Nat) : Does [.tio] s (s.toutDrive k active t) :=
  (does_setOut ..).next (.refl _ _) rfl

theorem does_routeOut (s : State) (code t : Nat) (pulse rise val : Bool) : Does [.tio, .trg] s (s.routeOut code t pulse rise val) :=
  .each _ (.each _ (.each _ (.refl _ _) fun _ _ h => .ite h (.ite ((does_toutDrive ..).next h rfl) (.ite ((does_toutDrive ..).next ((does_setLine
      ..).next h rfl) rfl) h))) fun _ _ h => .ite h (.ite (.ite ((does_setOut ..).next h rfl) h) (.ite ((does_setOut ..).next ((does_setLine
      ..).next h rfl) rfl) ((does_setOut ..).next h rfl)))) fun _ _ h => .ite ((does_setLine ..).next h rfl) h

theorem does_lineOver (s : State) (line t : Nat) : Does [.tio, .trg] s (s.lineOver line t) := by
  unfold State.lineOver
  extract_lets _ s₁
  refine .via s₁ (.trg (.refl _ _) rfl) fun h₁ => ?_
  exact .ite ((does_toutDrive ..).next h₁ rfl) (.ite ((does_setOut ..).next h₁ rfl) h₁)

theorem does_routerStep (s : State) (t : Nat) : Does [.tio, .trg] s (s.routerStep t) := by
  unfold State.routerStep
  extract_lets ends
  have hends : ∀ b, Does [.tio, .trg] s (ends s b) := fun b => by
    unfold ends
    split
    · exact .ite ((does_lineOver ..).next (.refl _ _) rfl) (.refl _ _)
    · exact .refl _ _
  split
  · exact hends t
  · have hout : ∀ (e : NetEvt) l, Does [.tio, .trg] s (if e.sig = 0 then
        ({ s with trg := { s.trg with net := l } } : State).routeOut e.code (e.at_ + routerLatency) e.pulse (e.pulse || e.val) e.val
        else ({ s with trg := { s.trg with net := l } } : State)) := fun _ _ =>
      .ite ((does_routeOut ..).next (.trg (.refl _ _) rfl) rfl) (.trg (.refl _ _) rfl)
    split
    · exact .ite ((does_lineOver ..).next (.refl _ _) rfl) (.ite (hout _ _) (.refl _ _))
    · exact .ite (hout _ _) (.refl _ _)

theorem does_routerTo (s : State) (t : Nat) : Does [.tio, .trg] s (s.routerTo t) :=
  .ite (.refl _ _) (.each _ (.refl _ _) fun _ _ h => (does_routerStep ..).next h rfl)

theorem does_sourceLevel (s : State) (code : Nat) (v : Bool) (t lat : Nat) (stamp : SubTick) (bad : Bool) : Does [.trg] s (s.sourceLevel code v t
    lat stamp bad) := by
  unfold State.sourceLevel
  refine .ite (.refl _ _) ?_
  extract_lets _ s₁
  refine .via s₁ (.trg (.refl _ _) rfl) fun h₁ => ?_
  exact .ite h₁ ((does_send ..).next h₁ rfl)

theorem does_sourcePulse (s : State) (code sig t lat : Nat) (stamp : SubTick) (bad : Bool) : Does [.trg] s (s.sourcePulse code sig t lat stamp
    bad) :=
  .ite (.refl _ _) ((does_send ..).next (.refl _ _) rfl)

/-! Operations of Machine/Power. -/

theorem does_monSync (s : State) : Does [.rf] s s.monSync :=
  (does_wrs ..).next (.refl _ _) rfl

theorem does_coldReset (s : State) (last : Nat) : Does everyPart s (s.coldReset last) := by
  have hstart : Does everyPart s { State.reset with
      pwr := { s.pwr with started := false, lastReset := last }, flash := s.flash, pending := s.pending, out := s.out, freeCnt := s.freeCnt } :=
    ⟨fun p hp => by cases p <;> first | rfl | exact absurd (by decide) hp, fun _ => rfl, fun _ => rfl⟩
  exact .ite ((does_wr ..).next ((does_monSync ..).next hstart rfl) rfl) ((does_monSync ..).next hstart rfl)

theorem does_latchFault (s : State) (c : Nat) (hold : Bool) : Does (eventedAnd [.tick, .upTime, .page, .pwr, .tio, .acq, .bank, .mem, .epo, .xf,
    .den, .tmp, .dsp, .ptp, .flash, .boot, .clk, .ing, .svc, .ic, .net, .dlb, .hk, .cmp, .freeCnt]) s (s.latchFault c hold) := by
  unfold State.latchFault
  extract_lets _ p s₁
  refine .via s₁ (.pwr (.refl _ _) rfl) fun h₁ => ?_
  exact .ite ((does_coldReset ..).next h₁ rfl) ((does_monSync ..).next h₁ rfl)

theorem does_protReset (s : State) (c : Nat) : Does (eventedAnd [.tick, .upTime, .page, .pwr, .tio, .acq, .bank, .mem, .epo, .xf, .den, .tmp, .dsp,
    .ptp, .flash, .boot, .clk, .ing, .svc, .ic, .net, .dlb, .hk, .cmp, .freeCnt]) s (s.protReset c) :=
  .ite ((does_latchFault ..).next (.refl _ _) rfl) (.refl _ _)

theorem does_monCheck (s : State) (us i : Nat) (hbm : HbmRails) : Does (eventedAnd [.tick, .upTime, .page, .pwr, .tio, .acq, .bank, .mem, .epo,
    .xf, .den, .tmp, .dsp, .ptp, .flash, .boot, .clk, .ing, .svc, .ic, .net, .dlb, .hk, .cmp, .freeCnt]) s (s.monCheck us i hbm) :=
  .pwr (.ite ((does_latchFault ..).next (.refl _ _) rfl) ((does_monSync ..).next (.refl _ _) rfl)) rfl

theorem does_execRailUp (us : Nat) (rail : Fin 9) (full : Bool) (hbm : HbmRails) (s : State) : Answers (eventedAnd [.tick, .upTime, .page, .pwr,
    .tio, .acq, .bank, .mem, .epo, .xf, .den, .tmp, .dsp, .ptp, .flash, .boot, .clk, .ing, .svc, .ic, .net, .dlb, .hk, .cmp, .freeCnt]) s
    (execRailUp us rail full hbm s) :=
  ⟨_, rfl, (does_monCheck ..).next (.pwr (.refl _ _) rfl) rfl⟩

theorem does_execRailDown (_us : Nat) (rail : Fin 9) (below : Bool) (hbm : HbmRails) (s : State) : Answers (eventedAnd [.tick, .upTime, .page,
    .pwr, .tio, .acq, .bank, .mem, .epo, .xf, .den, .tmp, .dsp, .ptp, .flash, .boot, .clk, .ing, .svc, .ic, .net, .dlb, .hk, .cmp, .freeCnt]) s
    (execRailDown _us rail below hbm s) :=
  ⟨_, rfl, .ite ((does_coldReset ..).next (.pwr (.refl _ _) rfl) rfl) ((does_monSync ..).next (.pwr (.refl _ _) rfl) rfl)⟩

theorem does_execRailMissing (us : Nat) (hbm : HbmRails) (s : State) : Answers (eventedAnd [.tick, .upTime, .page, .pwr, .tio, .acq, .bank, .mem,
    .epo, .xf, .den, .tmp, .dsp, .ptp, .flash, .boot, .clk, .ing, .svc, .ic, .net, .dlb, .hk, .cmp, .freeCnt]) s (execRailMissing us hbm s) :=
  ⟨_, rfl, .ite ((does_monCheck ..).next (.pwr (.refl _ _) rfl) rfl) (.refl _ _)⟩

theorem does_execPorNRelease (_us : Nat) (s : State) : Answers [.pwr] s (execPorNRelease _us s) :=
  ⟨_, rfl, .pwr (.refl _ _) rfl⟩

theorem does_execPorNAssert (_us : Nat) (s : State) : Answers (eventedAnd [.tick, .upTime, .page, .pwr, .tio, .acq, .bank, .mem, .epo, .xf, .den,
    .tmp, .dsp, .ptp, .flash, .boot, .clk, .ing, .svc, .ic, .net, .dlb, .hk, .cmp, .freeCnt]) s (execPorNAssert _us s) :=
  ⟨_, rfl, .ite ((does_coldReset ..).next (.pwr (.refl _ _) rfl) rfl) (.pwr (.refl _ _) rfl)⟩

theorem does_execColdStart (us : Nat) (s : State) : Answers (eventedAnd [.tick, .upTime, .page, .pwr, .tio, .acq, .bank, .mem, .epo, .xf, .den,
    .tmp, .dsp, .ptp, .flash, .boot, .clk, .ing, .svc, .ic, .net, .dlb, .hk, .cmp, .freeCnt]) s (execColdStart us s) :=
  ⟨_, rfl, .ite ((does_eventIf ..).next ((does_wrs ..).next (.pwr ((does_coldReset ..).next (.refl _ _) rfl) rfl) rfl) rfl) (.refl _ _)⟩

theorem does_execAvsSet (us : Nat) (s : State) : Answers [.rf, .boot, .out] s (execAvsSet us s) :=
  ⟨_, rfl, .ite ((does_emit ..).next ((does_wr ..).next (.boot (.refl _ _) rfl) rfl) rfl) (.refl _ _)⟩

theorem does_execAvsPoll (t : Nat) (mv da : BitVec 16) (failed : Bool) (s : State) : Answers (eventedAnd [.tick, .upTime]) s (execAvsPoll t mv da
    failed s) :=
  ⟨_, rfl, .ite ((does_advance ..).next (.refl _ _) rfl) (.ite ((does_setRaw ..).next ((does_advance ..).next (.refl _ _) rfl) rfl) ((does_hcLevels
      ..).next ((does_setRaw ..).next ((does_setRaw ..).next ((does_wrs ..).next ((does_advance ..).next (.refl _ _) rfl) rfl) rfl) rfl) rfl))⟩

theorem does_execAvsFail (us : Nat) (s : State) : Answers (eventedAnd [.tick, .upTime, .page, .pwr, .tio, .acq, .bank, .mem, .epo, .xf, .den, .tmp,
    .dsp, .ptp, .flash, .boot, .clk, .ing, .svc, .ic, .net, .dlb, .hk, .cmp, .freeCnt]) s (execAvsFail us s) :=
  ⟨_, rfl, .ite ((does_latchFault ..).next (.refl _ _) rfl) (.refl _ _)⟩

theorem does_execRailWarn (t : Nat) (rail : Fin 9) (zone : Zone) (s : State) : Answers (eventedAnd [.tick, .upTime, .pwr]) s (execRailWarn t rail
    zone s) :=
  ⟨_, rfl, .ite ((does_monSync ..).next (.pwr ((does_advance ..).next (.refl _ _) rfl) rfl) rfl) ((does_setRaw ..).next ((does_setRaw ..).next
      ((does_monSync ..).next (.pwr ((does_advance ..).next (.refl _ _) rfl) rfl) rfl) rfl) rfl)⟩

theorem does_execRailFault (t : Nat) (_rail : Fin 9) (above : Bool) (s : State) : Answers (eventedAnd [.tick, .upTime, .page, .pwr, .tio, .acq,
    .bank, .mem, .epo, .xf, .den, .tmp, .dsp, .ptp, .flash, .boot, .clk, .ing, .svc, .ic, .net, .dlb, .hk, .cmp, .freeCnt]) s (execRailFault t
    _rail above s) :=
  ⟨_, rfl, (does_protReset ..).next ((does_advance ..).next (.refl _ _) rfl) rfl⟩

theorem does_execThermTrip (t : Nat) (s : State) : Answers (eventedAnd [.tick, .upTime, .page, .pwr, .tio, .acq, .bank, .mem, .epo, .xf, .den,
    .tmp, .dsp, .ptp, .flash, .boot, .clk, .ing, .svc, .ic, .net, .dlb, .hk, .cmp, .freeCnt]) s (execThermTrip t s) :=
  ⟨_, rfl, (does_protReset ..).next ((does_advance ..).next (.refl _ _) rfl) rfl⟩

theorem does_setShort (s : State) (j kind : Nat) (high : Bool) (after : Nat) : Does (eventedAnd [.tio]) s (s.setShort j kind high after) :=
  (does_setRaw ..).next ((does_wrs ..).next (.tio (.refl _ _) rfl) rfl) rfl

theorem does_seePad (s : State) (j : Nat) (pad : Bool) : Does [.tio] s (s.seePad j pad) :=
  .tio (.refl _ _) rfl

theorem does_shortRetry (s : State) (j : Nat) : Does (eventedAnd [.tio]) s (s.shortRetry j) :=
  .ite (.refl _ _) ((does_setShort ..).next (.ite (.tio (.refl _ _) rfl) (.refl _ _)) rfl)

theorem does_execShortDetect (t : Nat) (j : Fin 16) (padHigh : Bool) (s : State) : Answers (eventedAnd [.tick, .upTime, .tio]) s (execShortDetect t
    j padHigh s) :=
  ⟨_, rfl, .ite ((does_seePad ..).next ((does_routerTo ..).next ((does_advance ..).next (.refl _ _) rfl) rfl) rfl) (.ite ((does_seePad ..).next
      ((does_routerTo ..).next ((does_advance ..).next (.refl _ _) rfl) rfl) rfl) ((does_setShort ..).next ((does_wr ..).next ((does_seePad
      ..).next ((does_routerTo ..).next ((does_advance ..).next (.refl _ _) rfl) rfl) rfl) rfl) rfl))⟩

theorem does_execShortRetry (t : Nat) (j : Fin 16) (padHigh : Bool) (s : State) : Answers (eventedAnd [.tick, .upTime, .tio]) s (execShortRetry t j
    padHigh s) :=
  ⟨_, rfl, .ite ((does_shortRetry ..).next ((does_seePad ..).next ((does_routerTo ..).next ((does_advance ..).next (.refl _ _) rfl) rfl) rfl) rfl)
      ((does_seePad ..).next ((does_routerTo ..).next ((does_advance ..).next (.refl _ _) rfl) rfl) rfl)⟩

theorem does_execRetryNow (t : Nat) (mask padHigh : BitVec 16) (s : State) : Answers (eventedAnd [.tick, .upTime, .page, .tio]) s (execRetryNow t
    mask padHigh s) := by
  refine ⟨_, rfl, ?_⟩
  refine .hosted (.each _ ((does_routerTo ..).next ((does_advance ..).next (.refl _ _) rfl) rfl) fun _ _ h => (does_seePad ..).next h rfl) rfl fun
      _ h₁ => ?_
  exact .each _ h₁ fun _ _ h => (does_shortRetry ..).next h rfl

theorem does_detEnWrite (s : State) (en : Nat) : Does (eventedAnd [.tio]) s (s.detEnWrite en) :=
  .each _ ((does_wr ..).next (.refl _ _) rfl) fun _ _ h => (does_setShort ..).next h rfl

theorem does_execOutFltDetDisable (t : Nat) (mask : BitVec 16) (s : State) : Answers (eventedAnd [.tick, .upTime, .page, .tio]) s
    (execOutFltDetDisable t mask s) :=
  ⟨_, rfl, .hosted ((does_advance ..).next (.refl _ _) rfl) rfl fun _ h => (does_detEnWrite ..).next h rfl⟩

theorem does_owEnd (s : State) : Does (eventedAnd [.tio]) s s.owEnd :=
  (does_eventIf ..).next ((does_wr ..).next ((does_bump ..).next (.tio (.refl _ _) rfl) rfl) rfl) rfl

theorem does_owBegin (s : State) (byStart : Bool) : Does (eventedAnd [.tio]) s (s.owBegin byStart) := by
  unfold State.owBegin
  refine .ite (.refl _ _) ?_
  extract_lets p todo _ s₁ s₂
  refine .via s₁ (.tio (.refl _ _) rfl) fun h₁ => ?_
  refine .via s₂ ((does_wrs ..).next h₁ rfl) fun h₂ => ?_
  exact .ite ((does_owEnd ..).next h₂ rfl) h₂

theorem does_execOwStart (t : Nat) (s : State) : Answers (eventedAnd [.tick, .upTime, .page, .tio]) s (execOwStart t s) :=
  ⟨_, rfl, .hosted ((does_advance ..).next (.refl _ _) rfl) rfl fun _ h => (does_owBegin ..).next h rfl⟩

theorem does_owSchedule (s : State) : Does [.tio] s s.owSchedule :=
  .tio (.refl _ _) rfl

theorem does_execOwPeriodicPass (t : Nat) (s : State) : Answers (eventedAnd [.tick, .upTime, .tio]) s (execOwPeriodicPass t s) :=
  ⟨_, rfl, .ite ((does_advance ..).next (.refl _ _) rfl) ((does_owBegin ..).next ((does_owSchedule ..).next ((does_advance ..).next (.refl _ _)
      rfl) rfl) rfl)⟩

theorem does_owConvEnd (s : State) : Does [.tio] s s.owConvEnd := by
  unfold State.owConvEnd
  split
  · exact .ite (.tio (.refl _ _) rfl) (.refl _ _)
  · exact .refl _ _

theorem does_owTestEnd (s : State) (i : Nat) : Does [.hk] s (s.owTestEnd i) :=
  .ite (.hk (.refl _ _) rfl) (.refl _ _)

theorem does_execOwPinTest (t : Nat) (pin : Fin 24) (riseMv : Nat) (s : State) : Answers (eventedAnd [.tick, .upTime, .tio, .hk]) s (execOwPinTest
    t pin riseMv s) := by
  unfold execOwPinTest
  extract_lets s₁ p isOpen
  have h₁ : Does (eventedAnd [.tick, .upTime, .tio, .hk]) _ s₁ := (does_advance ..).next (.refl _ _) rfl
  split
  · exact ⟨_, rfl, h₁⟩
  · refine ⟨_, rfl, ?_⟩
    refine .ite h₁ ?_
    extract_lets s₂ was s₃ _ s₄
    refine .via s₂ ((does_owTestEnd ..).next h₁ rfl) fun h₂ => ?_
    refine .via s₃ ((does_wrs ..).next h₂ rfl) fun h₃ => ?_
    refine .via s₄ (.tio h₃ rfl) fun h₄ => ?_
    exact .ite ((does_owEnd ..).next h₄ rfl) h₄

theorem does_seqClear (s : State) : Does [.rf, .pwr] s s.seqClear :=
  (does_monSync ..).next (.pwr (.refl _ _) rfl) rfl

theorem does_execSeqStatClear (t : Nat) (s : State) : Answers [.rf, .tick, .upTime, .page, .pwr] s (execSeqStatClear t s) :=
  ⟨_, rfl, .hosted ((does_advance ..).next (.refl _ _) rfl) rfl fun _ h => (does_seqClear ..).next h rfl⟩

theorem Does.sideband {l : List Part} {s t : State} {f : State → State} (h : Does l s t) (hf : ∀ t, Does l s t → Does l s (f t)) :
    Does l s (t.sideband f) :=
  .ite (hf _ h) h

theorem does_execSmbReadSeqStat (s : State) : Answers [.out] s (execSmbReadSeqStat s) :=
  ⟨_, rfl, .sideband (.refl _ _) fun _ h => (does_emit ..).next h rfl⟩

theorem does_execSmbReadRailStat (s : State) : Answers [.out] s (execSmbReadRailStat s) :=
  ⟨_, rfl, .sideband (.refl _ _) fun _ h => (does_emit ..).next h rfl⟩

theorem does_execSmbReadCoreTelem (s : State) : Answers [.out] s (execSmbReadCoreTelem s) :=
  ⟨_, rfl, .sideband (.refl _ _) fun _ h => (does_emit ..).next h rfl⟩

theorem does_execSmbReadOutFltStat (s : State) : Answers [.out] s (execSmbReadOutFltStat s) :=
  ⟨_, rfl, .sideband (.refl _ _) fun _ h => (does_emit ..).next h rfl⟩

theorem does_execSmbAlertRelease (data : Byte) (s : State) : Answers [.rf, .pwr, .out] s (execSmbAlertRelease data s) :=
  ⟨_, rfl, .sideband (.refl _ _) fun _ h => (does_emit ..).next (.ite ((does_monSync ..).next (.pwr h rfl) rfl) h) rfl⟩

theorem does_execSmbSeqClear (data : Byte) (s : State) : Answers [.rf, .pwr, .out] s (execSmbSeqClear data s) :=
  ⟨_, rfl, .sideband (.refl _ _) fun _ h => (does_emit ..).next (.ite ((does_seqClear ..).next h rfl) h) rfl⟩

theorem does_execSmbAlertResponse (s : State) : Answers [.out] s (execSmbAlertResponse s) :=
  ⟨_, rfl, .sideband (.refl _ _) fun _ h => .ite ((does_emit ..).next h rfl) h⟩

theorem does_execSmbUnknownCommand (cmd : Byte) (s : State) : Answers [.out] s (execSmbUnknownCommand cmd s) :=
  ⟨_, rfl, .sideband (.refl _ _) fun _ h => .ite h ((does_emit ..).next h rfl)⟩

/-! Operations of Machine/Almanac. -/

theorem does_setActx (s : State) (c : Nat) (a : AcqCtx) : Does [.acq] s (s.setActx c a) :=
  .acq (.refl _ _) rfl

theorem does_charge (s : State) (c ticks : Nat) : Does evented s (s.charge c ticks) := by
  unfold State.charge
  extract_lets v _ s₁ s₂ _
  refine .via s₁ (.rel (.refl _ _) rfl) fun h₁ => ?_
  refine .via s₂ ((does_bump ..).next h₁ rfl) fun h₂ => ?_
  exact .ite ((does_event ..).next (.rel h₂ rfl) rfl) h₂

theorem does_placeRecord (s : State) (c : Nat) (words : List Nat) : Does [.rf, .mem] s (s.placeRecord c words) :=
  (does_wr ..).next (.ite (.refl _ _) ((does_writeWords ..).next (.refl _ _) rfl)) rfl

theorem does_record (s : State) (c kind : Nat) (spec est : Bool) (kflags low w1 w2 w3 : Nat) : Does (eventedAnd [.acq, .mem]) s (s.record c kind
    spec est kflags low w1 w2 w3) :=
  .ite (.refl _ _) (.ite ((does_event ..).next ((does_bumpSat ..).next ((does_setActx ..).next (.refl _ _) rfl) rfl) rfl) ((does_placeRecord
      ..).next ((does_peak ..).next ((does_setActx ..).next (.refl _ _) rfl) rfl) rfl))

theorem does_countLeap (s : State) (c cause ticks samples : Nat) : Does (eventedAnd [.epo]) s (s.countLeap c cause ticks samples) := by
  unfold State.countLeap
  extract_lets s₁ _ s₂ s₃ _ s₄
  refine .via s₁ (.ite (.refl _ _) ((does_charge ..).next (.refl _ _) rfl)) fun h₁ => ?_
  refine .via s₂ (.rel h₁ rfl) fun h₂ => ?_
  refine .via s₃ ((does_occur ..).next h₂ rfl) fun h₃ => ?_
  refine .via s₄ (.epo h₃ rfl) fun h₄ => ?_
  exact .ite (.ite ((does_failProbation ..).next h₄ rfl) h₄) h₃

theorem does_levelLeap (s : State) (c : Nat) : Does [.trg] s (s.levelLeap c) :=
  .each _ (.refl _ _) fun _ _ h => .ite (.trg h rfl) h

theorem does_writeLeap (s : State) (c cause : Nat) (spec est : Bool) (start len : SubTick) (samples : Nat) : Does (eventedAnd [.acq, .mem, .epo]) s
    (s.writeLeap c cause spec est start len samples) := by
  unfold State.writeLeap
  refine .ite (.refl _ _) ?_
  extract_lets s₁ s₂ a a' a' s₃ s₄
  refine .via s₁ ((does_levelLeap ..).next (.refl _ _) rfl) fun h₁ => ?_
  refine .via s₂ ((does_record ..).next h₁ rfl) fun h₂ => ?_
  refine .via s₃ ((does_setActx ..).next h₂ rfl) fun h₃ => ?_
  refine .via s₄ (.ite ((does_countLeap ..).next h₃ rfl) h₃) fun h₄ => ?_
  exact (does_event ..).next h₄ rfl

theorem does_endLeap (s : State) (c : Nat) (spec : Bool) (stop : SubTick) : Does (eventedAnd [.acq, .mem, .epo]) s (s.endLeap c spec stop) := by
  unfold State.endLeap
  extract_lets a s₁
  refine .via s₁ ((does_setActx ..).next (.refl _ _) rfl) fun h₁ => ?_
  split
  · exact .refl _ _
  · exact (does_writeLeap ..).next h₁ rfl

theorem does_openLeap (s : State) (c : Nat) (spec : Bool) (cause : Nat) (start : SubTick) (est : Bool) : Does (eventedAnd [.acq, .mem, .epo]) s
    (s.openLeap c spec cause start est) := by
  unfold State.openLeap
  extract_lets a s₁ a'
  refine .via s₁ ((does_endLeap ..).next (.refl _ _) rfl) fun h₁ => ?_
  refine .ite (.refl _ _) ?_
  split
  · exact .ite (.refl _ _) ((does_setActx ..).next h₁ rfl)
  · exact (does_setActx ..).next (.refl _ _) rfl

theorem does_loseSpan (s : State) (c : Nat) (spec : Bool) (cause : Nat) (start len : SubTick) (samples : Nat) : Does (eventedAnd [.acq, .mem,
    .epo]) s (s.loseSpan c spec cause start len samples) := by
  unfold State.loseSpan
  extract_lets a s₁ a'
  refine .via s₁ ((does_writeLeap ..).next ((does_endLeap ..).next (.refl _ _) rfl) rfl) fun h₁ => ?_
  split
  · exact .ite ((does_writeLeap ..).next (.refl _ _) rfl) (.ite ((does_writeLeap ..).next (.refl _ _) rfl) ((does_setActx ..).next h₁ rfl))
  · exact (does_writeLeap ..).next (.refl _ _) rfl

theorem does_setXfc (s : State) (c : Nat) (x : XfCtx) : Does [.xf] s (s.setXfc c x) :=
  .xf (.refl _ _) rfl

theorem does_writeRun (s : State) (c : Nat) (r : DropRun) : Does (eventedAnd [.acq, .mem, .epo]) s (s.writeRun c r) :=
  (does_loseSpan ..).next (.refl _ _) rfl

theorem does_writeRuns (s : State) (c seq : Nat) : Does (eventedAnd [.acq, .mem, .epo, .xf]) s (s.writeRuns c seq) :=
  .each _ ((does_setXfc ..).next (.refl _ _) rfl) fun _ _ h => (does_writeRun ..).next h rfl

theorem does_flushRuns (s : State) (c : Nat) : Does (eventedAnd [.acq, .mem, .epo, .xf]) s (s.flushRuns c) :=
  .each _ ((does_setXfc ..).next (.refl _ _) rfl) fun _ _ h => (does_writeRun ..).next h rfl

theorem does_prevCut (s : State) (c : Nat) : Does [.xf] s (s.prevCut c) := by
  unfold State.prevCut
  extract_lets x
  split
  · exact (does_setXfc ..).next (.refl _ _) rfl
  · exact (does_setXfc ..).next (.refl _ _) rfl
  · exact .refl _ _

theorem does_prevLost (s : State) (c cause : Nat) : Does (eventedAnd [.acq, .mem, .epo, .xf]) s (s.prevLost c cause) := by
  unfold State.prevLost
  split
  · exact .refl _ _
  · extract_lets k stop s₁ s₂
    refine .via s₁ ((does_flushRuns ..).next (.refl _ _) rfl) fun h₁ => ?_
    refine .via s₂ (.ite ((does_loseSpan ..).next h₁ rfl) h₁) fun h₂ => ?_
    exact (does_prevCut ..).next h₂ rfl

theorem does_lose (s : State) (c cause : Nat) (start : SubTick) (est : Bool) : Does (eventedAnd [.acq, .mem, .epo, .xf]) s (s.lose c cause start
    est) := by
  unfold State.lose
  refine .ite (.ite ((does_prevLost ..).next (.refl _ _) rfl) (.refl _ _)) ?_
  extract_lets s₁ from_ s₂ s₃
  refine .via s₁ (.ite ((does_flushRuns ..).next (.refl _ _) rfl) (.refl _ _)) fun h₁ => ?_
  refine .via s₂ ((does_openLeap ..).next h₁ rfl) fun h₂ => ?_
  refine .via s₃ (.ite ((does_openLeap ..).next h₂ rfl) h₂) fun h₃ => ?_
  exact .ite ((does_prevCut ..).next h₃ rfl) h₃

theorem does_regain (s : State) (c : Nat) (stop : SubTick) : Does (eventedAnd [.acq, .mem, .epo]) s (s.regain c stop) :=
  (does_endLeap ..).next ((does_endLeap ..).next (.refl _ _) rfl) rfl

theorem does_setView (s : State) (c : Nat) (v : ViewSt) : Does [.ing] s (s.setView c v) :=
  .ing (.refl _ _) rfl

theorem does_gapEnd (s : State) (c : Nat) : Does [.ing] s (s.gapEnd c) :=
  (does_setView ..).next (.refl _ _) rfl

theorem does_faultEnd (s : State) (c : Nat) (spec : Bool) (stop : SubTick) : Does (eventedAnd [.acq, .mem, .epo]) s (s.faultEnd c spec stop) := by
  unfold State.faultEnd
  split
  · exact .ite ((does_endLeap ..).next (.refl _ _) rfl) (.refl _ _)
  · exact .refl _ _

theorem does_clockRecord (s : State) (c : Nat) (holdover : Bool) (subtype cause w1 w2 w3 : Nat) : Does (eventedAnd [.acq, .mem]) s (s.clockRecord c
    holdover subtype cause w1 w2 w3) :=
  (does_record ..).next (.refl _ _) rfl

theorem does_clockDue (s : State) (c cause gap : Nat) (hold : Bool) : Does [.acq] s (s.clockDue c cause gap hold) :=
  (does_setActx ..).next (.refl _ _) rfl

theorem does_clockWrite (s : State) (c : Nat) : Does (eventedAnd [.acq, .mem]) s (s.clockWrite c) :=
  .each _ ((does_setActx ..).next (.refl _ _) rfl) fun _ _ h => (does_clockRecord ..).next h rfl

theorem does_clockEst (s : State) (c : Nat) : Does [.acq] s (s.clockEst c) :=
  (does_setActx ..).next (.refl _ _) rfl

theorem does_epochRecord (s : State) (c flags new prev : Nat) (stamp : SubTick) (w3 : Nat) : Does (eventedAnd [.acq, .mem]) s (s.epochRecord c
    flags new prev stamp w3) :=
  (does_record ..).next (.refl _ _) rfl

theorem does_linkRecord (s : State) (c : Nat) (nondet : Bool) (link nM1 st : Nat) (stamp : SubTick) (lanes : Nat) : Does (eventedAnd [.acq, .mem])
    s (s.linkRecord c nondet link nM1 st stamp lanes) :=
  (does_record ..).next (.refl _ _) rfl

/-! Operations of Machine/Acquisition. -/

theorem does_pendSync (s : State) (c : Nat) : Does [.rf] s (s.pendSync c) :=
  .ite (.refl _ _) (.each _ (.refl _ _) fun _ _ h => (does_wr ..).next h rfl)

theorem does_setCapState (s : State) (c v : Nat) : Does [.rf] s (s.setCapState c v) :=
  (does_pendSync ..).next ((does_wr ..).next (.refl _ _) rfl) rfl

theorem does_setMap (s : State) (f : Nat → Fld) (c : Nat) : Does [.rf] s (s.setMap f c) :=
  (does_wr ..).next (.refl _ _) rfl

theorem does_armFail (s : State) (c err : Nat) : Does evented s (s.armFail c err) :=
  (does_event ..).next ((does_setMap ..).next ((does_wr ..).next (.refl _ _) rfl) rfl) rfl

theorem does_startArm (s : State) (c : Nat) : Does [.rf, .acq] s (s.startArm c) :=
  .ite ((does_setCapState ..).next (.refl _ _) rfl) ((does_setCapState ..).next ((does_setActx ..).next (.refl _ _) rfl) rfl)

theorem does_arm (s : State) (c : Nat) : Does (eventedAnd [.acq]) s (s.arm c) :=
  .ite ((does_armFail ..).next (.refl _ _) rfl) (.ite ((does_armFail ..).next (.refl _ _) rfl) (.ite (.refl _ _) (.ite ((does_armFail ..).next
      (.refl _ _) rfl) (.ite ((does_armFail ..).next (.refl _ _) rfl) ((does_startArm ..).next (.refl _ _) rfl)))))

theorem does_takeTrigger (s : State) (c : Nat) (T : SubTick) : Does [.rf, .acq] s (s.takeTrigger c T) :=
  (does_setCapState ..).next ((does_wrs ..).next ((does_setActx ..).next (.refl _ _) rfl) rfl) rfl

theorem does_endCapture (s : State) (c reason : Nat) : Does (eventedAnd [.acq, .mem]) s (s.endCapture c reason) := by
  unfold State.endCapture
  extract_lets a d T last postShort s₁ mode _ s₂ s₃ s₄ s₅
  refine .via s₁ ((does_record ..).next (.refl _ _) rfl) fun h₁ => ?_
  refine .via s₂ ((does_setActx ..).next h₁ rfl) fun h₂ => ?_
  refine .via s₃ ((does_setMap ..).next ((does_bump ..).next h₂ rfl) rfl) fun h₃ => ?_
  refine .via s₄ ((does_event ..).next h₃ rfl) fun h₄ => ?_
  refine .via s₅ ((does_setCapState ..).next h₄ rfl) fun h₅ => ?_
  exact .ite ((does_setCapState ..).next h₄ rfl) (.ite ((does_arm ..).next h₅ rfl) h₅)

theorem does_closeCapture (s : State) (c reason : Nat) : Does (eventedAnd [.acq, .mem]) s (s.closeCapture c reason) :=
  .ite ((does_endCapture ..).next (.refl _ _) rfl) ((does_setActx ..).next (.refl _ _) rfl)

theorem does_stopCapture (s : State) (c : Nat) (wait : Bool) : Does (eventedAnd [.acq, .mem]) s (s.stopCapture c wait) :=
  .ite ((does_closeCapture ..).next (.refl _ _) rfl) (.ite ((does_endCapture ..).next (.refl _ _) rfl) ((does_setCapState ..).next (.refl _ _) rfl))

theorem does_bufStat (s : State) : Does [.rf] s s.bufStat :=
  (does_peak ..).next ((does_wr ..).next (.refl _ _) rfl) rfl

theorem does_bufAdd (s : State) (c n : Nat) : Does [.rf, .acq] s (s.bufAdd c n) :=
  (does_bufStat ..).next (.ite (.acq (.refl _ _) rfl) (.acq (.refl _ _) rfl)) rfl

theorem does_bufDrain (s : State) (n0 n1 : Nat) : Does [.rf, .acq] s (s.bufDrain n0 n1) :=
  (does_bufStat ..).next (.acq (.refl _ _) rfl) rfl

theorem does_checkStop (s : State) (c : Nat) (stamp : SubTick) : Does (eventedAnd [.acq, .mem, .epo, .xf]) s (s.checkStop c stamp) := by
  unfold State.checkStop
  extract_lets a spans s₁ a' stop
  refine .via s₁ (.ite ((does_regain ..).next ((does_setActx ..).next (.refl _ _) rfl) rfl) (.refl _ _)) fun h₁ => ?_
  exact .ite (.refl _ _) (.ite ((does_lose ..).next ((does_setActx ..).next h₁ rfl) rfl) (.ite ((does_event ..).next ((does_lose ..).next
      ((does_setActx ..).next h₁ rfl) rfl) rfl) (.ite ((does_event ..).next ((does_lose ..).next ((does_setActx ..).next h₁ rfl) rfl) rfl) h₁)))

theorem does_checkHbm (s : State) (c : Nat) (stamp : SubTick) : Does (eventedAnd [.acq, .mem, .epo, .xf]) s (s.checkHbm c stamp) := by
  unfold State.checkHbm
  extract_lets a lost spans s₁
  refine .via s₁ ((does_setActx ..).next (.refl _ _) rfl) fun h₁ => ?_
  exact .ite (.refl _ _) (.ite ((does_lose ..).next ((does_setActx ..).next (.refl _ _) rfl) rfl) (.ite (.ite h₁ ((does_regain ..).next h₁ rfl))
      (.refl _ _)))

theorem does_skipRaw (s : State) (c : Nat) : Does [.rf] s (s.skipRaw c) :=
  .ite ((does_bump ..).next (.refl _ _) rfl) (.refl _ _)

theorem does_drainNote (s : State) (c kind idx : Nat) (stamp : SubTick) (ovr : Bool) : Does [.acq] s (s.drainNote c kind idx stamp ovr) :=
  (does_setActx ..).next (.refl _ _) rfl

theorem does_storeRaw (s : State) (c : Nat) (stamp : SubTick) (bytes : List Byte) (ovr : Bool) : Does [.rf, .acq, .mem] s (s.storeRaw c stamp bytes
    ovr) := by
  unfold State.storeRaw
  extract_lets a d w s₁ s₂
  refine .via s₁ ((does_setActx ..).next (.refl _ _) rfl) fun h₁ => ?_
  refine .via s₂ (.ite ((does_drainNote ..).next h₁ rfl) h₁) fun h₂ => ?_
  exact .ite ((does_bufAdd ..).next ((does_bump ..).next ((does_writeBytes ..).next h₂ rfl) rfl) rfl) h₁

theorem does_localLeap (s : State) (c cause : Nat) (start len : SubTick) (samples : Nat) (toRec toStr : Bool) : Does [.acq] s (s.localLeap c cause
    start len samples toRec toStr) :=
  .ite (.refl _ _) ((does_setActx ..).next (.refl _ _) rfl)

theorem does_ringKept (s : State) (c : Nat) (stamp : SubTick) : Does [.acq] s (s.ringKept c stamp) := by
  unfold State.ringKept
  extract_lets a
  split
  · exact .refl _ _
  · exact (does_localLeap ..).next ((does_setActx ..).next (.refl _ _) rfl) rfl

theorem does_checkRing (s : State) (c : Nat) (stamp : SubTick) : Does [.acq] s (s.checkRing c stamp) :=
  .ite (.refl _ _) (.ite ((does_ringKept ..).next (.refl _ _) rfl) (.ite ((does_setActx ..).next (.refl _ _) rfl) (.refl _ _)))

theorem does_drainRaw (s : State) (c : Nat) (stamp : SubTick) (bytes : List Byte) (ovr : Bool) : Does [.rf, .acq, .mem] s (s.drainRaw c stamp bytes
    ovr) :=
  .ite (.ite ((does_setActx ..).next (.refl _ _) rfl) ((does_bufAdd ..).next ((does_setActx ..).next ((does_writeBytes ..).next ((does_drainNote
      ..).next (.refl _ _) rfl) rfl) rfl) rfl)) (.refl _ _)

theorem does_ringRestart (s : State) (c : Nat) (stamp : SubTick) : Does (eventedAnd [.acq, .mem]) s (s.ringRestart c stamp) :=
  .ite ((does_record ..).next ((does_setActx ..).next (.refl _ _) rfl) rfl) (.refl _ _)

theorem does_takeSample (s : State) (c : Nat) (stamp : SubTick) (bytes : List Byte) (ovr : Bool) : Does (eventedAnd [.acq, .mem, .epo, .xf]) s
    (s.takeSample c stamp bytes ovr) := by
  unfold State.takeSample
  refine .ite (.refl _ _) ?_
  refine .ite ((does_setActx ..).next ((does_openLeap ..).next (.refl _ _) rfl) rfl) ?_
  extract_lets s₁ writes s₂ s₃ s₄ a st s₅ _ s₆ s₇
  refine .via s₁ ((does_ringRestart ..).next ((does_faultEnd ..).next (.refl _ _) rfl) rfl) fun h₁ => ?_
  refine .via s₂ (.ite ((does_checkStop ..).next h₁ rfl) h₁) fun h₂ => ?_
  refine .via s₃ (.ite ((does_checkHbm ..).next h₂ rfl) h₂) fun h₃ => ?_
  refine .via s₄ (.ite h₃ ((does_checkRing ..).next h₃ rfl)) fun h₄ => ?_
  refine .via s₅ ((does_setActx ..).next h₄ rfl) fun h₅ => ?_
  refine .via s₆ (.ite ((does_setActx ..).next h₅ rfl) h₅) fun h₆ => ?_
  refine .via s₇ ((does_drainRaw ..).next h₆ rfl) fun h₇ => ?_
  exact .ite h₅ (.ite (.ite ((does_skipRaw ..).next h₇ rfl) ((does_storeRaw ..).next h₇ rfl)) h₇)

theorem does_drainSpec (s : State) (c : Nat) (start : SubTick) (bytes : List Byte) (ovr : Bool) : Does [.rf, .acq, .mem] s (s.drainSpec c start
    bytes ovr) :=
  .ite (.ite ((does_setActx ..).next (.refl _ _) rfl) ((does_bufAdd ..).next ((does_setActx ..).next ((does_writeBytes ..).next ((does_drainNote
      ..).next (.refl _ _) rfl) rfl) rfl) rfl)) (.refl _ _)

theorem does_countRecord (s : State) (c w : Nat) (start : SubTick) (samples : Nat) (lost : Bool) : Does [.rf, .acq] s (s.countRecord c w start
    samples lost) :=
  (does_setActx ..).next (.ite ((does_wr ..).next (.refl _ _) rfl) (.refl _ _)) rfl

theorem does_takeRecord (s : State) (c : Nat) (start : SubTick) (samples : Nat) (bytes : List Byte) (ovr : Bool) : Does (eventedAnd [.acq, .mem,
    .epo]) s (s.takeRecord c start samples bytes ovr) := by
  unfold State.takeRecord
  refine .ite (.refl _ _) ?_
  refine .ite ((does_openLeap ..).next (.refl _ _) rfl) ?_
  refine .ite ((does_faultEnd ..).next (.refl _ _) rfl) ?_
  extract_lets s₁ old s₂ a s₃ d w lost s₄ off s₅ s₆
  refine .via s₁ ((does_faultEnd ..).next (.refl _ _) rfl) fun h₁ => ?_
  refine .via s₂ ((does_drainSpec ..).next h₁ rfl) fun h₂ => ?_
  refine .via s₃ ((does_setActx ..).next h₂ rfl) fun h₃ => ?_
  refine .via s₄ ((does_countRecord ..).next h₃ rfl) fun h₄ => ?_
  refine .via s₅ (.ite ((does_drainNote ..).next h₄ rfl) h₄) fun h₅ => ?_
  refine .via s₆ ((does_bump ..).next h₅ rfl) fun h₆ => ?_
  exact .ite h₃ (.ite (.ite h₆ ((does_bufAdd ..).next (.each _ h₆ fun _ _ h => (does_setByte ..).next h rfl) rfl)) h₄)

theorem does_capCtl (s : State) (c w : Nat) : Does (eventedAnd [.acq, .mem]) s (s.capCtl c w) := by
  unfold State.capCtl
  extract_lets s₁ s₂ a
  refine .via s₁ (.ite ((does_arm ..).next (.refl _ _) rfl) (.refl _ _)) fun h₁ => ?_
  refine .via s₂ ?_ fun h₂ => ?_
  · unfold s₂
    refine .ite ?_ ?_
    · split
      · exact (does_closeCapture ..).next h₁ rfl
      · exact (does_setCapState ..).next h₁ rfl
      · exact (does_setCapState ..).next h₁ rfl
      · exact (does_setCapState ..).next h₁ rfl
      · exact h₁
    · exact h₁
  exact .ite (.ite ((does_setCapState ..).next ((does_setActx ..).next h₂ rfl) rfl) ((does_setCapState ..).next h₂ rfl)) h₂

theorem does_execCapArm (t : Nat) (c : Fin 1024) (s : State) : Answers (eventedAnd [.tick, .upTime, .page, .acq, .mem]) s (execCapArm t c s) :=
  ⟨_, rfl, .hosted ((does_advance ..).next (.refl _ _) rfl) rfl fun _ h => (does_capCtl ..).next h rfl⟩

theorem does_execCapDisarm (t : Nat) (c : Fin 1024) (s : State) : Answers (eventedAnd [.tick, .upTime, .page, .acq, .mem]) s (execCapDisarm t c
    s) :=
  ⟨_, rfl, .hosted ((does_advance ..).next (.refl _ _) rfl) rfl fun _ h => (does_capCtl ..).next h rfl⟩

theorem does_execCapRelease (t : Nat) (c : Fin 1024) (s : State) : Answers (eventedAnd [.tick, .upTime, .page, .acq, .mem]) s (execCapRelease t c
    s) :=
  ⟨_, rfl, .hosted ((does_advance ..).next (.refl _ _) rfl) rfl fun _ h => (does_capCtl ..).next h rfl⟩

theorem does_execEveFull (t : Nat) (c : Fin 1024) (s : State) : Answers [.rf, .tick, .upTime] s (execEveFull t c s) :=
  ⟨_, rfl, .ite ((does_setCapState ..).next ((does_advance ..).next (.refl _ _) rfl) rfl) ((does_advance ..).next (.refl _ _) rfl)⟩

theorem does_execFreeRunTrigger (t : Nat) (c : Fin 1024) (s : State) : Answers [.rf, .tick, .upTime, .acq] s (execFreeRunTrigger t c s) := by
  refine ⟨_, rfl, ?_⟩
  refine .ite ((does_advance ..).next (.refl _ _) rfl) ?_
  split
  · exact (does_takeTrigger ..).next ((does_advance ..).next (.refl _ _) rfl) rfl
  · exact (does_advance ..).next (.refl _ _) rfl

theorem does_execCaptureEnd (t : Nat) (c : Fin 1024) (s : State) : Answers (eventedAnd [.tick, .upTime, .acq, .mem]) s (execCaptureEnd t c s) :=
  ⟨_, rfl, .ite ((does_endCapture ..).next ((does_advance ..).next (.refl _ _) rfl) rfl) ((does_advance ..).next (.refl _ _) rfl)⟩

theorem does_execHeldRearm (t : Nat) (c : Fin 1024) (s : State) : Answers [.rf, .tick, .upTime, .acq] s (execHeldRearm t c s) :=
  ⟨_, rfl, .ite ((does_startArm ..).next ((does_advance ..).next (.refl _ _) rfl) rfl) ((does_advance ..).next (.refl _ _) rfl)⟩

theorem does_execStreamWriteResume (t : Nat) (c : Fin 1024) (s : State) : Answers [.tick, .upTime, .acq] s (execStreamWriteResume t c s) :=
  ⟨_, rfl, .ite ((does_setActx ..).next ((does_advance ..).next (.refl _ _) rfl) rfl) ((does_advance ..).next (.refl _ _) rfl)⟩

theorem does_execBackpressureEnd (t : Nat) (c : Fin 1024) (drained0 drained1 : Nat) (s : State) : Answers [.rf, .tick, .upTime, .acq] s
    (execBackpressureEnd t c drained0 drained1 s) :=
  ⟨_, rfl, .ite ((does_setActx ..).next ((does_bufDrain ..).next ((does_advance ..).next (.refl _ _) rfl) rfl) rfl) ((does_bufDrain ..).next
      ((does_advance ..).next (.refl _ _) rfl) rfl)⟩

theorem does_execRecordQueueFree (t : Nat) (c : Fin 1024) (s : State) : Answers [.tick, .upTime, .acq] s (execRecordQueueFree t c s) :=
  ⟨_, rfl, (does_setActx ..).next ((does_advance ..).next (.refl _ _) rfl) rfl⟩

theorem does_acctSnap (s : State) (c : Nat) : Does [.rf] s (s.acctSnap c) :=
  (does_wrs ..).next ((does_wrs ..).next (.refl _ _) rfl) rfl

theorem does_execAcctSnapshot (t : Nat) (c : Fin 1024) (s : State) : Answers [.rf, .tick, .upTime, .page] s (execAcctSnapshot t c s) :=
  ⟨_, rfl, .hosted ((does_advance ..).next (.refl _ _) rfl) rfl fun _ h => (does_acctSnap ..).next h rfl⟩

theorem does_acqClr (s : State) : Does [.rf] s s.acqClr :=
  (does_wrs ..).next (.refl _ _) rfl

theorem does_execAcqClr (t : Nat) (s : State) : Answers [.rf, .tick, .upTime, .page] s (execAcqClr t s) :=
  ⟨_, rfl, .hosted ((does_advance ..).next (.refl _ _) rfl) rfl fun _ h => (does_acqClr ..).next h rfl⟩

/-! Operations of Machine/Image. -/

theorem does_loadPage (s : State) (img : Option EpochImage) (p : Nat) : Does [.rf] s (s.loadPage img p) :=
  .each _ (.refl _ _) fun _ _ h => (does_wr ..).next h rfl

/-! Operations of Machine/SvcBase. -/

theorem does_setRing (s : State) (r : Nat) (x : RingSt) : Does [.svc] s (s.setRing r x) :=
  .svc (.refl _ _) rfl

theorem does_svcTakeIf {s : State} {r : Nat} {p : Nat → Bool} {x : SvcEntry × State} (h : s.svcTakeIf r p = some x) : Does [.svc] s x.2 := by
  unfold State.svcTakeIf at h
  split at h
  · cases h
  · split at h
    · split at h
      · cases h
        exact .svc (.refl _ _) rfl
      · cases h
    · cases h

theorem does_svcTake {s : State} {r opc : Nat} {x : SvcEntry × State} (h : s.svcTake r opc = some x) : Does [.svc] s x.2 :=
  does_svcTakeIf h

theorem does_complete (s : State) (e : SvcEntry) (st : SvcStatus) (res0 res1 : Nat) : Does [.svc] s (s.complete e st res0 res1) :=
  .svc (.refl _ _) rfl

theorem does_defer (s : State) (e : SvcEntry) : Does [.svc] s (s.defer e).2 := by
  unfold State.defer
  split
  · exact .svc (.refl _ _) rfl
  · exact (does_complete ..).next (.refl _ _) rfl

theorem Does.atOnce {l : List Part} {s t : State} {r opc : Nat} {f : State → SvcEntry → SvcStatus × Nat × Nat × State} (h : Does l s t)
    (w : inParts [.svc] l = true) (hf : ∀ t e, Does l s t → Does l s (f t e).2.2.2) : Does l s (t.atOnce r opc f) := by
  unfold State.atOnce
  split
  · exact h
  · rename_i e u hx
    exact (does_complete ..).next (hf u e ((does_svcTake hx).next h w)) w

/-! Operations of Machine/Conditioning. -/

theorem does_setInput (s : State) (n : Nat) (x : IcSt) : Does [.ic] s (s.setInput n x) :=
  .ic (.refl _ _) rfl

theorem does_icWr (s : State) (n : Nat) (f : Fld) (v : Nat) : Does [.rf] s (s.icWr n f v) :=
  .each _ (.refl _ _) fun _ _ h => (does_wr ..).next h rfl

theorem does_icWrs (s : State) (n : Nat) (l : List (Fld × Nat)) : Does [.rf] s (s.icWrs n l) :=
  .each _ (.refl _ _) fun _ _ h => (does_icWr ..).next h rfl

theorem does_setIcAct (s : State) (n : Nat) (l : List IcCoef) : Does [.rf] s (s.setIcAct n l) :=
  .each _ (.refl _ _) fun _ _ h => (does_icWrs ..).next h rfl

theorem does_t1Request (s : State) (n cause : Nat) (forced : Bool) : Does [.rf, .ic] s (s.t1Request n cause forced) :=
  .ite (.refl _ _) (.ite (.ite ((does_icWrs ..).next (.refl _ _) rfl) (.refl _ _)) (.ite (.refl _ _) ((does_icWrs ..).next ((does_setInput ..).next
      (.refl _ _) rfl) rfl)))

theorem does_tempCheck (s : State) (n : Nat) : Does [.rf, .ic] s (s.tempCheck n) := by
  unfold State.tempCheck
  split
  · extract_lets s₁ d r hit _ s₂
    refine .via s₁ ((does_icWr ..).next (.refl _ _) rfl) fun h₁ => ?_
    refine .via s₂ ((does_setInput ..).next h₁ rfl) fun h₂ => ?_
    exact .ite ((does_t1Request ..).next h₂ rfl) h₂
  · exact .refl _ _

theorem does_execTier0Update (t : Nat) (slot : Fin 256) (est : List IcEst) (s : State) : Answers [.rf, .tick, .upTime, .ic] s (execTier0Update t
    slot est s) := by
  refine ⟨_, rfl, ?_⟩
  refine .ite ((does_advance ..).next (.refl _ _) rfl) ?_
  extract_lets act sk ob all new hit s₁ s₂ _ s₃
  refine .via s₁ ((does_setIcAct ..).next ((does_advance ..).next (.refl _ _) rfl) rfl) fun h₁ => ?_
  refine .via s₂ ((does_icWrs ..).next h₁ rfl) fun h₂ => ?_
  refine .via s₃ ((does_setInput ..).next h₂ rfl) fun h₃ => ?_
  exact .ite ((does_t1Request ..).next h₃ rfl) h₃

theorem does_t1End (s : State) (n result worst gd sd od : Nat) (stop : SubTick) : Does (eventedAnd [.acq, .mem, .epo, .ing, .svc, .ic]) s (s.t1End
    n result worst gd sd od stop) := by
  unfold State.t1End
  extract_lets x done forced temp s₁ s₆ s₇ s₈ hold s₉ _ s₁₀ st
  refine .via s₁ ?_ fun h₁ => ?_
  · unfold s₁
    refine .each _ (.refl _ _) fun _ _ h₂ => ?_
    extract_lets s₃ s₄ s₅
    refine .via s₃ (.ite ((does_gapEnd ..).next ((does_regain ..).next h₂ rfl) rfl) h₂) fun h₃ => ?_
    refine .via s₄ ((does_record ..).next h₃ rfl) fun h₄ => ?_
    refine .via s₅ (.ite h₄ ((does_setMap ..).next h₄ rfl)) fun h₅ => ?_
    exact .ite h₅ (.ite ((does_bumpSat ..).next h₅ rfl) ((does_bumpSat ..).next h₅ rfl))
  refine .via s₆ ((does_eventIf ..).next h₁ rfl) fun h₆ => ?_
  refine .via s₇ ((does_icWrs ..).next h₆ rfl) fun h₇ => ?_
  refine .via s₈ (.ite ((does_icWrs ..).next h₇ rfl) h₇) fun h₈ => ?_
  refine .via s₉ (.each _ h₈ fun _ _ h => (does_wr ..).next h rfl) fun h₉ => ?_
  refine .via s₁₀ ((does_setInput ..).next h₉ rfl) fun h₁₀ => ?_
  exact .each _ h₁₀ fun _ _ h => (does_complete ..).next h rfl

theorem does_t1Abandon (s : State) (n result : Nat) (stop : SubTick) : Does (eventedAnd [.acq, .mem, .epo, .ing, .svc, .ic]) s (s.t1Abandon n
    result stop) :=
  .ite ((does_t1End ..).next ((does_setIcAct ..).next (.refl _ _) rfl) rfl) (.refl _ _)

theorem does_t1Lost (s : State) (n result : Nat) : Does (eventedAnd [.acq, .mem, .epo, .ing, .svc, .ic]) s (s.t1Lost n result) :=
  (does_t1Abandon ..).next (.refl _ _) rfl

theorem does_execCalTier1 (t : Nat) (r : Fin 4) (s : State) : Answers [.rf, .tick, .upTime, .svc, .ic] s (execCalTier1 t r s) := by
  unfold execCalTier1
  extract_lets s₁
  have h₁ : Does [.rf, .tick, .upTime, .svc, .ic] _ s₁ := (does_advance ..).next (.refl _ _) rfl
  split
  · exact ⟨_, rfl, h₁⟩
  · rename_i _ u₂ e
    have h₂ : Does [.rf, .tick, .upTime, .svc, .ic] _ u₂ := (does_svcTake e).next h₁ rfl
    refine ⟨_, rfl, ?_⟩
    refine .ite ((does_complete ..).next h₂ rfl) ?_
    extract_lets d
    refine .via d.2 ((does_defer ..).next h₂ rfl) fun hd => ?_
    exact .ite ((does_t1Request ..).next hd rfl) hd

theorem does_execT1RunStart (t : Nat) (slot : Fin 256) (s : State) : Answers [.rf, .tick, .upTime, .ic] s (execT1RunStart t slot s) :=
  ⟨_, rfl, .ite ((does_advance ..).next (.refl _ _) rfl) ((does_icWrs ..).next (.each _ ((does_setInput ..).next ((does_advance ..).next (.refl _
      _) rfl) rfl) fun _ _ h => (does_bumpSat ..).next h rfl) rfl)⟩

theorem does_windowSplit (s : State) (n : Nat) : Does [.ic] s (s.windowSplit n) :=
  .ite ((does_setInput ..).next (.refl _ _) rfl) (.refl _ _)

theorem does_execT1Window1End (t : Nat) (slot : Fin 256) (est : List IcEst) (s : State) : Answers [.rf, .tick, .upTime, .ic] s (execT1Window1End t
    slot est s) :=
  ⟨_, rfl, .ite ((does_windowSplit ..).next ((does_advance ..).next (.refl _ _) rfl) rfl) ((does_icWr ..).next ((does_setInput ..).next
      ((does_windowSplit ..).next ((does_advance ..).next (.refl _ _) rfl) rfl) rfl) rfl)⟩

theorem does_execT1WaitExpiry (t : Nat) (slot : Fin 256) (s : State) : Answers [.rf, .tick, .upTime] s (execT1WaitExpiry t slot s) :=
  ⟨_, rfl, .ite ((does_icWrs ..).next ((does_advance ..).next (.refl _ _) rfl) rfl) ((does_advance ..).next (.refl _ _) rfl)⟩

theorem does_execT1HoldExpiry (t : Nat) (slot : Fin 256) (s : State) : Answers [.rf, .tick, .upTime, .ic] s (execT1HoldExpiry t slot s) := by
  refine ⟨_, rfl, ?_⟩
  refine .ite ((does_advance ..).next (.refl _ _) rfl) ?_
  extract_lets _ s₁ s₂
  refine .via s₁ ((does_setInput ..).next ((does_advance ..).next (.refl _ _) rfl) rfl) fun h₁ => ?_
  refine .via s₂ (.ite h₁ ((does_tempCheck ..).next h₁ rfl)) fun h₂ => ?_
  exact .ite ((does_t1Request ..).next h₂ rfl) h₂

/-! Operations of Machine/Levels. -/

theorem does_levelStep (s : State) (c l : Nat) (i q : Int) (stamp : SubTick) : Does [.trg] s (s.levelStep c l i q stamp) :=
  .trg (.refl _ _) rfl

theorem does_levelTap (s : State) (c tap : Nat) (i q : Int) (stamp : SubTick) : Does [.trg] s (s.levelTap c tap i q stamp) :=
  .each _ (.refl _ _) fun _ _ h => .ite ((does_levelStep ..).next h rfl) h

theorem does_levelSend (s : State) (k : Nat) (e : LvlEvt) : Does [.trg] s (s.levelSend k e) :=
  .ite ((does_sourcePulse ..).next (.refl _ _) rfl) ((does_sourceLevel ..).next (.refl _ _) rfl)

theorem does_execLevelSourceTransition (t : Nat) (c : Fin 1024) (l : Fin 2) (s : State) : Answers [.tick, .upTime, .trg] s
    (execLevelSourceTransition t c l s) := by
  unfold execLevelSourceTransition
  extract_lets s₁ k x _
  have h₁ : Does [.tick, .upTime, .trg] _ s₁ := (does_advance ..).next (.refl _ _) rfl
  split
  · exact ⟨_, rfl, h₁⟩
  · exact ⟨_, rfl, .ite h₁ ((does_levelSend ..).next (.trg h₁ rfl) rfl)⟩

theorem does_levelEnd (s : State) (c l t : Nat) : Does [.trg] s (s.levelEnd c l t) :=
  (does_sourceLevel ..).next (.each _ (.trg (.refl _ _) rfl) fun _ _ h => (does_levelSend ..).next h rfl) rfl

theorem does_levelsLost (s : State) : Does [.trg] s s.levelsLost :=
  .trg (.refl _ _) rfl

/-! Operations of Machine/Views. -/

theorem does_freeInt (s : State) : Does [.freeCnt] s s.freeInt.2 := by
  unfold State.freeInt
  split
  · rename_i _ u₁ e
    refine .via u₁ (.snd e ((does_free ..).next (.refl _ _) rfl)) fun h₁ => ?_
    exact h₁

theorem does_gridTake (s : State) (c : Nat) (y : ViewSample) (fresh restart : Bool) : Does [.xf] s (s.gridTake c y fresh restart) :=
  .ite ((does_setXfc ..).next (.refl _ _) rfl) ((does_setXfc ..).next (.refl _ _) rfl)

theorem does_viewTake (s : State) (c : Nat) (y : ViewSample) : Does (eventedAnd [.acq, .mem, .epo, .xf, .ing]) s (s.viewTake c y) :=
  (does_takeSample ..).next ((does_gridTake ..).next ((does_levelTap ..).next (.ite ((does_setView ..).next (.refl _ _) rfl) (.refl _ _)) rfl) rfl)
      rfl

theorem does_prevTake (s : State) (c : Nat) (y : ViewSample) : Does [.xf] s (s.prevTake c y) :=
  (does_setXfc ..).next (.refl _ _) rfl

theorem does_viewDeliver (s : State) (c : Nat) (y : ViewSample) : Does (eventedAnd [.acq, .mem, .epo, .xf, .ing]) s (s.viewDeliver c y) :=
  .ite ((does_prevTake ..).next (.refl _ _) rfl) (.ite ((does_setView ..).next (.refl _ _) rfl) ((does_viewTake ..).next (.refl _ _) rfl))

theorem does_chainTake (s : State) (w : ViewSet) (v : ViewChain) (fine n n0 : Nat) (a0 : SubTick) (x : Int × Int) (mark : Nat) : Does [.freeCnt] s
    (s.chainTake w v fine n n0 a0 x mark).2 := by
  unfold State.chainTake
  extract_lets sums v combs v' stamp out
  split
  · exact .refl _ _
  · split
    · exact .refl _ _
    · exact .freeCnt (.refl _ _) rfl

theorem does_chainStep (s : State) (w : ViewSet) (v : ViewChain) (x : SlotSample) : Does [.freeCnt] s (s.chainStep w v x).2 := by
  unfold State.chainStep
  extract_lets n v y zero v'
  split
  · exact .refl _ _
  · split
    · exact .refl _ _
    · split
      · exact (does_chainTake ..).next (.refl _ _) rfl
      · exact (does_chainTake ..).next (.refl _ _) rfl

theorem does_lossEnd (s : State) (c : Nat) (stamp : SubTick) : Does (eventedAnd [.acq, .mem, .epo, .ing]) s (s.lossEnd c stamp) := by
  unfold State.lossEnd
  extract_lets a src s₁
  refine .via s₁ ((does_clockWrite ..).next (.refl _ _) rfl) fun h₁ => ?_
  exact .ite ((does_gapEnd ..).next ((does_regain ..).next h₁ rfl) rfl) h₁

theorem does_hopLoss (s : State) (c : Nat) (stamp : SubTick) : Does (eventedAnd [.acq, .mem, .epo, .xf, .ing]) s (s.hopLoss c stamp) :=
  .ite (.refl _ _) ((does_lose ..).next ((does_lossEnd ..).next (.refl _ _) rfl) rfl)

theorem does_viewInput (s : State) (c : Nat) (x : SlotSample) : Does (eventedAnd [.acq, .mem, .epo, .xf, .ing, .freeCnt]) s (s.viewInput c x) := by
  unfold State.viewInput
  refine .ite (.refl _ _) ?_
  refine .ite ((does_hopLoss ..).next (.refl _ _) rfl) ?_
  extract_lets s₁ r _ s₂
  refine .via s₁ ((does_levelTap ..).next ((does_lossEnd ..).next (.refl _ _) rfl) rfl) fun h₁ => ?_
  refine .via r.2 ((does_chainStep ..).next h₁ rfl) fun hr => ?_
  refine .via s₂ ((does_setView ..).next hr rfl) fun h₂ => ?_
  split
  · exact h₂
  · exact (does_viewDeliver ..).next ((does_bumpSat ..).next h₂ rfl) rfl

theorem does_oldInput (s : State) (c : Nat) (x : SlotSample) : Does [.xf, .ing, .freeCnt] s (s.oldInput c x) := by
  unfold State.oldInput
  split
  · exact .refl _ _
  · refine .ite ((does_setView ..).next (.refl _ _) rfl) ?_
    refine .ite (.refl _ _) ?_
    extract_lets r _ s₁
    refine .via r.2 ((does_chainStep ..).next (.refl _ _) rfl) fun hr => ?_
    refine .via s₁ ((does_setView ..).next hr rfl) fun h₁ => ?_
    split
    · exact h₁
    · exact (does_prevTake ..).next h₁ rfl

theorem does_viewStart (s : State) (c eqx : Nat) (start : SubTick) : Does [.ing] s (s.viewStart c eqx start) :=
  (does_setView ..).next (.refl _ _) rfl

theorem does_oldLost (s : State) (n cause : Nat) : Does (eventedAnd [.acq, .mem, .epo, .xf, .ing]) s (s.oldLost n cause) :=
  .each _ (.refl _ _) fun _ _ h => (does_setView ..).next ((does_prevLost ..).next h rfl) rfl

theorem does_feed (s : State) (c : Nat) (xs : List SlotSample) : Does (eventedAnd [.acq, .mem, .epo, .xf, .ing, .freeCnt]) s (s.feed c xs) :=
  .each _ (.refl _ _) fun _ _ h => (does_viewInput ..).next h rfl

theorem does_feedAll (s : State) (n : Nat) (xs : List SlotSample) : Does (eventedAnd [.acq, .mem, .epo, .xf, .ing, .freeCnt]) s (s.feedAll n
    xs) := by
  unfold State.feedAll
  extract_lets late turn old s₁ s₂
  refine .via s₁ (.each _ (.refl _ _) fun _ _ h => (does_setView ..).next h rfl) fun h₁ => ?_
  refine .via s₂ ?_ fun h₂ => ?_
  · unfold s₂
    refine .each _ h₁ fun _ _ h₃ => ?_
    exact .each _ h₃ fun _ _ h => (does_oldInput ..).next h rfl
  exact .each _ h₂ fun _ _ h => (does_feed ..).next h rfl

theorem does_correct (s : State) (a : IcCoef) (slices per : Nat) (x : BitVec 16) : Does [.freeCnt] s (s.correct a slices per x).2 := by
  unfold State.correct
  extract_lets y y'
  split
  · exact .refl _ _
  · split
    · rename_i _ u₁ e
      refine .via u₁ (.snd e ((does_freeInt ..).next (.refl _ _) rfl)) fun h₁ => ?_
      exact h₁

theorem does_correctFrame (s : State) (n : Nat) (xs : List SlotSample) : Does [.freeCnt] s (s.correctFrame n xs).2 :=
  Does.foldlSnd _ (.refl _ _) fun _ _ h => (does_correct ..).next h rfl

theorem does_withhold (s : State) (n : Nat) (xs : List SlotSample) : Does (eventedAnd [.acq, .mem, .epo, .xf, .ing, .ic]) s (s.withhold n xs) := by
  unfold State.withhold
  extract_lets fine s₁ x s₂ s₃ x'
  refine .via s₁ ((does_windowSplit ..).next (.refl _ _) rfl) fun h₁ => ?_
  refine .via s₂ ((does_setInput ..).next h₁ rfl) fun h₂ => ?_
  refine .via s₃ (.ite h₁ (.each _ h₂ fun _ _ h => .ite h ((does_lose ..).next ((does_lossEnd ..).next h rfl) rfl))) fun h₃ => ?_
  exact .ite ((does_setInput ..).next h₃ rfl) ((does_setInput ..).next h₃ rfl)

theorem does_corrected (s : State) (n : Nat) (xs : List SlotSample) : Does [.freeCnt] s (s.corrected n xs).2 := by
  unfold State.corrected
  split
  · exact .refl _ _
  · exact (does_correctFrame ..).next (.refl _ _) rfl

theorem does_t1Leaves (s : State) (n fine : Nat) : Does (eventedAnd [.acq, .mem, .epo, .ing, .svc, .ic]) s (s.t1Leaves n fine) :=
  .ite ((does_t1Abandon ..).next (.refl _ _) rfl) (.refl _ _)

theorem does_sourceInput (s : State) (n : Nat) (xs : List SlotSample) : Does (eventedAnd [.acq, .mem, .epo, .xf, .ing, .svc, .ic, .freeCnt]) s
    (s.sourceInput n xs) := by
  unfold State.sourceInput
  extract_lets s₁ _ s₂ y
  refine .via s₁ ?_ fun h₁ => ?_
  · unfold s₁
    split
    · exact (does_t1Leaves ..).next (.refl _ _) rfl
    · exact .refl _ _
  refine .via s₂ (.ite h₁ ((does_setInput ..).next h₁ rfl)) fun h₂ => ?_
  refine .via y.2 ((does_corrected ..).next h₂ rfl) fun hy => ?_
  exact .ite ((does_withhold ..).next h₁ rfl) ((does_feedAll ..).next hy rfl)

theorem does_execT1Window2End (t : Nat) (slot : Fin 256) (est : List IcEst) (s : State) : Answers (eventedAnd [.tick, .upTime, .acq, .mem, .epo,
    .xf, .ing, .svc, .ic, .freeCnt]) s (execT1Window2End t slot est s) :=
  ⟨_, rfl, .ite ((does_advance ..).next (.refl _ _) rfl) (.each _ ((does_t1End ..).next ((does_setInput ..).next ((does_setIcAct ..).next
      ((does_advance ..).next (.refl _ _) rfl) rfl) rfl) rfl) fun _ _ h => (does_sourceInput ..).next h rfl)⟩

/-! Operations of Machine/Ingest. -/

theorem does_setLnk (s : State) (l : Nat) (x : LnkSt) : Does [.ing] s (s.setLnk l x) :=
  .ing (.refl _ _) rfl

theorem does_setSlt (s : State) (n : Nat) (x : SlotSt) : Does [.ing] s (s.setSlt n x) :=
  .ing (.refl _ _) rfl

theorem does_setLinkState (s : State) (l v : Nat) : Does [.rf] s (s.setLinkState l v) :=
  (does_wr ..).next (.refl _ _) rfl

theorem does_laneEvent (s : State) (x : Nat) : Does evented s (s.laneEvent x) :=
  (does_setRaw ..).next (.refl _ _) rfl

theorem does_polSync (s : State) (q : Nat) : Does [.rf] s (s.polSync q) :=
  .each _ (.refl _ _) fun _ _ h => (does_wr ..).next h rfl

theorem does_lanesRestart (s : State) (l : Nat) : Does evented s (s.lanesRestart l) :=
  .each _ (.refl _ _) fun _ _ h => .ite h ((does_laneEvent ..).next ((does_wrs ..).next h rfl) rfl)

theorem does_linkStops (s : State) (l : Nat) : Does (eventedAnd [.acq, .mem, .epo, .xf, .ing, .svc, .ic]) s (s.linkStops l) :=
  .each _ (.each _ (.each _ (.each _ (.refl _ _) fun _ _ h => (does_t1Lost ..).next h rfl) fun _ _ h => (does_oldLost ..).next h rfl) fun _ _ h =>
      (does_lose ..).next h rfl) fun _ _ h => (does_setRaw ..).next ((does_wr ..).next ((does_setSlt ..).next h rfl) rfl) rfl

theorem does_linkDown (s : State) (l lanes cause : Nat) : Does (eventedAnd [.acq, .mem, .epo, .xf, .ing, .svc, .ic]) s (s.linkDown l lanes
    cause) := by
  unfold State.linkDown
  extract_lets st x nm1 nondet s₁ s₂ s₃ s₄ s₅
  refine .via s₁ (.each _ (.refl _ _) fun _ _ h => (does_linkRecord ..).next h rfl) fun h₁ => ?_
  refine .via s₂ ((does_setLinkState ..).next h₁ rfl) fun h₂ => ?_
  refine .via s₃ ((does_setLnk ..).next h₂ rfl) fun h₃ => ?_
  refine .via s₄ ((does_occur ..).next ((does_bumpSat ..).next h₃ rfl) rfl) fun h₄ => ?_
  refine .via s₅ (.ite h₄ ((does_linkStops ..).next h₄ rfl)) fun h₅ => ?_
  exact .ite (.refl _ _) ((does_downEvent ..).next ((does_lanesRestart ..).next h₅ rfl) rfl)

theorem does_setMargins (s : State) (l : Nat) (m : List Nat) : Does (eventedAnd [.ing]) s (s.setMargins l m) :=
  (does_setRaw ..).next (.each _ ((does_setLnk ..).next (.refl _ _) rfl) fun _ _ h => .ite h ((does_wr ..).next h rfl)) rfl

theorem does_sourceFresh (s : State) (n b : Nat) : Does [.ing] s (s.sourceFresh n b) :=
  (does_setSlt ..).next (.each _ (.refl _ _) fun _ _ h => (does_setSlt ..).next h rfl) rfl

theorem does_linkRelease (s : State) (l b : Nat) : Does (eventedAnd [.acq, .mem, .ing]) s (s.linkRelease l b) := by
  unfold State.linkRelease
  extract_lets x was nm1 nondet gives joins s₁ s₂ fresh s₃ s₄ s₅ record s₆
  refine .via s₁ ((does_setLnk ..).next (.refl _ _) rfl) fun h₁ => ?_
  refine .via s₂ (.each _ h₁ fun _ _ h => .ite h ((does_setSlt ..).next h rfl)) fun h₂ => ?_
  refine .via s₃ ((does_setLinkState ..).next h₂ rfl) fun h₃ => ?_
  refine .via s₄ (.each _ h₃ fun _ _ h => .ite h ((does_laneEvent ..).next ((does_wr ..).next h rfl) rfl)) fun h₄ => ?_
  refine .via s₅ (.ite (.ite h₄ (.each _ h₄ fun _ _ h => (does_sourceFresh ..).next h rfl)) h₂) fun h₅ => ?_
  refine .via s₆ (.ite (.each _ h₅ fun _ _ h => (does_linkRecord ..).next h rfl) h₅) fun h₆ => ?_
  exact .ite ((does_downEvent ..).next h₆ rfl) h₆

theorem does_execReleasePoint (t : Nat) (l : Fin 64) (margins : List (Option Nat)) (s : State) : Answers (eventedAnd [.tick, .upTime, .acq, .mem,
    .epo, .xf, .ing, .svc, .ic]) s (execReleasePoint t l margins s) := by
  refine ⟨_, rfl, ?_⟩
  refine .ite ((does_advance ..).next (.refl _ _) rfl) ?_
  refine .ite ((does_linkRelease ..).next ((does_setMargins ..).next ((does_advance ..).next (.refl _ _) rfl) rfl) rfl) ?_
  extract_lets cause late s₁
  refine .via s₁ (.each _ ((does_advance ..).next (.refl _ _) rfl) fun _ _ h => (does_laneEvent ..).next ((does_wr ..).next h rfl) rfl) fun h₁ => ?_
  exact .ite ((does_linkDown ..).next h₁ rfl) h₁

theorem does_execLinkWdExpiry (t : Nat) (l : Fin 64) (s : State) : Answers (eventedAnd [.tick, .upTime, .acq, .mem, .epo, .xf, .ing, .svc, .ic]) s
    (execLinkWdExpiry t l s) := by
  refine ⟨_, rfl, ?_⟩
  refine .ite ((does_advance ..).next (.refl _ _) rfl) ?_
  extract_lets s₁
  refine .via s₁ ((does_setLnk ..).next ((does_advance ..).next (.refl _ _) rfl) rfl) fun h₁ => ?_
  exact .ite ((does_logFault ..).next h₁ rfl) (.ite ((does_linkDown ..).next h₁ rfl) h₁)

theorem does_execElasticBufferOverflow (t : Nat) (lane : Fin 224) (s : State) : Answers (eventedAnd [.tick, .upTime, .acq, .mem, .epo, .xf, .ing,
    .svc, .ic]) s (execElasticBufferOverflow t lane s) :=
  ⟨_, rfl, .ite ((does_advance ..).next (.refl _ _) rfl) (.each _ ((does_laneEvent ..).next ((does_wr ..).next ((does_advance ..).next (.refl _ _)
      rfl) rfl) rfl) fun _ _ h => (does_linkDown ..).next h rfl)⟩

theorem does_execLaneCdrLock (t : Nat) (lane : Fin 224) (s : State) : Answers [.tick, .upTime, .ing] s (execLaneCdrLock t lane s) :=
  ⟨_, rfl, .ite (.ing ((does_advance ..).next (.refl _ _) rfl) rfl) ((does_advance ..).next (.refl _ _) rfl)⟩

theorem does_linkProgress (s : State) (x : Nat) : Does [.rf] s (s.linkProgress x) :=
  .each _ (.refl _ _) fun _ _ h => .ite h ((does_setLinkState ..).next h rfl)

theorem does_execBlockLock (t : Nat) (lane : Fin 224) (inverted : Bool) (s : State) : Answers [.rf, .tick, .upTime] s (execBlockLock t lane
    inverted s) :=
  ⟨_, rfl, .ite ((does_advance ..).next (.refl _ _) rfl) ((does_linkProgress ..).next ((does_wrs ..).next ((does_advance ..).next (.refl _ _) rfl)
      rfl) rfl)⟩

theorem does_execEmbLock (t : Nat) (lane : Fin 224) (s : State) : Answers [.rf, .tick, .upTime, .ing] s (execEmbLock t lane s) :=
  ⟨_, rfl, .ite ((does_linkProgress ..).next (.ing ((does_wr ..).next ((does_advance ..).next (.refl _ _) rfl) rfl) rfl) rfl) ((does_advance
      ..).next (.refl _ _) rfl)⟩

theorem does_laneLost (s : State) (x : Nat) : Does (eventedAnd [.acq, .mem, .epo, .xf, .ing, .svc, .ic]) s (s.laneLost x) := by
  unfold State.laneLost
  extract_lets cause s₁ s₂
  refine .via s₁ ((does_wrs ..).next (.refl _ _) rfl) fun h₁ => ?_
  refine .via s₂ ((does_linkProgress ..).next ((does_laneEvent ..).next h₁ rfl) rfl) fun h₂ => ?_
  refine .each _ h₂ fun _ _ h₃ => ?_
  extract_lets _ s₄
  refine .via s₄ ((does_setLnk ..).next h₃ rfl) fun h₄ => ?_
  exact .ite ((does_linkDown ..).next h₄ rfl) h₄

theorem does_execBlockLockLost (t : Nat) (lane : Fin 224) (s : State) : Answers (eventedAnd [.tick, .upTime, .acq, .mem, .epo, .xf, .ing, .svc,
    .ic]) s (execBlockLockLost t lane s) :=
  ⟨_, rfl, .ite ((does_laneLost ..).next ((does_advance ..).next (.refl _ _) rfl) rfl) ((does_advance ..).next (.refl _ _) rfl)⟩

theorem does_execEmbLockLost (t : Nat) (lane : Fin 224) (s : State) : Answers (eventedAnd [.tick, .upTime, .acq, .mem, .epo, .xf, .ing, .svc, .ic])
    s (execEmbLockLost t lane s) :=
  ⟨_, rfl, .ite ((does_laneLost ..).next ((does_advance ..).next (.refl _ _) rfl) rfl) ((does_advance ..).next (.refl _ _) rfl)⟩

theorem does_execMultiblockReceive (t : Nat) (l : Fin 64) (j : Fin 16) (release : Nat) (mb : Fin 32) (result : Fin 4) (errs : Nat) (s : State) :
    Answers (eventedAnd [.tick, .upTime, .ing]) s (execMultiblockReceive t l j release mb result errs s) := by
  refine ⟨_, rfl, ?_⟩
  refine .ite ((does_advance ..).next (.refl _ _) rfl) ?_
  split
  · exact (does_bumpSat ..).next ((does_advance ..).next (.refl _ _) rfl) rfl
  · exact (does_laneEvent ..).next ((does_event ..).next ((does_setLnk ..).next ((does_bumpSat ..).next ((does_wr ..).next ((does_advance ..).next
      (.refl _ _) rfl) rfl) rfl) rfl) rfl) rfl
  · exact (does_event ..).next ((does_setLnk ..).next ((does_bumpSat ..).next ((does_bumpSat ..).next ((does_advance ..).next (.refl _ _) rfl) rfl)
      rfl) rfl) rfl
  · exact (does_advance ..).next (.refl _ _) rfl

theorem does_fifoTake (s : State) (n b k fclk : Nat) : Does (eventedAnd [.ing]) s (s.fifoTake n b k fclk).2 := by
  unfold State.fifoTake
  extract_lets x occ disc occ' s₁ s₂
  refine .via s₁ ((does_setSlt ..).next (.refl _ _) rfl) fun h₁ => ?_
  refine .via s₂ ?_ fun h₂ => ?_
  · unfold s₂
    refine .each _ h₁ fun _ _ h₃ => ?_
    extract_lets s₄
    refine .via s₄ ((does_setRaw ..).next ((does_peak ..).next h₃ rfl) rfl) fun h₄ => ?_
    exact .ite ((does_wr ..).next h₄ rfl) h₄
  split
  · exact .refl _ _
  · exact h₂

theorem does_setOvrNow (s : State) (n v : Nat) : Does [.rf] s (s.setOvrNow n v) :=
  .each _ (.refl _ _) fun _ _ h => (does_wr ..).next h rfl

theorem does_episodeEnd (s : State) (n : Nat) : Does (eventedAnd [.acq, .mem, .ing]) s (s.episodeEnd n) := by
  unfold State.episodeEnd
  split
  · exact .refl _ _
  · exact .ite (.refl _ _) (.each _ ((does_setOvrNow ..).next (.ing (.refl _ _) rfl) rfl) fun _ _ h => (does_record ..).next h rfl)

theorem does_episode (s : State) (n : Nat) (x : SlotSample) : Does (eventedAnd [.acq, .mem, .ing]) s (s.episode n x) := by
  unfold State.episode
  extract_lets s₁ o _
  refine .via s₁ ((does_episodeEnd ..).next (.refl _ _) rfl) fun h₁ => ?_
  split
  · exact h₁
  · extract_lets s₂
    refine .via s₂ (.ing h₁ rfl) fun h₂ => ?_
    exact .ite ((does_setOvrNow ..).next h₂ rfl) h₂

theorem does_srcReached (s : State) (n fine : Nat) : Does [.ing] s (s.srcReached n fine) :=
  .ing (.refl _ _) rfl

theorem does_sourceFrame (s : State) (n : Nat) (xs : List SlotSample) : Does (eventedAnd [.acq, .mem, .epo, .xf, .ing, .svc, .ic, .freeCnt]) s
    (s.sourceFrame n xs) := by
  unfold State.sourceFrame
  extract_lets s₁ ovr s₂
  refine .via s₁ (.each _ (.refl _ _) fun _ _ h => (does_episode ..).next h rfl) fun h₁ => ?_
  refine .via s₂ ((does_sourceInput ..).next h₁ rfl) fun h₂ => ?_
  split
  · exact (does_srcReached ..).next h₂ rfl
  · exact h₂

theorem does_sourceLost (s : State) (n cause fine : Nat) : Does (eventedAnd [.acq, .mem, .epo, .xf, .ing, .svc, .ic]) s (s.sourceLost n cause
    fine) :=
  (does_srcReached ..).next (.each _ ((does_oldLost ..).next ((does_t1Abandon ..).next (.refl _ _) rfl) rfl) fun _ _ h => .ite h ((does_lose
      ..).next h rfl)) rfl

theorem does_pairSource (s : State) (n k : Nat) : Does (eventedAnd [.acq, .mem, .epo, .xf, .ing, .svc, .ic, .freeCnt]) s (s.pairSource n k) := by
  induction k generalizing s with
  | zero => exact .refl _ _
  | succ k ih =>
    unfold State.pairSource
    extract_lets ms heads
    clear_value heads
    split
    · exact .refl _ _
    · extract_lets low now s₁ base s₂
      refine .via s₁ (.each _ (.refl _ _) fun _ _ h => (does_setSlt ..).next h rfl) fun h₁ => ?_
      refine .via s₂ (.ite ((does_sourceFrame ..).next h₁ rfl) ((does_sourceLost ..).next h₁ rfl)) fun h₂ => ?_
      exact .ite (.refl _ _) (h₂.trans (ih s₂))

theorem does_execFrameDelivery (t : Nat) (l : Fin 64) (frame : List LaneSample) (fclk drained0 drained1 : Nat) (s : State) : Answers (eventedAnd
    [.tick, .upTime, .acq, .mem, .epo, .xf, .ing, .svc, .ic, .freeCnt]) s (execFrameDelivery t l frame fclk drained0 drained1 s) := by
  refine ⟨_, rfl, ?_⟩
  refine .ite ((does_advance ..).next (.refl _ _) rfl) ?_
  extract_lets s₁ s₂ dropped slots s₃ s₇
  refine .via s₁ ((does_bufDrain ..).next ((does_advance ..).next (.refl _ _) rfl) rfl) fun h₁ => ?_
  refine .via s₂ ((does_setLnk ..).next h₁ rfl) fun h₂ => ?_
  refine .via s₃ ?_ fun h₃ => ?_
  · unfold s₃
    refine .each _ h₂ fun _ _ h₄ => ?_
    extract_lets smp kept s₅ s₆ _
    refine .via kept.2 ?_ fun hkept => ?_
    · unfold kept
      clear_value smp
      split
      · exact h₄
      · exact (does_fifoTake ..).next h₄ rfl
    refine .via s₅ hkept fun h₅ => ?_
    refine .via s₆ ?_ fun h₆ => ?_
    · unfold s₆
      clear_value smp
      split
      · exact (does_wrs ..).next ((does_bumpSat ..).next h₅ rfl) rfl
      · exact h₅
    exact (does_setSlt ..).next h₆ rfl
  refine .via s₇ (.each _ h₃ fun _ _ h => (does_pairSource ..).next h rfl) fun h₇ => ?_
  exact .ite ((does_linkStops ..).next h₇ rfl) h₇

theorem does_execOverrangeEpisodeEnd (t : Nat) (slot : Fin 256) (s : State) : Answers (eventedAnd [.tick, .upTime, .acq, .mem, .ing]) s
    (execOverrangeEpisodeEnd t slot s) :=
  ⟨_, rfl, (does_episodeEnd ..).next ((does_advance ..).next (.refl _ _) rfl) rfl⟩

theorem does_laneClear (s : State) (q mask : Nat) : Does [.rf] s (s.laneClear q mask) :=
  .each _ (.refl _ _) fun _ _ h => (does_wrs ..).next h rfl

theorem does_execLaneCntClear (t : Nat) (q : Fin 28) (mask : BitVec 8) (s : State) : Answers [.rf, .tick, .upTime, .page] s (execLaneCntClear t q
    mask s) :=
  ⟨_, rfl, .hosted ((does_advance ..).next (.refl _ _) rfl) rfl fun _ h => (does_laneClear ..).next h rfl⟩

theorem does_linkErrClear (s : State) (l : Nat) : Does [.rf] s (s.linkErrClear l) :=
  (does_wrs ..).next (.refl _ _) rfl

theorem does_execLinkErrClear (t : Nat) (l : Fin 64) (s : State) : Answers [.rf, .tick, .upTime, .page] s (execLinkErrClear t l s) :=
  ⟨_, rfl, .hosted ((does_advance ..).next (.refl _ _) rfl) rfl fun _ h => (does_linkErrClear ..).next h rfl⟩

theorem does_slotClear (s : State) (n : Nat) : Does [.rf] s (s.slotClear n) :=
  (does_wrs ..).next (.refl _ _) rfl

theorem does_execSlotClear (t : Nat) (n : Fin 256) (s : State) : Answers [.rf, .tick, .upTime, .page] s (execSlotClear t n s) :=
  ⟨_, rfl, .hosted ((does_advance ..).next (.refl _ _) rfl) rfl fun _ h => (does_slotClear ..).next h rfl⟩

theorem does_linksGated (s : State) : Does (eventedAnd [.ing]) s s.linksGated := by
  unfold State.linksGated
  extract_lets s₁
  refine .via s₁ ?_ fun h₁ => ?_
  · unfold s₁
    refine .each _ (.refl _ _) fun _ _ h₂ => ?_
    exact .each _ ((does_setLnk ..).next h₂ rfl) fun _ _ h => (does_setRaw ..).next ((does_wr ..).next ((does_setSlt ..).next h rfl) rfl) rfl
  exact .each _ h₁ fun _ _ h => (does_lanesRestart ..).next ((does_setLnk ..).next ((does_setLinkState ..).next h rfl) rfl) rfl

/-! Operations of Machine/Gating. -/

theorem does_gateLoss (s : State) (c : Nat) (est : Bool) : Does (eventedAnd [.acq, .mem, .epo, .xf]) s (s.gateLoss c est) := by
  unfold State.gateLoss
  extract_lets start
  split
  · exact (does_lose ..).next (.refl _ _) rfl
  · extract_lets s₁ ending _ s₂ s₃
    refine .via s₁ ((does_writeRuns ..).next (.refl _ _) rfl) fun h₁ => ?_
    refine .via s₂ ((does_setXfc ..).next h₁ rfl) fun h₂ => ?_
    refine .via s₃ ((does_openLeap ..).next h₂ rfl) fun h₃ => ?_
    exact .ite (.ite ((does_loseSpan ..).next h₂ rfl) h₂) (.ite ((does_openLeap ..).next h₃ rfl) h₃)

theorem does_gate (s : State) (cause : Nat) : Does (eventedAnd [.tio, .acq, .mem, .epo, .xf, .clk, .ing, .svc, .ic]) s (s.gate cause) :=
  .ite (.refl _ _) ((does_linksGated ..).next (.each _ (.each _ (.each _ ((does_occur ..).next ((does_event ..).next ((does_wr ..).next (.clk
      ((does_wrs ..).next ((does_levelsLost ..).next ((does_routerTo ..).next (.refl _ _) rfl) rfl) rfl) rfl) rfl) rfl) rfl) fun _ _ h =>
      (does_t1Lost ..).next h rfl) fun _ _ h => (does_wr ..).next h rfl) fun _ _ h => (does_gateLoss ..).next h rfl) rfl)

/-! Operations of Machine/Clocks. -/

theorem does_keepOn (s : State) : Does [.clk] s s.keepOn := by
  unfold State.keepOn
  split
  · exact .refl _ _
  · exact .clk (.refl _ _) rfl

theorem does_setPhase (s : State) (n : Nat) : Does [.clk] s (s.setPhase n) :=
  .clk (.refl _ _) rfl

theorem does_lockFail (s : State) (cause : Nat) : Does (eventedAnd [.clk]) s (s.lockFail cause) :=
  (does_event ..).next ((does_wrs ..).next (.clk ((does_setPhase ..).next (.refl _ _) rfl) rfl) rfl) rfl

theorem does_nextBand (s : State) : Does (eventedAnd [.clk]) s s.nextBand := by
  unfold State.nextBand
  split
  · exact (does_wrs ..).next (.clk ((does_setPhase ..).next (.refl _ _) rfl) rfl) rfl
  · exact (does_lockFail ..).next (.refl _ _) rfl

theorem does_lockStart (s : State) : Does (eventedAnd [.clk]) s s.lockStart := by
  unfold State.lockStart
  extract_lets p _ s₁ s₂ _ hz s₃ _ s₄ s₅ s₆ s₇ _ s₈
  refine .via s₁ (.clk (.refl _ _) rfl) fun h₁ => ?_
  refine .via s₂ ((does_setPhase ..).next h₁ rfl) fun h₂ => ?_
  refine .via s₃ ((does_wr ..).next h₁ rfl) fun h₃ => ?_
  refine .via s₄ (.clk h₃ rfl) fun h₄ => ?_
  refine .via s₅ ((does_keepOn ..).next ((does_wr ..).next h₄ rfl) rfl) fun h₅ => ?_
  refine .via s₆ ((does_wr ..).next h₅ rfl) fun h₆ => ?_
  refine .via s₇ (.when _ h₆ fun _ h => (does_wr ..).next h rfl) fun h₇ => ?_
  refine .via s₈ (.clk h₇ rfl) fun h₈ => ?_
  exact .ite (.ite h₂ (.clk h₂ rfl)) (.ite ((does_lockFail ..).next h₈ rfl) ((does_nextBand ..).next h₈ rfl))

theorem does_autoLock (s : State) : Does (eventedAnd [.clk]) s s.autoLock :=
  .ite (.refl _ _) (.ite ((does_lockStart ..).next (.refl _ _) rfl) (.refl _ _))

theorem does_execRefLost (t : Nat) (samples : List (BitVec 4)) (s : State) : Answers (eventedAnd [.tick, .upTime, .tio, .acq, .mem, .epo, .xf,
    .clk, .ing, .svc, .ic]) s (execRefLost t samples s) := by
  refine ⟨_, rfl, ?_⟩
  refine .ite ((does_advance ..).next (.refl _ _) rfl) ?_
  extract_lets s₁ s₂ held s₃ _ s₄
  refine .via s₁ ((does_wrs ..).next ((does_advance ..).next (.refl _ _) rfl) rfl) fun h₁ => ?_
  refine .via s₂ ((does_keepOn ..).next ((does_gate ..).next ((does_event ..).next h₁ rfl) rfl) rfl) fun h₂ => ?_
  refine .via s₃ (.ite h₂ ((does_setPhase ..).next h₂ rfl)) fun h₃ => ?_
  refine .via s₄ (.clk h₃ rfl) fun h₄ => ?_
  exact (does_eventIf ..).next (.each _ h₄ fun _ _ h => (does_clockEst ..).next h rfl) rfl

theorem does_execRefPresent (t periods : Nat) (s : State) : Answers (eventedAnd [.tick, .upTime, .clk]) s (execRefPresent t periods s) := by
  refine ⟨_, rfl, ?_⟩
  refine .ite ((does_advance ..).next (.refl _ _) rfl) ?_
  extract_lets s₁
  refine .via s₁ ((does_keepOn ..).next ((does_wr ..).next ((does_advance ..).next (.refl _ _) rfl) rfl) rfl) fun h₁ => ?_
  exact .ite ((does_autoLock ..).next h₁ rfl) h₁

theorem does_relock (s : State) : Does (eventedAnd [.tio, .acq, .mem, .epo, .xf, .clk, .ing, .svc, .ic]) s s.relock :=
  (does_lockStart ..).next ((does_wr ..).next ((does_gate ..).next (.refl _ _) rfl) rfl) rfl

theorem does_execRelock (t : Nat) (s : State) : Answers (eventedAnd [.tick, .upTime, .page, .tio, .acq, .mem, .epo, .xf, .clk, .ing, .svc, .ic]) s
    (execRelock t s) :=
  ⟨_, rfl, .hosted ((does_advance ..).next (.refl _ _) rfl) rfl fun _ h => (does_relock ..).next h rfl⟩

theorem does_execPhaseLockDetect (t : Nat) (s : State) : Answers [.rf, .tick, .upTime, .clk] s (execPhaseLockDetect t s) :=
  ⟨_, rfl, .ite ((does_wr ..).next ((does_setPhase ..).next ((does_advance ..).next (.refl _ _) rfl) rfl) rfl) ((does_advance ..).next (.refl _ _)
      rfl)⟩

theorem does_execFrequencyCheckDone (t : Nat) (w1 w2 : List Nat) (s : State) : Answers (eventedAnd [.tick, .upTime, .clk]) s
    (execFrequencyCheckDone t w1 w2 s) := by
  refine ⟨_, rfl, ?_⟩
  refine .ite ((does_advance ..).next (.refl _ _) rfl) ?_
  extract_lets s₁ wait
  refine .via s₁ ((does_wrS ..).next ((does_advance ..).next (.refl _ _) rfl) rfl) fun h₁ => ?_
  exact .ite ((does_nextBand ..).next h₁ rfl) ((does_setPhase ..).next h₁ rfl)

theorem does_execSysrefWaitExpiry (t : Nat) (s : State) : Answers (eventedAnd [.tick, .upTime, .clk]) s (execSysrefWaitExpiry t s) :=
  ⟨_, rfl, .ite ((does_lockFail ..).next ((does_advance ..).next (.refl _ _) rfl) rfl) ((does_advance ..).next (.refl _ _) rfl)⟩

theorem does_execLockLost (t : Nat) (s : State) : Answers (eventedAnd [.tick, .upTime, .tio, .acq, .mem, .epo, .xf, .clk, .ing, .svc, .ic]) s
    (execLockLost t s) :=
  ⟨_, rfl, .ite ((does_autoLock ..).next ((does_gate ..).next ((does_event ..).next ((does_wr ..).next ((does_advance ..).next (.refl _ _) rfl)
      rfl) rfl) rfl) rfl) (.ite ((does_nextBand ..).next ((does_advance ..).next (.refl _ _) rfl) rfl) ((does_advance ..).next (.refl _ _) rfl))⟩

theorem does_bandCal (s : State) : Does (eventedAnd [.tio, .acq, .mem, .epo, .xf, .clk, .ing, .svc, .ic]) s s.bandCal :=
  .ite (.refl _ _) ((does_wrs ..).next (.clk ((does_setPhase ..).next ((does_gate ..).next (.refl _ _) rfl) rfl) rfl) rfl)

theorem does_execBandCal (t : Nat) (s : State) : Answers (eventedAnd [.tick, .upTime, .page, .tio, .acq, .mem, .epo, .xf, .clk, .ing, .svc, .ic]) s
    (execBandCal t s) :=
  ⟨_, rfl, .hosted ((does_advance ..).next (.refl _ _) rfl) rfl fun _ h => (does_bandCal ..).next h rfl⟩

theorem does_bandTable (s : State) (words : List Word) : Does [.rf] s (s.bandTable words) :=
  .each _ (.refl _ _) fun _ _ h => (does_wrs ..).next h rfl

theorem does_bandMeasure (s : State) (bands : List BandCount) : Does [.rf] s (s.bandMeasure bands) :=
  .each _ (.refl _ _) fun _ _ h => (does_wrs ..).next h rfl

theorem does_execBandCalDone (t : Nat) (bands : List BandCount) (s : State) : Answers (eventedAnd [.tick, .upTime, .clk]) s (execBandCalDone t
    bands s) := by
  refine ⟨_, rfl, ?_⟩
  refine .ite ((does_advance ..).next (.refl _ _) rfl) ?_
  extract_lets s₁
  refine .via s₁ ((does_event ..).next ((does_wr ..).next ((does_bandMeasure ..).next ((does_advance ..).next (.refl _ _) rfl) rfl) rfl) rfl) fun
      h₁ => ?_
  exact (does_lockStart ..).next (.ite ((does_wr ..).next h₁ rfl) h₁) rfl

theorem does_bootFail (s : State) (code detail : Nat) : Does evented s (s.bootFail code detail) :=
  (does_event ..).next ((does_wrs ..).next (.refl _ _) rfl) rfl

theorem does_execLockRetry (t : Nat) (s : State) : Answers (eventedAnd [.tick, .upTime, .boot, .clk]) s (execLockRetry t s) :=
  ⟨_, rfl, .ite ((does_advance ..).next (.refl _ _) rfl) (.ite ((does_bootFail ..).next ((does_advance ..).next (.refl _ _) rfl) rfl)
      ((does_lockStart ..).next (.boot ((does_advance ..).next (.refl _ _) rfl) rfl) rfl))⟩

theorem does_execGateHoldClear (t : Nat) (s : State) : Answers [.rf, .tick, .upTime, .page] s (execGateHoldClear t s) :=
  ⟨_, rfl, .hosted ((does_advance ..).next (.refl _ _) rfl) rfl fun _ h => (does_wr ..).next h rfl⟩

theorem does_release (s : State) : Does (eventedAnd [.tick, .page, .acq, .clk, .ing]) s s.release := by
  unfold State.release
  extract_lets p first _ _ s₁ gap hold aligned _ s₂ _ s₃ s₄ s₅ s₆ s₇
  refine .via s₁ (.ite (.put (.refl _ _) rfl rfl (by simp [only_iff])) (.refl _ _)) fun h₁ => ?_
  refine .via s₂ (.ite h₁ (.ing h₁ rfl)) fun h₂ => ?_
  refine .via s₃ (.clk h₂ rfl) fun h₃ => ?_
  refine .via s₄ ((does_wrs ..).next h₃ rfl) fun h₄ => ?_
  refine .via s₅ ((does_event ..).next ((does_bump ..).next h₄ rfl) rfl) fun h₅ => ?_
  refine .via s₆ ((does_wrs ..).next h₅ rfl) fun h₆ => ?_
  refine .via s₇ ((does_event ..).next h₆ rfl) fun h₇ => ?_
  exact .ite h₅ (.each _ h₇ fun _ _ h => (does_clockDue ..).next h rfl)

theorem does_ftrimWrite (s : State) (target : BitVec 32) (slew : Nat) : Does evented s (s.ftrimWrite target slew) :=
  (does_eventIf ..).next ((does_wrS ..).next ((does_wr ..).next (.refl _ _) rfl) rfl) rfl

theorem does_execFtrimWrite (t : Nat) (target : BitVec 32) (slew : BitVec 17) (s : State) : Answers (eventedAnd [.tick, .upTime, .page]) s
    (execFtrimWrite t target slew s) :=
  ⟨_, rfl, .hosted ((does_advance ..).next (.refl _ _) rfl) rfl fun _ h => (does_ftrimWrite ..).next h rfl⟩

theorem does_execTrimStep (t : Nat) (s : State) : Answers [.rf, .tick, .upTime, .clk] s (execTrimStep t s) :=
  ⟨_, rfl, .ite ((does_advance ..).next (.refl _ _) rfl) (.clk ((does_wrS ..).next ((does_advance ..).next (.refl _ _) rfl) rfl) rfl)⟩

theorem does_setDlbPol (s : State) (j : Nat) (inv : Bool) : Does evented s (s.setDlbPol j inv) :=
  (does_eventIf ..).next ((does_wr ..).next (.refl _ _) rfl) rfl

theorem does_tbLoad (s : State) : Does (eventedAnd [.tick, .acq, .mem, .clk]) s s.tbLoad :=
  .ite (.refl _ _) (.ite (.clk (.refl _ _) rfl) (.ite ((does_event ..).next (.refl _ _) rfl) (.ite (.refl _ _) ((does_event ..).next (.each _ (.put
      (.refl _ _) rfl rfl (by simp [only_iff])) fun _ _ h => (does_clockRecord ..).next h rfl) rfl))))

theorem does_align (s : State) (falling : Bool) : Does (eventedAnd [.tick, .acq, .mem, .clk, .ing]) s (s.align falling) :=
  (does_event ..).next (.ing ((does_tbLoad ..).next ((does_eventIf ..).next ((does_wrs ..).next (.refl _ _) rfl) rfl) rfl) rfl) rfl

theorem does_execSysrefEdge (t : Nat) (phaseErr : BitVec 16) (pulses : Option (Nat × Nat)) (falling : Bool) (s : State) :
    Answers (eventedAnd [.tick, .upTime, .acq, .mem, .clk, .ing]) s (execSysrefEdge t phaseErr pulses falling s) := by
  unfold execSysrefEdge
  extract_lets s₁ p s₂ was dlt s₃ armed s₄ s₅ s₆
  have h₂ : Does (eventedAnd [.tick, .upTime, .acq, .mem, .clk, .ing]) s s₂ :=
    (does_bump ..).next ((does_advance ..).next (.refl _ _) rfl) rfl
  have h₃ : Does (eventedAnd [.tick, .upTime, .acq, .mem, .clk, .ing]) s s₃ := by
    unfold s₃
    split
    · exact h₂
    · exact (does_eventIf ..).next ((does_wrs ..).next (.ite ((does_setDlbPol ..).next h₂ rfl) h₂) rfl) rfl
  have h₅ : Does (eventedAnd [.tick, .upTime, .acq, .mem, .clk, .ing]) s s₅ := (does_wr ..).next h₃ rfl
  clear_value s₃
  refine ⟨_, rfl, ?_⟩
  split
  · exact (does_wr ..).next h₃ rfl
  · exact .ite h₃ (.ite ((does_setPhase ..).next ((does_align ..).next h₅ rfl) rfl) (.ite h₃ (.ite ((does_align ..).next h₅ rfl)
      ((does_eventIf ..).next ((does_wr ..).next h₅ rfl) rfl))))
  · exact h₃

theorem does_execSysrefArm (t : Nat) (s : State) : Answers [.rf, .tick, .upTime, .page] s (execSysrefArm t s) :=
  ⟨_, rfl, .hosted ((does_advance ..).next (.refl _ _) rfl) rfl fun _ h => (does_wr ..).next h rfl⟩

theorem does_tbSnap (s : State) : Does [.rf] s s.tbSnap :=
  (does_wrs ..).next (.refl _ _) rfl

theorem does_execTimebaseSnap (t : Nat) (s : State) : Answers [.rf, .tick, .upTime, .page] s (execTimebaseSnap t s) :=
  ⟨_, rfl, .hosted ((does_advance ..).next (.refl _ _) rfl) rfl fun _ h => (does_tbSnap ..).next h rfl⟩

theorem does_tmbApply (s : State) : Does (eventedAnd [.acq, .mem]) s s.tmbApply := by
  unfold State.tmbApply
  extract_lets p s₁ ns sec frac s₂ s₃
  refine .via s₁ ((does_wr ..).next (.refl _ _) rfl) fun h₁ => ?_
  refine .via s₂ ((does_wrA ..).next ((does_wrA ..).next ((does_wrA ..).next h₁ rfl) rfl) rfl) fun h₂ => ?_
  refine .via s₃ ((does_bump ..).next h₂ rfl) fun h₃ => ?_
  exact .ite (.refl _ _) (.ite ((does_event ..).next h₁ rfl) (.each _ h₃ fun _ _ h => (does_clockRecord ..).next h rfl))

/-! Operations of Machine/Drains. -/

theorem does_setDrain (s : State) (c : Nat) (str : Bool) (d : DrainPos) : Does [.acq] s (s.setDrain c str d) :=
  (does_setActx ..).next (.refl _ _) rfl

theorem does_drainSkip (s : State) (c : Nat) (str : Bool) (kind : Nat) (x : DrainSrc) (limit : Nat) : Does [.acq] s (s.drainSkip c str kind x
    limit) :=
  (does_localLeap ..).next ((does_setDrain ..).next (.refl _ _) rfl) rfl

theorem does_drainPoisons (s : State) (c : Nat) (x : DrainSrc) (i n : Nat) : Does evented s (s.drainPoisons c x i n) :=
  .each _ (.refl _ _) fun _ _ h => (does_event ..).next h rfl

theorem does_drainKeep (s : State) (c : Nat) (str : Bool) (kind : Nat) : Does (eventedAnd [.acq]) s (s.drainKeep c str kind) :=
  .ite (.refl _ _) ((does_setDrain ..).next ((does_drainPoisons ..).next (.ite ((does_drainSkip ..).next (.refl _ _) rfl) (.refl _ _)) rfl) rfl)

theorem does_drainMove (s : State) (c : Nat) (str : Bool) (kind : Nat) : Does [.acq] s (s.drainMove c str kind) :=
  .ite (.refl _ _) ((does_setDrain ..).next (.refl _ _) rfl)

theorem does_drainsKeep (s : State) (c kind : Nat) : Does (eventedAnd [.acq]) s (s.drainsKeep c kind) :=
  (does_drainKeep ..).next ((does_drainKeep ..).next (.refl _ _) rfl) rfl

theorem does_drainsMove (s : State) (c kind : Nat) : Does [.acq] s (s.drainsMove c kind) :=
  (does_drainMove ..).next ((does_drainMove ..).next (.refl _ _) rfl) rfl

/-! Operations of Machine/Trigger. -/

theorem does_collect (s : State) (stamp : SubTick) (t : Nat) (f : Firing) : Does [.trg] s (s.collect stamp t f) :=
  .trg (.refl _ _) rfl

theorem does_fire (s : State) (u t : Nat) (stamp : SubTick) (code sig : Nat) (forced bad : Bool) : Does (eventedAnd [.acq]) s (s.fire u t stamp
    code sig forced bad) := by
  unfold State.fire
  extract_lets p s₁ s₂ s₃ caps
  refine .via s₁ ((does_wrs ..).next ((does_bump ..).next (.refl _ _) rfl) rfl) fun h₁ => ?_
  refine .via s₂ (.ite ((does_event ..).next ((does_bumpSat ..).next h₁ rfl) rfl) h₁) fun h₂ => ?_
  refine .via s₃ ((does_sourcePulse ..).next ((does_event ..).next h₂ rfl) rfl) fun h₃ => ?_
  exact (does_collect ..).next (.each _ h₃ fun _ _ h => (does_takeTrigger ..).next h rfl) rfl

theorem does_startHold (s : State) (u t : Nat) : Does [.rf, .trg] s (s.startHold u t) :=
  .ite (.refl _ _) ((does_wr ..).next ((does_setTru ..).next (.refl _ _) rfl) rfl)

theorem does_qualified (s : State) (u t : Nat) (stamp : SubTick) (code sig : Nat) (bad : Bool) : Does (eventedAnd [.acq]) s (s.qualified u t stamp
    code sig bad) := by
  unfold State.qualified
  extract_lets p s₁ x x' win n n' s₂
  refine .via s₁ ((does_bumpSat ..).next (.refl _ _) rfl) fun h₁ => ?_
  refine .via s₂ ((does_setTru ..).next (.refl _ _) rfl) fun h₂ => ?_
  exact .ite (.ite ((does_wr ..).next ((does_setTru ..).next h₁ rfl) rfl) h₁) (.ite ((does_fire ..).next ((does_startHold ..).next ((does_wr
      ..).next h₂ rfl) rfl) rfl) ((does_wr ..).next h₂ rfl))

theorem does_truEval (s : State) (u t : Nat) (now : List TruChg) (par : List ParWord) : Does (eventedAnd [.acq]) s (s.truEval u t now par) := by
  unfold State.truEval
  extract_lets p x inp inp' was c moved last bad chg chg' kept s₁ seq primed rise bad' s₂ s₃ inv _
  refine .via s₁ ((does_wr ..).next ((does_setTru ..).next (.refl _ _) rfl) rfl) fun h₁ => ?_
  refine .via s₂ (.ite ((does_wr ..).next h₁ rfl) h₁) fun h₂ => ?_
  refine .via s₃ ?_ fun h₃ => ?_
  · unfold s₃
    refine .ite ?_ ?_
    · clear_value last
      split
      · exact (does_qualified ..).next h₂ rfl
      · exact (does_qualified ..).next h₂ rfl
    · exact h₁
  refine .ite h₃ ?_
  split
  · exact h₃
  · extract_lets y up s₄
    refine .via s₄ ((does_setTru ..).next h₃ rfl) fun h₄ => ?_
    exact .ite ((does_wr ..).next h₄ rfl) h₄

theorem does_parity (s : State) (n : Nat) : Does evented s (s.parity n) :=
  .each _ (.refl _ _) fun _ _ h => (does_event ..).next ((does_occur ..).next ((does_bumpSat ..).next h rfl) rfl) rfl

theorem does_execTruInputChange (t : Nat) (u : Fin 64) (par : List ParWord) (s : State) : ∃ v, (execTruInputChange t u par s) = .next v ∧ Does
    (eventedAnd [.tick, .upTime, .acq]) s v :=
  ⟨_, rfl, .ite ((does_advance ..).next (.refl _ _) rfl) ((does_truEval ..).next ((does_setTru ..).next ((does_parity ..).next ((does_advance
      ..).next (.refl _ _) rfl) rfl) rfl) rfl)⟩

theorem does_execTruStretchEnd (t : Nat) (u : Fin 64) (s : State) : ∃ v, (execTruStretchEnd t u s) = .next v ∧ Does (eventedAnd [.tick, .upTime,
    .acq]) s v :=
  ⟨_, rfl, .ite ((does_advance ..).next (.refl _ _) rfl) ((does_truEval ..).next ((does_setTru ..).next ((does_advance ..).next (.refl _ _) rfl)
      rfl) rfl)⟩

theorem does_execTruPrimeExpire (t : Nat) (u : Fin 64) (s : State) : ∃ v, (execTruPrimeExpire t u s) = .next v ∧ Does [.rf, .tick, .upTime] s v :=
  ⟨_, rfl, .ite ((does_wr ..).next ((does_advance ..).next (.refl _ _) rfl) rfl) ((does_advance ..).next (.refl _ _) rfl)⟩

theorem does_execTruHoldoffEnd (t : Nat) (u : Fin 64) (s : State) : ∃ v, (execTruHoldoffEnd t u s) = .next v ∧ Does [.rf, .tick, .upTime] s v :=
  ⟨_, rfl, .ite ((does_wr ..).next ((does_advance ..).next (.refl _ _) rfl) rfl) ((does_advance ..).next (.refl _ _) rfl)⟩

theorem does_truForce (s : State) (u t : Nat) : Does (eventedAnd [.acq]) s (s.truForce u t) :=
  .ite ((does_fire ..).next ((does_startHold ..).next (.refl _ _) rfl) rfl) (.refl _ _)

theorem does_truClr (s : State) (u : Nat) : Does [.rf] s (s.truClr u) :=
  (does_wrs ..).next (.refl _ _) rfl

theorem does_truResetState (s : State) (u : Nat) : Does [.rf, .trg] s (s.truResetState u) :=
  (does_wrs ..).next ((does_setTru ..).next (.refl _ _) rfl) rfl

theorem does_truCtl (s : State) (u t w : Nat) : Does (eventedAnd [.acq]) s (s.truCtl u t w) := by
  unfold State.truCtl
  extract_lets s₁ s₂
  refine .via s₁ (.ite ((does_truClr ..).next (.refl _ _) rfl) (.refl _ _)) fun h₁ => ?_
  refine .via s₂ (.ite ((does_truResetState ..).next h₁ rfl) h₁) fun h₂ => ?_
  exact .ite ((does_truForce ..).next h₂ rfl) h₂

theorem does_execTruForce (t : Nat) (u : Fin 64) (s : State) : ∃ v, (execTruForce t u s) = .next v ∧ Does (eventedAnd [.tick, .upTime, .page,
    .acq]) s v :=
  ⟨_, rfl, .hosted ((does_advance ..).next (.refl _ _) rfl) rfl fun _ h => (does_truCtl ..).next h rfl⟩

theorem does_execTruClr (t : Nat) (u : Fin 64) (s : State) : ∃ v, (execTruClr t u s) = .next v ∧ Does (eventedAnd [.tick, .upTime, .page, .acq]) s
    v :=
  ⟨_, rfl, .hosted ((does_advance ..).next (.refl _ _) rfl) rfl fun _ h => (does_truCtl ..).next h rfl⟩

theorem does_execTruResetState (t : Nat) (u : Fin 64) (s : State) : ∃ v, (execTruResetState t u s) = .next v ∧ Does (eventedAnd [.tick, .upTime,
    .page, .acq]) s v :=
  ⟨_, rfl, .hosted ((does_advance ..).next (.refl _ _) rfl) rfl fun _ h => (does_truCtl ..).next h rfl⟩

theorem does_triggerRecord (s : State) (g : CoincGroup) (c : Nat) : Does (eventedAnd [.acq, .mem]) s (s.triggerRecord g c) :=
  (does_record ..).next ((does_setActx ..).next (.refl _ _) rfl) rfl

theorem does_execCoincGroupClose (t : Nat) (full : Bool) (s : State) : Answers (eventedAnd [.tick, .upTime, .acq, .mem]) s (execCoincGroupClose t
    full s) := by
  unfold execCoincGroupClose
  extract_lets s₁ _
  have h₁ : Does (eventedAnd [.tick, .upTime, .acq, .mem]) _ s₁ := (does_advance ..).next (.refl _ _) rfl
  split
  · exact ⟨_, rfl, h₁⟩
  · refine ⟨_, rfl, ?_⟩
    refine .ite h₁ ?_
    extract_lets s₂ s₃
    refine .via s₂ (.trg h₁ rfl) fun h₂ => ?_
    refine .via s₃ (.each _ h₂ fun _ _ h => (does_setActx ..).next h rfl) fun h₃ => ?_
    exact .ite ((does_event ..).next ((does_bumpSat ..).next h₃ rfl) rfl) (.each _ h₂ fun _ _ h => (does_triggerRecord ..).next h rfl)

theorem does_execTrigOutWidthEnd (t : Nat) (line : Fin 22) (s : State) : Answers [.tick, .upTime, .tio, .trg] s (execTrigOutWidthEnd t line s) := by
  unfold execTrigOutWidthEnd
  extract_lets s₁
  have h₁ : Does [.tick, .upTime, .tio, .trg] _ s₁ := (does_routerTo ..).next ((does_advance ..).next (.refl _ _) rfl) rfl
  split
  · exact ⟨_, rfl, h₁⟩
  · exact ⟨_, rfl, .ite h₁ ((does_lineOver ..).next h₁ rfl)⟩

theorem does_poutClr (s : State) (mask : Nat) : Does [.tio, .trg] s (s.poutClr mask) :=
  .each _ ((does_routerTo ..).next (.refl _ _) rfl) fun _ _ h => .ite ((does_setOut ..).next h rfl) h

theorem does_execPoutClr (t : Nat) (mask : BitVec 8) (s : State) : Answers [.tick, .upTime, .page, .tio, .trg] s (execPoutClr t mask s) :=
  ⟨_, rfl, .hosted ((does_advance ..).next (.refl _ _) rfl) rfl fun _ h => (does_poutClr ..).next h rfl⟩

theorem does_trnClr (s : State) : Does [.rf] s s.trnClr :=
  (does_wrs ..).next (.refl _ _) rfl

theorem does_execTrnClr (t : Nat) (s : State) : Answers [.rf, .tick, .upTime, .page] s (execTrnClr t s) :=
  ⟨_, rfl, .hosted ((does_advance ..).next (.refl _ _) rfl) rfl fun _ h => (does_trnClr ..).next h rfl⟩

theorem does_execSchedPulse (t : Nat) (n : Fin 16) (s : State) : Answers (eventedAnd [.tick, .upTime]) s (execSchedPulse t n s) := by
  refine ⟨_, rfl, ?_⟩
  refine .ite ((does_advance ..).next (.refl _ _) rfl) ?_
  extract_lets s₁ s₂
  refine .via s₁ ((does_sourcePulse ..).next ((does_advance ..).next (.refl _ _) rfl) rfl) fun h₁ => ?_
  refine .via s₂ (.ite ((does_event ..).next ((does_wr ..).next h₁ rfl) rfl) h₁) fun h₂ => ?_
  exact .ite ((does_wr ..).next h₂ rfl) ((does_wr ..).next h₂ rfl)

theorem does_schedSet (s : State) (l : List Nat) (t : Nat) : Does [.trg] s (s.schedSet l t) :=
  .trg (.refl _ _) rfl

theorem does_setTin (s : State) (k : Nat) (x : TinSt) : Does [.trg] s (s.setTin k x) :=
  .trg (.refl _ _) rfl

theorem does_tinAccept (s : State) (k t : Nat) : Does [.trg] s (s.tinAccept k t) := by
  unfold State.tinAccept
  extract_lets x s₁
  refine .via s₁ ((does_setTin ..).next (.refl _ _) rfl) fun h₁ => ?_
  split
  · exact .refl _ _
  · exact .ite (.refl _ _) ((does_sourceLevel ..).next h₁ rfl)

theorem does_execTrigInEdge (t : Nat) (k : Fin 4) (level : Bool) (stamp : SubTick) (s : State) : Answers [.rf, .tick, .upTime, .trg] s
    (execTrigInEdge t k level stamp s) := by
  refine ⟨_, rfl, ?_⟩
  refine .ite ((does_tinAccept ..).next ((does_advance ..).next (.refl _ _) rfl) rfl) ?_
  refine .ite ((does_setTin ..).next ((does_tinAccept ..).next ((does_advance ..).next (.refl _ _) rfl) rfl) rfl) ?_
  split
  · exact (does_bumpSat ..).next ((does_setTin ..).next ((does_tinAccept ..).next ((does_advance ..).next (.refl _ _) rfl) rfl) rfl) rfl
  · exact (does_setTin ..).next ((does_tinAccept ..).next ((does_advance ..).next (.refl _ _) rfl) rfl) rfl

theorem does_execTrigInAccept (t : Nat) (k : Fin 4) (s : State) : Answers [.tick, .upTime, .trg] s (execTrigInAccept t k s) :=
  ⟨_, rfl, (does_tinAccept ..).next ((does_advance ..).next (.refl _ _) rfl) rfl⟩

theorem does_outputsFollow (s : State) (t : Nat) : Does [.tio] s (s.outputsFollow t) := by
  unfold State.outputsFollow
  extract_lets p
  refine .each _ (.refl _ _) fun _ _ h₁ => ?_
  extract_lets pulse tsrc psrc s₂
  refine .via s₂ (.ite (.ite h₁ ((does_setOut ..).next h₁ rfl)) ((does_toutDrive ..).next h₁ rfl)) fun h₂ => ?_
  exact .ite ((does_setOut ..).next h₂ rfl) (.ite (.ite ((does_setOut ..).next h₂ rfl) h₂) (.ite h₂ ((does_setOut ..).next h₂ rfl)))

theorem does_pinsFollow (s : State) : Does [.trg] s s.pinsFollow := by
  unfold State.pinsFollow
  refine .each _ (.refl _ _) fun _ _ h₁ => ?_
  extract_lets x s₂ _
  refine .via s₂ (.ite ((does_setTin ..).next h₁ rfl) h₁) fun h₂ => ?_
  exact .ite h₂ (.trg h₂ rfl)

theorem does_triggerRelease (s : State) (t : Nat) : Does [.tio, .trg] s (s.triggerRelease t) :=
  (does_schedSet ..).next ((does_outputsFollow ..).next (.each _ ((does_pinsFollow ..).next (.refl _ _) rfl) fun _ _ h => (does_setTru ..).next h
      rfl) rfl) rfl

/-! Operations of Machine/Density. -/

theorem does_setDen (s : State) (u : Nat) (x : DenUnit) : Does [.den] s (s.setDen u x) :=
  .den (.refl _ _) rfl

theorem does_decayCount (s : State) (u : Nat) : Does [.den] s (s.decayCount u) :=
  .ite (.refl _ _) (.ite ((does_setDen ..).next (.refl _ _) rfl) ((does_setDen ..).next (.refl _ _) rfl))

theorem does_execDensityTraceAccept (t : Nat) (u : Fin 16) (s : State) : ∃ v, (execDensityTraceAccept t u s) = .next v ∧ Does (eventedAnd [.tick,
    .upTime, .den]) s v := by
  unfold execDensityTraceAccept
  extract_lets s₁ x
  have h₁ : Does (eventedAnd [.tick, .upTime, .den]) _ s₁ := (does_advance ..).next (.refl _ _) rfl
  split
  · exact ⟨_, rfl, h₁⟩
  · exact ⟨_, rfl, (does_decayCount ..).next (.ite ((does_bump ..).next ((does_setDen ..).next (.each _ ((does_setDen ..).next h₁ rfl) fun _ _ h =>
      (does_setDen ..).next h rfl) rfl) rfl) ((does_event ..).next ((does_bumpSat ..).next ((does_setDen ..).next h₁ rfl) rfl) rfl)) rfl⟩

theorem does_denInc (s : State) (u : Nat) (h : Nat × Nat) : Does (eventedAnd [.den]) s (s.denInc u h) := by
  unfold State.denInc
  extract_lets q x v s₁
  refine .via s₁ ((does_bumpSat ..).next (.refl _ _) rfl) fun h₁ => ?_
  exact .ite ((does_setDen ..).next (.refl _ _) rfl) (.ite h₁ ((does_event ..).next ((does_wr ..).next h₁ rfl) rfl))

theorem does_denUnc (s : State) (m w : Nat) : Does (eventedAnd [.den]) s (s.denUnc m w) :=
  (does_event ..).next ((does_bumpSat ..).next ((does_setDen ..).next (.refl _ _) rfl) rfl) rfl

theorem does_tmpRead (s : State) (t : Nat) : Does (eventedAnd [.den, .tmp]) s (s.tmpRead t) := by
  unfold State.tmpRead
  split
  · exact .refl _ _
  · exact .tmp (.each _ (.refl _ _) fun _ _ h => (does_denUnc ..).next h rfl) rfl

theorem does_tmpPause (s : State) (u : Nat) : Does [.tmp] s (s.tmpPause u) := by
  unfold State.tmpPause
  split
  · exact .refl _ _
  · exact .ite (.tmp (.refl _ _) rfl) (.refl _ _)

theorem does_spillRead (s : State) (t : Nat) : Does [.bank] s (s.spillRead t) :=
  .bank (.refl _ _) rfl

theorem does_spillPause (s : State) (u : Nat) : Does [.bank] s (s.spillPause u) :=
  .bank (.refl _ _) rfl

theorem does_sweepRead (s : State) (t : Nat) : Does (eventedAnd [.bank, .den, .tmp]) s (s.sweepRead t) :=
  (does_spillRead ..).next ((does_tmpRead ..).next (.refl _ _) rfl) rfl

theorem does_sweepPause (s : State) (u : Nat) : Does [.bank, .tmp] s (s.sweepPause u) :=
  (does_spillPause ..).next ((does_tmpPause ..).next (.refl _ _) rfl) rfl

theorem does_execDensityUpdate (t : Nat) (u : Fin 16) (unc : List (Fin 4 × Fin 262144)) (s : State) : ∃ v, (execDensityUpdate t u unc s) = .next v
    ∧ Does (eventedAnd [.tick, .upTime, .bank, .den, .tmp]) s v := by
  unfold execDensityUpdate
  extract_lets s₁ x
  have h₁ : Does (eventedAnd [.tick, .upTime, .bank, .den, .tmp]) _ s₁ := (does_advance ..).next (.refl _ _) rfl
  split
  · exact ⟨_, rfl, h₁⟩
  · exact ⟨_, rfl, .each _ (.each _ (.each _ ((does_setDen ..).next ((does_sweepRead ..).next h₁ rfl) rfl) fun _ _ h => .ite ((does_denUnc ..).next
      h rfl) h) fun _ _ h => (does_denInc ..).next h rfl) fun _ _ h => .ite ((does_sourcePulse ..).next h rfl) h⟩

theorem does_decayPass (s : State) (u : Nat) (unc : List (Fin 4 × Fin 262144)) : Does (eventedAnd [.bank, .den, .tmp]) s (s.decayPass u unc) :=
  .each _ (.each _ ((does_sweepPause ..).next ((does_sweepRead ..).next (.refl _ _) rfl) rfl) fun _ _ h => .ite ((does_denUnc ..).next h rfl) h)
      fun _ _ h => (does_setDen ..).next h rfl

theorem does_execDecayPassStart (t : Nat) (u : Fin 16) (unc : List (Fin 4 × Fin 262144)) (s : State) : ∃ v, (execDecayPassStart t u unc s) = .next
    v ∧ Does (eventedAnd [.tick, .upTime, .bank, .den, .tmp]) s v :=
  ⟨_, rfl, .ite ((does_advance ..).next (.refl _ _) rfl) (.ite ((does_decayPass ..).next ((does_setDen ..).next ((does_advance ..).next (.refl _ _)
      rfl) rfl) rfl) (.ite ((does_setDen ..).next ((does_advance ..).next (.refl _ _) rfl) rfl) ((does_event ..).next ((does_bumpSat ..).next
      ((does_setDen ..).next ((does_advance ..).next (.refl _ _) rfl) rfl) rfl) rfl)))⟩

theorem does_execDecayPassEnd (t : Nat) (u : Fin 16) (unc : List (Fin 4 × Fin 262144)) (s : State) : ∃ v, (execDecayPassEnd t u unc s) = .next v ∧
    Does (eventedAnd [.tick, .upTime, .bank, .den, .tmp]) s v :=
  ⟨_, rfl, .ite ((does_advance ..).next (.refl _ _) rfl) (.ite ((does_decayPass ..).next ((does_setDen ..).next ((does_advance ..).next (.refl _ _)
      rfl) rfl) rfl) ((does_setDen ..).next ((does_advance ..).next (.refl _ _) rfl) rfl))⟩

theorem does_denClear (s : State) (u : Nat) : Does (eventedAnd [.bank, .den, .tmp]) s (s.denClear u) :=
  (does_setDen ..).next (.each _ ((does_sweepRead ..).next (.refl _ _) rfl) fun _ _ h => (does_wr ..).next ((does_setDen ..).next h rfl) rfl) rfl

theorem does_execDensityClear (t : Nat) (u : Fin 16) (s : State) : ∃ v, (execDensityClear t u s) = .next v ∧ Does (eventedAnd [.tick, .upTime,
    .page, .bank, .den, .tmp]) s v :=
  ⟨_, rfl, .hosted ((does_advance ..).next (.refl _ _) rfl) rfl fun _ h => (does_denClear ..).next h rfl⟩

theorem does_denClr (s : State) (u : Nat) : Does [.rf] s (s.denClr u) :=
  (does_wrs ..).next (.refl _ _) rfl

theorem does_execDenClr (t : Nat) (u : Fin 16) (s : State) : ∃ v, (execDenClr t u s) = .next v ∧ Does [.rf, .tick, .upTime, .page] s v :=
  ⟨_, rfl, .hosted ((does_advance ..).next (.refl _ _) rfl) rfl fun _ h => (does_denClr ..).next h rfl⟩

/-! Operations of Machine/ToneMap. -/

theorem does_setTjob (s : State) (j : Nat) (x : TmpJob) : Does [.tmp] s (s.setTjob j x) :=
  .tmp (.refl _ _) rfl

theorem does_writePlanes (s : State) (j base : Nat) (blank : Bool) : Does [.mem] s (s.writePlanes j base blank) := by
  unfold State.writePlanes
  extract_lets w h pitch xs y0 s₁ s₂ s₃ c0 half
  refine .via s₁ (.refl _ _) fun h₁ => ?_
  refine .via s₂ ((does_writeBytes ..).next (.refl _ _) rfl) fun h₂ => ?_
  refine .via s₃ (.each _ h₂ fun _ _ h => (does_writeBytes ..).next h rfl) fun h₃ => ?_
  split
  · exact .ite (.each _ h₃ fun _ _ h => (does_writeBytes ..).next ((does_writeBytes ..).next h rfl) rfl) (.each _ h₃ fun _ _ h => (does_writeBytes
      ..).next h rfl)
  · exact .each _ h₂ fun _ _ h => (does_writeBytes ..).next h rfl
  · exact .each _ h₂ fun _ _ h => (does_writeBytes ..).next h rfl

theorem does_beginReadout (s : State) (j t : Nat) : Does [.mem, .tmp] s (s.beginReadout j t) :=
  (does_setTjob ..).next ((does_writeNat ..).next (.tmp (.refl _ _) rfl) rfl) rfl

theorem does_kickReadouts (s : State) (t : Nat) : Does (eventedAnd [.mem, .tmp]) s (s.kickReadouts t) := by
  unfold State.kickReadouts
  refine .ite (.refl _ _) ?_
  extract_lets s₁ _
  refine .via s₁ (.each _ (.refl _ _) fun _ _ h => .ite ((does_event ..).next ((does_bumpSat ..).next ((does_bumpSat ..).next ((does_setTjob
      ..).next h rfl) rfl) rfl) rfl) h) fun h₁ => ?_
  split
  · exact h₁
  · exact (does_beginReadout ..).next (.tmp h₁ rfl) rfl

theorem does_readoutDue (s : State) (j : Nat) : Does (eventedAnd [.tmp]) s (s.readoutDue j) :=
  .ite ((does_event ..).next ((does_bumpSat ..).next ((does_bumpSat ..).next (.refl _ _) rfl) rfl) rfl) (.ite ((does_wr ..).next (.refl _ _) rfl)
      ((does_wr ..).next (.tmp (.refl _ _) rfl) rfl))

theorem does_execTmpReadoutStart (t : Nat) (j : Fin 32) (unc : List (Fin 4 × Fin 262144)) (s : State) : Answers (eventedAnd [.tick, .upTime, .mem,
    .tmp]) s (execTmpReadoutStart t j unc s) :=
  ⟨_, rfl, .ite ((does_advance ..).next (.refl _ _) rfl) ((does_kickReadouts ..).next (.each _ ((does_setTjob ..).next ((does_advance ..).next
      (.refl _ _) rfl) rfl) fun _ _ h => (does_readoutDue ..).next ((does_setTjob ..).next h rfl) rfl) rfl)⟩

theorem does_execTmpFlip (t : Nat) (j : Fin 32) (s : State) : Answers (eventedAnd [.tick, .upTime, .mem, .den, .tmp]) s (execTmpFlip t j s) :=
  ⟨_, rfl, .ite ((does_advance ..).next (.refl _ _) rfl) ((does_kickReadouts ..).next (.tmp ((does_event ..).next ((does_bump ..).next ((does_wrs
      ..).next ((does_setTjob ..).next ((does_writeWords ..).next ((does_writePlanes ..).next ((does_tmpRead ..).next ((does_advance ..).next
      (.refl _ _) rfl) rfl) rfl) rfl) rfl) rfl) rfl) rfl) rfl) rfl)⟩

theorem does_execTmpWriteErr (t : Nat) (j : Fin 32) (s : State) : Answers (eventedAnd [.tick, .upTime, .mem, .den, .tmp]) s (execTmpWriteErr t j
    s) :=
  ⟨_, rfl, .ite ((does_advance ..).next (.refl _ _) rfl) ((does_kickReadouts ..).next (.tmp ((does_event ..).next ((does_wr ..).next ((does_setTjob
      ..).next ((does_tmpRead ..).next ((does_advance ..).next (.refl _ _) rfl) rfl) rfl) rfl) rfl) rfl) rfl)⟩

theorem does_traceToJobs (s : State) (c i : Nat) (pts : List Int) : Does [.tmp] s (s.traceToJobs c i pts) :=
  .each _ (.refl _ _) fun _ _ h => (does_setTjob ..).next h rfl

/-! Operations of Machine/Transform. -/

theorem does_setXfp (s : State) (p : Nat) (x : XfPipe) : Does [.xf] s (s.setXfp p x) :=
  .xf (.refl _ _) rfl

theorem does_mapFrame (s : State) (c seq : Nat) (g : XfFrame → XfFrame) : Does [.xf] s (s.mapFrame c seq g) :=
  (does_setXfc ..).next (.refl _ _) rfl

theorem does_pipeStart (s : State) (p t : Nat) (now : Option Nat) : Does [.xf] s (s.pipeStart p t now) := by
  unfold State.pipeStart
  refine .ite (.refl _ _) ?_
  extract_lets w
  split
  · exact .refl _ _
  · exact (does_mapFrame ..).next (.refl _ _) rfl

theorem does_dropFrame (s : State) (c p seq hop t per : Nat) (start : SubTick) : Does (eventedAnd [.xf]) s (s.dropFrame c p seq hop t per start) :=
  (does_setRaw ..).next ((does_setXfc ..).next ((does_setXfp ..).next ((does_bumpSat ..).next ((does_bumpSat ..).next (.refl _ _) rfl) rfl) rfl)
      rfl) rfl

theorem does_frameReady (s : State) (c t : Nat) (g : XfGrid) (new : Bool) (put : XfGrid → XfCtx → XfCtx) : Does (eventedAnd [.xf]) s (s.frameReady
    c t g new put) := by
  unfold State.frameReady
  extract_lets j p s₁ start data pts exp f x blocked _ s₂
  refine .via s₁ ((does_pipeStart ..).next (.refl _ _) rfl) fun h₁ => ?_
  refine .via s₂ ((does_setXfc ..).next h₁ rfl) fun h₂ => ?_
  exact .ite h₁ (.ite ((does_dropFrame ..).next ((does_setXfc ..).next h₁ rfl) rfl) ((does_wr ..).next h₂ rfl))

theorem does_gridDue (s : State) (c t : Nat) (g : XfGrid) (new : Bool) (put : XfGrid → XfCtx → XfCtx) : Does (eventedAnd [.xf]) s (s.gridDue c t g
    new put) :=
  .ite (.refl _ _) ((does_frameReady ..).next (.refl _ _) rfl)

theorem does_execFrameReady (t : Nat) (c : Fin 1024) (s : State) : Answers (eventedAnd [.tick, .upTime, .xf]) s (execFrameReady t c s) := by
  refine ⟨_, rfl, ?_⟩
  refine .ite ((does_advance ..).next (.refl _ _) rfl) ?_
  split
  · refine .ite ((does_gridDue ..).next ((does_advance ..).next (.refl _ _) rfl) rfl) ?_
    split
    · exact .ite ((does_gridDue ..).next ((does_advance ..).next (.refl _ _) rfl) rfl) ((does_advance ..).next (.refl _ _) rfl)
    · exact (does_advance ..).next (.refl _ _) rfl
  · exact .ite ((does_gridDue ..).next ((does_advance ..).next (.refl _ _) rfl) rfl) ((does_advance ..).next (.refl _ _) rfl)
  · exact (does_advance ..).next (.refl _ _) rfl

theorem does_execPipelineReadEnd (t : Nat) (p : Fin 64) (corr : Nat) (bad : List (Fin 65536)) (s : State) : Answers (eventedAnd [.tick, .upTime,
    .xf]) s (execPipelineReadEnd t p corr bad s) := by
  unfold execPipelineReadEnd
  extract_lets s₁ _
  have h₁ : Does (eventedAnd [.tick, .upTime, .xf]) _ s₁ := (does_pipeStart ..).next ((does_advance ..).next (.refl _ _) rfl) rfl
  split
  · exact ⟨_, rfl, h₁⟩
  · refine ⟨_, rfl, ?_⟩
    refine .ite h₁ ?_
    extract_lets mine found s₂ read offset s₃ s₄ s₅ x s₆
    refine .via s₂ (.xf h₁ rfl) fun h₂ => ?_
    refine .via s₃ ((does_mapFrame ..).next h₂ rfl) fun h₃ => ?_
    refine .via s₄ ((does_bumpSat ..).next h₃ rfl) fun h₄ => ?_
    refine .via s₅ (.ite h₄ ((does_setRaw ..).next ((does_wr ..).next h₄ rfl) rfl)) fun h₅ => ?_
    refine .via s₆ ((does_setXfp ..).next h₅ rfl) fun h₆ => ?_
    exact (does_pipeStart ..).next h₆ rfl

theorem does_execOverloadClear (t : Nat) (p : Fin 64) (s : State) : Answers (eventedAnd [.tick, .upTime]) s (execOverloadClear t p s) :=
  ⟨_, rfl, .ite ((does_setRaw ..).next ((does_advance ..).next (.refl _ _) rfl) rfl) ((does_advance ..).next (.refl _ _) rfl)⟩

theorem does_xfpClr (s : State) (p : Nat) : Does [.rf] s (s.xfpClr p) :=
  (does_wrs ..).next (.refl _ _) rfl

theorem does_execXfpClr (t : Nat) (p : Fin 64) (s : State) : Answers [.rf, .tick, .upTime, .page] s (execXfpClr t p s) :=
  ⟨_, rfl, .hosted ((does_advance ..).next (.refl _ _) rfl) rfl fun _ h => (does_xfpClr ..).next h rfl⟩

theorem does_execXfpLoadUpdate (t : Nat) (p : Fin 64) (s : State) : Answers [.rf, .tick, .upTime, .xf] s (execXfpLoadUpdate t p s) :=
  ⟨_, rfl, .ite ((does_advance ..).next (.refl _ _) rfl) ((does_peak ..).next ((does_wr ..).next ((does_setXfp ..).next ((does_advance ..).next
      (.refl _ _) rfl) rfl) rfl) rfl)⟩

theorem does_maskStop (s : State) (c m n : Nat) (stamp : SubTick) (seq : Nat) (last : SubTick) : Does (eventedAnd [.acq, .mem]) s (s.maskStop c m n
    stamp seq last) := by
  unfold State.maskStop
  extract_lets a mode rec_ mark s₁ a' past n first s₂ s₃
  refine .via s₁ ((does_event ..).next ((does_setMap ..).next ((does_setActx ..).next ((does_record ..).next (.refl _ _) rfl) rfl) rfl) rfl) fun
      h₁ => ?_
  refine .via s₂ ?_ fun h₂ => ?_
  · unfold s₂
    clear_value first
    split
    · exact (does_wr ..).next h₁ rfl
    · exact h₁
  refine .via s₃ ((does_setActx ..).next h₂ rfl) fun h₃ => ?_
  exact .ite (.refl _ _) (.ite (.ite ((does_takeTrigger ..).next ((does_event ..).next ((does_setMap ..).next ((does_setActx ..).next ((does_record
      ..).next (.refl _ _) rfl) rfl) rfl) rfl) rfl) (.refl _ _)) (.ite (.ite ((does_endCapture ..).next h₃ rfl) (.refl _ _)) ((does_event ..).next
      ((does_setMap ..).next ((does_setActx ..).next ((does_record ..).next (.refl _ _) rfl) rfl) rfl) rfl)))

theorem does_maskTrace (s : State) (c m t : Nat) (pts : List Int) (stamp : SubTick) (seq : Nat) (last : SubTick) (err : List SegErr) : Does
    (eventedAnd [.acq, .mem]) s (s.maskTrace c m t pts stamp seq last err).2 := by
  unfold State.maskTrace
  extract_lets p n viol was prev _ s₁ mine s₂ bad s₃ s₄ s₅ s₆ stop
  refine .via s₁ (.trg (.refl _ _) rfl) fun h₁ => ?_
  refine .via s₂ ((does_bumpSat ..).next h₁ rfl) fun h₂ => ?_
  refine .via s₃ (.ite ((does_event ..).next h₂ rfl) h₂) fun h₃ => ?_
  refine .via s₄ ((does_wr ..).next h₃ rfl) fun h₄ => ?_
  refine .via s₅ ((does_sourceLevel ..).next h₄ rfl) fun h₅ => ?_
  refine .via s₆ (.ite ((does_sourcePulse ..).next h₅ rfl) (.ite ((does_sourcePulse ..).next h₅ rfl) h₅)) fun h₆ => ?_
  exact .ite ((does_maskStop ..).next h₆ rfl) h₆

theorem does_storeTraces (s : State) (c : Nat) (outs : List TraceOut) : Does (eventedAnd [.acq, .mem, .epo, .xf]) s (s.storeTraces c outs) := by
  unfold State.storeTraces
  extract_lets p kind mine body _
  clear_value mine
  split
  · exact .refl _ _
  · extract_lets s₁ head rec_ rec_'
    refine .via s₁ ((does_setXfc ..).next (.refl _ _) rfl) fun h₁ => ?_
    exact .ite h₁ ((does_takeRecord ..).next h₁ rfl)

theorem does_emitTraces (s : State) (c t : Nat) (outs : List TraceOut) (last : SubTick) (err : List SegErr) :
    Does (eventedAnd [.acq, .mem, .epo, .xf, .den, .tmp]) s (s.emitTraces c t outs last err) := by
  have h₀ : Does (eventedAnd [.acq, .mem, .epo, .xf, .den, .tmp]) s (s.storeTraces c outs) := (does_storeTraces ..).next (.refl _ _) rfl
  refine .ite h₀ (.each _ h₀ fun u x h => ?_)
  extract_lets p ms r s₁ s₂
  refine .via r.2 ?_ fun hr => ?_
  · unfold r
    split
    · exact h
    · exact .foldlSnd _ h fun _ _ hm => (does_maskTrace ..).next hm rfl
  refine .via s₁ (.ite ((does_bump ..).next hr rfl) hr) fun h₁ => ?_
  refine .via s₂ (.each _ h₁ fun _ _ hu => (does_setDen ..).next hu rfl) fun h₂ => ?_
  exact (does_traceToJobs ..).next h₂ rfl

theorem does_endBlocks (s : State) (c t g : Nat) (f : XfFrame) (err : List SegErr) : Does (eventedAnd [.acq, .mem, .epo, .xf, .den, .tmp,
    .freeCnt]) s (s.endBlocks c t g f err) :=
  (does_emitTraces ..).next (.freeCnt ((does_setXfc ..).next (.refl _ _) rfl) rfl) rfl

theorem does_averageTrace (s : State) (c i g : Nat) (f : XfFrame) (flags : Nat) (pts : List (Int × Nat)) : Does [.xf] s (s.averageTrace c i g f
    flags pts).2 := by
  unfold State.averageTrace
  extract_lets x v a mode restarted mark blk acc w part acc' out
  split
  · split
    · exact (does_setXfc ..).next (.refl _ _) rfl
    · exact (does_setXfc ..).next (.refl _ _) rfl
  · exact (does_setXfc ..).next (.refl _ _) rfl

theorem does_xfSwitch (s : State) (c t : Nat) : Does (eventedAnd [.acq, .bank, .xf, .den, .tmp]) s (s.xfSwitch c t) := by
  unfold State.xfSwitch
  extract_lets x key units s₁ s₂ s₃ s₄ s₇ _ s₁₀ s₁₁ _
  refine .via s₁ ((does_drainsKeep ..).next (.refl _ _) rfl) fun h₁ => ?_
  refine .via s₂ h₁ fun h₂ => ?_
  refine .via s₃ (.each _ h₁ fun _ _ h => (does_wr ..).next h rfl) fun h₃ => ?_
  refine .via s₄ ?_ fun h₄ => ?_
  · unfold s₄
    refine .each _ h₃ fun _ _ h₅ => ?_
    extract_lets bound s₆
    refine .via s₆ ((does_wr ..).next h₅ rfl) fun h₆ => ?_
    exact .ite ((does_denClear ..).next h₆ rfl) h₆
  refine .via s₇ (.each _ h₄ fun _ _ h => .ite ((does_sourceLevel ..).next (.trg ((does_wr ..).next h rfl) rfl) rfl) ((does_levelEnd ..).next h
      rfl)) fun h₇ => ?_
  refine .via s₁₀ (.ite ((does_setActx ..).next h₇ rfl) h₇) fun h₁₀ => ?_
  refine .via s₁₁ ((does_drainsMove ..).next h₁₀ rfl) fun h₁₁ => ?_
  exact (does_setXfc ..).next h₁₁ rfl

theorem does_xfSettle (s : State) (c t : Nat) : Does (eventedAnd [.acq, .bank, .xf, .den, .tmp]) s (s.xfSettle c t) :=
  .ite ((does_xfSwitch ..).next (.refl _ _) rfl) (.refl _ _)

theorem does_execFrameEmit (t : Nat) (c : Fin 1024) (segErr : List SegErr) (s : State) : Answers (eventedAnd [.tick, .upTime, .acq, .bank, .mem,
    .epo, .xf, .den, .tmp, .freeCnt]) s (execFrameEmit t c segErr s) := by
  unfold execFrameEmit
  extract_lets s₁ p oldGain
  have h₁ : Does (eventedAnd [.tick, .upTime, .acq, .bank, .mem, .epo, .xf, .den, .tmp, .freeCnt]) s s₁ := (does_advance ..).next (.refl _ _) rfl
  split
  · exact ⟨_, rfl, h₁⟩
  · refine ⟨_, rfl, .ite h₁ ?_⟩
    extract_lets before lead s₂ s₃ bins g s₄ trg s₅ last flags kind s₆ fmt v xc s₇ width head words r _ s₈ s₉
    refine .via s₂ ((does_writeRuns ..).next ((does_setXfc ..).next h₁ rfl) rfl) fun h₂ => ?_
    refine .via s₃ ((does_endBlocks ..).next h₂ rfl) fun h₃ => ?_
    refine .via s₄ (.ite ((does_xfSwitch ..).next h₃ rfl) h₃) fun h₄ => ?_
    refine .via s₅ (.ite (.trg h₄ rfl) h₄) fun h₅ => ?_
    refine .via s₆ ((does_bump ..).next h₅ rfl) fun h₆ => ?_
    refine .via s₇ ((does_setXfc ..).next h₆ rfl) fun h₇ => ?_
    refine .via r.2 (.foldlSnd _ h₇ fun _ _ h => (does_averageTrace ..).next h rfl) fun hr => ?_
    refine .via s₈ (.freeCnt hr rfl) fun h₈ => ?_
    refine .via s₉ (.ite ((does_takeRecord ..).next h₈ rfl) h₈) fun h₉ => ?_
    exact (does_xfSettle ..).next ((does_emitTraces ..).next h₉ rfl) rfl

/-! Operations of Machine/Memory. -/

theorem does_enqueue (s : State) (pc t : Nat) (r : MemReq) : Does [.mem] s (s.enqueue pc t r) :=
  .ite (.refl _ _) (.memo (.refl _ _) rfl rfl)

theorem does_dequeue (s : State) (pc n : Nat) : Does [.mem] s (s.dequeue pc n) :=
  .memo (.refl _ _) rfl rfl

theorem does_writesDiscarded (s : State) (c : Nat) : Does [.mem] s (s.writesDiscarded c) :=
  .each _ (.refl _ _) fun _ _ h => .memo h rfl rfl

theorem does_robin {s : State} {pc : Nat} {reqs : List QueuedReq} {n : Nat} {x : Nat × State} (h : s.robin pc reqs n = some x) : Does [.mem] s
    x.2 := by
  induction n generalizing s with
  | zero => cases h
  | succ n ih =>
    unfold State.robin at h
    extract_lets k d _ s₁ at h
    have hs : Does [.mem] s s₁ := .memo (.refl _ _) rfl rfl
    split at h
    · split at h
      · cases h
        exact .memo (.refl _ _) rfl rfl
      · split at h
        · exact (ih h).next hs rfl
        · exact (ih h).next (.memo hs rfl rfl) rfl
    · exact (ih h).next (.memo (.refl _ _) rfl rfl) rfl

theorem does_pick {s : State} {pc t : Nat} {reqs : List QueuedReq} {x : Nat × State} (h : s.pick pc t reqs = some x) : Does [.mem] s x.2 := by
  unfold State.pick at h
  split at h
  · cases h
    exact .refl _ _
  · exact does_robin h

theorem does_occupy (s : State) (pc n : Nat) : Does [.mem] s (s.occupy pc n) :=
  .ite (.refl _ _) (.memo (.refl _ _) rfl rfl)

theorem does_setPostponed (s : State) (pc n : Nat) : Does [.rf, .mem] s (s.setPostponed pc n) :=
  (does_wr ..).next (.memo (.refl _ _) rfl rfl) rfl

theorem does_issueAll (s : State) (pc : Nat) : Does [.rf, .mem] s (s.issueAll pc) :=
  (does_setPostponed ..).next ((does_occupy ..).next (.refl _ _) rfl) rfl

theorem does_issuePostponed (s : State) (c : Nat) : Does [.rf, .mem] s (s.issuePostponed c) :=
  (does_issueAll ..).next ((does_issueAll ..).next (.refl _ _) rfl) rfl

theorem does_refreshBurst (s : State) (pc : Nat) : Does [.rf, .mem] s (s.refreshBurst pc) :=
  .memo ((does_issueAll ..).next (.refl _ _) rfl) rfl rfl

theorem does_stackTemp (s : State) (st : Nat) (temp : Int) : Does (eventedAnd [.mem]) s (s.stackTemp st temp) := by
  unfold State.stackTemp
  extract_lets p s₁ chans
  refine .via s₁ ((does_wrS ..).next (.refl _ _) rfl) fun h₁ => ?_
  exact .ite ((does_event ..).next (.each _ (.each _ h₁ fun _ _ h => (does_wr ..).next h rfl) fun _ _ h => (does_refreshBurst ..).next h rfl) rfl)
      (.ite ((does_event ..).next (.each _ h₁ fun _ _ h => (does_wr ..).next h rfl) rfl) h₁)

theorem does_nextRefresh (s : State) (pc : Nat) : Does [.mem] s (s.nextRefresh pc) :=
  .memo (.refl _ _) rfl rfl

theorem does_execRefreshDue (t : Nat) (pc : Fin 128) (s : State) : Answers [.rf, .tick, .upTime, .mem] s (execRefreshDue t pc s) := by
  refine ⟨_, rfl, ?_⟩
  refine .ite ((does_advance ..).next (.refl _ _) rfl) ?_
  extract_lets s₁
  refine .via s₁ ((does_nextRefresh ..).next ((does_advance ..).next (.refl _ _) rfl) rfl) fun h₁ => ?_
  exact .ite ((does_issueAll ..).next ((does_occupy ..).next h₁ rfl) rfl) (.ite ((does_setPostponed ..).next h₁ rfl) ((does_occupy ..).next h₁ rfl))

theorem does_execSelfRefreshEntry (t : Nat) (ch : Fin 64) (s : State) : Answers [.rf, .tick, .upTime, .mem] s (execSelfRefreshEntry t ch s) :=
  ⟨_, rfl, .ite ((does_advance ..).next (.refl _ _) rfl) ((does_wr ..).next ((does_issuePostponed ..).next ((does_advance ..).next (.refl _ _) rfl)
      rfl) rfl)⟩

theorem does_chanLevels (s : State) (c : Nat) : Does evented s (s.chanLevels c) :=
  (does_setRaw ..).next ((does_setRaw ..).next (.refl _ _) rfl) rfl

theorem does_failEntry (s : State) (kind c sid spare : Nat) : Does [.flash] s (s.failEntry kind c sid spare) :=
  .flash (.refl _ _) rfl

theorem does_migConseq (s : State) (c cause : Nat) : Does [.rf, .rel] s (s.migConseq c cause) :=
  (does_logFault ..).next (.refl _ _) rfl

theorem does_rankOut (s : State) (c sid cause : Nat) : Does (eventedAnd [.mem, .flash]) s (s.rankOut c sid cause) := by
  unfold State.rankOut
  extract_lets p s₁ spare s₂ s₃ _
  refine .via s₁ ((does_wr ..).next (.refl _ _) rfl) fun h₁ => ?_
  refine .via s₂ ((does_migConseq ..).next ((does_failEntry ..).next h₁ rfl) rfl) fun h₂ => ?_
  refine .via s₃ ((does_wrs ..).next h₂ rfl) fun h₃ => ?_
  exact .ite ((does_event ..).next (.memo h₃ rfl rfl) rfl) ((does_chanLevels ..).next ((does_failEntry ..).next h₁ rfl) rfl)

theorem does_poisonSync (s : State) (c : Nat) : Does [.rf] s (s.poisonSync c) :=
  (does_wr ..).next (.refl _ _) rfl

theorem does_poisonBurst (s : State) (c a : Nat) : Does [.rf, .mem] s (s.poisonBurst c a) :=
  .ite ((does_poisonSync ..).next (.memo (.refl _ _) rfl rfl) rfl) ((does_wr ..).next (.refl _ _) rfl)

theorem does_poisonClear (s : State) (a n : Nat) : Does [.rf, .mem] s (s.poisonClear a n) := by
  unfold State.poisonClear
  refine .foldl _ (.refl _ _) fun _ _ h₁ => ?_
  refine .ite ?_ ?_
  · extract_lets _ s₂
    refine .via s₂ (.memo h₁ rfl rfl) fun h₂ => ?_
    split
    · exact (does_poisonSync ..).next h₂ rfl
    · exact h₂
  · exact h₁

theorem does_uncorrectable (s : State) (a kind : Nat) : Does (eventedAnd [.mem, .flash]) s (s.uncorrectable a kind) := by
  unfold State.uncorrectable
  split
  · exact .refl _ _
  · extract_lets c p sid s₁ cause s₂ s₃
    refine .via s₁ (.ite (.refl _ _) ((does_wrs ..).next (.refl _ _) rfl)) fun h₁ => ?_
    refine .via s₂ ((does_event ..).next ((does_occur ..).next ((does_bumpSat ..).next h₁ rfl) rfl) rfl) fun h₂ => ?_
    refine .via s₃ ((does_poisonBurst ..).next h₂ rfl) fun h₃ => ?_
    exact .ite h₃ ((does_rankOut ..).next h₃ rfl)

theorem does_rollWindow (s : State) (st t : Nat) : Does [.mem] s (s.rollWindow st t) :=
  .ite (.refl _ _) (.memo (.refl _ _) rfl rfl)

theorem does_activate (s : State) (pc a k t : Nat) : Does (eventedAnd [.mem]) s (s.activate pc a k t) := by
  unfold State.activate
  split
  · exact .refl _ _
  · extract_lets c st p s₁ sid row key n last _ s₂ th v stop _ s₃ s₄ q
    refine .via s₁ ((does_rollWindow ..).next (.refl _ _) rfl) fun h₁ => ?_
    refine .via s₂ (.memo h₁ rfl rfl) fun h₂ => ?_
    refine .via s₃ (.memo h₂ rfl rfl) fun h₃ => ?_
    refine .via s₄ ((does_bumpSat ..).next ((does_wrs ..).next h₃ rfl) rfl) fun h₄ => ?_
    exact .ite ((does_event ..).next ((does_bumpSat ..).next ((does_wr ..).next h₄ rfl) rfl) rfl) h₂

theorem does_execRowThrottleEnd (t : Nat) (ch cls : Fin 64) (s : State) : Answers [.rf, .tick, .upTime, .mem] s (execRowThrottleEnd t ch cls
    s) := by
  refine ⟨_, rfl, ?_⟩
  split
  · exact (does_advance ..).next (.refl _ _) rfl
  · refine .ite ((does_advance ..).next (.refl _ _) rfl) ?_
    extract_lets _ s₁
    refine .via s₁ (.memo ((does_advance ..).next (.refl _ _) rfl) rfl rfl) fun h₁ => ?_
    exact .ite h₁ ((does_wr ..).next h₁ rfl)

theorem does_serve (s : State) (pc t : Nat) (r : MemReq) : Does (eventedAnd [.mem, .flash]) s (s.serve pc t r) := by
  unfold State.serve
  extract_lets c p s₁ _ s₂ s₃ s₄ s₅ _ s₆ s₇ s₈
  refine .via s₁ ((does_occupy ..).next (.refl _ _) rfl) fun h₁ => ?_
  refine .via s₂ (.memo h₁ rfl rfl) fun h₂ => ?_
  refine .via s₃ (.when _ h₂ fun _ h => (does_wr ..).next h rfl) fun h₃ => ?_
  refine .via s₄ (.each _ ((does_bumpSat ..).next h₃ rfl) fun _ _ h => (does_occur ..).next h rfl) fun h₄ => ?_
  refine .via s₅ ((does_bumpSat ..).next h₄ rfl) fun h₅ => ?_
  refine .via s₆ (.ite h₅ (.memo h₅ rfl rfl)) fun h₆ => ?_
  refine .via s₇ (.when _ h₆ fun _ h => (does_activate ..).next h rfl) fun h₇ => ?_
  refine .via s₈ ?_ fun h₈ => ?_
  · unfold s₈
    refine .ite ((does_uncorrectable ..).next h₇ rfl) ?_
    split
    · exact (does_uncorrectable ..).next h₇ rfl
    · exact h₇
  exact .ite h₂ (.ite (.ite ((does_uncorrectable ..).next h₇ rfl) ((does_poisonClear ..).next h₇ rfl)) (.when _ h₈ fun _ h => (does_bumpSat
      ..).next h rfl))

theorem does_serveOne (s : State) (pc t i : Nat) : Does (eventedAnd [.mem, .flash]) s (s.serveOne pc t i) := by
  unfold State.serveOne
  extract_lets able
  split
  · exact .refl _ _
  · rename_i k s₁ hp
    have h₁ : Does (eventedAnd [.mem, .flash]) s s₁ := (does_pick hp).next (.refl _ _) rfl
    split
    · exact h₁
    · extract_lets s₂
      refine .via s₂ ((does_serve ..).next ((does_dequeue ..).next h₁ rfl) rfl) fun h₂ => ?_
      exact .ite ((does_issueAll ..).next h₂ rfl) h₂

theorem does_execMemoryRequest (t : Nat) (pc : Fin 128) (new : List MemReq) (pick : Fin 32) (s : State) : Answers (eventedAnd [.tick, .upTime,
    .mem, .flash]) s (execMemoryRequest t pc new pick s) :=
  ⟨_, rfl, .ite ((does_serveOne ..).next (.each _ ((does_advance ..).next (.refl _ _) rfl) fun _ _ h => (does_enqueue ..).next h rfl) rfl) (.each _
      ((does_advance ..).next (.refl _ _) rfl) fun _ _ h => (does_enqueue ..).next h rfl)⟩

theorem does_freqCtl (s : State) (st sync go : Nat) : Does [.rf] s (s.freqCtl st sync go) := by
  unfold State.freqCtl
  extract_lets p s₁
  refine .via s₁ ((does_wr ..).next (.refl _ _) rfl) fun h₁ => ?_
  exact .ite h₁ ((does_wrs ..).next h₁ rfl)

theorem does_execFreqGo (t : Nat) (st sync : Fin 4) (s : State) : Answers [.rf, .tick, .upTime, .page] s (execFreqGo t st sync s) :=
  ⟨_, rfl, .hosted ((does_advance ..).next (.refl _ _) rfl) rfl fun _ h => (does_freqCtl ..).next h rfl⟩

theorem does_freqAtFrame (s : State) (h : Nat) : Does [.mem] s (s.freqAtFrame h) :=
  .memo (.refl _ _) rfl rfl

theorem does_execFreqSwitchStart (t : Nat) (st : Fin 4) (s : State) : Answers [.rf, .tick, .upTime, .mem] s (execFreqSwitchStart t st s) :=
  ⟨_, rfl, .ite ((does_advance ..).next (.refl _ _) rfl) (.each _ (.memo ((does_advance ..).next (.refl _ _) rfl) rfl rfl) fun _ _ h =>
      (does_issuePostponed ..).next h rfl)⟩

theorem does_wakeChan (s : State) (c : Nat) : Does [.rf] s (s.wakeChan c) :=
  .when _ (.refl _ _) fun _ h => (does_wr ..).next h rfl

theorem does_freqEnd (s : State) (st : Nat) : Does (eventedAnd [.mem]) s (s.freqEnd st) :=
  (does_event ..).next (.each _ ((does_wrs ..).next ((does_wr ..).next (.memo (.refl _ _) rfl rfl) rfl) rfl) fun _ _ h => (does_wakeChan ..).next h
      rfl) rfl

theorem does_execFreqDone (t : Nat) (st : Fin 4) (s : State) : Answers (eventedAnd [.tick, .upTime, .mem]) s (execFreqDone t st s) :=
  ⟨_, rfl, .ite ((does_advance ..).next (.refl _ _) rfl) ((does_freqEnd ..).next ((does_advance ..).next (.refl _ _) rfl) rfl)⟩

theorem does_execPeriodicTraining (t : Nat) (ch : Fin 64) (s : State) : Answers [.rf, .tick, .upTime, .mem] s (execPeriodicTraining t ch s) :=
  ⟨_, rfl, .ite ((does_advance ..).next (.refl _ _) rfl) ((does_bump ..).next ((does_issuePostponed ..).next (.memo ((does_advance ..).next (.refl
      _ _) rfl) rfl rfl) rfl) rfl)⟩

theorem does_startTraining (s : State) (c : Nat) : Does (eventedAnd [.mem]) s (s.startTraining c) :=
  (does_event ..).next ((does_bumpSat ..).next ((does_wr ..).next ((does_writesDiscarded ..).next ((does_issuePostponed ..).next (.refl _ _) rfl)
      rfl) rfl) rfl) rfl

theorem does_execErrorTraining (t : Nat) (ch : Fin 64) (s : State) : Answers (eventedAnd [.tick, .upTime, .mem]) s (execErrorTraining t ch s) :=
  ⟨_, rfl, .ite ((does_advance ..).next (.refl _ _) rfl) ((does_startTraining ..).next (.memo ((does_advance ..).next (.refl _ _) rfl) rfl rfl)
      rfl)⟩

theorem does_chanOut (s : State) (c : Nat) : Does (eventedAnd [.flash]) s (s.chanOut c) :=
  (does_chanLevels ..).next ((does_failEntry ..).next ((does_wr ..).next (.refl _ _) rfl) rfl) rfl

theorem does_bar2Range (s : State) : Does evented s s.bar2Range :=
  (does_event ..).next ((does_bumpSat ..).next (.refl _ _) rfl) rfl

theorem does_bar2Complete (s : State) (a n : Nat) : Does evented s (s.bar2Complete a n) :=
  .ite ((does_emit ..).next ((does_bar2Range ..).next (.refl _ _) rfl) rfl) (.ite ((does_emit ..).next (.refl _ _) rfl) (.ite ((does_emit ..).next
      ((does_event ..).next ((does_bumpSat ..).next (.refl _ _) rfl) rfl) rfl) ((does_emit ..).next (.refl _ _) rfl)))

theorem does_serveHeld (s : State) : Does (eventedAnd [.mem]) s s.serveHeld :=
  .each _ (.memo (.refl _ _) rfl rfl) fun _ _ h => (does_bar2Complete ..).next h rfl

theorem does_execBar2Read (t off len : Nat) (s : State) : Answers (eventedAnd [.tick, .upTime, .mem]) s (execBar2Read t off len s) :=
  ⟨_, rfl, .ite (.memo ((does_advance ..).next (.refl _ _) rfl) rfl rfl) ((does_bar2Complete ..).next ((does_advance ..).next (.refl _ _) rfl) rfl)⟩

theorem does_memWrite (s : State) (a : Nat) (bytes : List Byte) : Does [.rf, .mem] s (s.memWrite a bytes) :=
  (does_poisonClear ..).next ((does_writeBytes ..).next (.refl _ _) rfl) rfl

theorem does_execBar2Write (t off : Nat) (bytes : List Byte) (s : State) : Answers (eventedAnd [.tick, .upTime, .mem]) s (execBar2Write t off bytes
    s) :=
  ⟨_, rfl, .ite ((does_bar2Range ..).next ((does_advance ..).next (.refl _ _) rfl) rfl) (.ite ((does_advance ..).next (.refl _ _) rfl)
      ((does_memWrite ..).next ((does_advance ..).next (.refl _ _) rfl) rfl))⟩

theorem does_execBar2Resize (t log2 : Nat) (s : State) : Answers [.tick, .upTime, .mem] s (execBar2Resize t log2 s) :=
  ⟨_, rfl, .ite (.memo ((does_advance ..).next (.refl _ _) rfl) rfl rfl) ((does_advance ..).next (.refl _ _) rfl)⟩

theorem does_execBar2ReadHoldTimeout (t : Nat) (s : State) : Answers (eventedAnd [.tick, .upTime, .mem]) s (execBar2ReadHoldTimeout t s) := by
  refine ⟨_, rfl, ?_⟩
  split
  · exact (does_serveHeld ..).next ((does_advance ..).next (.refl _ _) rfl) rfl
  · exact .ite ((does_serveHeld ..).next ((does_advance ..).next (.refl _ _) rfl) rfl) ((does_emit ..).next (.memo ((does_serveHeld ..).next
      ((does_advance ..).next (.refl _ _) rfl) rfl) rfl rfl) rfl)

theorem does_execTrainingDone (t : Nat) (ch : Fin 64) (ok : Bool) (s : State) : Answers (eventedAnd [.tick, .upTime, .mem, .flash]) s
    (execTrainingDone t ch ok s) :=
  ⟨_, rfl, .ite ((does_advance ..).next (.refl _ _) rfl) ((does_serveHeld ..).next (.memo (.ite ((does_wr ..).next ((does_wr ..).next
      ((does_advance ..).next (.refl _ _) rfl) rfl) rfl) ((does_chanOut ..).next ((does_wr ..).next ((does_advance ..).next (.refl _ _) rfl) rfl)
      rfl)) rfl rfl) rfl)⟩

theorem does_execMigrationStep (t : Nat) (ch : Fin 64) (s : State) : Answers (eventedAnd [.tick, .upTime, .mem]) s (execMigrationStep t ch s) := by
  refine ⟨_, rfl, ?_⟩
  refine .ite ((does_advance ..).next (.refl _ _) rfl) ?_
  extract_lets _ s₁ n s₂ frm to_ s₃
  refine .via s₁ (.memo ((does_advance ..).next (.refl _ _) rfl) rfl rfl) fun h₁ => ?_
  refine .via s₂ ((does_wr ..).next h₁ rfl) fun h₂ => ?_
  refine .via s₃ (.each _ h₂ fun _ _ h => .ite ((does_wr ..).next h rfl) (.ite ((does_wr ..).next h rfl) h)) fun h₃ => ?_
  exact .ite h₂ ((does_event ..).next ((does_wrs ..).next h₃ rfl) rfl)

theorem does_mchClr (s : State) (c : Nat) : Does [.rf] s (s.mchClr c) :=
  (does_wrs ..).next (.refl _ _) rfl

theorem does_execMchClr (t : Nat) (ch : Fin 64) (s : State) : Answers [.rf, .tick, .upTime, .page] s (execMchClr t ch s) :=
  ⟨_, rfl, .hosted ((does_advance ..).next (.refl _ _) rfl) rfl fun _ h => (does_mchClr ..).next h rfl⟩

theorem does_execXlateAddr (t : Nat) (st : Fin 4) (addr : Word) (s : State) : Answers [.rf, .tick, .upTime, .page] s (execXlateAddr t st addr s) :=
  ⟨_, rfl, .hosted ((does_advance ..).next (.refl _ _) rfl) rfl fun _ h => (does_wr ..).next h rfl⟩

/-! Operations of Machine/Display. -/

theorem does_setDspHead (s : State) (h : Nat) (d : DspHead) : Does [.dsp] s (s.setDspHead h d) :=
  .dsp (.refl _ _) rfl

theorem does_sendLine (s : State) (h y n : Nat) : Does [.dsp, .out] s (s.sendLine h y n) :=
  (does_setDspHead ..).next (.ite ((does_emit ..).next (.refl _ _) rfl) (.refl _ _)) rfl

theorem does_layerFault (s : State) (h cause l line : Nat) : Does [.rf] s (s.layerFault h cause l line) :=
  (does_wrs ..).next (.refl _ _) rfl

theorem does_underrunAt (s : State) (h y x : Nat) : Does (eventedAnd [.dsp]) s (s.underrunAt h y x) := by
  unfold State.underrunAt
  extract_lets p d s₁ _ s₂ s₃
  refine .via s₁ ((does_sendLine ..).next (.refl _ _) rfl) fun h₁ => ?_
  refine .via s₂ ((does_setDspHead ..).next h₁ rfl) fun h₂ => ?_
  refine .via s₃ ((does_layerFault ..).next ((does_bumpSat ..).next h₂ rfl) rfl) fun h₃ => ?_
  exact .ite ((does_bumpSat ..).next h₂ rfl) ((does_event ..).next ((does_occur ..).next h₃ rfl) rfl)

theorem does_sendTo (s : State) (h y : Nat) : Does (eventedAnd [.dsp]) s (s.sendTo h y) := by
  unfold State.sendTo
  extract_lets d y
  refine .ite (.refl _ _) ?_
  refine .each _ (.refl _ _) fun _ _ h₁ => ?_
  refine .ite ((does_sendLine ..).next h₁ rfl) ?_
  split
  · exact (does_underrunAt ..).next h₁ rfl
  · exact (does_sendLine ..).next h₁ rfl

theorem does_shCopy (s : State) (p g : Nat) : Does [.rf] s (s.shCopy p g) :=
  .each _ (.refl _ _) fun _ _ h => (does_wrA ..).next h rfl

theorem does_shImage (s : State) (p : Nat) : Does [.rf, .page] s (s.shImage p) :=
  .each _ (.page (.refl _ _) rfl) fun _ _ h => (does_wr ..).next h rfl

theorem does_unlink (s : State) (h : Nat) (counts : Bool) : Does [.rf, .dsp] s (s.unlink h counts) :=
  .when _ ((does_setDspHead ..).next ((does_wrs ..).next (.refl _ _) rfl) rfl) fun _ h => (does_bumpSat ..).next h rfl

theorem does_dspApply (s : State) (h : Nat) : Does (eventedAnd [.page]) s (s.dspApply h).1 := by
  unfold State.dspApply
  extract_lets p image held want _ s₁ s₂ checked good badCode mode before s₃ train mask late s₄ s₅ s₆ s₇
  refine .via s₁ (.page (.refl _ _) rfl) fun h₁ => ?_
  refine .via s₂ (.ite ((does_shImage ..).next ((does_wr ..).next h₁ rfl) rfl) h₁) fun h₂ => ?_
  refine .via s₃ (.each _ h₂ fun _ _ h => (does_shCopy ..).next h rfl) fun h₃ => ?_
  refine .via s₄ ((does_wr ..).next h₃ rfl) fun h₄ => ?_
  refine .via s₅ (.ite h₄ ((does_wrs ..).next ((does_bump ..).next h₄ rfl) rfl)) fun h₅ => ?_
  refine .via s₆ ((does_eventIf ..).next h₅ rfl) fun h₆ => ?_
  refine .via s₇ (.ite h₆ ((does_event ..).next ((does_wrs ..).next h₆ rfl) rfl)) fun h₇ => ?_
  split
  · exact h₂
  · exact h₇

theorem does_retire (s : State) (h l addr frame : Nat) : Does evented s (s.retire h l addr frame) :=
  (does_event ..).next ((does_wrs ..).next ((does_bump ..).next (.refl _ _) rfl) rfl) rfl

theorem does_jobsAtFrame (s : State) (h : Nat) : Does (eventedAnd [.tmp]) s (s.jobsAtFrame h) :=
  .each _ (.refl _ _) fun _ _ h => (does_readoutDue ..).next ((does_setTjob ..).next h rfl) rfl

theorem does_frameStart (s : State) (h t : Nat) : Does (eventedAnd [.page, .mem, .tmp, .dsp]) s (s.frameStart h t) := by
  unfold State.frameStart
  extract_lets p s₁ old prev start s₂ frame ap s₃ mode train s₄ d modeFrom modeTrain resume blank s₅ s₆ on new fill s₇ gone taken taken' _ s₈ flip
      s₉ s₁₀
  refine .via s₁ ((does_sendTo ..).next (.refl _ _) rfl) fun h₁ => ?_
  refine .via s₂ ((does_wr ..).next ((does_bump ..).next h₁ rfl) rfl) fun h₂ => ?_
  refine .via ap.1 ((does_dspApply ..).next h₂ rfl) fun hap => ?_
  refine .via s₃ hap fun h₃ => ?_
  refine .via s₄ (.when _ h₃ fun _ h => (does_unlink ..).next h rfl) fun h₄ => ?_
  refine .via s₅ (.ite ((does_event ..).next ((does_wrs ..).next h₄ rfl) rfl) h₄) fun h₅ => ?_
  refine .via s₆ ((does_wrs ..).next h₅ rfl) fun h₆ => ?_
  refine .via s₇ (.each _ h₆ fun _ _ h => (does_retire ..).next h rfl) fun h₇ => ?_
  refine .via s₈ (.tmp h₇ rfl) fun h₈ => ?_
  refine .via s₉ (.ite ((does_event ..).next ((does_wrs ..).next h₈ rfl) rfl) h₈) fun h₉ => ?_
  refine .via s₁₀ ((does_setDspHead ..).next h₉ rfl) fun h₁₀ => ?_
  exact (does_freqAtFrame ..).next ((does_kickReadouts ..).next ((does_jobsAtFrame ..).next h₁₀ rfl) rfl) rfl

theorem does_frameAt (s : State) (h t : Nat) : Does (eventedAnd [.page, .mem, .tmp, .dsp]) s (s.frameAt h t) :=
  .ite ((does_frameStart ..).next (.refl _ _) rfl) (.refl _ _)

theorem does_execFrameStart (t : Nat) (h : Fin 2) (s : State) : Answers (eventedAnd [.tick, .upTime, .page, .mem, .tmp, .dsp]) s (execFrameStart t
    h s) :=
  ⟨_, rfl, (does_frameAt ..).next ((does_advance ..).next (.refl _ _) rfl) rfl⟩

theorem does_fillFrom (s : State) (h cause l line : Nat) : Does [.rf, .dsp] s (s.fillFrom h cause l line) :=
  (does_setDspHead ..).next ((does_layerFault ..).next (.refl _ _) rfl) rfl

theorem does_tagCheck (s : State) (h l line : Nat) : Does (eventedAnd [.dsp]) s (s.tagCheck h l line) := by
  unfold State.tagCheck
  extract_lets d
  split
  · exact .ite ((does_event ..).next ((does_fillFrom ..).next (.refl _ _) rfl) rfl) (.refl _ _)
  · exact .refl _ _

theorem does_lineFetch (s : State) (h l line : Nat) : Does (eventedAnd [.dsp]) s (s.lineFetch h l line) := by
  unfold State.lineFetch
  extract_lets s₁ d y0 x0 late
  refine .via s₁ ((does_sendTo ..).next (.refl _ _) rfl) fun h₁ => ?_
  split
  · exact h₁
  · exact .ite h₁ (.ite ((does_fillFrom ..).next h₁ rfl) (.ite h₁ (.ite ((does_event ..).next ((does_fillFrom ..).next h₁ rfl) rfl) ((does_tagCheck
      ..).next ((does_setDspHead ..).next h₁ rfl) rfl))))

theorem does_execLineFetch (t : Nat) (h : Fin 2) (l : Fin 4) (line : Fin 2160) (s : State) : Answers (eventedAnd [.tick, .upTime, .dsp]) s
    (execLineFetch t h l line s) :=
  ⟨_, rfl, .ite ((does_lineFetch ..).next ((does_advance ..).next (.refl _ _) rfl) rfl) ((does_advance ..).next (.refl _ _) rfl)⟩

theorem does_execUnderrun (t : Nat) (h : Fin 2) (line : Fin 2160) (x : Fin 3840) (s : State) : Answers (eventedAnd [.tick, .upTime, .dsp]) s
    (execUnderrun t h line x s) := by
  refine ⟨_, rfl, ?_⟩
  refine .ite ((does_advance ..).next (.refl _ _) rfl) ?_
  extract_lets s₁
  refine .via s₁ ((does_sendTo ..).next ((does_advance ..).next (.refl _ _) rfl) rfl) fun h₁ => ?_
  exact .ite h₁ ((does_underrunAt ..).next h₁ rfl)

theorem does_execTagChanged (t : Nat) (h : Fin 2) (l : Fin 4) (line : Fin 2160) (s : State) : Answers (eventedAnd [.tick, .upTime, .dsp]) s
    (execTagChanged t h l line s) :=
  ⟨_, rfl, .ite ((does_tagCheck ..).next ((does_advance ..).next (.refl _ _) rfl) rfl) ((does_advance ..).next (.refl _ _) rfl)⟩

theorem does_linkFailed (s : State) (h : Nat) (b : Bool) : Does evented s (s.linkFailed h b) :=
  (does_setRaw ..).next ((does_wr ..).next (.refl _ _) rfl) rfl

theorem does_execHpdChange (t : Nat) (h : Fin 2) (level lostLock : Bool) (s : State) : Answers (eventedAnd [.tick, .upTime, .dsp]) s (execHpdChange
    t h level lostLock s) := by
  refine ⟨_, rfl, ?_⟩
  refine .ite (.ite ((does_unlink ..).next ((does_advance ..).next (.refl _ _) rfl) rfl) ((does_advance ..).next (.refl _ _) rfl)) ?_
  refine .ite ((does_event ..).next ((does_setDspHead ..).next ((does_wr ..).next ((does_advance ..).next (.refl _ _) rfl) rfl) rfl) rfl) ?_
  extract_lets s₁ s₂ _
  refine .via s₁ ((does_event ..).next ((does_wr ..).next ((does_advance ..).next (.refl _ _) rfl) rfl) rfl) fun h₁ => ?_
  refine .via s₂ (.when _ h₁ fun _ h => (does_unlink ..).next h rfl) fun h₂ => ?_
  exact .ite ((does_setDspHead ..).next h₂ rfl) (.ite ((does_event ..).next ((does_unlink ..).next h₁ rfl) rfl) h₁)

theorem does_execLinkTrainAttempt (t : Nat) (h : Fin 2) (sinkRate : Fin 4) (sinkLanes : Fin 3) (s : State) : Answers (eventedAnd [.tick, .upTime,
    .dsp]) s (execLinkTrainAttempt t h sinkRate sinkLanes s) :=
  ⟨_, rfl, .ite ((does_advance ..).next (.refl _ _) rfl) (.ite ((does_linkFailed ..).next ((does_wr ..).next ((does_setDspHead ..).next
      ((does_advance ..).next (.refl _ _) rfl) rfl) rfl) rfl) ((does_setDspHead ..).next ((does_wr ..).next ((does_advance ..).next (.refl _ _)
      rfl) rfl) rfl))⟩

theorem does_auxStart (s : State) (h : Nat) : Does [.dsp, .out] s (s.auxStart h) :=
  (does_emit ..).next ((does_setDspHead ..).next (.refl _ _) rfl) rfl

theorem does_execLinkTrainDone (t : Nat) (h : Fin 2) (ok : Bool) (s : State) : Answers (eventedAnd [.tick, .upTime, .dsp]) s (execLinkTrainDone t h
    ok s) :=
  ⟨_, rfl, .ite ((does_advance ..).next (.refl _ _) rfl) (.when _ (.ite ((does_linkFailed ..).next ((does_wrs ..).next ((does_setDspHead ..).next
      ((does_advance ..).next (.refl _ _) rfl) rfl) rfl) rfl) (.ite ((does_setDspHead ..).next ((does_advance ..).next (.refl _ _) rfl) rfl)
      ((does_linkFailed ..).next ((does_wr ..).next ((does_setDspHead ..).next ((does_advance ..).next (.refl _ _) rfl) rfl) rfl) rfl))) fun _ h =>
      (does_auxStart ..).next h rfl)⟩

theorem does_execLinkTrainRetry (t : Nat) (h : Fin 2) (s : State) : Answers [.tick, .upTime, .dsp] s (execLinkTrainRetry t h s) :=
  ⟨_, rfl, .ite ((does_advance ..).next (.refl _ _) rfl) ((does_setDspHead ..).next ((does_advance ..).next (.refl _ _) rfl) rfl)⟩

theorem does_headCtl (s : State) (h v : Nat) : Does [.rf, .dsp] s (s.headCtl h v) := by
  unfold State.headCtl
  extract_lets p s₁ _ s₂
  refine .via s₁ (.ite ((does_wrs ..).next (.refl _ _) rfl) (.refl _ _)) fun h₁ => ?_
  refine .via s₂ ((does_setDspHead ..).next ((does_wr ..).next h₁ rfl) rfl) fun h₂ => ?_
  exact .ite h₁ (.ite ((does_unlink ..).next h₂ rfl) h₂)

theorem does_execHeadRetrain (t : Nat) (h : Fin 2) (s : State) : Answers [.rf, .tick, .upTime, .page, .dsp] s (execHeadRetrain t h s) :=
  ⟨_, rfl, .hosted ((does_advance ..).next (.refl _ _) rfl) rfl fun _ h => (does_headCtl ..).next h rfl⟩

theorem does_execHeadClr (t : Nat) (h : Fin 2) (s : State) : Answers [.rf, .tick, .upTime, .page, .dsp] s (execHeadClr t h s) :=
  ⟨_, rfl, .hosted ((does_advance ..).next (.refl _ _) rfl) rfl fun _ h => (does_headCtl ..).next h rfl⟩

theorem does_auxCtl (s : State) (h v : Nat) : Does [.rf, .dsp, .out] s (s.auxCtl h v) := by
  unfold State.auxCtl
  extract_lets p s₁ s₂ _
  refine .via s₁ ((does_wrs ..).next (.refl _ _) rfl) fun h₁ => ?_
  refine .via s₂ ((does_wr ..).next h₁ rfl) fun h₂ => ?_
  exact .ite (.refl _ _) (.ite h₁ (.ite ((does_setDspHead ..).next h₂ rfl) ((does_auxStart ..).next h₂ rfl)))

theorem does_execAuxGo (t : Nat) (h : Fin 2) (i2c read : Bool) (lenM1 : Fin 16) (addr : BitVec 20) (s : State) : Answers [.rf, .tick, .upTime,
    .page, .dsp, .out] s (execAuxGo t h i2c read lenM1 addr s) :=
  ⟨_, rfl, .hosted ((does_advance ..).next (.refl _ _) rfl) rfl fun _ h => (does_auxCtl ..).next h rfl⟩

theorem does_execAuxDone (t : Nat) (h : Fin 2) (result : Fin 4) (data : List Byte) (s : State) : Answers [.rf, .tick, .upTime] s (execAuxDone t h
    result data s) := by
  refine ⟨_, rfl, ?_⟩
  refine .ite ((does_advance ..).next (.refl _ _) rfl) ?_
  extract_lets s₁ mix
  refine .via s₁ ((does_wrs ..).next ((does_advance ..).next (.refl _ _) rfl) rfl) fun h₁ => ?_
  exact .ite ((does_wrs ..).next h₁ rfl) h₁

theorem does_gammaWrite (s : State) (h v : Nat) : Does [.rf, .dsp] s (s.gammaWrite h v) := by
  unfold State.gammaWrite
  extract_lets p b ch e s₁ d
  refine .via s₁ ((does_bump ..).next (.refl _ _) rfl) fun h₁ => ?_
  exact .ite ((does_wr ..).next h₁ rfl) (.ite h₁ ((does_setDspHead ..).next h₁ rfl))

theorem does_execGammaDataWrite (t : Nat) (h : Fin 2) (v : BitVec 10) (s : State) : Answers [.rf, .tick, .upTime, .page, .dsp] s
    (execGammaDataWrite t h v s) :=
  ⟨_, rfl, .hosted ((does_advance ..).next (.refl _ _) rfl) rfl fun _ h => (does_gammaWrite ..).next h rfl⟩

theorem does_execTeEdge (t : Nat) (h : Fin 2) (edge : Nat) (s : State) : Answers [.rf, .tick, .upTime, .dsp] s (execTeEdge t h edge s) :=
  ⟨_, rfl, .ite ((does_advance ..).next (.refl _ _) rfl) ((does_setDspHead ..).next ((does_wr ..).next ((does_advance ..).next (.refl _ _) rfl)
      rfl) rfl)⟩

theorem does_execTeMissing (t : Nat) (h : Fin 2) (s : State) : Answers (eventedAnd [.tick, .upTime, .dsp]) s (execTeMissing t h s) :=
  ⟨_, rfl, .ite ((does_advance ..).next (.refl _ _) rfl) ((does_event ..).next ((does_setDspHead ..).next ((does_advance ..).next (.refl _ _) rfl)
      rfl) rfl)⟩

/-! Operations of Machine/Banks. -/

theorem does_setBankWord (s : State) (b w : Nat) (v : Word) : Does [.bank] s (s.setBankWord b w v) :=
  .bank (.refl _ _) rfl

theorem does_bankRefuse (s : State) (b k word : Nat) (write : Bool) : Does evented s (s.bankRefuse b k word write) :=
  (does_event ..).next ((does_bumpSat ..).next (.ite (.refl _ _) ((does_wrs ..).next (.refl _ _) rfl)) rfl) rfl

theorem does_setStaged (s : State) (b : Nat) (l : List PortWord) : Does [.bank] s (s.setStaged b l) :=
  .bank (.refl _ _) rfl

theorem does_portFrom (s : State) (b t : Nat) : Does [.bank] s (s.portFrom b t) :=
  .bank (.refl _ _) rfl

theorem does_spillPush (s : State) (b t : Nat) : Does [.bank] s (s.spillPush b t) := by
  unfold State.spillPush
  extract_lets s₁ _
  refine .via s₁ ((does_spillRead ..).next (.refl _ _) rfl) fun h₁ => ?_
  split
  · exact h₁
  · exact (does_setStaged ..).next (.bank h₁ rfl) rfl

theorem does_stagedRefused (s : State) (b : Nat) : Does (eventedAnd [.bank]) s (s.stagedRefused b) := by
  unfold State.stagedRefused
  split
  · exact .refl _ _
  · extract_lets p s₁ s₂ _ s₃
    refine .via s₁ ((does_bankRefuse ..).next (.refl _ _) rfl) fun h₁ => ?_
    refine .via s₂ ((does_bumpSat ..).next h₁ rfl) fun h₂ => ?_
    refine .via s₃ (.ite ((does_wr ..).next (.bank h₂ rfl) rfl) h₂) fun h₃ => ?_
    exact (does_setStaged ..).next h₃ rfl

theorem does_bankSync (s : State) (b t : Nat) : Does (eventedAnd [.bank]) s (s.bankSync b t) := by
  unfold State.bankSync
  extract_lets s₁ n
  refine .via s₁ ((does_spillPush ..).next (.refl _ _) rfl) fun h₁ => ?_
  split
  · exact (does_portFrom ..).next h₁ rfl
  · exact .ite ((does_portFrom ..).next ((does_setStaged ..).next (.each _ h₁ fun _ _ h => (does_setBankWord ..).next h rfl) rfl) rfl) (.ite
      ((does_portFrom ..).next h₁ rfl) ((does_stagedRefused ..).next h₁ rfl))

theorem does_bankWait (s : State) (b : Nat) : Does [.rf, .bank] s (s.bankWait b) :=
  (does_peak ..).next ((does_bumpSat ..).next (.bank (.refl _ _) rfl) rfl) rfl

theorem does_bankServed (s : State) (b : Nat) : Does [.bank] s (s.bankServed b) :=
  .bank (.refl _ _) rfl

theorem does_bankCollide (s : State) (b : Nat) : Does evented s (s.bankCollide b) :=
  (does_event ..).next ((does_wr ..).next ((does_bumpSat ..).next (.refl _ _) rfl) rfl) rfl

theorem does_portMeets (s : State) (b t w : Nat) (write : Bool) : Does (eventedAnd [.bank]) s (s.portMeets b t w write) := by
  unfold State.portMeets
  split
  · exact .refl _ _
  · refine .ite (.refl _ _) ?_
    extract_lets s₁ s₂
    refine .via s₁ ((does_portFrom ..).next (.refl _ _) rfl) fun h₁ => ?_
    refine .via s₂ ((does_bankServed ..).next ((does_setStaged ..).next h₁ rfl) rfl) fun h₂ => ?_
    exact .ite ((does_bankWait ..).next h₁ rfl) (.ite ((does_bankCollide ..).next h₂ rfl) ((does_setBankWord ..).next h₂ rfl))

theorem does_dmaEnd (s : State) (d st : Nat) : Does (eventedAnd [.bank]) s (s.dmaEnd d st) :=
  (does_eventIf ..).next ((does_eventIf ..).next ((does_event ..).next ((does_bump ..).next (.bank ((does_wrs ..).next (.refl _ _) rfl) rfl) rfl)
      rfl) rfl) rfl

theorem does_dmaCollide (s : State) (d : Nat) : Does [.rf] s (s.dmaCollide d) :=
  (does_bumpSat ..).next (.ite (.refl _ _) ((does_wrs ..).next (.refl _ _) rfl)) rfl

theorem does_dmaRead (s : State) (d : Nat) : Does (eventedAnd [.bank]) s (s.dmaRead d).2 := by
  unfold State.dmaRead
  extract_lets p i a b w _
  split
  · split
    · exact .refl _ _
    · split
      · exact (does_bankRefuse ..).next (.refl _ _) rfl
      · exact .refl _ _
  · split
    · exact .refl _ _
    · split
      · exact .refl _ _
      · split
        · exact .bank (.refl _ _) rfl
        · exact .refl _ _

theorem does_dmaWord (s : State) (d : Nat) : Does (eventedAnd [.bank, .mem]) s (s.dmaWord d).2.2 := by
  unfold State.dmaWord
  extract_lets p i done
  split
  · rename_i u₁ e
    refine .via u₁ (.snd e ((does_dmaRead ..).next (.refl _ _) rfl)) fun h₁ => ?_
    exact h₁
  · rename_i _ u₂ e
    refine .via u₂ (.snd e ((does_dmaRead ..).next (.refl _ _) rfl)) fun h₂ => ?_
    exact h₂
  · rename_i _ u₃ e
    refine .via u₃ (.snd e ((does_dmaRead ..).next (.refl _ _) rfl)) fun h₃ => ?_
    extract_lets a b w
    split
    · split
      · exact h₃
      · split
        · exact (does_bankRefuse ..).next h₃ rfl
        · exact (does_bump ..).next ((does_setBankWord ..).next h₃ rfl) rfl
    · split
      · exact h₃
      · split
        · exact h₃
        · exact (does_bump ..).next ((does_memWrite ..).next h₃ rfl) rfl

theorem does_dmaWords (s : State) (d n : Nat) : Does (eventedAnd [.bank, .mem]) s (s.dmaWords d n).2 := by
  induction n generalizing s with
  | zero => exact .refl _ _
  | succ n ih =>
    have h₁ := does_dmaWord s d
    unfold State.dmaWords
    split
    · exact .refl _ _
    · split <;> rename_i hx <;> rw [hx] at h₁
      · exact h₁
      · exact h₁.trans (ih _)
      · exact h₁

theorem does_dmaCtl (s : State) (d v : Nat) : Does [.rf, .bank] s (s.dmaCtl d v) :=
  .ite (.ite ((does_wr ..).next (.bank (.refl _ _) rfl) rfl) (.refl _ _)) (.ite ((does_wrs ..).next (.bank (.refl _ _) rfl) rfl) (.refl _ _))

theorem does_execDmaGo (t : Nat) (d : Fin 16) (s : State) : Answers [.rf, .tick, .upTime, .page, .bank] s (execDmaGo t d s) :=
  ⟨_, rfl, .hosted ((does_advance ..).next (.refl _ _) rfl) rfl fun _ h => (does_dmaCtl ..).next h rfl⟩

theorem does_execDmaAbort (t : Nat) (d : Fin 16) (s : State) : Answers [.rf, .tick, .upTime, .page, .bank] s (execDmaAbort t d s) :=
  ⟨_, rfl, .hosted ((does_advance ..).next (.refl _ _) rfl) rfl fun _ h => (does_dmaCtl ..).next h rfl⟩

theorem does_dmaFinish (s : State) (d inFlight : Nat) : Does (eventedAnd [.bank, .mem]) s (s.dmaFinish d inFlight) := by
  unfold State.dmaFinish
  refine .ite (.refl _ _) ?_
  extract_lets aborted r
  refine .via r.2 ((does_dmaWords ..).next (.refl _ _) rfl) fun hr => ?_
  split
  · exact (does_dmaEnd ..).next hr rfl
  · exact .ite ((does_dmaEnd ..).next hr rfl) (.ite ((does_dmaEnd ..).next hr rfl) hr)

theorem does_execDmaDone (t : Nat) (d : Fin 16) (inFlight : Nat) (s : State) : Answers (eventedAnd [.tick, .upTime, .bank, .mem]) s (execDmaDone t
    d inFlight s) :=
  ⟨_, rfl, .ite ((does_advance ..).next (.refl _ _) rfl) ((does_dmaFinish ..).next ((does_advance ..).next (.refl _ _) rfl) rfl)⟩

theorem does_bankTurn (s : State) (b : Nat) : Does (eventedAnd [.bank]) s (s.bankTurn b) := by
  unfold State.bankTurn
  extract_lets s₁
  refine .via s₁ ?_ fun h₁ => ?_
  · unfold s₁
    split
    · exact .refl _ _
    · exact .ite (.refl _ _) ((does_stagedRefused ..).next (.refl _ _) rfl)
  exact .each _ h₁ fun _ _ h => (does_dmaEnd ..).next ((does_bankRefuse ..).next h rfl) rfl

theorem does_bnkOwn (s : State) (b owner agent : Nat) : Does (eventedAnd [.bank]) s (s.bnkOwn b owner agent) :=
  .ite ((does_wr ..).next (.refl _ _) rfl) ((does_bankTurn ..).next ((does_wrs ..).next ((does_bankSync ..).next (.refl _ _) rfl) rfl) rfl)

theorem does_execBankHandover (t : Nat) (b : Fin 64) (owner agent : BitVec 7) (s : State) : Answers (eventedAnd [.tick, .upTime, .page, .bank]) s
    (execBankHandover t b owner agent s) :=
  ⟨_, rfl, .hosted ((does_advance ..).next (.refl _ _) rfl) rfl fun _ h => (does_bnkOwn ..).next h rfl⟩

theorem does_bankDo (s : State) (b port : Nat) (x : BankAcc) : Does (eventedAnd [.bank, .mem]) s (s.bankDo b port x) := by
  unfold State.bankDo
  split
  · refine .ite (.refl _ _) ?_
    refine .ite ((does_dmaEnd ..).next (.refl _ _) rfl) ?_
    split
    · rename_i _ _ u₁ e
      refine .via u₁ (.thd e ((does_dmaWord ..).next (.refl _ _) rfl)) fun h₁ => ?_
      exact (does_dmaEnd ..).next h₁ rfl
    · rename_i _ u₂ e
      refine .via u₂ (.thd e ((does_dmaWord ..).next (.refl _ _) rfl)) fun h₂ => ?_
      exact h₂
  · exact .ite ((does_setBankWord ..).next (.refl _ _) rfl) ((does_emit ..).next (.refl _ _) rfl)

theorem does_bankDeny (s : State) (b port : Nat) (x : BankAcc) : Does (eventedAnd [.bank]) s (s.bankDeny b port x) := by
  unfold State.bankDeny
  split
  · exact .ite ((does_dmaEnd ..).next ((does_bankRefuse ..).next (.refl _ _) rfl) rfl) (.refl _ _)
  · extract_lets s₁
    refine .via s₁ ((does_bankRefuse ..).next (.refl _ _) rfl) fun h₁ => ?_
    exact .ite ((does_emit ..).next h₁ rfl) h₁

theorem does_bankTake (s : State) (b port : Nat) (x : Option BankAcc) : Does (eventedAnd [.bank]) s (s.bankTake b port x).2 := by
  unfold State.bankTake
  split
  · exact .refl _ _
  · extract_lets k _
    split
    · exact .ite (.refl _ _) (.bank (.refl _ _) rfl)
    · split
      · exact .refl _ _
      · exact (does_bankDeny ..).next (.refl _ _) rfl

theorem does_execHandoverDone (t : Nat) (b : Fin 64) (s : State) : Answers (eventedAnd [.tick, .upTime, .bank, .mem]) s (execHandoverDone t b
    s) := by
  refine ⟨_, rfl, ?_⟩
  refine .ite ((does_advance ..).next (.refl _ _) rfl) ?_
  extract_lets s₁ s₂ l _
  refine .via s₁ ((does_bankSync ..).next ((does_advance ..).next (.refl _ _) rfl) rfl) fun h₁ => ?_
  refine .via s₂ ((does_wrs ..).next h₁ rfl) fun h₂ => ?_
  refine .each _ (.bank h₂ rfl) fun _ _ h₃ => ?_
  split
  · rename_i _ u₄ e
    refine .via u₄ (.snd e ((does_bankTake ..).next h₃ rfl)) fun h₄ => ?_
    exact (does_bankDo ..).next h₄ rfl
  · rename_i u₅ e
    refine .via u₅ (.snd e ((does_bankTake ..).next h₃ rfl)) fun h₅ => ?_
    exact h₅

theorem does_execBankAccess (t : Nat) (b : Fin 64) (pa pb : Option BankAcc) (s : State) : Answers (eventedAnd [.tick, .upTime, .bank, .mem]) s
    (execBankAccess t b pa pb s) := by
  refine ⟨_, rfl, ?_⟩
  refine .ite ((does_advance ..).next (.refl _ _) rfl) ?_
  extract_lets ra rb s₁ s₂
  refine .via ra.2 ((does_bankTake ..).next ((does_bankSync ..).next ((does_advance ..).next (.refl _ _) rfl) rfl) rfl) fun hra => ?_
  refine .via rb.2 ((does_bankTake ..).next hra rfl) fun hrb => ?_
  refine .via s₁ hrb fun h₁ => ?_
  refine .via s₂ ((does_bankServed ..).next h₁ rfl) fun h₂ => ?_
  split
  · exact h₁
  · exact (does_portMeets ..).next ((does_bankDo ..).next h₁ rfl) rfl
  · exact (does_bankServed ..).next ((does_bankDo ..).next h₁ rfl) rfl
  · refine .ite ?_ ?_
    · split
      · exact (does_bankDo ..).next ((does_bankDo ..).next h₂ rfl) rfl
      · exact (does_bankDo ..).next ((does_bankDo ..).next h₂ rfl) rfl
      · extract_lets s₃
        refine .via s₃ ((does_bankCollide ..).next ((does_bankDo ..).next h₂ rfl) rfl) fun h₃ => ?_
        split
        · exact .ite ((does_dmaCollide ..).next h₃ rfl) h₃
        · exact h₃
    · exact .ite ((does_bankWait ..).next ((does_bankDo ..).next h₁ rfl) rfl) ((does_bankServed ..).next ((does_bankDo ..).next ((does_bankDo
        ..).next h₁ rfl) rfl) rfl)

theorem does_execBankStarveLimit (t : Nat) (b : Fin 64) (s : State) : Answers (eventedAnd [.tick, .upTime, .bank]) s (execBankStarveLimit t b s) :=
  ⟨_, rfl, .ite ((does_advance ..).next (.refl _ _) rfl) ((does_event ..).next ((does_wr ..).next (.bank ((does_advance ..).next (.refl _ _) rfl)
      rfl) rfl) rfl)⟩

theorem does_execDepositRecord (t : Nat) (b : Fin 64) (s : State) : Answers (eventedAnd [.tick, .upTime, .bank]) s (execDepositRecord t b s) := by
  refine ⟨_, rfl, ?_⟩
  split
  · exact (does_advance ..).next (.refl _ _) rfl
  · refine .ite ((does_advance ..).next (.refl _ _) rfl) ?_
    extract_lets s₁ _ s₂ body r len drop base at_ word words
    refine .via s₁ ((does_bankSync ..).next ((does_advance ..).next (.refl _ _) rfl) rfl) fun h₁ => ?_
    refine .via s₂ (.bank h₁ rfl) fun h₂ => ?_
    exact .ite ((does_event ..).next ((does_bumpSat ..).next h₂ rfl) rfl) (.ite ((does_bumpSat ..).next ((does_bankRefuse ..).next h₂ rfl) rfl)
        (.ite h₂ ((does_bump ..).next ((does_setStaged ..).next h₂ rfl) rfl)))

theorem does_spillCtl (s : State) (b unit nrowsM1 row0 dst go : Nat) : Does [.rf, .bank] s (s.spillCtl b unit nrowsM1 row0 dst go) := by
  unfold State.spillCtl
  extract_lets p s₁ d from_ _
  refine .via s₁ ((does_wrs ..).next (.refl _ _) rfl) fun h₁ => ?_
  exact .ite (.refl _ _) (.ite h₁ (.bank h₁ rfl))

theorem does_execSpillGo (t : Nat) (b : Fin 64) (unit : Fin 16) (nrowsM1 row0 : Fin 1024) (dst : Fin 131072) (s : State) : Answers [.rf, .tick,
    .upTime, .page, .bank] s (execSpillGo t b unit nrowsM1 row0 dst s) :=
  ⟨_, rfl, .hosted ((does_advance ..).next (.refl _ _) rfl) rfl fun _ h => (does_spillCtl ..).next h rfl⟩

theorem does_execSpillDone (t : Nat) (b : Fin 64) (s : State) : Answers (eventedAnd [.tick, .upTime, .bank]) s (execSpillDone t b s) := by
  refine ⟨_, rfl, ?_⟩
  refine .ite ((does_advance ..).next (.refl _ _) rfl) ?_
  extract_lets s₁ _
  refine .via s₁ ((does_bankSync ..).next ((does_advance ..).next (.refl _ _) rfl) rfl) fun h₁ => ?_
  split
  · exact h₁
  · exact .ite h₁ ((does_wr ..).next (.bank h₁ rfl) rfl)

theorem does_bnkClr (s : State) (b : Nat) : Does [.rf] s (s.bnkClr b) :=
  (does_wrs ..).next (.refl _ _) rfl

theorem does_execBnkClr (t : Nat) (b : Fin 64) (s : State) : Answers [.rf, .tick, .upTime, .page] s (execBnkClr t b s) :=
  ⟨_, rfl, .hosted ((does_advance ..).next (.refl _ _) rfl) rfl fun _ h => (does_bnkClr ..).next h rfl⟩

/-! Operations of Machine/Cores. -/

theorem does_coreState (s : State) (n v : Nat) : Does evented s (s.coreState n v) :=
  (does_setRaw ..).next ((does_setCore ..).next (.refl _ _) rfl) rfl

theorem does_coreHalt (s : State) (n v cause : Nat) : Does evented s (s.coreHalt n v cause) :=
  (does_coreState ..).next ((does_wr ..).next ((does_setCore ..).next (.refl _ _) rfl) rfl) rfl

theorem does_coreExc (s : State) (n cause pc : Nat) (ie : Bool) : Does evented s (s.coreExc n cause pc ie) := by
  unfold State.coreExc
  extract_lets p c s₁ s₂ s₃
  refine .via s₁ ((does_setCore ..).next (.refl _ _) rfl) fun h₁ => ?_
  refine .via s₂ (.ite h₁ ((does_wrs ..).next h₁ rfl)) fun h₂ => ?_
  refine .via s₃ ((does_bumpSat ..).next h₂ rfl) fun h₃ => ?_
  exact .ite h₃ ((does_coreHalt ..).next h₃ rfl)

theorem does_userGo (s : State) (n t v : Nat) : Does [.rf, .acq, .core] s (s.userGo n t v) := by
  unfold State.userGo
  extract_lets c k s₁ _
  refine .via s₁ ((does_bumpSat ..).next (.refl _ _) rfl) fun h₁ => ?_
  exact .ite ((does_setCore ..).next (.refl _ _) rfl) (.ite ((does_setActx ..).next h₁ rfl) h₁)

theorem does_ctlFx (s : State) (n t a v : Nat) : Does (eventedAnd [.acq, .bank]) s (s.ctlFx n t a v) := by
  unfold State.ctlFx
  extract_lets p b
  split
  · exact .ite ((does_bnkOwn ..).next (.refl _ _) rfl) ((does_bumpSat ..).next (.refl _ _) rfl)
  · exact (does_sourcePulse ..).next ((does_bump ..).next (.refl _ _) rfl) rfl
  · exact (does_userGo ..).next (.refl _ _) rfl
  · exact (does_event ..).next ((does_wr ..).next (.refl _ _) rfl) rfl
  · exact (does_event ..).next ((does_wr ..).next (.refl _ _) rfl) rfl
  · exact .refl _ _

theorem does_coreFx (s : State) (n t pc : Nat) (ie : Bool) (f : CoreFx) : Does (eventedAnd [.acq, .bank, .freeCnt]) s (s.coreFx n t pc ie f) := by
  unfold State.coreFx
  split
  · exact (does_portMeets ..).next ((does_setBankWord ..).next (.refl _ _) rfl) rfl
  · exact (does_portMeets ..).next (.refl _ _) rfl
  · exact (does_bankRefuse ..).next (.refl _ _) rfl
  · exact (does_coreExc ..).next (.refl _ _) rfl
  · exact (does_ctlFx ..).next (.refl _ _) rfl
  · exact .freeCnt (.refl _ _) rfl
  · exact (does_coreHalt ..).next (.refl _ _) rfl
  · exact (does_bumpSat ..).next (.refl _ _) rfl

theorem does_coreStep (s : State) (n t : Nat) (ecc : CoreEcc) : Does (eventedAnd [.acq, .bank, .freeCnt]) s (s.coreStep n t ecc) := by
  unfold State.coreStep
  extract_lets p c pc w legal s₁ k k' s₂ c' s₃ e s₄ s₅ c'
  refine .via s₁ (.ite ((does_bumpSat ..).next (.refl _ _) rfl) (.refl _ _)) fun h₁ => ?_
  refine .via s₂ ((does_bumpSat ..).next h₁ rfl) fun h₂ => ?_
  refine .via s₃ (.ite ((does_bankSync ..).next h₂ rfl) h₂) fun h₃ => ?_
  refine .via s₄ ((does_bump ..).next ((does_setCore ..).next h₃ rfl) rfl) fun h₄ => ?_
  refine .via s₅ (.each _ h₄ fun _ _ h => (does_coreFx ..).next h rfl) fun h₅ => ?_
  exact .ite ((does_coreHalt ..).next ((does_setCore ..).next (.refl _ _) rfl) rfl) (.ite ((does_bumpSat ..).next ((does_setCore ..).next h₁ rfl)
      rfl) (.ite ((does_coreHalt ..).next h₅ rfl) h₅))

theorem does_coreNow (s : State) (n t : Nat) : Does [.core] s (s.coreNow n t) :=
  (does_setCore ..).next (.refl _ _) rfl

theorem does_coreRun (s : State) (n t : Nat) (ecc : CoreEcc) (f : CoreSt → Nat → Bool) : Does (eventedAnd [.acq, .bank, .freeCnt]) s (s.coreRun n t
    ecc f) := by
  unfold State.coreRun
  extract_lets s₁ c w _
  refine .via s₁ ((does_coreNow ..).next (.refl _ _) rfl) fun h₁ => ?_
  exact .ite h₁ ((does_coreStep ..).next ((does_setCore ..).next h₁ rfl) rfl)

theorem does_execOpNop (t : Nat) (n : Fin 64) (ecc : CoreEcc) (s : State) : Answers (eventedAnd [.tick, .upTime, .acq, .bank, .freeCnt]) s
    (execOpNop t n ecc s) :=
  ⟨_, rfl, (does_coreRun ..).next ((does_advance ..).next (.refl _ _) rfl) rfl⟩

theorem does_execOpAdd (t : Nat) (n : Fin 64) (ecc : CoreEcc) (s : State) : Answers (eventedAnd [.tick, .upTime, .acq, .bank, .freeCnt]) s
    (execOpAdd t n ecc s) :=
  ⟨_, rfl, (does_coreRun ..).next ((does_advance ..).next (.refl _ _) rfl) rfl⟩

theorem does_execOpSub (t : Nat) (n : Fin 64) (ecc : CoreEcc) (s : State) : Answers (eventedAnd [.tick, .upTime, .acq, .bank, .freeCnt]) s
    (execOpSub t n ecc s) :=
  ⟨_, rfl, (does_coreRun ..).next ((does_advance ..).next (.refl _ _) rfl) rfl⟩

theorem does_execOpAnd (t : Nat) (n : Fin 64) (ecc : CoreEcc) (s : State) : Answers (eventedAnd [.tick, .upTime, .acq, .bank, .freeCnt]) s
    (execOpAnd t n ecc s) :=
  ⟨_, rfl, (does_coreRun ..).next ((does_advance ..).next (.refl _ _) rfl) rfl⟩

theorem does_execOpOr (t : Nat) (n : Fin 64) (ecc : CoreEcc) (s : State) : Answers (eventedAnd [.tick, .upTime, .acq, .bank, .freeCnt]) s (execOpOr
    t n ecc s) :=
  ⟨_, rfl, (does_coreRun ..).next ((does_advance ..).next (.refl _ _) rfl) rfl⟩

theorem does_execOpXor (t : Nat) (n : Fin 64) (ecc : CoreEcc) (s : State) : Answers (eventedAnd [.tick, .upTime, .acq, .bank, .freeCnt]) s
    (execOpXor t n ecc s) :=
  ⟨_, rfl, (does_coreRun ..).next ((does_advance ..).next (.refl _ _) rfl) rfl⟩

theorem does_execOpAndn (t : Nat) (n : Fin 64) (ecc : CoreEcc) (s : State) : Answers (eventedAnd [.tick, .upTime, .acq, .bank, .freeCnt]) s
    (execOpAndn t n ecc s) :=
  ⟨_, rfl, (does_coreRun ..).next ((does_advance ..).next (.refl _ _) rfl) rfl⟩

theorem does_execOpCmp (t : Nat) (n : Fin 64) (ecc : CoreEcc) (s : State) : Answers (eventedAnd [.tick, .upTime, .acq, .bank, .freeCnt]) s
    (execOpCmp t n ecc s) :=
  ⟨_, rfl, (does_coreRun ..).next ((does_advance ..).next (.refl _ _) rfl) rfl⟩

theorem does_execOpShl (t : Nat) (n : Fin 64) (ecc : CoreEcc) (s : State) : Answers (eventedAnd [.tick, .upTime, .acq, .bank, .freeCnt]) s
    (execOpShl t n ecc s) :=
  ⟨_, rfl, (does_coreRun ..).next ((does_advance ..).next (.refl _ _) rfl) rfl⟩

theorem does_execOpShr (t : Nat) (n : Fin 64) (ecc : CoreEcc) (s : State) : Answers (eventedAnd [.tick, .upTime, .acq, .bank, .freeCnt]) s
    (execOpShr t n ecc s) :=
  ⟨_, rfl, (does_coreRun ..).next ((does_advance ..).next (.refl _ _) rfl) rfl⟩

theorem does_execOpSar (t : Nat) (n : Fin 64) (ecc : CoreEcc) (s : State) : Answers (eventedAnd [.tick, .upTime, .acq, .bank, .freeCnt]) s
    (execOpSar t n ecc s) :=
  ⟨_, rfl, (does_coreRun ..).next ((does_advance ..).next (.refl _ _) rfl) rfl⟩

theorem does_execOpMin (t : Nat) (n : Fin 64) (ecc : CoreEcc) (s : State) : Answers (eventedAnd [.tick, .upTime, .acq, .bank, .freeCnt]) s
    (execOpMin t n ecc s) :=
  ⟨_, rfl, (does_coreRun ..).next ((does_advance ..).next (.refl _ _) rfl) rfl⟩

theorem does_execOpMax (t : Nat) (n : Fin 64) (ecc : CoreEcc) (s : State) : Answers (eventedAnd [.tick, .upTime, .acq, .bank, .freeCnt]) s
    (execOpMax t n ecc s) :=
  ⟨_, rfl, (does_coreRun ..).next ((does_advance ..).next (.refl _ _) rfl) rfl⟩

theorem does_execOpTst (t : Nat) (n : Fin 64) (ecc : CoreEcc) (s : State) : Answers (eventedAnd [.tick, .upTime, .acq, .bank, .freeCnt]) s
    (execOpTst t n ecc s) :=
  ⟨_, rfl, (does_coreRun ..).next ((does_advance ..).next (.refl _ _) rfl) rfl⟩

theorem does_execOpSel (t : Nat) (n : Fin 64) (ecc : CoreEcc) (s : State) : Answers (eventedAnd [.tick, .upTime, .acq, .bank, .freeCnt]) s
    (execOpSel t n ecc s) :=
  ⟨_, rfl, (does_coreRun ..).next ((does_advance ..).next (.refl _ _) rfl) rfl⟩

theorem does_execOpAddi (t : Nat) (n : Fin 64) (ecc : CoreEcc) (s : State) : Answers (eventedAnd [.tick, .upTime, .acq, .bank, .freeCnt]) s
    (execOpAddi t n ecc s) :=
  ⟨_, rfl, (does_coreRun ..).next ((does_advance ..).next (.refl _ _) rfl) rfl⟩

theorem does_execOpCmpi (t : Nat) (n : Fin 64) (ecc : CoreEcc) (s : State) : Answers (eventedAnd [.tick, .upTime, .acq, .bank, .freeCnt]) s
    (execOpCmpi t n ecc s) :=
  ⟨_, rfl, (does_coreRun ..).next ((does_advance ..).next (.refl _ _) rfl) rfl⟩

theorem does_execOpAndi (t : Nat) (n : Fin 64) (ecc : CoreEcc) (s : State) : Answers (eventedAnd [.tick, .upTime, .acq, .bank, .freeCnt]) s
    (execOpAndi t n ecc s) :=
  ⟨_, rfl, (does_coreRun ..).next ((does_advance ..).next (.refl _ _) rfl) rfl⟩

theorem does_execOpOri (t : Nat) (n : Fin 64) (ecc : CoreEcc) (s : State) : Answers (eventedAnd [.tick, .upTime, .acq, .bank, .freeCnt]) s
    (execOpOri t n ecc s) :=
  ⟨_, rfl, (does_coreRun ..).next ((does_advance ..).next (.refl _ _) rfl) rfl⟩

theorem does_execOpCadd (t : Nat) (n : Fin 64) (ecc : CoreEcc) (s : State) : Answers (eventedAnd [.tick, .upTime, .acq, .bank, .freeCnt]) s
    (execOpCadd t n ecc s) :=
  ⟨_, rfl, (does_coreRun ..).next ((does_advance ..).next (.refl _ _) rfl) rfl⟩

theorem does_execOpCsub (t : Nat) (n : Fin 64) (ecc : CoreEcc) (s : State) : Answers (eventedAnd [.tick, .upTime, .acq, .bank, .freeCnt]) s
    (execOpCsub t n ecc s) :=
  ⟨_, rfl, (does_coreRun ..).next ((does_advance ..).next (.refl _ _) rfl) rfl⟩

theorem does_execOpCsar (t : Nat) (n : Fin 64) (ecc : CoreEcc) (s : State) : Answers (eventedAnd [.tick, .upTime, .acq, .bank, .freeCnt]) s
    (execOpCsar t n ecc s) :=
  ⟨_, rfl, (does_coreRun ..).next ((does_advance ..).next (.refl _ _) rfl) rfl⟩

theorem does_execOpConj (t : Nat) (n : Fin 64) (ecc : CoreEcc) (s : State) : Answers (eventedAnd [.tick, .upTime, .acq, .bank, .freeCnt]) s
    (execOpConj t n ecc s) :=
  ⟨_, rfl, (does_coreRun ..).next ((does_advance ..).next (.refl _ _) rfl) rfl⟩

theorem does_execOpExt (t : Nat) (n : Fin 64) (ecc : CoreEcc) (s : State) : Answers (eventedAnd [.tick, .upTime, .acq, .bank, .freeCnt]) s
    (execOpExt t n ecc s) :=
  ⟨_, rfl, (does_coreRun ..).next ((does_advance ..).next (.refl _ _) rfl) rfl⟩

theorem does_execOpAcld (t : Nat) (n : Fin 64) (ecc : CoreEcc) (s : State) : Answers (eventedAnd [.tick, .upTime, .acq, .bank, .freeCnt]) s
    (execOpAcld t n ecc s) :=
  ⟨_, rfl, (does_coreRun ..).next ((does_advance ..).next (.refl _ _) rfl) rfl⟩

theorem does_execOpAcclr (t : Nat) (n : Fin 64) (ecc : CoreEcc) (s : State) : Answers (eventedAnd [.tick, .upTime, .acq, .bank, .freeCnt]) s
    (execOpAcclr t n ecc s) :=
  ⟨_, rfl, (does_coreRun ..).next ((does_advance ..).next (.refl _ _) rfl) rfl⟩

theorem does_execOpGeta (t : Nat) (n : Fin 64) (ecc : CoreEcc) (s : State) : Answers (eventedAnd [.tick, .upTime, .acq, .bank, .freeCnt]) s
    (execOpGeta t n ecc s) :=
  ⟨_, rfl, (does_coreRun ..).next ((does_advance ..).next (.refl _ _) rfl) rfl⟩

theorem does_execOpPuta (t : Nat) (n : Fin 64) (ecc : CoreEcc) (s : State) : Answers (eventedAnd [.tick, .upTime, .acq, .bank, .freeCnt]) s
    (execOpPuta t n ecc s) :=
  ⟨_, rfl, (does_coreRun ..).next ((does_advance ..).next (.refl _ _) rfl) rfl⟩

theorem does_execOpCmul (t : Nat) (n : Fin 64) (ecc : CoreEcc) (s : State) : Answers (eventedAnd [.tick, .upTime, .acq, .bank, .freeCnt]) s
    (execOpCmul t n ecc s) :=
  ⟨_, rfl, (does_coreRun ..).next ((does_advance ..).next (.refl _ _) rfl) rfl⟩

theorem does_execOpCmac (t : Nat) (n : Fin 64) (ecc : CoreEcc) (s : State) : Answers (eventedAnd [.tick, .upTime, .acq, .bank, .freeCnt]) s
    (execOpCmac t n ecc s) :=
  ⟨_, rfl, (does_coreRun ..).next ((does_advance ..).next (.refl _ _) rfl) rfl⟩

theorem does_execOpCjmul (t : Nat) (n : Fin 64) (ecc : CoreEcc) (s : State) : Answers (eventedAnd [.tick, .upTime, .acq, .bank, .freeCnt]) s
    (execOpCjmul t n ecc s) :=
  ⟨_, rfl, (does_coreRun ..).next ((does_advance ..).next (.refl _ _) rfl) rfl⟩

theorem does_execOpCjmac (t : Nat) (n : Fin 64) (ecc : CoreEcc) (s : State) : Answers (eventedAnd [.tick, .upTime, .acq, .bank, .freeCnt]) s
    (execOpCjmac t n ecc s) :=
  ⟨_, rfl, (does_coreRun ..).next ((does_advance ..).next (.refl _ _) rfl) rfl⟩

theorem does_execOpQmac (t : Nat) (n : Fin 64) (ecc : CoreEcc) (s : State) : Answers (eventedAnd [.tick, .upTime, .acq, .bank, .freeCnt]) s
    (execOpQmac t n ecc s) :=
  ⟨_, rfl, (does_coreRun ..).next ((does_advance ..).next (.refl _ _) rfl) rfl⟩

theorem does_execOpMaxi (t : Nat) (n : Fin 64) (ecc : CoreEcc) (s : State) : Answers (eventedAnd [.tick, .upTime, .acq, .bank, .freeCnt]) s
    (execOpMaxi t n ecc s) :=
  ⟨_, rfl, (does_coreRun ..).next ((does_advance ..).next (.refl _ _) rfl) rfl⟩

theorem does_execOpMini (t : Nat) (n : Fin 64) (ecc : CoreEcc) (s : State) : Answers (eventedAnd [.tick, .upTime, .acq, .bank, .freeCnt]) s
    (execOpMini t n ecc s) :=
  ⟨_, rfl, (does_coreRun ..).next ((does_advance ..).next (.refl _ _) rfl) rfl⟩

theorem does_execOpLd (t : Nat) (n : Fin 64) (ecc : CoreEcc) (s : State) : Answers (eventedAnd [.tick, .upTime, .acq, .bank, .freeCnt]) s (execOpLd
    t n ecc s) :=
  ⟨_, rfl, (does_coreRun ..).next ((does_advance ..).next (.refl _ _) rfl) rfl⟩

theorem does_execOpSt (t : Nat) (n : Fin 64) (ecc : CoreEcc) (s : State) : Answers (eventedAnd [.tick, .upTime, .acq, .bank, .freeCnt]) s (execOpSt
    t n ecc s) :=
  ⟨_, rfl, (does_coreRun ..).next ((does_advance ..).next (.refl _ _) rfl) rfl⟩

theorem does_execOpMov (t : Nat) (n : Fin 64) (ecc : CoreEcc) (s : State) : Answers (eventedAnd [.tick, .upTime, .acq, .bank, .freeCnt]) s
    (execOpMov t n ecc s) :=
  ⟨_, rfl, (does_coreRun ..).next ((does_advance ..).next (.refl _ _) rfl) rfl⟩

theorem does_execOpPload (t : Nat) (n : Fin 64) (ecc : CoreEcc) (s : State) : Answers (eventedAnd [.tick, .upTime, .acq, .bank, .freeCnt]) s
    (execOpPload t n ecc s) :=
  ⟨_, rfl, (does_coreRun ..).next ((does_advance ..).next (.refl _ _) rfl) rfl⟩

theorem does_execOpLi (t : Nat) (n : Fin 64) (ecc : CoreEcc) (s : State) : Answers (eventedAnd [.tick, .upTime, .acq, .bank, .freeCnt]) s (execOpLi
    t n ecc s) :=
  ⟨_, rfl, (does_coreRun ..).next ((does_advance ..).next (.refl _ _) rfl) rfl⟩

theorem does_execOpCnop (t : Nat) (n : Fin 64) (ecc : CoreEcc) (s : State) : Answers (eventedAnd [.tick, .upTime, .acq, .bank, .freeCnt]) s
    (execOpCnop t n ecc s) :=
  ⟨_, rfl, (does_coreRun ..).next ((does_advance ..).next (.refl _ _) rfl) rfl⟩

theorem does_execOpBr (t : Nat) (n : Fin 64) (ecc : CoreEcc) (s : State) : Answers (eventedAnd [.tick, .upTime, .acq, .bank, .freeCnt]) s (execOpBr
    t n ecc s) :=
  ⟨_, rfl, (does_coreRun ..).next ((does_advance ..).next (.refl _ _) rfl) rfl⟩

theorem does_execOpCall (t : Nat) (n : Fin 64) (ecc : CoreEcc) (s : State) : Answers (eventedAnd [.tick, .upTime, .acq, .bank, .freeCnt]) s
    (execOpCall t n ecc s) :=
  ⟨_, rfl, (does_coreRun ..).next ((does_advance ..).next (.refl _ _) rfl) rfl⟩

theorem does_execOpJr (t : Nat) (n : Fin 64) (ecc : CoreEcc) (s : State) : Answers (eventedAnd [.tick, .upTime, .acq, .bank, .freeCnt]) s (execOpJr
    t n ecc s) :=
  ⟨_, rfl, (does_coreRun ..).next ((does_advance ..).next (.refl _ _) rfl) rfl⟩

theorem does_execOpLoop (t : Nat) (n : Fin 64) (ecc : CoreEcc) (s : State) : Answers (eventedAnd [.tick, .upTime, .acq, .bank, .freeCnt]) s
    (execOpLoop t n ecc s) :=
  ⟨_, rfl, (does_coreRun ..).next ((does_advance ..).next (.refl _ _) rfl) rfl⟩

theorem does_execOpLoopr (t : Nat) (n : Fin 64) (ecc : CoreEcc) (s : State) : Answers (eventedAnd [.tick, .upTime, .acq, .bank, .freeCnt]) s
    (execOpLoopr t n ecc s) :=
  ⟨_, rfl, (does_coreRun ..).next ((does_advance ..).next (.refl _ _) rfl) rfl⟩

theorem does_execOpBreak (t : Nat) (n : Fin 64) (ecc : CoreEcc) (s : State) : Answers (eventedAnd [.tick, .upTime, .acq, .bank, .freeCnt]) s
    (execOpBreak t n ecc s) :=
  ⟨_, rfl, (does_coreRun ..).next ((does_advance ..).next (.refl _ _) rfl) rfl⟩

theorem does_execOpReti (t : Nat) (n : Fin 64) (ecc : CoreEcc) (s : State) : Answers (eventedAnd [.tick, .upTime, .acq, .bank, .freeCnt]) s
    (execOpReti t n ecc s) :=
  ⟨_, rfl, (does_coreRun ..).next ((does_advance ..).next (.refl _ _) rfl) rfl⟩

theorem does_execOpWait (t : Nat) (n : Fin 64) (ecc : CoreEcc) (s : State) : Answers (eventedAnd [.tick, .upTime, .acq, .bank, .freeCnt]) s
    (execOpWait t n ecc s) :=
  ⟨_, rfl, (does_coreRun ..).next ((does_advance ..).next (.refl _ _) rfl) rfl⟩

theorem does_execOpSetie (t : Nat) (n : Fin 64) (ecc : CoreEcc) (s : State) : Answers (eventedAnd [.tick, .upTime, .acq, .bank, .freeCnt]) s
    (execOpSetie t n ecc s) :=
  ⟨_, rfl, (does_coreRun ..).next ((does_advance ..).next (.refl _ _) rfl) rfl⟩

theorem does_execOpIllegal (t : Nat) (n : Fin 64) (ecc : CoreEcc) (s : State) : Answers (eventedAnd [.tick, .upTime, .acq, .bank, .freeCnt]) s
    (execOpIllegal t n ecc s) :=
  ⟨_, rfl, (does_coreRun ..).next ((does_advance ..).next (.refl _ _) rfl) rfl⟩

theorem does_execIrqCtlWrite (t : Nat) (n : Fin 64) (ecc : CoreEcc) (s : State) : Answers (eventedAnd [.tick, .upTime, .acq, .bank, .freeCnt]) s
    (execIrqCtlWrite t n ecc s) :=
  ⟨_, rfl, (does_coreRun ..).next ((does_advance ..).next (.refl _ _) rfl) rfl⟩

theorem does_execEvqRead (t : Nat) (n : Fin 64) (ecc : CoreEcc) (s : State) : Answers (eventedAnd [.tick, .upTime, .acq, .bank, .freeCnt]) s
    (execEvqRead t n ecc s) :=
  ⟨_, rfl, (does_coreRun ..).next ((does_advance ..).next (.refl _ _) rfl) rfl⟩

theorem does_execBnkSelWrite (t : Nat) (n : Fin 64) (ecc : CoreEcc) (s : State) : Answers (eventedAnd [.tick, .upTime, .acq, .bank, .freeCnt]) s
    (execBnkSelWrite t n ecc s) :=
  ⟨_, rfl, (does_coreRun ..).next ((does_advance ..).next (.refl _ _) rfl) rfl⟩

theorem does_execBnkOwnWr (t : Nat) (n : Fin 64) (ecc : CoreEcc) (s : State) : Answers (eventedAnd [.tick, .upTime, .acq, .bank, .freeCnt]) s
    (execBnkOwnWr t n ecc s) :=
  ⟨_, rfl, (does_coreRun ..).next ((does_advance ..).next (.refl _ _) rfl) rfl⟩

theorem does_execBnkOwnRd (t : Nat) (n : Fin 64) (ecc : CoreEcc) (s : State) : Answers (eventedAnd [.tick, .upTime, .acq, .bank, .freeCnt]) s
    (execBnkOwnRd t n ecc s) :=
  ⟨_, rfl, (does_coreRun ..).next ((does_advance ..).next (.refl _ _) rfl) rfl⟩

theorem does_execTrigGo (t : Nat) (n : Fin 64) (ecc : CoreEcc) (s : State) : Answers (eventedAnd [.tick, .upTime, .acq, .bank, .freeCnt]) s
    (execTrigGo t n ecc s) :=
  ⟨_, rfl, (does_coreRun ..).next ((does_advance ..).next (.refl _ _) rfl) rfl⟩

theorem does_execUserGo (t : Nat) (n : Fin 64) (ecc : CoreEcc) (s : State) : Answers (eventedAnd [.tick, .upTime, .acq, .bank, .freeCnt]) s
    (execUserGo t n ecc s) :=
  ⟨_, rfl, (does_coreRun ..).next ((does_advance ..).next (.refl _ _) rfl) rfl⟩

theorem does_execMbxInRead (t : Nat) (n : Fin 64) (ecc : CoreEcc) (s : State) : Answers (eventedAnd [.tick, .upTime, .acq, .bank, .freeCnt]) s
    (execMbxInRead t n ecc s) :=
  ⟨_, rfl, (does_coreRun ..).next ((does_advance ..).next (.refl _ _) rfl) rfl⟩

theorem does_execMbxOutStore (t : Nat) (n : Fin 64) (ecc : CoreEcc) (s : State) : Answers (eventedAnd [.tick, .upTime, .acq, .bank, .freeCnt]) s
    (execMbxOutStore t n ecc s) :=
  ⟨_, rfl, (does_coreRun ..).next ((does_advance ..).next (.refl _ _) rfl) rfl⟩

theorem does_execNotify (t : Nat) (n : Fin 64) (ecc : CoreEcc) (s : State) : Answers (eventedAnd [.tick, .upTime, .acq, .bank, .freeCnt]) s
    (execNotify t n ecc s) :=
  ⟨_, rfl, (does_coreRun ..).next ((does_advance ..).next (.refl _ _) rfl) rfl⟩

theorem does_irqEntry (s : State) (n t : Nat) : Does [.core] s (s.irqEntry n t) :=
  (does_setCore ..).next (.refl _ _) rfl

theorem does_execInterruptEntry (t : Nat) (n : Fin 64) (s : State) : Answers [.tick, .upTime, .core] s (execInterruptEntry t n s) :=
  ⟨_, rfl, .ite ((does_irqEntry ..).next ((does_coreNow ..).next ((does_advance ..).next (.refl _ _) rfl) rfl) rfl) ((does_coreNow ..).next
      ((does_advance ..).next (.refl _ _) rfl) rfl)⟩

theorem does_execWindowLoadArrive (t : Nat) (n : Fin 64) (s : State) : Answers [.rf, .tick, .upTime, .core] s (execWindowLoadArrive t n s) := by
  refine ⟨_, rfl, ?_⟩
  refine .ite ((does_advance ..).next (.refl _ _) rfl) ?_
  split
  · exact (does_setCore ..).next ((does_advance ..).next (.refl _ _) rfl) rfl
  · exact .ite ((does_bumpSat ..).next ((does_setCore ..).next ((does_advance ..).next (.refl _ _) rfl) rfl) rfl) ((does_setCore ..).next
      ((does_advance ..).next (.refl _ _) rfl) rfl)

theorem does_execTimerCompare (t : Nat) (n : Fin 64) (s : State) : Answers [.tick, .upTime, .core] s (execTimerCompare t n s) :=
  ⟨_, rfl, .ite ((does_advance ..).next (.refl _ _) rfl) ((does_setCore ..).next ((does_advance ..).next (.refl _ _) rfl) rfl)⟩

theorem does_execUserRecordWrite (t : Nat) (n : Fin 64) (s : State) : Answers (eventedAnd [.tick, .upTime, .acq, .mem]) s (execUserRecordWrite t n
    s) := by
  refine ⟨_, rfl, ?_⟩
  refine .ite ((does_advance ..).next (.refl _ _) rfl) ?_
  split
  · exact (does_advance ..).next (.refl _ _) rfl
  · extract_lets s₁ room s₂
    refine .via s₁ ((does_setCore ..).next ((does_advance ..).next (.refl _ _) rfl) rfl) fun h₁ => ?_
    refine .via s₂ ((does_record ..).next h₁ rfl) fun h₂ => ?_
    exact .ite ((does_bumpSat ..).next h₁ rfl) (.ite ((does_bump ..).next h₂ rfl) ((does_bumpSat ..).next h₂ rfl))

theorem does_mbxInWrite (s : State) (n v : Nat) : Does [.rf, .core] s (s.mbxInWrite n v) :=
  (does_setCore ..).next ((does_wr ..).next (.refl _ _) rfl) rfl

theorem does_execMbxInWrite (t : Nat) (n : Fin 64) (v : Word) (s : State) : Answers [.rf, .tick, .upTime, .page, .core] s (execMbxInWrite t n v
    s) :=
  ⟨_, rfl, .hosted ((does_advance ..).next (.refl _ _) rfl) rfl fun _ h => (does_mbxInWrite ..).next h rfl⟩

theorem does_scrHalt (s : State) (n : Nat) : Does evented s (s.scrHalt n) :=
  .ite (.refl _ _) (.ite ((does_coreHalt ..).next (.refl _ _) rfl) ((does_wr ..).next ((does_setCore ..).next (.refl _ _) rfl) rfl))

theorem does_execScrHalt (t : Nat) (n : Fin 64) (s : State) : Answers (eventedAnd [.tick, .upTime, .page]) s (execScrHalt t n s) :=
  ⟨_, rfl, .hosted ((does_advance ..).next (.refl _ _) rfl) rfl fun _ h => (does_scrHalt ..).next h rfl⟩

theorem does_scrResume (s : State) (n : Nat) : Does evented s (s.scrResume n) :=
  .ite (.refl _ _) ((does_coreState ..).next ((does_setCore ..).next (.refl _ _) rfl) rfl)

theorem does_execScrResume (t : Nat) (n : Fin 64) (s : State) : Answers (eventedAnd [.tick, .upTime, .page]) s (execScrResume t n s) :=
  ⟨_, rfl, .hosted ((does_advance ..).next (.refl _ _) rfl) rfl fun _ h => (does_scrResume ..).next h rfl⟩

theorem does_scrStep (s : State) (n t : Nat) (ecc : CoreEcc) : Does (eventedAnd [.acq, .bank, .freeCnt]) s (s.scrStep n t ecc) := by
  unfold State.scrStep
  refine .ite (.refl _ _) ?_
  extract_lets _ s₁
  refine .via s₁ ((does_coreStep ..).next ((does_setCore ..).next (.refl _ _) rfl) rfl) fun h₁ => ?_
  exact .ite h₁ ((does_coreHalt ..).next h₁ rfl)

theorem does_execScrStep (t : Nat) (n : Fin 64) (ecc : CoreEcc) (s : State) : Answers (eventedAnd [.tick, .upTime, .page, .acq, .bank, .freeCnt]) s
    (execScrStep t n ecc s) :=
  ⟨_, rfl, .hosted ((does_advance ..).next (.refl _ _) rfl) rfl fun _ h => (does_scrStep ..).next h rfl⟩

theorem does_dbgWrite (s : State) (n v : Nat) : Does [.core] s (s.dbgWrite n v) := by
  unfold State.dbgWrite
  extract_lets p c a
  refine .ite (.refl _ _) ?_
  split
  · exact .ite ((does_setCore ..).next (.refl _ _) rfl) (.refl _ _)
  · exact .ite ((does_setCore ..).next (.refl _ _) rfl) (.refl _ _)
  · exact .ite ((does_setCore ..).next (.refl _ _) rfl) (.ite ((does_setCore ..).next (.refl _ _) rfl) (.refl _ _))
  · exact .refl _ _

theorem does_execDbgDataAccess (t : Nat) (n : Fin 64) (write : Bool) (v : Word) (s : State) : Answers [.tick, .upTime, .page, .core, .out] s
    (execDbgDataAccess t n write v s) :=
  ⟨_, rfl, .ite (.hosted ((does_advance ..).next (.refl _ _) rfl) rfl fun _ h => (does_dbgWrite ..).next h rfl) (.ite ((does_emit ..).next
      ((does_advance ..).next (.refl _ _) rfl) rfl) ((does_hold ..).next ((does_advance ..).next (.refl _ _) rfl) rfl))⟩

theorem does_scrClr (s : State) (n : Nat) : Does [.rf] s (s.scrClr n) :=
  (does_wrs ..).next (.refl _ _) rfl

theorem does_execScrClr (t : Nat) (n : Fin 64) (s : State) : Answers [.rf, .tick, .upTime, .page] s (execScrClr t n s) :=
  ⟨_, rfl, .hosted ((does_advance ..).next (.refl _ _) rfl) rfl fun _ h => (does_scrClr ..).next h rfl⟩

/-! Operations of Machine/Reliability. -/

theorem does_setHop (s : State) (h j : Nat) (x : HopSt) : Does [.rel] s (s.setHop h j x) :=
  .rel (.refl _ _) rfl

theorem does_hopLevel (s : State) (h : Nat) : Does evented s (s.hopLevel h) :=
  (does_setRaw ..).next (.refl _ _) rfl

theorem does_hopReplay (s : State) (h j : Nat) : Does [.rf, .rel] s (s.hopReplay h j) :=
  (does_occur ..).next (.rel ((does_bumpSat ..).next ((does_setHop ..).next (.refl _ _) rfl) rfl) rfl) rfl

theorem does_injected (s : State) (h j : Nat) : Does [.rf, .rel] s (s.injected h j) := by
  unfold State.injected
  extract_lets x s₁
  refine .via s₁ ((does_setHop ..).next (.refl _ _) rfl) fun h₁ => ?_
  exact .ite ((does_wr ..).next h₁ rfl) h₁

theorem does_execFabricParityError (t : Nat) (h : Fin 64) (j : Fin 8) (words : List Word) (got : FabWord) (s : State) : Answers [.rf, .tick,
    .upTime, .rel] s (execFabricParityError t h j words got s) :=
  ⟨_, rfl, .ite ((does_advance ..).next (.refl _ _) rfl) ((does_hopReplay ..).next ((does_injected ..).next ((does_bumpSat ..).next ((does_setHop
      ..).next ((does_advance ..).next (.refl _ _) rfl) rfl) rfl) rfl) rfl)⟩

theorem does_hopFail (s : State) (h j : Nat) (uses : List HopUse) : Does evented s (s.hopFail h j uses) := by
  unfold State.hopFail
  extract_lets p _ s₁ s₂ cause s₃ s₄ _
  refine .via s₁ ((does_occur ..).next (.rel (.refl _ _) rfl) rfl) fun h₁ => ?_
  refine .via s₂ ((does_bumpSat ..).next ((does_wrs ..).next h₁ rfl) rfl) fun h₂ => ?_
  refine .via s₃ ((does_hopLevel ..).next h₂ rfl) fun h₃ => ?_
  refine .via s₄ (.ite ((does_takeCause ..).next h₃ rfl) h₃) fun h₄ => ?_
  exact (does_setHop ..).next h₄ rfl

theorem does_execReplayResult (t : Nat) (h : Fin 64) (j : Fin 8) (got : FabWord) (uses : List HopUse) (s : State) : Answers (eventedAnd [.tick,
    .upTime]) s (execReplayResult t h j got uses s) := by
  refine ⟨_, rfl, ?_⟩
  refine .ite ((does_advance ..).next (.refl _ _) rfl) ?_
  refine .ite ((does_setHop ..).next ((does_advance ..).next (.refl _ _) rfl) rfl) ?_
  extract_lets s₁
  refine .via s₁ ((does_injected ..).next ((does_advance ..).next (.refl _ _) rfl) rfl) fun h₁ => ?_
  exact .ite ((does_hopReplay ..).next h₁ rfl) ((does_hopFail ..).next h₁ rfl)

theorem does_execHopRetrainDone (t : Nat) (h : Fin 64) (j : Fin 8) (ok : Bool) (s : State) : Answers (eventedAnd [.tick, .upTime]) s
    (execHopRetrainDone t h j ok s) := by
  refine ⟨_, rfl, ?_⟩
  refine .ite ((does_advance ..).next (.refl _ _) rfl) ?_
  extract_lets s₁ now s₂ s₃ s₄
  refine .via s₁ ((does_bumpSat ..).next ((does_advance ..).next (.refl _ _) rfl) rfl) fun h₁ => ?_
  refine .via s₂ ((does_wr ..).next h₁ rfl) fun h₂ => ?_
  refine .via s₃ ((does_wrs ..).next h₂ rfl) fun h₃ => ?_
  refine .via s₄ ((does_wr ..).next h₂ rfl) fun h₄ => ?_
  exact .ite ((does_hopLevel ..).next ((does_setHop ..).next h₃ rfl) rfl) (.ite ((does_setHop ..).next h₂ rfl) (.ite ((does_setHop ..).next h₂ rfl)
      ((does_hopLevel ..).next ((does_setHop ..).next h₄ rfl) rfl)))

theorem does_fabCtl (s : State) (h v : Nat) : Does [.rf, .rel] s (s.fabCtl h v) := by
  unfold State.fabCtl
  extract_lets p s₁
  refine .via s₁ (.each _ (.refl _ _) fun _ _ h => (does_wr ..).next ((does_setHop ..).next h rfl) rfl) fun h₁ => ?_
  exact .ite ((does_wrs ..).next h₁ rfl) h₁

theorem does_execRetrainNow (t : Nat) (h : Fin 64) (mask : BitVec 8) (s : State) : Answers [.rf, .tick, .upTime, .page, .rel] s (execRetrainNow t h
    mask s) :=
  ⟨_, rfl, .hosted ((does_advance ..).next (.refl _ _) rfl) rfl fun _ h => (does_fabCtl ..).next h rfl⟩

theorem does_execFabClr (t : Nat) (h : Fin 64) (s : State) : Answers [.rf, .tick, .upTime, .page, .rel] s (execFabClr t h s) :=
  ⟨_, rfl, .hosted ((does_advance ..).next (.refl _ _) rfl) rfl fun _ h => (does_fabCtl ..).next h rfl⟩

theorem does_injectWrite (s : State) (h count go : Nat) : Does [.rf, .rel] s (s.injectWrite h count go) :=
  .each _ ((does_wr ..).next (.refl _ _) rfl) fun _ _ h => (does_wr ..).next ((does_setHop ..).next h rfl) rfl

theorem does_execInject (t : Nat) (h : Fin 64) (count : Fin 4) (mask : BitVec 8) (s : State) : Answers [.rf, .tick, .upTime, .page, .rel] s
    (execInject t h count mask s) :=
  ⟨_, rfl, .hosted ((does_advance ..).next (.refl _ _) rfl) rfl fun _ h => (does_injectWrite ..).next h rfl⟩

theorem does_streamLost (s : State) (u : HopUse) : Does (eventedAnd [.acq, .mem, .epo, .xf]) s (s.streamLost u) := by
  unfold State.streamLost
  extract_lets c
  split
  · exact (does_lose ..).next (.refl _ _) rfl
  · exact (does_openLeap ..).next (.refl _ _) rfl
  · split
    · exact (does_openLeap ..).next (.refl _ _) rfl
    · exact .refl _ _
  · exact .refl _ _

theorem does_execStreamWdExpiry (t : Nat) (path : List (Fin 64 × Fin 8)) (use : HopUse) (s : State) : Answers (eventedAnd [.tick, .upTime, .acq,
    .mem, .epo, .xf]) s (execStreamWdExpiry t path use s) := by
  refine ⟨_, rfl, ?_⟩
  refine .ite ((does_advance ..).next (.refl _ _) rfl) ?_
  split
  · exact (does_logFault ..).next ((does_advance ..).next (.refl _ _) rfl) rfl
  · exact .ite ((does_streamLost ..).next ((does_event ..).next ((does_occur ..).next ((does_advance ..).next (.refl _ _) rfl) rfl) rfl) rfl)
      ((does_advance ..).next (.refl _ _) rfl)

theorem does_vecArmWrite (s : State) (q w : Nat) : Does evented s (s.vecArmWrite q w) := by
  unfold State.vecArmWrite
  refine .each _ (.refl _ _) fun _ _ h₁ => ?_
  extract_lets v s₂
  refine .via s₂ ((does_setVecArmed ..).next h₁ rfl) fun h₂ => ?_
  split
  · exact (does_forwardNow ..).next h₂ rfl
  · exact h₂

theorem does_execVecArm (t : Nat) (v : Fin 256) (s : State) : Answers (eventedAnd [.tick, .upTime, .page]) s (execVecArm t v s) :=
  ⟨_, rfl, .hosted ((does_advance ..).next (.refl _ _) rfl) rfl fun _ h => (does_vecArmWrite ..).next h rfl⟩

theorem does_routeWrite (s : State) (id r : Nat) : Does evented s (s.routeWrite id r) :=
  .ite ((does_wr ..).next (.refl _ _) rfl) ((does_event ..).next (.refl _ _) rfl)

theorem does_execRouteWrite (t : Nat) (id : Fin 2048) (route : BitVec 16) (s : State) : Answers (eventedAnd [.tick, .upTime, .page]) s
    (execRouteWrite t id route s) :=
  ⟨_, rfl, .hosted ((does_advance ..).next (.refl _ _) rfl) rfl fun _ h => (does_routeWrite ..).next h rfl⟩

theorem does_serviceRestart (s : State) : Does [.rf, .rel, .mem, .boot, .svc] s s.serviceRestart :=
  .put ((does_wrs ..).next ((does_occur ..).next ((does_bumpSat ..).next ((does_wr ..).next (.refl _ _) rfl) rfl) rfl) rfl) rfl rfl
    (by simp [only_iff, State.serviceRestart])

theorem does_execScWdog (t : Nat) (s : State) : Answers (eventedAnd [.tick, .upTime, .mem, .boot, .svc]) s (execScWdog t s) :=
  ⟨_, rfl, .ite ((does_advance ..).next (.refl _ _) rfl) ((does_serviceRestart ..).next ((does_event ..).next ((does_advance ..).next (.refl _ _)
      rfl) rfl) rfl)⟩

theorem does_scKick (s : State) : Does [.rel] s s.scKick :=
  .rel (.refl _ _) rfl

theorem does_execScWdKick (t : Nat) (fromService : Bool) (s : State) : Answers [.tick, .upTime, .rel] s (execScWdKick t fromService s) :=
  ⟨_, rfl, .ite ((does_scKick ..).next ((does_advance ..).next (.refl _ _) rfl) rfl) ((does_advance ..).next (.refl _ _) rfl)⟩

theorem does_execThermStale (t : Nat) (sensor : Fin 12) (s : State) : Answers (eventedAnd [.tick, .upTime]) s (execThermStale t sensor s) :=
  ⟨_, rfl, .ite ((does_advance ..).next (.refl _ _) rfl) ((does_event ..).next (.rel ((does_wr ..).next ((does_advance ..).next (.refl _ _) rfl)
      rfl) rfl) rfl)⟩

theorem does_execHcUpdate (t : Nat) (s : State) : Answers (eventedAnd [.tick, .upTime]) s (execHcUpdate t s) :=
  ⟨_, rfl, .ite ((does_advance ..).next (.refl _ _) rfl) (.each _ (.rel ((does_advance ..).next (.refl _ _) rfl) rfl) fun _ _ h => (does_hcUpdate
      ..).next h rfl)⟩

theorem does_avClr (s : State) : Does [.rf, .rel] s s.avClr :=
  .rel ((does_wr ..).next (.refl _ _) rfl) rfl

theorem does_execAvClr (t : Nat) (s : State) : Answers [.rf, .tick, .upTime, .page, .rel] s (execAvClr t s) :=
  ⟨_, rfl, .hosted ((does_advance ..).next (.refl _ _) rfl) rfl fun _ h => (does_avClr ..).next h rfl⟩

/-! Operations of Machine/Housekeeping. -/

theorem does_hkBusyIs (s : State) (b : Bool) : Does [.rf, .tio] s (s.hkBusyIs b) :=
  (does_wrs ..).next (.ite (.refl _ _) ((does_owConvEnd ..).next (.refl _ _) rfl)) rfl

theorem does_convStart (s : State) : Does [.rf, .tio, .hk] s s.convStart :=
  (does_hkBusyIs ..).next (.hk (.refl _ _) rfl) rfl

theorem does_hkStop (s : State) : Does [.rf, .tio] s s.hkStop :=
  .ite (.refl _ _) ((does_wrs ..).next ((does_hkBusyIs ..).next (.refl _ _) rfl) rfl)

theorem does_convAbort (s : State) : Does (eventedAnd [.tio]) s s.convAbort :=
  .ite (.refl _ _) ((does_event ..).next ((does_hkBusyIs ..).next ((does_wrs ..).next (.refl _ _) rfl) rfl) rfl)

theorem does_calStart (s : State) (wake : Bool) : Does (eventedAnd [.tio, .hk]) s (s.calStart wake) :=
  (does_wrs ..).next (.hk ((does_convAbort ..).next (.refl _ _) rfl) rfl) rfl

theorem does_hkFrame (s : State) : Does [.hk] s s.hkFrame :=
  .hk (.refl _ _) rfl

theorem does_hkNext (s : State) : Does (eventedAnd [.tio, .hk]) s s.hkNext := by
  unfold State.hkNext
  extract_lets p _ s₁
  refine .via s₁ (.ite ((does_hkFrame ..).next (.refl _ _) rfl) (.refl _ _)) fun h₁ => ?_
  refine .ite (.refl _ _) ?_
  refine .ite ((does_calStart ..).next (.hk (.refl _ _) rfl) rfl) ?_
  split
  · exact h₁
  · exact (does_convStart ..).next ((does_wrs ..).next h₁ rfl) rfl

theorem does_hkSet (s : State) (l : List HkEntry) (period rotN : Nat) (cal : Bool) : Does (eventedAnd [.tio, .hk]) s (s.hkSet l period rotN
    cal) := by
  unfold State.hkSet
  extract_lets cal ran _ s₁ around now s₂ _ s₃
  refine .via s₁ (.ite (.refl _ _) (.ite ((does_convAbort ..).next (.refl _ _) rfl) (.hk (.refl _ _) rfl))) fun h₁ => ?_
  refine .via s₂ ((does_wr ..).next h₁ rfl) fun h₂ => ?_
  refine .via s₃ (.hk h₂ rfl) fun h₃ => ?_
  exact .ite ((does_hkNext ..).next h₃ rfl) h₃

theorem does_execHkSequenceFrame (t : Nat) (s : State) : Answers (eventedAnd [.tick, .upTime, .tio, .hk]) s (execHkSequenceFrame t s) :=
  ⟨_, rfl, .ite ((does_advance ..).next (.refl _ _) rfl) (.ite ((does_hkNext ..).next (.ite ((does_advance ..).next (.refl _ _) rfl) ((does_event
      ..).next (.hk ((does_advance ..).next (.refl _ _) rfl) rfl) rfl)) rfl) ((does_hkNext ..).next ((does_hkFrame ..).next ((does_advance ..).next
      (.refl _ _) rfl) rfl) rfl))⟩

theorem Does.hkHost {l : List Part} {s t : State} {f : State → State} (h : Does l s t) (w : inParts evented l = true)
    (hf : ∀ t, Does l s t → Does l s (f t)) : Does l s (t.hkHost f) :=
  .ite ((does_event ..).next ((does_bumpSat ..).next h (inParts_trans rfl w)) w) (hf _ h)

theorem does_convCtl (s : State) (w : Nat) : Does [.rf, .tio, .hk] s (s.convCtl w) := by
  unfold State.convCtl
  extract_lets _ s₁
  refine .via s₁ (.ite (.hk (.refl _ _) rfl) (.refl _ _)) fun h₁ => ?_
  exact .ite ((does_convStart ..).next h₁ rfl) h₁

theorem does_execConvGo (t : Nat) (s : State) : Answers (eventedAnd [.tick, .upTime, .page, .tio, .hk]) s (execConvGo t s) := by
  refine ⟨_, rfl, ?_⟩
  refine .hosted ((does_advance ..).next (.refl _ _) rfl) rfl fun _ h₁ => ?_
  exact .hkHost h₁ rfl fun _ h => (does_convCtl ..).next h rfl

theorem does_execConvStop (t : Nat) (s : State) : Answers (eventedAnd [.tick, .upTime, .page, .tio, .hk]) s (execConvStop t s) := by
  refine ⟨_, rfl, ?_⟩
  refine .hosted ((does_advance ..).next (.refl _ _) rfl) rfl fun _ h₁ => ?_
  exact .hkHost h₁ rfl fun _ h => (does_convCtl ..).next h rfl

theorem does_calCtl (s : State) (w : Nat) : Does (eventedAnd [.tio, .hk]) s (s.calCtl w) := by
  unfold State.calCtl
  extract_lets s₁
  refine .via s₁ ((does_wrs ..).next (.refl _ _) rfl) fun h₁ => ?_
  exact .ite ((does_calStart ..).next h₁ rfl) h₁

theorem does_execCalGo (t : Nat) (s : State) : Answers (eventedAnd [.tick, .upTime, .page, .tio, .hk]) s (execCalGo t s) := by
  refine ⟨_, rfl, ?_⟩
  refine .hosted ((does_advance ..).next (.refl _ _) rfl) rfl fun _ h₁ => ?_
  exact .hkHost h₁ rfl fun _ h => (does_calCtl ..).next h rfl

theorem does_thermal (s : State) (k : Nat) (ovr : Bool) (temp : Nat) : Does (eventedAnd [.mem, .ic, .hk]) s (s.thermal k ovr temp) := by
  unfold State.thermal
  extract_lets p s₁ _ _ s₂ s₃ inputs
  refine .via s₁ ((does_wrs ..).next (.refl _ _) rfl) fun h₁ => ?_
  refine .via s₂ (.put h₁ rfl rfl (by simp [only_iff, s₂])) fun h₂ => ?_
  refine .via s₃ ((does_hcLevels ..).next h₂ rfl) fun h₃ => ?_
  exact .ite ((does_event ..).next ((does_wr ..).next (.refl _ _) rfl) rfl) (.ite ((does_hcLevels ..).next ((does_stackTemp ..).next h₂ rfl) rfl)
      (.each _ h₃ fun _ _ h => (does_tempCheck ..).next h rfl))

theorem does_dacCheck (s : State) (k : Nat) (isHi : Bool) (code : Int) : Does (eventedAnd [.hk]) s (s.dacCheck k isHi code) :=
  .ite (.hk (.refl _ _) rfl) (.ite (.refl _ _) ((does_setRaw ..).next ((does_wr ..).next (.refl _ _) rfl) rfl))

theorem does_hkResult (s : State) (code : Int) (ovr : Bool) : Does evented s (s.hkResult code ovr) :=
  (does_eventIf ..).next ((does_event ..).next ((does_wrs ..).next (.refl _ _) rfl) rfl) rfl

theorem does_execHkConversionResult (t : Nat) (raw : Int) (overload : Bool) (temp : BitVec 16) (s : State) : Answers (eventedAnd [.tick, .upTime,
    .tio, .mem, .ic, .hk]) s (execHkConversionResult t raw overload temp s) := by
  refine ⟨_, rfl, ?_⟩
  refine .ite ((does_advance ..).next (.refl _ _) rfl) ?_
  extract_lets x c s₁ s₂ s₃ _ s₄ per skip _ s₅ _
  refine .via s₁ ((does_hkResult ..).next ((does_advance ..).next (.refl _ _) rfl) rfl) fun h₁ => ?_
  refine .via s₂ ?_ fun h₂ => ?_
  · unfold s₂
    split
    · exact (does_thermal ..).next h₁ rfl
    · exact h₁
  refine .via s₃ (.ite ((does_dacCheck ..).next h₂ rfl) h₂) fun h₃ => ?_
  refine .via s₄ (.hk h₃ rfl) fun h₄ => ?_
  refine .via s₅ ((does_hkBusyIs ..).next h₄ rfl) fun h₅ => ?_
  exact .ite (.hk h₄ rfl) ((does_hkNext ..).next (.hk h₅ rfl) rfl)

theorem does_execHkCalDone (t : Nat) (ofs : Int) (gain : Nat) (s : State) : Answers (eventedAnd [.tick, .upTime, .page, .tio, .boot, .hk]) s
    (execHkCalDone t ofs gain s) := by
  refine ⟨_, rfl, ?_⟩
  refine .ite ((does_advance ..).next (.refl _ _) rfl) ?_
  extract_lets ok s₁ s₂ _ s₃ _ s₄
  refine .via s₁ ((does_wrs ..).next ((does_wrS ..).next ((does_advance ..).next (.refl _ _) rfl) rfl) rfl) fun h₁ => ?_
  refine .via s₂ ((does_eventIf ..).next ((does_event ..).next h₁ rfl) rfl) fun h₂ => ?_
  refine .via s₃ (.boot h₂ rfl) fun h₃ => ?_
  refine .via s₄ (.ite ((does_pstateEnd ..).next (.hk h₃ rfl) rfl) h₃) fun h₄ => ?_
  exact (does_hkNext ..).next h₄ rfl

/-! Operations of Machine/Service. -/

theorem does_ringError (s : State) (r : Nat) : Does evented s (s.ringError r) :=
  (does_event ..).next ((does_wr ..).next (.refl _ _) rfl) rfl

theorem does_ringDb (s : State) (r tail head : Nat) : Does evented s (s.ringDb r tail head) := by
  unfold State.ringDb
  extract_lets s₁
  refine .via s₁ ((does_wrs ..).next (.refl _ _) rfl) fun h₁ => ?_
  exact .ite ((does_ringError ..).next h₁ rfl) h₁

theorem does_execRingDoorbell (t : Nat) (r : Fin 4) (tail : BitVec 12) (s : State) : Answers (eventedAnd [.tick, .upTime, .page]) s
    (execRingDoorbell t r tail s) :=
  ⟨_, rfl, .hosted ((does_advance ..).next (.refl _ _) rfl) rfl fun _ h => (does_ringDb ..).next h rfl⟩

theorem does_execCqHeadRelease (t : Nat) (r : Fin 4) (head : BitVec 12) (s : State) : Answers (eventedAnd [.tick, .upTime, .page]) s
    (execCqHeadRelease t r head s) :=
  ⟨_, rfl, .hosted ((does_advance ..).next (.refl _ _) rfl) rfl fun _ h => (does_ringDb ..).next h rfl⟩

theorem does_execCommandFetch (t : Nat) (r : Fin 4) (cmd : Option SvcCmd) (s : State) : Answers (eventedAnd [.tick, .upTime, .svc]) s
    (execCommandFetch t r cmd s) := by
  refine ⟨_, rfl, ?_⟩
  refine .ite ((does_advance ..).next (.refl _ _) rfl) ?_
  split
  · exact (does_ringError ..).next ((does_advance ..).next (.refl _ _) rfl) rfl
  · exact .ite ((does_ringError ..).next ((does_advance ..).next (.refl _ _) rfl) rfl) (.svc ((does_setRing ..).next ((does_advance ..).next (.refl
      _ _) rfl) rfl) rfl)

theorem does_execCompletionWrite (t : Nat) (r : Fin 4) (s : State) : Answers (eventedAnd [.tick, .upTime, .svc]) s (execCompletionWrite t r s) := by
  unfold execCompletionWrite
  extract_lets s₁ x size _ wraps
  have h₁ : Does (eventedAnd [.tick, .upTime, .svc]) _ s₁ := (does_advance ..).next (.refl _ _) rfl
  split
  · exact ⟨_, rfl, h₁⟩
  · exact ⟨_, rfl, .ite h₁ ((does_event ..).next ((does_emit ..).next ((does_emit ..).next ((does_setRing ..).next (.svc h₁ rfl) rfl) rfl) rfl)
      rfl)⟩

theorem does_execInvalidOpcode (t : Nat) (r : Fin 4) (s : State) : Answers [.tick, .upTime, .svc] s (execInvalidOpcode t r s) := by
  refine ⟨_, rfl, ?_⟩
  split
  · rename_i _ u₁ e
    refine .via u₁ ((does_svcTakeIf e).next ((does_advance ..).next (.refl _ _) rfl) rfl) fun h₁ => ?_
    exact (does_complete ..).next h₁ rfl
  · exact (does_advance ..).next (.refl _ _) rfl

theorem does_execGetInfo (t : Nat) (r : Fin 4) (s : State) : Answers [.tick, .upTime, .svc, .out] s (execGetInfo t r s) := by
  refine ⟨_, rfl, ?_⟩
  refine .atOnce ((does_advance ..).next (.refl _ _) rfl) rfl fun _ _ h₁ => ?_
  split
  · exact h₁
  · exact (does_emit ..).next h₁ rfl

theorem does_execGetHealth (t : Nat) (r : Fin 4) (s : State) : Answers [.tick, .upTime, .svc, .out] s (execGetHealth t r s) := by
  refine ⟨_, rfl, ?_⟩
  refine .atOnce ((does_advance ..).next (.refl _ _) rfl) rfl fun _ _ h₁ => ?_
  split
  · exact h₁
  · exact (does_emit ..).next h₁ rfl

theorem does_execMigrateStatus (t : Nat) (r : Fin 4) (s : State) : Answers [.tick, .upTime, .svc] s (execMigrateStatus t r s) :=
  ⟨_, rfl, .atOnce ((does_advance ..).next (.refl _ _) rfl) rfl fun _ _ h => h⟩

theorem does_execFailmapRead (t : Nat) (r : Fin 4) (s : State) : Answers [.tick, .upTime, .svc, .out] s (execFailmapRead t r s) :=
  ⟨_, rfl, .atOnce ((does_advance ..).next (.refl _ _) rfl) rfl fun _ _ h => (does_emit ..).next h rfl⟩

theorem does_execSelftest (t : Nat) (r : Fin 4) (s : State) : Answers [.tick, .upTime, .svc] s (execSelftest t r s) := by
  refine ⟨_, rfl, ?_⟩
  split
  · exact (does_advance ..).next (.refl _ _) rfl
  · rename_i _ u₁ e
    refine .via u₁ ((does_svcTake e).next ((does_advance ..).next (.refl _ _) rfl) rfl) fun h₁ => ?_
    exact .ite ((does_defer ..).next h₁ rfl) ((does_complete ..).next h₁ rfl)

theorem does_execSelftestDone (t : Nat) (failed : Word) (s : State) : Answers [.tick, .upTime, .svc] s (execSelftestDone t failed s) := by
  refine ⟨_, rfl, ?_⟩
  split
  · exact (does_advance ..).next (.refl _ _) rfl
  · exact (does_complete ..).next ((does_advance ..).next (.refl _ _) rfl) rfl

theorem does_execHkSequence (t : Nat) (r : Fin 4) (entries : List HkEntry) (s : State) :
    Answers (eventedAnd [.tick, .upTime, .tio, .svc, .hk]) s (execHkSequence t r entries s) := by
  refine ⟨_, rfl, ?_⟩
  refine .atOnce ((does_advance ..).next (.refl _ _) rfl) rfl fun u e h₁ => ?_
  have hset : ∀ xs us n b, Does (eventedAnd [.tick, .upTime, .tio, .svc, .hk]) s (u.hkSet xs us n b) := fun _ _ _ _ => (does_hkSet ..).next h₁ rfl
  extract_lets n us
  split
  · exact hset [] 0 0 false
  · split
    · exact h₁
    · exact hset entries us n (e.cmd.p1.getLsbD 8)

theorem does_verifyFail (s : State) : Does evented s s.verifyFail :=
  (does_event ..).next ((does_bumpSat ..).next (.refl _ _) rfl) rfl

theorem does_selectorWrite (s : State) (x : Nat) : Does [.rf, .flash] s (s.selectorWrite x) :=
  .flash ((does_wrs ..).next (.refl _ _) rfl) rfl

theorem does_fuseAdvance (s : State) (n : Nat) : Does (eventedAnd [.flash]) s (s.fuseAdvance n) :=
  .ite (.refl _ _) ((does_event ..).next ((does_wr ..).next (.flash (.refl _ _) rfl) rfl) rfl)

theorem does_fuseReady (s : State) : Does (eventedAnd [.flash]) s s.fuseReady :=
  (does_fuseAdvance ..).next (.refl _ _) rfl

theorem does_execFwStage (t : Nat) (r : Fin 4) (img : FwImage) (s : State) : Answers (eventedAnd [.tick, .upTime, .svc]) s (execFwStage t r img
    s) := by
  refine ⟨_, rfl, ?_⟩
  split
  · exact (does_advance ..).next (.refl _ _) rfl
  · rename_i _ u₁ e
    refine .via u₁ ((does_svcTake e).next ((does_advance ..).next (.refl _ _) rfl) rfl) fun h₁ => ?_
    refine .ite ((does_complete ..).next h₁ rfl) ?_
    extract_lets s₂ d s₃ _
    refine .via s₂ ((does_wr ..).next h₁ rfl) fun h₂ => ?_
    refine .via d.2 ((does_defer ..).next h₂ rfl) fun hd => ?_
    refine .via s₃ hd fun h₃ => ?_
    exact .ite ((does_complete ..).next ((does_verifyFail ..).next h₂ rfl) rfl) (.ite (.svc h₃ rfl) hd)

theorem does_execFwStageDone (t : Nat) (ok : Bool) (s : State) : Answers (eventedAnd [.tick, .upTime, .flash, .svc]) s (execFwStageDone t ok
    s) := by
  refine ⟨_, rfl, ?_⟩
  split
  · extract_lets _ s₁ _ s₂ s₃
    refine .via s₁ (.svc ((does_advance ..).next (.refl _ _) rfl) rfl) fun h₁ => ?_
    refine .via s₂ (.flash h₁ rfl) fun h₂ => ?_
    refine .via s₃ ((does_wrs ..).next h₂ rfl) fun h₃ => ?_
    exact .ite ((does_complete ..).next ((does_event ..).next h₁ rfl) rfl) ((does_complete ..).next ((does_event ..).next h₃ rfl) rfl)
  · exact (does_advance ..).next (.refl _ _) rfl

theorem does_slotReads (s : State) (x : Nat) (img : Option FwImage) : Does [.flash] s (s.slotReads x img) := by
  unfold State.slotReads
  split
  · exact .flash (.refl _ _) rfl
  · exact .refl _ _

theorem does_execFwActivate (t : Nat) (r : Fin 4) (flash : Option FwImage) (s : State) : Answers (eventedAnd [.tick, .upTime, .mem, .flash, .boot,
    .svc]) s (execFwActivate t r flash s) := by
  refine ⟨_, rfl, ?_⟩
  split
  · exact (does_advance ..).next (.refl _ _) rfl
  · rename_i _ u₁ e
    refine .via u₁ ((does_svcTake e).next ((does_advance ..).next (.refl _ _) rfl) rfl) fun h₁ => ?_
    refine .ite ((does_complete ..).next h₁ rfl) ?_
    refine .ite ((does_complete ..).next h₁ rfl) ?_
    extract_lets x s₂ reason s₃ _ s₄
    refine .via s₂ ((does_slotReads ..).next h₁ rfl) fun h₂ => ?_
    refine .via s₃ ((does_fuseAdvance ..).next ((does_selectorWrite ..).next h₂ rfl) rfl) fun h₃ => ?_
    refine .via s₄ (.svc h₃ rfl) fun h₄ => ?_
    exact .ite ((does_complete ..).next ((does_verifyFail ..).next h₂ rfl) rfl) ((does_serviceRestart ..).next h₄ rfl)

theorem does_execServiceRestart (t : Nat) (r : Fin 4) (s : State) : Answers [.rf, .tick, .upTime, .rel, .mem, .boot, .svc] s (execServiceRestart t
    r s) := by
  refine ⟨_, rfl, ?_⟩
  split
  · exact (does_advance ..).next (.refl _ _) rfl
  · rename_i _ u₁ e
    refine .via u₁ ((does_svcTake e).next ((does_advance ..).next (.refl _ _) rfl) rfl) fun h₁ => ?_
    exact (does_serviceRestart ..).next (.svc h₁ rfl) rfl

theorem does_unpark (s : State) : Does (eventedAnd [.ing]) s s.unpark := by
  unfold State.unpark
  refine .each _ (.refl _ _) fun _ _ h₁ => ?_
  exact .each _ (.foldl _ ((does_setLinkState ..).next ((does_setLnk ..).next ((does_lanesRestart ..).next h₁ rfl) rfl) rfl) fun _ _ h =>
      (does_loadPage ..).next h rfl) fun _ _ h => (does_laneEvent ..).next h rfl

theorem does_abortCommands (s : State) : Does (eventedAnd [.epo, .ing, .svc, .net]) s s.abortCommands := by
  unfold State.abortCommands
  extract_lets l loading _ s₁ _ s₂ s₃ _ s₄ s₅
  refine .via s₁ (.svc (.refl _ _) rfl) fun h₁ => ?_
  refine .via s₂ (.epo h₁ rfl) fun h₂ => ?_
  refine .via s₃ (.ite ((does_unpark ..).next h₂ rfl) h₂) fun h₃ => ?_
  refine .via s₄ (.net h₃ rfl) fun h₄ => ?_
  refine .via s₅ (.ite ((does_event ..).next ((does_wr ..).next h₄ rfl) rfl) h₄) fun h₅ => ?_
  exact .each _ h₅ fun _ _ h => (does_complete ..).next h rfl

theorem does_execServiceRestartReady (t : Nat) (s : State) : Answers (eventedAnd [.tick, .upTime, .mem, .epo, .flash, .boot, .ing, .svc, .net]) s
    (execServiceRestartReady t s) := by
  refine ⟨_, rfl, ?_⟩
  refine .ite ((does_advance ..).next (.refl _ _) rfl) ?_
  extract_lets own st _ _ _ s₁ s₂ s₃ s₄
  refine .via s₁ (.put ((does_advance ..).next (.refl _ _) rfl) rfl rfl (by simp [only_iff, s₁])) fun h₁ => ?_
  refine .via s₂ ((does_abortCommands ..).next ((does_fuseReady ..).next ((does_scKick ..).next ((does_wr ..).next h₁ rfl) rfl) rfl) rfl) fun h₂ =>
      ?_
  refine .via s₃ ((does_event ..).next h₂ rfl) fun h₃ => ?_
  refine .via s₄ (.ite ((does_event ..).next h₃ rfl) h₃) fun h₄ => ?_
  clear_value own
  split
  · exact h₃
  · exact .ite ((does_complete ..).next h₄ rfl) ((does_complete ..).next h₃ rfl)

theorem does_execAttest (t : Nat) (r : Fin 4) (s : State) : Answers [.tick, .upTime, .svc] s (execAttest t r s) := by
  refine ⟨_, rfl, ?_⟩
  split
  · exact (does_advance ..).next (.refl _ _) rfl
  · rename_i _ u₁ e
    refine .via u₁ ((does_svcTake e).next ((does_advance ..).next (.refl _ _) rfl) rfl) fun h₁ => ?_
    exact .ite ((does_complete ..).next h₁ rfl) ((does_defer ..).next h₁ rfl)

theorem does_execAttestDone (t : Nat) (sig cert : List Byte) (s : State) : Answers (eventedAnd [.tick, .upTime, .svc]) s (execAttestDone t sig cert
    s) := by
  refine ⟨_, rfl, ?_⟩
  split
  · exact (does_advance ..).next (.refl _ _) rfl
  · exact (does_complete ..).next ((does_emit ..).next ((does_event ..).next ((does_bump ..).next ((does_advance ..).next (.refl _ _) rfl) rfl)
      rfl) rfl) rfl

theorem does_setServo (s : State) (v : Nat) : Does (eventedAnd [.ptp]) s (s.setServo v) :=
  (does_eventIf ..).next (.ptp (.refl _ _) rfl) rfl

theorem does_execPtpCfg (t : Nat) (r : Fin 4) (cfg : PtpConfig) (s : State) : Answers (eventedAnd [.tick, .upTime, .ptp, .svc]) s (execPtpCfg t r
    cfg s) := by
  refine ⟨_, rfl, ?_⟩
  refine .atOnce ((does_advance ..).next (.refl _ _) rfl) rfl fun _ _ h₁ => ?_
  split
  · exact h₁
  · extract_lets s₂
    refine .via s₂ ((does_setServo ..).next h₁ rfl) fun h₂ => ?_
    exact .ptp h₂ rfl

theorem does_execPtpStatus (t : Nat) (r : Fin 4) (s : State) : Answers [.tick, .upTime, .svc, .out] s (execPtpStatus t r s) := by
  refine ⟨_, rfl, ?_⟩
  refine .atOnce ((does_advance ..).next (.refl _ _) rfl) rfl fun _ _ h₁ => ?_
  extract_lets x
  exact (does_emit ..).next h₁ rfl

/-! Operations of Machine/TimeService. -/

theorem does_ptpPacket (s : State) (p : Nat) (words : List Nat) : Does [.rf, .out] s (s.ptpPacket p words) :=
  (does_bump ..).next ((does_emit ..).next (.refl _ _) rfl) rfl

theorem does_ptpSync (s : State) (t1 t2 : Int) : Does [.ptp] s (s.ptpSync t1 t2) :=
  .ptp (.refl _ _) rfl

theorem does_ptpDelay (s : State) (t3 t4 : Int) : Does [.ptp] s (s.ptpDelay t3 t4) := by
  unfold State.ptpDelay
  split
  · exact .ptp (.refl _ _) rfl
  · exact .ptp (.refl _ _) rfl

theorem does_ptpTake (s : State) (p : Nat) (q : SubTick) (role : Nat) (x : PtpMsg) : Does [.rf, .ptp, .out] s (s.ptpTake p q role x) := by
  unfold State.ptpTake
  split
  · exact .ite (.ptp (.refl _ _) rfl) ((does_ptpSync ..).next (.refl _ _) rfl)
  · split
    · exact (does_ptpSync ..).next (.refl _ _) rfl
    · exact .refl _ _
  · exact .ite (.refl _ _) ((does_ptpPacket ..).next (.refl _ _) rfl)
  · split
    · exact (does_ptpDelay ..).next (.refl _ _) rfl
    · exact .refl _ _
  · exact .ptp (.refl _ _) rfl

theorem does_execPtpMessageRx (t : Nat) (p : Fin 2) (sub : Fin 16) (msg : PtpMsg) (portState : Byte) (locked : Bool) (s : State) : Answers
    (eventedAnd [.tick, .upTime, .ptp]) s (execPtpMessageRx t p sub msg portState locked s) := by
  refine ⟨_, rfl, ?_⟩
  split
  · exact (does_advance ..).next (.refl _ _) rfl
  · exact .ite ((does_advance ..).next (.refl _ _) rfl) ((does_setServo ..).next ((does_eventIf ..).next (.ptp ((does_ptpTake ..).next
      ((does_advance ..).next (.refl _ _) rfl) rfl) rfl) rfl) rfl)

theorem does_execPtpMessageSend (t : Nat) (p : Fin 2) (kind : Fin 4) (sub : Fin 16) (s : State) : Answers [.rf, .tick, .upTime, .ptp, .out] s
    (execPtpMessageSend t p kind sub s) := by
  refine ⟨_, rfl, ?_⟩
  split
  · exact (does_advance ..).next (.refl _ _) rfl
  · exact .ite ((does_advance ..).next (.refl _ _) rfl) ((does_ptpPacket ..).next (.ptp ((does_advance ..).next (.refl _ _) rfl) rfl) rfl)

theorem does_commitOffset (s : State) (offset : Int) : Does (eventedAnd [.acq, .mem]) s (s.commitOffset offset) :=
  (does_tmbApply ..).next ((does_wrs ..).next (.refl _ _) rfl) rfl

theorem does_execPtpServoCommit (t : Nat) (change : Int) (trim : BitVec 32) (s : State) : Answers (eventedAnd [.tick, .upTime, .acq, .mem, .ptp]) s
    (execPtpServoCommit t change trim s) := by
  refine ⟨_, rfl, ?_⟩
  refine .ite ((does_advance ..).next (.refl _ _) rfl) ?_
  extract_lets _ s₁ s₂
  refine .via s₁ (.ptp ((does_advance ..).next (.refl _ _) rfl) rfl) fun h₁ => ?_
  refine .via s₂ ((does_commitOffset ..).next h₁ rfl) fun h₂ => ?_
  split
  · exact .ite ((does_ftrimWrite ..).next h₂ rfl) h₂
  · exact h₂

theorem does_execPtpMasterLoss (t : Nat) (s : State) : Answers (eventedAnd [.tick, .upTime, .ptp]) s (execPtpMasterLoss t s) :=
  ⟨_, rfl, .ite ((does_advance ..).next (.refl _ _) rfl) ((does_event ..).next ((does_setServo ..).next ((does_advance ..).next (.refl _ _) rfl)
      rfl) rfl)⟩

theorem does_setDelay (s : State) (p d : Nat) : Does evented s (s.setDelay p d) :=
  (does_eventIf ..).next ((does_wrs ..).next (.refl _ _) rfl) rfl

theorem does_dlbServo (s : State) : Does (eventedAnd [.ptp]) s s.dlbServo :=
  .ite (.refl _ _) (.ite ((does_setServo ..).next (.refl _ _) rfl) (.ite ((does_event ..).next ((does_setServo ..).next (.refl _ _) rfl) rfl)
      (.refl _ _)))

theorem does_setDlbOfs (s : State) : Does [.rf] s s.setDlbOfs :=
  .ite ((does_wrS ..).next (.refl _ _) rfl) (.refl _ _)

theorem does_execDeltanSecondSend (t : Nat) (s : State) : Answers [.rf, .tick, .upTime, .dlb, .out, .freeCnt] s (execDeltanSecondSend t s) := by
  refine ⟨_, rfl, ?_⟩
  refine .ite ((does_advance ..).next (.refl _ _) rfl) ?_
  extract_lets seq _ s₁ s₂ x f
  refine .via s₁ (.dlb ((does_advance ..).next (.refl _ _) rfl) rfl) fun h₁ => ?_
  refine .via s₂ ((does_bump ..).next h₁ rfl) fun h₂ => ?_
  refine .via f.2 ((does_free ..).next h₂ rfl) fun hf => ?_
  exact (does_emit ..).next hf rfl

theorem does_tcCrc (s : State) : Does evented s s.tcCrc :=
  (does_event ..).next (.refl _ _) rfl

theorem does_execDeltanSecondRx (t : Nat) (_seq : Byte) (rp : SubTick) (tick : Word) (sec : BitVec 48) (ns : BitVec 32) (frac : BitVec 16) (_flags
    : BitVec 32) (crcOk inverted : Bool) (s : State) : Answers (eventedAnd [.tick, .upTime, .ptp, .dlb]) s (execDeltanSecondRx t _seq rp tick sec
    ns frac _flags crcOk inverted s) := by
  refine ⟨_, rfl, ?_⟩
  refine .ite ((does_advance ..).next (.refl _ _) rfl) ?_
  extract_lets s₁ _ s₂ s₃
  refine .via s₁ ((does_setDlbPol ..).next ((does_advance ..).next (.refl _ _) rfl) rfl) fun h₁ => ?_
  refine .via s₂ (.dlb h₁ rfl) fun h₂ => ?_
  refine .via s₃ ((does_setDlbOfs ..).next ((does_bump ..).next h₂ rfl) rfl) fun h₃ => ?_
  exact .ite ((does_tcCrc ..).next h₁ rfl) ((does_dlbServo ..).next (.ite h₃ ((does_wr ..).next h₃ rfl)) rfl)

theorem does_execDeltanAnswerSend (t : Nat) (s : State) : Answers [.tick, .upTime, .dlb, .out] s (execDeltanAnswerSend t s) :=
  ⟨_, rfl, .ite ((does_advance ..).next (.refl _ _) rfl) ((does_emit ..).next (.dlb ((does_advance ..).next (.refl _ _) rfl) rfl) rfl)⟩

theorem does_execDeltanAnswerRx (t : Nat) (p : Fin 32) (a : SubTick) (crcOk inverted : Bool) (s : State) : Answers (eventedAnd [.tick, .upTime,
    .dlb]) s (execDeltanAnswerRx t p a crcOk inverted s) := by
  refine ⟨_, rfl, ?_⟩
  refine .ite ((does_advance ..).next (.refl _ _) rfl) ?_
  extract_lets s₁
  refine .via s₁ ((does_setDlbPol ..).next ((does_advance ..).next (.refl _ _) rfl) rfl) fun h₁ => ?_
  refine .ite ((does_tcCrc ..).next h₁ rfl) ?_
  split
  · exact h₁
  · exact .dlb ((does_setDelay ..).next h₁ rfl) rfl

theorem does_execDeltanDelaySend (t : Nat) (j : Fin 4) (s : State) : Answers [.tick, .upTime, .out] s (execDeltanDelaySend t j s) :=
  ⟨_, rfl, .ite ((does_advance ..).next (.refl _ _) rfl) ((does_emit ..).next ((does_advance ..).next (.refl _ _) rfl) rfl)⟩

theorem does_execDeltanDelayRx (t : Nat) (j : Fin 4) (delays : List (BitVec 24)) (reversed crcOk : Bool) (s : State) : Answers (eventedAnd [.tick,
    .upTime, .ptp]) s (execDeltanDelayRx t j delays reversed crcOk s) := by
  refine ⟨_, rfl, ?_⟩
  refine .ite ((does_advance ..).next (.refl _ _) rfl) ?_
  refine .ite ((does_tcCrc ..).next ((does_advance ..).next (.refl _ _) rfl) rfl) ?_
  extract_lets s₁ was s₂
  refine .via s₁ (.each _ ((does_advance ..).next (.refl _ _) rfl) fun _ _ h => (does_setDelay ..).next h rfl) fun h₁ => ?_
  refine .via s₂ ((does_setDlbOfs ..).next h₁ rfl) fun h₂ => ?_
  exact .ite h₁ ((does_dlbServo ..).next (.ite ((does_eventIf ..).next ((does_wrs ..).next h₂ rfl) rfl) (.ite ((does_wrs ..).next h₂ rfl) h₂)) rfl)

theorem does_execDeltanAnnounceSend (t : Nat) (s : State) : Answers [.tick, .upTime, .svc, .out] s (execDeltanAnnounceSend t s) :=
  ⟨_, rfl, .ite ((does_advance ..).next (.refl _ _) rfl) ((does_emit ..).next (.svc ((does_advance ..).next (.refl _ _) rfl) rfl) rfl)⟩

theorem does_execDeltanAnnounceRx (t : Nat) (number : BitVec 32) (tick : Word) (last crcOk : Bool) (s : State) : Answers (eventedAnd [.tick,
    .upTime]) s (execDeltanAnnounceRx t number tick last crcOk s) := by
  refine ⟨_, rfl, ?_⟩
  refine .ite ((does_advance ..).next (.refl _ _) rfl) ?_
  refine .ite ((does_tcCrc ..).next ((does_advance ..).next (.refl _ _) rfl) rfl) ?_
  extract_lets s₁ ok s₂
  refine .via s₁ ((does_event ..).next ((does_advance ..).next (.refl _ _) rfl) rfl) fun h₁ => ?_
  refine .via s₂ (.ite ((does_event ..).next ((does_wrs ..).next h₁ rfl) rfl) h₁) fun h₂ => ?_
  exact .ite h₁ (.ite ((does_emit ..).next h₂ rfl) h₂)

theorem does_execDeltanAckRx (t : Nat) (p : Fin 32) (number : BitVec 32) (accepted crcOk : Bool) (s : State) : Answers (eventedAnd [.tick, .upTime,
    .svc]) s (execDeltanAckRx t p number accepted crcOk s) :=
  ⟨_, rfl, .ite ((does_advance ..).next (.refl _ _) rfl) (.ite ((does_tcCrc ..).next ((does_advance ..).next (.refl _ _) rfl) rfl) (.ite (.svc
      ((does_advance ..).next (.refl _ _) rfl) rfl) ((does_advance ..).next (.refl _ _) rfl)))⟩

theorem does_execDeltanAckWindowClose (t : Nat) (s : State) : Answers [.tick, .upTime, .svc] s (execDeltanAckWindowClose t s) := by
  refine ⟨_, rfl, ?_⟩
  split
  · exact (does_advance ..).next (.refl _ _) rfl
  · exact .ite ((does_advance ..).next (.refl _ _) rfl) ((does_complete ..).next (.svc ((does_advance ..).next (.refl _ _) rfl) rfl) rfl)

theorem does_execTcLost (t : Nat) (s : State) : Answers (eventedAnd [.tick, .upTime, .ptp]) s (execTcLost t s) :=
  ⟨_, rfl, .ite ((does_advance ..).next (.refl _ _) rfl) ((does_dlbServo ..).next ((does_event ..).next ((does_wr ..).next ((does_advance ..).next
      (.refl _ _) rfl) rfl) rfl) rfl)⟩

theorem does_dlbEdge (s : State) (k : Nat) (level : Bool) : Does (eventedAnd [.dlb]) s (s.dlbEdge k level) :=
  .dlb (.ite ((does_setDlbPol ..).next (.refl _ _) rfl) (.refl _ _)) rfl

theorem does_execDeltanTriggerEdge (t : Nat) (k : Fin 6) (level : Bool) (sub : Fin 16) (s : State) : Answers (eventedAnd [.tick, .upTime, .tio,
    .dlb]) s (execDeltanTriggerEdge t k level sub s) :=
  ⟨_, rfl, .ite ((does_routerTo ..).next ((does_advance ..).next (.refl _ _) rfl) rfl) ((does_sourceLevel ..).next ((does_eventIf ..).next
      ((does_dlbEdge ..).next ((does_routerTo ..).next ((does_advance ..).next (.refl _ _) rfl) rfl) rfl) rfl) rfl)⟩

theorem does_dlbMeasure (s : State) : Does [.dlb] s s.dlbMeasure :=
  .ite (.dlb (.refl _ _) rfl) (.refl _ _)

theorem does_execDlbMeasure (t : Nat) (s : State) : Answers [.tick, .upTime, .page, .dlb] s (execDlbMeasure t s) :=
  ⟨_, rfl, .hosted ((does_advance ..).next (.refl _ _) rfl) rfl fun _ h => (does_dlbMeasure ..).next h rfl⟩

theorem does_pciClr (s : State) : Does [.rf] s s.pciClr :=
  (does_wrs ..).next (.refl _ _) rfl

theorem does_execPciClr (t : Nat) (s : State) : Answers [.rf, .tick, .upTime, .page] s (execPciClr t s) :=
  ⟨_, rfl, .hosted ((does_advance ..).next (.refl _ _) rfl) rfl fun _ h => (does_pciClr ..).next h rfl⟩

theorem does_execPcieLinkDown (t : Nat) (s : State) : Answers (eventedAnd [.tick, .upTime, .boot]) s (execPcieLinkDown t s) :=
  ⟨_, rfl, .ite ((does_advance ..).next (.refl _ _) rfl) ((does_event ..).next (.boot ((does_wrs ..).next ((does_advance ..).next (.refl _ _) rfl)
      rfl) rfl) rfl)⟩

/-! Operations of Machine/Recorder. -/

theorem does_setRech (s : State) (h : Nat) (x : RecHandle) : Does [.net] s (s.setRech h x) :=
  .net (.refl _ _) rfl

theorem does_nvmeIssue (s : State) (h m kind chunk op lba : Nat) (bytes : List Nat) : Does [.net, .out] s (s.nvmeIssue h m kind chunk op lba
    bytes) :=
  (does_emit ..).next ((does_setRech ..).next (.refl _ _) rfl) rfl

theorem does_volumeHeader (s : State) (h m : Nat) (open_ : Bool) : Does [.net, .out] s (s.volumeHeader h m open_) := by
  unfold State.volumeHeader
  extract_lets x
  split
  · exact .refl _ _
  · exact (does_nvmeIssue ..).next ((does_setRech ..).next (.refl _ _) rfl) rfl

theorem does_flushAll (s : State) (h : Nat) (open_ : Bool) : Does [.net, .out] s (s.flushAll h open_) :=
  .each _ ((does_setRech ..).next (.refl _ _) rfl) fun _ _ h => (does_nvmeIssue ..).next ((does_volumeHeader ..).next h rfl) rfl

theorem does_writeData (s : State) (h id : Nat) (y : RecChunk) : Does [.net, .out] s (s.writeData h id y) :=
  .each _ (.refl _ _) fun _ _ h => (does_nvmeIssue ..).next h rfl

theorem does_chunkClose (s : State) (h key : Nat) (last : Bool) : Does [.net, .out] s (s.chunkClose h key last) := by
  unfold State.chunkClose
  extract_lets x id
  split
  · exact .refl _ _
  · exact (does_writeData ..).next ((does_setRech ..).next (.refl _ _) rfl) rfl

theorem does_ctxRelease (s : State) (c : Nat) : Does [.rf, .acq] s (s.ctxRelease c) :=
  .ite ((does_setActx ..).next ((does_loadPage ..).next (.refl _ _) rfl) rfl) (.refl _ _)

theorem does_recEnd (s : State) (h : Nat) : Does [.rf, .acq, .net, .out] s (s.recEnd h) := by
  unfold State.recEnd
  extract_lets x s₁ s₂ s₃
  refine .via s₁ ((does_setRech ..).next (.refl _ _) rfl) fun h₁ => ?_
  refine .via s₂ (.each _ h₁ fun _ _ h => (does_ctxRelease ..).next ((does_setActx ..).next h rfl) rfl) fun h₂ => ?_
  refine .via s₃ (.each _ h₂ fun _ _ h => (does_chunkClose ..).next h rfl) fun h₃ => ?_
  exact .ite ((does_flushAll ..).next h₃ rfl) h₃

theorem does_recSettle (s : State) (h : Nat) : Does [.rf, .acq, .net, .out] s (s.recSettle h) :=
  .ite ((does_recEnd ..).next (.refl _ _) rfl) (.refl _ _)

theorem does_setFull (s : State) (h : Nat) : Does (eventedAnd [.acq, .net]) s (s.setFull h) :=
  (does_recEnd ..).next (.each _ ((does_setRech ..).next (.refl _ _) rfl) fun _ _ h => (does_event ..).next h rfl) rfl

theorem does_indexWriting (s : State) (h : Nat) (y : RecChunk) : Does [.net, .out] s (s.indexWriting h y) :=
  (does_nvmeIssue ..).next (.refl _ _) rfl

theorem does_chunkOpen (s : State) (h c kind : Nat) (stamp : SubTick) (recBytes : Nat) : Does (eventedAnd [.acq, .net]) s (s.chunkOpen h c kind
    stamp recBytes) := by
  unfold State.chunkOpen
  extract_lets x
  split
  · exact (does_setFull ..).next (.refl _ _) rfl
  · exact (does_indexWriting ..).next ((does_setRech ..).next (.refl _ _) rfl) rfl

theorem does_recPut (s : State) (h c kind : Nat) (stamp : SubTick) (bytes : List Byte) : Does (eventedAnd [.acq, .net]) s (s.recPut h c kind stamp
    bytes) := by
  unfold State.recPut
  extract_lets key s₁ x
  refine .via s₁ (.ite (.refl _ _) ((does_chunkOpen ..).next (.refl _ _) rfl)) fun h₁ => ?_
  refine .ite (.refl _ _) ?_
  split
  · exact h₁
  · extract_lets y s₂
    refine .via s₂ ((does_setRech ..).next h₁ rfl) fun h₂ => ?_
    exact .ite ((does_chunkClose ..).next h₂ rfl) h₂

theorem does_setStrs (s : State) (n : Nat) (x : StrSlot) : Does [.net] s (s.setStrs n x) :=
  .net (.refl _ _) rfl

theorem does_strPut (s : State) (c kind : Nat) (stamp step : SubTick) (bytes : List Byte) (lost ovr : Bool) : Does [.acq, .net] s (s.strPut c kind
    stamp step bytes lost ovr) :=
  .ite ((does_setDrain ..).next (.refl _ _) rfl) ((does_setDrain ..).next ((does_setStrs ..).next (.refl _ _) rfl) rfl)

theorem does_drainPut (s : State) (c : Nat) (str : Bool) (l : List DrainItem) : Does (eventedAnd [.acq, .net]) s (s.drainPut c str l) :=
  .each _ ((does_bump ..).next (.refl _ _) rfl) fun _ _ h => .ite ((does_strPut ..).next h rfl) ((does_recPut ..).next h rfl)

theorem does_drainData (s : State) (c : Nat) (str : Bool) (kind n : Nat) : Does (eventedAnd [.acq, .net]) s (s.drainData c str kind n) :=
  .ite ((does_drainPut ..).next ((does_setDrain ..).next (.refl _ _) rfl) rfl) (.ite (.refl _ _) (.ite ((does_drainSkip ..).next (.refl _ _) rfl)
      ((does_drainPut ..).next ((does_setDrain ..).next ((does_drainPoisons ..).next (.refl _ _) rfl) rfl) rfl)))

theorem does_almPut (s : State) (c : Nat) (str : Bool) (words : List Nat) : Does (eventedAnd [.acq, .net]) s (s.almPut c str words) :=
  .ite ((does_setStrs ..).next (.refl _ _) rfl) ((does_recPut ..).next (.refl _ _) rfl)

theorem does_drainAlm (s : State) (c : Nat) (str : Bool) : Does (eventedAnd [.acq, .net]) s (s.drainAlm c str) := by
  unfold State.drainAlm
  extract_lets a d w limit cap behind n addr words words'
  split
  · exact (does_almPut ..).next ((does_setDrain ..).next (.refl _ _) rfl) rfl
  · exact .ite (.refl _ _) (.ite ((does_setDrain ..).next (.refl _ _) rfl) ((does_almPut ..).next ((does_setDrain ..).next (.refl _ _) rfl) rfl))

theorem does_strSettle (s : State) (c : Nat) : Does [.rf, .acq] s (s.strSettle c) :=
  .ite ((does_ctxRelease ..).next ((does_setDrain ..).next (.refl _ _) rfl) rfl) (.refl _ _)

theorem does_execDrainRead (t : Nat) (c : Fin 1024) (str : Bool) (kind : Fin 3) (n : Nat) (s : State) : Answers (eventedAnd [.tick, .upTime, .acq,
    .net]) s (execDrainRead t c str kind n s) := by
  refine ⟨_, rfl, ?_⟩
  refine .ite ((does_advance ..).next (.refl _ _) rfl) ?_
  extract_lets s₁
  refine .via s₁ ?_ fun h₁ => ?_
  · unfold s₁
    split
    · exact .ite ((does_drainData ..).next ((does_advance ..).next (.refl _ _) rfl) rfl) ((does_advance ..).next (.refl _ _) rfl)
    · exact .ite ((does_drainData ..).next ((does_advance ..).next (.refl _ _) rfl) rfl) ((does_advance ..).next (.refl _ _) rfl)
    · exact (does_drainAlm ..).next ((does_advance ..).next (.refl _ _) rfl) rfl
  exact (does_ctxRelease ..).next (.ite ((does_strSettle ..).next h₁ rfl) ((does_recSettle ..).next h₁ rfl)) rfl

theorem does_execRecOpen (t : Nat) (r : Fin 4) (members : List RecMemberId) (s : State) : Answers [.tick, .upTime, .svc, .net] s (execRecOpen t r
    members s) := by
  refine ⟨_, rfl, ?_⟩
  split
  · exact (does_advance ..).next (.refl _ _) rfl
  · rename_i _ u₁ e
    refine .via u₁ ((does_svcTake e).next ((does_advance ..).next (.refl _ _) rfl) rfl) fun h₁ => ?_
    extract_lets h x n d
    refine .via d.2 ((does_defer ..).next h₁ rfl) fun hd => ?_
    exact .ite ((does_complete ..).next h₁ rfl) (.ite ((does_complete ..).next h₁ rfl) (.ite ((does_complete ..).next h₁ rfl) (.ite ((does_setRech
        ..).next hd rfl) hd)))

theorem does_portFound (s : State) (members : List RecMemberId) (found : List RecFound) (i : Nat) : Does [.rf, .net] s (s.portFound members found
    i) := by
  unfold State.portFound
  extract_lets mine _ s₁ all
  refine .via s₁ (.net (.refl _ _) rfl) fun h₁ => ?_
  clear_value mine
  split
  · exact .refl _ _
  · exact (does_wrs ..).next h₁ rfl

theorem does_execRecOpenDone (t : Nat) (h : Fin 16) (found : List RecFound) (newId : Word) (s : State) : Answers [.rf, .tick, .upTime, .svc, .net,
    .out] s (execRecOpenDone t h found newId s) := by
  unfold execRecOpenDone
  extract_lets s₁ x s₂ ids members setId recs s₃ s₄
  have h₁ : Does [.rf, .tick, .upTime, .svc, .net, .out] _ s₁ := (does_advance ..).next (.refl _ _) rfl
  have h₂ : Does [.rf, .tick, .upTime, .svc, .net, .out] _ s₂ := .each _ h₁ fun _ _ h => (does_portFound ..).next h rfl
  have h₃ : Does [.rf, .tick, .upTime, .svc, .net, .out] _ s₃ := (does_setRech ..).next h₂ rfl
  have h₄ : Does [.rf, .tick, .upTime, .svc, .net, .out] _ s₄ := .each _ h₃ fun _ _ h => (does_volumeHeader ..).next (.ite ((does_nvmeIssue
      ..).next h rfl) h) rfl
  split
  · exact ⟨_, rfl, h₁⟩
  · exact ⟨_, rfl, .ite ((does_complete ..).next ((does_setRech ..).next h₂ rfl) rfl) (.ite ((does_complete ..).next ((does_setRech ..).next h₂
      rfl) rfl) ((does_complete ..).next h₄ rfl))⟩

theorem does_recBegin (s : State) (h : Nat) : Does [.acq, .net] s (s.recBegin h) :=
  .each _ ((does_setRech ..).next (.refl _ _) rfl) fun _ _ h => (does_setDrain ..).next h rfl

theorem does_recHalt (s : State) (h : Nat) : Does [.rf, .acq, .net, .out] s (s.recHalt h) :=
  (does_recSettle ..).next (.each _ ((does_setRech ..).next (.refl _ _) rfl) fun _ _ h => (does_setDrain ..).next h rfl) rfl

theorem does_execRecStart (t : Nat) (r : Fin 4) (s : State) : Answers [.tick, .upTime, .acq, .svc, .net] s (execRecStart t r s) := by
  refine ⟨_, rfl, ?_⟩
  refine .atOnce ((does_advance ..).next (.refl _ _) rfl) rfl fun _ _ h₁ => ?_
  extract_lets h x tick n s₂
  refine .via s₂ ((does_setRech ..).next h₁ rfl) fun h₂ => ?_
  split
  · exact h₁
  · split
    · exact h₁
    · split
      · exact h₁
      · split
        · exact h₁
        · exact .ite ((does_recBegin ..).next h₂ rfl) h₂

theorem does_execRecScheduledStart (t : Nat) (h : Fin 16) (s : State) : Answers [.tick, .upTime, .acq, .net] s (execRecScheduledStart t h s) := by
  refine ⟨_, rfl, ?_⟩
  split
  · exact .ite ((does_recBegin ..).next ((does_advance ..).next (.refl _ _) rfl) rfl) ((does_advance ..).next (.refl _ _) rfl)
  · exact (does_advance ..).next (.refl _ _) rfl

theorem does_execRecStop (t : Nat) (r : Fin 4) (s : State) : Answers [.rf, .tick, .upTime, .acq, .svc, .net, .out] s (execRecStop t r s) := by
  refine ⟨_, rfl, ?_⟩
  split
  · exact (does_advance ..).next (.refl _ _) rfl
  · rename_i _ u₁ e
    refine .via u₁ ((does_svcTake e).next ((does_advance ..).next (.refl _ _) rfl) rfl) fun h₁ => ?_
    extract_lets h x tick d s₂ _
    refine .via d.2 ((does_defer ..).next h₁ rfl) fun hd => ?_
    refine .via s₂ ((does_setRech ..).next hd rfl) fun h₂ => ?_
    exact .ite ((does_complete ..).next h₁ rfl) (.ite ((does_complete ..).next ((does_setRech ..).next h₁ rfl) rfl) (.ite ((does_complete ..).next
        h₁ rfl) (.ite hd (.ite h₂ (.ite ((does_recHalt ..).next h₂ rfl) (.ite ((does_flushAll ..).next ((does_setRech ..).next h₂ rfl) rfl) h₂))))))

theorem does_execRecScheduledStop (t : Nat) (h : Fin 16) (s : State) : Answers [.rf, .tick, .upTime, .acq, .net, .out] s (execRecScheduledStop t h
    s) := by
  refine ⟨_, rfl, ?_⟩
  split
  · exact .ite ((does_advance ..).next (.refl _ _) rfl) (.ite ((does_recHalt ..).next ((does_advance ..).next (.refl _ _) rfl) rfl) ((does_flushAll
      ..).next ((does_setRech ..).next ((does_advance ..).next (.refl _ _) rfl) rfl) rfl))
  · exact (does_advance ..).next (.refl _ _) rfl

theorem does_execRecStopDone (t : Nat) (h : Fin 16) (s : State) : Answers [.tick, .upTime, .svc, .net] s (execRecStopDone t h s) := by
  refine ⟨_, rfl, ?_⟩
  split
  · exact (does_advance ..).next (.refl _ _) rfl
  · exact .ite ((does_advance ..).next (.refl _ _) rfl) ((does_complete ..).next ((does_setRech ..).next ((does_advance ..).next (.refl _ _) rfl)
      rfl) rfl)

theorem does_execRecClose (t : Nat) (r : Fin 4) (s : State) : Answers [.tick, .upTime, .svc, .net, .out] s (execRecClose t r s) := by
  refine ⟨_, rfl, ?_⟩
  split
  · exact (does_advance ..).next (.refl _ _) rfl
  · rename_i _ u₁ e
    refine .via u₁ ((does_svcTake e).next ((does_advance ..).next (.refl _ _) rfl) rfl) fun h₁ => ?_
    extract_lets h x d
    refine .via d.2 ((does_defer ..).next h₁ rfl) fun hd => ?_
    exact .ite ((does_complete ..).next h₁ rfl) (.ite hd (.ite ((does_complete ..).next ((does_setRech ..).next hd rfl) rfl) ((does_flushAll
        ..).next ((does_setRech ..).next hd rfl) rfl)))

theorem does_chunkStep (s : State) (h k id : Nat) : Does [.net, .out] s (s.chunkStep h k id) := by
  unfold State.chunkStep
  extract_lets x s₁
  refine .via s₁ ((does_setRech ..).next (.refl _ _) rfl) fun h₁ => ?_
  split
  · exact .refl _ _
  · exact .ite (.ite (.refl _ _) ((does_nvmeIssue ..).next (.refl _ _) rfl)) (.ite ((does_nvmeIssue ..).next (.refl _ _) rfl) (.ite ((does_flushAll
      ..).next h₁ rfl) h₁))

theorem does_execNvmeCmdComplete (t : Nat) (h m : Fin 16) (s : State) : Answers [.tick, .upTime, .svc, .net, .out] s (execNvmeCmdComplete t h m
    s) := by
  unfold execNvmeCmdComplete
  extract_lets s₁ x port
  have h₁ : Does [.tick, .upTime, .svc, .net, .out] _ s₁ := (does_advance ..).next (.refl _ _) rfl
  split
  · exact ⟨_, rfl, h₁⟩
  · split
    · exact ⟨_, rfl, h₁⟩
    · refine ⟨_, rfl, ?_⟩
      split
      · exact .ite ((does_complete ..).next ((does_setRech ..).next (.ite ((does_chunkStep ..).next (.net ((does_setRech ..).next h₁ rfl) rfl) rfl)
          (.net ((does_setRech ..).next h₁ rfl) rfl)) rfl) rfl) (.ite ((does_chunkStep ..).next (.net ((does_setRech ..).next h₁ rfl) rfl) rfl)
          (.net ((does_setRech ..).next h₁ rfl) rfl))
      · exact .ite ((does_chunkStep ..).next (.net ((does_setRech ..).next h₁ rfl) rfl) rfl) (.net ((does_setRech ..).next h₁ rfl) rfl)

theorem does_memberFail (s : State) (h m : Nat) : Does (eventedAnd [.acq, .svc, .net]) s (s.memberFail h m) := by
  unfold State.memberFail
  extract_lets x
  split
  · exact .refl _ _
  · extract_lets s₁ x s₂ s₃ s₄ s₅ s₇
    refine .via s₁ ((does_event ..).next ((does_setRech ..).next (.refl _ _) rfl) rfl) fun h₁ => ?_
    refine .via s₂ ((does_setRech ..).next h₁ rfl) fun h₂ => ?_
    refine .via s₃ (.each _ h₂ fun _ _ h => (does_setActx ..).next h rfl) fun h₃ => ?_
    refine .via s₄ ?_ fun h₄ => ?_
    · unfold s₄
      split
      · exact (does_complete ..).next h₃ rfl
      · exact h₃
    refine .via s₅ ?_ fun h₅ => ?_
    · unfold s₅
      refine .each _ h₁ fun _ _ h₆ => ?_
      split
      · exact (does_writeData ..).next ((does_indexWriting ..).next ((does_setRech ..).next h₆ rfl) rfl) rfl
      · exact (does_setRech ..).next h₆ rfl
    refine .via s₇ ?_ fun h₇ => ?_
    · unfold s₇
      refine .each _ h₅ fun _ _ h₈ => ?_
      split
      · exact (does_indexWriting ..).next ((does_setRech ..).next h₈ rfl) rfl
      · exact h₈
    refine .ite ?_ ?_
    · split
      · exact (does_complete ..).next ((does_setRech ..).next h₄ rfl) rfl
      · exact h₄
    · exact .ite ((does_flushAll ..).next h₇ rfl) h₇

theorem does_execNvmeCmdTimeout (t : Nat) (h m : Fin 16) (s : State) : Answers (eventedAnd [.tick, .upTime, .acq, .svc, .net]) s
    (execNvmeCmdTimeout t h m s) := by
  unfold execNvmeCmdTimeout
  extract_lets s₁ x p cause s₂ x'
  have h₁ : Does (eventedAnd [.tick, .upTime, .acq, .svc, .net]) _ s₁ := (does_advance ..).next (.refl _ _) rfl
  have h₂ : Does (eventedAnd [.tick, .upTime, .acq, .svc, .net]) _ s₂ := (does_event ..).next ((does_setRech ..).next ((does_bumpSat ..).next h₁
      rfl) rfl) rfl
  split
  · exact ⟨_, rfl, h₁⟩
  · exact ⟨_, rfl, .ite h₁ (.ite ((does_emit ..).next ((does_setRech ..).next ((does_bumpSat ..).next h₂ rfl) rfl) rfl) ((does_memberFail ..).next
      h₂ rfl))⟩

theorem does_execRecorderFlush (t : Nat) (h : Fin 16) (s : State) : Answers [.tick, .upTime, .net, .out] s (execRecorderFlush t h s) :=
  ⟨_, rfl, .ite ((does_advance ..).next (.refl _ _) rfl) (.each _ ((does_advance ..).next (.refl _ _) rfl) fun _ _ h => (does_nvmeIssue ..).next
      ((does_volumeHeader ..).next h rfl) rfl)⟩

theorem does_execRecorderProgressWd (t : Nat) (h : Fin 16) (s : State) : Answers (eventedAnd [.tick, .upTime, .acq, .svc, .net]) s
    (execRecorderProgressWd t h s) := by
  refine ⟨_, rfl, ?_⟩
  refine .ite ((does_advance ..).next (.refl _ _) rfl) ?_
  extract_lets s₁ recent
  refine .via s₁ ((does_setRech ..).next ((does_advance ..).next (.refl _ _) rfl) rfl) fun h₁ => ?_
  split
  · exact h₁
  · exact .ite ((does_logFault ..).next h₁ rfl) ((does_memberFail ..).next h₁ rfl)

theorem does_nvpClr (s : State) (p : Nat) : Does [.rf] s (s.nvpClr p) :=
  (does_wrs ..).next (.refl _ _) rfl

theorem does_execNvpClr (t : Nat) (p : Fin 4) (s : State) : Answers [.rf, .tick, .upTime, .page] s (execNvpClr t p s) :=
  ⟨_, rfl, .hosted ((does_advance ..).next (.refl _ _) rfl) rfl fun _ h => (does_nvpClr ..).next h rfl⟩

theorem does_execRootPortLinkDown (t : Nat) (p : Fin 4) (s : State) : Answers (eventedAnd [.tick, .upTime, .net]) s (execRootPortLinkDown t p s) :=
  ⟨_, rfl, .ite ((does_advance ..).next (.refl _ _) rfl) ((does_event ..).next ((does_wrs ..).next (.net ((does_advance ..).next (.refl _ _) rfl)
      rfl) rfl) rfl)⟩

/-! Operations of Machine/Checks. -/

theorem does_asImage (s : State) (img : Option EpochImage) : Does [.rf, .epo, .trg, .xf] s (s.asImage img) := by
  unfold State.asImage
  extract_lets isCfg s₁ s₂ win seg
  refine .via s₁ (.drop (.refl _ _) _ rfl) fun h₁ => ?_
  refine .via s₂ (.each _ h₁ fun _ _ h => (does_loadPage ..).next h rfl) fun h₂ => ?_
  exact .put h₂ rfl rfl (by simp [only_iff])

/-! Operations of Machine/Comparators. -/

theorem does_setCmpCh (s : State) (k : Nat) (x : CmpCh) : Does [.cmp] s (s.setCmpCh k x) :=
  .cmp (.refl _ _) rfl

theorem does_setCmpRamp (s : State) (r : Nat) (x : RampSt) : Does [.cmp] s (s.setCmpRamp r x) :=
  .cmp (.refl _ _) rfl

theorem does_rampReset (s : State) (r ct : Nat) : Does [.cmp] s (s.rampReset r ct) :=
  (does_setCmpRamp ..).next (.refl _ _) rfl

theorem does_setCmpBit (s : State) (f : Fld) (k : Nat) (b : Bool) : Does [.rf] s (s.setCmpBit f k b) :=
  (does_wr ..).next (.refl _ _) rfl

theorem does_cmpPout (s : State) (code : Nat) (v : Bool) (t : Nat) : Does [.tio] s (s.cmpPout code v t) :=
  .each _ (.refl _ _) fun _ _ h => .ite h (.ite (.ite ((does_setOut ..).next h rfl) h) ((does_setOut ..).next h rfl))

theorem does_cmpOut (s : State) (k : Nat) (v : Bool) (t : Nat) (stamp : SubTick) : Does (eventedAnd [.tio]) s (s.cmpOut k v t stamp) := by
  unfold State.cmpOut
  extract_lets p s₁ s₂ s₃ s₄
  refine .via s₁ ((does_setCmpBit ..).next (.refl _ _) rfl) fun h₁ => ?_
  refine .via s₂ ((does_setCmpBit ..).next h₁ rfl) fun h₂ => ?_
  refine .via s₃ (.ite ((does_sourceLevel ..).next h₂ rfl) h₂) fun h₃ => ?_
  refine .via s₄ (.ite ((does_cmpPout ..).next h₃ rfl) h₃) fun h₄ => ?_
  exact (does_setRaw ..).next h₄ rfl

theorem does_cmpEval (s : State) (k ct t : Nat) (stamp : SubTick) (ramps : List Nat) (clr : Nat) : Does (eventedAnd [.tio, .cmp]) s (s.cmpEval k ct
    t stamp ramps clr).1 := by
  unfold State.cmpEval
  extract_lets p x v h hiT loT hi lo s₁ s₂ s₃ w latch was o s₄
  refine .via s₁ ((does_setCmpBit ..).next ((does_setCmpBit ..).next (.refl _ _) rfl) rfl) fun h₁ => ?_
  refine .via s₂ (.ite ((does_setCmpBit ..).next h₁ rfl) h₁) fun h₂ => ?_
  refine .via s₃ (.ite ((does_setCmpBit ..).next h₂ rfl) h₂) fun h₃ => ?_
  refine .via s₄ ((does_setCmpCh ..).next h₃ rfl) fun h₄ => ?_
  split
  · exact .refl _ _
  · exact .ite h₄ ((does_cmpOut ..).next h₄ rfl)

theorem does_blankStart (s : State) (ct : Nat) (ramps : List Nat) : Does [.cmp] s (s.blankStart ct ramps) :=
  .each _ (.refl _ _) fun _ _ h => (does_setCmpCh ..).next h rfl

theorem does_cmpRun (n : Nat) (s : State) (ct t : Nat) (b : Option (Nat × SubTick)) (ramps : List Nat) (clr : Nat) :
    Does (eventedAnd [.tio, .cmp]) s (State.cmpRun n s ct t b ramps clr) := by
  induction n generalizing s ct t b ramps clr with
  | zero => exact .refl _ _
  | succ n ih =>
    unfold State.cmpRun
    extract_lets s₁ s₂ r s₃ self s₄ next
    refine .via s₁ (.each _ (.refl _ _) fun _ _ h => (does_rampReset ..).next h rfl) fun h₁ => ?_
    refine .via s₂ ((does_blankStart ..).next h₁ rfl) fun h₂ => ?_
    refine .via s₃ (.foldlFst _ h₂ fun _ _ h => (does_cmpEval ..).next h rfl) fun h₃ => ?_
    refine .via s₄ (.each _ h₃ fun _ _ h => (does_setCmpCh ..).next h rfl) fun h₄ => ?_
    exact .ite h₃ (.ite h₄ (h₄.trans (ih ..)))

theorem does_cmpResolve (s : State) (k : Nat) : Does [.rf, .cmp] s (s.cmpResolve k) :=
  .ite (.refl _ _) ((does_setCmpCh ..).next (.foldl _ (.refl _ _) fun _ _ h => (does_setCmpBit ..).next h rfl) rfl)

theorem does_cmpNow (s : State) (by_ : Option (Nat × SubTick)) (clr : Nat) : Does (eventedAnd [.tio, .cmp]) s (s.cmpNow by_ clr) :=
  (does_cmpRun ..).next (.each _ (.refl _ _) fun _ _ h => (does_cmpResolve ..).next h rfl) rfl

theorem does_cmpEnable (s : State) (k : Nat) : Does (eventedAnd [.tio, .cmp]) s (s.cmpEnable k) := by
  unfold State.cmpEnable
  extract_lets s₁ _ s₂
  refine .via s₁ (.foldl _ (.refl _ _) fun _ _ h => (does_setCmpBit ..).next h rfl) fun h₁ => ?_
  refine .via s₂ ((does_setCmpCh ..).next h₁ rfl) fun h₂ => ?_
  exact .ite ((does_cmpOut ..).next h₂ rfl) h₂

theorem does_cmpRestart (s : State) : Does (eventedAnd [.tio, .cmp]) s s.cmpRestart :=
  .each _ (.each _ (.refl _ _) fun _ _ h => (does_setCmpRamp ..).next ((does_rampReset ..).next h rfl) rfl) fun _ _ h => (does_cmpEnable ..).next h
      rfl

theorem does_cmpBack (s : State) : Does [.trg] s s.cmpBack :=
  .each _ (.refl _ _) fun _ _ h => (does_sourceLevel ..).next h rfl

theorem does_cmpDac (s : State) (k hi lo : Nat) : Does (eventedAnd [.tio, .cmp]) s (s.cmpDac k hi lo) :=
  (does_cmpRun ..).next ((does_wrs ..).next (.refl _ _) rfl) rfl

theorem does_cmpLatchClr (s : State) (mask : Nat) : Does (eventedAnd [.tio, .cmp]) s (s.cmpLatchClr mask) :=
  (does_cmpNow ..).next (.refl _ _) rfl

theorem does_execCmpCrossing (t : Nat) (k : Fin 16) (uv : Int) (stamp : SubTick) (s : State) : Answers (eventedAnd [.tick, .upTime, .tio, .cmp]) s
    (execCmpCrossing t k uv stamp s) :=
  ⟨_, rfl, (does_cmpNow ..).next ((does_setCmpCh ..).next ((does_advance ..).next (.refl _ _) rfl) rfl) rfl⟩

theorem does_execRampPeriodReset (t : Nat) (r : Fin 8) (s : State) : Answers (eventedAnd [.tick, .upTime, .tio, .cmp]) s (execRampPeriodReset t r
    s) :=
  ⟨_, rfl, .ite ((does_cmpNow ..).next ((does_advance ..).next (.refl _ _) rfl) rfl) ((does_advance ..).next (.refl _ _) rfl)⟩

theorem does_execCmpBlankEnd (t : Nat) (k : Fin 16) (s : State) : Answers (eventedAnd [.tick, .upTime, .tio, .cmp]) s (execCmpBlankEnd t k s) :=
  ⟨_, rfl, .ite ((does_advance ..).next (.refl _ _) rfl) ((does_cmpNow ..).next ((does_setCmpCh ..).next ((does_advance ..).next (.refl _ _) rfl)
      rfl) rfl)⟩

theorem does_execCmpEnableBlankEnd (t : Nat) (k : Fin 16) (s : State) : Answers (eventedAnd [.tick, .upTime, .tio, .cmp]) s (execCmpEnableBlankEnd
    t k s) :=
  ⟨_, rfl, .ite ((does_advance ..).next (.refl _ _) rfl) ((does_cmpNow ..).next ((does_advance ..).next (.refl _ _) rfl) rfl)⟩

theorem does_execCmpLatchClear (t : Nat) (mask : BitVec 16) (s : State) : Answers (eventedAnd [.tick, .upTime, .page, .tio, .cmp]) s
    (execCmpLatchClear t mask s) :=
  ⟨_, rfl, .hosted ((does_advance ..).next (.refl _ _) rfl) rfl fun _ h => (does_cmpLatchClr ..).next h rfl⟩

/-! Operations of Machine/EpochLoad. -/

theorem does_setDigest (s : State) (f : Nat → Fld) (d : List Word) : Does [.rf] s (s.setDigest f d) :=
  .each _ (.refl _ _) fun _ _ h => (does_wr ..).next h rfl

theorem does_emptyStaged (s : State) : Does (eventedAnd [.epo, .ing]) s s.emptyStaged :=
  (does_unpark ..).next ((does_setDigest ..).next (.epo ((does_wrs ..).next (.refl _ _) rfl) rfl) rfl) rfl

theorem does_loadFail (s : State) (e : SvcEntry) (st : SvcStatus) (res0 : Nat) : Does (eventedAnd [.epo, .ing, .svc]) s (s.loadFail e st res0) :=
  (does_complete ..).next ((does_event ..).next (.epo ((does_wr ..).next ((does_emptyStaged ..).next (.refl _ _) rfl) rfl) rfl) rfl) rfl

theorem does_execLoadEpoch (t : Nat) (r : Fin 4) (s : State) : Answers (eventedAnd [.tick, .upTime, .epo, .ing, .svc]) s (execLoadEpoch t r s) := by
  refine ⟨_, rfl, ?_⟩
  split
  · exact (does_advance ..).next (.refl _ _) rfl
  · rename_i _ u₁ e
    refine .via u₁ ((does_svcTake e).next ((does_advance ..).next (.refl _ _) rfl) rfl) fun h₁ => ?_
    extract_lets n d s₂ _
    refine .via d.2 ((does_defer ..).next h₁ rfl) fun hd => ?_
    refine .via s₂ ((does_wr ..).next ((does_emptyStaged ..).next hd rfl) rfl) fun h₂ => ?_
    exact .ite ((does_complete ..).next h₁ rfl) (.ite ((does_complete ..).next h₁ rfl) (.ite ((does_complete ..).next h₁ rfl) (.ite (.epo h₂ rfl)
        hd)))

theorem does_wakeBlocks (s : State) (img : EpochImage) : Does [.rf, .page] s (s.wakeBlocks img) :=
  .each _ (.refl _ _) fun _ _ h => (does_startPstate ..).next h rfl

theorem does_parkLinks (s : State) (live : Option EpochImage) (img : EpochImage) : Does (eventedAnd [.ing]) s (s.parkLinks live img) := by
  unfold State.parkLinks
  refine .each _ (.refl _ _) fun _ _ h₁ => ?_
  exact .each _ ((does_setLinkState ..).next ((does_setLnk ..).next ((does_wrs ..).next (.each _ ((does_loadPage ..).next h₁ rfl) fun _ _ h =>
      (does_polSync ..).next ((does_loadPage ..).next h rfl) rfl) rfl) rfl) rfl) fun _ _ h => (does_laneEvent ..).next h rfl

theorem does_loadDone (s : State) (e : SvcEntry) (img : EpochImage) : Does (eventedAnd [.epo, .svc]) s (s.loadDone e img) :=
  (does_complete ..).next ((does_event ..).next (.epo ((does_setDigest ..).next ((does_wrs ..).next (.refl _ _) rfl) rfl) rfl) rfl) rfl

theorem does_execLoadEpochDone (t : Nat) (img : Option EpochImage) (digestOk : Bool) (noPath : Option (Fin 4096)) (s : State) : Answers (eventedAnd
    [.tick, .upTime, .page, .epo, .ing, .svc]) s (execLoadEpochDone t img digestOk noPath s) := by
  refine ⟨_, rfl, ?_⟩
  split
  · exact (does_advance ..).next (.refl _ _) rfl
  · split
    · exact .ite ((does_loadDone ..).next ((does_advance ..).next (.refl _ _) rfl) rfl) ((does_advance ..).next (.refl _ _) rfl)
    · exact (does_loadFail ..).next ((does_advance ..).next (.refl _ _) rfl) rfl
    · refine .ite ((does_loadFail ..).next ((does_advance ..).next (.refl _ _) rfl) rfl) ?_
      extract_lets s₁ s₂ _ s₃
      refine .via s₁ (.ite ((does_advance ..).next (.refl _ _) rfl) ((does_wakeBlocks ..).next ((does_advance ..).next (.refl _ _) rfl) rfl)) fun
          h₁ => ?_
      refine .via s₂ ((does_parkLinks ..).next h₁ rfl) fun h₂ => ?_
      refine .via s₃ (.epo h₂ rfl) fun h₃ => ?_
      split
      · exact (does_loadFail ..).next h₁ rfl
      · exact .ite ((does_loadDone ..).next h₃ rfl) h₃

theorem does_eqxDrop (s : State) : Does [.epo, .svc] s s.eqxDrop := by
  unfold State.eqxDrop
  extract_lets _ s₁ ack _
  refine .via s₁ (.epo (.refl _ _) rfl) fun h₁ => ?_
  split
  · exact (does_complete ..).next (.svc h₁ rfl) rfl
  · exact h₁

theorem does_eqxSet (s : State) (q : Nat) (revert announced : Bool) : Does [.rf] s (s.eqxSet q revert announced) :=
  (does_wrs ..).next (.refl _ _) rfl

theorem does_execScheduleEquinox (t : Nat) (r : Fin 4) (s : State) : Answers [.rf, .tick, .upTime, .epo, .svc] s (execScheduleEquinox t r s) := by
  refine ⟨_, rfl, ?_⟩
  split
  · exact (does_advance ..).next (.refl _ _) rfl
  · rename_i _ u₁ e
    refine .via u₁ ((does_svcTake e).next ((does_advance ..).next (.refl _ _) rfl) rfl) fun h₁ => ?_
    extract_lets q announced s₂ _
    refine .via s₂ ((does_eqxSet ..).next ((does_eqxDrop ..).next h₁ rfl) rfl) fun h₂ => ?_
    exact .ite ((does_complete ..).next h₁ rfl) (.ite ((does_complete ..).next h₁ rfl) (.ite (.ite ((does_complete ..).next h₁ rfl) ((does_complete
        ..).next ((does_wr ..).next ((does_eqxDrop ..).next h₁ rfl) rfl) rfl)) (.ite ((does_complete ..).next h₁ rfl) (.ite ((does_complete
        ..).next h₁ rfl) (.ite (.svc h₂ rfl) ((does_complete ..).next h₂ rfl))))))

theorem does_execRevertEpoch (t : Nat) (r : Fin 4) (s : State) : Answers (eventedAnd [.tick, .upTime, .epo, .ing, .svc]) s (execRevertEpoch t r
    s) := by
  refine ⟨_, rfl, ?_⟩
  split
  · exact (does_advance ..).next (.refl _ _) rfl
  · rename_i _ u₁ e
    refine .via u₁ ((does_svcTake e).next ((does_advance ..).next (.refl _ _) rfl) rfl) fun h₁ => ?_
    exact .ite ((does_complete ..).next h₁ rfl) (.ite ((does_complete ..).next h₁ rfl) ((does_complete ..).next ((does_eqxSet ..).next ((does_wr
        ..).next ((does_emptyStaged ..).next h₁ rfl) rfl) rfl) rfl))

/-! Operations of Machine/Streamer. -/

theorem does_strSend (s : State) (n : Nat) (d : StreamDesc) (type sBit id : Nat) (q : SubTick) (body : List Nat) : Does [.rf, .net, .out] s
    (s.strSend n d type sBit id q body) :=
  (does_emit ..).next ((does_bump ..).next ((does_setStrs ..).next (.refl _ _) rfl) rfl) rfl

theorem does_dataPacket (s : State) (n kind : Nat) (d : StreamDesc) : Does [.rf, .net, .out] s (s.dataPacket n kind d) := by
  unfold State.dataPacket
  extract_lets x payload
  split
  · exact .refl _ _
  · exact .ite (.refl _ _) ((does_strSend ..).next ((does_setStrs ..).next (.refl _ _) rfl) rfl)

theorem does_almPacket (s : State) (n : Nat) (d : StreamDesc) : Does [.rf, .net, .out] s (s.almPacket n d) := by
  unfold State.almPacket
  extract_lets x
  split
  · exact .refl _ _
  · exact (does_strSend ..).next ((does_setStrs ..).next (.refl _ _) rfl) rfl

theorem does_execVitaPacketSend (t : Nat) (slot : Fin 64) (kind : Fin 3) (s : State) : Answers [.rf, .tick, .upTime, .net, .out] s
    (execVitaPacketSend t slot kind s) := by
  refine ⟨_, rfl, ?_⟩
  split
  · exact (does_advance ..).next (.refl _ _) rfl
  · exact .ite ((does_dataPacket ..).next ((does_advance ..).next (.refl _ _) rfl) rfl) (.ite ((does_almPacket ..).next ((does_advance ..).next
      (.refl _ _) rfl) rfl) ((does_advance ..).next (.refl _ _) rfl))

theorem does_execAlmanacPacketTimeout (t : Nat) (slot : Fin 64) (s : State) : Answers [.rf, .tick, .upTime, .net, .out] s (execAlmanacPacketTimeout
    t slot s) := by
  refine ⟨_, rfl, ?_⟩
  split
  · exact (does_advance ..).next (.refl _ _) rfl
  · exact .ite ((does_almPacket ..).next ((does_advance ..).next (.refl _ _) rfl) rfl) ((does_advance ..).next (.refl _ _) rfl)

theorem does_execContextPacketPeriod (t : Nat) (slot : Fin 64) (stream : CtxPacket) (s : State) : Answers [.rf, .tick, .upTime, .net, .out] s
    (execContextPacketPeriod t slot stream s) := by
  refine ⟨_, rfl, ?_⟩
  split
  · exact (does_advance ..).next (.refl _ _) rfl
  · exact .ite ((does_advance ..).next (.refl _ _) rfl) ((does_strSend ..).next ((does_setStrs ..).next ((does_advance ..).next (.refl _ _) rfl)
      rfl) rfl)

theorem does_strBegin (s : State) (n : Nat) : Does [.acq, .net] s (s.strBegin n) :=
  .each _ ((does_setStrs ..).next (.refl _ _) rfl) fun _ _ h => (does_setDrain ..).next h rfl

theorem does_strEnd (s : State) (n : Nat) : Does [.rf, .acq, .net] s (s.strEnd n) :=
  .each _ ((does_setStrs ..).next (.refl _ _) rfl) fun _ _ h => (does_strSettle ..).next ((does_setDrain ..).next h rfl) rfl

theorem does_execNetStreamCfg (t : Nat) (r : Fin 4) (desc : StreamDesc) (s : State) : Answers [.tick, .upTime, .svc, .net] s (execNetStreamCfg t r
    desc s) := by
  refine ⟨_, rfl, ?_⟩
  refine .atOnce ((does_advance ..).next (.refl _ _) rfl) rfl fun _ _ h₁ => ?_
  extract_lets n x
  split
  · exact h₁
  · split
    · exact h₁
    · exact (does_setStrs ..).next h₁ rfl

theorem does_execNetStreamCtl (t : Nat) (r : Fin 4) (s : State) : Answers [.rf, .tick, .upTime, .acq, .svc, .net] s (execNetStreamCtl t r s) := by
  refine ⟨_, rfl, ?_⟩
  refine .atOnce ((does_advance ..).next (.refl _ _) rfl) rfl fun _ _ h₁ => ?_
  extract_lets n x start tick when_
  split
  · exact h₁
  · split
    · exact h₁
    · split
      · exact h₁
      · split
        · exact h₁
        · split
          · exact h₁
          · exact .ite (.ite ((does_strBegin ..).next h₁ rfl) ((does_setStrs ..).next h₁ rfl)) (.ite (.ite ((does_strEnd ..).next h₁ rfl)
              ((does_setStrs ..).next h₁ rfl)) ((does_setStrs ..).next h₁ rfl))

theorem does_execStreamScheduledStartStop (t : Nat) (slot : Fin 64) (s : State) : Answers [.rf, .tick, .upTime, .acq, .net] s
    (execStreamScheduledStartStop t slot s) :=
  ⟨_, rfl, .ite ((does_strBegin ..).next ((does_advance ..).next (.refl _ _) rfl) rfl) (.ite (.ite ((does_strEnd ..).next ((does_advance ..).next
      (.refl _ _) rfl) rfl) ((does_setStrs ..).next ((does_advance ..).next (.refl _ _) rfl) rfl)) ((does_advance ..).next (.refl _ _) rfl))⟩

theorem does_execEthLinkDown (t : Nat) (p : Fin 2) (s : State) : Answers (eventedAnd [.tick, .upTime]) s (execEthLinkDown t p s) :=
  ⟨_, rfl, .ite ((does_advance ..).next (.refl _ _) rfl) ((does_event ..).next ((does_wr ..).next ((does_advance ..).next (.refl _ _) rfl) rfl)
      rfl)⟩

theorem does_ethStart (s : State) (p : Nat) : Does [.rf] s (s.ethStart p) :=
  .each _ (.refl _ _) fun _ _ h => (does_wrA ..).next h rfl

theorem does_execEthLinkUp (t : Nat) (p : Fin 2) (s : State) : Answers [.rf, .tick, .upTime] s (execEthLinkUp t p s) :=
  ⟨_, rfl, .ite ((does_wr ..).next ((does_ethStart ..).next ((does_advance ..).next (.refl _ _) rfl) rfl) rfl) ((does_advance ..).next (.refl _ _)
      rfl)⟩

theorem does_execEthRxFrame (t : Nat) (p : Fin 2) (frame : EthFrame) (s : State) : Answers (eventedAnd [.tick, .upTime]) s (execEthRxFrame t p
    frame s) := by
  refine ⟨_, rfl, ?_⟩
  refine .ite ((does_advance ..).next (.refl _ _) rfl) ?_
  refine .ite ((does_event ..).next ((does_bump ..).next ((does_advance ..).next (.refl _ _) rfl) rfl) rfl) ?_
  split
  · exact .ite ((does_emit ..).next ((does_bump ..).next ((does_advance ..).next (.refl _ _) rfl) rfl) rfl) ((does_advance ..).next (.refl _ _) rfl)
  · exact (does_advance ..).next (.refl _ _) rfl

theorem does_ethClr (s : State) (p : Nat) : Does [.rf] s (s.ethClr p) :=
  (does_wrs ..).next (.refl _ _) rfl

theorem does_execEthClr (t : Nat) (p : Fin 2) (s : State) : Answers [.rf, .tick, .upTime, .page] s (execEthClr t p s) :=
  ⟨_, rfl, .hosted ((does_advance ..).next (.refl _ _) rfl) rfl fun _ h => (does_ethClr ..).next h rfl⟩

/-! Operations of Machine/EpochSwitch. -/

theorem does_useBlock (s : State) (p : Nat) : Does [.rf, .page, .epo] s (s.useBlock p) := by
  unfold State.useBlock
  extract_lets used _ s₁ s₂
  refine .via s₁ (.epo (.refl _ _) rfl) fun h₁ => ?_
  refine .via s₂ ((does_wr ..).next h₁ rfl) fun h₂ => ?_
  exact .ite ((does_enable ..).next h₂ rfl) h₂

theorem does_reload (s : State) (re : Bool) (p : Nat) : Does [.rf] s (s.reload re p) :=
  .ite ((does_loadPage ..).next (.refl _ _) rfl) (.refl _ _)

theorem does_switchLqd (s : State) (re : Bool) (q : Nat) : Does (eventedAnd [.ing]) s (s.switchLqd re q) :=
  .each _ (.each _ ((does_polSync ..).next ((does_reload ..).next (.refl _ _) rfl) rfl) fun _ _ h => (does_wrs ..).next (.ing h rfl) rfl) fun _ _
      h => (does_laneEvent ..).next h rfl

theorem does_switchLnk (s : State) (re was : Bool) (l : Nat) : Does (eventedAnd [.ing]) s (s.switchLnk re was l) := by
  unfold State.switchLnk
  extract_lets parked lanes s₁ s₂ s₃ _ s₄
  refine .via s₁ ((does_reload ..).next (.refl _ _) rfl) fun h₁ => ?_
  refine .via s₂ ((does_setRaw ..).next ((does_setLinkState ..).next ((does_setLnk ..).next h₁ rfl) rfl) rfl) fun h₂ => ?_
  refine .via s₃ ((does_wrs ..).next h₁ rfl) fun h₃ => ?_
  refine .via s₄ (.ite (.each _ h₂ fun _ _ h => (does_laneEvent ..).next ((does_wr ..).next h rfl) rfl) (.ite h₃ (.ite ((does_setLnk ..).next h₃
      rfl) ((does_setLinkState ..).next ((does_setLnk ..).next h₃ rfl) rfl)))) fun h₄ => ?_
  exact (does_downEvent ..).next h₄ rfl

theorem does_switchSlt (s : State) (re was : Bool) (n : Nat) : Does (eventedAnd [.ing]) s (s.switchSlt re was n) := by
  unfold State.switchSlt
  extract_lets p bond src s₁ s₂ _ s₃ s₄
  refine .via s₁ ((does_reload ..).next (.refl _ _) rfl) fun h₁ => ?_
  refine .via s₂ (.each _ h₁ fun _ _ h => (does_wr ..).next h rfl) fun h₂ => ?_
  refine .via s₃ (.ing h₂ rfl) fun h₃ => ?_
  refine .via s₄ ((does_setRaw ..).next ((does_setSlt ..).next h₃ rfl) rfl) fun h₄ => ?_
  exact .ite h₁ (.ite h₄ ((does_wr ..).next h₄ rfl))

theorem does_switchXfp (s : State) (re : Bool) (q : Nat) : Does [.rf, .trg, .xf] s (s.switchXfp re q) :=
  .put ((does_reload ..).next (.refl _ _) rfl) rfl rfl (by simp [only_iff, State.switchXfp])

theorem does_switchTmp (s : State) (re : Bool) : Does [.rf, .tmp] s (s.switchTmp re) :=
  .each _ (.each _ (.tmp ((does_reload ..).next (.refl _ _) rfl) rfl) fun _ _ h => (does_wr ..).next ((does_setTjob ..).next h rfl) rfl) fun _ _
      h => (does_wr ..).next (.tmp h rfl) rfl

theorem does_switchDen (s : State) (re : Bool) (u : Nat) : Does [.rf] s (s.switchDen re u) :=
  (does_wr ..).next ((does_reload ..).next (.refl _ _) rfl) rfl

theorem does_switchTru (s : State) (re : Bool) (u t : Nat) : Does [.rf, .trg] s (s.switchTru re u t) :=
  .ite (.refl _ _) ((does_wrs ..).next ((does_setTru ..).next ((does_truResetState ..).next ((does_reload ..).next (.refl _ _) rfl) rfl) rfl) rfl)

theorem does_switchTrn (s : State) (re : Bool) (t : Nat) : Does [.rf, .tio, .trg] s (s.switchTrn re t) := by
  unfold State.switchTrn
  extract_lets p s₁ s₂
  refine .via s₁ ((does_reload ..).next ((does_routerTo ..).next (.refl _ _) rfl) rfl) fun h₁ => ?_
  refine .via s₂ (.ite ((does_schedSet ..).next h₁ rfl) h₁) fun h₂ => ?_
  exact (does_outputsFollow ..).next (.each _ h₂ fun _ _ h => (does_sourceLevel ..).next h rfl) rfl

theorem does_coreStart (s : State) (n : Nat) : Does evented s (s.coreStart n) :=
  (does_coreState ..).next ((does_wrs ..).next ((does_setCore ..).next (.refl _ _) rfl) rfl) rfl

theorem does_switchScr (s : State) (re was : Bool) (n : Nat) : Does evented s (s.switchScr re was n) := by
  unfold State.switchScr
  extract_lets p ran s₁ c
  refine .via s₁ ((does_reload ..).next (.refl _ _) rfl) fun h₁ => ?_
  exact .ite (.ite h₁ ((does_coreStart ..).next h₁ rfl)) (.ite ((does_coreState ..).next ((does_setCore ..).next h₁ rfl) rfl) h₁)

theorem does_switchBnk (s : State) (re : Bool) (b : Nat) : Does (eventedAnd [.bank]) s (s.switchBnk re b) := by
  unfold State.switchBnk
  refine .ite (.refl _ _) ?_
  extract_lets p o a own direct s₁
  refine .via s₁ (.each _ (.refl _ _) fun _ _ h => (does_wr ..).next h rfl) fun h₁ => ?_
  exact .ite ((does_wrs ..).next h₁ rfl) ((does_bnkOwn ..).next h₁ rfl)

theorem does_switchDsp (s : State) (re : Bool) (h : Nat) : Does (eventedAnd [.page, .dsp]) s (s.switchDsp re h) := by
  unfold State.switchDsp
  refine .ite (.refl _ _) ?_
  extract_lets p s₁ s₂ _ s₃ s₄ _ s₅ s₆ _
  refine .via s₁ ((does_wr ..).next (.refl _ _) rfl) fun h₁ => ?_
  refine .via s₂ ((does_wr ..).next h₁ rfl) fun h₂ => ?_
  refine .via s₃ (.page h₂ rfl) fun h₃ => ?_
  refine .via s₄ ((does_reload ..).next h₃ rfl) fun h₄ => ?_
  refine .via s₅ ((does_setDspHead ..).next h₄ rfl) fun h₅ => ?_
  refine .via s₆ ((does_dspApply ..).next h₅ rfl) fun h₆ => ?_
  exact .ite h₅ ((does_setDspHead ..).next h₆ rfl)

theorem does_switchDlb (s : State) (re : Bool) : Does [.rf, .dlb] s (s.switchDlb re) := by
  unfold State.switchDlb
  extract_lets p key was s₁
  refine .via s₁ ((does_reload ..).next (.refl _ _) rfl) fun h₁ => ?_
  exact .ite h₁ ((does_wr ..).next (.dlb h₁ rfl) rfl)

theorem does_switchTio (s : State) (re : Bool) : Does (eventedAnd [.tio]) s (s.switchTio re) := by
  unfold State.switchTio
  extract_lets s₁
  refine .via s₁ ((does_reload ..).next (.refl _ _) rfl) fun h₁ => ?_
  exact .ite ((does_detEnWrite ..).next h₁ rfl) h₁

theorem does_switchVgl (s : State) (re : Bool) : Does [.rf] s (s.switchVgl re) :=
  .each _ ((does_reload ..).next (.refl _ _) rfl) fun _ _ h => (does_wr ..).next h rfl

theorem does_switchCmp (s : State) (re ran : Bool) : Does (eventedAnd [.tio, .cmp]) s (s.switchCmp re ran) := by
  unfold State.switchCmp
  refine .ite (.ite (.refl _ _) ((does_cmpRestart ..).next (.refl _ _) rfl)) ?_
  extract_lets p ct cfg changed ramps s₁ s₂
  refine .via s₁ ((does_reload ..).next (.refl _ _) rfl) fun h₁ => ?_
  refine .via s₂ (.each _ h₁ fun _ _ h => (does_setCmpRamp ..).next h rfl) fun h₂ => ?_
  exact .ite ((does_cmpNow ..).next (.each _ h₂ fun _ _ h => (does_cmpEnable ..).next h rfl) rfl) ((does_cmpRestart ..).next h₂ rfl)

theorem does_switchBlock (s : State) (p t : Nat) : Does (eventedAnd [.page, .tio, .bank, .epo, .xf, .tmp, .dsp, .ing, .dlb, .cmp]) s (s.switchBlock
    p t) := by
  unfold State.switchBlock
  extract_lets re was ran i s₁
  refine .via s₁ ((does_useBlock ..).next (.refl _ _) rfl) fun h₁ => ?_
  split
  · exact (does_switchLqd ..).next h₁ rfl
  · exact (does_switchLnk ..).next h₁ rfl
  · exact (does_switchSlt ..).next h₁ rfl
  · exact (does_switchXfp ..).next h₁ rfl
  · exact (does_switchDen ..).next h₁ rfl
  · exact (does_switchTmp ..).next h₁ rfl
  · exact (does_switchTru ..).next h₁ rfl
  · exact (does_switchTrn ..).next h₁ rfl
  · exact (does_switchScr ..).next h₁ rfl
  · exact (does_switchBnk ..).next h₁ rfl
  · exact (does_switchDsp ..).next h₁ rfl
  · exact (does_switchDlb ..).next h₁ rfl
  · exact (does_switchTio ..).next h₁ rfl
  · exact (does_switchVgl ..).next h₁ rfl
  · exact (does_switchCmp ..).next h₁ rfl
  · exact (does_reload ..).next h₁ rfl

/-! Operations of Machine/EpochCtx. -/

theorem does_icLeave (s : State) (c : Nat) (stamp : SubTick) : Does (eventedAnd [.acq, .mem, .epo, .ing, .svc, .ic]) s (s.icLeave c stamp) := by
  unfold State.icLeave
  extract_lets n others busy _ s₁
  refine .via s₁ (.ite (.refl _ _) (.ite ((does_setInput ..).next (.refl _ _) rfl) ((does_t1Abandon ..).next (.refl _ _) rfl))) fun h₁ => ?_
  exact .ite (.refl _ _) (.ite ((does_gapEnd ..).next ((does_regain ..).next h₁ rfl) rfl) h₁)

theorem does_icEnter (s : State) (c : Nat) (was : Bool) (stamp : SubTick) : Does (eventedAnd [.acq, .mem, .epo, .xf, .ing, .svc, .ic]) s (s.icEnter
    c was stamp) := by
  unfold State.icEnter
  extract_lets p n s₁ _ s₂ s₃ _ s₄ init s₅ s₆ s₇
  refine .via s₁ ?_ fun h₁ => ?_
  · unfold s₁
    split
    · exact .each _ (.refl _ _) fun _ _ h => (does_wr ..).next h rfl
    · exact .each _ (.refl _ _) fun _ _ h => (does_wr ..).next h rfl
  refine .via s₂ ((does_setInput ..).next h₁ rfl) fun h₂ => ?_
  refine .via s₃ ((does_t1Abandon ..).next (.refl _ _) rfl) fun h₃ => ?_
  refine .via s₄ (.epo h₃ rfl) fun h₄ => ?_
  refine .via s₅ ((does_icWrs ..).next h₄ rfl) fun h₅ => ?_
  refine .via s₆ ((does_setInput ..).next ((does_setIcAct ..).next h₅ rfl) rfl) fun h₆ => ?_
  refine .via s₇ ((does_icWr ..).next h₆ rfl) fun h₇ => ?_
  exact .ite ((does_wr ..).next (.refl _ _) rfl) (.ite (.ite (.refl _ _) (.ite ((does_lose ..).next h₂ rfl) h₂)) (.ite ((does_t1Request ..).next h₇
      rfl) ((does_icWr ..).next h₇ rfl)))

theorem does_ctxUse (s : State) (c : Nat) (riders : List Nat) : Does [.rf, .page, .epo] s (s.ctxUse c riders) :=
  .foldl _ ((does_useBlock ..).next (.refl _ _) rfl) fun _ _ h => (does_useBlock ..).next h rfl

theorem does_epochMark (s : State) (c : Nat) (start stop : Bool) (stamp : SubTick) : Does (eventedAnd [.acq, .mem]) s (s.epochMark c start stop
    stamp) := by
  unfold State.epochMark
  extract_lets live _ s₁
  refine .via s₁ (.ite (.refl _ _) ((does_setActx ..).next (.refl _ _) rfl)) fun h₁ => ?_
  split
  · exact (does_charge ..).next ((does_epochRecord ..).next h₁ rfl) rfl
  · exact (does_epochRecord ..).next h₁ rfl

theorem does_sourceLinks (s : State) (c : Nat) (stamp : SubTick) : Does (eventedAnd [.acq, .mem, .epo]) s (s.sourceLinks c stamp) := by
  unfold State.sourceLinks
  extract_lets links s₁
  refine .via s₁ ?_ fun h₁ => ?_
  · unfold s₁
    refine .each _ (.refl _ _) fun _ _ h₂ => ?_
    extract_lets nm1 nondet x added
    refine .ite h₂ ?_
    refine .ite ?_ ?_
    · split
      · exact (does_linkRecord ..).next h₂ rfl
      · exact h₂
    · exact .ite ((does_linkRecord ..).next h₂ rfl) h₂
  split
  · exact h₁
  · extract_lets gated s₃
    refine .via s₃ ((does_openLeap ..).next h₁ rfl) fun h₃ => ?_
    exact .ite ((does_openLeap ..).next h₃ rfl) h₃

theorem does_ctxPackets (s : State) (c : Nat) : Does [.net] s (s.ctxPackets c) :=
  .ite (.refl _ _) ((does_setStrs ..).next (.refl _ _) rfl)

theorem does_almRest (s : State) (c : Nat) (str : Bool) (n : Nat) : Does [.acq] s (s.almRest c str n) :=
  .ite (.refl _ _) ((does_setDrain ..).next (.refl _ _) rfl)

theorem does_relay (s : State) (c : Nat) (ring : Bool) : Does [.rf, .acq] s (s.relay c ring) := by
  unfold State.relay
  extract_lets laid a n s₁ r _ s₂
  refine .via s₁ (.ite ((does_almRest ..).next ((does_almRest ..).next (.refl _ _) rfl) rfl) (.refl _ _)) fun h₁ => ?_
  refine .via s₂ ((does_setActx ..).next h₁ rfl) fun h₂ => ?_
  exact .ite ((does_wr ..).next h₂ rfl) h₂

theorem does_drainLeave (s : State) (c : Nat) (str bind src : Bool) : Does (eventedAnd [.acq, .net]) s (s.drainLeave c str bind src) := by
  unfold State.drainLeave
  refine .ite (.refl _ _) ?_
  extract_lets s₁ s₂ d s₃
  refine .via s₁ ((does_drainKeep ..).next ((does_drainKeep ..).next (.refl _ _) rfl) rfl) fun h₁ => ?_
  refine .via s₂ ((does_almRest ..).next h₁ rfl) fun h₂ => ?_
  refine .via s₃ ((does_drainPut ..).next ((does_setDrain ..).next h₂ rfl) rfl) fun h₃ => ?_
  exact .ite h₁ (.each _ h₃ fun _ _ h => (does_almPut ..).next h rfl)

theorem does_drainEnter (s : State) (c : Nat) (str bind src : Bool) : Does [.acq] s (s.drainEnter c str bind src) :=
  .ite ((does_setDrain ..).next (.refl _ _) rfl) (.ite ((does_drainMove ..).next ((does_drainMove ..).next (.refl _ _) rfl) rfl) (.refl _ _))

theorem Does.withNext {l : List Part} {s t : State} {x : List (Nat × Fld × Nat)} {f : State → State} (h : Does l s t)
    (w : inParts [.rf] l = true) (hf : ∀ t, Does l s t → Does l s (f t)) : Does l s (t.withNext x f) :=
  .each _ (hf _ (.each _ h fun _ _ h => (does_wr ..).next h w)) fun _ _ h => (does_wr ..).next h w

theorem does_capBegin (s : State) (c : Nat) : Does [.rf, .acq] s (s.capBegin c) :=
  .ite ((does_setCapState ..).next ((does_setActx ..).next (.refl _ _) rfl) rfl) (.refl _ _)

theorem does_autoArm (s : State) (c : Nat) (next : List (Nat × Fld × Nat)) : Does (eventedAnd [.acq]) s (s.autoArm c next) :=
  .ite (.withNext (.refl _ _) rfl fun _ h => (does_arm ..).next h rfl) (.refl _ _)

theorem does_feedAhead (s : State) (c : Nat) (fix : Bool) (l : List (List SlotSample)) : Does (eventedAnd [.acq, .mem, .epo, .xf, .ing, .freeCnt])
    s (s.feedAhead c fix l) := by
  unfold State.feedAhead
  refine .each _ (.refl _ _) fun _ _ h₁ => ?_
  extract_lets y
  refine .via y.2 ?_ fun hy => ?_
  · unfold y
    split
    · exact (does_corrected ..).next h₁ rfl
    · exact h₁
  exact (does_feed ..).next hy rfl

theorem does_ctxStart (s : State) (c t : Nat) (stamp : SubTick) : Does (eventedAnd [.page, .acq, .bank, .mem, .epo, .xf, .den, .tmp, .ing, .svc,
    .ic, .net, .freeCnt]) s (s.ctxStart c t stamp) := by
  unfold State.ctxStart
  extract_lets p eqx resumed next ahead fix s₁ s₂ s₃ stamp s₄ a laid r s₅ s₆ s₇ s₈ s₉ s₁₀ s₁₁
  refine .via s₁ ((does_ctxUse ..).next (.refl _ _) rfl) fun h₁ => ?_
  refine .via s₂ (.each _ h₁ fun _ _ h => (does_wr ..).next h rfl) fun h₂ => ?_
  refine .via s₃ ((does_wrs ..).next h₂ rfl) fun h₃ => ?_
  refine .via s₄ (.ite h₃ ((does_wrs ..).next h₃ rfl)) fun h₄ => ?_
  refine .via s₅ ((does_setActx ..).next h₄ rfl) fun h₅ => ?_
  refine .via s₆ ((does_viewStart ..).next h₅ rfl) fun h₆ => ?_
  refine .via s₇ ((does_xfSwitch ..).next ((does_setXfc ..).next h₆ rfl) rfl) fun h₇ => ?_
  refine .via s₈ ((does_capBegin ..).next ((does_setCapState ..).next h₇ rfl) rfl) fun h₈ => ?_
  refine .via s₉ ((does_drainEnter ..).next ((does_drainEnter ..).next h₈ rfl) rfl) fun h₉ => ?_
  refine .via s₁₀ ((does_epochMark ..).next h₉ rfl) fun h₁₀ => ?_
  refine .via s₁₁ ((does_icEnter ..).next ((does_sourceLinks ..).next h₁₀ rfl) rfl) fun h₁₁ => ?_
  exact (does_feedAhead ..).next ((does_autoArm ..).next ((does_ctxPackets ..).next h₁₁ rfl) rfl) rfl

theorem does_gridTurn (s : State) (c : Nat) (next : List (Nat × Fld × Nat)) (renewed : List Nat) : Does [.xf] s (s.gridTurn c next renewed) := by
  unfold State.gridTurn
  extract_lets x y
  split
  · exact (does_setXfc ..).next (.refl _ _) rfl
  · exact .ite ((does_setXfc ..).next (.refl _ _) rfl) ((does_setXfc ..).next (.refl _ _) rfl)

theorem does_ctxStay (s : State) (c t : Nat) : Does (eventedAnd [.page, .acq, .bank, .mem, .epo, .xf, .den, .tmp, .ing, .svc, .ic, .net, .freeCnt])
    s (s.ctxStay c t) := by
  unfold State.ctxStay
  extract_lets p old live eqx re next riders same viewed ranXf v was point from_ mode s₁ newMode st s₂ wasOn n fix busy wait levels s₃ later _ s₄
      src recNew strNew s₅ s₆ s₇ s₈ s₉ s₁₀ stamp s₁₁ b again s₁₂ _ s₁₃ masks s₁₄ _ s₁₅ s₁₆ _ s₁₇ s₁₈ s₁₉ s₂₀
  refine .via s₁ ((does_icLeave ..).next ((does_flushRuns ..).next ((does_clockWrite ..).next (.refl _ _) rfl) rfl) rfl) fun h₁ => ?_
  refine .via s₂ (.ite ((does_stopCapture ..).next h₁ rfl) (.ite ((does_setCapState ..).next h₁ rfl) h₁)) fun h₂ => ?_
  refine .via s₃ (.each _ h₂ fun _ _ h => (does_levelEnd ..).next h rfl) fun h₃ => ?_
  refine .via s₄ (.ite h₃ ((does_setInput ..).next h₃ rfl)) fun h₄ => ?_
  refine .via s₅ ((does_drainLeave ..).next ((does_drainLeave ..).next h₄ rfl) rfl) fun h₅ => ?_
  refine .via s₆ ((does_ctxUse ..).next h₅ rfl) fun h₆ => ?_
  refine .via s₇ (.ite (.each _ h₆ fun _ _ h => (does_wr ..).next h rfl) h₆) fun h₇ => ?_
  refine .via s₈ (.ite ((does_wr ..).next h₇ rfl) h₇) fun h₈ => ?_
  refine .via s₉ ((does_relay ..).next h₈ rfl) fun h₉ => ?_
  refine .via s₁₀ ((does_drainEnter ..).next ((does_drainEnter ..).next h₉ rfl) rfl) fun h₁₀ => ?_
  refine .via s₁₁ ((does_epochMark ..).next h₁₀ rfl) fun h₁₁ => ?_
  refine .via s₁₂ ((does_regain ..).next h₁₁ rfl) fun h₁₂ => ?_
  refine .via s₁₃ (.ite ((does_setActx ..).next h₁₂ rfl) h₁₁) fun h₁₃ => ?_
  refine .via s₁₄ ((does_gridTurn ..).next h₁₃ rfl) fun h₁₄ => ?_
  refine .via s₁₅ (.ite (.ite ((does_setActx ..).next h₁₄ rfl) ((does_capBegin ..).next h₁₄ rfl)) h₁₄) fun h₁₅ => ?_
  refine .via s₁₆ ((does_setView ..).next h₁₅ rfl) fun h₁₆ => ?_
  refine .via s₁₇ (.ite (.each _ h₁₆ fun _ _ h => (does_prevTake ..).next h rfl) ((does_setView ..).next h₁₅ rfl)) fun h₁₇ => ?_
  refine .via s₁₈ ((does_icEnter ..).next ((does_sourceLinks ..).next h₁₇ rfl) rfl) fun h₁₈ => ?_
  refine .via s₁₉ (.ite h₁₈ ((does_ctxPackets ..).next h₁₈ rfl)) fun h₁₉ => ?_
  refine .via s₂₀ ((does_xfSettle ..).next ((does_autoArm ..).next h₁₉ rfl) rfl) fun h₂₀ => ?_
  exact .ite ((does_feedAhead ..).next h₂₀ rfl) (.each _ h₂₀ fun _ _ h => (does_viewTake ..).next h rfl)

theorem does_ctxEnding (s : State) (c : Nat) : Does [.xf, .ing] s (s.ctxEnding c) :=
  .each _ ((does_setView ..).next ((does_setXfc ..).next (.refl _ _) rfl) rfl) fun _ _ h => (does_prevTake ..).next h rfl

theorem does_ctxStop (s : State) (c t : Nat) :
    Does (eventedAnd [.page, .acq, .bank, .mem, .epo, .xf, .den, .tmp, .ing, .svc, .ic]) s (s.ctxStop c t) := by
  unfold State.ctxStop
  extract_lets next riders stop s₁ last s₂ s₃ s₄ s₅ x s₆ s₇ s₈ y s₉
  refine .via s₁ ((does_flushRuns ..).next ((does_clockWrite ..).next (.refl _ _) rfl) rfl) fun h₁ => ?_
  refine .via s₂ ((does_icLeave ..).next h₁ rfl) fun h₂ => ?_
  refine .via s₃ ((does_ringKept ..).next ((does_regain ..).next ((does_stopCapture ..).next h₂ rfl) rfl) rfl) fun h₃ => ?_
  refine .via s₄ ((does_epochMark ..).next h₃ rfl) fun h₄ => ?_
  refine .via s₅ (.foldl _ h₄ fun _ _ h => .ite ((does_setDrain ..).next h rfl) h) fun h₅ => ?_
  refine .via s₆ ((does_setActx ..).next h₅ rfl) fun h₆ => ?_
  refine .via s₇ ((does_wr ..).next h₆ rfl) fun h₇ => ?_
  refine .via s₈ ((does_ctxUse ..).next h₇ rfl) fun h₈ => ?_
  refine .via s₉ ((does_xfSwitch ..).next ((does_setXfc ..).next h₈ rfl) rfl) fun h₉ => ?_
  exact (does_ctxRelease ..).next ((does_setView ..).next ((does_setXfc ..).next h₉ rfl) rfl) rfl

theorem does_prevEnd (s : State) (c : Nat) : Does (eventedAnd [.acq, .mem, .epo, .xf]) s (s.prevEnd c) := by
  unfold State.prevEnd
  split
  · exact .ite ((does_prevLost ..).next (.refl _ _) rfl) (.refl _ _)
  · exact .refl _ _

theorem does_switchCtx (s : State) (c t : Nat) (stamp : SubTick) : Does (eventedAnd [.page, .acq, .bank, .mem, .epo, .xf, .den, .tmp, .ing, .svc,
    .ic, .net, .freeCnt]) s (s.switchCtx c t stamp) :=
  .ite (.ite ((does_ctxStay ..).next (.refl _ _) rfl) ((does_ctxStart ..).next (.refl _ _) rfl)) (.ite ((does_ctxStop ..).next (.refl _ _) rfl)
      ((does_ctxRelease ..).next ((does_ctxUse ..).next (.refl _ _) rfl) rfl))

theorem does_ctxTurn (s : State) (c t : Nat) (stamp : SubTick) : Does (eventedAnd [.page, .acq, .bank, .mem, .epo, .xf, .den, .tmp, .ing, .svc,
    .ic, .net, .freeCnt]) s (s.ctxTurn c t stamp) := by
  unfold State.ctxTurn
  extract_lets s₁
  refine .via s₁ ((does_prevEnd ..).next (.refl _ _) rfl) fun h₁ => ?_
  exact .ite ((does_switchCtx ..).next h₁ rfl) (.ite ((does_ctxEnding ..).next h₁ rfl) h₁)

/-! Operations of Machine/Epochs. -/

theorem does_inputsTurn (s : State) : Does [.rf, .epo, .svc] s s.inputsTurn := by
  unfold State.inputsTurn
  extract_lets kept s₁ _
  refine .via s₁ ?_ fun h₁ => ?_
  · unfold s₁
    refine .each _ (.refl _ _) fun _ _ h₂ => ?_
    exact (does_icWrs ..).next (.each _ h₂ fun _ _ h => (does_complete ..).next h rfl) rfl
  exact .epo h₁ rfl

theorem does_rotate (s : State) : Does [.rf, .epo] s s.rotate := by
  unfold State.rotate
  extract_lets p rev liveNo digest old _ s₁ auto _ s₂ s₃ s₄ s₅
  refine .via s₁ (.epo (.refl _ _) rfl) fun h₁ => ?_
  refine .via s₂ (.epo h₁ rfl) fun h₂ => ?_
  refine .via s₃ ((does_wrs ..).next h₂ rfl) fun h₃ => ?_
  refine .via s₄ (.epo h₁ rfl) fun h₄ => ?_
  refine .via s₅ ((does_wrs ..).next h₄ rfl) fun h₅ => ?_
  exact .ite h₁ (.ite ((does_setDigest ..).next ((does_setDigest ..).next h₃ rfl) rfl) ((does_setDigest ..).next ((does_setDigest ..).next
      ((does_setDigest ..).next h₅ rfl) rfl) rfl))

theorem does_probStart (s : State) : Does [.rf, .epo] s s.probStart :=
  .ite (.refl _ _) (.epo ((does_wrs ..).next (.refl _ _) rfl) rfl)

theorem does_rerouted (s : State) : Does [.rel] s s.rerouted :=
  .rel (.refl _ _) rfl

theorem does_execEquinox (t : Nat) (alt : List (Fin 64 × BitVec 8)) (s : State) : Answers (eventedAnd [.tick, .upTime, .epo, .svc]) s (execEquinox
    t alt s) := by
  refine ⟨_, rfl, ?_⟩
  refine .ite ((does_advance ..).next (.refl _ _) rfl) ?_
  extract_lets p late s₁ s₂ s₃ s₄ s₅ _ s₆ s₇ s₈
  refine .via s₁ ((does_rotate ..).next ((does_advance ..).next (.refl _ _) rfl) rfl) fun h₁ => ?_
  refine .via s₂ ((does_wrs ..).next h₁ rfl) fun h₂ => ?_
  refine .via s₃ (.each _ h₂ fun _ _ h => (does_wr ..).next h rfl) fun h₃ => ?_
  refine .via s₄ ((does_rerouted ..).next h₃ rfl) fun h₄ => ?_
  refine .via s₅ ((does_inputsTurn ..).next h₄ rfl) fun h₅ => ?_
  refine .via s₆ (.epo h₅ rfl) fun h₆ => ?_
  refine .via s₇ (.ite h₆ ((does_probStart ..).next h₆ rfl)) fun h₇ => ?_
  refine .via s₈ ((does_eventIf ..).next ((does_event ..).next h₇ rfl) rfl) fun h₈ => ?_
  exact (does_eventIf ..).next h₈ rfl

theorem does_execBlockSwitch (t : Nat) (page : Fin 4096) (stamp : SubTick) (s : State) : Answers (eventedAnd [.tick, .upTime, .page, .tio, .acq,
    .bank, .mem, .epo, .xf, .den, .tmp, .dsp, .ing, .svc, .ic, .net, .dlb, .cmp, .freeCnt]) s (execBlockSwitch t page stamp s) :=
  ⟨_, rfl, .ite ((does_advance ..).next (.refl _ _) rfl) (.ite ((does_ctxTurn ..).next ((does_advance ..).next (.refl _ _) rfl) rfl) (.ite
      ((does_switchBlock ..).next ((does_advance ..).next (.refl _ _) rfl) rfl) ((does_advance ..).next (.refl _ _) rfl)))⟩

theorem does_execContextSwitch (t : Nat) (c : Fin 1024) (s : State) : Answers (eventedAnd [.tick, .upTime, .page, .acq, .bank, .mem, .epo, .xf,
    .den, .tmp, .ing, .svc, .ic, .net, .freeCnt]) s (execContextSwitch t c s) :=
  ⟨_, rfl, .ite ((does_advance ..).next (.refl _ _) rfl) ((does_ctxTurn ..).next ((does_advance ..).next (.refl _ _) rfl) rfl)⟩

theorem does_execEquinoxComplete (t : Nat) (s : State) : Answers (eventedAnd [.tick, .upTime, .acq, .bank, .mem, .epo, .xf, .den, .tmp, .boot]) s
    (execEquinoxComplete t s) := by
  refine ⟨_, rfl, ?_⟩
  refine .ite ((does_advance ..).next (.refl _ _) rfl) ?_
  extract_lets s₁ idle s₂ _ _
  refine .via s₁ (.each _ ((does_advance ..).next (.refl _ _) rfl) fun _ _ h => (does_xfSettle ..).next ((does_prevEnd ..).next h rfl) rfl) fun
      h₁ => ?_
  refine .via s₂ ((does_wrs ..).next h₁ rfl) fun h₂ => ?_
  exact .ite h₁ (.put h₂ rfl rfl (by simp [only_iff]))

theorem does_execProbationPass (t : Nat) (s : State) : Answers (eventedAnd [.tick, .upTime]) s (execProbationPass t s) :=
  ⟨_, rfl, .ite ((does_advance ..).next (.refl _ _) rfl) ((does_event ..).next ((does_wrs ..).next ((does_advance ..).next (.refl _ _) rfl) rfl)
      rfl)⟩

/-! Operations of Machine/Startup. -/

theorem does_t1Drop (s : State) (n : Nat) : Does [.rf, .ic] s (s.t1Drop n) := by
  unfold State.t1Drop
  extract_lets st s₁ s₂ _
  refine .via s₁ (.ite ((does_setIcAct ..).next (.refl _ _) rfl) (.refl _ _)) fun h₁ => ?_
  refine .via s₂ (.ite ((does_icWrs ..).next h₁ rfl) h₁) fun h₂ => ?_
  exact (does_setInput ..).next h₂ rfl

theorem does_warmReset (s : State) (code : Nat) : Does everyPart s (s.warmReset code) := by
  unfold State.warmReset
  extract_lets first s₁ loading w ev rel pwr tio acq mem epo trg net cmp s₂ s₃ s₄ s₅
  refine .via s₁ (.each _ (.refl _ _) fun _ _ h => (does_t1Drop ..).next h rfl) fun h₁ => ?_
  refine .via s₂ (h₁.trans ⟨fun p hp => ?_, fun k => smSorted_filter _ k, id⟩) fun h₂ => ?_
  · cases p
    case pending => rfl
    all_goals exact absurd (by decide) hp
  refine .via s₃ (.each _ h₂ fun _ _ h => (does_wr ..).next h rfl) fun h₃ => ?_
  refine .via s₄ (.each _ h₃ fun _ _ h => (does_wrs ..).next h rfl) fun h₄ => ?_
  refine .via s₅ (.ite ((does_setDigest ..).next ((does_wrs ..).next h₄ rfl) rfl) h₄) fun h₅ => ?_
  exact .ite (.refl _ _) ((does_wr ..).next ((does_bumpSat ..).next h₅ rfl) rfl)

theorem does_execRstNAssert (t periods : Nat) (s : State) : Answers (eventedAnd [.tick, .upTime, .page, .pwr, .tio, .acq, .bank, .mem, .epo, .xf,
    .den, .tmp, .dsp, .ptp, .flash, .boot, .clk, .ing, .svc, .ic, .net, .dlb, .hk, .cmp, .freeCnt]) s (execRstNAssert t periods s) :=
  ⟨_, rfl, .ite ((does_advance ..).next (.refl _ _) rfl) ((does_warmReset ..).next ((does_advance ..).next (.refl _ _) rfl) rfl)⟩

theorem does_hostReset (s : State) : Does [.rf, .page, .ev, .mem, .boot] s s.hostReset := by
  unfold State.hostReset
  extract_lets p keep
  exact .put (t := { s with rf := s.rf.filter (fun x => keep x.1) }) (.drop (.refl _ _) _ rfl) rfl rfl (by simp [only_iff])

theorem does_execPcieHotReset (t : Nat) (s : State) : Answers (eventedAnd [.tick, .upTime, .page, .pwr, .tio, .acq, .bank, .mem, .epo, .xf, .den,
    .tmp, .dsp, .ptp, .flash, .boot, .clk, .ing, .svc, .ic, .net, .dlb, .hk, .cmp, .freeCnt]) s (execPcieHotReset t s) :=
  ⟨_, rfl, .ite ((does_advance ..).next (.refl _ _) rfl) (.ite ((does_event ..).next ((does_hostReset ..).next ((does_advance ..).next (.refl _ _)
      rfl) rfl) rfl) ((does_warmReset ..).next ((does_advance ..).next (.refl _ _) rfl) rfl))⟩

theorem does_execPePerstNAssert (t : Nat) (s : State) : Answers (eventedAnd [.tick, .upTime, .page, .pwr, .tio, .acq, .bank, .mem, .epo, .xf, .den,
    .tmp, .dsp, .ptp, .flash, .boot, .clk, .ing, .svc, .ic, .net, .dlb, .hk, .cmp, .freeCnt]) s (execPePerstNAssert t s) :=
  ⟨_, rfl, .ite ((does_advance ..).next (.refl _ _) rfl) (.ite ((does_hostReset ..).next ((does_advance ..).next (.refl _ _) rfl) rfl)
      ((does_warmReset ..).next ((does_advance ..).next (.refl _ _) rfl) rfl))⟩

theorem does_execWarmResetRelease (t : Nat) (s : State) : Answers [.rf, .tick, .upTime, .boot] s (execWarmResetRelease t s) :=
  ⟨_, rfl, .ite ((does_advance ..).next (.refl _ _) rfl) ((does_wr ..).next (.boot ((does_advance ..).next (.refl _ _) rfl) rfl) rfl)⟩

theorem does_secSync (s : State) : Does [.rf] s s.secSync := by
  unfold State.secSync
  extract_lets p s₁
  refine .via s₁ ?_ fun h₁ => ?_
  · unfold s₁
    split
    · exact (does_wr ..).next (.refl _ _) rfl
    · exact .refl _ _
  split
  · exact (does_wrs ..).next h₁ rfl
  · exact h₁

theorem does_migResume (s : State) : Does [.mem] s s.migResume :=
  .ite (.refl _ _) (.memo (.refl _ _) rfl rfl)

theorem does_stepSix (s : State) : Does (eventedAnd [.tio, .mem, .hk]) s s.stepSix := by
  unfold State.stepSix
  extract_lets s₁ p s₂ s₃
  refine .via s₁ ((does_wr ..).next (.refl _ _) rfl) fun h₁ => ?_
  refine .via s₂ ((does_setPstateAct ..).next ((does_setPstate ..).next ((does_setEnAct ..).next ((does_setEn ..).next h₁ rfl) rfl) rfl) rfl) fun
      h₂ => ?_
  refine .via s₃ (.ite h₂ ((does_calStart ..).next h₂ rfl)) fun h₃ => ?_
  exact .ite ((does_migResume ..).next ((does_serveHeld ..).next (.each _ (.each _ h₃ fun _ _ h => (does_freqEnd ..).next h rfl) fun _ _ h =>
      (does_wakeChan ..).next h rfl) rfl) rfl) h₃

theorem does_boardLoad (s : State) (b : BoardCfg) : Does [.rf] s (s.boardLoad b) := by
  unfold State.boardLoad
  extract_lets s₁ s₂
  refine .via s₁ ((does_wr ..).next (.refl _ _) rfl) fun h₁ => ?_
  refine .via s₂ (.ite h₁ ((does_wrs ..).next h₁ rfl)) fun h₂ => ?_
  exact .each _ h₂ fun _ _ h => (does_wrs ..).next h rfl

theorem does_stepFour (s : State) (board : BoardCfg) (bands : Option (List Word)) : Does (eventedAnd [.tio, .acq, .mem, .epo, .xf, .clk, .ing,
    .svc, .ic, .hk]) s (s.stepFour board bands) := by
  unfold State.stepFour
  extract_lets s₁ s₂
  refine .via s₁ ((does_boardLoad ..).next (.refl _ _) rfl) fun h₁ => ?_
  refine .via s₂ ?_ fun h₂ => ?_
  · unfold s₂
    split
    · exact (does_bandTable ..).next h₁ rfl
    · exact h₁
  exact .ite ((does_stepSix ..).next ((does_wr ..).next h₂ rfl) rfl) (.ite ((does_bandCal ..).next ((does_event ..).next ((does_wr ..).next h₂ rfl)
      rfl) rfl) ((does_lockStart ..).next ((does_wr ..).next h₂ rfl) rfl))

theorem does_romBoots (s : State) (x : Nat) : Does (eventedAnd [.flash, .boot]) s (s.romBoots x) := by
  unfold State.romBoots
  extract_lets p other _ s₁ s₂ s₃
  refine .via s₁ (.boot (.refl _ _) rfl) fun h₁ => ?_
  refine .via s₂ ((does_wrs ..).next h₁ rfl) fun h₂ => ?_
  refine .via s₃ ((does_wr ..).next h₂ rfl) fun h₃ => ?_
  exact .ite h₃ ((does_event ..).next ((does_selectorWrite ..).next h₃ rfl) rfl)

theorem does_execRomVerifyDone (t : Nat) (slot : Fin 2) (flash : Option FwImage) (board : BoardCfg) (bands : Option (List Word)) (s : State) :
    Answers (eventedAnd [.tick, .upTime, .tio, .acq, .mem, .epo, .xf, .flash, .boot, .clk, .ing, .svc, .ic, .hk]) s (execRomVerifyDone t slot flash
    board bands s) := by
  refine ⟨_, rfl, ?_⟩
  refine .ite ((does_advance ..).next (.refl _ _) rfl) ?_
  extract_lets s₁ s₂ reason _ s₃ _ s₄ s₅ s₆
  refine .via s₁ ((does_secSync ..).next ((does_advance ..).next (.refl _ _) rfl) rfl) fun h₁ => ?_
  refine .via s₂ ((does_slotReads ..).next h₁ rfl) fun h₂ => ?_
  refine .via s₃ (.boot h₂ rfl) fun h₃ => ?_
  refine .via s₄ (.ite (.svc h₃ rfl) h₃) fun h₄ => ?_
  refine .via s₅ ((does_verifyFail ..).next h₄ rfl) fun h₅ => ?_
  refine .via s₆ ((does_romBoots ..).next h₂ rfl) fun h₆ => ?_
  exact .ite h₁ (.ite (.ite h₅ ((does_bootFail ..).next h₅ rfl)) (.ite h₆ ((does_stepFour ..).next h₆ rfl)))

theorem does_execPcieLinkTrained (t : Nat) (speed : Fin 6) (width : Fin 17) (s : State) : Answers (eventedAnd [.tick, .upTime, .boot]) s
    (execPcieLinkTrained t speed width s) :=
  ⟨_, rfl, .ite ((does_advance ..).next (.refl _ _) rfl) ((does_eventIf ..).next (.boot ((does_wrs ..).next (.ite ((does_bumpSat ..).next
      ((does_advance ..).next (.refl _ _) rfl) rfl) ((does_advance ..).next (.refl _ _) rfl)) rfl) rfl) rfl)⟩

theorem does_failMapLoad (s : State) (c : Nat) : Does [.rf] s (s.failMapLoad c) := by
  unfold State.failMapLoad
  extract_lets p
  refine .each _ (.refl _ _) fun _ _ h₁ => ?_
  extract_lets s₂
  refine .via s₂ ((does_wr ..).next h₁ rfl) fun h₂ => ?_
  exact .ite ((does_wr ..).next (.each _ h₂ fun _ _ h => .ite ((does_wr ..).next h rfl) (.ite ((does_wr ..).next h rfl) h)) rfl) h₂

theorem does_execHbmStartTrainingDone (t : Nat) (failed : Word) (s : State) : Answers (eventedAnd [.tick, .upTime, .mem, .flash, .boot]) s
    (execHbmStartTrainingDone t failed s) := by
  refine ⟨_, rfl, ?_⟩
  refine .ite ((does_advance ..).next (.refl _ _) rfl) ?_
  extract_lets bad known _ _ s₁ good _ s₂ s₃ s₇
  refine .via s₁ (.put ((does_advance ..).next (.refl _ _) rfl) rfl rfl (by simp [only_iff, s₁])) fun h₁ => ?_
  refine .via s₂ (.ite h₁ (.flash h₁ rfl)) fun h₂ => ?_
  refine .via s₃ ?_ fun h₃ => ?_
  · unfold s₃
    refine .each _ h₂ fun _ _ h₄ => ?_
    extract_lets s₅ s₆
    refine .via s₅ ((does_failMapLoad ..).next h₄ rfl) fun h₅ => ?_
    refine .via s₆ ((does_wr ..).next h₅ rfl) fun h₆ => ?_
    exact .ite ((does_chanLevels ..).next (.ite h₆ ((does_failEntry ..).next h₆ rfl)) rfl) ((does_chanLevels ..).next ((does_wr ..).next h₅ rfl)
        rfl)
  refine .via s₇ ((does_migResume ..).next h₃ rfl) fun h₇ => ?_
  exact .ite ((does_bootFail ..).next h₇ rfl) ((does_eventIf ..).next h₇ rfl)

theorem does_execBankClearDone (t : Nat) (b : Fin 64) (ok : Bool) (s : State) : Answers (eventedAnd [.tick, .upTime, .page, .bank, .boot]) s
    (execBankClearDone t b ok s) := by
  refine ⟨_, rfl, ?_⟩
  refine .ite ((does_advance ..).next (.refl _ _) rfl) ?_
  extract_lets _ s₁ s₂ s₃ l _ s₄ _
  refine .via s₁ (.bank ((does_advance ..).next (.refl _ _) rfl) rfl) fun h₁ => ?_
  refine .via s₂ (.ite ((does_setPstate ..).next ((does_setEnAct ..).next ((does_setEn ..).next h₁ rfl) rfl) rfl) h₁) fun h₂ => ?_
  refine .via s₃ ((does_pstateEnd ..).next h₂ rfl) fun h₃ => ?_
  refine .via s₄ (.ite h₃ (.boot h₃ rfl)) fun h₄ => ?_
  exact .ite h₄ ((does_event ..).next (.bank h₄ rfl) rfl)

/-! Operations of Machine/PageEnd. -/

theorem does_pgCtl (s : State) (p en srst ps : Nat) : Does (eventedAnd [.page, .tio, .cmp]) s (s.pgCtl p en srst ps) := by
  unfold State.pgCtl
  extract_lets was s₁
  refine .via s₁ ((does_pgCtlWrite ..).next (.refl _ _) rfl) fun h₁ => ?_
  refine .ite h₁ ?_
  split
  · exact (does_hkStop ..).next h₁ rfl
  · exact (does_cmpRestart ..).next h₁ rfl
  · exact h₁

theorem does_execPgEnable (t : Nat) (page : Fin 4096) (en : Bool) (s : State) : Answers (eventedAnd [.tick, .upTime, .page, .tio, .cmp]) s
    (execPgEnable t page en s) := by
  refine ⟨_, rfl, ?_⟩
  refine .hosted ((does_advance ..).next (.refl _ _) rfl) rfl fun _ h₁ => ?_
  exact .onPage h₁ rfl fun _ h => (does_pgCtl ..).next h rfl

theorem does_execPgSrst (t : Nat) (page : Fin 4096) (s : State) : Answers (eventedAnd [.tick, .upTime, .page, .tio, .cmp]) s (execPgSrst t page
    s) := by
  refine ⟨_, rfl, ?_⟩
  refine .hosted ((does_advance ..).next (.refl _ _) rfl) rfl fun _ h₁ => ?_
  exact .onPage h₁ rfl fun _ h => (does_pgCtl ..).next h rfl

theorem does_execPstateRequest (t : Nat) (page : Fin 4096) (ps : Fin 4) (s : State) : Answers (eventedAnd [.tick, .upTime, .page, .tio, .cmp]) s
    (execPstateRequest t page ps s) := by
  refine ⟨_, rfl, ?_⟩
  refine .hosted ((does_advance ..).next (.refl _ _) rfl) rfl fun _ h₁ => ?_
  exact .onPage h₁ rfl fun _ h => (does_pgCtl ..).next h rfl

theorem does_regsClear (s : State) (p : Nat) (off : Bool) : Does [.rf, .page] s (s.regsClear p off) :=
  .page (.drop (.refl _ _) _ rfl) rfl

theorem does_icClear (s : State) (c : Nat) : Does [.ic] s (s.icClear c) :=
  .ite (.ic (.refl _ _) rfl) (.refl _ _)

theorem does_linkRestart (s : State) (l : Nat) : Does (eventedAnd [.acq, .mem, .epo, .xf, .ing, .svc, .ic]) s (s.linkRestart l) :=
  .ite ((does_setLinkState ..).next ((does_setLnk ..).next ((does_lanesRestart ..).next (.refl _ _) rfl) rfl) rfl) (.ite ((does_linkDown ..).next
      (.refl _ _) rfl) ((does_setLnk ..).next ((does_lanesRestart ..).next (.refl _ _) rfl) rfl))

theorem does_lanesClear (s : State) (l : List Nat) : Does (eventedAnd [.acq, .mem, .epo, .xf, .ing, .svc, .ic]) s (s.lanesClear l) :=
  .each _ (.ing (.refl _ _) rfl) fun _ _ h => (does_linkRestart ..).next h rfl

theorem does_blockLose (s : State) (b : Blk) (i : Nat) : Does (eventedAnd [.tio, .acq, .bank, .mem, .epo, .xf, .den, .tmp, .dsp, .ing, .svc, .ic,
    .dlb, .hk, .cmp]) s (s.blockLose b i) := by
  unfold State.blockLose
  split
  · exact (does_linkRestart ..).next (.refl _ _) rfl
  · exact (does_lanesClear ..).next (.refl _ _) rfl
  · exact .ing ((does_setSlt ..).next (.refl _ _) rfl) rfl
  · exact .put (t := (s.icClear i).setActx i { queued := (s.actx i).queued, reserved := (s.actx i).reserved }) ((does_setActx ..).next
      ((does_icClear ..).next (.refl _ _) rfl) rfl) rfl rfl (by simp [only_iff])
  · exact .xf (.refl _ _) rfl
  · exact .den (.refl _ _) rfl
  · exact .tmp (.refl _ _) rfl
  · exact .acq (.refl _ _) rfl
  · exact .put (.refl _ _) rfl rfl (by simp [only_iff])
  · exact .trg (.refl _ _) rfl
  · exact (does_setCore ..).next (.refl _ _) rfl
  · exact .bank (.refl _ _) rfl
  · exact .bank (.refl _ _) rfl
  · exact .memo (.refl _ _) rfl rfl
  · exact (does_setDspHead ..).next (.refl _ _) rfl
  · exact .dlb (.refl _ _) rfl
  · exact .put (.refl _ _) rfl rfl (by simp [only_iff])
  · exact .hk (.refl _ _) rfl
  · exact .refl _ _

theorem does_storesLose (s : State) (b : Blk) (i : Nat) : Does [.tio, .core, .trg, .xf, .tmp, .dsp, .dlb] s (s.storesLose b i) := by
  unfold State.storesLose
  split
  · exact .put (.refl _ _) rfl rfl (by simp [only_iff])
  · exact .tmp (.refl _ _) rfl
  · exact (does_setCore ..).next (.refl _ _) rfl
  · exact (does_setDspHead ..).next (.refl _ _) rfl
  · exact .tio (.refl _ _) rfl
  · exact .dlb (.refl _ _) rfl
  · exact .refl _ _

theorem does_blockClear (s : State) (p : Nat) (off : Bool) : Does (eventedAnd [.page, .tio, .acq, .bank, .mem, .epo, .xf, .den, .tmp, .dsp, .ing,
    .svc, .ic, .dlb, .hk, .cmp]) s (s.blockClear p off) := by
  unfold State.blockClear
  split
  · exact .refl _ _
  · extract_lets i s₁ s₂
    refine .via s₁ ((does_blockLose ..).next (.refl _ _) rfl) fun h₁ => ?_
    refine .via s₂ (.ite ((does_storesLose ..).next h₁ rfl) h₁) fun h₂ => ?_
    exact (does_regsClear ..).next h₂ rfl

theorem does_afterReset (s : State) (p : Nat) : Does (eventedAnd [.tio, .mem, .hk, .cmp]) s (s.afterReset p) := by
  unfold State.afterReset
  split
  · exact .ite (.refl _ _) ((does_startTraining ..).next (.refl _ _) rfl)
  · exact .ite ((does_calStart ..).next (.refl _ _) rfl) (.refl _ _)
  · exact (does_coreState ..).next (.refl _ _) rfl
  · exact (does_cmpNow ..).next (.refl _ _) rfl
  · exact (does_detEnWrite ..).next (.refl _ _) rfl
  · exact .refl _ _

theorem does_execBlockResetDone (t : Nat) (page : Fin 4096) (s : State) : Answers (eventedAnd [.tick, .upTime, .page, .tio, .acq, .bank, .mem,
    .epo, .xf, .den, .tmp, .dsp, .ing, .svc, .ic, .dlb, .hk, .cmp]) s (execBlockResetDone t page s) :=
  ⟨_, rfl, .ite ((does_advance ..).next (.refl _ _) rfl) ((does_srstEnd ..).next (.ite ((does_regsClear ..).next ((does_advance ..).next (.refl _
      _) rfl) rfl) ((does_afterReset ..).next ((does_blockClear ..).next ((does_advance ..).next (.refl _ _) rfl) rfl) rfl)) rfl)⟩

theorem does_rasterStop (s : State) (h : Nat) : Does [.dsp] s (s.rasterStop h) :=
  (does_setDspHead ..).next (.refl _ _) rfl

theorem does_execBlockStop (t : Nat) (page : Fin 4096) (s : State) : Answers [.rf, .tick, .upTime, .tio, .bank, .dsp] s (execBlockStop t page
    s) := by
  refine ⟨_, rfl, ?_⟩
  refine .ite ((does_advance ..).next (.refl _ _) rfl) ?_
  extract_lets s₁ s₂ s₃
  refine .via s₁ (.ite ((does_hkStop ..).next ((does_advance ..).next (.refl _ _) rfl) rfl) ((does_advance ..).next (.refl _ _) rfl)) fun h₁ => ?_
  refine .via s₂ (.ite ((does_dmaCtl ..).next h₁ rfl) h₁) fun h₂ => ?_
  refine .via s₃ (.ite ((does_rasterStop ..).next h₂ rfl) h₂) fun h₃ => ?_
  exact (does_setEnAct ..).next h₃ rfl

theorem does_shiftWhere (s : State) (q : Blk → Nat → Bool) (gap : Nat) : Does [.core, .bank, .trg, .xf, .den, .tmp, .hk, .cmp] s (s.shiftWhere q
    gap) :=
  .put (.refl _ _) rfl rfl (by simp [only_iff, State.shiftWhere])

theorem does_clocksBack (s : State) (p : Nat) : Does [.page, .core, .bank, .trg, .xf, .den, .tmp, .hk, .cmp] s (s.clocksBack p) := by
  unfold State.clocksBack
  split
  · exact .refl _ _
  · exact .page ((does_shiftWhere ..).next (.refl _ _) rfl) rfl

theorem does_clocksStop (s : State) (p : Nat) : Does [.page] s (s.clocksStop p) :=
  .ite (.refl _ _) (.page (.refl _ _) rfl)

theorem does_enterLow (s : State) (p dst : Nat) : Does (eventedAnd [.page, .tio, .acq, .bank, .mem, .epo, .xf, .den, .tmp, .dsp, .ing, .svc, .ic,
    .dlb, .hk, .cmp]) s (s.enterLow p dst) := by
  unfold State.enterLow
  extract_lets s₁ c
  refine .via s₁ (.ite ((does_blockClear ..).next (.refl _ _) rfl) (.refl _ _)) fun h₁ => ?_
  split
  · exact .ite ((does_wr ..).next h₁ rfl) h₁
  · exact .ite ((does_coreState ..).next h₁ rfl) h₁
  · exact (does_rasterStop ..).next h₁ rfl
  · exact h₁

theorem does_wakeUp (s : State) (p was : Nat) : Does (eventedAnd [.tio, .cmp]) s (s.wakeUp p was) := by
  unfold State.wakeUp
  split
  · exact .ite ((does_wr ..).next (.refl _ _) rfl) (.refl _ _)
  · exact .ite ((does_coreState ..).next (.refl _ _) rfl) (.refl _ _)
  · exact (does_outSync ..).next ((does_routerTo ..).next (.refl _ _) rfl) rfl
  · exact (does_outputsFollow ..).next (.trg ((does_pinsFollow ..).next (.refl _ _) rfl) rfl) rfl
  · exact .ite ((does_cmpRestart ..).next (.refl _ _) rfl) ((does_cmpBack ..).next (.refl _ _) rfl)
  · exact .refl _ _

theorem does_execPstateDone (t : Nat) (page : Fin 4096) (s : State) : Answers (eventedAnd [.tick, .upTime, .page, .tio, .acq, .bank, .mem, .epo,
    .xf, .den, .tmp, .dsp, .ing, .svc, .ic, .dlb, .hk, .cmp]) s (execPstateDone t page s) :=
  ⟨_, rfl, .ite ((does_advance ..).next (.refl _ _) rfl) (.ite ((does_advance ..).next (.refl _ _) rfl) (.ite (.ite ((does_advance ..).next (.refl
      _ _) rfl) ((does_calStart ..).next ((does_advance ..).next (.refl _ _) rfl) rfl)) (.when _ ((does_pstateEnd ..).next (.ite ((does_advance
      ..).next (.refl _ _) rfl) (.ite ((does_wakeUp ..).next ((does_clocksBack ..).next ((does_advance ..).next (.refl _ _) rfl) rfl) rfl)
      ((does_clocksStop ..).next ((does_enterLow ..).next ((does_advance ..).next (.refl _ _) rfl) rfl) rfl))) rfl) fun _ h => (does_serveHeld
      ..).next h rfl)))⟩

theorem does_shCommit (s : State) (p groups t : Nat) : Does [.rf, .page] s (s.shCommit p groups t) := by
  unfold State.shCommit
  extract_lets late fresh s₁ _ s₂
  refine .via s₁ ((does_wrs ..).next (.refl _ _) rfl) fun h₁ => ?_
  refine .via s₂ (.ite (.page h₁ rfl) h₁) fun h₂ => ?_
  exact h₂

theorem does_shCtlWrite (s : State) (p w t : Nat) : Does [.rf, .page] s (s.shCtlWrite p w t) :=
  (does_shCommit ..).next ((does_shAbort ..).next ((does_wr ..).next (.refl _ _) rfl) rfl) rfl

theorem does_execShadowCommit (t : Nat) (page : Fin 4096) (groups : BitVec 8) (s : State) : Answers (eventedAnd [.tick, .upTime, .page]) s
    (execShadowCommit t page groups s) := by
  refine ⟨_, rfl, ?_⟩
  refine .hosted ((does_advance ..).next (.refl _ _) rfl) rfl fun _ h₁ => ?_
  exact .onPage h₁ rfl fun _ h => (does_shCtlWrite ..).next h rfl

theorem does_execShadowApply (t : Nat) (page : Fin 4096) (s : State) : Answers (eventedAnd [.tick, .upTime, .page, .acq, .mem, .tmp, .dsp]) s
    (execShadowApply t page s) := by
  refine ⟨_, rfl, ?_⟩
  split
  · exact (does_tmbApply ..).next ((does_advance ..).next (.refl _ _) rfl) rfl
  · exact .ite ((does_advance ..).next (.refl _ _) rfl) ((does_frameAt ..).next ((does_advance ..).next (.refl _ _) rfl) rfl)
  · exact (does_advance ..).next (.refl _ _) rfl

/-! Operations of Machine/Bar0. -/

theorem does_shadowNote (s : State) (p : Nat) (f : Fld) : Does [.page] s (s.shadowNote p f) :=
  .ite (.refl _ _) (.page (.refl _ _) rfl)

theorem does_fieldWrite (s : State) (p w : Nat) (f : Fld) : Does [.rf, .page] s (s.fieldWrite p w f) := by
  unfold State.fieldWrite
  split
  · exact .ite ((does_wr ..).next ((does_shadowNote ..).next (.refl _ _) rfl) rfl) (.refl _ _)
  · exact .ite ((does_wr ..).next ((does_shadowNote ..).next (.refl _ _) rfl) rfl) (.refl _ _)
  · exact (does_wr ..).next (.refl _ _) rfl
  · exact .refl _ _
  · exact .refl _ _
  · exact .refl _ _

theorem does_fieldsWrite (s : State) (p off w : Nat) : Does [.rf, .page] s (s.fieldsWrite p off w) :=
  .each _ (.refl _ _) fun _ _ h => (does_fieldWrite ..).next h rfl

theorem does_glbWrite (s : State) (off w : Nat) : Does [.rf, .page] s (s.glbWrite off w) :=
  .ite (.ite ((does_accErrClear ..).next (.refl _ _) rfl) (.refl _ _)) ((does_fieldsWrite ..).next (.refl _ _) rfl)

theorem does_clkWrite (s : State) (off w : Nat) : Does (eventedAnd [.page, .tio, .acq, .mem, .epo, .xf, .clk, .ing, .svc, .ic]) s (s.clkWrite off
    w) := by
  unfold State.clkWrite
  extract_lets p s₁ s₂
  refine .via s₁ ((does_fieldsWrite ..).next (.refl _ _) rfl) fun h₁ => ?_
  refine .via s₂ (.ite ((does_bandCal ..).next h₁ rfl) h₁) fun h₂ => ?_
  exact .ite (.ite ((does_relock ..).next h₂ rfl) h₂) (.ite ((does_ftrimWrite ..).next (.refl _ _) rfl) (.ite (.ite ((does_wr ..).next h₁ rfl) h₁)
      ((does_fieldsWrite ..).next (.refl _ _) rfl)))

theorem does_tmbWrite (s : State) (off w : Nat) : Does [.rf, .page] s (s.tmbWrite off w) :=
  .ite (.ite ((does_tbSnap ..).next (.refl _ _) rfl) (.refl _ _)) ((does_fieldsWrite ..).next (.refl _ _) rfl)

theorem does_pwrWrite (s : State) (off w : Nat) : Does [.rf, .page, .pwr] s (s.pwrWrite off w) :=
  .ite (.ite ((does_seqClear ..).next (.refl _ _) rfl) (.refl _ _)) ((does_fieldsWrite ..).next (.refl _ _) rfl)

theorem does_hkaWrite (s : State) (off w : Nat) : Does (eventedAnd [.page, .tio, .hk]) s (s.hkaWrite off w) :=
  .ite (.hkHost (.refl _ _) rfl fun _ h => (does_fieldsWrite ..).next h rfl) (.ite (.hkHost (.refl _ _) rfl fun _ h => (does_convCtl ..).next h
      rfl) (.ite (.hkHost (.refl _ _) rfl fun _ h => (does_calCtl ..).next h rfl) ((does_fieldsWrite ..).next (.refl _ _) rfl)))

theorem does_cmpCfgWrite (s : State) (off w : Nat) : Does (eventedAnd [.page, .tio, .cmp]) s (s.cmpCfgWrite off w) := by
  unfold State.cmpCfgWrite
  extract_lets p ct ramps s₁ s₂ s₃
  refine .via s₁ ((does_fieldsWrite ..).next (.refl _ _) rfl) fun h₁ => ?_
  refine .via s₂ (.each _ h₁ fun _ _ h => (does_setCmpRamp ..).next h rfl) fun h₂ => ?_
  refine .via s₃ (.ite ((does_cmpEnable ..).next h₂ rfl) h₂) fun h₃ => ?_
  exact .ite (.refl _ _) ((does_cmpNow ..).next h₃ rfl)

theorem does_cmpWrite (s : State) (off w : Nat) : Does (eventedAnd [.page, .tio, .cmp]) s (s.cmpWrite off w) := by
  unfold State.cmpWrite
  extract_lets p s₁
  refine .via s₁ ((does_owSchedule ..).next ((does_fieldsWrite ..).next (.refl _ _) rfl) rfl) fun h₁ => ?_
  exact .ite ((does_cmpCfgWrite ..).next (.refl _ _) rfl) (.ite ((does_cmpDac ..).next (.refl _ _) rfl) (.ite ((does_cmpCfgWrite ..).next (.refl _
      _) rfl) (.ite ((does_cmpLatchClr ..).next (.refl _ _) rfl) (.ite (.each _ ((does_fieldsWrite ..).next (.refl _ _) rfl) fun _ _ h =>
      (does_setRaw ..).next h rfl) (.ite (.ite ((does_owBegin ..).next h₁ rfl) h₁) ((does_fieldsWrite ..).next (.refl _ _) rfl))))))

theorem does_evaWrite (s : State) (i off w : Nat) : Does (eventedAnd [.page]) s (s.evaWrite i off w) :=
  .ite (.each _ (.refl _ _) fun _ _ h => (does_routeWrite ..).next h rfl) (.ite ((does_vecArmWrite ..).next (.refl _ _) rfl) ((does_fieldsWrite
      ..).next (.refl _ _) rfl))

theorem does_svcWrite (s : State) (off w : Nat) : Does (eventedAnd [.page]) s (s.svcWrite off w) :=
  .ite ((does_ringDb ..).next (.refl _ _) rfl) ((does_fieldsWrite ..).next (.refl _ _) rfl)

theorem does_vglWrite (s : State) (off w : Nat) : Does [.rf, .page, .rel] s (s.vglWrite off w) := by
  unfold State.vglWrite
  extract_lets p n was s₁
  refine .via s₁ ((does_fieldsWrite ..).next (.refl _ _) rfl) fun h₁ => ?_
  exact .ite (.ite ((does_avClr ..).next (.refl _ _) rfl) (.refl _ _)) (.ite (.ite ((does_wr ..).next h₁ rfl) h₁) ((does_fieldsWrite ..).next
      (.refl _ _) rfl))

theorem does_lnkWrite (s : State) (l off w : Nat) : Does [.rf, .page] s (s.lnkWrite l off w) :=
  .ite (.ite ((does_linkErrClear ..).next (.refl _ _) rfl) (.refl _ _)) ((does_fieldsWrite ..).next (.refl _ _) rfl)

theorem does_lqdWrite (s : State) (q off w : Nat) : Does (eventedAnd [.page]) s (s.lqdWrite q off w) :=
  .ite ((does_laneClear ..).next (.refl _ _) rfl) (.each _ ((does_polSync ..).next ((does_fieldsWrite ..).next (.refl _ _) rfl) rfl) fun _ _ h =>
      (does_laneEvent ..).next h rfl)

theorem does_sltWrite (s : State) (n off w : Nat) : Does [.rf, .page] s (s.sltWrite n off w) :=
  .ite (.ite ((does_slotClear ..).next (.refl _ _) rfl) (.refl _ _)) ((does_fieldsWrite ..).next (.refl _ _) rfl)

theorem does_dlbWrite (s : State) (off w : Nat) : Does [.rf, .page, .dlb] s (s.dlbWrite off w) := by
  unfold State.dlbWrite
  extract_lets p key s₁
  refine .via s₁ ((does_fieldsWrite ..).next (.refl _ _) rfl) fun h₁ => ?_
  exact .ite (.ite ((does_dlbMeasure ..).next (.refl _ _) rfl) (.refl _ _)) (.ite h₁ ((does_wr ..).next (.dlb h₁ rfl) rfl))

theorem does_tioWrite (s : State) (off w : Nat) : Does (eventedAnd [.page, .tio]) s (s.tioWrite off w) :=
  .ite (.each _ ((does_detEnWrite ..).next ((does_wr ..).next (.refl _ _) rfl) rfl) fun _ _ h => (does_shortRetry ..).next h rfl)
      ((does_fieldsWrite ..).next (.refl _ _) rfl)

theorem does_pciWrite (s : State) (off w : Nat) : Does [.rf, .page] s (s.pciWrite off w) :=
  .ite (.ite ((does_pciClr ..).next (.refl _ _) rfl) (.refl _ _)) ((does_fieldsWrite ..).next (.refl _ _) rfl)

theorem does_ctxWrite (s : State) (c off w : Nat) : Does (eventedAnd [.page, .acq, .mem]) s (s.ctxWrite c off w) :=
  .ite ((does_capCtl ..).next (.refl _ _) rfl) ((does_fieldsWrite ..).next (.refl _ _) rfl)

theorem does_xfpWrite (s : State) (q off w : Nat) : Does (eventedAnd [.page]) s (s.xfpWrite q off w) :=
  .ite (.ite ((does_xfpClr ..).next (.refl _ _) rfl) (.refl _ _)) (.ite ((does_setRaw ..).next ((does_fieldsWrite ..).next (.refl _ _) rfl) rfl)
      ((does_fieldsWrite ..).next (.refl _ _) rfl))

theorem does_denWrite (s : State) (u off w : Nat) : Does (eventedAnd [.page, .bank, .den, .tmp]) s (s.denWrite u off w) :=
  .ite (.ite ((does_denClear ..).next (.refl _ _) rfl) (.refl _ _)) (.ite (.ite ((does_denClr ..).next (.refl _ _) rfl) (.refl _ _))
      ((does_fieldsWrite ..).next (.refl _ _) rfl))

theorem does_acqWrite (s : State) (off w : Nat) : Does [.rf, .page] s (s.acqWrite off w) := by
  unfold State.acqWrite
  extract_lets p s₁
  refine .via s₁ ((does_fieldsWrite ..).next (.refl _ _) rfl) fun h₁ => ?_
  exact .ite (.ite ((does_acctSnap ..).next h₁ rfl) h₁) (.ite (.ite ((does_acqClr ..).next (.refl _ _) rfl) (.refl _ _)) ((does_fieldsWrite
      ..).next (.refl _ _) rfl))

theorem does_trnWrite (s : State) (off w : Nat) : Does [.rf, .page, .tio, .trg] s (s.trnWrite off w) := by
  unfold State.trnWrite
  refine .ite ((does_poutClr ..).next (.refl _ _) rfl) ?_
  refine .ite (.ite ((does_trnClr ..).next (.refl _ _) rfl) (.refl _ _)) ?_
  extract_lets s₁
  refine .via s₁ ((does_fieldsWrite ..).next (.refl _ _) rfl) fun h₁ => ?_
  exact .ite ((does_schedSet ..).next h₁ rfl) h₁

theorem does_truWrite (s : State) (u off w t : Nat) : Does (eventedAnd [.page, .acq]) s (s.truWrite u off w t) :=
  .ite ((does_truCtl ..).next (.refl _ _) rfl) ((does_fieldsWrite ..).next (.refl _ _) rfl)

theorem does_scrWrite (s : State) (n off w t : Nat) : Does (eventedAnd [.page, .acq, .bank, .freeCnt]) s (s.scrWrite n off w t) := by
  unfold State.scrWrite
  extract_lets p s₁ s₂
  refine .via s₁ (.ite ((does_scrHalt ..).next (.refl _ _) rfl) (.refl _ _)) fun h₁ => ?_
  refine .via s₂ (.ite ((does_scrResume ..).next h₁ rfl) h₁) fun h₂ => ?_
  exact .ite (.ite ((does_scrStep ..).next h₂ rfl) h₂) (.ite (.ite ((does_wrs ..).next (.refl _ _) rfl) (.refl _ _)) (.ite ((does_mbxInWrite
      ..).next (.refl _ _) rfl) (.ite ((does_dbgWrite ..).next (.refl _ _) rfl) (.ite (.ite ((does_scrClr ..).next (.refl _ _) rfl) (.refl _ _))
      ((does_fieldsWrite ..).next (.refl _ _) rfl)))))

theorem does_bnkWrite (s : State) (b off w : Nat) : Does (eventedAnd [.page, .bank]) s (s.bnkWrite b off w) :=
  .ite ((does_bnkOwn ..).next (.refl _ _) rfl) (.ite (.ite ((does_wrs ..).next (.refl _ _) rfl) (.refl _ _)) (.ite ((does_spillCtl ..).next (.refl
      _ _) rfl) (.ite (.ite ((does_bnkClr ..).next (.refl _ _) rfl) (.refl _ _)) ((does_fieldsWrite ..).next (.refl _ _) rfl))))

theorem does_dmaWrite (s : State) (d off w : Nat) : Does [.rf, .page, .bank] s (s.dmaWrite d off w) :=
  .ite ((does_dmaCtl ..).next (.refl _ _) rfl) (.ite (.refl _ _) ((does_fieldsWrite ..).next (.refl _ _) rfl))

theorem does_mchWrite (s : State) (c off w : Nat) : Does [.rf, .page] s (s.mchWrite c off w) :=
  .ite (.ite ((does_mchClr ..).next (.refl _ _) rfl) (.refl _ _)) ((does_fieldsWrite ..).next (.refl _ _) rfl)

theorem does_mstWrite (s : State) (st off w : Nat) : Does [.rf, .page] s (s.mstWrite st off w) :=
  .ite ((does_freqCtl ..).next (.refl _ _) rfl) (.ite (.refl _ _) ((does_fieldsWrite ..).next (.refl _ _) rfl))

theorem does_dspWrite (s : State) (h off w : Nat) : Does [.rf, .page, .dsp, .out] s (s.dspWrite h off w) :=
  .ite ((does_gammaWrite ..).next (.refl _ _) rfl) (.ite ((does_headCtl ..).next (.refl _ _) rfl) (.ite ((does_auxCtl ..).next (.refl _ _) rfl)
      ((does_fieldsWrite ..).next (.refl _ _) rfl)))

theorem does_nvpWrite (s : State) (i off w : Nat) : Does [.rf, .page] s (s.nvpWrite i off w) :=
  .ite (.ite ((does_nvpClr ..).next (.refl _ _) rfl) (.refl _ _)) ((does_fieldsWrite ..).next (.refl _ _) rfl)

theorem does_ethWrite (s : State) (i off w : Nat) : Does [.rf, .page] s (s.ethWrite i off w) :=
  .ite (.ite ((does_ethClr ..).next (.refl _ _) rfl) (.refl _ _)) ((does_fieldsWrite ..).next (.refl _ _) rfl)

theorem does_fabWrite (s : State) (h off w : Nat) : Does [.rf, .page, .rel] s (s.fabWrite h off w) :=
  .ite ((does_fabCtl ..).next (.refl _ _) rfl) (.ite ((does_injectWrite ..).next (.refl _ _) rfl) ((does_fieldsWrite ..).next (.refl _ _) rfl))

theorem does_blockWrite (s : State) (b : Blk) (i off w t : Nat) : Does (eventedAnd [.page, .pwr, .tio, .acq, .bank, .mem, .epo, .xf, .den, .tmp,
    .dsp, .clk, .ing, .svc, .ic, .dlb, .hk, .cmp, .freeCnt]) s (s.blockWrite b i off w t) := by
  unfold State.blockWrite
  split
  · exact (does_glbWrite ..).next (.refl _ _) rfl
  · exact (does_clkWrite ..).next (.refl _ _) rfl
  · exact (does_tmbWrite ..).next (.refl _ _) rfl
  · exact (does_pwrWrite ..).next (.refl _ _) rfl
  · exact (does_hkaWrite ..).next (.refl _ _) rfl
  · exact (does_cmpWrite ..).next (.refl _ _) rfl
  · exact (does_evaWrite ..).next (.refl _ _) rfl
  · exact (does_fieldsWrite ..).next (.refl _ _) rfl
  · exact (does_fieldsWrite ..).next (.refl _ _) rfl
  · exact (does_fieldsWrite ..).next (.refl _ _) rfl
  · exact (does_svcWrite ..).next (.refl _ _) rfl
  · exact (does_vglWrite ..).next (.refl _ _) rfl
  · exact (does_lnkWrite ..).next (.refl _ _) rfl
  · exact (does_lqdWrite ..).next (.refl _ _) rfl
  · exact (does_dlbWrite ..).next (.refl _ _) rfl
  · exact (does_tioWrite ..).next (.refl _ _) rfl
  · exact (does_pciWrite ..).next (.refl _ _) rfl
  · exact (does_sltWrite ..).next (.refl _ _) rfl
  · exact (does_ctxWrite ..).next (.refl _ _) rfl
  · exact (does_xfpWrite ..).next (.refl _ _) rfl
  · exact (does_denWrite ..).next (.refl _ _) rfl
  · exact (does_acqWrite ..).next (.refl _ _) rfl
  · exact (does_trnWrite ..).next (.refl _ _) rfl
  · exact (does_truWrite ..).next (.refl _ _) rfl
  · exact (does_scrWrite ..).next (.refl _ _) rfl
  · exact (does_bnkWrite ..).next (.refl _ _) rfl
  · exact (does_dmaWrite ..).next (.refl _ _) rfl
  · exact (does_mchWrite ..).next (.refl _ _) rfl
  · exact (does_mstWrite ..).next (.refl _ _) rfl
  · exact (does_dspWrite ..).next (.refl _ _) rfl
  · exact (does_nvpWrite ..).next (.refl _ _) rfl
  · exact (does_ethWrite ..).next (.refl _ _) rfl
  · exact (does_fabWrite ..).next (.refl _ _) rfl

theorem does_headWrite (s : State) (p off w t : Nat) : Does (eventedAnd [.page, .tio, .cmp]) s (s.headWrite p off w t) :=
  .ite ((does_pgCtl ..).next (.refl _ _) rfl) (.ite ((does_evPendWrite ..).next (.refl _ _) rfl) (.ite ((does_evEnWrite ..).next (.refl _ _) rfl)
      (.ite ((does_shCtlWrite ..).next (.refl _ _) rfl) (.refl _ _))))

theorem does_regWrite (s : State) (p off w t : Nat) : Does (eventedAnd [.page, .pwr, .tio, .acq, .bank, .mem, .epo, .xf, .den, .tmp, .dsp, .clk,
    .ing, .svc, .ic, .dlb, .hk, .cmp, .freeCnt]) s (s.regWrite p off w t) := by
  unfold State.regWrite
  refine .ite ((does_headWrite ..).next (.refl _ _) rfl) ?_
  split
  · exact (does_blockWrite ..).next (.refl _ _) rfl
  · exact .refl _ _

theorem does_bar0Write (s : State) (off len data t : Nat) : Does (eventedAnd [.page, .pwr, .tio, .acq, .bank, .mem, .epo, .xf, .den, .tmp, .dsp,
    .clk, .ing, .svc, .ic, .dlb, .hk, .cmp, .freeCnt]) s (s.bar0Write off len data t) :=
  .ite ((does_accErr ..).next (.refl _ _) rfl) (.ite (.ite ((does_regWrite ..).next (.refl _ _) rfl) (.ite (.refl _ _) ((does_accErr ..).next
      (.refl _ _) rfl))) (.ite ((does_accErr ..).next (.refl _ _) rfl) ((does_accErr ..).next (.refl _ _) rfl)))

theorem does_bar0Read (s : State) (off len : Nat) : Does evented s (s.bar0Read off len).2 := by
  unfold State.bar0Read
  extract_lets p
  split
  · exact (does_accErr ..).next (.refl _ _) rfl
  · split
    · exact .refl _ _
    · split
      · exact .refl _ _
      · exact (does_accErr ..).next (.refl _ _) rfl

theorem does_bar0Answer (s : State) (off len : Nat) : Does evented s (s.bar0Answer off len) := by
  unfold State.bar0Answer
  extract_lets x
  refine .via x.2 ((does_bar0Read ..).next (.refl _ _) rfl) fun hx => ?_
  exact (does_emit ..).next hx rfl

theorem does_bar0Access (s : State) (h : Held) (t : Nat) : Does (eventedAnd [.page, .pwr, .tio, .acq, .bank, .mem, .epo, .xf, .den, .tmp, .dsp,
    .clk, .ing, .svc, .ic, .dlb, .hk, .cmp, .freeCnt]) s (s.bar0Access h t) :=
  .ite ((does_hold ..).next (.refl _ _) rfl) (.ite (.ite (.refl _ _) ((does_emit ..).next (.refl _ _) rfl)) (.ite ((does_bar0Write ..).next (.refl
      _ _) rfl) ((does_bar0Answer ..).next (.refl _ _) rfl)))

theorem does_replayHeld (s : State) (t : Nat) : Does (eventedAnd [.page, .pwr, .tio, .acq, .bank, .mem, .epo, .xf, .den, .tmp, .dsp, .clk, .ing,
    .svc, .ic, .dlb, .hk, .cmp, .freeCnt]) s (s.replayHeld t) :=
  .each _ (.page (.refl _ _) rfl) fun _ _ h => (does_bar0Access ..).next h rfl

theorem does_execRegisterWrite (t : Nat) (off : BitVec 24) (len data : Nat) (s : State) : Answers (eventedAnd [.tick, .upTime, .page, .pwr, .tio,
    .acq, .bank, .mem, .epo, .xf, .den, .tmp, .dsp, .clk, .ing, .svc, .ic, .dlb, .hk, .cmp, .freeCnt]) s (execRegisterWrite t off len data s) :=
  ⟨_, rfl, (does_bar0Access ..).next ((does_advance ..).next (.refl _ _) rfl) rfl⟩

theorem does_execBar0FlaggedRead (t : Nat) (off : BitVec 24) (len : Nat) (s : State) : Answers (eventedAnd [.tick, .upTime, .page, .pwr, .tio,
    .acq, .bank, .mem, .epo, .xf, .den, .tmp, .dsp, .clk, .ing, .svc, .ic, .dlb, .hk, .cmp, .freeCnt]) s (execBar0FlaggedRead t off len s) :=
  ⟨_, rfl, (does_bar0Access ..).next ((does_advance ..).next (.refl _ _) rfl) rfl⟩

theorem does_execBar0BurstRequest (t : Nat) (write : Bool) (off : BitVec 24) (bytes : List Byte) (s : State) :
    Answers (eventedAnd [.tick, .upTime, .page, .pwr, .tio, .acq, .bank, .mem, .epo, .xf, .den, .tmp, .dsp, .clk, .ing, .svc, .ic, .dlb, .hk, .cmp,
        .freeCnt]) s (execBar0BurstRequest t write off bytes s) := by
  unfold execBar0BurstRequest
  extract_lets s₁ o units r
  refine ⟨_, rfl, ?_⟩
  refine .via s₁ ((does_advance ..).next (.refl _ _) rfl) fun h₁ => ?_
  refine .via r.2 (.foldlSnd _ h₁ fun _ _ h => (does_bar0Read ..).next h rfl) fun hr => ?_
  exact .ite ((does_emit ..).next h₁ rfl) (.ite (.each _ h₁ fun _ _ h => (does_bar0Access ..).next h rfl)
    (.ite (.each _ h₁ fun _ _ h => (does_hold ..).next h rfl) (.ite ((does_emit ..).next h₁ rfl) ((does_emit ..).next hr rfl))))

/-! Operations of Machine/Release. -/

theorem does_shiftGap (s : State) (gap : Nat) : Does [.page, .rel, .core, .bank, .epo, .trg, .xf, .den, .tmp, .hk, .cmp] s (s.shiftGap gap) :=
  .put ((does_shiftWhere s (fun _ _ => true) gap).next (.refl _ _) rfl) rfl rfl (by simp [only_iff, State.shiftGap])

theorem does_chansRelease (s : State) : Does [.rf] s s.chansRelease :=
  .each _ (.refl _ _) fun _ _ h => (does_wakeChan ..).next h rfl

theorem does_execReleased (t : Nat) (s : State) : Answers (eventedAnd [.tick, .upTime, .page, .pwr, .tio, .acq, .bank, .mem, .epo, .xf, .den, .tmp,
    .dsp, .clk, .ing, .svc, .ic, .dlb, .hk, .cmp, .freeCnt]) s (execReleased t s) := by
  refine ⟨_, rfl, ?_⟩
  refine .ite ((does_advance ..).next (.refl _ _) rfl) ?_
  extract_lets first gap s₁ s₂ s₃ heads s₄ s₅
  refine .via s₁ ((does_release ..).next ((does_advance ..).next (.refl _ _) rfl) rfl) fun h₁ => ?_
  refine .via s₂ ((does_chansRelease ..).next (.each _ ((does_shiftGap ..).next h₁ rfl) fun _ _ h => (does_freqEnd ..).next h rfl) rfl) fun h₂ => ?_
  refine .via s₃ (.ite ((does_migResume ..).next h₂ rfl) h₂) fun h₃ => ?_
  refine .via s₄ (.each _ h₃ fun _ _ h => (does_setDspHead ..).next h rfl) fun h₄ => ?_
  refine .via s₅ ((does_serveHeld ..).next ((does_triggerRelease ..).next h₄ rfl) rfl) fun h₅ => ?_
  exact .ite (.ite ((does_stepSix ..).next h₁ rfl) h₁) (.ite ((does_replayHeld ..).next h₅ rfl) h₅)

theorem does_ringsClear (s : State) : Does [.rf, .svc] s s.ringsClear :=
  .each _ (.svc (.refl _ _) rfl) fun _ _ h => (does_wrs ..).next h rfl

theorem does_resumeLive (s : State) : Does (eventedAnd [.page, .epo, .ing]) s s.resumeLive := by
  unfold State.resumeLive
  split
  · exact .refl _ _
  · exact .ite (.refl _ _) ((does_parkLinks ..).next ((does_wakeBlocks ..).next (.epo ((does_eqxSet ..).next (.refl _ _) rfl) rfl) rfl) rfl)

theorem does_readyMark (s : State) :
    Does [.rel, .boot] s { s with boot := { s.boot with readyAt := s.tick }, rel := { s.rel with scKick := s.tick } } :=
  .put (.refl _ _) rfl rfl (by simp [only_iff])

theorem does_execBootReady (t : Nat) (s : State) : Answers (eventedAnd [.tick, .upTime, .page, .pwr, .tio, .acq, .bank, .mem, .epo, .xf, .den,
    .tmp, .dsp, .flash, .boot, .clk, .ing, .svc, .ic, .dlb, .hk, .cmp, .freeCnt]) s (execBootReady t s) := by
  unfold execBootReady
  extract_lets s₁ glb s₂ s₃ s₄ bt rel s₅ s₆ s₇
  refine ⟨_, rfl, ?_⟩
  refine .via s₁ ((does_advance ..).next (.refl _ _) rfl) fun h₁ => ?_
  refine .via s₂ (.each _ h₁ fun _ _ h => (does_setPstateAct ..).next ((does_setPstate ..).next ((does_enable ..).next h rfl) rfl) rfl) fun h₂ => ?_
  refine .via s₃ ((does_ringsClear ..).next h₂ rfl) fun h₃ => ?_
  refine .via s₄ ((does_wrs ..).next h₃ rfl) fun h₄ => ?_
  refine .via s₅ ((does_readyMark ..).next h₄ rfl) fun h₅ => ?_
  refine .via s₆ ((does_hkSet ..).next ((does_fuseReady ..).next h₅ rfl) rfl) fun h₆ => ?_
  refine .via s₇ ((does_eventIf ..).next ((does_event ..).next h₆ rfl) rfl) fun h₇ => ?_
  exact .ite h₁ ((does_replayHeld ..).next ((does_resumeLive ..).next h₇ rfl) rfl)

/-- Every command answers a next state, changes no part but those that `partsOf` lists for it, and keeps both canonical forms. -/
theorem exec_answers (c : Instr) (s : State) : Answers (partsOf c) s (exec c s) := by
  cases c with
  | registerWrite => exact .mono (does_execRegisterWrite ..) rfl
  | bar0FlaggedRead => exact .mono (does_execBar0FlaggedRead ..) rfl
  | bar0BurstRequest => exact .mono (does_execBar0BurstRequest ..) rfl
  | bar0HoldTimeout => exact .mono (does_execBar0HoldTimeout ..) rfl
  | accErrLogClear => exact .mono (does_execAccErrLogClear ..) rfl
  | pgEnable => exact .mono (does_execPgEnable ..) rfl
  | blockStop => exact .mono (does_execBlockStop ..) rfl
  | pgSrst => exact .mono (does_execPgSrst ..) rfl
  | blockResetDone => exact .mono (does_execBlockResetDone ..) rfl
  | pstateRequest => exact .mono (does_execPstateRequest ..) rfl
  | pstateDone => exact .mono (does_execPstateDone ..) rfl
  | evPendClear => exact .mono (does_execEvPendClear ..) rfl
  | evEnWrite => exact .mono (does_execEvEnWrite ..) rfl
  | shadowCommit => exact .mono (does_execShadowCommit ..) rfl
  | shadowAbort => exact .mono (does_execShadowAbort ..) rfl
  | shadowApply => exact .mono (does_execShadowApply ..) rfl
  | railUp => exact .mono (does_execRailUp ..) rfl
  | railDown us rail below hbm =>
    exact .mono (does_execRailDown us rail below hbm ..) rfl
  | railMissing => exact .mono (does_execRailMissing ..) rfl
  | porNRelease us =>
    exact .mono (does_execPorNRelease us ..) rfl
  | porNAssert us =>
    exact .mono (does_execPorNAssert us ..) rfl
  | coldStart => exact .mono (does_execColdStart ..) rfl
  | avsSet => exact .mono (does_execAvsSet ..) rfl
  | avsPoll => exact .mono (does_execAvsPoll ..) rfl
  | avsFail => exact .mono (does_execAvsFail ..) rfl
  | railWarn => exact .mono (does_execRailWarn ..) rfl
  | railFault t rail above =>
    exact .mono (does_execRailFault t rail above ..) rfl
  | thermTrip => exact .mono (does_execThermTrip ..) rfl
  | shortDetect => exact .mono (does_execShortDetect ..) rfl
  | shortRetry => exact .mono (does_execShortRetry ..) rfl
  | retryNow => exact .mono (does_execRetryNow ..) rfl
  | outFltDetDisable => exact .mono (does_execOutFltDetDisable ..) rfl
  | owStart => exact .mono (does_execOwStart ..) rfl
  | owPeriodicPass => exact .mono (does_execOwPeriodicPass ..) rfl
  | owPinTest => exact .mono (does_execOwPinTest ..) rfl
  | seqStatClear => exact .mono (does_execSeqStatClear ..) rfl
  | smbReadSeqStat => exact .mono (does_execSmbReadSeqStat ..) rfl
  | smbReadRailStat => exact .mono (does_execSmbReadRailStat ..) rfl
  | smbReadCoreTelem => exact .mono (does_execSmbReadCoreTelem ..) rfl
  | smbReadOutFltStat => exact .mono (does_execSmbReadOutFltStat ..) rfl
  | smbAlertRelease => exact .mono (does_execSmbAlertRelease ..) rfl
  | smbSeqClear => exact .mono (does_execSmbSeqClear ..) rfl
  | smbAlertResponse => exact .mono (does_execSmbAlertResponse ..) rfl
  | smbUnknownCommand => exact .mono (does_execSmbUnknownCommand ..) rfl
  | refLost => exact .mono (does_execRefLost ..) rfl
  | refPresent => exact .mono (does_execRefPresent ..) rfl
  | relock => exact .mono (does_execRelock ..) rfl
  | phaseLockDetect => exact .mono (does_execPhaseLockDetect ..) rfl
  | frequencyCheckDone => exact .mono (does_execFrequencyCheckDone ..) rfl
  | sysrefWaitExpiry => exact .mono (does_execSysrefWaitExpiry ..) rfl
  | released => exact .mono (does_execReleased ..) rfl
  | lockLost => exact .mono (does_execLockLost ..) rfl
  | bandCal => exact .mono (does_execBandCal ..) rfl
  | bandCalDone => exact .mono (does_execBandCalDone ..) rfl
  | lockRetry => exact .mono (does_execLockRetry ..) rfl
  | gateHoldClear => exact .mono (does_execGateHoldClear ..) rfl
  | ftrimWrite => exact .mono (does_execFtrimWrite ..) rfl
  | trimStep => exact .mono (does_execTrimStep ..) rfl
  | sysrefEdge => exact .mono (does_execSysrefEdge ..) rfl
  | sysrefArm => exact .mono (does_execSysrefArm ..) rfl
  | timebaseSnap => exact .mono (does_execTimebaseSnap ..) rfl
  | romVerifyDone => exact .mono (does_execRomVerifyDone ..) rfl
  | pcieLinkTrained => exact .mono (does_execPcieLinkTrained ..) rfl
  | hbmStartTrainingDone => exact .mono (does_execHbmStartTrainingDone ..) rfl
  | bankClearDone => exact .mono (does_execBankClearDone ..) rfl
  | bootReady => exact .mono (does_execBootReady ..) rfl
  | rstNAssert => exact .mono (does_execRstNAssert ..) rfl
  | pcieHotReset => exact .mono (does_execPcieHotReset ..) rfl
  | pePerstNAssert => exact .mono (does_execPePerstNAssert ..) rfl
  | laneCdrLock => exact .mono (does_execLaneCdrLock ..) rfl
  | blockLock => exact .mono (does_execBlockLock ..) rfl
  | embLock => exact .mono (does_execEmbLock ..) rfl
  | blockLockLost => exact .mono (does_execBlockLockLost ..) rfl
  | embLockLost => exact .mono (does_execEmbLockLost ..) rfl
  | releasePoint => exact .mono (does_execReleasePoint ..) rfl
  | linkWdExpiry => exact .mono (does_execLinkWdExpiry ..) rfl
  | elasticBufferOverflow => exact .mono (does_execElasticBufferOverflow ..) rfl
  | multiblockReceive => exact .mono (does_execMultiblockReceive ..) rfl
  | frameDelivery => exact .mono (does_execFrameDelivery ..) rfl
  | overrangeEpisodeEnd => exact .mono (does_execOverrangeEpisodeEnd ..) rfl
  | laneCntClear => exact .mono (does_execLaneCntClear ..) rfl
  | linkErrClear => exact .mono (does_execLinkErrClear ..) rfl
  | slotClear => exact .mono (does_execSlotClear ..) rfl
  | tier0Update => exact .mono (does_execTier0Update ..) rfl
  | calTier1 => exact .mono (does_execCalTier1 ..) rfl
  | t1RunStart => exact .mono (does_execT1RunStart ..) rfl
  | t1Window1End => exact .mono (does_execT1Window1End ..) rfl
  | t1Window2End => exact .mono (does_execT1Window2End ..) rfl
  | t1WaitExpiry => exact .mono (does_execT1WaitExpiry ..) rfl
  | frameReady => exact .mono (does_execFrameReady ..) rfl
  | pipelineReadEnd => exact .mono (does_execPipelineReadEnd ..) rfl
  | frameEmit => exact .mono (does_execFrameEmit ..) rfl
  | overloadClear => exact .mono (does_execOverloadClear ..) rfl
  | xfpClr => exact .mono (does_execXfpClr ..) rfl
  | xfpLoadUpdate => exact .mono (does_execXfpLoadUpdate ..) rfl
  | contextSwitch => exact .mono (does_execContextSwitch ..) rfl
  | densityTraceAccept => exact .mono (does_execDensityTraceAccept ..) rfl
  | densityUpdate => exact .mono (does_execDensityUpdate ..) rfl
  | decayPassStart => exact .mono (does_execDecayPassStart ..) rfl
  | decayPassEnd => exact .mono (does_execDecayPassEnd ..) rfl
  | densityClear => exact .mono (does_execDensityClear ..) rfl
  | denClr => exact .mono (does_execDenClr ..) rfl
  | tmpReadoutStart => exact .mono (does_execTmpReadoutStart ..) rfl
  | tmpFlip => exact .mono (does_execTmpFlip ..) rfl
  | tmpWriteErr => exact .mono (does_execTmpWriteErr ..) rfl
  | levelSourceTransition => exact .mono (does_execLevelSourceTransition ..) rfl
  | trigInEdge => exact .mono (does_execTrigInEdge ..) rfl
  | trigInAccept => exact .mono (does_execTrigInAccept ..) rfl
  | schedPulse => exact .mono (does_execSchedPulse ..) rfl
  | truInputChange => exact .mono (does_execTruInputChange ..) rfl
  | truStretchEnd => exact .mono (does_execTruStretchEnd ..) rfl
  | truPrimeExpire => exact .mono (does_execTruPrimeExpire ..) rfl
  | truHoldoffEnd => exact .mono (does_execTruHoldoffEnd ..) rfl
  | truForce => exact .mono (does_execTruForce ..) rfl
  | truClr => exact .mono (does_execTruClr ..) rfl
  | truResetState => exact .mono (does_execTruResetState ..) rfl
  | coincGroupClose => exact .mono (does_execCoincGroupClose ..) rfl
  | trigOutWidthEnd => exact .mono (does_execTrigOutWidthEnd ..) rfl
  | poutClr => exact .mono (does_execPoutClr ..) rfl
  | trnClr => exact .mono (does_execTrnClr ..) rfl
  | freeRunTrigger => exact .mono (does_execFreeRunTrigger ..) rfl
  | capArm => exact .mono (does_execCapArm ..) rfl
  | capDisarm => exact .mono (does_execCapDisarm ..) rfl
  | capRelease => exact .mono (does_execCapRelease ..) rfl
  | eveFull => exact .mono (does_execEveFull ..) rfl
  | captureEnd => exact .mono (does_execCaptureEnd ..) rfl
  | heldRearm => exact .mono (does_execHeldRearm ..) rfl
  | streamWriteResume => exact .mono (does_execStreamWriteResume ..) rfl
  | backpressureEnd => exact .mono (does_execBackpressureEnd ..) rfl
  | recordQueueFree => exact .mono (does_execRecordQueueFree ..) rfl
  | acctSnapshot => exact .mono (does_execAcctSnapshot ..) rfl
  | acqClr => exact .mono (does_execAcqClr ..) rfl
  | ringDoorbell => exact .mono (does_execRingDoorbell ..) rfl
  | cqHeadRelease => exact .mono (does_execCqHeadRelease ..) rfl
  | commandFetch => exact .mono (does_execCommandFetch ..) rfl
  | completionWrite => exact .mono (does_execCompletionWrite ..) rfl
  | getInfo => exact .mono (does_execGetInfo ..) rfl
  | loadEpoch => exact .mono (does_execLoadEpoch ..) rfl
  | loadEpochDone => exact .mono (does_execLoadEpochDone ..) rfl
  | scheduleEquinox => exact .mono (does_execScheduleEquinox ..) rfl
  | revertEpoch => exact .mono (does_execRevertEpoch ..) rfl
  | attest => exact .mono (does_execAttest ..) rfl
  | attestDone => exact .mono (does_execAttestDone ..) rfl
  | fwStage => exact .mono (does_execFwStage ..) rfl
  | fwStageDone => exact .mono (does_execFwStageDone ..) rfl
  | fwActivate => exact .mono (does_execFwActivate ..) rfl
  | serviceRestart => exact .mono (does_execServiceRestart ..) rfl
  | serviceRestartReady => exact .mono (does_execServiceRestartReady ..) rfl
  | getHealth => exact .mono (does_execGetHealth ..) rfl
  | recOpen => exact .mono (does_execRecOpen ..) rfl
  | recOpenDone => exact .mono (does_execRecOpenDone ..) rfl
  | recStart => exact .mono (does_execRecStart ..) rfl
  | recScheduledStart => exact .mono (does_execRecScheduledStart ..) rfl
  | recStop => exact .mono (does_execRecStop ..) rfl
  | recStopDone => exact .mono (does_execRecStopDone ..) rfl
  | recClose => exact .mono (does_execRecClose ..) rfl
  | netStreamCfg => exact .mono (does_execNetStreamCfg ..) rfl
  | netStreamCtl => exact .mono (does_execNetStreamCtl ..) rfl
  | ptpCfg => exact .mono (does_execPtpCfg ..) rfl
  | ptpStatus => exact .mono (does_execPtpStatus ..) rfl
  | migrateStatus => exact .mono (does_execMigrateStatus ..) rfl
  | failmapRead => exact .mono (does_execFailmapRead ..) rfl
  | hkSequence => exact .mono (does_execHkSequence ..) rfl
  | selftest => exact .mono (does_execSelftest ..) rfl
  | selftestDone => exact .mono (does_execSelftestDone ..) rfl
  | invalidOpcode => exact .mono (does_execInvalidOpcode ..) rfl
  | bar2Read => exact .mono (does_execBar2Read ..) rfl
  | bar2Write => exact .mono (does_execBar2Write ..) rfl
  | bar2Resize => exact .mono (does_execBar2Resize ..) rfl
  | nvmeCmdComplete => exact .mono (does_execNvmeCmdComplete ..) rfl
  | nvmeCmdTimeout => exact .mono (does_execNvmeCmdTimeout ..) rfl
  | recorderFlush => exact .mono (does_execRecorderFlush ..) rfl
  | recorderProgressWd => exact .mono (does_execRecorderProgressWd ..) rfl
  | drainRead => exact .mono (does_execDrainRead ..) rfl
  | vitaPacketSend => exact .mono (does_execVitaPacketSend ..) rfl
  | almanacPacketTimeout => exact .mono (does_execAlmanacPacketTimeout ..) rfl
  | contextPacketPeriod => exact .mono (does_execContextPacketPeriod ..) rfl
  | ethLinkDown => exact .mono (does_execEthLinkDown ..) rfl
  | ethLinkUp => exact .mono (does_execEthLinkUp ..) rfl
  | ethRxFrame => exact .mono (does_execEthRxFrame ..) rfl
  | ptpMessageRx => exact .mono (does_execPtpMessageRx ..) rfl
  | ptpServoCommit => exact .mono (does_execPtpServoCommit ..) rfl
  | ptpMasterLoss => exact .mono (does_execPtpMasterLoss ..) rfl
  | deltanSecondSend => exact .mono (does_execDeltanSecondSend ..) rfl
  | deltanSecondRx t seq rp tick sec ns frac flags crcOk inverted =>
    exact .mono (does_execDeltanSecondRx t seq rp tick sec ns frac flags crcOk inverted ..) rfl
  | deltanAnswerSend => exact .mono (does_execDeltanAnswerSend ..) rfl
  | deltanAnswerRx => exact .mono (does_execDeltanAnswerRx ..) rfl
  | deltanDelaySend => exact .mono (does_execDeltanDelaySend ..) rfl
  | deltanDelayRx => exact .mono (does_execDeltanDelayRx ..) rfl
  | deltanAnnounceSend => exact .mono (does_execDeltanAnnounceSend ..) rfl
  | deltanAnnounceRx => exact .mono (does_execDeltanAnnounceRx ..) rfl
  | deltanAckRx => exact .mono (does_execDeltanAckRx ..) rfl
  | deltanAckWindowClose => exact .mono (does_execDeltanAckWindowClose ..) rfl
  | tcLost => exact .mono (does_execTcLost ..) rfl
  | deltanTriggerEdge => exact .mono (does_execDeltanTriggerEdge ..) rfl
  | dlbMeasure => exact .mono (does_execDlbMeasure ..) rfl
  | pciClr => exact .mono (does_execPciClr ..) rfl
  | nvpClr => exact .mono (does_execNvpClr ..) rfl
  | ethClr => exact .mono (does_execEthClr ..) rfl
  | pcieLinkDown => exact .mono (does_execPcieLinkDown ..) rfl
  | frameStart => exact .mono (does_execFrameStart ..) rfl
  | lineFetch => exact .mono (does_execLineFetch ..) rfl
  | underrun => exact .mono (does_execUnderrun ..) rfl
  | tagChanged => exact .mono (does_execTagChanged ..) rfl
  | hpdChange => exact .mono (does_execHpdChange ..) rfl
  | linkTrainAttempt => exact .mono (does_execLinkTrainAttempt ..) rfl
  | linkTrainDone => exact .mono (does_execLinkTrainDone ..) rfl
  | linkTrainRetry => exact .mono (does_execLinkTrainRetry ..) rfl
  | headRetrain => exact .mono (does_execHeadRetrain ..) rfl
  | headClr => exact .mono (does_execHeadClr ..) rfl
  | auxGo => exact .mono (does_execAuxGo ..) rfl
  | auxDone => exact .mono (does_execAuxDone ..) rfl
  | gammaDataWrite => exact .mono (does_execGammaDataWrite ..) rfl
  | teEdge => exact .mono (does_execTeEdge ..) rfl
  | teMissing => exact .mono (does_execTeMissing ..) rfl
  | memoryRequest => exact .mono (does_execMemoryRequest ..) rfl
  | refreshDue => exact .mono (does_execRefreshDue ..) rfl
  | selfRefreshEntry => exact .mono (does_execSelfRefreshEntry ..) rfl
  | freqGo => exact .mono (does_execFreqGo ..) rfl
  | freqSwitchStart => exact .mono (does_execFreqSwitchStart ..) rfl
  | freqDone => exact .mono (does_execFreqDone ..) rfl
  | rowThrottleEnd => exact .mono (does_execRowThrottleEnd ..) rfl
  | periodicTraining => exact .mono (does_execPeriodicTraining ..) rfl
  | errorTraining => exact .mono (does_execErrorTraining ..) rfl
  | trainingDone => exact .mono (does_execTrainingDone ..) rfl
  | migrationStep => exact .mono (does_execMigrationStep ..) rfl
  | mchClr => exact .mono (does_execMchClr ..) rfl
  | xlateAddr => exact .mono (does_execXlateAddr ..) rfl
  | bankHandover => exact .mono (does_execBankHandover ..) rfl
  | handoverDone => exact .mono (does_execHandoverDone ..) rfl
  | bankAccess => exact .mono (does_execBankAccess ..) rfl
  | bankStarveLimit => exact .mono (does_execBankStarveLimit ..) rfl
  | depositRecord => exact .mono (does_execDepositRecord ..) rfl
  | spillGo => exact .mono (does_execSpillGo ..) rfl
  | spillDone => exact .mono (does_execSpillDone ..) rfl
  | dmaGo => exact .mono (does_execDmaGo ..) rfl
  | dmaAbort => exact .mono (does_execDmaAbort ..) rfl
  | dmaDone => exact .mono (does_execDmaDone ..) rfl
  | bnkClr => exact .mono (does_execBnkClr ..) rfl
  | opNop => exact .mono (does_execOpNop ..) rfl
  | opAdd => exact .mono (does_execOpAdd ..) rfl
  | opSub => exact .mono (does_execOpSub ..) rfl
  | opAnd => exact .mono (does_execOpAnd ..) rfl
  | opOr => exact .mono (does_execOpOr ..) rfl
  | opXor => exact .mono (does_execOpXor ..) rfl
  | opAndn => exact .mono (does_execOpAndn ..) rfl
  | opCmp => exact .mono (does_execOpCmp ..) rfl
  | opShl => exact .mono (does_execOpShl ..) rfl
  | opShr => exact .mono (does_execOpShr ..) rfl
  | opSar => exact .mono (does_execOpSar ..) rfl
  | opMin => exact .mono (does_execOpMin ..) rfl
  | opMax => exact .mono (does_execOpMax ..) rfl
  | opTst => exact .mono (does_execOpTst ..) rfl
  | opSel => exact .mono (does_execOpSel ..) rfl
  | opAddi => exact .mono (does_execOpAddi ..) rfl
  | opCmpi => exact .mono (does_execOpCmpi ..) rfl
  | opAndi => exact .mono (does_execOpAndi ..) rfl
  | opOri => exact .mono (does_execOpOri ..) rfl
  | opCadd => exact .mono (does_execOpCadd ..) rfl
  | opCsub => exact .mono (does_execOpCsub ..) rfl
  | opCsar => exact .mono (does_execOpCsar ..) rfl
  | opConj => exact .mono (does_execOpConj ..) rfl
  | opExt => exact .mono (does_execOpExt ..) rfl
  | opAcld => exact .mono (does_execOpAcld ..) rfl
  | opAcclr => exact .mono (does_execOpAcclr ..) rfl
  | opGeta => exact .mono (does_execOpGeta ..) rfl
  | opPuta => exact .mono (does_execOpPuta ..) rfl
  | opCmul => exact .mono (does_execOpCmul ..) rfl
  | opCmac => exact .mono (does_execOpCmac ..) rfl
  | opCjmul => exact .mono (does_execOpCjmul ..) rfl
  | opCjmac => exact .mono (does_execOpCjmac ..) rfl
  | opQmac => exact .mono (does_execOpQmac ..) rfl
  | opMaxi => exact .mono (does_execOpMaxi ..) rfl
  | opMini => exact .mono (does_execOpMini ..) rfl
  | opLd => exact .mono (does_execOpLd ..) rfl
  | opSt => exact .mono (does_execOpSt ..) rfl
  | opMov => exact .mono (does_execOpMov ..) rfl
  | opPload => exact .mono (does_execOpPload ..) rfl
  | opLi => exact .mono (does_execOpLi ..) rfl
  | opCnop => exact .mono (does_execOpCnop ..) rfl
  | opBr => exact .mono (does_execOpBr ..) rfl
  | opCall => exact .mono (does_execOpCall ..) rfl
  | opJr => exact .mono (does_execOpJr ..) rfl
  | opLoop => exact .mono (does_execOpLoop ..) rfl
  | opLoopr => exact .mono (does_execOpLoopr ..) rfl
  | opBreak => exact .mono (does_execOpBreak ..) rfl
  | opReti => exact .mono (does_execOpReti ..) rfl
  | opWait => exact .mono (does_execOpWait ..) rfl
  | opSetie => exact .mono (does_execOpSetie ..) rfl
  | opIllegal => exact .mono (does_execOpIllegal ..) rfl
  | interruptEntry => exact .mono (does_execInterruptEntry ..) rfl
  | windowLoadArrive => exact .mono (does_execWindowLoadArrive ..) rfl
  | timerCompare => exact .mono (does_execTimerCompare ..) rfl
  | irqCtlWrite => exact .mono (does_execIrqCtlWrite ..) rfl
  | evqRead => exact .mono (does_execEvqRead ..) rfl
  | bnkSelWrite => exact .mono (does_execBnkSelWrite ..) rfl
  | bnkOwnWr => exact .mono (does_execBnkOwnWr ..) rfl
  | bnkOwnRd => exact .mono (does_execBnkOwnRd ..) rfl
  | trigGo => exact .mono (does_execTrigGo ..) rfl
  | userGo => exact .mono (does_execUserGo ..) rfl
  | userRecordWrite => exact .mono (does_execUserRecordWrite ..) rfl
  | mbxInRead => exact .mono (does_execMbxInRead ..) rfl
  | mbxOutStore => exact .mono (does_execMbxOutStore ..) rfl
  | notify => exact .mono (does_execNotify ..) rfl
  | mbxInWrite => exact .mono (does_execMbxInWrite ..) rfl
  | scrHalt => exact .mono (does_execScrHalt ..) rfl
  | scrResume => exact .mono (does_execScrResume ..) rfl
  | scrStep => exact .mono (does_execScrStep ..) rfl
  | dbgDataAccess => exact .mono (does_execDbgDataAccess ..) rfl
  | scrClr => exact .mono (does_execScrClr ..) rfl
  | equinox => exact .mono (does_execEquinox ..) rfl
  | blockSwitch => exact .mono (does_execBlockSwitch ..) rfl
  | equinoxComplete => exact .mono (does_execEquinoxComplete ..) rfl
  | probationPass => exact .mono (does_execProbationPass ..) rfl
  | convGo => exact .mono (does_execConvGo ..) rfl
  | convStop => exact .mono (does_execConvStop ..) rfl
  | hkConversionResult => exact .mono (does_execHkConversionResult ..) rfl
  | calGo => exact .mono (does_execCalGo ..) rfl
  | hkCalDone => exact .mono (does_execHkCalDone ..) rfl
  | hkSequenceFrame => exact .mono (does_execHkSequenceFrame ..) rfl
  | cmpCrossing => exact .mono (does_execCmpCrossing ..) rfl
  | rampPeriodReset => exact .mono (does_execRampPeriodReset ..) rfl
  | cmpBlankEnd => exact .mono (does_execCmpBlankEnd ..) rfl
  | cmpEnableBlankEnd => exact .mono (does_execCmpEnableBlankEnd ..) rfl
  | cmpLatchClear => exact .mono (does_execCmpLatchClear ..) rfl
  | fabricParityError => exact .mono (does_execFabricParityError ..) rfl
  | replayResult => exact .mono (does_execReplayResult ..) rfl
  | hopRetrainDone => exact .mono (does_execHopRetrainDone ..) rfl
  | retrainNow => exact .mono (does_execRetrainNow ..) rfl
  | inject => exact .mono (does_execInject ..) rfl
  | fabClr => exact .mono (does_execFabClr ..) rfl
  | streamWdExpiry => exact .mono (does_execStreamWdExpiry ..) rfl
  | vecArm => exact .mono (does_execVecArm ..) rfl
  | routeWrite => exact .mono (does_execRouteWrite ..) rfl
  | scWdog => exact .mono (does_execScWdog ..) rfl
  | scWdKick => exact .mono (does_execScWdKick ..) rfl
  | thermStale => exact .mono (does_execThermStale ..) rfl
  | hcUpdate => exact .mono (does_execHcUpdate ..) rfl
  | avClr => exact .mono (does_execAvClr ..) rfl
  | warmResetRelease => exact .mono (does_execWarmResetRelease ..) rfl
  | recScheduledStop => exact .mono (does_execRecScheduledStop ..) rfl
  | streamScheduledStartStop => exact .mono (does_execStreamScheduledStartStop ..) rfl
  | bar2ReadHoldTimeout => exact .mono (does_execBar2ReadHoldTimeout ..) rfl
  | t1HoldExpiry => exact .mono (does_execT1HoldExpiry ..) rfl
  | ptpMessageSend => exact .mono (does_execPtpMessageSend ..) rfl
  | rootPortLinkDown => exact .mono (does_execRootPortLinkDown ..) rfl

end Sys2Proof.Machine
end

section
/-!
PROOF. The statements about every command: a step keeps both canonical forms (chapters 0 and 14), a command answers and changes no part but
those listed for it, and what a step and the state after reset are.
-/
namespace Sys2Proof.Machine

theorem Answers.gives {c : Instr} {s : State} (h : Answers (partsOf c) s (exec c s)) : Gives c s fun u => Only (partsOf c) s u := by
  obtain ⟨u, e, k⟩ := h
  exact ⟨u, e, k.only⟩

/-- A command keeps both canonical forms. -/
theorem inv_of_exec {c : Instr} {s u : State} (hs : s.Inv) (e : exec c s = .next u) : u.Inv := by
  obtain ⟨v, ev, h⟩ := exec_answers c s
  cases ev.symm.trans e
  exact ⟨h.regs hs.1, h.mem hs.2⟩

theorem step_cons {c : Instr} {l : List Instr} {s : State} (h : s.pending = c :: l) : step s = exec c { s with pending := l } := by
  unfold step
  rw [h]

theorem step_nil {s : State} (h : s.pending = []) : step s = .next s := by
  unfold step
  rw [h]

/-- Settles O54: the queue's state keeps the forms, and so does every command by `exec_answers`. -/
theorem stepsKeepCanonicalForm : Obligations.StepsKeepCanonicalForm := by
  unfold Obligations.StepsKeepCanonicalForm
  intro s u hs e
  cases hq : s.pending with
  | nil =>
    cases (step_nil hq).symm.trans e
    exact hs
  | cons c l => exact inv_of_exec (s := { s with pending := l }) hs ((step_cons hq).symm.trans e)

/-- Settles O55, by `exec_answers`. -/
theorem narrowCommandsOfThePathKeepOtherParts : Obligations.NarrowCommandsOfThePathKeepOtherParts := by
  unfold Obligations.NarrowCommandsOfThePathKeepOtherParts
  exact fun c s _ _ => (exec_answers c s).gives

/-- Settles O56, by `exec_answers`. -/
theorem narrowCommandsOfServicesAndUnitsKeepOtherParts : Obligations.NarrowCommandsOfServicesAndUnitsKeepOtherParts := by
  unfold Obligations.NarrowCommandsOfServicesAndUnitsKeepOtherParts
  exact fun c s _ _ => (exec_answers c s).gives

/-- Settles O57, by `exec_answers`. -/
theorem wideCommandsKeepOtherParts : Obligations.WideCommandsKeepOtherParts := by
  unfold Obligations.WideCommandsKeepOtherParts
  exact fun c s _ => (exec_answers c s).gives

/-- Settles O51: the two cases of the queue. -/
theorem stepRunsTheFrontCommand : Obligations.StepRunsTheFrontCommand := by
  unfold Obligations.StepRunsTheFrontCommand
  exact ⟨fun _ _ _ h => step_cons h, fun _ h => step_nil h⟩

/-- Settles O52: the register file and the memory after reset list nothing. -/
theorem resetStateHoldsResetValues : Obligations.ResetStateHoldsResetValues := by
  unfold Obligations.ResetStateHoldsResetValues
  exact ⟨fun _ _ => ⟨rfl, rfl⟩, rfl, rfl, rfl, fun _ => rfl⟩

/-- Settles O53: both maps are empty after reset. -/
theorem resetStateIsCanonical : Obligations.ResetStateIsCanonical := by
  unfold Obligations.ResetStateIsCanonical
  exact ⟨rfl, rfl⟩

end Sys2Proof.Machine
end

section
/-!
PROOF. What a field reads after the shared operations, and the parts that raising an event leaves as they were, named and tagged for `simp`.
-/
namespace Sys2Proof.Machine

/-! Reads. A field's value depends on the register file alone. -/

theorem rd_of_rf {s u : State} (h : u.rf = s.rf) (p : Nat) (f : Fld) : u.rd p f = s.rd p f := by
  unfold State.rd
  rw [h]

theorem rdA_of_rf {s u : State} (h : u.rf = s.rf) (p : Nat) (f : Fld) : u.rdA p f = s.rdA p f := by
  unfold State.rdA
  rw [h]

theorem on_of_rd {s u : State} {p : Nat} {f : Fld} (h : u.rd p f = s.rd p f) : u.on p f = s.on p f := by
  unfold State.on
  rw [h]

/-- A read after a write of another page. -/
theorem rd_wr_page {p q : Nat} {f g : Fld} (s : State) (v : Nat) (hf : f.placed) (hg : g.placed) (h : q ≠ p) :
    (s.wr p f v).rd q g = s.rd q g :=
  rd_wr_other s v hf hg fun e => h e.1

@[simp] theorem advance_rd (s : State) (t p : Nat) (f : Fld) : (s.advance t).rd p f = s.rd p f := rd_advance t p f
@[simp] theorem on_advance (s : State) (t p : Nat) (f : Fld) : (s.advance t).on p f = s.on p f := on_of_rd (rd_advance t p f)
@[simp] theorem rd_emit (s : State) (o : Output) (p : Nat) (f : Fld) : (s.emit o).rd p f = s.rd p f := rfl
@[simp] theorem on_emit (s : State) (o : Output) (p : Nat) (f : Fld) : (s.emit o).on p f = s.on p f := rfl
@[simp] theorem emit_out (s : State) (o : Output) : (s.emit o).out = o :: s.out := rfl
@[simp] theorem rd_occur (s : State) (a b p : Nat) (f : Fld) : (s.occur a b).rd p f = s.rd p f := rfl

/-! Raising an event. -/

section
variable {s u : State} (h : EvStep s u)
include h
theorem EvStep.tick : u.tick = s.tick := by rw [h.rest]
theorem EvStep.upTime : u.upTime = s.upTime := by rw [h.rest]
theorem EvStep.page : u.page = s.page := by rw [h.rest]
theorem EvStep.pwr : u.pwr = s.pwr := by rw [h.rest]
theorem EvStep.tio : u.tio = s.tio := by rw [h.rest]
theorem EvStep.acq : u.acq = s.acq := by rw [h.rest]
theorem EvStep.bank : u.bank = s.bank := by rw [h.rest]
theorem EvStep.mem : u.mem = s.mem := by rw [h.rest]
theorem EvStep.epo : u.epo = s.epo := by rw [h.rest]
theorem EvStep.xf : u.xf = s.xf := by rw [h.rest]
theorem EvStep.den : u.den = s.den := by rw [h.rest]
theorem EvStep.tmp : u.tmp = s.tmp := by rw [h.rest]
theorem EvStep.dsp : u.dsp = s.dsp := by rw [h.rest]
theorem EvStep.ptp : u.ptp = s.ptp := by rw [h.rest]
theorem EvStep.flash : u.flash = s.flash := by rw [h.rest]
theorem EvStep.boot : u.boot = s.boot := by rw [h.rest]
theorem EvStep.clk : u.clk = s.clk := by rw [h.rest]
theorem EvStep.ing : u.ing = s.ing := by rw [h.rest]
theorem EvStep.svc : u.svc = s.svc := by rw [h.rest]
theorem EvStep.ic : u.ic = s.ic := by rw [h.rest]
theorem EvStep.net : u.net = s.net := by rw [h.rest]
theorem EvStep.dlb : u.dlb = s.dlb := by rw [h.rest]
theorem EvStep.hk : u.hk = s.hk := by rw [h.rest]
theorem EvStep.cmp : u.cmp = s.cmp := by rw [h.rest]
theorem EvStep.pending : u.pending = s.pending := by rw [h.rest]
theorem EvStep.freeCnt : u.freeCnt = s.freeCnt := by rw [h.rest]

theorem EvStep.rd {p : Nat} {f : Fld} (hf : f.placed) (he : evReg p f.off = false) : u.rd p f = s.rd p f := (h.reads p f hf he).1

theorem EvStep.on {p : Nat} {f : Fld} (hf : f.placed) (he : evReg p f.off = false) : u.on p f = s.on p f := on_of_rd (h.rd hf he)
end

section
variable (s : State) (c v : Bool) (b : Blk) (i k : Nat)
@[simp] theorem event_tick : (s.event b i k).tick = s.tick := (evStep_event s b i k).tick
@[simp] theorem event_upTime : (s.event b i k).upTime = s.upTime := (evStep_event s b i k).upTime
@[simp] theorem event_page : (s.event b i k).page = s.page := (evStep_event s b i k).page
@[simp] theorem event_pwr : (s.event b i k).pwr = s.pwr := (evStep_event s b i k).pwr
@[simp] theorem event_tio : (s.event b i k).tio = s.tio := (evStep_event s b i k).tio
@[simp] theorem event_acq : (s.event b i k).acq = s.acq := (evStep_event s b i k).acq
@[simp] theorem event_bank : (s.event b i k).bank = s.bank := (evStep_event s b i k).bank
@[simp] theorem event_mem : (s.event b i k).mem = s.mem := (evStep_event s b i k).mem
@[simp] theorem event_epo : (s.event b i k).epo = s.epo := (evStep_event s b i k).epo
@[simp] theorem event_xf : (s.event b i k).xf = s.xf := (evStep_event s b i k).xf
@[simp] theorem event_den : (s.event b i k).den = s.den := (evStep_event s b i k).den
@[simp] theorem event_tmp : (s.event b i k).tmp = s.tmp := (evStep_event s b i k).tmp
@[simp] theorem event_dsp : (s.event b i k).dsp = s.dsp := (evStep_event s b i k).dsp
@[simp] theorem event_ptp : (s.event b i k).ptp = s.ptp := (evStep_event s b i k).ptp
@[simp] theorem event_flash : (s.event b i k).flash = s.flash := (evStep_event s b i k).flash
@[simp] theorem event_boot : (s.event b i k).boot = s.boot := (evStep_event s b i k).boot
@[simp] theorem event_clk : (s.event b i k).clk = s.clk := (evStep_event s b i k).clk
@[simp] theorem event_ing : (s.event b i k).ing = s.ing := (evStep_event s b i k).ing
@[simp] theorem event_svc : (s.event b i k).svc = s.svc := (evStep_event s b i k).svc
@[simp] theorem event_ic : (s.event b i k).ic = s.ic := (evStep_event s b i k).ic
@[simp] theorem event_net : (s.event b i k).net = s.net := (evStep_event s b i k).net
@[simp] theorem event_dlb : (s.event b i k).dlb = s.dlb := (evStep_event s b i k).dlb
@[simp] theorem event_hk : (s.event b i k).hk = s.hk := (evStep_event s b i k).hk
@[simp] theorem event_cmp : (s.event b i k).cmp = s.cmp := (evStep_event s b i k).cmp
@[simp] theorem event_pending : (s.event b i k).pending = s.pending := (evStep_event s b i k).pending
@[simp] theorem event_freeCnt : (s.event b i k).freeCnt = s.freeCnt := (evStep_event s b i k).freeCnt
theorem rd_event {p : Nat} {f : Fld} (hf : f.placed) (he : evReg p f.off = false) : (s.event b i k).rd p f = s.rd p f := (evStep_event s b i k).rd hf he
theorem on_event {p : Nat} {f : Fld} (hf : f.placed) (he : evReg p f.off = false) : (s.event b i k).on p f = s.on p f := (evStep_event s b i k).on hf he
@[simp] theorem eventIf_tick : (s.eventIf c b i k).tick = s.tick := (evStep_eventIf s c b i k).tick
@[simp] theorem eventIf_upTime : (s.eventIf c b i k).upTime = s.upTime := (evStep_eventIf s c b i k).upTime
@[simp] theorem eventIf_page : (s.eventIf c b i k).page = s.page := (evStep_eventIf s c b i k).page
@[simp] theorem eventIf_pwr : (s.eventIf c b i k).pwr = s.pwr := (evStep_eventIf s c b i k).pwr
@[simp] theorem eventIf_tio : (s.eventIf c b i k).tio = s.tio := (evStep_eventIf s c b i k).tio
@[simp] theorem eventIf_acq : (s.eventIf c b i k).acq = s.acq := (evStep_eventIf s c b i k).acq
@[simp] theorem eventIf_bank : (s.eventIf c b i k).bank = s.bank := (evStep_eventIf s c b i k).bank
@[simp] theorem eventIf_mem : (s.eventIf c b i k).mem = s.mem := (evStep_eventIf s c b i k).mem
@[simp] theorem eventIf_epo : (s.eventIf c b i k).epo = s.epo := (evStep_eventIf s c b i k).epo
@[simp] theorem eventIf_xf : (s.eventIf c b i k).xf = s.xf := (evStep_eventIf s c b i k).xf
@[simp] theorem eventIf_den : (s.eventIf c b i k).den = s.den := (evStep_eventIf s c b i k).den
@[simp] theorem eventIf_tmp : (s.eventIf c b i k).tmp = s.tmp := (evStep_eventIf s c b i k).tmp
@[simp] theorem eventIf_dsp : (s.eventIf c b i k).dsp = s.dsp := (evStep_eventIf s c b i k).dsp
@[simp] theorem eventIf_ptp : (s.eventIf c b i k).ptp = s.ptp := (evStep_eventIf s c b i k).ptp
@[simp] theorem eventIf_flash : (s.eventIf c b i k).flash = s.flash := (evStep_eventIf s c b i k).flash
@[simp] theorem eventIf_boot : (s.eventIf c b i k).boot = s.boot := (evStep_eventIf s c b i k).boot
@[simp] theorem eventIf_clk : (s.eventIf c b i k).clk = s.clk := (evStep_eventIf s c b i k).clk
@[simp] theorem eventIf_ing : (s.eventIf c b i k).ing = s.ing := (evStep_eventIf s c b i k).ing
@[simp] theorem eventIf_svc : (s.eventIf c b i k).svc = s.svc := (evStep_eventIf s c b i k).svc
@[simp] theorem eventIf_ic : (s.eventIf c b i k).ic = s.ic := (evStep_eventIf s c b i k).ic
@[simp] theorem eventIf_net : (s.eventIf c b i k).net = s.net := (evStep_eventIf s c b i k).net
@[simp] theorem eventIf_dlb : (s.eventIf c b i k).dlb = s.dlb := (evStep_eventIf s c b i k).dlb
@[simp] theorem eventIf_hk : (s.eventIf c b i k).hk = s.hk := (evStep_eventIf s c b i k).hk
@[simp] theorem eventIf_cmp : (s.eventIf c b i k).cmp = s.cmp := (evStep_eventIf s c b i k).cmp
@[simp] theorem eventIf_pending : (s.eventIf c b i k).pending = s.pending := (evStep_eventIf s c b i k).pending
@[simp] theorem eventIf_freeCnt : (s.eventIf c b i k).freeCnt = s.freeCnt := (evStep_eventIf s c b i k).freeCnt
theorem rd_eventIf {p : Nat} {f : Fld} (hf : f.placed) (he : evReg p f.off = false) : (s.eventIf c b i k).rd p f = s.rd p f := (evStep_eventIf s c b i k).rd hf he
theorem on_eventIf {p : Nat} {f : Fld} (hf : f.placed) (he : evReg p f.off = false) : (s.eventIf c b i k).on p f = s.on p f := (evStep_eventIf s c b i k).on hf he
@[simp] theorem setRaw_tick : (s.setRaw k v).tick = s.tick := (evStep_setRaw s k v).tick
@[simp] theorem setRaw_upTime : (s.setRaw k v).upTime = s.upTime := (evStep_setRaw s k v).upTime
@[simp] theorem setRaw_page : (s.setRaw k v).page = s.page := (evStep_setRaw s k v).page
@[simp] theorem setRaw_pwr : (s.setRaw k v).pwr = s.pwr := (evStep_setRaw s k v).pwr
@[simp] theorem setRaw_tio : (s.setRaw k v).tio = s.tio := (evStep_setRaw s k v).tio
@[simp] theorem setRaw_acq : (s.setRaw k v).acq = s.acq := (evStep_setRaw s k v).acq
@[simp] theorem setRaw_bank : (s.setRaw k v).bank = s.bank := (evStep_setRaw s k v).bank
@[simp] theorem setRaw_mem : (s.setRaw k v).mem = s.mem := (evStep_setRaw s k v).mem
@[simp] theorem setRaw_epo : (s.setRaw k v).epo = s.epo := (evStep_setRaw s k v).epo
@[simp] theorem setRaw_xf : (s.setRaw k v).xf = s.xf := (evStep_setRaw s k v).xf
@[simp] theorem setRaw_den : (s.setRaw k v).den = s.den := (evStep_setRaw s k v).den
@[simp] theorem setRaw_tmp : (s.setRaw k v).tmp = s.tmp := (evStep_setRaw s k v).tmp
@[simp] theorem setRaw_dsp : (s.setRaw k v).dsp = s.dsp := (evStep_setRaw s k v).dsp
@[simp] theorem setRaw_ptp : (s.setRaw k v).ptp = s.ptp := (evStep_setRaw s k v).ptp
@[simp] theorem setRaw_flash : (s.setRaw k v).flash = s.flash := (evStep_setRaw s k v).flash
@[simp] theorem setRaw_boot : (s.setRaw k v).boot = s.boot := (evStep_setRaw s k v).boot
@[simp] theorem setRaw_clk : (s.setRaw k v).clk = s.clk := (evStep_setRaw s k v).clk
@[simp] theorem setRaw_ing : (s.setRaw k v).ing = s.ing := (evStep_setRaw s k v).ing
@[simp] theorem setRaw_svc : (s.setRaw k v).svc = s.svc := (evStep_setRaw s k v).svc
@[simp] theorem setRaw_ic : (s.setRaw k v).ic = s.ic := (evStep_setRaw s k v).ic
@[simp] theorem setRaw_net : (s.setRaw k v).net = s.net := (evStep_setRaw s k v).net
@[simp] theorem setRaw_dlb : (s.setRaw k v).dlb = s.dlb := (evStep_setRaw s k v).dlb
@[simp] theorem setRaw_hk : (s.setRaw k v).hk = s.hk := (evStep_setRaw s k v).hk
@[simp] theorem setRaw_cmp : (s.setRaw k v).cmp = s.cmp := (evStep_setRaw s k v).cmp
@[simp] theorem setRaw_pending : (s.setRaw k v).pending = s.pending := (evStep_setRaw s k v).pending
@[simp] theorem setRaw_freeCnt : (s.setRaw k v).freeCnt = s.freeCnt := (evStep_setRaw s k v).freeCnt
theorem rd_setRaw {p : Nat} {f : Fld} (hf : f.placed) (he : evReg p f.off = false) : (s.setRaw k v).rd p f = s.rd p f := (evStep_setRaw s k v).rd hf he
theorem on_setRaw {p : Nat} {f : Fld} (hf : f.placed) (he : evReg p f.off = false) : (s.setRaw k v).on p f = s.on p f := (evStep_setRaw s k v).on hf he
@[simp] theorem raise_tick : (s.raise k).tick = s.tick := (evStep_raise s k).tick
@[simp] theorem raise_upTime : (s.raise k).upTime = s.upTime := (evStep_raise s k).upTime
@[simp] theorem raise_page : (s.raise k).page = s.page := (evStep_raise s k).page
@[simp] theorem raise_pwr : (s.raise k).pwr = s.pwr := (evStep_raise s k).pwr
@[simp] theorem raise_tio : (s.raise k).tio = s.tio := (evStep_raise s k).tio
@[simp] theorem raise_acq : (s.raise k).acq = s.acq := (evStep_raise s k).acq
@[simp] theorem raise_bank : (s.raise k).bank = s.bank := (evStep_raise s k).bank
@[simp] theorem raise_mem : (s.raise k).mem = s.mem := (evStep_raise s k).mem
@[simp] theorem raise_epo : (s.raise k).epo = s.epo := (evStep_raise s k).epo
@[simp] theorem raise_xf : (s.raise k).xf = s.xf := (evStep_raise s k).xf
@[simp] theorem raise_den : (s.raise k).den = s.den := (evStep_raise s k).den
@[simp] theorem raise_tmp : (s.raise k).tmp = s.tmp := (evStep_raise s k).tmp
@[simp] theorem raise_dsp : (s.raise k).dsp = s.dsp := (evStep_raise s k).dsp
@[simp] theorem raise_ptp : (s.raise k).ptp = s.ptp := (evStep_raise s k).ptp
@[simp] theorem raise_flash : (s.raise k).flash = s.flash := (evStep_raise s k).flash
@[simp] theorem raise_boot : (s.raise k).boot = s.boot := (evStep_raise s k).boot
@[simp] theorem raise_clk : (s.raise k).clk = s.clk := (evStep_raise s k).clk
@[simp] theorem raise_ing : (s.raise k).ing = s.ing := (evStep_raise s k).ing
@[simp] theorem raise_svc : (s.raise k).svc = s.svc := (evStep_raise s k).svc
@[simp] theorem raise_ic : (s.raise k).ic = s.ic := (evStep_raise s k).ic
@[simp] theorem raise_net : (s.raise k).net = s.net := (evStep_raise s k).net
@[simp] theorem raise_dlb : (s.raise k).dlb = s.dlb := (evStep_raise s k).dlb
@[simp] theorem raise_hk : (s.raise k).hk = s.hk := (evStep_raise s k).hk
@[simp] theorem raise_cmp : (s.raise k).cmp = s.cmp := (evStep_raise s k).cmp
@[simp] theorem raise_pending : (s.raise k).pending = s.pending := (evStep_raise s k).pending
@[simp] theorem raise_freeCnt : (s.raise k).freeCnt = s.freeCnt := (evStep_raise s k).freeCnt
theorem rd_raise {p : Nat} {f : Fld} (hf : f.placed) (he : evReg p f.off = false) : (s.raise k).rd p f = s.rd p f := (evStep_raise s k).rd hf he
theorem on_raise {p : Nat} {f : Fld} (hf : f.placed) (he : evReg p f.off = false) : (s.raise k).on p f = s.on p f := (evStep_raise s k).on hf he
end

/-! A host write that takes effect at once. -/

theorem bar0Open_advance (s : State) (t p : Nat) : (s.advance t).bar0Open p = s.bar0Open p := by
  simp [State.bar0Open, State.startedUp, State.gated]

theorem hosted_of_open {s : State} {p : Nat} (h : s.hostOpen p) (off data : Nat) (f : State → State) : s.hosted p off data f = f s := by
  simp [State.hosted, h.1, h.2]

end Sys2Proof.Machine
end

section
/-! PROOF. The SMBus sideband (R98) and SEQ_STAT.CLEAR (R93). -/
namespace Sys2Proof.Machine

theorem monSync_pwr (s : State) : s.monSync.pwr = s.pwr := (does_monSync s).only .pwr (by decide)
theorem monSync_out (s : State) : s.monSync.out = s.out := (does_monSync s).only .out (by decide)

/-- SEQ_STAT.ALERT follows the monitor. -/
theorem monSync_alert (s : State) : s.monSync.rd (pg .pwr 0) Reg.PWR_SEQ_STAT_ALERT = b2n s.pwr.alert := by
  have hb : ∀ b : Bool, b2n b % 2 ^ Reg.PWR_SEQ_STAT_ALERT.width = b2n b := by decide
  simp only [State.monSync, wrs_cons, wrs_nil, hb, rd_wr_self,
    rd_wr_field _ _ (f := Reg.PWR_SEQ_STAT_PD_ORDER) (g := Reg.PWR_SEQ_STAT_ALERT) (by decide) (by decide) (by decide),
    rd_wr_field _ _ (f := Reg.PWR_SEQ_STAT_FAULT_SEEN) (g := Reg.PWR_SEQ_STAT_ALERT) (by decide) (by decide) (by decide),
    rd_wr_field _ _ (f := Reg.PWR_SEQ_STAT_CAUSE) (g := Reg.PWR_SEQ_STAT_ALERT) (by decide) (by decide) (by decide)]

theorem seqClear_pwr (s : State) : s.seqClear.pwr = { s.pwr with cause := 0, faultSeen := false, pdOrder := false } := monSync_pwr _

theorem seqClear_out (s : State) : s.seqClear.out = s.out := monSync_out _

/-- The sideband answers once VDD_IO is up. -/
theorem sideband_of_up {s : State} (h : s.pwr.isUp 2 = true) (f : State → State) : s.sideband f = f s := if_pos h

theorem hostOpen_pwr {s : State} (h : s.cutOff .page (pg .pwr 0) = false) : s.hostOpen (pg .pwr 0) :=
  ⟨by simp [State.bar0Open, pg, firstPage], h⟩

/-- A command's clause, with its next state put in. -/
theorem Gives.of_next {c : Instr} {s u : State} {P : State → Prop} (e : exec c s = .next u) (h : P u) : Gives c s P := ⟨u, e, h⟩

/-- What a clause says of a command's next state, at the state that the command answers. -/
theorem Gives.at_next {c : Instr} {s u : State} {P : State → Prop} (h : Gives c s P) (e : exec c s = .next u) : P u := by
  obtain ⟨v, hv, hP⟩ := h
  exact Host.Outcome.next.inj (e.symm.trans hv) ▸ hP

section
variable {s : State} (h : s.pwr.isUp 2 = true)
include h

theorem smbReadSeqStat_gives : Gives .smbReadSeqStat s fun u => u = { s with out := .smbRead (smbBytes s.seqStatWord) :: s.out } :=
  .of_next rfl (sideband_of_up h _)

theorem smbReadRailStat_gives : Gives .smbReadRailStat s fun u => u = { s with out := .smbRead (smbBytes s.railStatWord) :: s.out } :=
  .of_next rfl (sideband_of_up h _)

theorem smbAlertRelease_gives : Gives (.smbAlertRelease 1) s fun u => u.pwr = { s.pwr with alert := false } ∧ u.out = .smbAck :: s.out ∧
    u.rd (pg .pwr 0) Reg.PWR_SEQ_STAT_ALERT = 0 := by
  refine .of_next rfl ?_
  rw [sideband_of_up h, if_pos rfl]
  rw [State.emit_pwr, emit_out, rd_emit, monSync_pwr, monSync_out, monSync_alert]
  exact ⟨rfl, rfl, rfl⟩

theorem smbSeqClear_gives : Gives (.smbSeqClear 1) s fun u => u.pwr = { s.pwr with cause := 0, faultSeen := false, pdOrder := false } ∧
    u.out = .smbAck :: s.out := by
  refine .of_next rfl ?_
  rw [sideband_of_up h, if_pos rfl]
  rw [State.emit_pwr, emit_out, seqClear_pwr, seqClear_out]
  exact ⟨rfl, rfl⟩

theorem smbAlertResponse_gives (ha : s.pwr.alert = true) : Gives .smbAlertResponse s fun u => u = { s with out := .smbAlertAddress :: s.out } :=
  .of_next rfl (Eq.trans (sideband_of_up h _) (if_pos ha))

theorem smbUnknownCommand_gives {cmd : Byte} (hc : cmd.toNat ∉ [0x01, 0x02, 0x03, 0x04, 0x0F, 0x10]) :
    Gives (.smbUnknownCommand cmd) s fun u => u = { s with out := .smbNack :: s.out } :=
  .of_next rfl (Eq.trans (sideband_of_up h _) (if_neg hc))
end

theorem seqStatClear_gives (t : Nat) {s : State} (hc : s.cutOff .page (pg .pwr 0) = false) : Gives (.seqStatClear t) s fun u =>
    u.pwr = { s.pwr with cause := 0, faultSeen := false, pdOrder := false } := by
  refine .of_next rfl ?_
  rw [hosted_of_open (hostOpen_advance t (hostOpen_pwr hc))]
  exact (seqClear_pwr _).trans (by rw [State.advance_pwr])

/-- Settles O6: each command is its effect, for the sideband is powered and PWR's page is always open. -/
theorem sidebandCommandsComplete : Obligations.SidebandCommandsComplete := by
  unfold Obligations.SidebandCommandsComplete
  exact ⟨fun t _ => seqStatClear_gives t, fun _ => smbReadSeqStat_gives, fun _ => smbReadRailStat_gives, fun _ h => .of_next rfl (sideband_of_up h _),
    fun _ h => .of_next rfl (sideband_of_up h _), fun _ => smbAlertRelease_gives, fun _ => smbSeqClear_gives, fun _ => smbAlertResponse_gives,
    fun _ _ h => smbUnknownCommand_gives h⟩

end Sys2Proof.Machine
end

section
/-!
PROOF. A poll of the core's regulator shows in the health counters that count its current (R542), which are registers of VGL: the command's own
page is PWR, so the statement that a command changes registers of its own page alone fails.
-/
namespace Sys2Proof.Machine

/-- A started part whose AVS target has been sent, with health counter 0 following the core's current (source 13). -/
def currentCounted : State :=
  { (State.reset.wr (pg .vgl 0) (Reg.VGL_HC_CFG_SRC 0) 13) with pwr := { started := true }, boot := { avsSent := true } }

theorem avsPoll_counts : ∃ u, exec (.avsPoll 0 0 5 false) currentCounted = .next u ∧ u.rd (pg .vgl 0) (Reg.VGL_HC_VAL_NOW 0) = 5 :=
  ⟨_, rfl, by decide +kernel⟩

/-- Refutes O58: AVS_POLL has PWR as its page, and from `currentCounted` a poll of 5 dA leaves HC_VAL.NOW of VGL's health counter 0 at 5, which
read 0. VGL's page is neither the command's nor GLB's, and HC_VAL is no register in which events show. -/
theorem not_registersOfOtherPagesKeepTheirValues : ¬ Obligations.RegistersOfOtherPagesKeepTheirValues := by
  unfold Obligations.RegistersOfOtherPagesKeepTheirValues
  intro frame
  obtain ⟨u, hu, hnow⟩ := avsPoll_counts
  have hkept := (frame (.avsPoll 0 0 5 false) (pg .pwr 0) currentCounted u rfl hu (pg .vgl 0) (Reg.VGL_HC_VAL_NOW 0) (by decide) (by decide)
    (by decide) (by decide) (by decide)).1
  rw [hnow] at hkept
  exact absurd hkept (by decide +kernel)

end Sys2Proof.Machine
end

section
/-!
PROOF. A core that hands over a bank ends the transfer of a DMA engine that the new codes do not accept (R429, R437), and that shows in the
engine's page: the statement that a core's work leaves every register but those of its own page and of the banks' pages fails.
-/
namespace Sys2Proof.Machine
open Sys2Proof.Tests

/-- Core 7 at a store to BNK_OWN_WR, by which it hands bank 0, whose owner it is, to core 0 with no agent on port B, while DMA engine 0, the
agent on port B so far, transfers from the bank. -/
def handoverUnderDma : State :=
  { stOn [pg .scr 7, pg .bnk 0, pg .dma 0] [(pg .bnk 0, Reg.BNK_BNK_OWN_OWNER_ACT, 7), (pg .bnk 0, Reg.BNK_BNK_OWN_B_AGENT_ACT, 0x50),
      (pg .dma 0, Reg.DMA_DMA_CTL_GO, 1), (pg .dma 0, Reg.DMA_DMA_SRC_BANK_SEL, 1)] with
    core := (stOwn 2235564032 65545).core }

theorem bnkOwnWr_endsTransfer : ∃ u, exec (.bnkOwnWr 5 7 ⟨1, 0, 0⟩) handoverUnderDma = .next u ∧
    u.rd (pg .dma 0) Reg.DMA_DMA_STAT_STATUS = 1 :=
  ⟨_, rfl, by decide +kernel⟩

/-- Refutes O59: from `handoverUnderDma` the core's handover ends engine 0's transfer with status 1, which read 0, in DMA_STAT of the
engine's page. -/
theorem not_coreWorkLeavesOtherCoresAndRegisters : ¬ Obligations.CoreWorkLeavesOtherCoresAndRegisters := by
  unfold Obligations.CoreWorkLeavesOtherCoresAndRegisters
  intro frame
  obtain ⟨u, hu, hstat⟩ := bnkOwnWr_endsTransfer
  have hkept := ((frame (.bnkOwnWr 5 7 ⟨1, 0, 0⟩) 7 handoverUnderDma u rfl hu).2 (pg .dma 0) Reg.DMA_DMA_STAT_STATUS (by decide) (by decide)
    (by decide) (by decide) (by decide)).1
  rw [hstat] at hkept
  exact absurd hkept (by decide +kernel)

end Sys2Proof.Machine
end

section
/-!
PROOF. Which pages' registers an operation can write: one lemma an operation, writes_<operation>, for the operations that the clauses need.
-/
namespace Sys2Proof.Machine

/-- From `s` to `u` no register outside `P`, of a page and an offset, has changed, those in which events show aside. The active copy of a field of page
`p` counts as that field of page `p + 2^22`. -/
structure Writes (P : Nat → Nat → Prop) (s u : State) : Prop where
  reads : ∀ q f, f.placed → evReg q f.off = false → ¬P q f.off → u.rd q f = s.rd q f

theorem akey_eq_fkey (p : Nat) (f : Fld) : akey p f = fkey (p + 2 ^ 22) f := by
  unfold akey fkey
  omega

theorem rdA_eq_rd (s : State) (p : Nat) (f : Fld) : s.rdA p f = s.rd (p + 2 ^ 22) f := by
  unfold State.rdA State.rd
  rw [akey_eq_fkey]

theorem wrA_eq_wr (s : State) (p : Nat) (f : Fld) (v : Nat) : s.wrA p f v = s.wr (p + 2 ^ 22) f v := by
  unfold State.wrA State.wr
  rw [akey_eq_fkey]

section
variable {P : Nat → Nat → Prop} {s t u : State}

theorem Writes.refl (P : Nat → Nat → Prop) (s : State) : Writes P s s := ⟨fun _ _ _ _ _ => rfl⟩

theorem Writes.next (k : Writes P t u) (h : Writes P s t) : Writes P s u := 
  ⟨fun q f hf he hq => (k.reads q f hf he hq).trans (h.reads q f hf he hq)⟩

theorem Writes.via (x : State) (hx : Writes P s x) (h : Writes P s x → Writes P s u) : Writes P s u := h hx

/-- A change of parts other than the register file. -/
theorem Writes.keep (h : Writes P s t) (e : u.rf = t.rf) : Writes P s u := 
  ⟨fun q f hf he hq => (rd_of_rf e q f).trans (h.reads q f hf he hq)⟩

/-- An operation that leaves the register file. -/
theorem Does.still {a : List Part} (k : Does a t u) (h : Writes P s t) (w : a.contains .rf = false) : Writes P s u :=
  h.keep (k.only .rf (by simpa using w))

theorem Writes.wr {p v : Nat} {f : Fld} (h : Writes P s t) (hp : P p f.off) (hf : f.placed) : Writes P s (t.wr p f v) :=
  ⟨fun q g hg he hq => (rd_wr_other t v hf hg (fun e => hq (by rw [e.1, e.2.1]; exact hp))).trans (h.reads q g hg he hq)⟩

theorem Writes.wrA {p v : Nat} {f : Fld} (h : Writes P s t) (hp : P (p + 2 ^ 22) f.off) (hf : f.placed) : Writes P s (t.wrA p f v) := by
  rw [wrA_eq_wr]
  exact h.wr hp hf

/-- The fields that a list of writes names stand in the register at offset `o`. -/
def allAt (o : Nat) : List (Fld × Nat) → Bool
  | [] => true
  | x :: l => decide (x.1.placed ∧ x.1.off = o) && allAt o l

theorem Writes.wrs {p o : Nat} {l : List (Fld × Nat)} (h : Writes P s t) (hp : P p o) (hl : allAt o l = true) : Writes P s (t.wrs p l) := by
  induction l generalizing t with
  | nil => exact h
  | cons x l ih =>
    simp only [allAt, Bool.and_eq_true, decide_eq_true_eq] at hl
    exact ih (h.wr (by rw [hl.1.2]; exact hp) hl.1.1) hl.2

/-- The fields that a list of writes names stand within their page. -/
def allPlaced : List (Fld × Nat) → Bool
  | [] => true
  | x :: l => decide x.1.placed && allPlaced l

theorem Writes.wrsAny {p : Nat} {l : List (Fld × Nat)} (h : Writes P s t) (hp : ∀ o, P p o) (hl : allPlaced l = true) :
    Writes P s (t.wrs p l) := by
  induction l generalizing t with
  | nil => exact h
  | cons x l ih =>
    simp only [allPlaced, Bool.and_eq_true, decide_eq_true_eq] at hl
    exact ih (h.wr (hp _) hl.1) hl.2

theorem Writes.ite {c : Prop} [Decidable c] {a b : State} (ha : Writes P s a) (hb : Writes P s b) : Writes P s (if c then a else b) := by
  split
  · exact ha
  · exact hb

theorem Writes.foldl {α : Type} {f : State → α → State} (x : List α) (h : Writes P s t) (hf : ∀ t a, Writes P s t → Writes P s (f t a)) :
    Writes P s (x.foldl f t) := by
  induction x generalizing t with
  | nil => exact h
  | cons a x ih => exact ih (hf t a h)

theorem Writes.each {α : Type} {f : State → α → State} (x : List α) (h : Writes P s t) (hf : ∀ t a, Writes P s t → Writes P s (f t a)) :
    Writes P s (t.each x f) := Writes.foldl x h hf

theorem Writes.when {f : State → State} (b : Bool) (h : Writes P s t) (hf : ∀ t, Writes P s t → Writes P s (f t)) :
    Writes P s (t.when b f) := by
  unfold State.when
  split
  · exact hf t h
  · exact h

theorem Writes.snd {α : Type} {x : α × State} {a : α} (e : x = (a, u)) (h : Writes P s x.2) : Writes P s u := by
  rw [e] at h
  exact h

theorem Writes.fst {α : Type} {x : State × α} {a : α} (e : x = (u, a)) (h : Writes P s x.1) : Writes P s u := by
  rw [e] at h
  exact h

theorem Writes.thd {α β : Type} {x : α × β × State} {a : α} {b : β} (e : x = (a, b, u)) (h : Writes P s x.2.2) : Writes P s u := by
  rw [e] at h
  exact h

theorem Writes.foldlSnd {α β : Type} {f : β × State → α → β × State} {t : β × State} (x : List α)
    (h : Writes P s t.2) (hf : ∀ t a, Writes P s t.2 → Writes P s (f t a).2) : Writes P s (x.foldl f t).2 := by
  induction x generalizing t with
  | nil => exact h
  | cons a x ih => exact ih (hf t a h)

theorem Writes.foldlFst {α β : Type} {f : State × β → α → State × β} {t : State × β} (x : List α)
    (h : Writes P s t.1) (hf : ∀ t a, Writes P s t.1 → Writes P s (f t a).1) : Writes P s (x.foldl f t).1 := by
  induction x generalizing t with
  | nil => exact h
  | cons a x ih => exact ih (hf t a h)

/-- Raising events writes no register but those in which events show. -/
theorem EvStep.writes (h : EvStep s u) : Writes P s u := ⟨fun q f hf he _ => (h.reads q f hf he).1⟩

theorem writes_event (s : State) (b : Blk) (i k : Nat) : Writes P s (s.event b i k) := (evStep_event s b i k).writes
theorem writes_raise (s : State) (k : Nat) : Writes P s (s.raise k) := (evStep_raise s k).writes
theorem writes_setRaw (s : State) (k : Nat) (v : Bool) : Writes P s (s.setRaw k v) := (evStep_setRaw s k v).writes
theorem writes_eventIf (s : State) (c : Bool) (b : Blk) (i k : Nat) : Writes P s (s.eventIf c b i k) := (evStep_eventIf s c b i k).writes
theorem writes_failProbation (s : State) (k : Nat) : Writes P s (s.failProbation k) := (evStep_failProbation s k).writes
theorem writes_judge (s : State) (k : Nat) : Writes P s (s.judge k) := (evStep_judge s k).writes
theorem writes_severity (s : State) (k : Nat) : Writes P s (s.severity k) := (evStep_severity s k).writes
theorem writes_deliver (s : State) (k : Nat) : Writes P s (s.deliver k).1 := (evStep_deliver s k).writes
theorem writes_transit (n : Nat) (s : State) (k : Nat) : Writes P s (State.transit n s k) := (evStep_transit n s k).writes

/-- The outcome is a next state, to which no register outside `P` has changed, the registers in which events show aside. -/
abbrev Leaves (P : Nat → Nat → Prop) (s : State) (x : Host.Outcome State Fault Refusal) : Prop := ∃ u, x = .next u ∧ Writes P s u

theorem Writes.hosted {p off data : Nat} {f : State → State} (h : Writes P s t) (hf : ∀ t, Writes P s t → Writes P s (f t)) :
    Writes P s (t.hosted p off data f) :=
  .ite ((does_hold ..).still h rfl) (.ite h (hf _ h))

theorem Writes.sideband {f : State → State} (h : Writes P s t) (hf : ∀ t, Writes P s t → Writes P s (f t)) : Writes P s (t.sideband f) :=
  .ite (hf _ h) h

theorem Writes.atOnce {r opc : Nat} {f : State → SvcEntry → SvcStatus × Nat × Nat × State} (h : Writes P s t)
    (hf : ∀ t e, Writes P s t → Writes P s (f t e).2.2.2) : Writes P s (t.atOnce r opc f) := by
  unfold State.atOnce
  split
  · exact h
  · rename_i e u hx
    exact (does_complete ..).still (hf u e ((does_svcTake hx).still h rfl)) rfl
end

theorem writes_bumpSat (s : State) (p : Nat) (f : Fld) (n : Nat) {P : Nat → Nat → Prop} (hp : P p f.off) (hp1 : Fld.placed f) : Writes P s
    (s.bumpSat p f n) :=
  .wr (.refl _ _) hp hp1

theorem writes_peak (s : State) (p : Nat) (f : Fld) (v : Nat) {P : Nat → Nat → Prop} (hp : P p f.off) (hp1 : Fld.placed f) : Writes P s (s.peak p f
    v) :=
  .ite (.wr (.refl _ _) hp hp1) (.refl _ _)

theorem writes_placeRecord (s : State) (c : Nat) (words : List Nat) {P : Nat → Nat → Prop} (hp : P (pg Blk.ctx c) 1664) : Writes P s (s.placeRecord
    c words) :=
  .wr (.ite (.refl _ _) ((does_writeWords ..).still (.refl _ _) rfl)) hp (by decide)

theorem writes_record (s : State) (c kind : Nat) (spec est : Bool) (kflags low w1 w2 w3 : Nat) {P : Nat → Nat → Prop} (hp : P (pg Blk.acq 0) 280)
    (hp1 : P (pg Blk.ctx c) 1664) : Writes P s (s.record c kind spec est kflags low w1 w2 w3) :=
  .ite (.refl _ _) (.ite ((writes_event ..).next ((writes_bumpSat (hp := hp) (hp1 := by decide) ..).next ((does_setActx ..).still (.refl _ _)
      rfl))) ((writes_placeRecord (hp := hp1) ..).next ((writes_peak (hp := hp) (hp1 := by decide) ..).next ((does_setActx ..).still (.refl _ _)
      rfl))))

theorem writes_clockRecord (s : State) (c : Nat) (holdover : Bool) (subtype cause w1 w2 w3 : Nat) {P : Nat → Nat → Prop} (hp : P (pg Blk.acq 0)
    280) (hp1 : P (pg Blk.ctx c) 1664) : Writes P s (s.clockRecord c holdover subtype cause w1 w2 w3) :=
  (writes_record (hp := hp) (hp1 := hp1) ..).next (.refl _ _)

theorem writes_tbLoad (s : State) {P : Nat → Nat → Prop} (hp : P (pg Blk.acq 0) 280) (hp1 : ∀ i, P (pg .ctx i) 1664) : Writes P s s.tbLoad :=
  .ite (.refl _ _) (.ite (.keep (.refl _ _) rfl) (.ite ((writes_event ..).next (.refl _ _)) (.ite (.refl _ _) ((writes_event ..).next (.each _
      (.keep (.refl _ _) rfl) fun _ _ h => (writes_clockRecord (hp := hp) (hp1 := (hp1 _)) ..).next h)))))

end Sys2Proof.Machine
end

section
/-! PROOF. EV_PEND, EV_EN and SH_CTL writes, and the timebase's apply point (R45 to R48, R116). -/
namespace Sys2Proof.Machine

/-! A host write of a mapped page that takes effect at once. -/

theorem onPage_of_mapped {p : Nat} (h : mapped p = true) (s : State) (off : Nat) (f : State → State) : s.onPage p off f = f s := if_pos h

theorem hosted_onPage {s : State} {p : Nat} (h : s.hostOpen p) (hm : mapped p = true) (t off data off' : Nat) (f : State → State) :
    (s.advance t).hosted p off data (fun s => s.onPage p off' f) = f (s.advance t) := by
  rw [hosted_of_open (hostOpen_advance t h), onPage_of_mapped hm]

/-! Active copies. -/

theorem rdA_wrA_self (s : State) (p : Nat) (f : Fld) (v : Nat) : (s.wrA p f v).rdA p f = f.cut v := by
  rw [wrA_eq_wr, rdA_eq_rd, rd_wr_self]
  rfl

theorem rdA_wrA_field {p : Nat} {f g : Fld} (s : State) (v : Nat) (hf : f.placed) (hg : g.placed) (h : ¬(g.off = f.off ∧ g.lo = f.lo)) :
    (s.wrA p f v).rdA p g = s.rdA p g := by
  rw [wrA_eq_wr, rdA_eq_rd, rdA_eq_rd, rd_wr_field s v hf hg h]

theorem rd_wrA {p q : Nat} {f g : Fld} (s : State) (v : Nat) (hq : q < 2 ^ 22) (hf : f.placed) (hg : g.placed) :
    (s.wrA p f v).rd q g = s.rd q g := by
  rw [wrA_eq_wr]
  exact rd_wr_page s v hf hg (by omega)

/-! Several writes of one page. -/

/-- What the last of the writes of `f` stores, if one does. -/
def lastOf (f : Fld) : List (Fld × Nat) → Option Nat
  | [] => none
  | (g, v) :: l => match lastOf f l with
    | some w => some w
    | none => if g = f then some (v % 2 ^ g.width) else none

/-- Each of the writes is of `f`, or of a field at another place. -/
def apartFrom (f : Fld) : List (Fld × Nat) → Bool
  | [] => true
  | (g, _) :: l => decide g.placed && (decide (g = f) || !decide (f.off = g.off ∧ f.lo = g.lo)) && apartFrom f l

theorem rd_wrs (p : Nat) {f : Fld} (hf : f.placed) (l : List (Fld × Nat)) (s : State) (hl : apartFrom f l = true) :
    (s.wrs p l).rd p f = (lastOf f l).getD (s.rd p f) := by
  induction l generalizing s with
  | nil => rfl
  | cons x l ih =>
    simp only [apartFrom, Bool.and_eq_true, Bool.or_eq_true, Bool.not_eq_true', decide_eq_true_eq, decide_eq_false_iff_not] at hl
    obtain ⟨⟨hp, hx⟩, hl⟩ := hl
    rw [wrs_cons, ih _ hl, lastOf]
    cases lastOf f l with
    | some w => rfl
    | none =>
      by_cases e : x.1 = f
      · rw [if_pos e, Option.getD_none, Option.getD_some, e, rd_wr_self]
      · rw [if_neg e]
        exact rd_wr_field _ _ hp hf (hx.resolve_left e)

theorem rd_wrs_eq {p v : Nat} {f : Fld} {l : List (Fld × Nat)} (s : State) (h : lastOf f l = some v) (hf : f.placed)
    (hl : apartFrom f l = true) : (s.wrs p l).rd p f = v := by
  rw [rd_wrs p hf l s hl, h]
  rfl

theorem rd_wrs_ne {p : Nat} {f : Fld} {l : List (Fld × Nat)} (s : State) (h : lastOf f l = none) (hf : f.placed)
    (hl : apartFrom f l = true) : (s.wrs p l).rd p f = s.rd p f := by
  rw [rd_wrs p hf l s hl, h]
  rfl

/-! Masks. -/

theorem testBit_mask {m k : Nat} (hm : m < 2 ^ 64) (hk : k < 64) : (2 ^ 64 - 1 - m).testBit k = !m.testBit k := by
  have h := Nat.testBit_two_pow_sub_succ hm k
  rw [show 2 ^ 64 - 1 - m = 2 ^ 64 - (m + 1) by omega, h]
  simp [hk]

theorem testBit_mod_word {v k : Nat} (hk : k < 64) : (v % 2 ^ 64).testBit k = v.testBit k := by
  rw [Nat.testBit_mod_two_pow]
  simp [hk]

/-! EV_PEND and EV_EN. -/

theorem testBit_evPendWrite (s : State) (p : Nat) {mask same k : Nat} (hm : mask < 2 ^ 64) (hs : same < 2 ^ 64) (hk : k < 64) :
    ((s.evPendWrite p mask same).rd p Reg.EV_PEND).testBit k =
      ((s.rd p Reg.EV_PEND).testBit k && (!mask.testBit k || same.testBit k)) := by
  have hclear : mask &&& (2 ^ 64 - 1 - same) < 2 ^ 64 := lt_of_le_of_lt Nat.and_le_left hm
  rw [State.evPendWrite, rd_wr_self]
  simp only [show Reg.EV_PEND.width = 64 by decide, testBit_mod_word hk, Nat.testBit_and, testBit_mask hclear hk, testBit_mask hs hk, Bool.not_and,
    Bool.not_not]

theorem evStep_forwardNow (s : State) (id : Nat) : EvStep s (s.forwardNow id) :=
  (evStep_deliver s id).trans (.foldl (fun s e => evStep_raise s e) _ _)

theorem evReg_evEn (p : Nat) : evReg p Reg.EV_EN.off = false := by simp [evReg, Reg.EV_EN]

theorem rd_evEnWrite (s : State) (p en : Nat) : (s.evEnWrite p en).rd p Reg.EV_EN = (en &&& evMask p) % 2 ^ 64 := by
  have h : EvStep (s.wr p Reg.EV_EN (en &&& evMask p)) (s.evEnWrite p en) := .foldl (fun s k => evStep_forwardNow s _) _ _
  rw [h.rd (by decide) (evReg_evEn p), rd_wr_self]
  rfl

/-! SH_CTL. -/

theorem rd_shAbort (s : State) (p groups : Nat) :
    (s.shAbort p groups).rd p Reg.SH_CTL_COMMIT = (s.rd p Reg.SH_CTL_COMMIT &&& (255 - groups)) % 2 ^ 8 :=
  rd_wr_self s p Reg.SH_CTL_COMMIT _

theorem rd_shCommit (s : State) (p groups t : Nat) :
    (s.shCommit p groups t).rd p Reg.SH_CTL_COMMIT = (s.rd p Reg.SH_CTL_COMMIT ||| groups) % 2 ^ 8 := by
  unfold State.shCommit
  extract_lets late fresh s₁ _ s₂
  have h₁ : s₁.rd p Reg.SH_CTL_COMMIT = (s.rd p Reg.SH_CTL_COMMIT ||| groups) % 2 ^ 8 := rd_wrs_eq _ rfl (by decide) rfl
  unfold s₂
  split
  · exact h₁
  · exact h₁

/-- A commit alone: the word names no group to abort. -/
theorem rd_shCtlWrite_commit (s : State) (p a t : Nat) {g : Nat} (hg : g < 256) : (s.shCtlWrite p (a * 2 ^ 16 + g) t).rd p Reg.SH_CTL_COMMIT =
    (s.rd p Reg.SH_CTL_COMMIT ||| (g &&& groupMask p)) % 2 ^ 8 := by
  have habort : part (a * 2 ^ 16 + g) 8 8 = 0 := by
    unfold part
    omega
  have hpart : part (a * 2 ^ 16 + g) 0 8 = g := by
    unfold part
    omega
  unfold State.shCtlWrite
  simp only [habort, hpart, Nat.zero_and, Nat.sub_zero]
  rw [rd_shCommit, rd_shAbort, rd_wr_field _ _ (by decide) (by decide) (by decide)]
  have hcut : g &&& groupMask p &&& 255 = g &&& groupMask p := by
    rw [show (255 : Nat) = 2 ^ 8 - 1 by decide, Nat.and_two_pow_sub_one_eq_mod, Nat.mod_eq_of_lt (lt_of_le_of_lt Nat.and_le_left hg)]
  rw [hcut, show (255 - 0 : Nat) = 2 ^ 8 - 1 by decide, Nat.and_two_pow_sub_one_eq_mod, Nat.mod_mod]
  refine Nat.eq_of_testBit_eq fun k => ?_
  simp only [Nat.testBit_mod_two_pow, Nat.testBit_or]
  by_cases hk : k < 8 <;> simp [hk]

/-! The timebase's apply point. -/

theorem shadow_of_rd {s u : State} {p : Nat} {f : Fld} (hp : u.page = s.page) (ht : u.tick = s.tick) (hr : u.rd p f = s.rd p f) :
    u.shadow p f = s.shadow p f := by
  unfold State.shadow
  rw [hp, ht, hr]

/-- A clock record writes the almanac's count and the record counts alone. -/
theorem rd_clockRecord {q : Nat} {f : Fld} (s : State) (c : Nat) (b : Bool) (i j w1 w2 w3 : Nat) (hf : f.placed) (he : evReg q f.off = false)
    (hq : q ≠ pg .acq 0) (ho : f.off ≠ 0x680) : (s.clockRecord c b i j w1 w2 w3).rd q f = s.rd q f :=
  (writes_clockRecord (P := fun q o => q = pg .acq 0 ∨ o = 0x680) s c b i j w1 w2 w3 (.inl rfl) (.inr rfl)).reads q f hf he
    fun h => h.elim hq ho

section
variable {s : State} (h : (s.rd (pg .tmb 0) Reg.SH_CTL_COMMIT).testBit 0 = true)
include h

/-- The offset is in force, and the commit done. -/
theorem tmbApply_valid (hns : s.shadow (pg .tmb 0) Reg.TMB_PTP_NS_NS < 10 ^ 9) : s.tmbApply.rd (pg .tmb 0) Reg.SH_CTL_COMMIT = 0 ∧
    ∀ f ∈ [Reg.TMB_PTP_SEC_SEC, Reg.TMB_PTP_NS_NS, Reg.TMB_PTP_NS_FRAC], s.tmbApply.rdA (pg .tmb 0) f = f.cut (s.shadow (pg .tmb 0) f) := by
  have hsh : ∀ f : Fld, f.placed → f.off ≠ 0x040 →
      (s.wr (pg .tmb 0) Reg.SH_CTL_COMMIT 0).shadow (pg .tmb 0) f = s.shadow (pg .tmb 0) f := fun f hf ho =>
    shadow_of_rd rfl rfl (rd_wr_field _ _ (by decide) hf fun e => ho e.1)
  have hns' : ¬10 ^ 9 ≤ (s.wr (pg .tmb 0) Reg.SH_CTL_COMMIT 0).shadow (pg .tmb 0) Reg.TMB_PTP_NS_NS := by
    rw [hsh _ (by decide) (by decide)]
    omega
  unfold State.tmbApply
  simp only [h, Bool.not_true, Bool.false_eq_true, if_false, if_neg hns']
  rw [hsh _ (by decide) (by decide), hsh _ (by decide) (by decide), hsh _ (by decide) (by decide)]
  have hrecords : ∀ {q : Nat} {f : Fld} (u : State) (g : State → Nat) (x y z : Nat), f.placed → evReg q f.off = false → q ≠ pg .acq 0 → f.off ≠ 0x680 →
      (u.each u.running fun s c => s.clockRecord c false x 0 (g s) y z).rd q f = u.rd q f := fun u g x y z hf he hq ho =>
    each_keeps (P := fun v => v.rd _ _ = u.rd _ _) (fun v c hv => (rd_clockRecord v c _ _ _ _ _ _ hf he hq ho).trans hv) _ rfl
  refine ⟨?_, fun f hf => ?_⟩
  · rw [hrecords _ (fun s => s.tick + 1) _ _ _ (by decide) (by decide) (by decide) (by decide), State.bump,
      rd_wr_field _ _ (by decide) (by decide) (by decide), rd_wrA _ _ (by decide) (by decide) (by decide),
      rd_wrA _ _ (by decide) (by decide) (by decide), rd_wrA _ _ (by decide) (by decide) (by decide), rd_wr_self]
    rfl
  · have hplace : f.placed ∧ evReg (pg .tmb 0 + 2 ^ 22) f.off = false ∧ f.off ≠ 0x680 := by
      revert f
      decide
    rw [rdA_eq_rd, hrecords _ (fun s => s.tick + 1) _ _ _ hplace.1 hplace.2.1 (by decide) hplace.2.2, ← rdA_eq_rd, State.bump,
      rdA_wr _ _ (by decide) (by decide)]
    simp only [List.mem_cons, List.not_mem_nil, or_false] at hf
    obtain rfl | rfl | rfl := hf
    · rw [rdA_wrA_field _ _ (by decide) (by decide) (by decide), rdA_wrA_field _ _ (by decide) (by decide) (by decide), rdA_wrA_self]
    · rw [rdA_wrA_field _ _ (by decide) (by decide) (by decide), rdA_wrA_self]
    · rw [rdA_wrA_self]

/-- An offset of a second or more is not taken: the commit is done, and the active copies stand. -/
theorem tmbApply_invalid (hns : 10 ^ 9 ≤ s.shadow (pg .tmb 0) Reg.TMB_PTP_NS_NS) : s.tmbApply.rd (pg .tmb 0) Reg.SH_CTL_COMMIT = 0 ∧
    ∀ f ∈ [Reg.TMB_PTP_SEC_SEC, Reg.TMB_PTP_NS_NS, Reg.TMB_PTP_NS_FRAC], s.tmbApply.rdA (pg .tmb 0) f = s.rdA (pg .tmb 0) f := by
  have hns' : 10 ^ 9 ≤ (s.wr (pg .tmb 0) Reg.SH_CTL_COMMIT 0).shadow (pg .tmb 0) Reg.TMB_PTP_NS_NS := by
    rwa [shadow_of_rd (s := s) (u := s.wr (pg .tmb 0) Reg.SH_CTL_COMMIT 0) rfl rfl (rd_wr_field _ _ (by decide) (by decide) (by decide))]
  have happly : s.tmbApply = (s.wr (pg .tmb 0) Reg.SH_CTL_COMMIT 0).event .tmb 0 5 := by
    simp only [State.tmbApply, h, Bool.not_true, Bool.false_eq_true, if_false, if_pos hns']
  refine ⟨?_, fun f hf => ?_⟩
  · rw [happly, rd_event _ _ _ _ (by decide) (by decide), rd_wr_self]
    rfl
  · have hplace : f.placed ∧ evReg (pg .tmb 0) f.off = false := by
      revert f
      decide
    rw [happly, ((evStep_event _ _ _ _).reads _ f hplace.1 hplace.2).2, rdA_wr _ _ (by decide) (by decide)]
end

theorem evPendClear_gives (t : Nat) (page : Fin 4096) (mask same : Word) {s : State} (h : s.hostOpen page) (hm : mapped page = true) :
    Gives (.evPendClear t page mask same) s fun u => ∀ k : Fin 64,
      (u.rd page Reg.EV_PEND).testBit k = ((s.rd page Reg.EV_PEND).testBit k && (!mask.getLsbD k || same.getLsbD k)) := by
  refine .of_next rfl fun k => ?_
  rw [hosted_onPage h hm, testBit_evPendWrite _ _ mask.isLt same.isLt k.isLt, advance_rd]
  rfl

theorem evEnWrite_gives (t : Nat) (page : Fin 4096) (en : Word) {s : State} (h : s.hostOpen page) (hm : mapped page = true) :
    Gives (.evEnWrite t page en) s fun u => u.rd page Reg.EV_EN = en.toNat &&& evMask page := by
  refine .of_next rfl ?_
  rw [hosted_onPage h hm, rd_evEnWrite, Nat.mod_eq_of_lt (lt_of_le_of_lt Nat.and_le_left en.isLt)]

theorem shadowCommit_gives (t : Nat) (page : Fin 4096) (groups : BitVec 8) {s : State} (h : s.hostOpen page) (hm : mapped page = true) :
    Gives (.shadowCommit t page groups) s fun u =>
      u.rd page Reg.SH_CTL_COMMIT = Reg.SH_CTL_COMMIT.cut (s.rd page Reg.SH_CTL_COMMIT ||| (groups.toNat &&& groupMask page)) := by
  refine .of_next rfl ?_
  rw [hosted_onPage h hm, rd_shCtlWrite_commit _ _ _ _ groups.isLt, advance_rd]
  rfl

theorem shadowAbort_gives (t : Nat) (page : Fin 4096) (groups : BitVec 8) {s : State} (h : s.hostOpen page) (hm : mapped page = true) :
    Gives (.shadowAbort t page groups) s fun u => u.rd page Reg.SH_CTL_COMMIT = s.rd page Reg.SH_CTL_COMMIT &&& (255 - groups.toNat) := by
  refine .of_next rfl ?_
  have hlt : 255 - groups.toNat < 2 ^ 8 := by omega
  rw [hosted_onPage h hm, rd_shAbort, advance_rd, Nat.mod_eq_of_lt (lt_of_le_of_lt Nat.and_le_right hlt)]

/-- Settles O3: each write and the apply point, from what the model's functions leave in the field. -/
theorem eventAndShadowRegistersComplete : Obligations.EventAndShadowRegistersComplete := by
  unfold Obligations.EventAndShadowRegistersComplete
  refine ⟨fun t page mask same _ => evPendClear_gives t page mask same, fun t page en _ => evEnWrite_gives t page en,
    fun t page groups _ => shadowCommit_gives t page groups, fun t page groups _ => shadowAbort_gives t page groups,
    fun t s h hns => .of_next rfl (tmbApply_valid (by rwa [advance_rd]) hns), fun t s h hns => .of_next rfl ?_⟩
  obtain ⟨hcommit, hactive⟩ := tmbApply_invalid (s := s.advance t) (by rwa [advance_rd]) hns
  exact ⟨hcommit, fun f hf => (hactive f hf).trans (rdA_of_rf (State.advance_rf s t) _ f)⟩

end Sys2Proof.Machine
end

section
/-! PROOF. The trim, SYSREF edges and the timebase snapshot (R111, R112, R116 to R118, R124). -/
namespace Sys2Proof.Machine

/-! Signed fields. -/

theorem clampInt_bounds {lo hi : Int} (h : lo ≤ hi) (i : Int) : lo ≤ clampInt lo hi i ∧ clampInt lo hi i ≤ hi := by
  unfold clampInt
  split
  · exact ⟨le_refl _, h⟩
  · split <;> omega

theorem signed_unsigned {w : Nat} {i : Int} (hw : 0 < w) (hlo : -(2 ^ (w - 1) : Nat) ≤ i) (hhi : i < (2 ^ (w - 1) : Nat)) :
    signed w (unsigned w i % 2 ^ w) = i := by
  have h2 : 2 ^ w = 2 * 2 ^ (w - 1) := by rw [← pow_succ', Nat.sub_add_cancel hw]
  unfold signed unsigned
  rw [Nat.mod_mod, h2]
  generalize 2 ^ (w - 1) = m at *
  by_cases hi : 0 ≤ i
  · have e : i % ((2 * m : Nat) : Int) = i := Int.emod_eq_of_lt hi (by omega)
    have e' : i.toNat % (2 * m) = i.toNat := Nat.mod_eq_of_lt (by omega)
    rw [e, e', if_pos (by omega)]
    omega
  · have e : i % ((2 * m : Nat) : Int) = i + (2 * m : Nat) := by
      rw [← Int.add_emod_right]
      exact Int.emod_eq_of_lt (by omega) (by omega)
    have e' : (i + (2 * m : Nat)).toNat % (2 * m) = (i + (2 * m : Nat)).toNat := Nat.mod_eq_of_lt (by omega)
    rw [e, e', if_neg (by omega)]
    omega

theorem unsigned_mod (w : Nat) (i : Int) : unsigned w i % 2 ^ w = unsigned w i := by
  have hpos : (0 : Int) < (2 ^ w : Nat) := by positivity
  have h₁ := Int.emod_lt_of_pos i hpos
  have h₂ := Int.emod_nonneg i hpos.ne'
  exact Nat.mod_eq_of_lt (by unfold unsigned; omega)

/-! The trim. -/

theorem ftrimWrite_gives (t : Nat) (target : BitVec 32) (slew : BitVec 17) {s : State} (h : s.hostOpen (pg .clk 0)) :
    Gives (.ftrimWrite t target slew) s fun u => u.rdS (pg .clk 0) Reg.CLK_FTRIM_TARGET = clampInt (-200000000) 200000000 target.toInt ∧
      u.rd (pg .clk 0) Reg.CLK_FTRIM_SLEW = slew.toNat := by
  refine .of_next rfl ?_
  rw [hosted_of_open (hostOpen_advance t h)]
  obtain ⟨hlo, hhi⟩ := clampInt_bounds (lo := -200000000) (hi := 200000000) (by decide) target.toInt
  unfold State.ftrimWrite State.rdS State.wrS
  rw [rd_eventIf _ _ _ _ _ (by decide) (by decide), rd_eventIf _ _ _ _ _ (by decide) (by decide), rd_wr_self,
    rd_wr_field _ _ (by decide) (by decide) (by decide), rd_wr_self]
  exact ⟨signed_unsigned (w := 32) (by decide) (by norm_num; omega) (by norm_num; omega), Nat.mod_eq_of_lt slew.isLt⟩

theorem trimStep_gives (t : Nat) {s : State} (hg : s.gated = false) (ht : s.clk.trimAt + 1600 ≤ (s.advance t).tick) :
    Gives (.trimStep t) s fun u => u.rd (pg .clk 0) Reg.CLK_FTRIM_ACT_ACT = unsigned Reg.CLK_FTRIM_ACT_ACT.width (s.trim +
      clampInt (-(min (s.rd (pg .clk 0) Reg.CLK_FTRIM_SLEW) 100000 : Nat)) (min (s.rd (pg .clk 0) Reg.CLK_FTRIM_SLEW) 100000 : Nat)
        (s.rdS (pg .clk 0) Reg.CLK_FTRIM_TARGET - s.trim)) := by
  refine .of_next rfl ?_
  have hrun : ((s.advance t).gated || decide ((s.advance t).tick < (s.advance t).clk.trimAt + 1600)) = false := by
    simp only [State.gated, on_advance, State.advance_clk, Bool.or_eq_false_iff, decide_eq_false_iff_not]
    exact ⟨hg, by omega⟩
  rw [if_neg (by rw [hrun]; decide)]
  refine (rd_wr_self _ _ _ _).trans ?_
  rw [unsigned_mod]
  simp only [State.trim, State.rdS, advance_rd, Nat.cast_min, Nat.cast_ofNat]

/-! SYSREF edges. -/

/-- The edge counted, and its polarity judged where its pulses show it. -/
def edgeSeen (s : State) (pulses : Option (Nat × Nat)) : State :=
  let s := s.bump (pg .clk 0) Reg.CLK_SYSREF_STAT_SEEN_CNT 1
  match pulses with
  | none => s
  | some (high, low) =>
    let x := s.sysrefPol high low
    let was := s.on (pg .clk 0) Reg.CLK_SYSREF_STAT_POL_INV || s.on (pg .clk 0) Reg.CLK_SYSREF_STAT_POL_UNRES
    let dlt := s.sysrefDlt
    let s := if dlt then s.setDlbPol 6 x.1 else s
    (s.wrs (pg .clk 0) [(Reg.CLK_SYSREF_STAT_POL_INV, b2n (x.1 && !dlt)), (Reg.CLK_SYSREF_STAT_POL_UNRES, b2n x.2)]).eventIf
      (((x.1 && !dlt) || x.2) && !was) .clk 0 7

/-- SYSREF_STAT of the clocks and DLB_STAT aside, an edge's judgement leaves every register. -/
theorem writes_edgeSeen (s : State) (pulses : Option (Nat × Nat)) : Writes (fun _ o => o = 0x110 ∨ o = 0x148) s (edgeSeen s pulses) := by
  have h₁ : Writes (fun _ o => o = 0x110 ∨ o = 0x148) s (s.bump (pg .clk 0) Reg.CLK_SYSREF_STAT_SEEN_CNT 1) :=
    .wr (.refl _ _) (.inr rfl) (by decide)
  unfold edgeSeen
  split
  · exact h₁
  · exact (writes_eventIf ..).next (.wrs (.ite ((writes_eventIf ..).next (.wr h₁ (.inl rfl) (by decide))) h₁) (.inr rfl) (by rfl))

theorem does_edgeSeen (s : State) (pulses : Option (Nat × Nat)) : Does evented s (edgeSeen s pulses) := by
  have h₁ : Does evented s (s.bump (pg .clk 0) Reg.CLK_SYSREF_STAT_SEEN_CNT 1) := (does_bump ..).next (.refl _ _) rfl
  unfold edgeSeen
  split
  · exact h₁
  · exact (does_eventIf ..).next ((does_wrs ..).next (.ite ((does_setDlbPol ..).next h₁ rfl) h₁) rfl) rfl

theorem seen_edgeSeen (s : State) (pulses : Option (Nat × Nat)) : (edgeSeen s pulses).rd (pg .clk 0) Reg.CLK_SYSREF_STAT_SEEN_CNT =
    Reg.CLK_SYSREF_STAT_SEEN_CNT.cut (s.rd (pg .clk 0) Reg.CLK_SYSREF_STAT_SEEN_CNT + 1) := by
  have h₁ : (s.bump (pg .clk 0) Reg.CLK_SYSREF_STAT_SEEN_CNT 1).rd (pg .clk 0) Reg.CLK_SYSREF_STAT_SEEN_CNT =
      Reg.CLK_SYSREF_STAT_SEEN_CNT.cut (s.rd (pg .clk 0) Reg.CLK_SYSREF_STAT_SEEN_CNT + 1) := rd_wr_self _ _ _ _
  unfold edgeSeen
  split
  · exact h₁
  · rw [rd_eventIf _ _ _ _ _ (by decide) (by decide), rd_wrs_ne _ rfl (by decide) rfl]
    split
    · unfold State.setDlbPol
      rw [rd_eventIf _ _ _ _ _ (by decide) (by decide), rd_wr_page _ _ (by decide) (by decide) (by decide)]
      exact h₁
    · exact h₁

theorem execSysrefEdge_eq (t : Nat) (phaseErr : BitVec 16) (pulses : Option (Nat × Nat)) (falling : Bool) (s : State) :
    exec (.sysrefEdge t phaseErr pulses falling) s = .next
      (let s := edgeSeen (s.advance t) pulses
       match s.rd (pg .clk 0) Reg.CLK_SYSREF_CTL_MODE with
        | 2 => s.wr (pg .clk 0) Reg.CLK_SYSREF_STAT_PHASE_ERR (unsigned 16 (phaseErr.toInt + s.lemcError (s.tick + 16)))
        | 1 =>
          if !s.on (pg .clk 0) Reg.CLK_SYSREF_CTL_ARM then s
          else if s.clk.phase = 4 then ((s.wr (pg .clk 0) Reg.CLK_SYSREF_STAT_PHASE_ERR phaseErr.toNat).align falling).setPhase 5
          else if s.gated then s
          else
            let s := s.wr (pg .clk 0) Reg.CLK_SYSREF_STAT_PHASE_ERR phaseErr.toNat
            if s.running.isEmpty then s.align falling
            else (s.wr (pg .clk 0) Reg.CLK_SYSREF_CTL_ARM 0).eventIf (1 < phaseErr.toInt || phaseErr.toInt < -1) .clk 0 6
        | _ => s) := by
  cases pulses <;> rfl

theorem evReg_018 (q : Nat) : evReg q 0x018 = false := by simp [evReg]
theorem evReg_100 (q : Nat) : evReg q 0x100 = false := by simp [evReg]

/-- The distance from a LEMC boundary depends on the links' pages, the divider and the last alignment. -/
theorem lemcError_congr {s u : State} (hi : u.ing = s.ing)
    (hr : ∀ q f, f.placed → f.off ∈ [0x018, 0x100, 0x138] → evReg q f.off = false → u.rd q f = s.rd q f) (t : Nat) :
    u.lemcError t = s.lemcError t := by
  have hon : u.linkOn = s.linkOn := by
    funext l
    unfold State.linkOn State.inEpoch State.linkParked State.pstateAct State.lnk State.on
    rw [hi, hr _ _ (by decide) (by decide) (evReg_018 _), hr _ (Reg.PG_STAT_PSTATE_ACT _) (by simp [Fld.placed, Reg.PG_STAT_PSTATE_ACT]) (by simp [Reg.PG_STAT_PSTATE_ACT]) (evReg_018 _)]
  have hper : u.lemcPeriod = s.lemcPeriod := by
    funext l
    unfold State.lemcPeriod
    rw [hr _ Reg.LNK_LINK_CFG_LEMC_K_M1 (by decide) (by decide) (evReg_100 _), hr (pg .clk 0) _ (by decide) (by decide) (by decide)]
  have hsub : ∀ l, u.rd (pg .lnk l) Reg.LNK_LINK_CFG_SUBCLASS = s.rd (pg .lnk l) Reg.LNK_LINK_CFG_SUBCLASS := fun l =>
    hr _ _ (by decide) (by decide) (evReg_100 _)
  unfold State.lemcError
  simp only [hon, hper, hsub, hi]

theorem sysrefEdge_measured (t : Nat) (phaseErr : BitVec 16) (pulses : Option (Nat × Nat)) (falling : Bool) {s : State}
    (hm : s.rd (pg .clk 0) Reg.CLK_SYSREF_CTL_MODE = 2) : Gives (.sysrefEdge t phaseErr pulses falling) s fun u =>
      u.rd (pg .clk 0) Reg.CLK_SYSREF_STAT_PHASE_ERR = unsigned 16 (phaseErr.toInt + (s.advance t).lemcError ((s.advance t).tick + 16)) ∧
      u.rd (pg .clk 0) Reg.CLK_SYSREF_STAT_SEEN_CNT =
        Reg.CLK_SYSREF_STAT_SEEN_CNT.cut (s.rd (pg .clk 0) Reg.CLK_SYSREF_STAT_SEEN_CNT + 1) := by
  have hw := writes_edgeSeen (s.advance t) pulses
  have hd := does_edgeSeen (s.advance t) pulses
  have hmode : (edgeSeen (s.advance t) pulses).rd (pg .clk 0) Reg.CLK_SYSREF_CTL_MODE = 2 := by
    rw [hw.reads _ _ (by decide) (by decide) (by decide), advance_rd, hm]
  refine ⟨_, execSysrefEdge_eq t phaseErr pulses falling s, ?_⟩
  simp only [hmode]
  have hlemc : (edgeSeen (s.advance t) pulses).lemcError = (s.advance t).lemcError :=
    funext (lemcError_congr (hd.only .ing (by decide)) fun q f hf ho he => hw.reads q f hf he (by
      simp only [List.mem_cons, List.not_mem_nil, or_false] at ho
      omega))
  have htick : (edgeSeen (s.advance t) pulses).tick = (s.advance t).tick := hd.only .tick (by decide)
  rw [hlemc, htick, rd_wr_self, rd_wr_field _ _ (by decide) (by decide) (by decide), seen_edgeSeen, advance_rd]
  exact ⟨unsigned_mod 16 _, rfl⟩

theorem align_arm (s : State) (falling : Bool) : (s.align falling).rd (pg .clk 0) Reg.CLK_SYSREF_CTL_ARM = 0 ∧
    (s.align falling).rd (pg .clk 0) Reg.CLK_JESD_DIV_D_ACT = Reg.CLK_JESD_DIV_D_ACT.cut (s.rd (pg .clk 0) Reg.CLK_JESD_DIV_D) := by
  have hload : ∀ (v : State), Writes (fun q _ => q ≠ pg .clk 0) v v.tbLoad := fun v =>
    writes_tbLoad v (by decide) (fun i => by simp [pg, firstPage]; omega)
  unfold State.align
  extract_lets p auto inv was s₁ s₂ old s₃ _ s₄
  have hread : ∀ f : Fld, f.placed → evReg (pg .clk 0) f.off = false → (s₄.event .clk 0 5).rd (pg .clk 0) f = s₁.rd (pg .clk 0) f := by
    intro f hf he
    rw [rd_event _ _ _ _ hf he]
    show s₃.rd (pg .clk 0) f = _
    rw [(hload s₂).reads _ _ hf he (fun h => h rfl)]
    exact rd_eventIf _ _ _ _ _ hf he
  rw [hread _ (by decide) (by decide), hread _ (by decide) (by decide)]
  exact ⟨rd_wrs_eq _ rfl (by decide) rfl, rd_wrs_eq _ rfl (by decide) rfl⟩

theorem sysrefEdge_awaited (t : Nat) (phaseErr : BitVec 16) (pulses : Option (Nat × Nat)) (falling : Bool) {s : State}
    (hm : s.rd (pg .clk 0) Reg.CLK_SYSREF_CTL_MODE = 1) (ha : s.on (pg .clk 0) Reg.CLK_SYSREF_CTL_ARM = true) (hp : s.clk.phase = 4) :
    Gives (.sysrefEdge t phaseErr pulses falling) s fun u => u.clk.phase = 5 ∧ u.rd (pg .clk 0) Reg.CLK_SYSREF_CTL_ARM = 0 ∧
      u.rd (pg .clk 0) Reg.CLK_JESD_DIV_D_ACT = Reg.CLK_JESD_DIV_D_ACT.cut (s.rd (pg .clk 0) Reg.CLK_JESD_DIV_D) := by
  have hw := writes_edgeSeen (s.advance t) pulses
  have hmode : (edgeSeen (s.advance t) pulses).rd (pg .clk 0) Reg.CLK_SYSREF_CTL_MODE = 1 := by
    rw [hw.reads _ _ (by decide) (by decide) (by decide), advance_rd, hm]
  have harm : (edgeSeen (s.advance t) pulses).on (pg .clk 0) Reg.CLK_SYSREF_CTL_ARM = true := by
    rw [on_of_rd (hw.reads _ _ (by decide) (by decide) (by decide)), on_advance, ha]
  have hphase : (edgeSeen (s.advance t) pulses).clk.phase = 4 := by
    rw [(does_edgeSeen (s.advance t) pulses).only .clk (by decide), State.advance_clk]
    exact hp
  have hdiv : (edgeSeen (s.advance t) pulses).rd (pg .clk 0) Reg.CLK_JESD_DIV_D = s.rd (pg .clk 0) Reg.CLK_JESD_DIV_D := by
    rw [hw.reads _ _ (by decide) (by decide) (by decide), advance_rd]
  refine ⟨_, execSysrefEdge_eq t phaseErr pulses falling s, ?_⟩
  simp only [hmode, harm, hphase, Bool.not_true, Bool.false_eq_true, if_false, if_true]
  obtain ⟨h₁, h₂⟩ := align_arm ((edgeSeen (s.advance t) pulses).wr (pg .clk 0) Reg.CLK_SYSREF_STAT_PHASE_ERR phaseErr.toNat) falling
  rw [rd_wr_field _ _ (by decide) (by decide) (by decide), hdiv] at h₂
  exact ⟨rfl, h₁, h₂⟩

theorem sysrefArm_gives (t : Nat) {s : State} (h : s.hostOpen (pg .clk 0)) :
    Gives (.sysrefArm t) s fun u => u.on (pg .clk 0) Reg.CLK_SYSREF_CTL_ARM = true := by
  refine .of_next rfl ?_
  rw [hosted_of_open (hostOpen_advance t h)]
  unfold State.on
  rw [rd_wr_self]
  rfl

/-! The timebase's snapshot. -/

theorem ptpOf_advance (s : State) (t n : Nat) : (s.advance t).ptpOf n = s.ptpOf n := by
  simp only [State.ptpOf, rdA_eq_rd, advance_rd]

theorem timebaseSnap_gives (t : Nat) {s : State} (h : s.hostOpen (pg .tmb 0)) : Gives (.timebaseSnap t) s fun u =>
    u.rd (pg .tmb 0) Reg.TMB_SNAP_TICK_TICKS = Reg.TMB_SNAP_TICK_TICKS.cut (s.advance t).tick ∧
      u.rd (pg .tmb 0) Reg.TMB_SNAP_SEC_SEC = Reg.TMB_SNAP_SEC_SEC.cut (s.ptpOf (s.advance t).tick).1 ∧
      u.rd (pg .tmb 0) Reg.TMB_SNAP_NS_NS_FRAC = Reg.TMB_SNAP_NS_NS_FRAC.cut (s.ptpOf (s.advance t).tick).2 := by
  refine .of_next rfl ?_
  rw [hosted_of_open (hostOpen_advance t h), ← ptpOf_advance s t]
  unfold State.tbSnap
  exact ⟨rd_wrs_eq _ rfl (by decide) rfl, rd_wrs_eq _ rfl (by decide) rfl, rd_wrs_eq _ rfl (by decide) rfl⟩

/-- Settles O8: the trim by its bounds and its step, an edge by its mode, arming and the snapshot by what they write. -/
theorem trimAndTimebaseCommandsComplete : Obligations.TrimAndTimebaseCommandsComplete := by
  unfold Obligations.TrimAndTimebaseCommandsComplete
  exact ⟨fun t target slew _ h => ftrimWrite_gives t target slew h, fun t _ hg ht => trimStep_gives t hg ht,
    fun t e pulses falling _ hm => sysrefEdge_measured t e pulses falling hm,
    fun t e pulses falling _ hm ha hp => sysrefEdge_awaited t e pulses falling hm ha hp,
    fun t _ h => sysrefArm_gives t h, fun t _ h => timebaseSnap_gives t h⟩

end Sys2Proof.Machine
end

section
/-! PROOF. Warm resets and the reset of the host endpoint (R129, R130). -/
namespace Sys2Proof.Machine

/-- A warm reset that takes the part down: what it asserts, shows and keeps. -/
theorem warmReset_holds {code : Nat} {s : State} (hs : s.pwr.started = true) (hw : s.boot.warmHeld = false) (hc : code < 8) :
    (s.warmReset code).boot.warmHeld = true ∧ (s.warmReset code).rd (pg .glb 0) Reg.GLB_BOOT_STAT_LAST_RESET = code ∧
      (s.warmReset code).mem.bytes = s.mem.bytes ∧ (s.warmReset code).flash = s.flash ∧ (s.warmReset code).pending = s.pending := by
  unfold State.warmReset
  rw [if_neg (by rw [hs, hw]; decide)]
  extract_lets first s₁ loading w a b c d e f g i j k s₂ s₃ s₄ s₅
  have h₁ : Does [.rf, .ic] s s₁ := .each _ (.refl _ _) fun _ _ h => (does_t1Drop ..).next h rfl
  have h₃ : Does [.rf] s₂ s₃ := .each _ (.refl _ _) fun _ _ h => (does_wr ..).next h rfl
  have h₄ : Does [.rf] s₂ s₄ := .each _ h₃ fun _ _ h => (does_wrs ..).next h rfl
  have h₅ : Does [.rf] s₂ s₅ := .ite ((does_setDigest ..).next ((does_wrs ..).next h₄ rfl) rfl) h₄
  have h₆ : Does [.rf] s₂ ((s₅.bumpSat (pg .glb 0) Reg.GLB_BOOT_STAT_WARM_CNT 1).wr (pg .glb 0) Reg.GLB_BOOT_STAT_LAST_RESET code) :=
    (does_wr ..).next ((does_bumpSat ..).next h₅ rfl) rfl
  refine ⟨?_, ?_, ?_, ?_, ?_⟩
  · rw [h₆.only .boot (by decide)]
    rfl
  · rw [rd_wr_self]
    exact Nat.mod_eq_of_lt (lt_of_lt_of_le hc (by decide))
  · rw [h₆.only .mem (by decide)]
    show s₁.mem.bytes = s.mem.bytes
    rw [h₁.only .mem (by decide)]
  · rw [h₆.only .flash (by decide)]
    exact h₁.only .flash (by decide)
  · rw [h₆.only .pending (by decide)]
    exact h₁.only .pending (by decide)

theorem advance_warmReset (t : Nat) {code : Nat} {s : State} (hs : s.pwr.started = true) (hw : s.boot.warmHeld = false) (hc : code < 8) :
    ((s.advance t).warmReset code).boot.warmHeld = true ∧ ((s.advance t).warmReset code).rd (pg .glb 0) Reg.GLB_BOOT_STAT_LAST_RESET = code ∧
      ((s.advance t).warmReset code).mem.bytes = s.mem.bytes ∧ ((s.advance t).warmReset code).flash = s.flash ∧
      ((s.advance t).warmReset code).pending = s.pending := by
  have hd := does_advance s t
  obtain ⟨hheld, hcode, hbytes, hflash, hpending⟩ := warmReset_holds (s := s.advance t) (code := code)
    (by rw [hd.only .pwr (by decide), hs]) (by rw [hd.only .boot (by decide), hw]) hc
  exact ⟨hheld, hcode, by rw [hbytes, hd.only .mem (by decide)], by rw [hflash, hd.only .flash (by decide)],
    by rw [hpending, hd.only .pending (by decide)]⟩

theorem rstNAssert_gives (t : Nat) {periods : Nat} {s : State} (hs : s.pwr.started = true) (hw : s.boot.warmHeld = false) (hp : 100 ≤ periods) :
    Gives (.rstNAssert t periods) s fun u => u.boot.warmHeld = true ∧ u.rd (pg .glb 0) Reg.GLB_BOOT_STAT_LAST_RESET = 3 ∧
      u.mem.bytes = s.mem.bytes ∧ u.flash = s.flash ∧ u.pending = s.pending := by
  refine .of_next rfl ?_
  rw [if_neg (by omega)]
  exact advance_warmReset t hs hw (by decide)

theorem pcieHotReset_resets (t : Nat) {s : State} (hs : s.pwr.started = true) (hw : s.boot.warmHeld = false)
    (hi : s.on (pg .glb 0) Reg.GLB_BOOT_CTL_HOST_ISOLATE = false) : Gives (.pcieHotReset t) s fun u => u.boot.warmHeld = true ∧
      u.rd (pg .glb 0) Reg.GLB_BOOT_STAT_LAST_RESET = 4 ∧ u.mem.bytes = s.mem.bytes ∧ u.flash = s.flash ∧ u.pending = s.pending := by
  refine .of_next rfl ?_
  rw [if_neg (by rw [(does_advance s t).only .pwr (by decide), hs]; decide), if_neg (by rw [on_advance, hi]; decide)]
  exact advance_warmReset t hs hw (by decide)

theorem pePerstNAssert_resets (t : Nat) {s : State} (hs : s.pwr.started = true) (hw : s.boot.warmHeld = false)
    (hi : s.on (pg .glb 0) Reg.GLB_BOOT_CTL_HOST_ISOLATE = false) : Gives (.pePerstNAssert t) s fun u => u.boot.warmHeld = true ∧
      u.rd (pg .glb 0) Reg.GLB_BOOT_STAT_LAST_RESET = 5 ∧ u.mem.bytes = s.mem.bytes ∧ u.flash = s.flash ∧ u.pending = s.pending := by
  refine .of_next rfl ?_
  rw [if_neg (by rw [(does_advance s t).only .pwr (by decide), hs]; decide), if_neg (by rw [on_advance, hi]; decide)]
  exact advance_warmReset t hs hw (by decide)

/-! The host endpoint alone. -/

theorem smFind_filter_none {α : Type} {keep : Nat × α → Bool} {k : Nat} (hk : ∀ v, keep (k, v) = false) (m : SMap α) :
    smFind k (m.filter keep) = none := by
  induction m with
  | nil => rfl
  | cons x m ih =>
    obtain ⟨j, v⟩ := x
    by_cases hj : k = j
    · subst hj
      rw [List.filter_cons_of_neg (by simp [hk])]
      exact ih
    · by_cases hx : keep (j, v) = true
      · rw [List.filter_cons_of_pos hx]
        simp [smFind, Ne.symm hj, ih]
      · rw [List.filter_cons_of_neg hx]
        exact ih

theorem hostReset_up (s : State) : s.hostReset.rd (pg .pci 0) Reg.PCI_LINK_STAT_UP = 0 := by
  unfold State.hostReset State.rd smGet
  extract_lets p keep
  have hk : keep (fkey p Reg.PCI_LINK_STAT_UP) = false := by decide +kernel
  rw [smFind_filter_none (fun _ => hk)]
  rfl

theorem pcieHotReset_isolated (t : Nat) {s : State} (hs : s.pwr.started = true) (hi : s.on (pg .glb 0) Reg.GLB_BOOT_CTL_HOST_ISOLATE = true) :
    Gives (.pcieHotReset t) s fun u => u.boot = { s.boot with linkUp := false } ∧ u.mem.bytes = s.mem.bytes ∧
      u.rd (pg .pci 0) Reg.PCI_LINK_STAT_UP = 0 := by
  have hd := does_advance s t
  refine .of_next rfl ?_
  rw [if_neg (by rw [hd.only .pwr (by decide), hs]; decide), if_pos (by rw [on_advance, hi])]
  refine ⟨?_, ?_, ?_⟩
  · rw [event_boot]
    exact congrArg (fun b : BootSt => { b with linkUp := false }) (hd.only .boot (by decide))
  · rw [event_mem]
    show (s.advance t).mem.bytes = s.mem.bytes
    rw [hd.only .mem (by decide)]
  · rw [rd_event _ _ _ _ (by decide) (by decide)]
    exact hostReset_up _

theorem warmResetRelease_gives (t : Nat) {s : State} (hw : s.boot.warmHeld = true) : Gives (.warmResetRelease t) s fun u =>
    u.boot = { s.boot with warmHeld := false } ∧ u.rd (pg .glb 0) Reg.GLB_BOOT_STAT_STEP = 3 := by
  have hd := does_advance s t
  refine .of_next rfl ?_
  rw [if_neg (by rw [hd.only .boot (by decide), hw]; decide)]
  exact ⟨congrArg (fun b : BootSt => { b with warmHeld := false }) (hd.only .boot (by decide)), rd_wr_self _ _ _ _⟩

/-- Settles O10: a warm reset by the record it starts from, a reset of the endpoint by the page whose registers it drops. -/
theorem warmResetCommandsComplete : Obligations.WarmResetCommandsComplete := by
  unfold Obligations.WarmResetCommandsComplete
  exact ⟨fun t _ _ hs hw hp => rstNAssert_gives t hs hw hp, fun t _ hs hw hi => pcieHotReset_resets t hs hw hi,
    fun t _ hs hi => pcieHotReset_isolated t hs hi, fun t _ hs hw hi => pePerstNAssert_resets t hs hw hi,
    fun t _ hw => warmResetRelease_gives t hw⟩

end Sys2Proof.Machine
end

section
/-!
PROOF. A transfer's end needs the engine's page to run or the transfer to be aborted (R447): DMA_DONE leaves a busy engine of a page that is not
enabled as it was, also where every word has moved.
-/
namespace Sys2Proof.Machine

open Sys2Proof.Tests

/- The kernel evaluations below wait for one another: each in turn, not each on a thread of its own. -/
set_option Elab.async false

/-- A started part whose DMA engine 0 reads GO 1 with no word to move, on a page that is not enabled. -/
def engineOff : State := st9 [(pg .dma 0, Reg.DMA_DMA_CTL_GO, 1), (pg .dma 0, Reg.DMA_DMA_LEN_WORDS, 0)]

theorem dmaDone_engineOff : ∃ u, exec (.dmaDone 0 0 0) engineOff = .next u ∧ u.rd (pg .dma 0) Reg.DMA_DMA_CTL_GO = 1 :=
  ⟨_, rfl, by decide +kernel⟩

/-- Refutes O33: in `engineOff` no word is left to move and the clocks run, yet the engine's GO still reads 1 after DMA_DONE. -/
theorem not_dmaCommandsComplete : ¬ Obligations.DmaCommandsComplete := by
  unfold Obligations.DmaCommandsComplete
  rintro ⟨_, _, done, _⟩
  obtain ⟨u, hu, hgo⟩ := dmaDone_engineOff
  have hend := (done 0 0 0 engineOff (by decide +kernel) (by decide +kernel) (by decide +kernel) (by decide +kernel)).at_next hu
  exact absurd (hend.1.symm.trans hgo) (by decide)

end Sys2Proof.Machine
end

section
/-! PROOF. What raising an event keeps beside registers: the reliability unit's own state, what has left the part, the vectors armed. -/
namespace Sys2Proof.Machine

/-- What every step of an event's raising keeps: of the reliability unit all but its causes, log and occurrences, of the event unit all but
its counts and the pending vectors, of what has left the part everything; an armed vector stays armed or sends its message. -/
structure RaiseStep (s u : State) : Prop where
  rel : u.rel = { s.rel with nextCause := u.rel.nextCause, flog := u.rel.flog, occ := u.rel.occ }
  ev : u.ev = { s.ev with raised := u.ev.raised, msixPending := u.ev.msixPending }
  out : s.out ⊆ u.out
  armed : ∀ v, v < 256 → s.vecArmed v = true → u.vecArmed v = true ∨ .msix v ∈ u.out

theorem RaiseStep.refl (s : State) : RaiseStep s s := ⟨rfl, rfl, fun _ h => h, fun _ _ h => .inl h⟩

theorem RaiseStep.trans {s u v : State} (h : RaiseStep s u) (k : RaiseStep u v) : RaiseStep s v where
  rel := by
    rw [k.rel, h.rel]
  ev := by
    rw [k.ev, h.ev]
  out := fun _ ho => k.out (h.out ho)
  armed x hx hs := by
    rcases h.armed x hx hs with ha | ho
    · exact k.armed x hx ha
    · exact .inr (k.out ho)

theorem RaiseStep.foldl {f : State → Nat → State} (hf : ∀ s e, RaiseStep s (f s e)) (l : List Nat) (s : State) : RaiseStep s (l.foldl f s) := by
  induction l generalizing s with
  | nil => exact .refl s
  | cons a l ih => exact (hf s a).trans (ih _)

/-- A step that leaves the register file. -/
theorem RaiseStep.still {s u : State} (hf : u.rf = s.rf) (hr : u.rel = { s.rel with nextCause := u.rel.nextCause, flog := u.rel.flog, occ := u.rel.occ })
    (he : u.ev = { s.ev with raised := u.ev.raised, msixPending := u.ev.msixPending }) (ho : s.out ⊆ u.out) : RaiseStep s u :=
  ⟨hr, he, ho, fun v _ h => .inl (by unfold State.vecArmed at *; rwa [rd_of_rf hf])⟩

/-- A write that is none of VEC_ARM. -/
theorem RaiseStep.wr (s : State) {p : Nat} {f : Fld} (v : Nat) (hf : f.placed) (hn : p ≠ pg .eva 0 ∨ f.off < 0x180) :
    RaiseStep s (s.wr p f v) := by
  refine ⟨rfl, rfl, fun _ h => h, fun x hx h => .inl ?_⟩
  unfold State.vecArmed at *
  rw [rd_wr_other s v hf (by simp only [Fld.placed, Reg.EVA_VEC_ARM_ARM]; omega) (fun e => ?_)]
  · exact h
  · obtain ⟨hp, ho, -⟩ := e
    simp only [Reg.EVA_VEC_ARM_ARM] at ho
    rcases hn with hn | hn
    · exact hn hp.symm
    · omega

theorem RaiseStep.wrs (s : State) {p : Nat} (l : List (Fld × Nat)) (hp : p ≠ pg .eva 0) (hl : ∀ x ∈ l, x.1.placed) : RaiseStep s (s.wrs p l) := by
  induction l generalizing s with
  | nil => exact .refl s
  | cons x l ih =>
    exact (RaiseStep.wr s x.2 (hl x (by simp)) (.inl hp)).trans (ih _ fun y hy => hl y (by simp [hy]))

theorem testBit_add_two_pow {n i : Nat} (h : n.testBit i = false) (j : Nat) : (n + 2 ^ i).testBit j = if j = i then true else n.testBit j := by
  have hr : n % 2 ^ i < 2 ^ i := Nat.mod_lt _ (by positivity)
  have hn : n = 2 ^ i * (n / 2 ^ i) + n % 2 ^ i := (Nat.div_add_mod n (2 ^ i)).symm
  have ha : n / 2 ^ i % 2 = 0 := by
    rw [Nat.testBit_eq_decide_div_mod_eq] at h
    have := of_decide_eq_false h
    omega
  have hs : n + 2 ^ i = 2 ^ i * (n / 2 ^ i + 1) + n % 2 ^ i := by rw [Nat.mul_add]; omega
  rw [hs, Nat.testBit_two_pow_mul_add _ hr]
  conv_rhs => rw [hn, Nat.testBit_two_pow_mul_add _ hr]
  split
  · rw [if_neg (by omega)]
  · by_cases hj : j = i
    · rw [if_pos hj, hj, Nat.sub_self, Nat.testBit_zero]
      exact decide_eq_true (by omega)
    · obtain ⟨k, hk⟩ : ∃ k, j - i = k + 1 := ⟨j - i - 1, by omega⟩
      rw [if_neg hj, hk, Nat.testBit_succ, Nat.testBit_succ, show (n / 2 ^ i + 1) / 2 = n / 2 ^ i / 2 by omega]

theorem testBit_sub_two_pow {n i : Nat} (h : n.testBit i = true) (j : Nat) : (n - 2 ^ i).testBit j = if j = i then false else n.testBit j := by
  have hle : 2 ^ i ≤ n := Nat.ge_two_pow_of_testBit h
  have hclear : (n - 2 ^ i).testBit i = false := by
    rw [Nat.testBit_eq_decide_div_mod_eq] at h ⊢
    have hd := Nat.sub_mul_div n (2 ^ i) 1
    rw [Nat.mul_one] at hd
    rw [hd]
    have := of_decide_eq_true h
    exact decide_eq_false (by omega)
  have hset := testBit_add_two_pow hclear j
  rw [Nat.sub_add_cancel hle] at hset
  by_cases hj : j = i
  · rw [if_pos hj, hj, hclear]
  · rw [if_neg hj, hset, if_neg hj]

theorem testBit_putBit (n i j : Nat) (b : Bool) : (putBit n i b).testBit j = if j = i then b else n.testBit j := by
  unfold putBit setBit clrBit
  cases b <;> cases h : n.testBit i <;> simp only [if_true, if_false, Bool.false_eq_true]
  · split
    · rw [‹j = i›, h]
    · rfl
  · exact testBit_sub_two_pow h j
  · exact testBit_add_two_pow h j
  · split
    · rw [‹j = i›, h]
    · rfl

theorem setVecArmed_armed (s : State) {v x : Nat} (hv : v < 256) (hx : x < 256) (b : Bool) :
    (s.setVecArmed x b).vecArmed v = if v = x then b else s.vecArmed v := by
  unfold State.setVecArmed State.vecArmed
  by_cases hq : v / 64 = x / 64
  · rw [hq, rd_wr_self, show (Reg.EVA_VEC_ARM_ARM (x / 64)).width = 64 from rfl, testBit_mod_word (by omega), testBit_putBit]
    by_cases hvx : v = x
    · rw [if_pos hvx, if_pos (by rw [hvx])]
    · rw [if_neg hvx, if_neg (by omega)]
  · rw [rd_wr_field _ _ (by simp only [Fld.placed, Reg.EVA_VEC_ARM_ARM]; omega) (by simp only [Fld.placed, Reg.EVA_VEC_ARM_ARM]; omega)
      (by simp only [Reg.EVA_VEC_ARM_ARM]; omega), if_neg (fun h => hq (by rw [h]))]

theorem raiseStep_msixSend (s : State) {x : Nat} (hx : x < 256) : RaiseStep s (s.msixSend x) := by
  unfold State.msixSend
  split
  · refine ⟨rfl, rfl, fun _ h => .tail _ h, fun v hv h => ?_⟩
    by_cases hvx : v = x
    · exact .inr (hvx ▸ .head _)
    · exact .inl ((setVecArmed_armed s hv hx false).trans (by rw [if_neg hvx, h]))
  · exact .still rfl rfl rfl fun _ h => h

theorem raiseStep_emit (s : State) (o : Output) : RaiseStep s (s.emit o) := .still rfl rfl rfl fun _ h => .tail _ h

theorem raiseStep_evqPush (s : State) {n : Nat} (hn : n < 64) (id : Nat) : RaiseStep s (s.evqPush n id) := by
  unfold State.evqPush
  simp only []
  split
  · exact .still rfl rfl rfl fun _ h => h
  · exact .wr _ _ (by decide) (.inl (by simp [pg, firstPage]; omega))

theorem raiseStep_deliver (s : State) (id : Nat) : RaiseStep s (s.deliver id).1 := by
  have hx := bits7_lt (s.route id)
  unfold State.deliver
  simp only []
  split
  · exact .refl s
  · split
    · split
      · exact raiseStep_msixSend s hx
      · exact .refl s
    · split
      · exact raiseStep_evqPush s ‹_› id
      · exact .refl s
    · exact raiseStep_emit s _
    · split
      · exact .still rfl rfl rfl fun _ h => h
      · exact .refl s
    · exact .refl s

theorem raiseStep_when {f : State → State} (hf : ∀ s, RaiseStep s (f s)) (s : State) (b : Bool) : RaiseStep s (s.when b f) := by
  cases b
  · exact .refl s
  · exact hf s

theorem raiseStep_logFault (s : State) (e : FlogEntry) : RaiseStep s (s.logFault e) := by
  have h : RaiseStep s { s with rel := { s.rel with flog := smInsert (s.rd (pg .vgl 0) Reg.VGL_FLOG_WCNT_CNT % 64) e s.rel.flog } } :=
    .still rfl rfl rfl fun _ h => h
  exact h.trans (.wr _ _ (by decide) (.inl (by decide)))

theorem raiseStep_severity (s : State) (id : Nat) : RaiseStep s (s.severity id) := by
  unfold State.severity
  split
  · exact .refl s
  · refine RaiseStep.trans ?_ (raiseStep_when (fun s => raiseStep_emit s _) _ _)
    refine RaiseStep.trans ?_ (raiseStep_when (fun s => raiseStep_logFault s _) _ _)
    split
    · exact .still rfl rfl rfl fun _ h => h
    · exact .still rfl rfl rfl fun _ h => h

theorem raiseStep_transit (n : Nat) (s : State) (id : Nat) : RaiseStep s (State.transit n s id) := by
  induction n generalizing s id with
  | zero => exact .refl s
  | succ n ih =>
    unfold State.transit
    have h := (raiseStep_severity s id).trans (.wr _ (p := evPage id) (f := Reg.EV_PEND)
      (setBit ((s.severity id).rd (evPage id) Reg.EV_PEND) (evBit id)) (by decide) (.inr (by decide)))
    simp only []
    split
    · exact (h.trans (raiseStep_deliver _ id)).trans (.foldl (fun s e => ih s e) _ _)
    · exact h

theorem raiseStep_failProbation (s : State) (c : Nat) : RaiseStep s (s.failProbation c) := by
  unfold State.failProbation
  split
  · refine RaiseStep.trans (.wrs s _ (by decide) ?_) (raiseStep_transit 4 _ _)
    simp only [List.forall_mem_cons, List.not_mem_nil, false_imp_iff, implies_true, and_true]
    decide
  · exact .refl s

theorem raiseStep_judge (s : State) (id : Nat) : RaiseStep s (s.judge id) := by
  unfold State.judge
  split
  · exact raiseStep_failProbation s 2
  · exact .refl s

theorem raiseStep_raise (s : State) (id : Nat) : RaiseStep s (s.raise id) := by
  unfold State.raise
  split
  · exact .refl s
  · exact (raiseStep_transit 4 s id).trans (raiseStep_judge _ id)

theorem raiseStep_event (s : State) (b : Blk) (i k : Nat) : RaiseStep s (s.event b i k) := raiseStep_raise s _

theorem raiseStep_eventIf (s : State) (c : Bool) (b : Blk) (i k : Nat) : RaiseStep s (s.eventIf c b i k) := by
  unfold State.eventIf
  split
  · exact raiseStep_event s b i k
  · exact .refl s

theorem raiseStep_setRaw (s : State) (id : Nat) (b : Bool) : RaiseStep s (s.setRaw id b) := by
  unfold State.setRaw
  have h : RaiseStep s (s.wr (evPage id) Reg.EV_RAW (putBit (s.rd (evPage id) Reg.EV_RAW) (evBit id) b)) :=
    .wr _ _ (by decide) (.inr (by decide))
  simp only []
  split
  · exact (h.trans (raiseStep_transit 4 _ id)).trans (raiseStep_judge _ id)
  · exact h

theorem raiseStep_forwardNow (s : State) (id : Nat) : RaiseStep s (s.forwardNow id) :=
  (raiseStep_deliver s id).trans (.foldl (fun s e => raiseStep_raise s e) _ _)

end Sys2Proof.Machine
end

section
/-! PROOF. Vectors, routes, the service watchdog, stale sensors, health counters and availability (R538, R541, R542, R545). -/
namespace Sys2Proof.Machine

theorem rd_wrs_page {p q : Nat} {g : Fld} {l : List (Fld × Nat)} (s : State) (hg : g.placed) (hl : allPlaced l = true) (h : q ≠ p) :
    (s.wrs p l).rd q g = s.rd q g := by
  induction l generalizing s with
  | nil => rfl
  | cons x l ih =>
    simp only [allPlaced, Bool.and_eq_true, decide_eq_true_eq] at hl
    exact (ih _ hl.2).trans (rd_wr_page _ _ hl.1 hg h)

theorem evReg_high {off : Nat} (h : 0x200 ≤ off) (q : Nat) : evReg q off = false := by
  have ne : ∀ n, n < 0x200 → (off == n) = false := fun n hn => beq_eq_false_iff_ne.2 (by omega)
  simp only [evReg, ne _ (show 0x20 < 0x200 by decide), ne _ (show 0x28 < 0x200 by decide), ne _ (show 0x140 < 0x200 by decide),
    ne _ (show 0x180 < 0x200 by decide), ne _ (show 0x120 < 0x200 by decide), ne _ (show 0x128 < 0x200 by decide),
    ne _ (show 0x148 < 0x200 by decide), decide_eq_false (show ¬off < 0x200 by omega), Bool.and_false, Bool.or_false]

/-! Vectors and routes. -/

theorem bitsOf_two_pow {n k : Nat} (h : k < n) : bitsOf n (2 ^ k) = [k] := by
  unfold bitsOf
  rw [List.filter_congr (q := (· == k)) (fun i _ => by rw [Nat.testBit_two_pow, Bool.beq_eq_decide_eq]; exact decide_eq_decide.2 eq_comm), List.filter_beq,
    List.count_eq_one_of_mem List.nodup_range (List.mem_range.2 h)]
  rfl

theorem vecArm_gives (t : Nat) (v : Fin 256) {s : State} (h : s.hostOpen (pg .eva 0)) :
    Gives (.vecArm t v) s fun u => u.vecArmed v = true ∨ Output.msix v.val ∈ u.out := by
  refine .of_next rfl ?_
  rw [hosted_of_open (hostOpen_advance t h)]
  unfold State.vecArmWrite State.each
  rw [bitsOf_two_pow (by omega), List.foldl_cons, List.foldl_nil, show 64 * (v.val / 64) + v.val % 64 = v.val from Nat.div_add_mod ..]
  have harm := setVecArmed_armed (s.advance t) v.isLt v.isLt true
  rw [if_pos rfl] at harm
  simp only []
  split
  · exact (raiseStep_forwardNow _ _).armed v v.isLt harm
  · exact .inl harm

theorem routeWrite_gives (t : Nat) (id : Fin 2048) (route : BitVec 16) {s : State} (h : s.hostOpen (pg .eva (id / 1024))) :
    Gives (.routeWrite t id route) s fun u =>
      u.route id = if routeOk route.toNat then bits route.toNat 15 12 * 2 ^ 12 + bits route.toNat 7 0 else s.route id := by
  refine .of_next rfl ?_
  rw [hosted_of_open (hostOpen_advance t h)]
  unfold State.routeWrite State.route
  split
  · rw [rd_wr_self]
    refine Nat.mod_eq_of_lt ?_
    rw [show (Reg.EVA_ROUTE_R (id.val % 1024 / 4) (id.val % 4)).width = 16 by simp [Fld.width, Reg.EVA_ROUTE_R]]
    unfold bits
    omega
  · rw [rd_event _ _ _ _ (by simp only [Fld.placed, Reg.EVA_ROUTE_R]; omega) (evReg_high (by simp only [Reg.EVA_ROUTE_R]; omega) _), advance_rd]

/-! The service controller's watchdog. -/

theorem serviceRestart_restarts (s : State) : s.serviceRestart.svc.restarting = true ∧ s.serviceRestart.rd (pg .glb 0) Reg.GLB_BOOT_STAT_READY = 0 := by
  refine ⟨rfl, ?_⟩
  unfold State.serviceRestart
  extract_lets s₁ s₂ s₃
  have h₂ : s₂.rd (pg .glb 0) Reg.GLB_BOOT_STAT_READY = s₁.rd (pg .glb 0) Reg.GLB_BOOT_STAT_READY :=
    rd_wr_page _ _ (by decide) (by decide) (by decide)
  calc s₃.rd (pg .glb 0) Reg.GLB_BOOT_STAT_READY
      = s₂.rd (pg .glb 0) Reg.GLB_BOOT_STAT_READY := rd_wrs_page _ (by decide) (by rfl) (by decide)
    _ = s₁.rd (pg .glb 0) Reg.GLB_BOOT_STAT_READY := h₂
    _ = 0 := rd_wr_self _ _ _ _

theorem scWdog_gives (t : Nat) {s : State} (hen : s.on (pg .vgl 0) Reg.VGL_SC_WD_EN = true) (hg : s.gated = false) (hr : s.svc.restarting = false)
    (hready : s.ready = true) (hdue : s.rel.scKick + s.rd (pg .vgl 0) Reg.VGL_SC_WD_TIMEOUT_MS * 1600000 ≤ (s.advance t).tick) :
    Gives (.scWdog t) s fun u => u.svc.restarting = true ∧ u.rd (pg .glb 0) Reg.GLB_BOOT_STAT_READY = 0 := by
  refine .of_next rfl ?_
  rw [if_neg ?_]
  · exact serviceRestart_restarts _
  · have hrel : (s.advance t).rel = s.rel := (does_advance s t).only .rel (by decide)
    have hsvc : (s.advance t).svc = s.svc := (does_advance s t).only .svc (by decide)
    simp only [State.gated, State.ready, on_advance, advance_rd, hrel, hsvc] at hg hready ⊢
    simp only [hen, hg, hr, hready, Bool.not_true, Bool.false_or, decide_eq_true_eq]
    omega

theorem scWdKick_gives (t : Nat) (s : State) : Gives (.scWdKick t true) s fun u => u.rel = { s.rel with scKick := (s.advance t).tick } := by
  refine .of_next rfl ?_
  rw [if_pos rfl]
  unfold State.scKick
  exact congrArg (fun r : RelSt => { r with scKick := (s.advance t).tick }) ((does_advance s t).only .rel (by decide))

/-! Stale sensors and health counters. -/

theorem evReg_stale (i : Nat) : evReg (pg .hka 0) (Reg.HKA_TEMP_STALE i).off = false := by
  simp only [evReg, Reg.HKA_TEMP_STALE, pg, firstPage, Bool.or_eq_false_iff, Bool.and_eq_false_iff, beq_eq_false_iff_ne]
  omega

theorem thermStale_gives (t : Nat) (sensor : Fin 12) {s : State} (hold : (s.advance t).tempStale sensor = true) (hnew : sensor.val ∉ s.rel.stale) :
    Gives (.thermStale t sensor) s fun u => u.rd (pg .hka 0) (Reg.HKA_TEMP_STALE sensor) = 1 ∧ u.rel.stale = sensor.val :: s.rel.stale := by
  have hrel : (s.advance t).rel = s.rel := (does_advance s t).only .rel (by decide)
  refine .of_next rfl ?_
  rw [if_neg (by rw [hold, hrel]; simpa using hnew)]
  refine ⟨?_, ?_⟩
  · rw [rd_event _ _ _ _ (by simp only [Fld.placed, Reg.HKA_TEMP_STALE]; omega) (evReg_stale _)]
    exact (rd_of_rf (s := (s.advance t).wr (pg .hka 0) (Reg.HKA_TEMP_STALE sensor) 1) rfl _ _).trans (rd_wr_self _ _ _ _)
  · rw [(raiseStep_event _ _ _ _).rel]
    show sensor.val :: (s.advance t).rel.stale = _
    rw [hrel]

/-- An enabled counter's update leaves its NOW at the count. -/
theorem hcUpdate_now {s : State} {n : Nat} (hn : n < 16) (hen : s.on (pg .vgl 0) (Reg.VGL_HC_CFG_EN n) = true) :
    (s.hcUpdate n).rd (pg .vgl 0) (Reg.VGL_HC_VAL_NOW n) = unsigned (Reg.VGL_HC_VAL_NOW n).width (s.hcNow n) := by
  have hnow : (Reg.VGL_HC_VAL_NOW n).placed := by simp only [Fld.placed, Reg.VGL_HC_VAL_NOW]; omega
  have he : evReg (pg .vgl 0) (Reg.VGL_HC_VAL_NOW n).off = false := evReg_high (by simp only [Reg.VGL_HC_VAL_NOW]; omega) _
  unfold State.hcUpdate
  extract_lets p v s₁ s₂ above was _ s₃ s₄ lim
  rw [if_neg (by rw [hen]; decide)]
  have h₁ : s₁.rd (pg .vgl 0) (Reg.VGL_HC_VAL_NOW n) = unsigned (Reg.VGL_HC_VAL_NOW n).width v :=
    (rd_wr_self _ _ _ _).trans (unsigned_mod _ _)
  have h₂ : s₂.rd (pg .vgl 0) (Reg.VGL_HC_VAL_NOW n) = s₁.rd (pg .vgl 0) (Reg.VGL_HC_VAL_NOW n) := by
    unfold s₂
    split
    · exact rd_wr_field _ _ (by simp only [Fld.placed, Reg.VGL_HC_VAL_PEAK]; omega) hnow (by simp [Reg.VGL_HC_VAL_PEAK, Reg.VGL_HC_VAL_NOW])
    · rfl
  have h₄ : s₄.rd (pg .vgl 0) (Reg.VGL_HC_VAL_NOW n) = s₂.rd (pg .vgl 0) (Reg.VGL_HC_VAL_NOW n) := by
    unfold s₄
    rw [rd_eventIf _ _ _ _ _ hnow he]
    exact rd_of_rf rfl _ _
  split
  · rw [((evStep_failProbation s₄ 4).reads _ _ hnow he).1, h₄, h₂, h₁]
  · rw [h₄, h₂, h₁]

theorem hcUpdate_leaves {s : State} {n : Nat} (hn : n < 16) {f : Fld} (hf : f.placed) (he : evReg (pg .vgl 0) f.off = false)
    (hne : f.off ≠ 0x300 + 8 * n) : (s.hcUpdate n).rd (pg .vgl 0) f = s.rd (pg .vgl 0) f := by
  have hnow : (Reg.VGL_HC_VAL_NOW n).placed := by simp only [Fld.placed, Reg.VGL_HC_VAL_NOW]; omega
  have hpeak : (Reg.VGL_HC_VAL_PEAK n).placed := by simp only [Fld.placed, Reg.VGL_HC_VAL_PEAK]; omega
  unfold State.hcUpdate
  extract_lets p v s₁ s₂ above was _ s₃ s₄ lim
  have h₁ : s₁.rd (pg .vgl 0) f = s.rd (pg .vgl 0) f := rd_wr_field _ _ hnow hf fun h => hne h.1
  have h₂ : s₂.rd (pg .vgl 0) f = s₁.rd (pg .vgl 0) f := by
    unfold s₂
    split
    · exact rd_wr_field _ _ hpeak hf fun h => hne h.1
    · rfl
  have h₄ : s₄.rd (pg .vgl 0) f = s₂.rd (pg .vgl 0) f := by
    unfold s₄
    rw [rd_eventIf _ _ _ _ _ hf he]
    exact rd_of_rf rfl _ _
  split
  · rfl
  · split
    · rw [((evStep_failProbation s₄ 4).reads _ _ hf he).1, h₄, h₂, h₁]
    · rw [h₄, h₂, h₁]

/-- Counters that are off change nothing. -/
theorem each_hcUpdate_off {s : State} {l : List Nat} (h : ∀ k ∈ l, s.on (pg .vgl 0) (Reg.VGL_HC_CFG_EN k) = false) :
    s.each l State.hcUpdate = s := by
  induction l with
  | nil => rfl
  | cons k l ih =>
    have hk : s.hcUpdate k = s := by
      unfold State.hcUpdate
      extract_lets p
      rw [if_pos (by rw [h k (by simp)]; decide)]
    show (s.hcUpdate k).each l State.hcUpdate = s
    rw [hk]
    exact ih fun j hj => h j (by simp [hj])

theorem range_split {n k : Nat} (h : k < n) : ∃ l, List.range n = List.range k ++ k :: l ∧ ∀ j ∈ l, j < n ∧ j ≠ k := by
  refine ⟨List.range' (k + 1) (n - k - 1), ?_, fun j hj => ?_⟩
  · have happ := List.range'_append_1 (s := 0) (m := k) (n := n - k - 1 + 1)
    rw [Nat.zero_add, show k + (n - k - 1 + 1) = n by omega] at happ
    rw [List.range_eq_range', List.range_eq_range', ← List.range'_succ, happ]
  · rw [List.mem_range'_1] at hj
    omega

theorem hcUpdate_gives (t : Nat) (n : Fin 16) {s : State} (hen : s.on (pg .vgl 0) (Reg.VGL_HC_CFG_EN n) = true)
    (hoff : ∀ k : Fin 16, k ≠ n → s.on (pg .vgl 0) (Reg.VGL_HC_CFG_EN k) = false) (hdue : s.rel.hcAt < (s.advance t).tick / 1600000) :
    Gives (.hcUpdate t) s fun u =>
      u.rd (pg .vgl 0) (Reg.VGL_HC_VAL_NOW n) = unsigned (Reg.VGL_HC_VAL_NOW n).width ((s.advance t).hcNow n) := by
  have hrel : (s.advance t).rel = s.rel := (does_advance s t).only .rel (by decide)
  obtain ⟨l, hl, hlne⟩ := range_split n.isLt
  refine .of_next rfl ?_
  rw [if_neg (by rw [hrel]; omega)]
  generalize hv : ({ (s.advance t) with rel := { (s.advance t).rel with hcAt := (s.advance t).tick / 1600000 } } : State) = v
  have hon : ∀ p f, v.on p f = s.on p f := fun p f => by
    rw [← hv]
    exact on_advance s t p f
  have hothers : ∀ k : Nat, k < 16 → k ≠ n → v.on (pg .vgl 0) (Reg.VGL_HC_CFG_EN k) = false := fun k hk hkn => by
    rw [hon, hoff ⟨k, hk⟩ fun h => hkn (congrArg Fin.val h)]
  have hafter : ∀ k ∈ l, (v.hcUpdate n).on (pg .vgl 0) (Reg.VGL_HC_CFG_EN k) = false := fun k hk => by
    have hk16 := (hlne k hk).1
    rw [on_of_rd (hcUpdate_leaves n.isLt (by simp only [Fld.placed, Reg.VGL_HC_CFG_EN]; omega)
      (evReg_high (by simp only [Reg.VGL_HC_CFG_EN]; omega) _) (by simp only [Reg.VGL_HC_CFG_EN]; omega)), hothers k hk16 (hlne k hk).2]
  have hnow : v.hcNow n = (s.advance t).hcNow n := by rw [← hv]; rfl
  have heach : v.each (List.range 16) State.hcUpdate = v.hcUpdate n := by
    rw [hl]
    unfold State.each
    rw [List.foldl_append, List.foldl_cons]
    have hfirst : (List.range n).foldl State.hcUpdate v = v :=
      each_hcUpdate_off fun k hk => hothers k (by have := List.mem_range.1 hk; omega) (by have := List.mem_range.1 hk; omega)
    rw [hfirst]
    exact each_hcUpdate_off hafter
  rw [heach, ← hnow]
  exact hcUpdate_now n.isLt (by rw [hon, hen])

/-! Availability. -/

theorem avClr_gives (t c : Nat) {s : State} (h : s.hostOpen (pg .vgl 0)) (hc : c = s.rd (pg .vgl 0) Reg.VGL_AV_SEL_CTX) :
    Gives (.avClr t) s fun u => u.rd (pg .vgl 0) Reg.VGL_AV_TOTAL_TICKS =
      Reg.VGL_AV_TOTAL_TICKS.cut (s.rd (pg .vgl 0) Reg.VGL_AV_TOTAL_TICKS - smGet 0 c s.rel.avLost) ∧ smGet 0 c u.rel.avLost = 0 := by
  subst hc
  have hrel : (s.advance t).rel = s.rel := (does_advance s t).only .rel (by decide)
  refine .of_next rfl ?_
  rw [hosted_of_open (hostOpen_advance t h), ← hrel, ← advance_rd (s := s) (t := t), ← advance_rd (s := s) (t := t)]
  refine ⟨rd_wr_self _ _ _ _, ?_⟩
  show (smFind _ (smErase _ _)).getD 0 = 0
  rw [smFind_erase_self]
  rfl

/-- Settles O45: the vector by what raising an event keeps of it, the rest by what each command writes. -/
theorem vigilCommandsComplete : Obligations.VigilCommandsComplete := by
  unfold Obligations.VigilCommandsComplete
  exact ⟨fun t v _ h => vecArm_gives t v h, fun t id route _ h => routeWrite_gives t id route h,
    fun t _ hen hg hr hready hdue => scWdog_gives t hen hg hr hready hdue, fun t s => scWdKick_gives t s,
    fun t sensor _ hold hnew => thermStale_gives t sensor hold hnew, fun t n _ hen hoff hdue => hcUpdate_gives t n hen hoff hdue,
    fun t c _ h hc => avClr_gives t c h hc⟩

end Sys2Proof.Machine
end

section
/-!
PROOF. The service controller takes no command while the clocks are gated (R109): INVALID_OPCODE then leaves the fetched command where it is,
and the statement on command rings, which does not ask for clocks there, fails.
-/
namespace Sys2Proof.Machine
open Sys2Proof.Tests

/- The kernel evaluations below wait for one another: each in turn, not each on a thread of its own. -/
set_option Elab.async false

/-- The state after reset, its clocks gated, with a command of opcode 0 fetched from ring 0. -/
def unknownWhileGated : State := { State.reset with svc := { fetched := [ent 0 0] } }

theorem invalidOpcode_gated : ∃ u, exec (.invalidOpcode 0 0) unknownWhileGated = .next u ∧ u.svc.compl = [] :=
  ⟨_, rfl, by decide +kernel⟩

/-- Refutes O18: in `unknownWhileGated` the service controller does not restart and the oldest command of ring 0 has no opcode of the
firmware's, yet INVALID_OPCODE completes nothing, since the clocks are gated. -/
theorem not_ringCommandsComplete : ¬ Obligations.RingCommandsComplete := by
  unfold Obligations.RingCommandsComplete
  rintro ⟨_, _, _, _, _, unknown⟩
  obtain ⟨u, hu, hnone⟩ := invalidOpcode_gated
  have hdone := (unknown 0 0 (ent 0 0) unknownWhileGated (by decide +kernel) (by decide +kernel) (by decide +kernel)).at_next hu
  exact absurd (hdone.1.symm.trans hnone) (by simp [State.completed])

end Sys2Proof.Machine
end

section
/-!
PROOF. A page written EN 1 has EN_ACT 1 from the next FCLK on (R44), so a read that a channel holds back before the time of BAR2_READ need not
wait at that time: the statement on the host endpoint takes the channels as they stood before, and fails.
-/
namespace Sys2Proof.Machine
open Sys2Proof.Tests

/- The kernel evaluations below wait for one another: each in turn, not each on a thread of its own. -/
set_option Elab.async false

/-- A started part at tick 0, memory channel 0 enabled in this FCLK: the channel does not serve yet. -/
def channelEnabling : State := { stOn [pg .mch 0] [] with page := { enAt := [(pg .mch 0, 0)] } }

theorem locate_channelEnabling : channelEnabling.locate 0 = some ⟨0, 0, 0, 0⟩ ∧ (channelEnabling.advance 1).locate 0 = some ⟨0, 0, 0, 0⟩ := by
  rw [locate_eq]
  have h := ranks
  generalize logicalRanks = k at h ⊢
  rcases h with rfl | rfl <;> decide +kernel

/-- What holds back a read of one byte of channel 0's first rank. -/
theorem bar2Waits_first {s : State} (h : s.locate 0 = some ⟨0, 0, 0, 0⟩) : s.bar2Waits 0 1 =
    (!s.rankHole 0 0 && (s.gated || (s.rankHole 0 0 || s.chanState 0 == 4 || !s.chanServes 0))) := by
  simp only [State.bar2Waits, anyGranule, show granules 0 1 = [0] by decide, List.any_cons, List.any_nil, Bool.or_false, State.beyond,
    State.chanWaits, State.unavailable, h]

theorem channelEnabling_waits : channelEnabling.bar2Waits 0 1 = true := by
  rw [bar2Waits_first locate_channelEnabling.1]
  decide +kernel

theorem channelEnabling_serves : (channelEnabling.advance 1).bar2Waits 0 1 = false := by
  rw [bar2Waits_first locate_channelEnabling.2]
  decide +kernel

theorem bar2Complete_held (s : State) (a n : Nat) : (s.bar2Complete a n).mem.held = s.mem.held := by
  unfold State.bar2Complete State.bar2Range
  split
  · rw [State.emit_mem, event_mem]
    rfl
  · split
    · rfl
    · split
      · rw [State.emit_mem, event_mem]
        rfl
      · rfl

/-- Refutes O27: in `channelEnabling` a read of the byte at offset 0 waits for channel 0, yet BAR2_READ one FCLK later answers it at once and
queues nothing. -/
theorem not_hostEndpointCommandsComplete : ¬ Obligations.HostEndpointCommandsComplete := by
  unfold Obligations.HostEndpointCommandsComplete
  rintro ⟨_, _, _, waits, _⟩
  have hbase : channelEnabling.bar2Addr 0 = 0 := by decide +kernel
  have hbase' : (channelEnabling.advance 1).bar2Addr 0 = 0 := by decide +kernel
  obtain ⟨u, hu, hqueued⟩ := waits 1 0 1 channelEnabling (by rw [hbase]; exact channelEnabling_waits)
  have hanswered : exec (.bar2Read 1 0 1) channelEnabling = .next ((channelEnabling.advance 1).bar2Complete 0 1) := by
    show execBar2Read 1 0 1 channelEnabling = _
    unfold execBar2Read
    simp only []
    rw [hbase', channelEnabling_serves, if_neg (by decide)]
  obtain rfl := Host.Outcome.next.inj (hu.symm.trans hanswered)
  rw [bar2Complete_held, State.advance_mem] at hqueued
  exact absurd hqueued (by simp)

end Sys2Proof.Machine
end

section
/-!
PROOF. Statements that ask for a running block before the time of the command. A page written EN 0 has EN_ACT 0 once 32 FCLK have passed (R44),
so a block that still ran before the command's time need not run at it; the command then changes nothing, and these statements fail.
-/
namespace Sys2Proof.Machine
open Sys2Proof.Tests

/- The kernel evaluations below wait for one another: each in turn, not each on a thread of its own. -/
set_option Elab.async false

/-- A started part at tick 0 in which the pages `ps` were written EN 0 at tick 0, with register fields written: their blocks run until tick 32. -/
def stopping (ps : List Nat) (l : List (Nat × Fld × Nat)) : State :=
  { stOn ps (ps.map (fun p => (p, Reg.PG_CTL_EN (enRst p), 0)) ++ l) with page := { stopAt := ps.map fun p => (p, 0) } }

/-! Trigger units. -/

/-- Trigger unit 0, enabled and active, on a page that stops. -/
def truStopping : State := stopping [pg .tru 0] [(pg .tru 0, Reg.TRU_TRU_CFG_EN, 1), (pg .tru 0, Reg.TRU_TRU_STAT_ACTIVE, 1)]

theorem truForce_stopping : ∃ u, exec (.truForce 100 0) truStopping = .next u ∧ u.rd (pg .tru 0) Reg.TRU_TRU_STAT_FIRE_CNT = 0 :=
  ⟨_, rfl, by decide +kernel⟩

/-- Refutes O16: in `truStopping` unit 0 runs, but no longer at tick 100, where a forced firing counts nothing. -/
theorem not_triggerUnitCommandsComplete : ¬ Obligations.TriggerUnitCommandsComplete := by
  unfold Obligations.TriggerUnitCommandsComplete
  rintro ⟨_, _, _, _, force, _⟩
  obtain ⟨u, hu, hnone⟩ := truForce_stopping
  have hcount := ((force 100 0 truStopping (by decide +kernel) (by decide +kernel) (by decide +kernel)).at_next hu).1
  exact absurd (hcount.symm.trans hnone) (by decide +kernel)

/-! The trigger network. -/

/-- The trigger network with schedule timer 0 armed for tick 0 without a period, on a page that stops. -/
def trnStopping : State := stopping [pg .trn 0] [(pg .trn 0, Reg.TRN_SCHED_CFG_ARM 0, 1)]

theorem schedPulse_stopping : ∃ u, exec (.schedPulse 100 0) trnStopping = .next u ∧ u.rd (pg .trn 0) (Reg.TRN_SCHED_CFG_ARM 0) = 1 :=
  ⟨_, rfl, by decide +kernel⟩

/-- Refutes O17: in `trnStopping` the network runs, but no longer at tick 100, where the timer that is due stays armed. -/
theorem not_triggerNetworkCommandsComplete : ¬ Obligations.TriggerNetworkCommandsComplete := by
  unfold Obligations.TriggerNetworkCommandsComplete
  rintro ⟨_, _, _, _, pulse, _⟩
  obtain ⟨u, hu, harmed⟩ := schedPulse_stopping
  have hdisarmed := (pulse 100 0 trnStopping (by decide +kernel) (by decide +kernel) (by decide +kernel) (by decide +kernel)).at_next hu
  exact absurd (hdisarmed.symm.trans harmed) (by decide)

/-! Storage. -/

/-- A Flush of member 0 of recorder handle 0, issued at tick 0. -/
def flushIssued : NvmeCmd := ⟨0, 4, 0, 0, 0, [], 0, 0⟩

/-- Recorder handle 0 with that Flush under way, on a root port whose page stops. -/
def nvpStopping : State :=
  { stopping [pg .nvp 0] [] with net := { rec_ := [(0, { members := [{ id := ⟨0, 0, 0⟩ }], cmds := [flushIssued] })] } }

theorem nvmeCmdComplete_stopping : ∃ u, exec (.nvmeCmdComplete 100 0 0) nvpStopping = .next u ∧ (u.rech 0).cmds = [flushIssued] :=
  ⟨_, rfl, by decide +kernel⟩

/-- Refutes O23: in `nvpStopping` the root port runs, but no longer at tick 100, where the completed Flush stays in its list. -/
theorem not_storageCommandsComplete : ¬ Obligations.StorageCommandsComplete := by
  unfold Obligations.StorageCommandsComplete
  rintro ⟨complete, _⟩
  obtain ⟨u, hu, hstays⟩ := nvmeCmdComplete_stopping
  have hleaves := ((complete 100 0 0 flushIssued nvpStopping (by decide +kernel) (by decide +kernel) (by decide +kernel)
    (by decide +kernel)).at_next hu).1
  exact absurd (hleaves.symm.trans hstays) (by decide +kernel)

/-- Recorder handle 0 being opened for formatting with one member, on a root port whose page stops. -/
def openStopping : State :=
  { stopping [pg .nvp 0] [] with net := { rec_ := [(0, { format := true, opening := some (ent 0x10 8), members := [{ id := ⟨0, 0, 0⟩ }] })] } }

/-- What the firmware finds of the member: a usable namespace of 1 LBA without a header. -/
def found0 : RecFound := ⟨true, 1, none, 0, 0⟩

theorem recOpenDone_stopping : ∃ u, exec (.recOpenDone 100 0 [found0] 1) openStopping = .next u ∧ (u.rech 0).opened = false :=
  ⟨_, rfl, by decide +kernel⟩

/-- Refutes O22: in `openStopping` the member's root port runs, but no longer at tick 100, where REC_OPEN ends with the handle closed. -/
theorem not_recorderSetCommandsComplete : ¬ Obligations.RecorderSetCommandsComplete := by
  unfold Obligations.RecorderSetCommandsComplete
  rintro ⟨_, openDone, _⟩
  obtain ⟨u, hu, hclosed⟩ := recOpenDone_stopping
  have hopened := ((openDone 100 0 [found0] 1 (ent 0x10 8) openStopping (by decide +kernel) (by decide +kernel) (by decide +kernel)
    (by decide +kernel) (by decide +kernel) (by decide +kernel)).at_next hu).1
  exact absurd (hopened.symm.trans hclosed) (by decide)

/-! Ethernet and PTP. -/

/-- Ethernet port 0 with its link down, on a page that stops. -/
def ethStopping : State := stopping [pg .eth 0] []

theorem ethLinkUp_stopping : ∃ u, exec (.ethLinkUp 100 0) ethStopping = .next u ∧ u.rd (pg .eth 0) Reg.ETH_ETH_STAT_UP = 0 :=
  ⟨_, rfl, by decide +kernel⟩

/-- Refutes O24: in `ethStopping` port 0 runs, but no longer at tick 100, where its link does not come up. -/
theorem not_streamerCommandsComplete : ¬ Obligations.StreamerCommandsComplete := by
  unfold Obligations.StreamerCommandsComplete
  rintro ⟨_, _, _, _, _, _, _, _, _, linkUp, _⟩
  obtain ⟨u, hu, hdown⟩ := ethLinkUp_stopping
  have hup := (linkUp 100 0 ethStopping (by decide +kernel)).at_next hu
  exact absurd (hup.symm.trans hdown) (by decide)

/-- The time service as an ordinary PTP clock on Ethernet port 0, whose link is up, on a page that stops. -/
def ptpStopping : State :=
  { stopping [pg .eth 0] [(pg .eth 0, Reg.ETH_ETH_STAT_UP, 1)] with ptp := { src := 1, cfg := some ⟨1, 0, 0, 0, 0, 0, 0, 0, 0, 0, 0⟩ } }

theorem ptpMessageRx_stopping : ∃ u, exec (.ptpMessageRx 100 0 0 (.announce 0 0) 5 true) ptpStopping = .next u ∧ u.ptp.portState = 0 :=
  ⟨_, rfl, by decide +kernel⟩

/-- Refutes O25: in `ptpStopping` the time service has port 0 in use, but no longer at tick 100, where a message changes no port state. -/
theorem not_timeServiceCommandsComplete : ¬ Obligations.TimeServiceCommandsComplete := by
  unfold Obligations.TimeServiceCommandsComplete
  rintro ⟨rx, _⟩
  obtain ⟨u, hu, hkept⟩ := ptpMessageRx_stopping
  have hstate := ((rx 100 0 0 (.announce 0 0) 5 true ptpStopping (by decide +kernel) (by decide +kernel)).at_next hu).1
  exact absurd (hstate.symm.trans hkept) (by decide)

/-! The Deltan bus. -/

/-- The bus's source, on a page that stops. -/
def dlbStopping : State := stopping [pg .dlb 0] [(pg .dlb 0, Reg.DLB_DLB_CFG_EN, 1), (pg .dlb 0, Reg.DLB_DLB_CFG_SOURCE, 1)]

theorem deltanSecondSend_stopping : ∃ u, exec (.deltanSecondSend 1600000000) dlbStopping = .next u ∧ u.dlb.seq = 0 :=
  ⟨_, rfl, by decide +kernel⟩

/-- Refutes O26: in `dlbStopping` the block is the bus's source, but no longer a second later, where it sends no SECOND. -/
theorem not_deltanCommandsComplete : ¬ Obligations.DeltanCommandsComplete := by
  unfold Obligations.DeltanCommandsComplete
  rintro ⟨send, _⟩
  obtain ⟨u, hu, hseq⟩ := deltanSecondSend_stopping
  have hsent := ((send 1600000000 dlbStopping (by decide +kernel) (by decide +kernel)).at_next hu).1
  exact absurd ((congrArg DlbSt.seq hsent).symm.trans hseq) (by decide +kernel)

/-! The housekeeping converter and the comparators. -/

/-- The converter sequencing and busy with a conversion, its frame due at tick 0, on a page that stops. -/
def hkaStopping : State := stopping [pg .hka 0] [(pg .hka 0, Reg.HKA_HKA_STAT_SEQ_RUN, 1), (pg .hka 0, Reg.HKA_HKA_STAT_BUSY, 1)]

theorem hkSequenceFrame_stopping : ∃ u, exec (.hkSequenceFrame 100) hkaStopping = .next u ∧ u.hk.late = false := ⟨_, rfl, by decide +kernel⟩

/-- Refutes O42: in `hkaStopping` the converter runs, but no longer at tick 100, where the frame that is due is not noted as late. -/
theorem not_housekeepingCommandsComplete : ¬ Obligations.HousekeepingCommandsComplete := by
  unfold Obligations.HousekeepingCommandsComplete
  rintro ⟨_, _, _, _, _, _, late, _⟩
  obtain ⟨u, hu, hnot⟩ := hkSequenceFrame_stopping
  have hlate := (late 100 hkaStopping (by decide +kernel) (by decide +kernel) (by decide +kernel) (by decide +kernel)
    (by decide +kernel)).at_next hu
  exact absurd ((congrArg HkSt.late hlate).symm.trans hnot) (by decide)

/-- Comparator 0 in the blanking that its enabling started, on a page that stops. -/
def cmpStopping : State := { stopping [pg .cmp 0] [] with cmp := { ch := [(0, { enabling := true })] } }

theorem cmpEnableBlankEnd_stopping : ∃ u, exec (.cmpEnableBlankEnd 100 0) cmpStopping = .next u ∧ (u.cmpCh 0).enabling = true :=
  ⟨_, rfl, by decide +kernel⟩

/-- Refutes O43: in `cmpStopping` the comparators run, but no longer at tick 100, where the blanking that is over does not end. -/
theorem not_comparatorCommandsComplete : ¬ Obligations.ComparatorCommandsComplete := by
  unfold Obligations.ComparatorCommandsComplete
  rintro ⟨_, _, _, _, blankEnd, _⟩
  obtain ⟨u, hu, hstays⟩ := cmpEnableBlankEnd_stopping
  have hends := (blankEnd 100 0 cmpStopping (by decide +kernel) (by decide +kernel) (by decide +kernel)).at_next hu
  exact absurd (hends.symm.trans hstays) (by decide)

end Sys2Proof.Machine
end

section
/-! PROOF. Further statements that fail: each leaves out a state in which the command does something else. -/
namespace Sys2Proof.Machine
open Sys2Proof.Tests

/- The kernel evaluations below wait for one another: each in turn, not each on a thread of its own. -/
set_option Elab.async false

/-! Epochs. SCHEDULE_EQUINOX is announced by a block that is the bus's source at its own time. -/

/-- SCHEDULE_EQUINOX for tick 2 · 10^6, announced. -/
def scheduleAnnounced : SvcEntry := ⟨0, 1, { cmd0 with opc := 0x03, p0 := 2000000, p1 := 1 }⟩

/-- An epoch in STAGED and that command fetched, the block being the source of the Deltan bus, on a page that stops. -/
def sourceStopping : State :=
  { stopping [pg .dlb 0] [(pg .dlb 0, Reg.DLB_DLB_CFG_EN, 1), (pg .dlb 0, Reg.DLB_DLB_CFG_SOURCE, 1), (epoPage, Reg.EPO_EPO_STAGED_VALID, 1)] with
    svc := { fetched := [scheduleAnnounced] } }

theorem scheduleEquinox_stopping : ∃ u, exec (.scheduleEquinox 100 0) sourceStopping = .next u ∧ u.svc.announce = none :=
  ⟨_, rfl, by decide +kernel⟩

/-- Refutes O21: in `sourceStopping` the block is the bus's source, but no longer at tick 100, where the equinox is scheduled without an
announcement. -/
theorem not_epochServiceCommandsComplete : ¬ Obligations.EpochServiceCommandsComplete := by
  unfold Obligations.EpochServiceCommandsComplete
  rintro ⟨_, _, _, _, schedule, _⟩
  obtain ⟨u, hu, hnone⟩ := scheduleEquinox_stopping
  obtain ⟨-, -, -, hends⟩ := (schedule 100 0 scheduleAnnounced sourceStopping (by decide +kernel) (by decide +kernel) (by decide +kernel)
    (by decide +kernel) (by decide +kernel) (by decide +kernel)).at_next hu
  rw [if_pos (by decide +kernel)] at hends
  exact absurd (hends.1.symm.trans hnone) (by simp)

/-! Memory: a migration step also takes its channel from those whose last step was under way (R144, R414). -/

/-- Channel 0 migrating, with its step noted as the last one before a pause that is over. -/
def lastStepNoted : State := { st9 [(pg .mch 0, Reg.MCH_MCH_STAT_MIGRATING, 1)] with mem := { migLast := [0] } }

theorem migrationStep_lastStep : ∃ u, exec (.migrationStep 0 0) lastStepNoted = .next u ∧ u.mem.migLast = [] := ⟨_, rfl, by decide +kernel⟩

/-- Refutes O31: from `lastStepNoted` a migration step changes more than the journal's count: the note is taken back. -/
theorem not_memoryRateAndRepairCommandsComplete : ¬ Obligations.MemoryRateAndRepairCommandsComplete := by
  unfold Obligations.MemoryRateAndRepairCommandsComplete
  rintro ⟨_, _, _, _, _, _, step, _⟩
  obtain ⟨u, hu, hnone⟩ := migrationStep_lastStep
  have hjournal := (step 0 0 lastStepNoted (by decide +kernel) (by decide +kernel) (by decide +kernel) (by decide +kernel)
    (by decide +kernel)).at_next hu
  exact absurd ((congrArg (fun v : State => v.mem.migLast) hjournal).symm.trans hnone) (by decide +kernel)

/-! Banks: a handover does not end while the clocks are gated (R109). -/

/-- The state after reset, its clocks gated, with a handover of bank 0 under way. -/
def handoverWhileGated : State := ups [(pg .bnk 0, Reg.BNK_BNK_OWN_BUSY, 1)]

theorem handoverDone_gated : ∃ u, exec (.handoverDone 0 0) handoverWhileGated = .next u ∧ u.rd (pg .bnk 0) Reg.BNK_BNK_OWN_BUSY = 1 :=
  ⟨_, rfl, by decide +kernel⟩

/-- Refutes O32: in `handoverWhileGated` bank 0 is busy with a handover, which HANDOVER_DONE does not end. -/
theorem not_bankCommandsComplete : ¬ Obligations.BankCommandsComplete := by
  unfold Obligations.BankCommandsComplete
  rintro ⟨_, _, done, _⟩
  obtain ⟨u, hu, hbusy⟩ := handoverDone_gated
  obtain ⟨-, -, hends⟩ := (done 0 0 handoverWhileGated (by decide +kernel)).at_next hu
  exact absurd (hends.symm.trans hbusy) (by decide)

end Sys2Proof.Machine
end

section
/-! PROOF. Statements on density units and on slice correctors that leave out a state in which the command does something else. -/
namespace Sys2Proof.Machine
open Sys2Proof.Tests

/- The kernel evaluations below wait for one another: each in turn, not each on a thread of its own. -/
set_option Elab.async false

/-! Density: before the first release the tick counter stands still (R115), and a pass takes its 16,384 ticks by that counter. -/

/-- Density unit 0 in a decay pass that started at tick 0, in a part whose tick counter does not count yet. -/
def passBeforeRelease : State := { stOn [pg .den 0] [] with clk := {}, den := [(0, { run := true })] }

theorem decayPassEnd_beforeRelease : ∃ u, exec (.decayPassEnd 20000 0 []) passBeforeRelease = .next u ∧ (u.den_ 0).run = true :=
  ⟨_, rfl, by decide +kernel⟩

/-- Refutes O14: in `passBeforeRelease` the pass has its 16,384 ticks at the command's time, but not by the tick counter, and goes on. -/
theorem not_densityAndToneMapperCommandsComplete : ¬ Obligations.DensityAndToneMapperCommandsComplete := by
  unfold Obligations.DensityAndToneMapperCommandsComplete
  rintro ⟨_, _, _, passEnd, _⟩
  obtain ⟨u, hu, hruns⟩ := decayPassEnd_beforeRelease
  have hends := ((passEnd 20000 0 [] passBeforeRelease (by decide +kernel) (by decide +kernel) (by decide +kernel)).at_next hu).1
  exact absurd (hends.symm.trans hruns) (by decide +kernel)

/-! Correctors: the settings that waited for the end of a run come into force with it, before the withheld frames are processed (R184, R190). -/

/-- Slot 0's corrector in window 2, which is full, during an equinox that leaves the input out: a withheld frame waits, and so do values
for the registers of its context, a state in window 2 and a hold-off of 7 s. -/
def settingsWait : State :=
  { State.put (stIc 4) [(pg .epo 0, Reg.EPO_EQX_STAT_SWITCHING, 1)] with
    ic := [(0, { acc := [{ n := 2 ^ 25 }], line := [[⟨0, 0, false, false, 0, 0, 0⟩]],
                 later := [(pg .ctx 0, Reg.CTX_IC_STAT_STATE, 4), (pg .ctx 0, Reg.CTX_IC_CFG_T1_HOLD, 7)] })] }

theorem t1Window2End_settingsWait : ∃ u, exec (.t1Window2End 0 0 []) settingsWait = .next u ∧ (u.input 0).holdTo = some (7 * 1600000000) :=
  ⟨_, rfl, by decide +kernel⟩

/-- Refutes O12: from `settingsWait` the withheld frame, met by the waiting values, ends a run again, and the hold-off that then runs is not
that of the T1_HOLD in force at the command. -/
theorem not_correctorCommandsComplete : ¬ Obligations.CorrectorCommandsComplete := by
  unfold Obligations.CorrectorCommandsComplete
  rintro ⟨_, _, _, _, windowEnd, _⟩
  obtain ⟨u, hu, hseven⟩ := t1Window2End_settingsWait
  have hhold := ((windowEnd 0 0 [] _ settingsWait (by decide +kernel) (by decide +kernel) (by decide +kernel) rfl).at_next hu).1
  exact absurd (hhold.symm.trans hseven) (by decide +kernel)

/-! Links: a link that goes down ends the runs of the inputs on it, and with them the wait of the settings that were held back (R190). -/

/-- Link 0 up with slot 0 on it, and slot 0's corrector in window 1, with a value held back for the link's status register. -/
def statusWaits : State :=
  { State.put (stIc 3) [(pg .lnk 0, Reg.PG_STAT_IN_EPOCH, 1), (pg .lnk 0, Reg.PG_STAT_PSTATE_ACT (psRst (pg .lnk 0)), 0),
      (pg .lnk 0, Reg.LNK_LINK_STAT_STATE, 4), (pg .lnk 0, Reg.LNK_LINK_WD_WD, 0), (pg .lnk 0, Reg.LNK_MAP_VALID 0, 1)] with
    ic := [(0, { later := [(pg .lnk 0, Reg.LNK_LINK_STAT_STATE, 4)] })] }

theorem linkWdExpiry_statusWaits : ∃ u, exec (.linkWdExpiry 0 0) statusWaits = .next u ∧ u.linkState 0 = 4 := ⟨_, rfl, by decide +kernel⟩

/-- Refutes O11: from `statusWaits` the watchdog takes link 0 down, which ends the run and writes the value held back over the state. -/
theorem not_laneAndLinkCommandsComplete : ¬ Obligations.LaneAndLinkCommandsComplete := by
  unfold Obligations.LaneAndLinkCommandsComplete
  rintro ⟨_, _, _, _, _, _, _, expiry, _⟩
  obtain ⟨u, hu, hup⟩ := linkWdExpiry_statusWaits
  have hdown := (expiry 0 0 statusWaits (by decide +kernel) (by decide +kernel) (by decide +kernel) (by decide +kernel)).at_next hu
  exact absurd (hdown.symm.trans hup) (by decide)

/-! Captures: a disarmed capture ends once its records are written (R297, R302). -/

/-- Context 0 in its post window, with spectra captured and a spectral loss open since stamp 0. -/
def recordsMissing : State :=
  { stOn [pg .ctx 0] [(pg .ctx 0, Reg.CTX_CAP_STAT_STATE, 3)] with
    acq := { ctx := [(0, { running := true, desc := { specEn := true }, openSpec := some ⟨0, 0, false⟩ })] } }

theorem capDisarm_recordsMissing : ∃ u, exec (.capDisarm 0 0) recordsMissing = .next u ∧ u.capState 0 = 3 := ⟨_, rfl, by decide +kernel⟩

/-- Refutes O15: in `recordsMissing` a disarm leaves the capture in state 3 until its records are done. -/
theorem not_captureCommandsComplete : ¬ Obligations.CaptureCommandsComplete := by
  unfold Obligations.CaptureCommandsComplete
  rintro ⟨_, disarm, _⟩
  obtain ⟨u, hu, hthree⟩ := capDisarm_recordsMissing
  have hzero := (disarm 0 0 recordsMissing (by decide +kernel) (by decide +kernel)).at_next hu
  exact absurd (hzero.symm.trans hthree) (by decide)

end Sys2Proof.Machine
end

section
/-!
PROOF. BAR0 accesses: what a register write leaves in the fields it names, what a flagged read shows, and the units of a burst.
-/
namespace Sys2Proof.Machine

/-! Register fields. -/

/-- Fields at different places. -/
abbrev Fld.apart (f g : Fld) : Prop := ¬(f.off = g.off ∧ f.lo = g.lo)

theorem rd_shadowNote (s : State) (p : Nat) (f : Fld) (q : Nat) (g : Fld) : (s.shadowNote p f).rd q g = s.rd q g := by
  unfold State.shadowNote
  split <;> rfl

theorem rd_fieldWrite_apart {f g : Fld} (s : State) (p w : Nat) (hf : f.placed) (hg : g.placed) (h : g.apart f) :
    (s.fieldWrite p w f).rd p g = s.rd p g := by
  unfold State.fieldWrite
  split
  case h_1 | h_2 =>
    split
    · rw [rd_wr_field _ _ hf hg h, rd_shadowNote]
    · rfl
  case h_3 => exact rd_wr_field _ _ hf hg h
  all_goals rfl

theorem rd_fieldWrite_rw {f : Fld} {s : State} {p : Nat} (w : Nat) (hrw : f.acc = .rw) (hep : s.inEpoch p = false) :
    (s.fieldWrite p w f).rd p f = bits w f.hi f.lo := by
  rw [State.fieldWrite, hrw]
  simp only [hep, Bool.not_false, Bool.or_true, if_true]
  rw [rd_wr_self]
  exact Nat.mod_mod _ _

theorem rd_fieldsEach_apart {g : Fld} (p w : Nat) (hg : g.placed) (l : List Fld) (hl : ∀ f ∈ l, f.placed ∧ g.apart f) (s : State) :
    (s.each l fun s f => s.fieldWrite p w f).rd p g = s.rd p g := by
  induction l generalizing s with
  | nil => rfl
  | cons f l ih =>
    obtain ⟨hf, h⟩ := hl f (.head _)
    exact (ih (fun f hf => hl f (.tail _ hf)) _).trans (rd_fieldWrite_apart s p w hf hg h)

/-- Of fields at places of their own, a write sets each RW field of a page outside the LIVE epoch. -/
theorem rd_fieldsEach_rw {f : Fld} (p w : Nat) (hrw : f.acc = .rw) (l : List Fld) (hf : f ∈ l) (hl : ∀ g ∈ l, g.placed ∧ Reg.PG_STAT_IN_EPOCH.apart g)
    (hd : l.Pairwise Fld.apart) (s : State) (hep : s.inEpoch p = false) : (s.each l fun s f => s.fieldWrite p w f).rd p f = bits w f.hi f.lo := by
  induction l generalizing s with
  | nil => nomatch hf
  | cons g l ih =>
    obtain ⟨hg, hd⟩ := List.pairwise_cons.1 hd
    obtain ⟨hplaced, hkeep⟩ := hl g (.head _)
    have htail : ∀ f ∈ l, f.placed ∧ Reg.PG_STAT_IN_EPOCH.apart f := fun f h => hl f (.tail _ h)
    have hep' : (s.fieldWrite p w g).inEpoch p = false :=
      (on_of_rd (rd_fieldWrite_apart s p w hplaced (by decide) hkeep)).trans hep
    by_cases e : f ∈ l
    · exact ih e htail hd _ hep'
    · obtain rfl : f = g := (List.mem_cons.1 hf).resolve_right e
      exact (rd_fieldsEach_apart p w hplaced l (fun g h => ⟨(htail g h).1, hg g h⟩) _).trans (rd_fieldWrite_rw w hrw hep)

/-! Context pages. -/

theorem pageRow_ctx (c : Fin 1024) : pageRow (pg .ctx c) = some ⟨0x200, 1024, .ctx, 0x0020, 0, 0⟩ := by
  revert c
  decide +kernel

theorem fieldsAt_ctx (c : Fin 1024) (off : Nat) : fieldsAt (pg .ctx c) off = ctxFields.filter (fun f => f.off == off) := by
  rw [fieldsAt, pageRow_ctx]
  rfl

theorem ctxFields_places : ∀ f ∈ ctxFields, f.placed ∧ 0x100 ≤ f.off ∧ f.off % 8 = 0 := by decide +kernel

theorem ctxFields_apart : ctxFields.Pairwise Fld.apart := by decide +kernel

theorem rd_fieldsWrite_ctx {c : Fin 1024} {f : Fld} {s : State} (w : Nat) (hf : f ∈ ctxFields) (hrw : f.acc = .rw) (hep : s.inEpoch (pg .ctx c) = false) :
    (s.fieldsWrite (pg .ctx c) f.off w).rd (pg .ctx c) f = bits w f.hi f.lo := by
  rw [State.fieldsWrite, fieldsAt_ctx]
  refine rd_fieldsEach_rw _ w hrw _ (by simp [hf]) (fun g hg => ?_) (ctxFields_apart.filter _) s hep
  obtain ⟨hplaced, hoff, -⟩ := ctxFields_places g (List.mem_of_mem_filter hg)
  refine ⟨hplaced, fun e => ?_⟩
  have : (0x018 : Nat) = g.off := e.1
  omega

theorem ctxRegister_there {c : Fin 1024} {f : Fld} (hf : f ∈ ctxFields) : regThere (pg .ctx c) f.off = true := by
  obtain ⟨-, hoff, -⟩ := ctxFields_places f hf
  have hglb : pg .ctx c ≠ 0x007 := by simp [pg, firstPage]; omega
  have hmem : f ∈ fieldsAt (pg .ctx c) f.off := by rw [fieldsAt_ctx]; simp [hf]
  rw [regThere, if_neg (by omega), if_neg hglb]
  simpa using List.ne_nil_of_mem hmem

theorem regWrite_ctx {c : Fin 1024} {off : Nat} (h : 0x100 ≤ off) (h' : off ≠ 0x650) (s : State) (w t : Nat) :
    s.regWrite (pg .ctx c) off w t = s.fieldsWrite (pg .ctx c) off w := by
  rw [State.regWrite, if_neg (by omega), pageRow_ctx]
  have hinst : pg .ctx c - 0x200 = c := by simp [pg, firstPage]
  simp only [State.blockWrite, hinst, State.ctxWrite, if_neg h']

/-- An aligned 64-bit write of a register of a context page. -/
theorem bar0Access_ctx {c : Fin 1024} {f : Fld} {s : State} (w : Word) (t : Nat) (hs : s.hostOpen (pg .ctx c)) (hf : f ∈ ctxFields)
    (hoff : f.off ≠ 0x650) : s.bar0Access ⟨true, (BitVec.ofNat 24 (pg .ctx c * 4096 + f.off)).toNat, 8, w.toNat, 0⟩ t =
      s.fieldsWrite (pg .ctx c) f.off w.toNat := by
  obtain ⟨⟨hlt, -⟩, hlo, halign⟩ := ctxFields_places f hf
  have hnat : (BitVec.ofNat 24 (pg .ctx c * 4096 + f.off)).toNat = pg .ctx c * 4096 + f.off := by
    have : pg .ctx c = 512 + c := rfl
    rw [BitVec.toNat_ofNat]
    omega
  have hpage : (pg .ctx c * 4096 + f.off) / 4096 = pg .ctx c := by omega
  have hmapped : mapped (pg .ctx c) = true := by simp [mapped, pageRow_ctx]
  rw [hnat, bar0Access_write_of_hostOpen t (hpage.symm ▸ hs), bar0Write_of_register hmapped hlt halign (ctxRegister_there hf),
    regWrite_ctx hlo hoff, Nat.mod_eq_of_lt w.isLt]

theorem registerWrite_ctx (t : Nat) {c : Fin 1024} {f : Fld} (w : Word) {s : State} (hs : s.hostOpen (pg .ctx c)) (hf : f ∈ ctxFields) (hrw : f.acc = .rw)
    (hoff : f.off ≠ 0x650) (hep : s.inEpoch (pg .ctx c) = false) :
    Gives (.registerWrite t (BitVec.ofNat 24 (pg .ctx c * 4096 + f.off)) 8 w.toNat) s fun u => u.rd (pg .ctx c) f = bits w.toNat f.hi f.lo := by
  refine .of_next rfl ?_
  rw [bar0Access_ctx w t (hostOpen_advance t hs) hf hoff]
  exact rd_fieldsWrite_ctx _ hf hrw ((on_advance ..).trans hep)

/-! The access error log. -/

theorem leBytes_zero (n : Nat) : (leBytes n 0).map BitVec.toNat = List.replicate n 0 := by
  induction n with
  | zero => rfl
  | succ n ih => simp [leBytes, List.replicate_succ, ih]

theorem rd_accErr_count (s : State) (kind off : Nat) : (s.accErr kind off).rd (pg .glb 0) Reg.GLB_ACC_ERR_LOG_COUNT =
    min (s.rd (pg .glb 0) Reg.GLB_ACC_ERR_LOG_COUNT + 1) (2 ^ Reg.GLB_ACC_ERR_LOG_COUNT.width - 1) := by
  have hkeep : (s.when (s.rd (pg .glb 0) Reg.GLB_ACC_ERR_LOG_VALID == 0) fun s => s.wrs (pg .glb 0) [(Reg.GLB_ACC_ERR_LOG_VALID, 1),
      (Reg.GLB_ACC_ERR_LOG_KIND, kind), (Reg.GLB_ACC_ERR_LOG_OFFSET, off / 8 * 8)]).rd (pg .glb 0) Reg.GLB_ACC_ERR_LOG_COUNT =
      s.rd (pg .glb 0) Reg.GLB_ACC_ERR_LOG_COUNT := by
    unfold State.when
    split
    · exact rd_wrs_ne _ rfl (by decide) rfl
    · rfl
  unfold State.accErr State.bumpSat
  rw [rd_event _ _ _ _ (by decide) (by decide), rd_wr_self, hkeep]
  exact Nat.mod_eq_of_lt (by have : 0 < 2 ^ Reg.GLB_ACC_ERR_LOG_COUNT.width := Nat.two_pow_pos _; omega)

theorem rd_accErr_logged {s : State} (h : s.rd (pg .glb 0) Reg.GLB_ACC_ERR_LOG_VALID = 0) (kind off : Nat) {f : Fld} {v : Nat} (hf : f.placed)
    (hev : evReg (pg .glb 0) f.off = false) (hc : f.apart Reg.GLB_ACC_ERR_LOG_COUNT)
    (hv : lastOf f [(Reg.GLB_ACC_ERR_LOG_VALID, 1), (Reg.GLB_ACC_ERR_LOG_KIND, kind), (Reg.GLB_ACC_ERR_LOG_OFFSET, off / 8 * 8)] = some v)
    (ha : apartFrom f [(Reg.GLB_ACC_ERR_LOG_VALID, 1), (Reg.GLB_ACC_ERR_LOG_KIND, kind), (Reg.GLB_ACC_ERR_LOG_OFFSET, off / 8 * 8)] = true) :
    (s.accErr kind off).rd (pg .glb 0) f = v := by
  unfold State.accErr State.bumpSat
  rw [rd_event _ _ _ _ hf hev, rd_wr_field _ _ (by decide) hf hc, h]
  exact rd_wrs_eq _ hv hf ha

theorem bar0Access_read_of_hostOpen {off len : Nat} {s : State} (t : Nat) (h : s.hostOpen (off / 4096)) :
    s.bar0Access ⟨false, off, len, 0, 0⟩ t = s.bar0Answer off len := by
  obtain ⟨hopen, hcut⟩ := h
  simp [State.bar0Access, hopen, hcut]

/-- A read that is flagged answers zeros. -/
theorem bar0Answer_flagged {s : State} {off len kind : Nat} (h : s.bar0Read off len = (0, s.accErr kind off)) :
    s.bar0Answer off len = (s.accErr kind off).emit (.hostRead (List.replicate len 0)) := by
  rw [State.bar0Answer, h, leBytes_zero]

theorem bar0FlaggedRead_unmapped (t : Nat) {off : BitVec 24} (len : Nat) {s : State} (hs : s.hostOpen (off.toNat / 4096))
    (hm : mapped (off.toNat / 4096) = false) (hv : s.rd (pg .glb 0) Reg.GLB_ACC_ERR_LOG_VALID = 0) : Gives (.bar0FlaggedRead t off len) s fun u =>
      u.out.head? = some (.hostRead (List.replicate len 0)) ∧ u.rd (pg .glb 0) Reg.GLB_ACC_ERR_LOG_VALID = 1 ∧
      u.rd (pg .glb 0) Reg.GLB_ACC_ERR_LOG_KIND = 0b011 ∧
      u.rd (pg .glb 0) Reg.GLB_ACC_ERR_LOG_OFFSET = Reg.GLB_ACC_ERR_LOG_OFFSET.cut (off.toNat / 8 * 8) := by
  refine .of_next rfl ?_
  have hv' : (s.advance t).rd (pg .glb 0) Reg.GLB_ACC_ERR_LOG_VALID = 0 := (advance_rd ..).trans hv
  rw [bar0Access_read_of_hostOpen t (hostOpen_advance t hs), bar0Answer_flagged (kind := 0b011) (by simp [State.bar0Read, hm])]
  refine ⟨rfl, ?_, ?_, ?_⟩
  all_goals
    rw [rd_emit]
    exact rd_accErr_logged hv' _ _ (by decide) (by decide) (by decide) rfl rfl

theorem bar0FlaggedRead_width (t : Nat) {off : BitVec 24} {len : Nat} {s : State} (hs : s.hostOpen (off.toNat / 4096))
    (hm : mapped (off.toNat / 4096) = true) (hw : ¬(len = 8 ∧ off.toNat % 8 = 0) ∧ ¬(len = 4 ∧ off.toNat % 4 = 0)) :
    Gives (.bar0FlaggedRead t off len) s fun u => u.out.head? = some (.hostRead (List.replicate len 0)) ∧ u.rd (pg .glb 0) Reg.GLB_ACC_ERR_LOG_COUNT =
      min (s.rd (pg .glb 0) Reg.GLB_ACC_ERR_LOG_COUNT + 1) (2 ^ Reg.GLB_ACC_ERR_LOG_COUNT.width - 1) := by
  refine .of_next rfl ?_
  rw [bar0Access_read_of_hostOpen t (hostOpen_advance t hs), bar0Answer_flagged (kind := 0b010) (by simp [State.bar0Read, hm, hw])]
  exact ⟨rfl, by rw [rd_emit, rd_accErr_count, advance_rd]⟩

/-! Bursts. -/

theorem bar0Units_register {off : Nat} (h : off % 8 = 0) : bar0Units 9 off 8 = [(off, 8)] := by
  simp [bar0Units, h]

theorem bar0Units_two {off : Nat} (h : off % 8 = 0) : bar0Units 9 off 16 = [(off, 8), (off + 8, 8)] := by
  simp [bar0Units, h]

theorem bar0BurstRequest_register (t : Nat) {off : BitVec 24} {bytes : List Byte} (s : State) (hl : bytes.length = 8) (h : off.toNat % 8 = 0) :
    Gives (.bar0BurstRequest t true off bytes) s fun u => exec (.registerWrite t off 8 (ofLeBytes bytes)) s = .next u := by
  refine .of_next rfl ?_
  have hbytes : bytes.take 8 = bytes := List.take_of_length_le hl.le
  rw [hl, if_neg (by decide), if_pos rfl, bar0Units_register h]
  simp only [State.each, List.foldl_cons, List.foldl_nil, Nat.sub_self, List.drop_zero, hbytes]
  rfl

theorem ofLeBytes_leBytes (n v : Nat) : ofLeBytes (leBytes n v) = v % 256 ^ n := by
  induction n generalizing v with
  | zero => simp [leBytes, ofLeBytes, Nat.mod_one]
  | succ n ih =>
    rw [leBytes, ofLeBytes, ih, BitVec.toNat_ofNat, pow_succ' 256 n, Nat.mod_mul (a := 256)]

theorem bar0BurstRequest_ctx (t : Nat) {c : Fin 1024} {f : Fld} (w : Word) {s : State} (hs : s.hostOpen (pg .ctx c)) (hf : f ∈ ctxFields)
    (hrw : f.acc = .rw) (hoff : f.off ≠ 0x650) (hep : s.inEpoch (pg .ctx c) = false) :
    Gives (.bar0BurstRequest t true (BitVec.ofNat 24 (pg .ctx c * 4096 + f.off)) (leBytes 8 w.toNat)) s fun u =>
      u.rd (pg .ctx c) f = bits w.toNat f.hi f.lo := by
  obtain ⟨-, -, halign⟩ := ctxFields_places f hf
  have hword : (BitVec.ofNat 24 (pg .ctx c * 4096 + f.off)).toNat % 8 = 0 := by
    rw [BitVec.toNat_ofNat]
    omega
  have hdata : ofLeBytes (leBytes 8 w.toNat) = w.toNat := (ofLeBytes_leBytes 8 w.toNat).trans (Nat.mod_eq_of_lt w.isLt)
  obtain ⟨u, hu, he⟩ := bar0BurstRequest_register t s (bytes := leBytes 8 w.toNat) rfl hword
  exact ⟨u, hu, (registerWrite_ctx t w hs hf hrw hoff hep).at_next (hdata ▸ he)⟩

theorem bar0Read_register {s : State} {p off : Nat} (hm : mapped p = true) (ho : off < 4096) (ha : off % 8 = 0) :
    s.bar0Read (p * 4096 + off) 8 = (s.regRead p off, s) := by
  have hdiv : (p * 4096 + off) / 4096 = p := by omega
  have hmod : (p * 4096 + off) % 4096 = off := by omega
  have hword : (p * 4096 + off) % 8 = 0 := by omega
  simp [State.bar0Read, hdiv, hmod, hword, hm]

theorem bar0BurstRequest_read (t : Nat) {off : BitVec 24} {bytes : List Byte} {s : State} (hs : s.hostOpen (off.toNat / 4096))
    (hm : mapped (off.toNat / 4096) = true) (hb : bytes.length = 16 ∧ off.toNat % 8 = 0 ∧ off.toNat % 4096 ≤ 0xFF0) :
    Gives (.bar0BurstRequest t false off bytes) s fun u => u = { s.advance t with out := .hostRead ((leBytes 8 ((s.advance t).regRead (off.toNat / 4096)
      (off.toNat % 4096)) ++ leBytes 8 ((s.advance t).regRead (off.toNat / 4096) (off.toNat % 4096 + 8))).map BitVec.toNat) :: s.out } := by
  obtain ⟨hl, hword, hlast⟩ := hb
  obtain ⟨hopen, hcut⟩ := hostOpen_advance t hs
  refine .of_next rfl ?_
  have hpage : (off.toNat + 8) / 4096 = off.toNat / 4096 := by omega
  have hfirst := bar0Read_register (s := s.advance t) hm (off := off.toNat % 4096) (by omega) (by omega)
  have hsecond := bar0Read_register (s := s.advance t) hm (off := off.toNat % 4096 + 8) (by omega) (by omega)
  rw [show off.toNat / 4096 * 4096 + off.toNat % 4096 = off.toNat by omega] at hfirst
  rw [show off.toNat / 4096 * 4096 + (off.toNat % 4096 + 8) = off.toNat + 8 by omega] at hsecond
  rw [hl, if_neg (by decide), if_neg (by decide), bar0Units_two hword, if_neg (by simp [hpage, hopen]), if_neg (by simp [hpage, hcut])]
  simp only [List.foldl_cons, List.foldl_nil, hfirst, hsecond, List.nil_append, State.emit, State.advance_out]

theorem bar0BurstRequest_long (t : Nat) (write : Bool) (off : BitVec 24) {bytes : List Byte} (s : State) (hl : 64 < bytes.length) :
    Gives (.bar0BurstRequest t write off bytes) s fun u => u = { s.advance t with out := .completerAbort :: s.out } := by
  refine .of_next rfl ?_
  rw [if_pos hl]
  simp only [State.emit, State.advance_out]

/-- Settles O1: the fields of a context page have places of their own, and a burst is the accesses of its units. -/
theorem bar0AccessesTakeEffect : Obligations.Bar0AccessesTakeEffect :=
  ⟨fun t _ _ w _ hs hf hrw hoff hep => registerWrite_ctx t w hs hf hrw hoff hep,
    fun t _ len _ hs hm hv => bar0FlaggedRead_unmapped t len hs hm hv,
    fun t _ _ _ hs hm hw => bar0FlaggedRead_width t hs hm hw,
    fun t _ _ s hl h => bar0BurstRequest_register t s hl h,
    fun t _ _ w _ hs hf hrw hoff hep => bar0BurstRequest_ctx t w hs hf hrw hoff hep,
    fun t _ _ _ hs hm hb => bar0BurstRequest_read t hs hm hb,
    fun t write off _ s hl => bar0BurstRequest_long t write off s hl⟩

end Sys2Proof.Machine
end

section
/-!
PROOF. Enabling a page while the keeper carries the timebase. The tick counter then goes on by the keeper's increment (R114), which may leave it
where it is over one FCLK; EN_ACT reads 0 until the tick after the write (R42), so the statement on page headers, which takes the next FCLK
for the next tick, fails.
-/
namespace Sys2Proof.Machine
open Sys2Proof.Tests

/- The kernel evaluations below wait for one another: each in turn, not each on a thread of its own. -/
set_option Elab.async false

/-- A started part whose timebase the keeper carries, with an increment of 0. -/
def keeperStands : State := { stOn [] [] with clk := { counting := true, keep := some (0, 0, 0) } }

theorem pgEnable_keeperStands : ∃ u, exec (.pgEnable 0 (BitVec.ofNat 12 (pg .tru 0)).toFin true) keeperStands = .next u ∧
    (u.advance (u.tick + 1)).enAct (pg .tru 0) = 0 :=
  ⟨_, rfl, by decide +kernel⟩

/-- Refutes O2: trigger unit 0, enabled while the keeper stands, still has EN_ACT 0 an FCLK later. -/
theorem not_pageHeaderCommandsComplete : ¬ Obligations.PageHeaderCommandsComplete := by
  unfold Obligations.PageHeaderCommandsComplete
  rintro ⟨_, _, clause, _⟩
  obtain ⟨u, hu, h⟩ := pgEnable_keeperStands
  obtain ⟨-, hact, -⟩ := (clause 0 (BitVec.ofNat 12 (pg .tru 0)).toFin true keeperStands (by decide +kernel) (by decide) (by decide)
    (by decide +kernel) (fun x hx => nomatch hx)).at_next hu
  exact absurd (h.symm.trans (hact rfl)) (by decide)

end Sys2Proof.Machine
end

section
/-!
PROOF. The sequence monitor, cold resets and the core voltage loop: what a cold reset and a latched fault leave of the supply's state, and the zones
of a rail.
-/
namespace Sys2Proof.Machine

/-! Cold resets and latched faults. -/

/-- The state after reset with what a cold reset leaves of the supply, the flash and the queues. -/
def State.cold (s : State) (last : Nat) : State :=
  { State.reset with
      pwr := { s.pwr with started := false, lastReset := last }
      flash := s.flash, pending := s.pending, out := s.out, freeCnt := s.freeCnt }

/-- A reset by a protective hold shows in the gating's cause. -/
def State.holdShown (u : State) (last : Nat) : State := if last = 2 then u.wr (pg .clk 0) Reg.CLK_PLL_STAT_GATE_CAUSE 4 else u

theorem does_holdShown (u : State) (last : Nat) : Does [.rf] u (u.holdShown last) := .ite (does_wr ..) (.refl _ _)

theorem coldReset_eq (s : State) (last : Nat) : s.coldReset last = (s.cold last).monSync.holdShown last := rfl

/-- Past the state after reset, a cold reset changes registers alone. -/
theorem does_coldReset_cold (s : State) (last : Nat) : Does [.rf] (s.cold last) (s.coldReset last) := by
  rw [coldReset_eq]
  exact (does_holdShown ..).next (does_monSync ..) rfl

theorem cold_pwr (s : State) (last : Nat) : (s.cold last).pwr = { s.pwr with started := false, lastReset := last } := rfl
theorem cold_flash (s : State) (last : Nat) : (s.cold last).flash = s.flash := rfl
theorem cold_tick (s : State) (last : Nat) : (s.cold last).tick = 0 := rfl

theorem coldReset_pwr (s : State) (last : Nat) : (s.coldReset last).pwr = { s.pwr with started := false, lastReset := last } :=
  ((does_coldReset_cold s last).only .pwr (by decide)).trans (cold_pwr s last)
theorem coldReset_flash (s : State) (last : Nat) : (s.coldReset last).flash = s.flash :=
  ((does_coldReset_cold s last).only .flash (by decide)).trans (cold_flash s last)
theorem coldReset_tick (s : State) (last : Nat) : (s.coldReset last).tick = 0 :=
  ((does_coldReset_cold s last).only .tick (by decide)).trans (cold_tick s last)

/-- The record of a latched fault, before the reset that it may cause. -/
def PwrSt.latched (p : PwrSt) (c : Nat) (hold : Bool) : PwrSt :=
  { p with seqFault := p.seqFault || !hold, protHold := p.protHold || hold, cause := c, faultSeen := true, alert := true
           faultCount := min (p.faultCount + 1) 0xFFFF }

theorem latchFault_pwr (s : State) (c : Nat) (hold : Bool) : (s.latchFault c hold).pwr =
    if s.pwr.started then { s.pwr.latched c hold with started := false, lastReset := if hold then 2 else s.pwr.lastReset } else s.pwr.latched c hold := by
  unfold State.latchFault
  extract_lets _ p s₁
  by_cases h : s.pwr.started = true
  · rw [if_pos h, if_pos (show s₁.pwr.started = true from h), coldReset_pwr]
    rfl
  · rw [if_neg h, if_neg (show ¬s₁.pwr.started = true from h), monSync_pwr]
    rfl

theorem protReset_pwr (t : Nat) {s : State} (c : Nat) (hs : s.pwr.started = true) : ((s.advance t).protReset c).pwr =
    { s.pwr with protHold := true, cause := c, faultSeen := true, alert := true, faultCount := min (s.pwr.faultCount + 1) 0xFFFF, started := false
                 lastReset := 2 } := by
  have hs' : (s.advance t).pwr.started = true := by rw [State.advance_pwr, hs]
  rw [State.protReset, if_pos hs', latchFault_pwr, if_pos hs', State.advance_pwr]
  simp [PwrSt.latched]

/-! The order of the rails. -/

/-- The monitor keeps which rails are up and down, and whether one is missing. -/
theorem monCheck_rails (s : State) (us i : Nat) (hbm : HbmRails) : (s.monCheck us i hbm).pwr.up = s.pwr.up ∧
    (s.monCheck us i hbm).pwr.down = s.pwr.down ∧ (s.monCheck us i hbm).pwr.missing = s.pwr.missing := by
  unfold State.monCheck
  dsimp only
  split
  · rw [latchFault_pwr]
    split <;> exact ⟨rfl, rfl, rfl⟩
  · rw [monSync_pwr]
    exact ⟨rfl, rfl, rfl⟩

theorem monCheck_fault {s : State} {us i : Nat} {hbm : HbmRails} (hup : s.pwr.isUp 2 = true) (hc : seqCause s.pwr us i hbm ≠ 0)
    (hf : s.pwr.seqFault = false) (hr : s.pwr.falling = false) : (s.monCheck us i hbm).pwr.seqFault = true ∧ (s.monCheck us i hbm).pwr.faultSeen = true ∧
      (s.monCheck us i hbm).pwr.alert = true ∧ (s.monCheck us i hbm).pwr.started = false ∧ (s.monCheck us i hbm).pwr.cause = seqCause s.pwr us i hbm := by
  have hgo : (s.pwr.isUp 2 && seqCause s.pwr us i hbm != 0 && !s.pwr.seqFault && !s.pwr.falling) = true := by
    simp [hup, hc, hf, hr]
  unfold State.monCheck
  dsimp only
  rw [if_pos hgo, latchFault_pwr]
  by_cases hs : s.pwr.started = true
  · simp [hs, PwrSt.latched]
  · simp [hs, PwrSt.latched]

theorem rise_rails (p : PwrSt) (us i : Nat) (full : Bool) : (p.rise us i full).up = (if full then setBit p.up i else p.up) ∧
    (p.rise us i full).down = clrBit p.down i ∧ (p.missing = false → (p.rise us i full).missing = false) ∧ (p.rise us i full).seqFault = p.seqFault ∧
    (p.rise us i full).falling = false := by
  cases full with
  | false => exact ⟨rfl, rfl, id, rfl, rfl⟩
  | true => exact ⟨rfl, rfl, fun h => by simp [PwrSt.rise, h], rfl, rfl⟩

theorem railUp_gives (us : Nat) (rail : Fin 9) (full : Bool) (hbm : HbmRails) (s : State) : Gives (.railUp us rail full hbm) s fun u =>
    u.pwr.up = (if full then setBit s.pwr.up rail else s.pwr.up) ∧ u.pwr.down = clrBit s.pwr.down rail ∧
    (s.pwr.missing = false → u.pwr.missing = false) := by
  obtain ⟨hup, hdown, hmissing, -, -⟩ := rise_rails s.pwr us rail full
  obtain ⟨hup', hdown', hmissing'⟩ := monCheck_rails { s with pwr := s.pwr.rise us rail full } us (if full then rail else 9) hbm
  exact .of_next rfl ⟨hup'.trans hup, hdown'.trans hdown, fun h => hmissing'.trans (hmissing h)⟩

theorem railUp_fault {us : Nat} {rail : Fin 9} {full : Bool} {hbm : HbmRails} {s : State} (hf : s.pwr.seqFault = false)
    (hup : (s.pwr.rise us rail full).isUp 2 = true) (hc : seqCause (s.pwr.rise us rail full) us (if full then rail.val else 9) hbm ≠ 0) :
    Gives (.railUp us rail full hbm) s fun u => u.pwr.seqFault = true ∧ u.pwr.faultSeen = true ∧ u.pwr.alert = true ∧ u.pwr.started = false ∧
      u.pwr.cause = seqCause (s.pwr.rise us rail full) us (if full then rail.val else 9) hbm := by
  obtain ⟨-, -, -, hseq, hfalling⟩ := rise_rails s.pwr us rail full
  exact .of_next rfl (monCheck_fault hup hc (hseq.trans hf) hfalling)

/-- The supply's state once rail `i` has fallen. -/
def PwrSt.fallen (p : PwrSt) (i : Nat) (below : Bool) (hbm : HbmRails) : PwrSt :=
  let p := p.fall i below hbm
  let off := [0, 1, 3, 4, 6, 7, 8].all (fun j => p.isDown j)
  if p.isDown 2 then
    { up := p.up, down := p.down, upAt := p.upAt, porHigh := p.porHigh, started := p.started, inTol := p.inTol, ov := p.ov }
  else { p with seqFault := p.seqFault && !off }

theorem fallen_rails (p : PwrSt) (i : Nat) (below : Bool) (hbm : HbmRails) : (p.fallen i below hbm).up = clrBit p.up i ∧
    (below = true → (p.fallen i below hbm).down = setBit p.down i) ∧ (p.fallen i below hbm).started = p.started := by
  unfold PwrSt.fallen
  dsimp only
  split <;> exact ⟨rfl, fun h => if_pos h, rfl⟩

theorem exec_railDown (us : Nat) (rail : Fin 9) (below : Bool) (hbm : HbmRails) (s : State) : exec (.railDown us rail below hbm) s =
    .next (if (s.pwr.fallen rail below hbm).started then { s with pwr := s.pwr.fallen rail below hbm }.coldReset 0
      else { s with pwr := s.pwr.fallen rail below hbm }.monSync) := rfl

theorem railDown_gives (us : Nat) (rail : Fin 9) (below : Bool) (hbm : HbmRails) (s : State) : Gives (.railDown us rail below hbm) s fun u =>
    u.pwr.up = clrBit s.pwr.up rail ∧ (below = true → u.pwr.down = setBit s.pwr.down rail) ∧
    (s.pwr.started = true → u.pwr.started = false ∧ u.pwr.lastReset = 0) := by
  obtain ⟨hup, hdown, hstarted⟩ := fallen_rails s.pwr rail below hbm
  refine .of_next (exec_railDown ..) ?_
  split
  · rw [coldReset_pwr]
    exact ⟨hup, hdown, fun _ => ⟨rfl, rfl⟩⟩
  next hs =>
    rw [monSync_pwr]
    exact ⟨hup, hdown, fun h => absurd (hstarted.trans h) hs⟩

/-- The supply's state once the monitor has looked for a missing rail. -/
def PwrSt.looked (p : PwrSt) (us : Nat) : PwrSt := { p with missing := p.missing || (p.up != 0x1FF && decide (p.upSince 2 + 100000 ≤ us)) }

theorem exec_railMissing (us : Nat) (hbm : HbmRails) (s : State) : exec (.railMissing us hbm) s =
    .next (if s.pwr.isUp 2 then { s with pwr := s.pwr.looked us }.monCheck us 9 hbm else s) := rfl

theorem railMissing_gives {us : Nat} (hbm : HbmRails) {s : State} (hup : s.pwr.isUp 2 = true) (hm : s.pwr.up ≠ 0x1FF)
    (ht : s.pwr.upSince 2 + 100000 ≤ us) : Gives (.railMissing us hbm) s fun u => u.pwr.missing = true ∧ u.pwr.up = s.pwr.up := by
  refine .of_next (exec_railMissing ..) ?_
  obtain ⟨hup', -, hmissing'⟩ := monCheck_rails { s with pwr := s.pwr.looked us } us 9 hbm
  have hlooked : (s.pwr.looked us).missing = true := by simp [PwrSt.looked, hm, ht]
  rw [if_pos hup]
  exact ⟨hmissing'.trans hlooked, hup'⟩

/-! POR_N and cold starts. -/

theorem porNAssert_gives (us : Nat) {s : State} (hs : s.pwr.started = true) : Gives (.porNAssert us) s fun u =>
    u.pwr.started = false ∧ u.pwr.porHigh = false ∧ u.pwr.lastReset = 1 ∧ u.tick = 0 ∧ u.flash = s.flash := by
  refine .of_next rfl ?_
  extract_lets s₁
  rw [if_pos hs, coldReset_pwr]
  exact ⟨rfl, rfl, rfl, coldReset_tick _ _, coldReset_flash _ _⟩

theorem coldStart_gives {us : Nat} {s : State} (h : s.pwr.canStart us = true) : Gives (.coldStart us) s fun u => u.pwr.started = true ∧
    u.rd (pg .glb 0) Reg.GLB_BOOT_STAT_STEP = 3 ∧
    u.rd (pg .glb 0) Reg.GLB_BOOT_STAT_LAST_RESET = Reg.GLB_BOOT_STAT_LAST_RESET.cut s.pwr.lastReset ∧ u.flash = s.flash := by
  refine .of_next rfl ?_
  rw [if_pos h]
  extract_lets s₁ _ s₂ s₃
  have hlast : s₂.pwr.lastReset = s.pwr.lastReset := by
    show s₁.pwr.lastReset = _
    rw [coldReset_pwr]
  have hpwr : s₃.pwr = s₂.pwr := (does_wrs _ _ _).only .pwr (by decide)
  have hflash : s₃.flash = s₂.flash := (does_wrs _ _ _).only .flash (by decide)
  refine ⟨?_, ?_, ?_, ?_⟩
  · rw [eventIf_pwr, hpwr]
  · rw [rd_eventIf _ _ _ _ _ (by decide) (by decide)]
    exact rd_wrs_eq _ rfl (by decide) rfl
  · rw [rd_eventIf _ _ _ _ _ (by decide) (by decide), ← hlast]
    exact rd_wrs_eq _ rfl (by decide) rfl
  · rw [eventIf_flash, hflash]
    exact coldReset_flash _ _

/-! The core voltage loop. -/

theorem avsSet_gives (us : Nat) {s : State} (hs : s.pwr.started = true) (ha : s.boot.avsSent = false) : Gives (.avsSet us) s fun u =>
    u.boot = { s.boot with avsSent := true, avsAt := us } ∧
    u.rd (pg .pwr 0) Reg.PWR_CORE_AVS_SET_MV = Reg.PWR_CORE_AVS_SET_MV.cut (s.rd (pg .pwr 0) Reg.PWR_CORE_AVS_TARGET_MV) ∧
    u.out = .avsSet (s.rd (pg .pwr 0) Reg.PWR_CORE_AVS_TARGET_MV) :: s.out := by
  refine .of_next rfl ?_
  rw [if_pos (by simp [hs, ha])]
  exact ⟨rfl, rd_wr_self _ _ _ _, rfl⟩

theorem rd_hcUpdate_page {s : State} {n p : Nat} (hn : n < 16) {f : Fld} (hf : f.placed) (he : evReg p f.off = false) (hp : p ≠ pg .vgl 0) :
    (s.hcUpdate n).rd p f = s.rd p f := by
  have hnow : (Reg.VGL_HC_VAL_NOW n).placed := by simp only [Fld.placed, Reg.VGL_HC_VAL_NOW]; omega
  have hpeak : (Reg.VGL_HC_VAL_PEAK n).placed := by simp only [Fld.placed, Reg.VGL_HC_VAL_PEAK]; omega
  unfold State.hcUpdate
  extract_lets _ v s₁ s₂ above was _ s₃ s₄ lim
  have h₁ : s₁.rd p f = s.rd p f := rd_wr_page _ _ hnow hf hp
  have h₂ : s₂.rd p f = s₁.rd p f := by
    unfold s₂
    split
    · exact rd_wr_page _ _ hpeak hf hp
    · rfl
  have h₄ : s₄.rd p f = s₂.rd p f := by
    unfold s₄
    rw [rd_eventIf _ _ _ _ _ hf he]
    exact rd_of_rf rfl _ _
  split
  · rfl
  · split
    · rw [((evStep_failProbation s₄ 4).reads _ _ hf he).1, h₄, h₂, h₁]
    · rw [h₄, h₂, h₁]

/-- The health counters of levels are registers of VGL. -/
theorem rd_hcLevels_page (s : State) {p : Nat} {f : Fld} (hf : f.placed) (he : evReg p f.off = false) (hp : p ≠ pg .vgl 0) :
    s.hcLevels.rd p f = s.rd p f := by
  unfold State.hcLevels State.each
  refine List.foldlRecOn (motive := fun u : State => u.rd p f = s.rd p f) _ _ rfl fun u hu n hn => ?_
  exact (rd_hcUpdate_page (List.mem_range.1 (List.mem_of_mem_filter hn)) hf he hp).trans hu

theorem avsPoll_gives (t : Nat) (mv da : BitVec 16) {s : State} (hs : s.pwr.started = true) (ha : s.boot.avsSent = true) :
    Gives (.avsPoll t mv da false) s fun u =>
      u.rd (pg .pwr 0) Reg.PWR_CORE_TELEM_V_MV = mv.toNat ∧ u.rd (pg .pwr 0) Reg.PWR_CORE_TELEM_I_DA = da.toNat := by
  refine .of_next rfl ?_
  extract_lets near ok s₂ s₃
  have hgo : ¬(!(s.advance t).pwr.started || !(s.advance t).boot.avsSent) = true := by simp [hs, ha]
  rw [if_neg hgo, if_neg (by decide)]
  have keep (f : Fld) (hf : f.placed) (he : evReg (pg .pwr 0) f.off = false) (b : Bool) :
      (s₃.setRaw (evId .pwr 0 18) b).hcLevels.rd (pg .pwr 0) f = s₂.rd (pg .pwr 0) f := by
    rw [rd_hcLevels_page _ hf he (by decide), rd_setRaw _ _ _ hf he]
    exact rd_setRaw _ _ _ hf he
  rw [keep _ (by decide) (by decide), keep _ (by decide) (by decide)]
  exact ⟨(rd_wrs_eq _ rfl (by decide) rfl).trans (Nat.mod_eq_of_lt mv.isLt), (rd_wrs_eq _ rfl (by decide) rfl).trans (Nat.mod_eq_of_lt da.isLt)⟩

theorem avsFail_gives {us : Nat} {s : State} (hs : s.pwr.started = true) (ha : s.boot.avsSent = true)
    (hok : s.on (pg .pwr 0) Reg.PWR_CORE_AVS_AVS_OK = false) (ht : s.boot.avsAt + 10000 ≤ us) : Gives (.avsFail us) s fun u => u.pwr =
      { s.pwr with seqFault := true, cause := 0xD, faultSeen := true, alert := true, faultCount := min (s.pwr.faultCount + 1) 0xFFFF, started := false } := by
  refine .of_next rfl ?_
  rw [if_pos (by simp [hs, ha, hok, ht]), latchFault_pwr, if_pos hs]
  simp [PwrSt.latched]

/-! The zones of a rail. -/

theorem add_eq_or_of_disjoint {a b : Nat} (ha : a < 2 ^ 9) (hb : b < 2 ^ 9) (h : a &&& b = 0) : a + b = a ||| b := by
  have hand : BitVec.ofNat 10 a &&& BitVec.ofNat 10 b = 0#10 := by
    rw [← BitVec.ofNat_and, h]
  have hsum := congrArg BitVec.toNat (BitVec.add_eq_or_of_and_eq_zero _ _ hand)
  rwa [← BitVec.ofNat_or, ← BitVec.ofNat_add, BitVec.toNat_ofNat, BitVec.toNat_ofNat, Nat.mod_eq_of_lt (by omega),
    Nat.mod_eq_of_lt ((Nat.or_lt_two_pow ha hb).trans (by decide))] at hsum

/-- A rail in neither of two masks without a rail in common. -/
theorem testBit_neither {a b i : Nat} (ha : a < 2 ^ 9) (hb : b < 2 ^ 9) (h : a &&& b = 0) (hi : i < 9) :
    (0x1FF - a - b).testBit i = (!a.testBit i && !b.testBit i) := by
  have hrest : 0x1FF - a - b = 2 ^ 9 - ((a ||| b) + 1) := by rw [← add_eq_or_of_disjoint ha hb h]; omega
  rw [hrest, Nat.testBit_two_pow_sub_succ (Nat.or_lt_two_pow ha hb), Nat.testBit_or]
  simp [hi]

theorem putBit_lt {n i : Nat} (hn : n < 2 ^ 9) (hi : i < 9) (b : Bool) : putBit n i b < 2 ^ 9 := by
  refine Nat.lt_pow_two_of_testBit _ fun j hj => ?_
  rw [testBit_putBit, if_neg (by omega), Nat.testBit_lt_two_pow (hn.trans_le (Nat.pow_le_pow_right (by decide) hj))]

theorem putBit_disjoint {a b i : Nat} (h : a &&& b = 0) {x y : Bool} (hxy : (x && y) = false) : putBit a i x &&& putBit b i y = 0 := by
  refine Nat.eq_of_testBit_eq fun j => ?_
  have hj : (a.testBit j && b.testBit j) = false := by rw [← Nat.testBit_and, h, Nat.zero_testBit]
  rw [Nat.testBit_and, testBit_putBit, testBit_putBit, Nat.zero_testBit]
  split
  · exact hxy
  · exact hj

theorem rd_monSync_zones {s : State} (hup : s.pwr.isUp 2 = true) (hlo : s.pwr.inTol < 2 ^ 9) (hhi : s.pwr.ov < 2 ^ 9) :
    s.monSync.rd (pg .pwr 0) Reg.PWR_RAIL_STAT_IN_TOL = s.pwr.inTol ∧ s.monSync.rd (pg .pwr 0) Reg.PWR_RAIL_STAT_OV = s.pwr.ov ∧
      s.monSync.rd (pg .pwr 0) Reg.PWR_RAIL_STAT_UV = 0x1FF - s.pwr.inTol - s.pwr.ov := by
  have hup' : s.pwr.up.testBit 2 = true := hup
  unfold State.monSync
  simp only [hup', if_true]
  exact ⟨(rd_wrs_eq _ rfl (by decide) rfl).trans (Nat.mod_eq_of_lt hlo), (rd_wrs_eq _ rfl (by decide) rfl).trans (Nat.mod_eq_of_lt hhi),
    (rd_wrs_eq _ rfl (by decide) rfl).trans (Nat.mod_eq_of_lt (by rw [show Reg.PWR_RAIL_STAT_UV.width = 9 from rfl]; omega))⟩

/-- A rail is in one zone. -/
theorem zone_cases (z : Zone) : ((z == .within) && (z == .above)) = false ∧ (!(z == .within) && !(z == .above)) = (z == .below) := by
  cases z <;> exact ⟨rfl, rfl⟩

/-- The zone of a rail recorded. -/
def State.inZone (s : State) (i : Nat) (z : Zone) : State :=
  { s with pwr := { s.pwr with inTol := putBit s.pwr.inTol i (z == .within), ov := putBit s.pwr.ov i (z == .above) } }

theorem exec_railWarn (t : Nat) (rail : Fin 9) (zone : Zone) (s : State) : exec (.railWarn t rail zone) s =
    .next (if !((s.advance t).inZone rail zone).monSync.pwr.started then ((s.advance t).inZone rail zone).monSync
      else (((s.advance t).inZone rail zone).monSync.setRaw (evId .pwr 0 rail) (zone == .below)).setRaw (evId .pwr 0 (9 + rail)) (zone == .above)) := rfl

theorem railWarn_gives (t : Nat) (rail : Fin 9) (zone : Zone) {s : State} (hup : s.pwr.isUp 2 = true)
    (hz : s.pwr.inTol < 2 ^ 9 ∧ s.pwr.ov < 2 ^ 9 ∧ s.pwr.inTol &&& s.pwr.ov = 0) : Gives (.railWarn t rail zone) s fun u =>
      (u.rd (pg .pwr 0) Reg.PWR_RAIL_STAT_IN_TOL).testBit rail = (zone == .within) ∧
      (u.rd (pg .pwr 0) Reg.PWR_RAIL_STAT_UV).testBit rail = (zone == .below) ∧
      (u.rd (pg .pwr 0) Reg.PWR_RAIL_STAT_OV).testBit rail = (zone == .above) ∧ u.pwr.inTol = putBit s.pwr.inTol rail (zone == .within) ∧
      u.pwr.ov = putBit s.pwr.ov rail (zone == .above) := by
  obtain ⟨hlo, hhi, hand⟩ := hz
  obtain ⟨hone, hbelow⟩ := zone_cases zone
  have hlo' := putBit_lt hlo rail.isLt (zone == .within)
  have hhi' := putBit_lt hhi rail.isLt (zone == .above)
  refine .of_next (exec_railWarn ..) ?_
  have hpwr : ((s.advance t).inZone rail zone).pwr =
      { s.pwr with inTol := putBit s.pwr.inTol rail (zone == .within), ov := putBit s.pwr.ov rail (zone == .above) } := by
    simp only [State.inZone, State.advance_pwr]
  generalize (s.advance t).inZone rail zone = v at hpwr ⊢
  obtain ⟨hin, hov, huv⟩ := rd_monSync_zones (s := v) (by rw [hpwr]; exact hup) (by rw [hpwr]; exact hlo') (by rw [hpwr]; exact hhi')
  suffices h : ∀ u : State, u.pwr = v.monSync.pwr → (∀ f : Fld, f.placed → evReg (pg .pwr 0) f.off = false → u.rd (pg .pwr 0) f = v.monSync.rd (pg .pwr 0) f) →
      (u.rd (pg .pwr 0) Reg.PWR_RAIL_STAT_IN_TOL).testBit rail = (zone == .within) ∧
      (u.rd (pg .pwr 0) Reg.PWR_RAIL_STAT_UV).testBit rail = (zone == .below) ∧
      (u.rd (pg .pwr 0) Reg.PWR_RAIL_STAT_OV).testBit rail = (zone == .above) ∧ u.pwr.inTol = putBit s.pwr.inTol rail (zone == .within) ∧
      u.pwr.ov = putBit s.pwr.ov rail (zone == .above) by
    split
    · exact h _ rfl fun _ _ _ => rfl
    · refine h _ (by rw [setRaw_pwr, setRaw_pwr]) fun f hf he => ?_
      rw [rd_setRaw _ _ _ hf he, rd_setRaw _ _ _ hf he]
  intro u hu hr
  rw [hr _ (by decide) (by decide), hr _ (by decide) (by decide), hr _ (by decide) (by decide), hu, monSync_pwr, hin, hov, huv, hpwr,
    testBit_neither hlo' hhi' (putBit_disjoint hand hone) rail.isLt]
  simp only [testBit_putBit, if_true, hbelow, and_self]

/-- Settles O4, command by command. -/
theorem sequenceMonitorCommandsComplete : Obligations.SequenceMonitorCommandsComplete :=
  ⟨railUp_gives, fun _ _ _ _ _ hf hup hc => railUp_fault hf hup hc, railDown_gives, fun _ hbm _ hup hm ht => railMissing_gives hbm hup hm ht,
    fun _ _ => .of_next rfl rfl, fun us _ hs => porNAssert_gives us hs, fun _ _ h => coldStart_gives h, fun us _ hs ha => avsSet_gives us hs ha,
    fun t mv da _ hs ha => avsPoll_gives t mv da hs ha, fun _ _ hs ha hok ht => avsFail_gives hs ha hok ht,
    fun t rail zone _ hup hz => railWarn_gives t rail zone hup hz, fun t _ above _ hs => .of_next rfl (protReset_pwr t _ hs),
    fun t _ hs => .of_next rfl (protReset_pwr t _ hs)⟩

end Sys2Proof.Machine
end

section
/-!
PROOF. Losing the lock while a slice corrector holds values back. Gating ends the corrector's run, and the values that its inputs held back for the
run's end are then written (R190); where one of them is for PLL_STAT.GATED, the statement on locks fails.
-/
namespace Sys2Proof.Machine
open Sys2Proof.Tests

/- The kernel evaluations below wait for one another: each in turn, not each on a thread of its own. -/
set_option Elab.async false

/-- A slice corrector in window 1, with a 0 held back for GATED. -/
def gatedWaits : State := { stIc 3 with ic := [(0, { later := [(pg .clk 0, Reg.CLK_PLL_STAT_GATED, 0)] })] }

theorem lockLost_gatedWaits : ∃ u, exec (.lockLost 0) gatedWaits = .next u ∧ u.gated = false := ⟨_, rfl, by decide +kernel⟩

/-- Refutes O7: from `gatedWaits` a lost lock gates, which ends the run, and the value held back clears GATED. -/
theorem not_lockAndReleaseCommandsComplete : ¬ Obligations.LockAndReleaseCommandsComplete := by
  unfold Obligations.LockAndReleaseCommandsComplete
  rintro ⟨_, _, _, _, _, _, _, _, lost, _⟩
  obtain ⟨u, hu, hopen⟩ := lockLost_gatedWaits
  exact absurd (((lost 0 gatedWaits (by decide +kernel)).at_next hu).symm.trans hopen) (by decide)

end Sys2Proof.Machine
end

section
/-!
PROOF. The operations of a compute bundle's ALU: what each leaves in flight, and what the next bundle then reads (R463 to R467, R477).
-/
namespace Sys2Proof.Machine

/-! A compute bundle, executed. -/

section
variable {s : State} {n t w : Nat} {ecc : CoreEcc}

/-- The core as the bundle at tick `t` finds it, once its stalls have passed. -/
def CoreSt.stalled (c : CoreSt) (w t : Nat) : CoreSt := { c with cyc := max (c.cyc + c.stalls w true) (t - c.base) }

theorem coreStep_of_stalled (h : AtCompute (s.coreAt n) w ecc) : ∃ (u : State) (ie : Bool), s.coreStep n t ecc =
    u.finishBundle n t (s.coreAt n).pc.toNat ie (((s.coreAt n).stalled w t).execute u n t w ecc) := by
  generalize hc : s.coreAt n = c at h
  have hs : decide (0 < c.slots) = false := by simp [h.slots]
  have settled (k : Nat) : ({ c with cyc := k } : CoreSt).settle = { c with cyc := k } := settle_of_idle h.pend h.loads
  have window (k : Nat) : ({ c with cyc := k } : CoreSt).winAccess w = none := winAccess_of_quiet h.quiet
  unfold State.coreStep
  simp only [hc, settle_of_idle h.pend h.loads, h.prog, if_neg (quiet_p h.quiet), hs, h.legal, winAccess_of_quiet h.quiet, window, settled,
    Option.isSome_none, Bool.and_false, Bool.false_and, Bool.false_eq_true, if_false]
  exact ⟨_, _, rfl⟩

/-- The core at the bundle of the command. -/
def State.coreTurn (s : State) (n t w : Nat) : CoreSt := { s.coreSeen n t with state := 2 }.stalled w t

theorem retimed_coreTurn : Retimed (s.coreAt n) (s.coreTurn n t w) := (retimed_coreSeen s n t).trans rfl

/-- The command of an operation that the compute bundle holds executes the bundle. -/
theorem coreRun_of_turn (h : s.compute n t w ecc) {f : CoreSt → Nat → Bool} (hf : ∀ c : CoreSt, c.slots = 0 → f c w = true) :
    ∃ u : State, ((s.advance t).coreRun n t ecc f).coreAt n = ((s.coreTurn n t w).execute u n t w ecc).c := by
  have hat := (atCompute_of_compute h).retimed (retimed_coreSeen s n t)
  obtain ⟨⟨hopen, hirq, hdue, -⟩, -⟩ := h
  have hrun : (s.advance t).coreRun n t ecc f =
      (((s.advance t).coreNow n t).setCore n { s.coreSeen n t with state := 2 }).coreStep n t ecc := by
    unfold State.coreRun
    simp only [settle_of_idle hat.pend hat.loads, hopen, hirq, hat.prog, hf _ hat.slots, hdue]
    rfl
  have hturn : AtCompute (s.coreTurn n t w) w ecc := hat.retimed rfl
  obtain ⟨u, ie, hstep⟩ := coreStep_of_stalled (t := t) (s := ((s.advance t).coreNow n t).setCore n { s.coreSeen n t with state := 2 }) (n := n)
    (w := w) (ecc := ecc) (by rw [coreAt_setCore_same]; exact hat.retimed rfl)
  rw [coreAt_setCore_same] at hstep
  have hgo := goesOn_execute hturn u n t
  have hm := moved_makeMoves hturn u n t
  refine ⟨u, ?_⟩
  rw [hrun, hstep]
  refine coreAt_finishBundle (e := (s.coreTurn n t w).execute u n t w ecc) ?_ ?_ _ _
  · rw [execute_of_atCompute hturn]
    exact hm.fx
  · rw [haltReq_of_goesOn hgo, hm.core.haltReq, hturn.haltReq]

/-- The moves and the compute slot of the bundle, and on to the next bundle. -/
theorem coreRun_of_moves (h : s.compute n t w ecc) {f : CoreSt → Nat → Bool} (hf : ∀ c : CoreSt, c.slots = 0 → f c w = true) :
    ∃ u : State, AtCompute (s.coreTurn n t w) w ecc ∧ GoesOn 1 (((s.coreTurn n t w).makeMoves u n t w ecc).c.computeSlot w)
      (((s.advance t).coreRun n t ecc f).coreAt n) := by
  have hturn : AtCompute (s.coreTurn n t w) w ecc := (atCompute_of_compute h).retimed retimed_coreTurn
  obtain ⟨u, hu⟩ := coreRun_of_turn h hf
  exact ⟨u, hturn, hu ▸ goesOn_execute hturn u n t⟩

/-- The compute slot finds `d`, in which no register of the core has changed; the core is `u` at the next bundle. -/
structure SlotRun (c d u : CoreSt) (w : Nat) : Prop where
  moves : AfterMoves c d
  bundle : AfterBundle c u (d.computeSlot w).pend
  rest : d = { c with base := d.base, cyc := d.cyc, state := d.state, irqPend := d.irqPend, x := d.x, y := d.y, pend := d.pend, loads := d.loads }

theorem coreRun_of_slot (h : s.compute n t w ecc) {f : CoreSt → Nat → Bool} (hf : ∀ c : CoreSt, c.slots = 0 → f c w = true) :
    ∃ d, SlotRun (s.coreAt n) d (((s.advance t).coreRun n t ecc f).coreAt n) w := by
  obtain ⟨u, hturn, hgo⟩ := coreRun_of_moves h hf
  have hm := moved_makeMoves hturn u n t
  have hmoves := afterMoves_of_moved hturn retimed_coreTurn hm
  refine ⟨_, hmoves, afterBundle_of_goesOn hmoves (hm.core.loads hturn.loads) hgo, ?_⟩
  rw [hm.core.rest, show s.coreTurn n t w = { s.coreAt n with
    base := (s.coreTurn n t w).base, cyc := (s.coreTurn n t w).cyc, state := (s.coreTurn n t w).state, irqPend := (s.coreTurn n t w).irqPend } from
      retimed_coreTurn]

end

/-! Results of the ALU. -/

section
variable {c d u : CoreSt} {w i v : Nat} {op : CoreOp} {r : Word} {f : Nat}

theorem SlotRun.aluResult (h : SlotRun c d u w) : d.aluResult w op = c.aluResult w op := by
  rw [h.rest]
  rfl

theorem SlotRun.gr (h : SlotRun c d u w) : d.gr i = c.gr i := by
  rw [h.rest]
  rfl

/-- What the ALU sends for an operation with a result: its word, and where it sets flags, those. -/
theorem mem_pend_doAlu (hop : aluOp (bOpc w) = some op) (hr : c.aluResult w op = some (r, f)) {p : PendWrite} : p ∈ (c.doAlu w).pend ↔
    p = ⟨c.idx + 1, bGd w, r.toNat⟩ ∨ ((hasF op && bF w) = true ∧ p = ⟨c.idx + 1, 110, 0x0F * 256 + f⟩) ∨ p ∈ c.pend := by
  have hpost : c.doAlu w = if hasF op && bF w then (c.post 1 (bGd w) r.toNat).post 1 110 (0x0F * 256 + f) else c.post 1 (bGd w) r.toNat := by
    unfold CoreSt.doAlu
    simp only [hop, hr]
    split
    case h_7 => rfl
    all_goals exact nomatch hr
  rw [hpost]
  split
  next hflags =>
    rw [mem_pend_post, mem_pend_post]
    have hidx : (c.post 1 (bGd w) r.toNat).idx = c.idx := rfl
    rw [hidx]
    tauto
  next hflags =>
    rw [mem_pend_post]
    tauto

theorem pend_computeSlot_alu (hm : bMac w = false) : (c.computeSlot w).pend = (c.doAlu w).pend := by
  simp [CoreSt.computeSlot, hm]

/-- What is in flight after the bundle: what the compute slot sends, and what the moves have sent. -/
theorem SlotRun.mem_pend (h : SlotRun c d u w) (hm : bMac w = false) {p : PendWrite} : p ∈ u.pend ↔ p ∈ (d.doAlu w).pend := by
  rw [h.bundle.pend, pend_computeSlot_alu hm]

/-- No move lands in a general register, or in the status, by the next bundle. -/
theorem SlotRun.move_late (h : SlotRun c d u w) {p : PendWrite} (hp : p ∈ d.pend) (hdue : p.due ≤ u.idx) : 64 ≤ p.reg ∧ p.reg < 72 := by
  have hmove := h.moves.pend p hp
  rw [h.bundle.idx] at hdue
  unfold MoveResult at hmove
  omega

theorem bGd_lt (w : Nat) : bGd w < 32 := Nat.mod_lt _ (by decide)

/-- The next bundle reads the result. -/
theorem SlotRun.result (h : SlotRun c d u w) (hm : bMac w = false) (hop : aluOp (bOpc w) = some op) (hr : c.aluResult w op = some (r, f)) :
    u.settle.gr (bGd w) = r := by
  have hgd := bGd_lt w
  have hmem (p : PendWrite) := (h.mem_pend hm (p := p)).trans (mem_pend_doAlu hop (h.aluResult.trans hr))
  refine (Reading.gr (bGd w)).settle_landed (q := ⟨d.idx + 1, bGd w, r.toNat⟩) h.bundle.loads ((hmem _).2 (.inl rfl)) ?_ ?_ ?_
  · rw [h.bundle.idx, h.moves.idx]
  · intro e
    exact (gr_putReg_same e _ hgd).trans (by rw [BitVec.ofNat_toNat, BitVec.setWidth_eq])
  · intro p hp hdue ht
    have hreg : p.reg = bGd w := ht
    rcases (hmem p).1 hp with rfl | ⟨-, rfl⟩ | hold
    · rfl
    · exact absurd hreg (by dsimp only; omega)
    · have := h.move_late hold hdue
      omega

/-! Flags. -/

theorem st_putReg_mask {k mask f : Nat} (e : CoreSt) (hk : k < 5) (hmask : mask < 32) (hf : f < 32) : (e.putReg 110 (mask * 256 + f)).st.getLsbD (8 + k) =
    if mask.testBit k then f.testBit k else e.st.getLsbD (8 + k) := by
  have hshift (x : Nat) : (x * 256).testBit (8 + k) = x.testBit k := by
    rw [show (256 : Nat) = 2 ^ 8 from rfl, Nat.testBit_mul_two_pow]
    simp
  have hhigh : (mask * 256 + f) / 256 % 32 = mask := by omega
  have hlow : (mask * 256 + f) % 32 = f := by omega
  have hst : (e.putReg 110 (mask * 256 + f)).st =
      (e.st &&& ~~~(BitVec.ofNat 16 (mask * 256))) ||| (BitVec.ofNat 16 (f * 256) &&& BitVec.ofNat 16 (mask * 256)) := by
    simp [CoreSt.putReg, hhigh, hlow]
  have hwidth : 8 + k < 16 := by omega
  rw [hst, BitVec.getLsbD_or, BitVec.getLsbD_and, BitVec.getLsbD_and, BitVec.getLsbD_not, BitVec.getLsbD_ofNat, BitVec.getLsbD_ofNat, hshift, hshift]
  cases mask.testBit k <;> simp [hwidth]

theorem st_putReg_ne {k r v : Nat} (e : CoreSt) (hk : 8 ≤ k) (h : ¬(r = 56 ∨ r = 110)) : (e.putReg r v).st.getLsbD k = e.st.getLsbD k := by
  have hlow : (BitVec.ofNat 16 (v % 16 * 16)).getLsbD k = false := by
    rw [BitVec.getLsbD_ofNat, Nat.testBit_lt_two_pow (x := v % 16 * 16) (i := k), Bool.and_false]
    calc v % 16 * 16 < 2 ^ 8 := by omega
      _ ≤ 2 ^ k := Nat.pow_le_pow_right (by decide) hk
  unfold CoreSt.putReg
  obtain ⟨h56, h110⟩ := not_or.1 h
  simp only [apply_ite CoreSt.st, if_neg h56, if_neg h110]
  by_cases h108 : r = 108
  · simp [h108, hlow]
  · by_cases h109 : r = 109
    · by_cases hwide : k < 16
      · have hbit : (BitVec.ofNat 16 (v % 16 * 16))[k] = false := by rw [← BitVec.getLsbD_eq_getElem]; exact hlow
        simp [h109, hwide, hbit]
      · rw [BitVec.getLsbD_of_ge _ _ (by omega), BitVec.getLsbD_of_ge _ _ (by omega)]
    · simp only [if_neg h108, if_neg h109, ite_self]

/-- Flag `k` of the status: only a write of the status and the ALU's flags reach it. -/
def Reading.flag (k : Nat) (hk : 8 ≤ k) : Reading Bool :=
  ⟨fun c => c.st.getLsbD k, fun r => r = 56 ∨ r = 110, fun e _ _ h => st_putReg_ne e hk h, fun _ _ _ => rfl⟩

/-- Flags in flight as the one result that reaches them. -/
theorem SlotRun.flag (h : SlotRun c d u w) {k mask f : Nat} (hk : k < 5) (hmask : mask < 32) (hset : mask.testBit k = true) (hf : f < 32)
    (hsent : ⟨d.idx + 1, 110, mask * 256 + f⟩ ∈ u.pend)
    (hpend : ∀ p ∈ u.pend, p = ⟨d.idx + 1, 110, mask * 256 + f⟩ ∨ p.reg < 32 ∨ p ∈ d.pend) : u.settle.st.getLsbD (8 + k) = f.testBit k := by
  refine (Reading.flag (8 + k) (by omega)).settle_landed (q := ⟨d.idx + 1, 110, mask * 256 + f⟩) h.bundle.loads hsent ?_ ?_ ?_
  · rw [h.bundle.idx, h.moves.idx]
  · intro e
    exact (st_putReg_mask e hk hmask hf).trans (if_pos hset)
  · intro p hp hdue ht
    have hreg : p.reg = 56 ∨ p.reg = 110 := ht
    refine (hpend p hp).resolve_right fun hold => ?_
    rcases hold with hlow | hold
    · omega
    · have := h.move_late hold hdue
      omega

theorem b2n_le (b : Bool) : b2n b ≤ 1 := by cases b <;> decide

theorem aluResult_flags_lt (hF : hasF op = true) (hr : c.aluResult w op = some (r, f)) : f < 16 := by
  have logic (x : Word) : flagsLogic x < 4 := by
    have := b2n_le (x == 0)
    have := b2n_le x.msb
    unfold flagsLogic
    omega
  have arith (x : Word) (b b' : Bool) : flagsLogic x + 4 * b2n b + 8 * b2n b' < 16 := by
    have := logic x
    have := b2n_le b
    have := b2n_le b'
    omega
  cases op <;> simp only [hasF, Bool.false_eq_true] at hF
  case add | sub =>
    obtain ⟨-, rfl⟩ := Prod.mk.inj (Option.some.inj hr)
    exact arith _ _ _
  all_goals
    obtain ⟨-, rfl⟩ := Prod.mk.inj (Option.some.inj hr)
    exact (logic _).trans (by decide)

/-- The next bundle reads the flags that come with the result. -/
theorem SlotRun.resultFlags (h : SlotRun c d u w) (hm : bMac w = false) (hop : aluOp (bOpc w) = some op) (hr : c.aluResult w op = some (r, f))
    (hF : hasF op = true) (hb : bF w = true) (k : Fin 4) : u.settle.st.getLsbD (8 + k) = f.testBit k := by
  have hf := aluResult_flags_lt hF hr
  have hset : ∀ k : Fin 4, (0x0F : Nat).testBit k = true := by decide
  have hmem (p : PendWrite) := (h.mem_pend hm (p := p)).trans (mem_pend_doAlu hop (h.aluResult.trans hr))
  have hgd := bGd_lt w
  refine h.flag (mask := 0x0F) (by omega) (by decide) (hset k) (by omega) ((hmem _).2 (.inr (.inl ⟨by rw [hF, hb]; rfl, rfl⟩))) fun p hp => ?_
  rcases (hmem p).1 hp with rfl | ⟨-, hflags⟩ | hold
  · exact .inr (.inl hgd)
  · exact .inl hflags
  · exact .inr (.inr hold)

end

section
variable {s : State} {n t w : Nat} {ecc : CoreEcc} {op : CoreOp} {r : Word} {f : Nat}

theorem coreRun_of_alu (h : s.compute n t w ecc) (ho : bMac w = false ∧ aluOp (bOpc w) = some op) (hn : op ≠ .nop) :
    ∃ d, SlotRun (s.coreAt n) d (((s.advance t).coreRun n t ecc (holdsOp op)).coreAt n) w :=
  coreRun_of_slot h fun _ hs => holdsOp_of_alu hs h.2.1 h.2.2.1 ho.1 ho.2 hn

theorem alu_gives {cmd : Instr} (e : exec cmd s = .next ((s.advance t).coreRun n t ecc (holdsOp op))) (h : s.compute n t w ecc)
    (ho : bMac w = false ∧ aluOp (bOpc w) = some op) (hn : op ≠ .nop) (hr : (s.coreAt n).aluResult w op = some (r, f)) :
    Gives cmd s fun u => (u.coreAt n).settle.gr (bGd w) = r := by
  obtain ⟨d, hrun⟩ := coreRun_of_alu h ho hn
  exact .of_next e (hrun.result ho.1 ho.2 hr)

theorem alu_gives_flags {cmd : Instr} (e : exec cmd s = .next ((s.advance t).coreRun n t ecc (holdsOp op))) (h : s.compute n t w ecc)
    (ho : bMac w = false ∧ aluOp (bOpc w) = some op) (hn : op ≠ .nop) (hF : hasF op = true) (hr : (s.coreAt n).aluResult w op = some (r, f)) :
    Gives cmd s fun u => (u.coreAt n).settle.gr (bGd w) = r ∧ (bF w = true → ∀ k : Fin 4, (u.coreAt n).settle.st.getLsbD (8 + k) = f.testBit k) := by
  obtain ⟨d, hrun⟩ := coreRun_of_alu h ho hn
  exact .of_next e ⟨hrun.result ho.1 ho.2 hr, fun hb k => hrun.resultFlags ho.1 ho.2 hr hF hb k⟩

end

/-! Operations that set flags alone. -/

section
variable {c d u : CoreSt} {w : Nat}

/-- Flags that the compute slot sends alone. -/
theorem SlotRun.flagsAlone (h : SlotRun c d u w) (hm : bMac w = false) {k mask f : Nat} (hk : k < 5) (hmask : mask < 32) (hset : mask.testBit k = true)
    (hf : f < 32) (hsent : d.doAlu w = d.post 1 110 (mask * 256 + f)) : u.settle.st.getLsbD (8 + k) = f.testBit k := by
  have hmem (p : PendWrite) : p ∈ u.pend ↔ p = ⟨d.idx + 1, 110, mask * 256 + f⟩ ∨ p ∈ d.pend := by rw [h.mem_pend hm, hsent, mem_pend_post]
  exact h.flag hk hmask hset hf ((hmem _).2 (.inl rfl)) fun p hp => ((hmem p).1 hp).imp_right .inr

theorem flagsSub_lt (a b : Word) : flagsSub a b < 16 := by
  have := b2n_le (a - b == 0)
  have := b2n_le (a - b).msb
  have := b2n_le (b.toNat ≤ a.toNat)
  have := b2n_le (a.msb != b.msb && (a - b).msb != a.msb)
  unfold flagsSub flagsLogic
  dsimp only
  omega

theorem doAlu_cmp (hop : aluOp (bOpc w) = some .cmp) : c.doAlu w = c.post 1 110 (0x0F * 256 + flagsSub (c.gr (bGa w)) (c.gr (bGb w))) := by
  rw [CoreSt.doAlu, hop]
  rfl

theorem doAlu_cmpi (hop : aluOp (bOpc w) = some .cmpi) :
    c.doAlu w = c.post 1 110 (0x0F * 256 + flagsSub (c.gr (bGa w)) (BitVec.ofInt 64 (bSimm w))) := by
  rw [CoreSt.doAlu, hop]
  rfl

theorem doAlu_tst (hop : aluOp (bOpc w) = some .tst) : c.doAlu w = c.post 1 110 (0x10 * 256 + 16 * bit (c.gr (bGa w)).toNat (bits w 37 32)) := by
  rw [CoreSt.doAlu, hop]
  rfl

end

section
variable {s : State} {n t w : Nat} {ecc : CoreEcc}

/-- The mask of the four flags of a comparison. -/
theorem flagMask (k : Fin 4) : (0x0F : Nat).testBit k = true := by
  revert k
  decide

theorem opCmp_gives (h : s.compute n t w ecc) (ho : bMac w = false ∧ aluOp (bOpc w) = some .cmp) (k : Fin 4) :
    (((s.advance t).coreRun n t ecc (holdsOp .cmp)).coreAt n).settle.st.getLsbD (8 + k) =
      (flagsSub ((s.coreAt n).gr (bGa w)) ((s.coreAt n).gr (bGb w))).testBit k := by
  obtain ⟨d, hrun⟩ := coreRun_of_alu h ho (by decide)
  rw [← hrun.gr, ← hrun.gr]
  exact hrun.flagsAlone ho.1 (by omega) (by decide) (flagMask k) ((flagsSub_lt _ _).trans (by decide)) (doAlu_cmp ho.2)

theorem opCmpi_gives (h : s.compute n t w ecc) (ho : bMac w = false ∧ aluOp (bOpc w) = some .cmpi) (k : Fin 4) :
    (((s.advance t).coreRun n t ecc (holdsOp .cmpi)).coreAt n).settle.st.getLsbD (8 + k) =
      (flagsSub ((s.coreAt n).gr (bGa w)) (BitVec.ofInt 64 (bSimm w))).testBit k := by
  obtain ⟨d, hrun⟩ := coreRun_of_alu h ho (by decide)
  rw [← hrun.gr]
  exact hrun.flagsAlone ho.1 (by omega) (by decide) (flagMask k) ((flagsSub_lt _ _).trans (by decide)) (doAlu_cmpi ho.2)

theorem testBit_four (x i : Nat) : (16 * bit x i).testBit 4 = x.testBit i := by
  have h : x / 2 ^ i % 2 = 0 ∨ x / 2 ^ i % 2 = 1 := by omega
  rw [Nat.testBit_eq_decide_div_mod_eq (x := x)]
  unfold bit
  rcases h with h | h <;> rw [h] <;> decide

theorem opTst_gives (h : s.compute n t w ecc) (ho : bMac w = false ∧ aluOp (bOpc w) = some .tst) :
    (((s.advance t).coreRun n t ecc (holdsOp .tst)).coreAt n).settle.st.getLsbD 12 = ((s.coreAt n).gr (bGa w)).getLsbD (bits w 37 32) := by
  obtain ⟨d, hrun⟩ := coreRun_of_alu h ho (by decide)
  have hlt : 16 * bit ((s.coreAt n).gr (bGa w)).toNat (bits w 37 32) < 32 := by
    have : bit ((s.coreAt n).gr (bGa w)).toNat (bits w 37 32) < 2 := Nat.mod_lt _ (by decide)
    omega
  rw [← hrun.gr] at hlt ⊢
  exact (hrun.flagsAlone ho.1 (k := 4) (by decide) (by decide) (by decide) hlt (doAlu_tst ho.2)).trans (testBit_four _ _)

/-! The empty bundle. -/

theorem loopEnd_cyc (fuel : Nat) (c : CoreSt) (k : Nat) : ({ c with cyc := k } : CoreSt).loopEnd fuel = { c.loopEnd fuel with cyc := k } := by
  induction fuel generalizing c with
  | zero => rfl
  | succ fuel ih =>
    have hlsp : ({ c with cyc := k } : CoreSt).lsp = c.lsp := rfl
    simp only [CoreSt.loopEnd, hlsp]
    split_ifs
    · rfl
    · exact ih (c.setLsp (c.lsp - 1))
    · rfl

theorem compute_zero (h : s.atBundle n t 0) (hecc : ecc.p ≠ 2) : s.compute n t 0 ecc := by
  refine ⟨h, by decide, by decide, ?_⟩
  have hp : ecc.p.val ≠ 2 := fun e => hecc (Fin.ext e)
  have hx : vOp (xMove 0) = 0 := by decide
  have hy : vOp (yMove 0) = 0 := by decide
  simp [CoreSt.quiet, hx, hy, hp]

/-- A bundle of zeros goes on, and nothing else. -/
theorem execute_zero {c : CoreSt} (hc : AtCompute c 0 ecc) (u : State) : (c.execute u n t 0 ecc).c =
    { c.loopEnd 4 with idx := (c.loopEnd 4).idx + 1, cyc := (c.loopEnd 4).cyc + 1 } := by
  have hmoves : (c.makeMoves u n t 0 ecc).c.computeSlot 0 = c := rfl
  have hadv : c.advance c 0 = c.loopEnd 4 := by
    have hform : bForm 0 ≠ 1 := by decide
    simp [CoreSt.advance, hc.slots, hform]
  rw [execute_of_atCompute hc, hmoves, hadv]
  rfl

theorem coreSeen_cyc (s : State) (n t : Nat) : (s.coreSeen n t).cyc = (s.coreAt n).cyc := by
  have htimed : (((s.advance t).coreAt n).timed t).cyc = (s.coreAt n).cyc := by
    rw [coreAt_of_core (State.advance_core _ _)]
    unfold CoreSt.timed
    split <;> rfl
  unfold State.coreSeen State.coreNow
  rw [coreAt_setCore_same]
  split <;> exact htimed

theorem stalls_zero {c : CoreSt} (hc : AtCompute c 0 ecc) : c.stalls 0 true = 0 := by
  have hwin : c.winAccess 0 = none := winAccess_of_quiet hc.quiet
  have hy : vOp (yMove 0) ≠ 3 := by decide
  simp [CoreSt.stalls, hc.loads, hwin, hy, b2n]

theorem cyc_stalled (c : CoreSt) (w t : Nat) : (({ c with state := 2 } : CoreSt).stalled w t).cyc = max (c.cyc + c.stalls w true) (t - c.base) := rfl

theorem opNop_gives (h : s.atBundle n t w) (hecc : ecc.p ≠ 2) (hw : w = 0) : ((s.advance t).coreRun n t ecc (holdsOp .nop)).coreAt n =
    { CoreSt.loopEnd 4 { s.coreSeen n t with state := 2 } with
      idx := (s.coreAt n).idx + 1, cyc := max (s.coreAt n).cyc (t - (s.coreSeen n t).base) + 1 } := by
  subst hw
  have hcompute := compute_zero h hecc
  have hhold (c : CoreSt) (hs : c.slots = 0) : holdsOp .nop c 0 = true := by
    have hops : (bundleOps 0 false).contains .nop = true := by decide
    simpa [holdsOp, hs] using hops
  obtain ⟨u, hu⟩ := coreRun_of_turn hcompute hhold
  have hturn : AtCompute (s.coreTurn n t 0) 0 ecc := (atCompute_of_compute hcompute).retimed retimed_coreTurn
  have hidx : (s.coreTurn n t 0).idx = (s.coreAt n).idx := by rw [show s.coreTurn n t 0 = _ from retimed_coreTurn]
  have hcyc : (s.coreTurn n t 0).cyc = max (s.coreAt n).cyc (t - (s.coreSeen n t).base) := by
    have hseen : AtCompute (s.coreSeen n t) 0 ecc := (atCompute_of_compute hcompute).retimed (retimed_coreSeen s n t)
    exact (cyc_stalled (s.coreSeen n t) 0 t).trans (by rw [stalls_zero hseen, Nat.add_zero, coreSeen_cyc])
  have hend : (s.coreTurn n t 0).loopEnd 4 = { CoreSt.loopEnd 4 { s.coreSeen n t with state := 2 } with cyc := (s.coreTurn n t 0).cyc } :=
    loopEnd_cyc 4 _ _
  have hkeep : (CoreSt.loopEnd 4 { s.coreSeen n t with state := 2 }).idx = (s.coreAt n).idx := by
    rw [goesOn_loopEnd 4 { s.coreSeen n t with state := 2 }, show s.coreSeen n t = _ from retimed_coreSeen s n t]
    rfl
  rw [hu, execute_zero hturn, hend, hcyc]
  simp only [hkeep]

end

/-! The long immediate. -/

section
variable {s : State} {n t w : Nat} {ecc : CoreEcc}

theorem opLi_gives (h : s.atBundle n t w) (hecc : ecc.p ≠ 2) (hli : bForm w = 2 ∧ bundleLegal w false = true) :
    ⟨(s.coreAt n).idx + (if bits w 61 55 < 32 then 1 else 3), bits w 61 55, unsigned 64 (signed 48 (part w 0 48))⟩ ∈
      (((s.advance t).coreRun n t ecc (holdsOp .li)).coreAt n).pend := by
  obtain ⟨hf, hl⟩ := hli
  obtain ⟨u, c, hc, -, hrun⟩ := coreRun_of_atBundle h (by omega) hecc fun c hs => holdsOp_li hf hl hs
  have hat := (atMoveless_of_atBundle h (by omega)).retimed hc
  obtain ⟨hfx, hgo⟩ := execute_li u n t ecc hat.slots hf hl
  have hidx : c.idx = (s.coreAt n).idx := by rw [show c = _ from hc]
  have hhalt : (c.execute u n t w ecc).c.haltReq = false := by
    rw [hgo]
    exact hat.haltReq
  have hnofx : ∀ f ∈ (c.execute u n t w ecc).fx, f.counts = true := by rw [hfx]; exact fun _ h => nomatch h
  rw [hrun, coreAt_finishBundle hnofx hhalt, hgo]
  exact mem_pend_post.2 (.inl (by rw [hidx]; rfl))

end

/-- Settles O34: a result and its flags are the only ones that reach their register and the status by the next bundle. -/
theorem coreAluCommandsComplete : Obligations.CoreAluCommandsComplete :=
  ⟨fun _ _ _ _ _ h ho => alu_gives_flags rfl h ho (by decide) rfl rfl, fun _ _ _ _ _ h ho => alu_gives_flags rfl h ho (by decide) rfl rfl,
    fun _ _ _ _ _ h ho => alu_gives_flags rfl h ho (by decide) rfl rfl, fun _ _ _ _ _ h ho => alu_gives_flags rfl h ho (by decide) rfl rfl,
    fun _ _ _ _ _ h ho => alu_gives_flags rfl h ho (by decide) rfl rfl, fun _ _ _ _ _ h ho => alu_gives_flags rfl h ho (by decide) rfl rfl,
    fun _ _ _ _ _ h ho => alu_gives_flags rfl h ho (by decide) rfl rfl, fun _ _ _ _ _ h ho => alu_gives_flags rfl h ho (by decide) rfl rfl,
    fun _ _ _ _ _ h ho => alu_gives_flags rfl h ho (by decide) rfl rfl, fun _ _ _ _ _ h ho => alu_gives_flags rfl h ho (by decide) rfl rfl,
    fun _ _ _ _ _ h ho => alu_gives_flags rfl h ho (by decide) rfl rfl, fun _ _ _ _ _ h ho => alu_gives rfl h ho (by decide) rfl,
    fun _ _ _ _ _ h ho => alu_gives rfl h ho (by decide) rfl, fun _ _ _ _ _ h ho => alu_gives rfl h ho (by decide) rfl,
    fun _ _ _ _ _ h ho => alu_gives rfl h ho (by decide) rfl, fun _ _ _ _ _ h ho => .of_next rfl (opCmp_gives h ho),
    fun _ _ _ _ _ h ho => .of_next rfl (opCmpi_gives h ho), fun _ _ _ _ _ h ho => .of_next rfl (opTst_gives h ho),
    fun _ _ _ _ _ h hecc hw => .of_next rfl (opNop_gives h hecc hw), fun _ _ _ _ _ h hecc hli => .of_next rfl (opLi_gives h hecc hli)⟩

end Sys2Proof.Machine
end

section
/-!
PROOF. The complex and accumulator operations of the ALU, and the two MAC units: what each leaves in flight (R465 to R468, R477).
-/
namespace Sys2Proof.Machine

/-! Accumulators and address registers, which the ALU reaches later. -/

section
variable {c : CoreSt} {w : Nat}

theorem doAlu_acld (hop : aluOp (bOpc w) = some .acld) : c.doAlu w =
    (c.post 2 (100 + bits w 51 50) (unsigned 72 (iOf (c.gr (bGa w))))).post 2 (104 + bits w 51 50) (unsigned 72 (qOf (c.gr (bGa w)))) := by
  rw [CoreSt.doAlu, hop]
  rfl

/-- The accumulators of `l` cleared. -/
def CoreSt.clearAccs (c : CoreSt) (l : List Nat) : CoreSt := l.foldl (fun c k => (c.post 2 (100 + k) 0).post 2 (104 + k) 0) c

theorem doAlu_acclr (hop : aluOp (bOpc w) = some .acclr) : c.doAlu w =
    (if w.testBit 36 then c else c.clearAccs (bitsOf 4 (bits w 35 32))).post 2 109 (bits w 35 32) := by
  rw [CoreSt.doAlu, hop]
  rfl

theorem doAlu_puta (hop : aluOp (bOpc w) = some .puta) : c.doAlu w = c.post 3 (64 + bits w 36 32) ((c.gr (bGa w)).toNat % 2 ^ 18) := by
  rw [CoreSt.doAlu, hop]
  rfl

theorem clearAccs_keeps (l : List Nat) (c : CoreSt) : (c.clearAccs l).idx = c.idx ∧ ∀ p ∈ c.pend, p ∈ (c.clearAccs l).pend := by
  induction l generalizing c with
  | nil => exact ⟨rfl, fun _ h => h⟩
  | cons k l ih =>
    obtain ⟨hidx, hpend⟩ := ih ((c.post 2 (100 + k) 0).post 2 (104 + k) 0)
    exact ⟨hidx, fun p hp => hpend p (mem_pend_post.2 (.inr (mem_pend_post.2 (.inr hp))))⟩

theorem mem_pend_clearAccs {k : Nat} {l : List Nat} (hk : k ∈ l) (c : CoreSt) :
    ⟨c.idx + 2, 100 + k, 0⟩ ∈ (c.clearAccs l).pend ∧ ⟨c.idx + 2, 104 + k, 0⟩ ∈ (c.clearAccs l).pend := by
  induction l generalizing c with
  | nil => nomatch hk
  | cons j l ih =>
    rcases List.mem_cons.1 hk with rfl | hk
    · obtain ⟨-, hpend⟩ := clearAccs_keeps l ((c.post 2 (100 + k) 0).post 2 (104 + k) 0)
      exact ⟨hpend _ (mem_pend_post.2 (.inr (mem_pend_post.2 (.inl rfl)))), hpend _ (mem_pend_post.2 (.inl rfl))⟩
    · exact ih hk _

theorem mem_bitsOf_mask {k : Nat} (hk : k < 4) (h : w.testBit (32 + k) = true) : k ∈ bitsOf 4 (bits w 35 32) := by
  have hbit : (bits w 35 32).testBit k = true := by
    rw [bits, Nat.testBit_mod_two_pow, Nat.testBit_div_two_pow, decide_eq_true (show k < 35 - 32 + 1 from hk), Nat.add_comm k, h]
    rfl
  exact List.mem_filter.2 ⟨List.mem_range.2 hk, hbit⟩

end

section
variable {s : State} {n t w : Nat} {ecc : CoreEcc}

theorem aluResult_ext (c : CoreSt) (w : Nat) : c.aluResult w .ext = some (BitVec.ofNat 64 (if bits w 47 46 = 0 then
    unsigned 64 (extract (vget c.acr (bits w 49 48)) (bits w 44 39) (w.testBit 45)) else if bits w 47 46 = 1 then
    unsigned 64 (extract (vget c.aci (bits w 49 48)) (bits w 44 39) (w.testBit 45)) else
    iq (extract (vget c.acr (bits w 49 48)) (bits w 44 39) (w.testBit 45)) (extract (vget c.aci (bits w 49 48)) (bits w 44 39) (w.testBit 45))), 0) := by
  unfold CoreSt.aluResult
  dsimp only
  generalize bits w 47 46 = k
  match k with
  | 0 | 1 | _ + 2 => rfl

theorem opAcld_sends (h : s.compute n t w ecc) (ho : bMac w = false ∧ aluOp (bOpc w) = some .acld) :
    ⟨(s.coreAt n).idx + 2, 100 + bits w 51 50, unsigned 72 (iOf ((s.coreAt n).gr (bGa w)))⟩ ∈
      (((s.advance t).coreRun n t ecc (holdsOp .acld)).coreAt n).pend ∧
    ⟨(s.coreAt n).idx + 2, 104 + bits w 51 50, unsigned 72 (qOf ((s.coreAt n).gr (bGa w)))⟩ ∈
      (((s.advance t).coreRun n t ecc (holdsOp .acld)).coreAt n).pend := by
  obtain ⟨d, hrun⟩ := coreRun_of_alu h ho (by decide)
  rw [hrun.mem_pend ho.1, hrun.mem_pend ho.1, doAlu_acld ho.2, hrun.gr, ← hrun.moves.idx]
  exact ⟨mem_pend_post.2 (.inr (mem_pend_post.2 (.inl rfl))), mem_pend_post.2 (.inl rfl)⟩

theorem opAcclr_sends (h : s.compute n t w ecc) (ho : bMac w = false ∧ aluOp (bOpc w) = some .acclr) :
    (w.testBit 36 = false → ∀ k : Fin 4, w.testBit (32 + k) = true →
      ⟨(s.coreAt n).idx + 2, 100 + k.val, 0⟩ ∈ (((s.advance t).coreRun n t ecc (holdsOp .acclr)).coreAt n).pend ∧
      ⟨(s.coreAt n).idx + 2, 104 + k.val, 0⟩ ∈ (((s.advance t).coreRun n t ecc (holdsOp .acclr)).coreAt n).pend) ∧
    ⟨(s.coreAt n).idx + 2, 109, bits w 35 32⟩ ∈ (((s.advance t).coreRun n t ecc (holdsOp .acclr)).coreAt n).pend := by
  obtain ⟨d, hrun⟩ := coreRun_of_alu h ho (by decide)
  simp only [hrun.mem_pend ho.1, doAlu_acclr ho.2, ← hrun.moves.idx]
  refine ⟨fun hbit k hk => ?_, mem_pend_post.2 (.inl ?_)⟩
  · obtain ⟨hre, him⟩ := mem_pend_clearAccs (mem_bitsOf_mask k.isLt hk) d
    rw [if_neg (by simp [hbit])]
    exact ⟨mem_pend_post.2 (.inr hre), mem_pend_post.2 (.inr him)⟩
  · split
    · rfl
    · rw [(clearAccs_keeps _ d).1]

theorem opPuta_sends (h : s.compute n t w ecc) (ho : bMac w = false ∧ aluOp (bOpc w) = some .puta) :
    ⟨(s.coreAt n).idx + 3, 64 + bits w 36 32, ((s.coreAt n).gr (bGa w)).toNat % 2 ^ 18⟩ ∈
      (((s.advance t).coreRun n t ecc (holdsOp .puta)).coreAt n).pend := by
  obtain ⟨d, hrun⟩ := coreRun_of_alu h ho (by decide)
  rw [hrun.mem_pend ho.1, doAlu_puta ho.2, hrun.gr, ← hrun.moves.idx]
  exact mem_pend_post.2 (.inl rfl)

end

/-- Settles O35: a complex word lands like any result of the ALU, and what lands later is in flight. -/
theorem coreComplexCommandsComplete : Obligations.CoreComplexCommandsComplete :=
  ⟨fun _ _ _ _ _ h ho => alu_gives rfl h ho (by decide) rfl, fun _ _ _ _ _ h ho => alu_gives rfl h ho (by decide) rfl,
    fun _ _ _ _ _ h ho => alu_gives rfl h ho (by decide) rfl, fun _ _ _ _ _ h ho => alu_gives rfl h ho (by decide) rfl,
    fun _ w _ _ _ h ho => alu_gives rfl h ho (by decide) (aluResult_ext _ w), fun _ _ _ _ _ h ho => alu_gives rfl h ho (by decide) rfl,
    fun _ _ _ _ _ h ho => .of_next rfl (opAcld_sends h ho), fun _ _ _ _ _ h ho => .of_next rfl (opAcclr_sends h ho),
    fun _ _ _ _ _ h ho => .of_next rfl (opPuta_sends h ho)⟩

/-! MAC units. -/

section
variable {c before : CoreSt} {a b m : Nat} {neg : Bool}

/-- The sign of a product. -/
def signBy (neg : Bool) : Int := if neg then -1 else 1

theorem take_halves (c : CoreSt) (m : Nat) (re im : Int) : ⟨c.idx + 2, 100 + m, unsigned 72 re⟩ ∈ (c.take m re im).pend ∧
    ⟨c.idx + 2, 104 + m, unsigned 72 im⟩ ∈ (c.take m re im).pend :=
  ⟨mem_pend_take.2 (.inr (.inl rfl)), mem_pend_take.2 (.inl rfl)⟩

/-- An overflow that is noted sends nothing to the halves. -/
theorem mem_pend_noted {p : PendWrite} (h : p ∈ c.pend) (b : Bool) (k : Nat) : p ∈ (if b then c.post 2 108 (2 ^ k) else c).pend := by
  split
  · exact mem_pend_post.2 (.inr h)
  · exact h

variable (c before a b m neg)

theorem doUnit_cmul : c.doUnit before 1 a b m neg = c.take m
    (signBy neg * (iOf (before.gr a) * iOf (before.gr b) - qOf (before.gr a) * qOf (before.gr b)))
    (signBy neg * (iOf (before.gr a) * qOf (before.gr b) + qOf (before.gr a) * iOf (before.gr b))) := rfl

theorem doUnit_cjmul : c.doUnit before 3 a b m neg = c.take m
    (signBy neg * (iOf (before.gr a) * iOf (before.gr b) + qOf (before.gr a) * qOf (before.gr b)))
    (signBy neg * (qOf (before.gr a) * iOf (before.gr b) - iOf (before.gr a) * qOf (before.gr b))) := rfl

theorem mem_pend_cmac {p : PendWrite} (h : p ∈ (c.take m
    (before.accNow (100 + m) + signBy neg * (iOf (before.gr a) * iOf (before.gr b) - qOf (before.gr a) * qOf (before.gr b)))
    (before.accNow (104 + m) + signBy neg * (iOf (before.gr a) * qOf (before.gr b) + qOf (before.gr a) * iOf (before.gr b)))).pend) :
    p ∈ (c.doUnit before 2 a b m neg).pend := mem_pend_noted h _ _

theorem mem_pend_cjmac {p : PendWrite} (h : p ∈ (c.take m
    (before.accNow (100 + m) + signBy neg * (iOf (before.gr a) * iOf (before.gr b) + qOf (before.gr a) * qOf (before.gr b)))
    (before.accNow (104 + m) + signBy neg * (qOf (before.gr a) * iOf (before.gr b) - iOf (before.gr a) * qOf (before.gr b)))).pend) :
    p ∈ (c.doUnit before 4 a b m neg).pend := mem_pend_noted h _ _

theorem mem_pend_qmac : ⟨c.idx + 2, 100 + m, unsigned 72 (before.accNow (100 + m) + signBy neg * (iOf (before.gr a) * iOf (before.gr b) +
    qOf (before.gr a) * qOf (before.gr b) + iOf (before.gr (a + 1)) * iOf (before.gr (b + 1)) + qOf (before.gr (a + 1)) * qOf (before.gr (b + 1))))⟩ ∈
    (c.doUnit before 5 a b m neg).pend := mem_pend_noted (mem_pend_post.2 (.inl rfl)) _ _

end

section
variable {s : State} {n t w : Nat} {ecc : CoreEcc} {k : Fin 2} {op a b m : Nat}

/-- As `accNow_afterMoves`, for the imaginary halves. -/
theorem accNow_aci_afterMoves {c d : CoreSt} (h : AfterMoves c d) {n : Nat} : d.accNow (104 + n) = (vget c.aci n).toInt := by
  have hnone : d.pend.filter (fun p => p.reg == 104 + n && p.due ≤ d.idx + 1) = [] := by
    rw [List.filter_eq_nil_iff]
    intro p hp
    have hmove := h.pend p hp
    unfold MoveResult at hmove
    simp only [Bool.and_eq_true, beq_iff_eq, not_and]
    omega
  simp only [CoreSt.accNow, hnone, List.foldl_nil, if_neg (by omega : ¬104 + n < 104), Nat.add_sub_cancel_left, h.aci, signed_toNat]

/-- Unit `k` of the bundle, executed from `x` on the registers of `d`: all that it sends is in flight. -/
structure UnitRun (c d x u : CoreSt) (w op a b m : Nat) : Prop where
  idx : x.idx = c.idx
  gr : ∀ i, d.gr i = c.gr i
  acr : d.accNow (100 + m) = (vget c.acr m).toInt
  aci : d.accNow (104 + m) = (vget c.aci m).toInt
  sends : ∀ p ∈ (x.doUnit d op a b m (w.testBit 60)).pend, p ∈ u.pend
  only : ∀ p ∈ u.pend, p ∈ (x.doUnit d op a b m (w.testBit 60)).pend ∨ (p.reg ≠ 100 + m ∧ p.reg ≠ 104 + m)
  before : ∀ p ∈ x.pend, p.reg ≠ 100 + m ∧ p.reg ≠ 104 + m

theorem elsewhere_of_move_or_unit {i j : Nat} {p : PendWrite} (h : MoveResult i p ∨ UnitResult i j p) (hm : m < 4) (hj : j < 4) (hne : j ≠ m) :
    p.reg ≠ 100 + m ∧ p.reg ≠ 104 + m := by
  unfold MoveResult UnitResult at h
  omega

theorem coreRun_of_unit (h : s.compute n t w ecc) (hk : bMac w = true ∧ macUnit w k = (op, a, b, m)) {o : CoreOp} (ho : o ∈ macOp op) :
    ∃ d x, UnitRun (s.coreAt n) d x (((s.advance t).coreRun n t ecc (holdsOp o)).coreAt n) w op a b m := by
  obtain ⟨d, hd, hu⟩ := coreRun_of_macUnit h hk.1 hk.2 ho
  obtain ⟨x, j, hj, hne, hx, hrest⟩ := doMac_of_unit hk.2 d
  have hm : m < 4 := by simpa only [hk.2] using macUnit_acc_lt w k
  refine ⟨d, x, hx.idx.trans hd.idx, fun i => by rw [CoreSt.gr, hd.g]; rfl, accNow_afterMoves hd hm, accNow_aci_afterMoves hd, ?_, ?_, ?_⟩
  · rw [hu.pend]
    exact hrest.old
  · rw [hu.pend]
    exact fun p hp => (hrest.issued p hp).imp_right fun hunit => elsewhere_of_move_or_unit (.inr hunit) hm hj hne
  · exact fun p hp => elsewhere_of_move_or_unit ((hx.issued p hp).imp_left fun hold => hd.idx ▸ hd.pend p hold) hm hj hne

/-- What both halves of a unit's accumulator are sent. -/
abbrev SendsHalves (c u : CoreSt) (m : Nat) (re im : Int) : Prop :=
  ⟨c.idx + 2, 100 + m, unsigned 72 re⟩ ∈ u.pend ∧ ⟨c.idx + 2, 104 + m, unsigned 72 im⟩ ∈ u.pend

variable {c d x u : CoreSt} {re im : Int}

theorem UnitRun.halves (h : UnitRun c d x u w op a b m)
    (hsent : ∀ p ∈ (x.take m re im).pend, p ∈ (x.doUnit d op a b m (w.testBit 60)).pend) : SendsHalves c u m re im := by
  obtain ⟨hre, him⟩ := take_halves x m re im
  rw [h.idx] at hre him
  exact ⟨h.sends _ (hsent _ hre), h.sends _ (hsent _ him)⟩

theorem UnitRun.cmul (h : UnitRun c d x u w 1 a b m) : SendsHalves c u m
    (signBy (w.testBit 60) * (iOf (c.gr a) * iOf (c.gr b) - qOf (c.gr a) * qOf (c.gr b)))
    (signBy (w.testBit 60) * (iOf (c.gr a) * qOf (c.gr b) + qOf (c.gr a) * iOf (c.gr b))) := by
  refine h.halves fun p hp => ?_
  rw [doUnit_cmul, h.gr, h.gr]
  exact hp

theorem UnitRun.cjmul (h : UnitRun c d x u w 3 a b m) : SendsHalves c u m
    (signBy (w.testBit 60) * (iOf (c.gr a) * iOf (c.gr b) + qOf (c.gr a) * qOf (c.gr b)))
    (signBy (w.testBit 60) * (qOf (c.gr a) * iOf (c.gr b) - iOf (c.gr a) * qOf (c.gr b))) := by
  refine h.halves fun p hp => ?_
  rw [doUnit_cjmul, h.gr, h.gr]
  exact hp

theorem UnitRun.cmac (h : UnitRun c d x u w 2 a b m) : SendsHalves c u m
    ((vget c.acr m).toInt + signBy (w.testBit 60) * (iOf (c.gr a) * iOf (c.gr b) - qOf (c.gr a) * qOf (c.gr b)))
    ((vget c.aci m).toInt + signBy (w.testBit 60) * (iOf (c.gr a) * qOf (c.gr b) + qOf (c.gr a) * iOf (c.gr b))) := by
  refine h.halves fun p hp => mem_pend_cmac _ _ _ _ _ _ ?_
  rw [h.gr, h.gr, h.acr, h.aci]
  exact hp

theorem UnitRun.cjmac (h : UnitRun c d x u w 4 a b m) : SendsHalves c u m
    ((vget c.acr m).toInt + signBy (w.testBit 60) * (iOf (c.gr a) * iOf (c.gr b) + qOf (c.gr a) * qOf (c.gr b)))
    ((vget c.aci m).toInt + signBy (w.testBit 60) * (qOf (c.gr a) * iOf (c.gr b) - iOf (c.gr a) * qOf (c.gr b))) := by
  refine h.halves fun p hp => mem_pend_cjmac _ _ _ _ _ _ ?_
  rw [h.gr, h.gr, h.acr, h.aci]
  exact hp

theorem UnitRun.qmac (h : UnitRun c d x u w 5 a b m) : ⟨c.idx + 2, 100 + m, unsigned 72 ((vget c.acr m).toInt + signBy (w.testBit 60) *
    (iOf (c.gr a) * iOf (c.gr b) + qOf (c.gr a) * qOf (c.gr b) + iOf (c.gr (a + 1)) * iOf (c.gr (b + 1)) +
      qOf (c.gr (a + 1)) * qOf (c.gr (b + 1))))⟩ ∈ u.pend := by
  have hsent := mem_pend_qmac x d a b m (w.testBit 60)
  rw [h.gr, h.gr, h.gr, h.gr, h.acr, h.idx] at hsent
  exact h.sends _ hsent

/-- A search that takes sends the extreme and its index; one that does not sends nothing to its accumulator. -/
theorem UnitRun.search (h : UnitRun c d x u w op a b m) {better : Prop} [Decidable better]
    (hop : x.doUnit d op a b m (w.testBit 60) = if better then x.take m (iOf (d.gr a)) (d.gr b).toInt else x) :
    (better → SendsHalves c u m (iOf (c.gr a)) (c.gr b).toInt) ∧ (¬better → ∀ p ∈ u.pend, p.reg ≠ 100 + m ∧ p.reg ≠ 104 + m) := by
  constructor
  · intro hb
    refine h.halves fun p hp => ?_
    rw [hop, if_pos hb, h.gr, h.gr]
    exact hp
  · intro hb p hp
    refine (h.only p hp).elim (fun hsent => h.before p ?_) id
    rwa [hop, if_neg hb] at hsent

end

section
variable {s : State} {n t w : Nat} {ecc : CoreEcc} {k : Fin 2} {a b m : Nat}

theorem opMaxi_search (h : s.compute n t w ecc) (hk : bMac w = true ∧ macUnit w k = (6, a, b, m)) :
    ((vget (s.coreAt n).acr m).toInt < iOf ((s.coreAt n).gr a) → SendsHalves (s.coreAt n) (((s.advance t).coreRun n t ecc (holdsOp .maxi)).coreAt n) m
      (iOf ((s.coreAt n).gr a)) ((s.coreAt n).gr b).toInt) ∧
    (¬(vget (s.coreAt n).acr m).toInt < iOf ((s.coreAt n).gr a) →
      ∀ p ∈ (((s.advance t).coreRun n t ecc (holdsOp .maxi)).coreAt n).pend, p.reg ≠ 100 + m ∧ p.reg ≠ 104 + m) := by
  obtain ⟨d, x, hrun⟩ := coreRun_of_unit h hk (o := .maxi) (by decide)
  rw [← hrun.acr, ← hrun.gr a, ← hrun.gr b]
  have hsearch := hrun.search doUnit_maxi
  rwa [← hrun.gr a, ← hrun.gr b] at hsearch

theorem opMini_search (h : s.compute n t w ecc) (hk : bMac w = true ∧ macUnit w k = (7, a, b, m)) :
    (iOf ((s.coreAt n).gr a) < (vget (s.coreAt n).acr m).toInt → SendsHalves (s.coreAt n) (((s.advance t).coreRun n t ecc (holdsOp .mini)).coreAt n) m
      (iOf ((s.coreAt n).gr a)) ((s.coreAt n).gr b).toInt) ∧
    (¬iOf ((s.coreAt n).gr a) < (vget (s.coreAt n).acr m).toInt →
      ∀ p ∈ (((s.advance t).coreRun n t ecc (holdsOp .mini)).coreAt n).pend, p.reg ≠ 100 + m ∧ p.reg ≠ 104 + m) := by
  obtain ⟨d, x, hrun⟩ := coreRun_of_unit h hk (o := .mini) (by decide)
  rw [← hrun.acr, ← hrun.gr a, ← hrun.gr b]
  have hsearch := hrun.search doUnit_mini
  rwa [← hrun.gr a, ← hrun.gr b] at hsearch

/-- The command of an operation that unit `k` holds gives what the unit's run shows. -/
theorem unit_gives {cmd : Instr} {op : Nat} {o : CoreOp} {P : CoreSt → Prop} (e : exec cmd s = .next ((s.advance t).coreRun n t ecc (holdsOp o)))
    (h : s.compute n t w ecc) (hk : bMac w = true ∧ macUnit w k = (op, a, b, m)) (ho : o ∈ macOp op)
    (hP : ∀ d x u, UnitRun (s.coreAt n) d x u w op a b m → P u) : Gives cmd s fun u => P (u.coreAt n) := by
  obtain ⟨d, x, hrun⟩ := coreRun_of_unit h hk ho
  exact .of_next e (hP d x _ hrun)

end

/-- Settles O36: of what is in flight after the bundle, only the unit's own results are for its accumulator. -/
theorem coreMacCommandsComplete : Obligations.CoreMacCommandsComplete :=
  ⟨fun _ _ _ _ _ _ _ _ _ h hk => unit_gives (P := fun u => _) rfl h hk (by decide) fun _ _ _ hrun => hrun.cmul,
    fun _ _ _ _ _ _ _ _ _ h hk => unit_gives (P := fun u => _) rfl h hk (by decide) fun _ _ _ hrun => hrun.cmac,
    fun _ _ _ _ _ _ _ _ _ h hk => unit_gives (P := fun u => _) rfl h hk (by decide) fun _ _ _ hrun => hrun.cjmul,
    fun _ _ _ _ _ _ _ _ _ h hk => unit_gives (P := fun u => _) rfl h hk (by decide) fun _ _ _ hrun => hrun.cjmac,
    fun _ _ _ _ _ _ _ _ _ h hk => unit_gives (P := fun u => _) rfl h hk (by decide) fun _ _ _ hrun => hrun.qmac,
    fun _ _ _ _ _ _ _ _ _ h hk hb => .of_next rfl ((opMaxi_search h hk).1 hb),
    fun _ _ _ _ _ _ _ _ _ h hk hb => .of_next rfl ((opMaxi_search h hk).2 (not_lt.2 hb)),
    fun _ _ _ _ _ _ _ _ _ h hk hb => .of_next rfl ((opMini_search h hk).1 hb),
    fun _ _ _ _ _ _ _ _ _ h hk hb => .of_next rfl ((opMini_search h hk).2 (not_lt.2 hb))⟩

end Sys2Proof.Machine
end

section
/-!
PROOF. The moves of a compute bundle that stay within the core's memories: what loads, moves and program loads send on their way, and what stores
leave in data memory (R469 to R472, R477).
-/
namespace Sys2Proof.Machine

/-! A move's address register, once the move is done. -/

/-- The core with the step `u` of the address register of the move `m` on its way. -/
def CoreSt.stepped (c : CoreSt) (m fr : Nat) (u : PkUpd) : CoreSt :=
  match u with
  | .keep => c
  | .to v => c.post 1 (64 + vP m) v
  | .open_ => c.post 1 (64 + vP m) (fr % 2 ^ 18)

theorem core_pkUpdate (e : Exe) (m fr : Nat) (u : PkUpd) : (e.pkUpdate m fr u).c = e.c.stepped m fr u := by
  cases u <;> rfl

/-- From `c` to `d` results have been sent on their way, and nothing else. -/
structure Sends (c d : CoreSt) : Prop where
  rest : d = { c with pend := d.pend, loads := d.loads }
  old : ∀ p ∈ c.pend, p ∈ d.pend

theorem Sends.refl (c : CoreSt) : Sends c c := ⟨rfl, fun _ h => h⟩

theorem Sends.trans {c d e : CoreSt} (h : Sends c d) (k : Sends d e) : Sends c e :=
  ⟨by rw [k.rest, h.rest], fun p hp => k.old p (h.old p hp)⟩

theorem sends_post (c : CoreSt) (lat r v : Nat) : Sends c (c.post lat r v) := ⟨rfl, fun _ h => mem_pend_post.2 (.inr h)⟩

theorem Sends.post {c d : CoreSt} (h : Sends c d) (lat r v : Nat) : Sends c (d.post lat r v) := h.trans (sends_post d lat r v)

theorem sends_stepped (c : CoreSt) (m fr : Nat) (u : PkUpd) : Sends c (c.stepped m fr u) := by
  cases u
  · exact .refl c
  · exact sends_post ..
  · exact sends_post ..

theorem Sends.idx {c d : CoreSt} (h : Sends c d) : d.idx = c.idx := by rw [h.rest]
theorem Sends.x {c d : CoreSt} (h : Sends c d) : d.x = c.x := by rw [h.rest]
theorem Sends.y {c d : CoreSt} (h : Sends c d) : d.y = c.y := by rw [h.rest]

theorem mem_pend_stepped {c : CoreSt} {m fr v : Nat} : ⟨c.idx + 1, 64 + vP m, v⟩ ∈ (c.stepped m fr (.to v)).pend := mem_pend_post.2 (.inl rfl)

/-! The compute slot sends results, and nothing else. -/

theorem sends_doUnit (c before : CoreSt) (op a b m : Nat) (neg : Bool) : Sends c (c.doUnit before op a b m neg) := by
  have noted (d : CoreSt) (h : Sends c d) (x : Bool) : Sends c (if x then d.post 2 108 (2 ^ m) else d) := by
    split
    · exact h.post ..
    · exact h
  have search (x : Bool) (v i : Nat) : Sends c (if x then (c.post 2 (100 + m) v).post 2 (104 + m) i else c) := by
    split
    · exact (sends_post ..).post ..
    · exact .refl c
  unfold CoreSt.doUnit
  extract_lets
  split
  · exact (sends_post ..).post ..
  · exact noted _ ((sends_post ..).post ..) _
  · exact (sends_post ..).post ..
  · exact noted _ ((sends_post ..).post ..) _
  · exact noted _ (sends_post ..) _
  · exact search _ _ _
  · exact search _ _ _
  · exact .refl c

theorem sends_clearAccs (l : List Nat) (c : CoreSt) : Sends c (c.clearAccs l) := by
  induction l generalizing c with
  | nil => exact .refl c
  | cons k l ih => exact ((sends_post ..).post ..).trans (ih _)

theorem sends_doAlu (c : CoreSt) (w : Nat) : Sends c (c.doAlu w) := by
  unfold CoreSt.doAlu
  split
  · exact .refl c
  · rename_i op _
    have result : Sends c (match c.aluResult w op with
      | some (r, f) =>
        let c := c.post 1 (bGd w) r.toNat
        if hasF op && bF w then c.post 1 110 (0x0F * 256 + f) else c
      | none => c) := by
      split
      · dsimp only
        split
        · exact (sends_post ..).post ..
        · exact sends_post ..
      · exact .refl c
    dsimp only
    split
    case h_4 => exact (result.post ..).post ..
    case h_5 =>
      refine Sends.post ?_ ..
      split
      · exact result
      · exact result.trans (sends_clearAccs ..)
    case h_7 => exact result
    all_goals exact result.post ..

theorem sends_computeSlot (c : CoreSt) (w : Nat) : Sends c (c.computeSlot w) := by
  unfold CoreSt.computeSlot
  split
  · exact (sends_doUnit ..).trans (sends_doUnit ..)
  · exact sends_doAlu c w

/-! The moves of a quiet bundle. -/

theorem mem_of_xPlace {a a' : Nat} (h : xPlace a = .mem a') : a' = a := by
  unfold xPlace at h
  split_ifs at h
  exact (XPlace.mem.inj h).symm

section
variable {c : CoreSt} {w : Nat} {ecc : CoreEcc} (hq : c.quiet w ecc = true) (e : Exe) (s : State) (n t fr : Nat)
include hq

theorem core_doX_load (hop : vOp (xMove w) = 1) : (e.doX c s n t fr ecc.x (xMove w)).c =
    (e.c.land (vReg (xMove w)) (e.c.xAt (c.moveAddr (xMove w)).1).toNat).stepped (xMove w) fr (c.moveAddr (xMove w)).2 := by
  obtain ⟨⟨a, ha⟩, he⟩ := quiet_x hq (by omega) (by omega)
  obtain rfl := mem_of_xPlace ha
  simp only [Exe.doX, hop, core_pkUpdate, Exe.xLoad, ha, if_neg he]
  rfl

theorem core_doX_store (hop : vOp (xMove w) = 2) : (e.doX c s n t fr ecc.x (xMove w)).c =
    ({ e.c with x := smSet 0 (c.moveAddr (xMove w)).1 (BitVec.ofNat 64 (c.getReg (vReg (xMove w)))) e.c.x } : CoreSt).stepped (xMove w) fr
      (c.moveAddr (xMove w)).2 := by
  obtain ⟨⟨a, ha⟩, -⟩ := quiet_x hq (by omega) (by omega)
  obtain rfl := mem_of_xPlace ha
  simp only [Exe.doX, hop, core_pkUpdate, Exe.xStore, ha]
  rfl

theorem core_doX_mov (hop : vOp (xMove w) = 3) : (e.doX c s n t fr ecc.x (xMove w)).c = e.c.land (vReg (xMove w)) (c.getReg (vSrc (xMove w))) := by
  simp only [Exe.doX, hop]
  rfl

theorem core_doY_load (hop : vOp (yMove w) = 1) : (e.doY c fr ecc.y (yMove w)).c =
    (e.c.land (vReg (yMove w)) (c.yAt (c.moveAddr (yMove w)).1).toNat).stepped (yMove w) fr (c.moveAddr (yMove w)).2 := by
  obtain ⟨ha, he⟩ := quiet_y hq (by omega)
  simp only [hop] at ha
  simp only [Exe.doY, hop, core_pkUpdate, if_neg (show ¬0x4000 ≤ (c.moveAddr (yMove w)).1 from not_le.2 ha), if_neg he]
  rfl

theorem core_doY_store (hop : vOp (yMove w) = 2) : (e.doY c fr ecc.y (yMove w)).c =
    ({ e.c with y := smSet 0 (c.moveAddr (yMove w)).1 (BitVec.ofNat 64 (c.getReg (vReg (yMove w)))) e.c.y } : CoreSt).stepped (yMove w) fr
      (c.moveAddr (yMove w)).2 := by
  obtain ⟨ha, -⟩ := quiet_y hq (by omega)
  simp only [hop] at ha
  simp only [Exe.doY, hop, core_pkUpdate, if_neg (show ¬0x4000 ≤ (c.moveAddr (yMove w)).1 from not_le.2 ha)]
  rfl

theorem core_doY_pload (hop : vOp (yMove w) = 3) : (e.doY c fr ecc.y (yMove w)).c =
    (e.c.land (vReg (yMove w)) (c.prog (c.moveAddr (yMove w)).1).toNat).stepped (yMove w) fr (c.moveAddr (yMove w)).2 := by
  obtain ⟨ha, he⟩ := quiet_y hq (by omega)
  rw [if_pos hop] at ha
  simp only [Exe.doY, hop, core_pkUpdate, if_neg (not_le.2 ha), if_neg he]
  rfl

/-- A move of the Y slot leaves X memory and the bundle's time as they are. -/
theorem doY_keeps : (e.doY c fr ecc.y (yMove w)).c.x = e.c.x ∧ (e.doY c fr ecc.y (yMove w)).c.idx = e.c.idx := by
  have hlt : vOp (yMove w) < 4 := Nat.mod_lt _ (by decide)
  obtain hop | hop | hop | hop : vOp (yMove w) = 0 ∨ vOp (yMove w) = 1 ∨ vOp (yMove w) = 2 ∨ vOp (yMove w) = 3 := by omega
  · simp only [Exe.doY, hop, and_self]
  · rw [core_doY_load hq _ _ hop]
    exact ⟨((sends_post ..).trans (sends_stepped ..)).x, ((sends_post ..).trans (sends_stepped ..)).idx⟩
  · rw [core_doY_store hq _ _ hop]
    exact ⟨(sends_stepped ..).x, (sends_stepped ..).idx⟩
  · rw [core_doY_pload hq _ _ hop]
    exact ⟨((sends_post ..).trans (sends_stepped ..)).x, ((sends_post ..).trans (sends_stepped ..)).idx⟩

/-- A move of the X slot leaves Y memory and the results in flight as they are. -/
theorem doX_keeps : (e.doX c s n t fr ecc.x (xMove w)).c.y = e.c.y ∧ ∀ p ∈ e.c.pend, p ∈ (e.doX c s n t fr ecc.x (xMove w)).c.pend := by
  have hlt : vOp (xMove w) < 4 := Nat.mod_lt _ (by decide)
  obtain hop | hop | hop | hop : vOp (xMove w) = 0 ∨ vOp (xMove w) = 1 ∨ vOp (xMove w) = 2 ∨ vOp (xMove w) = 3 := by omega
  · simp only [Exe.doX, hop, true_and]
    exact fun _ h => h
  · rw [core_doX_load hq _ _ _ _ _ hop]
    exact ⟨((sends_post ..).trans (sends_stepped ..)).y, ((sends_post ..).trans (sends_stepped ..)).old⟩
  · rw [core_doX_store hq _ _ _ _ _ hop]
    exact ⟨(sends_stepped ..).y, fun p hp => (sends_stepped ..).old p hp⟩
  · rw [core_doX_mov hq _ _ _ _ _ hop]
    exact ⟨(sends_post ..).y, (sends_post ..).old⟩

end

/-! The bundle, executed. -/

/-- The moves of the bundle have led from `c` to `y` in the Y slot and to `x` in the X slot, and `u` is the core at the next bundle. -/
structure MovesRun (c : CoreSt) (v : State) (n t w : Nat) (ecc : CoreEcc) (u : CoreSt) : Prop where
  quiet : c.quiet w ecc = true
  x : u.x = (c.makeMoves v n t w ecc).c.x
  y : u.y = (c.makeMoves v n t w ecc).c.y
  sends : ∀ p ∈ (c.makeMoves v n t w ecc).c.pend, p ∈ u.pend

section
variable {s : State} {n t w : Nat} {ecc : CoreEcc}

theorem holdsOp_of_move {c : CoreSt} (hs : c.slots = 0) (hf : bForm w = 0) (hl : bundleLegal w false = true) {op : CoreOp}
    (hop : op ∈ moveOp true (xMove w) ∨ op ∈ moveOp false (yMove w)) : holdsOp op c w = true := by
  have hmem (l : List CoreOp) : op ∈ l ++ moveOp true (xMove w) ++ moveOp false (yMove w) := by
    rw [List.append_assoc]
    exact List.mem_append_right _ (List.mem_append.2 hop)
  have hne (l : List CoreOp) := List.ne_nil_of_mem (hmem l)
  simp only [holdsOp, List.contains_iff_mem, bundleOps, hs, Nat.lt_irrefl, decide_false, hl, hf, Bool.not_true, Bool.false_eq_true, if_false,
    List.isEmpty_iff, if_neg (hne _)]
  exact hmem _

theorem coreRun_of_moveOp (h : s.compute n t w ecc) {op : CoreOp} (hop : op ∈ moveOp true (xMove w) ∨ op ∈ moveOp false (yMove w)) :
    ∃ v, MovesRun (s.coreTurn n t w) v n t w ecc (((s.advance t).coreRun n t ecc (holdsOp op)).coreAt n) := by
  obtain ⟨v, hturn, hgo⟩ := coreRun_of_moves h fun _ hs => holdsOp_of_move hs h.2.1 h.2.2.1 hop
  have hslot := sends_computeSlot ((s.coreTurn n t w).makeMoves v n t w ecc).c w
  refine ⟨v, hturn.quiet, ?_, ?_, ?_⟩
  · rw [hgo]
    exact hslot.x
  · rw [hgo]
    exact hslot.y
  · rw [hgo]
    exact hslot.old

/-- At its turn the core has the registers and memories that it had. -/
theorem coreTurn_same (s : State) (n t w : Nat) : (s.coreTurn n t w).idx = (s.coreAt n).idx ∧ (s.coreTurn n t w).x = (s.coreAt n).x ∧
    (s.coreTurn n t w).y = (s.coreAt n).y ∧ (∀ m, (s.coreTurn n t w).moveAddr m = (s.coreAt n).moveAddr m) ∧
    (∀ r, (s.coreTurn n t w).getReg r = (s.coreAt n).getReg r) ∧ ∀ a, (s.coreTurn n t w).prog a = (s.coreAt n).prog a := by
  rw [show s.coreTurn n t w = _ from retimed_coreTurn]
  exact ⟨rfl, rfl, rfl, fun _ => rfl, fun _ => rfl, fun _ => rfl⟩

theorem moveOp_one (x : Bool) {m : Nat} (h : vOp m = 1) : CoreOp.ld ∈ moveOp x m := by simp [moveOp, h]
theorem moveOp_two (x : Bool) {m : Nat} (h : vOp m = 2) : CoreOp.st ∈ moveOp x m := by simp [moveOp, h]

theorem opLd_x (h : s.compute n t w ecc) (hop : vOp (xMove w) = 1) :
    ⟨(s.coreAt n).idx + 3, vReg (xMove w), ((s.coreAt n).xAt ((s.coreAt n).moveAddr (xMove w)).1).toNat⟩ ∈
      (((s.advance t).coreRun n t ecc (holdsOp .ld)).coreAt n).pend ∧
    ∀ v, ((s.coreAt n).moveAddr (xMove w)).2 = .to v →
      ⟨(s.coreAt n).idx + 1, 64 + vP (xMove w), v⟩ ∈ (((s.advance t).coreRun n t ecc (holdsOp .ld)).coreAt n).pend := by
  obtain ⟨v, hrun⟩ := coreRun_of_moveOp h (.inl (moveOp_one true hop))
  obtain ⟨hidx, hx, -, haddr, -, -⟩ := coreTurn_same s n t w
  obtain ⟨hyx, hyidx⟩ := doY_keeps hrun.quiet ⟨s.coreTurn n t w, []⟩ (Config.freeValue v.freeCnt)
  have hsends := hrun.sends
  rw [CoreSt.makeMoves, core_doX_load hrun.quiet _ _ _ _ _ hop, haddr] at hsends
  rw [CoreSt.xAt, ← hx, ← hidx]
  refine ⟨hsends _ ((sends_stepped ..).old _ (mem_pend_post.2 (.inl ?_))), fun v hv => hsends _ ?_⟩
  · rw [hyidx, CoreSt.xAt, hyx]
  · rw [hv, ← hyidx]
    exact mem_pend_stepped

theorem opLd_y (h : s.compute n t w ecc) (hop : vOp (yMove w) = 1) :
    ⟨(s.coreAt n).idx + 3, vReg (yMove w), ((s.coreAt n).yAt ((s.coreAt n).moveAddr (yMove w)).1).toNat⟩ ∈
      (((s.advance t).coreRun n t ecc (holdsOp .ld)).coreAt n).pend ∧
    ∀ v, ((s.coreAt n).moveAddr (yMove w)).2 = .to v →
      ⟨(s.coreAt n).idx + 1, 64 + vP (yMove w), v⟩ ∈ (((s.advance t).coreRun n t ecc (holdsOp .ld)).coreAt n).pend := by
  obtain ⟨v, hrun⟩ := coreRun_of_moveOp h (.inr (moveOp_one false hop))
  obtain ⟨hidx, -, hy, haddr, -, -⟩ := coreTurn_same s n t w
  have hsends := fun p hp => hrun.sends p ((doX_keeps hrun.quiet _ v n t _).2 p hp)
  rw [core_doY_load hrun.quiet _ _ hop, haddr] at hsends
  rw [CoreSt.yAt, ← hy, ← hidx]
  refine ⟨hsends _ ((sends_stepped ..).old _ (mem_pend_post.2 (.inl rfl))), fun v hv => hsends _ ?_⟩
  rw [hv]
  exact mem_pend_stepped

theorem opMov_sends (h : s.compute n t w ecc) (hop : vOp (xMove w) = 3) :
    ⟨(s.coreAt n).idx + 3, vReg (xMove w), (s.coreAt n).getReg (vSrc (xMove w))⟩ ∈ (((s.advance t).coreRun n t ecc (holdsOp .mov)).coreAt n).pend := by
  obtain ⟨v, hrun⟩ := coreRun_of_moveOp h (op := .mov) (.inl (by simp [moveOp, hop]))
  obtain ⟨hidx, -, -, -, hreg, -⟩ := coreTurn_same s n t w
  obtain ⟨-, hyidx⟩ := doY_keeps hrun.quiet ⟨s.coreTurn n t w, []⟩ (Config.freeValue v.freeCnt)
  have hsends := hrun.sends
  rw [CoreSt.makeMoves, core_doX_mov hrun.quiet _ _ _ _ _ hop, hreg] at hsends
  refine hsends _ (mem_pend_post.2 (.inl ?_))
  rw [hyidx, ← hidx]

theorem opPload_sends (h : s.compute n t w ecc) (hop : vOp (yMove w) = 3) :
    ⟨(s.coreAt n).idx + 3, vReg (yMove w), ((s.coreAt n).prog ((s.coreAt n).moveAddr (yMove w)).1).toNat⟩ ∈
      (((s.advance t).coreRun n t ecc (holdsOp .pload)).coreAt n).pend := by
  obtain ⟨v, hrun⟩ := coreRun_of_moveOp h (op := .pload) (.inr (by simp [moveOp, hop]))
  obtain ⟨hidx, -, -, haddr, -, hprog⟩ := coreTurn_same s n t w
  have hsends := fun p hp => hrun.sends p ((doX_keeps hrun.quiet _ v n t _).2 p hp)
  rw [core_doY_pload hrun.quiet _ _ hop, haddr, hprog] at hsends
  rw [← hidx]
  exact hsends _ ((sends_stepped ..).old _ (mem_pend_post.2 (.inl rfl)))

theorem opSt_x (h : s.compute n t w ecc) (hop : vOp (xMove w) = 2) : (((s.advance t).coreRun n t ecc (holdsOp .st)).coreAt n).xAt
      ((s.coreAt n).moveAddr (xMove w)).1 = BitVec.ofNat 64 ((s.coreAt n).getReg (vReg (xMove w))) ∧
    ∀ a, a ≠ ((s.coreAt n).moveAddr (xMove w)).1 → (((s.advance t).coreRun n t ecc (holdsOp .st)).coreAt n).xAt a = (s.coreAt n).xAt a := by
  obtain ⟨v, hrun⟩ := coreRun_of_moveOp h (.inl (moveOp_two true hop))
  obtain ⟨-, hx, -, haddr, hreg, -⟩ := coreTurn_same s n t w
  obtain ⟨hyx, -⟩ := doY_keeps hrun.quiet ⟨s.coreTurn n t w, []⟩ (Config.freeValue v.freeCnt)
  have hstored := hrun.x
  rw [CoreSt.makeMoves, core_doX_store hrun.quiet _ _ _ _ _ hop, (sends_stepped ..).x, haddr, hreg, hyx] at hstored
  simp only [CoreSt.xAt, hstored]
  exact ⟨smGet_set_self _ _ _ _, fun a ha => (smGet_set_ne ha _ _ _ _).trans (by rw [hx])⟩

theorem opSt_y (h : s.compute n t w ecc) (hop : vOp (yMove w) = 2) : (((s.advance t).coreRun n t ecc (holdsOp .st)).coreAt n).yAt
      ((s.coreAt n).moveAddr (yMove w)).1 = BitVec.ofNat 64 ((s.coreAt n).getReg (vReg (yMove w))) ∧
    ∀ a, a ≠ ((s.coreAt n).moveAddr (yMove w)).1 → (((s.advance t).coreRun n t ecc (holdsOp .st)).coreAt n).yAt a = (s.coreAt n).yAt a := by
  obtain ⟨v, hrun⟩ := coreRun_of_moveOp h (.inr (moveOp_two false hop))
  obtain ⟨-, -, hy, haddr, hreg, -⟩ := coreTurn_same s n t w
  have hstored := hrun.y.trans (doX_keeps hrun.quiet _ v n t _).1
  rw [core_doY_store hrun.quiet _ _ hop, (sends_stepped ..).y, haddr, hreg] at hstored
  simp only [CoreSt.yAt, hstored]
  exact ⟨smGet_set_self _ _ _ _, fun a ha => (smGet_set_ne ha _ _ _ _).trans (by rw [hy])⟩

end

/-- Settles O37: a move's word is in flight or stored once its slot is done, and what follows in the bundle takes nothing back. -/
theorem coreMoveCommandsComplete : Obligations.CoreMoveCommandsComplete :=
  ⟨fun _ _ _ _ _ h hop => .of_next rfl (opLd_x h hop), fun _ _ _ _ _ h hop => .of_next rfl (opLd_y h hop),
    fun _ _ _ _ _ h hop => .of_next rfl (opSt_x h hop), fun _ _ _ _ _ h hop => .of_next rfl (opSt_y h hop),
    fun _ _ _ _ _ h hop => .of_next rfl (opMov_sends h hop), fun _ _ _ _ _ h hop => .of_next rfl (opPload_sends h hop)⟩

end Sys2Proof.Machine
end

section
/-!
PROOF. Control bundles and illegal bundles: where the core goes on, what a control bundle changes, and the exception of an illegal bundle
(R454, R455, R462, R473, R474).
-/
namespace Sys2Proof.Machine

/-! A bundle without moves, executed. -/

section
variable {s : State} {n t w : Nat} {ecc : CoreEcc}

/-- The core at a bundle that does not stall. -/
@[irreducible] def State.coreWake (s : State) (n t : Nat) : CoreSt :=
  { s.coreSeen n t with state := 2, cyc := max (s.coreAt n).cyc (t - (s.coreSeen n t).base) }

theorem retimed_coreWake : Retimed (s.coreAt n) (s.coreWake n t) := by
  unfold State.coreWake
  exact (retimed_coreSeen s n t).trans rfl

theorem coreWake_state : (s.coreWake n t).state = 2 := by rw [State.coreWake]

/-- Neither a result in flight nor a delay slot nor a halt concerns the bundle `w`, which makes no move. -/
structure AtStill (c : CoreSt) (w : Nat) : Prop where
  pend : c.pend = []
  loads : c.loads = []
  slots : c.slots = 0
  haltReq : c.haltReq = false
  prog : (c.prog c.pc.toNat).toNat = w
  still : bundleLegal w false = false ∨ bForm w ≠ 0

theorem AtStill.retimed {c d : CoreSt} (h : AtStill c w) (hd : Retimed c d) : AtStill d w := by
  rw [hd]
  exact ⟨h.pend, h.loads, h.slots, h.haltReq, h.prog, h.still⟩

theorem atStill_of_atBundle (h : s.atBundle n t w) (hw : bundleLegal w false = false ∨ bForm w ≠ 0) : AtStill (s.coreAt n) w := by
  obtain ⟨-, -, -, hp, hl, hs, hh, hprog, hlt⟩ := h
  refine ⟨hp, hl, hs, hh, ?_, hw⟩
  rw [hprog, BitVec.toNat_ofNat, Nat.mod_eq_of_lt hlt]

/-- A bundle without moves uses no window and does not stall. -/
theorem AtStill.no_window {c : CoreSt} (h : AtStill c w) (d : CoreSt) : (bundleLegal w false && (d.winAccess w).isSome) = false := by
  rcases h.still with hl | hf
  · rw [hl, Bool.false_and]
  · rw [winAccess_of_form hf, Option.isSome_none, Bool.and_false]

theorem AtStill.no_stall {c : CoreSt} (h : AtStill c w) : c.stalls w (bundleLegal w false) = 0 := by
  unfold CoreSt.stalls
  rcases h.still with hl | hf
  · rw [hl]
    rfl
  · simp [h.loads, winAccess_of_form hf, hf, b2n]

theorem coreStep_of_still (h : AtStill (s.coreAt n) w) (hecc : ecc.p ≠ 2) : ∃ u : State, s.coreStep n t ecc =
    u.finishBundle n t (s.coreAt n).pc.toNat (s.coreAt n).ie
      (({ s.coreAt n with cyc := max (s.coreAt n).cyc (t - (s.coreAt n).base) } : CoreSt).execute u n t w ecc) := by
  generalize hc : s.coreAt n = c at h
  have hp : ecc.p.val ≠ 2 := fun e => hecc (Fin.ext e)
  have hs : decide (0 < c.slots) = false := by simp [h.slots]
  have settled (k : Nat) : ({ c with cyc := k } : CoreSt).settle = { c with cyc := k } := settle_of_idle h.pend h.loads
  unfold State.coreStep
  simp only [hc, settle_of_idle h.pend h.loads, h.prog, if_neg hp, hs, h.no_window, h.no_stall, Nat.add_zero, settled, Bool.false_and,
    Bool.false_eq_true, if_false]
  exact ⟨_, rfl⟩

theorem coreRun_of_still (h : s.atBundle n t w) (hw : bundleLegal w false = false ∨ bForm w ≠ 0) (hecc : ecc.p ≠ 2) {f : CoreSt → Nat → Bool}
    (hf : ∀ c : CoreSt, c.slots = 0 → f c w = true) : ∃ u : State, (s.advance t).coreRun n t ecc f =
      u.finishBundle n t (s.coreAt n).pc.toNat (s.coreAt n).ie ((s.coreWake n t).execute u n t w ecc) := by
  have hseen := retimed_coreSeen s n t
  have hat := (atStill_of_atBundle h hw).retimed hseen
  obtain ⟨hopen, hirq, hdue, -⟩ := h
  have hrun : (s.advance t).coreRun n t ecc f =
      (((s.advance t).coreNow n t).setCore n { s.coreSeen n t with state := 2 }).coreStep n t ecc := by
    unfold State.coreRun
    simp only [settle_of_idle hat.pend hat.loads, hopen, hirq, hat.prog, hf _ hat.slots, hdue]
    rfl
  obtain ⟨u, hu⟩ := coreStep_of_still (t := t) (s := ((s.advance t).coreNow n t).setCore n { s.coreSeen n t with state := 2 }) (n := n) (w := w)
    (by rw [coreAt_setCore_same]; exact hat.retimed rfl) hecc
  rw [coreAt_setCore_same] at hu
  have hpc : (s.coreSeen n t).pc = (s.coreAt n).pc := by rw [show s.coreSeen n t = _ from hseen]
  have hie : (s.coreSeen n t).ie = (s.coreAt n).ie := by rw [show s.coreSeen n t = _ from hseen]; rfl
  refine ⟨u, ?_⟩
  rw [hrun, hu, ← hpc, ← hie, State.coreWake, ← coreSeen_cyc s n t]
  rfl

end

/-! Illegal bundles. -/

section
variable {s : State} {n t w : Nat} {ecc : CoreEcc}

theorem tookExc_of_illegal_bundle (h : s.atBundle n t w) (hecc : ecc.p ≠ 2) (hl : bundleLegal w false = false) :
    TookExc 1 (s.coreAt n).pc.toNat (s.coreAt n).ie (((s.advance t).coreRun n t ecc (holdsOp .illegal)).coreAt n) := by
  obtain ⟨u, hrun⟩ := coreRun_of_still h (.inl hl) hecc fun c => holdsOp_illegal hl (c := c)
  have hat := (atStill_of_atBundle h (.inl hl)).retimed (retimed_coreWake (t := t))
  obtain ⟨hfx, hgo⟩ := execute_illegal u n t ecc hat.slots hl
  rw [hrun]
  apply tookExc_finishBundle hfx <;> rw [hgo]
  · rw [show (_ : CoreSt).state = (s.coreWake n t).state from rfl, coreWake_state]
    decide
  · exact hat.pend
  · exact hat.loads
  · exact hat.haltReq

end

/-! Control bundles. -/

section
variable {s : State} {n t w : Nat} {ecc : CoreEcc}

/-- A control bundle does its operation and goes on to the next bundle. -/
theorem execute_ctl {c : CoreSt} (u : State) (hs : c.slots = 0) (hf : bForm w = 1) (hl : bundleLegal w false = true) :
    c.execute u n t w ecc = ((⟨c, []⟩ : Exe).doCtl w).core { ((⟨c, []⟩ : Exe).doCtl w).c with
      pc := ((⟨c, []⟩ : Exe).doCtl w).c.pc + 1, idx := ((⟨c, []⟩ : Exe).doCtl w).c.idx + 1, cyc := ((⟨c, []⟩ : Exe).doCtl w).c.cyc + 1 } := by
  have hslot : decide (0 < c.slots) = false := by simp [hs]
  have hadv (d : CoreSt) : d.advance c w = { d with pc := d.pc + 1 } := by simp [CoreSt.advance, hs, hf]
  simp only [CoreSt.execute, hslot, hl, hf, hadv, Bool.not_true, Bool.false_eq_true, if_false]
  split <;> rfl

theorem holdsOp_ctl {c : CoreSt} (hs : c.slots = 0) (hf : bForm w = 1) (hl : bundleLegal w false = true) {op : CoreOp} (hop : op ∈ ctlOp (kCtl w)) :
    holdsOp op c w = true := by
  simpa [holdsOp, bundleOps, hs, hf, hl] using hop

/-- The command of a control operation that leads from the core at its turn to `d`, with no effect outside. -/
theorem coreRun_of_ctl (h : s.atBundle n t w) (hecc : ecc.p ≠ 2) (hf : bForm w = 1) (hl : bundleLegal w false = true) {op : CoreOp}
    (hop : op ∈ ctlOp (kCtl w)) {d : CoreSt} (hd : (⟨s.coreWake n t, []⟩ : Exe).doCtl w = ⟨d, []⟩) (hh : d.haltReq = (s.coreWake n t).haltReq) :
    ((s.advance t).coreRun n t ecc (holdsOp op)).coreAt n = { d with pc := d.pc + 1, idx := d.idx + 1, cyc := d.cyc + 1 } := by
  have hform : bForm w ≠ 0 := by omega
  obtain ⟨u, hrun⟩ := coreRun_of_still h (.inr hform) hecc fun _ hs => holdsOp_ctl hs hf hl hop
  have hat := (atStill_of_atBundle h (.inr hform)).retimed (retimed_coreWake (t := t))
  rw [hrun, execute_ctl u hat.slots hf hl, hd]
  exact coreAt_finishBundle (by simp [Exe.core]) (hh.trans hat.haltReq) _ _

end

/-! What the core at its turn has of the core before. -/

section
variable {s : State} {n t : Nat}

@[simp] theorem coreWake_flags : (s.coreWake n t).flags = (s.coreAt n).flags := by rw [show s.coreWake n t = _ from retimed_coreWake]; rfl
@[simp] theorem coreWake_lsp : (s.coreWake n t).lsp = (s.coreAt n).lsp := by rw [show s.coreWake n t = _ from retimed_coreWake]; rfl
@[simp] theorem coreWake_gr (k : Nat) : (s.coreWake n t).gr k = (s.coreAt n).gr k := by rw [show s.coreWake n t = _ from retimed_coreWake]; rfl
@[simp] theorem coreWake_pc : (s.coreWake n t).pc = (s.coreAt n).pc := by rw [show s.coreWake n t = _ from retimed_coreWake]
@[simp] theorem coreWake_idx : (s.coreWake n t).idx = (s.coreAt n).idx := by rw [show s.coreWake n t = _ from retimed_coreWake]
@[simp] theorem coreWake_ipc : (s.coreWake n t).ipc = (s.coreAt n).ipc := by rw [show s.coreWake n t = _ from retimed_coreWake]
@[simp] theorem coreWake_istat : (s.coreWake n t).istat = (s.coreAt n).istat := by rw [show s.coreWake n t = _ from retimed_coreWake]
@[simp] theorem coreWake_le : (s.coreWake n t).le = (s.coreAt n).le := by rw [show s.coreWake n t = _ from retimed_coreWake]

end

/-! The loop level, the interrupt enable and the loop cache. -/

section
variable {c : CoreSt}

theorem lsp_congr {d : CoreSt} (h : d.st = c.st) : d.lsp = c.lsp := by rw [CoreSt.lsp, h, CoreSt.lsp]

theorem lsp_setLsp {k : Nat} (h : k < 8) : (c.setLsp k).lsp = k := by
  have hst := c.st.isLt
  simp only [CoreSt.lsp, CoreSt.setLsp, bits, setPart, part, BitVec.toNat_ofNat]
  omega

theorem ie_setIe (b : Bool) : (c.setIe b).ie = b := by
  rw [CoreSt.ie, CoreSt.setIe, BitVec.toNat_ofNat, Nat.testBit_mod_two_pow, testBit_putBit]
  simp

theorem lsp_lt : c.lsp < 8 := Nat.mod_lt _ (by decide)

/-- Entering a loop in the cache changes the cache alone. -/
theorem enterCache_eq (k : Nat) : ∃ x f, c.enterCache k = { c with cache := x, cacheFull := f } := by
  unfold CoreSt.enterCache
  dsimp only
  split
  · exact ⟨_, _, rfl⟩
  split <;> exact ⟨_, _, rfl⟩

end

/-! What each control operation does to a core that has done nothing else in the bundle. -/

section
variable {c : CoreSt} {w : Nat}

theorem doCtl_cnop (hk : kCtl w = 0) : (⟨c, []⟩ : Exe).doCtl w = ⟨c, []⟩ := by simp only [Exe.doCtl, hk]

theorem doCtl_br (hk : kCtl w = 1) : (⟨c, []⟩ : Exe).doCtl w = ⟨c.branch (condHolds c.flags (kCond w)) (kImm w), []⟩ := by
  simp only [Exe.doCtl, hk, Exe.core]

theorem doCtl_call (hk : kCtl w = 2) : (⟨c, []⟩ : Exe).doCtl w = ⟨if condHolds c.flags (kCond w) then
    (c.branch true (kImm w)).post 1 31 ((c.pc.toNat + 3) % 8192) else c.branch false 0, []⟩ := by simp only [Exe.doCtl, hk, Exe.core]

theorem doCtl_jr (hk : kCtl w = 3) :
    (⟨c, []⟩ : Exe).doCtl w = ⟨c.branch (condHolds c.flags (kCond w)) ((c.gr (kGs w)).toNat % 8192), []⟩ := by simp only [Exe.doCtl, hk, Exe.core]

theorem doCtl_loop (hk : kCtl w = 4) : (⟨c, []⟩ : Exe).doCtl w = (⟨c, []⟩ : Exe).pushLoop (kImm w) (kEnd w) := by simp only [Exe.doCtl, hk]

theorem doCtl_loopr (hk : kCtl w = 5) : (⟨c, []⟩ : Exe).doCtl w = (⟨c, []⟩ : Exe).pushLoop ((c.gr (kGs w)).toNat % 2 ^ 32) (kEnd w) := by
  simp only [Exe.doCtl, hk]

theorem doCtl_break_taken (hk : kCtl w = 6) (hc : condHolds c.flags (kCond w) = true) (hlsp : c.lsp ≠ 0) :
    (⟨c, []⟩ : Exe).doCtl w = ⟨(c.setLsp (c.lsp - 1)).branch true ((vget c.le (c.lsp - 1)).toNat + 1), []⟩ := by
  simp only [Exe.doCtl, hk, hc, if_true, Exe.breakLoop, if_neg hlsp, Exe.core]

theorem doCtl_break_not_taken (hk : kCtl w = 6) (hc : condHolds c.flags (kCond w) = false) :
    (⟨c, []⟩ : Exe).doCtl w = ⟨c.branch false 0, []⟩ := by simp only [Exe.doCtl, hk, hc, Bool.false_eq_true, if_false, Exe.core]

theorem doCtl_reti (hk : kCtl w = 7) : (⟨c, []⟩ : Exe).doCtl w =
    ⟨({ c with inHandler := false }.branch true c.ipc.toNat).post 3 56 c.istat.toNat, []⟩ := by simp only [Exe.doCtl, hk, Exe.core]

theorem doCtl_wait (hk : kCtl w = 8) : (⟨c, []⟩ : Exe).doCtl w = ⟨{ c with state := 3 }, []⟩ := by simp only [Exe.doCtl, hk, Exe.core]

theorem doCtl_setie (hk : kCtl w = 9) : (⟨c, []⟩ : Exe).doCtl w = ⟨c.setIe (w.testBit 0), []⟩ := by simp only [Exe.doCtl, hk, Exe.core]

end

/-! What each control operation leaves. -/

/-- A loop pushed below the fourth level leaves its count, start and end at the level, and the next level as the innermost. -/
structure Pushed (c d : CoreSt) (count last : Nat) : Prop where
  lsp : d.lsp = c.lsp + 1
  lc : vget d.lc c.lsp = BitVec.ofNat 32 count
  ls : vget d.ls c.lsp = BitVec.ofNat 13 (c.pc.toNat + 1)
  le : vget d.le c.lsp = BitVec.ofNat 13 last
  pc : d.pc = c.pc
  haltReq : d.haltReq = c.haltReq

theorem pushLoop_pushed {c : CoreSt} (h : c.lsp < 4) (count last : Nat) :
    ∃ d, (⟨c, []⟩ : Exe).pushLoop count last = ⟨d, []⟩ ∧ Pushed c d count last := by
  obtain ⟨x, f, hcache⟩ := enterCache_eq (c := { c with
    lc := vset c.lc c.lsp count, ls := vset c.ls c.lsp (c.pc.toNat + 1), le := vset c.le c.lsp last }.setLsp (c.lsp + 1)) c.lsp
  refine ⟨_, (if_neg (Nat.not_le.2 h)).trans rfl, ?_⟩
  rw [hcache]
  exact ⟨lsp_setLsp (c := { c with lc := _, ls := _, le := _ }) (by omega), vget_vset_same _ h _, vget_vset_same _ h _, vget_vset_same _ h _, rfl, rfl⟩

section
variable {s : State} {n t w : Nat} {ecc : CoreEcc} (h : s.atBundle n t w) (hecc : ecc.p ≠ 2)
include h hecc

theorem opCnop_core (hw : bForm w = 1 ∧ bundleLegal w false = true ∧ kCtl w = 0) :
    ((s.advance t).coreRun n t ecc (holdsOp .cnop)).coreAt n = { s.coreSeen n t with
      state := 2, pc := (s.coreAt n).pc + 1, idx := (s.coreAt n).idx + 1, cyc := max (s.coreAt n).cyc (t - (s.coreSeen n t).base) + 1 } := by
  obtain ⟨hf, hl, hk⟩ := hw
  rw [coreRun_of_ctl (d := s.coreWake n t) h hecc hf hl (by simp [hk, ctlOp]) (doCtl_cnop hk) rfl, coreWake_pc, coreWake_idx, State.coreWake]

theorem opBr_core (hw : bForm w = 1 ∧ bundleLegal w false = true ∧ kCtl w = 1) :
    ∃ d : CoreSt, ((s.advance t).coreRun n t ecc (holdsOp .br)).coreAt n = d ∧ d.slots = 2 ∧
      d.target = (if condHolds (s.coreAt n).flags (kCond w) then some (BitVec.ofNat 13 (kImm w)) else none) ∧ d.pc = (s.coreAt n).pc + 1 := by
  obtain ⟨hf, hl, hk⟩ := hw
  rw [← coreWake_flags (t := t), ← coreWake_pc (t := t)]
  exact ⟨_, coreRun_of_ctl h hecc hf hl (by simp [hk, ctlOp]) (doCtl_br hk) rfl, rfl, rfl, rfl⟩

theorem opCall_core (hw : bForm w = 1 ∧ bundleLegal w false = true ∧ kCtl w = 2) :
    ∃ d : CoreSt, ((s.advance t).coreRun n t ecc (holdsOp .call)).coreAt n = d ∧ d.slots = 2 ∧
      d.target = (if condHolds (s.coreAt n).flags (kCond w) then some (BitVec.ofNat 13 (kImm w)) else none) ∧ d.pc = (s.coreAt n).pc + 1 ∧
      (condHolds (s.coreAt n).flags (kCond w) = true → ⟨(s.coreAt n).idx + 1, 31, ((s.coreAt n).pc.toNat + 3) % 8192⟩ ∈ d.pend) := by
  obtain ⟨hf, hl, hk⟩ := hw
  have hop : CoreOp.call ∈ ctlOp (kCtl w) := by simp [hk, ctlOp]
  have hctl := doCtl_call (c := s.coreWake n t) hk
  rw [← coreWake_flags (t := t), ← coreWake_pc (t := t), ← coreWake_idx (t := t)]
  by_cases hc : condHolds (s.coreWake n t).flags (kCond w) = true
  · rw [if_pos hc] at hctl ⊢
    exact ⟨_, coreRun_of_ctl h hecc hf hl hop hctl rfl, rfl, rfl, rfl, fun _ => mem_pend_post.2 (.inl rfl)⟩
  · rw [if_neg hc] at hctl ⊢
    exact ⟨_, coreRun_of_ctl h hecc hf hl hop hctl rfl, rfl, rfl, rfl, fun hn => absurd hn hc⟩

theorem opJr_core (hw : bForm w = 1 ∧ bundleLegal w false = true ∧ kCtl w = 3) :
    ∃ d : CoreSt, ((s.advance t).coreRun n t ecc (holdsOp .jr)).coreAt n = d ∧ d.slots = 2 ∧
      d.target = (if condHolds (s.coreAt n).flags (kCond w) then some (BitVec.ofNat 13 (((s.coreAt n).gr (kGs w)).toNat % 8192)) else none) ∧
      d.pc = (s.coreAt n).pc + 1 := by
  obtain ⟨hf, hl, hk⟩ := hw
  rw [← coreWake_flags (t := t), ← coreWake_gr (t := t), ← coreWake_pc (t := t)]
  exact ⟨_, coreRun_of_ctl h hecc hf hl (by simp [hk, ctlOp]) (doCtl_jr hk) rfl, rfl, rfl, rfl⟩

/-- A loop operation: the level it pushes. -/
theorem coreRun_of_pushLoop (hf : bForm w = 1) (hl : bundleLegal w false = true) (hlsp : (s.coreAt n).lsp < 4) {op : CoreOp}
    (hop : op ∈ ctlOp (kCtl w)) {count : Nat}
    (hpush : (⟨s.coreWake n t, []⟩ : Exe).doCtl w = (⟨s.coreWake n t, []⟩ : Exe).pushLoop count (kEnd w)) :
    ∃ d : CoreSt, ((s.advance t).coreRun n t ecc (holdsOp op)).coreAt n = d ∧ d.lsp = (s.coreAt n).lsp + 1 ∧
      vget d.lc (s.coreAt n).lsp = BitVec.ofNat 32 count ∧ vget d.ls (s.coreAt n).lsp = BitVec.ofNat 13 ((s.coreAt n).pc.toNat + 1) ∧
      vget d.le (s.coreAt n).lsp = BitVec.ofNat 13 (kEnd w) ∧ d.pc = (s.coreAt n).pc + 1 := by
  rw [← coreWake_lsp (t := t)] at hlsp ⊢
  rw [← coreWake_pc (t := t)]
  obtain ⟨d, hd, hpushed⟩ := pushLoop_pushed hlsp count (kEnd w)
  exact ⟨_, coreRun_of_ctl h hecc hf hl hop (hpush.trans hd) hpushed.haltReq, hpushed.lsp, hpushed.lc, hpushed.ls, hpushed.le,
    congrArg (· + 1) hpushed.pc⟩

theorem opBreak_core (hw : bForm w = 1 ∧ bundleLegal w false = true ∧ kCtl w = 6) (hlsp : (s.coreAt n).lsp ≠ 0)
    (hc : condHolds (s.coreAt n).flags (kCond w) = true) :
    ∃ d : CoreSt, ((s.advance t).coreRun n t ecc (holdsOp .break_)).coreAt n = d ∧ d.lsp = (s.coreAt n).lsp - 1 ∧ d.slots = 2 ∧
      d.target = some (BitVec.ofNat 13 ((vget (s.coreAt n).le ((s.coreAt n).lsp - 1)).toNat + 1)) ∧ d.pc = (s.coreAt n).pc + 1 := by
  obtain ⟨hf, hl, hk⟩ := hw
  rw [← coreWake_flags (t := t)] at hc
  rw [← coreWake_lsp (t := t)] at hlsp ⊢
  rw [← coreWake_le (t := t), ← coreWake_pc (t := t)]
  have hlt : (s.coreWake n t).lsp < 8 := lsp_lt
  exact ⟨_, coreRun_of_ctl h hecc hf hl (by simp [hk, ctlOp]) (doCtl_break_taken hk hc hlsp) rfl,
    (lsp_congr rfl).trans (lsp_setLsp (c := s.coreWake n t) (by omega)), rfl, rfl, rfl⟩

theorem opBreak_not_taken (hw : bForm w = 1 ∧ bundleLegal w false = true ∧ kCtl w = 6) (hc : condHolds (s.coreAt n).flags (kCond w) = false) :
    ∃ d : CoreSt, ((s.advance t).coreRun n t ecc (holdsOp .break_)).coreAt n = d ∧ d.lsp = (s.coreAt n).lsp ∧ d.slots = 2 ∧ d.target = none ∧
      d.pc = (s.coreAt n).pc + 1 := by
  obtain ⟨hf, hl, hk⟩ := hw
  rw [← coreWake_flags (t := t)] at hc
  rw [← coreWake_lsp (t := t), ← coreWake_pc (t := t)]
  exact ⟨_, coreRun_of_ctl h hecc hf hl (by simp [hk, ctlOp]) (doCtl_break_not_taken hk hc) rfl,
    lsp_congr rfl, rfl, rfl, rfl⟩

theorem opReti_core (hw : bForm w = 1 ∧ bundleLegal w false = true ∧ kCtl w = 7) :
    ∃ d : CoreSt, ((s.advance t).coreRun n t ecc (holdsOp .reti)).coreAt n = d ∧ d.slots = 2 ∧
      d.target = some (BitVec.ofNat 13 (s.coreAt n).ipc.toNat) ∧ d.pc = (s.coreAt n).pc + 1 ∧ d.inHandler = false ∧
      ⟨(s.coreAt n).idx + 3, 56, (s.coreAt n).istat.toNat⟩ ∈ d.pend := by
  obtain ⟨hf, hl, hk⟩ := hw
  rw [← coreWake_ipc (t := t), ← coreWake_pc (t := t), ← coreWake_idx (t := t), ← coreWake_istat (t := t)]
  exact ⟨_, coreRun_of_ctl h hecc hf hl (by simp [hk, ctlOp]) (doCtl_reti hk) rfl, rfl, rfl, rfl, rfl,
    mem_pend_post.2 (.inl rfl)⟩

theorem opWait_core (hw : bForm w = 1 ∧ bundleLegal w false = true ∧ kCtl w = 8) :
    ∃ d : CoreSt, ((s.advance t).coreRun n t ecc (holdsOp .wait)).coreAt n = d ∧ d.state = 3 ∧ d.pc = (s.coreAt n).pc + 1 := by
  obtain ⟨hf, hl, hk⟩ := hw
  rw [← coreWake_pc (t := t)]
  exact ⟨_, coreRun_of_ctl h hecc hf hl (by simp [hk, ctlOp]) (doCtl_wait hk) rfl, rfl, rfl⟩

theorem opSetie_core (hw : bForm w = 1 ∧ bundleLegal w false = true ∧ kCtl w = 9) :
    ∃ d : CoreSt, ((s.advance t).coreRun n t ecc (holdsOp .setie)).coreAt n = d ∧ d.ie = w.testBit 0 ∧ d.pc = (s.coreAt n).pc + 1 := by
  obtain ⟨hf, hl, hk⟩ := hw
  rw [← coreWake_pc (t := t)]
  exact ⟨_, coreRun_of_ctl h hecc hf hl (by simp [hk, ctlOp]) (doCtl_setie hk) rfl, ie_setIe _, rfl⟩

end

theorem Gives.of_core {c : Instr} {s v : State} {n : Fin 64} {R : CoreSt → Prop} (h : exec c s = .next v) (hd : ∃ d, v.coreAt n = d ∧ R d) :
    Gives c s fun u => R (u.coreAt n) := by
  obtain ⟨d, hv, hr⟩ := hd
  exact .of_next h (hv ▸ hr)

/-- Settles O38: a control bundle does its operation on the core at its turn and goes on to the next bundle; an illegal one takes exception 1. -/
theorem coreControlCommandsComplete : Obligations.CoreControlCommandsComplete := by
  refine ⟨fun _ _ _ _ _ h he hw => .of_next rfl (opCnop_core h he hw), fun _ _ _ _ _ h he hw => .of_core rfl (opBr_core h he hw),
    fun _ _ _ _ _ h he hw => .of_core rfl (opCall_core h he hw), fun _ _ _ _ _ h he hw => .of_core rfl (opJr_core h he hw), ?_, ?_,
    fun _ _ _ _ _ h he hw hlsp hc => .of_core rfl (opBreak_core h he hw hlsp hc),
    fun _ _ _ _ _ h he hw hc => .of_core rfl (opBreak_not_taken h he hw hc), fun _ _ _ _ _ h he hw => .of_core rfl (opReti_core h he hw),
    fun _ _ _ _ _ h he hw => .of_core rfl (opWait_core h he hw), fun _ _ _ _ _ h he hw => .of_core rfl (opSetie_core h he hw),
    fun _ _ _ _ _ h he hl => .of_next rfl ?_⟩
  · rintro t w n ecc s h he ⟨hf, hl, hk⟩ hlsp
    exact .of_core rfl (coreRun_of_pushLoop h he hf hl hlsp (by simp [hk, ctlOp]) (doCtl_loop hk))
  · rintro t w n ecc s h he ⟨hf, hl, hk⟩ hlsp
    have hpush := coreRun_of_pushLoop (op := .loopr) h he hf hl hlsp (by simp [hk, ctlOp]) (doCtl_loopr hk)
    rw [coreWake_gr] at hpush
    exact .of_core rfl hpush
  · obtain ⟨hcause, hhalt, -⟩ := tookExc_of_illegal_bundle h he hl
    exact ⟨hcause, hhalt⟩

end Sys2Proof.Machine
end

section
/-!
PROOF. Shorts on the outputs, their retries, and the open-wire test (R79–R81, R84, R87–R89, R97).
-/
namespace Sys2Proof.Machine

/-! Fields within a word, bit by bit. -/

theorem setPart_eq (n lo w v : Nat) : setPart n lo w v = 2 ^ lo * (2 ^ w * (n / 2 ^ lo / 2 ^ w) + v % 2 ^ w) + n % 2 ^ lo := by
  have hhi := Nat.div_add_mod n (2 ^ lo)
  have hpart := Nat.div_add_mod (n / 2 ^ lo) (2 ^ w)
  have hn : n = 2 ^ lo * (2 ^ w * (n / 2 ^ lo / 2 ^ w)) + n / 2 ^ lo % 2 ^ w * 2 ^ lo + n % 2 ^ lo := by
    conv_lhs => rw [← hhi, ← hpart]
    ring
  have hv : 2 ^ lo * (2 ^ w * (n / 2 ^ lo / 2 ^ w) + v % 2 ^ w) = 2 ^ lo * (2 ^ w * (n / 2 ^ lo / 2 ^ w)) + v % 2 ^ w * 2 ^ lo := by ring
  unfold setPart part
  omega

theorem testBit_part (n lo w i : Nat) : (part n lo w).testBit i = (decide (i < w) && n.testBit (lo + i)) := by
  rw [part, Nat.testBit_mod_two_pow, Nat.testBit_div_two_pow, Nat.add_comm]

theorem testBit_setPart (n lo w v i : Nat) :
    (setPart n lo w v).testBit i = if lo ≤ i ∧ i < lo + w then v.testBit (i - lo) else n.testBit i := by
  rw [setPart_eq, Nat.testBit_two_pow_mul_add _ (Nat.mod_lt _ (Nat.two_pow_pos lo)),
    Nat.testBit_two_pow_mul_add _ (Nat.mod_lt _ (Nat.two_pow_pos w)), Nat.testBit_mod_two_pow, Nat.testBit_mod_two_pow,
    Nat.testBit_div_two_pow, Nat.testBit_div_two_pow]
  by_cases hlo : i < lo
  · simp [hlo, Nat.not_le.2 hlo]
  · by_cases hw : i - lo < w
    · simp [hlo, hw, Nat.not_lt.1 hlo, show i < lo + w by omega]
    · simp [hlo, hw, show ¬i < lo + w by omega, show i - lo - w + w + lo = i by omega]

theorem part_setPart_same (n lo w v : Nat) : part (setPart n lo w v) lo w = v % 2 ^ w := by
  refine Nat.eq_of_testBit_eq fun i => ?_
  rw [testBit_part, testBit_setPart, Nat.testBit_mod_two_pow]
  by_cases hi : i < w
  · simp [hi]
  · simp [hi]

theorem part_setPart_apart (n v : Nat) {lo hi w x : Nat} (h : hi + x ≤ lo ∨ lo + w ≤ hi) : part (setPart n lo w v) hi x = part n hi x := by
  refine Nat.eq_of_testBit_eq fun i => ?_
  rw [testBit_part, testBit_part, testBit_setPart]
  by_cases hi : i < x
  · rw [if_neg (by omega)]
  · simp [hi]

theorem part_mod_two_pow (n : Nat) {lo w k : Nat} (h : lo + w ≤ k) : part (n % 2 ^ k) lo w = part n lo w := by
  refine Nat.eq_of_testBit_eq fun i => ?_
  rw [testBit_part, testBit_part, Nat.testBit_mod_two_pow]
  by_cases hi : i < w
  · simp [show lo + i < k by omega]
  · simp [hi]

theorem mem_bitsOf {n w i : Nat} : i ∈ bitsOf n w ↔ i < n ∧ w.testBit i = true := by simp [bitsOf]

/-! Commands that the outputs' pads and levels reach, and the host's way to a page. -/

theorem routerTo_rf (s : State) (t : Nat) : (s.routerTo t).rf = s.rf := (does_routerTo s t).only .rf (by decide)

theorem hostOpen_of_same {s u : State} {p : Nat} (h : s.hostOpen p) (hrf : u.rf = s.rf) (hrel : u.rel = s.rel) : u.hostOpen p := by
  simpa only [State.hostOpen, State.bar0Open, State.startedUp, State.gated, State.on, rd_of_rf hrf, State.cutOff, hrel] using h

/-! What one short shows. -/

section
variable (s : State) (j kind : Nat) (high : Bool) (after : Nat)

theorem rd_setShort_kind : (s.setShort j kind high after).rd (pg .tio 0) Reg.TIO_OUT_FLT_STAT_KIND =
    Reg.TIO_OUT_FLT_STAT_KIND.cut (setPart (s.rd (pg .tio 0) Reg.TIO_OUT_FLT_STAT_KIND) (2 * j) 2 kind) := by
  unfold State.setShort
  rw [rd_setRaw _ _ _ (by decide) (by decide), rd_wrs_eq _ rfl (by decide) rfl]
  rfl

theorem rd_setShort_disabled : (s.setShort j kind high after).rd (pg .tio 0) Reg.TIO_OUT_FLT_STAT_DISABLED =
    Reg.TIO_OUT_FLT_STAT_DISABLED.cut (putBit (s.rd (pg .tio 0) Reg.TIO_OUT_FLT_STAT_DISABLED) j (kind != 0 && (j < 8 || high))) := by
  unfold State.setShort
  rw [rd_setRaw _ _ _ (by decide) (by decide), rd_wrs_eq _ rfl (by decide) rfl]
  rfl

theorem rd_setShort_detEn : (s.setShort j kind high after).rd (pg .tio 0) Reg.TIO_OUT_FLT_CTL_DET_EN =
    s.rd (pg .tio 0) Reg.TIO_OUT_FLT_CTL_DET_EN := by
  unfold State.setShort
  rw [rd_setRaw _ _ _ (by decide) (by decide), rd_wrs_ne _ rfl (by decide) rfl]
  rfl

theorem setShort_tio : (s.setShort j kind high after).tio = { s.tio with
    retryAt := if kind = 0 then smErase j s.tio.retryAt else smInsert j (s.tick + after + retryTicks) s.tio.retryAt } := by
  unfold State.setShort
  rw [setRaw_tio, (does_wrs ..).only .tio (by decide)]

theorem shortOf_setShort {j : Nat} (hj : j < 16) {k : Nat} (hk : k < 16) :
    (s.setShort j kind high after).shortOf k = if k = j then kind % 4 else s.shortOf k := by
  have hwidth : Reg.TIO_OUT_FLT_STAT_KIND.cut (setPart (s.rd (pg .tio 0) Reg.TIO_OUT_FLT_STAT_KIND) (2 * j) 2 kind) =
      setPart (s.rd (pg .tio 0) Reg.TIO_OUT_FLT_STAT_KIND) (2 * j) 2 kind % 2 ^ 32 := rfl
  unfold State.shortOf
  rw [rd_setShort_kind, hwidth, part_mod_two_pow _ (by omega)]
  split
  next h => subst h; exact part_setPart_same ..
  next h => rw [part_setPart_apart _ _ (by omega)]

theorem shortKind_lt (pad : Bool) : shortKind j high pad < 4 := by
  unfold shortKind
  split <;> cases high <;> cases pad <;> decide

end

theorem shortDetect_gives (t : Nat) (j : Fin 16) (padHigh : Bool) {v s : State} (hv : v = (s.advance t).routerTo t)
    (hkind : shortKind j (v.tio.level.testBit j) padHigh ≠ 0) (hshort : v.shortOf j = 0)
    (hdet : (v.rd (pg .tio 0) Reg.TIO_OUT_FLT_CTL_DET_EN).testBit j = true)
    (hchange : ∀ x, smFind j.val v.tio.changeAt = some x → x + shortCheckTicks ≤ v.tick) :
    Gives (.shortDetect t j padHigh) s fun u => u.rd (pg .tio 0) Reg.TIO_OUT_FLT_STAT_KIND =
      Reg.TIO_OUT_FLT_STAT_KIND.cut (setPart (v.rd (pg .tio 0) Reg.TIO_OUT_FLT_STAT_KIND) (2 * j) 2 (shortKind j (v.tio.level.testBit j) padHigh)) ∧
      u.rd (pg .tio 0) Reg.TIO_OUT_FLT_STAT_DISABLED = Reg.TIO_OUT_FLT_STAT_DISABLED.cut (putBit (v.rd (pg .tio 0) Reg.TIO_OUT_FLT_STAT_DISABLED) j
        (j.val < 8 || v.tio.level.testBit j)) ∧ smFind j.val u.tio.retryAt = some (v.tick + retryTicks) := by
  refine .of_next (congrArg Host.Outcome.next ((if_neg ?_).trans (if_neg ?_))) ⟨?_, ?_, ?_⟩
  · rw [← hv]
    intro hwait
    cases hx : smFind j.val v.tio.changeAt with
    | none =>
      simp only [State.seePad, smGet, hx] at hwait
      exact absurd hwait (Nat.not_lt_zero _)
    | some x =>
      simp only [State.seePad, smGet, hx] at hwait
      exact absurd (hchange x hx) (Nat.not_le.2 hwait)
  · rw [← hv]
    simp only [State.seePad]
    change ¬(decide (_ = 0) || (v.shortOf j != 0) || !(v.rd (pg .tio 0) Reg.TIO_OUT_FLT_CTL_DET_EN).testBit j) = true
    simp [hkind, hshort, hdet]
  · rw [rd_setShort_kind, rd_wr_field _ _ (by decide) (by decide) (by decide), ← hv]
    rfl
  · rw [rd_setShort_disabled, rd_wr_field _ _ (by decide) (by decide) (by decide), ← hv]
    simp only [State.seePad, bne_iff_ne.2 hkind, Bool.true_and]
    rfl
  · rw [setShort_tio, ← hv]
    show smFind j.val (if shortKind j (v.tio.level.testBit j) padHigh = 0 then _ else _) = _
    rw [if_neg hkind]
    exact smFind_insert_self _ _ _

/-! Retries. -/

/-- The kind that output `j` shows after a retry that finds `found`. -/
def retried (was found : Nat) : Nat := if was = 0 then 0 else found

theorem retried_retried (was found : Nat) : retried (retried was found) found = retried was found := by
  unfold retried
  by_cases h : was = 0 <;> by_cases hf : found = 0 <;> simp [h, hf]

theorem shortRetry_of_short {s : State} {j : Nat} (h : s.shortOf j ≠ 0) : ∃ x after, s.shortRetry j =
    ({ s with tio := { s.tio with changeAt := x } } : State).setShort j (shortKind j (s.tio.level.testBit j) (s.tio.pads.testBit j))
      (s.tio.level.testBit j) after := by
  unfold State.shortRetry
  simp only [if_neg h]
  split
  · exact ⟨_, _, rfl⟩
  · exact ⟨s.tio.changeAt, _, rfl⟩

theorem shortRetry_tio (s : State) (j : Nat) : (s.shortRetry j).tio.level = s.tio.level ∧ (s.shortRetry j).tio.pads = s.tio.pads := by
  by_cases h : s.shortOf j = 0
  · rw [State.shortRetry, if_pos h]
    exact ⟨rfl, rfl⟩
  · obtain ⟨x, after, hretry⟩ := shortRetry_of_short h
    rw [hretry, setShort_tio]
    exact ⟨rfl, rfl⟩

theorem shortOf_shortRetry (s : State) {j k : Nat} (hj : j < 16) (hk : k < 16) : (s.shortRetry j).shortOf k =
    if k = j then retried (s.shortOf k) (shortKind k (s.tio.level.testBit k) (s.tio.pads.testBit k)) else s.shortOf k := by
  by_cases h : s.shortOf j = 0
  · rw [State.shortRetry, if_pos h]
    split
    next e => rw [e, retried, if_pos h, h]
    next => rfl
  · obtain ⟨x, after, hretry⟩ := shortRetry_of_short h
    rw [hretry, shortOf_setShort _ _ _ _ hj hk, Nat.mod_eq_of_lt (shortKind_lt ..)]
    split
    next e => rw [e, retried, if_neg h]
    next => rfl

theorem shortOf_each_shortRetry {k : Nat} (hk : k < 16) : ∀ (l : List Nat) (s : State), (∀ j ∈ l, j < 16) →
    (s.each l State.shortRetry).shortOf k =
      if k ∈ l then retried (s.shortOf k) (shortKind k (s.tio.level.testBit k) (s.tio.pads.testBit k)) else s.shortOf k
  | [], _, _ => by simp
  | j :: l, s, hl => by
    obtain ⟨hlevel, hpads⟩ := shortRetry_tio s j
    rw [each_cons, shortOf_each_shortRetry hk l _ fun i hi => hl i (.tail _ hi), shortOf_shortRetry s (hl j (.head _)) hk, hlevel, hpads]
    by_cases hkj : k = j
    · simp [← hkj, retried_retried]
    · simp [hkj]

/-- Pads seen one after another leave the registers and the outputs' levels, and each pad named at the level seen. -/
theorem each_seePad (level : Nat → Bool) : ∀ (l : List Nat) (s : State), ∃ pads,
    s.each l (fun s j => s.seePad j (level j)) = { s with tio := { s.tio with pads := pads } } ∧
      ∀ j, pads.testBit j = if j ∈ l then level j else s.tio.pads.testBit j
  | [], s => ⟨s.tio.pads, rfl, fun j => by simp⟩
  | i :: l, s => by
    obtain ⟨pads, heach, hpads⟩ := each_seePad level l (s.seePad i (level i))
    refine ⟨pads, by rw [each_cons, heach]; rfl, fun j => ?_⟩
    rw [hpads, State.seePad, testBit_putBit]
    by_cases hji : j = i
    · simp [hji]
    · simp [hji]

theorem shortRetry_gives (t : Nat) (j : Fin 16) (padHigh : Bool) {v s : State} (hv : v = (s.advance t).routerTo t)
    (hen : (v.rd (pg .tio 0) Reg.TIO_OUT_FLT_CTL_RETRY_EN).testBit j = true) (hshort : v.shortOf j ≠ 0) (hdue : smGet 0 j v.tio.retryAt ≤ v.tick) :
    Gives (.shortRetry t j padHigh) s fun u => u.rd (pg .tio 0) Reg.TIO_OUT_FLT_STAT_KIND =
      Reg.TIO_OUT_FLT_STAT_KIND.cut (setPart (v.rd (pg .tio 0) Reg.TIO_OUT_FLT_STAT_KIND) (2 * j) 2 (shortKind j (v.tio.level.testBit j) padHigh)) ∧
      u.tio.pads.testBit j = padHigh := by
  have hpad : (v.seePad j padHigh).tio.pads.testBit j = padHigh := by rw [State.seePad, testBit_putBit, if_pos rfl]
  refine .of_next (congrArg Host.Outcome.next (if_pos ?_)) ?_ <;> rw [← hv]
  · exact Bool.and_eq_true_iff.2 ⟨hen, decide_eq_true hdue⟩
  · obtain ⟨x, after, hretry⟩ := shortRetry_of_short (s := v.seePad j padHigh) (j := j) hshort
    rw [hretry, hpad, rd_setShort_kind, setShort_tio]
    exact ⟨rfl, hpad⟩

theorem retryNow_gives (t : Nat) (mask padHigh : BitVec 16) {s : State} (h : s.hostOpen (pg .tio 0)) :
    Gives (.retryNow t mask padHigh) s fun u => ∀ j : Fin 16, mask.getLsbD j = true →
      u.shortOf j = if s.shortOf j = 0 then 0 else shortKind j (((s.advance t).routerTo t).tio.level.testBit j) (padHigh.getLsbD j) := by
  refine .of_next rfl fun j hj => ?_
  obtain ⟨pads, heach, hpads⟩ := each_seePad (fun j => padHigh.getLsbD j) (bitsOf 16 mask.toNat) ((s.advance t).routerTo t)
  have hmem : j.val ∈ bitsOf 16 mask.toNat := mem_bitsOf.2 ⟨j.isLt, hj⟩
  have hopen : ((s.advance t).routerTo t).hostOpen (pg .tio 0) :=
    hostOpen_of_same (hostOpen_advance t h) (routerTo_rf ..) ((does_routerTo ..).only .rel (by decide))
  have hseen := hostOpen_of_same (u := { (s.advance t).routerTo t with tio := { ((s.advance t).routerTo t).tio with pads := pads } }) hopen rfl rfl
  rw [heach, hosted_of_open hseen, shortOf_each_shortRetry j.isLt _ _ fun i hi => (mem_bitsOf.1 hi).1, if_pos hmem]
  have hwas : ({ (s.advance t).routerTo t with tio := { ((s.advance t).routerTo t).tio with pads := pads } } : State).shortOf j = s.shortOf j := by
    unfold State.shortOf
    exact congrArg (part · _ _) ((rd_of_rf (routerTo_rf ..) _ _).trans (advance_rd ..))
  rw [hwas, hpads, if_pos hmem]
  rfl

theorem each_setShort_detEn (l : List Nat) (s : State) : (s.each l fun s j => s.setShort j 0 false 0).rd (pg .tio 0) Reg.TIO_OUT_FLT_CTL_DET_EN =
    s.rd (pg .tio 0) Reg.TIO_OUT_FLT_CTL_DET_EN :=
  each_keeps (P := fun u => u.rd (pg .tio 0) Reg.TIO_OUT_FLT_CTL_DET_EN = s.rd (pg .tio 0) Reg.TIO_OUT_FLT_CTL_DET_EN)
    (fun _ _ hu => (rd_setShort_detEn ..).trans hu) l rfl

theorem outFltDetDisable_gives (t : Nat) (mask : BitVec 16) {s : State} (h : s.hostOpen (pg .tio 0)) :
    Gives (.outFltDetDisable t mask) s fun u => u.rd (pg .tio 0) Reg.TIO_OUT_FLT_CTL_DET_EN =
      s.rd (pg .tio 0) Reg.TIO_OUT_FLT_CTL_DET_EN &&& (0xFFFF - mask.toNat) := by
  refine .of_next rfl ?_
  rw [hosted_of_open (hostOpen_advance t h), State.detEnWrite, each_setShort_detEn, rd_wr_self, advance_rd]
  exact Nat.mod_eq_of_lt (Nat.lt_of_le_of_lt Nat.and_le_right (by simp [Fld.width, Reg.TIO_OUT_FLT_CTL_DET_EN]; omega))

/-! The open-wire test. -/

theorem owBegin_of_idle {s : State} (byStart : Bool) (hp : s.tio.owPass = false) (hm : bitsOf 24 (s.rd (pg .cmp 0) Reg.CMP_OW_CTL_MASK) ≠ []) :
    s.owBegin byStart = ({ s with tio := { s.tio with
      owPass := true, owTodo := bitsOf 24 (s.rd (pg .cmp 0) Reg.CMP_OW_CTL_MASK), owRose := false, owAt := s.tick } } : State).wrs (pg .cmp 0)
        [(Reg.CMP_OW_STAT_DONE, 0), (Reg.CMP_OW_CTL_START, b2n byStart)] := by
  unfold State.owBegin
  simp [hp, List.isEmpty_eq_false_iff.2 hm]

theorem owStart_gives (t : Nat) {s : State} (h : s.hostOpen (pg .cmp 0)) (hp : s.tio.owPass = false)
    (hm : bitsOf 24 (s.rd (pg .cmp 0) Reg.CMP_OW_CTL_MASK) ≠ []) :
    Gives (.owStart t) s fun u => u.tio = { s.tio with
        owPass := true, owTodo := bitsOf 24 (s.rd (pg .cmp 0) Reg.CMP_OW_CTL_MASK), owRose := false, owAt := (s.advance t).tick } ∧
      u.rd (pg .cmp 0) Reg.CMP_OW_STAT_DONE = 0 ∧ u.rd (pg .cmp 0) Reg.CMP_OW_CTL_START = 1 := by
  refine .of_next rfl ?_
  rw [hosted_of_open (hostOpen_advance t h), owBegin_of_idle true (by rwa [State.advance_tio]) (by rwa [advance_rd])]
  refine ⟨?_, rd_wrs_eq _ rfl (by decide) rfl, rd_wrs_eq _ rfl (by decide) rfl⟩
  rw [(does_wrs ..).only .tio (by decide), advance_rd, State.advance_tio]

theorem owSchedule_tio (s : State) : s.owSchedule.tio =
    { s.tio with owNextAt := s.tick + s.rd (pg .cmp 0) Reg.CMP_OW_CTL_PERIOD * 16000000 } := by rw [State.owSchedule]

theorem owSchedule_tick (s : State) : s.owSchedule.tick = s.tick := by rw [State.owSchedule]

theorem owSchedule_rf (s : State) : s.owSchedule.rf = s.rf := by rw [State.owSchedule]

theorem owPeriodicPass_gives (t : Nat) {s : State} (hperiod : s.rd (pg .cmp 0) Reg.CMP_OW_CTL_PERIOD ≠ 0) (hp : s.tio.owPass = false)
    (hm : bitsOf 24 (s.rd (pg .cmp 0) Reg.CMP_OW_CTL_MASK) ≠ []) (hdue : s.tio.owNextAt ≤ (s.advance t).tick) :
    Gives (.owPeriodicPass t) s fun u => u.tio = { s.tio with
        owPass := true, owTodo := bitsOf 24 (s.rd (pg .cmp 0) Reg.CMP_OW_CTL_MASK), owRose := false, owAt := (s.advance t).tick,
        owNextAt := (s.advance t).tick + s.rd (pg .cmp 0) Reg.CMP_OW_CTL_PERIOD * 16000000 } ∧
      u.rd (pg .cmp 0) Reg.CMP_OW_STAT_DONE = 0 := by
  have hrd (f : Fld) : (s.advance t).owSchedule.rd (pg .cmp 0) f = s.rd (pg .cmp 0) f := (rd_of_rf (owSchedule_rf _) _ _).trans (advance_rd ..)
  refine .of_next (congrArg Host.Outcome.next (if_neg ?_)) ?_
  · rw [advance_rd, State.advance_tio]
    simp [hperiod, Nat.not_lt.2 hdue]
  · rw [owBegin_of_idle false (by rw [owSchedule_tio, State.advance_tio]; exact hp) (by rwa [hrd])]
    refine ⟨?_, rd_wrs_eq _ rfl (by decide) rfl⟩
    rw [(does_wrs ..).only .tio (by decide), hrd, owSchedule_tio, owSchedule_tick, advance_rd, State.advance_tio]

theorem owEnd_todo (s : State) : s.owEnd.tio.owTodo = [] := by
  unfold State.owEnd
  rw [(does_eventIf ..).only .tio (by decide), (does_wr ..).only .tio (by decide), (does_bump ..).only .tio (by decide)]

theorem rd_owEnd {s : State} {f : Fld} (hf : f ∈ [Reg.CMP_OW_STAT_OPEN, Reg.CMP_OW_STAT_DONE]) : s.owEnd.rd (pg .cmp 0) f = s.rd (pg .cmp 0) f := by
  have hrest : f.placed ∧ evReg (pg .cmp 0) f.off = false ∧ ¬(f.off = Reg.CMP_OW_CTL_START.off ∧ f.lo = Reg.CMP_OW_CTL_START.lo) ∧
      ¬(f.off = Reg.CMP_OW_STAT_PASS_SEQ.off ∧ f.lo = Reg.CMP_OW_STAT_PASS_SEQ.lo) := by
    revert f
    decide
  obtain ⟨hplaced, hev, hstart, hseq⟩ := hrest
  unfold State.owEnd State.bump
  rw [rd_eventIf _ _ _ _ _ hplaced hev, rd_wr_field _ _ (by decide) hplaced hstart, rd_wr_field _ _ (by decide) hplaced hseq]
  rfl

/-- The results of the test of `pin` recorded. -/
def State.owRecorded (s : State) (pin riseMv : Nat) : State :=
  s.wrs (pg .cmp 0) [(Reg.CMP_OW_STAT_OPEN, putBit (s.rd (pg .cmp 0) Reg.CMP_OW_STAT_OPEN) pin (120 < riseMv)),
    (Reg.CMP_OW_STAT_DONE, setBit (s.rd (pg .cmp 0) Reg.CMP_OW_STAT_DONE) pin)]

/-- The pass at its next pins, `rest`. -/
def State.owGoOn (s : State) (rest : List Nat) (rose : Bool) : State :=
  { s with tio := { s.tio with owTodo := rest, owRose := s.tio.owRose || rose, owAt := s.tick + owTicks } }

theorem owGoOn_todo (s : State) (rest : List Nat) (rose : Bool) : (s.owGoOn rest rose).tio.owTodo = rest := by rw [State.owGoOn]

theorem owGoOn_rf (s : State) (rest : List Nat) (rose : Bool) : (s.owGoOn rest rose).rf = s.rf := by rw [State.owGoOn]

/-- The test of `pin` ended, with `rest` still to test. -/
def State.owTested (s : State) (pin riseMv : Nat) (rest : List Nat) : State :=
  let u := s.owTestEnd pin
  let v := (u.owRecorded pin riseMv).owGoOn rest (decide (120 < riseMv) && !(u.rd (pg .cmp 0) Reg.CMP_OW_STAT_OPEN).testBit pin)
  if rest.isEmpty then v.owEnd else v

theorem exec_owPinTest (t : Nat) (pin : Fin 24) (riseMv : Nat) {rest : List Nat} {s : State} (htodo : s.tio.owTodo = pin.val :: rest)
    (hdue : s.tio.owAt + owTicks ≤ (s.advance t).tick) (hfree : s.owBlocked pin = false) :
    exec (.owPinTest t pin riseMv) s = .next ((s.advance t).owTested pin riseMv rest) := by
  have hblocked : (s.advance t).owBlocked pin = false := by
    simpa only [State.owBlocked, State.owShared, State.on, advance_rd, State.advance_hk, State.advance_tio] using hfree
  have hskip : ¬(decide (pin.val ≠ pin.val) || decide ((s.advance t).tick < (s.advance t).tio.owAt + owTicks) || (s.advance t).owBlocked pin) = true := by
    simp [hblocked, Nat.not_lt.2 hdue]
  show execOwPinTest t pin riseMv s = _
  rw [← State.advance_tio (t := t)] at htodo
  unfold execOwPinTest State.owTested State.owRecorded State.owGoOn
  simp only [htodo]
  rw [if_neg hskip]

theorem owPinTest_gives (t : Nat) (pin : Fin 24) (riseMv : Nat) {rest : List Nat} {s : State} (htodo : s.tio.owTodo = pin.val :: rest)
    (hdue : s.tio.owAt + owTicks ≤ (s.advance t).tick) (hfree : s.owBlocked pin = false) :
    Gives (.owPinTest t pin riseMv) s fun u => u.tio.owTodo = rest ∧ u.rd (pg .cmp 0) Reg.CMP_OW_STAT_OPEN =
      Reg.CMP_OW_STAT_OPEN.cut (putBit (s.rd (pg .cmp 0) Reg.CMP_OW_STAT_OPEN) pin (120 < riseMv)) ∧ u.rd (pg .cmp 0) Reg.CMP_OW_STAT_DONE =
      Reg.CMP_OW_STAT_DONE.cut (setBit (s.rd (pg .cmp 0) Reg.CMP_OW_STAT_DONE) pin) := by
  have hend : ((s.advance t).owTestEnd pin).rf = s.rf := ((does_owTestEnd ..).only .rf (by decide)).trans (State.advance_rf ..)
  have hrd (rose : Bool) (f : Fld) : ((((s.advance t).owTestEnd pin).owRecorded pin riseMv).owGoOn rest rose).rd (pg .cmp 0) f =
      (((s.advance t).owTestEnd pin).owRecorded pin riseMv).rd (pg .cmp 0) f := rd_of_rf (owGoOn_rf ..) _ _
  refine .of_next (exec_owPinTest t pin riseMv htodo hdue hfree) ?_
  simp only [← rd_of_rf hend]
  unfold State.owTested
  by_cases hrest : rest.isEmpty
  · simp only [hrest, if_true]
    rw [owEnd_todo, rd_owEnd (.head _), rd_owEnd (.tail _ (.head _)), hrd, hrd]
    exact ⟨(List.isEmpty_iff.1 hrest).symm, rd_wrs_eq _ rfl (by decide) rfl, rd_wrs_eq _ rfl (by decide) rfl⟩
  · simp only [hrest, Bool.false_eq_true, if_false]
    rw [owGoOn_todo, hrd, hrd]
    exact ⟨rfl, rd_wrs_eq _ rfl (by decide) rfl, rd_wrs_eq _ rfl (by decide) rfl⟩

/-- Settles O5: what each command writes of the outputs' faults and of the open-wire pass. -/
theorem outputFaultAndWireTestCommandsComplete : Obligations.OutputFaultAndWireTestCommandsComplete :=
  ⟨fun t j padHigh _ _ hv hk hs hd hc => shortDetect_gives t j padHigh hv hk hs hd hc,
    fun t j padHigh _ _ hv he hs hd => shortRetry_gives t j padHigh hv he hs hd, fun t mask padHigh _ h => retryNow_gives t mask padHigh h,
    fun t mask _ h => outFltDetDisable_gives t mask h, fun t _ h hp hm => owStart_gives t h hp hm,
    fun t _ hper hp hm hd => owPeriodicPass_gives t hper hp hm hd, fun t pin riseMv _ _ ht hd hf => owPinTest_gives t pin riseMv ht hd hf⟩

end Sys2Proof.Machine
end

section
/-!
PROOF. A core from the host's side: interrupts, window loads, the timer, USER records, the mailbox, halts, steps and the debug port
(R315, R444, R448, R455, R457, R460, R462, R464).
-/
namespace Sys2Proof.Machine

/-! What a core has after an event, a register write or a halt. -/

theorem coresQueued_event (s : State) (b : Blk) (i k : Nat) : CoresQueued s (s.event b i k) := by
  unfold State.event State.raise
  split
  · exact .of_core rfl
  · exact (coresQueued_transit _ _ 4).trans (coresQueued_judge _ _)

/-- A level that falls, or stays low, raises nothing. -/
theorem core_setRaw_false (s : State) (id : Nat) : (s.setRaw id false).core = s.core := by simp only [State.setRaw, Bool.false_and]; rfl

theorem coreAt_coreState (s : State) (n : Nat) {v : Nat} (hv : v ≠ 5) : (s.coreState n v).coreAt n = { s.coreAt n with state := v } := by
  have hlow : (v == 5) = false := beq_eq_false_iff_ne.2 hv
  unfold State.coreState
  rw [hlow, coreAt_of_core (core_setRaw_false ..), coreAt_setCore_same]

theorem coreAt_coreHalt (s : State) (n cause : Nat) {v : Nat} (hv : v ≠ 5) :
    (s.coreHalt n v cause).coreAt n = { (s.coreAt n).drain with haltCause := cause, haltReq := false, state := v } := by
  unfold State.coreHalt
  rw [coreAt_coreState _ _ hv, coreAt_of_core (State.wr_core ..), coreAt_setCore_same]

theorem coreAt_coreHalt_idle {s : State} {n : Nat} (cause : Nat) {v : Nat} (hv : v ≠ 5) (hp : (s.coreAt n).pend = []) (hl : (s.coreAt n).loads = []) :
    (s.coreHalt n v cause).coreAt n = { s.coreAt n with haltCause := cause, haltReq := false, state := v } := by
  rw [coreAt_coreHalt s n cause hv, drain_of_idle hp hl]

section
variable (s : State) (t n : Nat)

theorem coreAt_advance : (s.advance t).coreAt n = s.coreAt n := coreAt_of_core (State.advance_core ..) n

theorem rd_setCore (c : CoreSt) (p : Nat) (f : Fld) : (s.setCore n c).rd p f = s.rd p f := rd_of_rf rfl p f

theorem coreAt_wr (p v : Nat) (f : Fld) : (s.wr p f v).coreAt n = s.coreAt n := coreAt_of_core (State.wr_core ..) n

theorem coreAt_bumpSat (p k : Nat) (f : Fld) : (s.bumpSat p f k).coreAt n = s.coreAt n := coreAt_of_core ((does_bumpSat ..).only .core (by decide)) n

theorem coreAt_bump (p k : Nat) (f : Fld) : (s.bump p f k).coreAt n = s.coreAt n := coreAt_of_core ((does_bump ..).only .core (by decide)) n

end

theorem rd_bumpSat (s : State) (p k : Nat) (f : Fld) : (s.bumpSat p f k).rd p f = min (s.rd p f + k) (2 ^ f.width - 1) := by
  have hpos := Nat.two_pow_pos f.width
  rw [State.bumpSat, rd_wr_self]
  exact Nat.mod_eq_of_lt (by omega)

section
variable {c : CoreSt}

theorem ie_congr {d : CoreSt} (h : d.st = c.st) : d.ie = c.ie := by rw [CoreSt.ie, h, CoreSt.ie]

theorem ie_setLsp (k : Nat) : (c.setLsp k).ie = c.ie := by
  rw [CoreSt.ie, CoreSt.setLsp, BitVec.toNat_ofNat, Nat.testBit_mod_two_pow, testBit_setPart]
  simp [CoreSt.ie]

end

/-- The mailboxes and the USER counters of a core's page show no event. -/
theorem evReg_scr : ∀ n : Fin 64, ∀ off ∈ [0x120, 0x128, 0x130, 0x138], evReg (pg .scr n) off = false := by decide

/-! Interrupts, window loads and the timer. -/

/-- What an interrupt leaves of the core `c`, `d` being the core at the vector. -/
structure Entered (c d : CoreSt) : Prop where
  pc : d.pc = BitVec.ofNat 13 (irqVector c.irqs)
  ipc : d.ipc = c.pc
  istat : d.istat = c.st
  ie : d.ie = false
  lsp : d.lsp = 0
  inHandler : d.inHandler = true

theorem irqEntry_entered (s : State) (n t : Nat) {c : CoreSt} (hc : c = (s.coreAt n).settle) : Entered c ((s.irqEntry n t).coreAt n) := by
  unfold State.irqEntry
  rw [coreAt_setCore_same, ← hc]
  exact ⟨rfl, rfl, rfl, (ie_congr rfl).trans ((ie_setLsp 0).trans (ie_setIe false)),
    (lsp_congr (c := (CoreSt.setIe _ false).setLsp 0) rfl).trans (lsp_setLsp (by decide)), rfl⟩

theorem interruptEntry_gives (t : Nat) (n : Fin 64) {c : CoreSt} {s : State} (hopen : ((s.advance t).coreNow n t).coreOpen n = true)
    (hirq : (s.coreSeen n t).irqDue = true) (hdue : (s.coreSeen n t).base + (s.coreSeen n t).cyc ≤ t) (hc : c = (s.coreSeen n t).settle) :
    Gives (.interruptEntry t n) s fun u => (u.coreAt n).pc = BitVec.ofNat 13 (irqVector c.irqs) ∧ (u.coreAt n).ipc = c.pc ∧
      (u.coreAt n).istat = c.st ∧ (u.coreAt n).ie = false ∧ (u.coreAt n).lsp = 0 ∧ (u.coreAt n).inHandler = true := by
  refine .of_next (congrArg Host.Outcome.next (if_pos ?_)) ?_
  · simp [hopen, hirq, hdue]
  · have h := irqEntry_entered ((s.advance t).coreNow n t) n t hc
    exact ⟨h.pc, h.ipc, h.istat, h.ie, h.lsp, h.inHandler⟩

theorem windowLoadArrive_gives (t : Nat) (n : Fin 64) {c : CoreSt} {x : WinLoad} {l : List WinLoad} {s : State}
    (hopen : (s.advance t).coreOpen n = true) (hc : c = (s.coreAt n).settle) (hl : c.loads = x :: l) (hbase : c.base + x.due ≤ t)
    (hdue : x.due ≤ c.cyc + c.stalls (c.prog c.pc.toNat).toNat (bundleLegal (c.prog c.pc.toNat).toNat (0 < c.slots))) :
    Gives (.windowLoadArrive t n) s fun u => u.coreAt n = ({ c with cyc := x.due }).settle ∧ u.rd (pg .scr n) Reg.SCR_SCR_CNT_STALLS =
      min (s.rd (pg .scr n) Reg.SCR_SCR_CNT_STALLS + (x.due - c.cyc)) (2 ^ Reg.SCR_SCR_CNT_STALLS.width - 1) := by
  have hgated : (s.advance t).gated = false := by
    simp only [State.coreOpen, State.working, Bool.and_eq_true, Bool.not_eq_true'] at hopen
    exact hopen.1.2
  have hcond : ((s.advance t).coreOpen n && decide (c.base + x.due ≤ t) &&
      decide (x.due ≤ c.cyc + c.stalls (c.prog c.pc.toNat).toNat (bundleLegal (c.prog c.pc.toNat).toNat (0 < c.slots)))) = true := by
    simp only [hopen, hbase, hdue, decide_true, Bool.and_self]
  refine .of_next (u := ((s.advance t).setCore n ({ c with cyc := x.due } : CoreSt).settle).bumpSat (pg .scr n) Reg.SCR_SCR_CNT_STALLS (x.due - c.cyc)) ?_ ?_
  · show execWindowLoadArrive t n s = _
    unfold execWindowLoadArrive
    simp only [hgated, coreAt_advance, ← hc, hl, hcond, Bool.false_eq_true, if_false, if_true]
  · rw [coreAt_bumpSat, coreAt_setCore_same]
    refine ⟨rfl, (rd_bumpSat ..).trans ?_⟩
    rw [rd_setCore, advance_rd]

theorem timerCompare_gives (t : Nat) (n : Fin 64) {s : State} (hg : s.gated = false) (hen : (s.coreAt n).tmrEn = true)
    (hcmp : (s.coreAt n).tmrCmp.toNat ≤ (s.advance t).tick) :
    Gives (.timerCompare t n) s fun u => u.coreAt n = { s.coreAt n with irqPend := (s.coreAt n).irqPend ||| 0b0100 } := by
  have hopen : (s.advance t).gated = false := by simpa only [State.gated, State.on, advance_rd] using hg
  refine .of_next (congrArg Host.Outcome.next (if_neg (by simp [hopen]))) ?_
  rw [coreAt_setCore_same, coreAt_advance, CoreSt.timed, if_pos (by simp [hen, hcmp])]

theorem mbxInWrite_gives (t : Nat) (n : Fin 64) (v : Word) {s : State} (h : s.hostOpen (pg .scr n)) :
    Gives (.mbxInWrite t n v) s fun u => u.rd (pg .scr n) Reg.SCR_MBX_IN_DATA = v.toNat ∧
      u.coreAt n = { s.coreAt n with irqPend := (s.coreAt n).irqPend ||| 0b1000 } := by
  refine .of_next rfl ?_
  rw [hosted_of_open (hostOpen_advance t h), State.mbxInWrite, coreAt_setCore_same, coreAt_wr, coreAt_advance]
  exact ⟨(rd_of_rf rfl _ _).trans ((rd_wr_self ..).trans (Nat.mod_eq_of_lt v.isLt)), rfl⟩

/-! Halts and steps. -/

theorem scrHalt_gives (t : Nat) (n : Fin 64) {s : State} (h : s.hostOpen (pg .scr n)) (hstate : (s.coreAt n).state = 2 ∨ (s.coreAt n).state = 3) :
    Gives (.scrHalt t n) s fun u => if (s.coreAt n).slots = 0 then (u.coreAt n).state = 4 ∧ (u.coreAt n).haltCause = 1
      else u.coreAt n = { s.coreAt n with haltReq := true } ∧ u.rd (pg .scr n) Reg.SCR_SCR_CTL_HALT = 1 := by
  refine .of_next rfl ?_
  rw [hosted_of_open (hostOpen_advance t h)]
  have hbusy : ¬(((s.advance t).coreAt n).state ≠ 2 ∧ ((s.advance t).coreAt n).state ≠ 3) := by
    rw [coreAt_advance]
    exact fun hn => hstate.elim hn.1 hn.2
  rw [State.scrHalt, if_neg hbusy, coreAt_advance]
  split
  · rw [coreAt_coreHalt _ _ _ (by decide : (4 : Nat) ≠ 5)]
    exact ⟨rfl, rfl⟩
  · rw [coreAt_wr, coreAt_setCore_same]
    exact ⟨rfl, rd_wr_self ..⟩

theorem scrResume_gives (t : Nat) (n : Fin 64) {s : State} (h : s.hostOpen (pg .scr n)) (hstate : (s.coreAt n).state = 4) :
    Gives (.scrResume t n) s fun u => u.coreAt n = { (s.coreAt n).from_ (s.advance t).tick with state := 2, haltCause := 0 } := by
  refine .of_next rfl ?_
  rw [hosted_of_open (hostOpen_advance t h), State.scrResume, coreAt_advance, if_neg (not_not.2 hstate), coreAt_coreState _ _ (by decide),
    coreAt_setCore_same]

section
variable {s : State} {n t : Nat} {ecc : CoreEcc}

theorem scrStep_of_halted (hstate : (s.coreAt n).state = 4) (hg : s.gated = false) : s.scrStep n t ecc =
    if ((((s.setCore n { (s.coreAt n).from_ t with state := 2 }).coreStep n t ecc).coreAt n).state = 5) then
      (s.setCore n { (s.coreAt n).from_ t with state := 2 }).coreStep n t ecc
    else ((s.setCore n { (s.coreAt n).from_ t with state := 2 }).coreStep n t ecc).coreHalt n 4 1 := by
  unfold State.scrStep
  rw [if_neg (by simp [hstate, hg])]

theorem scrStep_halts (hstate : (s.coreAt n).state = 4) (hg : s.gated = false) :
    ((s.scrStep n t ecc).coreAt n).state = 4 ∨ ((s.scrStep n t ecc).coreAt n).state = 5 := by
  rw [scrStep_of_halted hstate hg]
  split
  next h => exact .inr h
  next => exact .inl (by rw [coreAt_coreHalt _ _ _ (by decide : (4 : Nat) ≠ 5)])

/-- A bundle of zeros goes to the next bundle, whether or not a halt is requested. -/
theorem execute_empty {c : CoreSt} (hs : c.slots = 0) (hlsp : c.lsp = 0) (u : State) :
    c.execute u n t 0 ecc = ⟨{ c with pc := c.pc + 1, idx := c.idx + 1, cyc := c.cyc + 1 }, []⟩ := by
  have hslot : decide (0 < c.slots) = false := by simp [hs]
  have hmoves : ((⟨c, []⟩ : Exe).doY c (Config.freeValue u.freeCnt) ecc.y (yMove 0)).doX c u n t (Config.freeValue u.freeCnt) ecc.x (xMove 0) =
    ⟨c, []⟩ := rfl
  have hslots : (if bMac 0 = true then c.doMac 0 else c.doAlu 0) = c := rfl
  have hadv : c.advance c 0 = { c with pc := c.pc + 1 } := by
    simp [CoreSt.advance, hs, show bForm 0 ≠ 1 by decide, CoreSt.loopEnd, hlsp]
  have hlegal : bundleLegal 0 false = true := by decide
  simp only [CoreSt.execute, hslot, hlegal, Bool.not_true, Bool.false_eq_true, if_false, show bForm 0 = 0 by decide, hmoves, Exe.core, hslots, hadv,
    show ((0 : Nat) = 1) = False by decide, decide_false, Bool.false_and]

/-- A step over a bundle of zeros: the core goes on to the next bundle, with nothing in flight. -/
theorem coreStep_empty {c : CoreSt} (hc : s.coreAt n = c) (hp : c.pend = []) (hl : c.loads = []) (hs : c.slots = 0) (hlsp : c.lsp = 0)
    (hprog : c.prog c.pc.toNat = 0) (hstate : c.state = 2) (hecc : ecc.p ≠ 2) :
    ∃ d, (s.coreStep n t ecc).coreAt n = d ∧ d.state ≠ 5 ∧ d.pend = [] ∧ d.loads = [] ∧ d.pc = c.pc + 1 ∧ d.g = c.g := by
  have hp2 : ecc.p.val ≠ 2 := fun e => hecc (Fin.ext e)
  have hslot : decide (0 < c.slots) = false := by simp [hs]
  have hword : (c.prog c.pc.toNat).toNat = 0 := by rw [hprog]; rfl
  have hwin (d : CoreSt) : d.winAccess 0 = none := rfl
  have settled (k : Nat) : ({ c with cyc := k } : CoreSt).settle = { c with cyc := k } := settle_of_idle hp hl
  have hempty (k : Nat) (u : State) := execute_empty (n := n) (t := t) (ecc := ecc) (c := { c with cyc := k }) hs hlsp u
  unfold State.coreStep
  simp only [hc, settle_of_idle hp hl, hword, if_neg hp2, hslot, hwin, Option.isSome_none, Bool.and_false, Bool.false_and, Bool.false_eq_true, if_false,
    settled, hempty, each_nil, coreAt_bump, coreAt_setCore_same]
  split
  · rw [coreAt_coreHalt_idle _ (by decide : (4 : Nat) ≠ 5) (by rw [coreAt_bump, coreAt_setCore_same]; exact hp)
      (by rw [coreAt_bump, coreAt_setCore_same]; exact hl), coreAt_bump, coreAt_setCore_same]
    exact ⟨_, rfl, (by decide : (4 : Nat) ≠ 5), hp, hl, rfl, rfl⟩
  · rw [coreAt_bump, coreAt_setCore_same]
    exact ⟨_, rfl, by simp [hstate], hp, hl, rfl, rfl⟩

theorem scrStep_empty {c : CoreSt} (hc : s.coreAt n = c) (hg : s.gated = false) (hstate : c.state = 4) (hp : c.pend = []) (hl : c.loads = [])
    (hs : c.slots = 0) (hlsp : c.lsp = 0) (hprog : c.prog c.pc.toNat = 0) (hecc : ecc.p ≠ 2) :
    ∃ d, (s.scrStep n t ecc).coreAt n = d ∧ d.state = 4 ∧ d.haltCause = 1 ∧ d.pc = c.pc + 1 ∧ d.g = c.g := by
  obtain ⟨d, hd, h5, hdp, hdl, hpc, hregs⟩ := coreStep_empty (s := s.setCore n { c.from_ t with state := 2 }) (t := t) (ecc := ecc)
    (coreAt_setCore_same ..) hp hl hs hlsp hprog rfl hecc
  rw [scrStep_of_halted (hc ▸ hstate) hg, hc, hd, if_neg h5,
    coreAt_coreHalt_idle _ (by decide : (4 : Nat) ≠ 5) (by rw [hd]; exact hdp) (by rw [hd]; exact hdl), hd]
  exact ⟨_, rfl, rfl, rfl, hpc, hregs⟩

end

theorem hosted_scrStep (t : Nat) (n : Fin 64) (ecc : CoreEcc) {s : State} (h : s.hostOpen (pg .scr n)) :
    exec (.scrStep t n ecc) s = .next ((s.advance t).scrStep n t ecc) := congrArg Host.Outcome.next (hosted_of_open (hostOpen_advance t h) ..)

/-! The debug port, USER records and the counters. -/

theorem dbgData_write (t : Nat) (n : Fin 64) {a : Nat} (v : Word) {s : State} (h : s.hostOpen (pg .scr n))
    (hstate : (s.coreAt n).state = 4 ∨ (s.coreAt n).state = 5)
    (hat : s.rd (pg .scr n) Reg.SCR_DBG_ADDR_SPACE = 0 ∧ a = s.rd (pg .scr n) Reg.SCR_DBG_ADDR_ADDR ∧ a < 0x4000) :
    Gives (.dbgDataAccess t n true v) s fun u => (u.coreAt n).xAt a = v ∧ ∀ b, b ≠ a → (u.coreAt n).xAt b = (s.coreAt n).xAt b := by
  obtain ⟨hspace, rfl, ha⟩ := hat
  have hhalted : ¬((s.coreAt n).state ≠ 4 ∧ (s.coreAt n).state ≠ 5) := fun hn => hstate.elim hn.1 hn.2
  refine .of_next (congrArg Host.Outcome.next ((if_pos rfl).trans (hosted_of_open (hostOpen_advance t h) ..))) ?_
  simp only [State.dbgWrite, coreAt_advance, advance_rd, if_neg hhalted, hspace, if_pos ha, coreAt_setCore_same, CoreSt.xAt]
  refine ⟨(smGet_set_self ..).trans (BitVec.ofNat_toNat ..), fun b hb => smGet_set_ne hb ..⟩

theorem dbgData_read (t : Nat) (n : Fin 64) (v : Word) {s : State} (h : s.hostOpen (pg .scr n)) : Gives (.dbgDataAccess t n false v) s fun u =>
    u = { s.advance t with out := .hostRead ((leBytes 8 (s.dbgWord n)).map BitVec.toNat) :: s.out } := by
  have hword : (s.advance t).dbgWord n = s.dbgWord n := by simp only [State.dbgWord, coreAt_advance, advance_rd]
  refine .of_next (congrArg Host.Outcome.next ((if_neg (by decide)).trans (if_pos (hostOpen_advance t h).1))) ?_
  rw [hword, State.emit, State.advance_out]

theorem coresQueued_record (s : State) (c kind : Nat) (spec est : Bool) (kflags low w1 w2 w3 : Nat) :
    CoresQueued s (s.record c kind spec est kflags low w1 w2 w3) := by
  unfold State.record
  dsimp only
  split
  · exact .of_core rfl
  split
  · refine CoresQueued.trans ?_ (coresQueued_event _ _ _ _)
    exact .of_core ((does_bumpSat ..).only .core (by decide))
  · exact .of_core (((does_placeRecord ..).only .core (by decide)).trans ((does_peak ..).only .core (by decide)))

theorem userRecordWrite_gives (t : Nat) (n : Fin 64) {x : UserRec} {l : List UserRec} {s : State} (hg : s.gated = false)
    (hstage : (s.coreAt n).stage = x :: l) (hrun : (s.actx x.ctx).running = true) (hroom : s.queueOpen < queueUnreserved) :
    Gives (.userRecordWrite t n) s fun u => (u.coreAt n).stage = l ∧ u.rd (pg .scr n) Reg.SCR_USR_STAT_USER_SENT =
      Reg.SCR_USR_STAT_USER_SENT.cut (s.rd (pg .scr n) Reg.SCR_USR_STAT_USER_SENT + 1) := by
  have hopen : (s.advance t).gated = false := by simpa only [State.gated, State.on, advance_rd] using hg
  have hactx : (s.advance t).actx x.ctx = s.actx x.ctx := by simp only [State.actx, State.advance_acq]
  have hqueue : (s.advance t).queueOpen = s.queueOpen := by simp only [State.queueOpen, State.advance_acq]
  let v : State := (s.advance t).setCore n { s.coreAt n with stage := l }
  let u : State := v.record x.ctx 0x0A false false 0 (n.val * 2 ^ 32 + x.a) (x.stamp / 16) (x.b * 16 + x.stamp % 16) x.c
  have hrec : (v.actx x.ctx).running = true := by rwa [show v.actx x.ctx = _ from hactx]
  have hfree : v.queueOpen < queueUnreserved := by rwa [show v.queueOpen = _ from hqueue]
  have hexec : exec (.userRecordWrite t n) s = .next (u.bump (pg .scr n) Reg.SCR_USR_STAT_USER_SENT 1) := by
    show execUserRecordWrite t n s = _
    unfold execUserRecordWrite
    simp only [hopen, coreAt_advance, hstage, Bool.false_eq_true, if_false]
    change Host.Outcome.next (if (!(v.actx x.ctx).running) = true then _ else if v.queueOpen < queueUnreserved then _ else _) = _
    rw [hrec, if_neg (by decide), if_pos hfree]
  refine .of_next hexec ⟨?_, ?_⟩
  · have hq := coresQueued_record v x.ctx 0x0A false false 0 (n.val * 2 ^ 32 + x.a) (x.stamp / 16) (x.b * 16 + x.stamp % 16) x.c n
    rw [coreAt_bump, show (u.coreAt n) = _ from hq, coreAt_setCore_same]
  · have hw : Writes (fun q o => q = pg .acq 0 ∧ o = 280 ∨ o = 1664) v u := writes_record (hp := .inl ⟨rfl, rfl⟩) (hp1 := .inr rfl) ..
    have hrd := hw.reads (pg .scr n) Reg.SCR_USR_STAT_USER_SENT (by decide) (evReg_scr n _ (by decide))
      (fun h => h.elim (fun e => absurd e.2 (by decide)) (by decide))
    rw [State.bump, rd_wr_self, hrd, rd_setCore, advance_rd]
    rfl

/-- What a write of SCR_CLR writes. -/
def scrCounters : List (Fld × Nat) := [Reg.SCR_SCR_CNT_BUNDLES, Reg.SCR_SCR_CNT_STALLS, Reg.SCR_SCR_CNT_OWN_REFUSED, Reg.SCR_SCR_CNT_EVQ_LOST,
  Reg.SCR_ECC_CNT_P_CORR, Reg.SCR_ECC_CNT_X_CORR, Reg.SCR_ECC_CNT_Y_CORR, Reg.SCR_USR_STAT_USER_SENT, Reg.SCR_USR_STAT_USER_DROP,
  Reg.SCR_USR_STAT_USER_BADCTX, Reg.SCR_USR_STAT_TRIG_CNT].map fun f => (f, 0)

theorem scrClr_gives (t : Nat) (n : Fin 64) {s : State} (h : s.hostOpen (pg .scr n)) : Gives (.scrClr t n) s fun u =>
    ∀ f ∈ [Reg.SCR_SCR_CNT_BUNDLES, Reg.SCR_SCR_CNT_STALLS, Reg.SCR_SCR_CNT_OWN_REFUSED, Reg.SCR_SCR_CNT_EVQ_LOST, Reg.SCR_ECC_CNT_P_CORR,
      Reg.SCR_ECC_CNT_X_CORR, Reg.SCR_ECC_CNT_Y_CORR, Reg.SCR_USR_STAT_USER_SENT, Reg.SCR_USR_STAT_USER_DROP, Reg.SCR_USR_STAT_USER_BADCTX,
      Reg.SCR_USR_STAT_TRIG_CNT], u.rd (pg .scr n) f = 0 := by
  refine .of_next (congrArg Host.Outcome.next (hosted_of_open (hostOpen_advance t h) ..)) ?_
  intro f hf
  have hclear : f.placed ∧ apartFrom f scrCounters = true ∧ lastOf f scrCounters = some 0 := by
    revert f
    decide
  obtain ⟨hplaced, hapart, hlast⟩ := hclear
  exact rd_wrs_eq _ hlast hplaced hapart

/-- Settles O40: what each command leaves of the core and of its page's registers. -/
theorem coreHostCommandsComplete : Obligations.CoreHostCommandsComplete := by
  refine ⟨fun t n c s ho hi hd hc => interruptEntry_gives t n ho hi hd hc, fun t n c x l s ho hc hl hb hd => windowLoadArrive_gives t n ho hc hl hb hd,
    fun t n s hg he hc => timerCompare_gives t n hg he hc, fun t n x l s hg hs hr hq => userRecordWrite_gives t n hg hs hr hq,
    fun t n v s h => mbxInWrite_gives t n v h, fun t n s h hs => scrHalt_gives t n h hs, fun t n s h hs => scrResume_gives t n h hs, ?_, ?_,
    fun t n a v s h hs ha => dbgData_write t n v h hs ha, fun t n v s h => dbgData_read t n v h, fun t n s h => scrClr_gives t n h⟩
  · intro t n ecc s h hg hstate
    have hopen : (s.advance t).gated = false := by simpa only [State.gated, State.on, advance_rd] using hg
    exact .of_next (hosted_scrStep t n ecc h) (scrStep_halts (by rwa [coreAt_advance]) hopen)
  · rintro t n ecc s h hg ⟨hstate, hp, hl, hs, hlsp⟩ hprog hecc
    have hopen : (s.advance t).gated = false := by simpa only [State.gated, State.on, advance_rd] using hg
    exact .of_core (hosted_scrStep t n ecc h) (scrStep_empty (coreAt_advance ..) hopen hstate hp hl hs hlsp hprog hecc)

end Sys2Proof.Machine
end

section
/-!
PROOF. A read of MBX_IN by a core whose timer has passed. The core sees the timer pending as it comes to the bundle (R455, R460), so its pending
interrupts are not those before less the mailbox's; the statement on the control area fails.
-/
namespace Sys2Proof.Machine
open Sys2Proof.Tests

/- The kernel evaluations below wait for one another: each in turn, not each on a thread of its own. -/
set_option Elab.async false

/-- Core 7 at a load of MBX_IN, with its timer passed and its interrupts off. -/
def mbxReadTimed : State :=
  { stOn [pg .scr 7] [] with core := [(7, { state := 2, prog0 := [(0, 1161822208)], p := (Vector.replicate 8 0).set 2 0x10020, tmrEn := true })] }

theorem mbxInRead_mbxReadTimed : ∃ u, exec (.mbxInRead 5 7 ⟨1, 0, 0⟩) mbxReadTimed = .next u ∧ (u.coreAt 7).irqPend = 0b0100 :=
  ⟨_, rfl, by decide +kernel⟩

/-- Refutes O39: from `mbxReadTimed`, where nothing pends, the read of MBX_IN leaves the timer pending. -/
theorem not_coreControlAreaCommandsComplete : ¬ Obligations.CoreControlAreaCommandsComplete := by
  unfold Obligations.CoreControlAreaCommandsComplete
  rintro ⟨_, _, _, _, _, _, _, mbxIn, _⟩
  obtain ⟨u, hu, hpend⟩ := mbxInRead_mbxReadTimed
  have hclaim := (mbxIn 5 1161822208 7 ⟨1, 0, 0⟩ mbxReadTimed (by decide +kernel) (by decide) (by decide +kernel)).at_next hu
  exact absurd (hclaim.2.symm.trans hpend) (by decide)

end Sys2Proof.Machine
end

section
/-!
PROOF. Frames and pipelines: a frame's readiness, its reading and its emission, and the pipelines' counters (R205, R210 to R216).
-/
namespace Sys2Proof.Machine

/-! A context of the transform, and what its changes leave. -/

section
variable (s : State)

theorem xfc_of_xf {s u : State} (h : u.xf = s.xf) (c : Nat) : u.xfc c = s.xfc c := by simp only [State.xfc, h]

theorem xfp_of_xf {s u : State} (h : u.xf = s.xf) (p : Nat) : u.xfp p = s.xfp p := by simp only [State.xfp, h]

@[simp] theorem xfc_setXfc_same (c : Nat) (x : XfCtx) : (s.setXfc c x).xfc c = x := smGet_set_self ..

theorem xfc_setXfc_ne {c d : Nat} (h : d ≠ c) (x : XfCtx) : (s.setXfc c x).xfc d = s.xfc d := smGet_set_ne h ..

@[simp] theorem xfp_setXfp_same (p : Nat) (x : XfPipe) : (s.setXfp p x).xfp p = x := smGet_set_self ..

theorem xfp_setXfc (c p : Nat) (x : XfCtx) : (s.setXfc c x).xfp p = s.xfp p := rfl

theorem xfc_setXfp (c p : Nat) (x : XfPipe) : (s.setXfp p x).xfc c = s.xfc c := rfl

theorem xfp_mapFrame (c seq p : Nat) (g : XfFrame → XfFrame) : (s.mapFrame c seq g).xfp p = s.xfp p := rfl

theorem xfp_pipeStart (p q t : Nat) (now : Option Nat) : (s.pipeStart p t now).xfp q = s.xfp q := by
  unfold State.pipeStart
  split
  · rfl
  dsimp only
  split
  · rfl
  · exact xfp_mapFrame ..

/-- Frames changed one by one: a context keeps the rest, and the number of its frames. -/
structure FramesMapped (x y : XfCtx) : Prop where
  cur : y.cur = x.cur
  length : y.frames.length = x.frames.length

theorem mapFrame_mapped (c d seq : Nat) (g : XfFrame → XfFrame) : FramesMapped (s.xfc d) ((s.mapFrame c seq g).xfc d) := by
  unfold State.mapFrame
  by_cases h : d = c
  · rw [h, xfc_setXfc_same]
    exact ⟨rfl, List.length_map ..⟩
  · rw [xfc_setXfc_ne s h]
    exact ⟨rfl, rfl⟩

theorem pipeStart_mapped (p t c : Nat) (now : Option Nat) : FramesMapped (s.xfc c) ((s.pipeStart p t now).xfc c) := by
  unfold State.pipeStart
  split
  · exact ⟨rfl, rfl⟩
  dsimp only
  split
  · exact ⟨rfl, rfl⟩
  · exact mapFrame_mapped ..

end

/-! A frame becomes ready. -/

theorem length_insertFrame (f : XfFrame) (l : List XfFrame) : (insertFrame f l).length = l.length + 1 := by
  have h := congrArg List.length (List.takeWhile_append_dropWhile (p := fun g : XfFrame => decide (g.seq < f.seq)) (l := l))
  rw [List.length_append] at h
  simp only [insertFrame, List.length_append, List.length_cons]
  omega

theorem pipeOf_advance (s : State) (t c j : Nat) : (s.advance t).pipeOf c false j = s.pipeOf c false j := by
  simp [State.pipeOf, State.xfRd, State.newRd]

section
variable {s : State} {c t p : Nat} {g : XfGrid} (put : XfGrid → XfCtx → XfCtx)

theorem xfc_dropFrame (s : State) (c p seq hop t per : Nat) (start : SubTick) : ((s.dropFrame c p seq hop t per start).xfc c).cur = (s.xfc c).cur ∧
    ((s.dropFrame c p seq hop t per start).xfc c).frames = (s.xfc c).frames := by
  have hx (k m : Nat) (f g : Fld) (x : XfPipe) : (((s.bumpSat (pg .xfp p) f k).bumpSat (pg .ctx c) g m).setXfp p x).xfc c = s.xfc c := rfl
  unfold State.dropFrame
  rw [xfc_of_xf ((does_setRaw ..).only .xf (by decide)), xfc_setXfc_same]
  exact ⟨rfl, rfl⟩

/-- The next frame of a grid, once the read in progress on its pipeline is not over: dropped where one waits there already, else it joins. -/
theorem frameReady_xfc {v : State} (hp : p = s.pipeOf c false (g.next % (s.xfRd c false Reg.CTX_XF_CFG_PIPE_M1 + 1)))
    (hv : v = s.pipeStart p t none) (hover : v.readOver p t = false)
    (hput : ∀ h x, (put h x).cur = some h ∧ (put h x).frames = x.frames) :
    ((s.frameReady c t g false put).xfc c).cur =
      some (if (v.xfc c).frames.any (fun h => h.pipe == p && h.phase == 0) then g.step else { g.step with opens := false }) ∧
    ((s.frameReady c t g false put).xfc c).frames.length =
      (v.xfc c).frames.length + (if (v.xfc c).frames.any (fun h => h.pipe == p && h.phase == 0) then 0 else 1) := by
  unfold State.frameReady
  simp only [← hp, ← hv, hover, Bool.false_eq_true, if_false]
  split
  · obtain ⟨hcur, hframes⟩ := xfc_dropFrame (v.setXfc c (put g.step (v.xfc c))) c p (g.seq0 + g.next) g.hop t g.per (g.stamp (g.next * g.hop))
    rw [hcur, hframes, xfc_setXfc_same, (hput ..).1, (hput ..).2]
    exact ⟨rfl, rfl⟩
  · rw [xfc_of_xf (State.wr_xf ..), xfc_setXfc_same, (hput ..).1, (hput ..).2]
    exact ⟨rfl, length_insertFrame ..⟩

end

theorem frameReady_gives (t : Nat) (c : Fin 1024) {g : XfGrid} {p : Nat} {v s : State} (hg : s.gated = false)
    (hrun : (s.actx c).running = true) (hprev : (s.xfc c).prev = none) (hnext : (s.xfc c).next = []) (hcur : (s.xfc c).cur = some g)
    (hready : g.ready = true) (hat : g.readyAt ≤ t) (hp : p = s.pipeOf c false (g.next % (s.xfRd c false Reg.CTX_XF_CFG_PIPE_M1 + 1)))
    (hv : v = (s.advance t).pipeStart p g.readyAt none) (hover : v.readOver p g.readyAt = false) : Gives (.frameReady t c) s fun u =>
      (u.xfc c).cur = some (if (v.xfc c).frames.any (fun h => h.pipe == p && h.phase == 0) then g.step else { g.step with opens := false }) ∧
      (u.xfc c).frames.length = (s.xfc c).frames.length + (if (v.xfc c).frames.any (fun h => h.pipe == p && h.phase == 0) then 0 else 1) := by
  have hxfc : (s.advance t).xfc c = s.xfc c := xfc_of_xf (State.advance_xf ..) c
  have hopen : ((s.advance t).gated || !((s.advance t).actx c).running) = false := by
    simp only [State.gated, State.on, State.actx, advance_rd, State.advance_acq] at hg hrun ⊢
    simp [hg, hrun]
  have hexec : exec (.frameReady t c) s =
      .next ((s.advance t).frameReady c g.readyAt g false (fun g x => { x with cur := some g })) := by
    show execFrameReady t c s = _
    unfold execFrameReady
    simp only [hxfc, hopen, hprev, hcur, hready, hnext, Bool.false_eq_true, if_false, if_true, State.gridDue, if_neg (Nat.not_lt.2 hat),
      List.isEmpty_nil, Bool.not_true]
  have hpipe : p = (s.advance t).pipeOf c false (g.next % ((s.advance t).xfRd c false Reg.CTX_XF_CFG_PIPE_M1 + 1)) := by
    rw [hp, pipeOf_advance]
    simp [State.xfRd, State.newRd]
  obtain ⟨hc, hl⟩ := frameReady_xfc (fun g x => { x with cur := some g }) hpipe hv hover fun _ _ => ⟨rfl, rfl⟩
  have hlen : (v.xfc c).frames.length = (s.xfc c).frames.length := by
    rw [hv, (pipeStart_mapped (s.advance t) p g.readyAt c none).length, hxfc]
  exact .of_next hexec ⟨hc, hlen ▸ hl⟩

/-! A read ends. -/

theorem tick_le_advance (s : State) (t : Nat) : s.tick ≤ (s.advance t).tick := by
  unfold State.advance
  split
  · exact le_max_left ..
  · exact le_rfl

/-- A page that runs goes on running as time passes, where it stops at a boundary of its own. -/
theorem enAct_advance {s : State} {p : Nat} {b : Blk} (hb : blkOf p = some b) (hstop : stopsAtBoundary b = true) (t : Nat) (h : s.enAct p = 1) :
    (s.advance t).enAct p = 1 := by
  have htick := tick_le_advance s t
  have hsame : (s.advance t).en p = s.en p := advance_rd ..
  unfold State.enAct at h ⊢
  simp only [advance_rd, State.advance_clk, hsame, State.advance_page, hb, Option.map_some, Option.getD_some, hstop, if_true] at h ⊢
  split at h
  next => rwa [if_pos ‹_›]
  next hcount =>
    rw [if_neg hcount]
    split at h
    next hen =>
      rw [if_pos hen]
      cases hat : smFind p s.page.enAt with
      | none => simpa only [hat] using h
      | some x =>
        simp only [hat] at h ⊢
        split at h
        next => cases h
        next hlt => rwa [if_neg (by omega)]
    next hen => rwa [if_neg hen]

theorem working_advance {s : State} {p : Nat} {b : Blk} (hb : blkOf p = some b) (hstop : stopsAtBoundary b = true) (t : Nat)
    (h : s.working p = true) : (s.advance t).working p = true := by
  simp only [State.working, State.runs, Bool.and_eq_true, beq_iff_eq, Bool.not_eq_true'] at h ⊢
  obtain ⟨⟨hen, hps⟩, hg⟩ := h
  have hps' : (s.advance t).pstateAct p = s.pstateAct p := advance_rd ..
  have hg' : (s.advance t).gated = s.gated := by simp only [State.gated, State.on, advance_rd]
  exact ⟨⟨enAct_advance hb hstop t hen, hps' ▸ hps⟩, hg' ▸ hg⟩

theorem blkOf_xfp : ∀ p : Fin 64, blkOf (pg .xfp p) = some .xfp := by decide

theorem pipeStart_of_reading {s : State} {p : Nat} {x : Nat × XfFrame} (h : s.pipeRead p = some x) (t : Nat) (now : Option Nat) :
    s.pipeStart p t now = s := by
  have hreading : s.pipeReading p = true := by
    obtain ⟨y, hy, hf⟩ := List.exists_of_findSome?_eq_some h
    obtain ⟨f, hfind, -⟩ := Option.map_eq_some_iff.1 hf
    exact List.any_eq_true.2 ⟨y, hy, List.any_eq_true.2 ⟨f, List.mem_of_find?_eq_some hfind, by simpa using List.find?_some hfind⟩⟩
  rw [State.pipeStart, hreading, Bool.true_or, if_pos rfl]

theorem pipelineReadEnd_gives (t : Nat) (p : Fin 64) (corr : Nat) (bad : List (Fin 65536)) {c : Nat} {f : XfFrame} {s : State}
    (hread : s.pipeRead p = some (c, f)) (hwork : s.working (pg .xfp p) = true) (hover : s.readOver p t = true) :
    Gives (.pipelineReadEnd t p corr bad) s fun u => (u.xfp p).reads = ((s.xfp p).reads.headD 0 + f.n) :: (s.xfp p).reads.drop 1 ∧
      u.rd (pg .xfp p) Reg.XFP_XFP_STAT_WIN_CORR =
        min (s.rd (pg .xfp p) Reg.XFP_XFP_STAT_WIN_CORR + corr) (2 ^ Reg.XFP_XFP_STAT_WIN_CORR.width - 1) := by
  have hxf : (s.advance t).xf = s.xf := State.advance_xf ..
  have hread' : (s.advance t).pipeRead p = some (c, f) := by rw [State.pipeRead, hxf]; exact hread
  have hover' : (s.advance t).readOver p t = true := by rw [State.readOver, State.pipeRead, hxf]; exact hover
  have hskip : ¬(!(s.advance t).working (pg .xfp p) || !(s.advance t).readOver p t) = true := by
    rw [working_advance (blkOf_xfp p) rfl t hwork, hover']
    decide
  suffices h : ∃ u, execPipelineReadEnd t p corr bad s = .next u ∧ (u.xfp p).reads = ((s.xfp p).reads.headD 0 + f.n) :: (s.xfp p).reads.drop 1 ∧
      u.rd (pg .xfp p) Reg.XFP_XFP_STAT_WIN_CORR =
        min (s.rd (pg .xfp p) Reg.XFP_XFP_STAT_WIN_CORR + corr) (2 ^ Reg.XFP_XFP_STAT_WIN_CORR.width - 1) by
    obtain ⟨u, hu, hr⟩ := h
    exact .of_next hu hr
  unfold execPipelineReadEnd
  extract_lets s₁ _
  have h₁ : s₁ = s.advance t := pipeStart_of_reading hread' t none
  rw [← h₁] at hread' hskip hxf
  have hrf : s₁.rf = s.rf := h₁ ▸ State.advance_rf ..
  clear_value s₁
  rw [hread']
  refine ⟨_, rfl, ?_⟩
  rw [if_neg hskip]
  extract_lets mine found s₂ read offset s₃ s₄ s₅ x s₆
  constructor
  · have hxfp : s₅.xfp p = s.xfp p := by
      have h₅ : s₅.xf = s₃.xf := by
        unfold s₅
        split
        · rfl
        · exact (does_setRaw ..).only .xf (by decide)
      rw [xfp_of_xf h₅, ← xfp_of_xf hxf p]
      rfl
    rw [xfp_pipeStart, xfp_setXfp_same]
    unfold x
    rw [hxfp]
  · have h₅ : s₅.rd (pg .xfp p) Reg.XFP_XFP_STAT_WIN_CORR = s₄.rd (pg .xfp p) Reg.XFP_XFP_STAT_WIN_CORR := by
      unfold s₅
      split
      · rfl
      · rw [rd_setRaw (f := Reg.XFP_XFP_STAT_WIN_CORR) _ _ _ (by decide) (evReg_100 _), rd_wr_field _ _ (by decide) (by decide) (by decide)]
    have h₃ : s₃.rd (pg .xfp p) Reg.XFP_XFP_STAT_WIN_CORR = s.rd (pg .xfp p) Reg.XFP_XFP_STAT_WIN_CORR := rd_of_rf hrf _ _
    rw [rd_of_rf ((does_pipeStart ..).only .rf (by decide))]
    exact h₅.trans ((rd_bumpSat ..).trans (by rw [h₃]))

/-! A frame is emitted. -/

/-- From `s` to `u` the frames of context `c` are the same. -/
structure KeepsFrames (c : Nat) (s u : State) : Prop where
  eq : (u.xfc c).frames = (s.xfc c).frames

namespace KeepsFrames
variable {c : Nat} {s t u : State}

theorem refl (c : Nat) (s : State) : KeepsFrames c s s := ⟨rfl⟩

theorem next (k : KeepsFrames c t u) (h : KeepsFrames c s t) : KeepsFrames c s u := ⟨k.eq.trans h.eq⟩

/-- A change of other parts. -/
theorem still {l : List Part} (h : KeepsFrames c s t) (k : Does l t u) (w : l.contains .xf = false) : KeepsFrames c s u :=
  ⟨(congrArg XfCtx.frames (xfc_of_xf (k.only .xf (by simpa using w)) c)).trans h.eq⟩

theorem setXfc (h : KeepsFrames c s t) {x : XfCtx} (hx : x.frames = (t.xfc c).frames) : KeepsFrames c s (t.setXfc c x) :=
  ⟨by rw [xfc_setXfc_same, hx, h.eq]⟩

theorem ite {p : Prop} [Decidable p] {v : State} (hu : KeepsFrames c s u) (hv : KeepsFrames c s v) : KeepsFrames c s (if p then u else v) := by
  split
  · exact hu
  · exact hv

theorem via (x : State) (hx : KeepsFrames c s x) (h : KeepsFrames c s x → KeepsFrames c s u) : KeepsFrames c s u := h hx

theorem foldlSnd {α β : Type} {f : β × State → α → β × State} {x : β × State} (l : List α) (h : KeepsFrames c s x.2)
    (hf : ∀ x a, KeepsFrames c s x.2 → KeepsFrames c s (f x a).2) : KeepsFrames c s (l.foldl f x).2 :=
  List.foldlRecOn l f (motive := fun x => KeepsFrames c s x.2) h fun x hx a _ => hf x a hx

end KeepsFrames

section
variable (s : State) (c : Nat)

theorem keepsFrames_writeRuns (seq : Nat) : KeepsFrames c s (s.writeRuns c seq) := by
  unfold State.writeRuns
  exact each_keeps (P := KeepsFrames c s) (fun _ _ h => h.still (does_writeRun ..) rfl) _ ((KeepsFrames.refl c s).setXfc rfl)

theorem keepsFrames_storeTraces (outs : List TraceOut) : KeepsFrames c s (s.storeTraces c outs) := by
  unfold State.storeTraces
  extract_lets p kind mine body _
  clear_value mine
  split
  · exact .refl c s
  · extract_lets s₁ head rec_ rec_'
    refine .via s₁ ((KeepsFrames.refl c s).setXfc rfl) fun h₁ => ?_
    exact .ite h₁ (h₁.still (does_takeRecord ..) rfl)

theorem keepsFrames_emitTraces (t : Nat) (outs : List TraceOut) (last : SubTick) (err : List SegErr) :
    KeepsFrames c s (s.emitTraces c t outs last err) := by
  have h₀ := keepsFrames_storeTraces s c outs
  refine .ite h₀ (each_keeps (P := KeepsFrames c s) (fun u x h => ?_) _ h₀)
  extract_lets p ms r s₁ s₂
  refine .via r.2 ?_ fun hr => ?_
  · unfold r
    split
    · exact h
    · exact .foldlSnd _ h fun _ _ hm => hm.still (does_maskTrace ..) rfl
  refine .via s₁ (.ite (hr.still (does_bump ..) rfl) hr) fun h₁ => ?_
  refine .via s₂ (each_keeps (fun _ _ hu => hu.still (does_setDen ..) rfl) _ h₁) fun h₂ => ?_
  exact h₂.still (does_traceToJobs ..) rfl

theorem keepsFrames_endBlocks (t g : Nat) (f : XfFrame) (err : List SegErr) : KeepsFrames c s (s.endBlocks c t g f err) := by
  unfold State.endBlocks
  extract_lets x a ended outs s₁ s₂
  refine .via s₁ ((KeepsFrames.refl c s).setXfc rfl) fun h₁ => ?_
  exact (keepsFrames_emitTraces ..).next (.still (l := [.freeCnt]) h₁ (.freeCnt (.refl _ _) rfl) rfl)

theorem keepsFrames_averageTrace (i g : Nat) (f : XfFrame) (flags : Nat) (pts : List (Int × Nat)) :
    KeepsFrames c s (s.averageTrace c i g f flags pts).2 := by
  unfold State.averageTrace
  extract_lets x v a mode restarted mark blk acc w part acc' out
  split
  · split <;> exact (KeepsFrames.refl c s).setXfc rfl
  · exact (KeepsFrames.refl c s).setXfc rfl

theorem keepsFrames_xfSwitch (t : Nat) : KeepsFrames c s (s.xfSwitch c t) := by
  unfold State.xfSwitch
  extract_lets x key units s₁ s₂ s₃ s₄ s₇ _ s₁₀ s₁₁ _
  refine .via s₁ ((KeepsFrames.refl c s).still (does_drainsKeep ..) rfl) fun h₁ => ?_
  refine .via s₃ (each_keeps (fun _ _ h => h.still (does_wr ..) rfl) _ h₁) fun h₃ => ?_
  refine .via s₄ (each_keeps (fun u k h => ?_) _ h₃) fun h₄ => ?_
  · extract_lets bound s₆
    refine .via s₆ (h.still (does_wr ..) rfl) fun h₆ => ?_
    exact .ite (h₆.still (does_denClear ..) rfl) h₆
  refine .via s₇ (each_keeps (fun u k h => ?_) _ h₄) fun h₇ => ?_
  · exact .ite (.still (.still (l := [.trg]) (h.still (does_wr ..) rfl) (.trg (.refl _ _) rfl) rfl) (does_sourceLevel ..) rfl)
      (h.still (does_levelEnd ..) rfl)
  refine .via s₁₀ (.ite (h₇.still (does_setActx ..) rfl) h₇) fun h₁₀ => ?_
  refine .via s₁₁ (h₁₀.still (does_drainsMove ..) rfl) fun h₁₁ => ?_
  exact h₁₁.setXfc rfl

theorem keepsFrames_xfSettle (t : Nat) : KeepsFrames c s (s.xfSettle c t) := .ite (keepsFrames_xfSwitch s c t) (.refl c s)

end

theorem frameEmit_gives (t : Nat) (c : Fin 1024) (segErr : List SegErr) {f : XfFrame} {l : List XfFrame} {s : State}
    (hframes : (s.xfc c).frames = f :: l) (hout : s.frameOut c t f = true) (hnew : f.new = false ∨ (s.xfc c).prev = none)
    (hg : s.gated = false) : Gives (.frameEmit t c segErr) s fun u => (u.xfc c).frames = l := by
  have hxfc : (s.advance t).xfc c = s.xfc c := xfc_of_xf (State.advance_xf ..) c
  have hgated : (s.advance t).gated = false := by simpa only [State.gated, State.on, advance_rd] using hg
  have hout' : (s.advance t).frameOut c t f = true := by
    simp only [State.frameOut, State.xfRd, State.newRd, advance_rd, hxfc] at hout ⊢
    exact hout
  have hskip : ¬((s.advance t).gated || !(s.advance t).frameOut c t f || f.new && ((s.advance t).xfc c).prev.isSome) = true := by
    rw [hgated, hout', hxfc]
    rcases hnew with h | h <;> simp [h]
  suffices h : ∃ u, execFrameEmit t c segErr s = .next u ∧ KeepsFrames c ((s.advance t).setXfc c { (s.advance t).xfc c with frames := l }) u by
    obtain ⟨u, hu, hk⟩ := h
    exact .of_next hu (hk.eq.trans (congrArg XfCtx.frames (xfc_setXfc_same ..)))
  unfold execFrameEmit
  extract_lets s₁ p oldGain
  rw [← hxfc] at hframes
  change (s₁.xfc c).frames = f :: l at hframes
  rw [hframes]
  refine ⟨_, rfl, ?_⟩
  rw [if_neg hskip]
  extract_lets before lead s₂ s₃ bins g s₄ trg s₅ last flags kind s₆ fmt v xc s₇ width head words r _ s₈ s₉
  refine .via s₂ (keepsFrames_writeRuns ..) fun h₂ => ?_
  refine .via s₃ ((keepsFrames_endBlocks ..).next h₂) fun h₃ => ?_
  refine .via s₄ (.ite ((keepsFrames_xfSwitch ..).next h₃) h₃) fun h₄ => ?_
  refine .via s₅ (.ite (.still (l := [.trg]) h₄ (.trg (.refl _ _) rfl) rfl) h₄) fun h₅ => ?_
  refine .via s₆ (h₅.still (does_bump ..) rfl) fun h₆ => ?_
  refine .via s₇ (h₆.setXfc rfl) fun h₇ => ?_
  refine .via r.2 (.foldlSnd _ h₇ fun _ _ h => (keepsFrames_averageTrace ..).next h) fun hr => ?_
  refine .via s₈ (.still (l := [.freeCnt]) hr (.freeCnt (.refl _ _) rfl) rfl) fun h₈ => ?_
  refine .via s₉ (.ite (h₈.still (does_takeRecord ..) rfl) h₈) fun h₉ => ?_
  exact (keepsFrames_xfSettle ..).next ((keepsFrames_emitTraces ..).next h₉)

/-! The pipelines' counters. -/

/-- Where the overload of a pipeline shows. -/
theorem evPlace_xfp : ∀ p : Fin 64, evPage (evId .xfp p 0) = pg .xfp p ∧ evBit (evId .xfp p 0) = 0 := by decide

theorem overloadClear_gives (t : Nat) (p : Fin 64) {s : State} (h : (s.xfp p).lastDrop + 1024 ≤ t) :
    Gives (.overloadClear t p) s fun u => (u.rd (pg .xfp p) Reg.EV_RAW).testBit 0 = false := by
  have hxfp : (s.advance t).xfp p = s.xfp p := xfp_of_xf (State.advance_xf ..) p
  refine .of_next (congrArg Host.Outcome.next (if_pos (by rwa [hxfp]))) ?_
  obtain ⟨hpage, hbit⟩ := evPlace_xfp p
  simp only [State.setRaw, Bool.false_and, Bool.false_eq_true, if_false, hpage, hbit]
  rw [rd_wr_self, show Reg.EV_RAW.width = 64 from rfl, testBit_mod_word (by decide), testBit_putBit, if_pos rfl]

theorem xfpClr_gives (t : Nat) (p : Fin 64) {s : State} (h : s.hostOpen (pg .xfp p)) : Gives (.xfpClr t p) s fun u =>
    ∀ f ∈ [Reg.XFP_XFP_STAT_DROP_CNT, Reg.XFP_XFP_STAT_WIN_CORR, Reg.XFP_XFP_LOAD_PEAK_LOAD], u.rd (pg .xfp p) f = 0 := by
  refine .of_next (congrArg Host.Outcome.next (hosted_of_open (hostOpen_advance t h) ..)) ?_
  simp only [List.forall_mem_cons]
  exact ⟨rd_wrs_eq _ rfl (by decide) rfl, rd_wrs_eq _ rfl (by decide) rfl, rd_wrs_eq _ rfl (by decide) rfl, nofun⟩

theorem rd_peak_field {p : Nat} {f g : Fld} (s : State) (v : Nat) (hf : f.placed) (hg : g.placed) (h : ¬(g.off = f.off ∧ g.lo = f.lo)) :
    (s.peak p f v).rd p g = s.rd p g := by
  unfold State.peak
  split
  · exact rd_wr_field s v hf hg h
  · rfl

theorem xfpLoadUpdate_gives (t : Nat) (p : Fin 64) {s : State} (hg : s.gated = false) (hdue : (s.xfp p).loadAt + 2 ^ 16 ≤ t) :
    Gives (.xfpLoadUpdate t p) s fun u => u.rd (pg .xfp p) Reg.XFP_XFP_LOAD_LOAD =
      Reg.XFP_XFP_LOAD_LOAD.cut (((s.xfp p).reads.take 256).sum * 1024 / 2 ^ 24) ∧ (u.xfp p).reads = 0 :: (s.xfp p).reads.take 255 := by
  have hxfp : (s.advance t).xfp p = s.xfp p := xfp_of_xf (State.advance_xf ..) p
  have hgated : (s.advance t).gated = false := by simpa only [State.gated, State.on, advance_rd] using hg
  refine .of_next (congrArg Host.Outcome.next (if_neg ?_)) ?_
  · rw [hgated, hxfp]
    simpa using hdue
  · rw [xfp_of_xf ((does_peak ..).only .xf (by decide)), xfp_of_xf (State.wr_xf ..), xfp_setXfp_same, hxfp]
    refine ⟨?_, rfl⟩
    dsimp only
    rw [rd_peak_field _ _ (by decide) (by decide) (by decide), rd_wr_self]
    rfl

/-- Settles O13: a frame joins, is read and leaves its context as its pipeline and its place allow; each counter by its own writes. -/
theorem transformCommandsComplete : Obligations.TransformCommandsComplete :=
  ⟨fun t c _ _ _ _ hg hr hp hn hc hd ha hq hv ho => frameReady_gives t c hg hr hp hn hc hd ha hq hv ho,
    fun t p corr bad _ _ _ hr hw ho => pipelineReadEnd_gives t p corr bad hr hw ho, fun t c segErr _ _ _ hf ho hn hg => frameEmit_gives t c segErr hf ho hn hg,
    fun t p _ h => overloadClear_gives t p h, fun t p _ h => xfpClr_gives t p h, fun t p _ hg hd => xfpLoadUpdate_gives t p hg hd⟩

end Sys2Proof.Machine
end

section
/-!
PROOF. Commands of the host's rings: how one is taken up, completed at once or deferred, and what the reporting services write (R324 to R330, R505).
-/
namespace Sys2Proof.Machine

/-! Taking up, completing and deferring. -/

/-- The state once the command `e` has been taken up. -/
def State.taken (s : State) (e : SvcEntry) : State := { s with svc := { s.svc with fetched := s.svc.fetched.erase e } }

section
variable {s : State} {r opc : Nat} {e : SvcEntry}

theorem svcTake_of_takes (t : Nat) (h : s.takes r opc e) : (s.advance t).svcTake r opc = some (e, (s.advance t).taken e) := by
  obtain ⟨hrun, hfind, hopc⟩ := h
  simp only [State.serviceRuns, Bool.and_eq_true, Bool.not_eq_true'] at hrun
  obtain ⟨⟨-, hrestart⟩, hgated⟩ := hrun
  have hg : (s.advance t).gated = false := by simpa only [State.gated, State.on, advance_rd] using hgated
  simp only [State.svcTake, State.svcTakeIf, State.advance_svc, hrestart, hg, hfind, hopc, Bool.or_self, Bool.false_eq_true, if_false, beq_self_eq_true,
    if_true, State.taken]

theorem atOnce_of_takes (t : Nat) (h : s.takes r opc e) (f : State → SvcEntry → SvcStatus × Nat × Nat × State) :
    (s.advance t).atOnce r opc f = (f ((s.advance t).taken e) e).2.2.2.complete e (f ((s.advance t).taken e) e).1 (f ((s.advance t).taken e) e).2.1
      (f ((s.advance t).taken e) e).2.2.1 := by
  rw [State.atOnce, svcTake_of_takes t h]

theorem inHand_advance (t opc : Nat) : (s.advance t).inHand opc = s.inHand opc := by
  simp only [State.inHand, State.serviceRuns, State.ready, State.gated, State.on, advance_rd, State.outstanding, State.advance_svc]
  rfl

/-- Completing adds to the completions; of the rest it changes the deferred commands alone. -/
theorem complete_compl {u : State} (h : u.svc.compl = s.svc.compl) (e : SvcEntry) (st : SvcStatus) (a b : Nat) :
    (u.complete e st a b).svc.compl = s.completed e st a b := by rw [State.completed, ← h, State.complete]

theorem defer_of_room {u : State} (hroom : s.room e) (h : u.svc.deferred = s.svc.deferred) :
    u.defer e = (true, { u with svc := { u.svc with deferred := s.svc.deferred ++ [e] } }) := by
  rw [State.defer, h, if_pos hroom]

@[simp] theorem taken_compl (t : Nat) : ((s.advance t).taken e).svc.compl = s.svc.compl := by rw [State.taken, State.advance_svc]
@[simp] theorem taken_deferred (t : Nat) : ((s.advance t).taken e).svc.deferred = s.svc.deferred := by rw [State.taken, State.advance_svc]
@[simp] theorem taken_fetched (t : Nat) : ((s.advance t).taken e).svc.fetched = s.svc.fetched.erase e := by rw [State.taken, State.advance_svc]
@[simp] theorem taken_out (t : Nat) : ((s.advance t).taken e).out = s.out := by rw [State.taken, State.advance_out]
@[simp] theorem taken_rd (t p : Nat) (f : Fld) : ((s.advance t).taken e).rd p f = s.rd p f := (rd_of_rf rfl p f).trans (advance_rd ..)

end

/-! What the reports say does not depend on the command, nor on the time where they give none. -/

theorem infoBlock_taken (s : State) (t : Nat) (e : SvcEntry) : ((s.advance t).taken e).infoBlock = s.infoBlock := by
  have hsame : ∀ p f, ((s.advance t).taken e).rd p f = s.rd p f := taken_rd t
  have hmem : ((s.advance t).taken e).mem = s.mem := State.advance_mem ..
  have hbank : ((s.advance t).taken e).bank = s.bank := State.advance_bank ..
  simp only [State.infoBlock, State.epochNumbers, State.on, State.usableBytes, State.inService, State.channelMask, State.chanState, State.bankMask,
    hsame, hmem, hbank]
  rfl

theorem failMapBytes_taken (s : State) (t : Nat) (e : SvcEntry) : ((s.advance t).taken e).failMapBytes = s.failMapBytes := by
  simp only [State.failMapBytes, State.taken, State.advance_flash]

theorem length_blockOf (n : Nat) (l : List (Nat × Nat × Nat)) : (blockOf n l).length = n := by simp [blockOf]

theorem length_reportBytes (s : State) (c : SvcCmd) : (s.reportBytes c).length = 448 := length_blockOf ..

section
variable (t : Nat) (r : Fin 4) {e : SvcEntry} {s : State}

theorem getInfo_gives (h : s.takes r 0x01 e) (hlen : 256 ≤ e.cmd.dlen.toNat) : Gives (.getInfo t r) s fun u =>
    u.out = .hostWrite e.cmd.dptr.toNat s.infoBlock :: s.out ∧ u.svc.compl = s.completed e .success 0 0 ∧ u.svc.fetched = s.svc.fetched.erase e := by
  refine .of_next (congrArg Host.Outcome.next (atOnce_of_takes t h _)) ?_
  rw [if_neg (Nat.not_lt.2 hlen)]
  refine ⟨?_, complete_compl (taken_compl t) .., taken_fetched t⟩
  rw [← infoBlock_taken s t e, ← taken_out (s := s) t]
  rfl

theorem getHealth_gives (h : s.takes r 0x08 e) (hlen : 256 ≤ e.cmd.dlen.toNat) : Gives (.getHealth t r) s fun u =>
    u.out = .hostWrite e.cmd.dptr.toNat (s.advance t).healthBlock :: s.out ∧ u.svc.compl = s.completed e .success 0 0 ∧
      u.svc.fetched = s.svc.fetched.erase e := by
  refine .of_next (congrArg Host.Outcome.next (atOnce_of_takes t h _)) ?_
  rw [if_neg (Nat.not_lt.2 hlen)]
  refine ⟨?_, complete_compl (taken_compl t) .., taken_fetched t⟩
  rw [← taken_out (s := s) t]
  rfl

theorem migrateStatus_gives (h : s.takes r 0x30 e) : Gives (.migrateStatus t r) s fun u => u.svc.compl =
    s.completed e .success (s.advance t).migrateStatus.1 (s.advance t).migrateStatus.2 ∧ u.svc.fetched = s.svc.fetched.erase e :=
  .of_next (congrArg Host.Outcome.next (atOnce_of_takes t h _)) ⟨complete_compl (taken_compl t) .., taken_fetched t⟩

theorem failmapRead_gives (h : s.takes r 0x31 e) : Gives (.failmapRead t r) s fun u =>
    u.out = .hostWrite e.cmd.dptr.toNat s.failMapBytes :: s.out ∧ u.svc.compl = s.completed e .success 0 0 := by
  refine .of_next (congrArg Host.Outcome.next (atOnce_of_takes t h _)) ⟨?_, complete_compl (taken_compl t) ..⟩
  rw [← failMapBytes_taken s t e, ← taken_out (s := s) t]
  rfl

/-- What PTP_STATUS writes. -/
def State.ptpBlock (s : State) : List Nat :=
  blockOf 64 [(0, 1, s.ptp.portState), (1, 1, s.ptp.servo), (8, 8, s.ptp.gm), (16, 8, s.ptp.steps), (24, 8, unsigned 64 s.ptp.offset),
    (32, 8, unsigned 64 s.ptp.delay), (40, 8, unsigned 64 s.trim)]

theorem ptpBlock_taken (s : State) (t : Nat) (e : SvcEntry) : ((s.advance t).taken e).ptpBlock.getD 0 0 = s.ptp.portState % 256 ∧
    ((s.advance t).taken e).ptpBlock.getD 1 0 = s.ptp.servo % 256 := by
  have hptp : ((s.advance t).taken e).ptp = s.ptp := State.advance_ptp ..
  simp [State.ptpBlock, blockOf, hptp]

theorem ptpStatus_gives (h : s.takes r 0x21 e) : Gives (.ptpStatus t r) s fun u => u.svc.compl = s.completed e .success 0 0 ∧
    ∃ b : List Nat, b.length = 64 ∧ u.out = .hostWrite e.cmd.dptr.toNat b :: s.out ∧ b.getD 0 0 = s.ptp.portState % 256 ∧
      b.getD 1 0 = s.ptp.servo % 256 := by
  obtain ⟨hport, hservo⟩ := ptpBlock_taken s t e
  refine .of_next (congrArg Host.Outcome.next (atOnce_of_takes t h _))
    ⟨complete_compl (taken_compl t) .., ((s.advance t).taken e).ptpBlock, length_blockOf .., ?_, hport, hservo⟩
  rw [← taken_out (s := s) (e := e) t]
  rfl

theorem ptpCfg_gives (cfg : PtpConfig) (h : s.takes r 0x20 e) (hlen : e.cmd.dlen.toNat = 64)
    (hcfg : cfg.src.toNat ≤ 3 ∧ cfg.role.toNat ≤ 2 ∧ cfg.port.toNat ≤ 1 ∧ cfg.transport.toNat ≤ 2 ∧ cfg.mode.toNat ≤ 1) :
    Gives (.ptpCfg t r cfg) s fun u => u.svc.compl = s.completed e .success 0 0 ∧
      u.ptp = { src := cfg.src.toNat, cfg := some cfg, servo := if cfg.src.toNat = 0 then 0 else 1 } := by
  obtain ⟨hsrc, hrole, hport, htransport, hmode⟩ := hcfg
  refine .of_next (congrArg Host.Outcome.next (atOnce_of_takes t h _)) ?_
  rw [if_neg (by simp; omega)]
  have hservo (n : Nat) : (((s.advance t).taken e).setServo n).ptp.servo = n ∧ (((s.advance t).taken e).setServo n).svc.compl = s.svc.compl := by
    unfold State.setServo
    rw [(does_eventIf ..).only .ptp (by decide), (does_eventIf ..).only .svc (by decide)]
    exact ⟨rfl, taken_compl (e := e) t⟩
  refine ⟨complete_compl (hservo _).2 .., ?_⟩
  exact congrArg (fun n => ({ src := cfg.src.toNat, cfg := some cfg, servo := n } : PtpSt)) (hservo _).1

theorem attest_gives (h : s.takes r 0x05 e) (hroom : s.room e) (hlen : 512 ≤ e.cmd.dlen.toNat) : Gives (.attest t r) s fun u =>
    u.svc.deferred = s.svc.deferred ++ [e] ∧ u.svc.compl = s.svc.compl ∧ u.svc.fetched = s.svc.fetched.erase e := by
  have hexec : exec (.attest t r) s = .next (((s.advance t).taken e).defer e).2 := by
    show execAttest t r s = _
    unfold execAttest
    simp only [svcTake_of_takes t h, if_neg (Nat.not_lt.2 hlen)]
  refine .of_next hexec ?_
  rw [defer_of_room hroom (taken_deferred t)]
  exact ⟨rfl, taken_compl (e := e) t, taken_fetched t⟩

/-- The report of ATTEST with its signature, and the certificate where the host's buffer has room for it. -/
def State.attestBytes (s : State) (sig cert : List Byte) (e : SvcEntry) : List Nat :=
  let all := s.reportBytes e.cmd ++ (List.range 64).map (fun i => (sig.getD i 0).toNat)
  if 512 + cert.length ≤ e.cmd.dlen.toNat then all ++ cert.map BitVec.toNat else all

theorem length_attestBytes (s : State) (sig cert : List Byte) (e : SvcEntry) :
    (s.attestBytes sig cert e).length = if 512 + cert.length ≤ e.cmd.dlen.toNat then 512 + cert.length else 512 := by
  unfold State.attestBytes
  dsimp only
  split
  · simp [length_reportBytes]
    omega
  · simp [length_reportBytes]

theorem attestDone_gives (sig cert : List Byte) (h : s.inHand 0x05 = some e) : Gives (.attestDone t sig cert) s fun u =>
    u.svc.compl = s.completed e .success (if 512 + cert.length ≤ e.cmd.dlen.toNat then 512 + cert.length else 512) 0 ∧
      u.svc.deferred = s.svc.deferred.erase e ∧
      u.rd (pg .sec 0) Reg.SEC_SEC_CNT_ATTESTS = Reg.SEC_SEC_CNT_ATTESTS.cut (s.rd (pg .sec 0) Reg.SEC_SEC_CNT_ATTESTS + 1) := by
  let u := ((s.advance t).bump (pg .sec 0) Reg.SEC_SEC_CNT_ATTESTS 1).event .sec 0 5
  let all := (s.advance t).attestBytes sig cert e
  have hexec : exec (.attestDone t sig cert) s = .next ((u.emit (.hostWrite e.cmd.dptr.toNat all)).complete e .success all.length 0) := by
    show execAttestDone t sig cert s = _
    unfold execAttestDone
    simp only [inHand_advance, h]
    rfl
  have hsvc : u.svc = s.svc := by
    unfold u
    rw [event_svc, (does_bump ..).only .svc (by decide), State.advance_svc]
  refine .of_next hexec ⟨?_, ?_, ?_⟩
  · rw [show all.length = _ from length_attestBytes ..]
    exact complete_compl (congrArg SvcSt.compl hsvc) ..
  · exact congrArg (fun v : SvcSt => v.deferred.erase e) hsvc
  · have hrd : u.rd (pg .sec 0) Reg.SEC_SEC_CNT_ATTESTS = _ := rd_event _ _ _ _ (by decide) (by decide)
    refine hrd.trans ((rd_wr_self ..).trans ?_)
    rw [advance_rd]
    rfl

theorem selftest_defers (h : s.takes r 0x39 e) (hroom : s.room e) (hidle : s.running = []) : Gives (.selftest t r) s fun u =>
    u.svc.deferred = s.svc.deferred ++ [e] ∧ u.svc.compl = s.svc.compl := by
  have hrun : ((s.advance t).taken e).running = [] := by rw [← hidle]; simp only [State.running, State.taken, State.advance_acq]
  have hexec : exec (.selftest t r) s = .next (((s.advance t).taken e).defer e).2 := by
    show execSelftest t r s = _
    unfold execSelftest
    simp only [svcTake_of_takes t h, hrun, List.isEmpty_nil, if_true]
  refine .of_next hexec ?_
  rw [defer_of_room hroom (taken_deferred t)]
  exact ⟨rfl, taken_compl (e := e) t⟩

theorem selftest_refused (h : s.takes r 0x39 e) (hbusy : s.running ≠ []) : Gives (.selftest t r) s fun u =>
    u.svc.compl = s.completed e .wrongState 0 0 := by
  have hrun : ((s.advance t).taken e).running.isEmpty = false := by
    rw [List.isEmpty_eq_false_iff]
    simpa only [State.running, State.taken, State.advance_acq] using hbusy
  have hexec : exec (.selftest t r) s = .next (((s.advance t).taken e).complete e .wrongState 0 0) := by
    show execSelftest t r s = _
    unfold execSelftest
    simp only [svcTake_of_takes t h, hrun, Bool.false_eq_true, if_false]
  exact .of_next hexec (complete_compl (taken_compl t) ..)

theorem selftestDone_gives (failed : Word) (h : s.inHand 0x39 = some e) : Gives (.selftestDone t failed) s fun u =>
    u.svc.compl = s.completed e (if failed &&& e.cmd.p0 = 0 then .success else .selftestFail) (failed &&& e.cmd.p0).toNat 0 ∧
      u.svc.deferred = s.svc.deferred.erase e := by
  have hexec : exec (.selftestDone t failed) s = .next ((s.advance t).complete e
      (if failed &&& e.cmd.p0 = 0 then .success else .selftestFail) (failed &&& e.cmd.p0).toNat 0) := by
    show execSelftestDone t failed s = _
    unfold execSelftestDone
    simp only [inHand_advance, h]
  exact .of_next hexec ⟨complete_compl (by rw [State.advance_svc]) .., by rw [State.complete, State.advance_svc]⟩

end

/-- Settles O19: each command by the block it writes and the completion it adds. -/
theorem reportCommandsComplete : Obligations.ReportCommandsComplete :=
  ⟨fun t r _ _ h hl => getInfo_gives t r h hl, fun t r _ _ h hl => getHealth_gives t r h hl, fun t r _ _ h => migrateStatus_gives t r h,
    fun t r _ _ h => failmapRead_gives t r h, fun t r _ _ h => ptpStatus_gives t r h, fun t r cfg _ _ h hl hc => ptpCfg_gives t r cfg h hl hc,
    fun t r _ _ h hr hl => attest_gives t r h hr hl, fun t sig cert _ _ h => attestDone_gives t sig cert h,
    fun t r _ _ h hr hi => selftest_defers t r h hr hi, fun t r _ _ h hb => selftest_refused t r h hb, fun t failed _ _ h => selftestDone_gives t failed h⟩

end Sys2Proof.Machine
end

section
/-!
PROOF. Firmware images and the service controller's restart: staging, activating, and what a restart leaves of the commands (R330, R332, R497).
-/
namespace Sys2Proof.Machine

/-! Loading a page's registers from an image. -/

/-- The stack number in a memory stack's registers is in reset values alone. -/
theorem blkFields_const {b : Blk} (hb : imgBlk b = true) (h : b ≠ .mst) (i : Nat) : blkFields b i = blkFields b 0 := by
  cases b
  case mst => exact absurd rfl h
  all_goals cases hb
  all_goals rfl

theorem placed_blkFields {b : Blk} (hb : imgBlk b = true) (i : Nat) : (blkFields b i).all (fun f => decide f.placed) = true := by
  by_cases h : b = .mst
  · rw [h]
    rfl
  · rw [blkFields_const hb h]
    cases b <;> cases hb <;> decide +kernel

/-- The fields that an epoch image sets stand within their page. -/
theorem placed_imgFields (p : Nat) : ∀ f ∈ imgFields p, f.placed := by
  intro f hf
  unfold imgFields at hf
  split at hf
  next r _ =>
    split at hf
    next hb => exact of_decide_eq_true (List.all_eq_true.1 (placed_blkFields hb _) f (List.mem_of_mem_filter hf))
    next => cases hf
  next => cases hf

section
variable {P : Nat → Nat → Prop}

theorem writes_loadPage (s : State) (img : Option EpochImage) (p : Nat) (hp : ∀ o, P p o) : Writes P s (s.loadPage img p) :=
  List.foldlRecOn _ _ (motive := Writes P s) (.refl _ _) fun _ h f hf => h.wr (hp _) (placed_imgFields p f hf)

theorem writes_laneEvent (s : State) (x : Nat) : Writes P s (s.laneEvent x) := (writes_setRaw ..).next (.refl _ _)

theorem writes_lanesRestart (s : State) (l : Nat) (hp : ∀ x o, P (lanePage x) o) : Writes P s (s.lanesRestart l) :=
  .each _ (.refl _ _) fun _ x h => .ite h ((writes_laneEvent _ x).next (h.wrsAny (hp x) (by
    simp [allPlaced, Fld.placed, Reg.LQD_LANE_STAT_BLOCK_LOCK, Reg.LQD_LANE_STAT_EMB_LOCK, Reg.LQD_LANE_STAT_UP]
    omega)))

theorem writes_unpark (s : State) (hlane : ∀ x o, P (lanePage x) o) (hlnk : ∀ l o, P (pg .lnk l) o) : Writes P s s.unpark := by
  unfold State.unpark
  refine .each _ (.refl _ _) fun u l h => ?_
  extract_lets lanes v w
  have hv : Writes P s v := by
    unfold v State.setLinkState State.setLnk
    exact .wr (f := Reg.LNK_LINK_STAT_STATE) (.keep ((writes_lanesRestart u l hlane).next h) rfl) (hlnk l _) (by decide)
  have hw : Writes P s w := List.foldlRecOn _ _ (motive := Writes P s) hv fun x hx p hp => by
    refine (writes_loadPage _ _ _ ?_).next hx
    rcases List.mem_cons.1 hp with rfl | hp
    · exact hlnk l
    · obtain ⟨x, -, rfl⟩ := List.mem_map.1 (List.mem_eraseDups.1 hp)
      exact hlane x
  exact .each _ hw fun _ x h => (writes_laneEvent _ x).next h

theorem writes_fuseAdvance (s : State) (n : Nat) (hp : P (pg Blk.sec 0) 256) : Writes P s (s.fuseAdvance n) :=
  .ite (.refl _ _) ((writes_event ..).next (.wr (.keep (.refl _ _) rfl) hp (by decide)))

end

/-! Staging. -/

section
variable {s : State} {t : Nat} {e : SvcEntry}

theorem outstanding_taken (opc : Nat) : ((s.advance t).taken e).outstanding opc = s.outstanding opc := by
  rw [State.outstanding, taken_deferred, State.outstanding]

theorem fwReason_of_rd {u : State} (h : u.rd (pg .sec 0) Reg.SEC_SEC_STAT_FW_SVN = s.rd (pg .sec 0) Reg.SEC_SEC_STAT_FW_SVN) (img : FwImage) :
    u.fwReason img = s.fwReason img := by
  unfold State.fwReason State.fusedSvn
  rw [h]

/-- The state once FW_STAGE has been taken up and STAGED_OK has fallen. -/
def State.unstaged (s : State) (e : SvcEntry) : State := (s.taken e).wr (pg .sec 0) Reg.SEC_SEC_STAT_STAGED_OK 0

theorem unstaged_fwReason (img : FwImage) : ((s.advance t).unstaged e).fwReason img = s.fwReason img :=
  fwReason_of_rd ((rd_wr_field _ _ (by decide) (by decide) (by decide)).trans (taken_rd ..)) img

theorem exec_fwStage (r : Fin 4) (img : FwImage) (h : s.takes r 0x06 e) (hnone : s.outstanding 0x06 = none) :
    exec (.fwStage t r img) s = .next (if s.fwReason img ≠ 0 then
      ((s.advance t).unstaged e).verifyFail.complete e (reasonStatus (s.fwReason img)) 0 0
    else if (((s.advance t).unstaged e).defer e).1 then
      { (((s.advance t).unstaged e).defer e).2 with svc := { (((s.advance t).unstaged e).defer e).2.svc with staging := some img } }
    else (((s.advance t).unstaged e).defer e).2) := by
  show execFwStage t r img s = _
  unfold execFwStage
  simp only [svcTake_of_takes t h, outstanding_taken, hnone, Option.isSome_none, Bool.false_eq_true, if_false]
  have hreason := unstaged_fwReason (s := s) (t := t) (e := e) img
  unfold State.unstaged at *
  rw [hreason]

theorem fwStage_defers (t : Nat) (r : Fin 4) {img : FwImage} (h : s.takes r 0x06 e) (hroom : s.room e) (hnone : s.outstanding 0x06 = none)
    (hok : s.fwReason img = 0) : Gives (.fwStage t r img) s fun u =>
      u.svc.staging = some img ∧ u.svc.deferred = s.svc.deferred ++ [e] ∧ u.rd (pg .sec 0) Reg.SEC_SEC_STAT_STAGED_OK = 0 := by
  refine .of_next (exec_fwStage r img h hnone) ?_
  rw [if_neg (not_not.2 hok), defer_of_room (u := (s.advance t).unstaged e) hroom (taken_deferred (e := e) t), if_pos rfl]
  exact ⟨rfl, rfl, (rd_of_rf (s := (s.advance t).unstaged e) rfl _ _).trans (rd_wr_self ..)⟩

theorem fwStage_refused (t : Nat) (r : Fin 4) {img : FwImage} (h : s.takes r 0x06 e) (hnone : s.outstanding 0x06 = none)
    (hbad : s.fwReason img ≠ 0) : Gives (.fwStage t r img) s fun u => u.svc.compl = s.completed e (reasonStatus (s.fwReason img)) 0 0 ∧
      u.svc.staging = s.svc.staging ∧ u.rd (pg .sec 0) Reg.SEC_SEC_STAT_STAGED_OK = 0 := by
  have hsvc : ((s.advance t).unstaged e).verifyFail.svc = ((s.advance t).taken e).svc := by
    unfold State.verifyFail
    rw [event_svc, (does_bumpSat ..).only .svc (by decide)]
    rfl
  have hrd : ((s.advance t).unstaged e).verifyFail.rd (pg .sec 0) Reg.SEC_SEC_STAT_STAGED_OK = 0 := by
    unfold State.verifyFail State.bumpSat
    rw [rd_event _ _ _ _ (by decide) (by decide), rd_wr_field _ _ (by decide) (by decide) (by decide)]
    exact rd_wr_self ..
  refine .of_next ((exec_fwStage r img h hnone).trans (congrArg _ (if_pos hbad))) ⟨complete_compl ?_ .., ?_, hrd⟩
  · rw [hsvc, taken_compl]
  · refine (congrArg SvcSt.staging hsvc).trans ?_
    rw [State.taken, State.advance_svc]

theorem fwStageDone_gives (t : Nat) {img : FwImage} (h : s.inHand 0x06 = some e) (hst : s.svc.staging = some img) :
    Gives (.fwStageDone t true) s fun u => u.flash = { s.flash with slots := smInsert (1 - s.runSlot) img s.flash.slots } ∧
      u.rd (pg .sec 0) Reg.SEC_FW_VER_OTHER = img.version.toNat ∧ u.rd (pg .sec 0) Reg.SEC_SEC_STAT_STAGED_OK = 1 ∧ u.svc.staging = none ∧
      u.svc.compl = s.completed e .success img.version.toNat 0 := by
  let x : State := { s.advance t with svc := { s.svc with staging := none } }
  have hslot : x.runSlot = s.runSlot := (rd_of_rf (s := s.advance t) rfl ..).trans (advance_rd ..)
  let v : State := { x with flash := { s.flash with slots := smInsert (1 - x.runSlot) img s.flash.slots } }
  let w := v.wrs (pg .sec 0) [(Reg.SEC_FW_VER_OTHER, img.version.toNat), (Reg.SEC_SEC_STAT_STAGED_OK, 1)]
  have hexec : exec (.fwStageDone t true) s = .next ((w.event .sec 0 0).complete e .success img.version.toNat 0) := by
    show execFwStageDone t true s = _
    unfold execFwStageDone
    simp only [inHand_advance, h, State.advance_svc, hst, Bool.not_true, Bool.false_eq_true, if_false, State.advance_flash]
    rfl
  have hsvc : (w.event .sec 0 0).svc = v.svc := by rw [event_svc, (does_wrs ..).only .svc (by decide)]
  have hflash : (w.event .sec 0 0).flash = { s.flash with slots := smInsert (1 - s.runSlot) img s.flash.slots } := by
    rw [event_flash, (does_wrs ..).only .flash (by decide), ← hslot]
  have hrd {f : Fld} {x : Nat} (hf : f.placed) (he : evReg (pg .sec 0) f.off = false) (hw : w.rd (pg .sec 0) f = x) :
      (w.event .sec 0 0).rd (pg .sec 0) f = x := (rd_event _ _ _ _ hf he).trans hw
  refine .of_next hexec ⟨hflash, hrd (by decide) (by decide) ((rd_wrs_eq _ rfl (by decide) rfl).trans (Nat.mod_eq_of_lt img.version.isLt)),
    hrd (by decide) (by decide) (rd_wrs_eq _ rfl (by decide) rfl), congrArg SvcSt.staging hsvc, complete_compl (congrArg SvcSt.compl hsvc) ..⟩

/-! Activating, and what a restart of the service controller leaves. -/

/-- Raising the fused security version reaches the version fuses, the events and FLASH alone. -/
theorem rd_fuseAdvance (u : State) (n : Nat) {p : Nat} {f : Fld} (hf : f.placed) (he : evReg p f.off = false) (hne : p ≠ pg .sec 0 ∨ f.off ≠ 256) :
    (u.fuseAdvance n).rd p f = u.rd p f :=
  (writes_fuseAdvance (P := fun q o => ¬ (q = p ∧ o = f.off)) u n (by rintro ⟨h, h'⟩; exact hne.elim (· h.symm) (· h'.symm))).reads p f hf he
    (not_not.2 ⟨rfl, rfl⟩)

theorem rd_serviceRestart (u : State) (f : Fld) (hf : f.placed) :
    u.serviceRestart.rd (pg .sec 0) f = u.rd (pg .sec 0) f := by
  unfold State.serviceRestart
  extract_lets s₁ s₂ s₃
  calc s₃.rd (pg .sec 0) f
      = s₂.rd (pg .sec 0) f := rd_wrs_page _ hf (by rfl) (by decide)
    _ = s₁.rd (pg .sec 0) f := rd_wr_page _ _ (by decide) hf (by decide)
    _ = u.rd (pg .sec 0) f := rd_wr_page _ _ (by decide) hf (by decide)

theorem serviceRestart_restart (u : State) : u.serviceRestart.svc.restart = u.svc.restart := rfl

/-- The state in which the image to activate has been read. -/
def State.readBack (s : State) (e : SvcEntry) (flash : Option FwImage) : State := (s.taken e).slotReads (1 - (s.taken e).runSlot) flash

theorem slotReads_rf (u : State) (x : Nat) (flash : Option FwImage) : (u.slotReads x flash).rf = u.rf := by
  cases flash <;> rfl

theorem readBack_rd (flash : Option FwImage) (p : Nat) (f : Fld) : ((s.advance t).readBack e flash).rd p f = s.rd p f :=
  (rd_of_rf (slotReads_rf ..) p f).trans (taken_rd ..)

theorem taken_runSlot : ((s.advance t).taken e).runSlot = s.runSlot := taken_rd ..

theorem readBack_slotImage (flash : Option FwImage) (x : Nat) :
    ((s.advance t).readBack e flash).slotImage x = (s.slotReads (1 - s.runSlot) flash).slotImage x := by
  have hflash : ((s.advance t).taken e).flash = s.flash := by rw [State.taken, State.advance_flash]
  unfold State.slotImage State.readBack
  rw [taken_runSlot]
  cases flash
  · exact congrArg (fun l => (smFind x l).getD _) (congrArg FlashSt.slots hflash)
  · exact congrArg (fun l => (smFind x (smInsert _ _ l)).getD _) (congrArg FlashSt.slots hflash)

theorem readBack_fwReason (flash : Option FwImage) (img : FwImage) :
    ((s.advance t).readBack e flash).fwReason img = (s.slotReads (1 - s.runSlot) flash).fwReason img :=
  fwReason_of_rd ((readBack_rd ..).trans (rd_of_rf (slotReads_rf ..) ..).symm) img

/-- What FW_ACTIVATE leaves before the service controller restarts. -/
def State.activated (s : State) (e : SvcEntry) (x : Nat) : State :=
  let u := (s.selectorWrite x).fuseAdvance (s.slotImage x).svn.toNat
  { u with svc := { u.svc with restart := some e, restartStatus := 0 } }

theorem rd_flash (w : State) (g : FlashSt) (p : Nat) (f : Fld) : ({ w with flash := g } : State).rd p f = w.rd p f := rd_of_rf rfl ..

theorem selectorWrite_slot (u : State) (x : Nat) : (u.selectorWrite x).rd (pg .sec 0) Reg.SEC_SEL_STAT_SLOT = Reg.SEC_SEL_STAT_SLOT.cut x := by
  rw [State.selectorWrite, rd_flash, State.wrs, List.foldl_cons, List.foldl_cons, List.foldl_cons, List.foldl_nil, Fld.cut]
  exact rd_wr_self ..

theorem activated_slot (u : State) (x : Nat) : (u.activated e x).rd (pg .sec 0) Reg.SEC_SEL_STAT_SLOT = Reg.SEC_SEL_STAT_SLOT.cut x := by
  unfold State.activated
  extract_lets v
  refine (rd_of_rf (s := v) rfl ..).trans ((rd_fuseAdvance _ _ (by decide) (by decide) (.inr (by decide))).trans ?_)
  exact selectorWrite_slot u x

theorem exec_fwActivate (r : Fin 4) (flash : Option FwImage) (h : s.takes r 0x07 e) (hstaged : s.on (pg .sec 0) Reg.SEC_SEC_STAT_STAGED_OK = true)
    (h2 : s.outstanding 0x02 = none) (h5 : s.outstanding 0x05 = none) (h6 : s.outstanding 0x06 = none)
    (hok : (s.slotReads (1 - s.runSlot) flash).fwReason ((s.slotReads (1 - s.runSlot) flash).slotImage (1 - s.runSlot)) = 0) :
    exec (.fwActivate t r flash) s = .next (((s.advance t).readBack e flash).activated e (1 - s.runSlot)).serviceRestart := by
  have hon : ((s.advance t).taken e).on (pg .sec 0) Reg.SEC_SEC_STAT_STAGED_OK = true := by rw [State.on, taken_rd]; exact hstaged
  have hreason : ((s.advance t).readBack e flash).fwReason (((s.advance t).readBack e flash).slotImage (1 - s.runSlot)) = 0 := by
    rw [readBack_slotImage, readBack_fwReason, hok]
  show execFwActivate t r flash s = _
  unfold execFwActivate
  simp only [svcTake_of_takes t h, hon, outstanding_taken, h2, h5, h6, List.any_cons, List.any_nil, Option.isSome_none, Bool.or_self, Bool.not_true,
    Bool.false_eq_true, if_false, taken_runSlot]
  unfold State.readBack at hreason ⊢
  rw [taken_runSlot] at hreason ⊢
  exact congrArg Host.Outcome.next (if_neg (not_not.2 hreason))

theorem fwActivate_gives (t : Nat) (r : Fin 4) (flash : Option FwImage) (h : s.takes r 0x07 e)
    (hstaged : s.on (pg .sec 0) Reg.SEC_SEC_STAT_STAGED_OK = true) (h2 : s.outstanding 0x02 = none) (h5 : s.outstanding 0x05 = none)
    (h6 : s.outstanding 0x06 = none)
    (hok : (s.slotReads (1 - s.runSlot) flash).fwReason ((s.slotReads (1 - s.runSlot) flash).slotImage (1 - s.runSlot)) = 0) :
    Gives (.fwActivate t r flash) s fun u => u.svc.restart = some e ∧ u.svc.restarting = true ∧
      u.rd (pg .sec 0) Reg.SEC_SEL_STAT_SLOT = Reg.SEC_SEL_STAT_SLOT.cut (1 - s.runSlot) ∧ u.rd (pg .glb 0) Reg.GLB_BOOT_STAT_READY = 0 := by
  refine .of_next (exec_fwActivate r flash h hstaged h2 h5 h6 hok) ⟨?_, (serviceRestart_restarts _).1, ?_, (serviceRestart_restarts _).2⟩
  · rw [serviceRestart_restart, State.activated]
  · rw [rd_serviceRestart _ _ (by decide), activated_slot]

theorem serviceRestart_gives (t : Nat) (r : Fin 4) (h : s.takes r 0x3F e) : Gives (.serviceRestart t r) s fun u => u.svc.restart = some e ∧
    u.svc.restarting = true ∧ u.rd (pg .glb 0) Reg.GLB_BOOT_STAT_READY = 0 := by
  have hexec : exec (.serviceRestart t r) s =
      .next ({ (s.advance t).taken e with svc := { ((s.advance t).taken e).svc with restart := some e } } : State).serviceRestart := by
    show execServiceRestart t r s = _
    unfold execServiceRestart
    simp only [svcTake_of_takes t h]
  exact .of_next hexec ⟨serviceRestart_restart _, (serviceRestart_restarts _).1, (serviceRestart_restarts _).2⟩


/-! The end of a restart. -/

section
variable {u w : State}

/-- What completing a list of commands leaves of the service controller. -/
structure Aborts (u : State) (l : List SvcEntry) (w : State) : Prop where
  rf : w.rf = u.rf
  fetched : w.svc.fetched = u.svc.fetched
  none : u.svc.deferred = [] → w.svc.deferred = []
  restarting : w.svc.restarting = u.svc.restarting
  kept : ∀ r ∈ u.svc.compl, r ∈ w.svc.compl
  said : ∀ e ∈ l, ⟨e.ring, e.cmd.cid.toNat, e.head, SvcStatus.aborted.code, 0, 0⟩ ∈ w.svc.compl

theorem aborts_each (l : List SvcEntry) (u : State) : Aborts u l (u.each l (fun s e => s.complete e .aborted 0 0)) := by
  induction l generalizing u with
  | nil => exact ⟨rfl, rfl, id, rfl, fun _ h => h, fun _ h => absurd h List.not_mem_nil⟩
  | cons e l ih =>
    rw [each_cons]
    obtain ⟨hrf, hfetched, hnone, hrestarting, hkept, hsaid⟩ := ih (u.complete e .aborted 0 0)
    refine ⟨hrf, hfetched, fun h => hnone ?_, hrestarting, fun r h => hkept r (List.mem_append_left _ h), fun x h => ?_⟩
    · exact (congrArg (List.erase · e) h).trans (List.erase_nil _)
    · rcases List.mem_cons.1 h with rfl | h
      · exact hkept _ (List.mem_append_right _ (List.mem_singleton.2 rfl))
      · exact hsaid x h

/-- What aborting the commands in hand leaves. -/
structure Aborted (u w : State) : Prop where
  ready : w.rd (pg .glb 0) Reg.GLB_BOOT_STAT_READY = u.rd (pg .glb 0) Reg.GLB_BOOT_STAT_READY
  fetched : w.svc.fetched = []
  deferred : w.svc.deferred = []
  restarting : w.svc.restarting = u.svc.restarting
  said : ∀ e ∈ u.svc.deferred ++ u.svc.fetched, ⟨e.ring, e.cmd.cid.toNat, e.head, SvcStatus.aborted.code, 0, 0⟩ ∈ w.svc.compl

theorem aborted_abortCommands (u : State) : Aborted u u.abortCommands := by
  let P : Nat → Nat → Prop := fun q _ => q ≠ pg .glb 0
  unfold State.abortCommands
  extract_lets l loading _ s₁ _ s₂ s₃ _ s₄ s₅
  have hlane : ∀ x o : Nat, P (lanePage x) o := fun x _ => by simp [P, lanePage, pg, firstPage]
  have hlnk : ∀ i o : Nat, P (pg .lnk i) o := fun i _ => by simp [P, pg, firstPage]
  have hw : Writes P u s₅ := by
    refine .via s₁ (.keep (.refl _ _) rfl) fun h₁ => ?_
    refine .via s₂ (.keep h₁ rfl) fun h₂ => ?_
    refine .via s₃ (.ite ((writes_unpark _ hlane hlnk).next h₂) h₂) fun h₃ => ?_
    refine .via s₄ (.keep h₃ rfl) fun h₄ => ?_
    exact .ite ((writes_event ..).next (.wr h₄ (by decide) (by decide))) h₄
  have hsvc : s₅.svc = s₁.svc := by
    have d₃ : Does (eventedAnd [.ing]) s₂ s₃ := .ite (does_unpark ..) (.refl _ _)
    have d₅ : Does evented s₄ s₅ := .ite ((does_event ..).next ((does_wr ..).next (.refl _ _) rfl) rfl) (.refl _ _)
    have h₃ : s₃.svc = s₁.svc := d₃.only .svc (by decide)
    have h₅ : s₅.svc = s₄.svc := d₅.only .svc (by decide)
    exact h₅.trans h₃
  obtain ⟨hrf, hfetched, hnone, hrestarting, -, hsaid⟩ := aborts_each l s₅
  rw [hsvc] at hfetched hnone hrestarting
  refine ⟨(rd_of_rf hrf ..).trans (hw.reads _ _ (by decide) (by decide) (not_not.2 rfl)), hfetched, hnone rfl, hrestarting, fun e h => hsaid e ?_⟩
  rcases List.mem_append.1 h with h | h
  · exact List.mem_append_left _ (List.mem_append_left _ h)
  · exact List.mem_append_right _ h

end


section
variable {s : State}

/-- The service controller as it stands when its restart is over, with the commands in hand aborted. -/
def State.restarted (s : State) : State :=
  let u : State := { s with
    svc := { s.svc with restarting := false, restart := none, restartStatus := 0 }
    mem := { s.mem with migPaused := false, migLast := [] }
    boot := { s.boot with readyAt := s.tick } }
  (((u.wr (pg .glb 0) Reg.GLB_BOOT_STAT_READY 1).scKick).fuseReady.abortCommands).event .svc 0 5

/-- The restart's own command, completed. -/
def State.ownCompleted (s : State) (own : Option SvcEntry) (st : Nat) : State :=
  match own with
  | none => s
  | some e =>
    if e.cmd.opc = 0x07 then
      let s := if st = 0 then s.event .sec 0 2 else s
      s.complete e (reasonStatus st) (s.rd (pg .sec 0) Reg.SEC_FW_VER_RUNNING) 0
    else s.complete e .success 0 0

theorem exec_serviceRestartReady (t : Nat) (hr : s.svc.restarting = true) (hv : s.boot.verified = true) :
    exec (.serviceRestartReady t) s = .next ((s.advance t).restarted.ownCompleted s.svc.restart s.svc.restartStatus) := by
  have hwaits : (!(s.advance t).svc.restarting || !(s.advance t).boot.verified) = false := by
    rw [State.advance_svc, State.advance_boot, hr, hv]
    rfl
  have hsvc : (s.advance t).svc = s.svc := State.advance_svc ..
  refine congrArg Host.Outcome.next ((if_neg (by rw [hwaits]; decide)).trans ?_)
  rw [← hsvc]
  unfold State.ownCompleted State.restarted
  generalize s.advance t = u
  cases u.svc.restart <;> rfl

/-- What the end of a restart leaves before its own command completes. -/
structure Restarted (s w : State) : Prop where
  ready : w.rd (pg .glb 0) Reg.GLB_BOOT_STAT_READY = 1
  fetched : w.svc.fetched = []
  deferred : w.svc.deferred = []
  restarting : w.svc.restarting = false
  said : ∀ e ∈ s.svc.deferred ++ s.svc.fetched, ⟨e.ring, e.cmd.cid.toNat, e.head, SvcStatus.aborted.code, 0, 0⟩ ∈ w.svc.compl

theorem restarted_restarted (s : State) : Restarted s s.restarted := by
  let u : State := { s with
    svc := { s.svc with restarting := false, restart := none, restartStatus := 0 }
    mem := { s.mem with migPaused := false, migLast := [] }
    boot := { s.boot with readyAt := s.tick } }
  let v := u.wr (pg .glb 0) Reg.GLB_BOOT_STAT_READY 1
  show Restarted s (v.scKick.fuseReady.abortCommands.event .svc 0 5)
  obtain ⟨hready, hfetched, hdeferred, hrestarting, hsaid⟩ := aborted_abortCommands v.scKick.fuseReady
  have hsvc : v.scKick.fuseReady.svc = u.svc := (does_fuseReady ..).only .svc (by decide)
  rw [hsvc] at hrestarting hsaid
  refine ⟨?_, ?_, ?_, ?_, ?_⟩
  · rw [rd_event _ _ _ _ (by decide) (by decide), hready]
    exact (rd_fuseAdvance _ _ (by decide) (by decide) (.inl (by decide))).trans ((rd_of_rf (s := v) rfl ..).trans (rd_wr_self ..))
  all_goals rw [event_svc]
  · exact hfetched
  · exact hdeferred
  · exact hrestarting
  · exact hsaid

/-- The restart's own command joins the completions and changes nothing else of the service controller. -/
theorem restarted_ownCompleted {w : State} (own : Option SvcEntry) (st : Nat) (h : Restarted s w) : Restarted s (w.ownCompleted own st) := by
  obtain ⟨hready, hfetched, hdeferred, hrestarting, hsaid⟩ := h
  have hcomplete (v : State) (e : SvcEntry) (c : SvcStatus) (a : Nat) (hrd : v.rd (pg .glb 0) Reg.GLB_BOOT_STAT_READY = 1) (hsvc : v.svc = w.svc) :
      Restarted s (v.complete e c a 0) := by
    refine ⟨hrd, ?_, ?_, ?_, fun x hx => List.mem_append_left _ ?_⟩
    · exact (congrArg SvcSt.fetched hsvc).trans hfetched
    · refine (congrArg (List.erase · e) ((congrArg SvcSt.deferred hsvc).trans hdeferred)).trans (List.erase_nil _)
    · exact (congrArg SvcSt.restarting hsvc).trans hrestarting
    · rw [hsvc]
      exact hsaid x hx
  unfold State.ownCompleted
  split
  · exact ⟨hready, hfetched, hdeferred, hrestarting, hsaid⟩
  split
  · dsimp only
    split
    · exact hcomplete _ _ _ _ ((rd_event _ _ _ _ (by decide) (by decide)).trans hready) (event_svc ..)
    · exact hcomplete _ _ _ _ hready rfl
  · exact hcomplete _ _ _ _ hready rfl

theorem serviceRestartReady_gives (t : Nat) (hr : s.svc.restarting = true) (hv : s.boot.verified = true) : Gives (.serviceRestartReady t) s fun u =>
    u.svc.restarting = false ∧ u.rd (pg .glb 0) Reg.GLB_BOOT_STAT_READY = 1 ∧ u.svc.fetched = [] ∧ u.svc.deferred = [] ∧
      ∀ e ∈ s.svc.deferred ++ s.svc.fetched, ⟨e.ring, e.cmd.cid.toNat, e.head, SvcStatus.aborted.code, 0, 0⟩ ∈ u.svc.compl := by
  obtain ⟨hready, hfetched, hdeferred, hrestarting, hsaid⟩ :=
    restarted_ownCompleted s.svc.restart s.svc.restartStatus (restarted_restarted (s.advance t))
  rw [State.advance_svc] at hsaid
  exact .of_next (exec_serviceRestartReady t hr hv) ⟨hrestarting, hready, hfetched, hdeferred, hsaid⟩

theorem serviceRestartReady_succeeds (t : Nat) {e : SvcEntry} (hr : s.svc.restarting = true) (hv : s.boot.verified = true)
    (hown : s.svc.restart = some e) (hopc : e.cmd.opc = 0x3F) : Gives (.serviceRestartReady t) s fun u =>
      u.svc.compl.getLast? = some ⟨e.ring, e.cmd.cid.toNat, e.head, SvcStatus.success.code, 0, 0⟩ := by
  refine .of_next (exec_serviceRestartReady t hr hv) ?_
  rw [hown, State.ownCompleted, if_neg (by rw [hopc]; decide)]
  exact List.getLast?_concat

end

/-- Settles O20: READY, once the restart has set it, stands through the unparking of an abandoned load's links, which reaches link and lane pages. -/
theorem firmwareCommandsComplete : Obligations.FirmwareCommandsComplete :=
  ⟨fun t r _ _ _ h hroom hnone hok => fwStage_defers t r h hroom hnone hok, fun t r _ _ _ h hnone hbad => fwStage_refused t r h hnone hbad,
    fun t _ _ _ h hst => fwStageDone_gives t h hst, fun t r flash _ _ h hst h2 h5 h6 hok => fwActivate_gives t r flash h hst h2 h5 h6 hok,
    fun t r _ _ h => serviceRestart_gives t r h, fun t _ hr hv => serviceRestartReady_gives t hr hv,
    fun t _ _ hr hv hown hopc => serviceRestartReady_succeeds t hr hv hown hopc⟩

end

end Sys2Proof.Machine
end

section
/-!
PROOF. Display links: hot-plug, training attempts and their outcomes, and AUX transactions (R371, R372, R393).
-/
namespace Sys2Proof.Machine

section
variable (s : State) (h : Nat)

theorem dspHead_of_dsp {s u : State} (e : u.dsp = s.dsp) (h : Nat) : u.dspHead h = s.dspHead h := by rw [State.dspHead, e, State.dspHead]

theorem dspHead_advance (t : Nat) : (s.advance t).dspHead h = s.dspHead h := dspHead_of_dsp (State.advance_dsp ..) h

@[simp] theorem dspHead_setDspHead (d : DspHead) : (s.setDspHead h d).dspHead h = d := smGet_set_self ..

theorem rd_setDspHead (d : DspHead) (p : Nat) (f : Fld) : (s.setDspHead h d).rd p f = s.rd p f := rd_of_rf rfl ..

theorem dspA_of_rf {s u : State} (e : u.rf = s.rf) (h : Nat) (f : Fld) : u.dspA h f = s.dspA h f := by
  rw [State.dspA, State.rdA, e, State.dspA, State.rdA]

theorem dspA_advance (t : Nat) (f : Fld) : (s.advance t).dspA h f = s.dspA h f := dspA_of_rf (State.advance_rf ..) h f

/-- The registers of a head's page from 0x180 on show no events. -/
theorem evReg_dsp (h : Fin 2) {off : Nat} (ho : off ∈ [0x180, 0x1b0, 0x1c8, 0x1d8, 0x1e0]) : evReg (pg .dsp h) off = false := by
  revert h off
  decide

theorem rd_linkFailed (h : Fin 2) (b : Bool) {f : Fld} (hf : f.placed) (ho : f.off ∈ [0x180, 0x1b0, 0x1c8, 0x1d8, 0x1e0])
    (hne : ¬(f.off = 0x1c8 ∧ f.lo = 2)) : (s.linkFailed h b).rd (pg .dsp h) f = s.rd (pg .dsp h) f :=
  (rd_setRaw _ _ _ hf (evReg_dsp h ho)).trans (rd_wr_field _ _ (by decide) hf hne)

theorem rd_linkFailed_failed (h : Fin 2) (b : Bool) : (s.linkFailed h b).rd (pg .dsp h) Reg.DSP_LINK_STAT_FAILED = b2n b := by
  refine (rd_setRaw _ _ _ (by decide) (evReg_dsp h (by decide))).trans ((rd_wr_self ..).trans ?_)
  cases b <;> rfl

theorem dspHead_linkFailed (b : Bool) : (s.linkFailed h b).dspHead h = s.dspHead h :=
  dspHead_of_dsp ((setRaw_dsp ..).trans (State.wr_dsp ..)) h

/-- The link given up: what is left of the link's registers. -/
theorem rd_unlink (counts : Bool) {f : Fld} (hf : f.placed)
    (hne : ∀ g ∈ [Reg.DSP_LINK_STAT_TRAINED, Reg.DSP_HEAD_STAT_VIDEO, Reg.DSP_LINK_STAT_RETRAIN_CNT], ¬(f.off = g.off ∧ f.lo = g.lo)) :
    (s.unlink h counts).rd (pg .dsp h) f = s.rd (pg .dsp h) f := by
  simp only [List.forall_mem_cons, List.not_mem_nil, false_implies, implies_true, and_true] at hne
  obtain ⟨htrained, hvideo, hcount⟩ := hne
  unfold State.unlink
  extract_lets p v d w
  have hv : v.rd p f = s.rd p f := (rd_wr_field _ _ (by decide) hf hvideo).trans (rd_wr_field _ _ (by decide) hf htrained)
  have hw : w.rd p f = s.rd p f := (rd_setDspHead ..).trans hv
  cases counts
  · exact hw
  · exact (rd_wr_field _ _ (by decide) hf hcount).trans hw

theorem rd_unlink_trained (counts : Bool) : (s.unlink h counts).rd (pg .dsp h) Reg.DSP_LINK_STAT_TRAINED = 0 := by
  unfold State.unlink
  extract_lets p v d w
  have hw : w.rd p Reg.DSP_LINK_STAT_TRAINED = 0 := (rd_setDspHead ..).trans (rd_wrs_eq _ rfl (by decide) rfl)
  cases counts
  · exact hw
  · exact (rd_wr_field _ _ (by decide) (by decide) (by decide)).trans hw

/-- An AUX transaction that starts changes no register. -/
theorem rd_auxStart (p : Nat) (f : Fld) : (s.auxStart h).rd p f = s.rd p f := rd_of_rf rfl ..

theorem auxStart_head : (s.auxStart h).dspHead h = { s.dspHead h with auxWait := false } := dspHead_setDspHead ..

theorem blkOf_dsp : ∀ h : Fin 2, blkOf (pg .dsp h) = some .dsp := by decide

theorem headRuns_advance {s : State} (h : Fin 2) (t : Nat) (hr : s.headRuns h = true) : (s.advance t).headRuns h = true :=
  working_advance (b := .dsp) (blkOf_dsp h) rfl t hr

theorem mayTrain_advance {s : State} (h : Fin 2) (t : Nat) (hm : s.mayTrain h = true) : (s.advance t).mayTrain h = true := by
  simp only [State.mayTrain, Bool.and_eq_true] at hm ⊢
  obtain ⟨⟨⟨hr, hhpd⟩, htr⟩, hwant⟩ := hm
  refine ⟨⟨⟨headRuns_advance h t hr, ?_⟩, ?_⟩, ?_⟩
  · rwa [on_advance]
  · rwa [dspHead_advance]
  · simpa only [on_advance] using hwant

end

section
variable {s : State}

/-! Hot-plug. -/

theorem rd_hpdEvent (u : State) (h : Fin 2) (k : Nat) : (u.event .dsp h k).rd (pg .dsp h) Reg.DSP_LINK_STAT_HPD = u.rd (pg .dsp h) Reg.DSP_LINK_STAT_HPD :=
  rd_event _ _ _ _ (by decide) (evReg_dsp h (by decide))

theorem hpdChange_gives (t : Nat) (h : Fin 2) (level lostLock : Bool) (hne : s.on (pg .dsp h) Reg.DSP_LINK_STAT_HPD ≠ level) :
    Gives (.hpdChange t h level lostLock) s fun u => u.rd (pg .dsp h) Reg.DSP_LINK_STAT_HPD = b2n level := by
  have hunlink (u : State) : (u.unlink h true).rd (pg .dsp h) Reg.DSP_LINK_STAT_HPD = u.rd (pg .dsp h) Reg.DSP_LINK_STAT_HPD :=
    rd_unlink u h true (by decide) (by decide)
  refine .of_next rfl ?_
  dsimp only
  rw [on_advance, if_neg (by simpa using hne)]
  cases level
  · rw [if_pos (by rfl), rd_hpdEvent, rd_setDspHead, rd_wr_self]
    rfl
  · rw [if_neg (by decide)]
    generalize hv : ((s.advance t).wr (pg .dsp h) Reg.DSP_LINK_STAT_HPD 1).event .dsp h 9 = v
    have hrd : v.rd (pg .dsp h) Reg.DSP_LINK_STAT_HPD = 1 := by rw [← hv, rd_hpdEvent, rd_wr_self]; rfl
    split
    · rw [rd_setDspHead, State.when]
      split
      · exact (hunlink _).trans hrd
      · exact hrd
    split
    · exact (rd_hpdEvent ..).trans ((hunlink _).trans hrd)
    · exact hrd

/-! Training. -/

theorem linkTrainAttempt_starts (t : Nat) (h : Fin 2) (sinkRate : Fin 4) (sinkLanes : Fin 3) (hm : s.mayTrain h = true)
    (hw : (s.dspHead h).waiting = false) (hable : s.dspA h Reg.DSP_LINK_CFG_RATE ≤ sinkRate.val ∧ s.dspA h Reg.DSP_LINK_CFG_LANES ≤ sinkLanes.val) :
    Gives (.linkTrainAttempt t h sinkRate sinkLanes) s fun u => (u.dspHead h).training = true ∧ u.rd (pg .dsp h) Reg.DSP_LINK_STAT_TRAINED = 0 := by
  refine .of_next rfl ?_
  dsimp only
  rw [mayTrain_advance h t hm, dspHead_advance, hw, if_neg (by decide), dspA_advance, dspA_advance, if_neg (by omega)]
  refine ⟨congrArg DspHead.training (dspHead_setDspHead ..), ?_⟩
  rw [rd_setDspHead, rd_wr_self]
  rfl

theorem linkTrainAttempt_fails (t : Nat) (h : Fin 2) (sinkRate : Fin 4) (sinkLanes : Fin 3) (hm : s.mayTrain h = true)
    (hw : (s.dspHead h).waiting = false) (hbeyond : sinkRate.val < s.dspA h Reg.DSP_LINK_CFG_RATE ∨ sinkLanes.val < s.dspA h Reg.DSP_LINK_CFG_LANES) :
    Gives (.linkTrainAttempt t h sinkRate sinkLanes) s fun u =>
      u.rd (pg .dsp h) Reg.DSP_LINK_STAT_FAILED = 1 ∧ (u.dspHead h).training = (s.dspHead h).training := by
  refine .of_next rfl ?_
  dsimp only
  rw [mayTrain_advance h t hm, dspHead_advance, hw, if_neg (by decide), dspA_advance, dspA_advance, if_pos hbeyond]
  refine ⟨rd_linkFailed_failed .., ?_⟩
  rw [dspHead_linkFailed, dspHead_of_dsp (State.wr_dsp ..), dspHead_setDspHead]

/-- An AUX transaction that training has held goes on. -/
theorem held_auxStart (u : State) (h : Nat) (b : Bool) : ((u.when b (fun s => s.auxStart h)).dspHead h).training = (u.dspHead h).training ∧
    ((u.when b (fun s => s.auxStart h)).dspHead h).attempts = (u.dspHead h).attempts ∧ ∀ p f, (u.when b (fun s => s.auxStart h)).rd p f = u.rd p f := by
  cases b
  · exact ⟨rfl, rfl, fun _ _ => rfl⟩
  · refine ⟨?_, ?_, rd_auxStart u h⟩
    · exact (congrArg DspHead.training (auxStart_head u h)).trans rfl
    · exact (congrArg DspHead.attempts (auxStart_head u h)).trans rfl

theorem linkTrainDone_trained (t : Nat) (h : Fin 2) (htr : (s.dspHead h).training = true)
    (hin : (s.advance t).tick ≤ (s.dspHead h).trainAt + 32000000) : Gives (.linkTrainDone t h true) s fun u => (u.dspHead h).training = false ∧
      u.rd (pg .dsp h) Reg.DSP_LINK_STAT_TRAINED = 1 ∧ u.rd (pg .dsp h) Reg.DSP_LINK_STAT_FAILED = 0 ∧
      u.rd (pg .dsp h) Reg.DSP_LINK_STAT_RATE_ACT = Reg.DSP_LINK_STAT_RATE_ACT.cut (s.dspA h Reg.DSP_LINK_CFG_RATE) := by
  refine .of_next rfl ?_
  dsimp only
  rw [dspHead_advance, htr, if_neg (by decide), Bool.true_and, if_pos (decide_eq_true hin)]
  generalize (s.dspHead h).auxWait = b
  rw [(held_auxStart ..).1, (held_auxStart ..).2.2, (held_auxStart ..).2.2, (held_auxStart ..).2.2, dspHead_linkFailed, dspHead_of_dsp ((does_wrs ..).only .dsp (by decide)),
    dspHead_setDspHead, rd_linkFailed_failed]
  refine ⟨rfl, ?_, rfl, ?_⟩
  all_goals refine (rd_linkFailed _ _ _ (by decide) (by decide) (by decide)).trans ((rd_wrs_eq _ rfl (by decide) rfl).trans ?_)
  · rfl
  · exact congrArg (Fld.cut _) ((dspA_of_rf (s := s.advance t) rfl ..).trans (dspA_advance ..))

theorem linkTrainDone_untrained (t : Nat) (h : Fin 2) (htr : (s.dspHead h).training = true) : Gives (.linkTrainDone t h false) s fun u =>
    (u.dspHead h).training = false ∧ (if (s.dspHead h).attempts + 1 < 5 then (u.dspHead h).attempts = (s.dspHead h).attempts + 1
      else u.rd (pg .dsp h) Reg.DSP_LINK_STAT_FAILED = 1) := by
  refine .of_next rfl ?_
  dsimp only
  rw [dspHead_advance, htr, if_neg (by decide), Bool.false_and, if_neg (by decide)]
  generalize (s.dspHead h).auxWait = b
  split
  next =>
    rw [(held_auxStart ..).1, (held_auxStart ..).2.1, dspHead_setDspHead]
    exact ⟨rfl, rfl⟩
  next =>
    rw [(held_auxStart ..).1, (held_auxStart ..).2.2, dspHead_linkFailed, dspHead_of_dsp (State.wr_dsp ..), dspHead_setDspHead]
    exact ⟨rfl, rd_linkFailed_failed ..⟩

theorem linkTrainRetry_gives (t : Nat) (h : Fin 2) (hm : s.mayTrain h = true) (hw : (s.dspHead h).waiting = true)
    (hdue : (s.dspHead h).failedAt + 1600000000 ≤ (s.advance t).tick) : Gives (.linkTrainRetry t h) s fun u =>
      u.dspHead h = { s.dspHead h with waiting := false, attempts := 4 } := by
  refine .of_next rfl ?_
  dsimp only
  rw [mayTrain_advance h t hm, dspHead_advance, hw, if_neg (by simpa using hdue), dspHead_setDspHead]

/-! The head's control register. -/

theorem headRetrain_gives (t : Nat) (h : Fin 2) (hopen : s.hostOpen (pg .dsp h)) (hidle : s.on (pg .dsp h) Reg.DSP_HEAD_CTL_RETRAIN = false) :
    Gives (.headRetrain t h) s fun u => u.rd (pg .dsp h) Reg.DSP_HEAD_CTL_RETRAIN = 1 ∧ u.on (pg .dsp h) Reg.DSP_LINK_STAT_TRAINED = false := by
  refine .of_next rfl ?_
  rw [hosted_of_open (hostOpen_advance t hopen)]
  unfold State.headCtl
  extract_lets p v d w
  have hv : v = s.advance t := if_neg (by decide)
  have hw : w.rd p Reg.DSP_HEAD_CTL_RETRAIN = 1 := (rd_setDspHead ..).trans ((rd_wr_self ..).trans rfl)
  rw [if_neg (by rw [hv, on_advance, hidle]; decide)]
  split
  · refine ⟨(rd_unlink w h true (by decide) (by decide)).trans hw, ?_⟩
    rw [State.on, rd_unlink_trained]
    rfl
  next hoff => exact ⟨hw, Bool.eq_false_iff.2 hoff⟩

theorem headClr_gives (t : Nat) (h : Fin 2) (hopen : s.hostOpen (pg .dsp h)) : Gives (.headClr t h) s fun u =>
    ∀ f ∈ [Reg.DSP_HEAD_STAT_UNDERRUN_CNT, Reg.DSP_HEAD_STAT_DEFER_CNT, Reg.DSP_HEAD_STAT_GAMMA_REJ, Reg.DSP_LINK_STAT_RETRAIN_CNT],
      u.rd (pg .dsp h) f = 0 := by
  refine .of_next rfl ?_
  rw [hosted_of_open (hostOpen_advance t hopen)]
  unfold State.headCtl
  extract_lets p v w
  rw [if_pos (by rfl)]
  simp only [List.forall_mem_cons, List.not_mem_nil, false_implies, implies_true, and_true]
  exact ⟨rd_wrs_eq _ rfl (by decide) rfl, rd_wrs_eq _ rfl (by decide) rfl, rd_wrs_eq _ rfl (by decide) rfl, rd_wrs_eq _ rfl (by decide) rfl⟩

/-! AUX transactions. -/

theorem auxWord_fields (i2c read : Bool) {n a : Nat} (hn : n < 16) (ha : a < 2 ^ 20) : bit (auxWord i2c read n a) 61 = b2n read ∧
    bit (auxWord i2c read n a) 62 = b2n i2c ∧ bits (auxWord i2c read n a) 59 56 = n ∧ bits (auxWord i2c read n a) 19 0 = a ∧
    bit (auxWord i2c read n a) 63 = 1 := by
  cases i2c <;> cases read <;> simp only [auxWord, bit, bits, b2n, if_true, if_false, Bool.false_eq_true] <;> omega

theorem auxGo_gives (t : Nat) (h : Fin 2) (i2c read : Bool) (lenM1 : Fin 16) (addr : BitVec 20) (hopen : s.hostOpen (pg .dsp h))
    (hidle : s.on (pg .dsp h) Reg.DSP_AUX_CTL_GO = false) : Gives (.auxGo t h i2c read lenM1 addr) s fun u => u.rd (pg .dsp h) Reg.DSP_AUX_CTL_GO = 1 ∧
      u.rd (pg .dsp h) Reg.DSP_AUX_CTL_ADDR = addr.toNat ∧ u.rd (pg .dsp h) Reg.DSP_AUX_CTL_LEN_M1 = lenM1.val ∧
      u.rd (pg .dsp h) Reg.DSP_AUX_CTL_READ = b2n read ∧ u.rd (pg .dsp h) Reg.DSP_AUX_CTL_I2C = b2n i2c := by
  obtain ⟨hread, hi2c, hlen, haddr, hgo⟩ := auxWord_fields i2c read lenM1.isLt addr.isLt
  refine .of_next rfl ?_
  rw [hosted_of_open (hostOpen_advance t hopen), State.auxCtl]
  generalize auxWord i2c read lenM1 addr.toNat = w at *
  rw [on_advance, hidle, if_neg (by decide), hgo, if_neg (by decide), hread, hi2c, hlen, haddr]
  generalize hv : ((s.advance t).wrs (pg .dsp h) _).wr (pg .dsp h) Reg.DSP_AUX_CTL_GO 1 = v
  have hrd : v.rd (pg .dsp h) Reg.DSP_AUX_CTL_GO = 1 ∧ v.rd (pg .dsp h) Reg.DSP_AUX_CTL_ADDR = addr.toNat ∧
      v.rd (pg .dsp h) Reg.DSP_AUX_CTL_LEN_M1 = lenM1.val ∧ v.rd (pg .dsp h) Reg.DSP_AUX_CTL_READ = b2n read ∧
      v.rd (pg .dsp h) Reg.DSP_AUX_CTL_I2C = b2n i2c := by
    subst hv
    refine ⟨rd_wr_self .., ?_, ?_, ?_, ?_⟩
    all_goals rw [rd_wr_field _ _ (by decide) (by decide) (by decide)]
    · exact (rd_wrs_eq _ rfl (by decide) rfl).trans (Nat.mod_eq_of_lt addr.isLt)
    · exact (rd_wrs_eq _ rfl (by decide) rfl).trans (Nat.mod_eq_of_lt lenM1.isLt)
    · exact (rd_wrs_eq _ rfl (by decide) rfl).trans (by cases read <;> rfl)
    · exact (rd_wrs_eq _ rfl (by decide) rfl).trans (by cases i2c <;> rfl)
  dsimp only
  split
  · exact hrd
  · exact hrd

theorem auxDone_gives (t : Nat) (h : Fin 2) (result : Fin 4) (data : List Byte) (hgo : s.on (pg .dsp h) Reg.DSP_AUX_CTL_GO = true)
    (hw : (s.dspHead h).auxWait = false) : Gives (.auxDone t h result data) s fun u => u.rd (pg .dsp h) Reg.DSP_AUX_CTL_GO = 0 ∧
      u.rd (pg .dsp h) Reg.DSP_AUX_CTL_RESULT = result.val := by
  refine .of_next rfl ?_
  dsimp only
  rw [on_advance, hgo, dspHead_advance, hw, if_neg (by decide)]
  generalize hv : (s.advance t).wrs (pg .dsp h) [(Reg.DSP_AUX_CTL_GO, 0), (Reg.DSP_AUX_CTL_RESULT, result.val)] = v
  have hrd : v.rd (pg .dsp h) Reg.DSP_AUX_CTL_GO = 0 ∧ v.rd (pg .dsp h) Reg.DSP_AUX_CTL_RESULT = result.val := by
    subst hv
    exact ⟨rd_wrs_eq _ rfl (by decide) rfl, (rd_wrs_eq _ rfl (by decide) rfl).trans (Nat.mod_eq_of_lt result.isLt)⟩
  split
  · exact ⟨(rd_wrs_ne _ rfl (by decide) rfl).trans hrd.1, (rd_wrs_ne _ rfl (by decide) rfl).trans hrd.2⟩
  · exact hrd

end

/-- Settles O29, clause by clause: a head stops at a boundary alone, so one that runs when the command comes runs at the command's tick. -/
theorem displayLinkCommandsComplete : Obligations.DisplayLinkCommandsComplete :=
  ⟨fun t h level lostLock _ hne => hpdChange_gives t h level lostLock hne, fun t h r l _ hm hw ha => linkTrainAttempt_starts t h r l hm hw ha,
    fun t h r l _ hm hw hb => linkTrainAttempt_fails t h r l hm hw hb, fun t h _ htr hin => linkTrainDone_trained t h htr hin,
    fun t h _ htr => linkTrainDone_untrained t h htr, fun t h _ hm hw hdue => linkTrainRetry_gives t h hm hw hdue,
    fun t h _ hopen hidle => headRetrain_gives t h hopen hidle, fun t h _ hopen => headClr_gives t h hopen,
    fun t h i2c read lenM1 addr _ hopen hidle => auxGo_gives t h i2c read lenM1 addr hopen hidle,
    fun t h result data _ hgo hw => auxDone_gives t h result data hgo hw⟩


end Sys2Proof.Machine
end

section
/-!
PROOF. Display frames: frame starts, line fetches, underruns, guard tags, gamma entries and TE (R368, R377 to R382, R385, R391).
-/
namespace Sys2Proof.Machine

/-! What sending lines leaves. -/

section
variable {s u : State}

theorem dspHead_emit (s : State) (o : Output) (h : Nat) : (s.emit o).dspHead h = s.dspHead h := rfl

/-- From `s` to `u` head `h` has sent lines whose pixels had all arrived, and nothing else has happened. -/
structure Sent (h : Nat) (s u : State) : Prop where
  rf : u.rf = s.rf
  mem : u.mem = s.mem
  head : ∃ n, u.dspHead h = { s.dspHead h with sent := n }

theorem Sent.refl (h : Nat) (s : State) : Sent h s s := ⟨rfl, rfl, _, rfl⟩

theorem dspHead_sendLine (u : State) (h y n : Nat) : (u.sendLine h y n).dspHead h = { u.dspHead h with sent := y + 1 } := by
  rw [State.sendLine, dspHead_setDspHead]
  split
  · rw [dspHead_emit]
  · rfl

theorem sent_sendLine {h : Nat} (k : Sent h s u) (y n : Nat) : Sent h s (u.sendLine h y n) := by
  obtain ⟨hrf, hmem, _, hhead⟩ := k
  have hdoes := does_sendLine u h y n
  exact ⟨(hdoes.only .rf (by decide)).trans hrf, (hdoes.only .mem (by decide)).trans hmem, y + 1, by rw [dspHead_sendLine, hhead]⟩

theorem aborted_sendLine (u : State) (h y n : Nat) : ((u.sendLine h y n).dspHead h).aborted = (u.dspHead h).aborted :=
  (congrArg DspHead.aborted (dspHead_sendLine ..)).trans rfl

/-- What an underrun leaves of the head. -/
theorem dspHead_underrunAt (u : State) (h y x : Nat) : (u.underrunAt h y x).dspHead h = { u.dspHead h with aborted := true, sent := y + 1 } := by
  unfold State.underrunAt
  extract_lets p d s₁ d₁ s₂ s₃
  have hrest : (if d.unlinked = true then s₂.bumpSat p Reg.DSP_HEAD_STAT_DEFER_CNT 1 else (s₃.occur 7 0).event .dsp h 0).dsp = s₂.dsp := by
    split
    · exact (does_bumpSat ..).only .dsp (by decide)
    · rw [event_dsp, (does_occur ..).only .dsp (by decide), (does_layerFault ..).only .dsp (by decide), (does_bumpSat ..).only .dsp (by decide)]
  have hsent : d₁ = { u.dspHead h with sent := y + 1 } := dspHead_sendLine ..
  rw [dspHead_of_dsp hrest, dspHead_setDspHead, hsent]

theorem aborted_or_sent_sendTo (s : State) (h y : Nat) : ((s.sendTo h y).dspHead h).aborted = true ∨ Sent h s (s.sendTo h y) := by
  unfold State.sendTo
  extract_lets d y
  split
  · exact .inr (.refl ..)
  · refine List.foldlRecOn _ _ (motive := fun u : State => (u.dspHead h).aborted = true ∨ Sent h s u) (.inr (.refl ..)) fun u hu i _ => ?_
    split
    next ha => exact .inl ((aborted_sendLine ..).trans ha)
    next ha =>
      split
      · exact .inl (congrArg DspHead.aborted (dspHead_underrunAt ..))
      · exact .inr (sent_sendLine (hu.resolve_left ha) ..)

theorem sent_sendTo {h y : Nat} (ha : ((s.sendTo h y).dspHead h).aborted = false) : Sent h s (s.sendTo h y) :=
  (aborted_or_sent_sendTo s h y).resolve_left (by rw [ha]; decide)

end

section
variable {s u : State}

theorem rd_eq_of_rf (h : u.rf = s.rf) : u.rd = s.rd := funext fun p => funext (rd_of_rf h p)

theorem dspA_eq_of_rf (h : u.rf = s.rf) : u.dspA = s.dspA := funext fun i => funext (dspA_of_rf h i)

theorem lineAt_of_head {h : Nat} (hA : ∀ f : Fld, f.placed → 0x100 ≤ f.off → f.off < 0x120 → u.dspA h f = s.dspA h f)
    (hstart : (u.dspHead h).startAt = (s.dspHead h).startAt) (hsync : (u.dspHead h).vsync = (s.dspHead h).vsync) (y : Nat) :
    u.lineAt h y = s.lineAt h y := by
  have hmode := hA Reg.DSP_TIM_CFG_TE_MODE (by decide) (by decide) (by decide)
  have hvfp := hA Reg.DSP_TIM_V_VFP (by decide) (by decide) (by decide)
  have hvsync := hA Reg.DSP_TIM_V_VSYNC (by decide) (by decide) (by decide)
  have hvbp := hA Reg.DSP_TIM_V_VBP (by decide) (by decide) (by decide)
  have hfine : lineFine (u.dspA h) = lineFine (s.dspA h) := by
    simp only [lineFine, hTotal, pclkDiv, hA Reg.DSP_TIM_H_HACTIVE (by decide) (by decide) (by decide),
      hA Reg.DSP_TIM_H_HFP (by decide) (by decide) (by decide), hA Reg.DSP_TIM_H_HSYNC (by decide) (by decide) (by decide),
      hA Reg.DSP_TIM_H_HBP (by decide) (by decide) (by decide), hA Reg.DSP_PCLK_DIV_I (by decide) (by decide) (by decide),
      hA Reg.DSP_PCLK_DIV_F (by decide) (by decide) (by decide)]
  simp only [State.lineAt, State.linesToSync, hstart, hsync, hmode, hvfp, hvsync, hvbp, hfine]

theorem lineAt_advance (s : State) (t h y : Nat) : (s.advance t).lineAt h y = s.lineAt h y :=
  lineAt_of_head (fun f _ _ _ => dspA_advance ..) (by rw [dspHead_advance]) (by rw [dspHead_advance]) y

theorem geoOf_of_rf (e : u.rf = s.rf) (h l b : Nat) : u.geoOf h l b = s.geoOf h l b := by
  unfold State.geoOf State.jobShape State.jobSize State.jobKind State.jobCols State.denUse State.tracePoints State.denRows State.ganged State.on
  rw [rd_eq_of_rf e, dspA_eq_of_rf e]

theorem locate_of_mem (e : u.mem = s.mem) (a : Nat) : u.locate a = s.locate a := by
  unfold State.locate State.inService
  rw [e]

theorem beyond_of_same (er : u.rf = s.rf) (em : u.mem = s.mem) : u.beyond = s.beyond := by
  funext a
  unfold State.beyond State.rankHole State.chanState State.sidOf State.on
  rw [locate_of_mem em, rd_eq_of_rf er]

theorem unavailable_of_same (er : u.rf = s.rf) (em : u.mem = s.mem) : u.unavailable = s.unavailable := by
  funext a
  unfold State.unavailable State.rankHole State.chanState State.sidOf State.on
  rw [locate_of_mem em, rd_eq_of_rf er]

theorem poisoned_of_mem (e : u.mem = s.mem) (a n : Nat) : u.poisoned a n = s.poisoned a n := by
  unfold State.poisoned State.poisonWords
  rw [e]

theorem readNat_of_mem (e : u.mem = s.mem) (a n : Nat) : u.readNat a n = s.readNat a n := by
  unfold State.readNat State.readBytes State.byteAt
  rw [e]

theorem layerPixel_of_mem (e : u.mem = s.mem) (g : LayerGeo) (x y : Nat) : u.layerPixel g x y = s.layerPixel g x y := by
  simp only [State.layerPixel, readNat_of_mem e]

end

section
variable {s : State}

/-! Line fetches. -/

theorem dspHead_fillFrom (u : State) (h c l line : Nat) :
    (u.fillFrom h c l line).dspHead h = { u.dspHead h with fill := (l, line) :: (u.dspHead h).fill } := by
  rw [State.fillFrom, dspHead_setDspHead]

theorem lines_tagCheck (u : State) (h l line : Nat) : ((u.tagCheck h l line).dspHead h).lines = (u.dspHead h).lines := by
  unfold State.tagCheck
  dsimp only
  split
  · split
    · rw [dspHead_of_dsp (event_dsp ..), dspHead_fillFrom]
    · rfl
  · rfl

theorem lineFetch_gives (t : Nat) (h : Fin 2) (l : Fin 4) (line : Fin 2160) {x : Latch} {g : LayerGeo} {n : Nat} {v : State}
    (hr : s.headRuns h = true) (hv : v = (s.advance t).sendTo h ((s.advance t).linesDone h (s.advance t).tick))
    (hlatch : (v.dspHead h).latch l = some x) (hg : g = s.geoOf h l x.addr)
    (hn : n = min g.w (s.dspA h Reg.DSP_TIM_H_HACTIVE - s.dspA h (Reg.DSP_L_POS_X0 l)))
    (hopen : (v.dspHead h).blank = false ∧ (v.dspHead h).aborted = false ∧ (v.dspHead h).filled l line = false)
    (hearly : ∀ e ∈ s.lineAt h line, (s.advance t).tick * 2 ^ 27 ≤ e + s.dspA h (Reg.DSP_L_POS_X0 l) * pclkDiv (s.dspA h))
    (hin : s.dspA h (Reg.DSP_L_POS_Y0 l) ≤ line.val ∧ line.val < s.dspA h (Reg.DSP_L_POS_Y0 l) + g.h ∧
      line.val < s.dspA h Reg.DSP_TIM_V_VACTIVE)
    (hreads : ∀ a ∈ g.spans (line - s.dspA h (Reg.DSP_L_POS_Y0 l)) n, anyGranule a.1 a.2 s.beyond = false ∧
      anyGranule a.1 a.2 s.unavailable = false ∧ s.poisoned a.1 a.2 = false) : Gives (.lineFetch t h l line) s fun u =>
      smFind (4096 * l.val + line.val) (u.dspHead h).lines =
        some ((List.range n).map (fun i => s.layerPixel g i (line - s.dspA h (Reg.DSP_L_POS_Y0 l)))) := by
  obtain ⟨hblank, haborted, hfilled⟩ := hopen
  obtain ⟨hy0, hy1, hva⟩ := hin
  have hsent : Sent h (s.advance t) v := by
    rw [hv] at haborted ⊢
    exact sent_sendTo haborted
  have hrf : v.rf = s.rf := hsent.rf.trans (State.advance_rf ..)
  have hmem : v.mem = s.mem := hsent.mem.trans (State.advance_mem ..)
  have htick : v.tick = (s.advance t).tick := by rw [hv]; exact (does_sendTo ..).only .tick (by decide)
  obtain ⟨m, hhead⟩ := hsent.head
  rw [dspHead_advance] at hhead
  have hline : v.lineAt h line = s.lineAt h line := by
    refine lineAt_of_head (fun f _ _ _ => dspA_of_rf hrf h f) ?_ ?_ _ <;> rw [hhead]
  refine .of_next rfl ?_
  rw [if_pos (headRuns_advance h t hr)]
  unfold State.lineFetch
  rw [← hv]
  dsimp only
  rw [hlatch]
  dsimp only
  rw [geoOf_of_rf hrf, ← hg, dspA_eq_of_rf hrf, hline, htick, beyond_of_same hrf hmem, unavailable_of_same hrf hmem]
  simp only [poisoned_of_mem hmem, layerPixel_of_mem hmem, hblank, haborted, hfilled, ← hn]
  rw [if_neg, if_neg, if_neg, if_neg, lines_tagCheck, dspHead_setDspHead]
  · exact smFind_insert_self ..
  · exact fun e => absurd (List.any_eq_true.1 e) fun ⟨a, ha, hp⟩ => by rw [(hreads a ha).2.2] at hp; cases hp
  · exact fun e => absurd (List.any_eq_true.1 e) fun ⟨a, ha, hp⟩ => by rw [(hreads a ha).2.1] at hp; cases hp
  · exact fun e => absurd (List.any_eq_true.1 e) fun ⟨a, ha, hp⟩ => by rw [(hreads a ha).1] at hp; cases hp
  · cases hl : s.lineAt h line with
    | none =>
      simp only [Bool.or_false, Bool.false_or, Bool.or_eq_true, decide_eq_true_eq]
      omega
    | some e =>
      have he := hearly e hl
      simp only [Bool.or_false, Bool.or_eq_true, decide_eq_true_eq]
      omega

/-! Underruns. -/

theorem underrun_gives (t e : Nat) (h : Fin 2) (line : Fin 2160) (x : Fin 3840) {v : State} (hr : s.headRuns h = true)
    (hv : v = (s.advance t).sendTo h line) (hline : s.lineAt h line = some e) (hdue : e + x.val * pclkDiv (s.dspA h) ≤ t * 2 ^ 27 + 2 ^ 27)
    (hopen : (s.dspHead h).blank = false ∧ (v.dspHead h).aborted = false ∧ (v.dspHead h).sent ≤ line.val ∧ (v.dspHead h).unlinked = false)
    (hmiss : v.firstMissing h line = some x.val) : Gives (.underrun t h line x) s fun u => (u.dspHead h).aborted = true ∧
      (u.dspHead h).sent = line.val + 1 ∧ u.rd (pg .dsp h) Reg.DSP_HEAD_STAT_UNDERRUN_CNT =
        min (s.rd (pg .dsp h) Reg.DSP_HEAD_STAT_UNDERRUN_CNT + 1) (2 ^ Reg.DSP_HEAD_STAT_UNDERRUN_CNT.width - 1) := by
  obtain ⟨hblank, haborted, hsentTo, hlinked⟩ := hopen
  have hsent : Sent h (s.advance t) v := by
    rw [hv] at haborted ⊢
    exact sent_sendTo haborted
  have hrd : v.rd (pg .dsp h) Reg.DSP_HEAD_STAT_UNDERRUN_CNT = s.rd (pg .dsp h) Reg.DSP_HEAD_STAT_UNDERRUN_CNT :=
    (rd_of_rf hsent.rf ..).trans (advance_rd ..)
  have hexec : exec (.underrun t h line x) s = .next (v.underrunAt h line x) := by
    refine congrArg Host.Outcome.next ?_
    dsimp only
    rw [lineAt_advance, hline, headRuns_advance h t hr, dspHead_advance, hblank, dspA_eq_of_rf (State.advance_rf s t)]
    dsimp only
    rw [if_neg (by simpa using hdue), ← hv, haborted, hmiss, if_neg (by simpa using hsentTo)]
  refine .of_next hexec ⟨?_, ?_, ?_⟩
  · rw [dspHead_underrunAt]
  · rw [dspHead_underrunAt]
  · unfold State.underrunAt
    extract_lets p d s₁ d₁ s₂ s₃
    have hs₂ : s₂.rd p Reg.DSP_HEAD_STAT_UNDERRUN_CNT = v.rd p Reg.DSP_HEAD_STAT_UNDERRUN_CNT :=
      (rd_setDspHead ..).trans (rd_of_rf ((does_sendLine ..).only .rf (by decide)) ..)
    rw [if_neg (by rw [hlinked]; decide), rd_event _ _ _ _ (by decide) (evReg_dsp h (by decide)), rd_occur]
    exact (rd_wrs_ne _ rfl (by decide) rfl).trans ((rd_bumpSat ..).trans (by rw [hs₂, hrd]))

/-! Guard tags. -/

theorem tagChanged_gives (t tag : Nat) (h : Fin 2) (l : Fin 4) (line : Fin 2160) {x : Latch} (hr : s.headRuns h = true)
    (hlatch : (s.dspHead h).latch l = some x) (htag : smFind l (s.dspHead h).tag = some tag)
    (hopen : (s.dspHead h).aborted = false ∧ (s.dspHead h).filled l line = false) (hguard : s.dspA h (Reg.DSP_L_CFG_GUARD l) = 1)
    (hnew : s.readNat x.addr 8 ≠ tag) : Gives (.tagChanged t h l line) s fun u => (u.dspHead h).fill = (l.val, line.val) :: (s.dspHead h).fill := by
  refine .of_next rfl ?_
  rw [if_pos (headRuns_advance h t hr), State.tagCheck, dspHead_advance]
  simp only [hlatch, htag, hopen.1, hopen.2, dspA_advance, hguard, readNat_of_mem (State.advance_mem s t)]
  rw [if_pos (by simpa using hnew), dspHead_of_dsp (event_dsp ..), dspHead_fillFrom, dspHead_advance]

/-! Gamma entries. -/

theorem pg_dsp_lt : ∀ h : Fin 2, pg .dsp h < 2 ^ 22 := by decide

theorem gammaDataWrite_gives (t : Nat) (h : Fin 2) (v : BitVec 10) {b c e : Nat} (hopen : s.hostOpen (pg .dsp h))
    (hidx : b = s.rd (pg .dsp h) Reg.DSP_GAMMA_IDX_BANK ∧ c = s.rd (pg .dsp h) Reg.DSP_GAMMA_IDX_CH ∧ e = s.rd (pg .dsp h) Reg.DSP_GAMMA_IDX_ENTRY)
    (hb : b ≠ s.dspA h Reg.DSP_GAMMA_CFG_SEL) (hc : c ≠ 3) : Gives (.gammaDataWrite t h v) s fun u =>
      smGet 0 (4096 * b + 1024 * c + e) (u.dspHead h).gamma = v.toNat ∧
      u.rd (pg .dsp h) Reg.DSP_GAMMA_IDX_ENTRY = Reg.DSP_GAMMA_IDX_ENTRY.cut (e + 1) := by
  obtain ⟨rfl, rfl, rfl⟩ := hidx
  have hsel : ((s.advance t).bump (pg .dsp h) Reg.DSP_GAMMA_IDX_ENTRY 1).dspA h Reg.DSP_GAMMA_CFG_SEL = s.dspA h Reg.DSP_GAMMA_CFG_SEL :=
    (rdA_wr _ _ (pg_dsp_lt h) (by decide)).trans (dspA_advance ..)
  refine .of_next rfl ?_
  rw [hosted_of_open (hostOpen_advance t hopen), State.gammaWrite]
  simp only [advance_rd, hsel]
  rw [if_neg hb, if_neg hc, dspHead_setDspHead, smGet_set_self, rd_setDspHead, State.bump, rd_wr_self, advance_rd]
  exact ⟨Nat.mod_eq_of_lt v.isLt, rfl⟩

theorem gammaDataWrite_refused (t : Nat) (h : Fin 2) (v : BitVec 10) (hopen : s.hostOpen (pg .dsp h))
    (hb : s.rd (pg .dsp h) Reg.DSP_GAMMA_IDX_BANK = s.dspA h Reg.DSP_GAMMA_CFG_SEL) : Gives (.gammaDataWrite t h v) s fun u =>
      u.dsp = s.dsp ∧ u.rd (pg .dsp h) Reg.DSP_HEAD_STAT_GAMMA_REJ = 1 := by
  have hsel : ((s.advance t).bump (pg .dsp h) Reg.DSP_GAMMA_IDX_ENTRY 1).dspA h Reg.DSP_GAMMA_CFG_SEL = s.dspA h Reg.DSP_GAMMA_CFG_SEL :=
    (rdA_wr _ _ (pg_dsp_lt h) (by decide)).trans (dspA_advance ..)
  refine .of_next rfl ?_
  rw [hosted_of_open (hostOpen_advance t hopen), State.gammaWrite]
  simp only [advance_rd, hsel]
  rw [if_pos hb, State.wr_dsp, State.bump, State.wr_dsp, State.advance_dsp, rd_wr_self]
  exact ⟨rfl, rfl⟩

/-! TE. -/

theorem teWait_advance {h : Fin 2} {e : Nat} (t : Nat) (hw : s.teWait h e = true) : (s.advance t).teWait h e = true := by
  have hA : (s.advance t).dspA = s.dspA := dspA_eq_of_rf (State.advance_rf ..)
  simp only [State.teWait, Bool.and_eq_true] at hw ⊢
  obtain ⟨⟨⟨hr, hmode⟩, hsync⟩, hlate⟩ := hw
  rw [hA, dspHead_advance]
  exact ⟨⟨⟨headRuns_advance h t hr, hmode⟩, hsync⟩, hlate⟩

theorem teEnd_advance (h t : Nat) : (s.advance t).teEnd h = s.teEnd h := by
  rw [State.teEnd, dspA_eq_of_rf (State.advance_rf s t), dspHead_advance, State.teEnd]

theorem teEdge_gives (t edge : Nat) (h : Fin 2) (hw : s.teWait h edge = true) (hpersisted : edge + s.dspA h Reg.DSP_TIM_CFG_TE_FILTER ≤
    (s.advance t).tick ∧ edge + s.dspA h Reg.DSP_TIM_CFG_TE_FILTER ≤ s.teEnd h) : Gives (.teEdge t h edge) s fun u =>
      (u.dspHead h).vsync = some (edge + s.dspA h Reg.DSP_TIM_CFG_TE_FILTER) ∧
      u.rd (pg .dsp h) Reg.DSP_TE_TICK_TICK = Reg.DSP_TE_TICK_TICK.cut edge := by
  refine .of_next rfl ?_
  dsimp only
  rw [teWait_advance t hw, teEnd_advance, dspA_advance, if_neg (by simp; omega), dspHead_setDspHead, rd_setDspHead, rd_wr_self]
  exact ⟨rfl, rfl⟩

theorem teMissing_gives (t : Nat) (h : Fin 2) (hw : s.teWait h (s.advance t).tick = true) (hlate : s.teEnd h ≤ (s.advance t).tick) :
    Gives (.teMissing t h) s fun u => (u.dspHead h).vsync = some (s.teEnd h) := by
  refine .of_next rfl ?_
  dsimp only
  rw [teWait_advance t hw, teEnd_advance, if_neg (by simp; omega), dspHead_of_dsp (event_dsp ..), dspHead_setDspHead]

end

/-! Frame starts. -/

/-- From `s` to `u` head `h`'s frame count and the tick of its frame start have not changed. -/
structure SameFrame (h : Nat) (s u : State) : Prop where
  count : u.rd (pg .dsp h) Reg.DSP_FRAME_CNT_FRAME = s.rd (pg .dsp h) Reg.DSP_FRAME_CNT_FRAME
  tick : u.rd (pg .dsp h) Reg.DSP_FRAME_TICK_TICK = s.rd (pg .dsp h) Reg.DSP_FRAME_TICK_TICK

/-- The registers other than those two. -/
def notFrame (h q o : Nat) : Prop := ¬(q = pg .dsp h ∧ (o = 0x190 ∨ o = 0x198))

section
variable {h : Nat} {s t u : State}

theorem SameFrame.refl (h : Nat) (s : State) : SameFrame h s s := ⟨rfl, rfl⟩

theorem SameFrame.next (k : SameFrame h t u) (j : SameFrame h s t) : SameFrame h s u := ⟨k.count.trans j.count, k.tick.trans j.tick⟩

theorem SameFrame.of_rf (e : u.rf = s.rf) : SameFrame h s u := ⟨rd_of_rf e .., rd_of_rf e ..⟩

theorem evReg_frame : ∀ h : Fin 2, evReg (pg .dsp h) 0x190 = false ∧ evReg (pg .dsp h) 0x198 = false := by decide

theorem Writes.sameFrame {h : Fin 2} (k : Writes (notFrame h) s u) : SameFrame h s u :=
  ⟨k.reads _ _ (by decide) (evReg_frame h).1 (not_not.2 ⟨rfl, .inl rfl⟩), k.reads _ _ (by decide) (evReg_frame h).2 (not_not.2 ⟨rfl, .inr rfl⟩)⟩

/-- A write to a field that stands elsewhere, also where its number is beyond what its page holds. -/
theorem SameFrame.wr {p : Nat} {f : Fld} {v : Nat} (hc : fkey (pg .dsp h) Reg.DSP_FRAME_CNT_FRAME ≠ fkey p f)
    (ht : fkey (pg .dsp h) Reg.DSP_FRAME_TICK_TICK ≠ fkey p f) : SameFrame h s (s.wr p f v) := ⟨rd_wr_ne s v hc, rd_wr_ne s v ht⟩

theorem sameFrame_each {α : Type} (l : List α) (f : State → α → State) (hf : ∀ t a, SameFrame h t (f t a)) : SameFrame h s (s.each l f) :=
  List.foldlRecOn _ _ (motive := SameFrame h s) (.refl ..) fun _ ht a _ => (hf _ a).next ht

theorem sameFrame_event (h : Fin 2) (s : State) (b : Blk) (i k : Nat) : SameFrame h s (s.event b i k) := (writes_event ..).sameFrame

end

theorem notFrame_page {h q : Nat} (hq : q ≠ pg .dsp h) (o : Nat) : notFrame h q o := fun e => hq e.1

theorem notFrame_off {h o : Nat} (hc : o ≠ 0x190) (ht : o ≠ 0x198) (q : Nat) : notFrame h q o := fun e => e.2.elim hc ht

theorem tmpPage_ne : ∀ h : Fin 2, tmpPage ≠ pg .dsp h := by decide

theorem pageRow_dsp : ∀ h : Fin 2, (pageRow (pg .dsp h)).map PageRow.blk = some .dsp := by decide

theorem mem_groupFields_dsp {h : Fin 2} {g : Nat} {f : Fld} (hf : f ∈ groupFields (pg .dsp h) g) : f.placed ∧ f.off ≠ 0x190 ∧ f.off ≠ 0x198 := by
  have hrow := pageRow_dsp h
  unfold groupFields at hf
  split at hf
  next r hr =>
    rw [hr] at hrow
    have hb : r.blk = .dsp := Option.some.inj hrow
    obtain ⟨hm, hg⟩ := List.mem_filter.1 hf
    rw [hb] at hm hg
    refine ⟨of_decide_eq_true (List.all_eq_true.1 (placed_blkFields rfl _) f hm), ?_, ?_⟩
    all_goals
      intro e
      rw [e] at hg
      cases hg
  next => cases hf

section
variable (s : State) (h : Fin 2)

theorem writes_shImage_dsp : Writes (notFrame h) s (s.shImage (pg .dsp h)) := by
  refine List.foldlRecOn _ _ (motive := Writes (notFrame h) s) (.keep (.refl _ _) rfl) fun u hu f hf => ?_
  obtain ⟨g, -, hf⟩ := List.mem_flatMap.1 hf
  obtain ⟨hplaced, hc, ht⟩ := mem_groupFields_dsp hf
  exact hu.wr (notFrame_off hc ht _) hplaced

theorem writes_shCopy_dsp (g : Nat) : Writes (notFrame h) s (s.shCopy (pg .dsp h) g) :=
  List.foldlRecOn _ _ (motive := Writes (notFrame h) s) (.refl _ _) fun _ hu _ hf =>
    let ⟨hplaced, hc, ht⟩ := mem_groupFields_dsp hf
    hu.wrA (notFrame_off hc ht _) hplaced

theorem writes_dspApply : Writes (notFrame h) s (s.dspApply h).1 := by
  have hoff {o : Nat} (hc : o ≠ 0x190) (ht : o ≠ 0x198) : notFrame h (pg .dsp h) o := notFrame_off hc ht _
  unfold State.dspApply
  extract_lets p image held want _ s₁ s₂ checked good badCode mode before s₃ train mask late s₄ s₅ s₆ s₇
  refine .via s₁ (.keep (.refl _ _) rfl) fun h₁ => ?_
  refine .via s₂ (.ite ((writes_shImage_dsp ..).next (.wr h₁ (hoff (by decide) (by decide)) (by decide))) h₁) fun h₂ => ?_
  refine .via s₃ (.each _ h₂ fun _ g h₃ => (writes_shCopy_dsp _ h g).next h₃) fun h₃ => ?_
  refine .via s₄ (.wr h₃ (hoff (by decide) (by decide)) (by decide)) fun h₄ => ?_
  refine .via s₅ (.ite h₄ (.wrs (o := 0x1b8) (.wr h₄ (hoff (by decide) (by decide)) (by decide)) (hoff (by decide) (by decide)) (by rfl))) fun h₅ => ?_
  refine .via s₆ ((writes_eventIf ..).next h₅) fun h₆ => ?_
  refine .via s₇ (.ite h₆ ((writes_event ..).next (.wrs (o := 0x1b8) h₆ (hoff (by decide) (by decide)) (by rfl)))) fun h₇ => ?_
  split
  · exact h₂
  · exact h₇

theorem sameFrame_unlink (counts : Bool) : SameFrame h s (s.unlink h counts) :=
  ⟨rd_unlink _ _ _ (by decide) (by decide), rd_unlink _ _ _ (by decide) (by decide)⟩

/-- A layer's number above 3 would name a field of a page above. -/
theorem sameFrame_retire (l addr frame : Nat) : SameFrame h s (s.retire h l addr frame) := by
  have hne {f : Fld} (ho : 0x240 ≤ f.off) : fkey (pg .dsp h) Reg.DSP_FRAME_CNT_FRAME ≠ fkey (pg .dsp h) f ∧
      fkey (pg .dsp h) Reg.DSP_FRAME_TICK_TICK ≠ fkey (pg .dsp h) f := by
    simp only [fkey, Reg.DSP_FRAME_CNT_FRAME, Reg.DSP_FRAME_TICK_TICK]
    omega
  have hwr {f : Fld} (u : State) (v : Nat) (ho : 0x240 ≤ f.off) : SameFrame h u (u.wr (pg .dsp h) f v) := .wr (hne ho).1 (hne ho).2
  have hframe : 0x240 ≤ (Reg.DSP_L_RETIRE_FRAME l).off := by simp only [Reg.DSP_L_RETIRE_FRAME]; omega
  have hgran : 0x240 ≤ (Reg.DSP_L_RETIRE_GRAN l).off := by simp only [Reg.DSP_L_RETIRE_GRAN]; omega
  have hseq : 0x240 ≤ (Reg.DSP_L_RETIRE_SEQ l).off := by simp only [Reg.DSP_L_RETIRE_SEQ]; omega
  exact (sameFrame_event h _ ..).next ((hwr _ _ hgran).next ((hwr _ _ hframe).next (hwr _ _ hseq)))

/-- A field of a job's status stands at 0x38 of its 64 bytes, also where the job's number would name one of another page. -/
theorem sameFrame_jobStat {s : State} {f : Fld} {v : Nat} (hf : f.off % 64 = 0x38) (hlo : f.lo < 64) : SameFrame h s (s.wr tmpPage f v) := by
  refine .wr ?_ ?_ <;> simp only [fkey, Reg.DSP_FRAME_CNT_FRAME, Reg.DSP_FRAME_TICK_TICK] <;> omega

theorem jobStat_off (j : Nat) : (0x238 + 64 * j) % 64 = 0x38 := by omega

theorem sameFrame_tmpStat {s : State} {f : Fld} {v : Nat} (hf : f.placed) : SameFrame h s (s.wr tmpPage f v) :=
  Writes.sameFrame (.wr (.refl _ _) (notFrame_page (tmpPage_ne h) _) hf)

/-- Readouts that begin reach the tone mapper's page. -/
theorem sameFrame_kickReadouts (t : Nat) : SameFrame h s (s.kickReadouts t) := by
  have hcount (u : State) (j : Nat) (x : TmpJob) : SameFrame h u (((u.setTjob j x).bumpSat tmpPage (Reg.TMP_JOB_STAT_DEFERS j) 1).bumpSat tmpPage
      Reg.TMP_TMP_STAT_DEFERS 1) := by
    have hset : SameFrame h u (u.setTjob j x) := .of_rf rfl
    exact (sameFrame_tmpStat _ (by decide)).next ((sameFrame_jobStat _ (jobStat_off j) (by decide : 16 < 64)).next hset)
  unfold State.kickReadouts
  split
  · exact .refl ..
  extract_lets s₁
  have h₁ : SameFrame h s s₁ := sameFrame_each _ _ fun u j => by
    dsimp only
    split
    · exact (sameFrame_event h _ ..).next (hcount ..)
    · exact .refl ..
  split
  · exact h₁
  · refine .next (.of_rf ?_) h₁
    exact (does_beginReadout ..).only .rf (by decide)

theorem sameFrame_readoutDue (j : Nat) : SameFrame h s (s.readoutDue j) := by
  unfold State.readoutDue
  split
  · exact (sameFrame_event h _ ..).next ((sameFrame_tmpStat _ (by decide)).next (sameFrame_jobStat _ (jobStat_off j) (by decide : 24 < 64)))
  split
  · exact sameFrame_jobStat _ (jobStat_off j) (by decide : 2 < 64)
  · exact (sameFrame_jobStat _ (jobStat_off j) (by decide : 1 < 64)).next (.of_rf rfl)

theorem sameFrame_jobsAtFrame : SameFrame h s (s.jobsAtFrame h) :=
  sameFrame_each _ _ fun t j => (sameFrame_readoutDue _ h j).next (.of_rf rfl)

theorem writes_sendTo (y : Nat) : Writes (fun q o => q = pg .dsp h ∧ (o = 0x1b0 ∨ o = 0x1d0)) s (s.sendTo h y) := by
  unfold State.sendTo
  extract_lets d y
  refine .ite (.refl _ _) (.each _ (.refl _ _) fun u i hu => .ite ((does_sendLine ..).still hu rfl) ?_)
  split
  · unfold State.underrunAt
    extract_lets p d s₁ _ s₂ s₃
    have h₂ : Writes _ s s₂ := ((does_sendLine ..).still hu rfl).keep rfl
    have h₃ : Writes _ s s₃ := .wrs (o := 0x1d0) (.wr h₂ ⟨rfl, .inl rfl⟩ (by decide)) ⟨rfl, .inr rfl⟩ (by rfl)
    exact .ite (.wr h₂ ⟨rfl, .inl rfl⟩ (by decide)) ((writes_event ..).next (h₃.keep rfl))
  · exact (does_sendLine ..).still hu rfl

theorem sameFrame_sendTo (y : Nat) : SameFrame h s (s.sendTo h y) := by
  have hw := writes_sendTo s h y
  exact ⟨hw.reads _ _ (by decide) (evReg_frame h).1 (by rintro ⟨-, e | e⟩ <;> cases e), hw.reads _ _ (by decide) (evReg_frame h).2
    (by rintro ⟨-, e | e⟩ <;> cases e)⟩

theorem evReg_active {o : Nat} (ho : 0x100 ≤ o) (p : Nat) : evReg (p + 2 ^ 22) o = false := by
  simp only [evReg, show pg .eva 0 = 6 from rfl, show pg .scr 0 = 0x700 from rfl, show pg .scr 64 = 0x740 from rfl, show pg .vgl 0 = 0xB from rfl,
    show pg .epo 0 = 9 from rfl, Bool.or_eq_false_iff, Bool.and_eq_false_iff, beq_eq_false_iff_ne, decide_eq_false_iff_not]
  omega

theorem dspA_sendTo (y : Nat) {f : Fld} (hf : f.placed) (ho : 0x100 ≤ f.off) : (s.sendTo h y).dspA h f = s.dspA h f := by
  rw [State.dspA, rdA_eq_rd, (writes_sendTo s h y).reads _ f hf (evReg_active ho _) (fun e => absurd e.1 (by omega)), ← rdA_eq_rd, State.dspA]

theorem sameFrame_freqAtFrame : SameFrame h s (s.freqAtFrame h) := .of_rf rfl

/-- The head's active timing, the start of its frame and the end of its wait for TE stay while lines are sent. -/
theorem lineAt_sendTo (y z : Nat) : (s.sendTo h y).lineAt h z = s.lineAt h z := by
  have hhead : ((s.sendTo h y).dspHead h).startAt = (s.dspHead h).startAt ∧ ((s.sendTo h y).dspHead h).vsync = (s.dspHead h).vsync := by
    unfold State.sendTo
    extract_lets d y
    split
    · exact ⟨rfl, rfl⟩
    · refine List.foldlRecOn _ _ (motive := fun u : State => (u.dspHead h).startAt = (s.dspHead h).startAt ∧
        (u.dspHead h).vsync = (s.dspHead h).vsync) ⟨rfl, rfl⟩ fun u hu i _ => ?_
      split
      · rw [dspHead_sendLine]
        exact hu
      split
      · rw [dspHead_underrunAt]
        exact hu
      · rw [dspHead_sendLine]
        exact hu
  exact lineAt_of_head (fun f hf ho _ => dspA_sendTo s h y hf ho) hhead.1 hhead.2 z

theorem frameStart_frame (t : Nat) : (s.frameStart h t).rd (pg .dsp h) Reg.DSP_FRAME_CNT_FRAME =
      Reg.DSP_FRAME_CNT_FRAME.cut (s.rd (pg .dsp h) Reg.DSP_FRAME_CNT_FRAME + 1) ∧
    (s.frameStart h t).rd (pg .dsp h) Reg.DSP_FRAME_TICK_TICK =
      Reg.DSP_FRAME_TICK_TICK.cut ((s.lineAt h (s.dspA h Reg.DSP_TIM_V_VACTIVE)).getD (t * 2 ^ 27) / 2 ^ 27) := by
  unfold State.frameStart
  extract_lets p s₁ old prev start s₂ frame ap s₃ mode train s₄ d modeFrom modeTrain resume blank s₅ s₆ on new fill s₇ gone taken taken' _ s₈ flip s₉ s₁₀
  have h₁ : SameFrame h s s₁ := sameFrame_sendTo s h 4096
  have hstart : start = (s.lineAt h (s.dspA h Reg.DSP_TIM_V_VACTIVE)).getD (t * 2 ^ 27) := by
    unfold start s₁
    rw [lineAt_sendTo, dspA_sendTo s h 4096 (by decide) (by decide)]
  have hcount : s₂.rd p Reg.DSP_FRAME_CNT_FRAME = Reg.DSP_FRAME_CNT_FRAME.cut (s.rd p Reg.DSP_FRAME_CNT_FRAME + 1) := by
    rw [← h₁.count]
    exact (rd_wr_field _ _ (by decide) (by decide) (by decide)).trans (rd_wr_self ..)
  have htick : s₂.rd p Reg.DSP_FRAME_TICK_TICK = Reg.DSP_FRAME_TICK_TICK.cut (start / 2 ^ 27) := rd_wr_self ..
  have h₃ : SameFrame h s₂ s₃ := (writes_dspApply s₂ h).sameFrame
  have h₄ : SameFrame h s₂ s₄ := .next (by unfold s₄ State.when; split; exacts [sameFrame_unlink .., .refl ..]) h₃
  have h₅ : SameFrame h s₂ s₅ := by
    unfold s₅
    split
    · refine (sameFrame_event h _ ..).next (.next ?_ h₄)
      exact Writes.sameFrame (.wrs (o := 0x1c0) (.refl _ _) (notFrame_off (by decide) (by decide) _) (by rfl))
    · exact h₄
  have h₆ : SameFrame h s₂ s₆ :=
    .next (Writes.sameFrame (.wrs (o := 0x1b0) (.refl _ _) (notFrame_off (by decide) (by decide) _) (by rfl))) h₅
  have h₇ : SameFrame h s₂ s₇ := .next (sameFrame_each _ _ fun u x => sameFrame_retire u h ..) h₆
  have h₈ : SameFrame h s₂ s₈ := .next (.of_rf (s := s₇) rfl) h₇
  have h₉ : SameFrame h s₂ s₉ := by
    unfold s₉
    split
    · exact (sameFrame_event h _ ..).next (.next ⟨rd_wrs_ne _ rfl (by decide) rfl, rd_wrs_ne _ rfl (by decide) rfl⟩ h₈)
    · exact h₈
  have h₁₀ : SameFrame h s₂ s₁₀ := .next (.of_rf (s := s₉) rfl) h₉
  have hall : SameFrame h s₂ (((s₁₀.jobsAtFrame h).kickReadouts t).freqAtFrame h) :=
    (sameFrame_freqAtFrame ..).next ((sameFrame_kickReadouts ..).next ((sameFrame_jobsAtFrame ..).next h₁₀))
  rw [← hstart]
  exact ⟨hall.count.trans hcount, hall.tick.trans htick⟩

/-- Whether the frame is over does not depend on the clock that the state shows. -/
theorem frameOver_advance (t u : Nat) : (s.advance t).frameOver h u = s.frameOver h u := by
  rw [State.frameOver, dspHead_advance, lineAt_advance, dspA_advance, State.frameOver]

theorem frameStart_gives (t : Nat) (hr : s.headRuns h = true) (hover : s.frameOver h t = true) : Gives (.frameStart t h) s fun u =>
    u.rd (pg .dsp h) Reg.DSP_FRAME_CNT_FRAME = Reg.DSP_FRAME_CNT_FRAME.cut (s.rd (pg .dsp h) Reg.DSP_FRAME_CNT_FRAME + 1) ∧
      u.rd (pg .dsp h) Reg.DSP_FRAME_TICK_TICK =
        Reg.DSP_FRAME_TICK_TICK.cut ((s.lineAt h (s.dspA h Reg.DSP_TIM_V_VACTIVE)).getD (t * 2 ^ 27) / 2 ^ 27) := by
  have hframe := frameStart_frame (s.advance t) h t
  rw [advance_rd, lineAt_advance, dspA_advance] at hframe
  refine .of_next rfl ?_
  rwa [State.frameAt, headRuns_advance h t hr, frameOver_advance, hover, if_pos (by decide)]

end

/-- Settles O28: the numbers of layers and jobs in the state are not held to what the pages have, so the two registers of a frame start are kept by
where their fields stand, not by their pages alone. -/
theorem displayFrameCommandsComplete : Obligations.DisplayFrameCommandsComplete :=
  ⟨fun t h s hr hover => frameStart_gives s h t hr hover,
    fun t h l line _ _ _ _ _ hr hv hlatch hg hn hopen hearly hin hreads => lineFetch_gives t h l line hr hv hlatch hg hn hopen hearly hin hreads,
    fun t e h line x _ _ hr hv hline hdue hopen hmiss => underrun_gives t e h line x hr hv hline hdue hopen hmiss,
    fun t tag h l line _ _ hr hlatch htag hopen hguard hnew => tagChanged_gives t tag h l line hr hlatch htag hopen hguard hnew,
    fun t h v _ _ _ _ hopen hidx hb hc => gammaDataWrite_gives t h v hopen hidx hb hc,
    fun t h v _ hopen hb => gammaDataWrite_refused t h v hopen hb, fun t edge h _ hw hp => teEdge_gives t edge h hw hp,
    fun t h _ hw hlate => teMissing_gives t h hw hlate⟩

end Sys2Proof.Machine
end

section
/-!
PROOF. What keeps a pending event pending: raising others, and the leaps of a context that loses its stream (R45, R536).
-/
namespace Sys2Proof.Machine

/-- From `s` to `u` no pending event has been cleared. -/
structure Pends (s u : State) : Prop where
  kept : ∀ q k, k < 64 → (s.rd q Reg.EV_PEND).testBit k = true → (u.rd q Reg.EV_PEND).testBit k = true

section
variable {s t u : State}

theorem Pends.refl (s : State) : Pends s s := ⟨fun _ _ _ h => h⟩

theorem Pends.next (k : Pends t u) (h : Pends s t) : Pends s u := ⟨fun q i hi hp => k.kept q i hi (h.kept q i hi hp)⟩

theorem Pends.via (x : State) (hx : Pends s x) (h : Pends s x → Pends s u) : Pends s u := h hx

theorem Pends.keep (h : Pends s t) (e : u.rf = t.rf) : Pends s u := ⟨fun q i hi hp => by rw [rd_of_rf e]; exact h.kept q i hi hp⟩

/-- An operation that leaves the register file. -/
theorem Does.pends {a : List Part} (k : Does a t u) (h : Pends s t) (w : a.contains .rf = false) : Pends s u := h.keep (k.only .rf (by simpa using w))

/-- A write of any field but EV_PEND. -/
theorem Pends.wr {p v : Nat} {f : Fld} (h : Pends s t) (hf : f.placed) (ho : f.off ≠ 0x28) : Pends s (t.wr p f v) :=
  ⟨fun q i hi hp => by rw [rd_wr_other t v hf (by decide) (fun e => ho e.2.1.symm)]; exact h.kept q i hi hp⟩

/-- The fields that a list of writes names stand within their page, and none is EV_PEND. -/
def noPend (l : List (Fld × Nat)) : Bool := l.all fun x => decide (x.1.placed ∧ x.1.off ≠ 0x28)

theorem Pends.wrs {p : Nat} {l : List (Fld × Nat)} (h : Pends s t) (hl : noPend l = true) : Pends s (t.wrs p l) := by
  induction l generalizing t with
  | nil => exact h
  | cons x l ih =>
    simp only [noPend, List.all_cons, Bool.and_eq_true, decide_eq_true_eq] at hl
    exact ih (h.wr hl.1.1 hl.1.2) hl.2

theorem Pends.ite {c : Prop} [Decidable c] {a b : State} (ha : Pends s a) (hb : Pends s b) : Pends s (if c then a else b) := by
  split
  · exact ha
  · exact hb

theorem Pends.each {α : Type} {f : State → α → State} (l : List α) (h : Pends s t) (hf : ∀ t a, Pends s t → Pends s (f t a)) :
    Pends s (t.each l f) := List.foldlRecOn l f h fun t ht a _ => hf t a ht

theorem Pends.when {f : State → State} (b : Bool) (h : Pends s t) (hf : ∀ t, Pends s t → Pends s (f t)) : Pends s (t.when b f) := by
  cases b
  · exact h
  · exact hf t h

end

/-! Raising events. -/

section
variable {u : State}

theorem testBit_setBit (n i j : Nat) : (setBit n i).testBit j = if j = i then true else n.testBit j := testBit_putBit n i j true

theorem pends_setPend (s : State) (id : Nat) : Pends s (s.setPend id) := by
  refine ⟨fun q k hk hp => ?_⟩
  unfold State.setPend
  by_cases hq : q = evPage id
  · subst hq
    rw [rd_wr_self, show Reg.EV_PEND.width = 64 from rfl, testBit_mod_word hk, testBit_setBit]
    split
    · rfl
    · exact hp
  · rw [rd_wr_page _ _ (by decide) (by decide) hq]
    exact hp

theorem setPend_pends (s : State) {id : Nat} (hk : evBit id < 64) : ((s.setPend id).rd (evPage id) Reg.EV_PEND).testBit (evBit id) = true := by
  unfold State.setPend
  rw [rd_wr_self, show Reg.EV_PEND.width = 64 from rfl, testBit_mod_word hk, testBit_setBit, if_pos rfl]

theorem pends_logFault (s : State) (e : FlogEntry) : Pends s (s.logFault e) := .wr (.keep (.refl s) rfl) (by decide) (by decide)

theorem pends_severity (s : State) (id : Nat) : Pends s (s.severity id) := by
  unfold State.severity
  split
  · exact .refl s
  · refine .when _ (.when _ ?_ fun t h => (pends_logFault t _).next h) fun t h => h.keep rfl
    split
    · exact .keep (.refl s) rfl
    · exact .keep (.refl s) rfl

theorem pends_msixSend (s : State) (v : Nat) (hv : v < 256) : Pends s (s.msixSend v) := by
  have harm : (Reg.EVA_VEC_ARM_ARM (v / 64)).placed ∧ (Reg.EVA_VEC_ARM_ARM (v / 64)).off ≠ 0x28 := by
    simp only [Fld.placed, Reg.EVA_VEC_ARM_ARM]
    omega
  unfold State.msixSend
  split
  · exact .keep (.wr (.refl s) harm.1 harm.2) rfl
  · exact .keep (.refl s) rfl

theorem pends_evqPush (s : State) (n id : Nat) : Pends s (s.evqPush n id) := by
  unfold State.evqPush
  dsimp only
  split
  · exact .keep (.refl s) rfl
  · exact .wr (.refl s) (by decide) (by decide)

theorem pends_deliver (s : State) (id : Nat) : Pends s (s.deliver id).1 := by
  unfold State.deliver
  dsimp only
  split
  · exact .refl s
  split
  · split
    · exact pends_msixSend s _ (bits7_lt _)
    · exact .refl s
  · split
    · exact pends_evqPush ..
    · exact .refl s
  · exact .keep (.refl s) rfl
  · split
    · exact .keep (.refl s) rfl
    · exact .refl s
  · exact .refl s

/-- A transition keeps what was pending once its own bit is set. -/
theorem pends_transit_of_setPend (n : Nat) (s : State) (id : Nat) (ih : ∀ s id, Pends s (State.transit n s id)) :
    Pends ((s.severity id).setPend id) (State.transit (n + 1) s id) := by
  unfold State.transit
  dsimp only
  split
  · exact List.foldlRecOn _ _ (pends_deliver ..) fun t ht e _ => (ih t e).next ht
  · exact .refl _

theorem pends_transit (n : Nat) (s : State) (id : Nat) : Pends s (State.transit n s id) := by
  induction n generalizing s id with
  | zero => exact .refl s
  | succ n ih => exact (pends_transit_of_setPend n s id ih).next ((pends_setPend ..).next (pends_severity ..))

theorem pends_failProbation (s : State) (c : Nat) : Pends s (s.failProbation c) := by
  unfold State.failProbation
  split
  · exact (pends_transit ..).next (.wrs (.refl s) (by rfl))
  · exact .refl s

theorem pends_judge (s : State) (id : Nat) : Pends s (s.judge id) := .ite (pends_failProbation ..) (.refl s)

theorem pends_event (s : State) (b : Blk) (i k : Nat) : Pends s (s.event b i k) :=
  .ite (.refl s) ((pends_judge ..).next (pends_transit ..))

/-- An event whose level is 0 is pending once it has been raised. -/
theorem event_pends (s : State) (b : Blk) (i k : Nat) (hbit : evBit (evId b i k) < 64)
    (hlevel : (s.rd (evPage (evId b i k)) Reg.EV_RAW).testBit (evBit (evId b i k)) = false) :
    ((s.event b i k).rd (evPage (evId b i k)) Reg.EV_PEND).testBit (evBit (evId b i k)) = true := by
  unfold State.event State.raise
  rw [if_neg (by rw [hlevel]; decide)]
  exact ((pends_judge ..).next (pends_transit_of_setPend 3 s _ (pends_transit 3))).kept _ _ hbit (setPend_pends _ hbit)

end

/-! Leaps. -/

theorem pends_placeRecord (s : State) (c : Nat) (words : List Nat) : Pends s (s.placeRecord c words) :=
  .wr (.ite (.refl _) ((does_writeWords ..).pends (.refl _) rfl)) (by decide) (by decide)

theorem pends_record (s : State) (c kind : Nat) (spec est : Bool) (kflags low w1 w2 w3 : Nat) : Pends s (s.record c kind spec est kflags low w1 w2 w3) := by
  have hpeak (u : State) (v : Nat) : Pends u (u.peak (pg .acq 0) Reg.ACQ_REC_STAT_PEAK v) := .ite (.wr (.refl _) (by decide) (by decide)) (.refl _)
  exact .ite (.refl _) (.ite ((pends_event ..).next (.wr ((does_setActx ..).pends (.refl _) rfl) (by decide) (by decide)))
    ((pends_placeRecord ..).next ((hpeak ..).next ((does_setActx ..).pends (.refl _) rfl))))

theorem pends_charge (s : State) (c ticks : Nat) : Pends s (s.charge c ticks) := by
  unfold State.charge
  extract_lets v _ s₁ s₂ _
  refine .via s₁ (.keep (.refl _) rfl) fun h₁ => ?_
  refine .via s₂ (.wr h₁ (by decide) (by decide)) fun h₂ => ?_
  exact .ite ((pends_event ..).next (.keep h₂ rfl)) h₂

theorem pends_countLeap (s : State) (c cause ticks samples : Nat) : Pends s (s.countLeap c cause ticks samples) := by
  unfold State.countLeap
  extract_lets s₁ _ s₂ s₃ _ s₄
  refine .via s₁ (.ite (.refl _) (pends_charge ..)) fun h₁ => ?_
  refine .via s₃ (.keep h₁ rfl) fun h₃ => ?_
  refine .via s₄ (.keep h₃ rfl) fun h₄ => ?_
  exact .ite (.ite ((pends_failProbation ..).next h₄) h₄) h₃

theorem pends_writeLeap (s : State) (c cause : Nat) (spec est : Bool) (start len : SubTick) (samples : Nat) :
    Pends s (s.writeLeap c cause spec est start len samples) := by
  unfold State.writeLeap
  refine .ite (.refl _) ?_
  extract_lets s₁ s₂ a a' a' s₃ s₄
  refine .via s₁ ((does_levelLeap ..).pends (.refl _) rfl) fun h₁ => ?_
  refine .via s₂ ((pends_record ..).next h₁) fun h₂ => ?_
  refine .via s₃ ((does_setActx ..).pends h₂ rfl) fun h₃ => ?_
  refine .via s₄ (.ite ((pends_countLeap ..).next h₃) h₃) fun h₄ => ?_
  exact (pends_event ..).next h₄

theorem pends_endLeap (s : State) (c : Nat) (spec : Bool) (stop : SubTick) : Pends s (s.endLeap c spec stop) := by
  unfold State.endLeap
  extract_lets a s₁
  split
  · exact .refl _
  · exact (pends_writeLeap ..).next ((does_setActx ..).pends (.refl _) rfl)

theorem pends_openLeap (s : State) (c : Nat) (spec : Bool) (cause : Nat) (start : SubTick) (est : Bool) :
    Pends s (s.openLeap c spec cause start est) := by
  unfold State.openLeap
  extract_lets a s₁ a'
  refine .ite (.refl _) ?_
  split
  · exact .ite (.refl _) ((does_setActx ..).pends (pends_endLeap ..) rfl)
  · exact (does_setActx ..).pends (.refl _) rfl

theorem pends_loseSpan (s : State) (c : Nat) (spec : Bool) (cause : Nat) (start len : SubTick) (samples : Nat) :
    Pends s (s.loseSpan c spec cause start len samples) := by
  unfold State.loseSpan
  extract_lets a s₁ a'
  split
  · exact .ite (pends_writeLeap ..) (.ite (pends_writeLeap ..) ((does_setActx ..).pends ((pends_writeLeap ..).next (pends_endLeap ..)) rfl))
  · exact pends_writeLeap ..

theorem pends_flushRuns (s : State) (c : Nat) : Pends s (s.flushRuns c) :=
  .each _ ((does_setXfc ..).pends (.refl _) rfl) fun _ _ h => (pends_loseSpan ..).next h

theorem pends_prevLost (s : State) (c cause : Nat) : Pends s (s.prevLost c cause) := by
  unfold State.prevLost
  split
  · exact .refl _
  · extract_lets k stop s₁ s₂
    refine .via s₂ (.ite ((pends_loseSpan ..).next (pends_flushRuns ..)) (pends_flushRuns ..)) fun h₂ => ?_
    exact (does_prevCut ..).pends h₂ rfl

theorem pends_lose (s : State) (c cause : Nat) (start : SubTick) (est : Bool) : Pends s (s.lose c cause start est) := by
  unfold State.lose
  refine .ite (.ite (pends_prevLost ..) (.refl _)) ?_
  extract_lets s₁ from_ s₂ s₃
  refine .via s₁ (.ite (pends_flushRuns ..) (.refl _)) fun h₁ => ?_
  refine .via s₂ ((pends_openLeap ..).next h₁) fun h₂ => ?_
  refine .via s₃ (.ite ((pends_openLeap ..).next h₂) h₂) fun h₃ => ?_
  exact .ite ((does_prevCut ..).pends h₃ rfl) h₃

theorem pends_streamLost (s : State) (u : HopUse) : Pends s (s.streamLost u) := by
  unfold State.streamLost
  extract_lets c
  split
  · exact pends_lose ..
  · exact pends_openLeap ..
  · split
    · exact pends_openLeap ..
    · exact .refl _
  · exact .refl _

end Sys2Proof.Machine
end

section
/-!
PROOF. The fabric: parity errors and replays, retrains, injected errors, and the stream watchdog (R528 to R536, R549).
-/
namespace Sys2Proof.Machine

/-! Hops. -/

section
variable {s u : State}

theorem hop_of_rel (e : u.rel.hop = s.rel.hop) (h j : Nat) : u.hop h j = s.hop h j := by rw [State.hop, e, State.hop]

theorem hop_advance (s : State) (t h j : Nat) : (s.advance t).hop h j = s.hop h j := hop_of_rel (congrArg RelSt.hop (State.advance_rel ..)) h j

@[simp] theorem hop_setHop_same (s : State) (h j : Nat) (x : HopSt) : (s.setHop h j x).hop h j = x := smGet_set_self ..

theorem hop_setHop_ne (s : State) {h i j : Nat} (hne : i ≠ j) (x : HopSt) : (s.setHop h j x).hop h i = s.hop h i := smGet_set_ne (by omega) ..

theorem rd_setHop (s : State) (h j : Nat) (x : HopSt) (p : Nat) (f : Fld) : (s.setHop h j x).rd p f = s.rd p f := rd_of_rf rfl ..

theorem hop_setRaw (s : State) (id : Nat) (b : Bool) (h j : Nat) : (s.setRaw id b).hop h j = s.hop h j :=
  hop_of_rel (by rw [(raiseStep_setRaw s id b).rel]) h j

theorem hop_hopLevel (s : State) (h i j : Nat) : (s.hopLevel h).hop i j = s.hop i j := hop_setRaw ..

theorem hop_wr (s : State) (p : Nat) (f : Fld) (v h j : Nat) : (s.wr p f v).hop h j = s.hop h j := rfl

theorem evReg_fab : ∀ h : Fin 64, ∀ o ∈ [0x100, 0x108, 0x120, 0x128], evReg (pg .fab h) o = false := by decide

theorem rd_hopLevel (s : State) (h : Fin 64) {f : Fld} (hf : f.placed) (ho : f.off ∈ [0x100, 0x108, 0x120, 0x128]) :
    (s.hopLevel h).rd (pg .fab h) f = s.rd (pg .fab h) f := rd_setRaw _ _ _ hf (evReg_fab h _ ho)

theorem hopThere_advance (t h j : Nat) : (s.advance t).hopThere h j = s.hopThere h j := by rw [State.hopThere, advance_rd, State.hopThere]
theorem hopFailed_advance (t h j : Nat) : (s.advance t).hopFailed h j = s.hopFailed h j := by rw [State.hopFailed, advance_rd, State.hopFailed]
theorem hopOos_advance (t h j : Nat) : (s.advance t).hopOos h j = s.hopOos h j := by rw [State.hopOos, advance_rd, State.hopOos]

/-- A bit of a field of eight that is written. -/
theorem testBit_eight {v k : Nat} (hk : k < 8) : (v % 2 ^ 8).testBit k = v.testBit k := by
  rw [Nat.testBit_mod_two_pow, decide_eq_true hk, Bool.true_and]

end

/-! Errors and replays. -/

section
variable {s : State}

theorem hop_injected (u : State) (h j : Nat) : (u.injected h j).hop h j = { u.hop h j with inject := (u.hop h j).inject - 1 } := by
  unfold State.injected
  dsimp only
  split
  · exact (hop_wr ..).trans (hop_setHop_same ..)
  · exact hop_setHop_same ..

theorem hop_hopReplay (u : State) (h j : Nat) : (u.hopReplay h j).hop h j = { u.hop h j with replays := (u.hop h j).replays + 1 } := by
  unfold State.hopReplay
  extract_lets x v
  exact (hop_of_rel (s := u.setHop h j { x with replays := x.replays + 1 }) rfl h j).trans (hop_setHop_same ..)

theorem rd_parity_injected (u : State) (h j : Nat) : (u.injected h j).rd (pg .fab h) Reg.FAB_PAR_CNT_PARITY = u.rd (pg .fab h) Reg.FAB_PAR_CNT_PARITY := by
  unfold State.injected
  dsimp only
  split
  · exact (rd_wr_field _ _ (by decide) (by decide) (by decide)).trans (rd_setHop ..)
  · exact rd_setHop ..

theorem rd_parity_hopReplay (u : State) (h j : Nat) :
    (u.hopReplay h j).rd (pg .fab h) Reg.FAB_PAR_CNT_PARITY = u.rd (pg .fab h) Reg.FAB_PAR_CNT_PARITY := by
  unfold State.hopReplay
  extract_lets x v
  exact (rd_of_rf (s := v) rfl ..).trans ((rd_wr_field _ _ (by decide) (by decide) (by decide)).trans (rd_setHop ..))

theorem fabricParityError_counts (t : Nat) (h : Fin 64) (j : Fin 8) (words : List Word) (got : FabWord) (hthere : s.hopThere h j = true)
    (hserves : s.hopFailed h j = false ∧ s.hopOos h j = false) (hidle : (s.hop h j).replays = 0) (hbad : fabBad got = true ∨ (s.hop h j).inject ≠ 0) :
    Gives (.fabricParityError t h j words got) s fun u => u.rd (pg .fab h) Reg.FAB_PAR_CNT_PARITY =
        min (s.rd (pg .fab h) Reg.FAB_PAR_CNT_PARITY + 1) (2 ^ Reg.FAB_PAR_CNT_PARITY.width - 1) ∧
      (u.hop h j).replays = 1 ∧ (u.hop h j).buf = (words.take 32).map fabWord := by
  refine .of_next rfl ?_
  dsimp only
  rw [hopThere_advance, hopFailed_advance, hopOos_advance, hop_advance, hthere, hserves.1, hserves.2, hidle, if_neg ?_]
  · rw [rd_parity_hopReplay, rd_parity_injected, rd_bumpSat, rd_setHop, advance_rd, hop_hopReplay, hop_injected]
    exact ⟨rfl, by rw [State.bumpSat, hop_wr, hop_setHop_same], by rw [State.bumpSat, hop_wr, hop_setHop_same]⟩
  · rcases hbad with hbad | hinject
    · simp [hbad]
    · simp [hinject]

theorem fabricParityError_odd (t : Nat) (h : Fin 64) (j : Fin 8) (words : List Word) {got : FabWord}
    (hgood : fabBad got = false ∧ (s.hop h j).inject = 0) : Gives (.fabricParityError t h j words got) s fun u => u = s.advance t := by
  refine .of_next rfl ?_
  dsimp only
  rw [hop_advance, hgood.1, hgood.2, if_pos (by simp)]

theorem replayResult_right (t : Nat) (h : Fin 64) (j : Fin 8) {got : FabWord} (uses : List HopUse) (hpend : (s.hop h j).replays ≠ 0)
    (hgood : fabBad got = false ∧ (s.hop h j).inject = 0) : Gives (.replayResult t h j got uses) s fun u =>
      u = (s.advance t).setHop h j { s.hop h j with replays := 0, buf := [] } := by
  refine .of_next rfl ?_
  dsimp only
  rw [hop_advance, hgood.1, hgood.2, if_neg hpend, if_pos (by decide)]

/-- A hop that is declared failed. -/
theorem hopFail_fails (u : State) (h : Fin 64) (j : Fin 8) (uses : List HopUse) : ((u.hopFail h j uses).hop h j).replays = 0 ∧
    ((u.hopFail h j uses).hop h j).buf = [] ∧ ((u.hopFail h j uses).hop h j).retraining = true ∧ ((u.hopFail h j uses).hop h j).uses = uses ∧
    (u.hopFail h j uses).hopFailed h j = true := by
  unfold State.hopFail
  extract_lets p _ v w cause x y d
  have hfailed : w.rd p Reg.FAB_HOP_STAT_FAILED = setBit (v.rd p Reg.FAB_HOP_STAT_FAILED) j % 2 ^ 8 := by
    refine (rd_wr_field _ _ (by decide) (by decide) (by decide)).trans ?_
    exact rd_wrs_eq _ rfl (by decide) rfl
  have hx : x.rd p Reg.FAB_HOP_STAT_FAILED = w.rd p Reg.FAB_HOP_STAT_FAILED := rd_hopLevel _ _ (by decide) (by decide)
  have hy : y.rd p Reg.FAB_HOP_STAT_FAILED = x.rd p Reg.FAB_HOP_STAT_FAILED := by
    unfold y
    split
    · exact rd_of_rf rfl ..
    · rfl
  rw [hop_setHop_same, State.hopFailed, rd_setHop, hy, hx, hfailed, testBit_eight j.isLt, testBit_setBit, if_pos rfl]
  exact ⟨rfl, rfl, rfl, rfl, rfl⟩

theorem replayResult_wrong (t : Nat) (h : Fin 64) (j : Fin 8) {got : FabWord} (uses : List HopUse) (hpend : (s.hop h j).replays ≠ 0)
    (hbad : fabBad got = true ∨ (s.hop h j).inject ≠ 0) : Gives (.replayResult t h j got uses) s fun u =>
      if (s.hop h j).replays < 3 then (u.hop h j).replays = (s.hop h j).replays + 1 ∧ (u.hop h j).buf = (s.hop h j).buf
      else (u.hop h j).replays = 0 ∧ (u.hop h j).buf = [] ∧ (u.hop h j).retraining = true ∧ (u.hop h j).uses = uses ∧ u.hopFailed h j = true := by
  have hwrong : (!fabBad got && decide ((s.hop h j).inject = 0)) = false := by
    rcases hbad with hbad | hinject
    · rw [hbad]
      rfl
    · rw [decide_eq_false hinject, Bool.and_false]
  refine .of_next rfl ?_
  dsimp only
  rw [hop_advance, if_neg hpend, hwrong, if_neg (show ¬(false = true) by decide)]
  split
  · rw [hop_hopReplay, hop_injected, hop_advance]
    exact ⟨rfl, rfl⟩
  · exact hopFail_fails ((s.advance t).injected h j) h j uses

/-! Retrains. -/

theorem testBit_clrBit (n i j : Nat) : (clrBit n i).testBit j = if j = i then false else n.testBit j := testBit_putBit n i j false

theorem hopRetrainDone_succeeds (t : Nat) (h : Fin 64) (j : Fin 8) (hr : (s.hop h j).retraining = true) : Gives (.hopRetrainDone t h j true) s fun u =>
    (u.hop h j).retraining = false ∧ (u.hop h j).uses = [] ∧ u.hopFailed h j = false ∧ u.hopOos h j = false := by
  refine .of_next rfl ?_
  dsimp only
  rw [hop_advance, hr, if_neg (by decide), if_pos rfl, hop_hopLevel, hop_setHop_same]
  have cleared {r n : Nat} (e : r = clrBit n j % 2 ^ 8) : r.testBit j = false := by rw [e, testBit_eight j.isLt, testBit_clrBit, if_pos rfl]
  refine ⟨rfl, rfl, ?_, ?_⟩
  · rw [State.hopFailed, rd_hopLevel _ _ (by decide) (by decide), rd_setHop]
    exact cleared (rd_wrs_eq _ rfl (by decide) rfl)
  · rw [State.hopOos, rd_hopLevel _ _ (by decide) (by decide), rd_setHop]
    exact cleared (rd_wrs_eq _ rfl (by decide) rfl)

theorem hopRetrainDone_fails (t : Nat) (h : Fin 64) (j : Fin 8) (hr : (s.hop h j).retraining = true) (hin : s.hopOos h j = false) :
    Gives (.hopRetrainDone t h j false) s fun u => if (s.hop h j).failed + 1 < 3 then u.hop h j = { s.hop h j with failed := (s.hop h j).failed + 1 }
      else (u.hop h j).retraining = false ∧ u.hopOos h j = true := by
  refine .of_next rfl ?_
  dsimp only
  rw [hop_advance, hr, if_neg (show ¬((!true) = true) by decide), if_neg (show ¬(false = true) by decide)]
  have hnow (k : Nat) : ((s.advance t).bumpSat (pg .fab h) Reg.FAB_FAIL_CNT_RETRAINS k).hopOos h j = false := by
    rw [State.hopOos, State.bumpSat, rd_wr_field _ _ (by decide) (by decide) (by decide), advance_rd]
    exact hin
  rw [hnow, if_neg (show ¬(false = true) by decide)]
  split
  · rw [hop_setHop_same]
  · rw [hop_hopLevel, hop_setHop_same, State.hopOos, rd_hopLevel _ _ (by decide) (by decide), rd_setHop, rd_wr_self,
      show Reg.FAB_HOP_STAT_OOS.width = 8 from rfl, testBit_eight j.isLt, testBit_setBit, if_pos rfl]
    exact ⟨rfl, rfl⟩

/-- Hops asked to retrain, one by one. -/
theorem retraining_each {f : State → Nat → State} (h : Nat) (hf : ∀ u i, ((f u i).hop h i).retraining = true)
    (hne : ∀ u i k, k ≠ i → (f u i).hop h k = u.hop h k) (l : List Nat) (u : State) (j : Nat) (hj : j ∈ l ∨ (u.hop h j).retraining = true) :
    ((u.each l f).hop h j).retraining = true := by
  induction l generalizing u with
  | nil => exact hj.resolve_left List.not_mem_nil
  | cons i l ih =>
    rw [each_cons]
    refine ih _ ?_
    by_cases hi : j = i
    · subst hi
      exact .inr (hf u j)
    · rw [hne u i j hi]
      exact hj.imp_left fun hm => (List.mem_cons.1 hm).resolve_left hi

theorem fabCtl_retrains (u : State) (h v : Nat) {j : Nat} (hj : j < 8) (hv : (bits v 15 8).testBit j = true) (hout : u.hopOos h j = true) :
    ((u.fabCtl h v).hop h j).retraining = true := by
  unfold State.fabCtl
  extract_lets p w
  have hw : (w.hop h j).retraining = true := by
    refine retraining_each h (fun x i => ?_) (fun x i k hk => ?_) _ u j ?_
    · exact congrArg HopSt.retraining ((hop_wr ..).trans (hop_setHop_same ..))
    · exact (hop_wr ..).trans (hop_setHop_ne _ hk _)
    · rw [List.mem_filter, mem_bitsOf, hout]
      cases (u.hop h j).retraining <;> simp [hj, hv]
  split
  · exact (congrArg HopSt.retraining (hop_of_rel (s := w) rfl h j)).trans hw
  · exact hw

theorem retrainNow_gives (t : Nat) (h : Fin 64) (mask : BitVec 8) (hopen : s.hostOpen (pg .fab h)) : Gives (.retrainNow t h mask) s fun u =>
    ∀ j : Fin 8, mask.getLsbD j = true → s.hopOos h j = true → (u.hop h j).retraining = true := by
  refine .of_next rfl ?_
  rw [hosted_of_open (hostOpen_advance t hopen)]
  intro j hm hout
  have hbits : bits (mask.toNat * 2 ^ 8) 15 8 = mask.toNat := by
    have := mask.isLt
    unfold bits
    omega
  exact fabCtl_retrains _ h _ j.isLt (by rw [hbits]; exact hm) (by rw [hopOos_advance]; exact hout)

theorem fabClr_gives (t : Nat) (h : Fin 64) (hopen : s.hostOpen (pg .fab h)) : Gives (.fabClr t h) s fun u =>
    ∀ f ∈ [Reg.FAB_PAR_CNT_PARITY, Reg.FAB_PAR_CNT_REPLAYS, Reg.FAB_FAIL_CNT_HOP_FAILS, Reg.FAB_FAIL_CNT_RETRAINS], u.rd (pg .fab h) f = 0 := by
  refine .of_next rfl ?_
  rw [hosted_of_open (hostOpen_advance t hopen)]
  unfold State.fabCtl
  rw [if_pos (by decide)]
  simp only [List.forall_mem_cons, List.not_mem_nil, false_implies, implies_true, and_true]
  exact ⟨rd_wrs_eq _ rfl (by decide) rfl, rd_wrs_eq _ rfl (by decide) rfl, rd_wrs_eq _ rfl (by decide) rfl, rd_wrs_eq _ rfl (by decide) rfl⟩

/-! Injected errors. -/

/-- Hops whose next transmissions are to be corrupted, one by one: `n` of each, and its bit of GO. -/
theorem injects_each (h n : Nat) (l : List Nat) (u : State) {j : Nat} (hj : j < 8)
    (hin : j ∈ l ∨ ((u.hop h j).inject = n ∧ (u.rd (pg .fab h) Reg.FAB_INJECT_GO).testBit j = true)) :
    ((u.each l fun s i => (s.setHop h i { s.hop h i with inject := n }).wr (pg .fab h) Reg.FAB_INJECT_GO
      (setBit (s.rd (pg .fab h) Reg.FAB_INJECT_GO) i)).hop h j).inject = n ∧
    ((u.each l fun s i => (s.setHop h i { s.hop h i with inject := n }).wr (pg .fab h) Reg.FAB_INJECT_GO
      (setBit (s.rd (pg .fab h) Reg.FAB_INJECT_GO) i)).rd (pg .fab h) Reg.FAB_INJECT_GO).testBit j = true := by
  induction l generalizing u with
  | nil => exact hin.resolve_left List.not_mem_nil
  | cons i l ih =>
    rw [each_cons]
    refine ih _ ?_
    rw [hop_wr, rd_wr_self, show Reg.FAB_INJECT_GO.width = 8 from rfl, testBit_eight hj, testBit_setBit]
    by_cases hi : j = i
    · subst hi
      exact .inr ⟨congrArg HopSt.inject (hop_setHop_same ..), if_pos rfl⟩
    · rw [hop_setHop_ne _ hi, if_neg hi]
      exact hin.imp_left fun hm => (List.mem_cons.1 hm).resolve_left hi

theorem inject_gives (t : Nat) (h : Fin 64) (count : Fin 4) (mask : BitVec 8) (hopen : s.hostOpen (pg .fab h)) : Gives (.inject t h count mask) s fun u =>
    ∀ j : Fin 8, mask.getLsbD j = true → s.hopThere h j = true →
      (u.hop h j).inject = (if count.val = 0 then 1 else if count.val = 3 then 4 else count.val) ∧
      (u.rd (pg .fab h) Reg.FAB_INJECT_GO).testBit j = true := by
  refine .of_next rfl ?_
  rw [hosted_of_open (hostOpen_advance t hopen)]
  intro j hm hthere
  have hn : (match count.val with | 0 => 1 | 3 => 4 | k => k) = if count.val = 0 then 1 else if count.val = 3 then 4 else count.val := by
    revert count
    decide
  rw [← hn]
  refine injects_each h _ _ _ j.isLt (.inl (List.mem_filter.2 ⟨mem_bitsOf.2 ⟨j.isLt, hm⟩, ?_⟩))
  exact (hopThere_advance ..).trans hthere

/-! The stream watchdog. -/

theorem pathOutage_advance (t : Nat) (path : List (Fin 64 × Fin 8)) (k : Nat) : (s.advance t).pathOutage path k = s.pathOutage path k := by
  simp only [State.pathOutage, State.streamWd, hop_advance, hopFailed_advance, hopOos_advance, advance_rd]
  rfl

theorem held_of_replay {t : Nat} {path : List (Fin 64 × Fin 8)} (hg : s.gated = false) (hpath : ∀ y ∈ path, (s.hop y.1 y.2).replays = 0) :
    ((s.advance t).gated || path.any (fun x => ((s.advance t).hop x.1 x.2).replays != 0)) = false := by
  have hg' : (s.advance t).gated = false := by simpa only [State.gated, State.on, advance_rd] using hg
  rw [hg', Bool.false_or, List.any_eq_false]
  intro y hy
  rw [hop_advance, hpath y hy]
  decide

theorem streamWdExpiry_consequent (t : Nat) {path : List (Fin 64 × Fin 8)} (use : HopUse) {x : HopSt} (hg : s.gated = false)
    (hpath : ∀ y ∈ path, (s.hop y.1 y.2).replays = 0) (hout : s.pathOutage path (s.advance t).tick = some x) :
    Gives (.streamWdExpiry t path use) s fun u => u = (s.advance t).logFault ⟨0, x.cause, true, 3, evId .vgl 0 2, (s.advance t).tick⟩ := by
  refine .of_next rfl ?_
  rw [held_of_replay hg hpath, if_neg (by decide), pathOutage_advance, hout]

theorem streamWdExpiry_raises (t : Nat) {path : List (Fin 64 × Fin 8)} (use : HopUse) (hg : s.gated = false)
    (hpath : ∀ y ∈ path, (s.hop y.1 y.2).replays = 0) (hout : s.pathOutage path (s.advance t).tick = none)
    (hsilent : (s.advance t).streamSilent use = true) (hlevel : (s.rd (pg .vgl 0) Reg.EV_RAW).testBit 2 = false) :
    Gives (.streamWdExpiry t path use) s fun u => (u.rd (pg .vgl 0) Reg.EV_PEND).testBit 2 = true := by
  refine .of_next rfl ?_
  rw [held_of_replay hg hpath, if_neg (by decide), pathOutage_advance, hout]
  dsimp only
  rw [if_pos hsilent]
  refine (pends_streamLost ..).kept _ _ (by decide) (event_pends _ .vgl 0 2 (by decide) ?_)
  rw [rd_occur, advance_rd]
  exact hlevel

end

/-- Settles O44: what a silent stream's consumer loses raises other events, and none of them clears the watchdog's own. -/
theorem fabricCommandsComplete : Obligations.FabricCommandsComplete :=
  ⟨fun t h j words got _ hthere hserves hidle hbad => fabricParityError_counts t h j words got hthere hserves hidle hbad,
    fun t h j words _ _ hgood => fabricParityError_odd t h j words hgood, fun t h j _ uses _ hp hgood => replayResult_right t h j uses hp hgood,
    fun t h j _ uses _ hp hbad => replayResult_wrong t h j uses hp hbad, fun t h j _ hr => hopRetrainDone_succeeds t h j hr,
    fun t h j _ hr hin => hopRetrainDone_fails t h j hr hin, fun t h mask _ hopen => retrainNow_gives t h mask hopen,
    fun t h count mask _ hopen => inject_gives t h count mask hopen, fun t h _ hopen => fabClr_gives t h hopen,
    fun t _ use _ _ hg hpath hout => streamWdExpiry_consequent t use hg hpath hout,
    fun t _ use _ hg hpath hout hsilent hlevel => streamWdExpiry_raises t use hg hpath hout hsilent hlevel⟩

end Sys2Proof.Machine
end

section
/-!
PROOF. The memory channels: serving a request, refreshes, self-refresh and row throttles (R395 to R410, R414, R415, R418).
-/
namespace Sys2Proof.Machine

/-! What serving a request leaves once it is counted. -/

/-- From `s` to `u` channel `c`'s count of corrected errors, the ticks of the last requests and the queues have not changed. -/
structure Counted (c : Nat) (s u : State) : Prop where
  corr : u.rd (pg .mch c) Reg.MCH_ERR_CNT_CORR = s.rd (pg .mch c) Reg.MCH_ERR_CNT_CORR
  last : u.mem.lastReq = s.mem.lastReq
  queue : u.mem.queue = s.mem.queue

section
variable {c : Nat} {s t u : State}

theorem Counted.refl (c : Nat) (s : State) : Counted c s s := ⟨rfl, rfl, rfl⟩

theorem Counted.next (k : Counted c t u) (h : Counted c s t) : Counted c s u := ⟨k.corr.trans h.corr, k.last.trans h.last, k.queue.trans h.queue⟩

theorem Counted.via (x : State) (hx : Counted c s x) (h : Counted c s x → Counted c s u) : Counted c s u := h hx

/-- A change of other parts of the memory, or of other parts altogether. -/
theorem Counted.keep (h : Counted c s t) (hrf : u.rf = t.rf) (hl : u.mem.lastReq = t.mem.lastReq) (hq : u.mem.queue = t.mem.queue) : Counted c s u :=
  .next ⟨rd_of_rf hrf .., hl, hq⟩ h

theorem Counted.wr {p v : Nat} {f : Fld} (h : Counted c s t) (hf : f.placed) (hne : ¬(0x110 = f.off ∧ 32 = f.lo)) : Counted c s (t.wr p f v) :=
  .next ⟨rd_wr_other _ _ hf (by decide) fun e => hne e.2, rfl, rfl⟩ h

/-- The fields that a list of writes names stand within their page, and none is the count. -/
def noCorr (l : List (Fld × Nat)) : Bool := l.all fun x => decide (x.1.placed ∧ ¬(0x110 = x.1.off ∧ 32 = x.1.lo))

theorem Counted.wrs {p : Nat} {l : List (Fld × Nat)} (h : Counted c s t) (hl : noCorr l = true) : Counted c s (t.wrs p l) := by
  induction l generalizing t with
  | nil => exact h
  | cons x l ih =>
    simp only [noCorr, List.all_cons, Bool.and_eq_true, decide_eq_true_eq] at hl
    exact ih (h.wr hl.1.1 hl.1.2) hl.2

theorem Counted.ite {k : Prop} [Decidable k] {a b : State} (ha : Counted c s a) (hb : Counted c s b) : Counted c s (if k then a else b) := by
  split
  · exact ha
  · exact hb

theorem Counted.when {f : State → State} (b : Bool) (h : Counted c s t) (hf : ∀ t, Counted c s t → Counted c s (f t)) : Counted c s (t.when b f) := by
  cases b
  · exact h
  · exact hf t h

theorem Counted.each {α : Type} {f : State → α → State} (l : List α) (h : Counted c s t) (hf : ∀ t a, Counted c s t → Counted c s (f t a)) :
    Counted c s (t.each l f) := List.foldlRecOn l f h fun t ht a _ => hf t a ht

theorem evReg_corr : ∀ c : Fin 64, evReg (pg .mch c) 0x110 = false := by decide

/-- A step of an event's raising. -/
theorem EvStep.counted {c : Fin 64} (k : EvStep t u) (h : Counted c s t) : Counted c s u :=
  .next ⟨k.rd (by decide) (evReg_corr c), congrArg MemSt.lastReq k.mem, congrArg MemSt.queue k.mem⟩ h

end

section
variable {c : Fin 64}

theorem counted_event (s : State) (b : Blk) (i k : Nat) : Counted c s (s.event b i k) := (evStep_event ..).counted (.refl ..)

theorem counted_occur (s : State) (a b : Nat) : Counted c s (s.occur a b) := .keep (.refl ..) rfl rfl rfl

theorem counted_bumpSat (s : State) (p : Nat) {f : Fld} (k : Nat) (hf : f.placed) (hne : ¬(0x110 = f.off ∧ 32 = f.lo)) :
    Counted c s (s.bumpSat p f k) := .wr (.refl ..) hf hne

theorem counted_failEntry (s : State) (kind d sid spare : Nat) : Counted c s (s.failEntry kind d sid spare) := .keep (.refl ..) rfl rfl rfl

theorem counted_chanLevels (s : State) (d : Nat) : Counted c s (s.chanLevels d) := (evStep_setRaw ..).counted ((evStep_setRaw ..).counted (.refl ..))

theorem counted_migConseq (s : State) (d cause : Nat) : Counted c s (s.migConseq d cause) :=
  .wr (.keep (.refl ..) rfl rfl rfl) (by decide) (by decide)

theorem counted_poisonSync (s : State) (d : Nat) : Counted c s (s.poisonSync d) := .wr (.refl ..) (by decide) (by decide)

theorem counted_rankOut (s : State) (d sid cause : Nat) : Counted c s (s.rankOut d sid cause) := by
  unfold State.rankOut
  extract_lets p s₁ spare s₂ s₃ _ s₄
  refine .via s₁ (.wr (.refl ..) (by decide) (by decide)) fun h₁ => ?_
  refine .via s₂ ((counted_migConseq ..).next ((counted_failEntry ..).next h₁)) fun h₂ => ?_
  refine .via s₃ (.wrs h₂ (by rfl)) fun h₃ => ?_
  have h₄ : Counted c s { s₃ with mem := { s₃.mem with mig := some ⟨d, sid, spare, s₃.tick⟩ } } := .keep h₃ rfl rfl rfl
  exact .ite ((counted_event ..).next h₄) ((counted_chanLevels ..).next ((counted_failEntry ..).next h₁))

theorem counted_poisonBurst (s : State) (d a : Nat) : Counted c s (s.poisonBurst d a) :=
  .ite ((counted_poisonSync ..).next (.keep (.refl ..) rfl rfl rfl)) (.wr (.refl ..) (by decide) (by decide))

theorem counted_poisonClear (s : State) (a n : Nat) : Counted c s (s.poisonClear a n) := by
  unfold State.poisonClear
  refine List.foldlRecOn _ _ (motive := Counted c s) (.refl ..) fun v hv w _ => ?_
  refine .ite ?_ hv
  extract_lets _ x
  have hx : Counted c s x := hv.keep rfl rfl rfl
  split
  · exact (counted_poisonSync ..).next hx
  · exact hx

theorem counted_uncorrectable (s : State) (a kind : Nat) : Counted c s (s.uncorrectable a kind) := by
  unfold State.uncorrectable
  split
  · exact .refl ..
  · extract_lets d p sid s₁ cause s₂ s₃
    refine .via s₁ (.ite (.refl ..) (.wrs (.refl ..) (by rfl))) fun h₁ => ?_
    refine .via s₂ ((counted_event ..).next ((counted_occur ..).next ((counted_bumpSat _ _ _ (by decide) (by decide)).next h₁))) fun h₂ => ?_
    refine .via s₃ ((counted_poisonBurst ..).next h₂) fun h₃ => ?_
    exact .ite h₃ ((counted_rankOut ..).next h₃)

theorem counted_rollWindow (s : State) (st t : Nat) : Counted c s (s.rollWindow st t) := .ite (.refl ..) (.keep (.refl ..) rfl rfl rfl)

theorem counted_activate (s : State) (pc a k t : Nat) : Counted c s (s.activate pc a k t) := by
  unfold State.activate
  split
  · exact .refl ..
  · extract_lets d st p s₁ sid row key n last _ s₂ th v stop _ s₃ s₄ q
    refine .via s₂ (.keep (counted_rollWindow ..) rfl rfl rfl) fun h₂ => ?_
    refine .via s₃ (.keep h₂ rfl rfl rfl) fun h₃ => ?_
    refine .via s₄ ((counted_bumpSat _ _ _ (by decide) (by decide)).next (.wrs h₃ (by rfl))) fun h₄ => ?_
    refine .ite ((counted_event ..).next ((counted_bumpSat _ _ _ ?_ ?_).next (.wr h₄ ?_ ?_))) h₂
    all_goals
      simp only [Fld.placed, Reg.MST_CLASS_THROTTLED, Reg.MST_CLASS_THROT_CNT]
      omega

theorem counted_occupy (s : State) (pc n : Nat) : Counted c s (s.occupy pc n) := .ite (.refl ..) (.keep (.refl ..) rfl rfl rfl)

theorem counted_issueAll (s : State) (pc : Nat) : Counted c s (s.issueAll pc) := by
  unfold State.issueAll
  generalize hv : s.occupy pc (refreshTicks (smGet 0 pc s.mem.postponed)) = v
  have h : Counted c s v := hv ▸ counted_occupy ..
  exact .wr (.keep h rfl rfl rfl) (by decide) (by decide)

end

/-! Serving a request. -/

/-- What serving request `r` at tick `t` leaves. -/
structure Served (c t : Nat) (r : MemReq) (s u : State) : Prop where
  last : smFind c u.mem.lastReq = some t
  queue : u.mem.queue = s.mem.queue
  corr : s.hole r.addr = false → u.rd (pg .mch c) Reg.MCH_ERR_CNT_CORR =
    min (s.rd (pg .mch c) Reg.MCH_ERR_CNT_CORR + r.corr) (2 ^ Reg.MCH_ERR_CNT_CORR.width - 1)

theorem Served.counted {c t : Nat} {r : MemReq} {s u v : State} (h : Served c t r s u) (k : Counted c u v) : Served c t r s v :=
  ⟨by rw [k.last, h.last], by rw [k.queue, h.queue], fun hh => by rw [k.corr, h.corr hh]⟩

section
variable {s u : State}

theorem hole_of_same (er : u.rf = s.rf) (em : u.mem.omitted = s.mem.omitted) (a : Nat) : u.hole a = s.hole a := by
  unfold State.hole State.locate State.inService State.rankHole State.chanState State.sidOf State.on
  rw [em, rd_eq_of_rf er]

theorem queueOf_of_queue (e : u.mem.queue = s.mem.queue) (pc : Nat) : u.queueOf pc = s.queueOf pc := by rw [State.queueOf, e, State.queueOf]

theorem served_serve (s : State) (c : Fin 64) {pc : Nat} (hc : pc / 2 = c) (t : Nat) (r : MemReq) : Served c t r s (s.serve pc t r) := by
  unfold State.serve
  rw [hc]
  extract_lets d p s₁ _ s₂ s₃ s₄ s₅ _ s₆ s₇ s₈
  have hrf : s₂.rf = s.rf := (does_occupy s pc _).only .rf (by decide)
  have homit : s₁.mem.omitted = s.mem.omitted := by
    unfold s₁ State.occupy
    split <;> rfl
  have hq : s₂.mem.queue = s.mem.queue := (counted_occupy (c := c) s pc _).queue
  have hlast : smFind c s₂.mem.lastReq = some t := smFind_insert_self ..
  have hhole : s₂.hole r.addr = s.hole r.addr := hole_of_same hrf homit _
  split
  next h => exact ⟨hlast, hq, fun h' => by rw [hhole, h'] at h; cases h⟩
  next =>
    have h₃ : Counted c s₂ s₃ := .when _ (.refl ..) fun _ h => .wr h (by decide) (by decide)
    have h₄ : Served c t r s s₄ := by
      have hoccur : Counted c (s₃.bumpSat p Reg.MCH_ERR_CNT_CORR r.corr) s₄ := .each _ (.refl ..) fun _ _ h => (counted_occur ..).next h
      refine .counted ⟨?_, ?_, fun _ => ?_⟩ hoccur
      · exact (congrArg (smFind c) h₃.last).trans hlast
      · exact h₃.queue.trans hq
      · rw [rd_bumpSat, h₃.corr, rd_of_rf hrf]
    refine h₄.counted ?_
    refine .via s₅ (counted_bumpSat _ _ _ (by decide) (by decide)) fun h₅ => ?_
    refine .via s₆ (.ite h₅ (.keep h₅ rfl rfl rfl)) fun h₆ => ?_
    refine .via s₇ (.when _ h₆ fun _ h => (counted_activate ..).next h) fun h₇ => ?_
    refine .via s₈ ?_ fun h₈ => ?_
    · unfold s₈
      refine .ite ((counted_uncorrectable ..).next h₇) ?_
      split
      · exact (counted_uncorrectable ..).next h₇
      · exact h₇
    exact .ite (.ite ((counted_uncorrectable ..).next h₇) ((counted_poisonClear ..).next h₇))
      (.when _ h₈ fun _ h => (counted_bumpSat _ _ _ (by decide) (by decide)).next h)

/-- The arbitration's turns change its own deficits and turns alone. -/
theorem robin_same {pc n : Nat} {l : List QueuedReq} {x : Nat × State} (h : s.robin pc l n = some x) :
    x.2.rf = s.rf ∧ x.2.mem.queue = s.mem.queue ∧ x.2.mem.omitted = s.mem.omitted := by
  induction n generalizing s with
  | zero => cases h
  | succ n ih =>
    unfold State.robin at h
    extract_lets m d _ y at h
    split at h
    · split at h
      · cases h
        exact ⟨rfl, rfl, rfl⟩
      · split at h
        · have hy := ih h
          exact hy
        · have hy := ih h
          exact hy
    · have hy := ih h
      exact hy

theorem pick_same {pc t k : Nat} {l : List QueuedReq} {v : State} (h : s.pick pc t l = some (k, v)) :
    v.rf = s.rf ∧ v.mem.queue = s.mem.queue ∧ v.mem.omitted = s.mem.omitted := by
  unfold State.pick at h
  split at h
  · cases h
    exact ⟨rfl, rfl, rfl⟩
  · exact robin_same h

theorem seq_dequeue {pc n : Nat} {x : QueuedReq} (hx : x ∈ (s.dequeue pc n).queueOf pc) : x.seq ≠ n := by
  rw [State.dequeue, State.queueOf, smGet_set_self] at hx
  simpa using (List.mem_filter.1 hx).2

theorem memoryRequest_gives (t k : Nat) (pc : Fin 128) (new : List MemReq) (pick : Fin 32) {q : QueuedReq} {v v' : State}
    (hv : v = (s.advance t).each new (fun s r => s.enqueue pc t r)) (hfree : v.pcFree pc t = true)
    (hpick : v.pick pc t ((v.queueOf pc).filter (v.eligible pc t)) = some (k, v'))
    (hq : chosen ((v.queueOf pc).filter (v.eligible pc t)) k pick = some q) : Gives (.memoryRequest t pc new pick) s fun u =>
      smFind (pc.val / 2) u.mem.lastReq = some t ∧ (∀ x ∈ u.queueOf pc, x.seq ≠ q.seq) ∧ (s.hole q.req.addr = false →
        u.rd (pg .mch (pc.val / 2)) Reg.MCH_ERR_CNT_CORR =
          min (s.rd (pg .mch (pc.val / 2)) Reg.MCH_ERR_CNT_CORR + q.req.corr) (2 ^ Reg.MCH_ERR_CNT_CORR.width - 1)) := by
  let c : Fin 64 := ⟨pc.val / 2, by omega⟩
  obtain ⟨hrf', hqueue', homit'⟩ := pick_same hpick
  have henqueue : v.rf = s.rf ∧ v.mem.omitted = s.mem.omitted := by
    rw [hv]
    refine List.foldlRecOn _ _ (motive := fun x : State => x.rf = s.rf ∧ x.mem.omitted = s.mem.omitted) ?_ fun x hx r _ => ?_
    · rw [State.advance_rf, State.advance_mem]
      exact ⟨rfl, rfl⟩
    · unfold State.enqueue
      split
      · exact hx
      · exact hx
  let w := (v'.dequeue pc q.seq).serve pc t q.req
  have hw : Served c t q.req (v'.dequeue pc q.seq) w := served_serve _ c rfl t q.req
  let u := if (w.queueOf pc).isEmpty then w.issueAll pc else w
  have hu : Served c t q.req (v'.dequeue pc q.seq) u := hw.counted (.ite (counted_issueAll ..) (.refl ..))
  have hexec : exec (.memoryRequest t pc new pick) s = .next u := by
    refine congrArg Host.Outcome.next ?_
    rw [← hv, if_pos hfree, State.serveOne]
    simp only [hpick, hq]
    rfl
  have hrf : (v'.dequeue pc q.seq).rf = s.rf := hrf'.trans henqueue.1
  refine .of_next hexec ⟨hu.last, fun x hx => ?_, fun hh => ?_⟩
  · rw [queueOf_of_queue hu.queue] at hx
    exact seq_dequeue hx
  · rw [hu.corr ((hole_of_same hrf (homit'.trans henqueue.2) _).trans hh), rd_of_rf hrf]

/-! Refreshes. -/

theorem postponed_setPostponed (pc n : Nat) : smGet 0 pc (s.setPostponed pc n).mem.postponed = n := smGet_set_self ..

theorem postponed_setPostponed_ne {pc i : Nat} (h : i ≠ pc) (n : Nat) : smGet 0 i (s.setPostponed pc n).mem.postponed = smGet 0 i s.mem.postponed :=
  smGet_set_ne h ..

theorem postponed_occupy (pc n : Nat) : (s.occupy pc n).mem.postponed = s.mem.postponed := by
  unfold State.occupy
  split <;> rfl

theorem postponed_issueAll (s : State) (pc : Nat) : smGet 0 pc (s.issueAll pc).mem.postponed = 0 := by
  rw [State.issueAll, postponed_setPostponed]

theorem postponed_issueAll_ne {pc i : Nat} (h : i ≠ pc) : smGet 0 i (s.issueAll pc).mem.postponed = smGet 0 i s.mem.postponed := by
  rw [State.issueAll, postponed_setPostponed_ne h, postponed_occupy]

theorem chanState_advance (t c : Nat) : (s.advance t).chanState c = s.chanState c := advance_rd ..

theorem queueOf_advance (t pc : Nat) : (s.advance t).queueOf pc = s.queueOf pc := by rw [State.queueOf, State.advance_mem, State.queueOf]

theorem gated_advance (t : Nat) : (s.advance t).gated = s.gated := by simp only [State.gated, State.on, advance_rd]

section
variable {t : Nat} {pc : Fin 128}

/-- The state in which the next refresh of a pseudo-channel has been set. -/
theorem exec_refreshDue (hstate : s.chanState (pc / 2) = 2) (hg : s.gated = false)
    (hdue : smGet (s.advance t).tick pc s.mem.refAt ≤ (s.advance t).tick) : exec (.refreshDue t pc) s = .next (
      if (((s.advance t).nextRefresh pc).queueOf pc).isEmpty then (((s.advance t).nextRefresh pc).occupy pc (refreshTicks 1)).issueAll pc
      else if !((s.advance t).nextRefresh pc).doubled (pc.val / 32) && smGet 0 pc s.mem.postponed <
          min 8 (((s.advance t).nextRefresh pc).rd (pg .mst (pc.val / 32)) Reg.MST_REFRESH_CFG_POSTPONE_MAX) then
        ((s.advance t).nextRefresh pc).setPostponed pc (smGet 0 pc s.mem.postponed + 1)
      else ((s.advance t).nextRefresh pc).occupy pc (refreshTicks 1)) := by
  show execRefreshDue t pc s = _
  unfold execRefreshDue
  dsimp only
  rw [chanState_advance, hstate, gated_advance, hg, State.advance_mem, if_neg (by simpa using hdue)]

theorem queueOf_nextRefresh (i j : Nat) : (s.nextRefresh i).queueOf j = s.queueOf j := rfl

theorem refreshDue_postpones (hstate : s.chanState (pc / 2) = 2) (hg : s.gated = false)
    (hdue : smGet (s.advance t).tick pc s.mem.refAt ≤ (s.advance t).tick) (hwait : s.queueOf pc ≠ []) (hsingle : s.doubled (pc / 32) = false)
    (hroom : smGet 0 pc s.mem.postponed < min 8 (s.rd (pg .mst (pc / 32)) Reg.MST_REFRESH_CFG_POSTPONE_MAX)) :
    Gives (.refreshDue t pc) s fun u => smGet 0 pc u.mem.postponed = smGet 0 pc s.mem.postponed + 1 := by
  refine .of_next (exec_refreshDue hstate hg hdue) ?_
  have hmax : ((s.advance t).nextRefresh pc).rd (pg .mst (pc.val / 32)) Reg.MST_REFRESH_CFG_POSTPONE_MAX =
      s.rd (pg .mst (pc / 32)) Reg.MST_REFRESH_CFG_POSTPONE_MAX := (rd_of_rf (s := s.advance t) rfl ..).trans (advance_rd ..)
  have hsingle' : ((s.advance t).nextRefresh pc).doubled (pc.val / 32) = false :=
    (on_of_rd ((rd_of_rf (s := s.advance t) rfl ..).trans (advance_rd ..))).trans hsingle
  have hwait' : (s.queueOf pc).isEmpty = false := by simpa using hwait
  rw [queueOf_nextRefresh, queueOf_advance, hwait', hmax, hsingle', decide_eq_true hroom, if_neg (by decide), if_pos (by decide)]
  exact postponed_setPostponed ..

theorem refreshDue_issues (hstate : s.chanState (pc / 2) = 2) (hg : s.gated = false)
    (hdue : smGet (s.advance t).tick pc s.mem.refAt ≤ (s.advance t).tick) (hnone : s.queueOf pc = []) :
    Gives (.refreshDue t pc) s fun u => smGet 0 pc u.mem.postponed = 0 := by
  refine .of_next (exec_refreshDue hstate hg hdue) ?_
  rw [queueOf_nextRefresh, queueOf_advance, hnone, if_pos (show ([] : List QueuedReq).isEmpty = true from rfl)]
  exact postponed_setPostponed ..

end

theorem selfRefreshEntry_gives (t : Nat) (ch : Fin 64) (hstate : s.chanState ch = 2) (hidle : s.chanBusy ch = false)
    (hon : s.rd (pg .mst (ch / 16)) Reg.MST_MST_CFG_IDLE_SR ≠ 0)
    (hdue : smGet 0 ch s.mem.lastReq + s.rd (pg .mst (ch / 16)) Reg.MST_MST_CFG_IDLE_SR * 1600 ≤ (s.advance t).tick) :
    Gives (.selfRefreshEntry t ch) s fun u => u.chanState ch = 3 ∧ smGet 0 (2 * ch.val) u.mem.postponed = 0 ∧
      smGet 0 (2 * ch.val + 1) u.mem.postponed = 0 := by
  have hbusy : (s.advance t).chanBusy ch = s.chanBusy ch := by
    simp only [State.chanBusy, queueOf_advance, State.on, advance_rd, State.advance_mem]
  have hexec : exec (.selfRefreshEntry t ch) s = .next (((s.advance t).issuePostponed ch).wr (pg .mch ch) Reg.MCH_MCH_STAT_STATE 3) := by
    refine congrArg Host.Outcome.next (if_neg ?_)
    rw [chanState_advance, hstate, hbusy, hidle, advance_rd, State.advance_mem]
    rintro (h | h | h | h)
    · exact h rfl
    · cases h
    · exact hon h
    · omega
  refine .of_next hexec ⟨rd_wr_self .., ?_, ?_⟩
  all_goals rw [State.wr_mem, State.issuePostponed]
  · rw [postponed_issueAll_ne (by omega), postponed_issueAll]
  · rw [postponed_issueAll]

/-! Row throttles, and the clears. -/

theorem rowThrottleEnd_gives (t stop : Nat) (ch cls : Fin 64) (hfind : smFind (64 * ch.val + cls.val) s.mem.throttle = some stop)
    (hdue : stop ≤ (s.advance t).tick) : Gives (.rowThrottleEnd t ch cls) s fun u =>
      u.mem = { s.mem with throttle := smErase (64 * ch.val + cls.val) s.mem.throttle } ∧
      ((∀ x ∈ u.mem.throttle, x.1 % 64 ≠ cls.val) → u.rd (pg .mst (cls / 16)) (Reg.MST_CLASS_THROTTLED (cls % 16)) = 0) := by
  let u : State := { s.advance t with mem := { s.mem with throttle := smErase (64 * ch.val + cls.val) s.mem.throttle } }
  have hexec : exec (.rowThrottleEnd t ch cls) s = .next (if u.mem.throttle.any (fun x => x.1 % 64 == cls.val) then u
      else u.wr (pg .mst (cls / 16)) (Reg.MST_CLASS_THROTTLED (cls % 16)) 0) := by
    show execRowThrottleEnd t ch cls s = _
    unfold execRowThrottleEnd
    simp only [State.advance_mem, hfind]
    rw [if_neg (not_lt.2 hdue)]
  refine .of_next hexec ⟨?_, fun hnone => ?_⟩
  · split <;> rfl
  · have hany : u.mem.throttle.any (fun x => x.1 % 64 == cls.val) = false := by
      rw [List.any_eq_false]
      intro x hx
      have hmem : x ∈ (if u.mem.throttle.any (fun x => x.1 % 64 == cls.val) then u
          else u.wr (pg .mst (cls / 16)) (Reg.MST_CLASS_THROTTLED (cls % 16)) 0).mem.throttle := by split <;> exact hx
      simpa using hnone x hmem
    rw [hany, if_neg (by decide)]
    exact rd_wr_self ..

theorem mchClr_gives (t : Nat) (ch : Fin 64) (hopen : s.hostOpen (pg .mch ch)) : Gives (.mchClr t ch) s fun u =>
    ∀ f ∈ [Reg.MCH_ERR_CNT_CORR, Reg.MCH_ERR_CNT_RETRY, Reg.MCH_ERR_CNT_UNC, Reg.MCH_TRAIN_STAT_PERIODIC, Reg.MCH_TRAIN_STAT_FULL,
      Reg.MCH_ACT_STAT_FLAGS, Reg.MCH_POISON_STAT_POISON_RD, Reg.MCH_POISON_STAT_OVF], u.rd (pg .mch ch) f = 0 := by
  refine .of_next rfl ?_
  rw [hosted_of_open (hostOpen_advance t hopen), State.mchClr]
  simp only [List.forall_mem_cons, List.not_mem_nil, false_implies, implies_true, and_true]
  exact ⟨rd_wrs_eq _ rfl (by decide) rfl, rd_wrs_eq _ rfl (by decide) rfl, rd_wrs_eq _ rfl (by decide) rfl, rd_wrs_eq _ rfl (by decide) rfl,
    rd_wrs_eq _ rfl (by decide) rfl, rd_wrs_eq _ rfl (by decide) rfl, rd_wrs_eq _ rfl (by decide) rfl, rd_wrs_eq _ rfl (by decide) rfl⟩

theorem xlateAddr_gives (t : Nat) (st : Fin 4) (addr : Word) (hopen : s.hostOpen (pg .mst st)) : Gives (.xlateAddr t st addr) s fun u =>
    u = (s.advance t).wr (pg .mst st) Reg.MST_XLATE_ADDR_ADDR addr.toNat := by
  refine .of_next rfl ?_
  rw [hosted_of_open (hostOpen_advance t hopen)]

end

/-- Settles O30: after a request's corrected errors are counted, nothing that its service brings (activations, poison, a rank taken out) writes that
count again. -/
theorem memoryServiceCommandsComplete : Obligations.MemoryServiceCommandsComplete :=
  ⟨fun t k pc new pick _ _ _ _ hv hfree hpick hq => memoryRequest_gives t k pc new pick hv hfree hpick hq,
    fun _ _ _ hstate hg hdue hwait hsingle hroom => refreshDue_postpones hstate hg hdue hwait hsingle hroom,
    fun _ _ _ hstate hg hdue hnone => refreshDue_issues hstate hg hdue hnone,
    fun t ch _ hstate hidle hon hdue => selfRefreshEntry_gives t ch hstate hidle hon hdue,
    fun t stop ch cls _ hfind hdue => rowThrottleEnd_gives t stop ch cls hfind hdue, fun t ch _ hopen => mchClr_gives t ch hopen,
    fun t st addr _ hopen => xlateAddr_gives t st addr hopen⟩

end Sys2Proof.Machine
end

section
/-!
PROOF. Start-up: what the host link's training, a rejected slot and a cleared bank leave (R128, R132, R137, R425).
-/
namespace Sys2Proof.Machine

section
variable {t : Nat} {s : State}

/-! A slot that the ROM does not boot, and the host link. -/

theorem secSync_boot (s : State) : s.secSync.boot = s.boot := (does_secSync s).only .boot (by decide)

theorem slotReads_boot (s : State) (x : Nat) (img : Option FwImage) : (s.slotReads x img).boot = s.boot :=
  (does_slotReads s x img).only .boot (by decide)

/-- The slot that the ROM verifies next depends on the registers, the flash and the slots rejected. -/
theorem romSlotNext_advance (s : State) (t : Nat) : (s.advance t).secSync.romSlotNext = s.secSync.romSlotNext := by
  have hrf : (s.advance t).rf = s.rf := State.advance_rf s t
  have hboot : (s.advance t).boot = s.boot := State.advance_boot s t
  have hsync : (s.advance t).secSync.rf = s.secSync.rf := by
    unfold State.secSync
    cases hn : s.flash.svn <;> cases hl : s.flash.sel <;> simp [hn, hl, State.wrs, State.wr]
  unfold State.romSlotNext
  rw [rd_of_rf hsync, secSync_boot, secSync_boot, hboot]

/-- The ROM verifies while the part boots at step 3. -/
theorem exec_romVerifyDone {slot : Fin 2} {flash : Option FwImage} (board : BoardCfg) (bands : Option (List Word)) {v : State}
    (hstart : s.pwr.started = true) (hwarm : s.boot.warmHeld = false) (hver : s.boot.verified = false)
    (hstep : s.rd (pg .glb 0) Reg.GLB_BOOT_STAT_STEP = 3) (hfail : s.on (pg .glb 0) Reg.GLB_BOOT_STAT_FAILED = false)
    (hslot : s.secSync.romSlotNext = slot) (hv : v = (s.advance t).secSync.slotReads slot flash) :
    exec (.romVerifyDone t slot flash board bands) s = .next (
      if v.fwReason (v.slotImage slot) ≠ 0 then
        let w := { v with boot := { v.boot with rejected := (slot.val, v.fwReason (v.slotImage slot)) :: v.boot.rejected } }
        let w := if w.svc.restarting then { w with svc := { w.svc with restartStatus := v.fwReason (v.slotImage slot) } } else w
        let w := w.verifyFail
        if w.boot.rejected.length < 2 then w
        else w.bootFail 0x10 ((w.boot.rejected.map (fun x => x.2 * 16 ^ x.1)).sum)
      else if (v.romBoots slot).svc.restarting then v.romBoots slot else (v.romBoots slot).stepFour board bands) := by
  have hguard : ((s.advance t).on (pg .glb 0) Reg.GLB_BOOT_STAT_FAILED || (s.advance t).boot.verified || !((s.advance t).pwr.started &&
      !(s.advance t).boot.warmHeld && (s.advance t).rd (pg .glb 0) Reg.GLB_BOOT_STAT_STEP == 3 || (s.advance t).svc.restarting)) = false := by
    rw [on_advance, advance_rd, State.advance_boot, State.advance_pwr, hstart, hwarm, hver, hstep, hfail]
    rfl
  subst hv
  show execRomVerifyDone t slot flash board bands s = _
  unfold execRomVerifyDone
  simp only []
  rw [if_neg (by rw [hguard]; exact Bool.false_ne_true), if_neg (not_not.2 ((romSlotNext_advance s t).trans hslot))]

theorem verifyFail_boot (s : State) : s.verifyFail.boot = s.boot := (does_verifyFail s).only .boot (by decide)

theorem bootFail_boot (s : State) (code detail : Nat) : (s.bootFail code detail).boot = s.boot := (does_bootFail s code detail).only .boot (by decide)

theorem romVerify_rejects {slot : Fin 2} {flash : Option FwImage} {board : BoardCfg} {bands : Option (List Word)} {v : State}
    (hstart : s.pwr.started = true) (hwarm : s.boot.warmHeld = false) (hver : s.boot.verified = false)
    (hstep : s.rd (pg .glb 0) Reg.GLB_BOOT_STAT_STEP = 3) (hfail : s.on (pg .glb 0) Reg.GLB_BOOT_STAT_FAILED = false)
    (hslot : s.secSync.romSlotNext = slot) (hv : v = (s.advance t).secSync.slotReads slot flash) (hbad : v.fwReason (v.slotImage slot) ≠ 0) :
    Gives (.romVerifyDone t slot flash board bands) s fun u =>
      u.boot = { s.boot with rejected := (slot.val, v.fwReason (v.slotImage slot)) :: s.boot.rejected } := by
  have hboot : v.boot = s.boot := by rw [hv, slotReads_boot, secSync_boot, State.advance_boot]
  refine .of_next (exec_romVerifyDone board bands hstart hwarm hver hstep hfail hslot hv) ?_
  rw [if_pos hbad]
  extract_lets _ w₁ _ w₂ w₃
  have hw : w₃.boot = { s.boot with rejected := (slot.val, v.fwReason (v.slotImage slot)) :: s.boot.rejected } := by
    rw [← hboot]
    refine (verifyFail_boot w₂).trans ?_
    unfold w₂
    split <;> rfl
  split
  · exact hw
  · exact (bootFail_boot ..).trans hw

/-- The host link's status and the note of its training, as the training leaves them. -/
def State.linkTrained (s : State) (speed : Fin 6) (width : Fin 17) : State :=
  { s.wrs (pg .pci 0) [(Reg.PCI_LINK_STAT_UP, 1), (Reg.PCI_LINK_STAT_SPEED, speed), (Reg.PCI_LINK_STAT_WIDTH, width)] with
    boot := { s.boot with linkUp := true } }

theorem rd_setBoot (s : State) (b : BootSt) (p : Nat) (f : Fld) : ({ s with boot := b }).rd p f = s.rd p f := rfl

theorem rd_linkTrained (s : State) (speed : Fin 6) (width : Fin 17) : (s.linkTrained speed width).rd (pg .pci 0) Reg.PCI_LINK_STAT_UP = 1 ∧
    (s.linkTrained speed width).rd (pg .pci 0) Reg.PCI_LINK_STAT_SPEED = speed ∧
    (s.linkTrained speed width).rd (pg .pci 0) Reg.PCI_LINK_STAT_WIDTH = width := by
  have hread (f : Fld) : (s.linkTrained speed width).rd (pg .pci 0) f = (s.wrs (pg .pci 0) [(Reg.PCI_LINK_STAT_UP, 1),
      (Reg.PCI_LINK_STAT_SPEED, speed), (Reg.PCI_LINK_STAT_WIDTH, width)]).rd (pg .pci 0) f := rd_setBoot ..
  refine ⟨?_, ?_, ?_⟩
  · exact (hread _).trans (rd_wrs_eq s rfl (by decide) rfl)
  · exact (hread _).trans ((rd_wrs_eq s rfl (by decide) rfl).trans (Nat.mod_eq_of_lt (lt_trans speed.isLt (by decide))))
  · exact (hread _).trans ((rd_wrs_eq s rfl (by decide) rfl).trans (Nat.mod_eq_of_lt (lt_trans width.isLt (by decide))))

theorem execPcieLinkTrained_next {speed : Fin 6} {width : Fin 17} {w : State} (hstart : s.pwr.started = true) (hspeed : speed ≠ 0) (hwidth : width ≠ 0)
    (hw : (if (s.advance t).on (pg .pci 0) Reg.PCI_LINK_STAT_UP then (s.advance t).bumpSat (pg .pci 0) Reg.PCI_LINK_STAT_RETRAIN_CNT 1
      else s.advance t) = w) :
    execPcieLinkTrained t speed width s = .next ((w.linkTrained speed width).eventIf (speed.val != 5 || width.val != 16) .pci 0 1) := by
  have h₁ : speed.val ≠ 0 := Fin.val_ne_zero_iff.2 hspeed
  have h₂ : width.val ≠ 0 := Fin.val_ne_zero_iff.2 hwidth
  subst hw
  refine congrArg Host.Outcome.next (if_neg ?_)
  rw [State.advance_pwr, hstart]
  simp [h₁, h₂]

theorem exec_pcieLinkTrained (t : Nat) (speed : Fin 6) (width : Fin 17) (s : State) :
    exec (.pcieLinkTrained t speed width) s = execPcieLinkTrained t speed width s := rfl

theorem pcieLink_trains {speed : Fin 6} {width : Fin 17} (hstart : s.pwr.started = true) (hspeed : speed ≠ 0) (hwidth : width ≠ 0) :
    Gives (.pcieLinkTrained t speed width) s fun u =>
      u.boot = { s.boot with linkUp := true } ∧ u.on (pg .pci 0) Reg.PCI_LINK_STAT_UP = true ∧ u.rd (pg .pci 0) Reg.PCI_LINK_STAT_SPEED = speed ∧
        u.rd (pg .pci 0) Reg.PCI_LINK_STAT_WIDTH = width := by
  generalize hw : (if (s.advance t).on (pg .pci 0) Reg.PCI_LINK_STAT_UP then (s.advance t).bumpSat (pg .pci 0) Reg.PCI_LINK_STAT_RETRAIN_CNT 1
    else s.advance t) = w
  have hboot : w.boot = s.boot := by
    rw [← hw]
    split <;> exact State.advance_boot s t
  have hread {f : Fld} (hf : f.placed) (he : evReg (pg .pci 0) f.off = false) := rd_eventIf (w.linkTrained speed width)
    (speed.val != 5 || width.val != 16) .pci 0 1 hf he
  obtain ⟨hup, hsp, hwd⟩ := rd_linkTrained w speed width
  refine .of_next ((exec_pcieLinkTrained ..).trans (execPcieLinkTrained_next hstart hspeed hwidth hw)) ⟨?_, ?_, ?_, ?_⟩
  · rw [eventIf_boot, ← hboot]
    rfl
  · unfold State.on
    exact beq_iff_eq.2 ((hread (by decide) (by decide)).trans hup)
  · exact (hread (by decide) (by decide)).trans hsp
  · exact (hread (by decide) (by decide)).trans hwd

/-! A bank cleared at start-up. -/

theorem placed_en (r : Nat) : (Reg.PG_CTL_EN r).placed := show 0x10 < 4096 ∧ 0 < 64 by decide
theorem placed_enAct (r : Nat) : (Reg.PG_STAT_EN_ACT r).placed := show 0x18 < 4096 ∧ 0 < 64 by decide
theorem placed_pstate (r : Nat) : (Reg.PG_CTL_PSTATE r).placed := show 0x10 < 4096 ∧ 4 < 64 by decide
theorem placed_pstateAct (r : Nat) : (Reg.PG_STAT_PSTATE_ACT r).placed := show 0x18 < 4096 ∧ 4 < 64 by decide

/-- The end of a change of power state leaves what its busy bits and PSTATE_ACT do not hold. -/
theorem rd_pstateEnd (s : State) (p : Nat) {f : Fld} (hf : f.placed) (hbusy : ¬(f.off = 0x18 ∧ f.lo = 6)) (hsrst : ¬(f.off = 0x18 ∧ f.lo = 1)) :
    (s.pstateEnd p).rd p f = (s.setPstateAct p (s.pstate p)).rd p f := by
  unfold State.pstateEnd
  dsimp only
  split
  · exact (rd_wr_field _ _ (by decide) hf hsrst).trans ((rd_of_rf (s := (s.setPstateAct p (s.pstate p)).wr p Reg.PG_STAT_PSTATE_BUSY 0) rfl ..).trans
      (rd_wr_field (f := Reg.PG_STAT_PSTATE_BUSY) _ _ (by decide) hf hbusy))
  · exact rd_wr_field _ _ (by decide) hf hbusy

theorem en_pstateEnd (s : State) (p : Nat) : (s.pstateEnd p).en p = s.en p :=
  (rd_pstateEnd s p (placed_en _) (fun e => absurd e.1 (by decide : ¬(0x10 = 0x18))) (fun e => absurd e.1 (by decide : ¬(0x10 = 0x18)))).trans
    (rd_wr_field _ _ (placed_pstateAct _) (placed_en _) (fun e => absurd e.1 (by decide : ¬(0x10 = 0x18))))

theorem enActBit_pstateEnd (s : State) (p : Nat) : (s.pstateEnd p).rd p (Reg.PG_STAT_EN_ACT (enRst p)) = s.rd p (Reg.PG_STAT_EN_ACT (enRst p)) :=
  (rd_pstateEnd s p (placed_enAct _) (fun e => absurd e.2 (by decide : ¬(0 = 6))) (fun e => absurd e.2 (by decide : ¬(0 = 1)))).trans
    (rd_wr_field _ _ (placed_pstateAct _) (placed_enAct _) (fun e => absurd e.2 (by decide : ¬(0 = 4))))

theorem pstateAct_pstateEnd (s : State) (p : Nat) : (s.pstateEnd p).pstateAct p = s.pstate p % 2 ^ 2 :=
  (rd_pstateEnd s p (placed_pstateAct _) (fun e => absurd e.2 (by decide : ¬(4 = 6))) (fun e => absurd e.2 (by decide : ¬(4 = 1)))).trans
    (rd_wr_self ..)

theorem enAt_pstateEnd (s : State) (p : Nat) : (s.pstateEnd p).page.enAt = s.page.enAt := by
  unfold State.pstateEnd
  dsimp only
  split <;> rfl

theorem enAct_of_enabled {p : Nat} (hen : s.en p = 1) (hact : s.rd p (Reg.PG_STAT_EN_ACT (enRst p)) = 1)
    (hat : ∀ x, smFind p s.page.enAt = some x → x < s.tick) : s.enAct p = 1 := by
  unfold State.enAct
  dsimp only
  rw [hact, hen]
  cases h : smFind p s.page.enAt with
  | none => simp
  | some x => simp [hat x h]

/-- Bank `b` is enabled and ON, and counted among the banks cleared. -/
def State.bankCleared (s : State) (b : Nat) : State :=
  let s := (((s.setEn (pg .bnk b) 1).setEnAct (pg .bnk b) 1).setPstate (pg .bnk b) 0).pstateEnd (pg .bnk b)
  { s with boot := { s.boot with cleared := b :: s.boot.cleared
                                 done := if (b :: s.boot.cleared).length = 64 then setBit s.boot.done 2 else s.boot.done } }

theorem bankCleared_reads (s : State) (b : Nat) : (s.bankCleared b).en (pg .bnk b) = 1 ∧
    (s.bankCleared b).rd (pg .bnk b) (Reg.PG_STAT_EN_ACT (enRst (pg .bnk b))) = 1 ∧ (s.bankCleared b).pstateAct (pg .bnk b) = 0 ∧
    (s.bankCleared b).page.enAt = s.page.enAt ∧ (s.bankCleared b).boot.cleared = b :: s.boot.cleared ∧
    (s.bankCleared b).tick = s.tick := by
  generalize hp : pg .bnk b = p
  generalize hv : ((s.setEn p 1).setEnAct p 1).setPstate p 0 = v
  have hu : s.bankCleared b = { v.pstateEnd p with boot := { (v.pstateEnd p).boot with
      cleared := b :: (v.pstateEnd p).boot.cleared
      done := if (b :: (v.pstateEnd p).boot.cleared).length = 64 then setBit (v.pstateEnd p).boot.done 2 else (v.pstateEnd p).boot.done } } := by
    rw [← hv, ← hp]
    rfl
  have hread (f : Fld) : (s.bankCleared b).rd p f = (v.pstateEnd p).rd p f := by rw [hu]; rfl
  refine ⟨?_, ?_, ?_, ?_, ?_, ?_⟩
  · refine ((hread _).trans (en_pstateEnd v p)).trans ?_
    rw [← hv]
    exact (rd_wr_field _ _ (placed_pstate _) (placed_en _) (fun e => absurd e.2 (by decide : ¬(0 = 4)))).trans
      ((rd_wr_field _ _ (placed_enAct _) (placed_en _) (fun e => absurd e.1 (by decide : ¬(0x10 = 0x18)))).trans (rd_wr_self ..))
  · refine ((hread _).trans (enActBit_pstateEnd v p)).trans ?_
    rw [← hv]
    exact (rd_wr_field _ _ (placed_pstate _) (placed_enAct _) (fun e => absurd e.1 (by decide : ¬(0x18 = 0x10)))).trans (rd_wr_self ..)
  · refine ((hread _).trans (pstateAct_pstateEnd v p)).trans ?_
    have hreq : v.pstate p = 0 := by
      rw [← hv]
      exact rd_wr_self ..
    exact congrArg (· % 2 ^ 2) hreq
  · rw [hu]
    refine (enAt_pstateEnd v p).trans ?_
    rw [← hv]
    rfl
  · rw [hu]
    refine congrArg (b :: ·.cleared) (((does_pstateEnd v p).only .boot (by decide)).trans ?_)
    rw [← hv]
    rfl
  · rw [hu]
    refine ((does_pstateEnd v p).only .tick (by decide)).trans ?_
    rw [← hv]
    rfl

theorem exec_bankClearDone {b : Fin 64} (ok : Bool) {w : State}
    (hboot : ((s.advance t).rd (pg .glb 0) Reg.GLB_BOOT_STAT_STEP == 6 && !(s.advance t).boot.cleared.contains b.val) = true)
    (hgated : (s.advance t).gated = false)
    (hw : { s.advance t with bank := { (s.advance t).bank with words := (s.advance t).bank.words.filter (fun x => x.1 / 131072 != b.val) } } = w) :
    exec (.bankClearDone t b ok) s = .next (if ok then w.bankCleared b else ({ w.bankCleared b with
      bank := { (w.bankCleared b).bank with unavailable := b.val :: (w.bankCleared b).bank.unavailable.erase b.val } }).event .glb 0 5) := by
  subst hw
  show execBankClearDone t b ok s = _
  unfold execBankClearDone State.bankCleared
  simp only [hboot, hgated, Bool.true_or, Bool.not_true, Bool.or_false, Bool.false_eq_true, if_false, if_true]

theorem bankClear_enables {b : Fin 64} {ok : Bool} (hstep : s.rd (pg .glb 0) Reg.GLB_BOOT_STAT_STEP = 6) (hnew : b.val ∉ s.boot.cleared)
    (henAt : ∀ x, smFind (pg .bnk b) s.page.enAt = some x → x < (s.advance t).tick) (hgated : s.gated = false) :
    Gives (.bankClearDone t b ok) s fun u => u.boot.cleared = b.val :: s.boot.cleared ∧ u.en (pg .bnk b) = 1 ∧ u.enAct (pg .bnk b) = 1 ∧
      u.pstateAct (pg .bnk b) = 0 := by
  have hboot : ((s.advance t).rd (pg .glb 0) Reg.GLB_BOOT_STAT_STEP == 6 && !(s.advance t).boot.cleared.contains b.val) = true := by
    rw [advance_rd, State.advance_boot, hstep]
    simpa using hnew
  generalize hw : { s.advance t with bank := { (s.advance t).bank with
    words := (s.advance t).bank.words.filter (fun x => x.1 / 131072 != b.val) } } = w
  obtain ⟨hen, hact, hps, hat, hcl, htk⟩ := bankCleared_reads w b
  have hcleared : w.boot.cleared = s.boot.cleared := by rw [← hw]; exact congrArg BootSt.cleared (State.advance_boot s t)
  have hpage : w.page = s.page := by rw [← hw]; exact State.advance_page s t
  have htick : w.tick = (s.advance t).tick := by rw [← hw]
  refine .of_next (exec_bankClearDone ok hboot ((gated_advance t).trans hgated) hw) ?_
  have hin : ∀ x, smFind (pg .bnk b) (w.bankCleared b).page.enAt = some x → x < (w.bankCleared b).tick := by
    rw [hat, hpage, htk, htick]
    exact henAt
  split
  · exact ⟨hcl.trans (by rw [hcleared]), hen, enAct_of_enabled hen hact hin, hps⟩
  · have hread {f : Fld} (hf : f.placed) (ho : f.off = 0x10 ∨ f.off = 0x18) := rd_event { w.bankCleared b with
      bank := { (w.bankCleared b).bank with unavailable := b.val :: (w.bankCleared b).bank.unavailable.erase b.val } } .glb 0 5 (p := pg .bnk b) hf
      (by rcases ho with ho | ho <;> (rw [ho]; simp [evReg]))
    refine ⟨?_, ?_, ?_, ?_⟩
    · rw [event_boot]
      exact hcl.trans (by rw [hcleared])
    · exact (hread (placed_en _) (.inl rfl)).trans hen
    · refine enAct_of_enabled ((hread (placed_en _) (.inl rfl)).trans hen) ((hread (placed_enAct _) (.inr rfl)).trans hact) ?_
      rw [event_page, event_tick]
      exact hin
    · exact (hread (placed_pstateAct _) (.inr rfl)).trans hps

end

end Sys2Proof.Machine
end

section
/-!
PROOF. Which registers the operations of start-up can write: their writes_<operation> lemmas.
-/
namespace Sys2Proof.Machine

theorem writes_setLinkState (s : State) (l v : Nat) {P : Nat → Nat → Prop} (hp : P (pg Blk.lnk l) 296) : Writes P s (s.setLinkState l v) :=
  .wr (.refl _ _) hp (by decide)

theorem writes_linksGated (s : State) {P : Nat → Nat → Prop} (hp : ∀ i, P (pg .slt i) 280) (hp1 : ∀ i o, P (lanePage i) o) (hp2 : ∀ i, P (pg .lnk
    i) 296) : Writes P s s.linksGated := by
  unfold State.linksGated
  extract_lets s₁
  refine .via s₁ ?_ fun h₁ => ?_
  · unfold s₁
    refine .each _ (.refl _ _) fun _ _ h₂ => ?_
    exact .each _ ((does_setLnk ..).still h₂ rfl) fun _ _ h => (writes_setRaw ..).next (.wr ((does_setSlt ..).still h rfl) (hp _) (by decide))
  exact .each _ h₁ fun _ _ h => (writes_lanesRestart (hp := hp1) ..).next ((does_setLnk ..).still ((writes_setLinkState (hp := (hp2 _)) ..).next h)
      rfl)

theorem writes_lockFail (s : State) (cause : Nat) {P : Nat → Nat → Prop} (hp : P (pg Blk.clk 0) 272) : Writes P s (s.lockFail cause) := by
  unfold State.lockFail
  extract_lets s₁ _ s₂
  refine .via s₁ ((does_setPhase ..).still (.refl _ _) rfl) fun h₁ => ?_
  refine .via s₂ (.keep h₁ rfl) fun h₂ => ?_
  exact (writes_event ..).next (.wrs h₂ hp (by rfl))

theorem writes_nextBand (s : State) {P : Nat → Nat → Prop} (hp : P (pg Blk.clk 0) 272) : Writes P s s.nextBand := by
  unfold State.nextBand
  split
  · extract_lets s₁ _ s₂
    refine .via s₁ ((does_setPhase ..).still (.refl _ _) rfl) fun h₁ => ?_
    exact .wrs (.keep h₁ rfl) hp (by rfl)
  · exact (writes_lockFail (hp := hp) ..).next (.refl _ _)

theorem writes_lockStart (s : State) {P : Nat → Nat → Prop} (hp : ∀ o, P (pg Blk.clk 0) o) : Writes P s s.lockStart := by
  unfold State.lockStart
  extract_lets p _ s₁ s₂ _ hz s₃ _ s₄ s₅ s₆ s₇ _ s₈
  refine .via s₁ (.keep (.refl _ _) rfl) fun h₁ => ?_
  refine .via s₂ ((does_setPhase ..).still h₁ rfl) fun h₂ => ?_
  refine .via s₃ (.wr h₁ (hp _) (by decide)) fun h₃ => ?_
  refine .via s₄ (.keep h₃ rfl) fun h₄ => ?_
  refine .via s₅ ((does_keepOn ..).still (.wr h₄ (hp _) (by decide)) rfl) fun h₅ => ?_
  refine .via s₆ (.wr h₅ (hp _) (by decide)) fun h₆ => ?_
  refine .via s₇ (.when _ h₆ fun _ h => .wr h (hp _) (by decide)) fun h₇ => ?_
  refine .via s₈ (.keep h₇ rfl) fun h₈ => ?_
  exact .ite (.ite h₂ (.keep h₂ rfl)) (.ite ((writes_lockFail (hp := (hp _)) ..).next h₈) ((writes_nextBand (hp := (hp _)) ..).next h₈))

theorem writes_bandTable (s : State) (words : List Word) {P : Nat → Nat → Prop} (hp : ∀ o, P (pg Blk.clk 0) o) : Writes P s (s.bandTable words) :=
  List.foldlRecOn _ _ (motive := Writes P s) (.refl _ _) fun _ h x hx => .wrsAny h hp (by
    have hi : x.1 < 64 := List.mem_range.1 (List.of_mem_zip hx).1
    simp [allPlaced, Reg.CLK_BAND_F_LO_KHZ, Reg.CLK_BAND_TEMP_C, Reg.CLK_BAND_F_HI_KHZ, Reg.CLK_BAND_VALID, Fld.placed]
    omega)

theorem writes_wakeChan (s : State) (c : Nat) {P : Nat → Nat → Prop} (hp : P (pg Blk.mch c) 256) : Writes P s (s.wakeChan c) :=
  .when _ (.refl _ _) fun _ h => .wr h hp (by decide)

theorem writes_freqEnd (s : State) (st : Nat) {P : Nat → Nat → Prop} (hp : ∀ i, P (pg .mch i) 256) (hp1 : ∀ o, P (pg Blk.mst st) o) : Writes P s
    (s.freqEnd st) :=
  (writes_event ..).next (.each _ (.wrsAny (.wr (.keep (.refl _ _) rfl) (hp1 _) (by decide)) hp1 (by rfl)) fun _ _ h => (writes_wakeChan (hp := (hp
      _)) ..).next h)

theorem writes_bar2Range (s : State) {P : Nat → Nat → Prop} (hp : P (pg Blk.pci 0) 272) : Writes P s s.bar2Range :=
  (writes_event ..).next ((writes_bumpSat (hp := hp) (hp1 := by decide) ..).next (.refl _ _))

theorem writes_bar2Complete (s : State) (a n : Nat) {P : Nat → Nat → Prop} (hp : P (pg Blk.pci 0) 272) : Writes P s (s.bar2Complete a n) :=
  .ite ((does_emit ..).still ((writes_bar2Range (hp := hp) ..).next (.refl _ _)) rfl) (.ite ((does_emit ..).still (.refl _ _) rfl) (.ite
      ((does_emit ..).still ((writes_event ..).next ((writes_bumpSat (hp := hp) (hp1 := by decide) ..).next (.refl _ _))) rfl) ((does_emit
      ..).still (.refl _ _) rfl)))

theorem writes_serveHeld (s : State) {P : Nat → Nat → Prop} (hp : P (pg Blk.pci 0) 272) : Writes P s s.serveHeld :=
  .each _ (.keep (.refl _ _) rfl) fun _ _ h => (writes_bar2Complete (hp := hp) ..).next h

theorem writes_hkBusyIs (s : State) (b : Bool) {P : Nat → Nat → Prop} (hp : ∀ o, P (pg Blk.hka 0) o) : Writes P s (s.hkBusyIs b) :=
  .wrsAny (.ite (.refl _ _) ((does_owConvEnd ..).still (.refl _ _) rfl)) hp (by rfl)

theorem writes_convAbort (s : State) {P : Nat → Nat → Prop} (hp : ∀ o, P (pg Blk.hka 0) o) : Writes P s s.convAbort :=
  .ite (.refl _ _) ((writes_event ..).next ((writes_hkBusyIs (hp := hp) ..).next (.wrsAny (.refl _ _) hp (by rfl))))

theorem writes_calStart (s : State) (wake : Bool) {P : Nat → Nat → Prop} (hp : ∀ o, P (pg Blk.hka 0) o) : Writes P s (s.calStart wake) :=
  .wrsAny (.keep ((writes_convAbort (hp := hp) ..).next (.refl _ _)) rfl) hp (by rfl)

theorem writes_selectorWrite (s : State) (x : Nat) {P : Nat → Nat → Prop} (hp : P (pg Blk.sec 0) 272) : Writes P s (s.selectorWrite x) := by
  unfold State.selectorWrite
  extract_lets p _ _ s₁
  refine .via s₁ (.wrs (.refl _ _) hp (by rfl)) fun h₁ => ?_
  exact .keep h₁ rfl

theorem writes_boardLoad (s : State) (b : BoardCfg) {P : Nat → Nat → Prop} (hp : P (pg Blk.clk 0) 256) (hp1 : P (pg Blk.glb 0) 272) (hp2 : ∀ i o, P
    (pg .eth i) o) : Writes P s (s.boardLoad b) := by
  unfold State.boardLoad
  extract_lets s₁ s₂
  refine .via s₁ (.wr (.refl _ _) hp (by decide)) fun h₁ => ?_
  refine .via s₂ (.ite h₁ (.wrs h₁ hp1 (by rfl))) fun h₂ => ?_
  exact .each _ h₂ fun _ _ h => .wrsAny h (hp2 _) (by rfl)

end Sys2Proof.Machine
end

section
/-!
PROOF. Start-up: a slot that the ROM boots (R128, R132 to R134).
-/
namespace Sys2Proof.Machine

/-! What leaves GLB's BOOT_STAT as it was. -/

/-- A register other than BOOT_STAT of GLB. -/
def notBootStat (q o : Nat) : Prop := ¬(q = pg .glb 0 ∧ o = 0x108)

theorem notBootStat_pg {b : Blk} (hb : b ≠ .glb) (i o : Nat) : notBootStat (pg b i) o := by
  have hpos : 0 < firstPage b := by
    revert hb
    cases b <;> decide
  rintro ⟨h, -⟩
  have h0 : firstPage b + i = 0 := h
  omega

theorem notBootStat_off {o : Nat} (ho : o ≠ 0x108) (q : Nat) : notBootStat q o := fun h => ho h.2

theorem notBootStat_lane (x o : Nat) : notBootStat (lanePage x) o :=
  notBootStat_pg (b := .lqd) (by decide) _ _

section
variable {s t u : State}

theorem Writes.bootStat (k : Writes notBootStat s u) {f : Fld} (hf : f.placed) (ho : f.off = 0x108) : u.rd (pg .glb 0) f = s.rd (pg .glb 0) f :=
  k.reads _ _ hf (by rw [ho]; decide) (by rw [ho]; exact not_not.2 ⟨rfl, rfl⟩)

theorem writes_setOn (s : State) (p : Nat) (a b c d : Nat) : Writes notBootStat s ((((s.setEn p a).setEnAct p b).setPstate p c).setPstateAct p d) :=
  .wr (.wr (.wr (.wr (.refl _ _) (notBootStat_off (show 0x10 ≠ 0x108 by decide) _) (placed_en _))
    (notBootStat_off (show 0x18 ≠ 0x108 by decide) _) (placed_enAct _)) (notBootStat_off (show 0x10 ≠ 0x108 by decide) _) (placed_pstate _))
    (notBootStat_off (show 0x18 ≠ 0x108 by decide) _) (placed_pstateAct _)

/-- With no context running no input has a tier-1 run to lose. -/
theorem t1Lost_idle (h : s.running = []) (n result : Nat) : s.t1Lost n result = s := by
  have hctx : s.icCtx n = none := by
    unfold State.icCtx State.inputCtxs
    rw [h]
    rfl
  unfold State.t1Lost State.t1Abandon State.icRd
  rw [hctx]
  rfl

theorem t1Losts_idle (h : s.running = []) (l : List Nat) (result : Nat) : s.each l (fun s n => s.t1Lost n result) = s := by
  induction l with
  | nil => rfl
  | cons n l ih => exact (congrArg (State.each · l fun s n => s.t1Lost n result) (t1Lost_idle h n result)).trans ih

theorem running_of_acq (h : u.acq = s.acq) : u.running = s.running := by
  unfold State.running
  rw [h]

theorem writes_gate_idle (h : s.running = []) (cause : Nat) : Writes notBootStat s (s.gate cause) := by
  unfold State.gate
  refine .ite (.refl _ _) ?_
  extract_lets s₁ s₂ _ s₃ s₄ s₅ s₆ s₇ s₈
  have h₁ : Writes notBootStat s s₁ := .keep (s := s) (.refl _ _) (routerTo_rf s s.tick)
  have h₂ : Writes notBootStat s s₂ := .wrs h₁ (notBootStat_pg (b := .clk) (by decide) 0 272) (by rfl)
  have h₃ : Writes notBootStat s s₃ := .keep h₂ rfl
  have h₄ : Writes notBootStat s s₄ := (writes_event ..).next (.wr h₃ (notBootStat_pg (by decide) _ _) (by decide))
  have h₅ : Writes notBootStat s s₅ := .keep h₄ rfl
  have hacq : s₅.acq = s.acq := (event_acq ..).trans ((does_routerTo s s.tick).only .acq (by decide))
  have hidle : s₅.running = [] := (running_of_acq hacq).trans h
  have h₆ : Writes notBootStat s s₆ := by
    rw [show s₆ = s₅ from t1Losts_idle hidle ..]
    exact h₅
  have h₇ : Writes notBootStat s s₇ := .each _ h₆ fun _ _ h => .wr h (notBootStat_pg (by decide) _ _) (by decide)
  have hidle₇ : s₇.running = [] := by
    have hrun : s₇.acq = s₆.acq := (Does.each (l := [.rf]) _ (.refl _ _) fun _ _ h => (does_wr ..).next h rfl).only .acq (by decide)
    rw [running_of_acq hrun, show s₆ = s₅ from t1Losts_idle hidle ..]
    exact hidle
  have h₈ : s₈ = s₇ := by
    unfold s₈
    rw [hidle₇]
    rfl
  rw [h₈]
  exact (writes_linksGated (hp := fun _ => notBootStat_pg (by decide) _ _) (hp1 := notBootStat_lane) (hp2 := fun _ => notBootStat_pg (by decide) _ _) ..).next h₇

theorem writes_bandCal (s : State) : Writes notBootStat s s.bandCal := by
  unfold State.bandCal
  split
  case isTrue => exact .refl _ _
  case isFalse h =>
    have hidle : s.running = [] := by simpa using h
    extract_lets s₁
    have h₁ : Writes notBootStat s s₁ := (does_setPhase ..).still (writes_gate_idle hidle 5) rfl
    exact .wrsAny (.keep h₁ rfl) (notBootStat_pg (by decide) _) (by rfl)

/-- Step 6 leaves SLOT. -/
theorem slot_stepSix (s : State) : s.stepSix.rd (pg .glb 0) Reg.GLB_BOOT_STAT_SLOT = s.rd (pg .glb 0) Reg.GLB_BOOT_STAT_SLOT := by
  unfold State.stepSix
  extract_lets s₁ p s₂ s₃
  have h₁ : s₁.rd (pg .glb 0) Reg.GLB_BOOT_STAT_SLOT = s.rd (pg .glb 0) Reg.GLB_BOOT_STAT_SLOT := rd_wr_field _ _ (by decide) (by decide) (by decide)
  have h₂ : Writes notBootStat s₁ s₂ := writes_setOn ..
  have h₃ : Writes notBootStat s₁ s₃ := .ite h₂ ((writes_calStart (hp := notBootStat_pg (by decide) _) ..).next h₂)
  refine (Writes.bootStat (.ite ?_ h₃) (by decide) rfl).trans h₁
  refine (does_migResume ..).still ((writes_serveHeld (hp := notBootStat_pg (by decide) _ _) ..).next (.each _ (.each _ h₃ fun _ st h => ?_)
    fun _ c h => ?_)) rfl
  · exact (writes_freqEnd (hp := fun _ => notBootStat_pg (by decide) _ _) (hp1 := notBootStat_pg (by decide) _) ..).next h
  · exact (writes_wakeChan (hp := notBootStat_pg (by decide) _ _) ..).next h

theorem slot_stepFour (s : State) (board : BoardCfg) (bands : Option (List Word)) :
    (s.stepFour board bands).rd (pg .glb 0) Reg.GLB_BOOT_STAT_SLOT = s.rd (pg .glb 0) Reg.GLB_BOOT_STAT_SLOT := by
  unfold State.stepFour
  extract_lets s₁ s₂
  have h₁ : Writes notBootStat s s₁ := writes_boardLoad (hp := notBootStat_pg (by decide) _ _) (hp1 := notBootStat_off (by decide) _)
    (hp2 := fun _ => notBootStat_pg (by decide) _) ..
  have h₂ : Writes notBootStat s s₂ := by
    unfold s₂
    split
    · exact (writes_bandTable (hp := notBootStat_pg (by decide) _) ..).next h₁
    · exact h₁
  refine Eq.trans ?_ (h₂.bootStat (by decide) rfl)
  have hstep (n : Nat) : (s₂.wr (pg .glb 0) Reg.GLB_BOOT_STAT_STEP n).rd (pg .glb 0) Reg.GLB_BOOT_STAT_SLOT =
      s₂.rd (pg .glb 0) Reg.GLB_BOOT_STAT_SLOT := rd_wr_field _ _ (by decide) (by decide) (by decide)
  split
  · exact (slot_stepSix _).trans (rd_wr_page _ _ (by decide) (by decide) (by decide))
  · split
    · exact (((writes_bandCal _).next (writes_event ..)).bootStat (by decide) rfl).trans (hstep 4)
    · exact ((writes_lockStart (hp := notBootStat_pg (by decide) _) _).bootStat (by decide) rfl).trans (hstep 5)

theorem romBoots_slot (s : State) (slot : Fin 2) : (s.romBoots slot).rd (pg .glb 0) Reg.GLB_BOOT_STAT_SLOT = slot ∧
    (s.romBoots slot).boot.verified = true := by
  unfold State.romBoots
  extract_lets p other _ s₁ s₂ s₃
  have hslot : s₃.rd (pg .glb 0) Reg.GLB_BOOT_STAT_SLOT = slot := (rd_wr_self ..).trans (Nat.mod_eq_of_lt slot.isLt)
  have hver : s₃.boot.verified = true := rfl
  split
  · exact ⟨hslot, hver⟩
  · refine ⟨?_, ?_⟩
    · have hsel : Writes notBootStat s₃ (s₃.selectorWrite slot) := writes_selectorWrite (hp := notBootStat_pg (by decide) _ _) ..
      exact (((writes_event ..).next hsel).bootStat (by decide) rfl).trans hslot
    · rw [event_boot, (does_selectorWrite s₃ slot).only .boot (by decide)]
      exact hver

theorem romVerify_boots {t : Nat} {slot : Fin 2} {flash : Option FwImage} {board : BoardCfg} {bands : Option (List Word)} {v : State}
    (hstart : s.pwr.started = true) (hwarm : s.boot.warmHeld = false) (hver : s.boot.verified = false)
    (hstep : s.rd (pg .glb 0) Reg.GLB_BOOT_STAT_STEP = 3) (hfail : s.on (pg .glb 0) Reg.GLB_BOOT_STAT_FAILED = false)
    (hslot : s.secSync.romSlotNext = slot) (hv : v = (s.advance t).secSync.slotReads slot flash) (hgood : v.fwReason (v.slotImage slot) = 0) :
    Gives (.romVerifyDone t slot flash board bands) s fun u => u.boot.verified = true ∧ u.rd (pg .glb 0) Reg.GLB_BOOT_STAT_SLOT = slot := by
  obtain ⟨hsl, hvf⟩ := romBoots_slot v slot
  refine .of_next (exec_romVerifyDone board bands hstart hwarm hver hstep hfail hslot hv) ?_
  rw [if_neg (not_not.2 hgood)]
  split
  · exact ⟨hvf, hsl⟩
  · exact ⟨(congrArg BootSt.verified ((does_stepFour ..).only .boot (by decide))).trans hvf, (slot_stepFour ..).trans hsl⟩

end

end Sys2Proof.Machine
end

section
/-!
PROOF. Start-up: what its last step leaves (R128, R139, R141).
-/
namespace Sys2Proof.Machine

section
variable {P : Nat → Nat → Prop} {s t u : State}

theorem writes_setPstate (s : State) (p v : Nat) (hp : P p 16) : Writes P s (s.setPstate p v) := .wr (.refl _ _) hp (placed_pstate _)

theorem writes_pstateGo (s : State) (p : Nat) (hp : P p 24) : Writes P s (s.pstateGo p) := .wr (.keep (.refl _ _) rfl) hp (by decide)

theorem writes_startPstate (s : State) (p ps : Nat) (hp : P p 16) (hp1 : P p 24) : Writes P s (s.startPstate p ps) := by
  unfold State.startPstate
  extract_lets busy s₁ _
  refine .via s₁ (writes_setPstate s p ps hp) fun h₁ => ?_
  exact .ite (.keep h₁ rfl) (.ite h₁ ((writes_pstateGo _ _ hp1).next h₁))

theorem writes_polSync (s : State) (q : Nat) (hp : ∀ o, P (pg .lqd q) o) : Writes P s (s.polSync q) :=
  List.foldlRecOn _ _ (motive := Writes P s) (.refl _ _) fun _ h i hi => .wr h (hp _) (by
    have hlt : i < 8 := List.mem_range.1 (List.mem_of_mem_filter hi)
    simp only [Fld.placed, Reg.LQD_LANE_STAT_POL_INV_ACT]
    omega)

theorem writes_eqxSet (s : State) (q : Nat) (revert announced : Bool) (hp : ∀ o, P epoPage o) : Writes P s (s.eqxSet q revert announced) :=
  .wrsAny (.refl _ _) hp (by rfl)

theorem writes_wakeBlocks (s : State) (img : EpochImage) (hp : ∀ p, P p 16 ∧ P p 24) : Writes P s (s.wakeBlocks img) :=
  .each _ (.refl _ _) fun _ p h => (writes_startPstate _ p 0 (hp p).1 (hp p).2).next h

theorem lanes_pages {l : List Nat} {f : Nat → Bool} {p : Nat} (h : p ∈ ((l.map lanePage).eraseDups).filter f) : ∃ q, p = pg .lqd q := by
  obtain ⟨x, -, rfl⟩ := List.mem_map.1 (List.mem_eraseDups.1 (List.mem_of_mem_filter h))
  exact ⟨x / 8, rfl⟩

theorem writes_parkLinks (s : State) (live : Option EpochImage) (img : EpochImage) (hl : ∀ l o, P (pg .lnk l) o) (hq : ∀ q o, P (pg .lqd q) o) :
    Writes P s (s.parkLinks live img) := by
  unfold State.parkLinks
  refine .each _ (.refl _ _) fun v l h => ?_
  extract_lets s₁ lanes quads s₂ s₃ s₄
  have h₁ : Writes P s s₁ := (writes_loadPage _ _ _ (hl l)).next h
  have h₂ : Writes P s s₂ := by
    refine List.foldlRecOn _ _ (motive := Writes P s) h₁ fun w hw p hp => ?_
    obtain ⟨q, rfl⟩ := lanes_pages hp
    exact (writes_polSync _ _ (hq _)).next ((writes_loadPage _ _ _ (hq q)).next hw)
  have h₃ : Writes P s s₃ := .wrsAny h₂ (hl l) (by rfl)
  have h₄ : Writes P s s₄ := .wr ((does_setLnk ..).still h₃ rfl) (hl l _) (by decide)
  exact .each _ h₄ fun _ x h => (writes_laneEvent ..).next h

/-- A sequence that asks for no self-calibration starts none. -/
theorem writes_hkSet_noCal (s : State) (l : List HkEntry) (period rotN : Nat) (hp : ∀ o, P (pg .hka 0) o) :
    Writes P s (s.hkSet l period rotN false) := by
  unfold State.hkSet
  extract_lets cal ran _ s₁ around now s₂ _ s₃
  have hcal : s₃.hk.calDue = false := rfl
  rw [if_neg (by rw [hcal]; exact Bool.false_ne_true)]
  have h₁ : Writes P s s₁ := by
    unfold s₁
    split
    · exact .refl _ _
    · exact .keep (s := s) (.refl _ _) rfl
  exact .keep (.wr h₁ (hp _) (by decide)) rfl

end

/-! The accesses held while the part starts. -/

section
variable {s : State}

theorem held_enable (s : State) (p : Nat) : (s.enable p).page.held = s.page.held := by
  unfold State.enable
  dsimp only
  split <;> rfl

theorem held_startPstate (s : State) (p ps : Nat) : (s.startPstate p ps).page.held = s.page.held := by
  unfold State.startPstate
  dsimp only
  split
  · rfl
  · split <;> rfl

theorem held_wakeBlocks (s : State) (img : EpochImage) : (s.wakeBlocks img).page.held = s.page.held :=
  List.foldlRecOn _ _ (motive := fun u : State => u.page.held = s.page.held) rfl fun _ h p _ => (held_startPstate _ p 0).trans h

theorem held_resumeLive (s : State) : s.resumeLive.page.held = s.page.held := by
  unfold State.resumeLive
  split
  · rfl
  · split
    · rfl
    next img _ _ =>
      extract_lets lead s₁ _ s₂
      have hpark : ((s₂.wakeBlocks img).parkLinks none img).page = (s₂.wakeBlocks img).page := (does_parkLinks ..).only .page (by decide)
      have heqx : s₁.page = s.page := (does_eqxSet s (s.tick + lead) false false).only .page (by decide)
      have hsame : s₂.page = s₁.page := by simp only [s₂]
      rw [hpark, held_wakeBlocks, hsame, heqx]

theorem writes_resumeLive (s : State) : Writes notBootStat s s.resumeLive := by
  unfold State.resumeLive
  split
  · exact .refl _ _
  · refine .ite (.refl _ _) ?_
    extract_lets lead s₁ _ s₂
    have h₁ : Writes notBootStat s s₁ := writes_eqxSet _ _ _ _ (notBootStat_pg (by decide) 0)
    have h₂ : Writes notBootStat s s₂ := .keep h₁ rfl
    exact (writes_parkLinks _ _ _ (fun l => notBootStat_pg (by decide) l) (fun q => notBootStat_pg (by decide) q)).next
      ((writes_wakeBlocks _ _ fun p => ⟨notBootStat_off (by decide) p, notBootStat_off (by decide) p⟩).next h₂)

theorem replayHeld_none (h : s.page.held = []) (t : Nat) : s.replayHeld t = { s with page := { s.page with held := [] } } := by
  unfold State.replayHeld
  rw [h]
  rfl

end

section
variable {s : State} {t : Nat}

theorem does_broughtUp (s : State) : Does [.rf, .page] s (s.each broughtUp (fun s p => ((s.enable p).setPstate p 0).setPstateAct p 0)) :=
  .each _ (.refl _ _) fun _ _ h => (does_setPstateAct ..).next ((does_setPstate ..).next ((does_enable ..).next h rfl) rfl) rfl

theorem held_broughtUp (s : State) :
    (s.each broughtUp (fun s p => ((s.enable p).setPstate p 0).setPstateAct p 0)).page.held = s.page.held :=
  List.foldlRecOn broughtUp _ (motive := fun u : State => u.page.held = s.page.held) rfl fun _ h p _ => (held_enable _ p).trans h

/-- With no access held, what the last step resumes shows the boot status that it found. -/
theorem resumed_boot {v : State} {r : Nat} (hstep : v.rd (pg .glb 0) Reg.GLB_BOOT_STAT_STEP = 9)
    (hready : v.rd (pg .glb 0) Reg.GLB_BOOT_STAT_READY = 1) (hboot : v.boot = { s.boot with readyAt := r }) (hheld : v.page.held = []) (t : Nat) :
    (v.resumeLive.replayHeld t).ready = true ∧ (v.resumeLive.replayHeld t).startedUp = true ∧
      (v.resumeLive.replayHeld t).boot = { s.boot with readyAt := r } := by
  rw [replayHeld_none ((held_resumeLive v).trans hheld) t]
  have h := writes_resumeLive v
  refine ⟨beq_iff_eq.2 ((h.bootStat (by decide) rfl).trans hready), beq_iff_eq.2 ((h.bootStat (by decide) rfl).trans hstep), ?_⟩
  exact ((does_resumeLive v).only .boot (by decide)).trans hboot

theorem bootReady_ends (hstep : s.rd (pg .glb 0) Reg.GLB_BOOT_STAT_STEP = 6) (hdone : s.boot.done = 7)
    (hfail : s.on (pg .glb 0) Reg.GLB_BOOT_STAT_FAILED = false) (hcount : s.clk.counting = true) (hgated : s.gated = false)
    (hwarm : s.boot.warmHeld = false) (hheld : s.page.held = []) :
    Gives (.bootReady t) s fun u => u.ready = true ∧ u.startedUp = true ∧ u.boot = { s.boot with readyAt := (s.advance t).tick } := by
  show ∃ u, execBootReady t s = .next u ∧ _
  unfold execBootReady
  extract_lets v glb s₁ s₂ s₃ _ _ s₄ s₅ s₆
  have hrun : ¬(v.rd glb Reg.GLB_BOOT_STAT_STEP ≠ 6 || v.boot.done != 7 || v.on glb Reg.GLB_BOOT_STAT_FAILED || !v.clk.counting || v.gated ||
      v.boot.warmHeld) = true := by
    simp only [v, glb, advance_rd, on_advance, State.advance_boot, State.advance_clk, gated_advance, hstep, hdone, hfail, hcount, hgated, hwarm]
    decide
  rw [if_neg hrun]
  refine ⟨_, rfl, ?_⟩
  have hup : Does [.rf, .page] v s₁ := does_broughtUp v
  have hclear : Does [.rf, .svc] s₁ s₂ := does_ringsClear s₁
  have hfw : Writes notBootStat s₄ s₅ := (writes_hkSet_noCal _ _ _ _ (notBootStat_pg (by decide) 0)).next
    (writes_fuseAdvance _ _ (notBootStat_pg (by decide) _ _))
  have hfw' : Does (eventedAnd [.tio, .hk, .flash]) s₄ s₅ := (does_hkSet ..).next ((does_fuseReady ..).next (.refl _ _) rfl) rfl
  have hev : Writes notBootStat s₅ s₆ := (writes_eventIf ..).next (writes_event ..)
  have hev' : Does evented s₅ s₆ := (does_eventIf ..).next ((does_event ..).next (.refl _ _) rfl) rfl
  have hkeep : Writes notBootStat s₄ s₆ := hev.next hfw
  have hnine : Does [.rf, .page, .svc] v s₃ := (does_wrs ..).next (hclear.next (hup.next (.refl _ _) rfl) rfl) rfl
  have hboot₃ : s₃.boot = s.boot := (hnine.only .boot (by decide)).trans (State.advance_boot s t)
  have htick₃ : s₃.tick = v.tick := hnine.only .tick (by decide)
  have hclear' : Does [.rf, .svc] s₁ s₃ := (does_wrs ..).next hclear rfl
  have hpage₃ : s₃.page = s₁.page := hclear'.only .page (by decide)
  have hpage₄ : s₄.page = s₃.page := by simp only [s₄]
  have hrf : s₄.rf = s₃.rf := by simp only [s₄]
  refine resumed_boot ?_ ?_ ?_ ?_ t
  · exact (hkeep.bootStat (by decide) rfl).trans ((rd_of_rf hrf ..).trans (rd_wrs_eq s₂ rfl (by decide) rfl))
  · exact (hkeep.bootStat (by decide) rfl).trans ((rd_of_rf hrf ..).trans (rd_wrs_eq s₂ rfl (by decide) rfl))
  · rw [hev'.only .boot (by decide), hfw'.only .boot (by decide), ← htick₃, ← hboot₃]
  · rw [hev'.only .page (by decide), hfw'.only .page (by decide), hpage₄, hpage₃, held_broughtUp, State.advance_page, hheld]

end

end Sys2Proof.Machine
end

section
/-!
PROOF. Start-up: what the memory's training leaves, and the obligation (R128, R136, R412).
-/
namespace Sys2Proof.Machine

/-! The state of a channel while the others' are written. -/

/-- From `s` to `u` the state of channel `c` has not changed. -/
def StateKept (c : Nat) (s u : State) : Prop := u.rd (pg .mch c) Reg.MCH_MCH_STAT_STATE = s.rd (pg .mch c) Reg.MCH_MCH_STAT_STATE

section
variable {c : Nat} {s t u : State}

theorem StateKept.next (k : StateKept c t u) (h : StateKept c s t) : StateKept c s u := k.trans h

theorem StateKept.wr {p v : Nat} {f : Fld} (h : StateKept c s t) (hf : f.placed) (hne : ¬(0x100 = f.off ∧ Reg.MCH_MCH_STAT_STATE.lo = f.lo)) :
    StateKept c s (t.wr p f v) := .next (rd_wr_other _ _ hf (by decide) fun e => hne e.2) h

theorem evReg_mch : ∀ c : Fin 64, evReg (pg .mch c) 0x100 = false := by decide

theorem stateKept_failMapLoad (s : State) (c d : Nat) : StateKept c s (s.failMapLoad d) := by
  unfold State.failMapLoad
  refine List.foldlRecOn _ _ (motive := StateKept c s) rfl fun v hv e _ => ?_
  extract_lets s₁
  have h₁ : StateKept c s s₁ := hv.wr (by decide) (by decide)
  split
  · refine .wr (List.foldlRecOn _ _ (motive := StateKept c s) h₁ fun w hw r hr => ?_) (by decide) (by decide)
    have hr : r < 4 := List.mem_range.1 hr
    have hplaced : (Reg.MCH_RANK_MAP_LR r).placed := ⟨show 264 < 4096 by decide, by simp only [Reg.MCH_RANK_MAP_LR]; omega⟩
    split
    · exact hw.wr hplaced (fun e => absurd e.1 (by decide : ¬(0x100 = 264)))
    · split
      · exact hw.wr hplaced (fun e => absurd e.1 (by decide : ¬(0x100 = 264)))
      · exact hw
  · exact h₁

theorem stateKept_chanLevels (s : State) (c : Fin 64) (d : Nat) : StateKept c s (s.chanLevels d) :=
  (rd_setRaw _ _ _ (by decide) (evReg_mch c)).trans (rd_setRaw _ _ _ (by decide) (evReg_mch c))

theorem rd_failEntry (s : State) (kind d sid spare p : Nat) (f : Fld) : (s.failEntry kind d sid spare).rd p f = s.rd p f := rfl

/-- What the training does with channel `d`, which failed if `bad`. -/
def State.chanTrained (s : State) (bad : List Nat) (d : Nat) : State :=
  let known (s : State) (c : Nat) : Bool := s.flash.failMap.any (fun e => e.kind == 3 && e.chan == c)
  let s := s.failMapLoad d
  if bad.contains d then
    let s := s.wr (pg .mch d) Reg.MCH_MCH_STAT_STATE 5
    (if known s d then s else s.failEntry 3 d 0xFF 0xFF).chanLevels d
  else (s.wr (pg .mch d) Reg.MCH_MCH_STAT_STATE 2).chanLevels d

theorem chanTrained_state (s : State) (bad : List Nat) (c : Fin 64) :
    (s.chanTrained bad c).rd (pg .mch c) Reg.MCH_MCH_STAT_STATE = if bad.contains c.val then 5 else 2 := by
  unfold State.chanTrained
  dsimp only
  split
  · refine (stateKept_chanLevels _ c c).trans ?_
    split
    · exact rd_wr_self ..
    · exact (rd_failEntry ..).trans (rd_wr_self ..)
  · exact (stateKept_chanLevels _ c c).trans (rd_wr_self ..)

theorem chanTrained_other (s : State) (bad : List Nat) {c : Fin 64} {d : Nat} (hne : c.val ≠ d) : StateKept c s (s.chanTrained bad d) := by
  have hpage : pg .mch c ≠ pg .mch d := fun e => hne (Nat.add_left_cancel e)
  have hwr (v : State) (x : Nat) : StateKept c v (v.wr (pg .mch d) Reg.MCH_MCH_STAT_STATE x) := rd_wr_page _ _ (by decide) (by decide) hpage
  unfold State.chanTrained
  dsimp only
  have h₁ := stateKept_failMapLoad s c d
  split
  · refine (stateKept_chanLevels _ c d).next ?_
    split
    · exact (hwr _ 5).next h₁
    · exact (hwr _ 5).next h₁
  · exact (stateKept_chanLevels _ c d).next ((hwr _ 2).next h₁)

theorem trained_each (bad : List Nat) (c : Fin 64) (l : List Nat) (s : State) :
    (s.each l (fun s d => s.chanTrained bad d)).rd (pg .mch c) Reg.MCH_MCH_STAT_STATE =
      if c.val ∈ l then if bad.contains c.val then 5 else 2 else s.rd (pg .mch c) Reg.MCH_MCH_STAT_STATE := by
  induction l generalizing s with
  | nil => rfl
  | cons d l ih =>
    refine (ih _).trans ?_
    by_cases hmem : c.val ∈ l
    · rw [if_pos hmem, if_pos (List.mem_cons_of_mem _ hmem)]
    · rw [if_neg hmem]
      by_cases hcd : c.val = d
      · rw [if_pos (by rw [hcd]; exact List.mem_cons_self), ← hcd]
        exact chanTrained_state s bad c
      · rw [if_neg (by simp [hcd, hmem])]
        exact chanTrained_other s bad hcd

theorem does_chanTrained (s : State) (bad : List Nat) (d : Nat) : Does (eventedAnd [.flash]) s (s.chanTrained bad d) := by
  unfold State.chanTrained
  extract_lets known s₁ s₂
  have h₁ : Does (eventedAnd [.flash]) s s₁ := (does_failMapLoad ..).next (.refl _ _) rfl
  split
  · refine (does_chanLevels ..).next (.ite ?_ ((does_failEntry ..).next ?_ rfl)) rfl <;> exact (does_wr ..).next h₁ rfl
  · exact (does_chanLevels ..).next ((does_wr ..).next h₁ rfl) rfl

theorem state_bootFail (s : State) (code detail : Nat) (c : Fin 64) :
    (s.bootFail code detail).rd (pg .mch c) Reg.MCH_MCH_STAT_STATE = s.rd (pg .mch c) Reg.MCH_MCH_STAT_STATE :=
  (rd_event _ _ _ _ (by decide) (evReg_mch c)).trans (rd_wrs_page _ (by decide) rfl (by revert c; decide))

theorem hbmTraining_ends {t : Nat} {failed : Word} (hstep : s.rd (pg .glb 0) Reg.GLB_BOOT_STAT_STEP = 6) (hnew : s.boot.done.testBit 0 = false)
    (hgated : s.gated = false) : Gives (.hbmStartTrainingDone t failed) s fun u => u.boot = { s.boot with done := setBit s.boot.done 0 } ∧
      ∀ c : Fin 64, u.rd (pg .mch c) Reg.MCH_MCH_STAT_STATE = if failed.getLsbD c then 5 else 2 := by
  show ∃ u, execHbmStartTrainingDone t failed s = .next u ∧ _
  unfold execHbmStartTrainingDone
  extract_lets v glb bad known _ _ s₁ good _ s₂ s₃ s₄
  have hrun : ¬(v.rd glb Reg.GLB_BOOT_STAT_STEP ≠ 6 || v.boot.done.testBit 0 || v.gated) = true := by
    simp only [v, glb, advance_rd, State.advance_boot, gated_advance, hstep, hnew, hgated]
    decide
  rw [if_neg hrun]
  refine ⟨_, rfl, ?_⟩
  have hbad (c : Fin 64) : bad.contains c.val = failed.getLsbD c := by
    rw [Bool.eq_iff_iff, List.contains_iff_mem, List.mem_filter, List.mem_range]
    exact and_iff_right c.isLt
  have hflash : Does [.flash] s₁ s₂ := .ite (.refl _ _) (.flash (.refl _ _) rfl)
  have htrain : s₃ = s₂.each (List.range 64) fun s d => s.chanTrained bad d := rfl
  have hboot : s₁.boot = { s.boot with done := setBit s.boot.done 0 } :=
    congrArg (fun b : BootSt => { b with done := setBit b.done 0 }) (State.advance_boot s t)
  have hstate (c : Fin 64) : s₄.rd (pg .mch c) Reg.MCH_MCH_STAT_STATE = if failed.getLsbD c then 5 else 2 := by
    rw [(rd_of_rf ((does_migResume s₃).only .rf (by decide)) .. : s₄.rd _ _ = s₃.rd _ _), htrain, trained_each, if_pos (List.mem_range.2 c.isLt), hbad]
  have hdoes : Does (eventedAnd [.flash, .mem]) s₁ s₄ := by
    refine (does_migResume ..).next ?_ rfl
    rw [htrain]
    exact .each _ (hflash.next (.refl _ _) rfl) fun _ _ h => (does_chanTrained ..).next h rfl
  have hb : s₄.boot = { s.boot with done := setBit s.boot.done 0 } := (hdoes.only .boot (by decide)).trans hboot
  split
  · exact ⟨(bootFail_boot ..).trans hb, fun c => (state_bootFail ..).trans (hstate c)⟩
  · exact ⟨(eventIf_boot ..).trans hb, fun c => (rd_eventIf _ _ _ _ _ (by decide) (evReg_mch c)).trans (hstate c)⟩

end

/-- Settles O9: what the slots, the host link, the memory's training and the banks leave, and step 9. -/
theorem startupCommandsComplete : Obligations.StartupCommandsComplete :=
  ⟨fun _ _ _ _ _ _ _ hstart hwarm hver _ hstep hfail hslot hv hgood => romVerify_boots hstart hwarm hver hstep hfail hslot hv hgood,
    fun _ _ _ _ _ _ _ hstart hwarm hver hstep hfail hslot hv hbad => romVerify_rejects hstart hwarm hver hstep hfail hslot hv hbad,
    fun _ _ _ _ hstart hspeed hwidth => pcieLink_trains hstart hspeed hwidth,
    fun _ _ _ hstep hnew hgated => hbmTraining_ends hstep hnew hgated,
    fun _ _ _ _ hstep hnew hat hgated => bankClear_enables hstep hnew hat hgated,
    fun _ _ hstep hdone hfail hcount hgated hwarm hheld => bootReady_ends hstep hdone hfail hcount hgated hwarm hheld⟩

end Sys2Proof.Machine
end

section
/-!
PROOF. The equinox: its registers while events are raised, the equinox itself, its end, and the end of probation (R139, R487, R489).
-/
namespace Sys2Proof.Machine

/-- No field that a list of writes names lies at `f`'s place. -/
def allApart (f : Fld) (l : List (Fld × Nat)) : Prop := ∀ x ∈ l, x.1.placed ∧ ¬(f.off = x.1.off ∧ f.lo = x.1.lo)

theorem rd_wrs_apart {f : Fld} (hf : f.placed) {l : List (Fld × Nat)} {s : State} {p : Nat} (h : allApart f l) : (s.wrs p l).rd p f = s.rd p f := by
  induction l generalizing s with
  | nil => rfl
  | cons x l ih =>
    obtain ⟨hx, hne⟩ := h x List.mem_cons_self
    exact (ih fun y hy => h y (List.mem_cons_of_mem _ hy)).trans (rd_wr_field _ _ hx hf hne)

/-! The epoch registers while events are raised. -/

/-- A field that only an equinox writes: the epoch numbers, the tick of the last equinox, and SWITCHING. -/
def eqxField (f : Fld) : Prop := f.off = 0x100 ∨ f.off = 0x108 ∨ f.off = 0x130 ∨ (f.off = 0x128 ∧ f.lo = 58)

/-- From `s` to `u` no field of the equinox has changed, nor, where no probation runs, any epoch register but EV_RAW and EV_PEND. -/
structure Calm (s u : State) : Prop where
  held : ∀ f, f.placed → eqxField f → u.rd epoPage f = s.rd epoPage f
  quiet : s.on epoPage Reg.EPO_PROB_STAT_ACTIVE = false → ∀ f, f.placed → f.off ≠ 0x20 → f.off ≠ 0x28 → u.rd epoPage f = s.rd epoPage f

theorem eqxField_high {f : Fld} (h : eqxField f) : f.off ≠ 0x20 ∧ f.off ≠ 0x28 := by
  unfold eqxField at h
  omega

section
variable {s t u : State}

theorem Calm.refl (s : State) : Calm s s := ⟨fun _ _ _ => rfl, fun _ _ _ _ _ => rfl⟩

theorem Calm.next (k : Calm t u) (h : Calm s t) : Calm s u where
  held f hf he := (k.held f hf he).trans (h.held f hf he)
  quiet hq f hf h₁ h₂ := by
    have hact : t.on epoPage Reg.EPO_PROB_STAT_ACTIVE = false := by
      rw [on_of_rd (h.quiet hq Reg.EPO_PROB_STAT_ACTIVE (by decide) (by decide) (by decide)), hq]
    exact (k.quiet hact f hf h₁ h₂).trans (h.quiet hq f hf h₁ h₂)

theorem Calm.keep (h : Calm s t) (e : u.rf = t.rf) : Calm s u := .next ⟨fun f _ _ => rd_of_rf e _ f, fun _ f _ _ _ => rd_of_rf e _ f⟩ h

/-- An operation that leaves the register file. -/
theorem Does.calm {a : List Part} (k : Does a t u) (h : Calm s t) (w : a.contains .rf = false) : Calm s u := h.keep (k.only .rf (by simpa using w))

/-- A write of another page, or of the registers in which a page's events show. -/
theorem Calm.wr {p v : Nat} {f : Fld} (h : Calm s t) (hf : f.placed) (hp : epoPage ≠ p ∨ f.off = 0x20 ∨ f.off = 0x28) : Calm s (t.wr p f v) := by
  have hkeep : ∀ g : Fld, g.placed → g.off ≠ 0x20 → g.off ≠ 0x28 → (t.wr p f v).rd epoPage g = t.rd epoPage g := by
    intro g hg h₁ h₂
    refine rd_wr_other t v hf hg fun ⟨e, e', _⟩ => ?_
    rcases hp with hp | hp | hp
    · exact hp e
    · exact h₁ (e'.trans hp)
    · exact h₂ (e'.trans hp)
  exact .next ⟨fun g hg he => hkeep g hg (eqxField_high he).1 (eqxField_high he).2, fun _ g hg h₁ h₂ => hkeep g hg h₁ h₂⟩ h

theorem Calm.each {α : Type} {f : State → α → State} (l : List α) (h : Calm s t) (hf : ∀ t a, Calm s t → Calm s (f t a)) :
    Calm s (t.each l f) := List.foldlRecOn l f h fun t ht a _ => hf t a ht

theorem Calm.when {f : State → State} (b : Bool) (h : Calm s t) (hf : ∀ t, Calm s t → Calm s (f t)) : Calm s (t.when b f) := by
  cases b
  · exact h
  · exact hf t h

theorem Calm.ite {c : Prop} [Decidable c] {a b : State} (ha : Calm s a) (hb : Calm s b) : Calm s (if c then a else b) := by
  split
  · exact ha
  · exact hb

theorem epo_ne_pg {b : Blk} (hb : firstPage b ≠ 9) (hlow : 9 ≤ firstPage b) (i : Nat) : epoPage ≠ pg b i := by
  intro h
  have h9 : 9 = firstPage b + i := h
  omega

theorem calm_logFault (s : State) (e : FlogEntry) : Calm s (s.logFault e) := .wr (.keep (.refl s) rfl) (by decide) (.inl (by decide))

theorem calm_severity (s : State) (id : Nat) : Calm s (s.severity id) := by
  unfold State.severity
  split
  · exact .refl s
  · refine .when _ (.when _ ?_ fun t h => (calm_logFault t _).next h) fun t h => h.keep rfl
    split
    · exact .keep (.refl s) rfl
    · exact .keep (.refl s) rfl

theorem calm_msixSend (s : State) (v : Nat) (hv : v < 256) : Calm s (s.msixSend v) := by
  have harm : (Reg.EVA_VEC_ARM_ARM (v / 64)).placed := by
    simp only [Fld.placed, Reg.EVA_VEC_ARM_ARM]
    omega
  unfold State.msixSend
  split
  · exact .keep (.wr (.refl s) harm (.inl (by decide))) rfl
  · exact .keep (.refl s) rfl

theorem calm_evqPush (s : State) (n id : Nat) : Calm s (s.evqPush n id) := by
  unfold State.evqPush
  dsimp only
  split
  · exact .keep (.refl s) rfl
  · exact .wr (.refl s) (by decide) (.inl (epo_ne_pg (by decide) (by decide) _))

theorem calm_deliver (s : State) (id : Nat) : Calm s (s.deliver id).1 := by
  unfold State.deliver
  dsimp only
  split
  · exact .refl s
  split
  · split
    · exact calm_msixSend s _ (bits7_lt _)
    · exact .refl s
  · split
    · exact calm_evqPush ..
    · exact .refl s
  · exact .keep (.refl s) rfl
  · split
    · exact .keep (.refl s) rfl
    · exact .refl s
  · exact .refl s

theorem calm_transit (n : Nat) (s : State) (id : Nat) : Calm s (State.transit n s id) := by
  induction n generalizing s id with
  | zero => exact .refl s
  | succ n ih =>
    unfold State.transit
    dsimp only
    have hpend : Calm s ((s.severity id).setPend id) := .wr (calm_severity s id) (by decide) (.inr (.inr rfl))
    split
    · exact .next (List.foldlRecOn _ _ (calm_deliver ..) fun t ht e _ => (ih t e).next ht) hpend
    · exact hpend

theorem calm_failProbation (s : State) (c : Nat) : Calm s (s.failProbation c) := by
  unfold State.failProbation
  split
  case isTrue h =>
    refine (calm_transit ..).next ⟨fun f hf he => ?_, fun hq => ?_⟩
    · refine rd_wrs_apart hf ?_
      simp only [allApart, List.forall_mem_cons, Fld.placed]
      unfold eqxField at he
      simp [Reg.EPO_PROB_STAT_ACTIVE, Reg.EPO_PROB_STAT_FAILED, Reg.EPO_PROB_STAT_FAIL_CRIT, Reg.EPO_EQX_TICK_TICK, Reg.EPO_EQX_STAT_PENDING,
        Reg.EPO_EQX_STAT_REVERT, Reg.EPO_EQX_STAT_AUTO, Reg.EPO_EQX_STAT_ANNOUNCED, Reg.EPO_EQX_STAT_FROM_DELTAN]
      omega
    · rw [show s.on (pg .epo 0) Reg.EPO_PROB_STAT_ACTIVE = false from hq] at h
      exact absurd h (by simp)
  case isFalse => exact .refl s

theorem calm_judge (s : State) (id : Nat) : Calm s (s.judge id) := .ite (calm_failProbation ..) (.refl s)

theorem calm_event (s : State) (b : Blk) (i k : Nat) : Calm s (s.event b i k) := .ite (.refl s) ((calm_judge ..).next (calm_transit ..))

theorem calm_eventIf (s : State) (c : Bool) (b : Blk) (i k : Nat) : Calm s (s.eventIf c b i k) := .ite (calm_event ..) (.refl s)

end

/-! The end of probation. -/

section
variable {t : Nat} {s : State}

theorem probation_passes (hact : s.on epoPage Reg.EPO_PROB_STAT_ACTIVE = true) (hend : s.epo.probEnd ≤ (s.advance t).tick)
    (hsw : s.on epoPage Reg.EPO_EQX_STAT_SWITCHING = false) (hgated : s.gated = false) :
    Gives (.probationPass t) s fun u => u.rd epoPage Reg.EPO_PROB_STAT_ACTIVE = 0 ∧ u.rd epoPage Reg.EPO_PROB_STAT_PASSED = 1 := by
  have hrun : (!(s.advance t).on epoPage Reg.EPO_PROB_STAT_ACTIVE || decide ((s.advance t).tick < (s.advance t).epo.probEnd) ||
      (s.advance t).on epoPage Reg.EPO_EQX_STAT_SWITCHING || (s.advance t).gated) = false := by
    rw [on_advance, on_advance, gated_advance, State.advance_epo, hact, hsw, hgated, decide_eq_false (Nat.not_lt.2 hend)]
    rfl
  refine .of_next (congrArg Host.Outcome.next (if_neg (by rw [hrun]; exact Bool.false_ne_true))) ?_
  generalize hw : (s.advance t).wrs epoPage [(Reg.EPO_PROB_STAT_ACTIVE, 0), (Reg.EPO_PROB_STAT_PASSED, 1)] = w
  have h₀ : w.rd epoPage Reg.EPO_PROB_STAT_ACTIVE = 0 := by rw [← hw]; exact rd_wrs_eq _ rfl (by decide) rfl
  have h₁ : w.rd epoPage Reg.EPO_PROB_STAT_PASSED = 1 := by rw [← hw]; exact rd_wrs_eq _ rfl (by decide) rfl
  have hoff : w.on epoPage Reg.EPO_PROB_STAT_ACTIVE = false := by
    unfold State.on
    rw [h₀]
    rfl
  have h := (calm_event w .epo 0 3).quiet hoff
  exact ⟨(h _ (by decide) (by decide) (by decide)).trans h₀, (h _ (by decide) (by decide) (by decide)).trans h₁⟩

end

end Sys2Proof.Machine
end

section
/-!
PROOF. The equinox: what the epochs, their numbers and the equinox's registers are once it has come (R139, R487, R489).
-/
namespace Sys2Proof.Machine

section
variable {s : State}

/-! The epochs change places. -/

/-- A digest is written above the epoch's other registers. -/
theorem rd_setDigest (s : State) {f : Nat → Fld} (d : List Word) (hf : ∀ i < 4, (f i).placed ∧ 0x180 ≤ (f i).off) {g : Fld} (hg : g.placed)
    (ho : g.off < 0x180) : (s.setDigest f d).rd epoPage g = s.rd epoPage g :=
  List.foldlRecOn (List.range 4) _ (motive := fun u : State => u.rd epoPage g = s.rd epoPage g) rfl fun t ht i hi => by
    obtain ⟨hp, hhigh⟩ := hf i (List.mem_range.1 hi)
    exact (rd_wr_field _ _ hp hg fun e => by omega).trans ht

theorem setDigest_epo (s : State) (f : Nat → Fld) (d : List Word) : (s.setDigest f d).epo = s.epo :=
  List.foldlRecOn (List.range 4) _ (motive := fun u : State => u.epo = s.epo) rfl fun _ ht _ _ => ht

theorem digest_live : ∀ i < 4, (Reg.EPO_DIG_LIVE_WORD i).placed ∧ 0x180 ≤ (Reg.EPO_DIG_LIVE_WORD i).off := by decide
theorem digest_prior : ∀ i < 4, (Reg.EPO_DIG_PRIOR_WORD i).placed ∧ 0x180 ≤ (Reg.EPO_DIG_PRIOR_WORD i).off := by decide
theorem digest_staged : ∀ i < 4, (Reg.EPO_DIG_STAGED_WORD i).placed ∧ 0x180 ≤ (Reg.EPO_DIG_STAGED_WORD i).off := by decide

/-- The epoch numbers lie below EPO_HWM. -/
theorem epochNumbers_apart {f : Fld} (h : 0x118 ≤ f.off) {a b c d e g : Nat} : allApart f [(Reg.EPO_EPO_LIVE_NUMBER, a),
    (Reg.EPO_EPO_PRIOR_NUMBER, b),
    (Reg.EPO_EPO_PRIOR_VALID, c), (Reg.EPO_EPO_PRIOR_FAILED, d), (Reg.EPO_EPO_STAGED_VALID, e), (Reg.EPO_EPO_STAGED_NUMBER, g)] := by
  simp only [allApart, List.forall_mem_cons, Fld.placed]
  simp [Reg.EPO_EPO_LIVE_NUMBER, Reg.EPO_EPO_PRIOR_NUMBER, Reg.EPO_EPO_PRIOR_VALID, Reg.EPO_EPO_PRIOR_FAILED, Reg.EPO_EPO_STAGED_VALID,
    Reg.EPO_EPO_STAGED_NUMBER]
  omega

theorem rotate_forward (hres : s.epo.resume = none) (hrev : s.on epoPage Reg.EPO_EQX_STAT_REVERT = false) :
    s.rotate.epo.live = s.epo.staged ∧ s.rotate.epo.prior = s.epo.live ∧ s.rotate.epo.staged = none ∧
      s.rotate.rd epoPage Reg.EPO_EPO_LIVE_NUMBER = Reg.EPO_EPO_LIVE_NUMBER.cut (s.rd epoPage Reg.EPO_EPO_STAGED_NUMBER) ∧
      s.rotate.rd epoPage Reg.EPO_EPO_PRIOR_NUMBER = Reg.EPO_EPO_PRIOR_NUMBER.cut (s.rd epoPage Reg.EPO_EPO_LIVE_NUMBER) ∧
      ∀ f, f.placed → 0x118 ≤ f.off → f.off < 0x180 → s.rotate.rd epoPage f = s.rd epoPage f := by
  unfold State.rotate
  extract_lets p rev liveNo digest old _ s₁ auto _ s₂ s₃ s₄ s₅
  have hres₁ : s₁.epo.resume.isSome = false := congrArg Option.isSome hres
  rw [if_neg (by rw [hres₁]; exact Bool.false_ne_true), if_neg (show ¬rev = true by rw [show rev = false from hrev]; exact Bool.false_ne_true)]
  generalize hu : ((s₅.setDigest Reg.EPO_DIG_LIVE_WORD (digest Reg.EPO_DIG_STAGED_WORD)).setDigest Reg.EPO_DIG_PRIOR_WORD
    (digest Reg.EPO_DIG_LIVE_WORD)).setDigest Reg.EPO_DIG_STAGED_WORD [] = u
  have hread (f : Fld) (hf : f.placed) (ho : f.off < 0x180) : u.rd epoPage f = s₅.rd epoPage f := by
    rw [← hu]
    exact (rd_setDigest _ _ digest_staged hf ho).trans ((rd_setDigest _ _ digest_prior hf ho).trans (rd_setDigest _ _ digest_live hf ho))
  have hepo : u.epo = s₅.epo := by
    rw [← hu, setDigest_epo, setDigest_epo, setDigest_epo]
  have hepo₅ : s₅.epo = s₄.epo := (does_wrs ..).only .epo (by decide)
  have hrf₄ : s₄.rf = s.rf := by simp only [s₄, s₁]
  refine ⟨?_, ?_, ?_, ?_, ?_, ?_⟩
  · rw [hepo, hepo₅]
  · rw [hepo, hepo₅]
  · rw [hepo, hepo₅]
  · exact (hread _ (by decide) (by decide)).trans (rd_wrs_eq s₄ rfl (by decide) rfl)
  · exact (hread _ (by decide) (by decide)).trans (rd_wrs_eq s₄ rfl (by decide) rfl)
  · intro f hf hlo hhi
    refine (hread f hf hhi).trans ((rd_wrs_apart hf ?_).trans (rd_of_rf hrf₄ _ f))
    exact epochNumbers_apart hlo

theorem rotate_back (hres : s.epo.resume = none) (hrev : s.on epoPage Reg.EPO_EQX_STAT_REVERT = true) :
    s.rotate.epo.live = s.epo.prior ∧ s.rotate.epo.prior = s.epo.live ∧ s.rotate.epo.staged = s.epo.staged ∧
      s.rotate.rd epoPage Reg.EPO_EPO_LIVE_NUMBER = Reg.EPO_EPO_LIVE_NUMBER.cut (s.rd epoPage Reg.EPO_EPO_PRIOR_NUMBER) := by
  unfold State.rotate
  extract_lets p rev liveNo digest old _ s₁ auto _ s₂ s₃ s₄ s₅
  have hres₁ : s₁.epo.resume.isSome = false := congrArg Option.isSome hres
  rw [if_neg (by rw [hres₁]; exact Bool.false_ne_true), if_pos (show rev = true from hrev)]
  generalize hu : (s₃.setDigest Reg.EPO_DIG_LIVE_WORD (digest Reg.EPO_DIG_PRIOR_WORD)).setDigest Reg.EPO_DIG_PRIOR_WORD
    (digest Reg.EPO_DIG_LIVE_WORD) = u
  have hread : u.rd epoPage Reg.EPO_EPO_LIVE_NUMBER = s₃.rd epoPage Reg.EPO_EPO_LIVE_NUMBER := by
    rw [← hu]
    exact (rd_setDigest _ _ digest_prior (by decide) (by decide)).trans (rd_setDigest _ _ digest_live (by decide) (by decide))
  have hepo : u.epo = s₃.epo := by
    rw [← hu, setDigest_epo, setDigest_epo]
  have hepo₃ : s₃.epo = s₂.epo := (does_wrs ..).only .epo (by decide)
  refine ⟨?_, ?_, ?_, ?_⟩
  · rw [hepo, hepo₃]
  · rw [hepo, hepo₃]
  · rw [hepo, hepo₃]
  · exact hread.trans (rd_wrs_eq s₂ rfl (by decide) rfl)

end

/-! The rest of the equinox. -/

section
variable {s : State}

theorem calm_icWr (s : State) (n : Nat) (f : Fld) (v : Nat) (hf : f.placed) : Calm s (s.icWr n f v) :=
  .each _ (.refl s) fun _ _ h => h.wr hf (.inl (epo_ne_pg (by decide) (by decide) _))

theorem calm_icWrs (s : State) (n : Nat) {l : List (Fld × Nat)} (hl : allPlaced l = true) : Calm s (s.icWrs n l) := by
  induction l generalizing s with
  | nil => exact .refl s
  | cons x l ih =>
    simp only [allPlaced, Bool.and_eq_true, decide_eq_true_eq] at hl
    exact (ih _ hl.2).next (calm_icWr s n x.1 x.2 hl.1)

theorem calm_inputsTurn (s : State) : Calm s s.inputsTurn := by
  unfold State.inputsTurn
  extract_lets kept s₁
  have h : Calm s s₁ := .each _ (.refl s) fun t n h => (calm_icWrs _ n (by rfl)).next (.each _ h fun _ _ h => (does_complete ..).calm h rfl)
  exact .keep h rfl

/-- The epochs are those of another state. -/
structure SameEpochs (s u : State) : Prop where
  live : u.epo.live = s.epo.live
  prior : u.epo.prior = s.epo.prior
  staged : u.epo.staged = s.epo.staged

theorem SameEpochs.of_epo {u : State} (h : u.epo = s.epo) : SameEpochs s u := ⟨by rw [h], by rw [h], by rw [h]⟩

theorem SameEpochs.next {t u : State} (k : SameEpochs t u) (h : SameEpochs s t) : SameEpochs s u :=
  ⟨k.live.trans h.live, k.prior.trans h.prior, k.staged.trans h.staged⟩

theorem sameEpochs_inputsTurn (s : State) : SameEpochs s s.inputsTurn := by
  unfold State.inputsTurn
  extract_lets kept s₁
  have h : Does [.rf, .svc] s s₁ := .each _ (.refl _ _) fun _ _ h => (does_icWrs ..).next (.each _ h fun _ _ h => (does_complete ..).next h rfl) rfl
  exact .next (t := s₁) ⟨rfl, rfl, rfl⟩ (.of_epo (h.only .epo (by decide)))

theorem probStart_held (s : State) : (∀ f, f.placed → eqxField f → s.probStart.rd epoPage f = s.rd epoPage f) ∧ SameEpochs s s.probStart := by
  unfold State.probStart
  dsimp only
  split
  · exact ⟨fun _ _ _ => rfl, .of_epo rfl⟩
  · refine ⟨fun f hf he => ?_, ⟨rfl, rfl, rfl⟩⟩
    refine (rd_wrs_apart hf ?_ : _)
    simp only [allApart, List.forall_mem_cons, Fld.placed]
    unfold eqxField at he
    simp [Reg.EPO_PROB_STAT_ACTIVE, Reg.EPO_PROB_STAT_PASSED, Reg.EPO_PROB_STAT_FAILED, Reg.EPO_PROB_STAT_FAIL_CRIT]
    omega

theorem probStart_idle (h : s.on epoPage Reg.EPO_PROB_CFG_EN = false) : s.probStart = s := by
  refine if_pos ?_
  rw [h]
  rfl

/-- What the equinox does after the epochs have changed places: the numbers, SWITCHING and the epochs stay, and PENDING where no probation runs or
starts. -/
structure Turned (s u : State) : Prop where
  held : ∀ f, f.placed → eqxField f → u.rd epoPage f = s.rd epoPage f
  epochs : SameEpochs s u
  quiet : s.on epoPage Reg.EPO_PROB_STAT_ACTIVE = false → s.on epoPage Reg.EPO_PROB_CFG_EN = false →
    u.rd epoPage Reg.EPO_EQX_STAT_PENDING = s.rd epoPage Reg.EPO_EQX_STAT_PENDING

/-- The registers of an equinox that has come. -/
def State.eqxCome (s : State) : State :=
  s.wrs epoPage [(Reg.EPO_LAST_EQX_TICK, s.rd epoPage Reg.EPO_EQX_TICK_TICK), (Reg.EPO_EQX_STAT_PENDING, 0), (Reg.EPO_EQX_STAT_SWITCHING, 1)]

theorem equinox_turns {t : Nat} {alt : List (Fin 64 × BitVec 8)} (hdue : (s.advance t).eqxDue = true) :
    ∃ u, exec (.equinox t alt) s = .next u ∧ Turned (s.advance t).rotate.eqxCome u := by
  show ∃ u, execEquinox t alt s = .next u ∧ _
  unfold execEquinox
  extract_lets v p late s₁ s₂ s₃ s₄ s₅ _ s₆ s₇ s₈
  rw [if_neg (show ¬(!v.eqxDue) = true by rw [show v.eqxDue = true from hdue]; exact Bool.false_ne_true)]
  refine ⟨_, rfl, ?_⟩
  have hcome : (s.advance t).rotate.eqxCome = s₂ := rfl
  rw [hcome]
  have h₃ : Calm s₂ s₃ := .each _ (.refl _) fun _ _ h => h.wr (by decide) (.inl (epo_ne_pg (by decide) (by decide) _))
  have e₃ : Does [.rf, .rel] s₂ s₃ := .each _ (.refl _ _) fun _ _ h => (does_wr ..).next h rfl
  have h₅ : Calm s₂ s₅ := (calm_inputsTurn s₄).next ((does_rerouted s₃).calm h₃ rfl)
  have e₅ : SameEpochs s₂ s₅ := (sameEpochs_inputsTurn s₄).next (.of_epo (((does_rerouted s₃).next e₃ rfl : Does [.rf, .rel] s₂ s₄).only .epo
      (by decide)))
  have hrf₆ : s₆.rf = s₅.rf := by simp only [s₆]
  have h₆ : Calm s₂ s₆ := h₅.keep hrf₆
  have e₆ : SameEpochs s₂ s₆ := .next (t := s₅) ⟨rfl, rfl, rfl⟩ e₅
  have h₈ : Calm s₇ (s₈.eventIf late .epo 0 6) := (calm_eventIf ..).next ((calm_eventIf ..).next (calm_event ..))
  have e₈ : SameEpochs s₇ (s₈.eventIf late .epo 0 6) :=
    .of_epo (((does_eventIf ..).next ((does_eventIf ..).next (does_event s₇ .epo 0 2) rfl) rfl : Does evented s₇ _).only .epo (by decide))
  have h₇ : (∀ f, f.placed → eqxField f → s₇.rd epoPage f = s₆.rd epoPage f) ∧ SameEpochs s₆ s₇ := by
    unfold s₇
    split
    · exact ⟨fun _ _ _ => rfl, .of_epo rfl⟩
    · exact probStart_held s₆
  refine ⟨fun f hf he => (h₈.held f hf he).trans ((h₇.1 f hf he).trans (h₆.held f hf he)), e₈.next (h₇.2.next e₆), fun hact hen => ?_⟩
  have hcalm := h₆.quiet hact
  have hen₆ : s₆.on epoPage Reg.EPO_PROB_CFG_EN = false := by rw [on_of_rd (hcalm _ (by decide) (by decide) (by decide)), hen]
  have hact₆ : s₆.on epoPage Reg.EPO_PROB_STAT_ACTIVE = false := by rw [on_of_rd (hcalm _ (by decide) (by decide) (by decide)), hact]
  have hsame : s₇ = s₆ := by
    unfold s₇
    rw [probStart_idle hen₆]
    exact ite_self s₆
  rw [hsame] at h₈
  exact (h₈.quiet hact₆ _ (by decide) (by decide) (by decide)).trans (hcalm _ (by decide) (by decide) (by decide))

theorem eqxCome_reads (s : State) : s.eqxCome.epo = s.epo ∧ s.eqxCome.rd epoPage Reg.EPO_EQX_STAT_SWITCHING = 1 ∧
    s.eqxCome.rd epoPage Reg.EPO_EQX_STAT_PENDING = 0 ∧
    s.eqxCome.rd epoPage Reg.EPO_LAST_EQX_TICK = Reg.EPO_LAST_EQX_TICK.cut (s.rd epoPage Reg.EPO_EQX_TICK_TICK) :=
  ⟨(does_wrs ..).only .epo (by decide), rd_wrs_eq s rfl (by decide) rfl, rd_wrs_eq s rfl (by decide) rfl, rd_wrs_eq s rfl (by decide) rfl⟩

variable {t : Nat} {alt : List (Fin 64 × BitVec 8)}

theorem equinox_forward (hdue : (s.advance t).eqxDue = true) (hres : s.epo.resume = none) (hrev : s.on epoPage Reg.EPO_EQX_STAT_REVERT = false) :
    Gives (.equinox t alt) s fun u => u.epo.live = s.epo.staged ∧ u.epo.prior = s.epo.live ∧ u.epo.staged = none ∧
      u.rd epoPage Reg.EPO_EPO_LIVE_NUMBER = Reg.EPO_EPO_LIVE_NUMBER.cut (s.rd epoPage Reg.EPO_EPO_STAGED_NUMBER) ∧
      u.rd epoPage Reg.EPO_EPO_PRIOR_NUMBER = Reg.EPO_EPO_PRIOR_NUMBER.cut (s.rd epoPage Reg.EPO_EPO_LIVE_NUMBER) ∧
      u.rd epoPage Reg.EPO_EQX_STAT_SWITCHING = 1 ∧
      u.rd epoPage Reg.EPO_LAST_EQX_TICK = Reg.EPO_LAST_EQX_TICK.cut (s.rd epoPage Reg.EPO_EQX_TICK_TICK) ∧
      (s.on epoPage Reg.EPO_PROB_STAT_ACTIVE = false → s.on epoPage Reg.EPO_PROB_CFG_EN = false → u.rd epoPage Reg.EPO_EQX_STAT_PENDING = 0) := by
  obtain ⟨u, hu, hturn⟩ := equinox_turns (alt := alt) hdue
  have hepo : (s.advance t).epo = s.epo := State.advance_epo s t
  obtain ⟨hlive, hprior, hstaged, hln, hpn, hrest⟩ := rotate_forward (s := s.advance t) (by rw [hepo]; exact hres) (by rw [on_advance]; exact hrev)
  obtain ⟨hce, hsw, hpend, htick⟩ := eqxCome_reads (s.advance t).rotate
  have hlow : (s.advance t).rotate.eqxCome.rd epoPage Reg.EPO_EPO_LIVE_NUMBER = (s.advance t).rotate.rd epoPage Reg.EPO_EPO_LIVE_NUMBER ∧
      (s.advance t).rotate.eqxCome.rd epoPage Reg.EPO_EPO_PRIOR_NUMBER = (s.advance t).rotate.rd epoPage Reg.EPO_EPO_PRIOR_NUMBER :=
    ⟨rd_wrs_ne _ rfl (by decide) rfl, rd_wrs_ne _ rfl (by decide) rfl⟩
  have hprob (f : Fld) (hf : f.placed) (ho : f.off = 0x140 ∨ f.off = 0x148) : (s.advance t).rotate.eqxCome.rd epoPage f = s.rd epoPage f := by
    refine (rd_wrs_apart hf ?_).trans ((hrest f hf (by omega) (by omega)).trans (advance_rd ..))
    simp only [allApart, List.forall_mem_cons, Fld.placed]
    simp [Reg.EPO_LAST_EQX_TICK, Reg.EPO_EQX_STAT_PENDING, Reg.EPO_EQX_STAT_SWITCHING]
    omega
  rw [advance_rd] at hln hpn
  have hpt := hrest Reg.EPO_EQX_TICK_TICK (by decide) (by decide) (by decide)
  rw [advance_rd] at hpt
  refine .of_next hu ⟨?_, ?_, ?_, ?_, ?_, ?_, ?_, fun hact hen => ?_⟩
  · rw [hturn.epochs.live, hce, hlive, hepo]
  · rw [hturn.epochs.prior, hce, hprior, hepo]
  · rw [hturn.epochs.staged, hce, hstaged]
  · exact (hturn.held _ (by decide) (.inl rfl)).trans (hlow.1.trans hln)
  · exact (hturn.held _ (by decide) (.inr (.inl rfl))).trans (hlow.2.trans hpn)
  · exact (hturn.held _ (by decide) (.inr (.inr (.inr ⟨rfl, rfl⟩)))).trans hsw
  · rw [hturn.held _ (by decide) (.inr (.inr (.inl rfl))), htick, hpt]
  · refine (hturn.quiet ?_ ?_).trans hpend
    · rw [on_of_rd (hprob _ (by decide) (.inr rfl)), hact]
    · rw [on_of_rd (hprob _ (by decide) (.inl rfl)), hen]

theorem equinox_back (hdue : (s.advance t).eqxDue = true) (hres : s.epo.resume = none) (hrev : s.on epoPage Reg.EPO_EQX_STAT_REVERT = true) :
    Gives (.equinox t alt) s fun u => u.epo.live = s.epo.prior ∧ u.epo.prior = s.epo.live ∧ u.epo.staged = s.epo.staged ∧
      u.rd epoPage Reg.EPO_EPO_LIVE_NUMBER = Reg.EPO_EPO_LIVE_NUMBER.cut (s.rd epoPage Reg.EPO_EPO_PRIOR_NUMBER) ∧
      u.rd epoPage Reg.EPO_EQX_STAT_SWITCHING = 1 := by
  obtain ⟨u, hu, hturn⟩ := equinox_turns (alt := alt) hdue
  have hepo : (s.advance t).epo = s.epo := State.advance_epo s t
  obtain ⟨hlive, hprior, hstaged, hln⟩ := rotate_back (s := s.advance t) (by rw [hepo]; exact hres) (by rw [on_advance]; exact hrev)
  obtain ⟨hce, hsw, -, -⟩ := eqxCome_reads (s.advance t).rotate
  rw [advance_rd] at hln
  refine .of_next hu ⟨?_, ?_, ?_, ?_, ?_⟩
  · rw [hturn.epochs.live, hce, hlive, hepo]
  · rw [hturn.epochs.prior, hce, hprior, hepo]
  · rw [hturn.epochs.staged, hce, hstaged, hepo]
  · exact (hturn.held _ (by decide) (.inl rfl)).trans ((rd_wrs_ne _ rfl (by decide) rfl).trans hln)
  · exact (hturn.held _ (by decide) (.inr (.inr (.inr ⟨rfl, rfl⟩)))).trans hsw

end

end Sys2Proof.Machine
end

section
/-!
PROOF. The equinox: a context that ends its grid at its switch point, and the end of the equinox (R216, R487, R488).
-/
namespace Sys2Proof.Machine

section
variable {s : State} {t : Nat} {c : Nat}

/-! What decides a context's switch does not change with time. -/

theorem actx_advance (s : State) (t c : Nat) : (s.advance t).actx c = s.actx c := by
  unfold State.actx
  rw [State.advance_acq]

theorem xfc_advance (s : State) (t c : Nat) : (s.advance t).xfc c = s.xfc c := by
  unfold State.xfc
  rw [State.advance_xf]

theorem view_advance (s : State) (t c : Nat) : (s.advance t).view c = s.view c := by
  unfold State.view
  rw [State.advance_ing]

theorem liveImg_advance (s : State) (t : Nat) : (s.advance t).liveImg = s.liveImg := congrArg EpoSt.live (State.advance_epo s t)

theorem eqxTick_advance (s : State) (t : Nat) : (s.advance t).eqxTick = s.eqxTick := advance_rd ..

theorem sourceGone_advance (s : State) (t c : Nat) : (s.advance t).sourceGone c = s.sourceGone c := by
  unfold State.advance
  split <;> rfl

theorem sourceReady_advance (s : State) (t c : Nat) : (s.advance t).sourceReady c = s.sourceReady c := by
  unfold State.advance
  split <;> rfl

theorem xfRuns_advance (s : State) (t c : Nat) (new : Bool) : (s.advance t).xfRuns c new = s.xfRuns c new := by
  unfold State.advance
  split <;> rfl

theorem restartOpen_advance (s : State) (t c : Nat) : (s.advance t).restartOpen c = s.restartOpen c := by
  unfold State.advance
  split <;> rfl

/-- A context's switch point has come where the equinox's tick has passed with the clocks running. -/
theorem exec_contextSwitch {c : Fin 1024} (hrun : (s.actx c).running = true) (htodo : pg .ctx c ∈ s.epo.todo) (hgated : s.gated = false)
    (htick : s.eqxTick ≤ (s.advance t).tick) :
    exec (.contextSwitch t c) s = .next ((s.advance t).ctxTurn c (s.advance t).tick 0) := by
  refine congrArg Host.Outcome.next (if_neg ?_)
  rw [actx_advance, State.advance_epo, gated_advance, eqxTick_advance, hrun, hgated, List.contains_iff_mem.2 htodo, decide_eq_false
      (Nat.not_lt.2 htick)]
  decide

theorem prevEnd_none (h : (s.xfc c).prev = none) : s.prevEnd c = s := by
  unfold State.prevEnd
  rw [h]

/-! A context that ends its grid. -/

theorem xfc_setXfc (s : State) (c : Nat) (x : XfCtx) : (s.setXfc c x).xfc c = x := smGet_set_self _ _ _ _
theorem view_setView (s : State) (c : Nat) (v : ViewSt) : (s.setView c v).view c = v := smGet_set_self _ _ _ _

/-- The old grid takes samples without its context's state changing otherwise. -/
theorem prevTakes_kept (s : State) (c : Nat) (l : List ViewSample) : ((s.each l fun s y => s.prevTake c y).xfc c).ending = (s.xfc c).ending ∧
    ((s.each l fun s y => s.prevTake c y).xfc c).cur = (s.xfc c).cur := by
  refine List.foldlRecOn l _ (motive := fun u : State => (u.xfc c).ending = (s.xfc c).ending ∧ (u.xfc c).cur =
      (s.xfc c).cur) ⟨rfl, rfl⟩ fun u hu y _ => ?_
  rw [show (u.prevTake c y).xfc c = _ from xfc_setXfc ..]
  exact hu

theorem ctxEnding_ends (s : State) (c : Nat) : ((s.ctxEnding c).xfc c).ending = true ∧ ((s.ctxEnding c).xfc c).cur = none ∧
    ((s.ctxEnding c).view c).held = [] ∧ (s.ctxEnding c).acq = s.acq ∧ (s.ctxEnding c).epo = s.epo := by
  unfold State.ctxEnding
  extract_lets v x prev s₁ s₂
  have htake : Does [.xf] s₂ (s₂.each v.held fun s y => s.prevTake c y) := .each _ (.refl _ _) fun _ _ h => (does_prevTake ..).next h rfl
  have hxf : s₂.xfc c = { x with ending := true, cur := none, prev := prev } := (xfc_setXfc s c _ : s₁.xfc c = _)
  obtain ⟨he, hc⟩ := prevTakes_kept s₂ c v.held
  refine ⟨?_, ?_, ?_, ?_, ?_⟩
  · rw [he, hxf]
  · rw [hc, hxf]
  · have hing : (s₂.each v.held fun s y => s.prevTake c y).ing = s₂.ing := htake.only .ing (by decide)
    unfold State.view
    rw [hing]
    exact congrArg ViewSt.held (view_setView s₁ c _)
  · exact htake.only .acq (by decide)
  · exact htake.only .epo (by decide)

theorem contextSwitch_ends {c : Fin 1024} (hc : (s.actx c).running = true ∧ pg .ctx c ∈ s.epo.todo) (hgated : s.gated = false)
    (htick : s.eqxTick ≤ (s.advance t).tick) (hprev : (s.xfc c).prev = none) (hstop : imgRuns s.liveImg c = false)
    (hgrid : (s.view c).held ≠ [] ∧ (s.xfc c).ending = false ∧ s.xfRuns c false = true)
    (hsrc : (s.actx c).begun = true ∧ s.restartOpen c = false ∧ s.sourceGone c = false) :
    Gives (.contextSwitch t c) s fun u => (u.xfc c).ending = true ∧ (u.xfc c).cur = none ∧ (u.view c).held = [] ∧ (u.actx c).running = true ∧
      pg .ctx c ∈ u.epo.todo := by
  obtain ⟨hrun, htodo⟩ := hc
  obtain ⟨hheld, hend, hxf⟩ := hgrid
  obtain ⟨hbegun, hopen, hgone⟩ := hsrc
  have hxfc := xfc_advance s t c
  have hready : (s.advance t).ctxReady c = false := by
    unfold State.ctxReady
    simp only [actx_advance, hxfc, sourceGone_advance, restartOpen_advance, liveImg_advance, xfRuns_advance, hrun, hbegun, hopen, hgone, hstop, hend,
      hxf]
    simp
  have hturn : (s.advance t).ctxTurn c (s.advance t).tick 0 = (s.advance t).ctxEnding c := by
    unfold State.ctxTurn
    rw [prevEnd_none (by rw [hxfc]; exact hprev)]
    dsimp only
    rw [if_neg (by rw [hready]; exact Bool.false_ne_true), if_pos]
    rw [liveImg_advance, view_advance, hxfc, hstop, hend]
    simpa using hheld
  obtain ⟨h₁, h₂, h₃, hacq, hepo⟩ := ctxEnding_ends (s.advance t) c
  refine .of_next ((exec_contextSwitch hrun htodo hgated htick).trans (congrArg Host.Outcome.next hturn)) ⟨h₁, h₂, h₃, ?_, ?_⟩
  · unfold State.actx
    rw [hacq, State.advance_acq]
    exact hrun
  · rw [hepo, State.advance_epo]
    exact htodo

/-! The end of the equinox. -/

theorem does_settle (s : State) (c t : Nat) : Does (eventedAnd [.acq, .bank, .mem, .epo, .xf, .den, .tmp]) s ((s.prevEnd c).xfSettle c t) :=
  (does_xfSettle ..).next ((does_prevEnd ..).next (.refl _ _) rfl) rfl

theorem tick_settle (s : State) (c t : Nat) : ((s.prevEnd c).xfSettle c t).tick = s.tick := (does_settle s c t).only .tick (by decide)

/-- The tick stands while the contexts settle. -/
theorem settle_tick {t : Nat} (l : List Nat) {s : State} (h : s.tick = t) :
    s.each l (fun r c => (r.prevEnd c).xfSettle c r.tick) = s.each l (fun r c => (r.prevEnd c).xfSettle c t) ∧
      (s.each l (fun r c => (r.prevEnd c).xfSettle c t)).tick = t := by
  induction l generalizing s with
  | nil =>
    rw [each_nil, each_nil]
    exact ⟨rfl, h⟩
  | cons c l ih =>
    rw [each_cons, each_cons, h]
    exact ih ((tick_settle s c t).trans h)

theorem rd_setEpoBoot (s : State) (e : EpoSt) (b : BootSt) (p : Nat) (f : Fld) : ({ s with epo := e, boot := b }).rd p f = s.rd p f := rfl

theorem equinox_completes {s1 : State} (hsw : s.on epoPage Reg.EPO_EQX_STAT_SWITCHING = true) (hgated : s.gated = false)
    (hs1 : s1 = (s.advance t).each (s.xf.ctx.map Prod.fst) (fun r c => (r.prevEnd c).xfSettle c (s.advance t).tick)) (htodo : s1.epo.todo = [])
    (himage : ∀ h : Fin 2, (s1.dspHead h).image = false) (hnext : ∀ x ∈ s1.xf.ctx, x.2.next = []) :
    Gives (.equinoxComplete t) s fun u => u.rd epoPage Reg.EPO_EQX_STAT_SWITCHING = 0 ∧
      u.rd epoPage Reg.EPO_LAST_DONE_TICK = Reg.EPO_LAST_DONE_TICK.cut (s.advance t).tick ∧ u.epo.resume = none ∧ u.boot.warmAt = none := by
  obtain ⟨hsame, htick⟩ := settle_tick (s.xf.ctx.map Prod.fst) (s := s.advance t) rfl
  rw [← hs1] at hsame htick
  show ∃ u, execEquinoxComplete t s = .next u ∧ _
  unfold execEquinoxComplete
  extract_lets v w idle w₂
  have hw : w = s1 := by
    unfold w
    rw [show v.xf = s.xf from State.advance_xf s t]
    exact hsame
  have hrun : ¬(!v.on epoPage Reg.EPO_EQX_STAT_SWITCHING || v.gated) = true := by
    rw [show v.on epoPage Reg.EPO_EQX_STAT_SWITCHING = true from (on_advance ..).trans hsw, show v.gated = false from (gated_advance t).trans hgated]
    decide
  have hidle : idle = true := by
    unfold idle
    rw [hw, htodo]
    simp only [List.isEmpty_nil, Bool.true_and, Bool.and_eq_true, List.all_eq_true]
    refine ⟨fun h hh => ?_, fun x hx => by rw [hnext x hx]; rfl⟩
    have hh' : h = 0 ∨ h = 1 := by simpa using hh
    rcases hh' with rfl | rfl
    · rw [show (s1.dspHead 0).image = false from himage 0]
      rfl
    · rw [show (s1.dspHead 1).image = false from himage 1]
      rfl
  rw [if_neg hrun, if_neg (by rw [hidle]; decide)]
  have hswitch : w₂.rd epoPage Reg.EPO_EQX_STAT_SWITCHING = 0 := rd_wrs_eq w rfl (by decide) rfl
  have hdone : w₂.rd epoPage Reg.EPO_LAST_DONE_TICK = Reg.EPO_LAST_DONE_TICK.cut (s.advance t).tick := by
    rw [← htick, ← hw]
    exact rd_wrs_eq w rfl (by decide) rfl
  exact ⟨_, rfl, (rd_setEpoBoot ..).trans hswitch, (rd_setEpoBoot ..).trans hdone, rfl, rfl⟩

end

end Sys2Proof.Machine
end

section
/-!
PROOF. What a page's switch to a new epoch leaves of the pages' status: one lemma an operation, statKept_<operation> (R43, R171, R487).
-/
namespace Sys2Proof.Machine

/-- From `s` to `u` no field of any page's PG_STAT has changed. -/
structure StatKept (s u : State) : Prop where
  reads : ∀ q f, f.placed → f.off = 0x18 → u.rd q f = s.rd q f

section
variable {s t u : State}

theorem StatKept.refl (s : State) : StatKept s s := ⟨fun _ _ _ _ => rfl⟩

theorem StatKept.next (k : StatKept t u) (h : StatKept s t) : StatKept s u := ⟨fun q f hf ho => (k.reads q f hf ho).trans (h.reads q f hf ho)⟩

theorem StatKept.via (x : State) (hx : StatKept s x) (h : StatKept s x → StatKept s u) : StatKept s u := h hx

theorem StatKept.keep (h : StatKept s t) (e : u.rf = t.rf) : StatKept s u := ⟨fun q f hf ho => (rd_of_rf e q f).trans (h.reads q f hf ho)⟩

/-- An operation that leaves the register file. -/
theorem Does.statKept {a : List Part} (k : Does a t u) (h : StatKept s t) (w : a.contains .rf = false) : StatKept s u :=
  h.keep (k.only .rf (by simpa using w))

/-- A write of any field outside PG_STAT. -/
theorem StatKept.wr {p v : Nat} {f : Fld} (h : StatKept s t) (hf : f.placed ∧ f.off ≠ 0x18) : StatKept s (t.wr p f v) :=
  ⟨fun q g hg ho => (rd_wr_other t v hf.1 hg fun e => hf.2 (e.2.1.symm.trans ho)).trans (h.reads q g hg ho)⟩

theorem StatKept.wrA {p v : Nat} {f : Fld} (h : StatKept s t) (hf : f.placed ∧ f.off ≠ 0x18) : StatKept s (t.wrA p f v) := by
  rw [wrA_eq_wr]
  exact h.wr hf

/-- The fields that a list of writes names stand within their page, outside PG_STAT. -/
def noStat (l : List (Fld × Nat)) : Bool := l.all fun x => decide (x.1.placed ∧ x.1.off ≠ 0x18)

theorem StatKept.wrs {p : Nat} {l : List (Fld × Nat)} (h : StatKept s t) (hl : noStat l = true) : StatKept s (t.wrs p l) := by
  induction l generalizing t with
  | nil => exact h
  | cons x l ih =>
    simp only [noStat, List.all_cons, Bool.and_eq_true, decide_eq_true_eq] at hl
    exact ih (h.wr hl.1) hl.2

theorem StatKept.ite {c : Prop} [Decidable c] {a b : State} (ha : StatKept s a) (hb : StatKept s b) : StatKept s (if c then a else b) := by
  split
  · exact ha
  · exact hb

theorem StatKept.each {α : Type} {f : State → α → State} (l : List α) (h : StatKept s t) (hf : ∀ t a, StatKept s t → StatKept s (f t a)) :
    StatKept s (t.each l f) := List.foldlRecOn l f h fun t ht a _ => hf t a ht

/-- A step of an event's raising. -/
theorem EvStep.statKept (h : EvStep s u) : StatKept s u := ⟨fun q f hf ho => (h.reads q f hf (by rw [ho]; exact evReg_018 q)).1⟩

end

theorem statKept_event (s : State) (b : Blk) (i k : Nat) : StatKept s (s.event b i k) := (evStep_event ..).statKept
theorem statKept_eventIf (s : State) (c : Bool) (b : Blk) (i k : Nat) : StatKept s (s.eventIf c b i k) := (evStep_eventIf ..).statKept
theorem statKept_setRaw (s : State) (k : Nat) (v : Bool) : StatKept s (s.setRaw k v) := (evStep_setRaw ..).statKept
theorem statKept_laneEvent (s : State) (x : Nat) : StatKept s (s.laneEvent x) := (statKept_setRaw ..).next (.refl _)

theorem statKept_bump (s : State) (p : Nat) (f : Fld) (n : Nat) (hf : f.placed ∧ f.off ≠ 0x18) : StatKept s (s.bump p f n) := .wr (.refl _) hf

theorem statKept_bumpSat (s : State) (p : Nat) (f : Fld) (n : Nat) (hf : f.placed ∧ f.off ≠ 0x18) : StatKept s (s.bumpSat p f n) := .wr (.refl _) hf

theorem statKept_setLinkState (s : State) (l v : Nat) : StatKept s (s.setLinkState l v) := .wr (.refl _) (by decide)

/-- An image holds no field below 0x100. -/
theorem imgFields_high {p : Nat} {f : Fld} (hf : f ∈ imgFields p) : f.placed ∧ f.off ≠ 0x18 := by
  refine ⟨placed_imgFields p f hf, ?_⟩
  unfold imgFields at hf
  split at hf
  · split at hf
    · have h := (List.mem_filter.1 hf).2
      simp only [Bool.and_eq_true, decide_eq_true_eq] at h
      omega
    · cases hf
  · cases hf

theorem statKept_loadPage (s : State) (img : Option EpochImage) (p : Nat) : StatKept s (s.loadPage img p) :=
  List.foldlRecOn _ _ (motive := StatKept s) (.refl _) fun _ h _ hf => h.wr (imgFields_high hf)

theorem statKept_polSync (s : State) (q : Nat) : StatKept s (s.polSync q) :=
  List.foldlRecOn _ _ (motive := StatKept s) (.refl _) fun _ h i hi => .wr h (by
    have hlt : i < 8 := List.mem_range.1 (List.mem_of_mem_filter hi)
    simp only [Fld.placed, Reg.LQD_LANE_STAT_POL_INV_ACT]
    omega)

theorem statKept_downEvent (s : State) (l : Nat) : StatKept s (s.downEvent l) :=
  (statKept_setRaw ..).next (.refl _)

theorem statKept_setShort (s : State) (j kind : Nat) (high : Bool) (after : Nat) : StatKept s (s.setShort j kind high after) :=
  (statKept_setRaw ..).next (.wrs (.keep (.refl _) rfl) (by rfl))

theorem statKept_detEnWrite (s : State) (en : Nat) : StatKept s (s.detEnWrite en) :=
  .each _ (.wr (.refl _) (by decide)) fun _ _ h => (statKept_setShort ..).next h

theorem statKept_truResetState (s : State) (u : Nat) : StatKept s (s.truResetState u) :=
  .wrs ((does_setTru ..).statKept (.refl _) rfl) (by rfl)

theorem statKept_bankRefuse (s : State) (b k word : Nat) (write : Bool) : StatKept s (s.bankRefuse b k word write) :=
  (statKept_event ..).next ((statKept_bumpSat _ _ _ _ (by decide)).next (.ite (.refl _) (.wrs (.refl _) (by rfl))))

theorem statKept_stagedRefused (s : State) (b : Nat) : StatKept s (s.stagedRefused b) := by
  unfold State.stagedRefused
  split
  · exact .refl _
  · extract_lets p s₁ s₂ _ s₃
    refine .via s₁ ((statKept_bankRefuse ..).next (.refl _)) fun h₁ => ?_
    refine .via s₂ ((statKept_bumpSat _ _ _ _ (by decide)).next h₁) fun h₂ => ?_
    refine .via s₃ (.ite (.wr (.keep h₂ rfl) (by decide)) h₂) fun h₃ => ?_
    exact (does_setStaged ..).statKept h₃ rfl

theorem statKept_bankSync (s : State) (b t : Nat) : StatKept s (s.bankSync b t) := by
  unfold State.bankSync
  extract_lets s₁ n
  refine .via s₁ ((does_spillPush ..).statKept (.refl _) rfl) fun h₁ => ?_
  split
  · exact (does_portFrom ..).statKept h₁ rfl
  · exact .ite ((does_portFrom ..).statKept ((does_setStaged ..).statKept (.each _ h₁ fun _ _ h => (does_setBankWord ..).statKept h rfl) rfl) rfl) (.ite
      ((does_portFrom ..).statKept h₁ rfl) ((statKept_stagedRefused ..).next h₁))

theorem statKept_dmaEnd (s : State) (d st : Nat) : StatKept s (s.dmaEnd d st) :=
  (statKept_eventIf ..).next ((statKept_eventIf ..).next ((statKept_event ..).next ((statKept_bump _ _ _ _ (by decide)).next (.keep (.wrs
      (.refl _) (by rfl)) rfl))))

theorem statKept_bankTurn (s : State) (b : Nat) : StatKept s (s.bankTurn b) := by
  unfold State.bankTurn
  extract_lets s₁
  refine .via s₁ ?_ fun h₁ => ?_
  · unfold s₁
    split
    · exact .refl _
    · exact .ite (.refl _) ((statKept_stagedRefused ..).next (.refl _))
  exact .each _ h₁ fun _ _ h => (statKept_dmaEnd ..).next ((statKept_bankRefuse ..).next h)

theorem statKept_bnkOwn (s : State) (b owner agent : Nat) : StatKept s (s.bnkOwn b owner agent) :=
  .ite (.wr (.refl _) (by decide)) ((statKept_bankTurn ..).next (.wrs
      ((statKept_bankSync ..).next (.refl _)) (by rfl)))

theorem statKept_coreState (s : State) (n v : Nat) : StatKept s (s.coreState n v) :=
  (statKept_setRaw ..).next ((does_setCore ..).statKept (.refl _) rfl)

theorem statKept_reload (s : State) (re : Bool) (p : Nat) : StatKept s (s.reload re p) :=
  .ite ((statKept_loadPage ..).next (.refl _)) (.refl _)

theorem statKept_switchSlt (s : State) (re was : Bool) (n : Nat) : StatKept s (s.switchSlt re was n) := by
  unfold State.switchSlt
  extract_lets p bond src s₁ s₂ _ s₃ s₄
  refine .via s₁ ((statKept_reload ..).next (.refl _)) fun h₁ => ?_
  refine .via s₂ (.each _ h₁ fun _ _ h => .wr h (by decide)) fun h₂ => ?_
  refine .via s₃ (.keep h₂ rfl) fun h₃ => ?_
  refine .via s₄ ((statKept_setRaw ..).next ((does_setSlt ..).statKept h₃ rfl)) fun h₄ => ?_
  exact .ite h₁ (.ite h₄ (.wr h₄ (by decide)))

theorem statKept_switchXfp (s : State) (re : Bool) (q : Nat) : StatKept s (s.switchXfp re q) :=
  .keep ((statKept_reload ..).next (.refl _)) rfl

theorem statKept_switchDen (s : State) (re : Bool) (u : Nat) : StatKept s (s.switchDen re u) :=
  .wr ((statKept_reload ..).next (.refl _)) (by decide)

theorem statKept_switchTru (s : State) (re : Bool) (u t : Nat) : StatKept s (s.switchTru re u t) :=
  .ite (.refl _) (.wrs ((does_setTru ..).statKept ((statKept_truResetState ..).next ((statKept_reload ..).next (.refl _)))
      rfl) (by rfl))

theorem statKept_switchTrn (s : State) (re : Bool) (t : Nat) : StatKept s (s.switchTrn re t) := by
  unfold State.switchTrn
  extract_lets p s₁ s₂
  refine .via s₁ ((statKept_reload ..).next ((does_routerTo ..).statKept (.refl _) rfl)) fun h₁ => ?_
  refine .via s₂ (.ite ((does_schedSet ..).statKept h₁ rfl) h₁) fun h₂ => ?_
  exact (does_outputsFollow ..).statKept (.each _ h₂ fun _ _ h => (does_sourceLevel ..).statKept h rfl) rfl

theorem statKept_coreStart (s : State) (n : Nat) : StatKept s (s.coreStart n) :=
  (statKept_coreState ..).next (.wrs ((does_setCore ..).statKept (.refl _) rfl) (by rfl))

theorem statKept_switchScr (s : State) (re was : Bool) (n : Nat) : StatKept s (s.switchScr re was n) := by
  unfold State.switchScr
  extract_lets p ran s₁ c
  refine .via s₁ ((statKept_reload ..).next (.refl _)) fun h₁ => ?_
  exact .ite (.ite h₁ ((statKept_coreStart ..).next h₁)) (.ite ((statKept_coreState ..).next ((does_setCore ..).statKept h₁ rfl)) h₁)

theorem statKept_switchDlb (s : State) (re : Bool) : StatKept s (s.switchDlb re) := by
  unfold State.switchDlb
  extract_lets p key was s₁
  refine .via s₁ ((statKept_reload ..).next (.refl _)) fun h₁ => ?_
  exact .ite h₁ (.wr (.keep h₁ rfl) (by decide))

theorem statKept_switchTio (s : State) (re : Bool) : StatKept s (s.switchTio re) := by
  unfold State.switchTio
  extract_lets s₁
  refine .via s₁ ((statKept_reload ..).next (.refl _)) fun h₁ => ?_
  exact .ite ((statKept_detEnWrite ..).next h₁) h₁

end Sys2Proof.Machine
end

section
/-!
PROOF. What a page's switch to a new epoch leaves of the pages' status: the links, the tone mapper, the banks, the heads and the comparators.
-/
namespace Sys2Proof.Machine

section
variable {s t u : State}

theorem lane_field (x : Nat) : (Reg.LQD_LANE_STAT_UP (x % 8)).placed ∧ (Reg.LQD_LANE_STAT_UP (x % 8)).off ≠ 0x18 := by
  simp only [Fld.placed, Reg.LQD_LANE_STAT_UP]
  omega

theorem statKept_switchLqd (s : State) (re : Bool) (q : Nat) : StatKept s (s.switchLqd re q) :=
  .each _ (.each _ ((statKept_polSync ..).next ((statKept_reload ..).next (.refl _))) fun _ x h => .wrs (.keep h rfl) (by
    simp [noStat, Reg.LQD_LANE_STAT_BLOCK_LOCK, Reg.LQD_LANE_STAT_EMB_LOCK, Reg.LQD_LANE_STAT_UP, Fld.placed]
    omega)) fun _ _ h => (statKept_laneEvent ..).next h

theorem statKept_switchLnk (s : State) (re was : Bool) (l : Nat) : StatKept s (s.switchLnk re was l) := by
  unfold State.switchLnk
  extract_lets parked lanes s₁ s₂ s₃ _ s₄
  refine .via s₁ ((statKept_reload ..).next (.refl _)) fun h₁ => ?_
  refine .via s₂ ((statKept_setRaw ..).next ((statKept_setLinkState ..).next ((does_setLnk ..).statKept h₁ rfl))) fun h₂ => ?_
  refine .via s₃ (.wrs h₁ (by rfl)) fun h₃ => ?_
  refine .via s₄ (.ite (.each _ h₂ fun _ x h => (statKept_laneEvent ..).next (.wr h (lane_field x))) (.ite h₃ (.ite
    ((does_setLnk ..).statKept h₃ rfl) ((statKept_setLinkState ..).next ((does_setLnk ..).statKept h₃ rfl))))) fun h₄ => ?_
  exact (statKept_downEvent ..).next h₄

theorem statKept_switchTmp (s : State) (re : Bool) : StatKept s (s.switchTmp re) := by
  unfold State.switchTmp
  extract_lets was before s₁ pals pal _ s₂ after s₃
  have h₁ : StatKept s s₁ := statKept_reload ..
  have h₂ : StatKept s s₂ := .keep h₁ rfl
  have h₃ : StatKept s s₃ := List.foldlRecOn _ _ (motive := StatKept s) h₂ fun _ h j hj =>
    .wr ((does_setTjob ..).statKept h rfl) (by
      have hlt : j < 32 := List.mem_range.1 (List.mem_of_mem_filter (List.mem_of_mem_filter hj))
      simp only [Fld.placed, Reg.TMP_JOB_STAT_VALID]
      omega)
  exact List.foldlRecOn _ _ (motive := StatKept s) h₃ fun _ h j hj => .wr (.keep h rfl) (by
    have hlt : j < 32 := List.mem_range.1 (List.mem_of_mem_filter (List.mem_of_mem_filter hj))
    simp only [Fld.placed, Reg.TMP_JOB_STAT_BUSY]
    omega)

theorem statKept_switchVgl (s : State) (re : Bool) : StatKept s (s.switchVgl re) :=
  List.foldlRecOn _ _ (motive := StatKept s) (statKept_reload ..) fun _ h n hn => .wr h (by
    have hlt : n < 16 := List.mem_range.1 (List.mem_of_mem_filter (List.mem_of_mem_filter hn))
    simp only [Fld.placed, Reg.VGL_HC_VAL_PEAK]
    omega)

theorem statKept_switchBnk (s : State) (re : Bool) (b : Nat) : StatKept s (s.switchBnk re b) := by
  unfold State.switchBnk
  refine .ite (.refl _) ?_
  extract_lets p o a own direct s₁
  have h₁ : StatKept s s₁ := List.foldlRecOn _ _ (motive := StatKept s) (.refl _) fun _ h f hf => .wr h (imgFields_high (List.mem_of_mem_filter hf))
  exact .ite (.wrs h₁ (by rfl)) ((statKept_bnkOwn ..).next h₁)

/-! A display head. -/

theorem mem_groupFields_head {h : Fin 2} {g : Nat} {f : Fld} (hf : f ∈ groupFields (pg .dsp h) g) : f.placed ∧ f.off ≠ 0x18 := by
  refine ⟨(mem_groupFields_dsp hf).1, fun e => ?_⟩
  have hrow := pageRow_dsp h
  unfold groupFields at hf
  split at hf
  next r hr =>
    rw [hr] at hrow
    have hb : r.blk = .dsp := Option.some.inj hrow
    have hg := (List.mem_filter.1 hf).2
    rw [hb, e] at hg
    cases hg
  next => cases hf

theorem statKept_shImage (s : State) (h : Fin 2) : StatKept s (s.shImage (pg .dsp h)) := by
  refine List.foldlRecOn _ _ (motive := StatKept s) (.keep (.refl _) rfl) fun u hu f hf => ?_
  obtain ⟨g, -, hf⟩ := List.mem_flatMap.1 hf
  exact hu.wr (mem_groupFields_head hf)

theorem statKept_shCopy (s : State) (h : Fin 2) (g : Nat) : StatKept s (s.shCopy (pg .dsp h) g) :=
  List.foldlRecOn _ _ (motive := StatKept s) (.refl _) fun _ hu _ hf => hu.wrA (mem_groupFields_head hf)

theorem statKept_dspApply (s : State) (h : Fin 2) : StatKept s (s.dspApply h).1 := by
  unfold State.dspApply
  extract_lets p image held want _ s₁ s₂ checked good badCode mode before s₃ train mask late s₄ s₅ s₆ s₇
  refine .via s₁ (.keep (.refl _) rfl) fun h₁ => ?_
  refine .via s₂ (.ite ((statKept_shImage ..).next (.wr h₁ (by decide))) h₁) fun h₂ => ?_
  refine .via s₃ (.each _ h₂ fun _ g h₃ => (statKept_shCopy _ h g).next h₃) fun h₃ => ?_
  refine .via s₄ (.wr h₃ (by decide)) fun h₄ => ?_
  refine .via s₅ (.ite h₄ (.wrs ((statKept_bump _ _ _ _ (by decide)).next h₄) (by rfl))) fun h₅ => ?_
  refine .via s₆ ((statKept_eventIf ..).next h₅) fun h₆ => ?_
  refine .via s₇ (.ite h₆ ((statKept_event ..).next (.wrs h₆ (by rfl)))) fun h₇ => ?_
  split
  · exact h₂
  · exact h₇

theorem statKept_switchDsp (s : State) (re : Bool) (h : Fin 2) : StatKept s (s.switchDsp re h) := by
  unfold State.switchDsp
  refine .ite (.refl _) ?_
  extract_lets p s₁ s₂ _ s₃ s₄ _ s₅ s₆ _
  refine .via s₁ (.wr (.refl _) (by decide)) fun h₁ => ?_
  refine .via s₂ (.wr h₁ (by decide)) fun h₂ => ?_
  refine .via s₃ (.keep h₂ rfl) fun h₃ => ?_
  refine .via s₄ ((statKept_reload ..).next h₃) fun h₄ => ?_
  refine .via s₅ ((does_setDspHead ..).statKept h₄ rfl) fun h₅ => ?_
  refine .via s₆ ((statKept_dspApply ..).next h₅) fun h₆ => ?_
  exact .ite h₅ ((does_setDspHead ..).statKept h₆ rfl)

/-! The comparators. -/

/-- The comparators' levels and outputs stand outside PG_STAT. -/
theorem statKept_setCmpBit (s : State) {f : Fld} (k : Nat) (b : Bool) (hf : f.placed ∧ f.off ≠ 0x18) : StatKept s (s.setCmpBit f k b) := .wr (.refl _) hf

theorem statKept_cmpOut (s : State) (k : Nat) (v : Bool) (t : Nat) (stamp : SubTick) : StatKept s (s.cmpOut k v t stamp) := by
  unfold State.cmpOut
  extract_lets p s₁ s₂ s₃ s₄
  refine .via s₁ (statKept_setCmpBit _ _ _ (by decide)) fun h₁ => ?_
  refine .via s₂ ((statKept_setCmpBit _ _ _ (by decide)).next h₁) fun h₂ => ?_
  refine .via s₃ (.ite ((does_sourceLevel ..).statKept h₂ rfl) h₂) fun h₃ => ?_
  refine .via s₄ (.ite ((does_cmpPout ..).statKept h₃ rfl) h₃) fun h₄ => ?_
  exact (statKept_setRaw ..).next h₄

theorem statKept_cmpEnable (s : State) (k : Nat) : StatKept s (s.cmpEnable k) := by
  unfold State.cmpEnable
  extract_lets s₁ _ s₂
  have h₁ : StatKept s s₁ := (statKept_setCmpBit _ _ _ (by decide)).next ((statKept_setCmpBit _ _ _ (by decide)).next
    ((statKept_setCmpBit _ _ _ (by decide)).next (statKept_setCmpBit _ _ _ (by decide))))
  have h₂ : StatKept s s₂ := (does_setCmpCh ..).statKept h₁ rfl
  exact .ite ((statKept_cmpOut ..).next h₂) h₂

theorem statKept_cmpEval (s : State) (k ct t : Nat) (stamp : SubTick) (ramps : List Nat) (clr : Nat) :
    StatKept s (s.cmpEval k ct t stamp ramps clr).1 := by
  unfold State.cmpEval
  extract_lets p x v h hiT loT hi lo s₁ s₂ s₃ w latch was o s₄
  refine .via s₁ ((statKept_setCmpBit _ _ _ (by decide)).next (statKept_setCmpBit _ _ _ (by decide))) fun h₁ => ?_
  refine .via s₂ (.ite ((statKept_setCmpBit _ _ _ (by decide)).next h₁) h₁) fun h₂ => ?_
  refine .via s₃ (.ite ((statKept_setCmpBit _ _ _ (by decide)).next h₂) h₂) fun h₃ => ?_
  refine .via s₄ ((does_setCmpCh ..).statKept h₃ rfl) fun h₄ => ?_
  split
  · exact .refl _
  · exact .ite h₄ ((statKept_cmpOut ..).next h₄)

theorem statKept_cmpResolve (s : State) (k : Nat) : StatKept s (s.cmpResolve k) := by
  have hbit (t : State) (b : Bool) : ∀ f ∈ [Reg.CMP_CMP_LVL_HI_NOW, Reg.CMP_CMP_LVL_UNRES_HI, Reg.CMP_CMP_LVL_LO_NOW, Reg.CMP_CMP_LVL_UNRES_LO],
      StatKept t (t.setCmpBit f k b) := fun f hf => statKept_setCmpBit t k b (by revert f; decide)
  unfold State.cmpResolve
  refine .ite (.refl _) ((does_setCmpCh ..).statKept ?_ rfl)
  exact (hbit _ _ _ (by simp)).next ((hbit _ _ _ (by simp)).next ((hbit _ _ _ (by simp)).next (hbit _ _ _ (by simp))))

theorem statKept_cmpRun (n : Nat) (s : State) (ct t : Nat) (b : Option (Nat × SubTick)) (ramps : List Nat) (clr : Nat) :
    StatKept s (State.cmpRun n s ct t b ramps clr) := by
  induction n generalizing s ct t b ramps clr with
  | zero => exact .refl _
  | succ n ih =>
    unfold State.cmpRun
    extract_lets s₁ s₂ r s₃ self s₄ next
    have h₁ : StatKept s s₁ := .each _ (.refl _) fun _ _ h => (does_rampReset ..).statKept h rfl
    have h₂ : StatKept s s₂ := (does_blankStart ..).statKept h₁ rfl
    have h₃ : StatKept s s₃ := List.foldlRecOn _ _ (motive := fun a : State × List Nat => StatKept s a.1) h₂ fun _ h _ _ => (statKept_cmpEval ..).next h
    have h₄ : StatKept s s₄ := .each _ h₃ fun _ _ h => (does_setCmpCh ..).statKept h rfl
    exact .ite h₃ (.ite h₄ ((ih ..).next h₄))

theorem statKept_cmpNow (s : State) (b : Option (Nat × SubTick)) (clr : Nat) : StatKept s (s.cmpNow b clr) :=
  (statKept_cmpRun ..).next (.each _ (.refl _) fun _ _ h => (statKept_cmpResolve ..).next h)

theorem statKept_cmpRestart (s : State) : StatKept s s.cmpRestart :=
  .each _ (.each _ (.refl _) fun _ _ h => (does_setCmpRamp ..).statKept ((does_rampReset ..).statKept h rfl) rfl) fun _ _ h =>
    (statKept_cmpEnable ..).next h

theorem statKept_switchCmp (s : State) (re ran : Bool) : StatKept s (s.switchCmp re ran) := by
  unfold State.switchCmp
  refine .ite (.ite (.refl _) (statKept_cmpRestart _)) ?_
  extract_lets p ct cfg changed ramps s₁ s₂
  have h₁ : StatKept s s₁ := statKept_reload ..
  have h₂ : StatKept s s₂ := .each _ h₁ fun _ _ h => (does_setCmpRamp ..).statKept h rfl
  exact .ite ((statKept_cmpNow ..).next (.each _ h₂ fun _ _ h => (statKept_cmpEnable ..).next h)) ((statKept_cmpRestart ..).next h₂)

end

end Sys2Proof.Machine
end

section
/-!
PROOF. The equinox: a page, other than a context's, passes its switch point (R43, R487).
-/
namespace Sys2Proof.Machine

section
variable {s : State} {t : Nat}

/-! A page that is ready stays so. -/

theorem linkReady_advance {l : Nat} (t : Nat) (h : s.linkReady l = true) : (s.advance t).linkReady l = true := by
  have htick := tick_le_advance s t
  have hlemc : (s.advance t).lemcPeriod l = s.lemcPeriod l := by
    unfold State.lemcPeriod
    rw [advance_rd, advance_rd]
  unfold State.linkReady State.linkParked State.linkState State.lnk at h ⊢
  rw [State.advance_ing, advance_rd, hlemc]
  simp only [Bool.and_eq_true, Bool.or_eq_true, decide_eq_true_eq] at h ⊢
  exact ⟨h.1, h.2.imp_right fun h => by omega⟩

theorem links_ready_advance {f : Nat → Bool} (t : Nat) (h : (List.range 64).all (fun l => !s.epo.todo.contains (pg .lnk l) || s.linkReady l || !f l) = true) :
    (List.range 64).all (fun l => !s.epo.todo.contains (pg .lnk l) || (s.advance t).linkReady l || !f l) = true := by
  rw [List.all_eq_true] at h ⊢
  intro l hl
  have hl := h l hl
  simp only [Bool.or_eq_true] at hl ⊢
  exact hl.imp_left (Or.imp_right (linkReady_advance t))

theorem linkLanes_advance (s : State) (t l : Nat) : (s.advance t).linkLanes l = s.linkLanes l := by
  unfold State.advance
  split <;> rfl

theorem linkSlots_advance (s : State) (t l : Nat) : (s.advance t).linkSlots l = s.linkSlots l := by
  unfold State.advance
  split <;> rfl

theorem blockReady_advance {p : Nat} (t : Nat) (h : s.blockReady p = true) : (s.advance t).blockReady p = true := by
  unfold State.blockReady at h ⊢
  split at h
  · unfold State.advance
    split <;> exact h
  · unfold State.advance
    split <;> exact h
  · unfold State.advance
    split <;> exact h
  · exact linkReady_advance t h
  · rw [State.advance_epo]
    simp only [linkLanes_advance]
    exact links_ready_advance t h
  · rw [State.advance_epo]
    simp only [linkSlots_advance]
    exact links_ready_advance t h
  · unfold State.advance
    split <;> exact h
  · rfl

/-! The page leaves those still to switch, and shows whether LIVE uses it. -/

theorem useBlock_leaves (s : State) (p : Nat) : (s.useBlock p).epo.todo = s.epo.todo.filter (fun q => q != p) := by
  unfold State.useBlock
  extract_lets used _ s₁ s₂
  have h₂ : s₂.epo.todo = s.epo.todo.filter (fun q => q != p) := rfl
  split
  · rw [(does_enable ..).only .epo (by decide)]
    exact h₂
  · exact h₂

theorem inEpoch_enable (s : State) (p : Nat) : (s.enable p).rd p Reg.PG_STAT_IN_EPOCH = s.rd p Reg.PG_STAT_IN_EPOCH := by
  unfold State.enable
  dsimp only
  refine (rd_wr_field _ _ (placed_enAct _) (by decide) (fun e => absurd e.2 (by decide : ¬(8 = 0)))).trans
    ((rd_wr_field _ _ (placed_en _) (by decide) (fun e => absurd e.1 (by decide : ¬(0x18 = 0x10)))).trans ?_)
  split <;> rfl

theorem useBlock_shows (s : State) (p : Nat) :
    (s.useBlock p).rd p Reg.PG_STAT_IN_EPOCH = b2n ((s.usedPages s.liveImg).contains p) := by
  unfold State.useBlock
  extract_lets used _ s₁ s₂
  have h₂ : s₂.rd p Reg.PG_STAT_IN_EPOCH = b2n used := (rd_wr_self ..).trans (by cases used <;> rfl)
  split
  · exact (inEpoch_enable s₂ p).trans h₂
  · exact h₂

/-- The row of a page is that of its block, and the page is one of those the row lists. -/
theorem pageRow_blk {p : Nat} {b : Blk} (hb : blkOf p = some b) :
    ∃ r, pageRow p = some r ∧ r.blk = b ∧ r.first = firstPage b ∧ p = r.first + instOf p ∧ instOf p < r.count := by
  unfold blkOf at hb
  obtain ⟨r, hr, hrb⟩ := Option.map_eq_some_iff.1 hb
  have hrows : ∀ r ∈ pageRows, r.first = firstPage r.blk := by decide
  have hin := List.find?_some hr
  have hfirst := hrows r (List.mem_of_find?_eq_some hr)
  rw [hrb] at hfirst
  simp only [Bool.and_eq_true, decide_eq_true_eq] at hin
  have hinst : instOf p = p - r.first := by
    unfold instOf
    rw [hr]
  exact ⟨r, hr, hrb, hfirst, by omega, by omega⟩

theorem head_of_blkOf {p : Nat} (hb : blkOf p = some .dsp) : ∃ h : Fin 2, instOf p = h := by
  obtain ⟨r, hr, hrb, -, -, hlt⟩ := pageRow_blk hb
  have hcount : ∀ r ∈ pageRows, r.blk = .dsp → r.count = 2 := by decide
  rw [hcount r (List.mem_of_find?_eq_some hr) hrb] at hlt
  exact ⟨⟨instOf p, hlt⟩, rfl⟩

/-- After the page is in use, its switch leaves the pages' status and those still to switch. -/
theorem switchBlock_keeps (s : State) (p t : Nat) : StatKept (s.useBlock p) (s.switchBlock p t) ∧ (s.switchBlock p t).epo = (s.useBlock p).epo := by
  unfold State.switchBlock
  extract_lets re was ran i s₁
  show StatKept s₁ _ ∧ _ = s₁.epo
  split
  · exact ⟨statKept_switchLqd .., (does_switchLqd ..).only .epo (by decide)⟩
  · exact ⟨statKept_switchLnk .., (does_switchLnk ..).only .epo (by decide)⟩
  · exact ⟨statKept_switchSlt .., (does_switchSlt ..).only .epo (by decide)⟩
  · exact ⟨statKept_switchXfp .., (does_switchXfp ..).only .epo (by decide)⟩
  · exact ⟨statKept_switchDen .., (does_switchDen ..).only .epo (by decide)⟩
  · exact ⟨statKept_switchTmp .., (does_switchTmp ..).only .epo (by decide)⟩
  · exact ⟨statKept_switchTru .., (does_switchTru ..).only .epo (by decide)⟩
  · exact ⟨statKept_switchTrn .., (does_switchTrn ..).only .epo (by decide)⟩
  · exact ⟨statKept_switchScr .., (does_switchScr ..).only .epo (by decide)⟩
  · exact ⟨statKept_switchBnk .., (does_switchBnk ..).only .epo (by decide)⟩
  next hb =>
    obtain ⟨h, hh⟩ := head_of_blkOf hb
    have hi : i = h := hh
    rw [hi]
    exact ⟨statKept_switchDsp .., (does_switchDsp ..).only .epo (by decide)⟩
  · exact ⟨statKept_switchDlb .., (does_switchDlb ..).only .epo (by decide)⟩
  · exact ⟨statKept_switchTio .., (does_switchTio ..).only .epo (by decide)⟩
  · exact ⟨statKept_switchVgl .., (does_switchVgl ..).only .epo (by decide)⟩
  · exact ⟨statKept_switchCmp .., (does_switchCmp ..).only .epo (by decide)⟩
  · exact ⟨statKept_reload .., (does_reload ..).only .epo (by decide)⟩

/-! The pages that an image uses do not depend on the time. -/

/-- The state at another tick. -/
def State.timed (s : State) (a b : Nat) : State := { s with tick := a, upTime := b }

theorem advance_timed (s : State) (t : Nat) : ∃ a b, s.advance t = s.timed a b := by
  unfold State.advance
  split
  · exact ⟨_, s.upTime, rfl⟩
  · exact ⟨s.tick, _, rfl⟩

theorem each_timed {α : Type} {f : State → α → State} {a b : Nat} (hf : ∀ s x, f (s.timed a b) x = (f s x).timed a b) (l : List α) (s : State) :
    (s.timed a b).each l f = (s.each l f).timed a b := by
  induction l generalizing s with
  | nil => rfl
  | cons x l ih => rw [each_cons, each_cons, hf, ih]

theorem loadPage_timed (s : State) (a b : Nat) (img : Option EpochImage) (p : Nat) : (s.timed a b).loadPage img p = (s.loadPage img p).timed a b :=
  each_timed (fun _ _ => rfl) _ s

/-- The state with an image's window and mask stores, and nothing in progress. -/
def State.withStores (s : State) (win : SMap Nat) (seg : SMap Nat) : State :=
  { s with xf := { s.xf with win := win, ctx := [] }, trg := { s.trg with store := seg }, epo := { s.epo with todo := [] } }

theorem asImage_timed (s : State) (a b : Nat) (img : Option EpochImage) : (s.timed a b).asImage img = (s.asImage img).timed a b := by
  unfold State.asImage
  extract_lets isCfg s₁ s₂ win seg _ _ _ r₁ r₂
  have h₁ : s₁ = r₁.timed a b := rfl
  have h₂ : s₂ = r₂.timed a b := by
    unfold s₂ r₂
    rw [h₁]
    exact each_timed (fun s p => loadPage_timed s a b img p) _ r₁
  show s₂.withStores win seg = (r₂.withStores win seg).timed a b
  rw [h₂]
  rfl

theorem usedPages_timed (s : State) (a b : Nat) (img : Option EpochImage) : (s.timed a b).usedPages img = s.usedPages img := by
  unfold State.usedPages
  rw [asImage_timed]
  generalize s.asImage img = v
  have hruns (c : Nat) : (v.timed a b).xfRuns c false = v.xfRuns c false := rfl
  have hpipes (c : Nat) : (v.timed a b).pipes c = v.pipes c := rfl
  have hbound (c : Nat) : (s.timed a b).boundPages (v.timed a b) c = s.boundPages v c := rfl
  have hrd (p : Nat) (f : Fld) : (v.timed a b).rd p f = v.rd p f := rfl
  simp only [hruns, hpipes, hbound, hrd]

theorem usedPages_advance (s : State) (t : Nat) (img : Option EpochImage) : (s.advance t).usedPages img = s.usedPages img := by
  obtain ⟨a, b, h⟩ := advance_timed s t
  rw [h, usedPages_timed]

theorem blockSwitch_switches {page : Fin 4096} {stamp : SubTick} (htodo : page.val ∈ s.epo.todo) (hgated : s.gated = false)
    (htick : s.eqxTick ≤ (s.advance t).tick) (hblk : blkOf page ≠ some .ctx) (hready : s.blockReady page = true) :
    Gives (.blockSwitch t page stamp) s fun u => page.val ∉ u.epo.todo ∧
      u.rd page Reg.PG_STAT_IN_EPOCH = b2n ((s.usedPages s.liveImg).contains page.val) := by
  have hexec : exec (.blockSwitch t page stamp) s = .next ((s.advance t).switchBlock page (s.advance t).tick) := by
    refine congrArg Host.Outcome.next ((if_neg ?_).trans ((if_neg hblk).trans (if_pos (blockReady_advance t hready))))
    rw [State.advance_epo, gated_advance, eqxTick_advance, hgated, List.contains_iff_mem.2 htodo, decide_eq_false (Nat.not_lt.2 htick)]
    decide
  obtain ⟨hstat, hepo⟩ := switchBlock_keeps (s.advance t) page (s.advance t).tick
  refine .of_next hexec ⟨?_, ?_⟩
  · rw [hepo, useBlock_leaves]
    simp
  · rw [hstat.reads _ _ (by decide) rfl, useBlock_shows, usedPages_advance, liveImg_advance]

end

end Sys2Proof.Machine
end

section
/-!
PROOF. What leaves the contexts that run, and the pages still to switch, as they were: one lemma an operation, runs_<operation> (R190, R298, R487).
-/
namespace Sys2Proof.Machine

/-- From `s` to `u` the same contexts run, and the same pages are still to switch. -/
structure RunKept (s u : State) : Prop where
  todo : u.epo.todo = s.epo.todo
  running : ∀ c, (u.actx c).running = (s.actx c).running

section
variable {s t u : State}

theorem RunKept.refl (s : State) : RunKept s s := ⟨rfl, fun _ => rfl⟩

theorem RunKept.next (k : RunKept t u) (h : RunKept s t) : RunKept s u := ⟨k.todo.trans h.todo, fun c => (k.running c).trans (h.running c)⟩

theorem RunKept.via (x : State) (hx : RunKept s x) (h : RunKept s x → RunKept s u) : RunKept s u := h hx

/-- A change of other parts, or of what else these parts hold. -/
theorem RunKept.keep (h : RunKept s t) (e : u.acq.ctx = t.acq.ctx ∧ u.epo.todo = t.epo.todo) : RunKept s u :=
  .next ⟨e.2, fun c => by unfold State.actx; rw [e.1]⟩ h

/-- The operation leaves the acquisition and the epochs. -/
def noRun (a : List Part) : Bool := !a.contains .acq && !a.contains .epo

theorem Does.runs {a : List Part} (k : Does a t u) (h : RunKept s t) (w : noRun a = true) : RunKept s u := by
  simp only [noRun, Bool.and_eq_true, Bool.not_eq_true'] at w
  exact h.keep ⟨congrArg AcqSt.ctx (k.only .acq (by simpa using w.1)), congrArg EpoSt.todo (k.only .epo (by simpa using w.2))⟩

theorem RunKept.setActx {c : Nat} {a : AcqCtx} (h : RunKept s t) (e : a.running = (t.actx c).running) : RunKept s (t.setActx c a) := by
  refine .next (t := t) ⟨rfl, fun d => ?_⟩ h
  by_cases hd : d = c
  · rw [hd, show (t.setActx c a).actx c = a from smGet_set_self _ _ _ _, e]
  · exact congrArg AcqCtx.running (smGet_set_ne hd _ _ _ _)

theorem RunKept.ite {c : Prop} [Decidable c] {a b : State} (ha : RunKept s a) (hb : RunKept s b) : RunKept s (if c then a else b) := by
  split
  · exact ha
  · exact hb

theorem RunKept.foldl {α : Type} {f : State → α → State} (l : List α) (h : RunKept s t) (hf : ∀ t a, RunKept s t → RunKept s (f t a)) :
    RunKept s (l.foldl f t) := List.foldlRecOn l f h fun t ht a _ => hf t a ht

theorem RunKept.each {α : Type} {f : State → α → State} (l : List α) (h : RunKept s t) (hf : ∀ t a, RunKept s t → RunKept s (f t a)) :
    RunKept s (t.each l f) := .foldl l h hf

theorem RunKept.when {f : State → State} (b : Bool) (h : RunKept s t) (hf : ∀ t, RunKept s t → RunKept s (f t)) : RunKept s (t.when b f) := by
  cases b
  · exact h
  · exact hf t h

end

theorem running_takeOne (a : AcqCtx) (st : Nat) (stamp : SubTick) (w : Nat) : (a.takeOne st stamp w).running = a.running := by
  unfold AcqCtx.takeOne
  dsimp only
  split
  · split <;> rfl
  · split <;> rfl

theorem running_takeLeap (a : AcqCtx) (st per : Nat) (spec : Bool) (start len : SubTick) (samples : Nat) :
    (a.takeLeap st per spec start len samples).running = a.running := by
  cases spec
  · unfold AcqCtx.takeLeap
    simp only [Bool.false_eq_true, if_false]
    split
    · rfl
    · split
      · rfl
      · split <;> rfl
  · unfold AcqCtx.takeLeap
    simp only [if_true]
    split
    · split <;> rfl
    · split <;> rfl

/-- A capture armed under settings that wait runs no context. -/
theorem RunKept.withNext {s : State} {f : State → State} (l : List (Nat × Fld × Nat)) (hf : RunKept (s.each l (fun s y => s.wr y.1 y.2.1 y.2.2))
    (f (s.each l (fun s y => s.wr y.1 y.2.1 y.2.2)))) : RunKept s (s.withNext l f) :=
  .each _ (hf.next (.each _ (.refl _) fun _ _ h => (does_wr ..).runs h rfl)) fun _ _ h => (does_wr ..).runs h rfl

theorem runs_record (s : State) (c kind : Nat) (spec est : Bool) (kflags low w1 w2 w3 : Nat) :
    RunKept s (s.record c kind spec est kflags low w1 w2 w3) :=
  .ite (.refl _) (.ite ((does_event ..).runs ((does_bumpSat ..).runs (.setActx (.refl _) rfl) rfl) rfl) ((does_placeRecord ..).runs
      ((does_peak ..).runs (.setActx (.refl _) (by dsimp only; split <;> rfl)) rfl) rfl))

theorem runs_countLeap (s : State) (c cause ticks samples : Nat) : RunKept s (s.countLeap c cause ticks samples) := by
  unfold State.countLeap
  extract_lets s₁ _ s₂ s₃ _ s₄
  refine .via s₁ (.ite (.refl _) ((does_charge ..).runs (.refl _) rfl)) fun h₁ => ?_
  refine .via s₂ (.keep h₁ ⟨rfl, rfl⟩) fun h₂ => ?_
  refine .via s₃ ((does_occur ..).runs h₂ rfl) fun h₃ => ?_
  refine .via s₄ (.keep h₃ ⟨rfl, rfl⟩) fun h₄ => ?_
  exact .ite (.ite ((does_failProbation ..).runs h₄ rfl) h₄) h₃

theorem runs_writeLeap (s : State) (c cause : Nat) (spec est : Bool) (start len : SubTick) (samples : Nat) :
    RunKept s (s.writeLeap c cause spec est start len samples) := by
  unfold State.writeLeap
  refine .ite (.refl _) ?_
  extract_lets s₁ s₂ a a' a'' s₃ s₄
  refine .via s₁ ((does_levelLeap ..).runs (.refl _) rfl) fun h₁ => ?_
  refine .via s₂ ((runs_record ..).next h₁) fun h₂ => ?_
  have ha' : a'.running = a.running := by
    unfold a'
    split
    · rfl
    · exact running_takeLeap ..
  have ha'' : a''.running = a.running := by
    unfold a''
    split <;> exact ha'
  refine .via s₃ (.setActx h₂ ha'') fun h₃ => ?_
  refine .via s₄ (.ite ((runs_countLeap ..).next h₃) h₃) fun h₄ => ?_
  exact (does_event ..).runs h₄ rfl

theorem runs_endLeap (s : State) (c : Nat) (spec : Bool) (stop : SubTick) : RunKept s (s.endLeap c spec stop) := by
  unfold State.endLeap
  extract_lets a s₁
  refine .via s₁ (.setActx (.refl _) (by cases spec <;> rfl)) fun h₁ => ?_
  split
  · exact .refl _
  · exact (runs_writeLeap ..).next h₁

theorem runs_openLeap (s : State) (c : Nat) (spec : Bool) (cause : Nat) (start : SubTick) (est : Bool) :
    RunKept s (s.openLeap c spec cause start est) := by
  unfold State.openLeap
  extract_lets a s₁ a'
  refine .via s₁ ((runs_endLeap ..).next (.refl _)) fun h₁ => ?_
  refine .ite (.refl _) ?_
  split
  · exact .ite (.refl _) (.setActx h₁ (by cases spec <;> rfl))
  · exact .setActx (.refl _) (by cases spec <;> rfl)

theorem runs_loseSpan (s : State) (c : Nat) (spec : Bool) (cause : Nat) (start len : SubTick) (samples : Nat) :
    RunKept s (s.loseSpan c spec cause start len samples) := by
  unfold State.loseSpan
  extract_lets a s₁ a'
  refine .via s₁ ((runs_writeLeap ..).next ((runs_endLeap ..).next (.refl _))) fun h₁ => ?_
  split
  · exact .ite ((runs_writeLeap ..).next (.refl _)) (.ite ((runs_writeLeap ..).next (.refl _)) (.setActx h₁ (by cases spec <;> rfl)))
  · exact (runs_writeLeap ..).next (.refl _)

theorem runs_writeRun (s : State) (c : Nat) (r : DropRun) : RunKept s (s.writeRun c r) :=
  (runs_loseSpan ..).next (.refl _)

theorem runs_flushRuns (s : State) (c : Nat) : RunKept s (s.flushRuns c) :=
  .each _ ((does_setXfc ..).runs (.refl _) rfl) fun _ _ h => (runs_writeRun ..).next h

theorem runs_prevLost (s : State) (c cause : Nat) : RunKept s (s.prevLost c cause) := by
  unfold State.prevLost
  split
  · exact .refl _
  · extract_lets k stop s₁ s₂
    refine .via s₁ ((runs_flushRuns ..).next (.refl _)) fun h₁ => ?_
    refine .via s₂ (.ite ((runs_loseSpan ..).next h₁) h₁) fun h₂ => ?_
    exact (does_prevCut ..).runs h₂ rfl

theorem runs_lose (s : State) (c cause : Nat) (start : SubTick) (est : Bool) : RunKept s (s.lose c cause start est) := by
  unfold State.lose
  refine .ite (.ite ((runs_prevLost ..).next (.refl _)) (.refl _)) ?_
  extract_lets s₁ from_ s₂ s₃
  refine .via s₁ (.ite ((runs_flushRuns ..).next (.refl _)) (.refl _)) fun h₁ => ?_
  refine .via s₂ ((runs_openLeap ..).next h₁) fun h₂ => ?_
  refine .via s₃ (.ite ((runs_openLeap ..).next h₂) h₂) fun h₃ => ?_
  exact .ite ((does_prevCut ..).runs h₃ rfl) h₃

theorem runs_regain (s : State) (c : Nat) (stop : SubTick) : RunKept s (s.regain c stop) :=
  (runs_endLeap ..).next ((runs_endLeap ..).next (.refl _))

theorem runs_faultEnd (s : State) (c : Nat) (spec : Bool) (stop : SubTick) : RunKept s (s.faultEnd c spec stop) := by
  unfold State.faultEnd
  split
  · exact .ite ((runs_endLeap ..).next (.refl _)) (.refl _)
  · exact .refl _

theorem runs_clockRecord (s : State) (c : Nat) (holdover : Bool) (subtype cause w1 w2 w3 : Nat) :
    RunKept s (s.clockRecord c holdover subtype cause w1 w2 w3) :=
  (runs_record ..).next (.refl _)

theorem runs_clockWrite (s : State) (c : Nat) : RunKept s (s.clockWrite c) :=
  .each _ (.setActx (.refl _) rfl) fun _ _ h => (runs_clockRecord ..).next h

theorem runs_epochRecord (s : State) (c flags new prev : Nat) (stamp : SubTick) (w3 : Nat) : RunKept s (s.epochRecord c flags new prev stamp w3) :=
  (runs_record ..).next (.refl _)

theorem runs_linkRecord (s : State) (c : Nat) (nondet : Bool) (link nM1 st : Nat) (stamp : SubTick) (lanes : Nat) :
    RunKept s (s.linkRecord c nondet link nM1 st stamp lanes) :=
  (runs_record ..).next (.refl _)

theorem runs_startArm (s : State) (c : Nat) : RunKept s (s.startArm c) :=
  .ite ((does_setCapState ..).runs (.refl _) rfl) ((does_setCapState ..).runs (.setActx (.refl _) rfl) rfl)

theorem runs_arm (s : State) (c : Nat) : RunKept s (s.arm c) :=
  .ite ((does_armFail ..).runs (.refl _) rfl) (.ite ((does_armFail ..).runs (.refl _) rfl) (.ite (.refl _) (.ite ((does_armFail ..).runs
      (.refl _) rfl) (.ite ((does_armFail ..).runs (.refl _) rfl) ((runs_startArm ..).next (.refl _))))))

theorem runs_endCapture (s : State) (c reason : Nat) : RunKept s (s.endCapture c reason) := by
  unfold State.endCapture
  extract_lets a d T last postShort s₁ mode _ s₂ s₃ s₄ s₅
  refine .via s₁ ((runs_record ..).next (.refl _)) fun h₁ => ?_
  refine .via s₂ (.setActx h₁ rfl) fun h₂ => ?_
  refine .via s₃ ((does_setMap ..).runs ((does_bump ..).runs h₂ rfl) rfl) fun h₃ => ?_
  refine .via s₄ ((does_event ..).runs h₃ rfl) fun h₄ => ?_
  refine .via s₅ ((does_setCapState ..).runs h₄ rfl) fun h₅ => ?_
  exact .ite ((does_setCapState ..).runs h₄ rfl) (.ite ((runs_arm ..).next h₅) h₅)

theorem runs_closeCapture (s : State) (c reason : Nat) : RunKept s (s.closeCapture c reason) :=
  .ite ((runs_endCapture ..).next (.refl _)) (.setActx (.refl _) rfl)

theorem runs_stopCapture (s : State) (c : Nat) (wait : Bool) : RunKept s (s.stopCapture c wait) :=
  .ite ((runs_closeCapture ..).next (.refl _)) (.ite ((runs_endCapture ..).next (.refl _)) ((does_setCapState ..).runs (.refl _) rfl))

theorem runs_bufAdd (s : State) (c n : Nat) : RunKept s (s.bufAdd c n) :=
  (does_bufStat ..).runs (.ite (.keep (.refl _) ⟨rfl, rfl⟩) (.keep (.refl _) ⟨rfl, rfl⟩)) rfl

theorem runs_checkStop (s : State) (c : Nat) (stamp : SubTick) : RunKept s (s.checkStop c stamp) := by
  unfold State.checkStop
  extract_lets a spans s₁ a' stop
  refine .via s₁ (.ite ((runs_regain ..).next (.setActx (.refl _) rfl)) (.refl _)) fun h₁ => ?_
  exact .ite (.refl _) (.ite ((runs_lose ..).next (.setActx h₁ rfl)) (.ite ((does_event ..).runs ((runs_lose ..).next (.setActx h₁ rfl)) rfl) (.ite
      ((does_event ..).runs ((runs_lose ..).next (.setActx h₁ rfl)) rfl) h₁)))

theorem runs_checkHbm (s : State) (c : Nat) (stamp : SubTick) : RunKept s (s.checkHbm c stamp) := by
  unfold State.checkHbm
  extract_lets a lost spans s₁
  refine .via s₁ (.setActx (.refl _) rfl) fun h₁ => ?_
  exact .ite (.refl _) (.ite ((runs_lose ..).next (.setActx (.refl _) rfl)) (.ite (.ite h₁ ((runs_regain ..).next h₁))
      (.refl _)))

theorem runs_drainNote (s : State) (c kind idx : Nat) (stamp : SubTick) (ovr : Bool) : RunKept s (s.drainNote c kind idx stamp ovr) :=
  .setActx (.refl _) rfl

theorem runs_storeRaw (s : State) (c : Nat) (stamp : SubTick) (bytes : List Byte) (ovr : Bool) : RunKept s (s.storeRaw c stamp bytes ovr) := by
  unfold State.storeRaw
  extract_lets a d w s₁ s₂
  refine .via s₁ (.setActx (.refl _) (running_takeOne ..)) fun h₁ => ?_
  refine .via s₂ (.ite ((runs_drainNote ..).next h₁) h₁) fun h₂ => ?_
  exact .ite ((runs_bufAdd ..).next ((does_bump ..).runs ((does_writeBytes ..).runs h₂ rfl) rfl)) h₁

theorem runs_localLeap (s : State) (c cause : Nat) (start len : SubTick) (samples : Nat) (toRec toStr : Bool) :
    RunKept s (s.localLeap c cause start len samples toRec toStr) :=
  .ite (.refl _) (.setActx (.refl _) rfl)

theorem runs_ringKept (s : State) (c : Nat) (stamp : SubTick) : RunKept s (s.ringKept c stamp) := by
  unfold State.ringKept
  extract_lets a
  split
  · exact .refl _
  · exact (runs_localLeap ..).next (.setActx (.refl _) rfl)

theorem runs_checkRing (s : State) (c : Nat) (stamp : SubTick) : RunKept s (s.checkRing c stamp) :=
  .ite (.refl _) (.ite ((runs_ringKept ..).next (.refl _)) (.ite (.setActx (.refl _) rfl) (.refl _)))

theorem runs_drainRaw (s : State) (c : Nat) (stamp : SubTick) (bytes : List Byte) (ovr : Bool) : RunKept s (s.drainRaw c stamp bytes ovr) :=
  .ite (.ite (.setActx (.refl _) rfl) ((runs_bufAdd ..).next (.setActx ((does_writeBytes ..).runs ((runs_drainNote ..).next (.refl _)) rfl) rfl)))
      (.refl _)

theorem runs_ringRestart (s : State) (c : Nat) (stamp : SubTick) : RunKept s (s.ringRestart c stamp) :=
  .ite ((runs_record ..).next (.setActx (.refl _) rfl)) (.refl _)

theorem runs_takeSample (s : State) (c : Nat) (stamp : SubTick) (bytes : List Byte) (ovr : Bool) : RunKept s (s.takeSample c stamp bytes ovr) := by
  unfold State.takeSample
  refine .ite (.refl _) ?_
  refine .ite (.setActx ((runs_openLeap ..).next (.refl _)) rfl) ?_
  extract_lets s₁ writes s₂ s₃ s₄ a st s₅ _ s₆ s₇
  refine .via s₁ ((runs_ringRestart ..).next ((runs_faultEnd ..).next (.refl _))) fun h₁ => ?_
  refine .via s₂ (.ite ((runs_checkStop ..).next h₁) h₁) fun h₂ => ?_
  refine .via s₃ (.ite ((runs_checkHbm ..).next h₂) h₂) fun h₃ => ?_
  refine .via s₄ (.ite h₃ ((runs_checkRing ..).next h₃)) fun h₄ => ?_
  refine .via s₅ (.setActx h₄ rfl) fun h₅ => ?_
  refine .via s₆ (.ite (.setActx h₅ rfl) h₅) fun h₆ => ?_
  refine .via s₇ ((runs_drainRaw ..).next h₆) fun h₇ => ?_
  exact .ite h₅ (.ite (.ite ((does_skipRaw ..).runs h₇ rfl) ((runs_storeRaw ..).next h₇)) h₇)

theorem runs_t1End (s : State) (n result worst gd sd od : Nat) (stop : SubTick) : RunKept s (s.t1End n result worst gd sd od stop) := by
  unfold State.t1End
  extract_lets x done forced temp s₁ s₆ s₇ s₈ hold s₉ _ s₁₀ st
  refine .via s₁ ?_ fun h₁ => ?_
  · unfold s₁
    refine .each _ (.refl _) fun _ _ h₂ => ?_
    extract_lets s₃ s₄ s₅
    refine .via s₃ (.ite ((does_gapEnd ..).runs ((runs_regain ..).next h₂) rfl) h₂) fun h₃ => ?_
    refine .via s₄ ((runs_record ..).next h₃) fun h₄ => ?_
    refine .via s₅ (.ite h₄ ((does_setMap ..).runs h₄ rfl)) fun h₅ => ?_
    exact .ite h₅ (.ite ((does_bumpSat ..).runs h₅ rfl) ((does_bumpSat ..).runs h₅ rfl))
  refine .via s₆ ((does_eventIf ..).runs h₁ rfl) fun h₆ => ?_
  refine .via s₇ ((does_icWrs ..).runs h₆ rfl) fun h₇ => ?_
  refine .via s₈ (.ite ((does_icWrs ..).runs h₇ rfl) h₇) fun h₈ => ?_
  refine .via s₉ (.each _ h₈ fun _ _ h => (does_wr ..).runs h rfl) fun h₉ => ?_
  refine .via s₁₀ ((does_setInput ..).runs h₉ rfl) fun h₁₀ => ?_
  exact .each _ h₁₀ fun _ _ h => (does_complete ..).runs h rfl

theorem runs_t1Abandon (s : State) (n result : Nat) (stop : SubTick) : RunKept s (s.t1Abandon n result stop) :=
  .ite ((runs_t1End ..).next ((does_setIcAct ..).runs (.refl _) rfl)) (.refl _)

theorem runs_viewTake (s : State) (c : Nat) (y : ViewSample) : RunKept s (s.viewTake c y) :=
  (runs_takeSample ..).next ((does_gridTake ..).runs ((does_levelTap ..).runs (.ite ((does_setView ..).runs (.refl _) rfl) (.refl _)) rfl) rfl)

theorem runs_viewDeliver (s : State) (c : Nat) (y : ViewSample) : RunKept s (s.viewDeliver c y) :=
  .ite ((does_prevTake ..).runs (.refl _) rfl) (.ite ((does_setView ..).runs (.refl _) rfl) ((runs_viewTake ..).next (.refl _)))

theorem runs_lossEnd (s : State) (c : Nat) (stamp : SubTick) : RunKept s (s.lossEnd c stamp) := by
  unfold State.lossEnd
  extract_lets a src s₁
  refine .via s₁ ((runs_clockWrite ..).next (.refl _)) fun h₁ => ?_
  exact .ite ((does_gapEnd ..).runs ((runs_regain ..).next h₁) rfl) h₁

theorem runs_hopLoss (s : State) (c : Nat) (stamp : SubTick) : RunKept s (s.hopLoss c stamp) :=
  .ite (.refl _) ((runs_lose ..).next ((runs_lossEnd ..).next (.refl _)))

theorem runs_viewInput (s : State) (c : Nat) (x : SlotSample) : RunKept s (s.viewInput c x) := by
  unfold State.viewInput
  refine .ite (.refl _) ?_
  refine .ite ((runs_hopLoss ..).next (.refl _)) ?_
  extract_lets s₁ r _ s₂
  refine .via s₁ ((does_levelTap ..).runs ((runs_lossEnd ..).next (.refl _)) rfl) fun h₁ => ?_
  refine .via r.2 ((does_chainStep ..).runs h₁ rfl) fun hr => ?_
  refine .via s₂ ((does_setView ..).runs hr rfl) fun h₂ => ?_
  split
  · exact h₂
  · exact (runs_viewDeliver ..).next ((does_bumpSat ..).runs h₂ rfl)

theorem runs_feed (s : State) (c : Nat) (xs : List SlotSample) : RunKept s (s.feed c xs) :=
  .each _ (.refl _) fun _ _ h => (runs_viewInput ..).next h

theorem runs_setDrain (s : State) (c : Nat) (str : Bool) (d : DrainPos) : RunKept s (s.setDrain c str d) :=
  .setActx (.refl _) (by cases str <;> rfl)

theorem runs_drainSkip (s : State) (c : Nat) (str : Bool) (kind : Nat) (x : DrainSrc) (limit : Nat) : RunKept s (s.drainSkip c str kind x limit) :=
  (runs_localLeap ..).next ((runs_setDrain ..).next (.refl _))

theorem runs_drainKeep (s : State) (c : Nat) (str : Bool) (kind : Nat) : RunKept s (s.drainKeep c str kind) :=
  .ite (.refl _) ((runs_setDrain ..).next ((does_drainPoisons ..).runs (.ite ((runs_drainSkip ..).next (.refl _)) (.refl _)) rfl))

theorem runs_drainMove (s : State) (c : Nat) (str : Bool) (kind : Nat) : RunKept s (s.drainMove c str kind) :=
  .ite (.refl _) ((runs_setDrain ..).next (.refl _))

theorem runs_drainsKeep (s : State) (c kind : Nat) : RunKept s (s.drainsKeep c kind) :=
  (runs_drainKeep ..).next ((runs_drainKeep ..).next (.refl _))

theorem runs_drainsMove (s : State) (c kind : Nat) : RunKept s (s.drainsMove c kind) :=
  (runs_drainMove ..).next ((runs_drainMove ..).next (.refl _))

theorem runs_xfSwitch (s : State) (c t : Nat) : RunKept s (s.xfSwitch c t) := by
  unfold State.xfSwitch
  extract_lets x key units s₁ s₂ s₃ s₄ s₇ _ s₁₀ s₁₁ _
  refine .via s₁ ((runs_drainsKeep ..).next (.refl _)) fun h₁ => ?_
  refine .via s₂ h₁ fun h₂ => ?_
  refine .via s₃ (.each _ h₁ fun _ _ h => (does_wr ..).runs h rfl) fun h₃ => ?_
  refine .via s₄ ?_ fun h₄ => ?_
  · unfold s₄
    refine .each _ h₃ fun _ _ h₅ => ?_
    extract_lets bound s₆
    refine .via s₆ ((does_wr ..).runs h₅ rfl) fun h₆ => ?_
    exact .ite ((does_denClear ..).runs h₆ rfl) h₆
  refine .via s₇ (.each _ h₄ fun v m h => .ite ?_ ((does_levelEnd ..).runs h rfl)) fun h₇ => ?_
  · exact (does_sourceLevel ..).runs (.keep (t := v) h ⟨rfl, rfl⟩) rfl
  refine .via s₁₀ (.ite (.setActx h₇ rfl) h₇) fun h₁₀ => ?_
  refine .via s₁₁ ((runs_drainsMove ..).next h₁₀) fun h₁₁ => ?_
  exact (does_setXfc ..).runs h₁₁ rfl

theorem runs_xfSettle (s : State) (c t : Nat) : RunKept s (s.xfSettle c t) :=
  .ite ((runs_xfSwitch ..).next (.refl _)) (.refl _)

theorem runs_ctxRelease (s : State) (c : Nat) : RunKept s (s.ctxRelease c) :=
  .ite (.setActx ((does_loadPage ..).runs (.refl _) rfl) rfl) (.refl _)

theorem runs_recEnd (s : State) (h : Nat) : RunKept s (s.recEnd h) := by
  unfold State.recEnd
  extract_lets x s₁ s₂ s₃
  refine .via s₁ ((does_setRech ..).runs (.refl _) rfl) fun h₁ => ?_
  refine .via s₂ (.each _ h₁ fun _ _ h => (runs_ctxRelease ..).next (.setActx h rfl)) fun h₂ => ?_
  refine .via s₃ (.each _ h₂ fun _ _ h => (does_chunkClose ..).runs h rfl) fun h₃ => ?_
  exact .ite ((does_flushAll ..).runs h₃ rfl) h₃

theorem runs_setFull (s : State) (h : Nat) : RunKept s (s.setFull h) :=
  (runs_recEnd ..).next (.each _ ((does_setRech ..).runs (.refl _) rfl) fun _ _ h => (does_event ..).runs h rfl)

theorem runs_chunkOpen (s : State) (h c kind : Nat) (stamp : SubTick) (recBytes : Nat) : RunKept s (s.chunkOpen h c kind stamp recBytes) := by
  unfold State.chunkOpen
  extract_lets x
  split
  · exact (runs_setFull ..).next (.refl _)
  · exact (does_indexWriting ..).runs ((does_setRech ..).runs (.refl _) rfl) rfl

theorem runs_recPut (s : State) (h c kind : Nat) (stamp : SubTick) (bytes : List Byte) : RunKept s (s.recPut h c kind stamp bytes) := by
  unfold State.recPut
  extract_lets key s₁ x
  refine .via s₁ (.ite (.refl _) ((runs_chunkOpen ..).next (.refl _))) fun h₁ => ?_
  refine .ite (.refl _) ?_
  split
  · exact h₁
  · extract_lets y s₂
    refine .via s₂ ((does_setRech ..).runs h₁ rfl) fun h₂ => ?_
    exact .ite ((does_chunkClose ..).runs h₂ rfl) h₂

theorem runs_strPut (s : State) (c kind : Nat) (stamp step : SubTick) (bytes : List Byte) (lost ovr : Bool) :
    RunKept s (s.strPut c kind stamp step bytes lost ovr) :=
  .ite ((runs_setDrain ..).next (.refl _)) ((runs_setDrain ..).next ((does_setStrs ..).runs (.refl _) rfl))

theorem runs_drainPut (s : State) (c : Nat) (str : Bool) (l : List DrainItem) : RunKept s (s.drainPut c str l) :=
  .each _ ((does_bump ..).runs (.refl _) rfl) fun _ _ h => .ite ((runs_strPut ..).next h) ((runs_recPut ..).next h)

theorem runs_almPut (s : State) (c : Nat) (str : Bool) (words : List Nat) : RunKept s (s.almPut c str words) :=
  .ite ((does_setStrs ..).runs (.refl _) rfl) ((runs_recPut ..).next (.refl _))

theorem runs_icLeave (s : State) (c : Nat) (stamp : SubTick) : RunKept s (s.icLeave c stamp) := by
  unfold State.icLeave
  extract_lets n others busy _ s₁
  refine .via s₁ (.ite (.refl _) (.ite ((does_setInput ..).runs (.refl _) rfl) ((runs_t1Abandon ..).next (.refl _)))) fun h₁ => ?_
  exact .ite (.refl _) (.ite ((does_gapEnd ..).runs ((runs_regain ..).next h₁) rfl) h₁)

theorem runs_icEnter (s : State) (c : Nat) (was : Bool) (stamp : SubTick) : RunKept s (s.icEnter c was stamp) := by
  unfold State.icEnter
  extract_lets p n s₁ _ s₂ s₃ _ s₄ init s₅ s₆ s₇
  refine .via s₁ ?_ fun h₁ => ?_
  · unfold s₁
    split
    · exact .each _ (.refl _) fun _ _ h => (does_wr ..).runs h rfl
    · exact .each _ (.refl _) fun _ _ h => (does_wr ..).runs h rfl
  refine .via s₂ ((does_setInput ..).runs h₁ rfl) fun h₂ => ?_
  refine .via s₃ ((runs_t1Abandon ..).next (.refl _)) fun h₃ => ?_
  refine .via s₄ (.keep h₃ ⟨rfl, rfl⟩) fun h₄ => ?_
  refine .via s₅ ((does_icWrs ..).runs h₄ rfl) fun h₅ => ?_
  refine .via s₆ ((does_setInput ..).runs ((does_setIcAct ..).runs h₅ rfl) rfl) fun h₆ => ?_
  refine .via s₇ ((does_icWr ..).runs h₆ rfl) fun h₇ => ?_
  exact .ite ((does_wr ..).runs (.refl _) rfl) (.ite (.ite (.refl _) (.ite ((runs_lose ..).next h₂) h₂)) (.ite ((does_t1Request ..).runs h₇ rfl)
      ((does_icWr ..).runs h₇ rfl)))

theorem runs_epochMark (s : State) (c : Nat) (start stop : Bool) (stamp : SubTick) : RunKept s (s.epochMark c start stop stamp) := by
  unfold State.epochMark
  extract_lets live _ s₁
  refine .via s₁ (.ite (.refl _) (.setActx (.refl _) rfl)) fun h₁ => ?_
  split
  · exact (does_charge ..).runs ((runs_epochRecord ..).next h₁) rfl
  · exact (runs_epochRecord ..).next h₁

theorem runs_sourceLinks (s : State) (c : Nat) (stamp : SubTick) : RunKept s (s.sourceLinks c stamp) := by
  unfold State.sourceLinks
  extract_lets links s₁
  refine .via s₁ ?_ fun h₁ => ?_
  · unfold s₁
    refine .each _ (.refl _) fun _ _ h₂ => ?_
    extract_lets nm1 nondet x added
    refine .ite h₂ ?_
    refine .ite ?_ ?_
    · split
      · exact (runs_linkRecord ..).next h₂
      · exact h₂
    · exact .ite ((runs_linkRecord ..).next h₂) h₂
  split
  · exact h₁
  · extract_lets gated s₃
    refine .via s₃ ((runs_openLeap ..).next h₁) fun h₃ => ?_
    exact .ite ((runs_openLeap ..).next h₃) h₃

theorem runs_almRest (s : State) (c : Nat) (str : Bool) (n : Nat) : RunKept s (s.almRest c str n) :=
  .ite (.refl _) ((runs_setDrain ..).next (.refl _))

theorem runs_relay (s : State) (c : Nat) (ring : Bool) : RunKept s (s.relay c ring) := by
  unfold State.relay
  extract_lets laid a n s₁ r _ s₂
  refine .via s₁ (.ite ((runs_almRest ..).next ((runs_almRest ..).next (.refl _))) (.refl _)) fun h₁ => ?_
  refine .via s₂ (.setActx h₁ rfl) fun h₂ => ?_
  exact .ite ((does_wr ..).runs h₂ rfl) h₂

theorem runs_drainLeave (s : State) (c : Nat) (str bind src : Bool) : RunKept s (s.drainLeave c str bind src) := by
  unfold State.drainLeave
  refine .ite (.refl _) ?_
  extract_lets s₁ s₂ d s₃
  refine .via s₁ ((runs_drainKeep ..).next ((runs_drainKeep ..).next (.refl _))) fun h₁ => ?_
  refine .via s₂ ((runs_almRest ..).next h₁) fun h₂ => ?_
  refine .via s₃ ((runs_drainPut ..).next ((runs_setDrain ..).next h₂)) fun h₃ => ?_
  exact .ite h₁ (.each _ h₃ fun _ _ h => (runs_almPut ..).next h)

theorem runs_drainEnter (s : State) (c : Nat) (str bind src : Bool) : RunKept s (s.drainEnter c str bind src) :=
  .ite ((runs_setDrain ..).next (.refl _)) (.ite ((runs_drainMove ..).next ((runs_drainMove ..).next (.refl _))) (.refl _))

theorem runs_capBegin (s : State) (c : Nat) : RunKept s (s.capBegin c) :=
  .ite ((does_setCapState ..).runs (.setActx (.refl _) rfl) rfl) (.refl _)

theorem runs_autoArm (s : State) (c : Nat) (next : List (Nat × Fld × Nat)) : RunKept s (s.autoArm c next) :=
  .ite (.withNext _ (runs_arm _ c)) (.refl _)

theorem runs_feedAhead (s : State) (c : Nat) (fix : Bool) (l : List (List SlotSample)) : RunKept s (s.feedAhead c fix l) := by
  unfold State.feedAhead
  refine .each _ (.refl _) fun _ _ h₁ => ?_
  extract_lets y
  refine .via y.2 ?_ fun hy => ?_
  · unfold y
    split
    · exact (does_corrected ..).runs h₁ rfl
    · exact h₁
  exact (runs_feed ..).next hy

end Sys2Proof.Machine
end

section
/-!
PROOF. The equinox: how a context starts, stays or stops, and the obligation (R216, R487, R488).
-/
namespace Sys2Proof.Machine

section
variable {s t u : State}

/-! The context's page leaves those still to switch. -/

/-- Context `c` has passed its switch point, and runs as `r` says. -/
structure Switched (c : Nat) (r : Bool) (u : State) : Prop where
  todo : pg .ctx c ∉ u.epo.todo
  running : (u.actx c).running = r

theorem RunKept.switched {c : Nat} {r : Bool} (k : RunKept t u) (h : Switched c r t) : Switched c r u :=
  ⟨by rw [k.todo]; exact h.todo, (k.running c).trans h.running⟩

theorem actx_setActx_self (s : State) (c : Nat) (a : AcqCtx) : (s.setActx c a).actx c = a := smGet_set_self ..

theorem useBlock_acq (s : State) (p : Nat) : (s.useBlock p).acq = s.acq := (does_useBlock ..).only .acq (by decide)

theorem ctxUse_switches (s : State) (c : Nat) (riders : List Nat) : Switched c (s.actx c).running (s.ctxUse c riders) := by
  refine List.foldlRecOn riders _ (motive := Switched c (s.actx c).running) ⟨?_, ?_⟩ fun t h v _ => ⟨?_, ?_⟩
  · rw [useBlock_leaves]
    simp
  · unfold State.actx
    rw [useBlock_acq]
  · rw [useBlock_leaves]
    exact fun hm => h.todo (List.mem_of_mem_filter hm)
  · rw [← h.running]
    unfold State.actx
    rw [useBlock_acq]

/-! The three cases. -/

theorem ctxStart_switches (s : State) (c t : Nat) (stamp : SubTick) : Switched c true (s.ctxStart c t stamp) := by
  unfold State.ctxStart
  extract_lets p eqx resumed next ahead fix s₁ s₂ s₃ stamp s₄ a laid r s₅ s₆ s₇ s₈ s₉ s₁₀ s₁₁
  have h₁ : pg .ctx c ∉ s₁.epo.todo := (ctxUse_switches ..).todo
  have hkeep : RunKept s₁ s₄ := by
    have h₂ : RunKept s₁ s₂ := .each _ (.refl _) fun _ _ h => (does_wr ..).runs h rfl
    have h₃ : RunKept s₁ s₃ := (does_wrs ..).runs h₂ rfl
    exact .ite h₃ ((does_wrs ..).runs h₃ rfl)
  have h₅ : Switched c true s₅ := by
    refine ⟨?_, ?_⟩
    · exact fun hm => h₁ (hkeep.todo ▸ hm)
    · unfold s₅
      rw [actx_setActx_self]
  have h₆ : RunKept s₅ s₆ := (does_viewStart ..).runs (.refl _) rfl
  have h₇ : RunKept s₅ s₇ := (runs_xfSwitch ..).next ((does_setXfc ..).runs h₆ rfl)
  have h₈ : RunKept s₅ s₈ := (runs_capBegin ..).next ((does_setCapState ..).runs h₇ rfl)
  have h₉ : RunKept s₅ s₉ := (runs_drainEnter ..).next ((runs_drainEnter ..).next h₈)
  have h₁₀ : RunKept s₅ s₁₀ := (runs_epochMark ..).next h₉
  have h₁₁ : RunKept s₅ s₁₁ := (runs_icEnter ..).next ((runs_sourceLinks ..).next h₁₀)
  exact RunKept.switched ((runs_feedAhead ..).next ((runs_autoArm ..).next ((does_ctxPackets ..).runs h₁₁ rfl))) h₅

theorem ctxStay_switches (s : State) (c t : Nat) : Switched c (s.actx c).running (s.ctxStay c t) := by
  unfold State.ctxStay
  extract_lets p old live eqx re next riders same viewed ranXf v was point from_ mode s₁ newMode st s₂ wasOn n fix busy wait levels s₃ later _ s₄
      src recNew strNew s₅ s₆ s₇ s₈ s₉ s₁₀ stamp s₁₁ b again s₁₂ _ s₁₃ masks s₁₄ _ s₁₅ s₁₆ _ s₁₇ s₁₈ s₁₉ s₂₀
  have h₁ : RunKept s s₁ := (runs_icLeave ..).next ((runs_flushRuns ..).next (runs_clockWrite ..))
  have h₂ : RunKept s s₂ := .ite ((runs_stopCapture ..).next h₁) (.ite ((does_setCapState ..).runs h₁ rfl) h₁)
  have h₃ : RunKept s s₃ := .each _ h₂ fun _ _ h => (does_levelEnd ..).runs h rfl
  have h₄ : RunKept s s₄ := .ite h₃ ((does_setInput ..).runs h₃ rfl)
  have h₅ : RunKept s s₅ := (runs_drainLeave ..).next ((runs_drainLeave ..).next h₄)
  have hsw : Switched c (s.actx c).running s₆ := h₅.running c ▸ ctxUse_switches s₅ c riders
  have h₇ : RunKept s₆ s₇ := .ite (.each _ (.refl _) fun _ _ h => (does_wr ..).runs h rfl) (.refl _)
  have h₈ : RunKept s₆ s₈ := .ite ((does_wr ..).runs h₇ rfl) h₇
  have h₉ : RunKept s₆ s₉ := (runs_relay ..).next h₈
  have h₁₀ : RunKept s₆ s₁₀ := (runs_drainEnter ..).next ((runs_drainEnter ..).next h₉)
  have h₁₁ : RunKept s₆ s₁₁ := (runs_epochMark ..).next h₁₀
  have h₁₂ : RunKept s₆ s₁₂ := (runs_regain ..).next h₁₁
  have h₁₃ : RunKept s₆ s₁₃ := .ite (.setActx h₁₂ rfl) h₁₁
  have h₁₄ : RunKept s₆ s₁₄ := (does_gridTurn ..).runs h₁₃ rfl
  have h₁₅ : RunKept s₆ s₁₅ := .ite (.ite (.setActx h₁₄ rfl) ((runs_capBegin ..).next h₁₄)) h₁₄
  have h₁₆ : RunKept s₆ s₁₆ := (does_setView ..).runs h₁₅ rfl
  have h₁₇ : RunKept s₆ s₁₇ := .ite (.each _ h₁₆ fun _ _ h => (does_prevTake ..).runs h rfl) ((does_setView ..).runs h₁₅ rfl)
  have h₁₈ : RunKept s₆ s₁₈ := (runs_icEnter ..).next ((runs_sourceLinks ..).next h₁₇)
  have h₁₉ : RunKept s₆ s₁₉ := .ite h₁₈ ((does_ctxPackets ..).runs h₁₈ rfl)
  have h₂₀ : RunKept s₆ s₂₀ := (runs_xfSettle ..).next ((runs_autoArm ..).next h₁₉)
  exact RunKept.switched (.ite ((runs_feedAhead ..).next h₂₀) (.each _ h₂₀ fun _ _ h => (runs_viewTake ..).next h)) hsw

theorem ctxStop_switches (s : State) (c t : Nat) : Switched c false (s.ctxStop c t) := by
  unfold State.ctxStop
  extract_lets next riders stop s₁ last s₂ s₃ s₄ s₅ x s₆ s₇ s₈ y s₉
  have h₆ : (s₆.actx c).running = false := by
    unfold s₆
    rw [actx_setActx_self]
  have hwr : RunKept s₆ s₇ := (does_wr ..).runs (.refl _) rfl
  have h₇ : (s₇.actx c).running = false := (hwr.running c).trans h₆
  have hsw : Switched c false s₈ := h₇ ▸ ctxUse_switches s₇ c riders
  have h₉ : RunKept s₈ s₉ := (runs_xfSwitch ..).next ((does_setXfc ..).runs (.refl _) rfl)
  exact RunKept.switched ((runs_ctxRelease ..).next ((does_setView ..).runs ((does_setXfc ..).runs h₉ rfl) rfl)) hsw

theorem switchCtx_switches (s : State) (c t : Nat) (stamp : SubTick) : Switched c (imgRuns s.liveImg c) (s.switchCtx c t stamp) := by
  unfold State.switchCtx
  extract_lets ran v
  cases himg : imgRuns s.liveImg c with
  | true =>
    rw [if_pos rfl]
    split
    next hran => exact (show (s.actx c).running = true from hran) ▸ ctxStay_switches s c t
    · exact ctxStart_switches ..
  | false =>
    rw [if_neg Bool.false_ne_true]
    split
    · exact ctxStop_switches ..
    next hran =>
      have hoff : (s.actx c).running = false := by simpa using hran
      exact (runs_ctxRelease ..).switched (hoff ▸ ctxUse_switches s c (s.denRiders c))

/-- A context that is ready passes its switch point. -/
theorem ctxTurn_switches {c t : Nat} {stamp : SubTick} (hprev : (s.xfc c).prev = none) (hready : s.ctxReady c = true) :
    Switched c (imgRuns s.liveImg c) (s.ctxTurn c t stamp) := by
  have hturn : s.ctxTurn c t stamp = s.switchCtx c t stamp := by
    unfold State.ctxTurn
    rw [prevEnd_none hprev]
    exact if_pos hready
  rw [hturn]
  exact switchCtx_switches ..

end

section
variable {s : State} {t : Nat}

theorem ctx_of_blkOf {p : Nat} (hb : blkOf p = some .ctx) : p = pg .ctx (instOf p) := by
  obtain ⟨r, -, -, hfirst, hp, -⟩ := pageRow_blk hb
  rw [hfirst] at hp
  exact hp

theorem blockSwitch_ctx {page : Fin 4096} {stamp : SubTick} (htodo : page.val ∈ s.epo.todo) (hgated : s.gated = false)
    (htick : s.eqxTick ≤ (s.advance t).tick) (hblk : blkOf page = some .ctx) (hprev : (s.xfc (instOf page)).prev = none)
    (hready : (s.advance t).ctxReady (instOf page) = true) :
    Gives (.blockSwitch t page stamp) s fun u => page.val ∉ u.epo.todo ∧ (u.actx (instOf page)).running = imgRuns s.liveImg (instOf page) := by
  have hexec : exec (.blockSwitch t page stamp) s = .next ((s.advance t).ctxTurn (instOf page) (s.advance t).tick stamp) := by
    refine congrArg Host.Outcome.next ((if_neg ?_).trans (if_pos hblk))
    rw [State.advance_epo, gated_advance, eqxTick_advance, hgated, List.contains_iff_mem.2 htodo, decide_eq_false (Nat.not_lt.2 htick)]
    decide
  have h := ctxTurn_switches (t := (s.advance t).tick) (stamp := stamp) (by rw [xfc_advance]; exact hprev) hready
  refine .of_next hexec ⟨?_, h.running.trans (by rw [liveImg_advance])⟩
  exact fun hm => h.todo (ctx_of_blkOf hblk ▸ hm)

theorem contextSwitch_stays {c : Fin 1024} (hc : (s.actx c).running = true ∧ pg .ctx c ∈ s.epo.todo) (hgated : s.gated = false)
    (htick : s.eqxTick ≤ (s.advance t).tick) (hprev : (s.xfc c).prev = none) (hlive : imgRuns s.liveImg c = true) (hsrc : s.sourceReady c = true)
    (hheld : (s.view c).held ≠ []) : Gives (.contextSwitch t c) s fun u => pg .ctx c ∉ u.epo.todo ∧ (u.actx c).running = true := by
  have hready : (s.advance t).ctxReady c = true := by
    unfold State.ctxReady
    simp only [actx_advance, liveImg_advance, sourceReady_advance, view_advance, hc.1, hlive, hsrc]
    simp [hheld]
  have h := ctxTurn_switches (t := (s.advance t).tick) (stamp := 0) (by rw [xfc_advance]; exact hprev) hready
  rw [liveImg_advance, hlive] at h
  exact .of_next (exec_contextSwitch hc.1 hc.2 hgated htick) ⟨h.todo, h.running⟩

theorem contextSwitch_stops {c : Fin 1024} (hc : (s.actx c).running = true ∧ pg .ctx c ∈ s.epo.todo) (hgated : s.gated = false)
    (htick : s.eqxTick ≤ (s.advance t).tick) (hprev : (s.xfc c).prev = none) (hlive : imgRuns s.liveImg c = false)
    (hdone : (s.xfc c).ending = true ∧ (s.xfc c).frames = []) :
    Gives (.contextSwitch t c) s fun u => pg .ctx c ∉ u.epo.todo ∧ (u.actx c).running = false := by
  have hready : (s.advance t).ctxReady c = true := by
    unfold State.ctxReady
    simp only [actx_advance, liveImg_advance, xfc_advance, hc.1, hlive, hdone.1, hdone.2, hprev]
    simp
  have h := ctxTurn_switches (t := (s.advance t).tick) (stamp := 0) (by rw [xfc_advance]; exact hprev) hready
  rw [liveImg_advance, hlive] at h
  exact .of_next (exec_contextSwitch hc.1 hc.2 hgated htick) ⟨h.todo, h.running⟩

end

/-- Settles O41: the equinox, the switch points of pages and contexts, and the ends of the equinox and of probation. -/
theorem equinoxCommandsComplete : Obligations.EquinoxCommandsComplete :=
  ⟨fun _ _ _ hdue hres hrev => equinox_forward hdue hres hrev,
    fun _ _ _ hdue hres hrev => equinox_back hdue hres hrev,
    fun _ _ _ _ htodo hgated htick hblk hready => blockSwitch_switches htodo hgated htick hblk hready,
    fun _ _ _ _ htodo hgated htick hblk hprev hready => blockSwitch_ctx htodo hgated htick hblk hprev hready,
    fun _ _ _ hc hgated htick hprev hlive hgrid hsrc => contextSwitch_ends hc hgated htick hprev hlive hgrid hsrc,
    fun _ _ _ hc hgated htick hprev hlive hsrc hheld => contextSwitch_stays hc hgated htick hprev hlive hsrc hheld,
    fun _ _ _ hc hgated htick hprev hlive hdone => contextSwitch_stops hc hgated htick hprev hlive hdone,
    fun _ _ _ hsw hgated hs1 htodo himage hnext => equinox_completes hsw hgated hs1 htodo himage hnext,
    fun _ _ hact hend hsw hgated => probation_passes hact hend hsw hgated⟩

end Sys2Proof.Machine
end
